-- ==== Sys2Proof/Word.lean ====
section
/-! DEFINITION. The word types: every register is 32 bits wide (R8) and memory is addressed by bytes (R3). -/
set_option autoImplicit false
namespace Sys2Proof

/-- A register (R8). -/
abbrev Word := BitVec 32
/-- A byte of memory or of a packet. -/
abbrev Byte := BitVec 8

end Sys2Proof
end

