-- ==== Sys2Proof/Syntax.lean ====
section
/-! DEFINITION. The commands of the block: one constructor of `Instr` for each row of the opcode table, with the operands
that the outside world or the unit concerned supplies. -/
set_option autoImplicit false
namespace Sys2Proof

/-- The requesters of the register bus (R436, R439). -/
inductive Req where
  | host
  | ziltur
  | debug
  deriving DecidableEq, Repr

/-- What the header of a PTP message tells the device (R37, R38): `transport` is 0 UDP/IPv4, 1 UDP/IPv6, 2 layer 2;
`src` and `srcPort` name the sending port; `corr` is the correction field in units of 2^-16 ns; `tlv` says that a
security or alternate-timescale TLV is present. -/
structure PtpHdr where
  domain : Nat
  transport : Nat
  unicast : Bool
  tlv : Bool
  src : Nat
  srcPort : Nat
  seq : Nat
  logInterval : Int
  corr : Int
  deriving DecidableEq, Repr

/-- The dataset of an Announce message. -/
structure Announce where
  gm : Nat
  prio1 : Nat
  cls : Nat
  acc : Nat
  var : Nat
  prio2 : Nat
  steps : Nat
  timeout : Nat
  utc : Int
  deriving DecidableEq, Repr

/-- A pass that the operand loader sends into the arrays (R82): square or wide, widths a and w, activation pips as
(elements, exponent), tile and row, columns, first-K with the values before its addition, whether its commit makes the
tile DONE, the output group of its row, and whether it carries the swap token. -/
structure PassIn where
  wide : Bool
  a : Nat
  w : Nat
  acts : List (List Int × Nat)
  tile : Nat
  row : Nat
  cols : Nat
  first : Bool
  init : List Nat
  last : Bool
  out : Int
  tok : Bool
  deriving DecidableEq, Repr

/-- What the checks of the arrays find while a pass commits (R103): nothing, a corrected accumulator error, an
uncorrected one in a tile of an array, or a weight parity mismatch in a row of an array. -/
inductive ArrFlt where
  | none
  | eccCorr
  | eccUncorr (arr tile : Nat)
  | parity (arr row : Nat)
  deriving DecidableEq, Repr

/-- What the checks of a window engine find while it gathers (R128): nothing, a corrected line-buffer error, an
uncorrected one in a slot and row, or a parity mismatch in a window-register slot. -/
inductive WinFlt where
  | none
  | eccCorr
  | eccUncorr (slot row : Nat)
  | parity (slot : Nat)
  deriving DecidableEq, Repr

/-- What reading a frame-table entry finds (R185): nothing, a corrected error or an uncorrected one in the entry of a
frame. -/
inductive FrameEcc where
  | none
  | corr (f : Nat)
  | uncorr (f : Nat)
  deriving DecidableEq, Repr

/-- An RTP packet without its header extension, CSRC list and padding (R255): header fields, payload, and the address that
it came from. -/
structure RtpPkt where
  ver : Nat
  pt : Nat
  marker : Bool
  seq : Nat
  ts : Nat
  ssrc : Nat
  payload : List Byte
  src : Nat
  deriving DecidableEq, Repr

/-- The TCP connection of an RTSP session: the server's address and port, and the device's port. -/
structure TcpEnd where
  addr : Nat
  port : Nat
  own : Nat
  deriving DecidableEq, Repr

/-- What the headers of a coded picture say (Table 9-2): random access point, size, depth; the pool buffers of its
references (0xFF and above: never received), the buffers that remain references after it and whether it becomes one itself;
whether it is shown, may be output at once, its output order and the reorder depth; the source of its colour matrix (R280). For AV1
also its own order hint, the order hint that the header expects of each reference, the buffers that motion-field projection reads, and
the buffers whose CDFs, segmentation map and loop-filter deltas are inherited (R232). -/
structure PicHdr where
  rap : Bool
  w : Nat
  h : Nat
  p10 : Bool
  refs : List Nat
  keep : Nat
  isRef : Bool
  shown : Bool
  outNow : Bool
  outPos : Nat
  reorder : Nat
  vui : Nat
  hint : Nat
  hints : List Nat
  proj : List Nat
  state : List Nat
  deriving DecidableEq, Repr

/-- What the codec firmware finds in a unit: a picture, an unsupported profile, format or tool, a header error, a RASL picture
that the standard discards, or a header that only shows a picture held in a buffer (show_existing_frame). -/
inductive Finding where
  | picture (h : PicHdr)
  | unsupported
  | headerErr
  | rasl
  | shows (buf : Nat)
  deriving DecidableEq, Repr

/-- The header of an entry of an H2D ring (R387). -/
structure H2D where
  kind : Nat
  len : Nat
  tag : Nat
  deriving DecidableEq, Repr

/-- An entry of a sample list (Table 16-5). -/
structure ListSamp where
  cove : Nat
  cls : Nat
  flip : Bool
  letterbox : Bool
  gain : Nat
  x0 : Nat
  y0 : Nat
  w : Nat
  h : Nat
  deriving DecidableEq, Repr

/-- A slice record of a host picture command (Table 16-6): data offset and length, type, QP, entropy initialisation, whether deblocking
is off, SAO of luma and chroma, deblocking offsets β and tc, first block, AV1 tile count, offset of the weighted-prediction table. -/
structure SliceRec where
  ofs : Nat
  len : Nat
  type : Nat
  qp : Int
  cabac : Nat
  noDeblock : Bool
  saoLuma : Bool
  saoChroma : Bool
  beta : Int
  tc : Int
  first : Nat
  tiles : Nat
  weights : Nat
  deriving DecidableEq, Repr

/-- A host picture command (Table 9-3): AV1_STATE has a bit for each slot, slot i being entry i of the reference lists; `slices` are the
slice records that the device reads at SLICE_ADDR. -/
structure PicCmd where
  frame : Nat
  ctx : Nat
  outBuf : Nat
  depth : Nat
  rap : Bool
  w : Nat
  h : Nat
  outPos : Nat
  outNow : Bool
  keep : Nat
  list0 : List Nat
  list1 : List Nat
  nslice : Nat
  av1State : Nat
  sliceAddr : Nat
  slices : List SliceRec
  deriving DecidableEq, Repr

/-- The bytes of an encoded picture that the datapath and the header writing of the firmware supply (Table 9-2, R238), as NAL unit
payloads without start code and header: parameter sets in the order (VPS,) SPS, PPS; the buffering-period and picture-timing SEI; the
slice. -/
structure CodedPic where
  sets : List (List Byte)
  sei : List Byte
  slice : List Byte
  deriving DecidableEq, Repr

/-- How a frame ends (R218): its engine time in µs, and what the ECC found (0 nothing, 1 corrected, 2 uncorrected in a datapath store, 3
uncorrected in CCP memory or the mark table). For a decoded picture: the luma rectangles (x, y, width, height) whose slice or tile data
could not be decoded (R235), the chroma format (0 4:2:0, 1 4:2:2, 2 4:4:4, 3 none) and the samples of each plane in raster order, before
the reduction of R216. For an encoded one: each attempt at the QP ladder, and the all-skip picture. -/
structure FrameEnd where
  us : Nat
  ecc : Nat
  conceal : List (Nat × Nat × Nat × Nat)
  chroma : Nat
  luma : List Nat
  cb : List Nat
  cr : List Nat
  tries : List CodedPic
  skip : CodedPic
  deriving DecidableEq, Repr


/-- A mesh flit that fails its ECC (R343): die, router, and whether the error is uncorrectable. -/
structure LinkFlt where
  die : Nat
  router : Nat
  bad : Bool
  deriving DecidableEq, Repr

/-- A request for one burst of DRAM (R322, R342): the requester's name for it, its device address and its own die, its class (Table
14-4), whether the boot controller or Ziltur sent it, for a write the bytes it covers (bit b of the number: byte b of the burst) with
the 256 bytes of data, and a flit error on its way. -/
structure DramReq where
  id : Nat
  addr : Nat
  die : Nat
  cls : Nat
  early : Bool
  wr : Option (Nat × List Byte)
  flt : Option LinkFlt
  deriving DecidableEq, Repr

/-- A QUERY record (Table 12-7): its cove or 0xFFFF, identifier, priority, token limit, named streams, prompt. -/
structure QueryRec where
  cove : Nat
  id : Nat
  prio : Nat
  maxTok : Nat
  imgs : List Nat
  text : List Byte
  deriving DecidableEq, Repr

/-- A CLIP_REQUEST record (Table 12-7): its stream, start and end captures, identifier, buffer, mask classes and delivery channel. -/
structure ClipReq where
  stream : Nat
  start : Nat
  stop : Nat
  id : Nat
  buffer : Nat
  mask : Nat
  deliver : Nat
  deriving DecidableEq, Repr

/-- What the physical and data-link layers report when the link trains (R378, Table 16-8): data-link replays, correctable errors by their bit of the
AER status register (0 Receiver Error, 6 Bad TLP, 7 Bad DLLP, 8 REPLAY_NUM Rollover, 12 Replay Timer Timeout), and fatal ones (4 Data Link
Protocol, 13 Flow Control Protocol, 17 Receiver Overflow, 18 Malformed TLP). -/
structure LinkReport where
  replays : Nat
  corr : List Nat
  fatal : List Nat
  deriving DecidableEq, Repr

/-- What happens to a memory request of the host on its way (Table 16-8): nothing, a write with EP set, a read that meets an uncorrected DRAM
error, a single-bit or double-bit error in an endpoint buffer, a malformed TLP, or a completion that no request matches in its place. -/
inductive TlpFlt where
  | none | poisoned | dramEcc | bufCorr | bufUncorr | malformed | unexpected
  deriving DecidableEq, Repr

/-- The commands: one constructor for each row of the opcode table. -/
inductive Instr where
  /-- REGISTER_WRITE (R13). A register write with no row of its own takes effect in issue order, or is held to the next tide mark for a held field. -/
  | registerWrite (r : Req) (a : Nat) (be : Fin 16) (v : Word)
  /-- REG64_LO_READ (R439). A read of a _LO register returns bits [31:0] and latches bits [63:32] for that requester. -/
  | reg64LoRead (r : Req) (a : Nat)
  /-- REG64_HI_WRITE (R439). A _HI write commits the requester's latched _LO value, so the 64-bit value takes effect as a whole. -/
  | reg64HiWrite (r : Req) (a : Nat) (v : Word)
  /-- PTP_ANNOUNCE (R37). A received Announce message feeds the BMCA, which selects exactly one master port. -/
  | ptpAnnounce (p : Fin 4) (h : PtpHdr) (m : Announce)
  /-- PTP_SYNC (R36). A received Sync gives an offset that steps device time while UNSET, or is corrected through f, and counts toward LOCKED. -/
  | ptpSync (p : Fin 4) (h : PtpHdr) (twoStep : Bool) (origin : Nat)
  /-- PTP_FOLLOW_UP (R37). The Follow_Up of a two-step Sync supplies the precise origin timestamp for the offset. -/
  | ptpFollowUp (p : Fin 4) (h : PtpHdr) (origin : Nat)
  /-- PTP_DELAY_REQ_SEND (R37). At its interval the device sends a Delay_Req or Pdelay_Req carrying a hardware egress timestamp. -/
  | ptpDelayReqSend (p : Fin 4)
  /-- PTP_DELAY_RESP (R36). A Delay_Resp or Pdelay_Resp completes one path-delay measurement. -/
  | ptpDelayResp (p : Fin 4) (h : PtpHdr) (peer : Bool) (t : Nat)
  /-- PTP_PDELAY_REQ (R37). A received Pdelay_Req is answered with a two-step Pdelay_Resp and Pdelay_Resp_Follow_Up. -/
  | ptpPdelayReq (p : Fin 4) (h : PtpHdr)
  /-- ANNOUNCE_RECEIPT_TIMEOUT (R34). No Announce arrives from the selected master within announceReceiptTimeout, so LOCKED becomes HOLDOVER. -/
  | announceReceiptTimeout
  /-- HOLDOVER_LIMIT_EXPIRY (R34). TIDE_HOLDOVER_LIM expires in HOLDOVER, so the time state becomes FREE with f = 0. -/
  | holdoverLimitExpiry
  /-- ACQ_LIMIT_EXPIRY (R36). TIDE_ACQ_LIM expires before LOCKED, so the time state becomes FREE and boot proceeds to the first mark. -/
  | acqLimitExpiry
  /-- SYNC_IN_EDGE (R46). A SYNC_IN rising edge is timestamped and, by sync state and slack window, is accepted as a mark, ignored or counted. -/
  | syncInEdge (high : Nat)
  /-- HOST_EDGE_GO (R45). The host submits TIDE_HOST_EDGE as an edge, or the edge is rejected as too late. -/
  | hostEdgeGo
  /-- HOST_EDGE_TIME_REACHED (R45). Device time reaches a submitted host edge, which is then treated as a SYNC_IN edge. -/
  | hostEdgeTimeReached
  /-- RELOCK (R47). The TIDE_CMD RELOCK command puts the sync state into RELOCK at once. -/
  | relock
  /-- SET_TIME_GO (R49). A request to step device time at the next mark action to the value TIDE_SET_TIME holds now. -/
  | setTimeGo
  /-- TIDE_MARK_ACTION (R50). At a mark's action time the device performs the mark actions in order: SYNC_OUT, batch close, held writes, tide number, reports and scheduled events. -/
  | tideMarkAction
  /-- SYNC_OUT_PULSE_END (R56). SYNC_OUT falls after its configured width. -/
  | syncOutPulseEnd
  /-- PPS_OUT_RISE (R56). PPS_OUT rises at every integer second of device time, except while UNSET. -/
  | ppsOutRise
  /-- PPS_OUT_PULSE_END (R56). PPS_OUT falls after its configured width. -/
  | ppsOutPulseEnd
  /-- DRAM_RETRAIN_WINDOW (R53). A retraining window of the tide opens at its scheduled offset for one half of the channels. -/
  | dramRetrainWindow
  /-- POWER_STEP (R423). At the tide's power step the power manager sets domain states and chooses the ACLK step. -/
  | powerStep (pkg core : Nat)
  /-- CODEC_ROUND_START (R222). A codec service round starts; the start is deferred while a frame runs. -/
  | codecRoundStart
  /-- WEIGHT_ROW_LOADED (R94). The OL finishes writing a weight row into its shadow register, and the row becomes FULL. -/
  | weightRowLoaded (k : Fin 64) (r : Fin 32) (ws : List (List Int × Nat)) (more : Bool)
  /-- PASS_ENTRY (R83). An activation pass enters DPU row 0 after its tile checks. -/
  | passEntry (k : Fin 64) (p : PassIn)
  /-- SWAP_TOKEN_ARRIVAL (R94). The swap-token pass reaches a row, which swaps if FULL or stalls the wavefront. -/
  | swapTokenArrival (k : Fin 64) (r : Fin 32)
  /-- PASS_COMMIT (R92). A pass commits its last accumulator value, and a last-K pass makes its tile DONE. -/
  | passCommit (k : Fin 64) (flt : ArrFlt)
  /-- SWAP_TIMEOUT (R99). A token or held OL write stands still longer than ARR_STALL_LIM, and the task ends contained. -/
  | swapTimeout (k : Fin 64)
  /-- ARR_BIST_START (R107). ARR_BIST_CTRL.START runs array self-test on a core outside any running cove, or is refused. -/
  | arrBistStart (k : Fin 64)
  /-- ARR_BIST_DONE (R105). Array self-test completes, and FAILED is set or cleared. -/
  | arrBistDone (k : Fin 64) (fails : Nat) (step : Nat) (us : Nat)
  /-- WIN_HOLD_RESET (R127). Writing HOLD_RESET = 1 requests that the WE be held in reset. -/
  | winHoldReset (k : Fin 64)
  /-- WE_RESET_ENTER (R127). The WE enters reset once idle, after its command in progress completes. -/
  | weResetEnter (k : Fin 64)
  /-- WIN_RELEASE (R127). Writing HOLD_RESET = 0 starts the WE release. -/
  | winRelease (k : Fin 64)
  /-- WE_RELEASE_DONE (R127). After 2,080 cycles of initialisation the WE sets READY. -/
  | weReleaseDone (k : Fin 64)
  /-- WIN_BIST_START (R129). WIN_CTRL.BIST_START runs WE self-test, or is refused. -/
  | winBistStart (k : Fin 64)
  /-- WE_BIST_DONE (R129). WE self-test completes; a failure fails the core. -/
  | weBistDone (k : Fin 64) (step : Fin 4) (us : Nat)
  /-- LINE_BUFFER_ROW_WRITE (R115). The OL writes an input row into the lowest released slot, or the row is discarded. -/
  | lineBufferRowWrite (k : Fin 64) (blk : Nat) (part : Nat) (set : Nat) (row : Nat)
  /-- WINDOW_GATHER (R117). The WE gathers the pips of one pass into a half of the window register. -/
  | windowGather (k : Fin 64) (m : Nat) (flt : WinFlt)
  /-- WIN_CONV (R116). An OP 0 convolution runs through the WE as square-form passes, decomposed into parts where needed. -/
  | winConv (k : Fin 64) (ecc : Fin 3)
  /-- WIN_DEPTHWISE_CONV (R120). An OP 1 depthwise convolution runs, one channel group per array. -/
  | winDepthwiseConv (k : Fin 64) (ecc : Fin 3)
  /-- WIN_MAX_POOL (R121). An OP 2 max pool reduces each channel in the reduction unit. -/
  | winMaxPool (k : Fin 64) (ecc : Fin 3)
  /-- WIN_AVERAGE_POOL (R122). An OP 3 average pool sums and rescales per part through the partial buffer. -/
  | winAveragePool (k : Fin 64) (ecc : Fin 3)
  /-- WIN_ARGMAX (R123). An OP 4 argmax writes the per-pixel channel index, and optionally the maximum. -/
  | winArgmax (k : Fin 64) (ecc : Fin 3)
  /-- PLAIN_PATH_CONV (R125). A PLAIN_OK convolution runs as a square-form matrix product while the WE is in reset. -/
  | plainPathConv (k : Fin 64) (ecc : Fin 3)
  /-- NEST_MATRIX_PRODUCT (R139). A NEST command with ENG 0 reads its descriptor and walks the loop nest as passes. -/
  | nestMatrixProduct (k : Fin 64) (ecc : Fin 3)
  /-- LPD_RANGE_WRITE (R132). A write to LPD_RANGEc is accepted, or ignored with HOST_REJECT when it would overlap another range. -/
  | lpdRangeWrite (k : Fin 64) (c : Fin 8) (v : Word)
  /-- LPD_SHAPE_WRITE (R144). A host write to a shape register is ignored with HOST_REJECT while the core is in a running cove. -/
  | lpdShapeWrite (k : Fin 64) (j : Fin 16) (v : Word)
  /-- LPD_TABLE_WRITE (R131). A host write to a loop-descriptor entry is ignored with HOST_REJECT while the core is in a running cove. -/
  | lpdTableWrite (k : Fin 64) (e : Fin 64) (j : Fin 64) (v : Word)
  /-- ATTEND (R164). An ATTN command with OP ATTEND computes scores, softmax and values over visible pages. -/
  | attend (k : Fin 64) (ecc : Fin 4) (fe : FrameEcc)
  /-- APPEND (R166). An ATTN command with OP APPEND writes new tokens' keys and values into their page frames. -/
  | append (k : Fin 64) (ecc : Fin 4) (fe : FrameEcc)
  /-- STEP_ADMISSION (R180). The sequence scheduler composes a step, allocates its frames and starts it, or waits. -/
  | stepAdmission (c : Fin 8) (fe : FrameEcc)
  /-- FRAME_COPY_DONE (R175). The whole-frame copy for an append into a shared frame completes; the old frame is DECREFed and the page list updated. -/
  | frameCopyDone (c : Fin 8)
  /-- FRAME_SWEEP (R174). A DRAIN frame whose STAMP is below the oldest active step becomes FREE. -/
  | frameSweep (d : Fin 2)
  /-- STEP_END (R173). Every task of a step has ended; its tokens are handed on and the oldest active step advances. -/
  | stepEnd (c : Fin 8)
  /-- SHARE_PREFIX (R178). SEQ_CMD SHARE_PREFIX shares the first TOKENS positions of SRC with SEQ, or is refused. -/
  | sharePrefix (q src : Fin 1024)
  /-- CANCEL (R179). SEQ_CMD CANCEL ends a sequence at once and DECREFs all its frames. -/
  | cancel (q : Fin 1024)
  /-- EVICT (R183). SEQ_CMD EVICT names a victim in host-assisted exhaustion. -/
  | evict (q : Fin 1024)
  /-- EXH_DONE (R183). SEQ_CMD EXH_DONE ends the host's answer; the device evicts and re-admits. -/
  | exhDone
  /-- KVF_HOST_TIMEOUT (R183). EXH_DONE does not arrive within KVF_HOST_LIM; the waiting sequences are refused. -/
  | kvfHostTimeout (c : Fin 8)
  /-- WITHHOLD (R174). KVF_CMD WITHHOLD takes a frame out of use. -/
  | withhold (f : Nat)
  /-- RETURN (R185). KVF_CMD RETURN puts a withheld frame back at the tail of its free queue. -/
  | returnFrame (f : Nat)
  /-- KVF_CONFIG_WRITE (R187). A KV region configuration write is accepted while no sequence cove runs, is checked, and starts initialisation. -/
  | kvfConfigWrite (r : Req) (i : Fin 11) (v : Word)
  /-- KVF_INIT_DONE (R187). Every frame has been queued FREE, and READY is set. -/
  | kvfInitDone
  /-- SCH_START (R191). SCH_CMD START for a cove is held to the next tide mark. -/
  | schStart (c : Fin 8)
  /-- SCH_STOP (R191). SCH_CMD STOP for a cove is held to the next tide mark. -/
  | schStop (c : Fin 8)
  /-- SCH_COVE_CONFIG_WRITE (R191). A cove configuration write is accepted only in OFF, STOPPED, HOLD or FAULT, and is otherwise rejected. -/
  | schCoveConfigWrite (r : Req) (c : Fin 8) (i : Fin 7) (v : Word)
  /-- JOB_START (R199). A cove starts its next queued job with a fresh shape vector. -/
  | jobStart (c : Fin 8)
  /-- TASK_PLACE (R200). A task of the current stage is placed on the first free eligible core, which loads grid and shapes. -/
  | taskPlace (c : Fin 8)
  /-- COPY (R195). A COPY command moves bytes through the OL, staging weights when STAGE is set. -/
  | copy (k : Fin 64)
  /-- EMIT_DETECT (R297). EMIT kind DETECT hands detections to the track engine of each slot's die. -/
  | emitDetect (k : Fin 64)
  /-- EMIT_COUNT (R297). EMIT kind COUNT hands counts to the MDO for count records. -/
  | emitCount (k : Fin 64)
  /-- EMIT_MASK (R297). EMIT kind MASK hands masks to the MDO for mask records. -/
  | emitMask (k : Fin 64)
  /-- EMIT_EVENT (R297). EMIT kind EVENT hands events to the MDO for event records. -/
  | emitEvent (k : Fin 64)
  /-- EMIT_TEXT (R312). EMIT kind TEXT hands tokens to the MDO for text records. -/
  | emitText (k : Fin 64)
  /-- CONVERT (R72). The VE converts between formats, with one rounding. -/
  | convert (k : Fin 64) (ecc : Fin 3)
  /-- ADD (R77). The VE adds elementwise. -/
  | add (k : Fin 64) (ecc : Fin 3)
  /-- SUB (R77). The VE subtracts elementwise. -/
  | sub (k : Fin 64) (ecc : Fin 3)
  /-- MUL (R77). The VE multiplies elementwise. -/
  | mul (k : Fin 64) (ecc : Fin 3)
  /-- FMA (R77). The VE performs a fused multiply-add. -/
  | fma (k : Fin 64) (ecc : Fin 3)
  /-- MIN (R77). The VE takes the elementwise minimum. -/
  | min (k : Fin 64) (ecc : Fin 3)
  /-- MAX (R77). The VE takes the elementwise maximum. -/
  | max (k : Fin 64) (ecc : Fin 3)
  /-- RELU (R77). The VE applies ReLU. -/
  | relu (k : Fin 64) (ecc : Fin 3)
  /-- RELU6 (R77). The VE applies ReLU6. -/
  | relu6 (k : Fin 64) (ecc : Fin 3)
  /-- LEAKY_RELU (R77). The VE applies leaky ReLU with slope C0. -/
  | leakyRelu (k : Fin 64) (ecc : Fin 3)
  /-- CLIP (R77). The VE clips to the bounds in its constants. -/
  | clip (k : Fin 64) (ecc : Fin 3)
  /-- RECIPROCAL (R77). The VE computes reciprocals. -/
  | reciprocal (k : Fin 64) (ecc : Fin 3)
  /-- SQRT (R77). The VE computes square roots. -/
  | sqrt (k : Fin 64) (ecc : Fin 3)
  /-- RSQRT (R77). The VE computes reciprocal square roots. -/
  | rsqrt (k : Fin 64) (ecc : Fin 3)
  /-- EXP (R77). The VE computes exp. -/
  | exp (k : Fin 64) (ecc : Fin 3)
  /-- EXP2 (R77). The VE computes exp2. -/
  | exp2 (k : Fin 64) (ecc : Fin 3)
  /-- LOG (R77). The VE computes log. -/
  | log (k : Fin 64) (ecc : Fin 3)
  /-- LOG2 (R77). The VE computes log2. -/
  | log2 (k : Fin 64) (ecc : Fin 3)
  /-- SIGMOID (R77). The VE computes sigmoid. -/
  | sigmoid (k : Fin 64) (ecc : Fin 3)
  /-- TANH (R77). The VE computes tanh. -/
  | tanh (k : Fin 64) (ecc : Fin 3)
  /-- SILU (R77). The VE computes SiLU. -/
  | silu (k : Fin 64) (ecc : Fin 3)
  /-- GELU_ERF (R77). The VE computes GELU in erf form. -/
  | geluErf (k : Fin 64) (ecc : Fin 3)
  /-- GELU_TANH (R77). The VE computes GELU in tanh form. -/
  | geluTanh (k : Fin 64) (ecc : Fin 3)
  /-- HARD_SWISH (R77). The VE computes hard-swish. -/
  | hardSwish (k : Fin 64) (ecc : Fin 3)
  /-- LAYER_NORM (R78). The VE computes layer normalisation with fixed-order sums. -/
  | layerNorm (k : Fin 64) (ecc : Fin 3)
  /-- RMS_NORM (R78). The VE computes RMS normalisation with fixed-order sums. -/
  | rmsNorm (k : Fin 64) (ecc : Fin 3)
  /-- SOFTMAX_ROW (R77). The VE computes a row softmax. -/
  | softmaxRow (k : Fin 64) (ecc : Fin 3)
  /-- COMPACT (R144). The VE compacts kept elements and writes the count to a shape register. -/
  | compact (k : Fin 64) (ecc : Fin 3)
  /-- MXINT8_IMPORT (R79). The VE converts MXINT8 to BX8 in place. -/
  | mxint8Import (k : Fin 64) (ecc : Fin 3)
  /-- TO_BX1_ACTIVATION (R72). The VE converts values to BX1 activations with exponent C0. -/
  | toBx1Activation (k : Fin 64) (ecc : Fin 3)
  /-- COMMAND_COMPLETE (R198). A command completes and its completion-log entry is written with status and numeric flags. -/
  | commandComplete (k : Fin 64) (cycles : Nat)
  /-- SLICE_EXPIRY (R207). A cove's turn length elapses on a shared core. -/
  | sliceExpiry (k : Fin 64)
  /-- SWITCH_SAVE_DONE (R209). The save of a suspended task's live bytes completes, and the next cove's turn begins. -/
  | switchSaveDone (k : Fin 64)
  /-- SWITCH_RESTORE_DONE (R209). The restore and weight re-read of a suspended task complete, and the task resumes. -/
  | switchRestoreDone (k : Fin 64)
  /-- TASK_END (R200). A task ends completed or contained, and its core becomes free. -/
  | taskEnd (k : Fin 64)
  /-- STAGE_END (R197). All tasks of a stage have ended; exported shape registers are copied into the shape vector. -/
  | stageEnd (c : Fin 8)
  /-- JOB_END (R199). A job's last stage ends; its queue entry is freed and results are emitted. -/
  | jobEnd (c : Fin 8)
  /-- SCH_CMD_TIMEOUT (R202). A command runs past SCH_CMD_LIM, and its task ends contained. -/
  | schCmdTimeout (k : Fin 64)
  /-- CODEC_SELECT (R221). At a frame end or while idle, the engine selects a ready context by credit or surplus and starts its frame. -/
  | codecSelect (e : Fin 16)
  /-- CCP_PARSE_DONE (R218). The CCP finishes parsing the headers of the next selected frame. -/
  | ccpParseDone (e : Fin 16) (x : Fin 32) (f : Finding)
  /-- CODEC_FRAME_END (R218). The datapath finishes a frame; credit is charged, marks are set and pictures are output. -/
  | codecFrameEnd (e : Fin 16) (fe : FrameEnd)
  /-- CODEC_FRAME_WDOG (R236). A frame's engine time reaches WDOG; the frame is abandoned and charged. -/
  | codecFrameWdog (e : Fin 16) (skip : CodedPic)
  /-- ENGINE_RESET (R245). CDC_CMD ENGINE_RESET reloads codec firmware and abandons any frame in progress. -/
  | engineReset (e : Fin 16)
  /-- ENGINE_RESET_DONE (R245). The engine reset completes, and contexts restart at their next random access point. -/
  | engineResetDone (e : Fin 16)
  /-- MOVE (R223). CDC_CMD MOVE moves a context to a free context of a target engine, or is refused. -/
  | move (e : Fin 16) (x : Fin 32) (g : Fin 16)
  /-- CCP_HEARTBEAT_MISS (R245). The CCP misses its 1 ms heartbeat; CDC_CCP_FAULT is raised and the engine stops selecting. -/
  | ccpHeartbeatMiss (e : Fin 16)
  /-- PICTURE_COMMAND (R224). A host picture command arrives on ring 6 and is checked; the frame is then decoded. -/
  | pictureCommand (h : H2D) (c : PicCmd)
  /-- QP_ANSWER (R242). A host QP arrives on ring 6 for an encode picture. -/
  | qpAnswer (h : H2D) (qp : Nat)
  /-- CODEC_HOST_TIMEOUT (R224). No host answer arrives within CDC_HOST_LIM; the frame is not decoded or encoded. -/
  | codecHostTimeout (e : Fin 16) (x : Fin 32) (skip : CodedPic)
  /-- CLIP_CLOSE (R237). A clip closes at its end time or when its buffer is full, and CLIP_READY is emitted. -/
  | clipClose (e : Fin 16) (x : Fin 32)
  /-- MASK_STALE_EXPIRY (R243). No track commit arrives by capture + MASK_STALE, so older or whole-picture masking is used. -/
  | maskStaleExpiry (e : Fin 16) (x : Fin 32)
  /-- ETH_FRAME_RX (R251). A received Ethernet frame is checked layer by layer and delivered to its destination, or dropped. -/
  | ethFrameRx (p : Fin 4) (bytes : List Byte) (fcsOk : Bool)
  /-- RTP_MEDIA_PACKET (R255). A media packet is matched to its stream, sequence-extended and stored in the jitter buffer. -/
  | rtpMediaPacket (st : Fin 512) (p : RtpPkt)
  /-- RTCP_SENDER_REPORT (R258). A sender report gives a new RTP-to-PTP offset for the stream. -/
  | rtcpSenderReport (st : Fin 512) (ssrc sec frac rtp : Nat)
  /-- RTCP_BYE (R258). An RTCP BYE raises ING_SESSION_LOST. -/
  | rtcpBye (st : Fin 512)
  /-- RTCP_RECEIVER_REPORT (R261). Every RR_INTERVAL a receiver report is sent to each stream's source. -/
  | rtcpReceiverReport (st : Fin 512)
  /-- JB_RELEASE (R262). An access unit reaches its release time and goes to its codec queue, real or as a placeholder. -/
  | jbRelease (st : Fin 512)
  /-- ETH_LINK_DOWN (R250). A port's link goes down; ING_LINK_DOWN is raised and its streams go silent in time. -/
  | ethLinkDown (p : Fin 4)
  /-- ETH_LINK_UP (R250). A port retrains when its link partner returns. -/
  | ethLinkUp (p : Fin 4)
  /-- STREAM_SILENT (R265). No media arrives within ING_SILENT_LIM; the stream becomes SILENT and one span gap record is emitted. -/
  | streamSilent (st : Fin 512)
  /-- COMMIT (R269). ING_ENTRY_CMD COMMIT captures the staged entry and holds it to the next mark. -/
  | commit (st : Fin 512)
  /-- DISABLE (R269). ING_ENTRY_CMD DISABLE stops a stream at the next mark. -/
  | disable (st : Fin 512)
  /-- RESYNC (R270). ING_ENTRY_CMD RESYNC clears a learned SSRC and restarts sequence extension. -/
  | resync (st : Fin 512)
  /-- REOPEN (R266). ING_ENTRY_CMD REOPEN reopens a hardware-mode RTSP session. -/
  | reopen (st : Fin 512)
  /-- RTSP_SESSION_OPEN (R266). Ziltur's RTSP exchange completes and the session's media starts. -/
  | rtspSessionOpen (st : Fin 512) (fmt : Bool) (ssrc pt : Nat) (dst : List Word) (peer : TcpEnd)
  /-- RTSP_KEEPALIVE (R266). At half the session timeout Ziltur sends GET_PARAMETER as keep-alive. -/
  | rtspKeepalive (st : Fin 512)
  /-- ING_SESSION_LOST (R266). A session ends by server close, refusal or timeout; it is not reopened by itself. -/
  | ingSessionLost (st : Fin 512)
  /-- PIPE_PICTURE_START (R273). A pixel pipe takes its next picture and sorts its treatment per cove. -/
  | pipePictureStart (q : Fin 4)
  /-- PIPE_SAMPLE_START (R284). The pipe starts a sample once a staging slot is free. -/
  | pipeSampleStart (q : Fin 4)
  /-- PIPE_SAMPLE_DONE (R283). A sample has been built and written to staging or to a query input store. -/
  | pipeSampleDone (q : Fin 4) (flt : Fin 4)
  /-- SAMPLE_LIST (R278). A host sample list arrives on ring 8, and the picture's samples are built from it. -/
  | sampleList (h : H2D) (es : List ListSamp)
  /-- PIX_HOST_TIMEOUT (R278). No sample list arrives within PIX_HOST_LIM; the picture is not built. -/
  | pixHostTimeout (q : Fin 4)
  /-- BATCH_COPY_DONE (R290). Every slot of a batch has been copied, and the job becomes runnable. -/
  | batchCopyDone (c : Fin 8) (d : Fin 2) (bad : List Nat)
  /-- PIX_Q_CONFIG_WRITE (R295). A queue configuration write is accepted only while the cove is not running. -/
  | pixQConfigWrite (r : Req) (c : Fin 8) (i : Fin 7) (v : Word)
  /-- TRACK_ASSOCIATE (R300). A track engine starts associating a frame once the stream's previous frame has committed. -/
  | trackAssociate (d : Fin 2) (ecc : Fin 3) (lost : Option (Fin 16384))
  /-- TRACK_COMMIT (R298). The association's changes and records are committed as one unit. -/
  | trackCommit (d : Fin 2)
  /-- HANDOFF_CLAIM (R304). A claim on a LOST hand-off candidate is decided atomically by its owning engine. -/
  | handoffClaim (d : Fin 2)
  /-- TRACK_ACTIONS (R303). A host answer of per-detection actions arrives on ring 10 and is applied or rejected. -/
  | trackActions (h : H2D) (acts : List Nat)
  /-- TRK_HOST_TIMEOUT (R303). No track answer arrives within TRK_HOST_LIM; the frame becomes a gap. -/
  | trkHostTimeout (d : Fin 2)
  /-- OVERFLOW_GAP (R308). When the queue next has room, an overflow gap record ends the run of losses. -/
  | overflowGap (ch : Fin 12) (ecc : Fin 3) (i : Nat)
  /-- DGRAM_HOLD_EXPIRY (R309). DGRAM_HOLD after its first record, the datagram is closed and sent. -/
  | dgramHoldExpiry (ch : Fin 8) (ecc : Fin 3) (i : Nat)
  /-- LMP_INGRESS_DATAGRAM (R313). An ingress datagram is checked and its records are dispatched, or it is dropped whole. -/
  | lmpIngressDatagram (p : Fin 4) (src : Nat) (bytes : List Byte)
  /-- INGRESS_RECORD (R313). The host writes an ingress LMP record to ring 4. -/
  | ingressRecord (h : H2D) (bytes : List Byte)
  /-- QUERY (R314). A QUERY record creates a QUEUED sequence, or is refused with a busy record. -/
  | query (src : Nat) (q : QueryRec)
  /-- WAKE (R316). A WAKE record with the right code asks the power manager to leave ebb. -/
  | wake (p : Fin 4) (code : Word)
  /-- CLIP_REQUEST (R315). A clip request is checked and sent to the stream's encode context, or refused. -/
  | clipRequest (src : Nat) (c : ClipReq)
  /-- DRAM_REQUEST (R327). A request reaches its channel's queue and is scheduled, or is unmapped. -/
  | dramRequest (rs : List (Nat × DramReq))
  /-- DRAM_READ_FINAL (R333). A read passes its alert window and delivers data once after ECC check. -/
  | dramReadFinal (d : Fin 2) (ch : Fin 32) (ecc : Fin 3) (w : Fin 32) (flt : Option LinkFlt)
  /-- DRAM_ALERT (R334). A DRAM alert starts a replay of the retry buffer. -/
  | dramAlert (d : Fin 2) (ch : Fin 32)
  /-- REPLAY_DONE (R334). The last replayed command is reissued and normal scheduling resumes. -/
  | replayDone (d : Fin 2) (ch : Fin 32)
  /-- DRAM_REFRESH (R329). A bank's per-bank refresh interval falls due. -/
  | dramRefresh (d : Fin 2) (ch : Fin 32) (b : Fin 128)
  /-- EMERGENCY_REFRESH (R330). A refresh postponed 8 intervals takes its bank at the next burst boundary. -/
  | emergencyRefresh (d : Fin 2) (ch : Fin 32) (b : Fin 128)
  /-- ROW_IDLE_PRECHARGE (R327). A row without commands for 64 cycles is precharged. -/
  | rowIdlePrecharge (d : Fin 2) (ch : Fin 32) (b : Fin 128)
  /-- PATROL_SCRUB_READ (R332). A channel issues its next scrub read each SCRUB_INTERVAL. -/
  | patrolScrubRead (d : Fin 2) (ch : Fin 32) (ecc : Fin 3) (w : Fin 32)
  /-- DRAM_RETRAIN_PAUSE (R337). A channel pauses in its slot of a retraining window and adjusts lane delays. -/
  | dramRetrainPause (d : Fin 2) (ch : Fin 32) (margin lane : Nat)
  /-- RETRAIN_LATE (R338). A channel goes more than 100 ms without a pause. -/
  | retrainLate (d : Fin 2) (ch : Fin 32)
  /-- RETRAIN (R335). DMC_CMD RETRAIN runs full training on a channel. -/
  | retrain (d : Fin 2) (ch : Fin 32)
  /-- RETRAIN_DONE (R335). Channel retraining ends, and the channel is UP or stays DOWN. -/
  | retrainDone (d : Fin 2) (pass : Bool)
  /-- LOCK (R324). Setting DMC_CTRL.LOCK checks the region table and puts it in force. -/
  | lock (d : Fin 2)
  /-- DRAM_TRAINING_DONE (R336). Boot training and zero fill of all channels complete, or fail. -/
  | dramTrainingDone (fail : Option (Fin 64 × Fin 576))
  /-- DLINK_CRC_MISMATCH (R345). A Damarorn flit fails its CRC, and the sender replays. -/
  | dlinkCrcMismatch (d : Fin 2) (p : Fin 32) (again : Bool)
  /-- RETRAIN_PORT (R345). ARB_CMD RETRAIN_PORT retrains a port pair. -/
  | retrainPort (d : Fin 2) (p : Fin 32)
  /-- RETRAIN_PORT_DONE (R345). Port retraining ends, and the pair is up or stays DOWN. -/
  | retrainPortDone (d : Fin 2) (pass : Bool)
  /-- LOCK_LONG (R352). A lock lasts beyond 256 cycles and is reported once without being broken. -/
  | lockLong (d : Fin 2) (ch : Fin 32) (b : Fin 128)
  /-- COLLECTOR_TAKE (R358). The error collector takes one event, logs it, looks up the policy or posts it, and queues an ERROR record. -/
  | collectorTake (ecc : Option (Fin 3 × Fin 1024 × Bool))
  /-- ERR_HOST_CMD (R367). The host answers a PENDING log entry with an action. -/
  | errHostCmd (v : Word)
  /-- ERR_HOST_TIMEOUT (R367). No host answer arrives within ERR_HOST_LIM, and no action is taken. -/
  | errHostTimeout
  /-- ERR_KEEPER_LOST (R374). The die keeper misses its 100 µs heartbeat. -/
  | errKeeperLost
  /-- WE_RESET (R366). The action resets the window engine of the unit's core. -/
  | weReset (k : Fin 64)
  /-- CORE_BIST (R366). The action runs self-test on a core outside any running cove. -/
  | coreBist (k : Fin 64)
  /-- COVE_RESTART (R366). The action restarts a cove at the next marks. -/
  | coveRestart (c : Fin 8)
  /-- MOVE_LOCAL (R366). The action moves contexts to the same die's engine with most free contexts. -/
  | moveLocal (e : Fin 16) (arg : Fin 256)
  /-- MOVE_REMOTE (R366). The action moves contexts to the other die; it is not equivalence-preserving. -/
  | moveRemote (e : Fin 16) (arg : Fin 256)
  /-- ING_REOPEN (R366). The action reopens the unit's stream session. -/
  | ingReopen (st : Fin 512)
  /-- ING_RESYNC (R366). The action resyncs the unit's stream. -/
  | ingResync (st : Fin 512)
  /-- TIDE_RELOCK (R366). The action puts the time unit into RELOCK. -/
  | tideRelock
  /-- TIDE_SOURCE (R366). The action writes the tide source, held to the next mark. -/
  | tideSource (v : Fin 4)
  /-- TIDE_STEP (R366). The action requests a step of device time by the master offset at the next mark. -/
  | tideStep
  /-- DMC_RETRAIN (R366). The action retrains the unit's DRAM channel. -/
  | dmcRetrain (d : Fin 2) (ch : Fin 32)
  /-- DLINK_RETRAIN (R366). The action retrains the unit's Damarorn port pair. -/
  | dlinkRetrain (d : Fin 2) (p : Fin 32)
  /-- KV_RECLAIM (R366). The action evicts the holders of a withheld frame and returns it. -/
  | kvReclaim (f : Nat)
  /-- SEQ_RECOMPUTE (R366). The action evicts waiting sequences for recompute. -/
  | seqRecompute (k : Fin 64)
  /-- SEQ_END (R366). The action ends waiting sequences with a gap marker. -/
  | seqEnd (k : Fin 64)
  /-- SELECT_HW_MODE (R366). The action writes hardware mode for a function, held to the next mark. -/
  | selectHwMode (row : Fin 16)
  /-- DEVICE_RESET (R373). The action runs a warm reset and boot, starting a new run. -/
  | deviceReset
  /-- PCIE_PERST_ASSERT (R457). PCIE_PERST_N low resets only the endpoint, and the link goes down. -/
  | pciePerstAssert
  /-- PCIE_PERST_RELEASE (R377). PCIE_PERST_N is released, and the endpoint answers RRS until CFG_READY. -/
  | pciePerstRelease
  /-- PCIE_LINK_UP (R376). The link trains to L0, reporting LINK_REDUCED below Gen5 x16. -/
  | pcieLinkUp (gen width : Nat) (rep : LinkReport)
  /-- PCIE_LINK_DOWN (R393). DL_Down resets the function; the device keeps running standalone. -/
  | pcieLinkDown
  /-- CONFIG_REQUEST (R379). A configuration read or write is served from the Type 0 header and capabilities. -/
  | configRequest (a : Fin 4096) (be : Fin 16) (wr : Option Word)
  /-- INITIATE_FLR (R392). Initiate Function Level Reset silences DMA and starts the function reset. -/
  | initiateFlr
  /-- FLR_COMPLETE (R392). The function reset completes, and rings and MSI-X return to reset values. -/
  | flrComplete
  /-- PCIE_D3HOT_ENTRY (R380). The function enters D3hot and stops issuing requests. -/
  | pcieD3hotEntry
  /-- PCIE_D0_RETURN (R380). The function returns to D0 with its state kept, and rings resume. -/
  | pcieD0Return
  /-- BAR2_ACCESS (R383). A BAR2 read or write reaches DRAM through the window. -/
  | bar2Access (o n : Nat) (wr : Option (List Byte)) (flt : TlpFlt)
  /-- DOORBELL_WRITE (R389). A ring doorbell write updates PI or CI, or is invalid and stops the ring. -/
  | doorbellWrite (r : Fin 12) (be : Fin 16) (v : Word)
  /-- RING_ENABLE (R386). Setting EN enables a ring with zeroed indices, or fails with PCI_CFG_INVALID. -/
  | ringEnable (r : Fin 12) (cfg : Word)
  /-- RING_DISABLE (R391). Clearing EN finishes the entry in progress and turns the ring OFF. -/
  | ringDisable (r : Fin 12)
  /-- PCI_DMA_ERR (R391). A DMA request of the endpoint fails, and the ring enters STOPPED. -/
  | pciDmaErr (r : Fin 12) (how : Fin 4)
  /-- MSIX_MODERATION_EXPIRY (R385). A ring's moderation time ends, and a deferred vector is signalled. -/
  | msixModerationExpiry (r : Fin 12)
  /-- MSIX_UNMASK (R445). The first unmask of a vector after FLR sends one message if a mapped pending bit is set. -/
  | msixUnmask (v : Fin 64)
  /-- L1_IDLE_EXPIRY (R394). After L1_IDLE without TLPs the endpoint requests L1. -/
  | l1IdleExpiry
  /-- PCI_WAKE (R394). A PCI_WAKE write asks the power manager to leave ebb. -/
  | pciWake (v : Word)
  /-- GEN_IRQ_PEND_WRITE (R444). A W1C write to GEN_IRQ_PEND clears bits and re-requests messages for bits still set. -/
  | genIrqPendWrite (r : Req) (v : Word)
  /-- PORST_N_RELEASE (R454). PORST_N rises; straps are sampled and boot begins with DRAM training. -/
  | porstNRelease (mode : Fin 4)
  /-- PORST_N_ASSERT (R456). PORST_N low resets the whole device at once. -/
  | porstNAssert
  /-- UNDERVOLTAGE (R455). A rail below its minimum for more than 2 µs resets the device as a power-on reset. -/
  | undervoltage
  /-- REFCLK_SYS_LOSS (R456). REFCLK_SYS absent or out of range holds the device in reset. -/
  | refclkSysLoss
  /-- BOOT_ROM_DONE (R411). Security self-test, PUF reconstruction and the identity check complete. -/
  | bootRomDone (pass idOk : Bool) (fp : List Word) (log : Option (Fin 8192))
  /-- BOOT_FLASH_DONE (R398). SFDP and the descriptor are read, and the flash protocol is switched. -/
  | bootFlashDone (dens : Option Nat) (octal : Bool)
  /-- BOOT_HEADER_DONE (R407). A slot's header, certificate and signature are verified, or the slot fails. -/
  | bootHeaderDone (certOk sigOk : Bool) (digest ownerFp : List Word)
  /-- BOOT_DEVICE_DONE (R403). The DEVICE section is applied, the regions are locked and the ports start. -/
  | bootDeviceDone (digest : List Byte)
  /-- SECTION_VERIFIED (R407). A streamed section's digest is compared; a mismatch fails the slot. -/
  | sectionVerified (digest : List Byte)
  /-- BOOT_SELFTEST_DONE (R412). Boot self-tests of arrays, WEs and blocks complete; failing blocks are held off. -/
  | bootSelftestDone (arr : List (Nat × Nat × Nat)) (we : List (Nat × Nat)) (arrUs weUs : Nat) (blk : List Nat)
  /-- BOOT_CONFIG_DONE (R411). KV initialisation and cove loading complete, and the TIME stage begins. -/
  | bootConfigDone
  /-- BOOT_STAGE_TIMEOUT (R411). A boot stage exceeds its bound, and the slot fails. -/
  | bootStageTimeout
  /-- GATE_ACCEPT (R410). The host accepts the gated image, and boot continues. -/
  | gateAccept
  /-- GATE_REJECT (R410). The host rejects the gated image, and the slot fails. -/
  | gateReject
  /-- BOOT_GATE_TIMEOUT (R410). GATE_LIM expires, and boot continues or halts by GATE_FALLBACK. -/
  | bootGateTimeout
  /-- SECT_CHECK (R413). The host asks the device to hash a host-delivered section. -/
  | sectCheck (i : Fin 64)
  /-- SECT_CHECK_DONE (R413). The section hash completes and marks the section OK or raises BOOT_SECT_MISMATCH. -/
  | sectCheckDone (digest : List Byte)
  /-- FLASH_ERASE (R409). BOOT_CMD FLASH_ERASE erases 64 KiB at BOOT_FLASH_ADDR, or is refused. -/
  | flashErase
  /-- FLASH_PROGRAM (R409). BOOT_CMD FLASH_PROGRAM programs BOOT_BUF at BOOT_FLASH_ADDR, or is refused. -/
  | flashProgram
  /-- SLOT_VERIFY (R409). BOOT_CMD SLOT_VERIFY verifies the slot not booted, without writing DRAM. -/
  | slotVerify
  /-- REBOOT (R373). BOOT_CMD REBOOT runs a warm reset. -/
  | reboot
  /-- FLASH_OPERATION_DONE (R400). An xSPI read run, program or erase completes, and the next request starts. -/
  | flashOperationDone (ok : Bool)
  /-- LEAF_CACHE_CHECK_DONE (R416). The leaf-cache root check ends, setting ATT_READY or starting a rebuild. -/
  | leafCacheCheckDone (ok : Bool)
  /-- CACHE_REBUILD_DONE (R416). The leaf cache is recomputed and written to flash. -/
  | cacheRebuildDone
  /-- ATTEST (R418). SEC_CMD ATTEST starts signing a report for the nonce, or is refused. -/
  | attest
  /-- ATTEST_DONE (R418). The signed report is written, and BUSY falls. -/
  | attestDone (res : Fin 4) (check sig : List Byte)
  /-- DOMAIN_TRANSITION_DONE (R422). A domain reaches its target power state. -/
  | domainTransitionDone (d : Fin 100)
  /-- PWR_DOM_TIMEOUT (R423). A domain misses its target within ten times its latency and stays put. -/
  | pwrDomTimeout (d : Fin 100)
  /-- TEMP_SAMPLE (R429). The 24 sensors are sampled every 1 ms and checked. -/
  | tempSample (ts : List Int)
  /-- EBB_ENTER (R431). PWR_CMD EBB_ENTER is held to the next mark. -/
  | ebbEnter (dramOff : Bool)
  /-- EBB_EXIT (R434). PWR_CMD EBB_EXIT starts an exit from ebb at once. -/
  | ebbExit
  /-- GPIO_EDGE (R433). A qualified GPIO edge fires the GPIO wake source. -/
  | gpioEdge (n : Fin 8) (high : Bool) (ns : Nat)
  /-- EBB_EXIT_COMPLETE (R434). Every domain has reached its needed state, and the device runs again. -/
  | ebbExitComplete
  /-- EXTEST (R447). The EXTEST instruction hands the balls to the boundary register. -/
  | extest
  /-- IDCODE (R447). The IDCODE instruction selects the identification register. -/
  | idcode
  /-- SAMPLE_PRELOAD (R447). The SAMPLE/PRELOAD instruction selects the boundary register. -/
  | samplePreload
  /-- BYPASS (R447). The BYPASS instruction selects the bypass bit. -/
  | bypass
  /-- DBG_ACCESS (R447). The DBG_ACCESS instruction selects the debug access register, if permitted. -/
  | dbgAccess (w : Option (BitVec 109)) (ecc : Fin 3)
  /-- REG_READ (R448). A debug REG_READ reads a BAR0 register as an emergency requester. -/
  | regRead (a : Nat)
  /-- REG_WRITE (R449). A debug REG_WRITE writes a BAR0 register. -/
  | regWrite (a : Nat) (v : Word)
  /-- MEM_READ (R449). A debug MEM_READ reads 8 bytes of DRAM when final. -/
  | memRead (a : Nat) (ecc : Fin 3)
  /-- MEM_WRITE (R449). A debug MEM_WRITE writes 8 bytes of DRAM as a masked burst. -/
  | memWrite (a : Nat) (v : BitVec 64)
  /-- CM_READ (R448). A debug CM_READ reads 8 bytes of cluster memory. -/
  | cmRead (a : Nat)
  /-- LOCK_OUT (R447). Setting GEN_DBG_CTRL.LOCK_OUT disables debug access until reset. -/
  | lockOut (r : Req)
  /-- UNDERVOLTAGE_RELEASE (R455). After an undervoltage reset, the device leaves reset once every rail has been in tolerance for 1 ms. -/
  | undervoltageRelease
  /-- REFCLK_SYS_RETURN (R456). REFCLK_SYS returns within 24.9..25.1 MHz and the on-die detector stops holding the device in reset. -/
  | refclkSysReturn
  /-- CLIP_INTERVAL_END (R237). A nominal frame interval of an open clip ends without a taken picture, so the all-skip picture is encoded for it, or a failed IDR is retried at the next interval. -/
  | clipIntervalEnd (e : Fin 16) (x : Fin 32) (skip : CodedPic)
  deriving DecidableEq, Repr

end Sys2Proof
end

