-- ==== Sys2Proof/Decode.lean ====
section
/-! DEFINITION. The command that a word of the opcode table spells. -/
set_option autoImplicit false
namespace Sys2Proof

/-- No row of the table gives bits: the commands are events, register accesses and messages, which no word spells. -/
def decodeTableWord (_nbits _w : Nat) : Option Instr := none

end Sys2Proof
end

