-- ==== Sys2Proof/Config.lean ====
section
/-! DEFINITION. What the spec leaves to the unit at hand, as constants without a body: no proof can see their value. -/
set_option autoImplicit false
namespace Sys2Proof.Config

/-- A fresh free value: the `n`-th value that the device produced where the spec leaves it open (log entry 3). -/
opaque freeInt : Nat → Int
/-- A fresh free value that is a natural number. -/
opaque freeNat : Nat → Nat
/-- The function results of the vector engine within the bounds of Table 3-7, by function code and operand (entry 3). -/
opaque veResult : Nat → BitVec 32 → BitVec 32
/-- Whether the VE function `compact` keeps an element: the spec states no predicate (log entry 3). -/
opaque keeps : BitVec 32 → BitVec 32 → Bool
/-- The bytes that a token stands for in the vocabulary of a cove's work package, whose layout the spec does not give
(R312). -/
opaque detok : Nat → Nat → List (BitVec 8)
/-- The KIND that the header of a metadata ring entry carries, which the spec does not state (R387). -/
opaque metaKind : BitVec 8
/-- The fingerprint of the vendor anchor in the mask ROM (Table 17-8), by word. -/
opaque anchorFp : Nat → BitVec 32
/-- The detector class that R243 calls persons; the spec names no number. -/
opaque personClass : Nat

/-- The prompt and image tokens that Ziltur makes of a query: of the work package at an address, the prompt text and a number of
images; the spec gives no tokeniser (R314). -/
opaque promptTokens : Nat → List (BitVec 8) → Nat → Nat
/-- The token ID at a position of the prompt that Ziltur makes of a query: work package, text, images, position (R184, R314). -/
opaque promptToken : Nat → List (BitVec 8) → Nat → Nat → BitVec 32
/-- The KV heads and the head dimension over 32, each less 1, of the model of the work package at an address: the spec names no place where
the package holds them (R178). -/
opaque kvGeometry : Nat → Nat × Nat

/-- The bytes of the leaf cache, which the security block computes from the PUF seed (R416). -/
opaque leafCache : Nat → BitVec 8

end Sys2Proof.Config
end

