-- ==== Sys2Proof/Machine/Bits.lean ====
section
/-! DEFINITION. Bit fields, signs and byte order (R2, R3, R16). -/
set_option autoImplicit false
namespace Sys2Proof.Machine
open Sys2Proof

/-- Bits [lo + len − 1 : lo] of a number (R2). -/
def bits (n lo len : Nat) : Nat := n / 2 ^ lo % 2 ^ len
/-- Bit `i` of a number. -/
def bitOf (n i : Nat) : Bool := n / 2 ^ i % 2 == 1
/-- `n` with bits [lo + len − 1 : lo] replaced by `v`. -/
def putBits (n lo len v : Nat) : Nat := n - bits n lo len * 2 ^ lo + v % 2 ^ len * 2 ^ lo
/-- The two's complement value of the low `w` bits. -/
def toSigned (n w : Nat) : Int :=
  let m := n % 2 ^ w
  if 2 * m < 2 ^ w then (m : Int) else (m : Int) - 2 ^ w
/-- The low `w` bits of an integer in two's complement. -/
def ofSigned (i : Int) (w : Nat) : Nat := (i % (2 ^ w : Int)).toNat
/-- `i` held within `lo .. hi`. -/
def clampI (i lo hi : Int) : Int := if i < lo then lo else if hi < i then hi else i
/-- `n` held within `lo .. hi`. -/
def clampN (n lo hi : Nat) : Nat := if n < lo then lo else if hi < n then hi else n
/-- ceil(a / b). -/
def ceilDiv (a b : Nat) : Nat := (a + b - 1) / b
/-- 1 for true. -/
def b2n (b : Bool) : Nat := if b then 1 else 0

/-- `n` bytes of `v`, lowest first (R3). -/
def leBytes : Nat → Nat → List Byte
  | 0, _ => []
  | n + 1, v => BitVec.ofNat 8 v :: leBytes n (v / 256)
/-- `n` bytes of `v`, highest first (network order, R3). -/
def beBytes (n v : Nat) : List Byte := (leBytes n v).reverse
/-- The number that bytes spell, lowest first. -/
def leNat : List Byte → Nat
  | [] => 0
  | b :: bs => b.toNat + 256 * leNat bs
/-- The number that bytes spell, highest first. -/
def beNat (bs : List Byte) : Nat := leNat bs.reverse
/-- `bs` with zero bytes up to a multiple of `n`. -/
def padTo (n : Nat) (bs : List Byte) : List Byte := bs ++ List.replicate ((n - bs.length % n) % n) 0

/-- The set bits of `n` below `w`, ascending. -/
def bitList (n w : Nat) : List Nat := (List.range w).filter fun i => bitOf n i
/-- A number from a list of bit positions. -/
def ofBitList (l : List Nat) : Nat := l.foldl (fun a i => if bitOf a i then a else a + 2 ^ i) 0
/-- Bitwise exclusive OR of numbers below 2^64. -/
def xorN (a b : Nat) : Nat := a ^^^ b
/-- A saturating sum. -/
def satAdd (a b top : Nat) : Nat := if top < a + b then top else a + b
/-- The elements of a list at rising positions, numbered from `k`. -/
def enum {α : Type} : List α → Nat → List (Nat × α)
  | [], _ => []
  | x :: xs, k => (k, x) :: enum xs (k + 1)
/-- `l` with element `i` replaced. -/
def setAt {α : Type} (l : List α) (i : Nat) (v : α) : List α := l.set i v
/-- Replace every element that meets `p` through `f`. -/
def modIf {α : Type} (l : List α) (p : α → Bool) (f : α → α) : List α := l.map fun x => if p x then f x else x
/-- Insert by a strict order: before the first element that does not come before `x`. -/
def insertBy {α : Type} (lt : α → α → Bool) (x : α) : List α → List α
  | [] => [x]
  | y :: ys => if lt y x then y :: insertBy lt x ys else x :: y :: ys
/-- A stable sort by a strict order. -/
def sortBy {α : Type} (lt : α → α → Bool) (l : List α) : List α := l.foldr (insertBy lt) []
/-- The first least element by a strict order. -/
def leastBy {α : Type} (lt : α → α → Bool) : List α → Option α
  | [] => none
  | x :: xs => match leastBy lt xs with
    | none => some x
    | some y => if lt y x then some y else some x
/-- Lexicographic order. -/
def lexLt : List Nat → List Nat → Bool
  | a :: as, b :: bs => if a < b then true else if b < a then false else lexLt as bs
  | _, _ => false
/-- Sum of numbers. -/
def sumN (l : List Nat) : Nat := l.foldl (· + ·) 0

end Sys2Proof.Machine
end

