-- ==== Sys2Proof/Machine/Float.lean ====
section
/-! DEFINITION. Floating point and block formats, exactly (R65..R74, R79): a finite value is an integer times a power of
two, and every rounding is to nearest, ties to even. -/
set_option autoImplicit false
namespace Sys2Proof.Machine
open Sys2Proof

/-- A floating-point operand: a finite value (−1)^neg × mant × 2^exp, an infinity or a NaN. -/
inductive Fl where
  | fin (neg : Bool) (mant : Nat) (exp : Int)
  | inf (neg : Bool)
  | nan
  deriving DecidableEq, Repr

/-- The numeric flags of Table 3-6. -/
structure NumFlags where
  sat : Bool := false
  nonfin : Bool := false
  deriving DecidableEq, Repr

/-- Both sets of flags together. -/
def NumFlags.or (a b : NumFlags) : NumFlags := ⟨a.sat || b.sat, a.nonfin || b.nonfin⟩
/-- The field of the completion entry (Table 3-6). -/
def NumFlags.code (f : NumFlags) : Nat := b2n f.sat + 2 * b2n f.nonfin

/-- A result with the flags it sets. -/
structure Fr where
  v : Nat
  fl : NumFlags := {}
  deriving DecidableEq, Repr

/-- Flags of a list of results. -/
def flagsOf (rs : List Fr) : NumFlags := rs.foldl (fun f r => f.or r.fl) {}
/-- Values with the flags that they set. -/
structure Frs where
  vs : List Nat
  fl : NumFlags := {}
  deriving DecidableEq, Repr
/-- The values and the flags of a list of results. -/
def Frs.of (rs : List Fr) : Frs := ⟨rs.map (·.v), flagsOf rs⟩
/-- The same result with further flags. -/
def Fr.with (r : Fr) (fl : NumFlags) : Fr := ⟨r.v, r.fl.or fl⟩

/-- Divide by a power of two, to nearest, ties to even. -/
def rneShift (m k : Nat) : Nat :=
  let q := m / 2 ^ k
  let r := m % 2 ^ k
  if 2 * r > 2 ^ k then q + 1 else if 2 * r = 2 ^ k ∧ 0 < k then q + q % 2 else q
/-- Round a mantissa to `p` bits: the new mantissa and how far it was shifted. -/
def roundMant (p m : Nat) : Nat × Nat :=
  let l := Nat.log2 m + 1
  if l ≤ p then (m, 0)
  else
    let q := rneShift m (l - p)
    if q = 2 ^ p then (q / 2, l - p + 1) else (q, l - p)

/-- FP32 bits of a sign and magnitude. -/
def signed32 (neg : Bool) (n : Nat) : Nat := b2n neg * 2 ^ 31 + n
/-- The canonical NaN of FP32 (Table 3-4). -/
def nan32 : Nat := 0x7FC00000
/-- The largest finite FP32. -/
def max32 : Nat := 0x7F7FFFFF
/-- Round a finite value into FP32 (R69, R72): a result below 2^−126 is flushed to signed zero, an overflow saturates. -/
def pack32 (neg : Bool) (m : Nat) (e : Int) : Fr :=
  if m = 0 then ⟨signed32 neg 0, {}⟩
  else
    let (q, k) := roundMant 24 m
    let top : Int := e + k + Nat.log2 q
    if 127 < top then ⟨signed32 neg max32, { sat := true }⟩
    else if top < -126 then ⟨signed32 neg 0, {}⟩
    else ⟨signed32 neg ((top + 127).toNat * 2 ^ 23 + (q * 2 ^ (23 - Nat.log2 q) - 2 ^ 23)), {}⟩
/-- An FP32 operand; subnormals are flushed to signed zero (R69). -/
def dec32 (n : Nat) : Fl :=
  let neg := bitOf n 31
  let ex := bits n 23 8
  let fr := bits n 0 23
  if ex = 255 then (if fr = 0 then .inf neg else .nan)
  else if ex = 0 then .fin neg 0 0
  else .fin neg (2 ^ 23 + fr) ((ex : Int) - 150)
/-- FP32 bits of any value. -/
def enc32 : Fl → Fr
  | .fin neg m e => pack32 neg m e
  | .inf neg => ⟨signed32 neg 0x7F800000, {}⟩
  | .nan => ⟨nan32, {}⟩
/-- The flag that a nonfinite operand sets (R74). -/
def nonfinOf (n : Nat) : NumFlags := { nonfin := bits n 23 8 == 255 }
/-- The signed integer m·2^(e − base) of a finite value at a base exponent no greater than its own. -/
def flInt (neg : Bool) (m : Nat) (e base : Int) : Int :=
  let x : Int := (m : Int) * 2 ^ (e - base).toNat
  if neg then -x else x

/-- The exact sum of two finite values; a zero sum of opposite signs is +0. -/
def addFl : Fl → Fl → Fl
  | .fin n1 m1 e1, .fin n2 m2 e2 =>
    let base := min e1 e2
    let t := flInt n1 m1 e1 base + flInt n2 m2 e2 base
    if t = 0 then .fin (n1 && n2) 0 0 else .fin (decide (t < 0)) t.natAbs base
  | .nan, _ => .nan
  | _, .nan => .nan
  | .inf n1, .inf n2 => if n1 = n2 then .inf n1 else .nan
  | .inf n, _ => .inf n
  | _, .inf n => .inf n
/-- The exact product. -/
def mulFl : Fl → Fl → Fl
  | .fin n1 m1 e1, .fin n2 m2 e2 => .fin (n1 != n2) (m1 * m2) (e1 + e2)
  | .nan, _ => .nan
  | _, .nan => .nan
  | .inf n1, .inf n2 => .inf (n1 != n2)
  | .inf n1, .fin n2 m _ => if m = 0 then .nan else .inf (n1 != n2)
  | .fin n1 m _, .inf n2 => if m = 0 then .nan else .inf (n1 != n2)
/-- The opposite. -/
def negFl : Fl → Fl
  | .fin n m e => .fin (!n) m e
  | .inf n => .inf (!n)
  | .nan => .nan

/-- An FP32 result with the flags of its operands. -/
def fin32 (ops : List Nat) (x : Fl) : Fr :=
  let r := enc32 x
  ⟨r.v, ops.foldl (fun f o => f.or (nonfinOf o)) r.fl⟩
/-- FP32 sum (Table 3-5). -/
def add32 (a b : Nat) : Fr := fin32 [a, b] (addFl (dec32 a) (dec32 b))
/-- FP32 difference. -/
def sub32 (a b : Nat) : Fr := fin32 [a, b] (addFl (dec32 a) (negFl (dec32 b)))
/-- FP32 product. -/
def mul32 (a b : Nat) : Fr := fin32 [a, b] (mulFl (dec32 a) (dec32 b))
/-- FP32 fused multiply-add: one rounding. -/
def fma32 (a b c : Nat) : Fr := fin32 [a, b, c] (addFl (mulFl (dec32 a) (dec32 b)) (dec32 c))
/-- Quotient of finite mantissas with 60 extra bits and a sticky bit: enough for one correct rounding. -/
def divFin (n1 : Bool) (m1 : Nat) (e1 : Int) (n2 : Bool) (m2 : Nat) (e2 : Int) : Fl :=
  let num := m1 * 2 ^ 60
  .fin (n1 != n2) (num / m2 * 2 + (if num % m2 = 0 then 0 else 1)) (e1 - e2 - 61)
/-- FP32 quotient, correctly rounded; a quotient whose divisor is ±0 is +0.0 (R299). -/
def div32 (a b : Nat) : Fr :=
  match dec32 a, dec32 b with
  | .fin n1 m1 e1, .fin n2 m2 e2 => if m2 = 0 then ⟨0, {}⟩ else fin32 [a, b] (divFin n1 m1 e1 n2 m2 e2)
  | .nan, _ => fin32 [a, b] .nan
  | _, .nan => fin32 [a, b] .nan
  | .inf _, .inf _ => fin32 [a, b] .nan
  | .inf n1, .fin n2 _ _ => fin32 [a, b] (.inf (n1 != n2))
  | .fin n1 _ _, .inf n2 => fin32 [a, b] (.fin (n1 != n2) 0 0)
/-- Square root of a finite nonnegative value with a sticky bit. -/
def sqrtFin (m : Nat) (e : Int) : Fl :=
  let odd := e % 2
  let x := m * 2 ^ (60 + odd.toNat)
  let r := Nat.sqrt x
  .fin false (r * 2 + (if r * r = x then 0 else 1)) ((e - odd - 60) / 2 - 1)
/-- FP32 square root, correctly rounded; a negative gives NaN. -/
def sqrt32 (a : Nat) : Fr :=
  match dec32 a with
  | .fin neg m e =>
    if m = 0 then fin32 [a] (.fin neg 0 0) else if neg then ⟨nan32, { nonfin := true }⟩ else fin32 [a] (sqrtFin m e)
  | .inf false => fin32 [a] (.inf false)
  | _ => ⟨nan32, { nonfin := true }⟩
/-- Magnitude order of two FP32 values read as reals: `a < b`; false when either is a NaN. -/
def lt32 (a b : Nat) : Bool :=
  match dec32 a, dec32 b with
  | .fin n1 m1 e1, .fin n2 m2 e2 => decide (flInt n1 m1 e1 (min e1 e2) < flInt n2 m2 e2 (min e1 e2))
  | .inf true, .inf true => false
  | .inf true, .fin _ _ _ => true
  | .inf true, .inf false => true
  | .fin _ _ _, .inf false => true
  | _, _ => false
/-- Whether an FP32 word is a NaN. -/
def isNan32 (a : Nat) : Bool := dec32 a == .nan
/-- The smaller; a NaN operand gives NaN, and of +0 and −0 the first operand is the result (log entry 58). -/
def min32 (a b : Nat) : Fr :=
  if isNan32 a || isNan32 b then fin32 [a, b] .nan else fin32 [a, b] (if lt32 b a then dec32 b else dec32 a)
/-- The larger, with the same choices. -/
def max32f (a b : Nat) : Fr :=
  if isNan32 a || isNan32 b then fin32 [a, b] .nan else fin32 [a, b] (if lt32 a b then dec32 b else dec32 a)
/-- An integer as FP32. -/
def ofInt32 (i : Int) : Nat := (pack32 (decide (i < 0)) i.natAbs 0).v
/-- An integer times a power of two as FP32. -/
def ofScaled32 (i : Int) (e : Int) : Fr := pack32 (decide (i < 0)) i.natAbs e
/-- A finite FP32 value as an integer, rounded to nearest even; NaN gives 0 and infinities the limits `lo` and `hi`,
which also clamp the rest (R466). -/
def toInt32 (a : Nat) (lo hi : Int) : Int :=
  match dec32 a with
  | .nan => 0
  | .inf neg => if neg then lo else hi
  | .fin neg m e =>
    let k : Nat := if 0 ≤ e then m * 2 ^ e.toNat else rneShift m (-e).toNat
    clampI (if neg then -(k : Int) else k) lo hi

/-! ## FP16 and BF16 (Table 3-4) -/

/-- FP16 to FP32, exact: subnormals become normals. -/
def half2f (n : Nat) : Nat :=
  let neg := bitOf n 15
  let ex := bits n 10 5
  let fr := bits n 0 10
  if ex = 31 then (if fr = 0 then signed32 neg 0x7F800000 else nan32)
  else if ex = 0 then (pack32 neg fr (-24)).v
  else (pack32 neg (1024 + fr) ((ex : Int) - 25)).v
/-- FP32 to FP16: subnormals kept, overflow to ±65,504 with NUM_SAT. -/
def f2half (a : Nat) : Fr :=
  match dec32 a with
  | .nan => ⟨0x7E00, { nonfin := true }⟩
  | .inf neg => ⟨b2n neg * 2 ^ 15 + 0x7C00, { nonfin := true }⟩
  | .fin neg m e =>
    if m = 0 then ⟨b2n neg * 2 ^ 15, {}⟩
    else
      let top : Int := e + Nat.log2 m
      let unit : Int := if top < -14 then -24 else top - 10
      let q : Nat := if unit ≤ e then m * 2 ^ (e - unit).toNat else rneShift m (unit - e).toNat
      let code : Nat := if top < -14 then q else ((top + 14).toNat) * 1024 + q
      if 0x7BFF < code then ⟨b2n neg * 2 ^ 15 + 0x7BFF, { sat := true }⟩ else ⟨b2n neg * 2 ^ 15 + code, {}⟩
/-- BF16 to FP32; subnormals are flushed. -/
def bf2f (n : Nat) : Nat :=
  let x := n * 65536
  if bits x 23 8 = 0 then signed32 (bitOf x 31) 0 else if isNan32 x then nan32 else x
/-- FP32 to BF16: RNE on the 16 dropped bits, overflow to ±0x7F7F, subnormal results flushed. -/
def f2bf (a : Nat) : Fr :=
  match dec32 a with
  | .nan => ⟨0x7FC0, { nonfin := true }⟩
  | .inf neg => ⟨b2n neg * 2 ^ 15 + 0x7F80, { nonfin := true }⟩
  | .fin neg m _ =>
    if m = 0 then ⟨b2n neg * 2 ^ 15, {}⟩
    else
      let q := rneShift (bits a 0 31) 16
      if 0x7F7F < q then ⟨b2n neg * 2 ^ 15 + 0x7F7F, { sat := true }⟩ else ⟨b2n neg * 2 ^ 15 + q, {}⟩

/-! ## Block formats (R65..R68, R73, R79) -/

/-- A pip: 32 elements that share an exponent (R65). -/
structure Pip where
  q : List Int
  e : Nat
  deriving DecidableEq, Repr

/-- A pip of zeros. -/
def zeroPip : Pip := ⟨List.replicate 32 0, 0⟩
/-- Element `i` of a pip; beyond the end 0. -/
def Pip.at (p : Pip) (i : Nat) : Int := p.q.getD i 0
/-- The 32 elements of an n-bit string, two's complement, element i in bits [n·i + n − 1 : n·i] (R66). -/
def unpackPip (n : Nat) (bs : List Byte) : List Int :=
  let v := leNat bs
  (List.range 32).map fun i => toSigned (v / 2 ^ (n * i)) n
/-- The 4n bytes of 32 elements (R66). -/
def packPip (n : Nat) (qs : List Int) : List Byte :=
  let v := (List.range 32).foldl (fun a i => a + ofSigned (qs.getD i 0) n * 2 ^ (n * i)) 0
  leBytes (4 * n) v
/-- The value of an element as FP32: q × 2^(E − 127) (Table 3-5). -/
def bxTo32 (q : Int) (e : Nat) : Fr := ofScaled32 q ((e : Int) - 127)
/-- floor(log2) of the largest finite magnitude of a pip; none when it is 0. -/
def pipTop (xs : List Nat) : Option Int :=
  xs.foldl (fun best x => match dec32 x with
    | .fin _ m e => if m = 0 then best else
      let t : Int := e + Nat.log2 m
      match best with | none => some t | some b => some (max b t)
    | _ => best) none
/-- R73: conversion of a pip of FP32 values to BXn, n ≥ 2. -/
def toBx (n : Nat) (xs : List Nat) : Pip × NumFlags :=
  let e0 : Int := match pipTop xs with | none => 0 | some t => t - ((n : Int) - 2) + 127
  let e := (clampI e0 0 254).toNat
  let lo : Int := -(2 ^ (n - 1))
  let hi : Int := 2 ^ (n - 1) - 1
  let raw (x : Nat) : Int := match dec32 x with
    | .nan => 0
    | .inf neg => if neg then lo else hi
    | .fin neg m ex =>
      let sh : Int := ex + 127 - e
      let k : Nat := if 0 ≤ sh then m * 2 ^ sh.toNat else rneShift m (-sh).toNat
      if neg then -(k : Int) else k
  let ovr := xs.any fun x => decide (raw x < lo) || decide (hi < raw x)
  (⟨xs.map fun x => clampI (raw x) lo hi, e⟩,
   { sat := decide (254 < e0) && ovr, nonfin := xs.any fun x => bits x 23 8 == 255 })
/-- Conversion to BX1 activations: q = −1 where x < 0, else 0, with the command's exponent (Table 3-5). -/
def toBx1 (e : Nat) (xs : List Nat) : Pip × NumFlags :=
  (⟨xs.map fun x => if lt32 x 0 then -1 else 0, e⟩, { nonfin := xs.any fun x => bits x 23 8 == 255 })
/-- R79: one MXINT8 block to BX8, from int8 elements and the scale byte X. -/
def mxImport (qs : List Int) (x : Nat) : Pip × NumFlags :=
  if x = 0xFF then (zeroPip, { nonfin := true })
  else if 6 ≤ x then (⟨qs, x - 6⟩, {})
  else (⟨qs.map fun q => let m := rneShift q.natAbs (6 - x); if q < 0 then -(m : Int) else m, 0⟩, {})

/-! ## Fixed-order reductions (R78) -/

/-- The sum of two results, with the flags of both. -/
def addFr (a b : Fr) : Fr := (add32 a.v b.v).with (a.fl.or b.fl)
/-- The lanes' values at one tree level: lane L with L mod 2^t = 0 takes the sum with lane L + 2^(t−1). -/
def treeLevel (t : Nat) (lanes : List (Option Fr)) : List (Option Fr) :=
  (List.range lanes.length).map fun l =>
    if l % 2 ^ t = 0 then
      match lanes.getD l none, lanes.getD (l + 2 ^ (t - 1)) none with
      | some a, some b => some (addFr a b)
      | some a, none => some a
      | none, b => b
    else lanes.getD l none
/-- The fixed-order FP32 sum of a list. -/
def sum32 (xs : List Nat) : Fr :=
  let add (acc : Option Fr) (x : Nat) : Option Fr := match acc with | none => some ⟨x, {}⟩ | some a => some (addFr a ⟨x, {}⟩)
  let lanes := (List.range 64).map fun l =>
    ((enum xs 0).filter fun p => p.1 % 64 == l).foldl (fun acc p => add acc p.2) none
  match ([1, 2, 3, 4, 5, 6].foldl (fun ls t => treeLevel t ls) lanes).getD 0 none with
  | some v => v
  | none => ⟨0, {}⟩

/-! ## The bit-serial array (R59..R62, R70, R71) -/

/-- Bit `b` of an a-bit two's complement activation. -/
def actBit (q : Int) (a b : Nat) : Int := ((ofSigned q a / 2 ^ b % 2 : Nat) : Int)
/-- The value of a 1-bit weight code, else the two's complement weight (Table 3-1). -/
def weightVal (w : Nat) (q : Int) : Int := if w = 1 then (if ofSigned q 1 = 1 then 1 else -1) else q
/-- Nibble `j` of a weight: for w = 8 the low nibble is unsigned and the high nibble signed; below, one signed nibble. -/
def weightNib (w : Nat) (q : Int) (j : Nat) : Int :=
  if w = 8 then (if j = 0 then ((ofSigned q 8 % 16 : Nat) : Int) else toSigned (ofSigned q 8 / 16) 4) else weightVal w q
/-- One cycle (j, b) of R61: the 32 cells act, and the MSB's sum is negated. -/
def dpuCycle (a w : Nat) (qa qw : List Int) (j b : Nat) : Int :=
  let p := (List.range 32).foldl (fun s i => s + actBit (qa.getD i 0) a b * weightNib w (qw.getD i 0) j) 0
  (if b + 1 = a then -p else p) * 2 ^ (b + 4 * j)
/-- The DPU sum of one pass (R61). -/
def dpuSum (a w : Nat) (qa qw : List Int) : Int :=
  (List.range (ceilDiv w 4)).foldl (fun s j => (List.range a).foldl (fun s b => s + dpuCycle a w qa qw j b) s) 0
/-- R70: the scaled FP32 result of a DPU. -/
def dpuScale (s : Int) (ea ew : Nat) : Fr := ofScaled32 s ((ea : Int) + ew - 254)
/-- One DPU: sum and scale. -/
def dpu (a w : Nat) (act wt : Pip) : Fr := dpuScale (dpuSum a w act.q wt.q) act.e wt.e

end Sys2Proof.Machine
end

