-- ==== Sys2Proof/Machine/RegMap.lean ====
section
/-! DEFINITION. The register map: the BAR0 offset of every register (R436, Table 19-1 and the register map
of each chapter), and for each the bits that a write changes, its held fields, its clamps, its reset value and
the value a field takes when the Hokufel image gives none (R403). -/
set_option autoImplicit false
namespace Sys2Proof.Machine

/-- One clamped field: its lowest bit, its width, and the limits a value is replaced by. -/
structure Clamp where
  lo : Nat
  len : Nat
  min : Nat
  max : Nat
  deriving DecidableEq, Repr

/-- One row of a register map. `dims` gives the copies as (count, stride), outermost first; `rw`, `w1c`, `w1s` and
`held` are bit masks (Table 0-5, R13); `reset` is the value after reset, `lo` tells that the row is the lower half of a 64-bit quantity (R8), `img` tells that the row has fields whose
Reset is IMG, and `image` is the chapter's default for them. -/
structure RegDef where
  off : Nat
  dims : List (Nat × Nat) := []
  rw : Nat := 0
  w1c : Nat := 0
  w1s : Nat := 0
  held : Nat := 0
  reset : Nat := 0
  image : Nat := 0
  img : Bool := false
  lo : Bool := false
  clamps : List Clamp := []
  deriving DecidableEq, Repr

/-- One row of Table 19-1: the copies of a block within a die half and whether die 1 has it. -/
structure Block where
  base : Nat
  count : Nat
  size : Nat
  both : Bool
  regs : List RegDef
  deriving DecidableEq, Repr

/-- The size of one die half of BAR0 (R436). -/
def dieHalf : Nat := 0x2000000
/-- The base of a block that each die has once. -/
def dieBase (d base : Nat) : Nat := dieHalf * d + base
/-- The base of a per-core block: `lc = k mod 32`, die `k / 32` (R436). -/
def coreBase (base size k : Nat) : Nat := dieHalf * (k / 32) + base + size * (k % 32)
/-- The base of codec engine `g`'s block. -/
def engBase (g : Nat) : Nat := dieHalf * (g / 8) + 0x70000 + 0x1000 * (g % 8)
/-- The base of pipe `q`'s block. -/
def pipeBase (q : Nat) : Nat := dieHalf * (q / 2) + 0x60000 + 0x1000 * (q % 2)
end Sys2Proof.Machine

namespace Sys2Proof.Machine.Reg
open Sys2Proof.Machine

/-! Registers of the GEN_ common block (Table 19-3). -/
def GEN_ID (d : Nat) : Nat := dieBase d 0x0
def GEN_REV (d : Nat) : Nat := dieBase d 0x4
def GEN_DIE (d : Nat) : Nat := dieBase d 0x8
def GEN_STATUS : Nat := 0xC
def GEN_ZILTUR_VER : Nat := 0x10
def GEN_SCRATCH (i : Nat) : Nat := 0x20 + 4 * i
def GEN_DBG_CTRL : Nat := 0x30
def GEN_DBG_CNT : Nat := 0x34
def GEN_DBG_REFUSED_CNT : Nat := 0x38
def GEN_IRQ_PEND : Nat := 0x100
def GEN_IRQ_EN : Nat := 0x104
def GEN_IRQ_SENT_CNT : Nat := 0x108
def GEN_IRQ_VEC (i : Nat) : Nat := 0x140 + 4 * i
/-! Registers of the time unit (Table 2-7). -/
def TIDE_CTRL : Nat := 0x10000
def TIDE_RATE : Nat := 0x10004
def TIDE_STATUS : Nat := 0x10008
def TIDE_CMD : Nat := 0x1000C
def TIDE_NUM_LO : Nat := 0x10010
def TIDE_NUM_HI : Nat := 0x10014
def TIDE_MARK_LO : Nat := 0x10018
def TIDE_MARK_HI : Nat := 0x1001C
def TIDE_TIME_LO : Nat := 0x10020
def TIDE_TIME_HI : Nat := 0x10024
def TIDE_SYNCIN_LO : Nat := 0x10028
def TIDE_SYNCIN_HI : Nat := 0x1002C
def TIDE_EDGE_OFS : Nat := 0x10030
def TIDE_EDGE_CNT : Nat := 0x10034
def TIDE_MISS_CNT : Nat := 0x10038
def TIDE_OUTSIDE_CNT : Nat := 0x1003C
def TIDE_EXTRA_CNT : Nat := 0x10040
def TIDE_HOST_EDGE_LO : Nat := 0x10044
def TIDE_HOST_EDGE_HI : Nat := 0x10048
def TIDE_SET_TIME_LO : Nat := 0x1004C
def TIDE_SET_TIME_HI : Nat := 0x10050
def TIDE_RETRAIN_OFS : Nat := 0x10054
def TIDE_POWER_OFS : Nat := 0x10058
def TIDE_CODEC_OFS : Nat := 0x1005C
def TIDE_SYNCOUT_CFG : Nat := 0x10060
def TIDE_PPS_CFG : Nat := 0x10064
def TIDE_PTP_CFG : Nat := 0x10068
def TIDE_PTP_STATUS : Nat := 0x1006C
def TIDE_PTP_OFS : Nat := 0x10070
def TIDE_PTP_FREQ : Nat := 0x10074
def TIDE_HOLDOVER_LIM : Nat := 0x10078
def TIDE_ACQ_LIM : Nat := 0x1007C
def TIDE_ASYM (i : Nat) : Nat := 0x10080 + 4 * i
def TIDE_UTC_OFS : Nat := 0x10090
def TIDE_PTP_DROP : Nat := 0x10094
def TIDE_GM_ID_LO : Nat := 0x10098
def TIDE_GM_ID_HI : Nat := 0x1009C
/-! Registers of the scheduler (Table 8-7). -/
def SCH_STATUS : Nat := 0x11000
def SCH_EVENT : Nat := 0x11004
def SCH_CMD : Nat := 0x11008
def SCH_CMD_LIM : Nat := 0x1100C
def SCH_SLOW_THR : Nat := 0x11010
def SCH_FAULT_INFO : Nat := 0x11014
def SCH_COVE_CFG (i : Nat) : Nat := 0x11100 + 64 * i
def SCH_COVE_CORES_LO (i : Nat) : Nat := 0x11104 + 64 * i
def SCH_COVE_CORES_HI (i : Nat) : Nat := 0x11108 + 64 * i
def SCH_COVE_WP_LO (i : Nat) : Nat := 0x1110C + 64 * i
def SCH_COVE_WP_HI (i : Nat) : Nat := 0x11110 + 64 * i
def SCH_COVE_SAVE0 (i : Nat) : Nat := 0x11114 + 64 * i
def SCH_COVE_SAVE1 (i : Nat) : Nat := 0x11118 + 64 * i
def SCH_COVE_STEP (i : Nat) : Nat := 0x1111C + 64 * i
def SCH_COVE_STATE (i : Nat) : Nat := 0x11120 + 64 * i
def SCH_COVE_JOB (i : Nat) : Nat := 0x11124 + 64 * i
def SCH_COVE_OUTST (i : Nat) : Nat := 0x11128 + 64 * i
def SCH_COVE_SLOW (i : Nat) : Nat := 0x1112C + 64 * i
def SCH_COVE_DEBT (i : Nat) : Nat := 0x11130 + 64 * i
def SCH_COVE_OVERRUN_CNT (i : Nat) : Nat := 0x11134 + 64 * i
def SCH_COVE_SWITCH_CNT (i : Nat) : Nat := 0x11138 + 64 * i
def SCH_COVE_CONTAIN_CNT (i : Nat) : Nat := 0x1113C + 64 * i
def SCH_CORE_STATE (i : Nat) : Nat := 0x11400 + 4 * i
/-! Registers of the metadata output (Table 12-9). -/
def MDO_CTRL : Nat := 0x12000
def MDO_STATUS : Nat := 0x12004
def MDO_EVENT : Nat := 0x12008
def MDO_LMP_PORT : Nat := 0x1200C
def MDO_DEVICE_ID : Nat := 0x12010
def MDO_DGRAM_HOLD : Nat := 0x12014
def MDO_WAKE_CODE : Nat := 0x12018
def MDO_RX_DROP_CNT : Nat := 0x1201C
def MDO_DUP_CNT : Nat := 0x12020
def MDO_RING_MASK (i : Nat) : Nat := 0x12040 + 4 * i
def MDO_DEST_CFG (i : Nat) : Nat := 0x12100 + 64 * i
def MDO_DEST_MASK (i : Nat) : Nat := 0x12104 + 64 * i
def MDO_DEST_ADDR (i j : Nat) : Nat := 0x12108 + 64 * i + 4 * j
def MDO_DEST_UDP (i : Nat) : Nat := 0x12118 + 64 * i
def MDO_CH_SEQ_LO (i : Nat) : Nat := 0x12400 + 32 * i
def MDO_CH_SEQ_HI (i : Nat) : Nat := 0x12404 + 32 * i
def MDO_CH_REC_CNT (i : Nat) : Nat := 0x12408 + 32 * i
def MDO_CH_LOST_CNT (i : Nat) : Nat := 0x1240C + 32 * i
def MDO_CLIP_BUF_ADDR (i : Nat) : Nat := 0x12800 + 8 * i
def MDO_CLIP_BUF_SIZE (i : Nat) : Nat := 0x12804 + 8 * i
/-! Registers of the PCIe endpoint (Table 16-9). -/
def PCI_STATUS : Nat := 0x13000
def PCI_EVENT : Nat := 0x13004
def PCI_ALIVE : Nat := 0x13008
def PCI_WAKE : Nat := 0x1300C
def PCI_BAR2_WIN_LO : Nat := 0x13010
def PCI_BAR2_WIN_HI : Nat := 0x13014
def PCI_BAR2_SIZE : Nat := 0x13018
def PCI_LINK_CFG : Nat := 0x1301C
def PCI_AER_CORR_CNT : Nat := 0x13020
def PCI_AER_NONFATAL_CNT : Nat := 0x13024
def PCI_AER_FATAL_CNT : Nat := 0x13028
def PCI_REPLAY_CNT : Nat := 0x1302C
def PCI_RETRAIN_CNT : Nat := 0x13030
def PCI_LINK_DOWN_CNT : Nat := 0x13034
def PCI_FLR_CNT : Nat := 0x13038
def PCI_STALE_CNT : Nat := 0x1303C
def PCI_FAULT_INFO : Nat := 0x13040
def PCI_ECC_CNT : Nat := 0x13044
def PCI_RING_BASE_LO (i : Nat) : Nat := 0x13100 + 32 * i
def PCI_RING_BASE_HI (i : Nat) : Nat := 0x13104 + 32 * i
def PCI_RING_CFG (i : Nat) : Nat := 0x13108 + 32 * i
def PCI_RING_SHADOW_LO (i : Nat) : Nat := 0x1310C + 32 * i
def PCI_RING_SHADOW_HI (i : Nat) : Nat := 0x13110 + 32 * i
def PCI_RING_PI (i : Nat) : Nat := 0x13114 + 32 * i
def PCI_RING_CI (i : Nat) : Nat := 0x13118 + 32 * i
def PCI_RING_STATE (i : Nat) : Nat := 0x1311C + 32 * i
/-! Registers of the security block (Table 17-8). -/
def SEC_STATUS : Nat := 0x14000
def SEC_EVENT : Nat := 0x14004
def SEC_CMD : Nat := 0x14008
def SEC_CMD_RESULT : Nat := 0x1400C
def SEC_ATT_BUF_LO : Nat := 0x14010
def SEC_ATT_BUF_HI : Nat := 0x14014
def SEC_XMSS_IDX : Nat := 0x14018
def SEC_XMSS_RES : Nat := 0x1401C
def SEC_NONCE (i : Nat) : Nat := 0x14020 + 4 * i
def SEC_DEV_FP (i : Nat) : Nat := 0x14040 + 4 * i
def SEC_OWNER_FP (i : Nat) : Nat := 0x14060 + 4 * i
def SEC_ANCHOR_FP (i : Nat) : Nat := 0x14080 + 4 * i
/-! Registers of the power manager (Table 18-8). -/
def PWR_STATUS : Nat := 0x15000
def PWR_EVENT : Nat := 0x15004
def PWR_CMD : Nat := 0x15008
def PWR_CAP : Nat := 0x1500C
def PWR_SCALE : Nat := 0x15010
def PWR_SCALE4 : Nat := 0x15014
def PWR_THERM : Nat := 0x15018
def PWR_WAKE_EN : Nat := 0x1501C
def PWR_WAKE_SRC : Nat := 0x15020
def PWR_PKG_POWER : Nat := 0x15024
def PWR_ACLK : Nat := 0x15028
def PWR_THROTTLE_CNT : Nat := 0x1502C
def PWR_EBB_CNT : Nat := 0x15030
def PWR_EBB_TIME : Nat := 0x15034
def PWR_FAULT_INFO : Nat := 0x15038
def PWR_TEMP (i : Nat) : Nat := 0x15040 + 4 * i
def PWR_DOM_CFG (i : Nat) : Nat := 0x15100 + 4 * i
def PWR_DOM_STATE (i : Nat) : Nat := 0x15300 + 4 * i
/-! Registers of the boot controller (Table 17-7). -/
def BOOT_STATUS : Nat := 0x16000
def BOOT_EVENT : Nat := 0x16004
def BOOT_CMD : Nat := 0x16008
def BOOT_CMD_RESULT : Nat := 0x1600C
def BOOT_VERSION_LO : Nat := 0x16010
def BOOT_VERSION_HI : Nat := 0x16014
def BOOT_OTHER_VER_LO : Nat := 0x16018
def BOOT_OTHER_VER_HI : Nat := 0x1601C
def BOOT_SECT_PEND_LO : Nat := 0x16020
def BOOT_SECT_PEND_HI : Nat := 0x16024
def BOOT_SECT_OK_LO : Nat := 0x16028
def BOOT_SECT_OK_HI : Nat := 0x1602C
def BOOT_FLASH_ADDR : Nat := 0x16030
def BOOT_COUNT : Nat := 0x16034
def BOOT_TIME : Nat := 0x16038
def BOOT_HDR_DIGEST (i : Nat) : Nat := 0x16040 + 4 * i
def BOOT_BUF (i : Nat) : Nat := 0x17000 + 4 * i
/-! Registers of the error collector (Table 15-10). -/
def ERR_CTRL : Nat := 0x18000
def ERR_STATUS : Nat := 0x18004
def ERR_EVENT : Nat := 0x18008
def ERR_HOST_LIM : Nat := 0x1800C
def ERR_CORR_CNT : Nat := 0x18010
def ERR_CONT_CNT : Nat := 0x18014
def ERR_COVE_CNT : Nat := 0x18018
def ERR_DEV_CNT : Nat := 0x1801C
def ERR_ACT_CNT : Nat := 0x18020
def ERR_ACT_REFUSED_CNT : Nat := 0x18024
def ERR_SUPPRESS_CNT : Nat := 0x18028
def ERR_LOG_HEAD : Nat := 0x1802C
def ERR_HOST_CMD : Nat := 0x18030
def ERR_HOST_RESULT : Nat := 0x18034
def ERR_FAULT_INFO : Nat := 0x18038
def ERR_UNLOGGED_CNT : Nat := 0x1803C
def ERR_LOG (i j : Nat) : Nat := 0x18800 + 32 * i + 4 * j
def ERR_POLICY (i j : Nat) : Nat := 0x19000 + 16 * i + 4 * j
def ERR_POLICY_FIRE (i : Nat) : Nat := 0x1A000 + 4 * i
/-! Registers of the track engine of die d (Table 12-8). -/
def TRK_CTRL (d : Nat) : Nat := dieBase d 0x1C000
def TRK_STATUS (d : Nat) : Nat := dieBase d 0x1C004
def TRK_EVENT (d : Nat) : Nat := dieBase d 0x1C008
def TRK_ASSOC (d : Nat) : Nat := dieBase d 0x1C00C
def TRK_LIMITS (d : Nat) : Nat := dieBase d 0x1C010
def TRK_NOISE (d : Nat) : Nat := dieBase d 0x1C014
def TRK_HANDOFF (d : Nat) : Nat := dieBase d 0x1C018
def TRK_HOST_LIM (d : Nat) : Nat := dieBase d 0x1C01C
def TRK_TABLE_BASE_LO (d : Nat) : Nat := dieBase d 0x1C020
def TRK_TABLE_BASE_HI (d : Nat) : Nat := dieBase d 0x1C024
def TRK_FRAME_CNT (d : Nat) : Nat := dieBase d 0x1C028
def TRK_DET_CNT (d : Nat) : Nat := dieBase d 0x1C02C
def TRK_NEW_CNT (d : Nat) : Nat := dieBase d 0x1C030
def TRK_HANDOFF_CNT (d : Nat) : Nat := dieBase d 0x1C034
def TRK_FULL_CNT (d : Nat) : Nat := dieBase d 0x1C038
def TRK_DET_DROP_CNT (d : Nat) : Nat := dieBase d 0x1C03C
def TRK_FAULT_INFO (d : Nat) : Nat := dieBase d 0x1C040
def TRK_ECC_CNT (d : Nat) : Nat := dieBase d 0x1C044
/-! Registers of the DRAM controller of die d (Table 13-5). -/
def DMC_CTRL (d : Nat) : Nat := dieBase d 0x1D000
def DMC_STATUS (d : Nat) : Nat := dieBase d 0x1D004
def DMC_EVENT (d : Nat) : Nat := dieBase d 0x1D008
def DMC_CMD (d : Nat) : Nat := dieBase d 0x1D00C
def DMC_CMD_RESULT (d : Nat) : Nat := dieBase d 0x1D010
def DMC_CH_DOWN (d : Nat) : Nat := dieBase d 0x1D014
def DMC_REPLAY_CNT (d : Nat) : Nat := dieBase d 0x1D018
def DMC_REPLAY_CMD_CNT (d : Nat) : Nat := dieBase d 0x1D01C
def DMC_ECC_CNT (d : Nat) : Nat := dieBase d 0x1D020
def DMC_FAULT_INFO (d : Nat) : Nat := dieBase d 0x1D024
def DMC_FAULT_ADDR_LO (d : Nat) : Nat := dieBase d 0x1D028
def DMC_FAULT_ADDR_HI (d : Nat) : Nat := dieBase d 0x1D02C
def DMC_RETRAIN_SKIP_CNT (d : Nat) : Nat := dieBase d 0x1D030
def DMC_TEMP (d : Nat) : Nat := dieBase d 0x1D034
def DMC_SCRUB_POS (d : Nat) : Nat := dieBase d 0x1D038
def DMC_MARGIN_THR (d : Nat) : Nat := dieBase d 0x1D03C
def DMC_RGN_BASE (d i : Nat) : Nat := dieBase d 0x1D100 + 8 * i
def DMC_RGN_CFG (d i : Nat) : Nat := dieBase d 0x1D104 + 8 * i
def DMC_CH_STATUS (d i : Nat) : Nat := dieBase d 0x1D400 + 16 * i
def DMC_CH_REPLAY_CNT (d i : Nat) : Nat := dieBase d 0x1D404 + 16 * i
def DMC_CH_ECC_CNT (d i : Nat) : Nat := dieBase d 0x1D408 + 16 * i
def DMC_CH_RETRAIN (d i : Nat) : Nat := dieBase d 0x1D40C + 16 * i
/-! Registers of the arbiters of die d (Table 14-7). -/
def ARB_STATUS (d : Nat) : Nat := dieBase d 0x1E000
def ARB_EVENT (d : Nat) : Nat := dieBase d 0x1E004
def ARB_CMD (d : Nat) : Nat := dieBase d 0x1E008
def ARB_CMD_RESULT (d : Nat) : Nat := dieBase d 0x1E00C
def ARB_DLINK_DOWN (d : Nat) : Nat := dieBase d 0x1E010
def ARB_DLINK_RETRY_CNT (d : Nat) : Nat := dieBase d 0x1E014
def ARB_DLINK_CRC_CNT (d : Nat) : Nat := dieBase d 0x1E018
def ARB_LINK_ECC_CNT (d : Nat) : Nat := dieBase d 0x1E01C
def ARB_LOCK_LONG_CNT (d : Nat) : Nat := dieBase d 0x1E020
def ARB_LOCK_MAX (d : Nat) : Nat := dieBase d 0x1E024
def ARB_PREEMPT_CNT (d : Nat) : Nat := dieBase d 0x1E028
def ARB_FAULT_INFO (d : Nat) : Nat := dieBase d 0x1E02C
def ARB_FCLK_CNT (d : Nat) : Nat := dieBase d 0x1E030
/-! Registers of the stream ingest (Table 10-8). -/
def ING_CTRL : Nat := 0x20000
def ING_STATUS : Nat := 0x20004
def ING_EVENT : Nat := 0x20008
def ING_ENTRY_CMD : Nat := 0x2000C
def ING_ENTRY_RESULT : Nat := 0x20010
def ING_SILENT_LIM : Nat := 0x20014
def ING_SR_STEP_LIM : Nat := 0x20018
def ING_FAULT_INFO : Nat := 0x2001C
def ING_CTL_DROP_CNT : Nat := 0x20020
def ING_STAGE (i : Nat) : Nat := 0x20080 + 4 * i
def ING_PORT_CFG (i : Nat) : Nat := 0x20100 + 64 * i
def ING_PORT_STATUS (i : Nat) : Nat := 0x20104 + 64 * i
def ING_PORT_MAC_LO (i : Nat) : Nat := 0x20108 + 64 * i
def ING_PORT_MAC_HI (i : Nat) : Nat := 0x2010C + 64 * i
def ING_PORT_IPV4 (i : Nat) : Nat := 0x20110 + 64 * i
def ING_PORT_IPV6 (i j : Nat) : Nat := 0x20114 + 64 * i + 4 * j
def ING_PORT_RX_CNT (i : Nat) : Nat := 0x20124 + 64 * i
def ING_PORT_FCS_CNT (i : Nat) : Nat := 0x20128 + 64 * i
def ING_PORT_L3_DROP_CNT (i : Nat) : Nat := 0x2012C + 64 * i
def ING_PORT_CSUM_CNT (i : Nat) : Nat := 0x20130 + 64 * i
def ING_PORT_NOMATCH_CNT (i : Nat) : Nat := 0x20134 + 64 * i
def ING_PORT_TX_CNT (i : Nat) : Nat := 0x20138 + 64 * i
def ING_S_STATE (i : Nat) : Nat := 0x24000 + 64 * i
def ING_S_RX_CNT (i : Nat) : Nat := 0x24004 + 64 * i
def ING_S_DROP_CNT (i : Nat) : Nat := 0x24008 + 64 * i
def ING_S_LOST_CNT (i : Nat) : Nat := 0x2400C + 64 * i
def ING_S_DUP_CNT (i : Nat) : Nat := 0x24010 + 64 * i
def ING_S_LATE_CNT (i : Nat) : Nat := 0x24014 + 64 * i
def ING_S_AU_CNT (i : Nat) : Nat := 0x24018 + 64 * i
def ING_S_PH_CNT (i : Nat) : Nat := 0x2401C + 64 * i
def ING_S_EARLY_CNT (i : Nat) : Nat := 0x24020 + 64 * i
def ING_S_JITTER (i : Nat) : Nat := 0x24024 + 64 * i
def ING_S_SSRC (i : Nat) : Nat := 0x24028 + 64 * i
def ING_S_OFS_LO (i : Nat) : Nat := 0x2402C + 64 * i
def ING_S_OFS_HI (i : Nat) : Nat := 0x24030 + 64 * i
def ING_TABLE (i j : Nat) : Nat := 0x30000 + 128 * i + 4 * j
/-! Registers of the sequence table (Table 7-11). -/
def SEQ_CTRL : Nat := 0x40000
def SEQ_STATUS : Nat := 0x40004
def SEQ_CMD : Nat := 0x40008
def SEQ_CMD_ARG : Nat := 0x4000C
def SEQ_CMD_RESULT : Nat := 0x40010
def SEQ_EVENT : Nat := 0x40014
def SEQ_AU_FAULT : Nat := 0x40018
def SEQ_RECOMPUTE_CNT : Nat := 0x4001C
def SEQ_CANCEL_CNT : Nat := 0x40020
def SEQ_TABLE (i j : Nat) : Nat := 0x48000 + 32 * i + 4 * j
/-! Registers of the pixel common block (Table 11-9). -/
def PIX_CTRL : Nat := 0x50000
def PIX_HOST_LIM : Nat := 0x50004
def PIX_ADM_EVENT : Nat := 0x50008
def PIX_Q_CFG (i : Nat) : Nat := 0x50100 + 64 * i
def PIX_Q_BASE_LO (i : Nat) : Nat := 0x50104 + 64 * i
def PIX_Q_BASE_HI (i : Nat) : Nat := 0x50108 + 64 * i
def PIX_Q_SLOT_BYTES (i : Nat) : Nat := 0x5010C + 64 * i
def PIX_Q_STAGE0 (i : Nat) : Nat := 0x50110 + 64 * i
def PIX_Q_STAGE1 (i : Nat) : Nat := 0x50114 + 64 * i
def PIX_Q_STAGE_SLOTS (i : Nat) : Nat := 0x50118 + 64 * i
def PIX_Q_STATE (i : Nat) : Nat := 0x5011C + 64 * i
def PIX_Q_BATCH_CNT (i : Nat) : Nat := 0x50120 + 64 * i
def PIX_Q_ADMIT_CNT (i : Nat) : Nat := 0x50124 + 64 * i
def PIX_Q_THIN_CNT (i : Nat) : Nat := 0x50128 + 64 * i
def PIX_Q_DROP_CNT (i : Nat) : Nat := 0x5012C + 64 * i
def PIX_Q_VOID_CNT (i : Nat) : Nat := 0x50130 + 64 * i
def PIX_Q_PTR_LO (i : Nat) : Nat := 0x50134 + 64 * i
def PIX_Q_PTR_HI (i : Nat) : Nat := 0x50138 + 64 * i
def PIX_CLASS_A (i j : Nat) : Nat := 0x50400 + 64 * i + 8 * j
def PIX_CLASS_B (i j : Nat) : Nat := 0x50404 + 64 * i + 8 * j
def PIX_S_STATE (i : Nat) : Nat := 0x50800 + 4 * i
def PIX_PROFILE (i j : Nat) : Nat := 0x54000 + 128 * i + 4 * j
def PIX_PYR (i : Nat) : Nat := 0x58000 + 4 * i
def PIX_COEF (i : Nat) : Nat := 0x59000 + 4 * i
/-! Registers of the pixel pipe q (Table 11-8). -/
def PIX_STATUS (q : Nat) : Nat := pipeBase q + 0x0
def PIX_EVENT (q : Nat) : Nat := pipeBase q + 0x4
def PIX_PIC_CNT (q : Nat) : Nat := pipeBase q + 0x8
def PIX_SAMPLE_CNT (q : Nat) : Nat := pipeBase q + 0xC
def PIX_BUSY_CNT_LO (q : Nat) : Nat := pipeBase q + 0x10
def PIX_BUSY_CNT_HI (q : Nat) : Nat := pipeBase q + 0x14
def PIX_STAGE_WAIT_CNT (q : Nat) : Nat := pipeBase q + 0x18
def PIX_CROP_EMPTY_CNT (q : Nat) : Nat := pipeBase q + 0x1C
def PIX_CLAMP_CNT (q : Nat) : Nat := pipeBase q + 0x20
def PIX_ECC_CNT (q : Nat) : Nat := pipeBase q + 0x24
def PIX_FAULT_INFO (q : Nat) : Nat := pipeBase q + 0x28
/-! Registers of the codec engine g (Table 9-7). -/
def CDC_STATUS (g : Nat) : Nat := engBase g + 0x0
def CDC_EVENT (g : Nat) : Nat := engBase g + 0x4
def CDC_CMD (g : Nat) : Nat := engBase g + 0x8
def CDC_CMD_RESULT (g : Nat) : Nat := engBase g + 0xC
def CDC_HOST_LIM (g : Nat) : Nat := engBase g + 0x10
def CDC_ROUND_CNT (g : Nat) : Nat := engBase g + 0x14
def CDC_ROUND_SKIP_CNT (g : Nat) : Nat := engBase g + 0x18
def CDC_BUSY_CNT_LO (g : Nat) : Nat := engBase g + 0x1C
def CDC_BUSY_CNT_HI (g : Nat) : Nat := engBase g + 0x20
def CDC_SURPLUS_CNT (g : Nat) : Nat := engBase g + 0x24
def CDC_ECC_CNT (g : Nat) : Nat := engBase g + 0x28
def CDC_FAULT_INFO (g : Nat) : Nat := engBase g + 0x2C
def CDC_FW_VERSION (g : Nat) : Nat := engBase g + 0x30
def CDC_CTX_CFG (g i : Nat) : Nat := engBase g + 0x400 + 64 * i
def CDC_CTX_STATE (g i : Nat) : Nat := engBase g + 0x404 + 64 * i
def CDC_CTX_DEBT (g i : Nat) : Nat := engBase g + 0x408 + 64 * i
def CDC_CTX_POOL_LO (g i : Nat) : Nat := engBase g + 0x40C + 64 * i
def CDC_CTX_POOL_HI (g i : Nat) : Nat := engBase g + 0x410 + 64 * i
def CDC_CTX_POOL_CFG (g i : Nat) : Nat := engBase g + 0x414 + 64 * i
def CDC_CTX_FRAME_CNT (g i : Nat) : Nat := engBase g + 0x418 + 64 * i
def CDC_CTX_LOST_CNT (g i : Nat) : Nat := engBase g + 0x41C + 64 * i
def CDC_CTX_SUBST_CNT (g i : Nat) : Nat := engBase g + 0x420 + 64 * i
def CDC_CTX_TAINT_CNT (g i : Nat) : Nat := engBase g + 0x424 + 64 * i
def CDC_CTX_WDOG_CNT (g i : Nat) : Nat := engBase g + 0x428 + 64 * i
def CDC_CTX_REENC_CNT (g i : Nat) : Nat := engBase g + 0x42C + 64 * i
def CDC_CTX_RATE (g i : Nat) : Nat := engBase g + 0x430 + 64 * i
def CDC_CTX_CPB (g i : Nat) : Nat := engBase g + 0x434 + 64 * i
def CDC_CTX_ENC (g i : Nat) : Nat := engBase g + 0x438 + 64 * i
def CDC_CTX_CPB_FULL (g i : Nat) : Nat := engBase g + 0x43C + 64 * i
/-! Registers of the matrix arrays of core k (Table 4-4). -/
def ARR_STATUS (k : Nat) : Nat := coreBase 0x80000 0x1000 k + 0x0
def ARR_EVENT (k : Nat) : Nat := coreBase 0x80000 0x1000 k + 0x4
def ARR_STALL_LIM (k : Nat) : Nat := coreBase 0x80000 0x1000 k + 0x8
def ARR_BIST_CTRL (k : Nat) : Nat := coreBase 0x80000 0x1000 k + 0xC
def ARR_BIST_STATUS (k : Nat) : Nat := coreBase 0x80000 0x1000 k + 0x10
def ARR_ACC_USE (k : Nat) : Nat := coreBase 0x80000 0x1000 k + 0x14
def ARR_PASS_CNT_LO (k : Nat) : Nat := coreBase 0x80000 0x1000 k + 0x18
def ARR_PASS_CNT_HI (k : Nat) : Nat := coreBase 0x80000 0x1000 k + 0x1C
def ARR_BUSY_CNT_LO (k : Nat) : Nat := coreBase 0x80000 0x1000 k + 0x20
def ARR_BUSY_CNT_HI (k : Nat) : Nat := coreBase 0x80000 0x1000 k + 0x24
def ARR_SWAP_STALL_CNT (k : Nat) : Nat := coreBase 0x80000 0x1000 k + 0x28
def ARR_LOAD_WAIT_CNT (k : Nat) : Nat := coreBase 0x80000 0x1000 k + 0x2C
def ARR_BUBBLE_CNT (k : Nat) : Nat := coreBase 0x80000 0x1000 k + 0x30
def ARR_ECC_CNT (k : Nat) : Nat := coreBase 0x80000 0x1000 k + 0x34
def ARR_FAULT_INFO (k : Nat) : Nat := coreBase 0x80000 0x1000 k + 0x38
/-! Registers of the window engine of core k (Table 5-4). -/
def WIN_CTRL (k : Nat) : Nat := coreBase 0xA0000 0x1000 k + 0x0
def WIN_STATUS (k : Nat) : Nat := coreBase 0xA0000 0x1000 k + 0x4
def WIN_EVENT (k : Nat) : Nat := coreBase 0xA0000 0x1000 k + 0x8
def WIN_BIST_STATUS (k : Nat) : Nat := coreBase 0xA0000 0x1000 k + 0xC
def WIN_LB_USE (k : Nat) : Nat := coreBase 0xA0000 0x1000 k + 0x10
def WIN_CMD_CNT (k : Nat) : Nat := coreBase 0xA0000 0x1000 k + 0x14
def WIN_ROW_DISCARD_CNT (k : Nat) : Nat := coreBase 0xA0000 0x1000 k + 0x18
def WIN_LB_STALL_CNT (k : Nat) : Nat := coreBase 0xA0000 0x1000 k + 0x1C
def WIN_ECC_CNT (k : Nat) : Nat := coreBase 0xA0000 0x1000 k + 0x20
def WIN_RESET_CNT (k : Nat) : Nat := coreBase 0xA0000 0x1000 k + 0x24
def WIN_FAULT_INFO (k : Nat) : Nat := coreBase 0xA0000 0x1000 k + 0x28
/-! Registers of the loop descriptors of core k (Table 6-9). -/
def LPD_STATUS (k : Nat) : Nat := coreBase 0x100000 0x8000 k + 0x0
def LPD_EVENT (k : Nat) : Nat := coreBase 0x100000 0x8000 k + 0x4
def LPD_GRID (k : Nat) : Nat := coreBase 0x100000 0x8000 k + 0x8
def LPD_FAULT_INFO (k : Nat) : Nat := coreBase 0x100000 0x8000 k + 0xC
def LPD_FAULT_OFS_LO (k : Nat) : Nat := coreBase 0x100000 0x8000 k + 0x10
def LPD_FAULT_OFS_HI (k : Nat) : Nat := coreBase 0x100000 0x8000 k + 0x14
def LPD_CMD_CNT (k : Nat) : Nat := coreBase 0x100000 0x8000 k + 0x18
def LPD_EMPTY_CNT (k : Nat) : Nat := coreBase 0x100000 0x8000 k + 0x1C
def LPD_K0_CNT (k : Nat) : Nat := coreBase 0x100000 0x8000 k + 0x20
def LPD_TILE_WAIT_CNT (k : Nat) : Nat := coreBase 0x100000 0x8000 k + 0x24
def LPD_OVERPLAN_CNT (k : Nat) : Nat := coreBase 0x100000 0x8000 k + 0x28
def LPD_ECC_CNT (k : Nat) : Nat := coreBase 0x100000 0x8000 k + 0x2C
def LPD_RANGE (k i : Nat) : Nat := coreBase 0x100000 0x8000 k + 0x40 + 4 * i
def LPD_SHAPE (k i : Nat) : Nat := coreBase 0x100000 0x8000 k + 0x80 + 4 * i
def LPD_TABLE (k i j : Nat) : Nat := coreBase 0x100000 0x8000 k + 0x4000 + 256 * i + 4 * j
/-! Registers of the KV frames (Table 7-8). -/
def KVF_CTRL : Nat := 0x200000
def KVF_STATUS : Nat := 0x200004
def KVF_EVENT : Nat := 0x200008
def KVF_CMD : Nat := 0x20000C
def KVF_FRAME_BYTES : Nat := 0x200010
def KVF_FRAMES0 : Nat := 0x200014
def KVF_FRAMES1 : Nat := 0x200018
def KVF_HOST_LIM : Nat := 0x20001C
def KVF_BASE0_LO : Nat := 0x200020
def KVF_BASE0_HI : Nat := 0x200024
def KVF_BASE1_LO : Nat := 0x200028
def KVF_BASE1_HI : Nat := 0x20002C
def KVF_FREEQ0_LO : Nat := 0x200030
def KVF_FREEQ0_HI : Nat := 0x200034
def KVF_FREEQ1_LO : Nat := 0x200038
def KVF_FREEQ1_HI : Nat := 0x20003C
def KVF_STEP : Nat := 0x200040
def KVF_OLDEST : Nat := 0x200044
def KVF_FREE0_CNT : Nat := 0x200048
def KVF_FREE1_CNT : Nat := 0x20004C
def KVF_DRAIN_CNT : Nat := 0x200050
def KVF_LIVE_CNT : Nat := 0x200054
def KVF_WITHHELD_CNT : Nat := 0x200058
def KVF_ALLOC_CNT : Nat := 0x20005C
def KVF_COW_CNT : Nat := 0x200060
def KVF_EVICT_CNT : Nat := 0x200064
def KVF_REFSAT_CNT : Nat := 0x200068
def KVF_CLAMP_CNT : Nat := 0x20006C
def KVF_EXH_INFO : Nat := 0x200070
def KVF_ECC_CNT : Nat := 0x200074
def KVF_FAULT_INFO : Nat := 0x200078
def KVF_COVE_LIM (i : Nat) : Nat := 0x200080 + 4 * i
def KVF_COVE_HELD (i : Nat) : Nat := 0x2000A0 + 4 * i
def KVF_TABLE (i : Nat) : Nat := 0x300000 + 4 * i
end Sys2Proof.Machine.Reg

namespace Sys2Proof.Machine

/-- Rows of the map of the GEN_ common block (Table 19-3). -/
def defsGen : List RegDef := [
  { off := 0x0, reset := 0x4C569600 } ,
  { off := 0x4, reset := 0x10010 } ,
  { off := 0x8 } ,
  { off := 0xC } ,
  { off := 0x10, img := true } ,
  { off := 0x20, dims := [(4, 4)], rw := 0xFFFFFFFF } ,
  { off := 0x30, w1s := 0x1 } ,
  { off := 0x34 } ,
  { off := 0x38 } ,
  { off := 0x100, w1c := 0xFFFFFE } ,
  { off := 0x104, rw := 0xFFFFFE, img := true } ,
  { off := 0x108 } ,
  { off := 0x144, dims := [(23, 4)], rw := 0x1F3F, img := true } ]
/-- Rows of the map of the time unit (Table 2-7). -/
def defsTideA : List RegDef := [
  { off := 0x0, rw := 0xF, held := 0x3, img := true } ,
  { off := 0x4, rw := 0x7F, held := 0x7F, image := 0x1E, img := true, clamps := [⟨0, 7, 5, 100⟩] } ,
  { off := 0x8, w1c := 0xFF00, reset := 0xC } ,
  { off := 0xC } ,
  { off := 0x10, lo := true } ,
  { off := 0x14 } ,
  { off := 0x18, lo := true } ,
  { off := 0x1C } ,
  { off := 0x20, lo := true } ,
  { off := 0x24 } ,
  { off := 0x28, lo := true } ,
  { off := 0x2C } ,
  { off := 0x30 } ,
  { off := 0x34 } ,
  { off := 0x38 } ,
  { off := 0x3C } ,
  { off := 0x40 } ,
  { off := 0x44, rw := 0xFFFFFFFF, lo := true } ,
  { off := 0x48, rw := 0xFFFFFFFF } ,
  { off := 0x4C, rw := 0xFFFFFFFF, lo := true } ]
/-- Rows of the map of the time unit (Table 2-7). -/
def defsTideB : List RegDef := [
  { off := 0x50, rw := 0xFFFFFFFF } ,
  { off := 0x54, rw := 0x3FF, held := 0x3FF, img := true, clamps := [⟨0, 10, 0, 900⟩] } ,
  { off := 0x58, rw := 0x1FFFF, held := 0x1FFFF, img := true } ,
  { off := 0x5C, rw := 0x1FFFF, held := 0x1FFFF, img := true } ,
  { off := 0x60, rw := 0x3FF, image := 0xA, img := true, clamps := [⟨0, 10, 1, 1000⟩] } ,
  { off := 0x64, rw := 0x1FF, image := 0x64, img := true, clamps := [⟨0, 9, 1, 500⟩] } ,
  { off := 0x68, rw := 0xFFFF, held := 0xFFFF, img := true, clamps := [⟨0, 8, 0, 239⟩] } ,
  { off := 0x6C } ,
  { off := 0x70 } ,
  { off := 0x74 } ,
  { off := 0x78, rw := 0x1FFFF, image := 0x3C, img := true, clamps := [⟨0, 17, 1, 86400⟩] } ,
  { off := 0x7C, rw := 0xFFFF, image := 0x7D0, img := true } ,
  { off := 0x80, dims := [(4, 4)], rw := 0xFFFFFFFF, img := true } ,
  { off := 0x90 } ,
  { off := 0x94 } ,
  { off := 0x98, lo := true } ,
  { off := 0x9C } ]
/-- Rows of the map of the scheduler (Table 8-7). -/
def defsSchA : List RegDef := [
  { off := 0x0 } ,
  { off := 0x4, w1c := 0x7F } ,
  { off := 0x8 } ,
  { off := 0xC, rw := 0x3FF, image := 0x14, img := true, clamps := [⟨0, 10, 1, 1000⟩] } ,
  { off := 0x10, rw := 0xFFFF, image := 0x180, img := true, clamps := [⟨0, 16, 256, 65535⟩] } ,
  { off := 0x14 } ,
  { off := 0x100, dims := [(8, 64)], rw := 0x3FFFFFF, image := 0x2D13880, img := true, clamps := [⟨4, 15, 500, 20000⟩, ⟨19, 7, 10, 100⟩] } ,
  { off := 0x104, dims := [(8, 64)], rw := 0xFFFFFFFF, img := true, lo := true } ,
  { off := 0x108, dims := [(8, 64)], rw := 0xFFFFFFFF, img := true } ,
  { off := 0x10C, dims := [(8, 64)], rw := 0xFFFFFFFF, img := true, lo := true } ,
  { off := 0x110, dims := [(8, 64)], rw := 0xFF, img := true } ,
  { off := 0x114, dims := [(8, 64)], rw := 0xFFFFF, img := true } ,
  { off := 0x118, dims := [(8, 64)], rw := 0xFFFFF, img := true } ,
  { off := 0x11C, dims := [(8, 64)], rw := 0xFFFFFFFF, held := 0xFFFFFFFF, image := 0x10200200, img := true, clamps := [⟨0, 13, 1, 4096⟩, ⟨13, 12, 16, 2048⟩, ⟨25, 7, 1, 127⟩] } ,
  { off := 0x120, dims := [(8, 64)] } ,
  { off := 0x124, dims := [(8, 64)] } ,
  { off := 0x128, dims := [(8, 64)] } ,
  { off := 0x12C, dims := [(8, 64)] } ,
  { off := 0x130, dims := [(8, 64)] } ,
  { off := 0x134, dims := [(8, 64)] } ]
/-- Rows of the map of the scheduler (Table 8-7). -/
def defsSchB : List RegDef := [
  { off := 0x138, dims := [(8, 64)] } ,
  { off := 0x13C, dims := [(8, 64)] } ,
  { off := 0x400, dims := [(64, 4)] } ]
/-- Rows of the map of the metadata output (Table 12-9). -/
def defsMdo : List RegDef := [
  { off := 0x0, rw := 0x7F, held := 0x3, img := true } ,
  { off := 0x4 } ,
  { off := 0x8, w1c := 0x1F } ,
  { off := 0xC, rw := 0xFFFF, image := 0xB482, img := true } ,
  { off := 0x10, rw := 0xFFFFFFFF, img := true } ,
  { off := 0x14, rw := 0x3FF, image := 0xC8, img := true, clamps := [⟨0, 10, 0, 1000⟩] } ,
  { off := 0x18, rw := 0xFFFFFFFF, img := true } ,
  { off := 0x1C } ,
  { off := 0x20 } ,
  { off := 0x40, dims := [(4, 4)], rw := 0xFFFF, img := true } ,
  { off := 0x100, dims := [(8, 64)], rw := 0x3FF, held := 0x3FF, img := true } ,
  { off := 0x104, dims := [(8, 64)], rw := 0xFFFF, held := 0xFFFF, img := true } ,
  { off := 0x108, dims := [(8, 64), (4, 4)], rw := 0xFFFFFFFF, img := true } ,
  { off := 0x118, dims := [(8, 64)], rw := 0xFFFF, img := true } ,
  { off := 0x400, dims := [(12, 32)], lo := true } ,
  { off := 0x404, dims := [(12, 32)] } ,
  { off := 0x408, dims := [(12, 32)] } ,
  { off := 0x40C, dims := [(12, 32)] } ,
  { off := 0x800, dims := [(64, 8)], rw := 0xFFFFFFF, img := true } ,
  { off := 0x804, dims := [(64, 8)], rw := 0xFFFFF, img := true } ]
/-- Rows of the map of the PCIe endpoint (Table 16-9). -/
def defsPciA : List RegDef := [
  { off := 0x0 } ,
  { off := 0x4, w1c := 0x1FFF } ,
  { off := 0x8, reset := 0x4C569600 } ,
  { off := 0xC } ,
  { off := 0x10, rw := 0xFFFFFFFF, lo := true } ,
  { off := 0x14, rw := 0xFF } ,
  { off := 0x18, img := true } ,
  { off := 0x1C, rw := 0x1FFF, image := 0x50, img := true, clamps := [⟨0, 3, 1, 5⟩, ⟨3, 10, 1, 1023⟩] } ,
  { off := 0x20 } ,
  { off := 0x24 } ,
  { off := 0x28 } ,
  { off := 0x2C } ,
  { off := 0x30 } ,
  { off := 0x34 } ,
  { off := 0x38 } ,
  { off := 0x3C } ,
  { off := 0x40 } ,
  { off := 0x44 } ,
  { off := 0x100, dims := [(12, 32)], rw := 0xFFFFFFFF, lo := true } ,
  { off := 0x104, dims := [(12, 32)], rw := 0xFFFFFFFF } ]
/-- Rows of the map of the PCIe endpoint (Table 16-9). -/
def defsPciB : List RegDef := [
  { off := 0x108, dims := [(12, 32)], rw := 0x3FFFFFF, clamps := [⟨16, 10, 0, 1000⟩] } ,
  { off := 0x10C, dims := [(12, 32)], rw := 0xFFFFFFFF, lo := true } ,
  { off := 0x110, dims := [(12, 32)], rw := 0xFFFFFFFF } ,
  { off := 0x114, dims := [(12, 32)] } ,
  { off := 0x118, dims := [(12, 32)] } ,
  { off := 0x11C, dims := [(12, 32)] } ]
/-- Rows of the map of the security block (Table 17-8). -/
def defsSec : List RegDef := [
  { off := 0x0 } ,
  { off := 0x4, w1c := 0x7F } ,
  { off := 0x8 } ,
  { off := 0xC } ,
  { off := 0x10, rw := 0xFFFFFFFF, lo := true } ,
  { off := 0x14, rw := 0xFF } ,
  { off := 0x18 } ,
  { off := 0x1C } ,
  { off := 0x20, dims := [(8, 4)], rw := 0xFFFFFFFF } ,
  { off := 0x40, dims := [(8, 4)] } ,
  { off := 0x60, dims := [(8, 4)] } ,
  { off := 0x80, dims := [(8, 4)] } ]
/-- Rows of the map of the power manager (Table 18-8). -/
def defsPwr : List RegDef := [
  { off := 0x0 } ,
  { off := 0x4, w1c := 0x7F } ,
  { off := 0x8 } ,
  { off := 0xC, rw := 0xFFFF, held := 0xFFFF, image := 0x28E8, img := true, clamps := [⟨1, 5, 0, 20⟩, ⟨6, 5, 0, 20⟩, ⟨11, 5, 0, 20⟩] } ,
  { off := 0x10, rw := 0x3FFFFFFF, held := 0x3FFFFFFF, image := 0x1C89A724, img := true } ,
  { off := 0x14, rw := 0x3FF, held := 0x3FF, image := 0x13E, img := true } ,
  { off := 0x18, rw := 0xFFFFFF, image := 0x398320, img := true, clamps := [⟨12, 12, 0, 920⟩] } ,
  { off := 0x1C, rw := 0x1FFF, img := true } ,
  { off := 0x20 } ,
  { off := 0x24 } ,
  { off := 0x28 } ,
  { off := 0x2C } ,
  { off := 0x30 } ,
  { off := 0x34 } ,
  { off := 0x38 } ,
  { off := 0x40, dims := [(24, 4)] } ,
  { off := 0x100, dims := [(100, 4)], rw := 0x3, img := true, clamps := [⟨0, 2, 0, 2⟩] } ,
  { off := 0x300, dims := [(100, 4)] } ]
/-- Rows of the map of the boot controller (Table 17-7). -/
def defsBoot : List RegDef := [
  { off := 0x0 } ,
  { off := 0x4, w1c := 0x7F } ,
  { off := 0x8 } ,
  { off := 0xC } ,
  { off := 0x10, lo := true } ,
  { off := 0x14 } ,
  { off := 0x18, lo := true } ,
  { off := 0x1C } ,
  { off := 0x20, lo := true } ,
  { off := 0x24 } ,
  { off := 0x28, lo := true } ,
  { off := 0x2C } ,
  { off := 0x30, rw := 0x1FFFFFFF } ,
  { off := 0x34 } ,
  { off := 0x38 } ,
  { off := 0x40, dims := [(8, 4)] } ,
  { off := 0x1000, dims := [(1024, 4)], rw := 0xFFFFFFFF } ]
/-- Rows of the map of the error collector (Table 15-10). -/
def defsErr : List RegDef := [
  { off := 0x0, rw := 0x1, held := 0x1, img := true } ,
  { off := 0x4, reset := 0x2 } ,
  { off := 0x8, w1c := 0x3F } ,
  { off := 0xC, rw := 0xFFFF, image := 0x14, img := true, clamps := [⟨0, 16, 1, 65535⟩] } ,
  { off := 0x10 } ,
  { off := 0x14 } ,
  { off := 0x18 } ,
  { off := 0x1C } ,
  { off := 0x20 } ,
  { off := 0x24 } ,
  { off := 0x28 } ,
  { off := 0x2C } ,
  { off := 0x30 } ,
  { off := 0x34 } ,
  { off := 0x38 } ,
  { off := 0x3C } ,
  { off := 0x800, dims := [(64, 32), (8, 4)] } ,
  { off := 0x1000, dims := [(256, 16), (4, 4)], rw := 0xFFFFFFFF, held := 0xFFFFFFFF, img := true } ,
  { off := 0x2000, dims := [(256, 4)] } ]
/-- Rows of the map of the track engine of die d (Table 12-8). -/
def defsTrk : List RegDef := [
  { off := 0x0, rw := 0x3, held := 0x2, img := true } ,
  { off := 0x4 } ,
  { off := 0x8, w1c := 0x1F } ,
  { off := 0xC, rw := 0xFFFFFFFF, image := 0xB34D8080, img := true } ,
  { off := 0x10, rw := 0xFFFFFFFF, image := 0x80BB8380, img := true, clamps := [⟨8, 4, 1, 15⟩, ⟨12, 12, 10, 4095⟩] } ,
  { off := 0x14, rw := 0xFFFFF, image := 0xCD00, img := true } ,
  { off := 0x18, rw := 0x7FFFFFFF, image := 0x4D7530C0, img := true } ,
  { off := 0x1C, rw := 0xFFFF, image := 0x14, img := true, clamps := [⟨0, 16, 1, 65535⟩] } ,
  { off := 0x20, rw := 0xFFFFFFFF, img := true, lo := true } ,
  { off := 0x24, rw := 0xFF, img := true } ,
  { off := 0x28 } ,
  { off := 0x2C } ,
  { off := 0x30 } ,
  { off := 0x34 } ,
  { off := 0x38 } ,
  { off := 0x3C } ,
  { off := 0x40 } ,
  { off := 0x44 } ]
/-- Rows of the map of the DRAM controller of die d (Table 13-5). -/
def defsDmcA : List RegDef := [
  { off := 0x0, rw := 0xFF02, w1s := 0x1, image := 0x100, img := true, clamps := [⟨8, 8, 1, 255⟩] } ,
  { off := 0x4 } ,
  { off := 0x8, w1c := 0x7FF } ,
  { off := 0xC } ,
  { off := 0x10 } ,
  { off := 0x14 } ,
  { off := 0x18 } ,
  { off := 0x1C } ,
  { off := 0x20 } ,
  { off := 0x24 } ,
  { off := 0x28, lo := true } ,
  { off := 0x2C } ,
  { off := 0x30 } ,
  { off := 0x34 } ,
  { off := 0x38 } ,
  { off := 0x3C, rw := 0xFF, image := 0x8, img := true } ,
  { off := 0x100, dims := [(16, 8)], rw := 0x1FFF, img := true } ,
  { off := 0x104, dims := [(16, 8)], rw := 0x1FFFF, img := true } ,
  { off := 0x400, dims := [(32, 16)], reset := 0x1 } ,
  { off := 0x404, dims := [(32, 16)] } ]
/-- Rows of the map of the DRAM controller of die d (Table 13-5). -/
def defsDmcB : List RegDef := [
  { off := 0x408, dims := [(32, 16)] } ,
  { off := 0x40C, dims := [(32, 16)] } ]
/-- Rows of the map of the arbiters of die d (Table 14-7). -/
def defsArb : List RegDef := [
  { off := 0x0, reset := 0x1 } ,
  { off := 0x4, w1c := 0x1F } ,
  { off := 0x8 } ,
  { off := 0xC } ,
  { off := 0x10 } ,
  { off := 0x14 } ,
  { off := 0x18 } ,
  { off := 0x1C } ,
  { off := 0x20 } ,
  { off := 0x24 } ,
  { off := 0x28 } ,
  { off := 0x2C } ,
  { off := 0x30 } ]
/-- Rows of the map of the stream ingest (Table 10-8). -/
def defsIngA : List RegDef := [
  { off := 0x0, rw := 0xFF07, image := 0x500, img := true } ,
  { off := 0x4 } ,
  { off := 0x8, w1c := 0xFF } ,
  { off := 0xC } ,
  { off := 0x10 } ,
  { off := 0x14, rw := 0xFFFF, image := 0x7D0, img := true, clamps := [⟨0, 16, 100, 60000⟩] } ,
  { off := 0x18, rw := 0xFFFFF, image := 0x3E8, img := true, clamps := [⟨0, 20, 1, 1000000⟩] } ,
  { off := 0x1C } ,
  { off := 0x20 } ,
  { off := 0x80, dims := [(32, 4)], rw := 0xFFFFFFFF } ,
  { off := 0x100, dims := [(4, 64)], rw := 0xFFF001F, held := 0xFFF001F, img := true } ,
  { off := 0x104, dims := [(4, 64)] } ,
  { off := 0x108, dims := [(4, 64)], rw := 0xFFFFFFFF, img := true, lo := true } ,
  { off := 0x10C, dims := [(4, 64)], rw := 0xFFFF, img := true } ,
  { off := 0x110, dims := [(4, 64)], rw := 0xFFFFFFFF, img := true } ,
  { off := 0x114, dims := [(4, 64), (4, 4)], rw := 0xFFFFFFFF, img := true } ,
  { off := 0x124, dims := [(4, 64)] } ,
  { off := 0x128, dims := [(4, 64)] } ,
  { off := 0x12C, dims := [(4, 64)] } ,
  { off := 0x130, dims := [(4, 64)] } ]
/-- Rows of the map of the stream ingest (Table 10-8). -/
def defsIngB : List RegDef := [
  { off := 0x134, dims := [(4, 64)] } ,
  { off := 0x138, dims := [(4, 64)] } ,
  { off := 0x4000, dims := [(512, 64)] } ,
  { off := 0x4004, dims := [(512, 64)] } ,
  { off := 0x4008, dims := [(512, 64)] } ,
  { off := 0x400C, dims := [(512, 64)] } ,
  { off := 0x4010, dims := [(512, 64)] } ,
  { off := 0x4014, dims := [(512, 64)] } ,
  { off := 0x4018, dims := [(512, 64)] } ,
  { off := 0x401C, dims := [(512, 64)] } ,
  { off := 0x4020, dims := [(512, 64)] } ,
  { off := 0x4024, dims := [(512, 64)] } ,
  { off := 0x4028, dims := [(512, 64)] } ,
  { off := 0x402C, dims := [(512, 64)], lo := true } ,
  { off := 0x4030, dims := [(512, 64)] } ,
  { off := 0x10000, dims := [(512, 128), (32, 4)] } ]
/-- Rows of the map of the sequence table (Table 7-11). -/
def defsSeq : List RegDef := [
  { off := 0x0, rw := 0x7FF, image := 0x400, img := true, clamps := [⟨0, 11, 1, 1024⟩] } ,
  { off := 0x4 } ,
  { off := 0x8 } ,
  { off := 0xC, rw := 0xFFFF } ,
  { off := 0x10 } ,
  { off := 0x14, w1c := 0x1F } ,
  { off := 0x18 } ,
  { off := 0x1C } ,
  { off := 0x20 } ,
  { off := 0x8000, dims := [(1024, 32), (8, 4)] } ]
/-- Rows of the map of the pixel common block (Table 11-9). -/
def defsPixA : List RegDef := [
  { off := 0x0, rw := 0x1, held := 0x1, img := true } ,
  { off := 0x4, rw := 0xFFFF, image := 0x14, img := true, clamps := [⟨0, 16, 1, 65535⟩] } ,
  { off := 0x8, w1c := 0x3F } ,
  { off := 0x100, dims := [(8, 64)], rw := 0x3FFFFFF, image := 0x200, img := true, clamps := [⟨0, 7, 1, 64⟩, ⟨13, 13, 1, 4096⟩] } ,
  { off := 0x104, dims := [(8, 64)], rw := 0xFFFFFFFF, img := true, lo := true } ,
  { off := 0x108, dims := [(8, 64)], rw := 0xFF, img := true } ,
  { off := 0x10C, dims := [(8, 64)], rw := 0xFFFFF, img := true } ,
  { off := 0x110, dims := [(8, 64)], rw := 0xFFFFFFF, img := true } ,
  { off := 0x114, dims := [(8, 64)], rw := 0xFFFFFFF, img := true } ,
  { off := 0x118, dims := [(8, 64)], rw := 0xFFF0FFF, img := true } ,
  { off := 0x11C, dims := [(8, 64)] } ,
  { off := 0x120, dims := [(8, 64)] } ,
  { off := 0x124, dims := [(8, 64)] } ,
  { off := 0x128, dims := [(8, 64)] } ,
  { off := 0x12C, dims := [(8, 64)] } ,
  { off := 0x130, dims := [(8, 64)] } ,
  { off := 0x134, dims := [(8, 64)], lo := true } ,
  { off := 0x138, dims := [(8, 64)] } ,
  { off := 0x400, dims := [(8, 64), (7, 8)], rw := 0x1FFF3FFF, held := 0x1FFF3FFF, img := true } ,
  { off := 0x404, dims := [(8, 64), (7, 8)], rw := 0xFFFFFFFF, held := 0xFFFFFFFF, img := true } ]
/-- Rows of the map of the pixel common block (Table 11-9). -/
def defsPixB : List RegDef := [
  { off := 0x800, dims := [(512, 4)] } ,
  { off := 0x4000, dims := [(128, 128)], rw := 0x7, held := 0x7, img := true } ,
  { off := 0x4004, dims := [(128, 128), (3, 4)], img := true } ,
  { off := 0x4010, dims := [(128, 128), (7, 16)], rw := 0x3FFFFF, held := 0x3FFFFF, img := true } ,
  { off := 0x4014, dims := [(128, 128), (7, 16), (2, 4)], rw := 0xFFFFFFFF, held := 0xFFFFFFFF, img := true } ,
  { off := 0x401C, dims := [(128, 128), (7, 16)], rw := 0xFF, held := 0xFF, img := true } ,
  { off := 0x8000, dims := [(16, 16)], rw := 0x7FF, held := 0x7FF, img := true } ,
  { off := 0x8004, dims := [(16, 16), (3, 4)], rw := 0xFFFFFFFF, held := 0xFFFFFFFF, img := true } ,
  { off := 0x9000, dims := [(256, 4)], rw := 0x3FF03FF, held := 0x3FF03FF, img := true } ]
/-- Rows of the map of the pixel pipe q (Table 11-8). -/
def defsPipe : List RegDef := [
  { off := 0x0 } ,
  { off := 0x4, w1c := 0x7 } ,
  { off := 0x8 } ,
  { off := 0xC } ,
  { off := 0x10, lo := true } ,
  { off := 0x14 } ,
  { off := 0x18 } ,
  { off := 0x1C } ,
  { off := 0x20 } ,
  { off := 0x24 } ,
  { off := 0x28 } ]
/-- Rows of the map of the codec engine g (Table 9-7). -/
def defsCdcA : List RegDef := [
  { off := 0x0 } ,
  { off := 0x4, w1c := 0xFFF } ,
  { off := 0x8 } ,
  { off := 0xC } ,
  { off := 0x10, rw := 0xFFFF, image := 0x14, img := true, clamps := [⟨0, 16, 1, 65535⟩] } ,
  { off := 0x14 } ,
  { off := 0x18 } ,
  { off := 0x1C, lo := true } ,
  { off := 0x20 } ,
  { off := 0x24 } ,
  { off := 0x28 } ,
  { off := 0x2C } ,
  { off := 0x30, img := true } ,
  { off := 0x400, dims := [(32, 64)], rw := 0xFFFFFFFF, held := 0xFFFFFFFF, image := 0xA000000, img := true, clamps := [⟨22, 10, 1, 1000⟩] } ,
  { off := 0x404, dims := [(32, 64)] } ,
  { off := 0x408, dims := [(32, 64)] } ,
  { off := 0x40C, dims := [(32, 64)], rw := 0xFFFFFFFF, img := true, lo := true } ,
  { off := 0x410, dims := [(32, 64)], rw := 0xFF, img := true } ,
  { off := 0x414, dims := [(32, 64)], rw := 0xFFFFF, img := true } ,
  { off := 0x418, dims := [(32, 64)] } ]
/-- Rows of the map of the codec engine g (Table 9-7). -/
def defsCdcB : List RegDef := [
  { off := 0x41C, dims := [(32, 64)] } ,
  { off := 0x420, dims := [(32, 64)] } ,
  { off := 0x424, dims := [(32, 64)] } ,
  { off := 0x428, dims := [(32, 64)] } ,
  { off := 0x42C, dims := [(32, 64)] } ,
  { off := 0x430, dims := [(32, 64)], rw := 0xFFFFFFFF, image := 0x3E800000, img := true, clamps := [⟨0, 20, 100, 300000⟩, ⟨21, 11, 1, 2047⟩] } ,
  { off := 0x434, dims := [(32, 64)], rw := 0xFFFFFFFF, img := true, clamps := [⟨20, 12, 1, 4095⟩] } ,
  { off := 0x438, dims := [(32, 64)], rw := 0x3FFFFFFF, img := true, clamps := [⟨22, 2, 0, 2⟩] } ,
  { off := 0x43C, dims := [(32, 64)] } ]
/-- Rows of the map of the matrix arrays of core k (Table 4-4). -/
def defsArr : List RegDef := [
  { off := 0x0, reset := 0x820000 } ,
  { off := 0x4, w1c := 0x3F } ,
  { off := 0x8, rw := 0xFFFFF, image := 0x40000, img := true, clamps := [⟨0, 20, 256, 1048575⟩] } ,
  { off := 0xC } ,
  { off := 0x10 } ,
  { off := 0x14 } ,
  { off := 0x18, lo := true } ,
  { off := 0x1C } ,
  { off := 0x20, lo := true } ,
  { off := 0x24 } ,
  { off := 0x28 } ,
  { off := 0x2C } ,
  { off := 0x30 } ,
  { off := 0x34 } ,
  { off := 0x38 } ]
/-- Rows of the map of the window engine of core k (Table 5-4). -/
def defsWin : List RegDef := [
  { off := 0x0, rw := 0x1, reset := 0x1 } ,
  { off := 0x4, reset := 0x1 } ,
  { off := 0x8, w1c := 0x7F } ,
  { off := 0xC } ,
  { off := 0x10 } ,
  { off := 0x14 } ,
  { off := 0x18 } ,
  { off := 0x1C } ,
  { off := 0x20 } ,
  { off := 0x24 } ,
  { off := 0x28 } ]
/-- Rows of the map of the loop descriptors of core k (Table 6-9). -/
def defsLpd : List RegDef := [
  { off := 0x0, w1c := 0x200 } ,
  { off := 0x4, w1c := 0x1F } ,
  { off := 0x8, reset := 0x81 } ,
  { off := 0xC } ,
  { off := 0x10, lo := true } ,
  { off := 0x14 } ,
  { off := 0x18 } ,
  { off := 0x1C } ,
  { off := 0x20 } ,
  { off := 0x24 } ,
  { off := 0x28 } ,
  { off := 0x2C } ,
  { off := 0x40, dims := [(8, 4)], rw := 0x1FFF } ,
  { off := 0x80, dims := [(16, 4)], rw := 0xFFFFFFFF } ,
  { off := 0x4000, dims := [(64, 256), (64, 4)], rw := 0xFFFFFFFF } ]
/-- Rows of the map of the KV frames (Table 7-8). -/
def defsKvfA : List RegDef := [
  { off := 0x0, rw := 0x1, held := 0x1, img := true } ,
  { off := 0x4 } ,
  { off := 0x8, w1c := 0xFF } ,
  { off := 0xC } ,
  { off := 0x10, rw := 0x1FFFF, img := true } ,
  { off := 0x14, rw := 0x7FFFF, img := true } ,
  { off := 0x18, rw := 0x7FFFF, img := true } ,
  { off := 0x1C, rw := 0xFFFF, image := 0x14, img := true, clamps := [⟨0, 16, 1, 65535⟩] } ,
  { off := 0x20, rw := 0xFFFFFFFF, img := true, lo := true } ,
  { off := 0x24, rw := 0xFF, img := true } ,
  { off := 0x28, rw := 0xFFFFFFFF, img := true, lo := true } ,
  { off := 0x2C, rw := 0xFF, img := true } ,
  { off := 0x30, rw := 0xFFFFFFFF, img := true, lo := true } ,
  { off := 0x34, rw := 0xFF, img := true } ,
  { off := 0x38, rw := 0xFFFFFFFF, img := true, lo := true } ,
  { off := 0x3C, rw := 0xFF, img := true } ,
  { off := 0x40 } ,
  { off := 0x44, reset := 0x1 } ,
  { off := 0x48 } ,
  { off := 0x4C } ]
/-- Rows of the map of the KV frames (Table 7-8). -/
def defsKvfB : List RegDef := [
  { off := 0x50 } ,
  { off := 0x54 } ,
  { off := 0x58 } ,
  { off := 0x5C } ,
  { off := 0x60 } ,
  { off := 0x64 } ,
  { off := 0x68 } ,
  { off := 0x6C } ,
  { off := 0x70 } ,
  { off := 0x74 } ,
  { off := 0x78 } ,
  { off := 0x80, dims := [(8, 4)], rw := 0x7FFFF, img := true } ,
  { off := 0xA0, dims := [(8, 4)] } ,
  { off := 0x100000, dims := [(262144, 4)] } ]
/-- Table 19-1. -/
def blocks : List Block := [
  ⟨0x0, 1, 0x1000, true, defsGen⟩,
  ⟨0x10000, 1, 0x1000, false, defsTideA ++ defsTideB⟩,
  ⟨0x11000, 1, 0x1000, false, defsSchA ++ defsSchB⟩,
  ⟨0x12000, 1, 0x1000, false, defsMdo⟩,
  ⟨0x13000, 1, 0x1000, false, defsPciA ++ defsPciB⟩,
  ⟨0x14000, 1, 0x1000, false, defsSec⟩,
  ⟨0x15000, 1, 0x1000, false, defsPwr⟩,
  ⟨0x16000, 1, 0x2000, false, defsBoot⟩,
  ⟨0x18000, 1, 0x4000, false, defsErr⟩,
  ⟨0x1C000, 1, 0x1000, true, defsTrk⟩,
  ⟨0x1D000, 1, 0x1000, true, defsDmcA ++ defsDmcB⟩,
  ⟨0x1E000, 1, 0x1000, true, defsArb⟩,
  ⟨0x20000, 1, 0x20000, false, defsIngA ++ defsIngB⟩,
  ⟨0x40000, 1, 0x10000, false, defsSeq⟩,
  ⟨0x50000, 1, 0x10000, false, defsPixA ++ defsPixB⟩,
  ⟨0x60000, 2, 0x1000, true, defsPipe⟩,
  ⟨0x70000, 8, 0x1000, true, defsCdcA ++ defsCdcB⟩,
  ⟨0x80000, 32, 0x1000, true, defsArr⟩,
  ⟨0xA0000, 32, 0x1000, true, defsWin⟩,
  ⟨0x100000, 32, 0x8000, true, defsLpd⟩,
  ⟨0x200000, 1, 0x200000, false, defsKvfA ++ defsKvfB⟩]


/-- Whether an offset from a row's first copy is the offset of one of its copies. -/
def dimsHit : List (Nat × Nat) → Nat → Bool
  | [], o => o == 0
  | (c, st) :: ds, o => decide (o / st < c) && dimsHit ds (o % st)

/-- Whether block offset `o` is a copy of row `r`. -/
def RegDef.hit (r : RegDef) (o : Nat) : Bool := decide (r.off ≤ o) && dimsHit r.dims (o - r.off)

/-- The row that a BAR0 offset belongs to: none for an offset that no register occupies (R10), a die 1 offset of a
die 0 block (R436), a GEN_ register that die 1 does not have (R441) and the WIN_ block of an S-core (Table 19-1). -/
def regDef? (a : Nat) : Option RegDef :=
  let d := a / dieHalf
  let o := a % dieHalf
  if 2 ≤ d then none else
  match blocks.find? fun b => decide (b.base ≤ o) && decide (o < b.base + b.count * b.size) with
  | none => none
  | some b =>
    let inst := (o - b.base) / b.size
    let bo := (o - b.base) % b.size
    if d = 1 ∧ ¬ b.both then none
    else if b.base = 0 ∧ d = 1 ∧ 8 < bo then none
    else if b.base = 0xA0000 ∧ 6 ≤ inst % 8 then none
    else b.regs.find? fun r => r.hit bo

/-- The offsets of the copies that `dims` describes, from a first one. -/
def dimsOffs : List (Nat × Nat) → Nat → List Nat
  | [], a => [a]
  | (c, st) :: ds, a => (List.range c).flatMap fun i => dimsOffs ds (a + i * st)

/-- Every copy of every register whose default for IMG differs from 0, with that value (R403). -/
def imageValues : List (Nat × Nat) :=
  (List.range 2).flatMap fun d => blocks.flatMap fun b =>
    if d = 1 ∧ ¬ b.both then []
    else (List.range b.count).flatMap fun i => (b.regs.filter fun r => r.image != 0).flatMap fun r =>
      (dimsOffs r.dims (d * dieHalf + b.base + i * b.size + r.off)).map fun a => (a, r.image)
/-- Whether a register has a field whose Reset is IMG. -/
def isImg (a : Nat) : Bool := match regDef? a with
  | some r => r.img
  | none => false

/-- What an unlisted register reads as: its reset value (R12), 0 where no register is (R10). -/
def regReset (a : Nat) : BitVec 32 :=
  if a = dieHalf + 8 then 1 else
  match regDef? a with
  | some r => BitVec.ofNat 32 r.reset
  | none => 0
end Sys2Proof.Machine
end

