-- ==== Sys2Proof/Machine/SparseMap.lean ====
section
/-! DEFINITION. Sparse maps: a list of (key, value) pairs, keys rising, no value equal to the key's default. Memories,
the register file and the tables of instances are all held so. -/
set_option autoImplicit false
namespace Sys2Proof.Machine

/-- A table from numbers to values; an unlisted key has the default that its reader names. -/
abbrev SMap (α : Type) := List (Nat × α)

/-- The value at key `a`; `d` gives what an unlisted key reads as. -/
def mget {α : Type} (d : Nat → α) : SMap α → Nat → α
  | [], a => d a
  | (k, v) :: m, a => if k = a then v else mget d m a

/-- `m` without key `a`. -/
def mdel {α : Type} : SMap α → Nat → SMap α
  | [], _ => []
  | (k, v) :: m, a => if k = a then mdel m a else (k, v) :: mdel m a

/-- `m` with the pair put before the first greater key. -/
def mins {α : Type} : SMap α → Nat → α → SMap α
  | [], a, v => [(a, v)]
  | (k, w) :: m, a, v => if a < k then (a, v) :: (k, w) :: m else (k, w) :: mins m a v

/-- `m` with `v` at key `a`. Writing the default removes the entry, so equal tables are equal lists. -/
def mset {α : Type} [DecidableEq α] (d : Nat → α) (m : SMap α) (a : Nat) (v : α) : SMap α :=
  if v = d a then mdel m a else mins (mdel m a) a v

/-- Every key lies above `lo`, keys rise, and no value is its key's default. -/
def mwfFrom {α : Type} [DecidableEq α] (d : Nat → α) : Option Nat → SMap α → Bool
  | _, [] => true
  | none, (k, v) :: m => decide (v ≠ d k) && mwfFrom d (some k) m
  | some lo, (k, v) :: m => decide (lo < k) && decide (v ≠ d k) && mwfFrom d (some k) m

/-- The canonical form. -/
def mwf {α : Type} [DecidableEq α] (d : Nat → α) (m : SMap α) : Bool := mwfFrom d none m

end Sys2Proof.Machine
end

