-- ==== Sys2Proof/Machine/State.lean ====
section
/-! DEFINITION. The state of the LV-9600: plain data, one home for every piece of state the spec names. -/
set_option autoImplicit false
namespace Sys2Proof.Machine
open Sys2Proof

/-! ## Time unit (02) -/

/-- Device time (R33): SCLK cycles since reset, time in ns with its 32-bit binary fraction, and the frequency correction
`f` in units of 0.001 ppm. -/
structure Time where
  sclk : Nat := 0
  ns : Nat := 0
  frac : Nat := 0
  f : Int := 0
  deriving DecidableEq, Repr

/-- A PTP master known from an Announce message: its port, sender, domain, transport and dataset, when it was last heard and for how long
that holds (announceReceiptTimeout). -/
structure Master where
  port : Nat
  src : Nat
  srcPort : Nat
  domain : Nat
  transport : Nat
  set : Announce
  at_ : Nat
  span : Nat
  deriving DecidableEq, Repr

/-- A two-step Sync that waits for its Follow_Up. -/
structure TwoStep where
  port : Nat
  src : Nat
  srcPort : Nat
  seq : Nat
  t2 : Int
  corr : Int
  deriving DecidableEq, Repr

/-- A path-delay request in flight: peer-to-peer or not, its port, number and egress time. -/
structure DelayReq where
  peer : Bool
  port : Nat
  seq : Nat
  t3 : Int
  deriving DecidableEq, Repr

/-- The PTP slave (R34..R40): the known masters and the selected one, the path delay, the latest Sync (origin, arrival), what waits for an
answer, a two-step Pdelay_Resp that waits for its follow-up with its request receipt time, the latest offset, whether the acquisition step has happened, whether TIME_OFFSET_LARGE has been raised, and the master's frequency in
0.001 ppm as its last two Syncs show it (R35). -/
structure Ptp where
  masters : List Master := []
  sel : Option Master := none
  delay : Option Int := none
  sync : Option (Int × Int) := none
  wait : Option TwoStep := none
  req : Option DelayReq := none
  presp : Option (TwoStep × Int) := none
  lastOff : Option Int := none
  stepped : Bool := false
  large : Bool := false
  seqId : Nat := 0
  holdFrom : Nat := 0
  acqFrom : Option Nat := none
  rate : Int := 0
  deriving DecidableEq, Repr

/-- A request to step device time at the next mark action (R49): to an absolute value, or by the offset from the master. -/
inductive TimeReq where
  | to (t : Nat)
  | master
  deriving DecidableEq, Repr

/-- The marks of the time unit (R41..R56); `roundDone` and `stepDone` tell that the tide's codec round start and power step
have happened; `waited` names the functions whose work was given up in the tide because no host answered (R32). -/
structure Tide where
  marked : Bool := false
  next : Option Nat := none
  taken : Option Nat := none
  prevEnd : Option Nat := none
  lastEdge : Option Nat := none
  lastHost : Option Nat := none
  since : Option Nat := none
  miss : Nat := 0
  hostEdges : List Nat := []
  timeReq : Option TimeReq := none
  toGrid : Bool := false
  action : Nat := 0
  winIdx : Nat := 0
  winCnt : Nat := 0
  win : Option Nat := none
  soFall : Option Nat := none
  ppsFall : Option Nat := none
  ppsSec : Option Nat := none
  roundDone : Bool := false
  stepDone : Bool := false
  rateReq : Option Nat := none
  waited : List Nat := []
  deriving DecidableEq, Repr

/-- A held write or command that takes effect at the next mark (R13, R50 step 3), in issue order. -/
inductive Held where
  | reg (a mask v : Nat)
  | cove (c op : Nat)
  | commit (stream : Nat) (words : List Word)
  | disable (stream : Nat)
  | ebb (dramOff : Bool)
  deriving DecidableEq, Repr

/-! ## Register bus and pins (19, 20) -/

/-- The latches of one requester and one _LO/_HI pair (R439), named by the _LO offset. -/
structure Latch where
  r : Req
  a : Nat
  rd : Option Word := none
  wr : Option Word := none
  deriving DecidableEq, Repr

/-- Pins whose level the device drives or samples, and what its detectors show: `thermtrip` tells that THERMTRIP_N is driven low, `porst` and
`perst` that PORST_N and PCIE_PERST_N are high, `under` that a rail is under its minimum, `refLoss` that REFCLK_SYS is absent or out of range;
`xspiReset` that XSPI_RESET_N is high; the BOOT_MODE balls and the GPIO levels. -/
structure Pins where
  syncOut : Bool := false
  pps : Bool := false
  thermtrip : Bool := false
  xspiReset : Bool := false
  porst : Bool := false
  under : Bool := false
  refLoss : Bool := false
  perst : Bool := false
  bootMode : Nat := 0
  gpio : Nat := 0
  deriving DecidableEq, Repr

/-! ## Metadata output (12) -/

/-- A record of the Lumivo Metadata Protocol (Tables 12-5 to 12-7); `body` is the payload in network order. -/
structure LmpRec where
  kind : Nat
  taint : Bool := false
  continued : Bool := false
  untraceable : Bool := false
  subject : Nat
  item : Nat := 0
  time : Nat
  analysed : Nat := 0
  offered : Nat := 0
  tide : Nat := 0
  body : List Byte := []
  deriving DecidableEq, Repr

/-- A record in a channel's queue under its number (R307). -/
structure QRec where
  seq : Nat
  r : LmpRec
  deriving DecidableEq, Repr

/-- A run of losses that awaits its overflow gap record (R308). -/
structure LostRun where
  n : Nat
  first : Nat
  last : Nat
  deriving DecidableEq, Repr

/-- One of the 12 channels: its queue, when the first record of the datagram being filled entered, its run of losses. -/
structure Chan where
  q : List QRec := []
  openAt : Option Nat := none
  lost : Option LostRun := none
  deriving DecidableEq, Repr

/-- A QUERY or CLIP_REQUEST accepted in the last 10 s (R313): `clip` tells the two spaces apart. -/
structure ReqSeen where
  clip : Bool
  src : Nat
  id : Nat
  at_ : Nat
  deriving DecidableEq, Repr

/-- The metadata output unit; `gaps` are the frames that gap records named, as (stream, first, last capture): the not-analysed
notices of R298; `held` are records that report on a frame and wait until no earlier frame of their stream is in progress (P1),
each stream's in capture order. -/
structure Mdo where
  held : List LmpRec := []
  gaps : List (Nat × Nat × Nat) := []
  chans : SMap Chan := []
  seen : List ReqSeen := []
  deriving DecidableEq, Repr

/-! ## Error collector (15) -/

/-- An event that its block keeps raised until the collector takes it (R358): code, unit, fault-information word, the
subject that its ERROR record names, and when it was detected. -/
structure Ev where
  code : Nat
  unit : Nat
  info : Nat
  subject : Nat := 0xFFFF
  at_ : Nat := 0
  deriving DecidableEq, Repr

/-- An action whose completion writes OUTCOME into its log entry: the entry (64: none), the action and its target. -/
structure ActWait where
  log : Nat
  action : Nat
  unit : Nat
  deriving DecidableEq, Repr

/-- The error collector: raised events, the corrected events already reported in this tide (R361), posts to the host with
their limits (R367), actions in progress, policy entries whose contents are lost (Table 15-9). -/
structure Err where
  evq : List Ev := []
  seen : List (Nat × Nat) := []
  posts : List (Nat × Nat × Nat) := []
  acts : List ActWait := []
  bad : List Nat := []
  deriving DecidableEq, Repr

/-! ## PCIe endpoint (16) -/

/-- A post that waits for room in its ring (Table 16-7). -/
structure Post where
  ring : Nat
  kind : Nat
  tag : Nat
  body : List Byte
  deriving DecidableEq, Repr

/-- The endpoint: configuration space, MSI-X table and pending bits, next tags, posts that wait, moderation (R385), and when the
last TLP was sent or received (R394). -/
structure Pci where
  cfg : SMap Byte := []
  msix : SMap Byte := []
  pba : Nat := 0
  tags : SMap Nat := []
  waiting : List Post := []
  modAt : SMap Nat := []
  deferred : List Nat := []
  everUnmasked : Nat := 0
  tlpAt : Nat := 0
  deriving DecidableEq, Repr

/-! ## What leaves the device -/

/-- A pin that the device drives. -/
inductive OutPin where
  | syncOut
  | ppsOut
  | thermtrip
  | xspiReset
  deriving DecidableEq, Repr

/-- Where an accepted frame is delivered (Table 10-3): the time unit, the metadata output unit, a stream's media or control receiver,
or Ziltur. -/
inductive RxDest where
  | time
  | mdo
  | media (stream : Nat)
  | control (stream : Nat)
  | ziltur
  deriving DecidableEq, Repr

/-- A UDP datagram of the metadata output unit (R309): its channel and port, DSCP, addresses, UDP ports and payload. -/
structure Dgram where
  ch : Nat
  port : Nat
  dscp : Nat
  v6 : Bool
  src : Nat
  dst : Nat
  srcUdp : Nat
  udp : Nat
  payload : List Byte
  deriving DecidableEq, Repr

/-- What the device sends, and where it delivers received frames (the model's own record of it, log entry 4). -/
inductive OutMsg where
  | regRead (r : Req) (a : Nat) (v : Word)
  | regError (r : Req) (a : Nat)
  | pin (p : OutPin) (level : Bool)
  | ptp (port kind seq : Nat) (t : Int)
  | datagram (d : Dgram)
  | ringEntry (ring idx : Nat) (slot : List Byte)
  | shadow (ring idx : Nat)
  | msix (vec : Nat)
  | cfg (v : Option Nat)
  | bar2 (v : Option (List Byte))
  | rtcp (stream port dst udp : Nat) (fields : List Nat)
  | group (port : Nat) (join v6 : Bool) (addr : Nat) (src : Option Nat)
  | rtsp (stream : Nat) (method : String)
  | reply (port proto : Nat)
  | rx (port : Nat) (dest : RxDest)
  | jtag (bits : Nat)
  | dram (id : Nat) (ok : Bool) (data : List Byte)
  deriving DecidableEq, Repr

/-! ## Cores (03 to 08) -/

/-- A pass in the arrays of a core (R82, R83): its shape, its activation pips, the tile and row it accumulates into, the
columns it covers, the values before its addition when it opens the row (`init`), whether its commit makes the tile DONE
(`last`), the output and X groups of its row, the DPU rows it has been through (`next`), its column values so far, and the row
that its swap token has reached (`tok`; 32 when it has passed the array). -/
structure Pass where
  wide : Bool
  a : Nat
  w : Nat
  acts : List Pip
  tile : Nat
  row : Nat
  cols : Nat
  first : Bool
  init : List Nat := []
  last : Bool
  out : Int
  xo : Int := 0
  next : Nat := 0
  vals : SMap Nat := []
  tok : Nat := 32
  sat : Bool := false
  deriving DecidableEq, Repr

/-- An accumulator tile that is not FREE (R87, R88, R150): OPEN or DONE; held; epilogue read issued; opened by the
command in progress; its FP32 values by array × 1024 + place; the output and X groups of each row; its columns. -/
structure Tile where
  done : Bool := false
  held : Bool := false
  issued : Bool := false
  own : Bool := false
  vals : SMap Nat := []
  outs : SMap (Option (Int × Int)) := []
  cols : Nat := 0
  wide : Bool := false
  deriving DecidableEq, Repr

/-- The rows that the line buffer holds: slot, input row, and the row's pips. -/
structure LineRow where
  row : Nat
  pips : List Pip
  deriving DecidableEq, Repr

/-- The block, part and weight set that a window engine is at. -/
structure WeAt where
  blk : Nat
  part : Nat
  set : Nat
  deriving DecidableEq, Repr

/-- The window engine of a core (R109): what it is at, the row slots, the row after the last one that the loader sent, the slot that
each row went to, the window register with the half that is filled next, and the activation width of the rows. -/
structure We where
  at_ : Option WeAt := none
  slots : SMap (Option LineRow) := []
  written : Nat := 0
  slotOf : SMap Nat := []
  half : Nat := 0
  win : SMap (List Pip) := []
  a : Nat := 0
  deriving DecidableEq, Repr

/-- A range of core scratch that a COPY with STAGE filled with read-only weights (R209, R213): where it lies, its bytes,
and the SRC word it came from. -/
structure Staged where
  dst : Nat
  bytes : Nat
  src : Nat
  deriving DecidableEq, Repr

/-- A task bound to a core (R197, R200): its job, stage and index, its slot range, the commands completed, when its first
command started and its last one ended with the ACLK cycles counted then, when the command in progress started and the cycles counted then, whether
that command's work is done and with what status and flags, whether the task ended contained, its live scratch units and staged ranges. -/
structure Task where
  cove : Nat
  job : Nat
  stage : Nat
  idx : Nat
  grid : Nat
  shapes : List Nat
  slot0 : Nat
  slots : Nat
  pos : Nat := 0
  t0 : Option Nat := none
  c0 : Nat := 0
  t1 : Nat := 0
  c1 : Nat := 0
  cmdAt : Option Nat := none
  cmdC : Nat := 0
  ran : Bool := false
  status : Nat := 0
  flags : Nat := 0
  contained : Bool := false
  live : Nat := 0
  staged : List Staged := []
  deriving DecidableEq, Repr

/-- The write of a weight row that the loader holds because the row's shadow is FULL (R97). -/
structure RowWrite where
  row : Nat
  ws : List Pip
  more : Bool
  deriving DecidableEq, Repr

/-- What a switch saves of a core (R209): shadow states, shadow and active weights with the parity bits of each DPU's nibble planes
(R103), the write that the loader holds, the width of the weights, tiles, window engine. -/
structure Ctx where
  shSt : SMap Nat := []
  shW : SMap (List Pip) := []
  acW : SMap (List Pip) := []
  shP : SMap (List Nat) := []
  acP : SMap (List Nat) := []
  heldW : Option RowWrite := none
  wWidth : Nat := 0
  tiles : SMap (Option Tile) := []
  we : We := {}
  deriving DecidableEq, Repr

/-- A core: shadow states (0 EMPTY, 1 LOADING, 2 FULL), shadow and active weights by DPU row, passes in flight (oldest
first), tiles, window engine, whether a hold of that engine waits for it to be idle and whether it is releasing (R127), whether the
active weights are stale after a containment (R104), the task bound for the current turn, suspended tasks with what was
saved, the cove of the current turn, when it ends or has ended, when a switch began, and debts by cove in ns. The attention unit's KV
staging, FP32 output buffer and bias buffer (R155) are byte maps. -/
structure Core where
  cx : Ctx := {}
  passes : List Pass := []
  stale : Bool := false
  weHold : Bool := false
  weRel : Bool := false
  task : Option Task := none
  susp : List (Task × Ctx) := []
  turnEnd : Option Nat := none
  expired : Bool := false
  saving : Bool := false
  restoring : Bool := false
  debts : SMap Nat := []
  turn : Option Nat := none
  swAt : Nat := 0
  stage : SMap Byte := []
  outBuf : SMap Byte := []
  biasBuf : SMap Byte := []
  deriving DecidableEq, Repr

/-! ## Clocks -/

/-- The ACLK frequency in force and the integral of it over device time up to the moment it changed (R210): `sum` in
MHz × ns, that is thousandths of a cycle. -/
structure Aclk where
  mhz : Nat := 700
  at_ : Nat := 0
  sum : Nat := 0
  deriving DecidableEq, Repr

/-! ## KV frames, sequences and steps (07, 08) -/

/-- An entry of a page list: layer, page, frame. -/
structure PageRef where
  layer : Nat
  page : Nat
  frame : Nat
  deriving DecidableEq, Repr

/-- One sequence of a step (Table 7-3): its new rows, whether the last of them yields a token, whether its work of the step is
lost by a containment (R206), with the core whose contained task lost it, and after a CANCEL its page lists of that moment, on
which the step's work for it runs to the end (R176, R179). -/
structure StepEnt where
  seq : Nat
  qpos : Nat
  qcnt : Nat
  yields : Bool
  lost : Bool := false
  by_ : Nat := 0
  cut : Option (List PageRef) := none
  deriving DecidableEq, Repr

/-- A whole-frame copy that a step waits for (R175). -/
structure PageCopy where
  seq : Nat
  layer : Nat
  page : Nat
  old : Nat
  new_ : Nat
  deriving DecidableEq, Repr

/-- A step of a sequence cove (R173): composed, waiting for frames while `waits` (with the frames that evictions on its behalf
released, R181), admitted, then started under its number, then done when its job has ended; `toks` are the tokens (sequence, END bit, token) that its tasks emitted. -/
structure Step where
  cove : Nat
  num : Nat := 0
  started : Bool := false
  done : Bool := false
  prefill : Bool := false
  ents : List StepEnt
  copies : List PageCopy := []
  waits : Bool := false
  freed : List Nat := []
  toks : List (Nat × Bool × Nat) := []
  deriving DecidableEq, Repr

/-- What a live sequence keeps beside its table entry: the TIME of its text records and whether it was untraceable, TAINT,
MAX_TOKENS, its state before HOST_WAIT, the streams whose picture must still be built for it with their place in the query
(R312, R314), the KV heads and the head dimension of its model (R178), and where its token IDs lie (R184). -/
structure SeqX where
  time : Nat := 0
  untr : Bool := false
  taint : Bool := false
  maxTok : Nat := 0
  was : Nat := 0
  imgs : List (Nat × Nat) := []
  hkv : Nat := 0
  dh : Nat := 0
  tokAt : Nat := 0
  deriving DecidableEq, Repr

/-- The sequence scheduler: the two free queues in order and the place of each queue's head in its ring in DRAM (R176), the shortfall of
each exhausted cove (R181), the steps admitted, QUEUED sequences in arrival order,
evictions that wait for a step's end or were named by the host, sequences left waiting by R206 with the core whose event
left them, decode steps since the last prefill step of each cove, and since when a cove waits for the host (R183). -/
structure Kv where
  q0 : List Nat := []
  q1 : List Nat := []
  h0 : Nat := 0
  h1 : Nat := 0
  short : SMap Nat := []
  steps : List Step := []
  arrivals : List Nat := []
  evictLater : List Nat := []
  victims : List Nat := []
  waiting : List (Nat × Nat) := []
  decodes : SMap Nat := []
  exhAt : SMap (Option Nat) := []
  xs : SMap SeqX := []
  deriving DecidableEq, Repr

/-! ## Samples, frames and jobs (08, 11) -/

/-- One axis of a sample (R276, R279, R280): the scaler's box origin and length in luma samples, its output length, the
first output it keeps, where the picture is placed in the sample and how long, and the source box that the slot header
reports. -/
structure Axis where
  o : Nat
  n : Nat
  nOut : Nat
  off : Nat
  at_ : Nat
  len : Nat
  h0 : Nat
  hn : Nat
  deriving DecidableEq, Repr

/-- A sample of a frame: its generator, its class, whether it is void, its axes, FLIP, gain, the track of a tracker crop. -/
structure Samp where
  gen : Nat := 0
  cls : Nat
  void : Bool
  ax : Axis
  ay : Axis
  flip : Bool
  gain : Nat
  trk : Option Nat := none
  deriving DecidableEq, Repr

/-- What a frame carries: stream, capture time, picture size, UNTRACEABLE and TAINT. -/
structure FrameId where
  stream : Nat
  cap : Nat
  w : Nat
  h : Nat
  untr : Bool
  taint : Bool
  deriving DecidableEq, Repr

/-- A frame that is pending for a cove (R285): its samples written to staging with die and slot, and whether all are. -/
structure PFrame where
  id : FrameId
  samples : List (Samp × Nat × Nat) := []
  ready : Bool := false
  deriving DecidableEq, Repr

/-- A job (R199): its queue entry, slots (length-table entries for a step), rows, estimate, the frames of its batch, the
dies whose copy is still to be done, the staging slots it reads as (die, staging slot, batch slot), the bytes of a sample's element plane and
of its exponents and its width for each class as they were when the batch closed, and for a step its number. -/
structure Job where
  entry : Nat := 0
  slots : Nat := 0
  rows : Nat := 0
  cost : Nat := 0
  frames : List FrameId := []
  copies : List Nat := []
  staged : List (Nat × Nat × Nat) := []
  sizes : List (Nat × Nat) := []
  widths : List Nat := []
  step : Nat := 0
  deriving DecidableEq, Repr

/-- A result that an EMIT command handed over (Table 12-2): kind, slot, the entry's bytes. -/
structure Emit where
  kind : Nat
  slot : Nat
  body : List Byte
  deriving DecidableEq, Repr

/-- A task of the stage in progress that has ended: its index, whether it ended contained, its shape registers. -/
structure Ended where
  idx : Nat
  contained : Bool
  shapes : List Nat
  deriving DecidableEq, Repr

/-- The running job: its number, the stage in progress, the next task to place, the shape vector, ended tasks of the stage,
whether the last stage has ended, results handed over, slot ranges of contained tasks and of tasks that emitted detections. -/
structure Run where
  job : Job
  num : Nat
  stage : Nat := 0
  next : Nat := 0
  shapes : List Nat := []
  ended : List Ended := []
  done : Bool := false
  emits : List Emit := []
  bad : List (Nat × Nat) := []
  covers : List (Nat × Nat) := []
  deriving DecidableEq, Repr

/-- What a cove's health, slow-down and overload records of a tide need (R211, R212, R75): tasks ended, their measured and
estimated time, the largest σ with its stage and core, overruns, switches and their time; commands with numeric flags;
nominal, offered, admitted, outstanding cycles; frames offered and admitted for each priority. -/
structure TideStat where
  tasks : Nat := 0
  meas : Nat := 0
  est : Nat := 0
  sigma : Nat := 0
  stage : Nat := 0
  core : Nat := 0
  ovr : Nat := 0
  switches : Nat := 0
  swNs : Nat := 0
  sat : Nat := 0
  nonfin : Nat := 0
  nominal : Nat := 0
  offered : Nat := 0
  admitted : Nat := 0
  outst : Nat := 0
  byPrio : List (Nat × Nat) := []
  short : Bool := false
  deriving DecidableEq, Repr

/-- A cove: the cores of its set whose self-test had not failed at its start (R190); queued jobs; the running one; the next entry of
its batch ring and of its completion log; its pending frames in hand-over order; the figures of the tide. -/
structure Cove where
  elig : List Nat := []
  queue : List Job := []
  run : Option Run := none
  entry : Nat := 0
  logPos : Nat := 0
  frames : List PFrame := []
  stat : TideStat := {}
  deriving DecidableEq, Repr

/-! ## Tracking (12) -/

/-- A merged detection (R297): its clipped box, score and class, slot, embedding elements and the 4 pip exponents; FP32 values
by their bits. -/
structure Det where
  x0 : Nat
  y0 : Nat
  x1 : Nat
  y1 : Nat
  score : Nat
  cls : Nat
  slot : Nat := 0
  emb : List Int
  exps : List Nat
  deriving DecidableEq, Repr

/-- A frame that waits for its track engine, with its detections; `host` is the mode it took when it entered (R31). -/
structure TFrame where
  id : FrameId
  dets : List Det
  host : Bool := false
  deriving DecidableEq, Repr

/-- The frame being associated: its candidates; in host-assisted mode the tag and moment of its post; the hand-off claims that it has
made as (detection, track), and those that succeeded as (detection, track, stream, identity). -/
structure Assoc where
  f : TFrame
  cands : List Nat
  tag : Nat := 0
  at_ : Nat := 0
  tried : List (Nat × Nat) := []
  won : List (Nat × Nat × Nat × Nat) := []
  deriving DecidableEq, Repr

/-- A track engine: frames in order of arrival, the frame being associated, frames posted to the host by block number, tracks
created, frames committed as (stream, capture, boxes by class) (R243), tracks that a TRACK record has listed, tracks whose next entry
carries HANDOFF. -/
structure Trk where
  queue : List TFrame := []
  cur : Option Assoc := none
  posted : List (Nat × Assoc) := []
  created : Nat := 0
  commits : List (Nat × Nat × List (Nat × List Nat)) := []
  listed : List Nat := []
  handed : List Nat := []
  deriving DecidableEq, Repr

/-! ## Codec engines (09) -/

/-- An access unit in a context's queue (R220): real or a placeholder, its capture time, where its bytes lie, its
decode-order number; once it is the head, whether the host supplies its headers, with the tag and moment of the post and the context
number posted; what the headers say; the buffer and the slice records that a picture command gives. -/
structure Au where
  real : Bool
  cap : Nat
  untr : Bool
  addr : Nat := 0
  len : Nat := 0
  num : Nat := 0
  host : Option Bool := none
  post : Option (Nat × Nat) := none
  pctx : Nat := 0
  hdr : Option PicHdr := none
  buf : Option Nat := none
  slices : List SliceRec := []
  deriving DecidableEq, Repr

/-- A pool buffer (Tables 9-4, 9-5): its marks (OUT and ENC count their holders), and the header of the picture it holds;
`hint` is its AV1 order hint; `wait` tells that the picture awaits output at that order number. -/
structure PBuf where
  dec : Bool := false
  ref : Bool := false
  last : Bool := false
  out : Nat := 0
  enc : Nat := 0
  held : Bool := false
  cap : Nat := 0
  untr : Bool := false
  num : Nat := 0
  outNum : Nat := 0
  w : Nat := 0
  h : Nat := 0
  p10 : Bool := false
  taint : Bool := false
  subst : Bool := false
  corrupt : Bool := false
  rap : Bool := false
  vui : Nat := 0
  hint : Nat := 0
  wait : Option Nat := none
  deriving DecidableEq, Repr

/-- A picture that an open clip took (R237): its interval, the context and buffer that hold it, whether its boxes are settled
by MASK_STALE; once they are settled, whether the host supplies its QP (R31), with its post and QP. -/
structure Taken where
  n : Nat
  key : Nat
  buf : Nat
  cap : Nat
  stale : Bool := false
  host : Option Bool := none
  post : Option (Nat × Nat) := none
  qp : Option Nat := none
  deriving DecidableEq, Repr

/-- An open clip (R237 to R241): its request; the RATE, CPB and ENC words and FPS_NOM at its opening; the next interval;
fullness F times FPS_NOM; whether an IDR has been encoded and pictures since it; bits and QP of the last I and P picture; bytes
written; pictures, replaced, tainted and CORRUPT ones; pictures taken. -/
structure Clip where
  req : Nat
  buffer : Nat
  stream : Nat
  start : Nat
  stop : Nat
  mask : Nat
  deliver : Nat
  untr : Bool
  rate : Nat
  cpb : Nat
  enc : Nat
  fps : Nat
  n : Nat := 0
  full : Nat := 0
  idr : Bool := false
  since : Nat := 0
  prevI : Option (Nat × Nat) := none
  prevP : Option (Nat × Nat) := none
  bytes : Nat := 0
  pictures : Nat := 0
  replaced : Nat := 0
  tainted : Nat := 0
  corrupt : Nat := 0
  taken : List Taken := []
  deriving DecidableEq, Repr

/-- A context: queue, credit and debt in ns, the next decode-order number, pool, the target of a cross-die move in progress, an
open clip. -/
structure CdcCtx where
  queue : List Au := []
  credit : Nat := 0
  debt : Nat := 0
  decNum : Nat := 0
  pool : SMap PBuf := []
  move : Option (Nat × Nat) := none
  clip : Option Clip := none
  deriving DecidableEq, Repr

/-- Where the samples of a reference come from (R231, R232): a picture held with mark REF; the LAST picture in the place of one never
received, as it is or through AV1 reference scaling; or mid-grey. -/
inductive RefSrc where
  | held (b : Nat)
  | last (b : Nat) (scaled : Bool)
  | grey
  deriving DecidableEq, Repr

/-- How a frame uses a reference (R232): its samples' source, the order hint for distances and projection, and whether it contributes
motion vectors to projection. -/
structure RefUse where
  src : RefSrc
  hint : Nat
  mvs : Bool
  deriving DecidableEq, Repr

/-- The frame that a datapath works on: its context, whether it is charged, when it started, the unit and the buffer of a
decoded picture with its substitutions and taint, how it uses each reference, the buffers whose AV1 state it inherits (none: default
CDFs, no segmentation map, zero deltas) and what concealed blocks are copied from; `input` holds the masked luma and chroma samples of
an encode picture, and `gone` tells that its clip has closed meanwhile. -/
structure Busy where
  ctx : Nat
  charged : Bool
  at_ : Nat
  au : Option Au := none
  buf : Nat := 0
  subst : Bool := false
  taint : Bool := false
  uses : List RefUse := []
  state : List Nat := []
  fill : RefSrc := .grey
  gone : Bool := false
  qp : Nat := 0
  input : List Nat := []
  deriving DecidableEq, Repr

/-- A codec engine: the frame in progress, the context served last, a round start that waits for the frame's end, contexts that
same-die moves take at their next frame boundary. -/
structure Cdc where
  busy : Option Busy := none
  served : Nat := 31
  roundDue : Bool := false
  moves : List (Nat × Nat) := []
  deriving DecidableEq, Repr

/-! ## Ingest (10) -/

/-- A packet in a jitter buffer: extended sequence number and timestamp, marker, whether it begins and closes a NAL unit, OBU or
scan, its bytes' place and length. -/
structure JPkt where
  seq : Nat
  ts : Int
  marker : Bool
  opens : Bool
  closes : Bool
  addr : Nat
  len : Nat
  deriving DecidableEq, Repr

/-- An access unit that has begun in a jitter buffer (R259, R262): its timestamp, capture time, applied offset, when it became
known, and JB_DELAY. -/
structure JUnit where
  ts : Int
  cap : Int
  o : Int
  untr : Bool
  at_ : Nat
  delay : Nat
  deriving DecidableEq, Repr

/-- The receiver of a stream: the state of RFC 3550 A.1 (highest number, cycles, base, bad number, probation), where extended
numbers of the present base begin, timestamps, the offset and the latest report, the jitter buffer, what was released last (its last
packet, the number it ends at, its timestamp and capture, the placeholders since), whether the stream is silent and the highest
number when it became so, whether an SSRC mismatch holds it, and what receiver reports need. -/
structure Strm where
  started : Bool := false
  maxSeq : Nat := 0
  cycles : Nat := 0
  baseSeq : Nat := 0
  badSeq : Nat := 65537
  probation : Nat := 0
  epoch : Nat := 0
  tsMax : Option Int := none
  srTs : Option Int := none
  o : Option Int := none
  sr : Option Int := none
  jump : Bool := false
  discard : List Int := []
  pkts : List JPkt := []
  units : List JUnit := []
  wpos : Nat := 0
  lastSeq : Option Nat := none
  endSeq : Nat := 0
  lastTs : Int := 0
  lastRel : Nat := 0
  lastCap : Option Nat := none
  phs : List Int := []
  silent : Bool := false
  quiet : Option Nat := none
  hold : Bool := false
  lastPkt : Nat := 0
  received : Nat := 0
  expPrior : Nat := 0
  recPrior : Nat := 0
  transit : Option Int := none
  jitter : Nat := 0
  lsr : Option (Nat × Nat) := none
  src : Nat := 0
  rrAt : Nat := 0
  tcp : Option TcpEnd := none
  deriving DecidableEq, Repr

/-- Ingest: the streams' receivers, and per port the second and the count of packets for Ziltur in it (R252). -/
structure Ing where
  strms : SMap Strm := []
  ctl : SMap (Nat × Nat) := []
  deriving DecidableEq, Repr

/-! ## Pixel pipes (11) -/

/-- A picture handed to a pipe (R273): the context and buffer that hold it, its frame, whether CORRUPT, its depth and matrix
source; whether its list comes from the host, with tag and moment of the post and the list; the vision coves that its frame is for;
whether the pipe has started it; the samples still to be built with their coves, the sample in progress with its staging slot
(cove 8: the first of the query images) and its start, since when it waits for a slot; the query images (sequence, place). -/
structure Pic where
  key : Nat
  buf : Nat
  id : FrameId
  corrupt : Bool
  p10 : Bool
  vui : Nat
  jpeg : Bool
  host : Bool
  post : Option (Nat × Nat) := none
  list : Option (List (Nat × Samp)) := none
  started : Bool := false
  coves : List Nat := []
  todo : List (Nat × Samp) := []
  cur : Option (Nat × Samp × Nat) := none
  at_ : Nat := 0
  waits : Option Nat := none
  queries : List (Nat × Nat) := []
  deriving DecidableEq, Repr

/-- The pixel unit: pictures of each pipe in hand-over order, and the frames offered in the last second (R292) as (tide, stream,
capture, 1 when analysed). -/
structure Pix where
  pipes : SMap (List Pic) := []
  recent : List (Nat × Nat × Nat × Nat) := []
  deriving DecidableEq, Repr

/-! ## DRAM (13) and the Damarorn link (14) -/

/-- A request in a channel: its number in order of arrival, the requester's name for it, its device address, its bank (rank × 32 + bank)
and row, the bytes and data of a write, the moment of its arrival, whether it is a locked read-modify-write whose read is still to be
done (1), issued (2) or final (3), and whether it is an ECC write-back, which nobody waits for. -/
structure DReq where
  n : Nat
  id : Nat
  addr : Nat
  bank : Nat
  row : Nat
  wr : Option (Nat × List Byte)
  at_ : Nat
  rmw : Nat := 0
  back : Bool := false
  deriving DecidableEq, Repr

/-- A column command or refresh that is not final (R333): its request, or none for a refresh of a bank; the cycle of its issue. -/
structure DCmd where
  req : Option DReq
  bank : Nat
  at_ : Nat
  deriving DecidableEq, Repr

/-- A bank: its open row; the first cycles that Table 13-3 allows an activate, a column command and a precharge; the cycle of its last
command; postponed refreshes; when a refresh last fell due; the request that holds its lock, since when, and whether that has been reported as long. -/
structure DBank where
  row : Option Nat := none
  nAct : Nat := 0
  nCol : Nat := 0
  nPre : Nat := 0
  last : Nat := 0
  late : Nat := 0
  refs : Nat := 0
  lock : Option (Nat × Nat) := none
  long : Bool := false
  deriving DecidableEq, Repr

/-- A DRAM channel: the interface cycle it has reached, the next arrival number, requests not yet issued, the retry buffer, reads that
are final and not yet delivered, banks, activates of each rank, the first cycles for a read and a write, whether writes drain; a replay
in progress, with the cycle that its wait ends and what it reissues; banks whose refresh goes first; the cycle that a pause or a training
ends; the last pause, the start of the window whose slot it last took or skipped, and whether its lateness has been reported; the next scrub read and its moment; the moment that
its refreshes began. -/
structure DChan where
  cyc : Nat := 0
  nReq : Nat := 0
  queue : List DReq := []
  retry : List DCmd := []
  fin : List (DReq × List Byte) := []
  banks : SMap DBank := []
  acts : List (Nat × Nat) := []
  nRd : Nat := 0
  nWr : Nat := 0
  drain : Bool := false
  replay : Option (Nat × List DCmd) := none
  first : List Nat := []
  pauseEnd : Nat := 0
  paused : Nat := 0
  slot : Option Nat := none
  late : Bool := false
  scrub : Nat := 0
  scrubAt : Nat := 0
  base : Nat := 0
  deriving DecidableEq, Repr

/-- The memory of the device beside its content: channels by die × 32 + channel, the channel of a RETRAIN in progress on each die, and
for each port pair (die × 32 + port, the receiving side) the failed replays in a row; ports of a RETRAIN_PORT in progress; and the words
found with an uncorrectable error, with their content when found (R331, R332; log entry 66). -/
structure Dmc where
  chans : SMap DChan := []
  train : SMap (Option Nat) := []
  retries : SMap Nat := []
  ports : SMap (Option Nat) := []
  bad : List (Nat × List Byte) := []
  deriving DecidableEq, Repr

/-! ## Power (18) -/

/-- What a temperature sensor has shown (R429): the largest reading of the tide so far, and of a run of unchanged readings its length
and the lowest and highest reading of its neighbour; whether it is excluded. -/
structure Sensor where
  top : Option Int := none
  same : Nat := 0
  lo : Int := 0
  hi : Int := 0
  out : Bool := false
  deriving DecidableEq, Repr

/-- The power manager: domain changes in progress as (target, start); sensors and the moment of the last sample; the mark time at which
ebb entry began, the coves that were in RUN then; the moment of the wake of an exit in progress; whether that exit waits for the DRAM;
whether no tide has begun since the exit. -/
structure Pwr where
  trans : SMap (Option (Nat × Nat)) := []
  sensors : SMap Sensor := []
  sampled : Nat := 0
  markM : Nat := 0
  coves : List Nat := []
  wake : Nat := 0
  reload : Bool := false
  fresh : Bool := false
  deriving DecidableEq, Repr

/-! ## Boot and security (17) -/

/-- An entry of the section table (Table 17-3). -/
structure Sect where
  kind : Nat
  source : Nat
  coves : Nat
  ofs : Nat
  len : Nat
  dest : Nat
  digest : List Byte
  deriving DecidableEq, Repr

/-- An operation that the xSPI controller has been asked for (R400): an erase, a program, or a read run for SLOT_VERIFY. -/
inductive FlashOp where
  | erase (a : Nat)
  | program (a : Nat) (data : List Byte)
  | verify (slot : Nat)
  deriving DecidableEq, Repr

/-- The boot controller and the security block: when the stage began and reset was released; the density of the flash, at most 512 MiB, and 0 until
it is known; the header in force (sections, FLAGS, GATE_LIM) and the next section to stream, 0 until the DEVICE section has been applied; whether
DRAM training has passed; whether a reload (R414) runs; domains and track engines held off by R412; flash operations in request order; the section that a
SECT_CHECK hashes; the ATTEST in progress (its 256-byte report and address); the place of the signature-state log's latest record. -/
structure Boot where
  at_ : Nat := 0
  rel : Nat := 0
  dens : Nat := 0
  sects : List Sect := []
  flags : Nat := 0
  gateLim : Nat := 0
  next : Nat := 0
  trained : Bool := false
  reload : Bool := false
  heldOff : List Nat := []
  trkOff : List Nat := []
  ops : List FlashOp := []
  check : Option Nat := none
  att : Option (List Byte × Nat) := none
  logAt : Option Nat := none
  deriving DecidableEq, Repr

/-! ## Debug port (19) -/

/-- The data register that the test access port has selected (Table 19-7). -/
inductive TapReg where
  | extest
  | idcode
  | sample
  | dbgAccess
  | bypass
  deriving DecidableEq, Repr

/-- The test access port (R447, R448): the instruction in force (IDCODE after its reset, log entry 9), the DATA and STATUS that the next
Capture-DR of the debug access register loads, and the interface cycle until which a request is outstanding. -/
structure Jtag where
  ir : TapReg := .idcode
  data : Nat := 0
  status : Nat := 0
  until_ : Nat := 0
  deriving DecidableEq, Repr


/-! ## The whole machine -/

/-- The device (inventory, '## State'). `regs` is the register file of BAR0 by offset, with every table window; `fresh`
counts free values used; `out` is what left the device. -/
structure Dev where
  regs : SMap Word := []
  time : Time := {}
  ptp : Ptp := {}
  tide : Tide := {}
  held : List Held := []
  bus : List Latch := []
  pins : Pins := {}
  dram : SMap Byte := []
  cm : SMap Byte := []
  scr : SMap Byte := []
  flash : SMap Byte := []
  mdo : Mdo := {}
  err : Err := {}
  pci : Pci := {}
  cores : SMap Core := []
  clk : Aclk := {}
  kv : Kv := {}
  coves : SMap Cove := []
  trk : SMap Trk := []
  cdc : SMap Cdc := []
  cctx : SMap CdcCtx := []
  ing : Ing := {}
  pix : Pix := {}
  dmc : Dmc := {}
  pwr : Pwr := {}
  bt : Boot := {}
  jtag : Jtag := {}
  out : List OutMsg := []
  fresh : Nat := 0
  deriving DecidableEq, Repr

/-- The state: the device, and the commands that wait, first in first out. -/
structure State where
  dev : Dev := {}
  pending : List Instr := []
  deriving DecidableEq, Repr

/-- Why the machine stops with a fault: never. No rule of the spec stops the machine; every error is an event and a next
state, so the type has no constructor. -/
inductive Fault where
  deriving DecidableEq, Repr

/-- Why a command has no meaning. `notModelled` is answered only by the dispatcher for a row without a meaning; safe. -/
inductive Refusal where
  | notModelled (mnemonic : String)
  deriving DecidableEq, Repr

/-- The machine right after reset: every register at its reset value (R12), every queue empty. -/
def State.reset : State := {}

end Sys2Proof.Machine
end

