-- ==== Sys2Proof/Machine/Ops.lean ====
section
/-! DEFINITION. The named operations on the state: registers, counters, time, memory, events. -/
set_option autoImplicit false
namespace Sys2Proof.Machine
open Sys2Proof

/-- What a command answers. -/
abbrev Result := Host.Outcome State Fault Refusal

/-! ## Registers -/

/-- The value that the register file holds at BAR0 offset `a`. -/
def rdN (s : Dev) (a : Nat) : Nat := (mget regReset s.regs a).toNat
/-- Set the register at `a` to `n` modulo 2^32. -/
def wrN (a n : Nat) (s : Dev) : Dev := { s with regs := mset regReset s.regs a (BitVec.ofNat 32 n) }
/-- A field of a register. -/
def rf (s : Dev) (a lo len : Nat) : Nat := bits (rdN s a) lo len
/-- Set a field of a register. -/
def wf (a lo len v : Nat) (s : Dev) : Dev := wrN a (putBits (rdN s a) lo len v) s
/-- A one-bit field. -/
def tst (s : Dev) (a i : Nat) : Bool := bitOf (rdN s a) i
/-- Set a one-bit field. -/
def setB (a i : Nat) (v : Bool) (s : Dev) : Dev := wf a i 1 (b2n v) s
/-- Add to a counter that wraps at 2^32. -/
def bump (a k : Nat) (s : Dev) : Dev := wrN a (rdN s a + k) s
/-- Add to a counter that saturates at 2^32 − 1. -/
def bumpSat (a k : Nat) (s : Dev) : Dev := wrN a (satAdd (rdN s a) k 0xFFFFFFFF) s
/-- Add to a 16-bit half that saturates (the ECC counters). -/
def bump16 (a lo k : Nat) (s : Dev) : Dev := wf a lo 16 (satAdd (rf s a lo 16) k 0xFFFF) s
/-- A 64-bit quantity in two registers (R8). -/
def rd64 (s : Dev) (a : Nat) : Nat := rdN s a + rdN s (a + 4) * 2 ^ 32
/-- The device address that a _LO/_HI pair holds, bits [39:12] of it: a base address is a multiple of 4,096 (log entry 57). -/
def baseAddr (s : Dev) (a : Nat) : Nat := rd64 s a % 2 ^ 40 / 4096 * 4096
/-- Set a 64-bit quantity. -/
def wr64 (a n : Nat) (s : Dev) : Dev := wrN (a + 4) (n / 2 ^ 32) (wrN a n s)
/-- Add to a 64-bit counter. -/
def bump64 (a k : Nat) (s : Dev) : Dev := wr64 a (rd64 s a + k) s
/-- Apply `f` when `c` holds. -/
def whenS (c : Bool) (f : Dev → Dev) (s : Dev) : Dev := if c then f s else s
/-- Apply `f` for each element, in order. -/
def forS {α : Type} (l : List α) (f : α → Dev → Dev) (s : Dev) : Dev := l.foldl (fun t x => f x t) s

/-! ## Time -/

/-- Device time in PTP ns (R4, R33). -/
def now (s : Dev) : Nat := s.time.ns
/-- One SCLK cycle: device time advances by 2 ns × (1 + f) (R33); in units of 2^-32 ns that is 2^33 (10^9 + f) / 10^9. -/
def tickTime (t : Time) : Time :=
  let inc := (2 ^ 33 * (1000000000 + t.f) / 1000000000).toNat
  let whole := (t.ns * 2 ^ 32 + t.frac + inc) % 2 ^ 96
  { t with sclk := t.sclk + 1, ns := whole / 2 ^ 32, frac := whole % 2 ^ 32 }
/-- Let device time advance to `t` when it lies ahead: a command that names a moment happens at it (log entry 2). -/
def waitUntil (t : Nat) (s : Dev) : Dev :=
  if s.time.ns < t then
    let cycles := (((t - s.time.ns) * 1000000000 : Nat) : Int) / (2 * (1000000000 + s.time.f))
    { s with time := { sclk := s.time.sclk + cycles.toNat, ns := t % 2 ^ 64, frac := 0, f := s.time.f } }
  else s
/-- TIDE_STATUS.TIME_STATE (Table 2-1): 0 UNSET, 1 LOCKED, 2 HOLDOVER, 3 FREE. -/
def timeState (s : Dev) : Nat := rf s Reg.TIDE_STATUS 0 2
/-- Whether a time read now is untraceable (R310): the state is UNSET or FREE. -/
def untraceable (s : Dev) : Bool := timeState s == 0 || timeState s == 3
/-- The tide number (R43). -/
def tideNum (s : Dev) : Nat := rd64 s Reg.TIDE_NUM_LO % 2 ^ 48
/-- Whether the device is in ebb or entering it: PWR_STATUS.EBB (Table 18-9): 0 RUN, 1 ENTERING, 2 IN_EBB, 3 EXITING. -/
def ebbState (s : Dev) : Nat := rf s Reg.PWR_STATUS 0 2
/-- FCLK cycles since reset at 1.4 GHz, from the 500 MHz SCLK count (R350; log entry 2). -/
def fclk (s : Dev) : Nat := s.time.sclk * 14 / 5
/-- The next free value: an index for the constants of Config. -/
def freshS (s : Dev) : Dev := { s with fresh := s.fresh + 1 }
/-- Whether the ball drivers yield to the boundary register (Table 19-7): EXTEST is in force, and the device is in HALT (BOOT_STATUS.STAGE 15)
or DEBUG_EN is 1. -/
def ballsYield (s : Dev) : Bool := s.jtag.ir == .extest && (rf s Reg.BOOT_STATUS 0 4 == 15 || tst s Reg.SEC_STATUS 5)
/-- Whether a message is a level on a ball. -/
def isPin (m : OutMsg) : Bool := match m with
  | .pin _ _ => true
  | _ => false
/-- Note what leaves the device; a ball whose driver yields shows nothing. -/
def send (m : OutMsg) (s : Dev) : Dev := if isPin m && ballsYield s then s else { s with out := s.out ++ [m] }

/-! ## Domains, cores, dies (R22, Table 18-1) -/

/-- Whether power domain `d` is in run or idle (Table 18-2). -/
def domRuns (s : Dev) (d : Nat) : Bool := decide (rf s (Reg.PWR_DOM_STATE d) 0 2 < 2)
/-- Whether global core `k` is an S-core: slots 6 and 7 of its cluster. -/
def isSCore (k : Nat) : Bool := decide (6 ≤ k % 8)
/-- Arrays of a core: four in a V-core, two in an S-core. -/
def arraysOf (k : Nat) : Nat := if isSCore k then 2 else 4
/-- A core's state. -/
def coreOf (s : Dev) (k : Nat) : Core := mget (fun _ => {}) s.cores k
/-- Set a core's state. -/
def setCore (k : Nat) (c : Core) (s : Dev) : Dev := { s with cores := mset (fun _ => {}) s.cores k c }
/-- Change a core's state. -/
def modCore (k : Nat) (f : Core → Core) (s : Dev) : Dev := setCore k (f (coreOf s k)) s
/-- SCH_COVE_STATE.STATE: 0 OFF, 1 LOADING, 2 RUN, 3 STOPPING, 4 STOPPED, 5 HOLD, 6 FAULT. -/
def coveState (s : Dev) (c : Nat) : Nat := rf s (Reg.SCH_COVE_STATE c) 0 3
/-- Whether a cove takes new work: it is in RUN, the device is outside ebb, and no start after an exit from ebb waits for a mark (R431, R434). -/
def coveOpen (s : Dev) (c : Nat) : Bool := coveState s c == 2 && ebbState s == 0 && !(s.pwr.coves.contains c)
/-- Whether a held command is EBB_ENTER. -/
def isEbb (h : Held) : Bool := match h with
  | .ebb _ => true
  | _ => false
/-- Whether core `k` is in the core set of cove `c`. -/
def inCove (s : Dev) (c k : Nat) : Bool :=
  if k < 32 then tst s (Reg.SCH_COVE_CORES_LO c) k else tst s (Reg.SCH_COVE_CORES_HI c) (k - 32)
/-- Whether core `k` belongs to a running cove (LOADING, RUN or STOPPING, Table 18-3). -/
def coreInRunning (s : Dev) (k : Nat) : Bool :=
  (List.range 8).any fun c => inCove s c k && decide (1 ≤ coveState s c) && decide (coveState s c ≤ 3)

/-! ## Memories -/

/-- The memories a command can address: DRAM by device address, cluster memory of a cluster, scratch of a core. -/
inductive Space where
  | dram
  | cm (c : Nat)
  | scr (k : Nat)
  deriving DecidableEq, Repr

/-- DRAM holds 2^35 bytes (Table 1-1). -/
def dramBytes : Nat := 2 ^ 35
/-- A cluster's memory: 12 MiB (Table 1-1). -/
def cmBytes : Nat := 12 * 2 ^ 20
/-- A core's scratch: 3 MiB (Table 1-1). -/
def scrBytes : Nat := 3 * 2 ^ 20
/-- What an unwritten byte of DRAM, cluster memory or scratch reads as (R336 fills DRAM; log entry 5). -/
def zeroByte (_ : Nat) : Byte := 0
/-- What an unwritten byte of the NOR flash reads as (log entry 5). -/
def erasedByte (_ : Nat) : Byte := 0xFF

/-- One byte of a memory; an address beyond its end reads 0. -/
def mrd (sp : Space) (s : Dev) (a : Nat) : Byte :=
  match sp with
  | .dram => if a < dramBytes then mget zeroByte s.dram a else 0
  | .cm c => if a < cmBytes then mget zeroByte s.cm (c * 2 ^ 24 + a) else 0
  | .scr k => if a < scrBytes then mget zeroByte s.scr (k * 2 ^ 22 + a) else 0
/-- Write one byte of a memory; an address beyond its end takes nothing. -/
def mwr (sp : Space) (a : Nat) (b : Byte) (s : Dev) : Dev :=
  match sp with
  | .dram => if a < dramBytes then { s with dram := mset zeroByte s.dram a b } else s
  | .cm c => if a < cmBytes then { s with cm := mset zeroByte s.cm (c * 2 ^ 24 + a) b } else s
  | .scr k => if a < scrBytes then { s with scr := mset zeroByte s.scr (k * 2 ^ 22 + a) b } else s
/-- `n` bytes from `a`. -/
def rdBytes (sp : Space) (s : Dev) (a : Nat) : Nat → List Byte
  | 0 => []
  | n + 1 => mrd sp s a :: rdBytes sp s (a + 1) n
/-- Write bytes from `a` on. -/
def wrBytes (sp : Space) (a : Nat) : List Byte → Dev → Dev
  | [], s => s
  | b :: bs, s => wrBytes sp (a + 1) bs (mwr sp a b s)
/-- A little-endian number of `n` bytes (R3). -/
def rdLE (sp : Space) (s : Dev) (a n : Nat) : Nat := leNat (rdBytes sp s a n)
/-- Write a little-endian number of `n` bytes. -/
def wrLE (sp : Space) (a n v : Nat) (s : Dev) : Dev := wrBytes sp a (leBytes n v) s
/-- Fill `n` bytes with zeros. -/
def clearBytes (sp : Space) (a n : Nat) (s : Dev) : Dev := wrBytes sp a (List.replicate n 0) s

/-! ## Events (15) -/

/-- The register and bit that an event sets in its block (Table 15-1); block 0x11 has no event register. -/
def eventReg (code unit : Nat) : Option Nat :=
  match code / 256 with
  | 0x01 => some Reg.TIDE_STATUS
  | 0x02 => some (Reg.ARR_EVENT unit)
  | 0x03 => some (Reg.WIN_EVENT unit)
  | 0x04 => some (Reg.LPD_EVENT unit)
  | 0x05 => some Reg.KVF_EVENT
  | 0x06 => some Reg.SEQ_EVENT
  | 0x07 => some Reg.SCH_EVENT
  | 0x08 => some (Reg.CDC_EVENT unit)
  | 0x09 => some Reg.ING_EVENT
  | 0x0A => some (Reg.PIX_EVENT unit)
  | 0x0B => some Reg.PIX_ADM_EVENT
  | 0x0C => some (Reg.TRK_EVENT unit)
  | 0x0D => some Reg.MDO_EVENT
  | 0x0E => some (Reg.DMC_EVENT (if code % 256 = 5 then unit else unit / 32))
  | 0x0F => some (Reg.ARB_EVENT (if code % 256 = 3 then unit / 32 else unit))
  | 0x10 => some Reg.ERR_EVENT
  | 0x12 => some Reg.PCI_EVENT
  | 0x13 => some Reg.BOOT_EVENT
  | 0x14 => some Reg.SEC_EVENT
  | 0x15 => some Reg.PWR_EVENT
  | _ => none

/-- R358 steps 1 and 2: the block sets its event bit and keeps the event raised for the collector. The fault-information
word of the block is set by the owning rule; `info` is the word the event carries. -/
def raiseFor (code unit info subject : Nat) (s : Dev) : Dev :=
  let s := match eventReg code unit with
    | some a => setB a (code % 256) true s
    | none => s
  { s with err := { s.err with evq := s.err.evq ++ [⟨code, unit, info, subject, now s⟩] } }
/-- An event that names no stream, sequence or cove. -/
def raise (code unit info : Nat) (s : Dev) : Dev := raiseFor code unit info 0xFFFF s
/-- An event of the PCIe endpoint, boot controller, security block or power manager that is a plain report bit. -/
def setEvent (a i : Nat) (s : Dev) : Dev := setB a i true s

/-- CFG_CLAMP of the time unit (R53): not an error. -/
def cfgClamp (s : Dev) : Dev := raise 0x0108 0 0 s
/-- CFG_REJECT of the time unit (R58). -/
def cfgReject (s : Dev) : Dev := raise 0x0109 0 0 s

/-- The class of an event (R356, R357 and the event table of each block): 0 corrected, 1 contained, 2 cove-fatal,
3 device-fatal, 4 not an error. -/
def eventClass (code : Nat) : Nat :=
  let b := code % 256
  let pick (corr cont cove dev : List Nat) : Nat :=
    if corr.contains b then 0 else if cont.contains b then 1 else if cove.contains b then 2
    else if dev.contains b then 3 else 4
  match code / 256 with
  | 0x01 => pick [10, 11, 12, 13, 14, 15] [] [] []
  | 0x02 => pick [0] [1, 2, 3, 4, 5] [] []
  | 0x03 => pick [0] [1, 2, 3, 4, 5, 6] [] []
  | 0x04 => pick [0] [1, 2, 3, 4] [] []
  | 0x05 => pick [0, 4] [1, 3, 6] [] []
  | 0x06 => pick [2] [0, 1, 3] [] []
  | 0x07 => pick [] [2, 3] [0, 1] []
  | 0x08 => pick [0] [1, 2, 3, 4, 5, 6, 7] [] []
  | 0x09 => pick [6] [0, 1, 2, 3, 4, 5] [] []
  | 0x0A => pick [0] [1, 2] [] []
  | 0x0B => pick [] [2, 3, 4] [] []
  | 0x0C => pick [0] [1, 2, 3] [] []
  | 0x0D => pick [3] [4] [] []
  | 0x0E => pick [0, 7, 8] [1, 2, 3] [] [4, 5, 6]
  | 0x0F => pick [0, 4] [1] [] [3]
  | 0x10 => pick [0] [1, 2, 3] [] [4]
  | 0x11 => pick [] [0] [] []
  | 0x12 => pick [1, 7] [0, 2, 3, 4, 5, 6, 8] [] []
  | 0x13 => pick [0, 3] [2, 4, 6] [] [1, 5]
  | 0x14 => pick [0, 5] [4, 6] [] []
  | 0x15 => pick [3] [4] [] [2]
  | _ => 4

/-- Whether an action of Table 15-5 is in progress on a unit. -/
def acting (s : Dev) (action unit : Nat) : Bool := s.err.acts.any fun a => a.action == action && a.unit == unit
/-- Actions that wait for (action, unit) end with an outcome (Table 15-12): 1 done, 4 failed; an action that no log entry asked for has
log 64. -/
def endActions (action unit outcome : Nat) (s : Dev) : Dev :=
  let mine (a : ActWait) : Bool := a.action == action && a.unit == unit
  let s := forS (s.err.acts.filter mine) (fun a t => if a.log < 64 then wf (Reg.ERR_LOG a.log 3) 22 3 outcome t else t) s
  { s with err := { s.err with acts := s.err.acts.filter fun a => !(mine a) } }

/-! ## The rotation rule (R350) -/

/-- The order in which classes are tried in a slot: class `s % 17` first when it is one of 0..3, else 3; then 3, 2, 1, 0. -/
def classOrder (t : Nat) : List Nat :=
  let first := if t % 17 ≤ 3 then t % 17 else 3
  first :: [3, 2, 1, 0].filter fun c => c != first

/-- The winner of one decision cycle among normal requesters given as (position, class): the first requester of the first
present class at position `t % n` or after it, cyclically. -/
def rotate (t n : Nat) (reqs : List (Nat × Nat)) : Option Nat :=
  let tryClass (c : Nat) : Option Nat :=
    ((List.range n).map fun i => (t % n + i) % n).find? fun p => reqs.contains (p, c)
  (classOrder t).findSome? tryClass

end Sys2Proof.Machine
end

