-- ==== Sys2Proof/Machine/Rings.lean ====
section
/-! DEFINITION. The host side: configuration space, MSI-X, interrupt aggregation and the rings (16, 19). -/
set_option autoImplicit false
namespace Sys2Proof.Machine
open Sys2Proof

/-! ## Configuration space (R379) -/

/-- The dwords of Tables 16-1 and 16-2 with the values of the PCI Express Base Specification for the rest
(log entry 6), as (offset, value). -/
def cfgDwords : List (Nat × Nat) := [
  (0x00, 0x96001FB4), (0x04, 0x00100000), (0x08, 0x12000010), (0x10, 0x00000004), (0x18, 0x0000000C),
  (0x20, 0x00000004), (0x34, 0x40), (0x40, 0x00035001), (0x44, 0x8), (0x50, 0x00029010), (0x54, 0x10008622),
  (0x58, 0x2810), (0x5C, 0x00410905), (0x74, 0x1F), (0x7C, 0x3E), (0x90, 0x003F0011), (0x94, 0x4), (0x98, 0x8004),
  (0x100, 0x15020001), (0x108, 0x00400000), (0x10C, 0x00462030), (0x114, 0x0000E000), (0x118, 0x200),
  (0x150, 0x16010003),
  (0x160, 0x19010019), (0x190, 0x1A010025), (0x1A0, 0x1F010026), (0x1F0, 0x24010027), (0x240, 0x0001002A)]
/-- The value of a configuration byte after function reset. -/
def cfgReset (a : Nat) : Byte :=
  match cfgDwords.find? fun d => d.1 == a / 4 * 4 with
  | some d => BitVec.ofNat 8 (d.2 / 2 ^ (8 * (a % 4)))
  | none => 0
/-- A configuration dword. -/
def cfgDw (s : Dev) (a : Nat) : Nat :=
  leNat ((List.range 4).map fun i => mget cfgReset s.pci.cfg (a + i))
/-- Set a configuration dword. -/
def cfgPut (a v : Nat) (s : Dev) : Dev :=
  let m := (List.range 4).foldl (fun m i => mset cfgReset m (a + i) (BitVec.ofNat 8 (v / 2 ^ (8 * i)))) s.pci.cfg
  { s with pci := { s.pci with cfg := m } }
/-- Command.Bus Master. -/
def busMaster (s : Dev) : Bool := bitOf (cfgDw s 0x04) 2
/-- The function is in D3hot (R380). -/
def inD3 (s : Dev) : Bool := bits (cfgDw s 0x44) 0 2 == 3
/-- Whether the endpoint may issue memory requests: link up, no function reset, not D3hot, bus master set (R380, R392). -/
def canIssue (s : Dev) : Bool :=
  tst s Reg.PCI_STATUS 0 && !(tst s Reg.PCI_STATUS 10) && !(inD3 s) && busMaster s

/-! ## MSI-X (R385) -/

/-- The MSI-X table after reset: every vector masked. -/
def msixReset (a : Nat) : Byte := if a % 16 = 12 then 1 else 0
/-- Function Mask, and MSI-X Enable. -/
def msixFuncMask (s : Dev) : Bool := bitOf (cfgDw s 0x90) 30
/-- MSI-X Enable. -/
def msixEnabled (s : Dev) : Bool := bitOf (cfgDw s 0x90) 31
/-- Whether vector `v` is masked by its own bit. -/
def vecMasked (s : Dev) (v : Nat) : Bool := bitOf (mget msixReset s.pci.msix (16 * v + 12)).toNat 0
/-- The link leaves L1 for a TLP (R394), whose moment is kept. -/
def leaveL1 (s : Dev) : Dev := setB Reg.PCI_STATUS 9 false { s with pci := { s.pci with tlpAt := now s } }
/-- Set the pending bit of a vector. -/
def setPba (v : Nat) (b : Bool) (s : Dev) : Dev := { s with pci := { s.pci with pba := putBits s.pci.pba v 1 (b2n b) } }
/-- Request a message on a vector: a masked vector sets its pending bit instead (R385), and so does one whose message may not be issued
now. Nothing is requested while MSI-X is not enabled. -/
def msixSend (v : Nat) (s : Dev) : Dev :=
  if !(msixEnabled s) then s
  else if msixFuncMask s || vecMasked s v || !(canIssue s) then setPba v true s
  else s |> leaveL1 |> send (.msix v)
/-- Pending messages that may be sent now are sent. -/
def msixFlush (s : Dev) : Dev :=
  forS ((List.range 64).filter fun v => bitOf s.pci.pba v) (fun v s => if msixEnabled s && !(msixFuncMask s) && !(vecMasked s v) && canIssue s then s |> setPba v false |> leaveL1 |> send (.msix v) else s) s

/-- A message that the interrupt aggregation requests for source `i`: it counts in GEN_IRQ_SENT_CNT (R444). -/
def irqRequest (i : Nat) (s : Dev) : Dev :=
  s |> bump Reg.GEN_IRQ_SENT_CNT 1 |> msixSend (rf s (Reg.GEN_IRQ_VEC i) 0 6)
/-- An interrupt source fires (R443, R444): when enabled, its pending bit becomes 1, and a change from 0 requests a
message. `cls` is the event's class; sources 22 and 23 have none. -/
def irqFire (i cls : Nat) (s : Dev) : Dev :=
  if tst s Reg.GEN_IRQ_EN i && (decide (22 ≤ i) || tst s (Reg.GEN_IRQ_VEC i) (8 + cls)) then
    if tst s Reg.GEN_IRQ_PEND i then s
    else s |> setB Reg.GEN_IRQ_PEND i true |> irqRequest i
  else s

/-! ## Rings (R386..R391) -/

/-- RING_STATE: 0 OFF, 1 RUN, 2 STOPPED. -/
def ringState (s : Dev) (r : Nat) : Nat := rf s (Reg.PCI_RING_STATE r) 0 2
/-- ENTRIES of a ring. -/
def ringEntries (s : Dev) (r : Nat) : Nat := 2 ^ rf s (Reg.PCI_RING_CFG r) 1 4
/-- SLOT of a ring in bytes. -/
def ringSlot (s : Dev) (r : Nat) : Nat := 2 ^ rf s (Reg.PCI_RING_CFG r) 5 4
/-- Entries in the ring: PI − CI modulo 2^32. -/
def ringUsed (s : Dev) (r : Nat) : Nat :=
  (rdN s (Reg.PCI_RING_PI r) + 2 ^ 32 - rdN s (Reg.PCI_RING_CI r)) % 2 ^ 32
/-- Full when PI − CI = ENTRIES (R389). -/
def ringFull (s : Dev) (r : Nat) : Bool := ringUsed s r == ringEntries s r
/-- Keep RING_STATE.FULL in step with the indices. -/
def ringFullBit (r : Nat) (s : Dev) : Dev := setB (Reg.PCI_RING_STATE r) 2 (ringFull s r) s
/-- A ring signals its vector when it completes an entry, at most once per MOD µs; an event inside the moderation time
is signalled when that ends (R385). -/
def ringSignal (r : Nat) (s : Dev) : Dev :=
  let cfg := Reg.PCI_RING_CFG r
  if !(tst s cfg 15) then s
  else
    let last := mget (fun _ => 0) s.pci.modAt r
    let quiet := last + rf s cfg 16 10 * 1000
    if last ≠ 0 ∧ now s + 1 < quiet + 1 then
      { s with pci := { s.pci with deferred := if s.pci.deferred.contains r then s.pci.deferred else s.pci.deferred ++ [r] } }
    else msixSend (rf s cfg 9 6) { s with pci := { s.pci with modAt := mset (fun _ => 0) s.pci.modAt r (now s) } }
/-- Write an index to the shadow address when one is set (R389). -/
def ringShadow (r idx : Nat) (s : Dev) : Dev :=
  if rd64 s (Reg.PCI_RING_SHADOW_LO r) / 8 = 0 then s else send (.shadow r idx) s
/-- Whether one of the 12 rings can take an entry of the device now. -/
def ringCanTake (s : Dev) (r : Nat) : Bool := decide (r < 12) && ringState s r == 1 && !(ringFull s r) && canIssue s
/-- The 16-byte header of a slot (R387). -/
def slotHeader (len kind phase tag w23 : Nat) : List Byte :=
  leBytes 4 (len + kind * 2 ^ 16 + phase * 2 ^ 31) ++ leBytes 4 tag ++ leBytes 8 w23
/-- Produce one entry of a D2H ring (R389): body, header with PHASE, shadow PI, and the signal. -/
def ringPut (r kind tag w23 : Nat) (body : List Byte) (s : Dev) : Dev :=
  let i := rdN s (Reg.PCI_RING_PI r)
  let phase := 1 - i / ringEntries s r % 2
  s |> leaveL1 |> send (.ringEntry r i (slotHeader body.length kind phase tag w23 ++ body))
    |> wrN (Reg.PCI_RING_PI r) (i + 1)
    |> ringShadow r ((i + 1) % 2 ^ 32) |> ringFullBit r |> ringSignal r
/-- The posts of one ring, oldest first, as long as the ring takes them. -/
def flushPosts : List Post → Dev → Dev
  | [], s => s
  | p :: ps, s =>
    if ringCanTake s p.ring then
      flushPosts ps (ringPut p.ring p.kind p.tag (now s) p.body { s with pci := { s.pci with waiting := s.pci.waiting.erase p } })
    else flushPosts ps s
/-- Post to the host: the post takes its ring's next tag (R387) and waits until its ring has room (Table 16-7). -/
def hostPost (r kind : Nat) (body : List Byte) (s : Dev) : Dev :=
  let tag := mget (fun _ => 0) s.pci.tags r
  { s with pci := { s.pci with tags := mset (fun _ => 0) s.pci.tags r ((tag + 1) % 2 ^ 32), waiting := s.pci.waiting ++ [⟨r, kind, tag, body⟩] } }
/-- The tag that the next post of ring `r` takes. -/
def nextTag (s : Dev) (r : Nat) : Nat := mget (fun _ => 0) s.pci.tags r
/-- Withdraw a post that has not left (its limit expired, R391). -/
def dropPost (r tag : Nat) (s : Dev) : Dev :=
  { s with pci := { s.pci with waiting := s.pci.waiting.filter fun p => !(p.ring == r && p.tag == tag) } }
/-- A function gives work up because no host answered in its limit, or none can be asked: the tide's health record names it (R32). Functions
by their row of Table 1-8. -/
def hostGone (f : Nat) (s : Dev) : Dev := { s with tide := { s.tide with waited := s.tide.waited.filter (· != f) ++ [f] } }
/-- Whether an H2D ring holds an entry to read (R389). -/
def ringHasEntry (s : Dev) (r : Nat) : Bool := ringState s r == 1 && ringUsed s r != 0 && canIssue s
/-- The entry at CI of an H2D ring has been read: CI advances, the shadow is written, the ring signals (R385, R389). -/
def ringTake (r : Nat) (s : Dev) : Dev :=
  let i := (rdN s (Reg.PCI_RING_CI r) + 1) % 2 ^ 32
  s |> leaveL1 |> wrN (Reg.PCI_RING_CI r) i |> ringFullBit r |> ringShadow r i |> ringSignal r
/-- An answer whose tag is not outstanding, or a malformed entry, is discarded (Table 16-7). -/
def staleEntry (s : Dev) : Dev := bump Reg.PCI_STALE_CNT 1 s

end Sys2Proof.Machine
end

