-- ==== Sys2Proof/Machine/Records.lean ====
section
/-! DEFINITION. Records of the Lumivo Metadata Protocol, their channels and datagrams (R306..R312, R317, R466). -/
set_option autoImplicit false
namespace Sys2Proof.Machine
open Sys2Proof

/-- LENGTH of a record: the 24-byte header and the payload (R310). -/
def LmpRec.length (r : LmpRec) : Nat := 24 + r.body.length
/-- The 24-byte header of Table 12-5 and the payload, in network order. -/
def LmpRec.bytes (r : LmpRec) : List Byte :=
  beBytes 1 r.kind ++ beBytes 1 (b2n r.taint + 2 * b2n r.continued + 4 * b2n r.untraceable) ++ beBytes 2 r.length ++
  beBytes 2 r.subject ++ beBytes 2 r.item ++ beBytes 8 r.time ++ beBytes 4 (r.analysed + r.offered * 2 ^ 10) ++
  beBytes 4 (r.tide % 2 ^ 32) ++ r.body

/-- Whether records of a kind have a stream as their subject (Table 12-6). -/
def streamKind (k : Nat) : Bool := [1, 2, 3, 5, 6, 7, 13].contains k
/-- A record at this moment: the tide number, and for a stream record the counts of R292. -/
def mkRec (s : Dev) (kind subject item time : Nat) (untr : Bool) (body : List Byte) : LmpRec :=
  let st := streamKind kind && decide (subject < 512)
  { kind, untraceable := untr, subject, item, time, tide := tideNum s % 2 ^ 32, body := padTo 4 body,
    analysed := if st then rf s (Reg.PIX_S_STATE subject) 8 10 else 0,
    offered := if st then rf s (Reg.PIX_S_STATE subject) 18 10 else 0 }

/-- The queue of a channel. -/
def chan (s : Dev) (ch : Nat) : Chan := mget (fun _ => {}) s.mdo.chans ch
/-- Set a channel. -/
def setChan (ch : Nat) (c : Chan) (s : Dev) : Dev :=
  { s with mdo := { s.mdo with chans := mset (fun _ => {}) s.mdo.chans ch c } }
/-- R306: whether a channel is enabled. -/
def chanEnabled (s : Dev) (ch : Nat) : Bool :=
  if ch < 8 then tst s Reg.MDO_CTRL 0 && tst s (Reg.MDO_DEST_CFG ch) 0 else tst s Reg.MDO_CTRL 1
/-- R306: whether a channel's kind mask selects a kind. -/
def chanTakes (s : Dev) (ch kind : Nat) : Bool :=
  decide (kind < 16) && if ch < 8 then tst s (Reg.MDO_DEST_MASK ch) kind else tst s (Reg.MDO_RING_MASK (ch - 8)) kind
/-- MDO_STATUS of a channel: queue not empty, losses await their gap record. -/
def chanStatus (ch : Nat) (s : Dev) : Dev :=
  s |> setB Reg.MDO_STATUS ch (!(chan s ch).q.isEmpty) |> setB Reg.MDO_STATUS (16 + ch) (chan s ch).lost.isSome

/-- The longest prefix of a queue that fits one datagram of 1,400 record bytes (R309). -/
def fitPrefix : Nat → List QRec → List QRec
  | _, [] => []
  | room, x :: xs => if x.r.length ≤ room then x :: fitPrefix (room - x.r.length) xs else []
/-- The device is in HALT, where no record is sent (R408). -/
def halted (s : Dev) : Bool := rf s Reg.BOOT_STATUS 0 4 == 15
/-- Whether the port of a UDP channel can send: its link is up, and in ebb it is the port kept up (R271, R308). -/
def portCanSend (s : Dev) (p : Nat) : Bool :=
  !(halted s) && tst s (Reg.ING_PORT_STATUS p) 0 && (ebbState s != 2 || p == rf s Reg.ING_CTRL 1 1)
/-- The global IPv6 address of port `p`. -/
def portIp6 (s : Dev) (p : Nat) : Nat := (List.range 4).foldl (fun a i => a * 2 ^ 32 + rdN s (Reg.ING_PORT_IPV6 p i)) 0
/-- The destination address of a UDP channel: IPv4 in word 0, IPv6 in words 0 to 3, the most significant first (Table 12-9). -/
def destAddr (s : Dev) (ch : Nat) (v6 : Bool) : Nat := if v6 then (List.range 4).foldl (fun a i => a * 2 ^ 32 + rdN s (Reg.MDO_DEST_ADDR ch i)) 0 else rdN s (Reg.MDO_DEST_ADDR ch 0)
/-- The 32-byte datagram header of Table 12-4. -/
def dgramHeader (s : Dev) (ch count first : Nat) : List Byte :=
  beBytes 2 0x4C4D ++ [1, 0] ++ beBytes 4 (rdN s Reg.MDO_DEVICE_ID) ++ beBytes 2 ch ++ beBytes 2 count ++ beBytes 8 first ++ beBytes 8 (now s) ++ beBytes 4 0
/-- The datagram of the records `l` of channel `ch` (R309, Table 12-13). -/
def dgramOf (s : Dev) (ch first : Nat) (l : List LmpRec) : Dgram :=
  let p := rf s (Reg.MDO_DEST_CFG ch) 1 2
  let v6 := tst s (Reg.MDO_DEST_CFG ch) 3
  { ch, port := p, dscp := rf s (Reg.MDO_DEST_CFG ch) 4 6, v6, src := if v6 then portIp6 s p else rdN s (Reg.ING_PORT_IPV4 p), dst := destAddr s ch v6,
    srcUdp := rf s Reg.MDO_LMP_PORT 0 16, udp := rf s (Reg.MDO_DEST_UDP ch) 0 16, payload := dgramHeader s ch l.length first ++ l.flatMap LmpRec.bytes }
/-- Close one datagram of a UDP channel and hand it to the port (R309). -/
def sendDatagram (ch : Nat) (s : Dev) : Dev :=
  let c := chan s ch
  let p := rf s (Reg.MDO_DEST_CFG ch) 1 2
  match fitPrefix 1400 c.q with
  | [] => s
  | x :: xs =>
    let rest := c.q.drop (xs.length + 1)
    s |> send (.datagram (dgramOf s ch x.seq ((x :: xs).map (·.r))))
      |> bump (Reg.ING_PORT_TX_CNT p) 1
      |> bump (Reg.MDO_CH_REC_CNT ch) (xs.length + 1)
      |> setChan ch { c with q := rest, openAt := if rest.isEmpty then none else some (now s) }
      |> chanStatus ch
/-- Close datagrams while the queue holds records, at most `n` of them; with `all = false` the last one stays open. -/
def closeDatagrams (ch : Nat) (all : Bool) : Nat → Dev → Dev
  | 0, s => s
  | n + 1, s =>
    let q := (chan s ch).q
    if !(portCanSend s (rf s (Reg.MDO_DEST_CFG ch) 1 2)) || q.isEmpty then s
    else if !all && (fitPrefix 1400 q).length == q.length then s
    else closeDatagrams ch all n (sendDatagram ch s)
/-- Move queued records of a ring channel into its ring, oldest first (R317, R391). -/
def drainRing (ch : Nat) : Nat → Dev → Dev
  | 0, s => s
  | n + 1, s =>
    match (chan s ch).q with
    | [] => s
    | x :: xs =>
      if !(halted s) && ringCanTake s (ch - 8) then
        drainRing ch n (s |> ringPut (ch - 8) Config.metaKind.toNat 0 x.seq x.r.bytes
          |> bump (Reg.MDO_CH_REC_CNT ch) 1 |> setChan ch { chan s ch with q := xs } |> chanStatus ch)
      else s
/-- Send what a channel can send now: full datagrams, or ring entries. -/
def pump (ch : Nat) (s : Dev) : Dev :=
  if ch < 8 then closeDatagrams ch false 4096 s else drainRing ch 4096 s

/-- The capacity of a channel queue (R308). -/
def chanCap : Nat := 4096
/-- Put a record into a channel under its next number (R307). -/
def chanPush (ch : Nat) (r : LmpRec) (s : Dev) : Dev :=
  let c := chan s ch
  let n := rd64 s (Reg.MDO_CH_SEQ_LO ch)
  s |> setChan ch { c with q := c.q ++ [⟨n, r⟩], openAt := if c.openAt.isNone then some (now s) else c.openAt }
    |> wr64 (Reg.MDO_CH_SEQ_LO ch) (n + 1) |> chanStatus ch
/-- The gap record that ends a run of losses (R308). -/
def overflowGap (s : Dev) (l : LostRun) : LmpRec :=
  mkRec s 7 0xFFFF 0 l.first (untraceable s) ([9, 0xFF, 0xFF, 0] ++ beBytes 4 l.n ++ beBytes 8 l.last)
/-- R308: when the queue has room, the first record to enter is the gap record of the run of losses. -/
def endLostRun (ch : Nat) (s : Dev) : Dev :=
  match (chan s ch).lost with
  | none => s
  | some l =>
    if (chan s ch).q.length < chanCap then
      s |> setChan ch { chan s ch with lost := none } |> chanPush ch (overflowGap s l)
    else s
/-- A record meets a full queue (R308): it is lost and counted, and the run's first loss raises CH_OVERFLOW. -/
def chanLose (ch : Nat) (s : Dev) : Dev :=
  let s1 := bump (Reg.MDO_CH_LOST_CNT ch) 1 s
  match (chan s ch).lost with
  | none => s1 |> setChan ch { chan s ch with lost := some ⟨1, now s, now s⟩ } |> chanStatus ch |> raise 0x0D00 ch 0
  | some l => s1 |> setChan ch { chan s ch with lost := some ⟨l.n + 1, l.first, now s⟩ }
/-- A record enters a channel, or is lost (R307, R308). -/
def chanEnter (r : LmpRec) (ch : Nat) (s : Dev) : Dev :=
  let s := endLostRun ch s
  if (chan s ch).q.length < chanCap ∧ (chan s ch).lost = none then s |> chanPush ch r |> pump ch else chanLose ch s
/-- R306: a record enters every enabled channel whose kind mask selects it. -/
def enterChans (r : LmpRec) (s : Dev) : Dev :=
  forS (List.range 12) (fun ch t => if chanEnabled t ch && chanTakes t ch r.kind then chanEnter r ch t else t) s

/-! ## Capture order (R26, R307, P1) -/

/-- Whether a record reports on a frame of a stream. -/
def frameRec (r : LmpRec) : Bool := [1, 2, 3, 5, 7].contains r.kind && decide (r.subject < 512)
/-- The stream of a decode context, by engine × 32 + context. -/
def decodeStream (s : Dev) (key : Nat) : Option Nat :=
  if tst s (Reg.CDC_CTX_CFG (key / 32) (key % 32)) 10 then none else some (rf s (Reg.CDC_CTX_CFG (key / 32) (key % 32)) 0 9)
/-- Whether a frame of stream `st` captured before `t` is still in progress: in its jitter buffer, queued, being decoded or awaiting
output, in a pixel pipe, pending, in a batch, or in a track engine. -/
def openBefore (s : Dev) (st t : Nat) : Bool :=
  let hit (x : FrameId) : Bool := x.stream == st && decide (x.cap < t)
  (mget (fun _ => {}) s.ing.strms st).units.any (fun u => decide (u.cap < (t : Int))) ||
    (s.cctx.any fun c => decodeStream s c.1 == some st && (c.2.queue.any (fun a => decide (a.cap < t)) || c.2.pool.any fun b => b.2.wait.isSome && decide (b.2.cap < t))) ||
    (s.cdc.any fun e => match e.2.busy with
      | some b => decodeStream s (e.1 * 32 + b.ctx) == some st && (match b.au with | some a => decide (a.cap < t) | none => false)
      | none => false) ||
    (s.pix.pipes.any fun q => q.2.any fun p => hit p.id) ||
    (s.coves.any fun c => c.2.frames.any (fun f => hit f.id) || c.2.queue.any (fun j => j.frames.any hit) || (match c.2.run with | some r => r.job.frames.any hit | none => false)) ||
    s.trk.any fun d => d.2.queue.any (fun f => hit f.id) || d.2.posted.any (fun a => hit a.2.f.id) || (match d.2.cur with | some a => hit a.f.id | none => false)
/-- Put a record behind the held records of its stream whose frames were captured no later. -/
def insertHeld (r : LmpRec) : List LmpRec → List LmpRec
  | [] => [r]
  | x :: xs => if x.subject = r.subject ∧ r.time < x.time then r :: x :: xs else x :: insertHeld r xs
/-- Let go of the held records that can leave; a stream in `shut` has one that must wait. -/
def releaseRecs : List LmpRec → List Nat → Dev → Dev
  | [], _, s => s
  | r :: rs, shut, s =>
    if shut.contains r.subject || openBefore s r.subject r.time then releaseRecs rs (r.subject :: shut) s
    else releaseRecs rs shut (enterChans { r with tide := tideNum s % 2 ^ 32 } { s with mdo := { s.mdo with held := s.mdo.held.erase r } })
/-- Held records leave in order. -/
def releaseHeld (s : Dev) : Dev := releaseRecs s.mdo.held [] s
/-- A record is emitted: one that reports on a frame enters the channels in capture order, any other at once. -/
def emitRec (r : LmpRec) (s : Dev) : Dev :=
  if frameRec r then releaseHeld { s with mdo := { s.mdo with held := insertHeld r s.mdo.held } } else enterChans r s

/-! ## What follows every command -/

/-- Posts and records that wait leave as soon as they can (R309, R391, Table 16-7): after every command, the posts whose
ring has room enter it, held records whose turn has come enter the channels, ring channels drain, and UDP channels send what fills a
datagram. -/
def settle (s : Dev) : Dev :=
  s |> releaseHeld |> flushPosts s.pci.waiting |> forS (List.range 12) pump
/-- Whether the device is held in reset (R455, R456): PORST_N is low, a rail is under its minimum, or REFCLK_SYS is out of range. -/
def inReset (s : Dev) : Bool := !s.pins.porst || s.pins.under || s.pins.refLoss
/-- A command's effect on the device, then what can leave does; a device held in reset does nothing. -/
def act (f : Dev → Dev) (s : Dev) : Dev := if inReset s then s else settle (f s)
/-- The meaning of a command; the queue is as it was. -/
def onDev (f : Dev → Dev) (s : State) : Result := .next { s with dev := act f s.dev }
/-- The meaning of a change of a reset pin, of a clock or of a supply, and of the test access port, which a reset does not hold. -/
def onPin (f : Dev → Dev) (s : State) : Result := .next { s with dev := f s.dev }

/-! ## Records that several blocks emit -/

/-- GAP reasons (Table 12-7). -/
inductive GapReason where
  | lost | dropped | void | contained | held | tainted | thinned | host | overflow | untracked
  deriving DecidableEq, Repr
/-- The REASON code. -/
def GapReason.code : GapReason → Nat
  | .lost => 1 | .dropped => 2 | .void => 3 | .contained => 4 | .held => 5
  | .tainted => 6 | .thinned => 7 | .host => 8 | .overflow => 9 | .untracked => 10
/-- A gap record of a stream: `cove` and `cls` 0xFF for none and all; `first` and `last` are the captures covered. The
track engine leaves every track unchanged on it (R298). -/
def gap (stream : Nat) (why : GapReason) (cove cls frames first last : Nat) (untr : Bool) (s : Dev) : Dev :=
  emitRec (mkRec s 7 stream 0 first untr
    (beBytes 1 why.code ++ beBytes 1 cove ++ beBytes 1 cls ++ [0] ++ beBytes 4 frames ++ beBytes 8 last))
    { s with mdo := { s.mdo with gaps := s.mdo.gaps ++ [(stream, first, last)] } }
/-- One gap record for one frame. -/
def gap1 (stream : Nat) (why : GapReason) (cove cls capture : Nat) (untr : Bool) (s : Dev) : Dev :=
  gap stream why cove cls 1 capture capture untr s
/-- A BUSY record (Table 12-7): `source` 0 query, 1 clip. -/
def busyRec (subject id reason source : Nat) (s : Dev) : Dev :=
  emitRec (mkRec s 12 subject 0 (now s) (untraceable s) (beBytes 2 id ++ beBytes 1 reason ++ beBytes 1 source)) s
/-- An EVENT record of a stream (Table 12-7). -/
def eventRec (stream item time : Nat) (untr taint : Bool) (code track identity arg value : Nat) (s : Dev) : Dev :=
  emitRec { mkRec s 5 stream item time untr
    (beBytes 2 code ++ beBytes 2 track ++ beBytes 4 identity ++ beBytes 4 arg ++ beBytes 4 value) with taint } s
/-- A TEXT record of a sequence (Table 12-7, R312). -/
def textRec (seq queryId first : Nat) (toks : List Nat) (endCode recompute narrow time : Nat) (taint untr : Bool)
    (text : List Byte) (s : Dev) : Dev :=
  emitRec { mkRec s 4 seq 0 time untr
    (beBytes 2 queryId ++ beBytes 2 first ++ beBytes 2 toks.length ++ beBytes 1 endCode ++ beBytes 1 recompute ++
      beBytes 4 narrow ++ beBytes 2 text.length ++ [0, 0] ++ toks.flatMap (beBytes 4) ++ padTo 4 text) with taint } s
/-- An ERROR record (Table 12-7). -/
def errorRec (subject time : Nat) (ev cls action unit info : Nat) (s : Dev) : Dev :=
  emitRec (mkRec s 10 subject 0 time (untraceable s)
    (beBytes 2 ev ++ beBytes 1 cls ++ beBytes 1 action ++ beBytes 4 unit ++ beBytes 4 info ++ beBytes 4 0)) s

end Sys2Proof.Machine
end

