-- ==== Sys2Proof/Machine/Tracks.lean ====
section
/-! DEFINITION. The stream table's fields, the track table, prediction, update and the measures of association (10, 12). -/
set_option autoImplicit false
namespace Sys2Proof.Machine
open Sys2Proof

/-! ## The stream table (Table 10-7) -/

/-- A field of stream-table entry `st`, word `w`. -/
def stF (s : Dev) (st w lo len : Nat) : Nat := rf s (Reg.ING_TABLE st w) lo len
/-- VALID. -/
def stValid (s : Dev) (st : Nat) : Bool := decide (st < 512) && stF s st 0 0 1 == 1
/-- ENGINE, the global codec engine of a stream. -/
def stEngine (s : Dev) (st : Nat) : Nat := stF s st 4 0 4
/-- CTX. -/
def stCtx (s : Dev) (st : Nat) : Nat := stF s st 4 4 5
/-- The die of a stream: that of its codec engine (R25). -/
def stDie (s : Dev) (st : Nat) : Nat := stEngine s st / 8
/-- PIX_PROFILE. -/
def stProfile (s : Dev) (st : Nat) : Nat := stF s st 4 9 7
/-- FPS_NOM. -/
def stFps (s : Dev) (st : Nat) : Nat := stF s st 4 16 16
/-- PRIO. -/
def stPrio (s : Dev) (st : Nat) : Nat := stF s st 0 10 2
/-- CAM_GROUP. -/
def stGroup (s : Dev) (st : Nat) : Nat := stF s st 3 24 8

/-! ## The track table (Table 12-1) -/

/-- A track-table entry: FP32 values by their bits; `p` holds (p_pp, p_pv, p_vv) for cx, cy, w, h. -/
structure Ent where
  state : Nat
  stream : Nat
  cls : Nat
  hits : Nat
  ident : Nat
  last : Nat
  x : List Nat
  v : List Nat
  p : List (Nat × Nat × Nat)
  emb : List Int
  exps : List Nat
  misses : Nat
  score : Nat
  deriving DecidableEq, Repr
/-- The address of global track `t`. -/
def trkAddr (s : Dev) (t : Nat) : Nat := baseAddr s (Reg.TRK_TABLE_BASE_LO (t / 16384)) + 256 * (t % 16384)
/-- A 32-bit word of an entry. -/
def trkWord (s : Dev) (t ofs : Nat) : Nat := rdLE .dram s (trkAddr s t + ofs) 4
/-- STATE: 0 FREE, 1 TENTATIVE, 2 CONFIRMED, 3 LOST. -/
def trkState (s : Dev) (t : Nat) : Nat := bits (trkWord s t 0) 0 2
/-- STREAM. -/
def trkStream (s : Dev) (t : Nat) : Nat := bits (trkWord s t 0) 2 9
/-- IDENTITY. -/
def trkIdent (s : Dev) (t : Nat) : Nat := trkWord s t 4
/-- Read an entry. -/
def trkGet (s : Dev) (t : Nat) : Ent :=
  let w := trkWord s t
  let p (i : Nat) : Nat := w (48 + 4 * i)
  { state := bits (w 0) 0 2, stream := bits (w 0) 2 9, cls := bits (w 0) 11 8, hits := bits (w 0) 19 8, ident := w 4,
    last := w 8 + w 12 * 2 ^ 32, x := (List.range 4).map fun i => w (16 + 4 * i), v := (List.range 4).map fun i => w (32 + 4 * i),
    p := (List.range 4).map fun i => (p (3 * i), p (3 * i + 1), p (3 * i + 2)),
    emb := (rdBytes .dram s (trkAddr s t + 96) 128).map (·.toInt), exps := (rdBytes .dram s (trkAddr s t + 224) 4).map (·.toNat),
    misses := bits (w 228) 0 16, score := bits (w 228) 16 8 }
/-- The bytes of an entry. -/
def Ent.bytes (e : Ent) : List Byte :=
  leBytes 4 (e.state + e.stream % 512 * 2 ^ 2 + e.cls % 256 * 2 ^ 11 + e.hits % 256 * 2 ^ 19) ++ leBytes 4 e.ident ++ leBytes 8 e.last ++
  (List.range 4).flatMap (fun i => leBytes 4 (e.x.getD i 0)) ++ (List.range 4).flatMap (fun i => leBytes 4 (e.v.getD i 0)) ++
  (List.range 4).flatMap (fun i => (let p := e.p.getD i (0, 0, 0)
    leBytes 4 p.1 ++ leBytes 4 p.2.1 ++ leBytes 4 p.2.2)) ++
  (List.range 128).map (fun i => BitVec.ofInt 8 (e.emb.getD i 0)) ++ (List.range 4).map (fun i => BitVec.ofNat 8 (e.exps.getD i 0)) ++
  leBytes 4 (e.misses % 2 ^ 16 + e.score % 256 * 2 ^ 16) ++ leBytes 24 0
/-- The counter of entries that are not FREE, and TRK_STATUS.FULL, which clears when an entry becomes FREE (R302). -/
def trkCount (d : Nat) (was now_ : Nat) (s : Dev) : Dev :=
  let a := Reg.TRK_STATUS d
  let n := rf s a 0 15
  if was = 0 ∧ now_ ≠ 0 then wf a 0 15 (n + 1) s
  else if was ≠ 0 ∧ now_ = 0 then s |> wf a 0 15 (n - 1) |> setB a 16 false
  else s
/-- Write an entry. -/
def trkPut (t : Nat) (e : Ent) (s : Dev) : Dev :=
  s |> trkCount (t / 16384) (trkState s t) e.state |> wrBytes .dram (trkAddr s t) e.bytes
/-- An entry becomes FREE: its other contents stay. -/
def trkFree (t : Nat) (s : Dev) : Dev :=
  s |> trkCount (t / 16384) (trkState s t) 0 |> wrLE .dram (trkAddr s t) 4 (putBits (trkWord s t 0) 0 2 0)
    |> (fun s => { s with trk := (s.trk.map fun p => if p.1 = t / 16384 then (p.1, { p.2 with listed := p.2.listed.filter (· != t), handed := p.2.handed.filter (· != t) }) else p) })
/-- The global tracks of a die. -/
def dieTracks (d : Nat) : List Nat := (List.range 16384).map fun i => 16384 * d + i
/-- The tracks of a stream that a die holds in the given states. -/
def streamTracks (s : Dev) (d st : Nat) (states : List Nat) : List Nat :=
  if rf s (Reg.TRK_STATUS d) 0 15 = 0 then []
  else (dieTracks d).filter fun t => states.contains (trkState s t) && trkStream s t == st
/-- The track engine of a die. -/
def trkOf (s : Dev) (d : Nat) : Trk := mget (fun _ => {}) s.trk d
/-- Change it. -/
def modTrk (d : Nat) (f : Trk → Trk) (s : Dev) : Dev := { s with trk := mset (fun _ => {}) s.trk d (f (trkOf s d)) }

/-! ## Arithmetic of the track engine (R299, R300) -/

/-- A quotient whose divisor is ±0 is +0.0 (R299). -/
def tdiv (a b : Nat) : Nat := if bits b 0 31 = 0 then 0 else (div32 a b).v
/-- A rounded sum. -/
def tadd (a b : Nat) : Nat := (add32 a b).v
/-- A rounded difference. -/
def tsub (a b : Nat) : Nat := (sub32 a b).v
/-- A rounded product. -/
def tmul (a b : Nat) : Nat := (mul32 a b).v
/-- `n / 2^k` as FP32. -/
def tfrac (n k : Nat) : Nat := (ofScaled32 n (-(k : Int))).v
/-- 1.0e-9 as FP32. -/
def nano : Nat := 0x3089705F
/-- Prediction of an entry to a capture time, with the noise QF of a die (R299). -/
def predict (s : Dev) (d cap : Nat) (e : Ent) : Ent :=
  let dt := tmul (ofInt32 ((cap : Int) - e.last)) nano
  let x := (List.range 4).map fun k => tadd (e.x.getD k 0) (tmul (e.v.getD k 0) dt)
  let qh := tmul (tfrac (rf s (Reg.TRK_NOISE d) 0 10) 10) (x.getD 3 0)
  let q := tmul qh qh
  let two := ofInt32 2
  let p := e.p.map fun y =>
    let pp := tadd y.1 (tadd (tadd (tmul (tmul two dt) y.2.1) (tmul (tmul dt dt) y.2.2)) (tdiv (tmul (tmul (tmul q dt) dt) dt) (ofInt32 3)))
    let pv := tadd y.2.1 (tadd (tmul dt y.2.2) (tdiv (tmul (tmul q dt) dt) two))
    (pp, pv, tadd y.2.2 (tmul q dt))
  { e with x, p }
/-- sq(RF × h) of a die. -/
def measNoise (s : Dev) (d h : Nat) : Nat :=
  let r := tmul (tfrac (rf s (Reg.TRK_NOISE d) 10 10) 10) h
  tmul r r
/-- The Kalman update of one coordinate (R299): position, rate and covariance. -/
def kalman (r z x v : Nat) (p : Nat × Nat × Nat) : Nat × Nat × (Nat × Nat × Nat) :=
  let sv := tadd p.1 r
  let kp := tdiv p.1 sv
  let kv := tdiv p.2.1 sv
  let y := tsub z x
  let one := ofInt32 1
  (tadd x (tmul kp y), tadd v (tmul kv y), (tmul p.1 (tsub one kp), tmul p.2.1 (tsub one kp), tsub p.2.2 (tmul kv p.2.1)))
/-- The measurement of a box: cx, cy, w, h. -/
def Det.meas (z : Det) : List Nat :=
  let half := tfrac 1 1
  [tmul (tadd z.x0 z.x1) half, tmul (tadd z.y0 z.y1) half, tsub z.x1 z.x0, tsub z.y1 z.y0]
/-- 0.75 × old + 0.25 × new of two embeddings, converted to BX8 (R299). -/
def mixEmb (old new_ : List Int × List Nat) : List Int × List Nat :=
  let val (e : List Int × List Nat) (i : Nat) : Nat := (bxTo32 (e.1.getD i 0) (e.2.getD (i / 32) 0)).v
  let f (i : Nat) : Nat := tadd (tmul (tfrac 3 2) (val old i)) (tmul (tfrac 1 2) (val new_ i))
  let ps := (List.range 4).map fun p => (toBx 8 ((List.range 32).map fun i => f (32 * p + i))).1
  (ps.flatMap (·.q), ps.map (·.e))
/-- SCORE: the detection score × 255, rounded to nearest even. -/
def score255 (x : Nat) : Nat := (toInt32 (tmul x (ofInt32 255)) 0 255).toNat
/-- A matched track after its update (R299), predicted beforehand. -/
def updated (s : Dev) (d : Nat) (cap : Nat) (e : Ent) (z : Det) : Ent :=
  let r := measNoise s d (e.x.getD 3 0)
  let k := (List.range 4).map fun i => kalman r (z.meas.getD i 0) (e.x.getD i 0) (e.v.getD i 0) (e.p.getD i (0, 0, 0))
  let m := mixEmb (e.emb, e.exps) (z.emb, z.exps)
  { e with x := k.map (·.1), v := k.map (·.2.1), p := k.map (·.2.2), emb := m.1, exps := m.2, last := cap, score := score255 z.score, misses := 0 }
/-- A new track from a detection (R299, R302). -/
def newEnt (s : Dev) (d : Nat) (stream cap ident : Nat) (z : Det) : Ent :=
  let h := z.meas.getD 3 0
  let r := measNoise s d h
  { state := 1, stream, cls := z.cls, hits := 1, ident, last := cap, x := z.meas, v := [0, 0, 0, 0], p := List.replicate 4 (r, 0, tmul h h),
    emb := z.emb, exps := z.exps, misses := 0, score := score255 z.score }
/-- The corners of an entry's box. -/
def Ent.box (e : Ent) : Nat × Nat × Nat × Nat :=
  let two := ofInt32 2
  let hw := tdiv (e.x.getD 2 0) two
  let hh := tdiv (e.x.getD 3 0) two
  (tsub (e.x.getD 0 0) hw, tsub (e.x.getD 1 0) hh, tadd (e.x.getD 0 0) hw, tadd (e.x.getD 1 0) hh)
/-- The corners of a detection's box. -/
def Det.box (z : Det) : Nat × Nat × Nat × Nat := (z.x0, z.y0, z.x1, z.y1)
/-- Intersection over union of two boxes in FP32. -/
def iou (a b : Nat × Nat × Nat × Nat) : Nat :=
  let len (lo1 hi1 lo2 hi2 : Nat) : Nat := (max32f 0 (tsub (min32 hi1 hi2).v (max32f lo1 lo2).v)).v
  let i := tmul (len a.1 a.2.2.1 b.1 b.2.2.1) (len a.2.1 a.2.2.2 b.2.1 b.2.2.2)
  let area (x : Nat × Nat × Nat × Nat) : Nat := tmul (tsub x.2.2.1 x.1) (tsub x.2.2.2 x.2.1)
  tdiv i (tsub (tadd (area a) (area b)) i)
/-- Cosine of two embeddings (R300). -/
def cosine (a b : List Int × List Nat) : Nat :=
  let val (e : List Int × List Nat) (i : Nat) : Nat := (bxTo32 (e.1.getD i 0) (e.2.getD (i / 32) 0)).v
  let dot (x y : List Int × List Nat) : Nat := (sum32 ((List.range 128).map fun i => tmul (val x i) (val y i))).v
  let na := dot a a
  let nb := dot b b
  if bits na 0 31 = 0 ∨ bits nb 0 31 = 0 then 0 else tdiv (dot a b) (tmul (sqrt32 na).v (sqrt32 nb).v)
/-- `a ≤ b` for FP32 values; false for a NaN. -/
def le32 (a b : Nat) : Bool := !(isNan32 a) && !(isNan32 b) && !(lt32 b a)

end Sys2Proof.Machine
end

