-- ==== Sys2Proof/Machine/Pools.lean ====
section
/-! DEFINITION. Codec contexts and their reference pools: registers, buffers and marks (R219, R225, R226). -/
set_option autoImplicit false
namespace Sys2Proof.Machine
open Sys2Proof

/-- What a context keeps, by engine × 32 + context. -/
def ctxOf (s : Dev) (key : Nat) : CdcCtx := mget (fun _ => {}) s.cctx key
/-- Change it. -/
def modCtx (key : Nat) (f : CdcCtx → CdcCtx) (s : Dev) : Dev := { s with cctx := mset (fun _ => {}) s.cctx key (f (ctxOf s key)) }
/-- A field of CDC_CTX_CFG. -/
def ctxCfg (s : Dev) (key lo len : Nat) : Nat := rf s (Reg.CDC_CTX_CFG (key / 32) (key % 32)) lo len
/-- STREAM of a context. -/
def ctxStream (s : Dev) (key : Nat) : Nat := ctxCfg s key 0 9
/-- VALID. -/
def ctxValid (s : Dev) (key : Nat) : Bool := ctxCfg s key 9 1 == 1
/-- DIR: whether the context encodes. -/
def ctxEncodes (s : Dev) (key : Nat) : Bool := ctxCfg s key 10 1 == 1
/-- CODEC: 0 H.264, 1 H.265, 2 AV1, 3 JPEG. -/
def ctxCodec (s : Dev) (key : Nat) : Nat := ctxCfg s key 11 2
/-- HDR_MODE: whether the host supplies headers, or QP. -/
def ctxHost (s : Dev) (key : Nat) : Bool := ctxCfg s key 13 1 == 1
/-- BUFFERS of a context's pool. -/
def poolN (s : Dev) (key : Nat) : Nat := rf s (Reg.CDC_CTX_POOL_CFG (key / 32) (key % 32)) 0 6
/-- BUF_BYTES of a context's pool, in bytes. -/
def bufBytes (s : Dev) (key : Nat) : Nat := rf s (Reg.CDC_CTX_POOL_CFG (key / 32) (key % 32)) 6 14 * 4096
/-- The address of a context's pool (R225): a multiple of 4,096. -/
def poolAddr (s : Dev) (key : Nat) : Nat := baseAddr s (Reg.CDC_CTX_POOL_LO (key / 32) (key % 32))
/-- The address of a pool buffer (R225). -/
def bufAddr (s : Dev) (key b : Nat) : Nat := poolAddr s key + b * bufBytes s key
/-- A pool buffer. -/
def bufOf (s : Dev) (key b : Nat) : PBuf := mget (fun _ => {}) (ctxOf s key).pool b
/-- Change a pool buffer. -/
def modBuf (key b : Nat) (f : PBuf → PBuf) (s : Dev) : Dev := modCtx key (fun c => { c with pool := mset (fun _ => {}) c.pool b (f (mget (fun _ => {}) c.pool b)) }) s
/-- A buffer is free when it carries no mark (R226). -/
def PBuf.free (p : PBuf) : Bool := !p.dec && !p.ref && !p.last && p.out == 0 && p.enc == 0
/-- The free buffers of a pool, ascending. -/
def freeBufs (s : Dev) (key : Nat) : List Nat := (List.range (poolN s key)).filter fun b => (bufOf s key b).free
/-- Clear one OUT mark. -/
def clearOut (key b : Nat) (s : Dev) : Dev := modBuf key b (fun p => { p with out := p.out - 1 }) s
/-- The pitch of a picture's planes (R225). -/
def picPitch (w : Nat) (p10 : Bool) : Nat := ceilDiv (w * (1 + b2n p10)) 256 * 256
/-- The offset of the CbCr plane in a buffer. -/
def chromaOfs (w h : Nat) (p10 : Bool) : Nat := 4096 + ceilDiv (picPitch w p10 * h) 4096 * 4096
/-- Bytes of a buffer that a picture needs. -/
def picBytes (w h : Nat) (p10 : Bool) : Nat := chromaOfs w h p10 + picPitch w p10 * (h / 2)
/-- A sample as stored (R225): one byte, or 16 bits with the value in [15:6]. -/
def putSample (p10 : Bool) (v : Nat) : List Byte := if p10 then leBytes 2 (min v 1023 * 64) else leBytes 1 (min v 255)
/-- Mid-grey (R231): 2^(bit depth − 1). -/
def midGrey (p10 : Bool) : Nat := if p10 then 512 else 128
/-- A sample of a plane as stored: 8 bits, or bits [15:6] of 16. -/
def planeRaw (s : Dev) (a : Nat) (p10 : Bool) : Nat := if p10 then rdLE .dram s a 2 / 64 else rdLE .dram s a 1
/-- A luma sample of a buffer. -/
def lumaRaw (s : Dev) (key b w : Nat) (p10 : Bool) (x y : Nat) : Nat :=
  planeRaw s (bufAddr s key b + 4096 + y * picPitch w p10 + x * (1 + b2n p10)) p10
/-- A chroma sample of a buffer: `c` 0 Cb, 1 Cr. -/
def chromaRaw (s : Dev) (key b w h : Nat) (p10 : Bool) (c x y : Nat) : Nat :=
  planeRaw s (bufAddr s key b + chromaOfs w h p10 + y * picPitch w p10 + (2 * x + c) * (1 + b2n p10)) p10

end Sys2Proof.Machine
end

