-- ==== Sys2Proof/Machine/KvFrames.lean ====
section
/-! DEFINITION. KV frames, free queues, page lists and the sequence table (07). -/
set_option autoImplicit false
namespace Sys2Proof.Machine
open Sys2Proof

/-! ## Frame-table entries (Tables 7-5 and 7-6) -/

/-- REFCNT. -/
def frRef (s : Dev) (f : Nat) : Nat := rf s (Reg.KVF_TABLE f) 0 10
/-- STATE: 0 FREE, 1 DRAIN, 2 LIVE, 3 WITHHELD. -/
def frState (s : Dev) (f : Nat) : Nat := rf s (Reg.KVF_TABLE f) 10 2
/-- K_FMT: true for BX4. -/
def frK4 (s : Dev) (f : Nat) : Bool := tst s (Reg.KVF_TABLE f) 12
/-- V_FMT: true for BX4. -/
def frV4 (s : Dev) (f : Nat) : Bool := tst s (Reg.KVF_TABLE f) 13
/-- OWNER. -/
def frOwner (s : Dev) (f : Nat) : Nat := rf s (Reg.KVF_TABLE f) 14 3
/-- STAMP. -/
def frStamp (s : Dev) (f : Nat) : Nat := rf s (Reg.KVF_TABLE f) 17 15
/-- The die of a frame (R169). -/
def frDie (s : Dev) (f : Nat) : Nat := if f < rf s Reg.KVF_FRAMES0 0 19 then 0 else 1
/-- The frames of the pool. -/
def kvPool (s : Dev) : Nat := rf s Reg.KVF_FRAMES0 0 19 + rf s Reg.KVF_FRAMES1 0 19
/-- Bytes of a frame. -/
def kvFrameBytes (s : Dev) : Nat := rf s Reg.KVF_FRAME_BYTES 0 17
/-- The device address of a frame (R169). -/
def frAddr (s : Dev) (f : Nat) : Nat :=
  let n := rf s Reg.KVF_FRAMES0 0 19
  if f < n then rd64 s Reg.KVF_BASE0_LO % 2 ^ 40 + f * kvFrameBytes s
  else rd64 s Reg.KVF_BASE1_LO % 2 ^ 40 + (f - n) * kvFrameBytes s
/-- The counter of the frames in a state. -/
def stateCnt (s : Dev) (f st : Nat) : Nat :=
  match st with
  | 0 => if frDie s f = 0 then Reg.KVF_FREE0_CNT else Reg.KVF_FREE1_CNT
  | 1 => Reg.KVF_DRAIN_CNT
  | 2 => Reg.KVF_LIVE_CNT
  | _ => Reg.KVF_WITHHELD_CNT
/-- Take one from a counter. -/
def drop1 (a : Nat) (s : Dev) : Dev := wrN a (rdN s a - 1) s
/-- Set a frame's state and keep the state counters and the owner's count in step: a cove holds its LIVE frames. -/
def frPutState (f st : Nat) (s : Dev) : Dev :=
  let old := frState s f
  if old = st then s
  else
    let held := Reg.KVF_COVE_HELD (frOwner s f)
    s |> drop1 (stateCnt s f old) |> bump (stateCnt s f st) 1
      |> whenS (old == 2) (drop1 held) |> whenS (st == 2) (bump held 1) |> wf (Reg.KVF_TABLE f) 10 2 st
/-- Set REFCNT. -/
def frPutRef (f n : Nat) (s : Dev) : Dev := wf (Reg.KVF_TABLE f) 0 10 n s

/-! ## Free queues (R176) -/

/-- The free queue of a die. -/
def freeQ (s : Dev) (d : Nat) : List Nat := if d = 0 then s.kv.q0 else s.kv.q1
/-- Set a free queue. -/
def putFreeQ (d : Nat) (q : List Nat) (s : Dev) : Dev :=
  { s with kv := if d = 0 then { s.kv with q0 := q } else { s.kv with q1 := q } }
/-- Entries of the ring in DRAM that holds a die's queue: 1 MiB of 32-bit frame numbers (log entry 61). -/
def freeRing : Nat := 262144
/-- The place of a queue's head in its ring. -/
def headOf (s : Dev) (d : Nat) : Nat := if d = 0 then s.kv.h0 else s.kv.h1
/-- Move it. -/
def putHeadOf (d n : Nat) (s : Dev) : Dev := { s with kv := if d = 0 then { s.kv with h0 := n } else { s.kv with h1 := n } }
/-- The address of the queue's `i`-th entry from its head: KVF_FREEQ0 or KVF_FREEQ1 is the ring's start. -/
def queueAddr (s : Dev) (d i : Nat) : Nat :=
  rd64 s (if d = 0 then Reg.KVF_FREEQ0_LO else Reg.KVF_FREEQ1_LO) % 2 ^ 40 + (headOf s d + i) % freeRing * 4
/-- The queue's entries from its `i`-th on are written to DRAM. -/
def writeQ (d i : Nat) (s : Dev) : Dev :=
  forS (enum ((freeQ s d).drop i) i) (fun p => wrLE .dram (queueAddr s d p.1) 4 p.2) s
/-- A frame joins the tail of a die's queue. -/
def pushQ (d f : Nat) (s : Dev) : Dev := s |> putFreeQ d (freeQ s d ++ [f]) |> writeQ d (freeQ s d).length
/-- A frame leaves a die's queue: at the head the head moves on, elsewhere the entries behind it move up. -/
def pullQ (d f : Nat) (s : Dev) : Dev :=
  match freeQ s d with
  | [] => s
  | x :: xs =>
    if x = f then s |> putFreeQ d (xs.filter (· != f)) |> putHeadOf d ((headOf s d + 1) % freeRing)
    else if xs.contains f then s |> putFreeQ d ((x :: xs).filter (· != f)) |> writeQ d ((x :: xs).takeWhile (· != f)).length
    else s
/-- Append a frame to the tail of its die's queue as DRAIN with STAMP = KVF_STEP. -/
def frDrain (f : Nat) (s : Dev) : Dev :=
  s |> frPutState f 1 |> wf (Reg.KVF_TABLE f) 17 15 (rdN s Reg.KVF_STEP) |> pushQ (frDie s f) f
/-- DECREF (Table 7-6): at 0 the frame goes to DRAIN at the tail of its die's queue. -/
def decref (f : Nat) (s : Dev) : Dev :=
  let n := frRef s f - 1
  let s := frPutRef f n s
  if n = 0 then frDrain f s else s
/-- The oldest active step (R173). -/
def oldestStep (s : Dev) : Nat :=
  let ns := (s.kv.steps.filter (·.started)).map (·.num)
  match ns with
  | [] => (rdN s Reg.KVF_STEP + 1) % 2 ^ 32
  | n :: rest => rest.foldl (fun a b => if (a + 2 ^ 32 - b) % 2 ^ 32 < 2 ^ 31 then b else a) n
/-- Show KVF_OLDEST and AGE_HOLD (R177); KVF_STEP_AGE is reported when the holding begins. -/
def showOldest (s : Dev) : Dev :=
  let o := oldestStep s
  let hold := decide (16383 ≤ (rdN s Reg.KVF_STEP + 2 ^ 32 - o) % 2 ^ 32) && s.kv.steps.any (·.started)
  let was := tst s Reg.KVF_STATUS 4
  s |> wrN Reg.KVF_OLDEST o |> setB Reg.KVF_STATUS 4 hold |> whenS (hold && !was) (raise 0x0504 0 0)
/-- Whether a stamp lies below the oldest active step: stamps lie within 16,384 of it (R177). -/
def stampBelow (s : Dev) (st : Nat) : Bool :=
  let age := (oldestStep s + 2 ^ 32 - st) % 2 ^ 15
  decide (0 < age) && decide (age ≤ 16384)
/-- SWEEP (Table 7-6): the first DRAIN frame of a die's queue becomes FREE when its STAMP lies below the oldest active step;
STAMP never decreases along a queue. -/
def frameSweep (d : Nat) (s : Dev) : Dev :=
  match (freeQ s d).find? fun f => frState s f == 1 with
  | none => s
  | some f => if stampBelow s (frStamp s f) then frPutState f 0 s else s
/-- FRAME_SWEEP (R174). -/
def execFrameSweep (d : Fin 2) (s : State) : Result := onDev (frameSweep d) s
/-- The frame that ALLOC takes for a home die (R176): the head of its queue, else of the other's, when FREE. -/
def allocatable (s : Dev) (home : Nat) : Option Nat :=
  let hd (d : Nat) : Option Nat := match freeQ s d with
    | f :: _ => if frState s f = 0 then some f else none
    | [] => none
  match hd home with
  | some f => some f
  | none => hd (1 - home)
/-- ALLOC: the frame leaves its queue LIVE with REFCNT 1, OWNER and formats set. -/
def allocFrame (f cove : Nat) (k4 v4 : Bool) (s : Dev) : Dev :=
  s |> pullQ (frDie s f) f |> wf (Reg.KVF_TABLE f) 14 3 cove |> frPutState f 2 |> frPutRef f 1
    |> setB (Reg.KVF_TABLE f) 12 k4 |> setB (Reg.KVF_TABLE f) 13 v4 |> bump Reg.KVF_ALLOC_CNT 1
/-- WITHHOLD (R174): the frame leaves use. -/
def withhold (f : Nat) (s : Dev) : Dev :=
  if kvPool s ≤ f then s
  else s |> pullQ (frDie s f) f |> frPutState f 3
/-- WITHHOLD (R174). -/
def execWithhold (f : Nat) (s : State) : Result := onDev (withhold (f % 2 ^ 19)) s
/-- RETURN (R185, Table 7-6): a withheld frame re-enters its queue at the tail with STAMP = KVF_STEP; one that page lists
still name is in use again (log entry 16). -/
def returnFrame (f : Nat) (s : Dev) : Dev :=
  if frState s f ≠ 3 then s else if frRef s f = 0 then frDrain f s else frPutState f 2 s
/-- RETURN (R185). -/
def execReturnFrame (f : Nat) (s : State) : Result := onDev (returnFrame (f % 2 ^ 19)) s
/-- A frame-table ECC error (R185): an uncorrected one withholds the frame. -/
def frameEcc (e : FrameEcc) (s : Dev) : Dev :=
  match e with
  | .none => s
  | .corr f => s |> bump16 Reg.KVF_ECC_CNT 0 1 |> wrN Reg.KVF_FAULT_INFO (f % 2 ^ 19) |> raise 0x0500 0 (f % 2 ^ 19)
  | .uncorr f =>
    let i := f % 2 ^ 19 + 2 ^ 19
    s |> bump16 Reg.KVF_ECC_CNT 16 1 |> wrN Reg.KVF_FAULT_INFO i |> withhold (f % 2 ^ 19) |> raise 0x0501 0 i

/-! ## Configuration (R169, R187) -/

/-- Whether a sequence cove runs. -/
def seqCoveRuns (s : Dev) : Bool :=
  (List.range 8).any fun c => tst s (Reg.SCH_COVE_CFG c) 0 && decide (1 ≤ coveState s c) && decide (coveState s c ≤ 3)
/-- Whether `n` bytes at a device address lie inside one valid LINE or BANK-XOR region of its die (R169, R324). -/
def inLineRegion (s : Dev) (a n : Nat) : Bool :=
  let d := a / 2 ^ 34
  let lo := a % 2 ^ 34
  (List.range 16).any fun r =>
    let cfg := Reg.DMC_RGN_CFG d r
    let base := rf s (Reg.DMC_RGN_BASE d r) 0 13 * 2 ^ 21
    tst s cfg 16 && decide (rf s cfg 14 2 ≤ 1) && decide (base ≤ lo) && decide (lo + n ≤ base + rf s cfg 0 14 * 2 ^ 21)
/-- The limits of R169. -/
def kvConfigOk (s : Dev) : Bool :=
  let fb := kvFrameBytes s
  let n0 := rf s Reg.KVF_FRAMES0 0 19
  let n1 := rf s Reg.KVF_FRAMES1 0 19
  fb % 256 == 0 && decide (1024 ≤ fb) && decide (fb ≤ 65536) && decide (n0 + n1 ≤ 262144) && decide ((n0 + n1) * fb ≤ 12 * 2 ^ 30) &&
    (n0 == 0 || inLineRegion s (rd64 s Reg.KVF_BASE0_LO % 2 ^ 40) (n0 * fb)) &&
    (n1 == 0 || inLineRegion s (rd64 s Reg.KVF_BASE1_LO % 2 ^ 40) (n1 * fb))
/-- The configuration registers that R187 guards, by number: FRAME_BYTES, FRAMES0, FRAMES1, BASE0, BASE1, FREEQ0, FREEQ1
halves, with the bits each holds. -/
def kvCfgReg (i : Nat) : Nat × Nat :=
  match i with
  | 0 => (Reg.KVF_FRAME_BYTES, 17)
  | 1 => (Reg.KVF_FRAMES0, 19)
  | 2 => (Reg.KVF_FRAMES1, 19)
  | 3 => (Reg.KVF_BASE0_LO, 32)
  | 4 => (Reg.KVF_BASE0_HI, 8)
  | 5 => (Reg.KVF_BASE1_LO, 32)
  | 6 => (Reg.KVF_BASE1_HI, 8)
  | 7 => (Reg.KVF_FREEQ0_LO, 32)
  | 8 => (Reg.KVF_FREEQ0_HI, 8)
  | 9 => (Reg.KVF_FREEQ1_LO, 32)
  | _ => (Reg.KVF_FREEQ1_HI, 8)
/-- A write of KV configuration register `i`, or of it and the next one as a pair (R187): accepted while no sequence cove runs, checked, and followed by initialisation. -/
def kvfConfigWrite (i : Nat) (vs : List Nat) (s : Dev) : Dev :=
  if seqCoveRuns s then raise 0x0507 0 0 s
  else
    let put (j : Nat) (s : Dev) : Dev := wrN (kvCfgReg (i + j)).1 (vs.getD j 0 % 2 ^ (kvCfgReg (i + j)).2) s
    let s := s |> forS (List.range vs.length) put |> setB Reg.KVF_STATUS 0 false
    if kvConfigOk s then setB Reg.KVF_STATUS 1 true s else s |> setB Reg.KVF_STATUS 1 false |> raise 0x0506 0 0
/-- Clear the frame table. -/
def clearTable (s : Dev) : Dev := forS (List.range (kvPool s)) (fun f t => wrN (Reg.KVF_TABLE f) 0 t) s
/-- KVF_INIT_DONE (R187): every frame is FREE and queued in ascending order, and the queues lie in DRAM from the starts of their
rings on (R176). -/
def kvfInitDone (s : Dev) : Dev :=
  if !(tst s Reg.KVF_STATUS 1) then s
  else
    let n0 := rf s Reg.KVF_FRAMES0 0 19
    let n1 := rf s Reg.KVF_FRAMES1 0 19
    clearTable { s with kv := { s.kv with q0 := List.range n0, q1 := (List.range n1).map (n0 + ·), h0 := 0, h1 := 0, short := [], steps := [], evictLater := [], victims := [], waiting := [] } }
      |> writeQ 0 0 |> writeQ 1 0 |> forS (List.range 8) (fun c => wrN (Reg.KVF_COVE_HELD c) 0)
      |> wrN Reg.KVF_FREE0_CNT n0 |> wrN Reg.KVF_FREE1_CNT n1 |> wrN Reg.KVF_DRAIN_CNT 0 |> wrN Reg.KVF_LIVE_CNT 0
      |> wrN Reg.KVF_WITHHELD_CNT 0 |> setB Reg.KVF_STATUS 1 false |> setB Reg.KVF_STATUS 0 true
/-- KVF_INIT_DONE (R187). -/
def execKvfInitDone (s : State) : Result := onDev kvfInitDone s

/-! ## The sequence table (Table 7-7) -/

/-- STATE: 0 FREE, 1 QUEUED, 2 ACTIVE, 3 RECOMPUTE, 4 HOST_WAIT, 5 ENDING. -/
def sqState (s : Dev) (q : Nat) : Nat := rf s (Reg.SEQ_TABLE q 0) 0 3
/-- COVE. -/
def sqCove (s : Dev) (q : Nat) : Nat := rf s (Reg.SEQ_TABLE q 0) 3 3
/-- PRIO. -/
def sqPrio (s : Dev) (q : Nat) : Nat := rf s (Reg.SEQ_TABLE q 0) 6 2
/-- HOME_DIE. -/
def sqHome (s : Dev) (q : Nat) : Nat := rf s (Reg.SEQ_TABLE q 0) 8 1
/-- LAYERS. -/
def sqLayers (s : Dev) (q : Nat) : Nat := rf s (Reg.SEQ_TABLE q 0) 12 8
/-- KV_LEN. -/
def sqLen (s : Dev) (q : Nat) : Nat := rf s (Reg.SEQ_TABLE q 1) 0 16
/-- PROMPT_LEN. -/
def sqPrompt (s : Dev) (q : Nat) : Nat := rf s (Reg.SEQ_TABLE q 1) 16 16
/-- GEN_COUNT. -/
def sqGen (s : Dev) (q : Nat) : Nat := rf s (Reg.SEQ_TABLE q 2) 0 16
/-- LAST_STEP. -/
def sqLast (s : Dev) (q : Nat) : Nat := rdN s (Reg.SEQ_TABLE q 3)
/-- Set STATE; SEQ_STATUS counts the sequences that are not FREE. -/
def sqPutState (q st : Nat) (s : Dev) : Dev :=
  let was := sqState s q
  let n := rf s Reg.SEQ_STATUS 0 11
  s |> wf (Reg.SEQ_TABLE q 0) 0 3 st
    |> wf Reg.SEQ_STATUS 0 11 (if was = 0 ∧ st ≠ 0 then n + 1 else if was ≠ 0 ∧ st = 0 then n - 1 else n)
/-- What a sequence keeps beside its entry. -/
def sqX (s : Dev) (q : Nat) : SeqX := mget (fun _ => {}) s.kv.xs q
/-- Set it. -/
def putSqX (q : Nat) (x : SeqX) (s : Dev) : Dev := { s with kv := { s.kv with xs := mset (fun _ => {}) s.kv.xs q x } }
/-- The address of a page-list entry (R172). -/
def plAddr (s : Dev) (q layer page : Nat) : Nat := rd64 s (Reg.SEQ_TABLE q 4) % 2 ^ 40 + (layer * 2048 + page) * 4
/-- The frame that a page-list entry names, when VALID. -/
def plFrame (s : Dev) (q layer page : Nat) : Option Nat :=
  let w := rdLE .dram s (plAddr s q layer page) 4
  if bitOf w 19 then some (bits w 0 19) else none
/-- Whether a frame's keys are narrower than a sequence expects (R163). -/
def narrowFor (s : Dev) (q f : Nat) : Bool := frK4 s f && !(tst s (Reg.SEQ_TABLE q 0) 9)
/-- Change NARROW_PAGES by one. -/
def narrowAdd (q : Nat) (up : Bool) (s : Dev) : Dev :=
  let n := rf s (Reg.SEQ_TABLE q 6) 0 20
  wf (Reg.SEQ_TABLE q 6) 0 20 (if up then n + 1 else n - 1) s
/-- Set or clear a page-list entry, and keep NARROW_PAGES. -/
def plPut (q layer page : Nat) (f : Option Nat) (s : Dev) : Dev :=
  let s := match plFrame s q layer page with
    | some o => whenS (narrowFor s q o) (narrowAdd q false) s
    | none => s
  match f with
  | some x => s |> wrLE .dram (plAddr s q layer page) 4 (x + 2 ^ 19) |> whenS (narrowFor s q x) (narrowAdd q true)
  | none => wrLE .dram (plAddr s q layer page) 4 0 s
/-- Pages that hold the first `n` positions. -/
def pagesFor (n : Nat) : Nat := ceilDiv n 16
/-- DECREF every frame of a sequence's page lists and clear the entries (R179, R184). -/
def dropPages (q : Nat) (s : Dev) : Dev :=
  forS (List.range (sqLayers s q)) (fun l s => forS (List.range 2048) (fun p s => match plFrame s q l p with
    | some f => s |> plPut q l p none |> decref f
    | none => s) s) s
/-- Whether a sequence is in an active step. -/
def inStep (s : Dev) (q : Nat) : Bool := s.kv.steps.any fun x => x.started && x.ents.any fun e => e.seq == q
/-- Whether a sequence is in an admitted step, started or not. -/
def inAdmitted (s : Dev) (q : Nat) : Bool := s.kv.steps.any fun x => x.ents.any fun e => e.seq == q

/-- The gap marker that closes a sequence's text (R179, R206, R312): END 2 and no token. -/
def closeText (q : Nat) (s : Dev) : Dev :=
  let x := sqX s q
  textRec q (rf s (Reg.SEQ_TABLE q 2) 16 16) (sqGen s q) [] 2 (rf s (Reg.SEQ_TABLE q 6) 20 8) (rf s (Reg.SEQ_TABLE q 6) 0 20) x.time x.taint x.untr [] s
/-- The page lists of a sequence: its VALID entries (R172). -/
def pagesOf (s : Dev) (q : Nat) : List PageRef :=
  (List.range (sqLayers s q)).flatMap fun l => (List.range 2048).filterMap fun p => (plFrame s q l p).map fun f => ⟨l, p, f⟩
/-- A sequence's entry becomes FREE. -/
def freeSeq (q : Nat) (s : Dev) : Dev :=
  { s with kv := { s.kv with arrivals := s.kv.arrivals.filter (· != q), evictLater := s.kv.evictLater.filter (· != q),
                             victims := s.kv.victims.filter (· != q), waiting := s.kv.waiting.filter (fun w => w.1 != q) } }
    |> putSqX q {} |> sqPutState q 0
/-- R184: an evicted sequence keeps its entry and its input, and waits to be recomputed. -/
def evictSeq (q : Nat) (s : Dev) : Dev :=
  { s with kv := { s.kv with waiting := s.kv.waiting.filter fun w => w.1 != q } } |> dropPages q |> wf (Reg.SEQ_TABLE q 1) 0 16 0 |> sqPutState q 3
    |> wf (Reg.SEQ_TABLE q 6) 20 8 (satAdd (rf s (Reg.SEQ_TABLE q 6) 20 8) 1 255) |> bump Reg.KVF_EVICT_CNT 1
/-- A sequence leaves a step that has not started: its entry goes, and so do the frames allocated for its copies. -/
def leaveStep (q : Nat) (s : Dev) : Dev :=
  let cs := (s.kv.steps.filter fun x => !x.started).flatMap fun x => x.copies.filter fun p => p.seq == q
  let drop (x : Step) : Step :=
    if x.started then x else { x with ents := x.ents.filter fun e => e.seq != q, copies := x.copies.filter fun p => p.seq != q }
  { s with kv := { s.kv with steps := (s.kv.steps.map drop).filter fun x => x.started || !x.ents.isEmpty } }
    |> forS cs (fun p => decref p.new_)
/-- Evict now, or when the active step that holds the sequence ends (R183). -/
def evictWhenFree (q : Nat) (s : Dev) : Dev :=
  if inStep s q then { s with kv := { s.kv with evictLater := s.kv.evictLater.filter (· != q) ++ [q] } }
  else s |> leaveStep q |> evictSeq q
/-- CANCEL and END (R179, R206): every frame is released at once; outside a step the text closes at once and the entry
becomes FREE. Inside a step both happen at its end, and until then the step's work for the sequence runs on the frames that its page
lists named (R176). -/
def endSeq (q : Nat) (s : Dev) : Dev :=
  if inStep s q then
    let ps := pagesOf s q
    let keep (e : StepEnt) : StepEnt := if e.seq = q then { e with cut := some (e.cut.getD ps) } else e
    { s with kv := { s.kv with steps := s.kv.steps.map fun x => if x.started then { x with ents := x.ents.map keep } else x } }
      |> leaveStep q |> dropPages q |> sqPutState q 5
  else s |> leaveStep q |> dropPages q |> closeText q |> freeSeq q

end Sys2Proof.Machine
end

