-- ==== Sys2Proof/Machine/Arrays.lean ====
section
/-! DEFINITION. Matrix arrays: weight rows, passes, the swap token, accumulator tiles, self-test (04). -/
set_option autoImplicit false
namespace Sys2Proof.Machine
open Sys2Proof

/-! ## Tiles (R87, R88) -/

/-- Tile `t` of a core; none when it is FREE. -/
def tileOf (s : Dev) (k t : Nat) : Option Tile := mget (fun _ => none) (coreOf s k).cx.tiles t
/-- Set a tile; none frees it. -/
def putTile (k t : Nat) (x : Option Tile) (s : Dev) : Dev :=
  modCore k (fun c => { c with cx := { c.cx with tiles := mset (fun _ => none) c.cx.tiles t x } }) s
/-- Tiles that are OPEN or DONE. -/
def tilesUsed (s : Dev) (k : Nat) : Nat := (coreOf s k).cx.tiles.length
/-- ARR_ACC_USE: the same tile numbers are used by every array of the core (R148). -/
def showTiles (k : Nat) (s : Dev) : Dev :=
  wrN (Reg.ARR_ACC_USE k) (sumN ((List.range (arraysOf k)).map fun a => tilesUsed s k * 2 ^ (8 * a))) s
/-- Free every tile that `p` selects. -/
def freeTiles (k : Nat) (p : Tile → Bool) (s : Dev) : Dev :=
  modCore k (fun c => { c with cx := { c.cx with tiles := c.cx.tiles.filter fun x => match x.2 with | some t => !(p t) | none => true } }) s
    |> showTiles k

/-! ## Containment (R104) -/

/-- ARR_STATUS when the arrays are drained and nothing loads: SHADOW_ROW and TOKEN_ROW are 32. -/
def arrIdle (k : Nat) (s : Dev) : Dev :=
  s |> wf (Reg.ARR_STATUS k) 0 4 0 |> wf (Reg.ARR_STATUS k) 12 12 (32 + 32 * 64)
/-- The parity bits of a DPU's weights: bit 0 over the low nibbles, bit 1 over the high nibbles of the 8-bit codes (R103). -/
def parityOf (p : Pip) : Nat :=
  let odd (sh : Nat) : Nat := sumN (p.q.map fun q => sumN ((List.range 4).map fun b => ofSigned q 8 / 2 ^ (sh + b) % 2)) % 2
  odd 0 + 2 * odd 4
/-- The DPU row and array at which the active weights that a pass uses differ from their parity (R103). -/
def parityBad (c : Ctx) (rows : Nat) : Option (Nat × Nat) :=
  (List.range rows).findSome? fun r =>
    ((enum (mget (fun _ => []) c.acW r) 0).find? fun x => parityOf x.2 != (mget (fun _ => []) c.acP r).getD x.1 0).map fun x => (x.1 / 32, r)
/-- ACLK cycles since reset, in thousandths: the integral of the ACLK frequency (R210). -/
def aclkMilli (s : Dev) : Nat := s.clk.sum + (now s - s.clk.at_) * s.clk.mhz
/-- R104, R128: passes are dropped, tiles freed, shadow rows EMPTY, the loader's queue and the line buffer cleared; the
task ends contained. -/
def containCore (k : Nat) (s : Dev) : Dev :=
  s |> modCore k (fun c => { c with passes := [], stale := true,
                                    cx := { c.cx with shSt := [], shW := [], shP := [], heldW := none, tiles := [], we := {} },
                                    task := c.task.map fun t => { t with contained := true, ran := true, status := 2, c1 := if t.contained then t.c1 else aclkMilli s } })
    |> arrIdle k |> showTiles k
    |> wf (Reg.WIN_STATUS k) 2 4 0 |> wf (Reg.WIN_STATUS k) 8 11 0 |> setB (Reg.LPD_STATUS k) 0 false
/-- A contained event of a core: reported, and the task ends contained. -/
def faultCore (k code info : Nat) (s : Dev) : Dev := s |> raise code k info |> containCore k
/-- A contained array event with its ARR_FAULT_INFO (Table 4-8): `ev` is the EVENT code. -/
def arrFault (k code ev arr row tile : Nat) (s : Dev) : Dev :=
  let info := arr + row * 4 + tile * 2 ^ 8 + ev * 2 ^ 16
  s |> wrN (Reg.ARR_FAULT_INFO k) info |> faultCore k code info

/-! ## Weight rows (R93, R94, R97) -/

/-- The shadow state of a row: 0 EMPTY, 1 LOADING, 2 FULL. -/
def shadowOf (s : Dev) (k r : Nat) : Nat := mget (fun _ => 0) (coreOf s k).cx.shSt r
/-- Set a row's shadow state and its weights, the pips of array × 32 + column, with their parity. -/
def putShadow (k r st : Nat) (ws : List Pip) (s : Dev) : Dev :=
  modCore k (fun c => { c with cx := { c.cx with shSt := mset (fun _ => 0) c.cx.shSt r st, shW := mset (fun _ => []) c.cx.shW r ws,
                                                 shP := mset (fun _ => []) c.cx.shP r (ws.map parityOf) } }) s
/-- Set a row's active weights and their parity. -/
def putActive (k r : Nat) (ws : List Pip) (ps : List Nat) (s : Dev) : Dev :=
  modCore k (fun c => { c with cx := { c.cx with acW := mset (fun _ => []) c.cx.acW r ws, acP := mset (fun _ => []) c.cx.acP r ps } }) s
/-- The loader's position after a row: row `r + 1` of the same set, whose first write makes it LOADING (R94), or none. -/
def nextRow (k r : Nat) (more : Bool) (s : Dev) : Dev :=
  s |> wf (Reg.ARR_STATUS k) 12 6 (if more then r + 1 else 32)
    |> whenS (more && shadowOf s k (r + 1) == 0) (modCore k fun c => { c with cx := { c.cx with shSt := mset (fun _ => 0) c.cx.shSt (r + 1) 1 } })
/-- The weight width of the loop descriptor in progress (Table 6-1). -/
def loadWidth (s : Dev) (k : Nat) : Nat := 2 ^ rf s (Reg.LPD_TABLE k (rf s (Reg.LPD_STATUS k) 1 6) 0) 8 2
/-- The write of row `r` lands: the row is FULL. -/
def landRow (k r : Nat) (ws : List Pip) (more : Bool) (s : Dev) : Dev :=
  s |> putShadow k r 2 ws |> setB (Reg.ARR_STATUS k) 3 false
    |> modCore k (fun c => { c with cx := { c.cx with heldW := none, wWidth := loadWidth s k } })
    |> nextRow k r more
/-- WEIGHT_ROW_LOADED: the last write of row `r` of a set; `more` tells that the set has further rows. Rows come in order, one set
after another (R93, R97): a row that is not the loader's next leaves the state as it is (log entry 2). A FULL row holds the
write until it has swapped. A pip with the reserved exponent is a fault of the loader (R65). -/
def weightRowLoaded (k r : Nat) (ws : List Pip) (more : Bool) (s : Dev) : Dev :=
  let at_ := rf s (Reg.ARR_STATUS k) 12 6
  if (coreOf s k).cx.heldW.isSome || r != at_ % 32 || decide (32 < at_) then s
  else if ws.any fun x => x.e == 255 then faultCore k 0x1100 0 s
  else if shadowOf s k r = 2 then
    s |> bump (Reg.ARR_LOAD_WAIT_CNT k) 1 |> setB (Reg.ARR_STATUS k) 3 true |> wf (Reg.ARR_STATUS k) 12 6 r
      |> modCore k (fun c => { c with cx := { c.cx with heldW := some ⟨r, ws, more⟩ } })
  else landRow k r ws more s
/-- A held write goes on after its row has swapped (R95, R97). -/
def heldRowLands (k r : Nat) (s : Dev) : Dev :=
  match (coreOf s k).cx.heldW with
  | some w => if w.row = r then landRow k r w.ws w.more s else s
  | none => s
/-- The loader writes the weights of one DPU row (R93, R94). -/
def execWeightRowLoaded (k : Fin 64) (r : Fin 32) (ws : List (List Int × Nat)) (more : Bool) (s : State) : Result :=
  onDev (weightRowLoaded k r (ws.map fun p => ⟨p.1, p.2⟩) more) s

/-! ## Passes (R81 to R86, R92) -/

/-- The DPU rows that a pass uses: in the square form one for each activation pip (R85), in the wide form the rows with
an output index below N (R86). -/
def Pass.rows (p : Pass) : Nat := if p.wide then min 32 (ceilDiv p.cols 32) else p.acts.length
/-- The place in a tile of the value that DPU (r, j) of array `arr` contributes to. -/
def Pass.place (p : Pass) (arr r j : Nat) : Nat := if p.wide then arr * 1024 + 32 * r + j else arr * 1024 + p.row * 32 + j
/-- The column index n of DPU (r, j) of array `arr` (R84, R86). -/
def Pass.column (p : Pass) (arr r j : Nat) : Nat := if p.wide then 1024 * arr + 32 * r + j else 32 * arr + j
/-- One DPU of one row acts on a pass: in the square form its result joins the column chain in row order (R71). -/
def dpuStep (ws : List Pip) (r : Nat) (p : Pass) (i : Nat) : Pass :=
  let act := if p.wide then p.acts.getD 0 zeroPip else p.acts.getD r zeroPip
  let arr := i / 32
  let j := i % 32
  let x := if r < p.rows then dpu p.a p.w act (ws.getD i zeroPip) else ⟨0, {}⟩
  let at_ := p.place arr r j
  let y : Fr := if p.wide || r == 0 then x else ⟨(add32 (mget (fun _ => 0) p.vals at_) x.v).v, x.fl.or (add32 (mget (fun _ => 0) p.vals at_) x.v).fl⟩
  { p with vals := mset (fun _ => 0) p.vals at_ y.v, sat := p.sat || y.fl.sat }
/-- A pass goes through its next DPU row: the row's DPUs act with the row's active weights. -/
def rowStep (acW : SMap (List Pip)) (ac : Nat) (p : Pass) : Pass :=
  let ws := mget (fun _ => []) acW p.next
  let q := if p.wide && decide (p.rows ≤ p.next) then p else (List.range (32 * ac)).foldl (dpuStep ws p.next) p
  { q with next := p.next + 1 }
/-- A pass goes through rows until it has been through `upTo` of them. -/
def stepRows (acW : SMap (List Pip)) (ac upTo : Nat) : Nat → Pass → Pass
  | 0, p => p
  | n + 1, p => if p.next < upTo then stepRows acW ac upTo n (rowStep acW ac p) else p
/-- A pass goes through every row below `upTo`. -/
def advance (s : Dev) (k upTo : Nat) (p : Pass) : Pass := stepRows (coreOf s k).cx.acW (arraysOf k) upTo 32 p

/-- The number of values that one array contributes to a pass. -/
def Pass.places (p : Pass) : List Nat := if p.wide then List.range 1024 else (List.range 32).map fun j => p.row * 32 + j
/-- The value before the addition of a pass that opens its row (R88): the bias of its column, or +0.0. -/
def Pass.initAt (p : Pass) (arr place : Nat) : Nat :=
  p.init.getD (if p.wide then 1024 * arr + place else 32 * arr + place % 32) 0
/-- The accumulator's read-add-write of one place; columns beyond N are never written (R85). With `adds = false` the
value is the INIT value alone (R89). -/
def accStep (p : Pass) (adds : Bool) (t : Tile × NumFlags) (arr place : Nat) : Tile × NumFlags :=
  let col := if p.wide then 1024 * arr + place else 32 * arr + place % 32
  if p.cols ≤ col then t
  else
    let at_ := arr * 1024 + place
    let old := if p.first then p.initAt arr place else mget (fun _ => 0) t.1.vals at_
    let r : Fr := if adds then add32 old (mget (fun _ => 0) p.vals at_) else ⟨old, {}⟩
    ({ t.1 with vals := mset (fun _ => 0) t.1.vals at_ r.v }, t.2.or r.fl)
/-- The tile and the flags after a pass's accumulator addition on every array. -/
def accumulate (ac : Nat) (p : Pass) (adds : Bool) (t : Tile) : Tile × NumFlags :=
  (List.range ac).foldl (fun x arr => p.places.foldl (fun y pl => accStep p adds y arr pl) x)
    ({ t with outs := mset (fun _ => none) t.outs p.row (some (p.out, p.xo)), cols := max t.cols p.cols, wide := p.wide }, { sat := p.sat })

/-- What the tile checks of R149 find for a pass. -/
inductive TileCheck where
  | ok
  | wait
  | overflow
  | collide
  deriving DecidableEq, Repr
/-- R149. Rows of one tile that a command's first-K passes open one after another join the tile its first row opened
(log entry 12). -/
def tileCheck (s : Dev) (k : Nat) (p : Pass) : TileCheck :=
  match tileOf s k p.tile with
  | none => if p.first then (if tilesUsed s k = 32 then .overflow else .ok) else .collide
  | some t =>
    if p.first then
      if !t.done && t.own && (mget (fun _ => none) t.outs p.row).isNone then .ok
      else if t.done && t.issued then .wait
      else if tilesUsed s k = 32 then .overflow
      else .collide
    else if t.done then .collide else .ok
/-- R149 step 4: a first-K pass opens a FREE tile. -/
def openTile (k : Nat) (p : Pass) (s : Dev) : Dev :=
  match tileOf s k p.tile with
  | none => s |> putTile k p.tile (some { own := true, wide := p.wide }) |> showTiles k
  | some _ => s
/-- LPD_TILE_COLLIDE (R149, Table 6-12). -/
def tileCollide (k tile depth : Nat) (s : Dev) : Dev :=
  let info := 4 + rf s (Reg.LPD_STATUS k) 1 6 * 2 ^ 5 + tile * 2 ^ 15 + depth * 2 ^ 20
  s |> wrN (Reg.LPD_FAULT_INFO k) info |> faultCore k 0x0404 info
/-- ACC_TILE_OVERFLOW (R91). It is the same in every array of the core: the model names array 0 (log entry 59). -/
def tileOverflow (k : Nat) (s : Dev) : Dev := arrFault k 0x0204 4 0 0 32 s

/-- Whether a token stands still at a row, so that no pass enters (R96). -/
def tokenStalled (s : Dev) (k : Nat) : Bool := tst s (Reg.ARR_STATUS k) 2
/-- The codes of ARR_STATUS for the shape of a pass (Table 4-5). -/
def showShape (k : Nat) (p : Pass) (s : Dev) : Dev :=
  s |> wf (Reg.ARR_STATUS k) 0 2 (if p.wide then 2 else 1) |> wf (Reg.ARR_STATUS k) 4 4 (p.a - 1)
    |> wf (Reg.ARR_STATUS k) 8 2 (if p.w = 1 then 0 else if p.w = 2 then 1 else if p.w = 4 then 2 else 3)
/-- Two passes of one shape (R98). -/
def Pass.sameShape (p q : Pass) : Bool := p.wide == q.wide && p.a == q.a && p.w == q.w
/-- The oldest row that a token in flight stands at; 32 with none (log entry 59: with two tokens in flight the older one). -/
def tokenRow (ps : List Pass) : Nat :=
  match ps.find? fun p => decide (p.tok < 32) with
  | some p => p.tok
  | none => 32
/-- A pass of the loader as a command operand: its shape, activation pips, tile and row, columns, first-K with the bias of
its columns, whether its commit makes the tile DONE, its output group, and the swap token. -/
def passOf (wide : Bool) (a w : Nat) (acts : List (List Int × Nat)) (tile row cols : Nat) (first : Bool) (init : List Nat)
    (last : Bool) (out : Int) (tok : Bool) : Pass :=
  { wide, a, w, acts := acts.map fun p => ⟨p.1, p.2⟩, tile := tile % 32, row := if wide then 0 else row % 32, cols, first, init, last, out,
    tok := if tok then 0 else 32 }
/-- The token pass at row `r` swaps it (R94): passes ahead have met the old weights there, the token pass and those behind
meet the new ones. -/
def swapRow (s : Dev) (k r : Nat) : List Pass → List Pass
  | [] => []
  | p :: ps => if p.tok = r then { advance s k r p with tok := r + 1 } :: ps else advance s k (r + 1) p :: swapRow s k r ps
/-- Whether a pass of another shape than `p` is ahead of it in the arrays (R98). -/
def shapeAhead (ps : List Pass) (p : Pass) : Bool :=
  match ps with
  | [] => false
  | q :: _ => !(q.sameShape p)
/-- SWAP_TOKEN_ARRIVAL (R94, R95, R96): the token pass reaches row `r`. An inactive row swaps at once (R85); a row that is
not FULL stalls the wavefront, and so does row 0 while a pass of another shape is ahead (R98). After the swap of a row whose
next write was held, that write goes on (R97). -/
def swapTokenArrival (k r : Nat) (s : Dev) : Dev :=
  match (coreOf s k).passes.find? fun p => p.tok == r with
  | none => s
  | some p =>
    if (p.rows ≤ r ∨ shadowOf s k r = 2) ∧ !(shapeAhead (coreOf s k).passes p) then
      let c := (coreOf s k).cx
      let idle := decide (p.rows ≤ r)
      let ps := swapRow s k r (coreOf s k).passes
      s |> modCore k (fun c => { c with passes := ps })
        |> putActive k r (if idle then [] else mget (fun _ => []) c.shW r) (if idle then [] else mget (fun _ => []) c.shP r)
        |> whenS (!idle) (putShadow k r 0 [])
        |> setB (Reg.ARR_STATUS k) 2 false |> wf (Reg.ARR_STATUS k) 18 6 (tokenRow ps)
        |> whenS (!idle) (heldRowLands k r)
    else s |> bump (Reg.ARR_SWAP_STALL_CNT k) 1 |> setB (Reg.ARR_STATUS k) 2 true
/-- SWAP_TOKEN_ARRIVAL (R94). -/
def execSwapTokenArrival (k : Fin 64) (r : Fin 32) (s : State) : Result := onDev (swapTokenArrival k r) s

/-- The accumulator addition of a pass, and the tile DONE when the pass ends it (R88); the flags join the task's. -/
def commitPass (k : Nat) (p : Pass) (adds : Bool) (s : Dev) : Dev :=
  match tileOf s k p.tile with
  | none => s
  | some t =>
    let r := accumulate (arraysOf k) p adds t
    s |> putTile k p.tile (some { r.1 with done := p.last, held := p.last })
      |> modCore k (fun c => { c with task := c.task.map fun x => { x with flags := x.flags ||| r.2.code } })
/-- SWAP_TIMEOUT (R99): a token or a held write has stood still for more than ARR_STALL_LIM cycles. ARRAY is 0, since every array
stands still together, and ROW is the token's where both stand still (log entry 59). -/
def swapTimeout (k : Nat) (s : Dev) : Dev :=
  if tst s (Reg.ARR_STATUS k) 2 || tst s (Reg.ARR_STATUS k) 3 then
    arrFault k 0x0203 3 0 (if tst s (Reg.ARR_STATUS k) 2 then rf s (Reg.ARR_STATUS k) 18 6 % 32 else rf s (Reg.ARR_STATUS k) 12 6 % 32) 0 s
  else s
/-- SWAP_TIMEOUT (R99). -/
def execSwapTimeout (k : Fin 64) (s : State) : Result := onDev (swapTimeout k) s

/-! ## Self-test (R105 to R107) -/

/-- ARR_BIST_CTRL.START (R107): ignored with REFUSED while the core belongs to a running cove. -/
def arrBistStart (k : Nat) (s : Dev) : Dev :=
  if coreInRunning s k then setB (Reg.ARR_BIST_STATUS k) 8 true s
  else s |> setB (Reg.ARR_BIST_STATUS k) 8 false |> setB (Reg.ARR_BIST_STATUS k) 0 true
/-- ARR_BIST_START (R107). -/
def execArrBistStart (k : Fin 64) (s : State) : Result := onDev (arrBistStart k) s
/-- A core fails self-test (R106): FAILED is set. -/
def failCore (k : Nat) (s : Dev) : Dev := setB (Reg.ARR_STATUS k) 10 true s
/-- The action CORE_BIST is done when neither self-test of the core runs (R366). -/
def bistEnd (k : Nat) (s : Dev) : Dev :=
  if tst s (Reg.ARR_BIST_STATUS k) 0 || tst s (Reg.WIN_BIST_STATUS k) 0 then s else endActions 2 k 1 s
/-- ARR_BIST_DONE (R105, R107): a running self-test of a core whose domain runs ends after `us` microseconds; `fails` has
a bit for each failing array and `step` names the first failing step. -/
def arrBistDone (k fails step us : Nat) (s : Dev) : Dev :=
  let b := Reg.ARR_BIST_STATUS k
  let f := fails % 2 ^ arraysOf k
  if !(tst s b 0) || !(domRuns s k) then s
  else
    let s := s |> setB b 0 false |> setB b 1 true |> wf b 2 4 f |> wf b 6 2 (if f = 0 then 0 else step) |> wf b 16 16 us
    bistEnd k (if f = 0 then setB (Reg.ARR_STATUS k) 10 false s else s |> failCore k |> raise 0x0205 k 0)
/-- ARR_BIST_DONE (R105). -/
def execArrBistDone (k : Fin 64) (fails step us : Nat) (s : State) : Result := onDev (arrBistDone k fails step us) s

end Sys2Proof.Machine
end

