-- ==== Sys2Proof/Machine/Functions.lean ====
section
/-! DEFINITION. The functions of Table 3-7 and their accuracy (R77): each exact value is approximated in fixed point to far
below the accuracy that the table allows, and a result within that accuracy is free (log entry 3). -/
set_option autoImplicit false
namespace Sys2Proof.Machine
open Sys2Proof

/-! ## Fixed point with 128 fraction bits -/

/-- 1.0. -/
def fxOne : Int := 2 ^ 128
/-- ln 2. -/
def fxLn2 : Int := 0xb17217f7d1cf79abc9e3b39803f2f6af
/-- sqrt(2/π), of the tanh form of GELU. -/
def fxSqrt2Pi : Int := 0xcc42299ea1b284687e59e2805d5c717f
/-- 1/sqrt(2π), of the normal density. -/
def fxDensity : Int := 0x662114cf50d942343f2cf1402eae38bf
/-- Product. -/
def fxMul (x y : Int) : Int := x * y / fxOne
/-- Quotient. -/
def fxDiv (x y : Int) : Int := x * fxOne / y
/-- A finite value in fixed point. -/
def fxOf (neg : Bool) (m : Nat) (e : Int) : Int :=
  let k : Nat := if -128 ≤ e then m * 2 ^ (e + 128).toNat else m / 2 ^ (-128 - e).toNat
  if neg then -(k : Int) else k
/-- A fixed-point value times 2^k. -/
def fxFl (x k : Int) : Fl := .fin (decide (x < 0)) x.natAbs (k - 128)
/-- e^r for 0 ≤ r < 1, by its power series. -/
def fxExpSmall (r : Int) : Int :=
  ((List.range 44).foldl (fun (a : Int × Int) (n : Nat) => (a.1 + a.2, fxMul a.2 r / (n + 1))) (0, fxOne)).1
/-- e^x as a value in [1, 2) and a power of two. -/
def fxExp (x : Int) : Int × Int := let k := x / fxLn2; (fxExpSmall (x - k * fxLn2), k)
/-- e^(−|x|); below 2^−128 it is 0. -/
def fxExpNeg (x : Int) : Int :=
  if 128 * fxOne < (x.natAbs : Int) then 0 else let p := fxExp (-(x.natAbs : Int)); p.1 / 2 ^ (-p.2).toNat
/-- ln y for y in [1/√2, √2], by the series of artanh. -/
def fxLnSmall (y : Int) : Int :=
  let z := fxDiv (y - fxOne) (y + fxOne)
  2 * ((List.range 48).foldl (fun (a : Int × Int) (n : Nat) => (a.1 + a.2 / (2 * n + 1), fxMul a.2 (fxMul z z))) (0, z)).1
/-- The exponent and the logarithm of the significand of m × 2^e, m of 24 bits. -/
def fxLn (m : Nat) (e : Int) : Int × Int :=
  if 11863283 < m then (e + 24, fxLnSmall (m * 2 ^ 104)) else (e + 23, fxLnSmall (m * 2 ^ 105))
/-- 1 / (1 + e^(−x)). -/
def fxSigmoid (x : Int) : Int :=
  let t := fxExpNeg x
  if x < 0 then fxDiv t (fxOne + t) else fxDiv fxOne (fxOne + t)
/-- tanh x. -/
def fxTanh (x : Int) : Int :=
  let t := fxExpNeg (2 * x)
  let y := fxDiv (fxOne - t) (fxOne + t)
  if x < 0 then -y else y
/-- The normal distribution function, 1/2 + φ(x)·Σ x^(2n+1)/(2n+1)!!; from |x| = 8 on its limit. -/
def fxNormal (x : Int) : Int :=
  if 8 * fxOne ≤ x then fxOne
  else if x ≤ -(8 * fxOne) then 0
  else
    let sum := ((List.range 200).foldl (fun (a : Int × Int) (n : Nat) => (a.1 + a.2, fxMul a.2 (fxMul x x) / (2 * n + 3))) (0, x)).1
    fxOne / 2 + fxMul (fxMul fxDensity (fxExpNeg (fxMul x x / 2))) sum

/-! ## Exact values of the functions at a finite operand -/

/-- e^x. -/
def expFl (neg : Bool) (m : Nat) (e : Int) : Fl :=
  if 8 ≤ e + Nat.log2 m ∧ m ≠ 0 then .fin false 1 (if neg then -1000 else 1000)
  else let p := fxExp (fxOf neg m e); fxFl p.1 p.2
/-- 2^x. -/
def exp2Fl (neg : Bool) (m : Nat) (e : Int) : Fl :=
  if 8 ≤ e + Nat.log2 m ∧ m ≠ 0 then .fin false 1 (if neg then -1000 else 1000)
  else
    let x := fxOf neg m e
    let k := x / fxOne
    fxFl (fxExpSmall (fxMul (x - k * fxOne) fxLn2)) k
/-- ln x of a positive normal value. -/
def lnFl (m : Nat) (e : Int) : Fl := let p := fxLn m e; fxFl (p.1 * fxLn2 + p.2) 0
/-- log2 x of a positive normal value. -/
def log2Fl (m : Nat) (e : Int) : Fl := let p := fxLn m e; fxFl (p.1 * fxOne + fxDiv p.2 fxLn2) 0
/-- x·sigmoid(u): SiLU and the tanh form of GELU, whose 0.5·(1 + tanh v) is sigmoid(2v). -/
def gatedFl (neg : Bool) (m : Nat) (e : Int) (gate : Int) : Fl := mulFl (.fin neg m e) (fxFl gate 0)
/-- 2·sqrt(2/π)·(x + 0.044715·x³), for |x| below 64; beyond, the gate is at its limit either way. -/
def geluArg (x : Int) : Int :=
  let y := max (-(64 * fxOne)) (min (64 * fxOne) x)
  2 * fxMul fxSqrt2Pi (y + 44715 * fxMul y (fxMul y y) / 1000000)
/-- x·ReLU6(x + 3)/6. -/
def hardSwishFl (x : Fl) : Fl :=
  match x, addFl x (.fin false 3 0), addFl x (.fin true 3 0) with
  | .fin n m e, .fin low m3 e3, .fin below _ _ =>
    if low || m3 == 0 then .fin n 0 0 else if !below then x else divFin n (m * m3) (e + e3) false 3 1
  | _, _, _ => .nan

/-! ## The accuracy of Table 3-7 -/

/-- Whether two finite values lie within m × 2^e of one another. -/
def within (x y : Fl) (m : Nat) (e : Int) : Bool :=
  match addFl x (negFl y) with
  | .fin _ d k => decide (d * 2 ^ (k - min k e).toNat ≤ m * 2 ^ (e - min k e).toNat)
  | _ => false
/-- Whether a word is a finite FP32 that the device may write: normal or zero (R69). -/
def plain32 (w : Nat) : Bool := bits w 23 8 != 255 && (bits w 23 8 != 0 || bits w 0 23 == 0)
/-- A result of function `f` at `x` whose exact value is `t` and whose accuracy is `ulps` units in the last place of the
correctly rounded result, or 2^−22 where that is larger and the function has that bound: free within it (R77, log entry 3).
Overflow saturates, and a result below 2^−126 is flushed. -/
def veBounded (ulps : Nat) (floor22 : Bool) (f x : Nat) (t : Fl) : Fr :=
  let r := enc32 t
  let c := (Config.veResult f (BitVec.ofNat 32 x)).toNat
  let near := bits r.v 23 8 != 0 && within (dec32 c) t ulps ((bits r.v 23 8 : Int) - 150)
  if !r.fl.sat && plain32 c && (near || (floor22 && within (dec32 c) t 1 (-22))) then ⟨c, r.fl⟩ else r
/-- A value that the spec does not state: free, in the result formats of R69 (a NaN is canonical, infinities are not written,
subnormals are flushed). -/
def veFree (f x : Nat) : Nat :=
  let c := (Config.veResult f (BitVec.ofNat 32 x)).toNat
  if isNan32 c then nan32 else if bits c 23 8 = 255 then signed32 (bitOf c 31) max32 else (enc32 (dec32 c)).v

/-- 88.72 as FP32: the limit of exp. -/
def expLimit : Nat := 0x42B170A4
/-- reciprocal: ±0 gives ± the largest finite, NUM_SAT. -/
def veRecip (x : Nat) : Fr :=
  match dec32 x with
  | .fin neg m e =>
    if m = 0 then ⟨signed32 neg max32, { sat := true }⟩ else veBounded 1 false 0x10 x (divFin neg 1 0 false m e)
  | _ => div32 0x3F800000 x
/-- sqrt: a negative gives NaN, NUM_NONFINITE. -/
def veSqrt (x : Nat) : Fr :=
  match dec32 x with
  | .fin neg m e => if m = 0 || neg then sqrt32 x else veBounded 1 false 0x11 x (sqrtFin m e)
  | _ => sqrt32 x
/-- rsqrt: the reciprocal of the square root; a negative gives NaN, NUM_NONFINITE; of ±0 it is as `reciprocal` of ±0, which the
spec does not state (log entry 58). -/
def veRsqrt (x : Nat) : Fr :=
  match dec32 x with
  | .fin neg m e =>
    if m = 0 then ⟨signed32 neg max32, { sat := true }⟩
    else if neg then ⟨nan32, { nonfin := true }⟩
    else match sqrtFin (m * 2 ^ 80) (e - 80) with
      | .fin _ q qe => veBounded 1 false 0x12 x (divFin false 1 0 false q qe)
      | _ => ⟨nan32, {}⟩
  | .inf false => ⟨0, { nonfin := true }⟩
  | _ => ⟨nan32, { nonfin := true }⟩
/-- exp (function code 0x13) and exp2. -/
def veExp (f x : Nat) : Fr :=
  match dec32 x with
  | .inf neg => ⟨if neg then 0 else 0x7F800000, { nonfin := true }⟩
  | .fin neg m e =>
    if f = 0x13 then (if lt32 expLimit x then ⟨max32, { sat := true }⟩ else veBounded 2 false f x (expFl neg m e))
    else veBounded 2 false f x (exp2Fl neg m e)
  | .nan => ⟨nan32, { nonfin := true }⟩
/-- log (function code 0x15) and log2: of ±0 − the largest finite, NUM_SAT. Of a negative finite operand the spec states no
result: a free value, and no flag (log entry 58); of −infinity it is the NaN of IEEE 754 (R74). -/
def veLog (f x : Nat) : Fr :=
  match dec32 x with
  | .fin neg m e =>
    if m = 0 then ⟨signed32 true max32, { sat := true }⟩
    else if neg then ⟨veFree f x, {}⟩
    else veBounded 2 false f x (if f = 0x15 then lnFl m e else log2Fl m e)
  | .inf false => ⟨0x7F800000, { nonfin := true }⟩
  | _ => ⟨nan32, { nonfin := true }⟩
/-- sigmoid, tanh, SiLU, GELU in its erf and tanh forms, hard-swish (function codes 0x18 to 0x1D); at an infinity the value of
the defining formula by IEEE 754 (R74). -/
def veSmooth (f x : Nat) : Fr :=
  match dec32 x with
  | .nan => ⟨nan32, { nonfin := true }⟩
  | .inf neg =>
    ⟨if f = 0x18 then (if neg then 0 else 0x3F800000) else if f = 0x19 then signed32 neg 0x3F800000
      else if neg then nan32 else 0x7F800000, { nonfin := true }⟩
  | .fin neg m e =>
    let u := fxOf neg m e
    veBounded 4 true f x (match f with
      | 0x18 => fxFl (fxSigmoid u) 0
      | 0x19 => fxFl (fxTanh u) 0
      | 0x1A => gatedFl neg m e (fxSigmoid u)
      | 0x1B => gatedFl neg m e (fxNormal u)
      | 0x1C => gatedFl neg m e (fxSigmoid (geluArg u))
      | _ => hardSwishFl (.fin neg m e))

end Sys2Proof.Machine
end

