-- ==== Sys2Proof/Machine/Reach.lean ====
section
/-! DEFINITION. Whether an access of an engine reaches the DRAM: the address maps, the channels and the ports to the other die (R323,
R325, R335, R344, R345). -/
set_option autoImplicit false
namespace Sys2Proof.Machine
open Sys2Proof

/-! ## Address maps (R323, R324) -/

/-- The valid region entry that holds die-local address `l` on die `d`; its MAP. -/
def regionMap (s : Dev) (d l : Nat) : Option Nat :=
  ((List.range 16).find? fun r => tst s (Reg.DMC_RGN_CFG d r) 16 &&
    decide (rf s (Reg.DMC_RGN_BASE d r) 0 13 * 2 ^ 21 ≤ l) &&
    decide (l < (rf s (Reg.DMC_RGN_BASE d r) 0 13 + rf s (Reg.DMC_RGN_CFG d r) 0 14) * 2 ^ 21)).map
    fun r => rf s (Reg.DMC_RGN_CFG d r) 14 2
/-- Channel, bank (rank × 32 + bank) and row of a die-local address (Table 13-2). -/
def dramPlace (map l : Nat) : Nat × Nat × Nat :=
  let rank := bits l 32 2 * 32
  match map with
  | 0 => (bits l 8 5, rank + bits l 16 5, bits l 21 11)
  | 1 => (bits l 8 5, rank + xorN (bits l 16 5) (bits l 21 5), bits l 21 11)
  | _ => (4 * bits l 29 3 + bits l 8 2, rank + bits l 13 5, bits l 18 11)

/-! ## Channels and ports -/

/-- The channel status register of channel `k`. -/
def chStatus (k : Nat) : Nat := Reg.DMC_CH_STATUS (k / 32) (k % 32)
/-- TRAINING of every channel (Table 13-9). -/
def putTrainingAll (b : Bool) (s : Dev) : Dev := forS (List.range 64) (fun k => setB (chStatus k) 6 b) s
/-- Both controllers train (R336). -/
def trainBegin (s : Dev) : Dev := s |> forS [0, 1] (fun d => wf (Reg.DMC_STATUS d) 0 2 2) |> putTrainingAll true
/-- The channel is UP (R335). -/
def chUp (s : Dev) (k : Nat) : Bool := tst s (chStatus k) 0
/-- Whether a request's way to the other die is DOWN (R344, R345): it crosses at the router of its channel. -/
def crossesDown (s : Dev) (src d ch : Nat) : Bool := src != d && (tst s (Reg.ARB_DLINK_DOWN d) ch || tst s (Reg.ARB_DLINK_DOWN src) ch)

/-! ## Events of the controllers -/

/-- DMC_FAULT_INFO (Table 13-9). -/
def dmcFault (d ev ch lane : Nat) (s : Dev) : Dev := wrN (Reg.DMC_FAULT_INFO d) (ev + ch * 8 + lane * 256) s
/-- An event of a channel (Table 15-1). -/
def dmcRaise (code k : Nat) (s : Dev) : Dev := raise code k (rdN s (Reg.DMC_FAULT_INFO (k / 32))) s
/-- DMC_FAULT_ADDR (R331). -/
def dmcAddr (d a : Nat) (s : Dev) : Dev := wr64 (Reg.DMC_FAULT_ADDR_LO d) (a % 2 ^ 40) s

/-! ## Accesses of the engines -/

/-- Why a burst is answered with an error: it lies in no valid region (R325), its channel or its way is DOWN, or the table is not in
force (R324, R335, R345), or a word of it has an uncorrectable error (R331). -/
inductive ReachErr where
  | unmapped | down | ecc
  deriving DecidableEq, Repr
/-- An access that is answered with an error: the address of its first burst that fails, and why. -/
structure NoReach where
  addr : Nat
  why : ReachErr
  deriving DecidableEq, Repr
/-- Whether a requester on die `src` reaches the burst at `a`. Until LOCK only the boot controller and Ziltur reach the DRAM
(R324); a die whose memory-controller domain is not in run reaches none (R339). -/
def burstReach (s : Dev) (src a : Nat) : Option NoReach :=
  let d := a / 2 ^ 34 % 2
  let l := a % 2 ^ 34
  if !(tst s (Reg.DMC_CTRL d) 0) || !(domRuns s (97 + d)) then some ⟨a, .down⟩
  else match if a < dramBytes then regionMap s d l else none with
    | none => some ⟨a, .unmapped⟩
    | some m =>
      let ch := (dramPlace m l).1
      if !(chUp s (32 * d + ch)) || crossesDown s src d ch then some ⟨a, .down⟩ else none
/-- Whether the burst at `a` holds a word that was found with an uncorrectable error and has not been written since (R332). -/
def burstBad (s : Dev) (a : Nat) : Bool := s.dmc.bad.any fun w => w.1 / 256 == a / 256 && rdBytes .dram s w.1 8 == w.2
/-- Whether a requester on die `src` gets the data of the burst at `a`. -/
def burstRead (s : Dev) (src a : Nat) : Option NoReach := (burstReach s src a).or (if burstBad s a then some ⟨a, .ecc⟩ else none)
/-- The addresses of the bursts of the `n` bytes from `a` on. -/
def burstsOf (a n : Nat) : List Nat := (List.range (ceilDiv (a % 256 + n) 256)).map fun i => a / 256 * 256 + 256 * i
/-- Whether a requester on die `src` reaches the `n` bytes from `a` on: the first burst that it does not reach. -/
def dramReach (s : Dev) (src a n : Nat) : Option NoReach := (burstsOf a n).findSome? (burstReach s src)
/-- Whether a requester on die `src` can read the `n` bytes from `a` on. -/
def dramRead (s : Dev) (src a n : Nat) : Option NoReach := (burstsOf a n).findSome? (burstRead s src)
/-- The ECC counters of a die and a channel. -/
def dmcEcc (k lo : Nat) (s : Dev) : Dev :=
  s |> bump16 (Reg.DMC_ECC_CNT (k / 32)) lo 1 |> bump16 (Reg.DMC_CH_ECC_CNT (k / 32) (k % 32)) lo 1
/-- DMC_ECC_UNCORR (R331): a read of the burst at `a` on channel `k` meets a double-bit error. -/
def eccUncorr (k a : Nat) (s : Dev) : Dev := s |> dmcEcc k 16 |> dmcFault (k / 32) 1 (k % 32) 0 |> dmcAddr (k / 32) a |> dmcRaise 0x0E01 k
/-- The controller's report of an access to no valid region (R325) or of a double-bit error (R331); an access to a DOWN channel or port has none of
its own. -/
def reportReach (x : NoReach) (s : Dev) : Dev :=
  let d := x.addr / 2 ^ 34 % 2
  match x.why with
  | .unmapped => s |> dmcFault d 3 0 0 |> dmcAddr d x.addr |> dmcRaise 0x0E03 (32 * d)
  | .ecc => eccUncorr (32 * d + (dramPlace ((regionMap s d (x.addr % 2 ^ 34)).getD 0) (x.addr % 2 ^ 34)).1) x.addr s
  | .down => s
/-- A write of a requester on die `src`; one that is answered with an error is lost (R325, R335, R345). -/
def reachWrite (src a : Nat) (l : List Byte) (s : Dev) : Dev :=
  match dramReach s src a l.length with
  | none => wrBytes .dram a l s
  | some x => reportReach x s
/-- Whether core `k` can read `n` bytes of the space that a SPACE code names: only DRAM can refuse. -/
def spaceRead (s : Dev) (k sp a n : Nat) : Option NoReach := if sp = 0 then dramRead s (k / 32) a n else none
/-- Whether core `k` reaches `n` bytes of the space that a SPACE code names. -/
def spaceReach (s : Dev) (k sp a n : Nat) : Option NoReach := if sp = 0 then dramReach s (k / 32) a n else none

end Sys2Proof.Machine
end

