-- ==== Sys2Proof/Machine/Vector.lean ====
section
/-! DEFINITION. The vector engine: operand groups and their formats, the functions of Table 8-4 (R76 to R79, R135). -/
set_option autoImplicit false
namespace Sys2Proof.Machine
open Sys2Proof

/-! ## Operand groups (R135, Table 6-2) -/

/-- An operand record: SPACE, ADDR, LIMIT in groups, FMT. -/
structure Opnd where
  sp : Nat := 0
  addr : Nat := 0
  limit : Nat := 0
  fmt : Nat := 0
  deriving DecidableEq, Repr

/-- Whether a FMT code is a BX format. -/
def fmtIsBx (f : Nat) : Bool := decide (8 ≤ f) && decide (f ≤ 16)
/-- Whether a FMT code is legal (Table 6-2). -/
def fmtLegal (f : Nat) : Bool := decide (f ≤ 3) || fmtIsBx f
/-- Element bits of a BX format. -/
def fmtN (f : Nat) : Nat := if f = 16 then 16 else f - 7
/-- Bytes of a group of 32 elements. -/
def groupBytes (f : Nat) : Nat := if f = 0 then 128 else if f ≤ 3 then 64 else 4 * fmtN f
/-- The memory that a SPACE code names on core `k`: DRAM, the cluster memory of its cluster, its scratch. -/
def spaceOf (k sp : Nat) : Space := if sp = 0 then .dram else if sp = 1 then .cm (k / 8) else .scr k
/-- The size of that memory. -/
def spaceBytes (sp : Nat) : Nat := if sp = 0 then dramBytes else if sp = 1 then cmBytes else scrBytes
/-- The byte address of group `g`. -/
def groupAddr (o : Opnd) (g : Nat) : Nat := o.addr + g * groupBytes o.fmt
/-- The byte address of the exponent of group `g`: the exponent plane starts at the next 256-byte boundary. -/
def expAddr (o : Opnd) (g : Nat) : Nat := o.addr + ceilDiv (o.limit * groupBytes o.fmt) 256 * 256 + g
/-- The end of the planned buffer (Table 6-2): the byte after its last. -/
def bufferEnd (o : Opnd) : Nat := if fmtIsBx o.fmt then expAddr o o.limit else groupAddr o o.limit
/-- Whether a group lies in the planned buffer (R146). -/
def inBuffer (o : Opnd) (g : Int) : Bool := decide (0 ≤ g) && decide (g < o.limit)

/-- Whether core `k` reaches a group and its exponent byte (R325, R345). -/
def groupReach (s : Dev) (k : Nat) (o : Opnd) (g : Nat) : Option NoReach :=
  (spaceReach s k o.sp (groupAddr o g) (groupBytes o.fmt)).or (if fmtIsBx o.fmt then spaceReach s k o.sp (expAddr o g) 1 else none)
/-- Whether core `k` can read a group and its exponent byte. -/
def groupRead (s : Dev) (k : Nat) (o : Opnd) (g : Nat) : Option NoReach :=
  (spaceRead s k o.sp (groupAddr o g) (groupBytes o.fmt)).or (if fmtIsBx o.fmt then spaceRead s k o.sp (expAddr o g) 1 else none)
/-- The raw elements of a group and its exponent: BX elements as they are, other formats as their bit patterns. -/
def rawGroup (s : Dev) (k : Nat) (o : Opnd) (g : Nat) : Pip :=
  let bs := rdBytes (spaceOf k o.sp) s (groupAddr o g) (groupBytes o.fmt)
  if fmtIsBx o.fmt then ⟨unpackPip (fmtN o.fmt) bs, (mrd (spaceOf k o.sp) s (expAddr o g)).toNat⟩
  else
    let w := if o.fmt = 0 then 32 else 16
    ⟨(List.range 32).map fun i => ((bits (leNat bs) (w * i) w : Nat) : Int), 0⟩
/-- The FP32 values of a group and the flags of the conversion (Table 3-5). A 16-bit index is read as an unsigned
integer. -/
def valuesOf (f : Nat) (p : Pip) : List Nat × NumFlags :=
  if fmtIsBx f then (p.q.map fun q => (bxTo32 q p.e).v, { sat := p.q.any fun q => (bxTo32 q p.e).fl.sat })
  else (p.q.map fun q => if f = 0 then q.toNat else if f = 1 then half2f q.toNat else if f = 2 then bf2f q.toNat else ofInt32 q, {})
/-- One FP32 value in a 16-bit format. To the 16-bit index (OUT_FMT 3), which Table 3-5 does not give, the model rounds to
nearest even, clamps to 0..65535, takes NaN as 0 and sets no flag (log entry 58). -/
def narrow (f v : Nat) : Fr :=
  if f = 1 then f2half v else if f = 2 then f2bf v else ⟨(toInt32 v 0 65535).toNat, {}⟩
/-- The elements and the exponent that FP32 values take in a format, and the flags. -/
def packValues (f : Nat) (vs : List Nat) : Pip × NumFlags :=
  if f = 8 then toBx1 127 vs
  else if fmtIsBx f then toBx (fmtN f) vs
  else if f = 0 then (⟨vs.map fun v => (((enc32 (dec32 v)).v : Nat) : Int), 0⟩, {})
  else (⟨vs.map fun v => ((narrow f v).v : Int), 0⟩, flagsOf (vs.map (narrow f)))
/-- Write the raw elements of a group. -/
def putGroup (k : Nat) (o : Opnd) (g : Nat) (p : Pip) (s : Dev) : Dev :=
  let sp := spaceOf k o.sp
  if fmtIsBx o.fmt then
    s |> wrBytes sp (groupAddr o g) (packPip (fmtN o.fmt) p.q) |> mwr sp (expAddr o g) (BitVec.ofNat 8 p.e)
  else
    s |> wrBytes sp (groupAddr o g) (p.q.flatMap fun q => leBytes (if o.fmt = 0 then 4 else 2) q.toNat)

/-! ## VE command entries (Table 8-4) -/

/-- A VE command entry. -/
structure Ve where
  func : Nat
  inFmt : Nat
  outFmt : Nat
  release : Bool
  count : Nat
  c0 : Nat
  c1 : Nat
  c2 : Nat
  aux : Nat
  resv : Bool
  deriving DecidableEq, Repr

/-- The function codes of Table 8-4. -/
def veFuncs : List Nat :=
  [0x01, 0x02, 0x03, 0x04, 0x05, 0x06, 0x07, 0x08, 0x09, 0x0A, 0x0B, 0x10, 0x11, 0x12, 0x13, 0x14, 0x15, 0x16, 0x18, 0x19,
   0x1A, 0x1B, 0x1C, 0x1D, 0x20, 0x21, 0x22, 0x28, 0x30, 0x31]
/-- The entry at an address of DRAM. -/
def veAt (s : Dev) (a : Nat) : Ve :=
  let w (i : Nat) : Nat := rdLE .dram s (a + 4 * i) 4
  { func := bits (w 0) 0 8, inFmt := bits (w 0) 8 8, outFmt := bits (w 0) 16 8, release := bitOf (w 0) 24,
    count := bits (w 1) 0 24, c0 := w 2, c1 := w 3, c2 := w 4, aux := bits (w 5) 0 22,
    resv := bits (w 0) 25 7 != 0 || bits (w 1) 24 8 != 0 || bits (w 5) 22 10 != 0 || w 6 != 0 || w 7 != 0 }
/-- Functions with two operands A and X. -/
def veBinary (f : Nat) : Bool := decide (2 ≤ f) && decide (f ≤ 7)
/-- SCH_CMD_INVALID of a VE entry (R195, R196): a reserved FUNC or field, a FMT code that does not exist, a COUNT that is no
multiple of 32. -/
def veBad (v : Ve) : Bool :=
  v.resv || !(veFuncs.contains v.func) || !(fmtLegal v.inFmt) || !(fmtLegal v.outFmt) || v.count % 32 != 0

/-! ## Functions (R77, Table 3-7) -/

/-- One element of an elementwise function (Table 8-4, Table 3-7). The spec does not state the third operand of `fma`: the
model takes C0 (log entry 13). -/
def veElem (v : Ve) (a x : Nat) : Fr :=
  match v.func with
  | 0x02 => add32 a x
  | 0x03 => sub32 a x
  | 0x04 => mul32 a x
  | 0x05 => fma32 a x v.c0
  | 0x06 => min32 a x
  | 0x07 => max32f a x
  | 0x08 => max32f a 0
  | 0x09 => min32 (max32f a 0).v 0x40C00000
  | 0x0A => if lt32 a 0 then mul32 a v.c0 else fin32 [a] (dec32 a)
  | 0x0B => min32 (max32f a v.c0).v v.c1
  | 0x10 => veRecip a
  | 0x11 => veSqrt a
  | 0x12 => veRsqrt a
  | 0x13 => veExp 0x13 a
  | 0x14 => veExp 0x14 a
  | 0x15 => veLog 0x15 a
  | 0x16 => veLog 0x16 a
  | 0x18 | 0x19 | 0x1A | 0x1B | 0x1C | 0x1D => veSmooth v.func a
  | _ => fin32 [a] (dec32 a)

/-- The mean of a list: the fixed-order sum over the length. -/
def mean32 (xs : List Nat) : Fr := let s := sum32 xs; (div32 s.v (ofInt32 xs.length)).with s.fl
/-- The variance in a second pass: the mean of (x − mean)² (Table 3-7). -/
def variance32 (mu : Nat) (xs : List Nat) : Fr :=
  let ds := Frs.of (xs.map fun x => sub32 x mu)
  let qs := Frs.of (ds.vs.map fun d => mul32 d d)
  (mean32 qs.vs).with (ds.fl.or qs.fl)
/-- 1 / sqrt(x + ε). -/
def invRoot (x : Fr) (eps : Nat) : Fr :=
  let t := add32 x.v eps
  (veRsqrt t.v).with (x.fl.or t.fl)
/-- Layer normalisation (R77, R78): gamma and beta by element, epsilon C0. -/
def layerNorm (eps : Nat) (gamma beta xs : List Nat) : Frs :=
  let mu := mean32 xs
  let r := invRoot (variance32 mu.v xs) eps
  let ds := Frs.of (xs.map fun x => sub32 x mu.v)
  let ns := Frs.of (ds.vs.map fun d => mul32 d r.v)
  let ys := Frs.of ((enum ns.vs 0).map fun p => fma32 p.2 (gamma.getD p.1 0) (beta.getD p.1 0))
  ⟨ys.vs, (((mu.fl.or r.fl).or ds.fl).or ns.fl).or ys.fl⟩
/-- RMS normalisation (R77, R78). -/
def rmsNorm (eps : Nat) (gamma xs : List Nat) : Frs :=
  let qs := Frs.of (xs.map fun x => mul32 x x)
  let r := invRoot ((mean32 qs.vs).with qs.fl) eps
  let ns := Frs.of (xs.map fun x => mul32 x r.v)
  let ys := Frs.of ((enum ns.vs 0).map fun p => mul32 p.2 (gamma.getD p.1 0))
  ⟨ys.vs, (r.fl.or ns.fl).or ys.fl⟩
/-- The running maximum of a list. -/
def maxOf (x0 : Nat) (xs : List Nat) : Nat := xs.foldl (fun m x => (max32f m x).v) x0
/-- exp(x − m) of each element. -/
def expsOf (m : Nat) (xs : List Nat) : Frs :=
  let ds := Frs.of (xs.map fun x => sub32 x m)
  let es := Frs.of (ds.vs.map (veExp 0x13))
  ⟨es.vs, ds.fl.or es.fl⟩
/-- Softmax of a row (Table 3-7): running maximum, exp(x − max), sum, reciprocal, scale. -/
def softmaxRow (xs : List Nat) : Frs :=
  let es := expsOf (maxOf (xs.headD 0) xs) xs
  let l := sum32 es.vs
  let r := (veRecip l.v).with l.fl
  let ys := Frs.of (es.vs.map fun e => mul32 e r.v)
  ⟨ys.vs, (es.fl.or r.fl).or ys.fl⟩

/-- What an invocation yields: its values, its flags, and the kept count of `compact`. -/
structure VeOut where
  vals : List Nat
  fl : NumFlags := {}
  kept : Nat := 0
  deriving DecidableEq, Repr

/-- One invocation over FP32 values: A, X, gamma and beta. `compact` moves the kept elements to the front. -/
def veRun (v : Ve) (as xs gamma beta : List Nat) : VeOut :=
  let nf : NumFlags := { nonfin := as.any fun a => (nonfinOf a).nonfin }
  let of (r : Frs) : VeOut := { vals := r.vs, fl := nf.or r.fl }
  match v.func with
  | 0x20 => of (layerNorm v.c0 gamma beta as)
  | 0x21 => of (rmsNorm v.c0 gamma as)
  | 0x22 => of (softmaxRow as)
  | 0x28 =>
    let ks := ((enum as 0).filter fun p => Config.keeps (BitVec.ofNat 32 p.2) (BitVec.ofNat 32 (xs.getD p.1 0))).map (·.2)
    { vals := ks, fl := nf, kept := ks.length }
  | _ => of (.of ((enum as 0).map fun p => veElem v p.2 (xs.getD p.1 0)))

/-- The 32 values of group `i` of a list, with zeros beyond its end. -/
def slice32 (vs : List Nat) (i : Nat) : List Nat := (List.range 32).map fun j => vs.getD (32 * i + j) 0
/-- The elements of group `i` of an invocation's results in the output format: BX1 activations take the exponent C0[7:0]
(Table 8-4). -/
def vePack (v : Ve) (vs : List Nat) : Pip × NumFlags :=
  if v.func = 0x31 then toBx1 (v.c0 % 256) vs else packValues v.outFmt vs

end Sys2Proof.Machine
end

