-- ==== Sys2Proof/Machine/Nest.lean ====
section
/-! DEFINITION. Loop descriptors: their checks, the walk of the nest, matrix products, VE invocations and epilogues (06);
the command records and how a core starts and finishes one (R195). -/
set_option autoImplicit false
namespace Sys2Proof.Machine
open Sys2Proof

/-! ## Command records (Table 8-3) and stage templates (Table 8-2) -/

/-- A cove's work-package address. -/
def wpOf (s : Dev) (c : Nat) : Nat := baseAddr s (Reg.SCH_COVE_WP_LO c)
/-- A field of the package header: `n` bytes at `a`. -/
def wpField (s : Dev) (c a n : Nat) : Nat := rdLE .dram s (wpOf s c + a) n
/-- The address of stage template `i`. -/
def stageAt (s : Dev) (c i : Nat) : Nat := wpOf s c + wpField s c 16 4 + 272 * i
/-- A command record. -/
structure Cmd where
  type : Nat
  nest : Nat
  stage : Bool
  live : Nat
  arg : Nat
  src : Nat
  dst : Nat
  resv : Bool
  deriving DecidableEq, Repr
/-- Command record `i` of a cove's package. -/
def cmdAt (s : Dev) (c i : Nat) : Cmd :=
  let a := wpOf s c + wpField s c 20 4 + 32 * i
  let w (j : Nat) : Nat := rdLE .dram s (a + 4 * j) 4
  { type := bits (w 0) 0 4, nest := bits (w 0) 4 6, stage := bitOf (w 0) 10, live := bits (w 0) 11 10, arg := bits (w 1) 0 24,
    src := w 2 + w 3 * 2 ^ 32, dst := w 4 + w 5 * 2 ^ 32,
    resv := bits (w 0) 21 11 != 0 || bits (w 1) 24 8 != 0 || w 6 != 0 || w 7 != 0 }
/-- The index of the record that a task runs next: CMD_FIRST + the commands completed (R195). -/
def cmdIndex (s : Dev) (t : Task) : Nat := rdLE .dram s (stageAt s t.cove t.stage + 2) 2 + t.pos
/-- Commands per task of a stage. -/
def cmdCount (s : Dev) (c i : Nat) : Nat := rdLE .dram s (stageAt s c i + 4) 2
/-- An address word of Table 6-2: its space and byte address. -/
def addrWord (w : Nat) : Nat × Nat := (bits w 62 2, bits w 0 40)
/-- Whether `n` bytes at an address word lie in its space. -/
def wordOk (w n : Nat) : Bool :=
  (addrWord w).1 != 3 && bits w 40 22 == 0 && decide ((addrWord w).2 + n ≤ spaceBytes (addrWord w).1)
/-- R195: a reserved TYPE, result kind or field, a NEST index at or above NNEST, a ninth staged range, a misaligned field. -/
def cmdBad (s : Dev) (t : Task) (c : Cmd) : Bool :=
  c.resv || c.type == 0 || decide (4 < c.type) || decide (768 < c.live) ||
  (c.type == 1 && decide (wpField s t.cove 12 1 ≤ c.nest)) ||
  (c.type == 2 && c.arg % 64 != 0) ||
  (decide (3 ≤ c.type) && (addrWord c.src).2 % 256 != 0) || (c.type == 3 && (addrWord c.dst).2 % 256 != 0) ||
  (c.type == 4 && (c.arg % 16 == 0 || decide (5 < c.arg % 16) || !(wordOk c.src 32))) ||
  (c.type == 3 && (c.arg % 256 != 0 || !(wordOk c.src c.arg) || !(wordOk c.dst c.arg) || (c.stage && decide (8 ≤ t.staged.length))))
/-- SCH_FAULT_INFO (Table 8-7). -/
def schInfo (c k stage idx : Nat) : Nat := c + k * 2 ^ 3 + stage * 2 ^ 9 + idx % 2 ^ 16 * 2 ^ 15
/-- SCH_CMD_INVALID (R195, R196): the task ends contained. -/
def cmdInvalid (k : Nat) (s : Dev) : Dev :=
  match (coreOf s k).task with
  | none => s
  | some t =>
    let info := schInfo t.cove k t.stage (cmdIndex s t)
    s |> wrN Reg.SCH_FAULT_INFO info |> raiseFor 0x0702 t.cove info t.cove |> containCore k

/-- Change a core's task. -/
def modTask (k : Nat) (f : Task → Task) (s : Dev) : Dev := modCore k (fun c => { c with task := c.task.map f }) s
/-- A command starts (R195, R210). -/
def startCmd (k : Nat) (s : Dev) : Dev :=
  let t := now s
  let c := aclkMilli s
  modTask k (fun x => { x with cmdAt := some t, cmdC := c, t0 := some (x.t0.getD t), c0 := if x.t0.isNone then c else x.c0, status := 0, flags := 0 }) s
/-- A command's work is done with a status (R198): it completes at COMMAND_COMPLETE. -/
def finishCmd (k status : Nat) (s : Dev) : Dev :=
  modTask k (fun x => if x.contained then x else { x with ran := true, status }) s
/-- Run the command that core `k`'s task is at when it is of the kind that `want` tells; a malformed record raises
SCH_CMD_INVALID at command start (R195). Nothing runs while the core has no task, its command has already run, its last command has
completed, or a switch is in progress. -/
def runCmd (k : Nat) (want : Task → Cmd → Bool) (f : Task → Cmd → Dev → Dev) (s : Dev) : Dev :=
  let co := coreOf s k
  match co.task with
  | none => s
  | some t =>
    let c := cmdAt s t.cove (cmdIndex s t)
    if t.ran || co.saving || co.restoring || !(domRuns s k) || decide (cmdCount s t.cove t.stage ≤ t.pos) then s
    else if cmdBad s t c then s |> startCmd k |> cmdInvalid k
    else if want t c then s |> startCmd k |> f t c
    else s

/-! ## Descriptors (Tables 6-1 to 6-4) -/

/-- A level entry. -/
structure Lev where
  e : Nat
  dim : Nat
  shEn : Bool
  shSel : Nat
  tst : Nat
  unit : Nat
  bound : Nat
  st : List Int
  resv : Bool
  deriving DecidableEq, Repr
/-- A descriptor: `ops` are operands A, W, O, X, `levs` the entries that ORDER names, outermost first. -/
structure Desc where
  entry : Nat
  eng : Nat
  wide : Bool
  bias : Bool
  aw : Nat
  ww : Nat
  nlev : Nat
  carry : Bool
  leave : Bool
  tileBase : Nat
  order : List Nat
  split0 : Option Nat
  split1 : Option Nat
  wdesc : Nat
  epi : Nat
  oRow : Nat
  shWr : Option Nat
  oPix : Nat
  ops : List Opnd
  levs : List Lev
  resv : Bool
  spaces : Bool
  deriving DecidableEq, Repr
/-- Operand `i` of a descriptor: 0 A, 1 W, 2 O, 3 X. -/
def Desc.op (d : Desc) (i : Nat) : Opnd := d.ops.getD i {}
/-- Activation width a. -/
def Desc.a (d : Desc) : Nat := d.aw + 1
/-- Weight width w. -/
def Desc.w (d : Desc) : Nat := 2 ^ d.ww

/-- The level entry at index `e` of an entry's words. -/
def levOf (w : Nat → Nat) (e : Nat) : Lev :=
  let b := 24 + 6 * e
  { e, dim := bits (w b) 0 4, shEn := bitOf (w b) 4, shSel := bits (w b) 5 4, tst := bits (w b) 9 5, unit := bits (w b) 14 18,
    bound := bits (w (b + 1)) 0 24, st := (List.range 4).map fun j => toSigned (w (b + 2 + j)) 32, resv := bits (w (b + 1)) 24 8 != 0 }
/-- The operand record `i` of an entry's words. -/
def opndOf (w : Nat → Nat) (i : Nat) : Opnd :=
  let lo := w (8 + 4 * i) + w (9 + 4 * i) * 2 ^ 32
  let hi := w (10 + 4 * i) + w (11 + 4 * i) * 2 ^ 32
  { sp := bits lo 62 2, addr := bits lo 0 40, limit := bits hi 0 40, fmt := bits hi 40 8 }
/-- Reserved bits of an operand record, or a reserved FMT of an operand in use. -/
def opndResv (w : Nat → Nat) (i : Nat) : Bool :=
  bits (w (9 + 4 * i)) 8 22 != 0 || bits (w (11 + 4 * i)) 16 16 != 0 ||
  ((opndOf w i).limit != 0 && !(fmtLegal (opndOf w i).fmt))
/-- Read table entry `e` of core `k` (R131, R134). -/
def descOf (s : Dev) (k e : Nat) : Desc :=
  let w (i : Nat) : Nat := rdN s (Reg.LPD_TABLE k e i)
  let nlev := bits (w 0) 10 3
  let order := (List.range 6).map fun d => bits (w 1) (3 * d) 3
  let levs := (order.take nlev).map fun x => levOf w x
  { entry := e, eng := bits (w 0) 0 2, wide := bitOf (w 0) 2, bias := bitOf (w 0) 3, aw := bits (w 0) 4 4, ww := bits (w 0) 8 2,
    nlev, carry := bitOf (w 0) 13, leave := bitOf (w 0) 14, tileBase := bits (w 0) 16 5, order,
    split0 := if bitOf (w 2) 3 then some (bits (w 2) 0 3) else none, split1 := if bitOf (w 2) 7 then some (bits (w 2) 4 3) else none,
    wdesc := bits (w 3) 0 22, epi := bits (w 4) 0 16, oRow := w 5,
    shWr := if bitOf (w 6) 4 then some (bits (w 6) 0 4) else none, oPix := w 7,
    ops := (List.range 4).map (opndOf w), levs,
    resv := bitOf (w 0) 15 || bits (w 0) 21 11 != 0 || bits (w 1) 18 14 != 0 || bits (w 2) 8 24 != 0 || bits (w 3) 22 10 != 0 ||
      bits (w 4) 16 16 != 0 || bits (w 6) 5 27 != 0 || (List.range 4).any (opndResv w) || levs.any (·.resv) ||
      (List.range 4).any (fun i => w (60 + i) != 0),
    spaces := (List.range 4).any fun i => (opndOf w i).limit != 0 && (opndOf w i).sp == 3 }

/-- Engines that a dimension code is allowed for (Table 6-4). -/
def dimEngines (dim : Nat) : List Nat :=
  match dim with
  | 1 => [0, 3]
  | 2 => [0, 1, 3]
  | 3 => [0]
  | 4 | 5 => [1, 2]
  | 6 | 7 => [0, 1, 2, 3]
  | _ => []
/-- Whether a descriptor runs a VE function with a second input on its tiles (R150, R196): operand X feeds it. -/
def epiBinary (d : Desc) (v : Ve) : Bool := decide (d.eng ≤ 1) && d.epi != 0xFFFF && veBinary v.func
/-- The operands that a command needs: A always; W for the arrays; O unless the tiles are held; X for the bias or a second VE
input. -/
def neededOps (d : Desc) (v : Ve) : List Nat :=
  [0] ++ (if d.eng ≤ 1 then [1] else []) ++ (if d.eng ≤ 1 ∧ d.epi = 0xFFFF then [] else [2]) ++
  (if (d.eng ≤ 1 ∧ d.bias) ∨ (d.eng = 3 ∧ veBinary v.func) ∨ epiBinary d v then [3] else [])
/-- Whether an operand's planned buffer is well placed: ADDR a multiple of 256, the buffer inside its space. -/
def bufferOk (o : Opnd) : Bool := o.sp != 3 && o.addr % 256 == 0 && decide (bufferEnd o ≤ spaceBytes o.sp)
/-- UNIT limits of Table 6-4 for one level on a core with `ac` arrays. -/
def unitBad (d : Desc) (ac : Nat) (passLevel : Bool) (l : Lev) : Bool :=
  l.unit == 0 || (l.dim == 1 && passLevel && l.unit != 1) ||
  (l.dim == 2 && d.eng ≤ 1 && decide ((if d.wide then 1024 * ac else 32 * ac) < l.unit)) ||
  (l.dim == 3 && (if d.wide then l.unit != 32 else l.unit % 32 != 0 || decide (1024 < l.unit)))
/-- The pass level rule of R139: the innermost depth of ENG 0 holds the only M level, with UNIT 1 and no W_STRIDE. -/
def passLevelBad (d : Desc) : Bool :=
  d.eng == 0 && (match d.levs.getLast? with
    | none => true
    | some l => l.dim != 1 || l.unit != 1 || l.st.getD 1 0 != 0 || (d.levs.dropLast).any fun x => x.dim == 1)
/-- A split level must be in ORDER, an output level, and an M level only as the square pass level of ENG 0 (R142). -/
def splitBad (d : Desc) (x : Option Nat) : Bool :=
  match x with
  | none => false
  | some e => match d.levs.find? fun l => l.e == e with
    | none => true
    | some l => l.dim == 3 || (l.dim == 1 && !(d.eng == 0 && !d.wide))
/-- ORDER is a permutation of distinct entries 0..5, and the depths at and beyond NLEV are 0. -/
def orderBad (d : Desc) : Bool :=
  let o := d.order.take d.nlev
  o.any (fun e => decide (5 < e)) || !(decide o.Nodup) || (d.order.drop d.nlev).any (· != 0)
/-- R140: the A_STRIDE and O_STRIDE of OY and OX levels must be 0. The spec names no REASON for it: the model gives that of the
dimension (log entry 60). -/
def blockStride (l : Lev) : Bool := (l.dim == 4 || l.dim == 5) && (l.st.getD 0 0 != 0 || l.st.getD 2 0 != 0)
/-- The first check of Table 6-6 that a descriptor fails: the REASON code of Table 6-12; 0 when it passes. Every operand in use, with
LIMIT not 0, has its planned buffer checked. -/
def descReason (d : Desc) (ac : Nat) (v : Ve) : Nat :=
  if d.resv then 2
  else if (8 ≤ d.aw ∧ d.aw ≤ 14) ∨ (d.eng ≤ 1 ∧ ((d.op 0).fmt ≠ (if d.aw = 15 then 16 else d.a + 7) ∨ (d.op 1).fmt ≠ d.w + 7)) then 9
  else if d.nlev = 0 ∨ 6 < d.nlev then 3
  else if orderBad d then 4
  else if (d.levs.any fun l => !((dimEngines l.dim).contains d.eng)) || (d.eng == 1 && d.wide) || d.levs.any blockStride then 5
  else if passLevelBad d then 6
  else if splitBad d d.split0 || splitBad d d.split1 then 7
  else if (enum d.levs 0).any fun p => unitBad d ac (d.eng == 0 && p.1 + 1 == d.nlev) p.2 then 8
  else if ((neededOps d v).any fun i => (d.op i).limit == 0) || ((List.range 4).any fun i => (d.op i).limit != 0 && !(bufferOk (d.op i))) then 10
  else 0

/-- LPD_CFG_INVALID with its reason (Table 6-12). -/
def cfgInvalid (k entry reason : Nat) (s : Dev) : Dev :=
  let info := 2 + entry % 64 * 2 ^ 5 + reason * 2 ^ 11
  s |> wrN (Reg.LPD_FAULT_INFO k) info |> faultCore k 0x0402 info

/-! ## The plan of a nest (R137, R142, R144) -/

/-- A level of the running nest: its entry, extent, planned count, and this core's part. -/
structure PLev where
  l : Lev
  ext : Nat
  cnt0 : Nat
  start : Nat
  cnt : Nat
  deriving DecidableEq, Repr
/-- `part` of R142: start and length of part `i` of `g`. -/
def partOf (cnt g i gran : Nat) : Nat × Nat :=
  let u := ceilDiv cnt gran
  let q := u / g
  let r := u % g
  let st := (i * q + min i r) * gran
  (st, min ((q + (if i < r then 1 else 0)) * gran) (cnt - st))
/-- The counts and extents of a level (R137). -/
def planLev (s : Dev) (k : Nat) (l : Lev) : PLev :=
  let ext := if l.shEn then rdN s (Reg.LPD_SHAPE k l.shSel) else l.bound * l.unit
  let cnt := if l.shEn then ceilDiv ext l.unit else l.bound
  ⟨l, ext, cnt, 0, cnt⟩
/-- Apply one split (R142). -/
def applySplit (d : Desc) (e : Option Nat) (g i : Nat) (ps : List PLev) : List PLev :=
  match e with
  | none => ps
  | some x => ps.map fun p =>
    if p.l.e = x then
      let r := partOf p.cnt0 g i (if d.eng = 0 ∧ ¬ d.wide ∧ p.l.dim = 1 then 32 else 1)
      { p with start := r.1, cnt := r.2 }
    else p
/-- The plan of a nest on core `k` under its grid. -/
def planOf (s : Dev) (k : Nat) (d : Desc) : List PLev :=
  let g := Reg.LPD_GRID k
  d.levs.map (planLev s k) |> applySplit d d.split0 (rf s g 0 7) (rf s g 14 6) |> applySplit d d.split1 (rf s g 7 7) (rf s g 20 6)
/-- The units that a level's iteration at global index `g` covers (R137). -/
def PLev.size (p : PLev) (g : Nat) : Nat := if g + 1 = p.cnt0 then p.ext - (p.cnt0 - 1) * p.l.unit else p.l.unit
/-- Index tuples of a nest in walk order: the last index runs fastest (R138). -/
def tuples : List Nat → List (List Nat)
  | [] => [[]]
  | c :: cs => (List.range c).flatMap fun i => (tuples cs).map fun t => i :: t
/-- One body of the walk: the plan with local and global indices. -/
structure Body where
  ps : List PLev
  idx : List Nat
  deriving DecidableEq, Repr
/-- Global index of a depth. -/
def Body.g (b : Body) (d : Nat) : Nat := (b.ps.getD d ⟨levOf (fun _ => 0) 0, 0, 0, 0, 0⟩).start + b.idx.getD d 0
/-- The levels of a body with depth. -/
def Body.levels (b : Body) : List (Nat × PLev) := enum b.ps 0
/-- The group offset of operand `op` (R138). -/
def Body.off (b : Body) (op : Nat) : Int :=
  b.levels.foldl (fun a p => a + (b.g p.1 : Int) * p.2.l.st.getD op 0) 0
/-- Whether a level's index produces accesses of operand `op`: by its stride, or as the OY or OX level that places the block in A and
O (R140). -/
def Lev.drives (l : Lev) (op : Nat) : Bool := l.st.getD op 0 != 0 || ((l.dim == 4 || l.dim == 5) && op % 2 == 0)
/-- The innermost depth whose index produces an access of operand `op` (Table 6-12). -/
def Desc.depthOf (d : Desc) (op : Nat) : Nat := (enum d.levs 0).foldl (fun a p => if p.2.drives op then p.1 else a) 0
/-- The same depth, seen from a body. -/
def Body.depthOf (b : Body) (op : Nat) : Nat := b.levels.foldl (fun a p => if p.2.l.drives op then p.1 else a) 0
/-- The units that the innermost level of a dimension covers in this body; `none` without such a level. -/
def Body.sizeOf (b : Body) (dim : Nat) : Option Nat :=
  b.levels.foldl (fun a p => if p.2.l.dim = dim then some (p.2.size (b.g p.1)) else a) none
/-- The tile number before the pixels of a block (R148). -/
def Body.tile (b : Body) (d : Desc) : Nat :=
  b.levels.foldl (fun a p =>
    if p.2.l.dim = 3 then a
    else if d.eng = 0 ∧ ¬ d.wide ∧ p.1 + 1 = d.nlev then a + b.idx.getD p.1 0 / 32 * p.2.l.tst
    else a + b.idx.getD p.1 0 * p.2.l.tst) d.tileBase

/-! ## Access and faults within a command (R146, R152) -/

/-- What ends a command before its work is done. -/
inductive NFlt where
  | shape (op : Nat) (ofs : Int) (depth : Nat)
  | bxExp
  | overflow
  | collide (tile depth : Nat)
  | invalid
  | noReach (x : NoReach)
  deriving DecidableEq, Repr
/-- Work that may meet a fault. -/
abbrev NR (α : Type) := Except NFlt α
/-- Do `f` when an access of the core is not answered with an error (R325, R331, R345). -/
def ifReached {α : Type} (x : Option NoReach) (f : NR α) : NR α :=
  match x with
  | some x => .error (.noReach x)
  | none => f
/-- Read a group through the checks of R146, R325 and R65. -/
def readGroup (k : Nat) (d : Desc) (op : Nat) (g : Int) (depth : Nat) (s : Dev) : NR Pip :=
  let o := d.op op
  if inBuffer o g then
    ifReached (groupRead s k o g.toNat) <|
      let p := rawGroup s k o g.toNat
      if fmtIsBx o.fmt ∧ p.e = 255 then .error .bxExp else .ok p
  else .error (.shape op g depth)
/-- Read `n` consecutive groups. -/
def readGroups (k : Nat) (d : Desc) (op : Nat) (g : Int) (depth : Nat) (s : Dev) : Nat → NR (List Pip)
  | 0 => .ok []
  | n + 1 => do
    let p ← readGroup k d op g depth s
    let ps ← readGroups k d op (g + 1) depth s n
    return p :: ps
/-- Write a group through the checks of R146 and R325. -/
def writeGroup (k : Nat) (o : Opnd) (g : Int) (depth : Nat) (p : Pip) (s : Dev) : NR Dev :=
  if inBuffer o g then ifReached (groupReach s k o g.toNat) (.ok (putGroup k o g.toNat p s)) else .error (.shape 2 g depth)
/-- Join flags to the task of a core (R75). -/
def addFlags (k : Nat) (f : NumFlags) (s : Dev) : Dev := modTask k (fun t => { t with flags := t.flags ||| f.code }) s
/-- End a command by a fault: the work of the command is discarded (R146) — `s0` is the device at the command's start —
and the task ends contained. -/
def endFault (k : Nat) (d : Desc) (f : NFlt) (s0 : Dev) : Dev :=
  match f with
  | .shape op ofs depth =>
    let info := 3 + op * 2 ^ 3 + d.entry * 2 ^ 5 + depth * 2 ^ 20
    s0 |> wrN (Reg.LPD_FAULT_INFO k) info |> wr64 (Reg.LPD_FAULT_OFS_LO k) (ofSigned ofs 40) |> faultCore k 0x0403 info
  | .bxExp => faultCore k 0x1100 0 s0
  | .overflow => tileOverflow k s0
  | .collide t depth => tileCollide k t depth s0
  | .invalid => cmdInvalid k s0
  | .noReach x => s0 |> reportReach x |> containCore k

/-! ## VE invocations and epilogues (R140, R150, R196) -/

/-- Read an operand's values as FP32, `n` groups from `g` on. -/
def readValues (k : Nat) (d : Desc) (op fmt : Nat) (g : Int) (depth n : Nat) (s : Dev) : NR (List Nat × NumFlags) := do
  let ps ← readGroups k { d with ops := d.ops.set op { d.op op with fmt } } op g depth s n
  return (ps.flatMap fun p => (valuesOf fmt p).1, ps.foldl (fun f p => f.or (valuesOf fmt p).2) {})
/-- FP32 vectors gamma and beta of `n` elements at AUX in core scratch. -/
def auxVec (s : Dev) (k a n i : Nat) : List Nat := (List.range n).map fun j => rdLE (.scr k) s (a + 4 * (n * i + j)) 4
/-- Write the results of an invocation, group by group, in the output format. -/
def writeOut (k : Nat) (d : Desc) (v : Ve) (g : Int) (depth : Nat) (vs : List Nat) (s : Dev) : NR Dev :=
  (List.range (ceilDiv vs.length 32)).foldlM (fun t i => do
    let r := vePack v (slice32 vs i)
    let t ← writeGroup k { d.op 2 with fmt := v.outFmt } (g + i) depth r.1 t
    return addFlags k r.2 t) s
/-- One invocation over A values (R196): X is read from `xg` when the function has a second input. -/
def invoke (k : Nat) (d : Desc) (v : Ve) (as : List Nat) (xg : Int) (xd : Nat) (og : Int) (od : Nat) (s : Dev) : NR (Dev × Nat) := do
  let n := as.length
  let xs ← if veBinary v.func then readValues k d 3 (d.op 3).fmt xg xd (ceilDiv n 32) s else pure ([], {})
  let r := veRun v as xs.1 (auxVec s k v.aux n 0) (auxVec s k v.aux n 1)
  let s ← writeOut k d v og od r.vals (addFlags k (xs.2.or r.fl) s)
  return (s, r.kept)
/-- The VE entry that a cove's package holds at `i`; none at or above NVE (R196). -/
def veOf (s : Dev) (cove i : Nat) : Option Ve :=
  if i < wpField s cove 10 2 then
    let v := veAt s (wpOf s cove + wpField s cove 28 4 + 32 * i)
    if veBad v then none else some v
  else none
/-- One MXINT8 block or one group through the VE (R79). -/
def mxGroup (k : Nat) (d : Desc) (g og : Int) (gd od : Nat) (s : Dev) : NR Dev :=
  let o := d.op 0
  if inBuffer o g then ifReached (groupRead s k { o with fmt := 15 } g.toNat) do
    let p := rawGroup s k { o with fmt := 15 } g.toNat
    let r := mxImport p.q p.e
    let s ← writeGroup k { d.op 2 with fmt := 15 } og od r.1 s
    return addFlags k r.2 s
  else .error (.shape 0 g gd)
/-- The values of a tile's row as FP32, one for each column. -/
def tileRow (t : Tile) (row : Nat) : List Nat :=
  (List.range t.cols).map fun n =>
    if t.wide then mget (fun _ => 0) t.vals (n / 1024 * 1024 + n % 1024) else mget (fun _ => 0) t.vals (n / 32 * 1024 + row * 32 + n % 32)
/-- The epilogue of a tile that became DONE (R150, R196): the VE reads it row by row in place of A, writes each row's results
at the row's O offset, and releases it when its entry says so. -/
def epilogue (k cove : Nat) (d : Desc) (tile : Nat) (s : Dev) : NR Dev :=
  if d.epi = 0xFFFF then .ok s
  else match veOf s cove d.epi, tileOf s k tile with
    | some v, some t => do
      let s ← t.outs.foldlM (fun s p => match p.2 with
        | none => pure s
        | some (og, xg) => do
          let r ← invoke k d v (tileRow t p.1) xg (d.depthOf 3) og (d.depthOf 2) s
          return r.1) s
      return s |> putTile k tile (if v.release then none else some { t with done := true, held := true, issued := false }) |> showTiles k
    | none, _ => .error .invalid
    | _, none => .ok s

/-! ## Matrix products (ENG 0; R139, R145, R149) -/

/-- The epilogue reads that have been issued are carried out, tile by tile (R150). -/
def drainTiles (k cove : Nat) (d : Desc) (s : Dev) : NR Dev :=
  (((coreOf s k).cx.tiles.filter fun x => match x.2 with | some t => t.done && t.issued | none => false).map (·.1)).foldlM
    (fun s t => epilogue k cove d t s) s
/-- The epilogue read of a tile that became DONE is issued; those before it have been carried out meanwhile. Without an epilogue the
tile is held (R150). -/
def issueRead (k cove : Nat) (d : Desc) (tile : Nat) (s : Dev) : NR Dev :=
  if d.epi = 0xFFFF then .ok s
  else do
    let s ← drainTiles k cove d s
    return match tileOf s k tile with
      | some t => putTile k tile (some { t with held := false, issued := true }) s
      | none => s
/-- The steps of R149: the state in which the pass may enter row 0. A pass whose tile is being read by its epilogue waits until that
read has released it. -/
def roomFor (k cove : Nat) (d : Desc) (p : Pass) (depth : Nat) (s : Dev) : NR Dev :=
  let verdict (s : Dev) : NR Dev := match tileCheck s k p with
    | .ok => .ok s
    | .overflow => .error .overflow
    | .wait | .collide => .error (.collide p.tile depth)
  if tileCheck s k p = .wait then do
    let s ← drainTiles k cove d (bump (Reg.LPD_TILE_WAIT_CNT k) 1 s)
    verdict s
  else verdict s
/-- Run a pass on the arrays: its tile checks, then its accumulator addition, then the epilogue read of a tile it made DONE. -/
def runPass (k cove : Nat) (d : Desc) (p : Pass) (adds : Bool) (depth : Nat) (s : Dev) : NR Dev := do
  let s ← roomFor k cove d p depth s
  let s := s |> openTile k p |> whenS adds (fun u => u |> bump64 (Reg.ARR_PASS_CNT_LO k) 1 |> showShape k p)
  let s := commitPass k (if adds then advance s k 32 p else p) adds s
  if p.last then issueRead k cove d p.tile s else return s
/-- Load a weight set of `rows` DPU rows into the active registers of every array (R93, R94): the groups lie in row, array,
column order from `g`. -/
def loadSet (k : Nat) (d : Desc) (rows : Nat) (g : Int) (depth : Nat) (s : Dev) : NR Dev := do
  let n := 32 * arraysOf k
  let ps ← readGroups k d 1 g depth s (rows * n)
  return forS (List.range 32) (fun r t =>
    let ws := if r < rows then (ps.drop (r * n)).take n else []
    putActive k r ws (ws.map parityOf) t) (modCore k (fun c => { c with stale := false, cx := { c.cx with wWidth := d.w } }) s)
/-- The bias of a pass's columns (R88). -/
def readBias (k : Nat) (d : Desc) (b : Body) (cols : Nat) (s : Dev) : NR (List Nat) :=
  if d.bias then do
    let r ← readValues k d 3 (d.op 3).fmt (b.off 3) (b.depthOf 3) (ceilDiv cols 32) s
    return r.1
  else .ok []
/-- One body of ENG 0 (R139): `prev` names the weight set that is active. Without a K level the set is full (log entry 14). With K = 0
(R89) the INIT values take the place of the passes; the model lets CARRY_IN and LEAVE_OPEN prevail over R89's INIT and DONE
(log entry 59). -/
def bodyMat (k cove : Nat) (d : Desc) (k0 : Bool) (b : Body) (prev : Option (List Nat)) (s : Dev) : NR (Dev × Option (List Nat)) := do
  let ac := arraysOf k
  let cols := (b.sizeOf 2).getD (if d.wide then 1024 * ac else 32 * ac)
  let kIt := (b.sizeOf 3).getD (if d.wide then 32 else 1024)
  let np := if d.wide then 1 else ceilDiv kIt 32
  let key := (b.levels.filter fun p => p.2.l.st.getD 1 0 != 0).map fun p => b.g p.1
  let s ← if k0 || prev == some key then pure s
    else loadSet k d (if d.wide then min 32 (ceilDiv cols 32) else np) (b.off 1) (b.depthOf 1) s
  let ks := b.levels.filter fun p => p.2.l.dim == 3
  let first := !d.carry && (k0 || ks.all fun p => b.idx.getD p.1 0 == 0)
  let lastK := !d.leave && (k0 || ks.all fun p => b.idx.getD p.1 0 + 1 == p.2.cnt)
  let m := b.idx.getD (d.nlev - 1) 0
  let cnt := (b.ps.getD (d.nlev - 1) ⟨levOf (fun _ => 0) 0, 0, 0, 0, 0⟩).cnt
  let init ← if first then readBias k d b cols s else pure []
  let acts ← if k0 then pure [] else readGroups k d 0 (b.off 0) (b.depthOf 0) s np
  let row := if d.wide then 0 else m % 32
  let last := lastK && (d.wide || m % 32 == 31 || m + 1 == cnt)
  let p : Pass := { wide := d.wide, a := d.a, w := d.w, acts, tile := b.tile d % 32, row, cols, first, init, last, out := b.off 2, xo := b.off 3 }
  let s ← runPass k cove d p (!k0) (d.nlev - 1) s
  return (s, some key)
/-- Fold the bodies of a nest. -/
def walkMat (k cove : Nat) (d : Desc) (k0 : Bool) (ps : List PLev) (s : Dev) : NR Dev := do
  let r ← (tuples (ps.map fun p => if k0 && p.l.dim == 3 then 1 else p.cnt)).foldlM
    (fun (x : Dev × Option (List Nat)) idx => bodyMat k cove d k0 ⟨ps, idx⟩ x.2 x.1) (s, none)
  drainTiles k cove d r.1

/-! ## VE nests (ENG 3; R140) -/

/-- One invocation of an ENG 3 nest. The kept counts add up over the command. -/
def bodyVe (k : Nat) (d : Desc) (v : Ve) (b : Body) (kept : Nat) (s : Dev) : NR (Dev × Nat) := do
  if v.func = 0x30 then
    let s ← (List.range (v.count / 32)).foldlM (fun t (i : Nat) => mxGroup k d (b.off 0 + i) (b.off 2 + i) (b.depthOf 0) (b.depthOf 2) t) s
    return (s, kept)
  else
    let as ← readValues k d 0 v.inFmt (b.off 0) (b.depthOf 0) (v.count / 32) s
    let r ← invoke k d v as.1 (b.off 3) (b.depthOf 3) (b.off 2) (b.depthOf 2) (addFlags k as.2 s)
    return (r.1, kept + r.2)
/-- Walk an ENG 3 nest; a count output goes to the shape register that the descriptor names (R144). -/
def walkVe (k : Nat) (d : Desc) (v : Ve) (ps : List PLev) (s : Dev) : NR Dev := do
  let r ← (tuples (ps.map (·.cnt))).foldlM (fun (x : Dev × Nat) idx => bodyVe k d v ⟨ps, idx⟩ x.2 x.1) (s, 0)
  return match d.shWr with
    | some i => wrN (Reg.LPD_SHAPE k i) r.2 r.1
    | none => r.1

/-! ## Running a nest (R133, R138, R145, R147) -/

/-- The descriptor that a NEST command names on core `k`: BASE + i of its cove's range (R131). -/
def nestEntry (s : Dev) (k : Nat) (t : Task) (c : Cmd) : Option Nat :=
  if c.nest < rf s (Reg.LPD_RANGE k t.cove) 6 7 then some ((rf s (Reg.LPD_RANGE k t.cove) 0 6 + c.nest) % 64) else none
/-- After a nest: no tile is the command's own any more. -/
def closeTiles (k : Nat) (s : Dev) : Dev :=
  modCore k (fun c => { c with cx := { c.cx with tiles := c.cx.tiles.map fun x => (x.1, x.2.map fun t => { t with own := false }) } }) s
/-- A command's work ends by its nest's outcome: counters of Table 6-9, status, or the fault. The arrays are drained; BUSY stays until
the command completes (R198). A command that ran beyond its plan counts even when it ends contained (R147). -/
def endNest (k : Nat) (d : Desc) (status : Nat) (ovr k0 : Bool) (s0 : Dev) (r : NR Dev) : Dev :=
  match r with
  | .error f => endFault k d f (whenS ovr (bump (Reg.LPD_OVERPLAN_CNT k) 1) s0)
  | .ok s =>
    s |> wf (Reg.ARR_STATUS k) 0 2 0 |> bump (Reg.LPD_CMD_CNT k) 1 |> whenS (status == 1) (bump (Reg.LPD_EMPTY_CNT k) 1) |> whenS k0 (bump (Reg.LPD_K0_CNT k) 1)
      |> whenS ovr (bump (Reg.LPD_OVERPLAN_CNT k) 1) |> closeTiles k |> finishCmd k status
/-- Whether some level's count exceeds its BOUND (R147). -/
def overPlan (ps : List PLev) : Bool := ps.any fun p => decide (p.l.bound < p.cnt0)
/-- LPD_STATUS of a command that starts (Table 6-10). -/
def showNest (k : Nat) (d : Desc) (s : Dev) : Dev :=
  s |> setB (Reg.LPD_STATUS k) 0 true |> wf (Reg.LPD_STATUS k) 1 6 d.entry |> wf (Reg.LPD_STATUS k) 7 2 d.eng
/-- Entry ECC at command start (R133): 0 none, 1 corrected, 2 uncorrected. True when the command proceeds. -/
def entryEcc (k entry ecc : Nat) (s : Dev) : Dev × Bool :=
  if ecc = 2 then
    let info := 1 + entry * 2 ^ 5
    (s |> bump16 (Reg.LPD_ECC_CNT k) 16 1 |> wrN (Reg.LPD_FAULT_INFO k) info |> faultCore k 0x0401 info, false)
  else if ecc = 1 then (s |> bump16 (Reg.LPD_ECC_CNT k) 0 1 |> raise 0x0400 k 0, true)
  else (s, true)
/-- The kind of nest that a NEST record names: its descriptor when the index lies in the cove's range. -/
def nestOf (s : Dev) (k : Nat) (t : Task) (c : Cmd) : Option Desc := (nestEntry s k t c).map (descOf s k)
/-- Start a nest (R152): range, entry ECC and descriptor checks, then `body` with the plan. -/
def runNest (k ecc : Nat) (t : Task) (c : Cmd) (body : Desc → List PLev → Dev → Dev) (s : Dev) : Dev :=
  match nestEntry s k t c with
  | none => cfgInvalid k c.nest 1 s
  | some e =>
    let d := descOf s k e
    let s := showNest k d s
    let x := entryEcc k e ecc s
    if !x.2 then x.1
    else
      let v := (veOf s t.cove d.epi).getD ⟨0, 0, 0, false, 0, 0, 0, 0, 0, false⟩
      match descReason d (arraysOf k) v with
      | 0 => if d.eng = 3 ∧ (veOf s t.cove d.epi).isNone then cmdInvalid k x.1 else body d (planOf s k d) x.1
      | r => cfgInvalid k e r x.1
/-- Whether the record is a NEST command whose descriptor has one of the engines; an index outside the range belongs to
every kind, so that whichever command is sent meets the check. -/
def isNest (s : Dev) (k : Nat) (engs : List Nat) (t : Task) (c : Cmd) : Bool :=
  c.type == 1 && (match nestOf s k t c with | none => true | some d => engs.contains d.eng)
/-- NEST_MATRIX_PRODUCT (R138, R139, R145). -/
def nestMatrixProduct (k ecc : Nat) (s : Dev) : Dev :=
  runCmd k (isNest s k [0]) (fun t c s => runNest k ecc t c (fun d ps s =>
    let ovr := overPlan ps
    if ps.any fun p => p.l.dim != 3 && p.cnt == 0 then endNest k d 1 ovr false s (.ok s)
    else
      let k0 := ps.any fun p => p.l.dim == 3 && p.cnt == 0
      endNest k d 0 ovr k0 s (walkMat k t.cove d k0 ps s)) s) s
/-- NEST_MATRIX_PRODUCT (R139): the matrix product that core `k`'s task is at; `ecc` is what reading its descriptor found. -/
def execNestMatrixProduct (k : Fin 64) (ecc : Fin 3) (s : State) : Result := onDev (nestMatrixProduct k ecc) s

/-- Run the VE nest that core `k`'s task is at when its function is `f` (R140, R196). -/
def veNest (k ecc f : Nat) (s : Dev) : Dev :=
  runCmd k (fun t c => isNest s k [3] t c && (match nestOf s k t c with
    | some d => (match veOf s t.cove d.epi with | some v => v.func == f | none => true)
    | none => true)) (fun t c s => runNest k ecc t c (fun d ps s =>
    let ovr := overPlan ps
    if ps.any fun p => p.cnt == 0 then endNest k d 1 ovr false s (.ok s)
    else match veOf s t.cove d.epi with
      | some v => endNest k d 0 ovr false s (walkVe k d v ps s)
      | none => cmdInvalid k s) s) s

/-! ## The oldest pass commits -/

/-- The cove and the descriptor of the NEST command that core `k`'s task is at. -/
def curNest (s : Dev) (k : Nat) : Option (Nat × Desc) :=
  match (coreOf s k).task with
  | none => none
  | some t =>
    let c := cmdAt s t.cove (cmdIndex s t)
    if c.type = 1 then (nestOf s k t c).map fun d => (t.cove, d) else none
/-- Do `f` for the NEST command that core `k`'s task is at; a fault ends it. -/
def withNest (k : Nat) (f : Nat → Desc → Dev → NR Dev) (s : Dev) : Dev :=
  match curNest s k with
  | none => s
  | some (cove, d) => match f cove d s with
    | .ok u => u
    | .error e => endFault k d e s
/-- A tile became DONE while the task's command is a NEST: its epilogue read is issued (R150). -/
def tileDone (k tile : Nat) (s : Dev) : Dev := withNest k (fun cove d => issueRead k cove d tile) s
/-- A pass enters row 0. Behind a pass of another shape its token stands still there (R98). -/
def enterPass (k : Nat) (p : Pass) (other : Bool) (s : Dev) : Dev :=
  let ps := (coreOf s k).passes ++ [p]
  s |> openTile k p |> modCore k (fun c => { c with passes := ps, stale := false }) |> bump64 (Reg.ARR_PASS_CNT_LO k) 1
    |> (if other then fun u => u |> bump (Reg.ARR_SWAP_STALL_CNT k) 1 |> setB (Reg.ARR_STATUS k) 2 true |> wf (Reg.ARR_STATUS k) 18 6 0
        else fun u => u |> showShape k p |> wf (Reg.ARR_STATUS k) 18 6 (tokenRow ps))
/-- PASS_ENTRY (R83, R98, R149): the tile steps come first, then the pass enters row 0. After a containment the first pass of the
next task carries a token (R104). A token pass of another shape than a pass ahead of it stands still at row 0, and none
overtakes it; a pass of another shape without a token does not enter. A pip with the reserved exponent is a fault of the
loader (R65). -/
def passEntry (k : Nat) (p : Pass) (s : Dev) : Dev :=
  let c := coreOf s k
  let other := c.passes.any fun q => !(q.sameShape p)
  let cur := (curNest s k).getD (0, descOf s k 0)
  if tokenStalled s k || (c.stale && p.tok == 32) then s
  else if other && p.tok == 32 then bump (Reg.ARR_SWAP_STALL_CNT k) 1 s
  else if p.acts.any fun x => x.e == 255 then faultCore k 0x1100 0 s
  else match roomFor k cur.1 cur.2 p (cur.2.nlev - 1) s with
    | .ok u => enterPass k p other u
    | .error f => endFault k cur.2 f s
/-- PASS_ENTRY (R83). -/
def execPassEntry (k : Fin 64) (p : PassIn) (s : State) : Result :=
  onDev (passEntry k (passOf p.wide p.a p.w p.acts p.tile p.row p.cols p.first p.init p.last p.out p.tok)) s
/-- After a commit the arrays drain, or the next pass proceeds: one that waited at row 0 for its shape is alone now (R98). FORM is
0 when the arrays are drained, and the width fields keep the last pass's codes (log entry 59). -/
def afterCommit (k : Nat) (p : Pass) (ps : List Pass) (s : Dev) : Dev :=
  match ps with
  | [] => wf (Reg.ARR_STATUS k) 0 2 0 s
  | q :: _ => if p.sameShape q then s else s |> setB (Reg.ARR_STATUS k) 2 false |> showShape k q
/-- PASS_COMMIT (R92): the oldest pass commits once its token has passed the array. A corrected or uncorrected accumulator error or an
upset of a weight register is its operand (R103); the parity of every weight that the pass used is checked. -/
def passCommit (k : Nat) (flt : ArrFlt) (s : Dev) : Dev :=
  match flt with
  | .eccUncorr arr tile => s |> bump16 (Reg.ARR_ECC_CNT k) 16 1 |> arrFault k 0x0201 1 (arr % 4) 0 (tile % 32)
  | .parity arr row => arrFault k 0x0202 2 (arr % 4) (row % 32) 0 s
  | .none | .eccCorr =>
    let s := if flt = .eccCorr then s |> bump16 (Reg.ARR_ECC_CNT k) 0 1 |> raise 0x0200 k 0 else s
    match (coreOf s k).passes with
    | [] => s
    | p :: ps =>
      if p.tok < 32 then s
      else match parityBad (coreOf s k).cx p.rows with
        | some x => arrFault k 0x0202 2 (x.1 % 4) (x.2 % 32) 0 s
        | none =>
          s |> commitPass k (advance s k 32 p) true |> modCore k (fun c => { c with passes := ps })
            |> afterCommit k p ps |> whenS p.last (tileDone k p.tile)
/-- PASS_COMMIT (R92). -/
def execPassCommit (k : Fin 64) (flt : ArrFlt) (s : State) : Result := onDev (passCommit k flt) s


end Sys2Proof.Machine
end

