-- ==== Sys2Proof/Machine/Window.lean ====
section
/-! DEFINITION. The window engine: convolution, pooling, argmax, the line buffer, reset and self-test (05). -/
set_option autoImplicit false
namespace Sys2Proof.Machine
open Sys2Proof

/-! ## The window descriptor (Table 5-1) and its geometry (R112 to R118) -/

/-- A window descriptor. -/
structure WinD where
  op : Nat
  fh : Nat
  fw : Nat
  sy : Nat
  sx : Nat
  dy : Nat
  dx : Nat
  bias : Bool
  plainOk : Bool
  maxOut : Bool
  hp : Nat
  wp : Nat
  cp : Nat
  div : Nat
  c : Nat
  partBase : Nat
  resv : Bool
  deriving DecidableEq, Repr
/-- The window descriptor at a core-scratch offset. -/
def winAt (s : Dev) (k a : Nat) : WinD :=
  let w (i : Nat) : Nat := rdLE (.scr k) s (a + 4 * i) 4
  { op := bits (w 0) 0 3, fh := bits (w 0) 3 5 + 1, fw := bits (w 0) 8 5 + 1, sy := bits (w 0) 13 3 + 1, sx := bits (w 0) 16 3 + 1,
    dy := bits (w 0) 19 3 + 1, dx := bits (w 0) 22 3 + 1, bias := bitOf (w 0) 25, plainOk := bitOf (w 0) 26, maxOut := bitOf (w 0) 27,
    hp := bits (w 1) 0 16, wp := bits (w 1) 16 16, cp := bits (w 2) 0 12, div := bits (w 2) 16 16, c := bits (w 3) 0 17,
    partBase := bits (w 4) 0 22,
    resv := bits (w 0) 28 4 != 0 || bits (w 2) 12 4 != 0 || bits (w 3) 17 15 != 0 || bits (w 4) 22 10 != 0 ||
      w 5 != 0 || w 6 != 0 || w 7 != 0 }
/-- F_eff (R112). -/
def feff (f d : Nat) : Nat := (f - 1) * d + 1
/-- The output extent on one axis (R112). -/
def extent (p fe st : Nat) : Nat := if fe ≤ p then (p - fe) / st + 1 else 0
/-- The output rows: argmax ignores F, S and D (R123). -/
def WinD.ho (w : WinD) : Nat := if w.op = 4 then w.hp else extent w.hp (feff w.fh w.dy) w.sy
/-- The output columns. -/
def WinD.wo (w : WinD) : Nat := if w.op = 4 then w.wp else extent w.wp (feff w.fw w.dx) w.sx
/-- `split` of R118 on one axis: (size, offset) of each part. -/
def splitAxis (f lim : Nat) : List (Nat × Nat) :=
  let np := ceilDiv f lim
  (List.range np).map fun i => (f / np + (if i < f % np then 1 else 0), i * (f / np) + min i (f % np))
/-- One part of a filter or window (R118). -/
structure WPart where
  hy : Nat
  wx : Nat
  oy : Nat
  ox : Nat
  deriving DecidableEq, Repr
/-- The parts in row-major order; the limit is 7 for convolutions and 8 for pooling. -/
def WinD.parts (w : WinD) : List WPart :=
  let lim := if w.op ≤ 1 then 7 else 8
  (splitAxis w.fh lim).flatMap fun y => (splitAxis w.fw lim).map fun x => ⟨y.1, x.1, y.2, x.2⟩
/-- An output block: rows y0..y1 and columns x0..x1. -/
structure WBlk where
  y0 : Nat
  y1 : Nat
  x0 : Nat
  x1 : Nat
  deriving DecidableEq, Repr
/-- Columns of a block. -/
def WBlk.cols (b : WBlk) : Nat := b.x1 + 1 - b.x0
/-- Pixels of a block. -/
def WBlk.pixels (b : WBlk) : Nat := (b.y1 + 1 - b.y0) * b.cols
/-- Pixel `m` of a block in row-major order. -/
def WBlk.pixel (b : WBlk) (m : Nat) : Nat × Nat := (b.y0 + m / b.cols, b.x0 + m % b.cols)
/-- First and last position on an axis of a body (R140): an absent level gives the full extent. -/
def axisOf (b : Body) (dim full : Nat) : Nat × Nat :=
  b.levels.foldl (fun a p =>
    if p.2.l.dim = dim then (b.g p.1 * p.2.l.unit, min ((b.g p.1 + 1) * p.2.l.unit) full - 1) else a) (0, full - 1)
/-- The output block of a body. -/
def blkOf (w : WinD) (b : Body) : WBlk :=
  let y := axisOf b 4 w.ho
  let x := axisOf b 5 w.wo
  ⟨y.1, y.2, x.1, x.2⟩
/-- Row slots of a part (R114). -/
def slotsOf (w : WinD) (p : WPart) : Nat := feff p.hy w.dy + min w.sy (feff p.hy w.dy)
/-- Columns of a kept row. -/
def usedCols (w : WinD) (p : WPart) (b : WBlk) : Nat := w.sx * (b.x1 - b.x0) + feff p.wx w.dx
/-- Bytes that a part needs in the line buffer (R114). -/
def lineBytes (a : Nat) (w : WinD) (p : WPart) (b : WBlk) : Nat := slotsOf w p * usedCols w p b * w.cp * (4 * a + 1)
/-- The input row and column of a tap of a part (R113, R118). -/
def inRow (w : WinD) (p : WPart) (y fy : Nat) : Nat := w.sy * y + (p.oy + fy) * w.dy
/-- The input column. -/
def inCol (w : WinD) (p : WPart) (x fx : Nat) : Nat := w.sx * x + (p.ox + fx) * w.dx

/-- WIN_CFG_INVALID (R110, Table 5-3) apart from the blocks. For nonzero reserved bits, HP or WP of 0, C above 65,536, a misaligned
WDESC or PART_BASE, an OP that does not suit ENG, and an input format that pooling or argmax does not take (R121, R123) the spec
names no event: the model gives WIN_CFG_INVALID (log entry 60). -/
def winBad (d : Desc) (w : WinD) : Bool :=
  w.resv || decide (4 < w.op) || (d.eng == 1 && decide (2 ≤ w.op)) || (d.eng == 2 && decide (w.op < 2)) ||
  w.hp == 0 || w.wp == 0 || (w.cp == 0 && w.op != 0) || (decide (2 ≤ w.op) && decide (w.op ≤ 3) && (w.dy != 1 || w.dx != 1)) ||
  (decide (2 ≤ w.op) && decide (w.op ≤ 3) && !(fmtIsBx (d.op 0).fmt)) || (w.op == 4 && (d.op 0).fmt == 3) ||
  decide (65536 < w.c) || d.wdesc % 32 != 0 || w.partBase % 256 != 0
/-- Whether a block lies outside the output extent. -/
def blkBad (w : WinD) (b : WBlk) : Bool := decide (w.ho ≤ b.y0) || decide (w.wo ≤ b.x0) || decide (b.y1 < b.y0) || decide (b.x1 < b.x0)

/-! ## Events (Tables 5-6 and 5-9) -/

/-- A contained event of a window engine with its WIN_FAULT_INFO. -/
def winFault (k bit ev slot row : Nat) (s : Dev) : Dev :=
  let info := ev + slot % 64 * 2 ^ 3 + row % 2 ^ 16 * 2 ^ 9
  s |> wrN (Reg.WIN_FAULT_INFO k) info |> faultCore k (0x0300 + bit) info

/-! ## Convolution (R116 to R120) -/

/-- What DPU row r of a pass receives: a filter tap and a channel pip. -/
structure Tap where
  fy : Nat
  fx : Nat
  p : Nat
  deriving DecidableEq, Repr
/-- The taps of an OP 0 part in the order of R116. -/
def convTaps (w : WinD) (p : WPart) : List Tap :=
  (List.range p.hy).flatMap fun fy => (List.range p.wx).flatMap fun fx => (List.range w.cp).map fun c => ⟨fy, fx, c⟩
/-- Channel groups that a depthwise pass serves (R120); groups at or beyond CP do not exist. -/
def depthGroups (w : WinD) (p : WPart) (ac g0 : Nat) : Nat :=
  if p.hy * p.wx ≤ 32 then min (min ac (32 / (p.hy * p.wx))) (w.cp - g0) else 1
/-- The taps of an OP 1 part from channel group `g0` on: group by group, taps in order. -/
def depthTaps (w : WinD) (p : WPart) (ac g0 : Nat) : List Tap :=
  (List.range (depthGroups w p ac g0)).flatMap fun a =>
    (List.range p.hy).flatMap fun fy => (List.range p.wx).map fun fx => ⟨fy, fx, g0 + a⟩
/-- Taps split into weight sets of 32 (R116, R120). -/
def setsOf : Nat → List Tap → List (List Tap)
  | 0, _ => []
  | _, [] => []
  | n + 1, t :: ts => (t :: ts).take 32 :: setsOf n ((t :: ts).drop 32)
/-- The first channel group of a body's column chunk (R120). -/
def firstGroup (b : Body) : Nat := b.levels.foldl (fun a p => if p.2.l.dim = 2 then b.g p.1 * p.2.l.unit / 32 else a) 0
/-- The weight sets of a part in order. -/
def partSets (w : WinD) (p : WPart) (ac : Nat) (b : Body) : List (List Tap) :=
  let ts := if w.op = 1 then depthTaps w p ac (firstGroup b) else convTaps w p
  setsOf ts.length ts
/-- The A group of a tap at output pixel (y, x) (R140). -/
def tapGroup (w : WinD) (p : WPart) (b : Body) (y x : Nat) (t : Tap) : Int :=
  b.off 0 + ((inRow w p y t.fy * w.wp * w.cp + inCol w p x t.fx * w.cp + t.p : Nat) : Int)
/-- Read the pips of a pass. -/
def readTaps (k : Nat) (d : Desc) (w : WinD) (p : WPart) (b : Body) (y x : Nat) (s : Dev) : List Tap → NR (List Pip)
  | [] => .ok []
  | t :: ts => do
    let q ← readGroup k d 0 (tapGroup w p b y x t) (b.depthOf 0) s
    let qs ← readTaps k d w p b y x s ts
    return q :: qs
/-- The columns of a body's chunk: N of this iteration; a depthwise pass covers its groups only (R120). -/
def convCols (w : WinD) (p : WPart) (ac : Nat) (b : Body) : Nat :=
  let n := (b.sizeOf 2).getD (32 * ac)
  if w.op = 1 then min n (32 * depthGroups w p ac (firstGroup b)) else n
/-- The passes of one weight set over the pixels of a block (R116, R119). -/
def runSet (k cove : Nat) (d : Desc) (w : WinD) (p : WPart) (b : Body) (blk : WBlk) (taps : List Tap) (firstSet lastSet : Bool)
    (s : Dev) : NR Dev := do
  let ac := arraysOf k
  let cols := convCols w p ac b
  let first := firstSet && !d.carry
  let init ← if first then readBias k d b cols s else pure []
  (List.range blk.pixels).foldlM (fun s m => do
    let yx := blk.pixel m
    let acts ← readTaps k d w p b yx.1 yx.2 s taps
    let last := lastSet && !d.leave && (m % 32 == 31 || m + 1 == blk.pixels)
    let out := b.off 2 + ((yx.1 * d.oRow + yx.2 * d.oPix : Nat) : Int)
    let q : Pass := { wide := false, a := d.a, w := d.w, acts, tile := (b.tile d + m / 32) % 32, row := m % 32, cols, first, init, last, out, xo := b.off 3 }
    runPass k cove d q (!taps.isEmpty) (d.nlev - 1) s) s
/-- The sets of a block, part after part, with the offset of each set's weights (R119, R140). -/
def runSets (k cove : Nat) (d : Desc) (w : WinD) (b : Body) (blk : WBlk) : List (WPart × List Tap) → Bool → Int → Dev → NR Dev
  | [], _, _, s => .ok s
  | (p, ts) :: rest, isFirst, g, s => do
    let s ← if ts.isEmpty then pure s else loadSet k d ts.length g (b.depthOf 1) s
    let s ← runSet k cove d w p b blk ts isFirst rest.isEmpty s
    runSets k cove d w b blk rest false (g + (ts.length * 32 * arraysOf k : Nat)) s
/-- One body of ENG 1: with CP = 0 every pixel writes its INIT values (R89, Table 5-3). -/
def bodyConv (k cove : Nat) (d : Desc) (w : WinD) (b : Body) (s : Dev) : NR Dev :=
  let sets := if w.cp = 0 then (w.parts.take 1).map fun p => (p, [])
    else w.parts.flatMap fun p => (partSets w p (arraysOf k) b).map fun ts => (p, ts)
  runSets k cove d w b (blkOf w b) sets true (b.off 1) s

/-! ## Pooling and argmax (R121 to R123) -/

/-- The larger of two values; the first is kept on a tie (R121). -/
def maxFirst (a b : Nat) : Nat := if lt32 a b then b else a
/-- A part's maximum and sum over its taps for one element, and the flags of the conversions and additions (Table 3-5). -/
structure Pooled where
  max : Nat := 0xFF800000
  sum : Nat := 0
  fl : NumFlags := {}
  deriving DecidableEq, Repr
/-- One part over its taps for channel pip `c` at (y, x), element by element. The maximum starts at −infinity, which is no operand
that the rule's flags report. -/
def poolPart (k : Nat) (d : Desc) (w : WinD) (p : WPart) (b : Body) (y x c : Nat) (s : Dev) : NR (List Pooled) :=
  ((List.range p.hy).flatMap fun fy => (List.range p.wx).map fun fx => (⟨fy, fx, c⟩ : Tap)).foldlM (fun acc t => do
    let q ← readGroup k d 0 (tapGroup w p b y x t) (b.depthOf 0) s
    let vs := valuesOf (d.op 0).fmt q
    return (enum acc 0).map fun e =>
      let v := vs.1.getD e.1 0
      let a := add32 e.2.sum v
      ⟨maxFirst e.2.max v, a.v, (e.2.fl.or vs.2).or a.fl⟩)
    (List.replicate 32 {})
/-- The divisor's reciprocal (R121). -/
def poolRcp (w : WinD) : Nat := (div32 0x3F800000 (ofInt32 (if w.div = 0 then w.fh * w.fw else w.div))).v
/-- A part's contribution: its maximum, or its rescaled sum (R122). -/
def poolVal (w : WinD) (e : Pooled) : Fr := if w.op = 2 then ⟨e.max, e.fl⟩ else (mul32 e.sum (poolRcp w)).with e.fl
/-- Combine two parts (R122). -/
def poolJoin (w : WinD) (a : Nat) (b : Fr) : Fr := if w.op = 2 then ⟨maxFirst a b.v, b.fl⟩ else (add32 a b.v).with b.fl
/-- The offset of an output pip in the partial buffer. -/
def partAddr (w : WinD) (m c : Nat) : Nat := w.partBase + 128 * (m * w.cp + c)
/-- One pip of one pixel for part `i` of `n`: the first part writes the partial buffer, later ones read and update it, and
the last one sends its results through the VE and leaves the buffer as it is (R122). -/
def poolPip (k : Nat) (d : Desc) (w : WinD) (b : Body) (blk : WBlk) (i n : Nat) (p : WPart) (m c : Nat) (s : Dev) : NR Dev := do
  let yx := blk.pixel m
  let r ← poolPart k d w p b yx.1 yx.2 c s
  let a := partAddr w m c
  if 1 < n ∧ scrBytes < a + 128 then .error (.shape 2 ((a / 128 : Nat) : Int) 0)
  else
    let old := (List.range 32).map fun j => rdLE (.scr k) s (a + 4 * j) 4
    let vs := Frs.of ((enum r 0).map fun e => if i = 0 then poolVal w e.2 else poolJoin w (old.getD e.1 0) (poolVal w e.2))
    let s := addFlags k vs.fl s
    if i + 1 < n then return wrBytes (.scr k) a (vs.vs.flatMap (leBytes 4)) s
    else
      let q := packValues (d.op 2).fmt vs.vs
      let s ← writeGroup k (d.op 2) (b.off 2 + ((yx.1 * d.oRow + yx.2 * d.oPix + c : Nat) : Int)) (b.depthOf 2) q.1 s
      return addFlags k q.2 s
/-- One body of a pooling command: part after part over the pixels and pips of the block. -/
def bodyPool (k : Nat) (d : Desc) (w : WinD) (b : Body) (s : Dev) : NR Dev :=
  let blk := blkOf w b
  (enum w.parts 0).foldlM (fun s ip =>
    (List.range blk.pixels).foldlM (fun s m => (List.range w.cp).foldlM (fun s c =>
      poolPip k d w b blk ip.1 w.parts.length ip.2 m c s) s) s) s
/-- The argmax scan (R123). -/
def argmaxScan : List Nat → Nat × Nat
  | [] => (0, 0)
  | x :: xs => (enum xs 1).foldl (fun r e =>
      if !(isNan32 e.2) && (isNan32 r.2 || lt32 r.2 e.2) then (e.1, e.2) else r) (0, x)
/-- One pixel of argmax: the index to the output plane, two bytes per pixel in pixel order, and the maximum with MAXOUT. R140 gives the
pixel's group by the output pitches, R123 its place in pixel order: the model adds the two, and pitches of 0 give the plain
plane (log entry 60). -/
def argmaxPixel (k : Nat) (d : Desc) (w : WinD) (b : Body) (y x : Nat) (s : Dev) : NR Dev := do
  let g := b.off 0 + ((y * w.wp * w.cp + x * w.cp : Nat) : Int)
  let r ← readValues k d 0 (d.op 0).fmt g (b.depthOf 0) (ceilDiv w.c 32) s
  let vs := r.1.take w.c
  let best := argmaxScan vs
  let n := y * w.wo + x
  let og := b.off 2 + ((y * d.oRow + x * d.oPix + n / 32 : Nat) : Int)
  let s := addFlags k (r.2.or { nonfin := vs.any fun v => (nonfinOf v).nonfin }) s
  if inBuffer (d.op 2) og then ifReached (groupReach s k (d.op 2) og.toNat) <|
    let s := wrLE (spaceOf k (d.op 2).sp) (groupAddr (d.op 2) og.toNat + 2 * (n % 32)) 2 best.1 s
    if w.maxOut then
      if scrBytes < w.partBase + 4 * n + 4 then .error (.shape 2 ((n / 32 : Nat) : Int) 0)
      else return wrLE (.scr k) (w.partBase + 4 * n) 4 (enc32 (dec32 best.2)).v s
    else return s
  else .error (.shape 2 og (b.depthOf 2))
/-- One body of an argmax command. -/
def bodyArgmax (k : Nat) (d : Desc) (w : WinD) (b : Body) (s : Dev) : NR Dev :=
  let blk := blkOf w b
  (List.range blk.pixels).foldlM (fun s m => argmaxPixel k d w b (blk.pixel m).1 (blk.pixel m).2 s) s

/-! ## The commands -/

/-- The bodies of a nest with their indices. -/
def bodiesOf (ps : List PLev) : List Body := (tuples (ps.map (·.cnt))).map fun idx => ⟨ps, idx⟩
/-- The largest line-buffer need over parts and blocks (R114). -/
def lineNeed (d : Desc) (w : WinD) (bs : List Body) : Nat :=
  (bs.flatMap fun b => w.parts.map fun p => lineBytes d.a w p (blkOf w b)).foldl max 0
/-- Run one engine body. -/
def weBody (k cove : Nat) (d : Desc) (w : WinD) (b : Body) (s : Dev) : NR Dev :=
  if w.op ≤ 1 then bodyConv k cove d w b s else if w.op ≤ 3 then bodyPool k d w b s else bodyArgmax k d w b s
/-- Whether output row `y` reads input row `r` in a part (R113). -/
def rowReads (w : WinD) (p : WPart) (y r : Nat) : Bool := (List.range p.hy).any fun fy => inRow w p y fy == r
/-- Whether some output row y..y1 reads input row `r`. -/
def rowNeeded (w : WinD) (p : WPart) (y y1 r : Nat) : Bool := (List.range (y1 + 1 - y)).any fun i => rowReads w p (y + i) r
/-- The input rows that the loader sends for a part and no output row of the block reads (R113). -/
def discarded (w : WinD) (p : WPart) (b : WBlk) : Nat :=
  let r0 := inRow w p b.y0 0
  ((List.range (inRow w p b.y1 (p.hy - 1) + 1 - r0)).filter fun i => !(rowNeeded w p b.y0 b.y1 (r0 + i))).length
/-- The rows that a command discards: every part's rows are sent once for each of its weight sets; argmax uses no line buffer. -/
def discardedBy (k : Nat) (w : WinD) (bs : List Body) : Nat :=
  if w.op = 4 then 0
  else sumN (bs.flatMap fun b => w.parts.map fun p => (if w.op ≤ 1 then (partSets w p (arraysOf k) b).length else 1) * discarded w p (blkOf w b))
/-- What a WE command shows (Table 5-7): its OP and its last part; the plain path shows nothing. -/
def weBegin (k : Nat) (plain : Bool) (d : Desc) (w : WinD) (bs : List Body) (s : Dev) : Dev :=
  whenS (!plain) (fun s => s |> bump (Reg.WIN_CMD_CNT k) 1 |> setB (Reg.WIN_STATUS k) 2 true |> wf (Reg.WIN_STATUS k) 3 3 w.op
    |> wf (Reg.WIN_STATUS k) 14 5 (if w.op = 4 then 0 else w.parts.length - 1) |> bump (Reg.WIN_ROW_DISCARD_CNT k) (discardedBy k w bs)
    |> wrN (Reg.WIN_LB_USE k) (if w.op = 4 then 0 else ((bs.getLast?.map fun b => (w.parts.getLast?.map fun p => lineBytes d.a w p (blkOf w b)).getD 0).getD 0))) s
/-- The bodies of a WE command, in order, and the epilogue reads that are left. -/
def weWalk (k cove : Nat) (plain : Bool) (d : Desc) (w : WinD) (bs : List Body) (s : Dev) : NR Dev := do
  let s ← bs.foldlM (fun s b => weBody k cove d w b s) (weBegin k plain d w bs s)
  drainTiles k cove d s
/-- What the checks at the start of a WE command find (R110, R112, R114, R152). -/
inductive WeStart where
  | initMismatch
  | cfgInvalid
  | empty
  | lbOver
  | run
  deriving DecidableEq, Repr
/-- The checks in the order of Table 6-6; on the plain path the line buffer takes no part. -/
def weStart (plain : Bool) (d : Desc) (w : WinD) (ps : List PLev) : WeStart :=
  if d.eng = 1 ∧ w.bias ≠ d.bias then .initMismatch
  else if winBad d w then .cfgInvalid
  else if (ps.any fun p => p.cnt == 0) || w.ho == 0 || w.wo == 0 || (w.op == 4 && w.c == 0) then .empty
  else if (bodiesOf ps).any fun b => blkBad w (blkOf w b) then .cfgInvalid
  else if !plain && w.op != 4 && decide (524288 < lineNeed d w (bodiesOf ps)) then .lbOver
  else .run
/-- The checks and the run of a WE command. -/
def weRun (k cove : Nat) (plain : Bool) (d : Desc) (ps : List PLev) (s : Dev) : Dev :=
  let w := winAt s k d.wdesc
  let ovr := overPlan ps
  match weStart plain d w ps with
  | .initMismatch => cfgInvalid k d.entry 11 s
  | .cfgInvalid => winFault k 3 3 0 0 s
  | .empty => endNest k d 1 ovr false s (.ok (whenS (!plain) (bump (Reg.WIN_CMD_CNT k) 1) s))
  | .lbOver => winFault k 4 4 0 0 s
  | .run => endNest k d 0 ovr (d.eng == 1 && w.cp == 0) s (weWalk k cove plain d w (bodiesOf ps) s)
/-- Whether core `k`'s window engine accepts commands (R127, R128). -/
def weReady (s : Dev) (k : Nat) : Bool :=
  tst s (Reg.WIN_STATUS k) 1 && !(tst s (Reg.WIN_STATUS k) 6) && !(isSCore k)
/-- Whether the record is a WE command of an OP that this kind of command runs; a descriptor that cannot be told belongs to
every kind. -/
def isWin (s : Dev) (k eng op : Nat) (t : Task) (c : Cmd) : Bool :=
  isNest s k [eng] t c && (match nestOf s k t c with
    | some d => (winAt s k d.wdesc).op == op || winBad d (winAt s k d.wdesc)
    | none => true)
/-- Run the WE command that core `k`'s task is at when its OP is `op`; it waits while the engine is not ready (R125). -/
def winCmd (k ecc eng op : Nat) (s : Dev) : Dev :=
  runCmd k (fun t c => weReady s k && isWin s k eng op t c) (fun t c s => runNest k ecc t c (fun d ps s => weRun k t.cove false d ps s) s) s
/-- WIN_CONV (R116). -/
def execWinConv (k : Fin 64) (ecc : Fin 3) (s : State) : Result := onDev (winCmd k ecc 1 0) s
/-- WIN_DEPTHWISE_CONV (R120). -/
def execWinDepthwiseConv (k : Fin 64) (ecc : Fin 3) (s : State) : Result := onDev (winCmd k ecc 1 1) s
/-- WIN_MAX_POOL (R121). -/
def execWinMaxPool (k : Fin 64) (ecc : Fin 3) (s : State) : Result := onDev (winCmd k ecc 2 2) s
/-- WIN_AVERAGE_POOL (R122). -/
def execWinAveragePool (k : Fin 64) (ecc : Fin 3) (s : State) : Result := onDev (winCmd k ecc 2 3) s
/-- WIN_ARGMAX (R123). -/
def execWinArgmax (k : Fin 64) (ecc : Fin 3) (s : State) : Result := onDev (winCmd k ecc 2 4) s
/-- PLAIN_PATH_CONV (R125): a PLAIN_OK convolution of a 1×1 filter while the WE is held in reset. -/
def plainPathConv (k ecc : Nat) (s : Dev) : Dev :=
  runCmd k (fun t c => tst s (Reg.WIN_STATUS k) 0 && isWin s k 1 0 t c && (match nestOf s k t c with
    | some d => let w := winAt s k d.wdesc
      w.plainOk && w.fh == 1 && w.fw == 1
    | none => false)) (fun t c s => runNest k ecc t c (fun d ps s => weRun k t.cove true d ps s) s) s
/-- PLAIN_PATH_CONV (R125). -/
def execPlainPathConv (k : Fin 64) (ecc : Fin 3) (s : State) : Result := onDev (plainPathConv k ecc) s

/-! ## The line buffer and the window register (R113, R115, R117) -/

/-- The convolution or pooling command that a core's task is at, when its checks let it run: descriptor, window descriptor, body and
block `blk`, and part `part`. -/
def weGeom (s : Dev) (k blk part : Nat) : Option (Desc × WinD × Body × WBlk × WPart) :=
  match curNest s k with
  | none => none
  | some (_, d) =>
    let w := winAt s k d.wdesc
    if (d.eng = 1 ∨ d.eng = 2) ∧ w.op ≠ 4 ∧ weStart false d w (planOf s k d) = .run then
      match (bodiesOf (planOf s k d))[blk]?, w.parts[part]? with
      | some b, some p => some (d, w, b, blkOf w b, p)
      | _, _ => none
    else none
/-- Change a core's window engine. -/
def modWe (k : Nat) (f : We → We) (s : Dev) : Dev := modCore k (fun c => { c with cx := { c.cx with we := f c.cx.we } }) s
/-- Occupied slots (Table 5-7). -/
def showSlots (k : Nat) (s : Dev) : Dev := wf (Reg.WIN_STATUS k) 8 6 (coreOf s k).cx.we.slots.length s
/-- The block, part and set in progress, of activation width `a`; a new one finds every slot released (R115). -/
def atSet (k a blk part set : Nat) (bytes : Nat) (s : Dev) : Dev :=
  if (coreOf s k).cx.we.at_ = some ⟨blk, part, set⟩ then s
  else s |> modWe k (fun e => { e with at_ := some ⟨blk, part, set⟩, slots := [], slotOf := [], written := 0, a })
    |> wf (Reg.WIN_STATUS k) 14 5 part |> wrN (Reg.WIN_LB_USE k) bytes |> showSlots k
/-- The pips of one input row over the block's columns. -/
def readLine (k : Nat) (d : Desc) (w : WinD) (p : WPart) (b : Body) (blk : WBlk) (row : Nat) (s : Dev) : NR (List Pip) :=
  readGroups k d 0 (b.off 0 + ((row * w.wp * w.cp + inCol w p blk.x0 0 * w.cp : Nat) : Int)) (b.depthOf 0) s (usedCols w p blk * w.cp)
/-- The row that the loader sends next for a part of a block: the first one, or the one after the last (R113). -/
def nextInput (w : WinD) (p : WPart) (b : WBlk) (e : We) : Nat := max (inRow w p b.y0 0) e.written
/-- LINE_BUFFER_ROW_WRITE (R113, R115): the loader writes input row `row` for a block, part and set, in increasing order (a row out of
order leaves the state as it is, log entry 2); a row that no output row reads is discarded, and a write that finds no released
slot waits. -/
def lineBufferRowWrite (k blk part set row : Nat) (s : Dev) : Dev :=
  if !(weReady s k) then s
  else match weGeom s k blk part with
    | none => s
    | some (d, w, b, bl, p) =>
      let s := atSet k d.a blk part set (lineBytes d.a w p bl) s
      let e := (coreOf s k).cx.we
      if row ≠ nextInput w p bl e ∨ inRow w p bl.y1 (p.hy - 1) < row then s
      else if !(rowNeeded w p bl.y0 bl.y1 row) then s |> bump (Reg.WIN_ROW_DISCARD_CNT k) 1 |> modWe k fun e => { e with written := row + 1 }
      else match (List.range (slotsOf w p)).find? fun i => (mget (fun _ => none) e.slots i).isNone with
        | none => bump (Reg.WIN_LB_STALL_CNT k) 1 s
        | some i => match readLine k d w p b bl row s with
          | .error f => endFault k d f s
          | .ok ps => s |> modWe k (fun e => { e with slots := mset (fun _ => none) e.slots i (some ⟨row, ps⟩), slotOf := mset (fun _ => 0) e.slotOf row i, written := row + 1 }) |> showSlots k
/-- LINE_BUFFER_ROW_WRITE (R115). -/
def execLineBufferRowWrite (k : Fin 64) (blk part set row : Nat) (s : State) : Result :=
  onDev (lineBufferRowWrite k blk part set row) s

/-- The row slot that holds an input row. -/
def slotWith (e : We) (row : Nat) : Option (Nat × LineRow) :=
  e.slots.findSome? fun x => match x.2 with
    | some l => if l.row = row then some (x.1, l) else none
    | none => none
/-- The slots that no output row from `y` on reads are released (R115). -/
def releaseSlots (w : WinD) (p : WPart) (y y1 : Nat) (e : We) : We :=
  { e with slots := e.slots.filter fun x => match x.2 with | some l => rowNeeded w p y y1 l.row | none => false }
/-- The pips of a pass go into the halves of the window register, 32 at a time, the next half first (R109, R117). A reduction takes its
window in as many turns as it needs. -/
def fillHalves : Nat → List Pip → We → We
  | 0, _, e => e
  | n + 1, ps, e =>
    let e := { e with win := mset (fun _ => []) e.win e.half (ps.take 32), half := 1 - e.half }
    if ps.length ≤ 32 then e else fillHalves n (ps.drop 32) e
/-- WINDOW_GATHER (R117, R128): the pips of pixel `m` of the set in progress are gathered into the next half of the window
register. A pass whose rows are missing is a bubble; a gather of a row that was written and released is WIN_SEQ_ERR. -/
def windowGather (k m : Nat) (flt : WinFlt) (s : Dev) : Dev :=
  let e := (coreOf s k).cx.we
  match (if weReady s k then e.at_ else none) with
  | none => s
  | some at_ => match weGeom s k at_.blk at_.part with
    | none => s
    | some (_, w, b, bl, p) =>
      let s := if flt = .eccCorr then s |> bump16 (Reg.WIN_ECC_CNT k) 0 1 |> raise 0x0300 k 0 else s
      match flt with
      | .eccUncorr slot row => s |> bump16 (Reg.WIN_ECC_CNT k) 16 1 |> winFault k 1 1 slot row
      | .parity slot => winFault k 2 2 slot 0 s
      | .none | .eccCorr =>
        let yx := bl.pixel m
        let taps := (if w.op ≤ 1 then partSets w p (arraysOf k) b else [convTaps w p]).getD at_.set []
        let rows := taps.map fun t => inRow w p yx.1 t.fy
        if bl.pixels ≤ m then s
        else if rows.any fun r => decide (e.written ≤ r) then bump (Reg.ARR_BUBBLE_CNT k) 1 s
        else match rows.find? fun r => (slotWith e r).isNone with
          | some r => s |> winFault k 5 5 (mget (fun _ => 0) e.slotOf r) r |> setB (Reg.WIN_STATUS k) 6 true
          | none =>
            let ps := taps.map fun t => match slotWith e (inRow w p yx.1 t.fy) with
              | some x => x.2.pips.getD ((inCol w p yx.2 t.fx - inCol w p bl.x0 0) * w.cp + t.p) zeroPip
              | none => zeroPip
            let e1 := fillHalves ps.length ps e
            let e2 := if yx.2 = bl.x1 then releaseSlots w p (yx.1 + 1) bl.y1 e1 else e1
            s |> modWe k (fun _ => e2) |> showSlots k
/-- WINDOW_GATHER (R117). -/
def execWindowGather (k : Fin 64) (m : Nat) (flt : WinFlt) (s : State) : Result := onDev (windowGather k m flt) s

/-! ## Reset (R127) and self-test (R129) -/

/-- WIN_CTRL.HOLD_RESET = 1: a hold is requested; during a release it stops the release. -/
def winHoldReset (k : Nat) (s : Dev) : Dev :=
  if isSCore k then s
  else s |> setB (Reg.WIN_CTRL k) 0 true |> modCore k (fun c => { c with weHold := !(tst s (Reg.WIN_STATUS k) 0), weRel := false })
/-- WIN_HOLD_RESET (R127). -/
def execWinHoldReset (k : Fin 64) (s : State) : Result := onDev (winHoldReset k) s
/-- WIN_CTRL.HOLD_RESET = 0: a held engine starts its release, unless it is releasing already; a hold not yet in effect is
withdrawn. -/
def winRelease (k : Nat) (s : Dev) : Dev :=
  if isSCore k then s
  else
    let go := tst s (Reg.WIN_STATUS k) 0 && !(coreOf s k).weRel
    s |> setB (Reg.WIN_CTRL k) 0 false |> modCore k (fun c => { c with weRel := c.weRel || go, weHold := false })
      |> whenS go (bump (Reg.WIN_RESET_CNT k) 1)
/-- WIN_RELEASE (R127). -/
def execWinRelease (k : Fin 64) (s : State) : Result := onDev (winRelease k) s
/-- WE_RESET_ENTER: the hold takes effect when the engine is idle; the line buffer and window register lose their rows. The action
WE_RESET then releases it. -/
def weResetEnter (k : Nat) (s : Dev) : Dev :=
  if (coreOf s k).weHold && !(tst s (Reg.WIN_STATUS k) 2) then
    s |> modCore k (fun c => { c with weHold := false, weRel := false, cx := { c.cx with we := {} } })
      |> wrN (Reg.WIN_STATUS k) 1 |> whenS (acting s 1 k) (winRelease k)
  else s
/-- WE_RESET_ENTER (R127). -/
def execWeResetEnter (k : Fin 64) (s : State) : Result := onDev (weResetEnter k) s
/-- WE_RELEASE_DONE: 2,080 cycles after the release the engine is READY. -/
def weReleaseDone (k : Nat) (s : Dev) : Dev :=
  if (coreOf s k).weRel then
    s |> modCore k (fun c => { c with weRel := false, cx := { c.cx with we := {} } })
      |> setB (Reg.WIN_STATUS k) 0 false |> setB (Reg.WIN_STATUS k) 1 true |> endActions 1 k 1
  else s
/-- WE_RELEASE_DONE (R127). -/
def execWeReleaseDone (k : Fin 64) (s : State) : Result := onDev (weReleaseDone k) s
/-- WIN_CTRL.BIST_START (R129, Table 5-5): ignored with REFUSED while the core belongs to a running cove. -/
def winBistStart (k : Nat) (s : Dev) : Dev :=
  if isSCore k then s
  else if coreInRunning s k then setB (Reg.WIN_BIST_STATUS k) 4 true s
  else s |> setB (Reg.WIN_BIST_STATUS k) 4 false |> setB (Reg.WIN_BIST_STATUS k) 0 true
/-- WIN_BIST_START (R129). -/
def execWinBistStart (k : Fin 64) (s : State) : Result := onDev (winBistStart k) s
/-- WE_BIST_DONE (R129): `step` is the first failing step, 0 for a pass; a failure fails the core. -/
def weBistDone (k step us : Nat) (s : Dev) : Dev :=
  let b := Reg.WIN_BIST_STATUS k
  if !(tst s b 0) || !(domRuns s k) then s
  else s |> setB b 0 false |> setB b 1 true |> wf b 2 2 step |> wf b 16 16 us
    |> whenS (step % 4 != 0) (fun s => s |> failCore k |> raise 0x0306 k 0) |> bistEnd k
/-- WE_BIST_DONE (R129). -/
def execWeBistDone (k : Fin 64) (step : Fin 4) (us : Nat) (s : State) : Result := onDev (weBistDone k step us) s

end Sys2Proof.Machine
end

