-- ==== Sys2Proof/Machine/Coves.lean ====
section
/-! DEFINITION. Coves and work packages, placement, turns and switches, command and task ends (08). -/
set_option autoImplicit false
namespace Sys2Proof.Machine
open Sys2Proof

/-! ## Coves (R189 to R194) -/

/-- What a cove keeps beside its registers. -/
def coveOf (s : Dev) (c : Nat) : Cove := mget (fun _ => {}) s.coves c
/-- Change it. -/
def modCove (c : Nat) (f : Cove → Cove) (s : Dev) : Dev := { s with coves := mset (fun _ => {}) s.coves c (f (coveOf s c)) }
/-- Change the figures of the tide. -/
def modStat (c : Nat) (f : TideStat → TideStat) (s : Dev) : Dev := modCove c (fun v => { v with stat := f v.stat }) s
/-- Enter a cove state; SCH_STATUS shows RUN, and HOLD or FAULT (Tables 8-7, 8-10). -/
def setCoveState (c st : Nat) (s : Dev) : Dev :=
  s |> wf (Reg.SCH_COVE_STATE c) 0 3 st |> setB Reg.SCH_STATUS c (st == 2) |> setB Reg.SCH_STATUS (8 + c) (st == 5 || st == 6)
/-- Whether a cove serves jobs: RUN, or STOPPING while it finishes one. -/
def serves (s : Dev) (c : Nat) : Bool := coveState s c == 2 || coveState s c == 3
/-- Whether a cove is a sequence cove. -/
def isSeqCove (s : Dev) (c : Nat) : Bool := tst s (Reg.SCH_COVE_CFG c) 0
/-- Cores of a cove, ascending. -/
def coresOf (s : Dev) (c : Nat) : List Nat := (List.range 64).filter (inCove s c)
/-- Whether core `k` is of the kind that KIND_REQ names (R190): 0 ANY, 1 V, 2 S. -/
def kindFits (kind k : Nat) : Bool := match kind with
  | 0 => true
  | 1 => !(isSCore k)
  | _ => isSCore k
/-- Whether a core has failed its self-test (R106). -/
def coreFailed (s : Dev) (k : Nat) : Bool := tst s (Reg.ARR_STATUS k) 10
/-- The cores of a cove's set that have not failed (R190). -/
def sound (s : Dev) (c : Nat) : List Nat := (coresOf s c).filter fun k => !(coreFailed s k)
/-- The eligible cores of a kind, ascending: those of the cove's start (R107, R191) that have not failed since. -/
def eligible (s : Dev) (c kind : Nat) : List Nat := (coveOf s c).elig.filter fun k => kindFits kind k && !(coreFailed s k)
/-- KIND_REQ of a stage. -/
def stageKind (s : Dev) (c i : Nat) : Nat := rdLE .dram s (stageAt s c i) 1 % 4
/-- SLOT_AXIS of a stage. -/
def stageAxis (s : Dev) (c i : Nat) : Nat := rdLE .dram s (stageAt s c i) 1 / 4 % 4
/-- EXPORT of a stage. -/
def stageExport (s : Dev) (c i : Nat) : Nat := rdLE .dram s (stageAt s c i + 6) 2
/-- n_elig of a stage, as fixed when the cove started. -/
def nElig (s : Dev) (c i : Nat) : Nat := ((coveOf s c).elig.filter (kindFits (stageKind s c i))).length
/-- The grid entry of a stage for `n` eligible cores: G0, G1 and EST × 64 (R194). -/
def gridOf (s : Dev) (c i n : Nat) : Nat × Nat × Nat :=
  let w := rdLE .dram s (stageAt s c i + 16 + 4 * (n - 1)) 4
  (bits w 0 6 + 1, bits w 6 6 + 1, bits w 12 20 * 64)
/-- Tasks of a stage. -/
def stageTasks (s : Dev) (c i : Nat) : Nat := (gridOf s c i (nElig s c i)).1 * (gridOf s c i (nElig s c i)).2.1
/-- Stages of a package. -/
def nStages (s : Dev) (c : Nat) : Nat := wpField s c 7 1
/-- ENG of loop descriptor `i` of a package. -/
def pkgEng (s : Dev) (c i : Nat) : Nat := rdLE .dram s (wpOf s c + wpField s c 24 4 + 256 * i) 1 % 4
/-- Whether command record `i` suits a stage of a kind (R193): attention needs S, the window engine needs V. -/
def cmdFits (s : Dev) (c kind i : Nat) : Bool :=
  let x := cmdAt s c i
  (x.type != 2 || kind == 2) &&
    (x.type != 1 || !(decide (x.nest < wpField s c 12 1) && (pkgEng s c x.nest == 1 || pkgEng s c x.nest == 2)) || kind == 1)
/-- Whether stage `i` passes the check of R193. -/
def stageOk (s : Dev) (c i : Nat) : Bool :=
  stageKind s c i != 3 && (List.range (cmdCount s c i)).all fun j => cmdFits s c (stageKind s c i) (rdLE .dram s (stageAt s c i + 2) 2 + j)
/-- The package check of R193. -/
def wpOk (s : Dev) (c : Nat) : Bool :=
  let f := wpField s c
  let fits (ofs n : Nat) : Bool := decide (wpOf s c + ofs + n ≤ dramBytes)
  f 0 4 == 0x0057504B && f 4 2 == 1 && f 6 1 == b2n (isSeqCove s c) && decide (1 ≤ f 7 1) && decide (f 7 1 ≤ 64) && decide (f 12 1 ≤ 64) &&
    decide (f 13 1 ≤ 7) && fits 0 64 && fits (f 16 4) (272 * f 7 1) && fits (f 20 4) (32 * f 8 2) && fits (f 24 4) (256 * f 12 1) &&
    fits (f 28 4) (32 * f 10 2) && (List.range (f 7 1)).all (stageOk s c)

/-- A cove-fatal event of a cove (Table 8-8) with its SCH_FAULT_INFO. -/
def coveFault (code c stage : Nat) (s : Dev) : Dev :=
  let info := schInfo c 0 stage 0
  s |> setCoveState c 6 |> wrN Reg.SCH_FAULT_INFO info |> raiseFor code c info c
/-- The table entries of core `k` that other coves' ranges cover (R132). -/
def rangeTaken (s : Dev) (k c e : Nat) : Bool :=
  (List.range 8).any fun d => d != c && (let b := rf s (Reg.LPD_RANGE k d) 0 6
    decide (b ≤ e) && decide (e < b + rf s (Reg.LPD_RANGE k d) 6 7))
/-- The lowest free block of `n` entries in core `k`'s table (R191 step 4). -/
def freeBlock (s : Dev) (k c n : Nat) : Option Nat :=
  (List.range (65 - n)).find? fun b => (List.range n).all fun i => !(rangeTaken s k c (b + i))
/-- Load the package's descriptors into a block of core `k`'s table (R131). -/
def loadNests (k c base n : Nat) (s : Dev) : Dev :=
  wrN (Reg.LPD_RANGE k c) (base + n * 2 ^ 6) s
    |> forS (List.range n) (fun e s => forS (List.range 64) (fun i s =>
      wrN (Reg.LPD_TABLE k (base + e) i) (rdLE .dram s (wpOf s c + wpField s c 24 4 + 256 * e + 4 * i) 4) s) s)
/-- Whether the KV configuration lets a cove start (R187): a sequence cove needs an initialised pool, or one being initialised. -/
def kvLets (s : Dev) (c : Nat) : Bool := !(isSeqCove s c) || tst s Reg.KVF_STATUS 0 || tst s Reg.KVF_STATUS 1
/-- Steps 1 to 3 of R191 at a mark: the package check, the eligible cores of each stage, and lost cores under HOLD; then
steps 4 and 5 wait in LOADING (R424). Accepted in OFF, STOPPED, HOLD and FAULT. A package address that is no multiple of 4,096 is read
as the multiple below it (log entry 57). No sequence cove starts while the KV configuration is invalid (R187). -/
def coveStart (c : Nat) (s : Dev) : Dev :=
  if coveState s c ∈ [1, 2, 3] then s
  else if !(kvLets s c) then s
  else if !(wpOk s c) then coveFault 0x0700 c 0 s
  else
    let ks := sound s c
    let s := s |> modCove c (fun v => { v with elig := ks }) |> wf (Reg.SCH_COVE_STATE c) 3 7 ks.length
    match (List.range (nStages s c)).find? fun i => nElig s c i == 0 with
    | some i => coveFault 0x0701 c i s
    | none =>
      if tst s (Reg.SCH_COVE_CFG c) 2 && (coresOf s c).any (coreFailed s) then setCoveState c 5 s
      else setCoveState c 1 s

/-! ## Turns, debt and switches (R207 to R209) -/

/-- The job in progress of a cove. -/
def runOf (s : Dev) (c : Nat) : Option Run := (coveOf s c).run
/-- The coves that a core serves. -/
def sharers (s : Dev) (k : Nat) : List Nat := (List.range 8).filter fun c => serves s c && inCove s c k
/-- Whether a core is shared (R189). -/
def shared (s : Dev) (k : Nat) : Bool := decide (1 < (sharers s k).length)
/-- Whether a task of a cove is bound to a core, suspended ones counted. -/
def boundTo (s : Dev) (k c : Nat) : Bool :=
  (match (coreOf s k).task with | some t => t.cove == c | none => false) || (coreOf s k).susp.any fun x => x.1.cove == c
/-- Whether every window-engine command of a stage has PLAIN_OK on core `k` (R126). -/
def allPlain (s : Dev) (k c stage : Nat) : Bool :=
  (List.range (cmdCount s c stage)).all fun j =>
    let x := cmdAt s c (rdLE .dram s (stageAt s c stage + 2) 2 + j)
    x.type != 1 || !(pkgEng s c x.nest == 1 || pkgEng s c x.nest == 2) ||
      (winAt s k (rdLE .dram s (wpOf s c + wpField s c 24 4 + 256 * x.nest + 12) 4 % 2 ^ 22)).plainOk
/-- Whether core `k`'s window engine lets a task of a stage onto the core (R126). -/
def engineLets (s : Dev) (k c stage : Nat) : Bool := stageKind s c stage != 1 || weReady s k || allPlain s k c stage
/-- Whether a cove has a task that it could place on a core (R207). -/
def couldPlace (s : Dev) (k c : Nat) : Bool :=
  serves s c && (match runOf s c with
    | some r => !r.done && decide (r.next < stageTasks s c r.stage) && (eligible s c (stageKind s c r.stage)).contains k && engineLets s k c r.stage
    | none => false)
/-- Whether a cove has work on a core. -/
def hasWork (s : Dev) (k c : Nat) : Bool := boundTo s k c || couldPlace s k c
/-- A cove's debt on a core, in ns. -/
def debtOf (s : Dev) (k c : Nat) : Nat := mget (fun _ => 0) (coreOf s k).debts c
/-- SLICE in ns. -/
def sliceOf (s : Dev) (c : Nat) : Nat := rf s (Reg.SCH_COVE_CFG c) 4 15 * 1000
/-- SCH_CORE_STATE (Table 8-11). -/
def showCore (k : Nat) (s : Dev) : Dev :=
  let co := coreOf s k
  let c := co.turn.getD 0
  wrN (Reg.SCH_CORE_STATE k) (c + b2n co.turn.isSome * 2 ^ 3 + b2n co.task.isSome * 2 ^ 4 + b2n (co.saving || co.restoring) * 2 ^ 5 +
    b2n (co.susp.any fun x => some x.1.cove != co.turn) * 2 ^ 6 + (if co.turn.isSome then min 32767 (debtOf s k c / 1000) else 0) * 2 ^ 8) s
/-- Set a debt; SCH_COVE_DEBT shows the sum over the cove's cores. -/
def setDebt (k c ns : Nat) (s : Dev) : Dev :=
  let s := modCore k (fun co => { co with debts := mset (fun _ => 0) co.debts c ns }) s
  wrN (Reg.SCH_COVE_DEBT c) (min 0xFFFFFFFF (sumN ((List.range 64).map fun j => debtOf s j c) / 1000)) s |> showCore k
/-- A turn begins: its length is SLICE minus the debt, which is cleared (R207). After a switch, or with a suspended task, the
core first restores. -/
def beginTurn (k c : Nat) (switch : Bool) (s : Dev) : Dev :=
  let len := sliceOf s c - debtOf s k c
  let back := switch || (coreOf s k).susp.any fun x => x.1.cove == c
  s |> modCore k (fun co => { co with turn := some c, turnEnd := some (now s + len), expired := false, restoring := back, swAt := now s })
    |> setDebt k c 0
/-- The coves to try after cove `c`, ascending and cyclic; `c` itself comes last. -/
def turnOrder (c : Nat) : List Nat := (List.range 8).map fun i => (c + 1 + i) % 8
/-- Choose the cove of the next turn among `cs`, skipping turns that debt has used up (R207). -/
def pickTurn (k : Nat) : Nat → List Nat → Dev → Option Nat × Dev
  | 0, _, s => (none, s)
  | _, [], s => (none, s)
  | n + 1, c :: cs, s =>
    if debtOf s k c < sliceOf s c then (some c, s) else pickTurn k n (cs ++ [c]) (setDebt k c (debtOf s k c - sliceOf s c) s)
/-- The turn passes on after cove `from_`: to the next cove with work, or to none. -/
def passTurn (k from_ : Nat) (switch : Bool) (s : Dev) : Dev :=
  let r := pickTurn k 4096 ((turnOrder from_).filter fun c => (serves s c || boundTo s k c) && inCove s c k && hasWork s k c) s
  match r.1 with
  | none => r.2 |> modCore k (fun co => { co with turn := none, turnEnd := none, expired := false }) |> showCore k
  | some d => beginTurn k d (switch && d != from_) r.2
/-- The tiles that a switch saves: OPEN or held (R209). -/
def liveTiles (x : Ctx) : List (Nat × Tile) :=
  x.tiles.filterMap fun p => p.2.bind fun t => if !t.done || t.held then some (p.1, t) else none
/-- The line-buffer rows that a switch saves, by slot. -/
def liveRows (x : Ctx) : List (Nat × LineRow) := x.we.slots.filterMap fun p => p.2.map fun r => (p.1, r)
/-- Live bytes of the task on a core: scratch, accumulators, line buffer, where a pip of width a takes 4a + 1 bytes (R109, R209). -/
def liveBytes (k : Nat) (t : Task) (x : Ctx) : Nat :=
  t.live * 4096 + (liveTiles x).length * arraysOf k * 4096 + sumN ((liveRows x).map fun r => r.2.pips.length * (4 * x.we.a + 1))
/-- Weight bytes that are read again (R209): staged ranges still intact, and the active and FULL shadow rows, a pip of width w being
4w + 1 bytes (R93). -/
def weightBytes (t : Task) (x : Ctx) : Nat :=
  let full := x.shW.filter fun p => mget (fun _ => 0) x.shSt p.1 == 2
  sumN (t.staged.map (·.bytes)) + sumN ((x.acW ++ full).map fun p => p.2.length * (4 * x.wWidth + 1))
/-- The time that `n` live bytes take at 256 bytes per ACLK cycle, in ns. -/
def moveNs (s : Dev) (n : Nat) : Nat := ceilDiv (n * 1000) (256 * s.clk.mhz)
/-- A task is suspended: its live state is being saved (R209). -/
def startSave (k : Nat) (s : Dev) : Dev :=
  match (coreOf s k).task with
  | none => s
  | some t =>
    let t := { t with shapes := (List.range 16).map fun i => rdN s (Reg.LPD_SHAPE k i) }
    s |> modCore k (fun co => { co with task := none, susp := co.susp ++ [(t, co.cx)], cx := {}, saving := true, swAt := now s })
      |> arrIdle k |> showTiles k |> showSlots k
      |> bump (Reg.SCH_COVE_SWITCH_CNT t.cove) 1 |> modStat t.cove (fun x => { x with switches := x.switches + 1 }) |> showCore k
/-- A core that has become shared while a task was bound to it and no turn ran: the task's cove has the turn (R207). -/
def claimTurn (k : Nat) (s : Dev) : Dev :=
  match (coreOf s k).turn, (coreOf s k).task with
  | none, some t => if shared s k then beginTurn k t.cove false s else s
  | _, _ => s
/-- Steps 4 and 5 of R191, once every core of the set runs (R424): blocks are allocated and loaded, and the cove enters RUN. A
sequence cove waits for the KV region's initialisation (R187; log entry 61). -/
def coveEnterRun (c : Nat) (s : Dev) : Dev :=
  let n := wpField s c 12 1
  if isSeqCove s c && !(tst s Reg.KVF_STATUS 0) then s
  else if (coresOf s c).any fun k => (freeBlock s k c n).isNone then coveFault 0x0700 c 0 s
  else
    s |> forS (coresOf s c) (fun k s => loadNests k c ((freeBlock s k c n).getD 0) n s)
      |> modCove c (fun v => { v with run := none, queue := if isSeqCove s c then v.queue else [] }) |> setCoveState c 2
      |> forS (coresOf s c) claimTurn
/-- Whether a task has completed its last command: its end is a task boundary, and nothing of it is saved (R209). -/
def allRun (s : Dev) (t : Task) : Bool := decide (cmdCount s t.cove t.stage ≤ t.pos)
/-- The decision at a command or task boundary (R207, R208). -/
def turnBoundary (k : Nat) (s : Dev) : Dev :=
  let co := coreOf s k
  if co.saving || co.restoring || (match co.task with | some t => t.cmdAt.isSome | none => false) then s
  else match co.turn with
    | none => if (shared s k || !co.susp.isEmpty) && co.task.isNone then passTurn k 7 false s else s |> claimTurn k |> showCore k
    | some c =>
      if (match co.task with | some t => allRun s t | none => false) then showCore k s else
      let end_ := co.turnEnd.getD (now s)
      if co.expired || decide (end_ ≤ now s) then
        let late := now s - end_
        let s := if late = 0 then s
          else s |> setDebt k c (debtOf s k c + late) |> bump (Reg.SCH_COVE_OVERRUN_CNT c) 1 |> modStat c (fun x => { x with ovr := x.ovr + 1 })
        if co.task.isSome && (turnOrder c).any fun d => d != c && (serves s d || boundTo s k d) && inCove s d k && hasWork s k d then startSave k s
        else passTurn k c true s
      else if co.task.isNone && !(hasWork s k c) then passTurn k c true s
      else showCore k s
/-- SLICE_EXPIRY (R207): the turn's length elapses; the turn ends at the first command boundary at or after that. -/
def sliceExpiry (k : Nat) (s : Dev) : Dev :=
  match (coreOf s k).turnEnd with
  | none => s
  | some t => s |> waitUntil t |> modCore k (fun co => { co with expired := true }) |> turnBoundary k
/-- SLICE_EXPIRY (R207). -/
def execSliceExpiry (k : Fin 64) (s : State) : Result := onDev (sliceExpiry k) s

/-- The save slot of a core in a cove's save area (R209). -/
def saveSlot (s : Dev) (c k : Nat) : Nat :=
  let die := k / 32
  (if die = 0 then rf s (Reg.SCH_COVE_SAVE0 c) 0 20 else rf s (Reg.SCH_COVE_SAVE1 c) 0 20) * 2 ^ 20 + 2 ^ 20 + 2 ^ 22 * (k % 32)
/-- The bytes of a saved tile: FP32 values of every array, 4 KiB each. -/
def tileBytes (k : Nat) (t : Tile) : List Byte :=
  (List.range (1024 * arraysOf k)).flatMap fun i => leBytes 4 (mget (fun _ => 0) t.vals i)
/-- The bytes of a saved line-buffer row of width `a`: each pip's elements and exponent. -/
def lineRowBytes (a : Nat) (r : LineRow) : List Byte := r.pips.flatMap fun p => packPip a p.q ++ [BitVec.ofNat 8 p.e]
/-- The first three groups of live bytes go to the save slot, in the order scratch, tiles, line buffer (R209). -/
def writeSave (k : Nat) (t : Task) (x : Ctx) (s : Dev) : Dev :=
  wrBytes .dram (saveSlot s t.cove k)
    (rdBytes (.scr k) s 0 (t.live * 4096) ++ (liveTiles x).flatMap (fun p => tileBytes k p.2) ++ (liveRows x).flatMap (fun r => lineRowBytes x.we.a r.2)) s
/-- A tile's values as they are read back from `a` on. -/
def tileBack (k a : Nat) (s : Dev) (t : Tile) : Tile :=
  { t with vals := ((List.range (1024 * arraysOf k)).map fun i => (i, rdLE .dram s (a + 4 * i) 4)).filter fun x => x.2 != 0 }
/-- A row of `n` pips of width `w` as it is read back from `a` on. -/
def rowBack (w a n : Nat) (s : Dev) : List Pip :=
  (List.range n).map fun i => ⟨unpackPip w (rdBytes .dram s (a + (4 * w + 1) * i) (4 * w)), (mrd .dram s (a + (4 * w + 1) * i + 4 * w)).toNat⟩
/-- The rows read back one after another. -/
def rowsBack (w : Nat) (s : Dev) : Nat → List (Nat × LineRow) → SMap (Option LineRow)
  | _, [] => []
  | a, (i, r) :: rs => (i, some { r with pips := rowBack w a r.pips.length s }) :: rowsBack w s (a + (4 * w + 1) * r.pips.length) rs
/-- The tiles and the line buffer of a resumed task, read back from the save slot (R209). What the weight rows hold is what the re-read
gives: weights are read-only (log entry 62). -/
def ctxBack (k : Nat) (t : Task) (x : Ctx) (s : Dev) : Ctx :=
  let a := saveSlot s t.cove k + t.live * 4096
  let ts := liveTiles x
  { x with tiles := (enum ts 0).map fun p => (p.2.1, some (tileBack k (a + 4096 * arraysOf k * p.1) s p.2.2)),
           we := { x.we with slots := rowsBack x.we.a s (a + 4096 * arraysOf k * ts.length) (liveRows x) } }
/-- SWITCH_SAVE_DONE (R209): the save ends, its time is charged as debt, and the next cove's turn begins. -/
def switchSaveDone (k : Nat) (s : Dev) : Dev :=
  let co := coreOf s k
  if !co.saving then s
  else match co.susp.getLast? with
    | none => s
    | some (t, x) =>
      let ns := moveNs s (liveBytes k t x)
      s |> waitUntil (co.swAt + ns) |> writeSave k t x |> setDebt k t.cove (debtOf s k t.cove + ns)
        |> modStat t.cove (fun y => { y with swNs := y.swNs + ns }) |> modCore k (fun co => { co with saving := false }) |> passTurn k t.cove true
/-- SWITCH_SAVE_DONE (R209). -/
def execSwitchSaveDone (k : Fin 64) (s : State) : Result := onDev (switchSaveDone k) s

/-- A space that an address word of Table 6-2 names, seen from core `k`. -/
def spaceAt (k sp : Nat) : Space := match sp with
  | 0 => .dram
  | 1 => .cm (k / 8)
  | _ => .scr k
/-- Copy bytes between spaces through the operand loader. -/
def copyBytes (k src dst n : Nat) (s : Dev) : Dev :=
  wrBytes (spaceAt k (addrWord dst).1) (addrWord dst).2 (rdBytes (spaceAt k (addrWord src).1) s (addrWord src).2 n) s
/-- Load the task record's grid and shapes (R142, R144, R197). -/
def loadRecord (k : Nat) (t : Task) (s : Dev) : Dev :=
  wrN (Reg.LPD_GRID k) t.grid s |> forS (List.range 16) (fun i => wrN (Reg.LPD_SHAPE k i) (t.shapes.getD i 0))
/-- SWITCH_RESTORE_DONE (R209): 0.40 µs, the restore and the re-read of weights have passed, and the suspended task resumes on
its core. -/
def switchRestoreDone (k : Nat) (s : Dev) : Dev :=
  let co := coreOf s k
  if !co.restoring then s
  else match co.susp.find? fun x => some x.1.cove == co.turn with
    | none => s |> waitUntil (co.swAt + 400) |> modCore k (fun co => { co with restoring := false }) |> showCore k
    | some (t, x) =>
      let ns := 400 + moveNs s (liveBytes k t x) + ceilDiv (weightBytes t x * 10) 1024
      s |> waitUntil (co.swAt + ns) |> (fun s => wrBytes (.scr k) 0 (rdBytes .dram s (saveSlot s t.cove k) (t.live * 4096)) s)
        |> forS t.staged (fun g s => copyBytes k g.src (g.dst + 2 * 2 ^ 62) g.bytes s) |> loadRecord k t
        |> modStat t.cove (fun y => { y with swNs := y.swNs + ns })
        |> modCore k (fun co => { co with restoring := false, task := some t, cx := ctxBack k t x s, susp := co.susp.filter fun y => y.1.cove != t.cove })
        |> showTiles k |> showSlots k |> showCore k
/-- SWITCH_RESTORE_DONE (R209). -/
def execSwitchRestoreDone (k : Fin 64) (s : State) : Result := onDev (switchRestoreDone k) s

/-! ## COPY and EMIT (R195, R201) -/

/-- Do `f` when an access of core `k` is not answered with an error; otherwise the task ends contained (R18, R325, R331, R335, R345). -/
def ifReach (k : Nat) (x : Dev → Option NoReach) (f : Dev → Dev) (s : Dev) : Dev :=
  match x s with
  | some x => s |> reportReach x |> containCore k
  | none => f s
/-- Whether core `k` can read, and reaches, `n` bytes at an address word. -/
def wordRead (k w n : Nat) (s : Dev) : Option NoReach := spaceRead s k (addrWord w).1 (addrWord w).2 n
/-- Whether core `k` reaches `n` bytes at an address word. -/
def wordReach (k w n : Nat) (s : Dev) : Option NoReach := spaceReach s k (addrWord w).1 (addrWord w).2 n
/-- COPY (R195): the bytes move; with STAGE the destination joins the task's staged ranges, and a range that a later COPY
writes is no longer intact. -/
def copyCmd (k : Nat) (s : Dev) : Dev :=
  runCmd k (fun _ c => c.type == 3) (fun _ c s =>
    let d := (addrWord c.dst).2
    let inScr := (addrWord c.dst).1 == 2
    let keep (g : Staged) : Bool := !inScr || decide (g.dst + g.bytes ≤ d) || decide (d + c.arg ≤ g.dst)
    ifReach k (wordRead k c.src c.arg) (ifReach k (wordReach k c.dst c.arg) fun s => s |> copyBytes k c.src c.dst c.arg
      |> modTask k (fun t => { t with staged := t.staged.filter keep ++ (if c.stage && inScr then [⟨d, c.arg, c.src⟩] else []) })
      |> finishCmd k 0) s) s
/-- COPY (R195). -/
def execCopy (k : Fin 64) (s : State) : Result := onDev (copyCmd k) s

/-- Bytes of an entry of a result buffer that starts at `a` (Table 12-2). -/
def entryBytes (sp : Space) (s : Dev) (kind a : Nat) : Nat :=
  match kind with
  | 1 => 160
  | 2 => 8
  | 3 => 16 + ceilDiv (ceilDiv (rdLE sp s (a + 3) 2 * rdLE sp s (a + 5) 2) 8) 16 * 16
  | 4 => 16
  | _ => 8
/-- The entries of a result buffer, in its order. -/
def entriesFrom (sp : Space) (s : Dev) (kind : Nat) : Nat → Nat → List (List Byte)
  | 0, _ => []
  | n + 1, a => rdBytes sp s a (entryBytes sp s kind a) :: entriesFrom sp s kind n (a + entryBytes sp s kind a)
/-- The slot that an entry names. -/
def entrySlot (kind : Nat) (b : List Byte) : Nat :=
  if kind = 1 then leNat ((b.drop 22).take 2) else leNat (b.take 2)
/-- The entries of a task's result buffer are handed over: tokens to the cove's step (R203), the rest to the job. -/
def handResults (kind : Nat) (t : Task) (es : List (List Byte)) (s : Dev) : Dev :=
  if kind = 5 then
    let toks := es.map fun b => (leNat (b.take 2) % 1024, bitOf (leNat (b.take 2)) 10, leNat (b.drop 4))
    { s with kv := { s.kv with steps := modIf s.kv.steps (fun x => x.cove == t.cove && x.started) fun x => { x with toks := x.toks ++ toks } } }
  else modCove t.cove (fun v => { v with run := v.run.map fun r =>
    { r with emits := r.emits ++ es.map (fun b => ⟨kind, entrySlot kind b, b⟩),
             covers := if kind = 1 then r.covers ++ [(t.slot0, t.slots)] else r.covers } }) s
/-- EMIT (R195, R297): the entries of the task's result buffer are handed over; they leave when the job has ended (R201).
Tokens go to the cove's step (R203). -/
def emitCmd (k kind : Nat) (s : Dev) : Dev :=
  runCmd k (fun _ c => c.type == 4 && c.arg % 16 == kind) (fun t c s => ifReach k (wordRead k c.src 32) (fun s =>
    let sp := spaceAt k (addrWord c.src).1
    let a := (addrWord c.src).2
    let es := entriesFrom sp s kind (rdLE sp s a 2) (a + 32)
    ifReach k (wordRead k c.src (32 + sumN (es.map (·.length)))) (fun s => handResults kind t es (finishCmd k 0 s)) s) s) s
/-- EMIT_DETECT (R297). -/
def execEmitDetect (k : Fin 64) (s : State) : Result := onDev (emitCmd k 1) s
/-- EMIT_COUNT (R297). -/
def execEmitCount (k : Fin 64) (s : State) : Result := onDev (emitCmd k 2) s
/-- EMIT_MASK (R297). -/
def execEmitMask (k : Fin 64) (s : State) : Result := onDev (emitCmd k 3) s
/-- EMIT_EVENT (R297). -/
def execEmitEvent (k : Fin 64) (s : State) : Result := onDev (emitCmd k 4) s
/-- EMIT_TEXT (R297). -/
def execEmitText (k : Fin 64) (s : State) : Result := onDev (emitCmd k 5) s

/-! ## Completion (R198, R202) -/

/-- The address of the next entry of a cove's completion log: a ring of 4,096 entries at the start of the die 0 save area. -/
def logAddr (s : Dev) (c : Nat) : Nat := rf s (Reg.SCH_COVE_SAVE0 c) 0 20 * 2 ^ 20 + 16 * ((coveOf s c).logPos % 4096)
/-- Write a command's completion-log entry (R198), and count its flags for the health record (R75). -/
def logCommand (k : Nat) (t : Task) (cycles : Nat) (s : Dev) : Dev :=
  let w0 := k + cmdIndex s t % 2 ^ 16 * 2 ^ 6 + t.status % 8 * 2 ^ 22 + t.flags % 16 * 2 ^ 25
  let b := leBytes 4 w0 ++ leBytes 4 t.job ++ leBytes 4 (t.idx % 2 ^ 16 + t.stage % 64 * 2 ^ 16) ++ leBytes 4 (min cycles 0xFFFFFFFF)
  s |> wrBytes .dram (logAddr s t.cove) b |> modCove t.cove (fun v => { v with logPos := (v.logPos + 1) % 4096 })
    |> modStat t.cove (fun x => { x with sat := x.sat + b2n (bitOf t.flags 0), nonfin := x.nonfin + b2n (bitOf t.flags 1) })
/-- A window engine between two commands: it is at no block, and the slots keep their rows until the next command begins. -/
def We.rest (e : We) : We := { e with at_ := none, written := 0, slotOf := [], win := [], half := 0 }
/-- COMMAND_COMPLETE (R198): the epilogue reads that are left are carried out (R150), the command in progress completes after `cycles` ACLK cycles; its log entry is written, and the
turn may end at this command boundary. -/
def commandComplete (k cycles : Nat) (s : Dev) : Dev :=
  let s := match (coreOf s k).task with
    | some t => if t.ran && t.cmdAt.isSome && !t.contained then withNest k (fun cove d => drainTiles k cove d) s else s
    | none => s
  match (coreOf s k).task with
  | none => s
  | some t =>
    if !t.ran || t.cmdAt.isNone then s
    else
      let live := (cmdAt s t.cove (cmdIndex s t)).live
      let m := aclkMilli s
      s |> logCommand k t cycles |> setB (Reg.WIN_STATUS k) 2 false |> setB (Reg.LPD_STATUS k) 0 false |> modWe k We.rest
        |> modTask k (fun x => { x with pos := x.pos + 1, ran := x.contained, cmdAt := none, live, t1 := now s, c1 := m })
        |> turnBoundary k
/-- COMMAND_COMPLETE (R198). -/
def execCommandComplete (k : Fin 64) (cycles : Nat) (s : State) : Result := onDev (commandComplete k cycles) s
/-- SCH_CMD_TIMEOUT (R202): a command still runs SCH_CMD_LIM after its start, and its task ends contained. -/
def schCmdTimeout (k : Nat) (s : Dev) : Dev :=
  match (coreOf s k).task with
  | none => s
  | some t => match t.cmdAt with
    | none => s
    | some at_ =>
      if t.contained then s
      else
        let info := schInfo t.cove k t.stage (cmdIndex s t)
        s |> waitUntil (at_ + rf s Reg.SCH_CMD_LIM 0 10 * 1000000) |> wrN Reg.SCH_FAULT_INFO info
          |> raiseFor 0x0703 t.cove info t.cove |> containCore k
/-- SCH_CMD_TIMEOUT (R202). -/
def execSchCmdTimeout (k : Fin 64) (s : State) : Result := onDev (schCmdTimeout k) s

/-! ## Placement (R194, R197, R200) -/

/-- JOB_START (R199): the first queued job of a running cove starts with a fresh shape vector when its batch is complete. In STOPPING a
sequence cove still runs the job of the step that has started. -/
def jobStart (c : Nat) (s : Dev) : Dev :=
  let v := coveOf s c
  match v.queue with
  | [] => s
  | j :: js =>
    if !(coveState s c == 2 || (coveState s c == 3 && isSeqCove s c)) || v.run.isSome || !j.copies.isEmpty then s
    else
      let shapes := if isSeqCove s c then [0, j.slots, j.rows] else [j.slots]
      s |> modCove c (fun v => { v with queue := js, run := some { job := j, num := rdN s (Reg.SCH_COVE_JOB c), shapes } })
        |> wf (Reg.SCH_COVE_STATE c) 10 6 0 |> setB (Reg.SCH_COVE_STATE c) 16 true
/-- JOB_START (R199). -/
def execJobStart (c : Fin 8) (s : State) : Result := onDev (jobStart c) s

/-- Whether a core is free for a task of a stage of cove `c` (R200, R126). -/
def coreFree (s : Dev) (c stage k : Nat) : Bool :=
  let co := coreOf s k
  co.task.isNone && !(boundTo s k c) && !co.saving && !co.restoring && domRuns s k && (!(shared s k) || co.turn == some c) &&
    engineLets s k c stage
/-- The slot range of a task (R197): all slots, or the part of R142 on i0 or i1. -/
def slotRange (axis n g0 g1 i0 i1 : Nat) : Nat × Nat :=
  match axis with
  | 1 => partOf n g0 i0 1
  | 2 => partOf n g1 i1 1
  | _ => (0, n)
/-- TASK_PLACE (R200): the next task of the stage in progress goes to the first free core, or waits. -/
def taskPlace (c : Nat) (s : Dev) : Dev :=
  let s := forS ((coresOf s c).filter fun k => (coreOf s k).turn.isNone && (coreOf s k).task.isNone) turnBoundary s
  match runOf s c with
  | none => s
  | some r =>
    if r.done || !(serves s c) || decide (stageTasks s c r.stage ≤ r.next) then s
    else match (eligible s c (stageKind s c r.stage)).find? (coreFree s c r.stage) with
      | none => s
      | some k =>
        let g := gridOf s c r.stage (nElig s c r.stage)
        let i0 := r.next / g.2.1
        let i1 := r.next % g.2.1
        let rng := slotRange (stageAxis s c r.stage) r.job.slots g.1 g.2.1 i0 i1
        let grid := g.1 + g.2.1 * 2 ^ 7 + i0 * 2 ^ 14 + i1 * 2 ^ 20
        let shapes := (List.range 16).map fun i => r.shapes.getD i 0
        let t : Task := { cove := c, job := r.num, stage := r.stage, idx := r.next, grid, shapes, slot0 := rng.1, slots := rng.2 }
        s |> modCore k (fun co => { co with task := some t }) |> loadRecord k t |> showCore k
          |> modCove c (fun v => { v with run := some { r with next := r.next + 1 } })
/-- TASK_PLACE (R200). -/
def execTaskPlace (c : Fin 8) (s : State) : Result := onDev (taskPlace c) s

/-- A completed task joins the slow-down figures of its cove (R210, R211): σ is its cycles over its estimate, in 1/256. -/
def measure (k : Nat) (t : Task) (s : Dev) : Dev :=
  let est := (gridOf s t.cove t.stage (nElig s t.cove t.stage)).2.2
  let cyc := t.c1 - t.c0
  let ns := t.t1 - t.t0.getD t.t1
  let sig := min 65535 (if est = 0 then 65535 else 256 * cyc / (est * 1000))
  let estNs := if cyc = 0 then 0 else est * 1000 * ns / cyc
  modStat t.cove (fun x => { x with meas := x.meas + ns, est := x.est + estNs, sigma := max x.sigma sig, stage := if x.sigma < sig then t.stage else x.stage, core := if x.sigma < sig then k else x.core }) s
/-- Entries of a cove's active step whose index lies in a slot range lose their step by a task contained on core `k` (R206). -/
def loseEntries (c lo n k : Nat) (s : Dev) : Dev :=
  let hit (i : Nat) : Bool := decide (lo ≤ i) && decide (i < lo + n)
  { s with kv := { s.kv with steps := modIf s.kv.steps (fun x => x.cove == c && x.started) fun x =>
      { x with ents := (enum x.ents 0).map fun p => if hit p.1 then { p.2 with lost := true, by_ := k } else p.2 } } }
/-- TASK_END (R200): a task that has run all its commands, or is contained, ends, and its core becomes free. The completion log gives the
cycles of a command that a containment ended up to that moment (R198). -/
def taskEnd (k : Nat) (s : Dev) : Dev :=
  match (coreOf s k).task with
  | none => s
  | some t =>
    if !(t.contained || (t.cmdAt.isNone && allRun s t)) then s
    else
      let shapes := (List.range 16).map fun i => rdN s (Reg.LPD_SHAPE k i)
      s |> whenS (t.contained && t.cmdAt.isSome) (logCommand k t ((t.c1 - t.cmdC) / 1000)) |> modWe k We.rest
        |> whenS (!t.contained) (measure k t) |> modStat t.cove (fun x => { x with tasks := x.tasks + 1 })
        |> whenS t.contained (bump (Reg.SCH_COVE_CONTAIN_CNT t.cove) 1)
        |> whenS (t.contained && isSeqCove s t.cove) (loseEntries t.cove t.slot0 t.slots k)
        |> modCove t.cove (fun v => { v with run := v.run.map fun r => { r with ended := r.ended ++ [⟨t.idx, t.contained, shapes⟩], bad := if t.contained then r.bad ++ [(t.slot0, t.slots)] else r.bad } })
        |> freeTiles k (fun _ => true) |> modCore k (fun co => { co with task := none }) |> showCore k |> turnBoundary k
/-- TASK_END (R200). -/
def execTaskEnd (k : Fin 64) (s : State) : Result := onDev (taskEnd k) s

/-- The shape vector after a stage (R197): exported registers come from the lowest-numbered task that completed. -/
def exportShapes (r : Run) (exp : Nat) : List Nat :=
  match leastBy (fun a b : Ended => decide (a.idx < b.idx)) (r.ended.filter fun e => !e.contained) with
  | none => r.shapes
  | some e => (List.range 16).map fun i => if bitOf exp i then e.shapes.getD i 0 else r.shapes.getD i 0
/-- STAGE_END (R197, R199): every task of the stage has ended; its exports join the shape vector, and the next stage begins or
the job is done. -/
def stageEnd (c : Nat) (s : Dev) : Dev :=
  match runOf s c with
  | none => s
  | some r =>
    if r.done || r.ended.length != stageTasks s c r.stage then s
    else
      let r := { r with shapes := exportShapes r (stageExport s c r.stage), ended := [], next := 0 }
      if nStages s c ≤ r.stage + 1 then modCove c (fun v => { v with run := some { r with done := true } }) s
      else s |> modCove c (fun v => { v with run := some { r with stage := r.stage + 1 } }) |> wf (Reg.SCH_COVE_STATE c) 10 6 (r.stage + 1)
/-- STAGE_END (R197). -/
def execStageEnd (c : Fin 8) (s : State) : Result := onDev (stageEnd c) s

/-! ## Registers and commands (R191, R215) -/

/-- SCH_CMD START: held to the next mark (R13). -/
def execSchStart (c : Fin 8) (s : State) : Result := onDev (fun d => { d with held := d.held ++ [.cove c 1] }) s
/-- SCH_CMD STOP: held to the next mark (R13). -/
def execSchStop (c : Fin 8) (s : State) : Result := onDev (fun d => { d with held := d.held ++ [.cove c 2] }) s
/-- The registers that R191 guards, by number, with the bits each holds: CFG, CORES, WP and SAVE. -/
def coveCfgReg (c i : Nat) : Nat × Nat :=
  match i with
  | 0 => (Reg.SCH_COVE_CFG c, 26)
  | 1 => (Reg.SCH_COVE_CORES_LO c, 32)
  | 2 => (Reg.SCH_COVE_CORES_HI c, 32)
  | 3 => (Reg.SCH_COVE_WP_LO c, 32)
  | 4 => (Reg.SCH_COVE_WP_HI c, 8)
  | 5 => (Reg.SCH_COVE_SAVE0 c, 20)
  | _ => (Reg.SCH_COVE_SAVE1 c, 20)
/-- A write of configuration register `i` of a cove, or of it and the next one as a pair (R191): accepted in OFF, STOPPED, HOLD and FAULT;
SLICE and BUDGET_PCT are clamped (Table 8-9). -/
def schCoveConfigWrite (c i : Nat) (vs : List Nat) (s : Dev) : Dev :=
  if coveState s c ∈ [1, 2, 3] then raiseFor 0x0704 c 0 c s
  else
    let put (j : Nat) (s : Dev) : Dev :=
      let r := coveCfgReg c (i + j)
      let n := vs.getD j 0 % 2 ^ r.2
      let n := if i + j = 0 then putBits (putBits n 4 15 (clampN (bits n 4 15) 500 20000)) 19 7 (clampN (bits n 19 7) 10 100) else n
      wrN r.1 n s
    forS (List.range vs.length) put s

end Sys2Proof.Machine
end

