-- ==== Sys2Proof/Machine/Steps.lean ====
section
/-! DEFINITION. Steps of sequence coves: composition, frames, exhaustion, step end, and the commands of SEQ_CMD (07, 08). -/
set_option autoImplicit false
namespace Sys2Proof.Machine
open Sys2Proof

/-! ## Composition (R203 to R205) -/

/-- The positions that a sequence prefills: its prompt, or in recompute its prompt and tokens (R203, R184). -/
def prefillTarget (s : Dev) (q : Nat) : Nat := if sqState s q = 3 then sqPrompt s q + sqGen s q else sqPrompt s q
/-- Whether a sequence generates: its prefill is complete. -/
def generates (s : Dev) (q : Nat) : Bool := sqState s q == 2 && decide (sqPrompt s q ≤ sqLen s q)
/-- The candidates of a cove in their order: PRIO falling, LAST_STEP rising, number rising. A sequence left waiting by R206 is
none. -/
def candidates (s : Dev) (c : Nat) : List Nat :=
  let cs := (List.range 1024).filter fun q => (sqState s q == 2 || sqState s q == 3) && sqCove s q == c && !(inAdmitted s q) && !(s.kv.waiting.any fun w => w.1 == q)
  sortBy (fun a b => lexLt [3 - sqPrio s a, sqLast s a, a] [3 - sqPrio s b, sqLast s b, b]) cs
/-- One row for each generating candidate within the limits. -/
def genRows (s : Dev) : List Nat → Nat → List StepEnt
  | [], _ => []
  | _, 0 => []
  | q :: qs, n + 1 => ⟨q, sqLen s q, 1, true, false, 0, none⟩ :: genRows s qs n
/-- Rows of prefilling candidates, at most `chunk` each, while rows and places last. -/
def prefillRows (s : Dev) (chunk : Nat) : List Nat → Nat → Nat → List StepEnt
  | [], _, _ => []
  | q :: qs, rows, places =>
    let n := min chunk (min (prefillTarget s q - sqLen s q) rows)
    if n = 0 ∨ places = 0 then [] else ⟨q, sqLen s q, n, sqLen s q + n == prefillTarget s q, false, 0, none⟩ :: prefillRows s chunk qs (rows - n) (places - 1)
/-- STEP_ROWS, CHUNK and PREFILL_EVERY. -/
def stepCfg (s : Dev) (c : Nat) : Nat × Nat × Nat :=
  let a := Reg.SCH_COVE_STEP c
  (rf s a 0 13, rf s a 13 12, rf s a 25 7)
/-- The step of a cove (R204, R205): its entries in ascending sequence number, and whether it is a prefill step. -/
def compose (s : Dev) (c : Nat) : List StepEnt × Bool :=
  let cfg := stepCfg s c
  let cs := candidates s c
  let gens := cs.filter (generates s)
  let pres := cs.filter fun q => !(generates s q)
  let sort (l : List StepEnt) : List StepEnt := sortBy (fun a b => decide (a.seq < b.seq)) l
  if tst s (Reg.SCH_COVE_CFG c) 1 then
    if !pres.isEmpty && (gens.isEmpty || decide (cfg.2.2 ≤ mget (fun _ => 0) s.kv.decodes c)) then (sort (prefillRows s cfg.1 pres cfg.1 256), true)
    else (sort (genRows s gens (min 256 cfg.1)), false)
  else
    let g := genRows s gens (min 256 cfg.1)
    (sort (g ++ prefillRows s cfg.2.1 pres (cfg.1 - g.length) (256 - g.length)), false)

/-! ## Frames (R175, R180 to R183) -/

/-- lim_c of R180. -/
def limOf (s : Dev) (c : Nat) : Nat := if rf s (Reg.KVF_COVE_LIM c) 0 19 = 0 then kvPool s else rf s (Reg.KVF_COVE_LIM c) 0 19
/-- avail of R180. -/
def availOf (s : Dev) (c : Nat) : Nat :=
  min (rdN s Reg.KVF_FREE0_CNT + rdN s Reg.KVF_FREE1_CNT) (limOf s c - rdN s (Reg.KVF_COVE_HELD c))
/-- References that copies give up, by frame. -/
def addDecs (decs : SMap Nat) (fs : List Nat) : SMap Nat :=
  fs.foldl (fun m f => mset (fun _ => 0) m f (mget (fun _ => 0) m f + 1)) decs
/-- The copies, as (layer, frame), that an entry still needs by R175: `has` are the copies that its step has frames for, `decs` the
references given up by those and by lower-numbered sequences. -/
def copiesOf (s : Dev) (has : List PageCopy) (e : StepEnt) (decs : SMap Nat) : List (Nat × Nat) :=
  if e.qpos % 16 = 0 then []
  else (List.range (sqLayers s e.seq)).filterMap fun l =>
    if has.any fun p => p.seq == e.seq && p.layer == l then none
    else match plFrame s e.seq l (e.qpos / 16) with
      | some f => if 1 < frRef s f - mget (fun _ => 0) decs f then some (l, f) else none
      | none => none
/-- The pages that an entry's appends begin, as (layer, page), without those that its page lists already name. -/
def freshPages (s : Dev) (e : StepEnt) : List (Nat × Nat) :=
  (List.range (sqLayers s e.seq)).flatMap fun l =>
    ((List.range (pagesFor (e.qpos + e.qcnt) - pagesFor e.qpos)).map fun i => (l, pagesFor e.qpos + i)).filter fun p => (plFrame s e.seq p.1 p.2).isNone
/-- The need of each entry (R180), in ascending sequence number. -/
def needsOf (s : Dev) (has : List PageCopy) : List StepEnt → SMap Nat → List (StepEnt × Nat)
  | [], _ => []
  | e :: es, decs =>
    let cs := copiesOf s has e decs
    (e, (freshPages s e).length + cs.length) :: needsOf s has es (addDecs decs (cs.map (·.2)))
/-- The need of a step. -/
def needOf (s : Dev) (x : Step) : Nat := sumN ((needsOf s x.copies x.ents (addDecs [] (x.copies.map (·.old)))).map (·.2))
/-- ALLOC for one page of one layer of a sequence, from its home die first (R176); none when no frame is allocatable. -/
def allocFor (q : Nat) (s : Dev) (lp : Nat × Nat) : Option Dev :=
  (allocatable s (sqHome s q)).map fun f =>
    s |> allocFrame f (sqCove s q) (tst s (Reg.SEQ_TABLE q 0) 10) (tst s (Reg.SEQ_TABLE q 0) 11) |> plPut q lp.1 lp.2 (some f)
/-- ALLOC of the new frame of a copy, which carries the old frame's formats (R175). -/
def allocCopy (q page : Nat) (y : Dev × List PageCopy) (lf : Nat × Nat) : Option (Dev × List PageCopy) :=
  (allocatable y.1 (sqHome y.1 q)).map fun f =>
    (allocFrame f (sqCove y.1 q) (frK4 y.1 lf.2) (frV4 y.1 lf.2) y.1, y.2 ++ [⟨q, lf.1, page, lf.2, f⟩])
/-- All frames of one entry, and its copies. -/
def allocEntry (y : Dev × List PageCopy) (e : StepEnt) : Option (Dev × List PageCopy) := do
  let cs := copiesOf y.1 y.2 e (addDecs [] (y.2.map (·.old)))
  let y ← cs.foldlM (allocCopy e.seq (e.qpos / 16)) y
  let s ← (freshPages y.1 e).foldlM (allocFor e.seq) y.1
  return (s, y.2)
/-- Put a cove's step. -/
def putStep (x : Step) (s : Dev) : Dev := { s with kv := { s.kv with steps := s.kv.steps.filter (fun y => y.cove != x.cove) ++ [x] } }
/-- The shortfall of a cove is as given: KVF_STATUS.EXH_WAIT holds while some cove is exhausted, and KVF_EXH_INFO names the cove that it
named before while that one is, else the lowest. Where exhaustion of a cove begins, KVF_EVENT.EXH is set (R181; log entry 61). -/
def setShort (c n : Nat) (s : Dev) : Dev :=
  let was := mget (fun _ => 0) s.kv.short c
  let s := { s with kv := { s.kv with short := mset (fun _ => 0) s.kv.short c n } }
  let of_ (d : Nat) : Nat := mget (fun _ => 0) s.kv.short d
  let named := rf s Reg.KVF_EXH_INFO 0 3
  let show_ := if tst s Reg.KVF_EXH_INFO 3 && of_ named != 0 then some named else (List.range 8).find? fun d => of_ d != 0
  s |> setB Reg.KVF_STATUS 2 show_.isSome
    |> wrN Reg.KVF_EXH_INFO (match show_ with | some d => d + 8 + of_ d % 2 ^ 19 * 16 | none => 0)
    |> whenS (was == 0 && n != 0) (raiseFor 0x0502 c (c + 8 + n % 2 ^ 19 * 16) c)
/-- Whether a cove waits for EXH_DONE. -/
def waitsHost (s : Dev) (c : Nat) : Bool := (mget (fun _ => none) s.kv.exhAt c).isSome
/-- A step of the cove has its frames: exhaustion is over unless sequences of the cove still wait for the host. -/
def frameless (c : Nat) (s : Dev) : Dev := if waitsHost s c then s else setShort c 0 s
/-- A cove's step that has not started is given up: frames allocated for its copies are released, and pages already allocated stay in
their page lists. -/
def dropUnstarted (c : Nat) (s : Dev) : Dev :=
  let mine (x : Step) : Bool := x.cove == c && !x.started
  let cs := (s.kv.steps.filter mine).flatMap (·.copies)
  { s with kv := { s.kv with steps := s.kv.steps.filter fun x => !(mine x) } } |> forS cs (fun p => decref p.new_) |> frameless c
/-- A step that is admitted, needs no further frame and has no copy to wait for starts, unless its cove does not run or step starts are
held (R173, R177): it takes the next KVF_STEP, and its job joins the cove's queue (R199). A page that has become shared since the step's
admission makes it wait for a copy (R168, R175). -/
def startStep (x : Step) (s : Dev) : Dev :=
  if x.started || x.waits || !x.copies.isEmpty || tst s Reg.KVF_STATUS 4 || coveState s x.cove != 2 then s
  else if needOf s x ≠ 0 then putStep { x with waits := true } s
  else
    let n := (rdN s Reg.KVF_STEP + 1) % 2 ^ 32
    let j : Job := { slots := x.ents.length, rows := sumN (x.ents.map (·.qcnt)), cost := wpField s x.cove 32 4, step := n }
    let d := mget (fun _ => 0) s.kv.decodes x.cove
    s |> putStep { x with started := true, num := n } |> wrN Reg.KVF_STEP n |> forS x.ents (fun e => wrN (Reg.SEQ_TABLE e.seq 3) n)
      |> (fun s => { s with kv := { s.kv with decodes := mset (fun _ => 0) s.kv.decodes x.cove (if x.prefill then 0 else d + 1) } })
      |> modCove x.cove (fun v => { v with queue := v.queue ++ [j] }) |> showOldest
/-- Start every step that can start. -/
def startReady (s : Dev) : Dev := forS s.kv.steps startStep s
/-- The frames are allocated, and the step is admitted (R181); where no frame is allocatable it waits. -/
def admitStep (x : Step) (s : Dev) : Dev :=
  match x.ents.foldlM allocEntry (s, x.copies) with
  | none => putStep { x with waits := true } s
  | some r =>
    let again := x.ents.filter fun e => sqState s e.seq == 3 && e.qpos == 0
    let y := { x with copies := r.2, waits := false, freed := [] }
    r.1 |> bump Reg.SEQ_RECOMPUTE_CNT again.length |> putStep y |> startStep y
/-- Frames of a sequence whose REFCNT would reach 0 (R181). -/
def soleFrames (s : Dev) (q : Nat) : List Nat :=
  (List.range (sqLayers s q)).flatMap fun l => (List.range 2048).filterMap fun p => match plFrame s q l p with
    | some f => if frRef s f = 1 then some f else none
    | none => none
/-- The next victim (R181): lowest PRIO, then smallest LAST_STEP, then highest number, among the cove's ACTIVE sequences. -/
def victimOf (s : Dev) (c : Nat) : Option Nat :=
  leastBy (fun a b => lexLt [sqPrio s a, sqLast s a, 1023 - a] [sqPrio s b, sqLast s b, 1023 - b])
    ((List.range 1024).filter fun q => sqState s q == 2 && sqCove s q == c && !(inStep s q))
/-- A step without a sequence; the frames allocated for its copies are released. -/
def withoutSeq (q : Nat) (x : Step) (s : Dev) : Step × Dev :=
  ({ x with ents := x.ents.filter fun e => e.seq != q, copies := x.copies.filter fun p => p.seq != q },
   forS (x.copies.filter fun p => p.seq == q) (fun p => decref p.new_) s)
/-- Victims are evicted while need exceeds avail + pending (R181). -/
def evictLoop (c : Nat) : Nat → Step → Dev → Step × Dev
  | 0, x, s => (x, s)
  | n + 1, x, s =>
    let pending := (x.freed.filter fun f => frState s f == 1).length
    if needOf s x ≤ availOf s c + pending then (x, s)
    else match victimOf s c with
      | none => (x, s)
      | some v =>
        let r := withoutSeq v x s
        evictLoop c n { r.1 with freed := x.freed ++ soleFrames s v } (evictSeq v r.2)
/-- R183: a sequence that needs frames waits for the host; its cove's limit runs from the first one's wait. -/
def hostWait (c : Nat) (q : Nat) (s : Dev) : Dev :=
  s |> putSqX q { sqX s q with was := sqState s q } |> sqPutState q 4 |> setB Reg.KVF_STATUS 3 true
    |> (fun s => { s with kv := { s.kv with exhAt := mset (fun _ => none) s.kv.exhAt c (some ((mget (fun _ => none) s.kv.exhAt c).getD (now s))) } })
/-- The sequences of a step that need no frame whatever becomes of the others' (R183). -/
def needless (s : Dev) (x : Step) (e : StepEnt) : Bool := (freshPages s e).isEmpty && (copiesOf s x.copies e []).isEmpty
/-- R183: the sequences that need frames wait for the host, and the rest of the step proceeds. -/
def giveHost (x : Step) (s : Dev) : Dev :=
  let go := x.ents.filter (needless s x)
  let s := forS (x.ents.filter fun e => !(needless s x e)) (fun e => hostWait x.cove e.seq)
    { s with kv := { s.kv with steps := s.kv.steps.filter fun y => y.cove != x.cove } }
  if go.isEmpty then s else admitStep { x with ents := go } s
/-- R181: victims give up their frames, and the step starts or waits. -/
def giveEvicting (x : Step) (s : Dev) : Dev :=
  let c := x.cove
  let r := evictLoop c 1025 x s
  if r.1.ents.isEmpty then { r.2 with kv := { r.2.kv with steps := r.2.kv.steps.filter fun y => y.cove != c } } |> frameless c
  else if needOf r.2 r.1 ≤ availOf r.2 c then r.2 |> frameless c |> admitStep r.1
  else r.2 |> setShort c (needOf r.2 r.1 - availOf r.2 c) |> putStep { r.1 with waits := true }
/-- Give a composed step its frames: at once, after evictions, or as far as R183 lets it proceed. A step that already waits keeps the
hardware mode in which its exhaustion began (R31). -/
def giveFrames (x : Step) (s : Dev) : Dev :=
  let c := x.cove
  let need := needOf s x
  if need ≤ availOf s c then s |> frameless c |> admitStep x
  else s |> setShort c (need - availOf s c) |> (if tst s Reg.KVF_CTRL 0 && !x.waits then giveHost x else giveEvicting x)
/-- R182: a sequence that can never be held is ended with a busy record that names KV capacity. -/
def refuseCapacity (e : StepEnt) (s : Dev) : Dev :=
  s |> busyRec (sqCove s e.seq) (rf s (Reg.SEQ_TABLE e.seq 2) 16 16) 2 0 |> dropPages e.seq |> freeSeq e.seq
/-- Whether an entry's pages exceed what its cove can ever hold, or its page lists (R172, R182). -/
def neverHeld (s : Dev) (c : Nat) (e : StepEnt) : Bool :=
  decide (min (kvPool s) (limOf s c) < pagesFor (e.qpos + e.qcnt) * sqLayers s e.seq) || decide (2048 < pagesFor (e.qpos + e.qcnt))
/-- R203: QUEUED sequences whose pictures are written become ACTIVE, in arrival order within each priority, while MAX_LIVE
permits. -/
def promote (c : Nat) (s : Dev) : Dev :=
  let qs := s.kv.arrivals.filter fun q => sqState s q == 1 && sqCove s q == c && (sqX s q).imgs.isEmpty
  let qs := [3, 2, 1, 0].flatMap fun p => qs.filter fun q => sqPrio s q == p
  forS qs (fun q s =>
    let active := ((List.range 1024).filter fun x => sqState s x != 0 && sqState s x != 1 && sqCove s x == c).length
    if active < rf s Reg.SEQ_CTRL 0 11 then { s with kv := { s.kv with arrivals := s.kv.arrivals.filter (· != q) } } |> sqPutState q 2 else s) s
/-- The step that a cove composes, once no sequence of it can never be held (R182, R203). -/
def composeHeld (c : Nat) : Nat → Dev → (List StepEnt × Bool) × Dev
  | 0, s => (([], false), s)
  | n + 1, s =>
    let r := compose s c
    let bad := r.1.filter (neverHeld s c)
    if bad.isEmpty then (r, s) else composeHeld c n (forS bad refuseCapacity s)
/-- STEP_ADMISSION (R180): a running sequence cove without a step composes one, gives it its frames and starts it, or it
waits; a step that waits for frames is tried again. -/
def stepAdmission (c : Nat) (s : Dev) : Dev :=
  if !(coveOpen s c) ∨ !(isSeqCove s c) ∨ !(tst s Reg.KVF_STATUS 0) then s
  else match s.kv.steps.find? fun x => x.cove == c with
    | some x => if x.waits then giveFrames x s else startStep x s
    | none =>
      let r := composeHeld c 1025 (promote c s)
      if r.1.1.isEmpty then r.2 else giveFrames { cove := c, ents := r.1.1, prefill := r.1.2 } r.2
/-- STEP_ADMISSION (R180); `fe` is what reading the frame table finds. -/
def execStepAdmission (c : Fin 8) (fe : FrameEcc) (s : State) : Result := onDev (fun d => stepAdmission c (frameEcc fe d)) s

/-- FRAME_COPY_DONE (R175): a cove's next whole-frame copy completes; the old frame is DECREFed and the entry replaced. -/
def frameCopyDone (c : Nat) (s : Dev) : Dev :=
  match s.kv.steps.find? fun x => x.cove == c && !x.started && !x.copies.isEmpty with
  | none => s
  | some x => match x.copies with
    | [] => s
    | p :: ps =>
      let y := { x with copies := ps }
      s |> wrBytes .dram (frAddr s p.new_) (rdBytes .dram s (frAddr s p.old) (kvFrameBytes s)) |> plPut p.seq p.layer p.page (some p.new_)
        |> decref p.old |> bump Reg.KVF_COW_CNT 1 |> putStep y |> startStep y
/-- FRAME_COPY_DONE (R175). -/
def execFrameCopyDone (c : Fin 8) (s : State) : Result := onDev (frameCopyDone c) s

/-! ## Step end (R203, R206) -/

/-- The step's tokens of a sequence join its token log (R184) and leave as a text record (R312); with END or MAX_TOKENS the sequence is finished. -/
def handTokens (q : Nat) (toks : List (Bool × Nat)) (s : Dev) : Dev :=
  if toks.isEmpty then s
  else
    let x := sqX s q
    let g := sqGen s q
    let fin := toks.any (·.1) || decide (x.maxTok ≤ g + toks.length)
    let ids := toks.map (·.2)
    let s := s |> wf (Reg.SEQ_TABLE q 2) 0 16 (g + toks.length) |> wrBytes .dram (x.tokAt + 4 * (sqPrompt s q + g)) (ids.flatMap (leBytes 4))
      |> textRec q (rf s (Reg.SEQ_TABLE q 2) 16 16) g ids (b2n fin) (rf s (Reg.SEQ_TABLE q 6) 20 8) (rf s (Reg.SEQ_TABLE q 6) 0 20) x.time x.taint x.untr
          (ids.flatMap fun t => Config.detok (sqCove s q) t)
    if fin then s |> dropPages q |> freeSeq q else s
/-- One entry of a step that ends. -/
def endEntry (x : Step) (e : StepEnt) (s : Dev) : Dev :=
  if sqState s e.seq = 5 then s |> closeText e.seq |> freeSeq e.seq
  else if e.lost then { s with kv := { s.kv with waiting := s.kv.waiting ++ [(e.seq, e.by_)] } }
  else
    let s := wf (Reg.SEQ_TABLE e.seq 1) 0 16 (e.qpos + e.qcnt) s
    if e.yields then
      s |> whenS (sqState s e.seq == 3) (sqPutState e.seq 2)
        |> handTokens e.seq ((x.toks.filter fun t => t.1 == e.seq).map (·.2))
    else s
/-- The action KV_RECLAIM returns its frame once no page list names it (R366). -/
def reclaimDone (s : Dev) : Dev :=
  forS (s.err.acts.filter fun a => a.action == 14 && frRef s a.unit == 0) (fun a s => s |> returnFrame a.unit |> endActions 14 a.unit 1) s
/-- STEP_END (R203, R173): every task of the cove's step has ended; its tokens leave in ascending sequence number, delayed
evictions happen, and QUEUED sequences become ACTIVE. -/
def stepEnd (c : Nat) (s : Dev) : Dev :=
  match s.kv.steps.find? fun x => x.cove == c && x.started && x.done with
  | none => s
  | some x =>
    { s with kv := { s.kv with steps := s.kv.steps.filter fun y => y.cove != c } }
      |> forS x.ents (endEntry x)
      |> forS s.kv.evictLater (fun q s => if inStep s q || sqState s q = 0 then s
          else { s with kv := { s.kv with evictLater := s.kv.evictLater.filter (· != q) } } |> evictSeq q)
      |> showOldest |> promote c |> startReady |> reclaimDone

/-! ## SEQ_CMD (R178, R179, R183, R188) -/

/-- RESULT of a command; REFSAT stays that of the last SHARE_PREFIX (Table 7-13). -/
def seqResult (code : Nat) (s : Dev) : Dev := wf Reg.SEQ_CMD_RESULT 0 3 code s
/-- RESULT and REFSAT of a SHARE_PREFIX. -/
def shareResult (code : Nat) (sat : Bool) (s : Dev) : Dev := wrN Reg.SEQ_CMD_RESULT (code + b2n sat * 8) s
/-- The layers and pages of the first `n` positions. -/
def prefixPages (s : Dev) (q n : Nat) : List (Nat × Nat) :=
  (List.range (sqLayers s q)).flatMap fun l => (List.range (pagesFor n)).map fun p => (l, p)
/-- SHARE of one page, or its copy when REFCNT is 1,023 (R178). -/
def sharePage (q src : Nat) (lp : Nat × Nat) (s : Dev) : Dev :=
  match plFrame s src lp.1 lp.2 with
  | none => s
  | some f =>
    if frRef s f = 1023 then match allocatable s (sqHome s q) with
      | none => s
      | some g => s |> allocFrame g (sqCove s q) (frK4 s f) (frV4 s f)
        |> wrBytes .dram (frAddr s g) (rdBytes .dram s (frAddr s f) (kvFrameBytes s)) |> plPut q lp.1 lp.2 (some g)
        |> bump Reg.KVF_REFSAT_CNT 1 |> raise 0x0505 0 f
    else s |> frPutRef f (frRef s f + 1) |> plPut q lp.1 lp.2 (some f)
/-- Whether two sequences differ in LAYERS, HKV or d_h (R178). -/
def geometryDiffers (s : Dev) (q src : Nat) : Bool :=
  sqLayers s q != sqLayers s src || (sqX s q).hkv != (sqX s src).hkv || (sqX s q).dh != (sqX s src).dh
/-- SHARE_PREFIX (R178). -/
def sharePrefix (q src : Nat) (s : Dev) : Dev :=
  let n := rf s Reg.SEQ_CMD_ARG 0 16
  if inStep s q || inStep s src || sqState s q == 0 || sqState s src == 0 || q == src then shareResult 1 false s
  else if sqLen s src < n then shareResult 3 false s
  else if geometryDiffers s q src then shareResult 2 false s
  else
    let ps := prefixPages s src n
    let sat := (ps.filter fun p => match plFrame s src p.1 p.2 with | some f => frRef s f == 1023 | none => false).length
    if availOf s (sqCove s q) < sat then shareResult 5 false s
    else s |> leaveStep q |> dropPages q |> forS ps (sharePage q src) |> wf (Reg.SEQ_TABLE q 1) 0 16 n |> shareResult 0 (decide (0 < sat))
/-- SHARE_PREFIX (R178): TOKENS comes from SEQ_CMD_ARG. -/
def execSharePrefix (q src : Fin 1024) (s : State) : Result := onDev (sharePrefix q src) s
/-- CANCEL (R179). -/
def cancel (q : Nat) (s : Dev) : Dev :=
  if sqState s q = 0 ∨ sqState s q = 5 then seqResult 1 s
  else s |> bump Reg.SEQ_CANCEL_CNT 1 |> endSeq q |> seqResult 0
/-- CANCEL (R179). -/
def execCancel (q : Fin 1024) (s : State) : Result := onDev (cancel q) s
/-- EVICT (R183): refused in hardware mode; while its cove waits for the host it names a victim of that answer,
whatever the mode has become (R31). -/
def evict (q : Nat) (s : Dev) : Dev :=
  if !(tst s Reg.KVF_CTRL 0) && !(waitsHost s (sqCove s q)) then seqResult 4 s
  else if sqState s q ≠ 2 ∧ sqState s q ≠ 4 then seqResult 1 s
  else if waitsHost s (sqCove s q) then { s with kv := { s.kv with victims := s.kv.victims.filter (· != q) ++ [q] } } |> seqResult 0
  else s |> evictWhenFree q |> seqResult 0
/-- EVICT (R183). -/
def execEvict (q : Fin 1024) (s : State) : Result := onDev (evict q) s
/-- The sequences of a cove in HOST_WAIT. -/
def hostWaiting (s : Dev) (c : Nat) : List Nat := (List.range 1024).filter fun q => sqState s q == 4 && sqCove s q == c
/-- A cove no longer waits for the host. -/
def endHostWait (c : Nat) (s : Dev) : Dev :=
  let s := { s with kv := { s.kv with exhAt := mset (fun _ => none) s.kv.exhAt c none } }
  s |> setB Reg.KVF_STATUS 3 ((List.range 8).any (waitsHost s)) |> setShort c 0
/-- EXH_DONE (R183): the named victims that hold frames are evicted, and the waiting sequences are candidates again. -/
def exhDone (s : Dev) : Dev :=
  let cs := (List.range 8).filter (waitsHost s)
  if !(tst s Reg.KVF_CTRL 0) && cs.isEmpty then seqResult 4 s
  else if cs.isEmpty then seqResult 1 s
  else
    let vs := s.kv.victims.filter fun q => cs.contains (sqCove s q)
    { s with kv := { s.kv with victims := [] } }
      |> forS cs (fun c s => forS (hostWaiting s c) (fun q s => sqPutState q (sqX s q).was s) (endHostWait c s))
      |> forS vs (fun q s => if sqState s q = 2 then evictWhenFree q s else s) |> seqResult 0
/-- EXH_DONE (R183). -/
def execExhDone (s : State) : Result := onDev exhDone s
/-- KVF_HOST_TIMEOUT (R183, R32): KVF_HOST_LIM passes, and the waiting sequences are refused with busy records. -/
def kvfHostTimeout (c : Nat) (s : Dev) : Dev :=
  match mget (fun _ => none) s.kv.exhAt c with
  | none => s
  | some t =>
    let s := waitUntil (t + rf s Reg.KVF_HOST_LIM 0 16 * 1000000) s
    s |> forS (hostWaiting s c) (fun q s => s |> busyRec c (rf s (Reg.SEQ_TABLE q 2) 16 16) 4 0 |> dropPages q |> freeSeq q)
      |> endHostWait c |> hostGone 5 |> raiseFor 0x0503 c 0 c
/-- KVF_HOST_TIMEOUT (R183). -/
def execKvfHostTimeout (c : Fin 8) (s : State) : Result := onDev (kvfHostTimeout c) s

end Sys2Proof.Machine
end

