-- ==== Sys2Proof/Machine/Pixel.lean ====
section
/-! DEFINITION. Pixel pipes: profiles, generators, scaling, colour, staging, host lists (R273 to R284, R294). -/
set_option autoImplicit false
namespace Sys2Proof.Machine
open Sys2Proof

/-! ## Profiles, pyramids and classes (R275, R277, R282) -/

/-- The global pipe of a profile on a die. -/
def profPipe (s : Dev) (d p : Nat) : Nat := 2 * d + rf s (Reg.PIX_PROFILE p 0) 0 1
/-- A field of generator `g` of profile `p`, word `w`. -/
def genF (s : Dev) (p g w lo len : Nat) : Nat := rf s (Reg.PIX_PROFILE p (4 + 4 * g + w)) lo len
/-- Whether a profile's fields are in range (R275). -/
def profOk (s : Dev) (p : Nat) : Bool :=
  (List.range 7).all fun g =>
    let kind := genF s p g 0 0 3
    kind == 0 || (decide (kind < 5) && decide (genF s p g 0 6 3 < 7) && (kind != 4 || (genF s p g 0 11 4 != 0 && decide (genF s p g 0 15 7 ≤ 100))))
/-- Levels of a pyramid entry. -/
def pyrLevels (s : Dev) (i : Nat) : Nat := rf s (Reg.PIX_PYR (4 * i)) 0 3
/-- OV of a pyramid entry. -/
def pyrOv (s : Dev) (i : Nat) : Nat := rf s (Reg.PIX_PYR (4 * i)) 3 8
/-- RATIO of a level. -/
def pyrRatio (s : Dev) (i l : Nat) : Nat := rf s (Reg.PIX_PYR (4 * i + 1 + l / 2)) (16 * (l % 2)) 16
/-- Whether a pyramid entry's fields are in range (R277). -/
def pyrOk (s : Dev) (i : Nat) : Bool :=
  decide (1 ≤ pyrLevels s i) && decide (pyrLevels s i ≤ 6) &&
    (List.range (pyrLevels s i)).all fun l => decide (1 ≤ pyrRatio s i l) && decide (pyrRatio s i l ≤ 32768)
/-- A sample class (R282): Wc, Hc, planar or interleaved, E, means of R, G and B. -/
structure SClass where
  w : Nat
  h : Nat
  inter : Bool
  e : Nat
  mean : List Nat
  deriving DecidableEq, Repr
/-- The class entry of a cove. -/
def classOf (s : Dev) (c k : Nat) : SClass :=
  let a := Reg.PIX_CLASS_A c k
  let b := Reg.PIX_CLASS_B c k
  ⟨rf s a 0 13, rf s a 16 13, tst s a 13, rf s b 0 8, [rf s b 8 8, rf s b 16 8, rf s b 24 8]⟩
/-- Bytes of the element plane. -/
def SClass.elems (k : SClass) : Nat := if k.inter then 32 * k.w * k.h else 3 * k.w * k.h
/-- Where the exponent plane begins. -/
def SClass.expOfs (k : SClass) : Nat := ceilDiv k.elems 256 * 256
/-- Bytes of a sample. -/
def SClass.size (k : SClass) : Nat := k.expOfs + k.elems / 32
/-- SLOT_BYTES of a cove. -/
def slotBytes (s : Dev) (c : Nat) : Nat := rf s (Reg.PIX_Q_SLOT_BYTES c) 0 20 * 4096
/-- Whether an enabled class has a legal size and fits its cove's slots. -/
def classFits (s : Dev) (c k : Nat) : Bool :=
  let x := classOf s c k
  x.w % 32 == 0 && decide (x.w ≤ 4096) && decide (1 ≤ x.h) && decide (x.h ≤ 4096) && decide (x.e ≤ 254) && decide (x.size ≤ slotBytes s c)
/-- Whether a class yields samples. -/
def classOk (s : Dev) (c k : Nat) : Bool := (classOf s c k).w != 0 && classFits s c k
/-- Whether a pyramid generator and its class form a failing pairing (R277). -/
def pairBad (s : Dev) (p g : Nat) : Bool :=
  genF s p g 0 0 3 == 3 &&
    (let ov := pyrOv s (genF s p g 0 11 4)
     let k := classOf s (genF s p g 0 3 3) (genF s p g 0 6 3)
     decide (k.w ≤ ov) || decide (k.h ≤ ov)) && (classOf s (genF s p g 0 3 3) (genF s p g 0 6 3)).w != 0
/-- What makes a pairing: its pyramid entry, OV and class size. -/
def pairKey (s : Dev) (p g : Nat) : Nat × Nat × SClass :=
  (genF s p g 0 11 4, pyrOv s (genF s p g 0 11 4), classOf s (genF s p g 0 3 3) (genF s p g 0 6 3))
/-- PIX_CFG_INVALID with its unit (Table 11-11). -/
def pixInvalid (unit : Nat) (s : Dev) : Dev := raise 0x0B03 unit 0 s
/-- The checks of R277 and R282 after a write took effect: what fails now and did not fail so before `b` is reported. -/
def pixRecheck (b s : Dev) : Dev :=
  let cls := (List.range 56).filter fun i => (classOf s (i / 7) (i % 7)).w != 0 && !(classFits s (i / 7) (i % 7)) &&
    ((classOf b (i / 7) (i % 7)) != classOf s (i / 7) (i % 7) || slotBytes b (i / 7) != slotBytes s (i / 7))
  let prs := (List.range 896).filter fun i => pairBad s (i / 7) (i % 7) && !(pairBad b (i / 7) (i % 7) && pairKey b (i / 7) (i % 7) == pairKey s (i / 7) (i % 7))
  s |> forS cls (fun i => pixInvalid (i / 7)) |> forS prs (fun i s => pixInvalid (0x200 + genF s (i / 7) (i % 7) 0 11 4) s)

/-! ## Geometry (R276, R279) -/

/-- The placement of a box of w × h in Wc × Hc: origin and size on each axis (R279). -/
def placeBox (w h wc hc : Nat) (letterbox : Bool) : (Nat × Nat) × (Nat × Nat) :=
  let o : Nat × Nat :=
    if letterbox ∧ w * hc ≠ h * wc then
      if w * hc > h * wc then (wc, max 1 ((h * wc + w / 2) / w)) else (max 1 ((w * hc + h / 2) / h), hc)
    else (wc, hc)
  (((wc - o.1) / 2, o.1), ((hc - o.2) / 2, o.2))
/-- A box on one axis shifted to lie inside the picture, or clipped where it is larger. -/
def shiftIn (o : Int) (n pic : Nat) : Nat × Nat := if pic ≤ n then (0, pic) else ((clampI o 0 ((pic : Int) - n)).toNat, n)
/-- Growth of a box on one axis so that the scale up is at most 8 (R279). -/
def growAxis (o n wo pic : Nat) : Nat × Nat :=
  if 8 * n < wo then
    let n' := ceilDiv wo 8
    shiftIn ((o : Int) - ((n' - n) / 2 : Nat)) n' pic
  else (o, n)
/-- An axis of a sample whose box is scaled whole. -/
def boxAxis (o n pic : Nat) (at_ : Nat × Nat) : Axis :=
  let b := growAxis o n at_.2 pic
  { o := b.1, n := b.2, nOut := at_.2, off := 0, at_ := at_.1, len := at_.2, h0 := b.1, hn := b.2 }
/-- A sample from a box (x, y, w, h) of a picture. -/
def boxSamp (gen cls : Nat) (k : SClass) (flip lb : Bool) (gain : Nat) (trk : Option Nat) (pic : Nat × Nat) (b : Nat × Nat × Nat × Nat) : Samp :=
  let pl := placeBox b.2.2.1 b.2.2.2 k.w k.h lb
  { gen, cls, void := false, flip, gain := if gain = 0 then 64 else gain, trk, ax := boxAxis b.1 b.2.2.1 pic.1 pl.1, ay := boxAxis b.2.1 b.2.2.2 pic.2 pl.2 }
/-- A box intersected with the picture, when the intersection is not empty. -/
def cutBox (pic : Nat × Nat) (x y w h : Nat) : Option (Nat × Nat × Nat × Nat) :=
  if w = 0 ∨ h = 0 then some (0, 0, pic.1, pic.2)
  else if pic.1 ≤ x ∨ pic.2 ≤ y then none
  else some (x, y, min w (pic.1 - x), min h (pic.2 - y))
/-- Tile positions on one axis of a level (R276). -/
def tilesOf (wl wc ov : Nat) : List Nat :=
  if wl ≤ wc then [0] else (List.range (ceilDiv (wl - ov) (wc - ov))).map fun i => min (i * (wc - ov)) (wl - wc)
/-- An axis of a pyramid tile: part of the level at its own sampling grid, or the whole level placed by R279. -/
def tileAxis (pic wl wc xt : Nat) (at_ : Nat × Nat) : Axis :=
  if wl ≤ wc then { o := 0, n := pic, nOut := at_.2, off := 0, at_ := at_.1, len := at_.2, h0 := 0, hn := pic }
  else
    let h0 := xt * pic / wl
    { o := 0, n := pic, nOut := wl, off := xt, at_ := 0, len := wc, h0, hn := (xt + wc) * pic / wl - h0 }
/-- The tiles of one pyramid level. -/
def levelSamps (gen cls : Nat) (k : SClass) (flip lb : Bool) (gain ov : Nat) (pic : Nat × Nat) (ratio : Nat) : List Samp :=
  let wl := (pic.1 * ratio + 16384) / 32768
  let hl := (pic.2 * ratio + 16384) / 32768
  if wl = 0 ∨ hl = 0 then []
  else
    let pl := placeBox (min wl k.w) (min hl k.h) k.w k.h lb
    (tilesOf hl k.h ov).flatMap fun yt => (tilesOf wl k.w ov).map fun xt =>
      { gen, cls, void := false, flip, gain := if gain = 0 then 64 else gain, ax := tileAxis pic.1 wl k.w xt pl.1, ay := tileAxis pic.2 hl k.h yt pl.2 }
/-- A coordinate of a track box in units of 1/65,536 sample. -/
def fixed16 (a : Nat) : Int := toInt32 (tmul a (ofInt32 65536)) (-(2 ^ 40)) (2 ^ 40)
/-- A box on one axis in units of 1/65,536 sample, as origin and length in whole samples that cover it, inside the picture. -/
def coverIn (lo hi : Int) (pic : Nat) : Nat × Nat :=
  let o := lo / 65536
  shiftIn o (max 1 (-((-hi) / 65536) - o).toNat) pic
/-- The source box of a tracker crop (R276): grown by the margin, widened to the class's aspect ratio, shifted into the picture. -/
def crop (pic : Nat × Nat) (k : SClass) (margin : Nat) (b : Nat × Nat × Nat × Nat) : Nat × Nat × Nat × Nat :=
  let x0 := fixed16 b.1
  let y0 := fixed16 b.2.1
  let x1 := fixed16 b.2.2.1
  let y1 := fixed16 b.2.2.2
  let mx := (x1 - x0) * margin / 100
  let my := (y1 - y0) * margin / 100
  let w := x1 - x0 + 2 * mx
  let h := y1 - y0 + 2 * my
  let w' := max w (h * k.w / k.h)
  let h' := max h (w * k.h / k.w)
  let x := coverIn (x0 - mx - (w' - w) / 2) (x0 - mx - (w' - w) / 2 + w') pic.1
  let y := coverIn (y0 - my - (h' - h) / 2) (y0 - my - (h' - h) / 2 + h') pic.2
  (x.1, y.1, x.2, y.2)
/-- The tracks of a stream that tracker crops use, predicted to a capture time: descending area, lower track first. -/
def cropTracks (s : Dev) (d st cap n : Nat) : List (Nat × Ent) :=
  let ts := (streamTracks s d st [2]).map fun t => (t, predict s d cap (trkGet s t))
  let area (e : Ent) : Nat := tmul (e.x.getD 2 0) (e.x.getD 3 0)
  (sortBy (fun a b => lt32 (area b.2) (area a.2)) ts).take n

/-- The samples of one generator (Table 11-4), and whether an empty crop was met. -/
def genSamps (s : Dev) (d : Nat) (id : FrameId) (p g : Nat) : List (Nat × Samp) × Bool :=
  let c := genF s p g 0 3 3
  let cls := genF s p g 0 6 3
  let k := classOf s c cls
  let flip := genF s p g 0 9 1 == 1
  let lb := genF s p g 0 10 1 == 1
  let gain := genF s p g 3 0 8
  let pic := (id.w, id.h)
  if genF s p g 0 0 3 = 0 ∨ !(classOk s c cls) then ([], false)
  else match genF s p g 0 0 3 with
    | 1 => ([(c, boxSamp g cls k flip lb gain none pic (0, 0, id.w, id.h))], false)
    | 2 => match cutBox pic (genF s p g 1 0 16) (genF s p g 1 16 16) (genF s p g 2 0 16) (genF s p g 2 16 16) with
      | none => ([], true)
      | some b => ([(c, boxSamp g cls k flip lb gain none pic b)], false)
    | 3 =>
      let i := genF s p g 0 11 4
      if pairBad s p g || !(pyrOk s i) then ([], false)
      else (((List.range (pyrLevels s i)).flatMap fun l => levelSamps g cls k flip lb gain (pyrOv s i) pic (pyrRatio s i l)).map fun x => (c, x), false)
    | _ => ((cropTracks s d id.stream id.cap (genF s p g 0 11 4)).map fun t =>
        (c, boxSamp g cls k flip lb gain (some t.1) pic (crop pic k (genF s p g 0 15 7) t.2.box)), false)
/-- The coves that a profile names, ascending. -/
def profCoves (s : Dev) (p : Nat) : List Nat :=
  (List.range 8).filter fun c => !(isSeqCove s c) && (List.range 7).any fun g => genF s p g 0 0 3 != 0 && genF s p g 0 3 3 == c

/-! ## Scaling and colour (R280, R281) -/

/-- A coefficient of the polyphase filter. -/
def coef (s : Dev) (ph t : Nat) : Int := toSigned (rf s (Reg.PIX_COEF (4 * ph + t / 2)) (16 * (t % 2)) 10) 10
/-- An axis after the 2:1 box decimations that its step needs: how many, origin, length, plane length. -/
def decimations (nOut : Nat) : Nat → Nat → Nat → Nat → Nat → Nat × Nat × Nat × Nat
  | 0, k, o, n, np => (k, o, n, np)
  | f + 1, k, o, n, np =>
    if n * 65536 / nOut > 131072 then decimations nOut f (k + 1) (o / 2) (ceilDiv n 2) (ceilDiv np 2) else (k, o, n, np)
/-- Sample `j` of a line after `k` decimations; `np` is the undecimated length. -/
def decimated (src : Nat → Int) (np : Nat) : Nat → Nat → Int
  | 0, j => src j
  | k + 1, j =>
    let len := Nat.repeat (fun n => ceilDiv n 2) k np
    (decimated src np k (2 * j) + decimated src np k (min (2 * j + 1) (len - 1)) + 1) / 2
/-- The exact filter sum at output `x` of an axis (R280). -/
def filterAt (s : Dev) (src : Nat → Int) (o n nOut np x : Nat) : Int :=
  let d := decimations nOut 20 0 o n np
  let step : Int := (d.2.2.1 * 65536 / nOut : Nat)
  let p := (2 * (x : Int) + 1) * step - 65536
  let i := p / 131072
  let ph := (p % 131072 / 2048).toNat
  (List.range 8).foldl (fun a t => a + coef s ph t * decimated src np d.1 (clampI ((d.2.1 : Int) + i - 3 + t) 0 ((d.2.2.2 : Int) - 1)).toNat) 0
/-- One output of a plane: horizontally first, then vertically, rounded and clamped to 10 bits. -/
def scaleAt (s : Dev) (src : Nat → Nat → Int) (ax ay : Nat × Nat × Nat × Nat) (x y : Nat) : Int :=
  let h (r : Nat) : Int := filterAt s (fun c => src c r) ax.1 ax.2.1 ax.2.2.1 ax.2.2.2 x
  clampI ((filterAt s h ay.1 ay.2.1 ay.2.2.1 ay.2.2.2 y + 32768) / 65536) 0 1023
/-- Conversion coefficients (Table 11-5 and the JFIF row of R281): yo, ky, kr, kgb, kgr, kb. -/
def matrixRow (m : Nat) : Int × Int × Int × Int × Int × Int :=
  match m with
  | 0 => (64, 4769, 7343, 873, 2183, 8652)
  | 1 => (64, 4769, 6537, 1605, 3330, 8263)
  | 2 => (0, 4096, 6450, 767, 1917, 7601)
  | _ => (0, 4096, 5743, 1410, 2925, 7258)
/-- The row that a picture uses: JFIF for JPEG, MATRIX, or what the VUI signals (bit 0 present, bit 1 full range, from bit 2 on
matrix_coefficients). -/
def matrixFor (s : Dev) (prof : Nat) (jpeg : Bool) (vui : Nat) : Nat :=
  let m := rf s (Reg.PIX_PROFILE prof 0) 1 2
  if jpeg then 3
  else if m < 3 then m
  else if !(bitOf vui 0) then 0
  else if bitOf vui 1 then 2
  else if vui / 4 = 5 ∨ vui / 4 = 6 then 1 else 0
/-- RGB of a converted pixel, 10 bits each. -/
def toRgb (m : Int × Int × Int × Int × Int × Int) (y cb cr : Int) : List Int :=
  let f (a : Int) : Int := clampI ((a + 2048) / 4096) 0 1023
  let l := m.2.1 * (y - m.1)
  [f (l + m.2.2.1 * (cr - 512)), f (l - m.2.2.2.1 * (cb - 512) - m.2.2.2.2.1 * (cr - 512)), f (l + m.2.2.2.2.2 * (cb - 512))]
/-- A BX8 element from a component (R281), and whether it was clamped. -/
def toElem (e mean gain : Nat) (v : Int) : Int × Bool :=
  let x := (v - 4 * mean) * gain
  let k : Int := (127 : Int) - e - 8
  let m := if 0 ≤ k then x.natAbs * 2 ^ k.toNat else rneShift x.natAbs (-k).toNat
  let q : Int := if x < 0 then -(m : Int) else m
  (clampI q (-128) 127, decide (q < -128) || decide (127 < q))
/-- The three elements of an output pixel: letterbox fill is 0. -/
def pixelAt (s : Dev) (pic : Pic) (m : Nat) (k : SClass) (sm : Samp) (x y : Nat) : List (Int × Bool) :=
  let x := if sm.flip then k.w - 1 - x else x
  if x < sm.ax.at_ ∨ sm.ax.at_ + sm.ax.len ≤ x ∨ y < sm.ay.at_ ∨ sm.ay.at_ + sm.ay.len ≤ y then List.replicate 3 (0, false)
  else
    let w := pic.id.w
    let h := pic.id.h
    let up (v : Nat) : Int := if pic.p10 then v else 4 * v
    let ax := (sm.ax.o, sm.ax.n, sm.ax.nOut, w)
    let ay := (sm.ay.o, sm.ay.n, sm.ay.nOut, h)
    let cx := (sm.ax.o / 2, sm.ax.n / 2, sm.ax.nOut, w / 2)
    let cy := (sm.ay.o / 2, sm.ay.n / 2, sm.ay.nOut, h / 2)
    let px := x - sm.ax.at_ + sm.ax.off
    let py := y - sm.ay.at_ + sm.ay.off
    let l := scaleAt s (fun a b => up (lumaRaw s pic.key pic.buf w pic.p10 a b)) ax ay px py
    let c (i : Nat) : Int := scaleAt s (fun a b => up (chromaRaw s pic.key pic.buf w h pic.p10 i a b)) cx cy px py
    (enum (toRgb (matrixRow m) l (c 0) (c 1)) 0).map fun p => toElem k.e (k.mean.getD p.1 0) sm.gain p.2
/-- A sample's bytes (R282) and how many elements were clamped. -/
def sampleBytes (s : Dev) (pic : Pic) (m : Nat) (k : SClass) (sm : Samp) : List Byte × Nat :=
  let rows := (List.range k.h).map fun y => (List.range k.w).map fun x => pixelAt s pic m k sm x y
  let clamps := sumN (rows.map fun r => sumN (r.map fun p => (p.filter (·.2)).length))
  let byte (v : Int × Bool) : Byte := BitVec.ofInt 8 v.1
  let elems := if k.inter then rows.flatMap fun r => r.flatMap fun p => p.map byte ++ List.replicate 29 0
    else (List.range 3).flatMap fun c => rows.flatMap fun r => r.map fun p => byte (p.getD c (0, false))
  (padTo 256 elems ++ List.replicate (k.elems / 32) (BitVec.ofNat 8 k.e), clamps)
/-- VCLK cycles, and so ns, that a pipe takes for a sample (R283). -/
def buildTime (pic : Pic) (k : SClass) (sm : Samp) : Nat :=
  let bytes := sm.ax.n * sm.ay.n * (1 + b2n pic.p10) * 3 / 2
  256 + max (ceilDiv (k.w * k.h) 2) (ceilDiv bytes 64)

/-! ## Pipes, pending frames and staging (R273, R284, R285) -/

/-- The pictures of a pipe. -/
def pipeOf (s : Dev) (q : Nat) : List Pic := mget (fun _ => []) s.pix.pipes q
/-- Set them. -/
def putPipe (q : Nat) (ps : List Pic) (s : Dev) : Dev := { s with pix := { s.pix with pipes := mset (fun _ => []) s.pix.pipes q ps } }
/-- Two frames are of one picture. -/
def FrameId.same (a b : FrameId) : Bool := a.stream == b.stream && a.cap == b.cap
/-- Replace a picture of a pipe, found by its frame. -/
def putPic (q : Nat) (p : Pic) (s : Dev) : Dev := putPipe q ((pipeOf s q).map fun x => if x.id.same p.id then p else x) s
/-- The pending frame of a cove. -/
def pendOf (s : Dev) (c : Nat) (id : FrameId) : Option PFrame := (coveOf s c).frames.find? fun f => f.id.same id
/-- Remove a pending frame, and with it its staging slots. -/
def delPend (c : Nat) (id : FrameId) (s : Dev) : Dev := modCove c (fun v => { v with frames := v.frames.filter fun f => !(f.id.same id) }) s
/-- A frame becomes pending, behind the frames of its stream with earlier capture times. -/
def addPend (c : Nat) (id : FrameId) (s : Dev) : Dev :=
  if (pendOf s c id).isSome then s
  else
    let fs := (coveOf s c).frames
    let n := (enum fs 0).foldl (fun a p => if p.2.id.stream == id.stream && decide (id.cap < p.2.id.cap) then min a p.1 else a) fs.length
    modCove c (fun v => { v with frames := fs.take n ++ [{ id }] ++ fs.drop n }) s
/-- The staging slots of a cove on a die that are in use: of pending frames, of copies to be done, of samples being built. -/
def stagingUsed (s : Dev) (c d : Nat) : List Nat :=
  let v := coveOf s c
  (v.frames.flatMap fun f => f.samples.filterMap fun x => if x.2.1 = d then some x.2.2 else none) ++
    (v.queue.flatMap fun j => if j.copies.contains d then j.staged.filterMap fun x => if x.1 = d then some x.2.1 else none else []) ++
    ((List.range 2).flatMap fun i => (pipeOf s (2 * d + i)).filterMap fun p => match p.cur with
      | some (c', _, slot) => if c' = c then some slot else none
      | none => none)
/-- Staging slots of a cove on a die. -/
def stagingSlots (s : Dev) (c d : Nat) : Nat := rf s (Reg.PIX_Q_STAGE_SLOTS c) (16 * d) 12
/-- The lowest free staging slot. -/
def freeStage (s : Dev) (c d : Nat) : Option Nat := (List.range (stagingSlots s c d)).find? fun i => !((stagingUsed s c d).contains i)
/-- The address of a staging slot. -/
def stageAddr (s : Dev) (c d i : Nat) : Nat := rf s (if d = 0 then Reg.PIX_Q_STAGE0 c else Reg.PIX_Q_STAGE1 c) 0 28 * 4096 + i * slotBytes s c
/-- A picture leaves its pipe: its OUT mark is cleared (R273). -/
def endPic (q : Nat) (p : Pic) (s : Dev) : Dev :=
  s |> putPipe q ((pipeOf s q).filter fun x => !(x.id.same p.id)) |> clearOut p.key p.buf
/-- A started picture with nothing left to build is complete. -/
def picCheck (q : Nat) (id : FrameId) (s : Dev) : Dev :=
  match (pipeOf s q).find? fun p => p.id.same id with
  | none => s
  | some p =>
    if p.started then if p.todo.isEmpty && p.cur.isNone && p.queries.isEmpty then s |> endPic q p |> bump (Reg.PIX_PIC_CNT q) 1 else s
    else if p.coves.isEmpty && p.queries.isEmpty then endPic q p s else s
/-- A pending frame of a cove with every sample in staging is ready; one that yields no sample takes no part (R284). -/
def readyCheck (c : Nat) (id : FrameId) (s : Dev) : Dev :=
  let busy := (List.range 4).any fun q => (pipeOf s q).any fun p => p.id.same id &&
    (!p.started || p.todo.any (fun x => x.1 == c) || (match p.cur with | some x => x.1 == c | none => false))
  match pendOf s c id with
  | none => s
  | some f =>
    if busy then s
    else if f.samples.isEmpty then delPend c id s
    else modCove c (fun v => { v with frames := v.frames.map fun g => if g.id.same id then { g with ready := true } else g }) s
/-- A frame leaves the pending frames of a cove before its samples are all built: its picture drops what it had for the cove. -/
def unpend (c : Nat) (id : FrameId) (s : Dev) : Dev :=
  s |> delPend c id |> forS (List.range 4) (fun q s =>
    s |> putPipe q ((pipeOf s q).map fun p => if p.id.same id then { p with coves := p.coves.filter (· != c), todo := p.todo.filter fun x => x.1 != c } else p)
      |> picCheck q id)

/-- A query image that a sequence still waits for (R314): (sequence, place) of a stream, in ascending sequence number, when no
picture in a pipe is taken for it and its cove is not in HOLD (R192). -/
def imagesFor (s : Dev) (st : Nat) : List (Nat × Nat) :=
  let taken (x : Nat × Nat) : Bool := (List.range 4).any fun q => (pipeOf s q).any fun p => p.queries.contains x
  s.kv.xs.flatMap fun x => x.2.imgs.filterMap fun i => if i.1 = st ∧ !(taken (x.1, i.2)) ∧ coveState s (sqCove s x.1) ≠ 5 then some (x.1, i.2) else none
/-- A codec engine outputs a picture to the stream's pipe (R227, R273): pending for the vision coves of the profile, and taken for
the query images that wait for the stream. A pipe that failed its self-test makes every frame a gap (R412). -/
def handPicture (key b : Nat) (s : Dev) : Dev :=
  let x := bufOf s key b
  let st := ctxStream s key
  let prof := stProfile s st
  let q := profPipe s (key / 256) prof
  let id : FrameId := { stream := st, cap := x.cap, w := x.w, h := x.h, untr := x.untr, taint := x.taint }
  let p : Pic := { key, buf := b, id, corrupt := x.corrupt, p10 := x.p10, vui := x.vui, jpeg := ctxCodec s key == 3, host := tst s Reg.PIX_CTRL 0, coves := profCoves s prof, queries := if x.corrupt then [] else imagesFor s st }
  if s.bt.heldOff.contains (88 + q) then gap1 st .contained 0xFF 0xFF x.cap x.untr s
  else s |> modBuf key b (fun y => { y with out := y.out + 1 })
    |> forS (p.coves.filter fun c => decide (1 ≤ coveState s c) && decide (coveState s c ≤ 3)) (fun c => addPend c id)
    |> putPipe q (pipeOf s q ++ [p]) |> picCheck q id
/-- A host-assisted picture is posted to the pixel ring (R278). -/
def postPic (q : Nat) (p : Pic) (s : Dev) : Dev :=
  if !p.host || p.post.isSome || p.started then s
  else s |> putPic q { p with post := some (nextTag s 7, now s) } |> hostPost 7 1 (leBytes 2 p.id.stream ++ leBytes 2 p.id.w ++ leBytes 2 p.id.h ++ leBytes 2 0 ++ leBytes 8 p.id.cap)
/-- Every picture of a pipe that waits for its post. -/
def postPics (q : Nat) (s : Dev) : Dev := forS (pipeOf s q) (postPic q) s
/-- Table 11-1 for one cove of a picture: the samples that are to be built, none when the frame is not built for it. -/
def sortFor (p : Pic) (c : Nat) (xs : List (Nat × Samp)) (s : Dev) : List (Nat × Samp) × Dev :=
  let mine := xs.filter fun x => x.1 == c
  if coveState s c = 5 then ([], s |> delPend c p.id |> gap1 p.id.stream .held c 0xFF p.id.cap p.id.untr)
  else if coveState s c = 0 ∨ coveState s c = 4 ∨ coveState s c = 6 then ([], delPend c p.id s)
  else if p.id.taint ∧ stF s p.id.stream 0 12 1 = 1 then ([], s |> delPend c p.id |> gap1 p.id.stream .tainted c 0xFF p.id.cap p.id.untr)
  else if mine.isEmpty then ([], delPend c p.id s)
  else (mine.map fun x => (x.1, { x.2 with void := p.corrupt }), addPend c p.id s)
/-- PIPE_PICTURE_START (R273): the first picture whose parameters are there is started; its samples are listed in generator
order. -/
def pipePictureStart (q : Nat) (s : Dev) : Dev :=
  if !(domRuns s (88 + q)) || (pipeOf s q).any (·.started) then s
  else
    let s := postPics q s
    match (pipeOf s q).find? fun p => !p.host || p.list.isSome with
    | none => s
    | some p =>
      let prof := stProfile s p.id.stream
      let gs := (List.range 7).map fun g => genSamps s (q / 2) p.id prof g
      let xs := if p.host then p.list.getD [] else gs.flatMap (·.1)
      let empties := if p.host then 0 else (gs.filter (·.2)).length
      let coves := (List.range 8).filter fun c => p.coves.contains c || (p.host && xs.any fun x => x.1 == c)
      let r := coves.foldl (fun (a : List (Nat × Samp) × Dev) c => (let y := sortFor p c xs a.2
        (a.1 ++ y.1, y.2))) ([], bump (Reg.PIX_CROP_EMPTY_CNT q) empties s)
      let kept := coves.filter fun c => r.1.any fun x => x.1 == c
      let todo := (xs.filter fun x => kept.contains x.1).map fun x => (x.1, { x.2 with void := p.corrupt })
      r.2 |> putPic q { p with started := true, coves := kept, todo } |> picCheck q p.id
/-- PIPE_PICTURE_START (R273). -/
def execPipePictureStart (q : Fin 4) (s : State) : Result := onDev (pipePictureStart q) s

/-- A sample has its place in staging: it joins its frame. -/
def joinFrame (q c slot : Nat) (id : FrameId) (x : Samp) (s : Dev) : Dev :=
  s |> modCove c (fun v => { v with frames := v.frames.map fun f => if f.id.same id then { f with samples := f.samples ++ [(x, q / 2, slot)] } else f })
    |> readyCheck c id
/-- The sample of a query image (R314): the whole picture in class 0 of the sequence cove. -/
def querySamp (s : Dev) (p : Pic) (seq : Nat) : Samp :=
  boxSamp 0 0 (classOf s (sqCove s seq) 0) false false 64 none (p.id.w, p.id.h) (0, 0, p.id.w, p.id.h)
/-- PIPE_SAMPLE_START (R283, R284): the pipe begins its next sample in the lowest free staging slot, or waits for one. A void
sample takes its slot and no time; query images come last and take no slot, and none is built for a cove in HOLD (R192). -/
def pipeSampleStart (q : Nat) (s : Dev) : Dev :=
  match (pipeOf s q).find? (·.started) with
  | none => s
  | some p =>
    if p.cur.isSome || !(domRuns s (88 + q)) then s
    else match p.todo with
      | [] => match p.queries.filter fun x => coveState s (sqCove s x.1) != 5 with
        | [] => s |> putPic q { p with queries := [] } |> whenS (!p.queries.isEmpty) (picCheck q p.id)
        | x :: xs => putPic q { p with queries := x :: xs, cur := some (8, querySamp s p x.1, 0), at_ := now s } s
      | (c, x) :: rest => match freeStage s c (q / 2) with
        | none => putPic q { p with waits := some (p.waits.getD (now s)) } s
        | some i =>
          let s := bump (Reg.PIX_STAGE_WAIT_CNT q) (now s - p.waits.getD (now s)) s
          if x.void then s |> putPic q { p with todo := rest, waits := none } |> joinFrame q c i p.id x |> picCheck q p.id
          else putPic q { p with todo := rest, waits := none, cur := some (c, x, i), at_ := now s } s
/-- PIPE_SAMPLE_START (R283). -/
def execPipeSampleStart (q : Fin 4) (s : State) : Result := onDev (pipeSampleStart q) s

/-- What a pipe's checks find while it builds a sample (R294): 1 a corrected error, 2 an uncorrected one in a pipe memory, 3 one of
DRAM in the source picture. -/
def pipeFault (q flt : Nat) (p : Pic) (idx : Nat) (s : Dev) : Dev :=
  let info := p.id.stream + (flt - 1) * 2 ^ 9 + idx % 2 ^ 16 * 2 ^ 11
  match flt with
  | 0 => s
  | 1 => s |> bump16 (Reg.PIX_ECC_CNT q) 0 1 |> raiseFor 0x0A00 q 0 p.id.stream
  | 2 => s |> bump16 (Reg.PIX_ECC_CNT q) 16 1 |> wrN (Reg.PIX_FAULT_INFO q) info |> raiseFor 0x0A01 q info p.id.stream
  | _ => s |> wrN (Reg.PIX_FAULT_INFO q) info |> raiseFor 0x0A02 q info p.id.stream
/-- Whether a pipe reaches the picture that it reads and the bytes that it writes (R325, R345). -/
def pipeReach (s : Dev) (q : Nat) (p : Pic) (a n : Nat) : Option NoReach :=
  (dramRead s (q / 2) (bufAddr s p.key p.buf) (picBytes p.id.w p.id.h p.p10)).or (dramReach s (q / 2) a n)
/-- Where a query image lies in its sequence's input store. -/
def imageAddr (s : Dev) (seq place size : Nat) : Nat := rdN s (Reg.SEQ_TABLE seq 7) * 256 + place * size
/-- A query image is in the sequence's input store (R314): the first place gives TIME, a tainted picture TAINT. -/
def imageDone (seq place : Nat) (p : Pic) (bytes : List Byte) (s : Dev) : Dev :=
  let x := sqX s seq
  s |> wrBytes .dram (imageAddr s seq place bytes.length) bytes
    |> putSqX seq { x with imgs := x.imgs.filter (fun i => i.2 != place), taint := x.taint || p.id.taint, time := if place = 0 then p.id.cap else x.time, untr := if place = 0 then p.id.untr else x.untr }
/-- PIPE_SAMPLE_DONE (R283): the sample is written to its staging slot, or is void; or a query image is written. An access that is answered with
an error is one of the source picture (R294). -/
def pipeSampleDone (q flt0 : Nat) (s : Dev) : Dev :=
  match (pipeOf s q).find? (·.started) with
  | none => s
  | some p => match p.cur with
    | none => s
    | some (c, x, slot) =>
      let m := matrixFor s (stProfile s p.id.stream) p.jpeg p.vui
      let idx := match pendOf s c p.id with | some f => f.samples.length | none => 0
      let cove := if c = 8 then match p.queries with | y :: _ => sqCove s y.1 | [] => 0 else c
      let k := classOf s cove x.cls
      let t := buildTime p k x
      let far := pipeReach s q p (match c, p.queries with | 8, y :: _ => imageAddr s y.1 y.2 k.size | _, _ => stageAddr s c (q / 2) slot) k.size
      let flt := if far.isSome then 3 else flt0
      let s := (far.map (reportReach · s)).getD s
      let s := s |> waitUntil (p.at_ + t) |> bump64 (Reg.PIX_BUSY_CNT_LO q) t |> pipeFault q flt p idx
      let bad := decide (2 ≤ flt)
      if c = 8 then match p.queries with
        | [] => s
        | y :: ys =>
          let b := sampleBytes s p m k x
          s |> putPic q { p with cur := none, queries := ys }
            |> whenS (!bad && (sqX s y.1).imgs.any fun i => i.2 == y.2) (fun s => s |> bump (Reg.PIX_CLAMP_CNT q) b.2 |> imageDone y.1 y.2 p b.1)
            |> picCheck q p.id
      else
        let keep := (pendOf s c p.id).isSome
        let b := sampleBytes s p m k x
        s |> whenS (!bad) (fun s => s |> wrBytes .dram (stageAddr s c (q / 2) slot) b.1 |> bump (Reg.PIX_SAMPLE_CNT q) 1 |> bump (Reg.PIX_CLAMP_CNT q) b.2)
          |> putPic q { p with cur := none }
          |> whenS keep (joinFrame q c slot p.id { x with void := bad }) |> picCheck q p.id
/-- PIPE_SAMPLE_DONE (R283). -/
def execPipeSampleDone (q : Fin 4) (flt : Fin 4) (s : State) : Result := onDev (pipeSampleDone q flt) s

/-! ## Host lists (R278) -/

/-- Whether an entry of an H2D ring has a length that fits its slot (Table 16-7). -/
def h2dOk (s : Dev) (r kind : Nat) (h : H2D) : Bool := h.kind == kind && decide (h.len + 16 ≤ ringSlot s r)
/-- Whether an entry of a host list yields a sample. -/
def listOk (s : Dev) (e : ListSamp) : Bool := decide (e.cove < 8) && !(isSeqCove s e.cove) && decide (e.cls < 7) && classOk s e.cove e.cls
/-- One entry of a host list: its sample, or PIX_CFG_INVALID and a gap record with reason host; an empty crop yields nothing. -/
def listEntry (q : Nat) (id : FrameId) (a : List (Nat × Samp) × Dev) (e : ListSamp) : List (Nat × Samp) × Dev :=
  let vision := decide (e.cove < 8) && !(isSeqCove a.2 e.cove)
  if !(listOk a.2 e) then
    (a.1, a.2 |> pixInvalid (if vision then e.cove else 0xFF) |> gap1 id.stream .host (if vision then e.cove else 0xFF) (e.cls % 256) id.cap id.untr)
  else match cutBox (id.w, id.h) e.x0 e.y0 e.w e.h with
    | none => (a.1, bump (Reg.PIX_CROP_EMPTY_CNT q) 1 a.2)
    | some b => (a.1 ++ [(e.cove, boxSamp 0 e.cls (classOf a.2 e.cove e.cls) e.flip e.letterbox (e.gain % 256) none (id.w, id.h) b)], a.2)
/-- The pipe and picture that wait for the answer to a post. -/
def picByTag (s : Dev) (tag : Nat) : Option (Nat × Pic) :=
  (List.range 4).findSome? fun q => ((pipeOf s q).find? fun p => !p.started && p.list.isNone && (match p.post with | some x => x.1 == tag | none => false)).map fun p => (q, p)
/-- SAMPLE_LIST (R278): the host's list for a posted picture. -/
def sampleList (h : H2D) (es : List ListSamp) (s : Dev) : Dev :=
  if !(ringHasEntry s 8) then s
  else
    let s := ringTake 8 s
    if !(h2dOk s 8 1 h) || decide (32 < es.length) then staleEntry s
    else match picByTag s h.tag with
      | none => staleEntry s
      | some (q, p) =>
        let r := es.foldl (listEntry q p.id) ([], s)
        r.2 |> putPic q { p with list := some r.1 } |> postPics q
/-- SAMPLE_LIST (R278). -/
def execSampleList (h : H2D) (es : List ListSamp) (s : State) : Result := onDev (sampleList h es) s
/-- PIX_HOST_TIMEOUT (R278, R32): no list for the oldest posted picture of a pipe. -/
def pixHostTimeout (q : Nat) (s : Dev) : Dev :=
  match (pipeOf s q).find? fun p => !p.started && p.list.isNone && p.post.isSome with
  | none => s
  | some p =>
    let x := p.post.getD (0, 0)
    s |> waitUntil (x.2 + rf s Reg.PIX_HOST_LIM 0 16 * 1000000) |> dropPost 7 x.1 |> hostGone 3 |> endPic q p
      |> forS p.coves (fun c s => s |> delPend c p.id |> gap1 p.id.stream .host c 0xFF p.id.cap p.id.untr)
      |> raiseFor 0x0B02 (p.coves.headD 0) 0 p.id.stream |> postPics q
/-- PIX_HOST_TIMEOUT (R278). -/
def execPixHostTimeout (q : Fin 4) (s : State) : Result := onDev (pixHostTimeout q) s

/-! ## Registers (R295) -/

/-- The PIX_Q_ registers of a cove by number, with the bits each holds: CFG, BASE, SLOT_BYTES, STAGE, STAGE_SLOTS. -/
def pixQReg (c i : Nat) : Nat × Nat :=
  match i with
  | 0 => (Reg.PIX_Q_CFG c, 26)
  | 1 => (Reg.PIX_Q_BASE_LO c, 32)
  | 2 => (Reg.PIX_Q_BASE_HI c, 8)
  | 3 => (Reg.PIX_Q_SLOT_BYTES c, 20)
  | 4 => (Reg.PIX_Q_STAGE0 c, 28)
  | 5 => (Reg.PIX_Q_STAGE1 c, 28)
  | _ => (Reg.PIX_Q_STAGE_SLOTS c, 28)
/-- A write of PIX_Q_ register `i` of a cove, or of it and the next one as a pair (R295): accepted in OFF, STOPPED, HOLD and FAULT; QDEPTH and
SLOTS_MAX are clamped (Table 11-12). -/
def pixQConfigWrite (c i : Nat) (vs : List Nat) (s : Dev) : Dev :=
  if coveState s c ∈ [1, 2, 3] then raiseFor 0x0B05 c 0 c s
  else
    let put (j : Nat) (s : Dev) : Dev :=
      let r := pixQReg c (i + j)
      let n := vs.getD j 0 % 2 ^ r.2
      let n := if i + j = 0 then putBits (putBits n 0 7 (clampN (bits n 0 7) 1 64)) 13 13 (clampN (bits n 13 13) 1 4096) else n
      wrN r.1 (if 6 ≤ i + j then putBits n 12 4 0 else n) s
    let t := forS (List.range vs.length) put s
    if i = 3 then pixRecheck s t else t

end Sys2Proof.Machine
end

