-- ==== Sys2Proof/Machine/Moments.lean ====
section
/-! DEFINITION. What a step of device time moves with it (R35, R49): the device times from which limits, widths and intervals in
progress are counted. -/
set_option autoImplicit false
namespace Sys2Proof.Machine
open Sys2Proof

/-- Change every listed value of a table; the canonical form is kept. -/
def mmap {α : Type} [DecidableEq α] (d : Nat → α) (f : α → α) (m : SMap α) : SMap α :=
  (m.map fun x => (x.1, f x.2)).filter fun x => x.2 != d x.1
/-- A moment moved by `d`; 0 stands for none, and a moment that would lie before the epoch becomes 1 (log entry 56). -/
def moved (d : Int) (t : Nat) : Nat := if t = 0 then 0 else max 1 ((t : Int) + d).toNat
/-- The second of a pair, moved. -/
def movedSnd (d : Int) {α : Type} (x : α × Nat) : α × Nat := (x.1, moved d x.2)
/-- The moments of a PTP exchange, of the masters heard and of the limits of Table 2-1. -/
def Ptp.moved (d : Int) (p : Ptp) : Ptp :=
  let heard (m : Master) : Master := { m with at_ := Machine.moved d m.at_ }
  { p with masters := p.masters.map heard, sel := p.sel.map heard, sync := p.sync.map fun x => (x.1, x.2 + d),
           wait := p.wait.map fun w => { w with t2 := w.t2 + d }, req := p.req.map fun q => { q with t3 := q.t3 + d },
           holdFrom := Machine.moved d p.holdFrom, acqFrom := p.acqFrom.map (Machine.moved d) }
/-- The last edges, the action time and what is counted from it, and the pulses (R53, R55, R56); the next mark is placed by R49. -/
def Tide.moved (d : Int) (t : Tide) : Tide :=
  let mv := Machine.moved d
  { t with lastEdge := t.lastEdge.map mv, lastHost := t.lastHost.map mv, since := t.since.map mv, action := mv t.action, win := t.win.map mv,
           soFall := t.soFall.map mv, ppsFall := t.ppsFall.map mv, ppsSec := none }
/-- The moments of a task. -/
def Task.moved (d : Int) (t : Task) : Task :=
  { t with t0 := t.t0.map (Machine.moved d), t1 := Machine.moved d t.t1, cmdAt := t.cmdAt.map (Machine.moved d) }
/-- The moments of a core. -/
def Core.moved (d : Int) (c : Core) : Core :=
  { c with task := c.task.map (Task.moved d), susp := c.susp.map fun x => (x.1.moved d, x.2), turnEnd := c.turnEnd.map (Machine.moved d),
           swAt := Machine.moved d c.swAt }
/-- The posts of a codec context and of its clip. -/
def CdcCtx.moved (d : Int) (x : CdcCtx) : CdcCtx :=
  { x with queue := x.queue.map fun a => { a with post := a.post.map (movedSnd d) },
           clip := x.clip.map fun c => { c with taken := c.taken.map fun t => { t with post := t.post.map (movedSnd d) } } }
/-- The start of a codec engine's frame. -/
def Cdc.moved (d : Int) (c : Cdc) : Cdc := { c with busy := c.busy.map fun b => { b with at_ := Machine.moved d b.at_ } }
/-- The posts of a track engine. -/
def Trk.moved (d : Int) (t : Trk) : Trk :=
  let one (a : Assoc) : Assoc := { a with at_ := Machine.moved d a.at_ }
  { t with cur := t.cur.map one, posted := t.posted.map fun x => (x.1, one x.2) }
/-- When a stream's receiver heard and released what. -/
def Strm.moved (d : Int) (q : Strm) : Strm :=
  { q with units := q.units.map fun u => { u with at_ := Machine.moved d u.at_ }, lastRel := Machine.moved d q.lastRel,
           lastPkt := Machine.moved d q.lastPkt, rrAt := Machine.moved d q.rrAt, lsr := q.lsr.map (movedSnd d) }
/-- The moments of a picture in a pipe. -/
def Pic.moved (d : Int) (p : Pic) : Pic :=
  { p with post := p.post.map (movedSnd d), at_ := Machine.moved d p.at_, waits := p.waits.map (Machine.moved d) }
/-- The moments of a DRAM channel. -/
def DChan.moved (d : Int) (c : DChan) : DChan :=
  { c with paused := Machine.moved d c.paused, scrubAt := Machine.moved d c.scrubAt, base := Machine.moved d c.base, slot := c.slot.map (Machine.moved d),
           banks := c.banks.map fun b => (b.1, { b.2 with refs := Machine.moved d b.2.refs }) }
/-- Every moment from which a limit, a width or an interval is counted moves with a step of device time by `d`. Capture times, times that records
carry and the host's edge times are device times themselves and stay. -/
def moveMoments (d : Int) (s : Dev) : Dev :=
  { s with ptp := s.ptp.moved d, tide := s.tide.moved d,
           mdo := { s.mdo with chans := mmap (fun _ => {}) (fun c => { c with openAt := c.openAt.map (moved d) }) s.mdo.chans,
                               seen := s.mdo.seen.map fun x => { x with at_ := moved d x.at_ } },
           err := { s.err with posts := s.err.posts.map fun p => (p.1, moved d p.2.1, p.2.2) },
           pci := { s.pci with modAt := mmap (fun _ => 0) (moved d) s.pci.modAt, tlpAt := moved d s.pci.tlpAt },
           cores := mmap (fun _ => {}) (Core.moved d) s.cores, clk := { s.clk with at_ := moved d s.clk.at_ },
           kv := { s.kv with exhAt := mmap (fun _ => none) (fun x => x.map (moved d)) s.kv.exhAt },
           cctx := mmap (fun _ => {}) (CdcCtx.moved d) s.cctx, cdc := mmap (fun _ => {}) (Cdc.moved d) s.cdc,
           trk := mmap (fun _ => {}) (Trk.moved d) s.trk, ing := { s.ing with strms := mmap (fun _ => {}) (Strm.moved d) s.ing.strms },
           pix := { s.pix with pipes := mmap (fun _ => []) (fun l => l.map (Pic.moved d)) s.pix.pipes },
           dmc := { s.dmc with chans := mmap (fun _ => {}) (DChan.moved d) s.dmc.chans },
           pwr := { s.pwr with trans := mmap (fun _ => none) (fun x => x.map (movedSnd d)) s.pwr.trans, sampled := moved d s.pwr.sampled,
                               wake := moved d s.pwr.wake },
           bt := { s.bt with at_ := moved d s.bt.at_, rel := moved d s.bt.rel } }

end Sys2Proof.Machine
end

