-- ==== Sys2Proof/Machine/Tide.lean ====
section
/-! DEFINITION. The time unit: PTP, time states, marks, sync edges, SYNC_OUT and PPS_OUT (02). -/
set_option autoImplicit false
namespace Sys2Proof.Machine
open Sys2Proof

/-! ## Device time -/

/-- Set f, limited to 200 ppm (R33), and show it in TIDE_PTP_FREQ. -/
def setFreq (f : Int) (s : Dev) : Dev :=
  let g := clampI f (-200000) 200000
  wrN Reg.TIDE_PTP_FREQ (ofSigned g 32) { s with time := { s.time with f := g } }
/-- Step device time (R35). Limits, widths and intervals in progress move with it, and TIME_OFFSET_LARGE can be raised again. -/
def stepTime (d : Int) (s : Dev) : Dev :=
  let s := moveMoments d s
  { s with time := { s.time with ns := (((s.time.ns : Int) + d) % 2 ^ 64).toNat }, ptp := { s.ptp with large := false } }
/-- Enter a time state (Table 2-1). -/
def setTimeState (v : Nat) (s : Dev) : Dev := wf Reg.TIDE_STATUS 0 2 v s
/-- The asymmetry of a port, signed ns (R39). -/
def asym (s : Dev) (p : Nat) : Int := toSigned (rdN s (Reg.TIDE_ASYM p)) 32
/-- A hardware timestamp taken now on a port, corrected by the port's asymmetry (R39; log entry 7). -/
def stamp (s : Dev) (p : Nat) : Int := (now s : Int) - asym s p

/-! ## The grid of marks (R41) -/

/-- N, the tide rate. -/
def tideN (s : Dev) : Nat := rf s Reg.TIDE_RATE 0 7
/-- Pn = floor(10^9 / N) ns (R46). -/
def tideP (s : Dev) : Nat := 1000000000 / tideN s
/-- The slack half-width h = floor(Pn / 8) (R46). -/
def slackH (s : Dev) : Nat := tideP s / 8
/-- The first nominal mark at or after `x` under rate `n` (R41). -/
def nominalGe (n x : Nat) : Nat :=
  let j := ceilDiv (x % 1000000000 * n) 1000000000
  if n ≤ j then (x / 1000000000 + 1) * 1000000000 else x / 1000000000 * 1000000000 + j * 1000000000 / n
/-- The last nominal mark at or before `x`. -/
def nominalLe (n x : Nat) : Nat :=
  let up := x / 1000000000 * 1000000000 + (x % 1000000000 * n / 1000000000 + 1) * 1000000000 / n
  if x % 1000000000 * n / 1000000000 + 1 < n ∧ up ≤ x then up
  else x / 1000000000 * 1000000000 + x % 1000000000 * n / 1000000000 * 1000000000 / n
/-- The nominal mark nearest `x`, the earlier one on a tie (R47). -/
def nominalNear (n x : Nat) : Nat :=
  if nominalGe n x - x < x - nominalLe n x then nominalGe n x else nominalLe n x
/-- The number j of the second's nominal mark at `x`. -/
def nominalJ (n x : Nat) : Nat := ceilDiv (x % 1000000000 * n) 1000000000

/-- TIDE_CTRL.SOURCE: 0 PTP, 1 SYNC_IN, 2 host. -/
def tideSource (s : Dev) : Nat := rf s Reg.TIDE_CTRL 0 2
/-- SYNC_STATE: 0 LOCKED, 1 UNLOCKED, 2 RELOCK, 3 source is PTP. -/
def syncState (s : Dev) : Nat := rf s Reg.TIDE_STATUS 2 2
/-- Enter a sync state; a change of state ends a run of misses (Table 2-3). -/
def setSyncState (v : Nat) (s : Dev) : Dev :=
  wf Reg.TIDE_STATUS 2 2 v { s with tide := { s.tide with miss := if syncState s = v then s.tide.miss else 0 } }

/-- The TIME stage of boot ends (R36, R411): the first mark is the first nominal mark after now. -/
def timeReady (s : Dev) : Dev :=
  match s.ptp.acqFrom with
  | none => s
  | some _ =>
    { s with ptp := { s.ptp with acqFrom := none },
             tide := { s.tide with next := some (nominalGe (tideN s) (now s + 1)) } }

/-! ## PTP (R34..R40) -/

/-- The dataset of a master in the comparison order of the default BMCA (log entry 8). -/
def Master.key (m : Master) : List Nat :=
  [m.set.prio1, m.set.cls, m.set.acc, m.set.var, m.set.prio2, m.set.gm, m.set.steps, m.src, m.srcPort, m.port]
/-- Two entries of one sending port heard on one device port. -/
def Master.same (a b : Master) : Bool := a.port == b.port && a.src == b.src && a.srcPort == b.srcPort
/-- Show the selected master's dataset (R4, Table 2-7). -/
def showMaster (m : Master) (s : Dev) : Dev :=
  s |> wr64 Reg.TIDE_GM_ID_LO m.set.gm |> wrN Reg.TIDE_UTC_OFS (ofSigned m.set.utc 16)
    |> wf Reg.TIDE_PTP_STATUS 0 2 m.port |> setB Reg.TIDE_PTP_STATUS 2 true
/-- The count of consecutive Syncs within 1 µs (Table 2-7). -/
def syncCount (s : Dev) : Nat := rf s Reg.TIDE_PTP_STATUS 4 5
/-- Set that count and the within-1-µs bit. -/
def setSyncCount (n : Nat) (within : Bool) (s : Dev) : Dev :=
  s |> wf Reg.TIDE_PTP_STATUS 4 5 n |> setB Reg.TIDE_PTP_STATUS 3 within
/-- Whether PTP runs on a port (Table 2-11): it is enabled, and in ebb it is the port kept alive (R40). -/
def ptpPort (s : Dev) (p : Nat) : Bool := tst s Reg.TIDE_PTP_CFG (8 + p) && (ebbState s != 2 || p == rf s Reg.ING_CTRL 1 1)
/-- Whether PTP listens on a port with a transport (Table 2-11). -/
def ptpHears (s : Dev) (p : Nat) (h : PtpHdr) : Bool :=
  ptpPort s p && tst s Reg.TIDE_PTP_CFG (12 + h.transport) && decide (h.transport < 3)
/-- Whether a master is still heard (R37): on an enabled port, transport and domain, and within its announceReceiptTimeout; the selected
master's own timeout is the row ANNOUNCE_RECEIPT_TIMEOUT. -/
def Master.heard (s : Dev) (m : Master) : Bool :=
  let selected := match s.ptp.sel with | some x => x.same m | none => false
  ptpPort s m.port && tst s Reg.TIDE_PTP_CFG (12 + m.transport) && m.domain == rf s Reg.TIDE_PTP_CFG 0 8 &&
    (selected || decide (now s ≤ m.at_ + m.span))
/-- PTP is lost while LOCKED (Tables 2-1 and 2-6). -/
def ptpLost (s : Dev) : Dev :=
  if timeState s = 1 then { s with ptp := { s.ptp with holdFrom := now s } } |> setTimeState 2 |> raise 0x010C 0 0 else s
/-- A master is selected afresh: a new measurement and a new count start, and nothing is stepped (R40). -/
def newMaster (m : Option Master) (s : Dev) : Dev :=
  setSyncCount 0 false
    { s with ptp := { s.ptp with sel := m, delay := none, sync := none, wait := none, lastOff := none, large := false, rate := s.time.f } }
/-- The BMCA selects exactly one port among the masters heard on enabled ports (R37). -/
def bmca (s : Dev) : Dev :=
  let ms := s.ptp.masters.filter (Master.heard s)
  let s := { s with ptp := { s.ptp with masters := ms } }
  match leastBy (fun a b => lexLt a.key b.key) ms with
  | none => s |> newMaster none |> setB Reg.TIDE_PTP_STATUS 2 false
  | some m =>
    if (match s.ptp.sel with | some old => old.same m | none => false) then showMaster m { s with ptp := { s.ptp with sel := some m } }
    else s |> newMaster (some m) |> showMaster m
/-- A new PTP configuration, or the start of ebb: the BMCA looks at the masters that are still heard; with none left PTP is lost (log
entry 8). -/
def bmcaAgain (s : Dev) : Dev :=
  if s.ptp.sel.isNone then s else let t := bmca s; whenS t.ptp.sel.isNone ptpLost t
/-- R38: a message outside the subset; `lo` and `hi` bound its interval. -/
def ptpOutside (s : Dev) (h : PtpHdr) (lo hi : Int) : Bool :=
  h.unicast || h.tlv || h.domain != rf s Reg.TIDE_PTP_CFG 0 8 || decide (h.logInterval < lo) || decide (hi < h.logInterval)
/-- Count an ignored message (R38). -/
def ptpDrop (s : Dev) : Dev := bump Reg.TIDE_PTP_DROP 1 s
/-- `n` intervals of 2^log seconds, in ns. -/
def logSpan (n : Nat) (log : Int) : Nat :=
  if 0 ≤ log then n * 1000000000 * 2 ^ log.toNat else n * 1000000000 / 2 ^ (-log).toNat

/-- Enter LOCKED when 16 consecutive Syncs lay within 1 µs (Table 2-1). -/
def lockIfReady (s : Dev) : Dev :=
  if syncCount s = 16 ∧ timeState s ≠ 1 then s |> setTimeState 1 |> timeReady else s
/-- The frequency that the servo sets for offset `off`: free within R33's limit; after HOLDOVER or FREE it slews device time towards the master by
at most 100 ppm beyond the master's frequency (R35). -/
def servoFreq (s : Dev) (off : Int) : Int :=
  let v := Config.freeInt s.fresh
  let r := s.ptp.rate
  if timeState s = 2 ∨ timeState s = 3 then clampI v (if 0 < off then r - 100000 else r) (if off < 0 then r + 100000 else r) else v
/-- Use one offset from the master (R35, R36, R40). -/
def useOffset (off : Int) (s : Dev) : Dev :=
  let s := { s with ptp := { s.ptp with lastOff := some off } }
    |> wrN Reg.TIDE_PTP_OFS (ofSigned (clampI off (-2147483647) 2147483647) 32)
  if timeState s = 0 ∧ (¬ s.ptp.stepped ∨ 1000000 < off.natAbs) then
    { s with ptp := { s.ptp with stepped := true, lastOff := some 0, sync := none } } |> stepTime (-off) |> setSyncCount 0 false
  else if 1000000 < off.natAbs then
    let s := setSyncCount 0 false s
    if s.ptp.large then s else raise 0x010D 0 0 { s with ptp := { s.ptp with large := true } }
  else
    let within := decide (off.natAbs ≤ 1000)
    let s := { s with ptp := { s.ptp with large := false } }
    s |> setFreq (servoFreq s off) |> freshS
      |> setSyncCount (if within then min 16 (syncCount s + 1) else 0) within |> lockIfReady
/-- A Sync with its precise origin timestamp (R36): `t1` is origin plus corrections, `t2` the arrival. -/
def useSync (t1 t2 : Int) (s : Dev) : Dev :=
  let rate := match s.ptp.sync with
    | some (a, b) => if b < t2 then s.time.f + (t1 - a - (t2 - b)) * 1000000000 / (t2 - b) else s.ptp.rate
    | none => s.ptp.rate
  let s := { s with ptp := { s.ptp with sync := some (t1, t2), rate } }
  match s.ptp.delay with
  | none => s
  | some d => useOffset (t2 - t1 - d) s

/-- PTP_ANNOUNCE (R37). -/
def ptpAnnounceS (p : Nat) (h : PtpHdr) (m : Announce) (s : Dev) : Dev :=
  if !(ptpHears s p h) then s
  else if ptpOutside s h (-3) 4 || decide (m.timeout < 2) || decide (10 < m.timeout) then ptpDrop s
  else
    let e : Master := ⟨p, h.src, h.srcPort, h.domain, h.transport, m, now s, logSpan m.timeout h.logInterval⟩
    bmca { s with ptp := { s.ptp with masters := s.ptp.masters.filter (fun x => !(x.same e)) ++ [e] } }
/-- PTP_ANNOUNCE (R37): a received Announce feeds the BMCA. -/
def execPtpAnnounce (p : Fin 4) (h : PtpHdr) (m : Announce) (s : State) : Result := onDev (ptpAnnounceS p h m) s

/-- Whether a message comes from the selected master. -/
def fromMaster (s : Dev) (p : Nat) (h : PtpHdr) : Bool :=
  match s.ptp.sel with
  | some m => m.port == p && m.src == h.src && m.srcPort == h.srcPort
  | none => false
/-- PTP_SYNC (R36). -/
def ptpSyncS (p : Nat) (h : PtpHdr) (twoStep : Bool) (origin : Nat) (s : Dev) : Dev :=
  if !(ptpHears s p h) then s
  else if ptpOutside s h (-7) 1 then ptpDrop s
  else if !(fromMaster s p h) then s
  else if twoStep then
    { s with ptp := { s.ptp with wait := some ⟨p, h.src, h.srcPort, h.seq, stamp s p, h.corr⟩ } }
  else useSync ((origin : Int) + h.corr / 65536) (stamp s p) s
/-- PTP_SYNC (R36): a Sync gives an offset, at once when it is one-step. -/
def execPtpSync (p : Fin 4) (h : PtpHdr) (twoStep : Bool) (origin : Nat) (s : State) : Result :=
  onDev (ptpSyncS p h twoStep origin) s
/-- PTP_FOLLOW_UP (R37). -/
def ptpFollowUpS (p : Nat) (h : PtpHdr) (origin : Nat) (s : Dev) : Dev :=
  if !(ptpHears s p h) then s
  else if ptpOutside s h (-7) 1 then ptpDrop s
  else match s.ptp.wait with
    | some w =>
      if w.port = p ∧ w.src = h.src ∧ w.srcPort = h.srcPort ∧ w.seq = h.seq then
        useSync ((origin : Int) + (w.corr + h.corr) / 65536) w.t2 { s with ptp := { s.ptp with wait := none } }
      else s
    | none => s
/-- PTP_FOLLOW_UP (R37): the precise origin timestamp of a two-step Sync. -/
def execPtpFollowUp (p : Fin 4) (h : PtpHdr) (origin : Nat) (s : State) : Result := onDev (ptpFollowUpS p h origin) s

/-- TIDE_PTP_CFG.DELAY_MECH: peer-to-peer. -/
def peerDelay (s : Dev) : Bool := tst s Reg.TIDE_PTP_CFG 15
/-- PTP_DELAY_REQ_SEND (R37): a Delay_Req goes to the selected master; a Pdelay_Req leaves any enabled port; in ebb only the port kept
alive sends (R40). -/
def ptpDelayReqSendS (p : Nat) (s : Dev) : Dev :=
  let onPort := match s.ptp.sel with | some m => m.port == p | none => false
  if !(ptpPort s p) || (!(peerDelay s) && !onPort) then s
  else
    let seq := s.ptp.seqId
    { s with ptp := { s.ptp with req := some ⟨peerDelay s, p, seq, stamp s p⟩, seqId := (seq + 1) % 65536 } }
      |> send (.ptp p (if peerDelay s then 2 else 1) seq (stamp s p))
/-- PTP_DELAY_REQ_SEND (R37). -/
def execPtpDelayReqSend (p : Fin 4) (s : State) : Result := onDev (ptpDelayReqSendS p) s
/-- One path-delay measurement completes (R36). `t` is the receive timestamp of a Delay_Resp, or the responder's turnaround time of a Pdelay
exchange, whose response arrived at `t4`. A Delay_Resp counts from the selected master only. -/
def ptpDelayMeasured (p : Nat) (h : PtpHdr) (peer : Bool) (t : Nat) (t4 : Int) (s : Dev) : Dev :=
  if !(ptpHears s p h) then s
  else if ptpOutside s h (-7) 5 then ptpDrop s
  else match s.ptp.req with
    | none => s
    | some q =>
      if q.port ≠ p ∨ q.seq ≠ h.seq ∨ q.peer ≠ peer ∨ (!peer && !(fromMaster s p h)) then s
      else
        let s := { s with ptp := { s.ptp with req := none } }
        if peer then { s with ptp := { s.ptp with delay := some ((t4 - q.t3 - t - h.corr / 65536) / 2) } }
        else match s.ptp.sync with
          | none => s
          | some (t1, t2) => { s with ptp := { s.ptp with delay := some ((t2 - t1 + ((t : Int) - h.corr / 65536 - q.t3)) / 2) } }
/-- PTP_DELAY_RESP (R36): a Delay_Resp, or a whole Pdelay exchange. -/
def ptpDelayRespS (p : Nat) (h : PtpHdr) (peer : Bool) (t : Nat) (s : Dev) : Dev := ptpDelayMeasured p h peer t (stamp s p) s
/-- A Pdelay_Resp: the measurement completes with it, or, two-step, with its follow-up; `t` is its request receipt time. -/
def ptpPdelayResp (p : Nat) (h : PtpHdr) (twoStep : Bool) (t : Int) (s : Dev) : Dev :=
  if !(ptpHears s p h) then s
  else if ptpOutside s h (-7) 5 then ptpDrop s
  else if twoStep then { s with ptp := { s.ptp with presp := some (⟨p, h.src, h.srcPort, h.seq, stamp s p, h.corr⟩, t) } }
  else ptpDelayRespS p h true 0 s
/-- A Pdelay_Resp_Follow_Up: `t` is the response's origin time. -/
def ptpPdelayFollowUp (p : Nat) (h : PtpHdr) (t : Int) (s : Dev) : Dev :=
  if !(ptpHears s p h) then s
  else if ptpOutside s h (-7) 5 then ptpDrop s
  else match s.ptp.presp with
    | some w =>
      if w.1.port = p ∧ w.1.src = h.src ∧ w.1.srcPort = h.srcPort ∧ w.1.seq = h.seq then
        ptpDelayMeasured p { h with corr := h.corr + w.1.corr } true (t - w.2).toNat w.1.t2 { s with ptp := { s.ptp with presp := none } }
      else s
    | none => s
/-- PTP_DELAY_RESP (R36). -/
def execPtpDelayResp (p : Fin 4) (h : PtpHdr) (peer : Bool) (t : Nat) (s : State) : Result :=
  onDev (ptpDelayRespS p h peer t) s
/-- PTP_PDELAY_REQ (R37): answered by a two-step Pdelay_Resp and its follow-up under the peer-to-peer mechanism. -/
def ptpPdelayReqS (p : Nat) (h : PtpHdr) (s : Dev) : Dev :=
  if !(ptpHears s p h) then s
  else if ptpOutside s h (-7) 5 then ptpDrop s
  else if peerDelay s then s |> send (.ptp p 3 h.seq (stamp s p)) |> send (.ptp p 10 h.seq (stamp s p)) else s
/-- PTP_PDELAY_REQ (R37). -/
def execPtpPdelayReq (p : Fin 4) (h : PtpHdr) (s : State) : Result := onDev (ptpPdelayReqS p h) s

/-- ANNOUNCE_RECEIPT_TIMEOUT (R34): LOCKED becomes HOLDOVER, and the BMCA looks at the masters that remain. -/
def announceTimeoutS (s : Dev) : Dev :=
  match s.ptp.sel with
  | none => s
  | some m =>
    let s := waitUntil (m.at_ + m.span) s
    let s := { s with ptp := { s.ptp with masters := s.ptp.masters.filter fun x => !(x.same m) } }
    s |> ptpLost |> bmca
/-- ANNOUNCE_RECEIPT_TIMEOUT (R34). -/
def execAnnounceReceiptTimeout (s : State) : Result := onDev announceTimeoutS s
/-- Enter FREE: f = 0, TIME_FREE (Tables 2-1 and 2-6). -/
def enterFree (s : Dev) : Dev := s |> setTimeState 3 |> setFreq 0 |> raise 0x010F 0 0
/-- HOLDOVER_LIMIT_EXPIRY (R34). -/
def execHoldoverLimitExpiry (s : State) : Result :=
  onDev (fun s => if timeState s = 2 then enterFree (waitUntil (s.ptp.holdFrom + rf s Reg.TIDE_HOLDOVER_LIM 0 17 * 1000000000) s) else s) s
/-- ACQ_LIMIT_EXPIRY (R36): boot proceeds to the first mark in state FREE. -/
def execAcqLimitExpiry (s : State) : Result :=
  onDev (fun s => match s.ptp.acqFrom with
    | some t => if timeState s = 0 then timeReady (enterFree (waitUntil (t + rf s Reg.TIDE_ACQ_LIM 0 16 * 1000000) s)) else s
    | none => s) s

/-! ## Edges (R45, R46, R55) -/

/-- An edge at device time `t` under an edge source (Table 2-3). Before the first mark there is no previous mark time, so no slack window: the
edge is only timestamped (log entry 56). -/
def edgeAt (t : Nat) (s : Dev) : Dev :=
  let s := { s with tide := { s.tide with since := some t } }
  match s.tide.next with
  | none => s
  | some m =>
    if syncState s = 1 || !s.tide.marked then s
    else if match s.tide.prevEnd with | some e => decide (t ≤ e) | none => false then bump Reg.TIDE_EXTRA_CNT 1 s
    else if m ≤ t + slackH s ∧ t ≤ m + slackH s then
      if s.tide.taken.isSome then bump Reg.TIDE_EXTRA_CNT 1 s
      else
        { s with tide := { s.tide with taken := some t, miss := 0 } }
          |> bump Reg.TIDE_EDGE_CNT 1 |> wrN Reg.TIDE_EDGE_OFS (ofSigned ((t : Int) - m) 32) |> setSyncState 0
    else if syncState s = 0 then s |> bump Reg.TIDE_OUTSIDE_CNT 1 |> raise 0x010A 0 0 |> setSyncState 1
    else s
/-- Whether time `t` lies within 1 µs after the edge timestamped last (R55). -/
def withinUs (last : Option Nat) (t : Nat) : Bool := match last with
  | some e => decide (t ≤ e + 1000)
  | none => false
/-- A SYNC_IN rising edge whose pulse stays high `high` ns (R55): pulses below 20 ns are filtered out, an edge within
1 µs after a timestamped edge is ignored; under source PTP and host it moves no mark (R45). -/
def syncEdge (high : Nat) (s : Dev) : Dev :=
  let t := now s / 2 * 2
  if high < 20 then s
  else if withinUs s.tide.lastEdge t then bump Reg.TIDE_EXTRA_CNT 1 s
  else
    let s := { s with tide := { s.tide with lastEdge := some t } } |> wr64 Reg.TIDE_SYNCIN_LO t
    if tideSource s = 1 then edgeAt t s else s
/-- HOST_EDGE_GO of TIDE_CMD (R45): ignored unless the source is host; rejected when less than 10 µs ahead. -/
def hostEdgeGo (s : Dev) : Dev :=
  let t := rd64 s Reg.TIDE_HOST_EDGE_LO
  if tideSource s ≠ 2 then s
  else if t < now s + 10000 then raise 0x010E 0 0 s
  else { s with tide := { s.tide with hostEdges := s.tide.hostEdges ++ [t] } }
/-- HOST_EDGE_GO (R45). -/
def execHostEdgeGo (s : State) : Result := onDev hostEdgeGo s
/-- HOST_EDGE_TIME_REACHED (R45): the earliest submitted edge is treated as a SYNC_IN edge at its time; one within 1 µs after the host edge before
it is ignored (R55). -/
def hostEdgeReached (s : Dev) : Dev :=
  match leastBy (fun a b => decide (a < b)) s.tide.hostEdges with
  | none => s
  | some t =>
    let s := waitUntil t { s with tide := { s.tide with hostEdges := s.tide.hostEdges.erase t } }
    if tideSource s ≠ 2 then s
    else if withinUs s.tide.lastHost t then bump Reg.TIDE_EXTRA_CNT 1 s
    else edgeAt t { s with tide := { s.tide with lastHost := some t } }
/-- HOST_EDGE_TIME_REACHED (R45). -/
def execHostEdgeTimeReached (s : State) : Result := onDev hostEdgeReached s
/-- RELOCK (R47): at once; ignored under source PTP. -/
def relock (s : Dev) : Dev := if tideSource s = 0 then s else setSyncState 2 s
/-- RELOCK (R47). -/
def execRelock (s : State) : Result := onDev relock s
/-- SET_TIME_GO (R49): the request carries the value TIDE_SET_TIME holds now and replaces an earlier request. -/
def setTimeGo (s : Dev) : Dev :=
  { s with tide := { s.tide with timeReq := some (.to (rd64 s Reg.TIDE_SET_TIME_LO)) } }
/-- SET_TIME_GO (R49). -/
def execSetTimeGo (s : State) : Result := onDev setTimeGo s

/-! ## Output pins (R56) -/

/-- Drive SYNC_OUT. -/
def driveSync (v : Bool) (s : Dev) : Dev :=
  if s.pins.syncOut = v then s else { s with pins := { s.pins with syncOut := v } } |> send (.pin .syncOut v)
/-- Drive PPS_OUT. -/
def drivePps (v : Bool) (s : Dev) : Dev :=
  if s.pins.pps = v then s else { s with pins := { s.pins with pps := v } } |> send (.pin .ppsOut v)
/-- SYNC_OUT rises at an action time, unless it is disabled, the time state is UNSET, or the device is in HALT (R408). -/
def syncOutRise (s : Dev) : Dev :=
  if tst s Reg.TIDE_CTRL 2 && timeState s != 0 && !(halted s) then
    driveSync true { s with tide := { s.tide with soFall := some (now s + rf s Reg.TIDE_SYNCOUT_CFG 0 10 * 1000) } }
  else s
/-- SYNC_OUT_PULSE_END (R56). -/
def execSyncOutPulseEnd (s : State) : Result :=
  onDev (fun s => match s.tide.soFall with
    | some t => driveSync false { waitUntil t s with tide := { s.tide with soFall := none } }
    | none => s) s
/-- PPS_OUT_RISE (R56): at the next integer second of device time, except while disabled or UNSET. -/
def ppsRise (s : Dev) : Dev :=
  let sec := (now s + 999999999) / 1000000000
  let sec := if s.tide.ppsSec = some sec then sec + 1 else sec
  let s := waitUntil (sec * 1000000000) s
  let s := { s with tide := { s.tide with ppsSec := some sec } }
  if tst s Reg.TIDE_CTRL 3 && timeState s != 0 && !(halted s) then
    drivePps true { s with tide := { s.tide with ppsFall := some (sec * 1000000000 + rf s Reg.TIDE_PPS_CFG 0 9 * 1000000) } }
  else s
/-- PPS_OUT_RISE (R56). -/
def execPpsOutRise (s : State) : Result := onDev ppsRise s
/-- PPS_OUT_PULSE_END (R56). -/
def execPpsOutPulseEnd (s : State) : Result :=
  onDev (fun s => match s.tide.ppsFall with
    | some t => drivePps false { waitUntil t s with tide := { s.tide with ppsFall := none } }
    | none => s) s

/-! ## Placing marks (R42..R49) -/

/-- The phase of the latest edge about the predicted mark, in −Pn/2 .. Pn/2; 0 without an edge (Table 2-3). Of the two values that a phase of
exactly Pn/2 allows the model takes +Pn/2 (log entry 56). -/
def edgePhase (s : Dev) (m : Nat) : Int :=
  match s.tide.since with
  | none => 0
  | some t =>
    let e := ((t : Int) - m) % tideP s
    if (tideP s : Int) < 2 * e then e - tideP s else e
/-- Mark time and action time of the coming mark. The very first mark has no predicted time (R46), so under every source both are the nominal
time (log entry 56). -/
def comingMark (s : Dev) : Nat × Nat :=
  match s.tide.next with
  | none => (now s, now s)
  | some m =>
    if !s.tide.marked || tideSource s == 0 then (m, m)
    else match s.tide.taken with
      | some t => (t, t + 2000)
      | none =>
        if syncState s = 1 then (m, m)
        else if syncState s = 0 then (m, m + slackH s)
        else (((m : Int) + clampI (edgePhase s m) (-(slackH s : Int)) (slackH s)).toNat, m + slackH s)
/-- The tide that ends at the coming mark (R43): at the first mark, one less than the first tide number. -/
def endingTide (s : Dev) : Nat :=
  if s.tide.marked then tideNum s
  else
    let m := (comingMark s).1
    let first := if tideSource s = 0 ∧ timeState s = 1 then m / 1000000000 * tideN s + nominalJ (tideN s) m else 0
    (first + 2 ^ 48 - 1) % 2 ^ 48
/-- Table 2-3, a LOCKED mark without an edge: the miss is counted, and the 8th of a run raises SYNC_EDGE_MISSING. -/
def countMiss (s : Dev) : Dev :=
  if s.tide.marked ∧ tideSource s ≠ 0 ∧ syncState s = 0 ∧ s.tide.taken = none then
    let n := s.tide.miss + 1
    let s := { s with tide := { s.tide with miss := n } } |> bump Reg.TIDE_MISS_CNT 1
    if n = 8 then raise 0x010B 0 0 s else s
  else s
/-- R47: CONVERGING follows the marks placed on the way to the PTP grid. -/
def convergeAt (mark : Nat) (s : Dev) : Dev :=
  if tideSource s = 0 ∧ s.tide.toGrid then
    if nominalGe (tideN s) mark = mark then
      { s with tide := { s.tide with toGrid := false } } |> setB Reg.TIDE_STATUS 4 false
    else setB Reg.TIDE_STATUS 4 true s
  else s
/-- Step 1 of Table 2-4: device time reaches the action time, SYNC_OUT rises, the mark time is latched, and the source
TIDE_MARK fires (Table 19-5). -/
def markStep1 (s : Dev) : Dev :=
  let (mark, action) := comingMark s
  let k := endingTide s
  s |> countMiss |> waitUntil action |> convergeAt mark
    |> (fun s => { s with tide := { s.tide with action := action, since := none, roundDone := false, stepDone := false } })
    |> wr64 Reg.TIDE_NUM_LO k |> wr64 Reg.TIDE_MARK_LO mark |> syncOutRise |> irqFire 22 0
/-- Step 4: the tide number becomes k + 1. -/
def markStep4 (s : Dev) : Dev := wr64 Reg.TIDE_NUM_LO ((tideNum s + 1) % 2 ^ 48) s
/-- A pending request steps device time after the mark's steps (R49); the request by offset uses the offset measured at
the latest Sync. -/
def markTimeStep (s : Dev) : Dev :=
  match s.tide.timeReq with
  | none => s
  | some q =>
    let d : Int := match q with
      | .to t => (t : Int) - now s
      | .master => match s.ptp.lastOff with | some o => -o | none => 0
    { s with tide := { s.tide with timeReq := none }, ptp := { s.ptp with lastOff := s.ptp.lastOff.map (· + d) } } |> stepTime d
/-- Predict the next mark (R41, R46, R47, R49) after the steps of the mark at `mark`; `d` is what device time was
stepped by. -/
def planNext (mark : Nat) (stepped : Bool) (d : Int) (s : Dev) : Dev :=
  let p := tideP s
  let h := slackH s
  let t := s.tide
  if tideSource s = 0 then
    if stepped then
      setB Reg.TIDE_STATUS 4 false
        { s with tide := { t with marked := true, taken := none, prevEnd := none, toGrid := false, winIdx := 0, next := some (nominalGe (tideN s) (now s + ceilDiv 1000000000 (tideN s) - h)) } }
    else if t.toGrid then
      let m := mark + p
      let g := nominalNear (tideN s) m
      let mk := ((m : Int) + clampI ((g : Int) - m) (-(h : Int)) h).toNat
      { s with tide := { t with marked := true, taken := none, prevEnd := none, winIdx := 0, next := some mk } }
    else { s with tide := { t with marked := true, taken := none, prevEnd := none, winIdx := 0, next := some (nominalGe (tideN s) (mark + 1)) } }
  else
    let shift (x : Nat) : Nat := ((x : Int) + d).toNat
    let ended := if t.taken.isSome then t.next.map fun m => shift (m + h) else none
    { s with tide := { t with marked := true, taken := none, prevEnd := ended, winIdx := 0, next := some (shift (mark + p)) } }
/-- A change of source in force (R47): to PTP the marks move onto the grid; to SYNC_IN or host the sync state is RELOCK.
Before the first mark nothing is placed yet. -/
def sourceChanged (old : Nat) (s : Dev) : Dev :=
  if tideSource s = old then s
  else if tideSource s = 0 then setSyncState 3 { s with tide := { s.tide with toGrid := s.tide.marked, taken := none } }
  else setSyncState 2 (setB Reg.TIDE_STATUS 4 false { s with tide := { s.tide with toGrid := false, taken := none } })
/-- A rate written before the first mark: that mark is placed under it (R44). -/
def rateChanged (s : Dev) : Dev :=
  if s.tide.marked then s else { s with tide := { s.tide with next := s.tide.next.map fun _ => nominalGe (tideN s) (now s + 1) } }
/-- The largest value of TIDE_POWER_OFS and TIDE_CODEC_OFS: floor(P / 2) µs (Table 2-5). -/
def halfTideUs (s : Dev) : Nat := tideP s / 2000
/-- Offsets that a new P makes too large are replaced by their maximum (R44, R53). -/
def clampOffsets (s : Dev) : Dev :=
  let one (a : Nat) (s : Dev) : Dev := if halfTideUs s < rf s a 0 17 then s |> wrN a (halfTideUs s) |> cfgClamp else s
  s |> one Reg.TIDE_POWER_OFS |> one Reg.TIDE_CODEC_OFS

/-! ## Scheduled events (R53, R54) -/

/-- Start of retraining window `i` of the tide. -/
def windowStart (s : Dev) (i : Nat) : Nat :=
  let nr := ceilDiv (tideP s) 24000000
  s.tide.action + rf s Reg.TIDE_RETRAIN_OFS 0 10 * 1000 + i * (tideP s / nr)
/-- DRAM_RETRAIN_WINDOW (R53): the tide's next window opens when it starts at least 10 µs before the next action time;
in ebb there is none (R54). Even windows of the run serve channels 0..15, odd ones 16..31. -/
def retrainWindow (s : Dev) : Dev :=
  let t := windowStart s s.tide.winIdx
  if !s.tide.marked || ebbState s == 2 || decide ((comingMark s).2 < t + 10000) then s
  else
    let s := waitUntil t s
    { s with tide := { s.tide with winIdx := s.tide.winIdx + 1, winCnt := s.tide.winCnt + 1, win := some t } }
/-- DRAM_RETRAIN_WINDOW (R53). -/
def execDramRetrainWindow (s : State) : Result := onDev retrainWindow s
/-- The moment of the tide's power step: its offset, or the end of the retraining window it falls in (Table 2-5). -/
def powerStepTime (s : Dev) : Nat :=
  let t := s.tide.action + rf s Reg.TIDE_POWER_OFS 0 17 * 1000
  match s.tide.win with
  | some w => if w ≤ t ∧ t < w + 4000 then w + 4000 else t
  | none => t
/-- The moment of the tide's codec round start. -/
def codecRoundTime (s : Dev) : Nat := s.tide.action + rf s Reg.TIDE_CODEC_OFS 0 17 * 1000

end Sys2Proof.Machine
end

