-- ==== Sys2Proof/Machine/Admission.lean ====
section
/-! DEFINITION. Admission at the mark, batches and their copies (R212, R285 to R293). -/
set_option autoImplicit false
namespace Sys2Proof.Machine
open Sys2Proof

/-! ## Budget (R212) -/

/-- A sum of two fractions in lowest terms. -/
def addFrac (a b : Nat × Nat) : Nat × Nat :=
  let n := a.1 * b.2 + b.1 * a.2
  let d := a.2 * b.2
  (n / Nat.gcd n d, d / Nat.gcd n d)
/-- cores_eff: the share of each eligible core that a cove's SLICE gives it, summed, as a fraction. -/
def coresEff (s : Dev) (c : Nat) : Nat × Nat :=
  (eligible s c 0).foldl (fun a k => (let t := sumN ((sharers s k).map (sliceOf s))
    if t = 0 then a else addFrac a (sliceOf s c, t))) (0, 1)
/-- BUDGET_PCT. -/
def budgetPct (s : Dev) (c : Nat) : Nat := rf s (Reg.SCH_COVE_CFG c) 19 7
/-- The nominal cycles of a cove per tide. -/
def nominalOf (s : Dev) (c : Nat) : Nat :=
  let e := coresEff s c
  budgetPct s c * tideP s * s.clk.mhz * e.1 / (e.2 * 100000)
/-- EST_JOB_CYC. -/
def estJob (s : Dev) (c : Nat) : Nat := wpField s c 32 4
/-- EST_SLOT_CYC of a class. -/
def estSlot (s : Dev) (c k : Nat) : Nat := wpField s c (36 + 4 * k) 4
/-- Outstanding work: the estimates of queued jobs and of the running job's unfinished stages. -/
def outstandingOf (s : Dev) (c : Nat) : Nat :=
  let v := coveOf s c
  sumN (v.queue.map (·.cost)) + match v.run with
    | some r => if r.done then 0 else sumN ((List.range (nStages s c)).map fun i => if i < r.stage then 0 else stageTasks s c i * (gridOf s c i (nElig s c i)).2.2)
    | none => 0
/-- The cost of a frame (R286). -/
def frameCost (s : Dev) (c : Nat) (f : PFrame) : Nat := sumN (f.samples.map fun x => estSlot s c x.1.cls)

/-! ## Candidates and choice (R285, R286) -/

/-- The streams of a list of frames, ascending. -/
def streamsOf (fs : List PFrame) : List Nat := (List.range 512).filter fun st => fs.any fun f => f.id.stream == st
/-- The candidates of a stream: its longest prefix of ready frames captured before the mark. -/
def candPrefix (mt st : Nat) (fs : List PFrame) : List PFrame :=
  (fs.filter fun f => f.id.stream == st).takeWhile fun f => f.ready && decide (f.id.cap < mt)
/-- Whether a frame that is not ready holds back a later one of its stream. -/
def heldBack (mt st : Nat) (fs : List PFrame) : Bool :=
  ((fs.filter fun f => f.id.stream == st).dropWhile fun f => f.ready && decide (f.id.cap < mt)).any fun f => f.ready && decide (f.id.cap < mt)
/-- What admission has left and has taken: budget, slots used, frames taken, the stream served last. -/
structure Adm where
  budget : Int
  used : Nat := 0
  taken : List PFrame := []
  last : Option Nat := none
  deriving DecidableEq, Repr
/-- One round over the streams of a priority, each giving its first frame that is not admitted; a stream that gives none leaves. -/
def admRound (cost : PFrame → Nat) (top : Nat) : List (Nat × List PFrame) → Adm → Adm × List (Nat × List PFrame)
  | [], a => (a, [])
  | (_, []) :: r, a => admRound cost top r a
  | (st, f :: fs) :: r, a =>
    if (cost f : Int) ≤ a.budget ∧ a.used + f.samples.length ≤ top then
      let x := admRound cost top r { budget := a.budget - cost f, used := a.used + f.samples.length, taken := a.taken ++ [f], last := some st }
      (x.1, (st, fs) :: x.2)
    else admRound cost top r a
/-- Rounds until no stream is left. -/
def admRounds (cost : PFrame → Nat) (top : Nat) : Nat → List (Nat × List PFrame) → Adm → Adm
  | 0, _, a => a
  | n + 1, l, a =>
    let x := admRound cost top l a
    if x.2.isEmpty then x.1 else admRounds cost top n x.2 x.1
/-- The rotating pointer of a priority (R286): register and lowest bit. -/
def ptrAt (c p : Nat) : Nat × Nat := (if p < 2 then Reg.PIX_Q_PTR_LO c else Reg.PIX_Q_PTR_HI c, 16 * (p % 2))
/-- Admission of the candidates, priority by priority; the priority at which budget or slots run short ends it. -/
def admitPrios (c top : Nat) (cands : List (Nat × List PFrame)) : List Nat → Adm → Dev → Adm × Dev
  | [], a, s => (a, s)
  | p :: ps, a, s =>
    let mine := cands.filter fun x => stPrio s x.1 == p
    let fs := mine.flatMap (·.2)
    let cost := sumN (fs.map (frameCost s c))
    let slots := sumN (fs.map fun f => f.samples.length)
    if (cost : Int) ≤ a.budget ∧ a.used + slots ≤ top then
      admitPrios c top cands ps { a with budget := a.budget - cost, used := a.used + slots, taken := a.taken ++ fs } s
    else
      let at_ := ptrAt c p
      let ptr := rf s at_.1 at_.2 9
      let order := mine.filter (fun x => decide (ptr ≤ x.1)) ++ mine.filter fun x => decide (x.1 < ptr)
      let b := admRounds (frameCost s c) top (fs.length + 1) order { a with last := none }
      match b.last with
      | none => (b, s)
      | some st => (b, wf at_.1 at_.2 9 ((st + 1) % 512) s)

/-! ## Batches (R289) -/

/-- SLOTS_MAX. -/
def slotsMax (s : Dev) (c : Nat) : Nat := rf s (Reg.PIX_Q_CFG c) 13 13
/-- QDEPTH. -/
def qDepth (s : Dev) (c : Nat) : Nat := rf s (Reg.PIX_Q_CFG c) 0 7
/-- Queue entries that hold batches. -/
def queued (s : Dev) (c : Nat) : Nat := (coveOf s c).queue.length + if (coveOf s c).run.isSome then 1 else 0
/-- Offset of the first slot in a queue entry. -/
def slotOfs (s : Dev) (c : Nat) : Nat := ceilDiv (256 + 32 * slotsMax s c) 4096 * 4096
/-- The address of a queue entry. -/
def entryAddr (s : Dev) (c e : Nat) : Nat :=
  baseAddr s (Reg.PIX_Q_BASE_LO c) + e * (slotOfs s c + slotsMax s c * slotBytes s c)
/-- A slot of a batch: frame, sample index within it, sample, die and staging slot. -/
structure BSlot where
  id : FrameId
  idx : Nat
  x : Samp
  die : Nat
  slot : Nat
  deriving DecidableEq, Repr
/-- The slots of the admitted frames in batch order: class, capture time, stream, sample. -/
def batchSlots (fs : List PFrame) : List BSlot :=
  let all := fs.flatMap fun f => (enum f.samples 0).map fun p => (⟨f.id, p.1, p.2.1, p.2.2.1, p.2.2.2⟩ : BSlot)
  sortBy (fun a b => lexLt [a.x.cls, a.id.cap, a.id.stream, a.idx] [b.x.cls, b.id.cap, b.id.stream, b.idx]) all
/-- A slot header (Table 11-7). -/
def slotHdr (b : BSlot) : List Byte :=
  let w0 := b.id.stream % 512 + b.x.cls * 2 ^ 9 + b2n b.x.void * 2 ^ 12 + b2n b.id.taint * 2 ^ 13 + b2n b.x.flip * 2 ^ 14 + b2n b.x.trk.isSome * 2 ^ 15 + b.idx % 2 ^ 16 * 2 ^ 16
  leBytes 4 w0 ++ leBytes 8 b.id.cap ++ leBytes 2 b.x.ax.h0 ++ leBytes 2 b.x.ay.h0 ++ leBytes 2 b.x.ax.hn ++ leBytes 2 b.x.ay.hn ++
    leBytes 2 b.x.ax.at_ ++ leBytes 2 b.x.ay.at_ ++ leBytes 2 b.x.ax.len ++ leBytes 2 b.x.ay.len ++ leBytes 4 (b.x.trk.getD 0 % 2 ^ 15 + b2n b.id.untr * 2 ^ 15)
/-- The batch header (Table 11-6) of tide `k` that ends at the mark time `mt`. -/
def batchHdr (k mt : Nat) (bs : List BSlot) : List Byte :=
  let cnt (c : Nat) : Nat := (bs.filter fun b => b.x.cls == c).length
  let first (c : Nat) : Nat := (bs.filter fun b => decide (b.x.cls < c)).length
  leBytes 8 (k % 2 ^ 48) ++ leBytes 8 mt ++ leBytes 2 bs.length ++ leBytes 2 (bs.filter fun b => b.x.void).length ++ leBytes 12 0 ++
    (List.range 7).flatMap (fun c => leBytes 4 (first c + cnt c * 2 ^ 16)) ++ leBytes 196 0
/-- The admitted frames form the batch of tide `k` and its job (R289, R199). -/
def formBatch (c k mt : Nat) (fs : List PFrame) (s : Dev) : Dev :=
  let bs := batchSlots fs
  let e := (coveOf s c).entry
  let cost := estJob s c + sumN (fs.map (frameCost s c))
  let j : Job :=
    { entry := e, slots := bs.length, cost, frames := fs.map (·.id), copies := [0, 1].filter (fun d => bs.any fun b => b.die == d), staged := (enum bs 0).map fun p => (p.2.die, p.2.slot, p.1), sizes := (List.range 7).map fun k => ((classOf s c k).expOfs, (classOf s c k).elems / 32), widths := (List.range 7).map fun k => (classOf s c k).w }
  s |> wrBytes .dram (entryAddr s c e) (batchHdr k mt bs ++ bs.flatMap slotHdr)
    |> modCove c (fun v => { v with queue := v.queue ++ [j], entry := (e + 1) % max 1 (qDepth s c) })
    |> bump (Reg.PIX_Q_BATCH_CNT c) 1 |> bump (Reg.PIX_Q_ADMIT_CNT c) fs.length |> bump (Reg.PIX_Q_VOID_CNT c) (bs.filter fun b => b.x.void).length

/-! ## The mark (R285 to R293) -/

/-- A pending frame is dropped (R287, R293). -/
def dropFrame (c : Nat) (id : FrameId) (s : Dev) : Dev :=
  s |> unpend c id |> bump (Reg.PIX_Q_DROP_CNT c) 1 |> gap1 id.stream .dropped c 0xFF id.cap id.untr
/-- Every pending frame of a cove is dropped (R293). -/
def dropPending (c : Nat) (s : Dev) : Dev := forS ((coveOf s c).frames.map (·.id)) (dropFrame c) s
/-- Note frames as offered in tide `k`, or as analysed (R292). -/
def noteFrames (k : Nat) (analysed : Bool) (ids : List FrameId) (s : Dev) : Dev :=
  { s with pix := { s.pix with recent := s.pix.recent ++ ids.map fun i => (k, i.stream, i.cap, b2n analysed) } }
/-- BACKLOG_LIM. -/
def backlogLim (s : Dev) (st : Nat) : Nat := stF s st 3 8 4
/-- R287: streams over their backlog limit lose their oldest pending frames. -/
def trimBacklog (c k : Nat) (s : Dev) : Dev :=
  forS (streamsOf (coveOf s c).frames) (fun st s =>
    let fs := (coveOf s c).frames.filter fun f => f.id.stream == st
    let ids := (fs.take (fs.length - backlogLim s st)).map (·.id)
    s |> noteFrames k false ids |> forS ids (dropFrame c)) s
/-- R291: PIX_Q_STATE.LOW. -/
def lowWater (c : Nat) (s : Dev) : Dev :=
  let low := decide (qDepth s c - queued s c ≤ rf s (Reg.PIX_Q_CFG c) 7 6)
  let was := tst s (Reg.PIX_Q_STATE c) 14
  s |> setB (Reg.PIX_Q_STATE c) 14 low |> whenS (low && !was) (raiseFor 0x0B00 c 0 c)
/-- Admission of one running vision cove at the mark that ends tide `k`, with mark time `mt`. -/
def admitCove (k mt c : Nat) (s : Dev) : Dev :=
  let fs := (coveOf s c).frames
  let cands := ((streamsOf fs).map fun st => (st, candPrefix mt st fs)).filter fun x => !x.2.isEmpty
  let all := cands.flatMap (·.2)
  let s := s |> noteFrames k false (all.map (·.id)) |> wrN (Reg.SCH_COVE_OUTST c) (outstandingOf s c / 4096)
  let offered := sumN (all.map (frameCost s c))
  let full := decide (qDepth s c ≤ queued s c)
  let budget : Int := (nominalOf s c : Int) - outstandingOf s c - estJob s c
  let r : Adm × Dev := if full then ({ budget }, s) else admitPrios c (slotsMax s c) cands [3, 2, 1, 0] { budget } s
  let out := all.filter fun f => !(r.1.taken.contains f)
  let short := !out.isEmpty
  let prio (p : Nat) (l : List PFrame) : Nat := (l.filter fun f => stPrio s f.id.stream == p).length
  let byPrio := (List.range 4).map fun p => (prio p all, prio p r.1.taken)
  r.2 |> modStat c (fun x => { x with nominal := nominalOf s c, offered, admitted := sumN (r.1.taken.map (frameCost s c)), outst := outstandingOf s c, byPrio, short })
    |> setB (Reg.SCH_COVE_STATE c) 17 short |> whenS short (raiseFor 0x0705 c 0 c)
    |> setB (Reg.PIX_Q_STATE c) 15 full |> whenS full (raiseFor 0x0B01 c 0 c)
    |> whenS (!full) (forS out (fun f s => s |> delPend c f.id |> bump (Reg.PIX_Q_THIN_CNT c) 1 |> gap1 f.id.stream .thinned c 0xFF f.id.cap f.id.untr))
    |> whenS (!r.1.taken.isEmpty) (fun s => s |> noteFrames k true (r.1.taken.map (·.id)) |> forS r.1.taken (fun f => delPend c f.id) |> formBatch c k mt r.1.taken)
    |> trimBacklog c k |> lowWater c
/-- The counts of a stream over the last N marks (R292): offered and analysed frames. -/
def showStream (st : Nat) (held : Bool) (s : Dev) : Dev :=
  let mine := s.pix.recent.filter fun x => x.2.1 == st
  let distinct (l : List (Nat × Nat × Nat × Nat)) : Nat := ((l.map fun x => x.2.2.1).eraseDups).length
  s |> wf (Reg.PIX_S_STATE st) 8 10 (min 1023 (distinct (mine.filter fun x => x.2.2.2 == 1)))
    |> wf (Reg.PIX_S_STATE st) 18 10 (min 1023 (distinct mine)) |> setB (Reg.PIX_S_STATE st) 4 held
/-- Whether a cove is a vision cove that admits at the mark: none does at the mark at which EBB_ENTER takes effect (R431). -/
def admits (s : Dev) (c : Nat) : Bool := coveOpen s c && !(isSeqCove s c) && !(s.held.any isEbb)
/-- Step 2 of the mark actions (R50): admission in ascending cove number, and the counts of R292. Pending frames of a cove that
neither admits nor loads are dropped (R293, R431). -/
def markAdmission (k mt : Nat) (s : Dev) : Dev :=
  let held := (List.range 512).filter fun st => (List.range 8).any fun c => admits s c && heldBack mt st (coveOf s c).frames
  s |> forS ((List.range 8).filter (admits s)) (admitCove k mt)
    |> forS ((List.range 8).filter fun c => !(isSeqCove s c) && !(admits s c) && coveState s c != 1) (fun c s => s |> noteFrames k false ((coveOf s c).frames.map (·.id)) |> dropPending c)
    |> (fun s => { s with pix := { s.pix with recent := s.pix.recent.filter fun x => decide (k < x.1 + tideN s) } })
    |> forS (List.range 512) (fun st => showStream st (held.contains st))

/-! ## Copies (R290) -/

/-- The bytes of a void slot: all elements 0, every exponent byte 127; `k` are the bytes of the two planes. -/
def voidBytes (k : Nat × Nat) : List Byte := List.replicate k.1 0 ++ List.replicate k.2 127
/-- Write one slot of a batch: the staged sample, or a void slot when it is void or `bad`, its staged sample being damaged or out of the batch
engine's reach. The sample has the size that its class had when the batch closed (R51). -/
def copySlot (c : Nat) (j : Job) (bad : Bool) (x : Nat × Nat × Nat) (s : Dev) : Dev :=
  let h := entryAddr s c j.entry + 256 + 32 * x.2.2
  let a := entryAddr s c j.entry + slotOfs s c + x.2.2 * slotBytes s c
  let w := rdLE .dram s h 4
  let k := j.sizes.getD (bits w 9 3) (0, 0)
  let from_ := stageAddr s c x.1 x.2.1
  let dest := dramReach s x.1 a (k.1 + k.2)
  let far := dest.or (dramRead s x.1 from_ (k.1 + k.2))
  let s := (far.map (reportReach · s)).getD s
  let voids := entryAddr s c j.entry + 0x12
  if bitOf w 12 then whenS dest.isNone (wrBytes .dram a (voidBytes k)) s
  else if bad || far.isSome then
    s |> whenS dest.isNone (wrBytes .dram a (voidBytes k)) |> wrLE .dram h 4 (w + 2 ^ 12) |> wrLE .dram voids 2 (rdLE .dram s voids 2 + 1)
      |> bump (Reg.PIX_Q_VOID_CNT c) 1 |> raiseFor 0x0B04 c 0 c
  else wrBytes .dram a (rdBytes .dram s from_ (k.1 + k.2)) s
/-- One gap record with reason void for each frame and class with a void slot (R290). -/
def voidGaps (c : Nat) (j : Job) (s : Dev) : Dev :=
  let hs := (List.range j.slots).map fun i => rdBytes .dram s (entryAddr s c j.entry + 256 + 32 * i) 32
  let vs := (hs.filter fun b => bitOf (leNat (b.take 4)) 12).map fun b => (leNat (b.take 4) % 512, leNat ((b.drop 4).take 8), bits (leNat (b.take 4)) 9 3, bitOf (leNat (b.drop 28)) 15)
  forS vs.eraseDups (fun v => gap1 v.1 .void c v.2.2.1 v.2.1 v.2.2.2) s
/-- BATCH_COPY_DONE (R290): the batch engine of a die has copied its staged samples of the oldest batch that waits for it; `bad`
are the batch slots whose staged sample was damaged. The job becomes runnable when every slot has been written. -/
def batchCopyDone (c d : Nat) (bad : List Nat) (s : Dev) : Dev :=
  match (coveOf s c).queue.find? fun j => j.copies.contains d with
  | none => s
  | some j =>
    let left := j.copies.filter (· != d)
    s |> forS (j.staged.filter fun x => x.1 == d) (fun x => copySlot c j (bad.contains x.2.2) x)
      |> modCove c (fun v => { v with queue := v.queue.map fun y => if y == j then { y with copies := left } else y })
      |> whenS left.isEmpty (voidGaps c j)
/-- BATCH_COPY_DONE (R290). -/
def execBatchCopyDone (c : Fin 8) (d : Fin 2) (bad : List Nat) (s : State) : Result := onDev (batchCopyDone c d bad) s

end Sys2Proof.Machine
end

