-- ==== Sys2Proof/Machine/Association.lean ====
section
/-! DEFINITION. The track engines: association, hand-off, commits, host-assisted mode (R296 to R305). -/
set_option autoImplicit false
namespace Sys2Proof.Machine
open Sys2Proof

/-! ## Registers -/

/-- LOST_LIM in ns. -/
def lostLim (s : Dev) (d : Nat) : Nat := rf s (Reg.TRK_LIMITS d) 12 12 * 10000000
/-- CONFIRM. -/
def confirmHits (s : Dev) (d : Nat) : Nat := max 1 (rf s (Reg.TRK_LIMITS d) 8 4)
/-- BUSY and HOST_WAIT of TRK_STATUS. -/
def showTrk (d : Nat) (s : Dev) : Dev :=
  s |> setB (Reg.TRK_STATUS d) 15 (trkOf s d).cur.isSome |> setB (Reg.TRK_STATUS d) 17 (!(trkOf s d).posted.isEmpty)
/-- A contained event of a track engine with TRK_FAULT_INFO (Table 12-11). -/
def trkFault (bit ev d track stream : Nat) (s : Dev) : Dev :=
  let info := track % 2 ^ 15 + stream * 2 ^ 15 + ev * 2 ^ 24
  s |> wrN (Reg.TRK_FAULT_INFO d) info |> raiseFor (0x0C00 + bit) d info stream
/-- The frame of a track engine becomes a gap. -/
def trkGap (why : GapReason) (id : FrameId) (s : Dev) : Dev := gap1 id.stream why 0xFF 0xFF id.cap id.untr s

/-! ## Association (R298, R300, R303) -/

/-- Whether a frame's engine holds another frame of its stream. -/
def streamBusy (s : Dev) (d st : Nat) : Bool :=
  (match (trkOf s d).cur with | some a => a.f.id.stream == st | none => false) || (trkOf s d).posted.any fun p => p.2.f.id.stream == st
/-- The next frame of an engine: in order of arrival, each stream's in capture order. -/
def nextFrame (s : Dev) (d : Nat) : Option TFrame :=
  (trkOf s d).queue.find? fun f => !(streamBusy s d f.id.stream) && !(openBefore s f.id.stream f.id.cap)
/-- The candidates of a frame (R300): the stream's tracks, but LOST ones past LOST_LIM. -/
def trkCands (s : Dev) (d : Nat) (id : FrameId) : List Nat :=
  (streamTracks s d id.stream [1, 2, 3]).filter fun t => !(trkState s t == 3 && decide ((lostLim s d : Int) < (id.cap : Int) - (trkGet s t).last))
/-- A detection in the 160-byte layout of R297. -/
def Det.bytes (z : Det) : List Byte :=
  leBytes 4 z.x0 ++ leBytes 4 z.y0 ++ leBytes 4 z.x1 ++ leBytes 4 z.y1 ++ leBytes 4 z.score ++ leBytes 2 z.cls ++ leBytes 2 z.slot ++
    z.emb.map (BitVec.ofInt 8) ++ z.exps.map (BitVec.ofNat 8) ++ leBytes 4 0
/-- The address of post block `b` of a die (R388). -/
def postBlock (s : Dev) (d b : Nat) : Nat := baseAddr s (Reg.TRK_TABLE_BASE_LO d) + 2 ^ 22 + 2 ^ 17 * b
/-- A frame is posted to the host in block `b`. -/
def postFrame (d b : Nat) (a : Assoc) (s : Dev) : Dev :=
  let a := { a with tag := nextTag s 9, at_ := now s }
  let z := a.f.dets
  s |> wrBytes .dram (postBlock s d b) (z.flatMap Det.bytes) |> wrBytes .dram (postBlock s d b + 65536) (a.cands.flatMap (leBytes 4))
    |> modTrk d (fun t => { t with posted := t.posted ++ [(b, a)] })
    |> hostPost 9 1 (leBytes 2 a.f.id.stream ++ leBytes 1 d ++ leBytes 1 0 ++ leBytes 2 z.length ++ leBytes 2 a.cands.length ++ leBytes 8 a.f.id.cap ++ leBytes 8 (postBlock s d b))
/-- Whether the engine of a die reaches the entries of some tracks (R24, R345). -/
def trkReach (s : Dev) (d : Nat) (ts : List Nat) : Option NoReach := ts.findSome? fun t => dramRead s d (trkAddr s t) 256
/-- Whether it reaches what association touches: the candidates, and for a frame of the host its post block. -/
def assocReach (s : Dev) (d b : Nat) (a : Assoc) : Option NoReach :=
  trkReach s d a.cands <|> if a.f.host then dramReach s d (postBlock s d b) (160 * a.f.dets.length) <|> dramReach s d (postBlock s d b + 65536) (4 * a.cands.length) else none
/-- An entry whose data was lost becomes FREE with TRACK_ENDED, ARG 1 (R305). -/
def loseEntry (t : Nat) (id : FrameId) (s : Dev) : Dev :=
  if trkState s t = 0 then s
  else s |> trkFree t |> eventRec (trkStream s t) 0 id.cap id.untr false 2 t (trkIdent s t) 1 0
/-- An uncorrected error in the working store or in the read of an entry (R305): the frame becomes a gap, and an entry whose data was lost ends. -/
def trkUncorr (d : Nat) (lost : Option Nat) (id : FrameId) (s : Dev) : Dev :=
  s |> bump16 (Reg.TRK_ECC_CNT d) 16 1 |> trkFault 1 1 d (lost.getD 0) id.stream |> trkGap .contained id
    |> whenS lost.isSome (loseEntry (16384 * d + lost.getD 0) id)
/-- An access of the frame was answered with an error: the frame ends contained (R305, R325, R345). -/
def trkUnreached (d : Nat) (x : NoReach) (id : FrameId) (s : Dev) : Dev :=
  let s := reportReach x s
  let t := (x.addr - trkAddr s (16384 * d)) / 256
  if x.why = .ecc then trkUncorr d (if t < 16384 then some t else none) id s else trkGap .contained id s
/-- TRACK_ASSOCIATE (R298, R300, R305): an idle engine takes its next frame. `ecc` is what reading finds: 0 nothing, 1 a corrected
error, 2 an uncorrected one, with the local entry whose data was lost, if any. An engine that failed its self-test makes every frame a gap
(R412). -/
def trackAssociate (d ecc : Nat) (lost : Option Nat) (s : Dev) : Dev :=
  match nextFrame s d with
  | none => s
  | some f =>
    if !f.host && (trkOf s d).cur.isSome then s
    else match (List.range 8).find? fun b => !((trkOf s d).posted.any fun p => p.1 == b) with
      | none => s
      | some b =>
        let s := modTrk d (fun t => { t with queue := t.queue.erase f }) s
        if s.bt.trkOff.contains d then trkGap .contained f.id s else
        let s := if ecc = 1 then s |> bump16 (Reg.TRK_ECC_CNT d) 0 1 |> raise 0x0C00 d 0 else s
        if ecc = 2 then trkUncorr d lost f.id s
        else if !(tst s (Reg.TRK_CTRL d) 0) then trkGap .untracked f.id s
        else
          let a : Assoc := { f, cands := trkCands s d f.id }
          if let some x := assocReach s d b a then trkUnreached d x f.id s
          else if f.host then s |> postFrame d b a |> showTrk d
          else s |> modTrk d (fun t => { t with cur := some a }) |> showTrk d
/-- TRACK_ASSOCIATE (R300). -/
def execTrackAssociate (d : Fin 2) (ecc : Fin 3) (lost : Option (Fin 16384)) (s : State) : Result := onDev (trackAssociate d ecc (lost.map (·.val))) s

/-- A pair of a detection and a candidate with its cost. -/
structure Pair where
  cost : Nat
  det : Nat
  trk : Nat
  deriving DecidableEq, Repr
/-- The pair of a detection and a candidate when it is kept (R300). -/
def pairOf (s : Dev) (d cap : Nat) (i : Nat) (z : Det) (t : Nat) : Option Pair :=
  let e := trkGet s t
  let r := Reg.TRK_ASSOC d
  let u := iou (predict s d cap e).box z.box
  let c := cosine (z.emb, z.exps) (e.emb, e.exps)
  let one := ofInt32 1
  let cost := tadd (tmul (tfrac (rf s r 0 8) 8) (tsub one u)) (tmul (tfrac (rf s r 8 8) 8) (tsub one c))
  if z.cls == e.cls && (le32 (tfrac (rf s r 16 8) 8) u || le32 (tfrac (rf s r 24 8) 8) c) && le32 cost (tfrac (rf s (Reg.TRK_LIMITS d) 0 8) 7) then
    some ⟨cost, i, t⟩ else none
/-- Assignment in ascending cost (R300), as (detection, track). -/
def assign : List Pair → List (Nat × Nat) → List (Nat × Nat)
  | [], a => a
  | p :: ps, a => if a.any fun x => x.1 == p.det || x.2 == p.trk then assign ps a else assign ps (a ++ [(p.det, p.trk)])
/-- The assignment of a frame in hardware mode. -/
def assignment (s : Dev) (d : Nat) (a : Assoc) : List (Nat × Nat) :=
  let ps := (enum a.f.dets 0).flatMap fun z => a.cands.filterMap fun t => pairOf s d a.f.id.cap z.1 z.2 t
  let before (x y : Pair) : Bool := lt32 x.cost y.cost || (!(lt32 y.cost x.cost) && lexLt [x.det, x.trk] [y.det, y.trk])
  sortBy (fun a b => decide (a.1 < b.1)) (assign (sortBy before ps) [])

/-! ## Hand-off (R304) -/

/-- Whether a track is a candidate of a frame that its engine associates. -/
def isCandidate (s : Dev) (t : Nat) : Bool :=
  let e := trkOf s (t / 16384)
  (match e.cur with | some a => a.cands.contains t | none => false) || e.posted.any fun p => p.2.cands.contains t
/-- The hand-off candidates of a confirming track of stream `st` on die `d`, with its class and embedding: at most 4, in descending
cosine. Tracks of the other die are reached over the link (R24). -/
def handoffCands (s : Dev) (d st cap cls : Nat) (emb : List Int × List Nat) : List Nat :=
  let r := Reg.TRK_HANDOFF d
  let ok (t : Nat) : Option (Nat × Nat) :=
    let e := trkGet s t
    let c := cosine emb (e.emb, e.exps)
    if trkState s t == 3 && (trkReach s d [t]).isNone && e.cls == cls && decide ((cap : Int) - e.last ≤ (rf s r 8 15 * 1000000 : Nat)) &&
        (if e.stream == st then t / 16384 != d else stGroup s e.stream == stGroup s st) && le32 (tfrac (rf s r 0 8) 8) c then some (c, t) else none
  let dies := (List.range 2).flatMap fun x => if rf s (Reg.TRK_STATUS x) 0 15 = 0 then [] else dieTracks x
  let l := dies.filterMap ok
  ((sortBy (fun a b => lt32 b.1 a.1 || (!(lt32 a.1 b.1) && decide (a.2 < b.2))) l).take 4).map (·.2)
/-- The tracks that a frame confirms: detection, class and embedding after this commit's update. -/
def confirming (s : Dev) (d : Nat) (a : Assoc) (as : List (Nat × Nat)) (news : List Nat) : List (Nat × Nat × (List Int × List Nat)) :=
  (enum a.f.dets 0).filterMap fun z => match as.find? fun x => x.1 == z.1 with
    | some x =>
      let e := trkGet s x.2
      let m := mixEmb (e.emb, e.exps) (z.2.emb, z.2.exps)
      if e.state = 1 ∧ confirmHits s d ≤ min 255 (e.hits + 1) then some (z.1, z.2.cls, m) else none
    | none => if news.contains z.1 && confirmHits s d == 1 then some (z.1, z.2.cls, (z.2.emb, z.2.exps)) else none
/-- The detections without a track that open one in hardware mode: those with a score of at least NEW_MIN. -/
def openers (s : Dev) (d : Nat) (a : Assoc) (as : List (Nat × Nat)) : List Nat :=
  ((enum a.f.dets 0).filter fun z => !(as.any fun x => x.1 == z.1) && le32 (tfrac (rf s (Reg.TRK_LIMITS d) 24 8) 8) z.2.score).map (·.1)
/-- One claim for a confirming detection: the best candidate not yet tried is claimed; it succeeds when the candidate is still LOST
and no candidate of a frame in association. -/
def claimOne (d : Nat) (z : Nat × Nat × (List Int × List Nat)) (a : Assoc) (s : Dev) : Assoc × Dev :=
  let mine := a.tried.filter fun x => x.1 == z.1
  let st := a.f.id.stream
  if stGroup s st = 0 ∨ 4 ≤ mine.length ∨ a.won.any (fun w => w.1 == z.1) then (a, s)
  else match (handoffCands s d st a.f.id.cap z.2.1 z.2.2).find? fun t => !(a.tried.contains (z.1, t)) with
    | none => (a, s)
    | some t =>
      let a := { a with tried := a.tried ++ [(z.1, t)] }
      if isCandidate s t || crossesDown s d (t / 16384) 28 then (a, s)
      else ({ a with won := a.won ++ [(z.1, t, trkStream s t, trkIdent s t)] }, s |> trkFree t |> bump (Reg.TRK_HANDOFF_CNT d) 1)
/-- Every claim that a confirming detection may still make. -/
def claimAll (d : Nat) (zs : List (Nat × Nat × (List Int × List Nat))) (a : Assoc) (s : Dev) : Assoc × Dev :=
  zs.foldl (fun p z => (List.range 4).foldl (fun p _ => claimOne d z p.1 p.2) p) (a, s)
/-- HANDOFF_CLAIM (R304): the frame in association makes one claim, for its first confirming detection that may still make one. -/
def handoffClaim (d : Nat) (s : Dev) : Dev :=
  match (trkOf s d).cur with
  | none => s
  | some a =>
    let as := assignment s d a
    let zs := confirming s d a as (openers s d a as)
    match (zs.map fun z => claimOne d z a s).find? fun r => r.1 != a with
    | none => s
    | some r => modTrk d (fun t => { t with cur := some r.1 }) r.2
/-- HANDOFF_CLAIM (R304). -/
def execHandoffClaim (d : Fin 2) (s : State) : Result := onDev (handoffClaim d) s

/-! ## Commits (R298, R299, R301, R302) -/

/-- A track event of a commit. -/
def trkEvent (id : FrameId) (code t ident arg value : Nat) (s : Dev) : Dev := eventRec id.stream 0 id.cap id.untr id.taint code t ident arg value s
/-- A track becomes CONFIRMED: HANDOFF first, when a claim succeeded, then TRACK_CONFIRMED. -/
def confirm (d : Nat) (a : Assoc) (i t : Nat) (s : Dev) : Dev :=
  let e := { trkGet s t with state := 2 }
  match a.won.find? fun w => w.1 == i with
  | some w => s |> trkPut t { e with ident := w.2.2.2 } |> modTrk d (fun x => { x with handed := x.handed ++ [t] })
      |> trkEvent a.f.id 3 t w.2.2.2 w.2.1 w.2.2.1 |> trkEvent a.f.id 1 t w.2.2.2 0 0
  | none => s |> trkPut t e |> trkEvent a.f.id 1 t e.ident 0 0
/-- A matched track (R299, Table 12-3). -/
def matchTrack (d : Nat) (a : Assoc) (x : Nat × Nat) (s : Dev) : Dev :=
  match a.f.dets[x.1]? with
  | none => s
  | some z =>
    let e := updated s d a.f.id.cap (predict s d a.f.id.cap (trkGet s x.2)) z
    let hits := min 255 (e.hits + 1)
    if e.state = 1 then
      s |> trkPut x.2 { e with hits } |> whenS (decide (confirmHits s d ≤ hits)) (confirm d a x.1 x.2)
    else trkPut x.2 { e with hits, state := 2 } s
/-- A candidate without a match (Table 12-3). -/
def missTrack (t : Nat) (s : Dev) : Dev :=
  let e := trkGet s t
  match e.state with
  | 1 => trkFree t s
  | 2 => trkPut t { e with state := 3, misses := 1, hits := 0 } s
  | 3 => trkPut t { e with misses := min 65535 (e.misses + 1), hits := 0 } s
  | _ => s
/-- A detection opens a track in the lowest FREE entry (R302). -/
def openTrack (d : Nat) (a : Assoc) (i : Nat) (s : Dev) : Dev :=
  match a.f.dets[i]? with
  | none => s
  | some z => match (dieTracks d).find? fun t => trkState s t == 0 with
    | none =>
      let full := tst s (Reg.TRK_STATUS d) 16
      s |> bump (Reg.TRK_FULL_CNT d) 1 |> setB (Reg.TRK_STATUS d) 16 true |> whenS (!full) (raise 0x0C04 d 0)
    | some t =>
      let ident := d * 2 ^ 31 + (trkOf s d).created % 2 ^ 31
      s |> trkPut t (newEnt s d a.f.id.stream a.f.id.cap ident z) |> modTrk d (fun x => { x with created := (x.created + 1) % 2 ^ 31 })
        |> bump (Reg.TRK_NEW_CNT d) 1 |> whenS (confirmHits s d == 1) (confirm d a i t)
/-- A 24-byte entry of a TRACK record (Table 12-7, R466). -/
def trackEntry (s : Dev) (d cap t : Nat) : List Byte :=
  let e := trkGet s t
  let k := trkOf s d
  let u (x : Nat) : List Byte := beBytes 2 (toInt32 x 0 65535).toNat
  let v (x : Nat) : List Byte := beBytes 2 (ofSigned (toInt32 x (-32768) 32767) 16)
  let w := t % 2 ^ 15 + b2n (!(k.listed.contains t)) * 2 ^ 15 + e.cls * 2 ^ 16 + e.state * 2 ^ 24 + b2n (k.handed.contains t) * 2 ^ 26 + b2n (e.last == cap && e.state == 2) * 2 ^ 27
  beBytes 4 w ++ u e.box.1 ++ u e.box.2.1 ++ u (e.x.getD 2 0) ++ u (e.x.getD 3 0) ++ v (e.v.getD 0 0) ++ v (e.v.getD 1 0) ++
    beBytes 4 e.ident ++ beBytes 1 e.score ++ [0] ++ beBytes 2 e.misses
/-- The TRACK records of a commit: every CONFIRMED and LOST track of the stream, 48 in a record. -/
def trackRecs (d : Nat) (id : FrameId) (s : Dev) : Dev :=
  let ts := streamTracks s d id.stream [2, 3]
  let n := max 1 (ceilDiv ts.length 48)
  s |> forS (List.range n) (fun i s =>
      let part := (ts.drop (48 * i)).take 48
      let r := mkRec s 1 id.stream i id.cap id.untr (beBytes 2 0 ++ beBytes 2 part.length ++ part.flatMap (trackEntry s d id.cap))
      emitRec { r with taint := id.taint, continued := decide (i + 1 < n) } s)
    |> modTrk d (fun x => { x with listed := x.listed ++ ts.filter (fun t => !(x.listed.contains t)), handed := x.handed.filter fun t => !(ts.contains t) })
/-- The boxes of a stream's tracks, by class, for the masks of R243. -/
def streamBoxes (s : Dev) (d st : Nat) : List (Nat × List Nat) :=
  (streamTracks s d st [1, 2, 3]).map fun t => (let e := trkGet s t
    (e.cls, [e.box.1, e.box.2.1, e.box.2.2.1, e.box.2.2.2]))
/-- One frame's commit: LOST tracks past LOST_LIM end, claims are made, candidates change state by Table 12-3, tracks open, and the
records follow. -/
def commitFrame (d : Nat) (a : Assoc) (as : List (Nat × Nat)) (news : List Nat) (s : Dev) : Dev :=
  let id := a.f.id
  let gone := (streamTracks s d id.stream [3]).filter fun t => !(a.cands.contains t) && decide ((lostLim s d : Int) < (id.cap : Int) - (trkGet s t).last)
  let r := claimAll d (confirming s d a as news) a s
  r.2 |> forS gone (fun t s => if trkState s t = 3 then s |> trkFree t |> trkEvent id 2 t (trkIdent s t) 0 0 else s)
    |> forS as (matchTrack d r.1) |> forS (a.cands.filter fun t => !(as.any fun x => x.2 == t)) missTrack |> forS news (openTrack d r.1)
    |> bump (Reg.TRK_FRAME_CNT d) 1 |> bump (Reg.TRK_DET_CNT d) a.f.dets.length |> trackRecs d id
    |> (fun s => modTrk d (fun x => { x with commits := x.commits ++ [(id.stream, id.cap, streamBoxes s d id.stream)] }) s)
/-- The `n` lowest FREE entries among some tracks. -/
def freeTracks (s : Dev) : Nat → List Nat → List Nat
  | 0, _ => []
  | _, [] => []
  | n + 1, t :: ts => if trkState s t = 0 then t :: freeTracks s n ts else freeTracks s (n + 1) ts
/-- The entries that a commit touches: the candidates, and those that it opens. -/
def commitTouches (s : Dev) (d : Nat) (a : Assoc) (news : List Nat) : List Nat := a.cands ++ freeTracks s news.length (dieTracks d)
/-- A frame's commit, or its end as contained when an entry that it touches is not reached. -/
def commitOrGap (d : Nat) (a : Assoc) (as : List (Nat × Nat)) (news : List Nat) (s : Dev) : Dev :=
  match trkReach s d (commitTouches s d a news) with
  | some x => trkUnreached d x a.f.id s
  | none => commitFrame d a as news s
/-- TRACK_COMMIT (R298): the frame in association is committed. -/
def trackCommit (d : Nat) (s : Dev) : Dev :=
  match (trkOf s d).cur with
  | none => s
  | some a =>
    let as := assignment s d a
    s |> commitOrGap d a as (openers s d a as) |> modTrk d (fun t => { t with cur := none }) |> showTrk d
/-- TRACK_COMMIT (R298). -/
def execTrackCommit (d : Fin 2) (s : State) : Result := onDev (trackCommit d) s

/-! ## Host-assisted mode (R303, R388) -/

/-- The posted frame that an answer names: die, block and frame. -/
def postedBy (s : Dev) (tag : Nat) : Option (Nat × Nat × Assoc) :=
  (List.range 2).findSome? fun d => ((trkOf s d).posted.find? fun p => p.2.tag == tag).map fun p => (d, p.1, p.2)
/-- A posted frame is no longer held. -/
def unpost (d b : Nat) (s : Dev) : Dev := s |> modTrk d (fun t => { t with posted := t.posted.filter fun p => p.1 != b }) |> showTrk d
/-- Whether a host's actions are valid: one for each detection, each a candidate of the frame named once, NEW, or DISCARD. -/
def actionsOk (a : Assoc) (acts : List Nat) : Bool :=
  let ts := acts.filter fun x => decide (x < 0xFFFE)
  acts.length == a.f.dets.length && ts.all (fun t => a.cands.contains t) && ts.eraseDups.length == ts.length && acts.all fun x => decide (x < 65536)
/-- TRACK_ACTIONS (R303): the host's answer is applied as a commit, or rejected and the frame becomes a gap. -/
def trackActions (h : H2D) (acts : List Nat) (s : Dev) : Dev :=
  if !(ringHasEntry s 10) then s
  else
    let s := ringTake 10 s
    if !(h2dOk s 10 1 h) then staleEntry s
    else match postedBy s h.tag with
      | none => staleEntry s
      | some (d, b, a) =>
        if actionsOk a acts then
          let l := enum acts 0
          s |> commitOrGap d a (l.filter fun x => decide (x.2 < 0xFFFE)) ((l.filter fun x => x.2 == 0xFFFE).map (·.1)) |> unpost d b
        else s |> trkFault 3 3 d 0 a.f.id.stream |> unpost d b |> trkGap .host a.f.id
/-- TRACK_ACTIONS (R303). -/
def execTrackActions (h : H2D) (acts : List Nat) (s : State) : Result := onDev (trackActions h acts) s
/-- TRK_HOST_TIMEOUT (R303, R32): no answer to the oldest post within TRK_HOST_LIM. -/
def trkHostTimeout (d : Nat) (s : Dev) : Dev :=
  match (trkOf s d).posted with
  | [] => s
  | (b, a) :: _ => s |> waitUntil (a.at_ + rf s (Reg.TRK_HOST_LIM d) 0 16 * 1000000) |> dropPost 9 a.tag |> hostGone 4 |> trkFault 2 2 d 0 a.f.id.stream |> unpost d b |> trkGap .host a.f.id
/-- TRK_HOST_TIMEOUT (R303). -/
def execTrkHostTimeout (d : Fin 2) (s : State) : Result := onDev (trkHostTimeout d) s

/-! ## The tide mark and ebb (R301, R431) -/

/-- Tracks end outside any frame: their events enter the channels at once, with the mark time as TIME. -/
def endTracks (arg mt : Nat) (ts : List Nat) (s : Dev) : Dev :=
  forS ts (fun t s => s |> trkFree t |> enterChans (mkRec s 5 (trkStream s t) 0 mt (untraceable s) (beBytes 2 2 ++ beBytes 2 t ++ beBytes 4 (trkIdent s t) ++ beBytes 4 arg ++ beBytes 4 0))) s
/-- The tracks of a die that are not FREE. -/
def liveTracks (s : Dev) (d : Nat) (states : List Nat) : List Nat :=
  if rf s (Reg.TRK_STATUS d) 0 15 = 0 then [] else (dieTracks d).filter fun t => states.contains (trkState s t)
/-- The expiry at a tide mark (R301). -/
def markTracks (mt : Nat) (s : Dev) : Dev :=
  forS (List.range 2) (fun d s => endTracks 0 mt ((liveTracks s d [3]).filter fun t => !(isCandidate s t) && decide ((lostLim s d : Int) < (mt : Int) - (trkGet s t).last)) s) s
/-- Every track ends because its table does not survive ebb (R431). -/
def endAllTracks (mt : Nat) (s : Dev) : Dev := forS (List.range 2) (fun d s => endTracks 2 mt (liveTracks s d [1, 2, 3]) s) s

end Sys2Proof.Machine
end

