-- ==== Sys2Proof/Machine/Attention.lean ====
section
/-! DEFINITION. The attention unit: ATTEND and APPEND over paged keys and values (R155 to R168). -/
set_option autoImplicit false
namespace Sys2Proof.Machine
open Sys2Proof

/-! ## The attention descriptor and the length table (Tables 7-2 and 7-3) -/

/-- An attention descriptor. -/
structure Attn where
  append : Bool
  causal : Bool
  biasEn : Bool
  dh : Nat
  hq : Nat
  hkv : Nat
  aw : Nat
  headroom : Nat
  oFmt : Nat
  layer : Nat
  len : Nat
  scale : Nat
  lenBase : Nat
  q : Nat
  o : Nat
  newkv : Nat
  bias : Nat
  resv : Bool
  deriving DecidableEq, Repr
/-- The descriptor at a core-scratch offset. -/
def attnAt (s : Dev) (k a : Nat) : Attn :=
  let w (i : Nat) : Nat := rdLE (.scr k) s (a + 4 * i) 4
  { append := bitOf (w 0) 0, causal := bitOf (w 0) 1, biasEn := bitOf (w 0) 2, dh := 32 * (bits (w 0) 3 3 + 1), hq := bits (w 0) 6 7,
    hkv := bits (w 0) 13 7, aw := bits (w 0) 20 4, headroom := bits (w 0) 24 2, oFmt := bits (w 0) 26 2, layer := bits (w 1) 0 8,
    len := bits (w 1) 8 9, scale := w 2, lenBase := bits (w 3) 0 22, q := w 4 + w 5 * 2 ^ 32, o := w 6 + w 7 * 2 ^ 32,
    newkv := w 8 + w 9 * 2 ^ 32, bias := w 10 + bits (w 11) 0 8 * 2 ^ 32,
    resv := bits (w 0) 28 4 != 0 || bits (w 1) 17 15 != 0 || bits (w 3) 22 10 != 0 || bits (w 5) 8 22 != 0 || bits (w 7) 8 22 != 0 ||
      bits (w 9) 8 22 != 0 || bits (w 11) 8 24 != 0 || w 12 != 0 || w 13 != 0 || w 14 != 0 || w 15 != 0 }
/-- The query width a. -/
def Attn.a (d : Attn) : Nat := d.aw + 1
/-- A length-table entry; of a sequence cancelled within the step, with the page lists that the step's work for it reads (R176). -/
structure LenEnt where
  seq : Nat
  qpos : Nat
  qcnt : Nat
  kvLen : Nat
  append : Bool
  void : Bool
  cut : Option (List PageRef) := none
  deriving DecidableEq, Repr
/-- The length-table entry at a core-scratch offset. -/
def lenAt (s : Dev) (k a : Nat) : LenEnt :=
  let w (i : Nat) : Nat := rdLE (.scr k) s (a + 4 * i) 4
  ⟨bits (w 0) 0 10, bits (w 1) 0 16, bits (w 1) 16 16, bits (w 2) 0 16, bitOf (w 3) 0, bitOf (w 3) 1, none⟩
/-- The bytes of a length-table entry. -/
def LenEnt.bytes (e : LenEnt) : List Byte :=
  leBytes 4 e.seq ++ leBytes 4 (e.qpos + e.qcnt * 2 ^ 16) ++ leBytes 4 e.kvLen ++ leBytes 4 (b2n e.append + 2 * b2n e.void)
/-- The length table of an active step (R159): its sequences in ascending number; one lost by a containment is suppressed. -/
def stepTable (x : Step) : List LenEnt := x.ents.map fun e => ⟨e.seq, e.qpos, e.qcnt, e.qpos + e.qcnt, true, e.lost, none⟩
/-- R159: the scheduler's length table of a cove's active step is in core scratch at LEN_BASE when an attention command starts;
entries beyond the step's are VOID (log entry 17). -/
def placeTable (k cove : Nat) (d : Attn) (s : Dev) : Dev :=
  match s.kv.steps.find? fun x => x.cove == cove && x.started with
  | none => s
  | some x =>
    let es := stepTable x ++ List.replicate d.len ⟨0, 0, 0, 0, false, true, none⟩
    wrBytes (.scr k) d.lenBase ((es.take d.len).flatMap LenEnt.bytes) s
/-- The page lists of a sequence at its CANCEL within the active step of a cove. -/
def cutOf (s : Dev) (cove seq : Nat) : Option (List PageRef) :=
  match s.kv.steps.find? fun x => x.cove == cove && x.started with
  | none => none
  | some x => (x.ents.find? fun e => e.seq == seq).bind (·.cut)
/-- The entries that an attention command of a cove reads. -/
def lenTable (s : Dev) (k cove : Nat) (d : Attn) : List LenEnt :=
  (List.range d.len).map fun i => let e := lenAt s k (d.lenBase + 16 * i); { e with cut := cutOf s cove e.seq }
/-- The rows that an entry gives rise to (R159). -/
def LenEnt.rows (e : LenEnt) : Nat := if e.void then 0 else e.qcnt
/-- The frame of a page of an entry's sequence on the command's layer. -/
def pageFrame (s : Dev) (d : Attn) (e : LenEnt) (p : Nat) : Option Nat :=
  match e.cut with
  | some l => (l.find? fun x => x.layer == d.layer && x.page == p).map (·.frame)
  | none => plFrame s e.seq d.layer p
/-- The frames that an entry's visible positions lie in. -/
def entryFrames (s : Dev) (d : Attn) (e : LenEnt) : List Nat :=
  if e.rows = 0 then [] else (List.range (pagesFor e.kvLen)).filterMap (pageFrame s d e)

/-! ## Pages (R170, Table 7-4) -/

/-- Offset of the V plane. -/
def vOfs (d : Attn) (k4 : Bool) : Nat := ceilDiv (d.hkv * 16 * d.dh * (if k4 then 4 else 8) / 8) 256 * 256
/-- Offset of the exponents. -/
def eOfs (d : Attn) (k4 v4 : Bool) : Nat := vOfs d k4 + ceilDiv (d.hkv * d.dh * 16 * (if v4 then 4 else 8) / 8) 256 * 256
/-- The page size. -/
def pageBytes (d : Attn) (k4 v4 : Bool) : Nat := eOfs d k4 v4 + 2 * d.hkv
/-- An n-bit element at a bit position of a frame. -/
def elemAt (s : Dev) (a n bit : Nat) : Int :=
  toSigned ((mrd .dram s (a + bit / 8)).toNat / 2 ^ (bit % 8)) n
/-- Write an n-bit element at a bit position of a frame. -/
def putElem (a n bit : Nat) (q : Int) (s : Dev) : Dev :=
  let b := (mrd .dram s (a + bit / 8)).toNat
  mwr .dram (a + bit / 8) (BitVec.ofNat 8 (putBits b (bit % 8) n (ofSigned q n))) s
/-- Bit position of a K element: head, token, dimension. -/
def kBit (d : Attn) (n h j e : Nat) : Nat := ((h * 16 + j) * d.dh + e) * n
/-- Bit position of a V element: head, dimension, token. -/
def vBit (d : Attn) (k4 : Bool) (n h j e : Nat) : Nat := vOfs d k4 * 8 + ((h * d.dh + e) * 16 + j) * n
/-- Width of a BX8 or BX4 element. -/
def w48 (b4 : Bool) : Nat := if b4 then 4 else 8

/-! ## Scores and values (R160 to R165) -/

/-- `bucket` of R161. -/
def bucket (d : Int) : Nat :=
  let u := d.natAbs
  let b := if u ≤ 256 then u else
    let e := Nat.log2 u
    if 14 ≤ e then 1023 else 256 + 128 * (e - 8) + u / 2 ^ (e - 7) % 128
  if d < 0 then 1024 + b else b
/-- The query tensor: a BX tensor of `rows` rows at ADDR, its exponent plane at the next 256-byte boundary (R66). -/
def queryOpnd (d : Attn) (rows : Nat) : Opnd :=
  ⟨(addrWord d.q).1, (addrWord d.q).2, rows * d.hq * (d.dh / 32), if d.aw = 15 then 16 else d.a + 7⟩
/-- The query pips of row `r`, head `h`. -/
def queryPips (s : Dev) (k : Nat) (d : Attn) (rows r h : Nat) : List Pip :=
  (List.range (d.dh / 32)).map fun p => rawGroup s k (queryOpnd d rows) ((r * d.hq + h) * (d.dh / 32) + p)
/-- A result times a value. -/
def mulFr (x : Fr) (y : Nat) : Fr := (mul32 x.v y).with x.fl
/-- The score of a query head's row against one key (R162). -/
def score (s : Dev) (d : Attn) (qs : List Pip) (h pos t f : Nat) : Fr :=
  let hk := h * d.hkv / d.hq
  let n := w48 (frK4 s f)
  let a := frAddr s f
  let ek := (mrd .dram s (a + eOfs d (frK4 s f) (frV4 s f) + hk)).toNat
  let x := (List.range (d.dh / 32)).foldl (fun (x : Fr) (p : Nat) =>
    let ks := (List.range 32).map fun i => elemAt s a n (kBit d n hk (t % 16) (32 * p + i))
    let q := qs.getD p zeroPip
    addFr x (dpuScale (dpuSum d.a n q.q ks) q.e ek)) ⟨0, {}⟩
  let x := mulFr x d.scale
  if d.biasEn then addFr x ⟨half2f (rdLE .dram s (d.bias + 4096 * h + 2 * bucket ((pos : Int) - t)) 2), {}⟩ else x
/-- Whether key `t` is visible to a row at `pos` (R160). -/
def visible (d : Attn) (e : LenEnt) (pos t : Nat) : Bool := decide (t < e.kvLen) && (!d.causal || decide (t ≤ pos))
/-- The frame that holds position `t` of an entry's sequence. -/
def frameAt (s : Dev) (d : Attn) (e : LenEnt) (t : Nat) : Nat := (pageFrame s d e (t / 16)).getD 0
/-- The value exponent of the page that holds position `t`. -/
def valueExp (s : Dev) (d : Attn) (e : LenEnt) (h t : Nat) : Nat :=
  let f := frameAt s d e t
  (mrd .dram s (frAddr s f + eOfs d (frK4 s f) (frV4 s f) + d.hkv + h * d.hkv / d.hq)).toNat
/-- The probabilities of 32 positions from `t0` as the value engine takes them: a BX8 pip, the larger value scale, flags (R165). -/
def valueActs (s : Dev) (d : Attn) (e : LenEnt) (pos h t0 : Nat) (pr : Nat → Nat) : Pip × Nat × NumFlags :=
  let ts := (List.range 32).map (t0 + ·)
  let emax := (ts.filter (visible d e pos)).foldl (fun m t => max m (valueExp s d e h t)) 0
  let ys := ts.map fun t => if visible d e pos t then (mul32 (pr t) (ofScaled32 1 ((valueExp s d e h t : Int) - emax)).v).v else 0
  let q := toBx 8 ys
  (q.1, emax, q.2)
/-- The value engine's result for one dimension of such a pip. -/
def valueDim (s : Dev) (d : Attn) (e : LenEnt) (pos h t0 : Nat) (x : Pip × Nat × NumFlags) (dim : Nat) : Fr :=
  let hk := h * d.hkv / d.hq
  let sum := (enum ((List.range 32).map (t0 + ·)) 0).foldl (fun (a : Int) p =>
    let f := frameAt s d e p.2
    let n := w48 (frV4 s f)
    if visible d e pos p.2 then a + x.1.at p.1 * elemAt s (frAddr s f) n (vBit d (frK4 s f) n hk (p.2 % 16) dim) else a) 0
  (ofScaled32 sum ((x.1.e : Int) + x.2.1 - 254)).with x.2.2
/-- What the softmax walk carries (R164), with the flags of what went into it. -/
structure Soft where
  m : Nat := 0xFF800000
  l : Fr := ⟨0, {}⟩
  acc : List Fr
  deriving DecidableEq, Repr
/-- One block of 128 positions (R164). The first maximum, minus infinity, is the walk's own and sets no flag. -/
def softBlock (s : Dev) (d : Attn) (e : LenEnt) (qs : List Pip) (pos h b : Nat) (x : Soft) : Soft :=
  let ts := (List.range 128).map (128 * b + ·)
  let vis := ts.filter (visible d e pos)
  if vis.isEmpty then x
  else
    let sc := vis.map fun t => (t, score s d qs h pos t (frameAt s d e t))
    let mb := sc.foldl (fun (m : Nat) p => (max32f m p.2.v).v) 0xFF800000
    let mn := (max32f x.m mb).v
    let ex (v : Nat) : Fr := let y := sub32 v mn; (veExp 0x13 y.v).with y.fl
    let r : Fr := if x.m = 0xFF800000 then ⟨(ex x.m).v, {}⟩ else ex x.m
    let prs := sc.map fun p => (p.1, (ex p.2.v).with p.2.fl)
    let pr (t : Nat) : Nat := match prs.find? fun p => p.1 == t with | some p => p.2.v | none => 0
    let sum := prs.foldl (fun (a : Fr) p => addFr a p.2) ⟨0, {}⟩
    let pips := ((List.range 4).filter fun p => vis.any fun t => t / 32 == 4 * b + p).map fun p =>
      (p, valueActs s d e pos h (128 * b + 32 * p) pr)
    let pv (dim : Nat) : Fr := pips.foldl (fun (a : Fr) p => addFr a (valueDim s d e pos h (128 * b + 32 * p.1) p.2 dim)) ⟨0, {}⟩
    ⟨mn, addFr (mulFr (x.l.with r.fl) r.v) sum, (enum x.acc 0).map fun p => addFr (mulFr p.2 r.v) (pv p.1)⟩
/-- One row and head (R164). -/
def attendHead (s : Dev) (k : Nat) (d : Attn) (rows r : Nat) (e : LenEnt) (pos h : Nat) : Frs :=
  let qs := queryPips s k d rows r h
  let x := (List.range (ceilDiv e.kvLen 128)).foldl (fun x b => softBlock s d e qs pos h b x) { acc := List.replicate d.dh ⟨0, {}⟩ }
  let inv := div32 0x3F800000 x.l.v
  let out := Frs.of (x.acc.map fun a => if x.l.v % 2 ^ 31 = 0 then ⟨0, a.fl⟩ else mulFr (a.with inv.fl) inv.v)
  { out with fl := out.fl.or x.l.fl }
/-- The output tensor. -/
def outOpnd (d : Attn) (rows : Nat) : Opnd :=
  ⟨(addrWord d.o).1, (addrWord d.o).2, rows * d.hq * (d.dh / 32), if d.oFmt = 3 then 15 else d.oFmt⟩
/-- Bytes of a buffer from `a` on. -/
def putRange (a : Nat) (bs : List Byte) (m : SMap Byte) : SMap Byte :=
  m.filter (fun x => decide (x.1 < a)) ++ (enum bs a).filter (fun x => x.2 != 0) ++ m.filter (fun x => decide (a + bs.length ≤ x.1))
/-- One head's output passes through the output buffer, where two rows lie in turn (log entry 61), and is written in O_FMT. -/
def putHead (k : Nat) (d : Attn) (rows r h : Nat) (vs : Frs) (s : Dev) : Dev :=
  let o := outOpnd d rows
  let n := d.dh / 32
  s |> modCore k (fun c => { c with outBuf := putRange (r % 2 * 2 ^ 16 + h * d.dh * 4) (vs.vs.flatMap (leBytes 4)) c.outBuf }) |> addFlags k vs.fl
    |> forS (List.range n) (fun p s =>
      let x := packValues o.fmt (slice32 vs.vs p)
      s |> putGroup k o ((r * d.hq + h) * n + p) x.1 |> addFlags k x.2)
/-- The rows of a length table with their row index. -/
def tableRows (es : List LenEnt) : List (LenEnt × Nat × Nat) :=
  (es.foldl (fun (a : List (LenEnt × Nat × Nat) × Nat) e => (a.1 ++ (List.range e.rows).map fun i => (e, i, a.2 + i), a.2 + e.rows)) ([], 0)).1
/-- A page comes through KV staging: 16 frames of at most 64 KiB, in the order of the page list (log entry 61). -/
def stagePage (k f p : Nat) (s : Dev) : Dev :=
  modCore k (fun c => { c with stage := putRange (p % 16 * 2 ^ 16) (rdBytes .dram s (frAddr s f) (kvFrameBytes s)) c.stage }) s
/-- What the walk of a row at `pos` leaves in KV staging and in the bias buffer: the pages of its last two blocks with a visible key, and
the tables of its last 16 heads. -/
def stageRow (k : Nat) (d : Attn) (e : LenEnt) (pos : Nat) (s : Dev) : Dev :=
  let n := if d.causal then min e.kvLen (pos + 1) else e.kvLen
  let from_ := (ceilDiv n 128 - 2) * 8
  forS ((List.range (pagesFor n)).filter fun p => decide (from_ ≤ p)) (fun p s => match pageFrame s d e p with
      | some f => stagePage k f p s
      | none => s) s
    |> whenS d.biasEn (forS ((List.range d.hq).filter fun h => decide (d.hq ≤ h + 16)) (fun h s =>
      modCore k (fun c => { c with biasBuf := putRange (h % 16 * 4096) (rdBytes .dram s (d.bias + 4096 * h) 4096) c.biasBuf }) s))
/-- ATTEND over every row and head (R164). -/
def attendAll (k : Nat) (d : Attn) (es : List LenEnt) (s : Dev) : Dev :=
  let rows := (tableRows es).length
  let s := forS (tableRows es) (fun x t => forS (List.range d.hq) (fun h t =>
    putHead k d rows x.2.2 h (attendHead s k d rows x.2.2 x.1 (x.1.qpos + x.2.1) h) t) t) s
  match (tableRows es).getLast? with
  | some x => stageRow k d x.1 (x.1.qpos + x.2.1) s
  | none => s

/-! ## Appending (R166 to R168) -/

/-- An FP32 value of NEWKV: token row, K or V, head, element. -/
def newVal (s : Dev) (k : Nat) (d : Attn) (tok v h e : Nat) : Nat :=
  rdLE (spaceOf k (addrWord d.newkv).1) s ((addrWord d.newkv).2 + 4 * (((tok * 2 + v) * d.hkv + h) * d.dh + e)) 4
/-- The exponent of a page's first append (R167). -/
def firstExp (n headroom : Nat) (xs : List Nat) : Nat :=
  match pipTop xs with
  | none => 0
  | some t => (clampI (t - ((n : Int) - 2) + 127 + headroom) 0 254).toNat
/-- An element under a fixed exponent: its code, and whether rounding left the element range (R167). -/
def quant (n e x : Nat) : Int × Bool :=
  let lo : Int := -(2 ^ (n - 1))
  let hi : Int := 2 ^ (n - 1) - 1
  match dec32 x with
  | .nan => (0, false)
  | .inf neg => (if neg then lo else hi, false)
  | .fin neg m ex =>
    let sh : Int := ex + 127 - e
    let q : Nat := if 0 ≤ sh then m * 2 ^ sh.toNat else rneShift m (-sh).toNat
    let i : Int := if neg then -(q : Int) else q
    (clampI i lo hi, decide (i < lo) || decide (hi < i))
/-- Append the tokens `j0 .. j0 + n − 1` of one page for one head and plane (`v` 0 for K, 1 for V); `tok` is the row of the
first in NEWKV. The first append of a page fixes the exponent; a later one clamps, sets NUM_SAT and counts (R167). -/
def appendPlane (k : Nat) (d : Attn) (f h v j0 n tok : Nat) (s : Dev) : Dev :=
  let k4 := frK4 s f
  let b4 := if v = 0 then k4 else frV4 s f
  let w := w48 b4
  let a := frAddr s f
  let ea := a + eOfs d k4 (frV4 s f) + v * d.hkv + h
  let xs := (List.range n).flatMap fun i => (List.range d.dh).map fun e => newVal s k d (tok + i) v h e
  let e := if j0 = 0 then firstExp w d.headroom xs else (mrd .dram s ea).toNat
  let ovr := (xs.filter fun x => (quant w e x).2).length
  let sat := if j0 = 0 then e == 254 && ovr != 0 else ovr != 0
  let s := forS (enum xs 0) (fun p s =>
    let j := j0 + p.1 / d.dh
    putElem a w (if v = 0 then kBit d w h j (p.1 % d.dh) else vBit d k4 w h j (p.1 % d.dh)) (quant w e p.2).1 s) s
  s |> mwr .dram ea (BitVec.ofNat 8 e) |> addFlags k { sat, nonfin := xs.any fun x => bits x 23 8 == 255 }
    |> whenS (j0 != 0) (bump Reg.KVF_CLAMP_CNT ovr)
/-- Append an entry's tokens page by page, through KV staging (R168). -/
def appendEntry (k : Nat) (d : Attn) (e : LenEnt) (tok : Nat) (s : Dev) : Dev :=
  forS (List.range (ceilDiv (e.qpos + e.qcnt) 16 - e.qpos / 16)) (fun i s =>
    let pg := e.qpos / 16 + i
    let t0 := max e.qpos (16 * pg)
    let t1 := min (e.qpos + e.qcnt) (16 * pg + 16)
    let f := (pageFrame s d e pg).getD 0
    s |> forS (List.range d.hkv) (fun h s =>
      s |> appendPlane k d f h 0 (t0 % 16) (t1 - t0) (tok + (t0 - e.qpos)) |> appendPlane k d f h 1 (t0 % 16) (t1 - t0) (tok + (t0 - e.qpos))) |> stagePage k f pg) s
/-- APPEND over the entries with APPEND = 1, in order; the rows of NEWKV follow the entries. -/
def appendAll (k : Nat) (d : Attn) (es : List LenEnt) (s : Dev) : Dev :=
  (es.foldl (fun (x : Dev × Nat) e => (if e.append && decide (0 < e.rows) then appendEntry k d e x.2 x.1 else x.1, x.2 + e.rows)) (s, 0)).1

/-! ## Checks and the commands -/

/-- A contained event of an attention unit with SEQ_AU_FAULT. -/
def auFault (k bit ev seq : Nat) (s : Dev) : Dev :=
  let info := k + seq % 1024 * 2 ^ 6 + ev * 2 ^ 16
  s |> wrN Reg.SEQ_AU_FAULT info |> faultCore k (0x0600 + bit) info
/-- Whether the buffer of an operand of an attention command is ill placed: a reserved space, an ADDR that is no multiple of 256, or an end
beyond its space. -/
def placeBad (o : Opnd) : Bool := !(bufferOk o)
/-- The buffer of NEWKV: `rows` tokens of K and V values. -/
def newOpnd (d : Attn) (rows : Nat) : Opnd := ⟨(addrWord d.newkv).1, (addrWord d.newkv).2, rows * d.hkv * (d.dh / 32) * 2, 0⟩
/-- Rows of a length table. -/
def rowsOf (es : List LenEnt) : Nat := sumN (es.map (·.rows))
/-- AU_CFG_INVALID (R158): page sizes are those of the frames that the working entries name. A LAYER at or above a working entry's LAYERS and
an ill-placed buffer are taken for the same event (log entry 61). -/
def attnBad (s : Dev) (d : Attn) (es : List LenEnt) : Bool :=
  d.resv || (decide (8 ≤ d.aw) && decide (d.aw ≤ 14)) || d.hq == 0 || decide (64 < d.hq) || d.hkv == 0 || decide (64 < d.hkv) ||
  d.hq % d.hkv != 0 || decide (16 < d.hq / d.hkv) || decide (256 < d.len) || d.lenBase % 16 != 0 || decide (scrBytes < d.lenBase + 16 * d.len) ||
  d.bias % 4096 != 0 || (if d.append then placeBad (newOpnd d (rowsOf es)) else placeBad (queryOpnd d (rowsOf es)) || placeBad (outOpnd d (rowsOf es))) ||
  es.any fun e => e.rows != 0 && (decide (sqLayers s e.seq ≤ d.layer) ||
    (entryFrames s d e).any fun f => decide (kvFrameBytes s < pageBytes d (frK4 s f) (frV4 s f)))
/-- Valid pages of an entry's page list on the command's layer, from page 0 on. -/
def validPages (s : Dev) (d : Attn) (e : LenEnt) : Nat := ((List.range 2048).takeWhile fun p => (pageFrame s d e p).isSome).length
/-- SEQ_LEN_INVALID (R159, R166). -/
def lenBad (s : Dev) (d : Attn) (e : LenEnt) : Bool :=
  decide (0 < e.rows) && (decide (32768 < e.kvLen) || decide (16 * validPages s d e < e.kvLen) || (e.append && e.qpos + e.qcnt != e.kvLen))
/-- Whether an entry names a withheld frame (R185). -/
def namesWithheld (s : Dev) (d : Attn) (e : LenEnt) : Bool := (entryFrames s d e).any fun f => frState s f == 3
/-- The first access of the command that does not reach the DRAM (R325, R335, R345): its buffers, the bias tables, the pages. -/
def attnReach (s : Dev) (k : Nat) (d : Attn) (es : List LenEnt) : Option NoReach :=
  let src := if d.append then newOpnd d (rowsOf es) else queryOpnd d (rowsOf es)
  let out := outOpnd d (rowsOf es)
  (if crossesDown s (k / 32) 0 31 then some ⟨0, .down⟩ else none)
    |>.or (if src.limit = 0 then none else spaceRead s k src.sp src.addr (bufferEnd src - src.addr))
    |>.or (if d.append || out.limit == 0 then none else spaceReach s k out.sp out.addr (bufferEnd out - out.addr))
    |>.or (if !d.append && d.biasEn && rowsOf es != 0 then dramRead s (k / 32) d.bias (4096 * d.hq) else none)
    |>.or ((es.flatMap (entryFrames s d)).findSome? fun f => dramRead s (k / 32) (frAddr s f) (pageBytes d (frK4 s f) (frV4 s f)))
/-- Whether a query pip has the reserved exponent (R65). -/
def queryBad (s : Dev) (k : Nat) (d : Attn) (rows : Nat) : Bool :=
  !d.append && (List.range (rows * d.hq)).any fun i => (queryPips s k d rows (i / d.hq) (i % d.hq)).any fun p => p.e == 255
/-- Run an attention command after its checks. -/
def attnRun (k : Nat) (t : Task) (d : Attn) (s : Dev) : Dev :=
  let s := placeTable k t.cove d s
  let es := lenTable s k t.cove d
  if attnBad s d es then auFault k 0 1 0 s
  else if d.len = 0 then finishCmd k 1 s
  else match es.find? (lenBad s d) with
    | some e => auFault k 1 2 e.seq s
    | none =>
      if es.any (namesWithheld s d) then containCore k s
      else match attnReach s k d es with
        | some x => s |> reportReach x |> containCore k
        | none =>
          if queryBad s k d (rowsOf es) then faultCore k 0x1100 0 s
          else finishCmd k 0 (if d.append then appendAll k d es s else attendAll k d es s)
/-- The errors of KV staging and the buffers (R155, Table 7-14). True when the command goes on. -/
def auEcc (k : Nat) (e : Fin 4) (s : Dev) : Dev × Bool :=
  match e with
  | 0 => (s, true)
  | 1 => (raise 0x0602 k k s, true)
  | 2 => (auFault k 3 3 0 s, false)
  | 3 => (auFault k 3 4 0 s, false)
/-- Run the attention command that core `k`'s task is at when its OP is `append`. -/
def attnCmd (k : Nat) (append : Bool) (ecc : Fin 4) (fe : FrameEcc) (s : Dev) : Dev :=
  runCmd k (fun _ c => isSCore k && c.type == 2 && (attnAt s k c.arg).append == append) (fun t c s =>
    let x := auEcc k ecc (frameEcc fe s)
    if x.2 then attnRun k t (attnAt x.1 k c.arg) x.1 else x.1) s
/-- ATTEND (R164): the attention command that S-core `k`'s task is at; `ecc` is what the staging and buffer checks find (0
none, 1 corrected, 2 staging uncorrected, 3 buffer uncorrected), `fe` what the frame table's find. -/
def execAttend (k : Fin 64) (ecc : Fin 4) (fe : FrameEcc) (s : State) : Result := onDev (attnCmd k false ecc fe) s
/-- APPEND (R166). -/
def execAppend (k : Fin 64) (ecc : Fin 4) (fe : FrameEcc) (s : State) : Result := onDev (attnCmd k true ecc fe) s

end Sys2Proof.Machine
end

