-- ==== Sys2Proof/Machine/Dram.lean ====
section
/-! DEFINITION. The DRAM controllers: address maps, command scheduling, refresh, ECC, replay, training (chapter 13), and what the
fabric does to their requests (R341 to R353). -/
set_option autoImplicit false
namespace Sys2Proof.Machine
open Sys2Proof

/-! ## Address maps (R321, R323, R324) -/

/-- Whether a rank of a die holds a valid REGION entry. -/
def rankIsRegion (s : Dev) (d rank : Nat) : Bool :=
  (List.range 16).any fun r => tst s (Reg.DMC_RGN_CFG d r) 16 && rf s (Reg.DMC_RGN_CFG d r) 14 2 == 2 &&
    rf s (Reg.DMC_RGN_BASE d r) 0 13 / 2048 == rank
/-- The device address of burst `i` of a channel in address order (R332): 2^19 bursts in each rank. -/
def burstAddr (s : Dev) (d ch i : Nat) : Nat :=
  let rank := i / 2 ^ 19
  let k := i % 2 ^ 19
  d * 2 ^ 34 + rank * 2 ^ 32 + if rankIsRegion s d rank then ch / 4 * 2 ^ 29 + k * 2 ^ 10 + ch % 4 * 2 ^ 8 else k * 2 ^ 13 + ch * 2 ^ 8

/-- LOCK's checks of the valid entries (R324). -/
def regionsOk (s : Dev) (d : Nat) : Bool :=
  let ok (r : Nat) : Bool := tst s (Reg.DMC_RGN_CFG d r) 16
  let base (r : Nat) : Nat := rf s (Reg.DMC_RGN_BASE d r) 0 13
  let size (r : Nat) : Nat := rf s (Reg.DMC_RGN_CFG d r) 0 14
  let map (r : Nat) : Nat := rf s (Reg.DMC_RGN_CFG d r) 14 2
  let rs := (List.range 16).filter ok
  rs.all fun r =>
    decide (base r + size r ≤ 8192) && decide (1 ≤ size r) && decide (map r ≤ 2) &&
    (map r != 2 || (base r % 256 == 0 && size r == 256)) &&
    rs.all fun q => q == r || ((decide (base q + size q ≤ base r) || decide (base r + size r ≤ base q)) &&
      ((map q == 2) == (map r == 2) ||
        decide ((base q + size q - 1) / 2048 < base r / 2048) || decide ((base r + size r - 1) / 2048 < base q / 2048)))
/-- LOCK (R324): the checks put the table in force, or leave LOCK at 0 and raise DMC_CFG_INVALID. LOCK stays set until reset. -/
def lockTable (d : Nat) (s : Dev) : Dev :=
  if tst s (Reg.DMC_CTRL d) 0 then s
  else if regionsOk s d then s |> setB (Reg.DMC_CTRL d) 0 true |> setB (Reg.DMC_STATUS d) 4 true
  else raise 0x0E05 d (rdN s (Reg.DMC_FAULT_INFO d)) s
/-- LOCK (R324). -/
def execLock (d : Fin 2) (s : State) : Result := onDev (lockTable d.val) s

/-! ## Channels -/

/-- A channel, by die × 32 + channel. -/
def dchan (s : Dev) (k : Nat) : DChan := mget (fun _ => {}) s.dmc.chans k
/-- Set a channel. -/
def putDchan (k : Nat) (c : DChan) (s : Dev) : Dev :=
  { s with dmc := { s.dmc with chans := mset (fun _ => {}) s.dmc.chans k c } }
/-- Change a channel. -/
def modDchan (k : Nat) (f : DChan → DChan) (s : Dev) : Dev := putDchan k (f (dchan s k)) s
/-- A bank of a channel. -/
def dbank (c : DChan) (b : Nat) : DBank := mget (fun _ => {}) c.banks b
/-- Change a bank of a channel. -/
def modDbank (b : Nat) (f : DBank → DBank) (c : DChan) : DChan := { c with banks := mset (fun _ => {}) c.banks b (f (dbank c b)) }
/-- The channel trains (R335, R336). -/
def chTraining (s : Dev) (k : Nat) : Bool := tst s (chStatus k) 6
/-- The interface cycle of the moment: 1.25 ns each, from the SCLK count (R326; log entry 2). -/
def dramCycle (s : Dev) : Nat := s.time.sclk * 8 / 5
/-- Let device time advance to interface cycle `c`. -/
def waitCycle (c : Nat) (s : Dev) : Dev :=
  let n := ceilDiv (c * 5) 8
  if s.time.sclk < n then
    let inc := (2 ^ 33 * (1000000000 + s.time.f) / 1000000000).toNat
    let whole := (s.time.ns * 2 ^ 32 + s.time.frac + (n - s.time.sclk) * inc) % 2 ^ 96
    { s with time := { s.time with sclk := n, ns := whole / 2 ^ 32, frac := whole % 2 ^ 32 } }
  else s
/-! ## Content -/

/-- Write the bytes that `en` covers of the burst at `a`. -/
def wrBurst (a en : Nat) (data : List Byte) (s : Dev) : Dev :=
  forS (enum data 0) (fun x t => if bitOf en x.1 then mwr .dram (a + x.1) x.2 t else t) s
/-- Whether a write covers an 8-byte word only in part (R322). -/
def partialWord (en : Nat) : Bool := (List.range 32).any fun w => bits en (8 * w) 8 != 0 && bits en (8 * w) 8 != 255
/-- The bursts' answer to the requester; write-backs have none. -/
def answer (r : DReq) (ok : Bool) (data : List Byte) (s : Dev) : Dev := if r.back then s else send (.dram r.id ok data) s

/-! ## Locks (R351, R352) -/

/-- A lock of `n` interface cycles ends: ARB_LOCK_MAX keeps the longest (kind 3, instance 32 × bank + channel). -/
def noteLock (k b n : Nat) (s : Dev) : Dev :=
  let a := Reg.ARB_LOCK_MAX (k / 32)
  let n := if n < 0xFFFF then n else 0xFFFF
  if rf s a 0 16 < n then wrN a (n + (3 + (32 * (b % 32) + k % 32) * 16) * 2 ^ 16) s else s
/-- The bank's lock ends, when request `n` holds it. -/
def unlock (k b n c : Nat) (s : Dev) : Dev :=
  match (dbank (dchan s k) b).lock with
  | some (m, t) => if m = n then s |> modDchan k (modDbank b fun x => { x with lock := none, long := false }) |> noteLock k b (c - t) else s
  | none => s

/-! ## Finality (R333) -/

/-- A command becomes final: a read captures its data; the read of a read-modify-write lets its write go; a write is in the DRAM and
answered, its lock ends. Nothing is left of the run of failed replays. -/
def finalCmd (k : Nat) (m : DCmd) (s : Dev) : Dev :=
  let s := wf (chStatus k) 3 3 0 s
  match m.req with
  | none => s
  | some r =>
    let data := rdBytes .dram s (r.addr / 256 * 256) 256
    match r.wr with
    | none => modDchan k (fun c => { c with fin := c.fin ++ [(r, data)] }) s
    | some (en, bs) =>
      if r.rmw = 2 then modDchan k (fun c => { c with queue := { r with rmw := 3 } :: c.queue }) s
      else s |> wrBurst (r.addr / 256 * 256) en bs |> answer r true [] |> unlock k r.bank r.n m.at_
/-- Every command issued 16 cycles before `c` is final. -/
def finalAll (k c : Nat) (s : Dev) : Dev :=
  let done := (dchan s k).retry.filter fun m => decide (m.at_ + 16 ≤ c)
  if done.isEmpty then s
  else s |> modDchan k (fun x => { x with retry := x.retry.filter fun m => !(decide (m.at_ + 16 ≤ c)) })
    |> forS done fun m t => finalCmd k m t

/-! ## One interface cycle (R326, R327, R330) -/

/-- tRRD and tFAW of a rank. -/
def rankFree (c : DChan) (rank now_ : Nat) : Bool :=
  let l := (c.acts.filter fun a => a.1 == rank).map (·.2)
  l.all (fun t => decide (t + 2 ≤ now_)) && decide ((l.filter fun t => decide (now_ < t + 12)).length < 4)
/-- Activate a row. -/
def activate (b row t : Nat) (lock : Option (Nat × Nat)) (c : DChan) : DChan :=
  { modDbank b (fun x => { x with row := some row, nAct := t + 36, nCol := t + 12, nPre := t + 24, last := t, lock := if lock.isSome then lock else x.lock }) c
    with acts := (c.acts.filter fun a => decide (t < a.2 + 12)) ++ [(b / 32, t)] }
/-- Precharge a bank. -/
def precharge (b t : Nat) (c : DChan) : DChan :=
  modDbank b (fun x => { x with row := none, nAct := if x.nAct < t + 12 then t + 12 else x.nAct, last := t }) c
/-- Issue a refresh (R329). -/
def refreshBank (b t : Nat) (c : DChan) : DChan :=
  { modDbank b (fun x => { x with nAct := t + 72, last := t, late := x.late - 1 }) c with
    first := c.first.erase b, retry := c.retry ++ [⟨none, b, t⟩] }
/-- The lock that a request takes with its first command. -/
def lockFor (r : DReq) (t : Nat) : Option (Nat × Nat) := if r.rmw = 0 then none else some (r.n, t)
/-- Whether the bank's lock keeps a request away. -/
def lockedOut (x : DBank) (r : DReq) : Bool := match x.lock with | some (n, _) => n != r.n | none => false
/-- Issue a request's column command: it enters the retry buffer (R333). -/
def issueColumn (r : DReq) (t : Nat) (c : DChan) : DChan :=
  let write := r.wr.isSome && r.rmw != 1
  let r' := if r.rmw = 1 then { r with rmw := 2 } else r
  let x : DChan := modDbank r.bank (fun x => { x with last := t, lock := (x.lock <|> lockFor r t), nPre := if write then t + 20 else x.nPre }) c
  let y := { x with retry := x.retry ++ [DCmd.mk (some r') r.bank t], queue := x.queue.filter fun q => q.n != r.n }
  { y with nRd := if write then t + 14 else t + 2, nWr := if write then t + 2 else (if x.nWr < t + 6 then t + 6 else x.nWr) }
/-- Whether the timing of the column bus and the bank lets a request's column command go. -/
def columnFits (c : DChan) (r : DReq) (t : Nat) : Bool :=
  let x := dbank c r.bank
  x.row == some r.row && decide (x.nCol ≤ t) && decide ((if r.wr.isSome && r.rmw != 1 then c.nWr else c.nRd) ≤ t) && decide (c.retry.length < 32)
/-- The requests that may be carried out now, best first (R327): the owner of a lock; then the one that has waited 2 µs; else reads before writes,
or writes before reads while they drain, older first. A request waits behind an older one to its burst, and its bank's first refresh. -/
def ordered (c : DChan) (t : Nat) : List DReq :=
  let free := c.queue.filter fun r => !(lockedOut (dbank c r.bank) r) && !(c.first.contains r.bank) &&
    !(c.queue.any fun q => decide (q.n < r.n) && q.addr / 256 == r.addr / 256) &&
    !(c.retry.any fun m => match m.req with | some q => q.rmw == 2 && q.addr / 256 == r.addr / 256 | none => false)
  let byAge := sortBy (fun a b => decide (a.n < b.n)) free
  let owners := byAge.filter fun r => r.rmw == 3
  let rest := byAge.filter fun r => r.rmw != 3
  let old := (sortBy (fun a b => decide (a.n < b.n)) (c.queue.filter fun r => decide (r.at_ + 1600 ≤ t))).head?
  match old with
  | some o => owners ++ rest.filter fun r => r.n == o.n
  | none =>
    let reads := rest.filter fun r => r.wr.isNone
    let writes := rest.filter fun r => r.wr.isSome
    let anyRead := c.queue.any fun r => r.wr.isNone
    owners ++ if c.drain then writes else if anyRead then reads else writes
/-- The row command of a cycle: a refresh that goes first (after its bank's commands are final), else a precharge or an activate for the best
request that needs one, and never a precharge under a younger hit; else a postponed refresh of a bank without work. -/
def rowCommand (t : Nat) (c : DChan) : DChan :=
  let refreshable := c.first.find? fun b =>
    !(c.retry.any fun m => m.bank == b) && (if (dbank c b).row.isSome then decide ((dbank c b).nPre ≤ t) else decide ((dbank c b).nAct ≤ t))
  match refreshable with
  | some b => if (dbank c b).row.isSome then precharge b t c else refreshBank b t c
  | none =>
    let l := ordered c t
    let can (r : DReq) : Bool :=
      let x := dbank c r.bank
      match x.row with
      | none => decide (x.nAct ≤ t) && rankFree c (r.bank / 32) t
      | some row => row != r.row && decide (x.nPre ≤ t) && !(l.any fun q => q.bank == r.bank && some q.row == x.row)
    match l.find? can with
    | some r => if (dbank c r.bank).row.isNone then activate r.bank r.row t (lockFor r t) c else precharge r.bank t c
    | none =>
      match c.banks.find? fun b => decide (0 < b.2.late) && b.2.row.isNone && b.2.lock.isNone && decide (b.2.nAct ≤ t) &&
          !(c.queue.any fun r => r.bank == b.1) with
      | some b => refreshBank b.1 t c
      | none => c
/-- A cycle of normal scheduling. -/
def normalCycle (t : Nat) (c : DChan) : DChan :=
  let writes := (c.queue.filter fun r => r.wr.isSome).length
  let c := { c with drain := if 48 ≤ writes then true else if writes ≤ 16 then false else c.drain }
  let c1 := match (ordered c t).find? fun r => columnFits c r t with
    | some r => issueColumn r t c
    | none => c
  rowCommand t c1
/-- A cycle of a replay (R334): the commands go out again in their original order; the activates that they need are regenerated. -/
def replayCycle (t from_ : Nat) (l : List DCmd) (c : DChan) : DChan :=
  if t < from_ then c
  else
    let fits (m : DCmd) : Bool := match m.req with
      | some r => columnFits c { r with rmw := if r.rmw = 2 then 1 else r.rmw } t
      | none => (dbank c m.bank).row.isNone && decide ((dbank c m.bank).nAct ≤ t)
    let (c, l) := match l with
      | m :: ms => if fits m then
          (match m.req with
            | some r => (issueColumn { r with rmw := if r.rmw = 2 then 1 else r.rmw } t c, ms)
            | none => ({ refreshBank m.bank t c with first := c.first, banks := (refreshBank m.bank t (modDbank m.bank (fun x => { x with late := x.late + 1 }) c)).banks }, ms))
        else (c, m :: ms)
      | [] => (c, [])
    let need (m : DCmd) : Bool := match m.req with
      | some r => (dbank c r.bank).row != some r.row && !(l.any fun q => q.bank == m.bank && decide (q.at_ < m.at_) && q != m)
      | none => (dbank c m.bank).row.isSome && !(l.any fun q => q.bank == m.bank && decide (q.at_ < m.at_))
    let c := match l.find? fun m => need m && (if (dbank c m.bank).row.isNone then decide ((dbank c m.bank).nAct ≤ t) && rankFree c (m.bank / 32) t
        else decide ((dbank c m.bank).nPre ≤ t)) with
      | some m => (match m.req, (dbank c m.bank).row with
          | some r, none => activate m.bank r.row t none c
          | _, _ => precharge m.bank t c)
      | none => c
    { c with replay := if l.isEmpty then none else some (from_, l) }
/-- The replay has ended: the refreshes postponed meanwhile go first (R330). -/
def endReplay (k : Nat) (s : Dev) : Dev :=
  s |> setB (chStatus k) 2 false
    |> modDchan k fun c => { c with first := c.first ++ c.banks.flatMap fun b => List.replicate (b.2.late - c.first.count b.1) b.1 }
/-- Whether the channel has nothing to do. -/
def chIdle (c : DChan) : Bool := c.queue.isEmpty && c.retry.isEmpty && c.replay.isNone && c.first.isEmpty && c.banks.all fun b => b.2.late == 0
/-- One interface cycle of channel `k`. -/
def chanCycle (k : Nat) (s : Dev) : Dev :=
  let c := dchan s k
  let t := c.cyc
  let s := finalAll k t s
  let c := dchan s k
  match c.replay with
  | some (from_, l) =>
    let c' := replayCycle t from_ l c
    let issued := c'.retry.length - c.retry.length
    let s := s |> putDchan k { c' with cyc := t + 1 } |> bump (Reg.DMC_REPLAY_CMD_CNT (k / 32)) issued
    if c'.replay.isNone then endReplay k s else s
  | none => putDchan k { (if t < c.pauseEnd || chTraining s k || !(chUp s k) then c else normalCycle t c) with cyc := t + 1 } s
/-- Run a channel, cycle by cycle, until `stop` or its clock reaches `lim`; with nothing to do it jumps there. -/
def runChan (k lim : Nat) (stop : Dev → Bool) : Nat → Dev → Dev
  | 0, s => s
  | n + 1, s =>
    let c := dchan s k
    if stop s || decide (lim ≤ c.cyc) then s
    else if chIdle c || (chTraining s k && c.retry.isEmpty) then putDchan k { c with cyc := lim } s
    else runChan k lim stop n (chanCycle k s)
/-- Bring a channel to the moment. -/
def catchUp (k : Nat) (s : Dev) : Dev := runChan k (dramCycle s) (fun _ => false) (dramCycle s - (dchan s k).cyc) s
/-- Run a channel until `stop`, at most `n` cycles ahead, and let device time follow. -/
def runUntil (k n : Nat) (stop : Dev → Bool) (s : Dev) : Dev :=
  let s := catchUp k s
  let s := runChan k ((dchan s k).cyc + n) stop n s
  waitCycle (dchan s k).cyc s

/-! ## Requests (R322, R325, R327, R342 to R345, R348 to R350) -/

/-- ARB_FAULT_INFO for an uncorrected flit at a router (Table 14-9): event 1, the plane. -/
def flitFault (f : LinkFlt) (plane : Nat) (s : Dev) : Dev :=
  let a := Reg.ARB_LINK_ECC_CNT f.die
  if f.bad then
    s |> bump16 a 16 1 |> wrN (Reg.ARB_FAULT_INFO f.die) (f.router * 16 + 2 ^ 16 + plane * 2 ^ 19)
      |> fun t => raise 0x0F01 f.die (rdN t (Reg.ARB_FAULT_INFO f.die)) t
  else s |> bump16 a 0 1 |> raise 0x0F00 f.die 0
/-- An error response. -/
def refuseReq (q : DramReq) (s : Dev) : Dev := send (.dram q.id false []) s
/-- A request reaches its controller: unmapped (R325), or answered at a DOWN channel or port (R335, R345), or queued. Until LOCK only the boot
controller and Ziltur reach the DRAM (R324). -/
def takeReq (q : DramReq) (s : Dev) : Dev :=
  let d := q.addr / 2 ^ 34 % 2
  let l := q.addr % 2 ^ 34
  let locked := tst s (Reg.DMC_CTRL d) 0
  let map := if locked then regionMap s d l else if q.early then some 0 else none
  let bad := match q.flt with | some f => f.bad | none => false
  let s := match q.flt with | some f => flitFault f (bits q.addr 13 2) s | none => s
  if bad then refuseReq q s
  else
    match (if q.addr < dramBytes then map else none) with
    | none =>
      if locked then s |> dmcFault d 3 0 0 |> dmcAddr d q.addr |> dmcRaise 0x0E03 (32 * d) |> refuseReq q else refuseReq q s
    | some m =>
      let (ch, bank, row) := dramPlace m l
      let k := 32 * d + ch
      if !(chUp s k) || crossesDown s q.die d ch then refuseReq q s
      else
        let s := catchUp k s
        let rmw := match q.wr with | some (en, _) => b2n (partialWord en) | none => 0
        modDchan k (fun c => { c with nReq := c.nReq + 1, queue := c.queue ++ [{ n := c.nReq, id := q.id, addr := q.addr, bank, row, wr := q.wr, at_ := c.cyc, rmw := rmw }] }) s
/-- The requests that meet at a router port are granted one each FCLK cycle by the rotation rule (R350). -/
def grantAll (t : Nat) : Nat → List (Nat × DramReq) → Dev → Dev
  | 0, _, s => s
  | n + 1, l, s =>
    match rotate t 8 (l.map fun q => (q.1 % 8, q.2.cls)) with
    | none => s
    | some p =>
      match l.find? fun q => q.1 % 8 == p && l.all fun o => o.1 % 8 != p || decide (o.2.cls ≤ q.2.cls) with
      | none => s
      | some q => grantAll (t + 1) n (l.erase q) (takeReq q.2 s)
/-- DRAM_REQUEST (R327, R350). -/
def execDramRequest (rs : List (Nat × DramReq)) (s : State) : Result := onDev (fun t => grantAll (fclk t) rs.length rs t) s

/-! ## Reads and ECC (R331, R333) -/

/-- A corrected word is written back by a locked read-modify-write, unless a write to its burst is queued (R331). -/
def writeBack (k : Nat) (r : DReq) (s : Dev) : Dev :=
  modDchan k (fun c =>
    if c.queue.any fun q => q.wr.isSome && q.addr / 256 == r.addr / 256 then c
    else { c with nReq := c.nReq + 1, queue := c.queue ++ [{ n := c.nReq, id := r.id, addr := r.addr, bank := r.bank, row := r.row, wr := some (0, []), at_ := c.cyc, rmw := 1, back := true }] }) s
/-- A word of the burst at `a` is found with an uncorrectable error; it is left as it is, and fails every read until it is written. -/
def noteBad (a w : Nat) (s : Dev) : Dev :=
  let x := a / 256 * 256 + 8 * w
  { s with dmc := { s.dmc with bad := (s.dmc.bad.filter fun y => y.1 != x) ++ [(x, rdBytes .dram s x 8)] } }
/-- DRAM_READ_FINAL (R333): the channel runs until a read is final; its data goes out once, corrected, or with an error response. `ecc` is what its
check finds, 2 an uncorrectable error in word `w` of the burst. -/
def readFinal (k ecc w : Nat) (flt : Option LinkFlt) (s : Dev) : Dev :=
  let s := runUntil k 20000 (fun t => !(dchan t k).fin.isEmpty) s
  match (dchan s k).fin with
  | [] => s
  | (r, data) :: rest =>
    let s := modDchan k (fun c => { c with fin := rest }) s
    let bad := match flt with | some f => f.bad | none => false
    let s := match flt with | some f => flitFault f (bits r.addr 13 2) s | none => s
    if ecc = 2 || burstBad s r.addr then
      s |> whenS (ecc == 2) (noteBad r.addr w) |> eccUncorr k (r.addr / 256 * 256) |> answer r false []
    else
      let s := if ecc = 1 then s |> dmcEcc k 0 |> dmcRaise 0x0E00 k |> writeBack k r else s
      if bad then answer r false [] s else answer r true data s
/-- DRAM_READ_FINAL (R333). -/
def execDramReadFinal (d : Fin 2) (ch : Fin 32) (ecc : Fin 3) (w : Fin 32) (flt : Option LinkFlt) (s : State) : Result :=
  onDev (readFinal (32 * d.val + ch.val) ecc.val w.val flt) s

/-! ## Alerts (R334, R335) -/

/-- The channel goes DOWN: every pending request is answered with an error, locks end. Whether a plain write that was not final is in the
DRAM is open (log entry 3). -/
def goDown (k : Nat) (s : Dev) : Dev :=
  let c := dchan s k
  let cmds := c.retry ++ (match c.replay with | some (_, l) => l | none => [])
  let s := forS cmds (fun m t => match m.req with
    | some r => (match r.wr with
        | some (en, bs) => if r.rmw = 0 && Config.freeNat t.fresh % 2 == 1 then freshS (wrBurst (r.addr / 256 * 256) en bs t) else freshS t
        | none => t)
    | none => t) s
  let s := forS ((cmds.filterMap fun m => m.req) ++ c.queue) (fun r t => answer r false [] t) s
  let s := forS c.banks (fun b t => match b.2.lock with | some l => noteLock k b.1 (c.cyc - l.2) t | none => t) s
  s |> modDchan k (fun c => { c with queue := [], retry := [], replay := none, first := [], banks := c.banks.map fun b => (b.1, { b.2 with row := none, lock := none, long := false }) })
    |> setB (chStatus k) 0 false |> setB (chStatus k) 2 false |> setB (Reg.DMC_CH_DOWN (k / 32)) (k % 32) true
    |> dmcFault (k / 32) 4 (k % 32) 0 |> dmcRaise 0x0E04 k
/-- DRAM_ALERT (R334): a replay of every command that is not final, after the alert is cleared and all banks are precharged; the alert that ends
the fourth replay in a row takes the channel down (R335). -/
def dramAlert (k : Nat) (s : Dev) : Dev :=
  let s := catchUp k s
  let s := finalAll k (dchan s k).cyc s
  if !(chUp s k) then s
  else if rf s (chStatus k) 3 3 = 4 then goDown k s
  else
    let c := dchan s k
    let t := c.cyc
    let l := c.retry ++ (match c.replay with | some (_, l) => l | none => [])
    let banks := c.banks.map fun b => (b.1, { b.2 with row := none, nAct := t + 52 })
    let s := s |> putDchan k { c with retry := [], replay := some (t + 40, l), banks := banks, nRd := t + 40, nWr := t + 40 }
      |> bump (Reg.DMC_REPLAY_CNT (k / 32)) 1 |> bump (Reg.DMC_CH_REPLAY_CNT (k / 32) (k % 32)) 1
      |> setB (chStatus k) 2 true |> wf (chStatus k) 3 3 (rf s (chStatus k) 3 3 + 1)
    dmcRaise 0x0E09 k s
/-- DRAM_ALERT (R334). -/
def execDramAlert (d : Fin 2) (ch : Fin 32) (s : State) : Result := onDev (dramAlert (32 * d.val + ch.val)) s
/-- REPLAY_DONE (R334): the channel runs until the replay has reissued its last command. -/
def replayDone (k : Nat) (s : Dev) : Dev := runUntil k 100000 (fun t => (dchan t k).replay.isNone) s
/-- REPLAY_DONE (R334). -/
def execReplayDone (d : Fin 2) (ch : Fin 32) (s : State) : Result := onDev (replayDone (32 * d.val + ch.val)) s

/-! ## Refresh (R329, R330) -/

/-- The refresh interval of a bank in ns: 62.5 µs, or half of it when HOT. -/
def refreshNs (s : Dev) (d : Nat) : Nat := if tst s (Reg.DMC_STATUS d) 3 then 31250 else 62500
/-- When bank `b`'s next refresh falls due; the banks of a channel are spread evenly over an interval. -/
def refreshDue (s : Dev) (k b : Nat) : Nat :=
  let c := dchan s k
  let x := dbank c b
  if x.refs = 0 then c.base + refreshNs s (k / 32) * (b + 1) / 128 else x.refs + refreshNs s (k / 32)
/-- DRAM_REFRESH (R329): an idle bank is refreshed at once; a bank with work, or in a replay or a pause, postpones it. A refresh is never
skipped: the ninth that falls due joins the emergency request. -/
def dramRefresh (k b : Nat) (s : Dev) : Dev :=
  if tst s (Reg.DMC_STATUS (k / 32)) 2 then s
  else
    let due := refreshDue s k b
    let s := catchUp k (waitUntil due s)
    let c := dchan s k
    let busy := (c.queue.any fun r => r.bank == b) || (dbank c b).lock.isSome || c.replay.isSome || decide (c.cyc < c.pauseEnd) || chTraining s k || !(chUp s k)
    putDchan k { modDbank b (fun x => { x with refs := due, late := x.late + 1 }) c with first := if busy then c.first else c.first ++ [b] } s
/-- DRAM_REFRESH (R329). -/
def execDramRefresh (d : Fin 2) (ch : Fin 32) (b : Fin 128) (s : State) : Result := onDev (dramRefresh (32 * d.val + ch.val) b.val) s
/-- EMERGENCY_REFRESH (R330, R353): a bank with 8 postponed refreshes is taken from its owner at the next burst boundary, locked or not; the lock
holds on. -/
def emergencyRefresh (k b : Nat) (s : Dev) : Dev :=
  let s := catchUp k s
  let c := dchan s k
  if (dbank c b).late < 8 || c.replay.isSome || c.first.contains b then s
  else
    let owned := (dbank c b).row.isSome || (dbank c b).lock.isSome
    s |> whenS owned (bump (Reg.ARB_PREEMPT_CNT (k / 32)) 1) |> putDchan k { c with first := b :: c.first }
      |> runUntil k 1000 (fun t => !((dchan t k).first.contains b))
/-- EMERGENCY_REFRESH (R330). -/
def execEmergencyRefresh (d : Fin 2) (ch : Fin 32) (b : Fin 128) (s : State) : Result := onDev (emergencyRefresh (32 * d.val + ch.val) b.val) s
/-- ROW_IDLE_PRECHARGE (R327): a row that sees no command for 64 cycles is precharged. -/
def rowIdle (k b : Nat) (s : Dev) : Dev :=
  let s := catchUp k s
  let x := dbank (dchan s k) b
  let s := runUntil k (x.last + 64 - (dchan s k).cyc) (fun _ => false) s
  let y := dbank (dchan s k) b
  if y.row.isSome && y.last == x.last then modDchan k (fun c => precharge b c.cyc c) s else s
/-- ROW_IDLE_PRECHARGE (R327). -/
def execRowIdlePrecharge (d : Fin 2) (ch : Fin 32) (b : Fin 128) (s : State) : Result := onDev (rowIdle (32 * d.val + ch.val) b.val) s
/-- LOCK_LONG (R352): a lock that lasts beyond 256 cycles is reported once and not broken. -/
def lockLong (k b : Nat) (s : Dev) : Dev :=
  let s := catchUp k s
  match (dbank (dchan s k) b).lock with
  | none => s
  | some (n, t0) =>
    let s := runUntil k (t0 + 257 - (dchan s k).cyc) (fun t => (dbank (dchan t k) b).lock != some (n, t0)) s
    let x := dbank (dchan s k) b
    if x.lock != some (n, t0) || x.long then s
    else
      let inst := 32 * (b % 32) + k % 32
      s |> modDchan k (modDbank b fun y => { y with long := true }) |> bump (Reg.ARB_LOCK_LONG_CNT (k / 32)) 1
        |> noteLock k b ((dchan s k).cyc - t0) |> wrN (Reg.ARB_FAULT_INFO (k / 32)) (3 + inst * 16 + 3 * 2 ^ 16)
        |> fun t => raise 0x0F04 (k / 32) (rdN t (Reg.ARB_FAULT_INFO (k / 32))) t
/-- LOCK_LONG (R352). -/
def execLockLong (d : Fin 2) (ch : Fin 32) (b : Fin 128) (s : State) : Result := onDev (lockLong (32 * d.val + ch.val) b.val) s

/-! ## Patrol scrub (R332) -/

/-- PATROL_SCRUB_READ (R332): every SCRUB_INTERVAL µs the channel reads its next burst in address order; a corrected word is written back, an
uncorrected one, in word `w`, is reported and left as it is. No scrub takes place in self-refresh, or on a channel that is DOWN. -/
def patrolScrub (k ecc w : Nat) (s : Dev) : Dev :=
  let d := k / 32
  let c := dchan s k
  let iv := clampN (rf s (Reg.DMC_CTRL d) 8 8) 1 255 * 1000
  if !(tst s (Reg.DMC_CTRL d) 1) || tst s (Reg.DMC_STATUS d) 2 || !(tst s (Reg.DMC_CTRL d) 0) || !(chUp s k) then s
  else
    let s := catchUp k (waitUntil (c.scrubAt + iv) s)
    let a := burstAddr s d (k % 32) c.scrub
    let pos := (c.scrub + 1) % 2 ^ 21
    let s := modDchan k (fun c => { c with scrub := pos, scrubAt := now s }) s
    let s := whenS (k % 32 == 0) (wrN (Reg.DMC_SCRUB_POS d) pos) s
    let place := dramPlace ((regionMap s d (a % 2 ^ 34)).getD 0) (a % 2 ^ 34)
    if ecc = 1 then s |> dmcEcc k 0 |> dmcRaise 0x0E00 k |> writeBack k { n := 0, id := 0, addr := a, bank := place.2.1, row := place.2.2, wr := none, at_ := 0 }
    else if ecc = 2 || burstBad s a then s |> whenS (ecc == 2) (noteBad a w) |> dmcEcc k 16 |> dmcFault d 2 (k % 32) 0 |> dmcAddr d a |> dmcRaise 0x0E02 k
    else s
/-- PATROL_SCRUB_READ (R332). -/
def execPatrolScrubRead (d : Fin 2) (ch : Fin 32) (ecc : Fin 3) (w : Fin 32) (s : State) : Result := onDev (patrolScrub (32 * d.val + ch.val) ecc.val w.val) s

/-! ## Pauses and training (R335 to R338) -/

/-- Precharge every bank of a channel once its commands are final. -/
def quiesce (k : Nat) (s : Dev) : Dev :=
  let s := runUntil k 200 (fun t => (dchan t k).retry.isEmpty && (dchan t k).first.isEmpty) s
  modDchan k (fun c => { c with banks := c.banks.map fun b => (b.1, { b.2 with row := none, nAct := if b.2.nAct < c.cyc + 12 then c.cyc + 12 else b.2.nAct }) }) s
/-- The pause itself at moment `t`: 400 ns without commands; the smallest margin is kept, and one below the threshold is reported. -/
def pauseChan (k t margin lane : Nat) (s : Dev) : Dev :=
  let d := k / 32
  let s := quiesce k s
  let s := modDchan k (fun c => { c with pauseEnd := c.cyc + 320, paused := t, late := false }) s
  let s := wrN (Reg.DMC_CH_RETRAIN d (k % 32)) (margin % 256 * 2 ^ 16) s
  if margin % 256 < rf s (Reg.DMC_MARGIN_THR d) 0 8 then s |> dmcFault d 6 (k % 32) (lane % 576) |> dmcRaise 0x0E08 k else s
/-- DRAM_RETRAIN_PAUSE (R337, R338): in the open window a channel of its half pauses in slot `j`; one that replays or is DOWN skips it. -/
def retrainPause (k margin lane : Nat) (s : Dev) : Dev :=
  let ch := k % 32
  match s.tide.win with
  | none => s
  | some w =>
    let odd := s.tide.winCnt % 2 == 0
    let t := w + 500 * (ch % 8)
    if (decide (16 ≤ ch)) != odd || (dchan s k).slot == some w || tst s (Reg.DMC_STATUS (k / 32)) 2 then s
    else
      let s := modDchan k (fun c => { c with slot := some w }) (catchUp k (waitUntil t s))
      if tst s (chStatus k) 2 || !(chUp s k) then bump (Reg.DMC_RETRAIN_SKIP_CNT (k / 32)) 1 s else pauseChan k t margin lane s
/-- DRAM_RETRAIN_PAUSE (R337). -/
def execDramRetrainPause (d : Fin 2) (ch : Fin 32) (margin lane : Nat) (s : State) : Result := onDev (retrainPause (32 * d.val + ch.val) margin lane) s
/-- RETRAIN_LATE (R338): more than 100 ms since the last pause, reported once until the next. -/
def retrainLate (k : Nat) (s : Dev) : Dev :=
  if (dchan s k).late || tst s (Reg.DMC_STATUS (k / 32)) 2 then s
  else s |> waitUntil ((dchan s k).paused + 100000001) |> modDchan k (fun c => { c with late := true }) |> dmcRaise 0x0E07 k
/-- RETRAIN_LATE (R338). -/
def execRetrainLate (d : Fin 2) (ch : Fin 32) (s : State) : Result := onDev (retrainLate (32 * d.val + ch.val)) s
/-- The channel of a RETRAIN in progress on die `d`. -/
def training (s : Dev) (d : Nat) : Option Nat := mget (fun _ => none) s.dmc.train d
/-- Set it. -/
def putTraining (d : Nat) (v : Option Nat) (s : Dev) : Dev := { s with dmc := { s.dmc with train := mset (fun _ => none) s.dmc.train d v } }
/-- DMC_CMD RETRAIN (R335): the full training of a channel; busy while one runs on the die or boot training is not over. Whether it was
accepted. -/
def retrainCmd (d ch : Nat) (s : Dev) : Bool × Dev :=
  if (training s d).isSome || tst s (Reg.DMC_STATUS d) 1 then (false, wrN (Reg.DMC_CMD_RESULT d) 2 s)
  else
    let k := 32 * d + ch
    let s := catchUp k s
    let s := if chUp s k then quiesce k s else s
    (true, s |> putTraining d (some ch) |> setB (chStatus k) 6 true)
/-- RETRAIN (R335). -/
def execRetrain (d : Fin 2) (ch : Fin 32) (s : State) : Result := onDev (fun t => (retrainCmd d.val ch.val t).2) s
/-- RETRAIN_DONE (R335): the channel is UP, or DOWN. -/
def retrainEnd (d : Nat) (pass : Bool) (s : Dev) : Dev :=
  match training s d with
  | none => s
  | some ch =>
    let k := 32 * d + ch
    let s := s |> catchUp k |> putTraining d none |> setB (chStatus k) 6 false |> wrN (Reg.DMC_CMD_RESULT d) (b2n !pass)
    let s := if pass then
        s |> setB (chStatus k) 0 true |> setB (Reg.DMC_CH_DOWN d) ch false |> wf (chStatus k) 3 3 0
          |> modDchan k fun c => { c with paused := now s, late := false }
      else if chUp s k then goDown k s else s
    endActions 12 k (if pass then 1 else 4) s
/-- RETRAIN_DONE (R335). -/
def execRetrainDone (d : Fin 2) (pass : Bool) (s : State) : Result := onDev (retrainEnd d.val pass) s
/-- Boot training and zero fill of a die have passed (R336): every burst reads zero, the channels' clocks start. -/
def trainedAll (s : Dev) : Dev :=
  let c : DChan := { cyc := dramCycle s, paused := now s, base := now s, scrubAt := now s }
  { s with dram := [], dmc := { s.dmc with chans := (List.range 64).map fun k => (k, c), bad := [] } }
    |> forS [0, 1] (fun d t => wf (Reg.DMC_STATUS d) 0 2 1 t) |> putTrainingAll false
/-- A lane fails its training (R336). -/
def trainFail (d ch lane : Nat) (s : Dev) : Dev := s |> dmcFault d 5 ch lane |> dmcRaise 0x0E06 (32 * d + ch)

/-! ## The Damarorn link (R345) -/

/-- Failed replays in a row at a receiving port. -/
def portRetries (s : Dev) (k : Nat) : Nat := mget (fun _ => 0) s.dmc.retries k
/-- Set them. -/
def putRetries (k n : Nat) (s : Dev) : Dev := { s with dmc := { s.dmc with retries := mset (fun _ => 0) s.dmc.retries k n } }
/-- ARB_STATUS.DLINK_UP: every port pair up. -/
def dlinkUp (s : Dev) : Dev :=
  let up := rdN s (Reg.ARB_DLINK_DOWN 0) == 0 && rdN s (Reg.ARB_DLINK_DOWN 1) == 0
  s |> setB (Reg.ARB_STATUS 0) 0 up |> setB (Reg.ARB_STATUS 1) 0 up
/-- A port pair goes DOWN: requests of one die that wait at its channel's port are those not yet taken, and every later one is answered with an
error response (R345). -/
def portDown (d p : Nat) (s : Dev) : Dev :=
  s |> setB (Reg.ARB_DLINK_DOWN 0) p true |> setB (Reg.ARB_DLINK_DOWN 1) p true |> dlinkUp
    |> wrN (Reg.ARB_FAULT_INFO d) (1 + p * 16 + 2 * 2 ^ 16) |> fun t => raise 0x0F03 (32 * d + p) (rdN t (Reg.ARB_FAULT_INFO d)) t
/-- DLINK_CRC_MISMATCH (R345): die `d`'s receiver of port `p` finds a bad flit; the sender replays. `again` tells that the flit is one that
the replay in progress sends; the mismatch that ends the 8th replay in a row takes the pair DOWN. -/
def crcMismatch (d p : Nat) (again : Bool) (s : Dev) : Dev :=
  if tst s (Reg.ARB_DLINK_DOWN d) p then s
  else
    let k := 32 * d + p
    let n := if again then portRetries s k + 1 else 0
    let s := s |> bump (Reg.ARB_DLINK_CRC_CNT d) 1 |> putRetries k n
    if n = 8 then s |> putRetries k 0 |> portDown d p
    else s |> bump (Reg.ARB_DLINK_RETRY_CNT d) 1 |> raise 0x0F02 d 0
/-- DLINK_CRC_MISMATCH (R345). -/
def execDlinkCrcMismatch (d : Fin 2) (p : Fin 32) (again : Bool) (s : State) : Result := onDev (crcMismatch d.val p.val again) s
/-- The port of a RETRAIN_PORT in progress on die `d`. -/
def portTraining (s : Dev) (d : Nat) : Option Nat := mget (fun _ => none) s.dmc.ports d
/-- Set it. -/
def putPortTraining (d : Nat) (v : Option Nat) (s : Dev) : Dev := { s with dmc := { s.dmc with ports := mset (fun _ => none) s.dmc.ports d v } }
/-- ARB_CMD RETRAIN_PORT (R345). Whether it was accepted. -/
def retrainPortCmd (d p : Nat) (s : Dev) : Bool × Dev :=
  if (portTraining s d).isSome then (false, wrN (Reg.ARB_CMD_RESULT d) 2 s)
  else (true, s |> putPortTraining d (some p) |> setB (Reg.ARB_STATUS d) 1 true)
/-- RETRAIN_PORT (R345). -/
def execRetrainPort (d : Fin 2) (p : Fin 32) (s : State) : Result := onDev (fun t => (retrainPortCmd d.val p.val t).2) s
/-- RETRAIN_PORT_DONE (R345): the pair is up, or DOWN. -/
def retrainPortEnd (d : Nat) (pass : Bool) (s : Dev) : Dev :=
  match portTraining s d with
  | none => s
  | some p =>
    let s := s |> putPortTraining d none |> setB (Reg.ARB_STATUS d) 1 false |> wrN (Reg.ARB_CMD_RESULT d) (b2n !pass)
    let s := if pass then s |> setB (Reg.ARB_DLINK_DOWN 0) p false |> setB (Reg.ARB_DLINK_DOWN 1) p false |> dlinkUp
      else if tst s (Reg.ARB_DLINK_DOWN d) p then s else portDown d p s
    endActions 13 (32 * d + p) (if pass then 1 else 4) s
/-- RETRAIN_PORT_DONE (R345). -/
def execRetrainPortDone (d : Fin 2) (pass : Bool) (s : State) : Result := onDev (retrainPortEnd d.val pass) s

end Sys2Proof.Machine
end

