-- ==== Sys2Proof/Machine/Codec.lean ====
section
/-! DEFINITION. Codec engines in the decode direction: queues, service rounds, frames, marks, output, moves (R217 to R236, R245). -/
set_option autoImplicit false
namespace Sys2Proof.Machine
open Sys2Proof

/-! ## Engines and contexts (R218, R219) -/

/-- What an engine keeps. -/
def cdcOf (s : Dev) (e : Nat) : Cdc := mget (fun _ => {}) s.cdc e
/-- Change it. -/
def modCdc (e : Nat) (f : Cdc → Cdc) (s : Dev) : Dev := { s with cdc := mset (fun _ => {}) s.cdc e (f (cdcOf s e)) }
/-- The keys of an engine's contexts. -/
def engKeys (e : Nat) : List Nat := (List.range 32).map fun x => e * 32 + x
/-- WDOG in ns. -/
def wdogNs (s : Dev) (key : Nat) : Nat := max 1 (ctxCfg s key 22 10) * 1000000
/-- SHARE in ns, or the automatic share (R219). -/
def shareNs (s : Dev) (key : Nat) : Nat :=
  if ctxCfg s key 14 8 = 0 then tideP s * 15 / (16 * max 1 ((engKeys (key / 32)).filter (ctxValid s)).length) else ctxCfg s key 14 8 * 100000
/-- A counter of a context. -/
def ctxCount (f : Nat → Nat → Nat) (key n : Nat) (s : Dev) : Dev := bump (f (key / 32) (key % 32)) n s
/-- SYNCED: a random access point has been decoded (R229). -/
def synced (s : Dev) (key : Nat) : Bool := tst s (Reg.CDC_CTX_STATE (key / 32) (key % 32)) 8
/-- Set SYNCED. -/
def setSynced (key : Nat) (v : Bool) (s : Dev) : Dev := setB (Reg.CDC_CTX_STATE (key / 32) (key % 32)) 8 v s
/-- A contained event of an engine with CDC_FAULT_INFO (Table 9-11): `bit` its event bit, `ev` its number in the register. -/
def cdcFault (bit ev key num : Nat) (s : Dev) : Dev :=
  let info := ev + key % 32 * 2 ^ 3 + num % 2 ^ 24 * 2 ^ 8
  s |> wrN (Reg.CDC_FAULT_INFO (key / 32)) info |> raiseFor (0x0800 + bit) (key / 32) info (ctxStream s key)
/-- A report of an engine that is no error. -/
def cdcReport (bit e : Nat) (s : Dev) : Dev := raise (0x0800 + bit) e 0 s
/-- A unit is not decoded: a gap record names its frame and CDC_CTX_LOST_CNT counts it. -/
def loseUnit (key : Nat) (why : GapReason) (a : Au) (s : Dev) : Dev :=
  s |> (match a.post with | some p => dropPost 5 p.1 | none => id) |> gap1 (ctxStream s key) why 0xFF 0xFF a.cap a.untr |> ctxCount Reg.CDC_CTX_LOST_CNT key 1
/-- Take the head unit off a queue. -/
def popUnit (key : Nat) (s : Dev) : Dev := modCtx key (fun c => { c with queue := c.queue.drop 1 }) s
/-- Change the head unit. -/
def modHead (key : Nat) (f : Au → Au) (s : Dev) : Dev := modCtx key (fun c => { c with queue := match c.queue with | a :: r => f a :: r | [] => [] }) s
/-- The body of a codec post for an access unit (Table 16-5). -/
def auPost (key : Nat) (a : Au) (num : Nat) : List Byte :=
  leBytes 1 (key / 32) ++ leBytes 1 (key % 32) ++ leBytes 2 0 ++ leBytes 4 num ++ leBytes 8 a.addr ++ leBytes 4 a.len ++ leBytes 4 0 ++ leBytes 8 a.cap
/-- R220: placeholders at the head are consumed at once; a real unit that becomes the head meets its decode start (R31), and in
host-assisted mode it is posted (R224). -/
def headStart (key : Nat) : Nat → Dev → Dev
  | 0, s => s
  | n + 1, s => match (ctxOf s key).queue with
    | [] => s
    | a :: _ =>
      if !a.real then headStart key n (s |> popUnit key |> loseUnit key .lost a)
      else if a.host.isSome then s
      else
        let num := (ctxOf s key).decNum
        let host := ctxHost s key
        let s := s |> modCtx key (fun c => { c with decNum := (num + 1) % 2 ^ 32 })
          |> modHead key (fun a => { a with host := some host, num, pctx := key % 32, post := if host then some (nextTag s 5, now s) else none })
        if host then hostPost 5 1 (auPost key a num) s else s
/-- Start what stands at the head of a queue of at most 8 units. -/
def headNow (key : Nat) (s : Dev) : Dev := headStart key 9 s
/-- The head unit is not decoded and is consumed as a placeholder is (R217). -/
def refuseHead (key : Nat) (why : GapReason) (s : Dev) : Dev :=
  match (ctxOf s key).queue with
  | [] => s
  | a :: _ => s |> popUnit key |> loseUnit key why a |> headNow key
/-- A unit that the jitter buffer releases enters its context's queue (R220, R467). -/
def enqueueUnit (st : Nat) (a : Au) (s : Dev) : Dev :=
  let key := stEngine s st * 32 + stCtx s st
  if !(ctxValid s key) || ctxEncodes s key || ctxStream s key != st then gap1 st .dropped 0xFF 0xFF a.cap a.untr s
  else
    let q := (ctxOf s key).queue
    let s := if 8 ≤ q.length then match q with
        | old :: _ => s |> popUnit key |> loseUnit key .dropped old |> cdcReport 9 (key / 32)
        | [] => s
      else s
    s |> modCtx key (fun c => { c with queue := c.queue ++ [a] }) |> headNow key

/-! ## Output (R227) -/

/-- The interval of a clip that a capture time falls in. -/
def clipInterval (c : Clip) (t : Nat) : Nat := (t - c.start) * c.fps / 100000000000
/-- Open clips of a stream take an output picture for its interval with mark ENC, at most 4 at a time (R237). -/
def takeForClips (key b : Nat) (s : Dev) : Dev :=
  let x := bufOf s key b
  forS (s.cctx.map (·.1)) (fun ek s => match (ctxOf s ek).clip with
    | none => s
    | some c =>
      let n := clipInterval c x.cap
      if c.stream != ctxStream s key || decide (x.cap < c.start) || decide (c.stop ≤ x.cap) || decide (n < c.n) || c.taken.any (fun t => t.n == n) || decide (4 ≤ c.taken.length) then s
      else s |> modBuf key b (fun y => { y with enc := y.enc + 1 }) |> modCtx ek (fun v => { v with clip := some { c with taken := c.taken ++ [{ n, key, buf := b, cap := x.cap }] } })) s
/-- A picture is output: handed to its pipe, and taken by clips. -/
def outputPic (key b : Nat) (s : Dev) : Dev :=
  s |> modBuf key b (fun y => { y with wait := none })
    |> whenS (bufOf s key b).taint (ctxCount Reg.CDC_CTX_TAINT_CNT key 1) |> takeForClips key b |> handPicture key b
/-- The pictures that await output, in output order. -/
def waitingPics (s : Dev) (key : Nat) : List Nat :=
  let l := (ctxOf s key).pool.filterMap fun p => p.2.wait.map fun w => (p.1, w)
  (sortBy (fun a b => decide (a.2 < b.2)) l).map (·.1)
/-- Output the first waiting pictures while more than `keep` wait. -/
def bumpOut (key keep : Nat) (s : Dev) : Dev :=
  let l := waitingPics s key
  forS (l.take (l.length - keep)) (outputPic key) s
/-- LAST: the latest decoded picture in output order takes the mark (Table 9-5). -/
def takeLast (key b : Nat) (rap : Bool) (pos : Nat) (s : Dev) : Dev :=
  let old := (ctxOf s key).pool.find? fun p => p.2.last
  if rap || (match old with | some p => decide (p.2.outNum ≤ pos) | none => true) then
    s |> modCtx key (fun c => { c with pool := c.pool.map fun p => (p.1, { p.2 with last := false }) }) |> modBuf key b (fun y => { y with last := true })
  else s
/-- Drop pool entries that are as after reset, so that equal pools are equal data. -/
def tidyPool (key : Nat) (s : Dev) : Dev := modCtx key (fun c => { c with pool := c.pool.filter fun p => p.2 != {} }) s

/-! ## Headers (R217, R224, R229 to R231, R235) -/

/-- Whether a picture exceeds Table 9-1 for its standard: depth, samples, sides. -/
def tooLarge (codec w h : Nat) (p10 : Bool) : Bool :=
  match codec with
  | 0 => p10 || decide (9437184 < w * h) || decide (8688 < w) || decide (8688 < h)
  | 1 => decide (8912896 < w * h) || decide (8444 < w) || decide (8444 < h)
  | 2 => decide (8912896 < w * h) || decide (8192 < w) || decide (4352 < h)
  | _ => p10 || decide (8912896 < w * h) || decide (8192 < w) || decide (8192 < h)
/-- Whether a random access point of a context is being decoded. -/
def rapRuns (s : Dev) (key : Nat) : Bool :=
  match (cdcOf s (key / 32)).busy with
  | some b => b.ctx == key % 32 && (match b.au with | some a => (match a.hdr with | some h => h.rap | none => false) | none => false)
  | none => false
/-- Whether a buffer index names a reference that was never received (R231). -/
def neverReceived (s : Dev) (key r : Nat) : Bool := decide (poolN s key ≤ r) || !((bufOf s key r).ref && (bufOf s key r).held)
/-- Tracks of a stream that moved away stay LOST on the old die (R304); tentative ones end. -/
def leaveTracks (d st : Nat) (s : Dev) : Dev :=
  s |> forS (streamTracks s d st [1]) trkFree |> forS (streamTracks s d st [2]) (fun t s => trkPut t { trkGet s t with state := 3, misses := 1 } s)
/-- The stream-table entry of a moved stream names its new engine and context. -/
def renameCtx (old new_ : Nat) (s : Dev) : Dev :=
  let st := ctxStream s old
  if stEngine s st = old / 32 ∧ stCtx s st = old % 32 then s |> wf (Reg.ING_TABLE st 4) 0 4 (new_ / 32) |> wf (Reg.ING_TABLE st 4) 4 5 (new_ % 32) else s
/-- The reference process of a context ends: pictures are output, and REF and LAST are cleared. -/
def endPool (key : Nat) (s : Dev) : Dev :=
  s |> bumpOut key 0 |> modCtx key (fun c => { c with pool := c.pool.map fun p => (p.1, { p.2 with ref := false, last := false }) })
/-- Whether a context's pool configuration is legal (R225): BUFFERS and BUF_BYTES, and the pool lies in the DRAM of the engine's die (log
entry 63). -/
def poolOk (s : Dev) (key : Nat) : Bool :=
  decide (4 ≤ poolN s key) && decide (poolN s key ≤ 32) && bufBytes s key != 0 && poolAddr s key / 2 ^ 34 == key / 256 &&
    (poolAddr s key + poolN s key * bufBytes s key - 1) / 2 ^ 34 == key / 256
/-- The context into whose pool a picture of `key` is decoded: for a random access point the target of a cross-die move (R223), if that
has a legal pool. -/
def poolFor (s : Dev) (key : Nat) (rap : Bool) : Nat :=
  match (ctxOf s key).move with
  | some m => if rap && poolOk s (m.1 * 32 + m.2) then m.1 * 32 + m.2 else key
  | none => key
/-- A cross-die move takes effect at a random access point (R223): the queue goes to the target context, the old pool is
released. -/
def crossMove (key new_ : Nat) (s : Dev) : Dev :=
  if !(poolOk s new_) then s |> modCtx key (fun c => { c with move := none }) |> cdcFault 7 7 key 0
  else
    let st := ctxStream s key
    let cfg := rdN s (Reg.CDC_CTX_CFG (key / 32) (key % 32))
    let c := ctxOf s key
    s |> renameCtx key new_ |> endPool key |> modCtx key (fun c => { c with queue := [], credit := 0, debt := 0, move := none })
      |> wf (Reg.CDC_CTX_CFG (key / 32) (key % 32)) 9 1 0 |> setSynced key false
      |> wrN (Reg.CDC_CTX_CFG (new_ / 32) (new_ % 32)) cfg |> modCtx new_ (fun x => { x with queue := c.queue, decNum := c.decNum, credit := 0, debt := 0 })
      |> setSynced new_ false |> leaveTracks (key / 256) st |> cdcReport 11 (key / 32) |> cdcReport 11 (new_ / 32)
/-- Whether a picture is a random access point (R230): its headers say so, or it is a JPEG picture. -/
def isRap (s : Dev) (key : Nat) (rap : Bool) : Bool := rap || ctxCodec s key == 3
/-- A picture header is there for the head unit: the unit is unsupported, precedes the first random access point, or does not fit the
buffers of the pool that it goes to (R223, R225), or it is decoded in its turn. -/
def acceptPic (key : Nat) (h0 : PicHdr) (buf : Option Nat) (slices : List SliceRec) (s : Dev) : Dev :=
  match (ctxOf s key).queue with
  | [] => s
  | a :: _ =>
    let h := { h0 with rap := isRap s key h0.rap }
    if tooLarge (ctxCodec s key) h.w h.h h.p10 then s |> refuseHead key .lost |> cdcFault 4 4 key a.num
    else if !h.rap && !(synced s key) && !(rapRuns s key) then refuseHead key .lost s
    else
      let dest := poolFor s key h.rap
      let s := match (ctxOf s key).move with
        | some m => if h.rap then crossMove key (m.1 * 32 + m.2) s else s
        | none => s
      if bufBytes s dest < picBytes h.w h.h h.p10 then s |> refuseHead dest .lost |> cdcFault 7 7 dest a.num
      else modHead dest (fun a => { a with hdr := some h, buf, slices }) s
/-- What the codec firmware finds in the head unit (R217, R227, R230, R235). -/
def found (key : Nat) (f : Finding) (s : Dev) : Dev :=
  match (ctxOf s key).queue with
  | [] => s
  | a :: _ => match f with
    | .picture h => acceptPic key h none [] s
    | .unsupported => s |> refuseHead key .lost |> cdcFault 4 4 key a.num
    | .headerErr => s |> refuseHead key .lost |> cdcFault 3 3 key a.num
    | .rasl => refuseHead key .lost s
    | .shows b =>
      if neverReceived s key b || !(synced s key) then refuseHead key .lost s
      else s |> popUnit key |> modBuf key b (fun y => { y with cap := a.cap, untr := a.untr }) |> wrLE .dram (bufAddr s key b) 8 a.cap
        |> takeLast key b true 0 |> outputPic key b |> headNow key
/-- CCP_PARSE_DONE (R218): the headers of the head unit of a context in hardware mode are parsed. -/
def ccpParseDone (e x : Nat) (f : Finding) (s : Dev) : Dev :=
  let key := e * 32 + x
  match (ctxOf s key).queue with
  | [] => s
  | a :: _ => if a.host = some false ∧ a.hdr = none ∧ ctxValid s key ∧ ¬ ctxEncodes s key ∧ ¬ tst s (Reg.CDC_STATUS e) 8 ∧ ¬ tst s (Reg.CDC_STATUS e) 9 then found key f s else s
/-- CCP_PARSE_DONE (R218). -/
def execCcpParseDone (e : Fin 16) (x : Fin 32) (f : Finding) (s : State) : Result := onDev (ccpParseDone e x f) s

/-- The context whose head unit waits for the answer to a post. -/
def unitByTag (s : Dev) (tag : Nat) : Option (Nat × Au) :=
  (s.cctx.map (·.1)).findSome? fun key => match (ctxOf s key).queue with
    | a :: _ => if a.hdr.isNone && (match a.post with | some p => p.1 == tag | none => false) then some (key, a) else none
    | [] => none
/-- The header that a picture command gives; a picture waits for one that may be output at once. It names no order hints: a reference's
hint is that of the picture held. -/
def cmdHdr (c : PicCmd) : PicHdr :=
  { rap := c.rap, w := c.w, h := c.h, p10 := c.depth == 10, refs := c.list0 ++ c.list1, keep := c.keep, isRef := bitOf c.keep c.outBuf, shown := true, outNow := c.outNow, outPos := c.outPos, reorder := 32, vui := 0,
    hint := c.outPos, hints := [], proj := [], state := ((enum (c.list0 ++ c.list1) 0).filter fun x => bitOf c.av1State x.1).map (·.2) }
/-- Whether a picture command passes the checks of R224 that raise CDC_CFG_INVALID: CTX and FRAME are those posted, and OUT_BUF is free in
the pool that the picture goes to. -/
def cmdOk (s : Dev) (key : Nat) (a : Au) (c : PicCmd) : Bool :=
  c.ctx == a.pctx && c.frame == a.num && (freeBufs s (poolFor s key (isRap s key c.rap))).contains c.outBuf && (c.depth == 8 || c.depth == 10) && c.w != 0 && c.h != 0 &&
    decide (c.list0.length ≤ 16) && decide (c.list1.length ≤ 16) && !(tooLarge (ctxCodec s key) c.w c.h (c.depth == 10))
/-- PICTURE_COMMAND (R224): the host's answer to a posted unit is checked, and the frame is then decoded. -/
def pictureCommand (h : H2D) (c : PicCmd) (s : Dev) : Dev :=
  if !(ringHasEntry s 6) then s
  else
    let s := ringTake 6 s
    if !(h2dOk s 6 1 h) then staleEntry s
    else match unitByTag s h.tag with
      | none => staleEntry s
      | some (key, a) => if cmdOk s key a c then acceptPic key (cmdHdr c) (some c.outBuf) (c.slices.take c.nslice) s else s |> refuseHead key .lost |> cdcFault 7 7 key a.num
/-- PICTURE_COMMAND (R224). -/
def execPictureCommand (h : H2D) (c : PicCmd) (s : State) : Result := onDev (pictureCommand h c) s

/-! ## Service rounds and selection (R221, R222) -/

/-- A round starts: every valid context gets its credit (R221). -/
def startRound (e : Nat) (s : Dev) : Dev :=
  s |> forS ((engKeys e).filter (ctxValid s)) (fun key s =>
      let sh := shareNs s key
      modCtx key (fun c => if sh ≤ c.debt then { c with credit := 0, debt := c.debt - sh } else { c with credit := sh - c.debt, debt := 0 }) s)
    |> bump (Reg.CDC_ROUND_CNT e) 1 |> modCdc e (fun c => { c with roundDue := false })
/-- A codec round start at one engine (R222): deferred while a frame runs; further starts collapse. -/
def roundAt (e : Nat) (s : Dev) : Dev :=
  let c := cdcOf s e
  if c.busy.isNone then startRound e s
  else if c.roundDue then bump (Reg.CDC_ROUND_SKIP_CNT e) 1 s
  else modCdc e (fun c => { c with roundDue := true }) s
/-- CODEC_ROUND_START (R53, R222): once in a tide, not in ebb. -/
def codecRoundStart (s : Dev) : Dev :=
  if !s.tide.marked || s.tide.roundDone || ebbState s == 2 then s
  else { s with tide := { s.tide with roundDone := true } } |> waitUntil (codecRoundTime s) |> forS (List.range 16) roundAt
/-- CODEC_ROUND_START (R222). -/
def execCodecRoundStart (s : State) : Result := onDev codecRoundStart s
/-- Engine time `t` ns of a frame is charged to its context (R221). -/
def charge (e : Nat) (b : Busy) (t : Nat) (s : Dev) : Dev :=
  s |> bump64 (Reg.CDC_BUSY_CNT_LO e) t
    |> whenS b.charged (modCtx (e * 32 + b.ctx) (fun c => if t ≤ c.credit then { c with credit := c.credit - t } else { c with debt := c.debt + (t - c.credit), credit := 0 }))
/-- Whether a decode context is ready (R220, R228). -/
def decodeReady (s : Dev) (key : Nat) : Bool :=
  match (ctxOf s key).queue with
  | a :: _ => a.real && a.hdr.isSome && !(freeBufs s key).isEmpty && (match a.buf with | some b => (freeBufs s key).contains b | none => true)
  | [] => false
/-- Whether AV1 reference scaling takes a reference of one size for a picture of another: at most twice the size on each axis, and at least
a sixteenth (log entry 63). -/
def scalable (rw rh w h : Nat) : Bool := decide (rw ≤ 2 * w) && decide (rh ≤ 2 * h) && decide (w ≤ 16 * rw) && decide (h ≤ 16 * rh)
/-- The substitute for a reference never received (R231, R232): the LAST picture if it has the picture's size, or for AV1 one that
scaling can bring to it; otherwise mid-grey. -/
def substitute (s : Dev) (key : Nat) (av1 : Bool) (w h : Nat) : RefSrc :=
  match (ctxOf s key).pool.find? fun p => p.2.last with
  | some p =>
    if p.2.w = w ∧ p.2.h = h then .last p.1 false
    else if av1 && scalable p.2.w p.2.h w h then .last p.1 true else .grey
  | none => .grey
/-- How a frame uses each of its references (R231, R232). -/
def refUses (s : Dev) (key : Nat) (h : PicHdr) : List RefUse :=
  (enum h.refs 0).map fun x =>
    if neverReceived s key x.2 then { src := substitute s key (ctxCodec s key == 2) h.w h.h, hint := h.hints.getD x.1 0, mvs := false }
    else { src := .held x.2, hint := (bufOf s key x.2).hint, mvs := h.proj.contains x.2 }
/-- Whether a picture predicts from a substitute or a tainted picture (R233), by its references, motion-field projection or inherited
state. -/
def tainted (s : Dev) (key : Nat) (h : PicHdr) : Bool :=
  !h.rap && (h.refs.any (neverReceived s key) || (h.refs ++ h.proj ++ h.state).any fun r => !(neverReceived s key r) && (bufOf s key r).taint)
/-- The head unit's frame starts on the datapath: it takes a buffer with mark DEC, and references never received are
substituted (R231, R232). -/
def startDecode (key : Nat) (charged : Bool) (s : Dev) : Dev :=
  match (ctxOf s key).queue with
  | [] => s
  | a :: _ => match a.hdr with
    | none => s
    | some h =>
      let b := a.buf.getD ((freeBufs s key).headD 0)
      let missing := (h.refs.filter (neverReceived s key)).length
      s |> popUnit key |> modBuf key b (fun _ => { dec := true })
        |> ctxCount Reg.CDC_CTX_SUBST_CNT key missing |> whenS (missing != 0) (cdcReport 8 (key / 32))
        |> modCdc (key / 32) (fun c => { c with busy := some { ctx := key % 32, charged, at_ := now s, au := some a, buf := b, subst := missing != 0, taint := tainted s key h, uses := refUses s key h, state := h.state.filter fun r => !(neverReceived s key r), fill := substitute s key false h.w h.h }, served := key % 32 })
        |> headNow key
/-- The next context that a list of ready ones gives, cyclically after the one served last. -/
def nextCtx (s : Dev) (e : Nat) (ready : List Nat) : Option Nat :=
  ((List.range 32).map fun i => e * 32 + ((cdcOf s e).served + 1 + i) % 32).find? ready.contains
/-- Whether an engine may select: no frame in progress, not stopped, not in reset, its domain running. -/
def mayServe (s : Dev) (e : Nat) : Bool :=
  (cdcOf s e).busy.isNone && !(tst s (Reg.CDC_STATUS e) 8) && !(tst s (Reg.CDC_STATUS e) 9) && domRuns s (72 + e)

/-! ## Frame ends (R218, R226, R233, R235, R236, R245) -/

/-- A same-die move (R223): registers, queue, pool, debt and taint go to the new context. -/
def moveCtx (key new_ : Nat) (s : Dev) : Dev :=
  let c := ctxOf s key
  let copy (f : Nat → Nat → Nat) (s : Dev) : Dev := wrN (f (new_ / 32) (new_ % 32)) (rdN s (f (key / 32) (key % 32))) s
  s |> renameCtx key new_
    |> forS [Reg.CDC_CTX_CFG, Reg.CDC_CTX_STATE, Reg.CDC_CTX_POOL_LO, Reg.CDC_CTX_POOL_HI, Reg.CDC_CTX_POOL_CFG, Reg.CDC_CTX_RATE, Reg.CDC_CTX_CPB, Reg.CDC_CTX_ENC, Reg.CDC_CTX_CPB_FULL] copy
    |> wf (Reg.CDC_CTX_CFG (key / 32) (key % 32)) 9 1 0 |> wrN (Reg.CDC_CTX_STATE (key / 32) (key % 32)) 0
    |> modCtx key (fun _ => {}) |> modCtx new_ (fun _ => c)
    |> (fun s => { s with pix := { s.pix with pipes := s.pix.pipes.map fun q => (q.1, q.2.map fun p => if p.key = key then { p with key := new_ } else p) },
                          cctx := s.cctx.map fun x => (x.1, { x.2 with clip := x.2.clip.map fun c => { c with taken := c.taken.map fun t => if t.key = key then { t with key := new_ } else t } }) })
    |> cdcReport 11 (key / 32) |> cdcReport 11 (new_ / 32)
/-- Moves that waited for a frame boundary take effect. -/
def boundaryMoves (e : Nat) (s : Dev) : Dev :=
  forS (cdcOf s e).moves (fun m s => moveCtx m.1 m.2 s) s |> modCdc e (fun c => { c with moves := [] })
/-- The pool of a decode context whose VALID was cleared is released once its frame in progress has ended (R467). -/
def lateRelease (e : Nat) (s : Dev) : Dev :=
  match (cdcOf s e).busy with
  | some b => whenS (b.au.isSome && !(ctxValid s (e * 32 + b.ctx))) (fun s => s |> endPool (e * 32 + b.ctx) |> tidyPool (e * 32 + b.ctx)) s
  | none => s
/-- The datapath is free again: a deferred round starts, and moves take effect. -/
def engineFree (e : Nat) (s : Dev) : Dev :=
  s |> lateRelease e |> modCdc e (fun c => { c with busy := none }) |> (fun s => whenS (cdcOf s e).roundDue (startRound e) s) |> boundaryMoves e
/-- The picture taken for the next interval of a clip. -/
def Clip.head (c : Clip) : Option Taken := c.taken.find? fun t => t.n == c.n
/-- The picture that an encode context works on is lost: a gap record names its frame, and CDC_CTX_LOST_CNT counts it (R236). -/
def loseEncode (key : Nat) (why : GapReason) (s : Dev) : Dev :=
  match (ctxOf s key).clip with
  | some c => (match c.head with
    | some t => s |> gap1 c.stream why 0xFF 0xFF t.cap c.untr |> ctxCount Reg.CDC_CTX_LOST_CNT key 1
    | none => s)
  | none => s
/-- The frame in progress is abandoned (R236): a partial picture is discarded and its buffer freed, and a gap record names the frame. -/
def abandon (e : Nat) (b : Busy) (t : Nat) (s : Dev) : Dev :=
  let key := e * 32 + b.ctx
  match b.au with
  | some a => s |> modBuf key b.buf (fun _ => {}) |> loseUnit key .lost a |> charge e b t
  | none => s |> whenS (!b.gone) (loseEncode key .lost) |> charge e b t
/-- The 256-byte picture header (Table 9-4). -/
def picHeader (p : PBuf) : List Byte :=
  leBytes 8 p.cap ++ leBytes 4 p.num ++ leBytes 4 p.outNum ++ leBytes 2 p.w ++ leBytes 2 p.h ++
    leBytes 4 (b2n p.p10 + b2n p.taint * 2 + b2n p.subst * 4 + b2n p.corrupt * 8 + b2n p.rap * 16 + b2n p.untr * 32) ++ leBytes 4 (picPitch p.w p.p10) ++ leBytes 228 0
/-- Whether a luma sample lies in blocks that could not be decoded (R235). -/
def concealed (fe : FrameEnd) (x y : Nat) : Bool :=
  fe.conceal.any fun r => decide (r.1 ≤ x) && decide (x < r.1 + r.2.2.1) && decide (r.2.1 ≤ y) && decide (y < r.2.1 + r.2.2.2)
/-- A sample of one depth at another. -/
def toDepth (from10 to10 : Bool) (v : Nat) : Nat := if from10 == to10 then v else if to10 then v * 4 else v / 4
/-- The luma sample that fills a concealed block (R235). -/
def fillLuma (s : Dev) (key : Nat) (src : RefSrc) (p10 : Bool) (x y : Nat) : Nat :=
  match src with
  | .held q | .last q _ => (let p := bufOf s key q
    toDepth p.p10 p10 (lumaRaw s key q p.w p.p10 x y))
  | .grey => midGrey p10
/-- The chroma sample that fills a concealed block. -/
def fillChroma (s : Dev) (key : Nat) (src : RefSrc) (p10 : Bool) (c x y : Nat) : Nat :=
  match src with
  | .held q | .last q _ => (let p := bufOf s key q
    toDepth p.p10 p10 (chromaRaw s key q p.w p.h p.p10 c x y))
  | .grey => midGrey p10
/-- A decoded chroma sample at 4:2:0 (R216): 4:2:2 is averaged over two rows and 4:4:4 over two rows and columns, rounded half up; without
chroma it is mid-grey. -/
def chroma420 (fe : FrameEnd) (p10 : Bool) (w h c x y : Nat) : Nat :=
  let plane := if c = 0 then fe.cb else fe.cr
  let p (pw i j : Nat) : Nat := plane.getD (j * pw + i) 0
  let half := (w + 1) / 2
  let x1 := min (2 * x + 1) (w - 1)
  let y1 := min (2 * y + 1) (h - 1)
  match fe.chroma with
  | 0 => p half x y
  | 1 => (p half x (2 * y) + p half x y1 + 1) / 2
  | 2 => (p w (2 * x) (2 * y) + p w x1 (2 * y) + p w (2 * x) y1 + p w x1 y1 + 2) / 4
  | _ => midGrey p10
/-- The planes of a picture are written (R216, R225, R235): NV12 or P010, with concealed blocks copied from `src`. -/
def writePlanes (key b : Nat) (src : RefSrc) (w h : Nat) (p10 : Bool) (fe : FrameEnd) (s : Dev) : Dev :=
  let luma (x y : Nat) : Nat := if concealed fe x y then fillLuma s key src p10 x y else fe.luma.getD (y * w + x) 0
  let chroma (c x y : Nat) : Nat := if concealed fe (2 * x) (2 * y) then fillChroma s key src p10 c x y else chroma420 fe p10 w h c x y
  let row (ofs y : Nat) (l : List Byte) : Dev → Dev := wrBytes .dram (bufAddr s key b + ofs + y * picPitch w p10) l
  s |> forS (List.range h) (fun y => row 4096 y ((List.range w).flatMap fun x => putSample p10 (luma x y)))
    |> forS (List.range (h / 2)) (fun y => row (chromaOfs w h p10) y ((List.range ((w + 1) / 2)).flatMap fun x => putSample p10 (chroma 0 x y) ++ putSample p10 (chroma 1 x y)))
/-- A picture is decoded: planes and header are in its buffer, the reference marks and LAST are brought up to date, and pictures
are output. -/
def decodeDone (e : Nat) (b : Busy) (a : Au) (h : PicHdr) (fe : FrameEnd) (s : Dev) : Dev :=
  let key := e * 32 + b.ctx
  let corrupt := !fe.conceal.isEmpty
  let taint := b.taint || corrupt
  let jpeg := ctxCodec s key == 3
  let p : PBuf := { ref := h.isRef, held := true, cap := a.cap, untr := a.untr, num := a.num, outNum := h.outPos, w := h.w, h := h.h, p10 := h.p10, taint, subst := b.subst, corrupt, rap := h.rap, vui := h.vui, hint := h.hint }
  let keepRef (x : Nat × PBuf) : Nat × PBuf := if x.1 = b.buf then x else (x.1, { x.2 with ref := x.2.ref && bitOf h.keep x.1 })
  s |> whenS h.rap (bumpOut key 0)
    |> writePlanes key b.buf b.fill h.w h.h h.p10 fe
    |> modCtx key (fun c => { c with pool := c.pool.map keepRef }) |> modBuf key b.buf (fun _ => p)
    |> wrBytes .dram (bufAddr s key b.buf) (picHeader p)
    |> whenS h.shown (takeLast key b.buf h.rap h.outPos)
    |> whenS corrupt (cdcFault 3 3 key a.num)
    |> whenS h.rap (setSynced key true) |> setB (Reg.CDC_CTX_STATE e b.ctx) 7 taint |> ctxCount Reg.CDC_CTX_FRAME_CNT key 1
    |> whenS h.shown (fun s =>
      let s := modBuf key b.buf (fun y => { y with wait := some h.outPos }) s
      if h.outNow || jpeg then forS ((waitingPics s key).filter fun i => decide ((bufOf s key i).wait.getD 0 ≤ h.outPos)) (outputPic key) s
      else bumpOut key h.reorder s)
    |> tidyPool key
/-- The codec firmware stops (R245): the engine selects no more frames. -/
def ccpStop (e key num : Nat) (s : Dev) : Dev := s |> setB (Reg.CDC_STATUS e) 8 true |> setB (Reg.CDC_STATUS e) 1 false |> cdcFault 5 5 key num
/-- R245: what the checks find: 1 a corrected error, 2 an uncorrected one in a datapath store, 3 one in CCP memory or the mark table. -/
def cdcEcc (e ecc key num : Nat) (s : Dev) : Dev :=
  match ecc with
  | 0 => s
  | 1 => s |> bump16 (Reg.CDC_ECC_CNT e) 0 1 |> raise 0x0800 e 0
  | 2 => s |> bump16 (Reg.CDC_ECC_CNT e) 16 1 |> cdcFault 1 1 key num
  | _ => s |> bump16 (Reg.CDC_ECC_CNT e) 16 1 |> ccpStop e key num

/-! ## Moves and resets (R223, R245) -/

/-- The lowest free context of an engine: not valid, and not the target of a move in progress. -/
def freeCtx (s : Dev) (g : Nat) : Option Nat :=
  (engKeys g).find? fun k => !(ctxValid s k) && !(s.cctx.any fun c => match c.2.move with | some m => m.1 * 32 + m.2 == k | none => false) &&
    !(s.cdc.any fun c => c.2.moves.any fun m => m.2 == k)
/-- MOVE (R223): refused without a free context or for a context that is not valid; else at the next frame boundary on the same
die, or at the next random access point on the other. An encode context has no random access point: with a clip open it moves to the other
die when that closes (log entry 63). Answers the result of CDC_CMD_RESULT. -/
def moveTo (e x g : Nat) (s : Dev) : Nat × Dev :=
  let key := e * 32 + x
  if !(ctxValid s key) then (2, s)
  else if (ctxOf s key).move.isSome || (cdcOf s e).moves.any (fun m => m.1 == key) then (3, s)
  else match freeCtx s g with
    | none => (1, s)
    | some k =>
      if e / 8 ≠ g / 8 && (!(ctxEncodes s key) || (ctxOf s key).clip.isSome) then (0, modCtx key (fun c => { c with move := some (g, k % 32) }) s)
      else
        let busy := match (cdcOf s e).busy with | some b => b.ctx == x | none => false
        if busy then (0, modCdc e (fun c => { c with moves := c.moves ++ [(key, k)] }) s) else (0, moveCtx key k s)
/-- MOVE (R223). -/
def execMove (e : Fin 16) (x : Fin 32) (g : Fin 16) (s : State) : Result :=
  onDev (fun d => (let r := moveTo e x g d
    wrN (Reg.CDC_CMD_RESULT e) r.1 r.2)) s
/-- The picture taken for the next interval of a clip is given back: the interval has none. -/
def dropHead (key : Nat) (s : Dev) : Dev :=
  match (ctxOf s key).clip with
  | some c => (match c.head with
    | some t => s |> modBuf t.key t.buf (fun y => { y with enc := y.enc - 1 }) |> tidyPool t.key
      |> modCtx key (fun v => { v with clip := some { c with taken := c.taken.filter fun t => t.n != c.n } })
    | none => s)
  | none => s
/-- A unit whose headers were accepted before an engine reset and that is no random access point is not decoded after it (R229). -/
def dropStale (key : Nat) (s : Dev) : Dev :=
  match (ctxOf s key).queue with
  | a :: _ => (match a.hdr with
    | some h => whenS (!h.rap) (refuseHead key .lost) s
    | none => s)
  | [] => s
/-- A context restarts at its next random access point (R229): headers that the codec firmware parsed before are parsed again. -/
def restartCtx (key : Nat) (s : Dev) : Dev :=
  s |> setSynced key false |> modCtx key (fun c => { c with queue := c.queue.map fun a => if a.host = some false then { a with hdr := none, buf := none } else a }) |> dropStale key
/-- ENGINE_RESET (R245): the frame in progress is abandoned and charged its engine time so far; the engine is in reset. -/
def engineReset (e : Nat) (s : Dev) : Dev :=
  if tst s (Reg.CDC_STATUS e) 9 then wrN (Reg.CDC_CMD_RESULT e) 3 s
  else
    let s := match (cdcOf s e).busy with
      | some b => s |> abandon e b (now s - b.at_) |> whenS (b.au.isNone && !b.gone) (dropHead (e * 32 + b.ctx)) |> engineFree e
      | none => s
    s |> setB (Reg.CDC_STATUS e) 9 true |> setB (Reg.CDC_STATUS e) 1 false |> wrN (Reg.CDC_CMD_RESULT e) 0
/-- ENGINE_RESET (R245). -/
def execEngineReset (e : Fin 16) (s : State) : Result := onDev (engineReset e) s
/-- ENGINE_RESET_DONE (R245): registers, pools and marks are kept; each context restarts at its next random access point. -/
def engineResetDone (e : Nat) (s : Dev) : Dev :=
  if !(tst s (Reg.CDC_STATUS e) 9) then s
  else
    s |> setB (Reg.CDC_STATUS e) 9 false |> setB (Reg.CDC_STATUS e) 8 false |> setB (Reg.CDC_STATUS e) 1 true
      |> forS (engKeys e) restartCtx
      |> endActions 4 e 1
/-- ENGINE_RESET_DONE (R245). -/
def execEngineResetDone (e : Fin 16) (s : State) : Result := onDev (engineResetDone e) s
/-- CCP_HEARTBEAT_MISS (R245): the engine stops selecting frames. -/
def ccpHeartbeatMiss (e : Nat) (s : Dev) : Dev :=
  let b := (cdcOf s e).busy
  let key := e * 32 + match b with | some b => b.ctx | none => (cdcOf s e).served
  let num := match b with | some b => (match b.au with | some a => a.num | none => 0) | none => 0
  ccpStop e key num s
/-- CCP_HEARTBEAT_MISS (R245). -/
def execCcpHeartbeatMiss (e : Fin 16) (s : State) : Result := onDev (ccpHeartbeatMiss e) s

end Sys2Proof.Machine
end

