-- ==== Sys2Proof/Machine/Clips.lean ====
section
/-! DEFINITION. Clips, rate control and privacy masking; selection and ends of frames in both directions (R221, R237 to R244). -/
set_option autoImplicit false
namespace Sys2Proof.Machine
open Sys2Proof

/-! ## Privacy masking (R243, R244) -/

/-- The value of an FP32 number in units of 2^-160; infinities count as 2^40, a NaN as 0. -/
def exact160 (a : Nat) : Int :=
  match dec32 a with
  | .fin neg m e => (if neg then -1 else 1) * ((m * 2 ^ (e + 160).toNat : Nat) : Int)
  | .inf neg => (if neg then -1 else 1) * ((2 ^ 200 : Nat) : Int)
  | .nan => 0
/-- The blocks of one axis that a box touches after it is grown by `g` per cent of its length and clipped to `n` samples: first and
end. -/
def maskSpan (lo hi : Nat) (g n blk : Nat) : Nat × Nat :=
  let u : Int := ((100 * 2 ^ 160 : Nat) : Int)
  let x0 := exact160 lo
  let x1 := exact160 hi
  let a := clampI (100 * x0 - (x1 - x0) * g) 0 (n * u)
  let b := clampI (100 * x1 + (x1 - x0) * g) 0 (n * u)
  if b ≤ a then (0, 0) else ((a / (u * blk)).toNat, (-((-b) / (u * blk))).toNat)
/-- What masks a picture: the whole of it, or boxes as spans of blocks on both axes. -/
inductive Mask where
  | whole
  | blocks (l : List ((Nat × Nat) × (Nat × Nat)))
  deriving DecidableEq, Repr
/-- Whether a mask covers a block. -/
def Mask.covers (m : Mask) (bx by_ : Nat) : Bool :=
  match m with
  | .whole => true
  | .blocks l => l.any fun r => decide (r.1.1 ≤ bx) && decide (bx < r.1.2) && decide (r.2.1 ≤ by_) && decide (by_ < r.2.2)
/-- The mean of a plane's samples in a block: (sum + n/2) / n. -/
def blockMean (src : Nat → Nat → Nat) (w h blk bx by_ : Nat) : Nat :=
  let xs := (List.range blk).filterMap fun i => if bx * blk + i < w then some (bx * blk + i) else none
  let ys := (List.range blk).filterMap fun i => if by_ * blk + i < h then some (by_ * blk + i) else none
  let n := xs.length * ys.length
  (sumN (ys.map fun y => sumN (xs.map fun x => src x y)) + n / 2) / n
/-- A plane with every covered block replaced by its mean. -/
def maskPlane (src : Nat → Nat → Nat) (m : Mask) (w h blk : Nat) : List Nat :=
  (List.range h).flatMap fun y => (List.range w).map fun x =>
    if m.covers (x / blk) (y / blk) then blockMean src w h blk (x / blk) (y / blk) else src x y
/-- A sample reduced to 8 bits (R237). -/
def to8 (p10 : Bool) (v : Nat) : Nat := if p10 then min 255 ((v + 2) / 4) else v
/-- The encoder's input copy of a picture: masked luma, Cb and Cr. The pool buffer is not modified. -/
def maskedInput (s : Dev) (key b : Nat) (m : Mask) (blk : Nat) : List Nat :=
  let p := bufOf s key b
  maskPlane (fun x y => to8 p.p10 (lumaRaw s key b p.w p.p10 x y)) m p.w p.h blk ++
    (List.range 2).flatMap fun c => maskPlane (fun x y => to8 p.p10 (chromaRaw s key b p.w p.h p.p10 c x y)) m (p.w / 2) (p.h / 2) (blk / 2)

/-! ## Clips (R237, R239) -/

/-- MASK_STALE of a clip, in ns. -/
def Clip.staleNs (c : Clip) : Nat := bits c.rate 21 11 * 1000000
/-- MASK_BLOCK in samples. -/
def Clip.block (c : Clip) : Nat := match bits c.enc 22 2 with
  | 0 => 8
  | 1 => 16
  | _ => 32
/-- MASK_GROW. -/
def Clip.grow (c : Clip) : Nat := bits c.enc 24 6
/-- BR × T × FPS_NOM, in bits × FPS_NOM. -/
def Clip.brT (c : Clip) : Nat := bits c.rate 0 20 * 100000
/-- B × FPS_NOM. -/
def Clip.top (c : Clip) : Nat := bits c.cpb 0 20 * 1024 * c.fps
/-- Whether the next picture is an IDR (R238). -/
def Clip.isIdr (c : Clip) : Bool := !c.idr || (bits c.enc 0 10 != 0 && decide (bits c.enc 0 10 ≤ c.since))
/-- Intervals of a clip. -/
def Clip.count (c : Clip) : Nat := ceilDiv ((c.stop - c.start) * c.fps) 100000000000
/-- Change an open clip. -/
def modClip (key : Nat) (f : Clip → Clip) (s : Dev) : Dev := modCtx key (fun v => { v with clip := v.clip.map f }) s
/-- Change a picture taken by an open clip. -/
def modTaken (key n : Nat) (f : Taken → Taken) (s : Dev) : Dev := modClip key (fun c => { c with taken := c.taken.map fun t => if t.n = n then f t else t }) s
/-- The commits of a stream that its die's track engine keeps. -/
def commitsOf (s : Dev) (key st : Nat) : List (Nat × Nat × List (Nat × List Nat)) := (trkOf s (key / 256)).commits.filter fun c => c.1 == st
/-- Whether the boxes of a taken picture are settled (R243): its frame is committed, reported as not analysed, or overdue. -/
def settled (s : Dev) (c : Clip) (t : Taken) : Bool :=
  t.stale || (commitsOf s t.key c.stream).any (fun x => x.2.1 == t.cap) || s.mdo.gaps.any fun g => g.1 == c.stream && decide (g.2.1 ≤ t.cap) && decide (t.cap ≤ g.2.2)
/-- The classes that a clip masks: those of the request, and persons. -/
def maskClasses (c : Clip) : List Nat := Config.personClass :: bitList c.mask 32
/-- The mask of a taken picture (R243): the boxes of its own commit; else those of the nearest earlier commit within MASK_STALE, grown
twice as much; else the whole picture. -/
def maskOf (s : Dev) (c : Clip) (t : Taken) : Mask :=
  let p := bufOf s t.key t.buf
  let cs := commitsOf s t.key c.stream
  let spans (bs : List (Nat × List Nat)) (g : Nat) : Mask :=
    .blocks ((bs.filter fun b => (maskClasses c).contains b.1).map fun b =>
      (maskSpan (b.2.getD 0 0) (b.2.getD 2 0) g p.w c.block, maskSpan (b.2.getD 1 0) (b.2.getD 3 0) g p.h c.block))
  match (cs.filter fun x => x.2.1 == t.cap).getLast? with
  | some x => spans x.2.2 c.grow
  | none =>
    let old := cs.filter fun x => decide (x.2.1 < t.cap) && decide (t.cap ≤ x.2.1 + c.staleNs)
    match leastBy (fun a b : Nat × Nat × List (Nat × List Nat) => decide (b.2.1 < a.2.1)) old with
    | some x => spans x.2.2 (2 * c.grow)
    | none => .whole
/-- S_skip: the most bits of an all-skip picture (R239), for H.264 or H.265. -/
def skipBits (codec w h : Nat) : Nat :=
  let u := if codec = 0 then ceilDiv w 16 * ceilDiv h 16 else ceilDiv w 32 * ceilDiv h 32
  2048 + 2 * u
/-- The size of the latest picture that a stream's decode context holds. -/
def sourceSize (s : Dev) (st : Nat) : Nat × Nat :=
  match (ctxOf s (stEngine s st * 32 + stCtx s st)).pool.find? fun p => p.2.last with
  | some p => (p.2.w, p.2.h)
  | none => (0, 0)
/-- The largest picture that an encode context takes (Table 9-1). -/
def encodable (codec w h : Nat) : Bool := decide (w ≤ 4096) && decide (h ≤ if codec = 0 then 2304 else 2176)
/-- Whether a clip may open (R239): BR × T and BR × D hold an all-skip picture, and B holds both together. -/
def clipOk (s : Dev) (key : Nat) (c : Clip) : Bool :=
  let sz := sourceSize s c.stream
  let sk := skipBits (ctxCodec s key) sz.1 sz.2 * c.fps
  decide (c.fps ≠ 0) && decide (sk ≤ c.brT) && decide (sk ≤ c.full) && decide (c.full + c.brT ≤ c.top) && encodable (ctxCodec s key) sz.1 sz.2
/-- The clip that a request opens at an encode context (R237, R246): the values read at its opening, and F_0 = BR × D. -/
def newClip (s : Dev) (key req buffer stream start stop mask deliver : Nat) (untr : Bool) : Clip :=
  let r (f : Nat → Nat → Nat) : Nat := rdN s (f (key / 32) (key % 32))
  let rate := r Reg.CDC_CTX_RATE
  let cpb := r Reg.CDC_CTX_CPB
  let fps := stFps s stream
  { req, buffer, stream, start, stop, mask, deliver, untr, rate, cpb, enc := r Reg.CDC_CTX_ENC, fps, full := bits rate 0 20 * bits cpb 20 12 * fps }
/-- CLIP_OPEN (R237): the encode context opens a clip, or refuses it with CDC_CFG_INVALID. -/
def openClip (key req buffer stream start stop mask deliver : Nat) (untr : Bool) (s : Dev) : Bool × Dev :=
  let c := newClip s key req buffer stream start stop mask deliver untr
  if clipOk s key c then (true, modCtx key (fun v => { v with clip := some c }) s) else (false, cdcFault 7 7 key 0 s)

/-! ## Closing a clip (R237, R315) -/

/-- The address of a clip buffer. -/
def clipAddr (s : Dev) (b : Nat) : Nat := rf s (Reg.MDO_CLIP_BUF_ADDR b) 0 28 * 4096
/-- Its size. -/
def clipSize (s : Dev) (b : Nat) : Nat := rf s (Reg.MDO_CLIP_BUF_SIZE b) 0 20 * 4096
/-- Where the metadata output unit, on die 0, first fails to reach part `i` of a clip's bytes. -/
def partReach (s : Dev) (c : Clip) (i : Nat) : Option NoReach := dramRead s 0 (clipAddr s c.buffer + 1368 * i) (min 1368 (c.bytes - 1368 * i))
/-- The gap record that closes a clip whose bytes cannot all be sent (P8). -/
def partGap (s : Dev) (c : Clip) : LmpRec := mkRec s 7 c.stream 0 c.start c.untr ([4, 0xFF, 0xFF, 0] ++ beBytes 4 0 ++ beBytes 8 c.start)
/-- The parts of a clip that can be read, one behind the other, and what ended them early. -/
def readable (s : Dev) (c : Clip) : List Nat → List Nat × Option NoReach
  | [] => ([], none)
  | i :: is => match partReach s c i with
    | some x => ([], some x)
    | none => (let r := readable s c is
      (i :: r.1, r.2))
/-- A clip's bytes as CLIP_DATA records of at most 1,368 data bytes. -/
def clipParts (s : Dev) (c : Clip) (parts : List Nat) : List LmpRec :=
  let n := ceilDiv c.bytes 1368
  parts.map fun i =>
    let body := beBytes 2 c.req ++ beBytes 2 0 ++ beBytes 4 (1368 * i) ++ rdBytes .dram s (clipAddr s c.buffer + 1368 * i) (min 1368 (c.bytes - 1368 * i))
    { mkRec s 13 c.stream i c.start c.untr body with continued := decide (i + 1 < n) }
/-- A clip's bytes go to the channel that DELIVER names (R315); where some cannot be read, a gap record closes the clip (P8). -/
def sendClip (c : Clip) (s : Dev) : Dev :=
  let r := readable s c (List.range (ceilDiv c.bytes 1368))
  let t := forS (clipParts s c r.1) (fun x => chanEnter x c.deliver) s
  match r.2 with
  | some x => t |> reportReach x |> chanEnter (partGap s c) c.deliver
  | none => t
/-- The clip-ready record (Table 12-7). -/
def clipReady (s : Dev) (c : Clip) : LmpRec :=
  mkRec s 6 c.stream 0 c.start c.untr (beBytes 2 c.req ++ beBytes 2 c.buffer ++ beBytes 4 c.bytes ++ beBytes 8 c.stop ++ beBytes 2 c.pictures ++ beBytes 2 c.replaced ++ beBytes 2 c.tainted ++ beBytes 2 c.corrupt)
/-- A picture is no longer held by a clip. -/
def releaseTaken (t : Taken) (s : Dev) : Dev := s |> modBuf t.key t.buf (fun y => { y with enc := y.enc - 1 }) |> tidyPool t.key
/-- A move to the other die that waits for an encode context's clip to close takes effect at the next frame boundary (log entry 63). -/
def moveClosed (key : Nat) (s : Dev) : Dev :=
  let e := key / 32
  match (ctxOf s key).move with
  | none => s
  | some m => (let s := s |> modCtx key (fun v => { v with move := none }) |> modCdc e (fun c => { c with moves := c.moves ++ [(key, m.1 * 32 + m.2)] })
    whenS (cdcOf s e).busy.isNone (boundaryMoves e) s)
/-- A frame in progress for a clip that closes is of no more use. -/
def encodeGone (key : Nat) (s : Dev) : Dev :=
  modCdc (key / 32) (fun v => { v with busy := v.busy.map fun b => if b.ctx = key % 32 && b.au.isNone then { b with gone := true } else b }) s
/-- A clip closes (R237, R315): CLIP_READY, then its bytes on the channel that DELIVER names. -/
def closeClip (key : Nat) (s : Dev) : Dev :=
  match (ctxOf s key).clip with
  | none => s
  | some c =>
    s |> encodeGone key |> forS c.taken (fun t s => s |> (match t.post with | some p => dropPost 5 p.1 | none => id) |> releaseTaken t)
      |> modCtx key (fun v => { v with clip := none }) |> emitRec (clipReady s c)
      |> whenS (decide (c.deliver < 8) && chanEnabled s c.deliver) (sendClip c)
      |> moveClosed key
/-- CLIP_CLOSE (R237): every interval of the clip up to its end time is done. -/
def clipClose (e x : Nat) (s : Dev) : Dev :=
  match (ctxOf s (e * 32 + x)).clip with
  | none => s
  | some c => if c.count ≤ c.n then closeClip (e * 32 + x) s else s
/-- CLIP_CLOSE (R237). -/
def execClipClose (e : Fin 16) (x : Fin 32) (s : State) : Result := onDev (clipClose e x) s

/-! ## Rate control (R239 to R242) -/

/-- round(6 × log2(num / den)) within −64..64: the greatest n with (num/den)^12 ≥ 2^(2n−1). -/
def round6log2 (num den : Nat) : Int :=
  let ge (n : Int) : Bool := if 1 ≤ 2 * n then decide (den ^ 12 * 2 ^ (2 * n - 1).toNat ≤ num ^ 12) else decide (den ^ 12 ≤ num ^ 12 * 2 ^ (1 - 2 * n).toNat)
  (((List.range 128).filter fun (i : Nat) => ge ((i : Int) - 63)).length : Int) - 64
/-- QP_0 in hardware mode (R241). -/
def hrdQp (c : Clip) : Nat :=
  let prev := if c.isIdr then c.prevI else c.prevP
  let t := max (16 * (c.brT : Int) + 2 * c.full - c.top) (4 * c.brT)
  let q : Int := match prev with
    | none => if c.isIdr then 30 else 32
    | some (b, qp) => qp + round6log2 (b * 16 * c.fps) t.toNat
  (clampI q (bits c.enc 10 6) (bits c.enc 16 6)).toNat
/-- The next picture of a clip enters rate control once its boxes are settled: its mode is fixed (R31), and in host-assisted mode it is posted
for its QP (R242). -/
def postQp (key : Nat) (s : Dev) : Dev :=
  match (ctxOf s key).clip with
  | none => s
  | some c => match c.head with
    | none => s
    | some t =>
      if t.host.isSome || !(settled s c t) then s
      else if !(ctxHost s key) then modTaken key t.n (fun t => { t with host := some false }) s
      else s |> modTaken key t.n (fun t => { t with host := some true, post := some (nextTag s 5, now s) })
        |> hostPost 5 2 (leBytes 1 (key / 32) ++ leBytes 1 (key % 32) ++ leBytes 1 (b2n (!c.isIdr)) ++ leBytes 1 0 ++ leBytes 4 c.n ++ leBytes 4 (c.full / c.fps) ++ leBytes 4 (c.brT / c.fps) ++ leBytes 8 t.cap)
/-- Post what can be posted, at every open clip. -/
def postQps (s : Dev) : Dev := forS (s.cctx.map (·.1)) postQp s
/-- Whether an encode context is ready: the next interval's picture is taken, its boxes are settled, and its QP is there. -/
def encodeReady (s : Dev) (key : Nat) : Bool :=
  match (ctxOf s key).clip with
  | none => false
  | some c => match c.head with
    | none => false
    | some t => settled s c t && (t.qp.isSome || !(t.host.getD (ctxHost s key)))
/-- An encode frame starts: the picture is masked into the encoder's input copy, and QP_0 is chosen. -/
def startEncode (key : Nat) (charged : Bool) (s : Dev) : Dev :=
  match (ctxOf s key).clip with
  | none => s
  | some c => match c.head with
    | none => s
    | some t =>
      let qp := t.qp.getD (hrdQp c)
      modCdc (key / 32) (fun v => { v with busy := some { ctx := key % 32, charged, at_ := now s, qp, input := maskedInput s t.key t.buf (maskOf s c t) c.block }, served := key % 32 }) s
/-- CODEC_SELECT (R221): a ready context with credit, else any ready context as surplus, has one frame started. -/
def codecSelect (e : Nat) (s : Dev) : Dev :=
  if !(mayServe s e) then s
  else
    let s := postQps s
    let ready := (engKeys e).filter fun k => ctxValid s k && if ctxEncodes s k then encodeReady s k else decodeReady s k
    let start (k : Nat) (ch : Bool) (s : Dev) : Dev := if ctxEncodes s k then startEncode k ch s else startDecode k ch s
    match nextCtx s e (ready.filter fun k => decide (0 < (ctxOf s k).credit)) with
    | some k => start k true s
    | none => match nextCtx s e ready with
      | some k => s |> start k false |> bump (Reg.CDC_SURPLUS_CNT e) 1
      | none => s
/-- CODEC_SELECT (R221). -/
def execCodecSelect (e : Fin 16) (s : State) : Result := onDev (codecSelect e) s

/-! ## Pictures of a clip (R239, R240) -/

/-- The kinds of NAL units that the encoder writes (R238, R239). -/
inductive NalKind where
  | vps
  | sps
  | pps
  | sei
  | idr
  | slice
  | filler
  deriving DecidableEq, Repr
/-- The header of a NAL unit in H.264 or H.265 (log entry 63). -/
def nalHead (codec : Nat) : NalKind → List Byte
  | .vps => [0x40, 1]
  | .sps => if codec = 0 then [0x67] else [0x42, 1]
  | .pps => if codec = 0 then [0x68] else [0x44, 1]
  | .sei => if codec = 0 then [0x06] else [0x4E, 1]
  | .idr => if codec = 0 then [0x65] else [0x26, 1]
  | .slice => if codec = 0 then [0x41] else [0x02, 1]
  | .filler => if codec = 0 then [0x0C] else [0x4C, 1]
/-- A NAL unit of an Annex B byte stream. -/
def nalUnit (codec : Nat) (k : NalKind) (body : List Byte) : List Byte := [0, 0, 0, 1] ++ nalHead codec k ++ body
/-- A picture of a clip in Annex B (R238): before an IDR the parameter sets, then SEI, then the slice. -/
def accessUnit (codec : Nat) (idr : Bool) (p : CodedPic) : List Byte :=
  let sets := (if codec = 0 then [NalKind.sps, .pps] else [.vps, .sps, .pps])
  (if idr then (enum sets 0).flatMap fun x => nalUnit codec x.2 (p.sets.getD x.1 []) else []) ++ nalUnit codec .sei p.sei ++
    nalUnit codec (if idr then .idr else .slice) p.slice
/-- The filler NAL unit that CBR adds to a picture of `b` bits, so that F_n − b_n + BR × T stays within B (R239); under VBR there is none. -/
def fillerFor (c : Clip) (codec b : Nat) : List Byte :=
  let excess := c.full + c.brT - b * c.fps - c.top
  if bitOf c.rate 20 || excess = 0 then []
  else nalUnit codec .filler (List.replicate (max (6 + codec) (ceilDiv excess (8 * max 1 c.fps)) - (6 + codec)) 0xFF ++ [0x80])
/-- Whether the engine reaches the bytes of the clip buffer that it writes next (R325). -/
def clipReach (s : Dev) (key : Nat) (c : Clip) (n : Nat) : Option NoReach := dramReach s (key / 256) (clipAddr s c.buffer + c.bytes) n
/-- The picture of the next interval is done: its bytes, filler included, are written and leave the CPB, and the interval is over. A buffer
without room for the bytes, or one that the engine does not reach, closes the clip with the pictures encoded so far. -/
def clipStep (key : Nat) (au : List Byte) (f : Clip → Clip) (s : Dev) : Dev :=
  match (ctxOf s key).clip with
  | none => s
  | some c =>
    let bytes := au ++ fillerFor c (ctxCodec s key) (8 * au.length)
    if clipSize s c.buffer < c.bytes + bytes.length then closeClip key s
    else match clipReach s key c bytes.length with
      | some x => s |> reportReach x |> closeClip key
      | none =>
        let s := match c.head with
          | some t => releaseTaken t s
          | none => s
        s |> wrBytes .dram (clipAddr s c.buffer + c.bytes) bytes |> wrN (Reg.CDC_CTX_CPB_FULL (key / 32) (key % 32)) (c.full / (max 1 c.fps * 1024))
          |> modClip key (fun c => { f c with n := c.n + 1, full := min c.top (c.full - 8 * bytes.length * c.fps + c.brT), bytes := c.bytes + bytes.length, pictures := c.pictures + 1, taken := c.taken.filter fun t => t.n != c.n })
          |> postQp key
/-- The all-skip picture takes an interval's place (R237, R240), of at most S_skip bits (R239); before the first IDR the clip begins at the
next interval. -/
def skipPicture (key : Nat) (skip : CodedPic) (s : Dev) : Dev :=
  match (ctxOf s key).clip with
  | none => s
  | some c =>
    if !c.idr then
      let s := match c.head with
        | some t => releaseTaken t s
        | none => s
      s |> modClip key (fun c => { c with n := c.n + 1, replaced := c.replaced + 1, taken := c.taken.filter fun t => t.n != c.n }) |> postQp key
    else
      let sz := sourceSize s c.stream
      let au := (accessUnit (ctxCodec s key) false skip).take (skipBits (ctxCodec s key) sz.1 sz.2 / 8)
      s |> bump16 (Reg.CDC_CTX_REENC_CNT (key / 32) (key % 32)) 16 1 |> cdcReport 10 (key / 32)
        |> clipStep key au (fun c => { c with replaced := c.replaced + 1, since := c.since + 1 })
/-- An encode frame ends (R240): the first attempt of the ladder that fits the CPB is the picture; without one the all-skip picture
takes its place. -/
def encodeDone (e : Nat) (b : Busy) (fe : FrameEnd) (s : Dev) : Dev :=
  let key := e * 32 + b.ctx
  match (ctxOf s key).clip with
  | none => s
  | some c =>
    if c.head.isNone then s else
    let try_ (p : CodedPic) : List Byte := accessUnit (ctxCodec s key) c.isIdr p
    let fits := (enum (fe.tries.take 3) 0).find? fun x => decide (8 * (try_ x.2).length * c.fps ≤ c.full)
    let src := match c.head with | some t => bufOf s t.key t.buf | none => {}
    let reenc (n : Nat) (s : Dev) : Dev := bump16 (Reg.CDC_CTX_REENC_CNT (key / 32) (key % 32)) 0 n s
    match fits with
    | some x =>
      let au := try_ x.2
      let own := some (8 * au.length, min 51 (b.qp + 6 * x.1))
      s |> reenc x.1 |> ctxCount Reg.CDC_CTX_FRAME_CNT key 1
        |> clipStep key au (fun v => { v with idr := true, since := if c.isIdr then 1 else c.since + 1, prevI := if c.isIdr then own else c.prevI, prevP := if c.isIdr then c.prevP else own, tainted := c.tainted + b2n src.taint, corrupt := c.corrupt + b2n src.corrupt })
    | none => s |> reenc 2 |> skipPicture key fe.skip
/-- The first burst that a decoded frame does not reach: its access unit, or the pool buffer that receives it (R325). -/
def decodeReach (s : Dev) (key : Nat) (b : Busy) (a : Au) (h : PicHdr) : Option NoReach :=
  (dramRead s (key / 256) a.addr a.len).or (dramReach s (key / 256) (bufAddr s key b.buf) (picBytes h.w h.h h.p10))
/-- The first burst that an encode frame does not reach: the picture that it reads (R325). -/
def encodeReach (s : Dev) (key : Nat) : Option NoReach :=
  match (ctxOf s key).clip with
  | some c => c.head.bind fun t => (let p := bufOf s t.key t.buf
    dramRead s (key / 256) (bufAddr s t.key t.buf) (picBytes p.w p.h p.p10))
  | none => none
/-- A decoded frame ends: it is in its buffer, or abandoned for an uncorrected error or an access that is answered with an error (R18). -/
def decodeEnd (e : Nat) (b : Busy) (a : Au) (fe : FrameEnd) (t : Nat) (s : Dev) : Dev :=
  let key := e * 32 + b.ctx
  if fe.ecc = 2 then abandon e b t s
  else match a.hdr with
    | none => charge e b t s
    | some h => (match decodeReach s key b a h with
      | some x => s |> reportReach x |> abandon e b t
      | none => s |> decodeDone e b a h fe |> charge e b t)
/-- An encode frame ends: it is in its clip, or abandoned in the same cases with the all-skip picture in its place. -/
def encodeEnd (e : Nat) (b : Busy) (fe : FrameEnd) (t : Nat) (s : Dev) : Dev :=
  let key := e * 32 + b.ctx
  if b.gone then charge e b t s
  else if fe.ecc = 2 then s |> abandon e b t |> skipPicture key fe.skip
  else match encodeReach s key with
    | some x => s |> reportReach x |> abandon e b t |> skipPicture key fe.skip
    | none => s |> charge e b t |> encodeDone e b fe
/-- CODEC_FRAME_END (R218): the datapath ends its frame within WDOG; the frame is charged, marked and output, or encoded. -/
def codecFrameEnd (e : Nat) (fe : FrameEnd) (s : Dev) : Dev :=
  match (cdcOf s e).busy with
  | none => s
  | some b =>
    let key := e * 32 + b.ctx
    let t := fe.us * 1000
    if wdogNs s key ≤ t then s
    else
      let s := s |> waitUntil (b.at_ + t) |> cdcEcc e fe.ecc key (match b.au with | some a => a.num | none => 0)
      let s := match b.au with
        | some a => decodeEnd e b a fe t s
        | none => encodeEnd e b fe t s
      s |> engineFree e |> postQps
/-- CODEC_FRAME_WDOG (R236): the frame's engine time reaches WDOG; it is abandoned, and an encode frame is replaced in its clip by the
all-skip picture. -/
def codecFrameWdog (e : Nat) (skip : CodedPic) (s : Dev) : Dev :=
  match (cdcOf s e).busy with
  | none => s
  | some y =>
    let key := e * 32 + y.ctx
    let t := wdogNs s key
    s |> waitUntil (y.at_ + t) |> abandon e y t |> ctxCount Reg.CDC_CTX_WDOG_CNT key 1 |> cdcFault 2 2 key (match y.au with | some a => a.num | none => 0)
      |> whenS (y.au.isNone && !y.gone) (skipPicture key skip) |> engineFree e |> postQps
/-- CLIP_INTERVAL_END (R237): the next interval of an open clip ends without a picture taken. -/
def clipIntervalEnd (e x : Nat) (skip : CodedPic) (s : Dev) : Dev :=
  match (ctxOf s (e * 32 + x)).clip with
  | none => s
  | some c => if c.head.isSome || decide (c.count ≤ c.n) then s
    else s |> waitUntil (c.start + (c.n + 1) * 100000000000 / c.fps) |> skipPicture (e * 32 + x) skip
/-- CLIP_INTERVAL_END (R237). -/
def execClipIntervalEnd (e : Fin 16) (x : Fin 32) (skip : CodedPic) (s : State) : Result := onDev (clipIntervalEnd e x skip) s
/-- MASK_STALE_EXPIRY (R243): no commit of the next picture's frame by its capture time + MASK_STALE. -/
def maskStaleExpiry (e x : Nat) (s : Dev) : Dev :=
  match (ctxOf s (e * 32 + x)).clip with
  | none => s
  | some c => match c.head with
    | none => s
    | some t => if settled s c t then s else s |> waitUntil (t.cap + c.staleNs) |> modTaken (e * 32 + x) t.n (fun t => { t with stale := true }) |> postQp (e * 32 + x)
/-- MASK_STALE_EXPIRY (R243). -/
def execMaskStaleExpiry (e : Fin 16) (x : Fin 32) (s : State) : Result := onDev (maskStaleExpiry e x) s
/-- QP_ANSWER (R242): the host's QP for a posted picture. -/
def qpAnswer (h : H2D) (qp : Nat) (s : Dev) : Dev :=
  if !(ringHasEntry s 6) then s
  else
    let s := ringTake 6 s
    let hit (key : Nat) : Option (Nat × Nat) := match (ctxOf s key).clip with
      | some c => (c.taken.find? fun t => t.qp.isNone && (match t.post with | some p => p.1 == h.tag | none => false)).map fun t => (key, t.n)
      | none => none
    if !(h2dOk s 6 2 h) || decide (51 < qp) then staleEntry s
    else match (s.cctx.map (·.1)).findSome? hit with
      | none => staleEntry s
      | some (key, n) => modTaken key n (fun t => { t with qp := some qp }) s
/-- QP_ANSWER (R242). -/
def execQpAnswer (h : H2D) (qp : Nat) (s : State) : Result := onDev (qpAnswer h qp) s
/-- CODEC_HOST_TIMEOUT (R224, R242, R32): no picture command, or no QP, within CDC_HOST_LIM; `skip` is the all-skip
picture that an encode context puts in the place. -/
def codecHostTimeout (e x : Nat) (skip : CodedPic) (s : Dev) : Dev :=
  let key := e * 32 + x
  let lim := rf s (Reg.CDC_HOST_LIM e) 0 16 * 1000000
  if ctxEncodes s key then match (ctxOf s key).clip with
    | none => s
    | some c => match c.head with
      | none => s
      | some t => match t.post with
        | none => s
        | some p =>
          if t.qp.isSome then s
          else s |> waitUntil (p.2 + lim) |> dropPost 5 p.1 |> loseEncode key .host |> cdcFault 6 6 key c.n |> hostGone 2 |> skipPicture key skip
  else match (ctxOf s key).queue with
    | [] => s
    | a :: _ => match a.post with
      | none => s
      | some p => if a.hdr.isSome then s else s |> waitUntil (p.2 + lim) |> refuseHead key .host |> cdcFault 6 6 key a.num |> hostGone 1
/-- CODEC_HOST_TIMEOUT (R224). -/
def execCodecHostTimeout (e : Fin 16) (x : Fin 32) (skip : CodedPic) (s : State) : Result := onDev (codecHostTimeout e x skip) s

/-! ## Configuration (R225, R467) -/

/-- VALID of a context is cleared at a mark (R467). -/
def clearValid (key : Nat) (s : Dev) : Dev :=
  if ctxEncodes s key then closeClip key s
  else
    let busy := match (cdcOf s (key / 32)).busy with | some b => b.ctx == key % 32 | none => false
    s |> forS (ctxOf s key).queue (fun a s => s |> popUnit key |> loseUnit key .dropped a) |> bumpOut key 0 |> whenS (!busy) (endPool key) |> tidyPool key
/-- A write of CDC_CTX_CFG takes effect: a set VALID is checked, a cleared one ends the context's work; an encode context with CODEC 2 or 3 is
no valid one (Table 9-12). -/
def applyCtxCfg (key v : Nat) (s : Dev) : Dev :=
  let a := Reg.CDC_CTX_CFG (key / 32) (key % 32)
  let v := if bits v 22 10 = 0 then v + 2 ^ 22 else v
  let was := ctxValid s key
  let set := bitOf v 9
  if (bitOf v 10 && decide (2 ≤ bits v 11 2)) || (set && !was && !(poolOk s key)) then
    s |> whenS was (clearValid key) |> wrN a (putBits v 9 1 0) |> cdcFault 7 7 key 0
  else if set && !was then s |> wrN a v |> setSynced key false |> modCtx key (fun c => { c with credit := 0, debt := 0, decNum := 0 })
  else if was && !set then s |> clearValid key |> wrN a v
  else wrN a v s

end Sys2Proof.Machine
end

