-- ==== Sys2Proof/Machine/Payload.lean ====
section
/-! DEFINITION. RTP payload formats: which packets are supported, and how the packets of an access unit become its bytes (R256, Table 10-4).
The layouts are those of RFC 6184, RFC 7798, the AV1 payload specification and RFC 2435, which the table names (log entry 64). -/
set_option autoImplicit false
namespace Sys2Proof.Machine
open Sys2Proof

/-! ## Which packets are supported -/

/-- A byte of a payload. -/
def pbyte (l : List Byte) (i : Nat) : Nat := (l.getD i 0).toNat
/-- A leb128 number: its value and its length. -/
def leb128 : List Byte → Nat → Nat → Nat × Nat
  | [], v, n => (v, n)
  | b :: bs, v, n => if n < 8 ∧ bitOf b.toNat 7 then leb128 bs (v + b.toNat % 128 * 2 ^ (7 * n)) (n + 1) else (v + b.toNat % 128 * 2 ^ (7 * n), n + 1)
/-- Whether an OBU element that begins an OBU has spatial_id > 0. -/
def obuSpatial (l : List Byte) : Bool := bitOf (pbyte l 0) 2 && decide (0 < bits (pbyte l 1) 3 2)
/-- Whether some OBU that begins in the elements of an AV1 packet has spatial_id > 0; `w` is how many elements are left when W is not
0, and `cont` says that the first one continues an OBU. -/
def av1Spatial : Nat → Nat → Bool → List Byte → Bool
  | 0, _, _, _ => false
  | f + 1, w, cont, l =>
    if l.isEmpty then false
    else if w = 1 then !cont && obuSpatial l
    else
      let n := leb128 l 0 0
      let e := (l.drop n.2).take n.1
      (!cont && !e.isEmpty && obuSpatial e) || av1Spatial f (w - 1) false (l.drop (n.2 + n.1))
/-- The fragment offset of a JPEG packet. -/
def jpegOfs (l : List Byte) : Nat := beNat ((l.drop 1).take 3)
/-- The length of the tables that a JPEG packet with Q of 128 and above carries. -/
def jpegQLen (l : List Byte) : Nat := beNat ((l.drop (if 64 ≤ pbyte l 4 then 14 else 10)).take 2)
/-- How a packet begins and closes a NAL unit, OBU or scan; none when its mode or type is not supported. `c` is CODEC. -/
def classify (c : Nat) (p : RtpPkt) : Option (Bool × Bool) :=
  let l := p.payload
  let b := pbyte l 0
  if l.isEmpty then none
  else match c with
    | 0 =>
      let t := b % 32
      if (1 ≤ t ∧ t ≤ 24) then some (true, true)
      else if t = 28 then some (bitOf (pbyte l 1) 7, bitOf (pbyte l 1) 6) else none
    | 1 =>
      let t := b / 2 % 64
      if t ≤ 48 then some (true, true)
      else if t = 49 then some (bitOf (pbyte l 2) 7, bitOf (pbyte l 2) 6) else none
    | 2 => if av1Spatial l.length (bits b 4 2) (bitOf b 7) (l.drop 1) then none else some (!(bitOf b 7), !(bitOf b 6))
    | _ =>
      let t := pbyte l 4
      let q := pbyte l 5
      let tables := decide (128 ≤ q) && (jpegOfs l != 0 || jpegQLen l != 0)
      if [0, 1, 64, 65].contains t && ((decide (1 ≤ q) && decide (q ≤ 99)) || tables) then some (jpegOfs l == 0, p.marker) else none

/-! ## H.264 and H.265: Annex B -/

/-- A NAL unit behind its start code. -/
def annexB (nal : List Byte) : List Byte := [0, 0, 0, 1] ++ nal
/-- The NAL units of an aggregation packet, each behind its 16-bit size. -/
def aggregated : Nat → List Byte → List (List Byte)
  | 0, _ => []
  | f + 1, l =>
    let n := beNat (l.take 2)
    if l.length < 2 then [] else (l.drop 2).take n :: aggregated f (l.drop (2 + n))
/-- The bytes that a packet of H.264 adds to its unit: single NAL units, STAP-A, FU-A. -/
def h264Bytes (l : List Byte) : List Byte :=
  match pbyte l 0 % 32 with
  | 24 => (aggregated l.length (l.drop 1)).flatMap annexB
  | 28 => if bitOf (pbyte l 1) 7 then annexB (BitVec.ofNat 8 (pbyte l 0 / 32 * 32 + pbyte l 1 % 32) :: l.drop 2) else l.drop 2
  | _ => annexB l
/-- The bytes that a packet of H.265 adds: single NAL units, aggregation packets, fragmentation units. -/
def h265Bytes (l : List Byte) : List Byte :=
  match pbyte l 0 / 2 % 64 with
  | 48 => (aggregated l.length (l.drop 2)).flatMap annexB
  | 49 =>
    if bitOf (pbyte l 2) 7 then annexB (BitVec.ofNat 8 (putBits (pbyte l 0) 1 6 (pbyte l 2 % 64)) :: (l.drop 1).take 1 ++ l.drop 3) else l.drop 3
  | _ => annexB l

/-! ## AV1: a temporal unit of OBUs with sizes -/

/-- The OBU elements of a packet behind its aggregation header; `w` is how many are left when W is not 0. -/
def obuElems : Nat → Nat → List Byte → List (List Byte)
  | 0, _, _ => []
  | f + 1, w, l =>
    if l.isEmpty then []
    else if w = 1 then [l]
    else
      let n := leb128 l 0 0
      (l.drop n.2).take n.1 :: obuElems f (w - 1) (l.drop (n.2 + n.1))
/-- The OBUs so far, the last of which a packet with Z continues. -/
def joinObus (acc : List (List Byte)) (l : List Byte) : List (List Byte) :=
  let es := obuElems l.length (bits (pbyte l 0) 4 2) (l.drop 1)
  if bitOf (pbyte l 0) 7 then acc.dropLast ++ [acc.getLast?.getD [] ++ es.headD []] ++ es.drop 1 else acc ++ es
/-- A number as leb128, of at most `f` bytes. -/
def leb128Of : Nat → Nat → List Byte
  | 0, _ => []
  | f + 1, v => if v < 128 then [BitVec.ofNat 8 v] else BitVec.ofNat 8 (v % 128 + 128) :: leb128Of f (v / 128)
/-- An OBU with its size field. -/
def sizedObu (o : List Byte) : List Byte :=
  let n := if bitOf (pbyte o 0) 2 then 2 else 1
  if o.isEmpty || bitOf (pbyte o 0) 1 then o else BitVec.ofNat 8 (pbyte o 0 + 2) :: (o.take n).drop 1 ++ leb128Of 8 (o.length - n) ++ o.drop n

/-! ## JPEG: the headers are rebuilt -/

/-- Bytes given as runs (first, count). -/
def byteRuns (l : List (Nat × Nat)) : List Byte := l.flatMap fun r => (List.range r.2).map fun i => BitVec.ofNat 8 (r.1 + i)
/-- The standard luma quantisation table in zigzag order (T.81, Table K.1). -/
def lumaQuant : List Nat :=
  [16, 11, 12, 14, 12, 10, 16, 14, 13, 14, 18, 17, 16, 19, 24, 40, 26, 24, 22, 22, 24, 49, 35, 37, 29, 40, 58, 51, 61, 60, 57, 51, 56, 55, 64, 72, 92,
   78, 64, 68, 87, 69, 55, 56, 80, 109, 81, 87, 95, 98, 103, 104, 103, 62, 77, 113, 121, 112, 100, 120, 92, 101, 103, 99]
/-- The standard chroma quantisation table in zigzag order (T.81, Table K.2). -/
def chromaQuant : List Nat := [17, 18, 18, 24, 21, 24, 47, 26, 26, 47, 99, 66, 56, 66] ++ List.replicate 50 99
/-- A standard table scaled for Q in 1..99 (RFC 2435, appendix A). -/
def scaledQuant (q : Nat) (t : List Nat) : List Byte :=
  let f := if q < 50 then 5000 / q else 200 - 2 * q
  t.map fun v => BitVec.ofNat 8 (clampN ((v * f + 50) / 100) 1 255)
/-- DQT with one table of 8-bit entries. -/
def dqt (i : Nat) (t : List Byte) : List Byte := [0xFF, 0xDB, 0, 67, BitVec.ofNat 8 i] ++ t
/-- The symbols of the standard AC tables (T.81, Tables K.5 and K.6). -/
def lumaAc : List Byte :=
  byteRuns [(0x01, 3), (0x00, 1), (0x04, 1), (0x11, 1), (0x05, 1), (0x12, 1), (0x21, 1), (0x31, 1), (0x41, 1), (0x06, 1), (0x13, 1), (0x51, 1), (0x61, 1), (0x07,
   1), (0x22, 1), (0x71, 1), (0x14, 1), (0x32, 1), (0x81, 1), (0x91, 1), (0xA1, 1), (0x08, 1), (0x23, 1), (0x42, 1), (0xB1, 1), (0xC1, 1), (0x15, 1),
   (0x52, 1), (0xD1, 1), (0xF0, 1), (0x24, 1), (0x33, 1), (0x62, 1), (0x72, 1), (0x82, 1), (0x09, 2), (0x16, 5), (0x25, 6), (0x34, 7), (0x43, 8), (0x53,
   8), (0x63, 8), (0x73, 8), (0x83, 8), (0x92, 9), (0xA2, 9), (0xB2, 9), (0xC2, 9), (0xD2, 9), (0xE1, 10), (0xF1, 10)]
/-- The chroma AC symbols. -/
def chromaAc : List Byte :=
  byteRuns [(0x00, 4), (0x11, 1), (0x04, 2), (0x21, 1), (0x31, 1), (0x06, 1), (0x12, 1), (0x41, 1), (0x51, 1), (0x07, 1), (0x61, 1), (0x71, 1), (0x13, 1), (0x22,
   1), (0x32, 1), (0x81, 1), (0x08, 1), (0x14, 1), (0x42, 1), (0x91, 1), (0xA1, 1), (0xB1, 1), (0xC1, 1), (0x09, 1), (0x23, 1), (0x33, 1), (0x52, 1),
   (0xF0, 1), (0x15, 1), (0x62, 1), (0x72, 1), (0xD1, 1), (0x0A, 1), (0x16, 1), (0x24, 1), (0x34, 1), (0xE1, 1), (0x25, 1), (0xF1, 1), (0x17, 4), (0x26,
   5), (0x35, 6), (0x43, 8), (0x53, 8), (0x63, 8), (0x73, 8), (0x82, 9), (0x92, 9), (0xA2, 9), (0xB2, 9), (0xC2, 9), (0xD2, 9), (0xE2, 9), (0xF2, 9)]
/-- DHT with one table: class and destination, code counts by length, symbols. -/
def dht (c : Nat) (counts : List Nat) (syms : List Byte) : List Byte :=
  [0xFF, 0xC4] ++ beBytes 2 (19 + syms.length) ++ [BitVec.ofNat 8 c] ++ counts.map (BitVec.ofNat 8) ++ syms
/-- The four standard Huffman tables. -/
def jpegHuffman : List Byte :=
  dht 0x00 [0, 1, 5, 1, 1, 1, 1, 1, 1, 0, 0, 0, 0, 0, 0, 0] (byteRuns [(0, 12)]) ++
  dht 0x10 [0, 2, 1, 3, 3, 2, 4, 3, 5, 5, 4, 4, 0, 0, 1, 0x7D] lumaAc ++
  dht 0x01 [0, 3, 1, 1, 1, 1, 1, 1, 1, 1, 1, 0, 0, 0, 0, 0] (byteRuns [(0, 12)]) ++
  dht 0x11 [0, 2, 1, 2, 4, 4, 3, 4, 7, 5, 4, 4, 0, 1, 2, 0x77] chromaAc
/-- Bytes of the restart header of a JPEG packet. -/
def jpegRestart (l : List Byte) : Nat := if 64 ≤ pbyte l 4 then 4 else 0
/-- Bytes of the quantisation table header and tables of a JPEG packet. -/
def jpegTables (l : List Byte) : Nat := if 128 ≤ pbyte l 5 ∧ jpegOfs l = 0 then 4 + jpegQLen l else 0
/-- The scan data of a JPEG packet. -/
def jpegScan (l : List Byte) : List Byte := l.drop (8 + jpegRestart l + jpegTables l)
/-- SOI, DQT, a restart interval, SOF0, DHT and SOS of a JPEG picture from its first packet. -/
def jpegHeaders (l : List Byte) : List Byte :=
  let q := pbyte l 5
  let tables := l.drop (8 + jpegRestart l + 4)
  let quant := if q < 128 then [scaledQuant q lumaQuant, scaledQuant q chromaQuant] else (List.range (jpegQLen l / 64)).map fun i => (tables.drop (64 * i)).take 64
  [0xFF, 0xD8] ++ (enum quant 0).flatMap (fun t => dqt t.1 t.2) ++ (if 64 ≤ pbyte l 4 then [0xFF, 0xDD, 0, 4] ++ (l.drop 8).take 2 else []) ++
    [0xFF, 0xC0, 0, 17, 8] ++ beBytes 2 (8 * pbyte l 7) ++ beBytes 2 (8 * pbyte l 6) ++
    [3, 0, if pbyte l 4 % 64 = 0 then 0x21 else 0x22, 0, 1, 0x11, 1, 2, 0x11, 1] ++ jpegHuffman ++ [0xFF, 0xDA, 0, 12, 3, 0, 0, 1, 0x11, 2, 0x11, 0, 63, 0]

/-- The bytes of an access unit from the payloads of its packets in sequence order: a byte stream of Annex B, the OBUs of a temporal unit, or a
JPEG picture. -/
def unitBytes (c : Nat) (ps : List (List Byte)) : List Byte :=
  match c with
  | 0 => ps.flatMap h264Bytes
  | 1 => ps.flatMap h265Bytes
  | 2 => (ps.foldl joinObus []).flatMap sizedObu
  | _ => jpegHeaders (ps.headD []) ++ ps.flatMap jpegScan

end Sys2Proof.Machine
end

