-- ==== Sys2Proof/Machine/Ingest.lean ====
section
/-! DEFINITION. Stream ingest: RTP reception, capture time, the jitter buffer, losses, sessions and the stream table (R249 to R271). -/
set_option autoImplicit false
namespace Sys2Proof.Machine
open Sys2Proof

/-! ## Streams (R265, R268, R272) -/

/-- The receiver of a stream. -/
def strm (s : Dev) (st : Nat) : Strm := mget (fun _ => {}) s.ing.strms st
/-- Set it. -/
def setStrm (st : Nat) (q : Strm) (s : Dev) : Dev := { s with ing := { s.ing with strms := mset (fun _ => {}) s.ing.strms st q } }
/-- Change it. -/
def modStrm (st : Nat) (f : Strm → Strm) (s : Dev) : Dev := setStrm st (f (strm s st)) s
/-- ING_S_STATE.STATE: 0 OFF, 1 OPENING, 2 WAIT_SR, 3 RUN, 4 SILENT, 5 SSRC_HOLD, 6 SESSION_LOST. -/
def sState (s : Dev) (st : Nat) : Nat := rf s (Reg.ING_S_STATE st) 0 3
/-- Enter a state. -/
def putSState (st v : Nat) (s : Dev) : Dev := wf (Reg.ING_S_STATE st) 0 3 v s
/-- The state of a stream whose media may flow: SSRC_HOLD, WAIT_SR, or RUN. -/
def flowState (s : Dev) (st : Nat) : Nat :=
  if (strm s st).hold then 5 else if stF s st 0 14 1 == 1 && (strm s st).sr.isNone && (strm s st).o.isNone then 2 else 3
/-- PORT of a stream. -/
def stPort (s : Dev) (st : Nat) : Nat := stF s st 0 2 2
/-- SESSION_MODE: host-assisted. -/
def stHost (s : Dev) (st : Nat) : Bool := stF s st 0 1 1 == 1
/-- CT_OFS in ns. -/
def stCtOfs (s : Dev) (st : Nat) : Int := toSigned (stF s st 5 0 32) 32
/-- The bytes of a stream's jitter buffer. -/
def jbBytes (s : Dev) (st : Nat) : Nat := stF s st 6 0 20 * 4096
/-- Where it lies. -/
def jbBase (s : Dev) (st : Nat) : Nat := stF s st 7 0 32 * 256
/-- A counter of a stream (Table 10-8). -/
def sCount (f : Nat → Nat) (st n : Nat) (s : Dev) : Dev := bump (f st) n s
/-- An event of ingest with ING_FAULT_INFO: `ev` its number there, 0 for events that it does not hold. -/
def ingFault (bit ev st : Nat) (s : Dev) : Dev :=
  let info := st + ev * 2 ^ 9
  s |> whenS (decide (ev ≠ 0)) (wrN Reg.ING_FAULT_INFO info) |> raiseFor (0x0900 + bit) st info st
/-- Whether ingest matches streams: enabled, and neither in ebb nor entering or leaving it (R271, R431). -/
def ingMatches (s : Dev) : Bool := tst s Reg.ING_CTRL 0 && ebbState s == 0
/-- Whether a port receives: enabled, link up, and in ebb the port kept up (R271). -/
def portRuns (s : Dev) (p : Nat) : Bool := tst s (Reg.ING_PORT_CFG p) 0 && tst s (Reg.ING_PORT_STATUS p) 0 && (ebbState s != 2 || p == rf s Reg.ING_CTRL 1 1)
/-- A port's link goes down (R250): ING_LINK_DOWN, and the port shows neither link nor FEC lock. -/
def portLinkDown (p : Nat) (s : Dev) : Dev :=
  if !(tst s (Reg.ING_PORT_STATUS p) 0) then s
  else s |> wf (Reg.ING_PORT_STATUS p) 0 2 0 |> wrN Reg.ING_FAULT_INFO (6 * 2 ^ 9) |> raise 0x0905 p (6 * 2 ^ 9)
/-- A number of nanoseconds as a 64-bit time. -/
def asTime (i : Int) : Nat := ofSigned i 64
/-- RTP ticks in ns, rounded down (R258, R259). -/
def ticksNs (t : Int) : Int := t * 1000000000 / 90000
/-- Queries that wait for a picture of a stream are closed (R314). -/
def closeQueries (st : Nat) (s : Dev) : Dev :=
  forS ((List.range 1024).filter fun q => rf s (Reg.SEQ_TABLE q 0) 0 3 == 1 && (sqX s q).imgs.any fun i => i.1 == st) endSeq s

/-! ## Sequence numbers (R255) -/

/-- What the algorithm of RFC 3550 A.1 answers: the receiver, the extended number of an accepted packet, whether a probation starts
again, whether the sequence is re-based. -/
structure SeqStep where
  q : Strm
  seq : Option Nat := none
  again : Bool := false
  rebased : Bool := false
/-- Extended numbers of a new base begin above every earlier one, more than 2^16 away. -/
def newEpoch (q : Strm) : Strm := { q with epoch := ((q.epoch + q.cycles + q.maxSeq) / 65536 + 2) * 65536, cycles := 0 }
/-- The first packet of a source starts a probation of MIN_SEQUENTIAL = 2. -/
def seqStart (q : Strm) (n : Nat) : Strm := { newEpoch q with started := true, maxSeq := n, probation := 1, badSeq := 65537, received := 0, expPrior := 0, recPrior := 0 }
/-- The algorithm, with MAX_DROPOUT 3,000 and MAX_MISORDER 100. -/
def seqStep (q : Strm) (n : Nat) : SeqStep :=
  let d := (n + 65536 - q.maxSeq) % 65536
  let fwd : Strm := { q with maxSeq := n, cycles := if n < q.maxSeq then q.cycles + 65536 else q.cycles }
  if !q.started then
    let q := seqStart q n
    { q, seq := some (q.epoch + n) }
  else if q.probation ≠ 0 then
    if d = 1 then
      let q : Strm := if q.probation = 1 then { fwd with probation := 0, baseSeq := fwd.cycles + n, badSeq := 65537, received := 1, expPrior := 0, recPrior := 0 }
        else { fwd with probation := q.probation - 1 }
      { q, seq := some (q.epoch + q.cycles + n) }
    else
      let q : Strm := { newEpoch q with maxSeq := n, probation := 1 }
      { q, seq := some (q.epoch + n), again := true }
  else if d < 3000 then { q := { fwd with received := q.received + 1 }, seq := some (fwd.epoch + fwd.cycles + n) }
  else if d ≤ 65536 - 100 then
    if n = q.badSeq then
      let q : Strm := { newEpoch q with maxSeq := n, baseSeq := n, badSeq := 65537, received := 1, expPrior := 0, recPrior := 0 }
      { q, seq := some (q.epoch + n), rebased := true }
    else { q := { q with badSeq := (n + 1) % 65536 } }
  else { q := { q with received := q.received + 1 }, seq := some (q.epoch + q.cycles + n - if q.maxSeq < n then 65536 else 0) }
/-- The packets stored under a failed probation are discarded, each counted (R255). -/
def dropProbation (st from_ : Nat) (s : Dev) : Dev :=
  let q := strm s st
  let gone := q.pkts.filter fun p => decide (from_ ≤ p.seq)
  let keep := q.pkts.filter fun p => decide (p.seq < from_)
  s |> setStrm st { q with pkts := keep, units := q.units.filter fun u => keep.any fun p => p.ts == u.ts } |> sCount Reg.ING_S_DROP_CNT st gone.length
/-- Extend a 32-bit timestamp by its signed difference from the largest seen, or from that of the sender report. -/
def extendTs (q : Strm) (ts : Nat) : Int :=
  match (if q.tsMax.isSome then q.tsMax else q.srTs) with
  | some m => m + toSigned (ofSigned ((ts : Int) - m) 32) 32
  | none => ts

/-! ## What the jitter buffer releases next (R257, R262, R264) -/

/-- What stands at the head of a jitter buffer: a placeholder with its timestamp, or a unit with its packets. -/
inductive JHead where
  | ph (ts : Int) (u : JUnit)
  | unit (u : JUnit) (ps : List JPkt)
  deriving DecidableEq, Repr
/-- Whether two extended numbers belong to one base. -/
def sameBase (a b : Nat) : Bool := decide (b < a + 32768)
/-- Placeholders between the unit released last and the unit that begins at `first` with timestamp `ts`: none without a sequence gap,
across a re-basing, or across a silence. -/
def phCount (q : Strm) (fps first : Nat) (ts : Int) : Nat :=
  match q.lastSeq with
  | none => 0
  | some l =>
    let hush := match q.quiet with
      | some k => decide (l ≤ k) && decide (k < first)
      | none => false
    if decide (first ≤ l + 1) || !(sameBase l first) || hush then 0
    else ((2 * (ts - q.lastTs) * fps + 9000000) / 18000000 - 1).toNat
/-- The head, in decode order: the unit of the lowest sequence number, after the placeholders before it. -/
def jHead (s : Dev) (st : Nat) : Option JHead :=
  let q := strm s st
  match q.pkts with
  | [] => none
  | p :: _ => match q.units.find? fun u => u.ts == p.ts with
    | none => none
    | some u =>
      let fps := max 1 (stFps s st)
      if q.phs.length < phCount q fps p.seq p.ts then some (.ph (q.lastTs + (2 * (q.phs.length + 1) * 9000000 + fps) / (2 * fps)) u)
      else some (.unit u (q.pkts.filter fun x => x.ts == u.ts))
/-- Whether numbers follow each other. -/
def consecutive : List JPkt → Bool
  | a :: b :: r => b.seq == a.seq + 1 && consecutive (b :: r)
  | _ => true
/-- Whether every fragment is whole: a packet begins a NAL unit, OBU or scan exactly where the previous one closed it. -/
def fragsWhole : Bool → List JPkt → Bool
  | open_, [] => !open_
  | open_, p :: r => (p.opens == !open_) && fragsWhole (!p.closes) r
/-- The number at which a unit ends: that of its marker, or the one below the first packet of a later timestamp; its last packet when
neither is known. -/
def unitEnd (q : Strm) (ps : List JPkt) : Nat × Bool :=
  let last := (ps.getLast?.map (·.seq)).getD 0
  match ps.find? (·.marker) with
  | some m => (m.seq, true)
  | none => match q.pkts.find? fun p => decide (last < p.seq) && sameBase last p.seq with
    | some p => (p.seq - 1, true)
    | none => (last, false)
/-- R257: whether a unit is complete. -/
def unitWhole (q : Strm) (ps : List JPkt) : Bool :=
  let first := (ps.head?.map (·.seq)).getD 0
  let e := unitEnd q ps
  let follows := match q.lastSeq with
    | none => true
    | some _ => first == q.endSeq + 1 || !(sameBase q.endSeq first) || !q.phs.isEmpty
  e.2 && follows && consecutive ps && ((ps.getLast?.map (·.seq)).getD 0 == e.1) && fragsWhole false ps
/-- Sequence numbers of a unit, and before it back to the unit released last, that were never received. -/
def missingOf (q : Strm) (ps : List JPkt) : Nat :=
  let first := (ps.head?.map (·.seq)).getD 0
  let top := (unitEnd q ps).1
  let from_ := if q.lastSeq.isSome && sameBase q.endSeq first then min (q.endSeq + 1) first else first
  top + 1 - from_ - (ps.filter fun p => decide (p.seq ≤ top)).length
/-- Units that the buffer holds, saturating, in ING_S_STATE.QUEUED. -/
def showQueued (st : Nat) (s : Dev) : Dev := wf (Reg.ING_S_STATE st) 10 16 (min 65535 (strm s st).units.length) s
/-- Take the head off the buffer: the receiver without it, and the unit as it goes to the codec queue. -/
def takeHead (st : Nat) (h : JHead) (s : Dev) : Au × Dev :=
  let q := strm s st
  match h with
  | .ph ts u =>
    let cap := asTime (ticksNs ts + u.o + stCtOfs s st)
    ({ real := false, cap, untr := u.untr }, s |> setStrm st { q with phs := q.phs ++ [ts], lastCap := some cap, lastRel := now s } |> sCount Reg.ING_S_PH_CNT st 1)
  | .unit u ps =>
    let whole := unitWhole q ps
    let cap := asTime u.cap
    let q2 : Strm := { q with pkts := q.pkts.filter fun x => x.ts != u.ts, units := q.units.filter fun x => x.ts != u.ts, lastSeq := ps.getLast?.map (·.seq), endSeq := (unitEnd q ps).1, lastTs := u.ts, lastCap := some cap, lastRel := now s, phs := [], quiet := none }
    ({ real := whole, cap, untr := u.untr },
      s |> setStrm st q2 |> sCount Reg.ING_S_LOST_CNT st (missingOf q ps) |> sCount Reg.ING_S_AU_CNT st (b2n whole) |> showQueued st)
/-- The bytes of a stored packet. -/
def pktBytes (s : Dev) (st : Nat) (p : JPkt) : List Byte := rdBytes .dram s (jbBase s st + p.addr) p.len
/-- Whether `len` bytes at `a` lie in the region and meet none of the pieces (address, length). -/
def clearOf (size len a : Nat) (l : List (Nat × Nat)) : Bool := decide (a + len ≤ size) && l.all fun p => decide (a + len ≤ p.1) || decide (p.1 + p.2 ≤ a)
/-- The first place among the ends of the pieces, after `wpos`, where `len` bytes meet none of them. -/
def holeFor (size len wpos : Nat) (l : List (Nat × Nat)) : Option Nat := (wpos :: 0 :: l.map fun p => p.1 + p.2).find? fun a => clearOf size len a l
/-- The stored packets moved together at the start of the region in sequence order, so that the free space lies in one piece. -/
def compact (st : Nat) (s : Dev) : Dev :=
  let q := strm s st
  let r := q.pkts.foldl (fun (x : List JPkt × Nat × Dev) p => (x.1 ++ [{ p with addr := x.2.1 }], x.2.1 + p.len, wrBytes .dram (jbBase s st + x.2.1) (pktBytes s st p) x.2.2)) ([], 0, s)
  setStrm st { q with pkts := r.1, wpos := r.2.1 } r.2.2
/-- The places of the stored packets. -/
def pktPlaces (q : Strm) : List (Nat × Nat) := q.pkts.map fun p => (p.addr, p.len)
/-- The places of the stream's units that wait for their decoding. -/
def unitPlaces (s : Dev) (st : Nat) : List (Nat × Nat) :=
  let key := stEngine s st * 32 + stCtx s st
  let busy := match (cdcOf s (key / 32)).busy with | some b => (if b.ctx = key % 32 then b.au.toList else []) | none => []
  (busy ++ (ctxOf s key).queue).filterMap fun a => if decide (jbBase s st ≤ a.addr) && a.len != 0 then some (a.addr - jbBase s st, a.len) else none
/-- The assembled unit is laid in the region (log entry 64): clear of stored packets and of units that wait, else of stored packets, which are
moved together if need be. Answers its device address. -/
def layUnit (st : Nat) (l : List Byte) (s : Dev) : Nat × Dev :=
  let size := jbBytes s st
  let q := strm s st
  let at_ (a : Nat) (s : Dev) : Nat × Dev := (jbBase s st + a, wrBytes .dram (jbBase s st + a) l s)
  match (holeFor size l.length q.wpos (pktPlaces q ++ unitPlaces s st)).or (holeFor size l.length q.wpos (pktPlaces q)) with
  | some a => at_ a s
  | none => (let s := compact st s
    let w := (strm s st).wpos
    if w + l.length ≤ size then at_ w s else (jbBase s st + w, s))
/-- The head goes to its context's queue; the packets of a complete unit are assembled (R256). -/
def releaseJ (st : Nat) (h : JHead) (s : Dev) : Dev :=
  let r := takeHead st h s
  let l := match h with
    | .unit _ ps => if r.1.real then unitBytes (stF s st 0 8 2) (ps.map (pktBytes s st)) else []
    | .ph _ _ => []
  if l.isEmpty then enqueueUnit st r.1 r.2
  else
    let x := layUnit st l r.2
    enqueueUnit st { r.1 with addr := x.1, len := l.length } x.2
/-- The release time of the head (R262). -/
def releaseTime (s : Dev) (st : Nat) (h : JHead) : Nat :=
  let u := match h with
    | .ph _ u => u
    | .unit u _ => u
  let cap : Int := match h with
    | .ph ts u => ticksNs ts + u.o + stCtOfs s st
    | .unit u _ => u.cap
  max (cap + u.delay).toNat (max (strm s st).lastRel u.at_)
/-- JB_RELEASE (R262): the head unit of a stream reaches its release time. -/
def jbRelease (st : Nat) (s : Dev) : Dev :=
  match jHead s st with
  | none => s
  | some h => s |> waitUntil (releaseTime s st h) |> releaseJ st h
/-- JB_RELEASE (R262). -/
def execJbRelease (st : Fin 512) (s : State) : Result := onDev (jbRelease st) s
/-- Units leave early until the free space holds a packet of `len` bytes (R263). -/
def makeRoom (st len : Nat) : Nat → Dev → Dev
  | 0, s => s
  | n + 1, s =>
    if sumN ((strm s st).pkts.map (·.len)) + len ≤ jbBytes s st then s
    else match jHead s st with
      | none => s
      | some h => makeRoom st len n (s |> sCount Reg.ING_S_EARLY_CNT st 1 |> releaseJ st h)
/-- Unreleased units are discarded, each reported with reason dropped (R269). -/
def flushJ (st : Nat) : Nat → Dev → Dev
  | 0, s => s
  | n + 1, s => match jHead s st with
    | none => s
    | some h =>
      let r := takeHead st h s
      flushJ st n (gap1 st .dropped 0xFF 0xFF r.1.cap r.1.untr { s with ing := r.2.ing })

/-! ## Capture time (R259, R260) -/

/-- The offset for a new unit with timestamp `ts` whose first packet arrives now, and whether TS_JUMP is due. -/
def nextOffset (s : Dev) (st : Nat) (ts : Int) : Int × Bool :=
  let q := strm s st
  match q.o with
  | none => (match q.sr with | some x => x | none => (now s : Int) - ticksNs ts, false)
  | some o => match q.sr, q.tsMax with
    | some x, some m =>
      if ts ≤ m then (o, false)
      else
        let d := x - o
        let lim : Int := rf s Reg.ING_SR_STEP_LIM 0 20 * 1000
        if lim < d then (x, false)
        else
          let step := ticksNs (ts - m) / 2000
          (o + clampI d (-step) step, decide (d < -lim))
    | _, _ => (o, false)
/-- A packet begins a unit: the offset is settled and the capture time fixed. -/
def beginUnit (st : Nat) (ts : Int) (s : Dev) : Dev :=
  let r := nextOffset s st ts
  let q := strm s st
  let u : JUnit := { ts, cap := ticksNs ts + r.1 + stCtOfs s st, o := r.1, untr := untraceable s, at_ := now s, delay := stF s st 3 0 8 * 1000000 }
  s |> setStrm st { q with o := some r.1, units := q.units ++ [u], jump := q.jump || r.2 } |> wr64 (Reg.ING_S_OFS_LO st) (ofSigned r.1 64)
    |> showQueued st |> whenS (r.2 && !q.jump) (ingFault 6 0 st)

/-! ## Media packets (R253, R255, R256, R263, R264) -/

/-- A place for a packet that the free space holds: a hole clear of units that wait, if there is one, or of stored packets, at the end of the
last one if it can be; without a hole the stored packets are moved together. -/
def placePkt (st len : Nat) (s : Dev) : Nat × Dev :=
  let q := strm s st
  let size := jbBytes s st
  match (holeFor size len q.wpos (pktPlaces q ++ unitPlaces s st)).or (holeFor size len q.wpos (pktPlaces q)) with
  | some a => (a, s)
  | none => (let s := compact st s
    ((strm s st).wpos, s))
/-- Whether a packet belongs to a unit already released (Table 10-5). -/
def isLate (q : Strm) (seq : Nat) (ts : Int) : Bool :=
  match q.lastSeq with
  | none => false
  | some l => decide (seq ≤ max l q.endSeq) || ts == q.lastTs || q.phs.contains ts
/-- An accepted packet is stored; one whose region its port does not reach is lost as on the wire (R325, R345). -/
def storePkt (st seq : Nat) (ts : Int) (p : RtpPkt) (oc : Bool × Bool) (s : Dev) : Dev :=
  let q := strm s st
  let len := p.payload.length
  if isLate q seq ts then sCount Reg.ING_S_LATE_CNT st 1 s
  else if q.pkts.any fun x => x.seq == seq then sCount Reg.ING_S_DUP_CNT st 1 s
  else if jbBytes s st < len then sCount Reg.ING_S_DROP_CNT st 1 s
  else if q.discard.contains ts then s
  else if stF s st 0 14 1 = 1 ∧ q.o = none ∧ q.sr = none then
    s |> modStrm st (fun q => { q with discard := q.discard ++ [ts] }) |> gap1 st .dropped 0xFF 0xFF (asTime ((now s : Int) + stCtOfs s st)) (untraceable s)
  else
    let s := makeRoom st len 65536 s
    let reach := dramReach s (stPort s st / 2) (jbBase s st) (jbBytes s st)
    if reach.isSome then (reach.map (reportReach · s)).getD s
    else if isLate (strm s st) seq ts then sCount Reg.ING_S_LATE_CNT st 1 s
    else
      let s := if (strm s st).units.any fun u => u.ts == ts then s else beginUnit st ts s
      let x := placePkt st len s
      let a := x.1
      let s := x.2
      let q := strm s st
      let k : JPkt := { seq, ts, marker := p.marker, opens := oc.1, closes := oc.2, addr := a, len }
      s |> setStrm st { q with pkts := insertBy (fun a b => decide (a.seq < b.seq)) k q.pkts, wpos := a + len, tsMax := some (match q.tsMax with | some m => max m ts | none => ts) }
        |> wrBytes .dram (jbBase s st + a) p.payload |> sCount Reg.ING_S_RX_CNT st 1
/-- RFC 3550 A.8: the jitter estimate, in sixteenths of a tick. -/
def jitterStep (st : Nat) (ts : Int) (s : Dev) : Dev :=
  let q := strm s st
  let tr := (now s : Int) * 90000 / 1000000000 - ts
  let j := match q.transit with
    | some x => q.jitter + (tr - x).natAbs - (q.jitter + 8) / 16
    | none => q.jitter
  s |> setStrm st { q with transit := some tr, jitter := j } |> wrN (Reg.ING_S_JITTER st) (j / 16)
/-- A packet with the stream's SSRC: its number and timestamp are extended, its payload is looked at, and it is stored. -/
def acceptRtp (st : Nat) (p : RtpPkt) (s : Dev) : Dev :=
  let old := (strm s st).epoch
  let r := seqStep (strm s st) (p.seq % 65536)
  let s := setStrm st { r.q with src := p.src } s
  let s := if r.again then dropProbation st old s else s
  let s := if r.rebased then ingFault 7 0 st s else s
  match r.seq with
  | none => sCount Reg.ING_S_DROP_CNT st 1 s
  | some n =>
    let ts := extendTs (strm s st) p.ts
    let s := jitterStep st ts s
    match classify (stF s st 0 8 2) p with
    | none => s |> sCount Reg.ING_S_DROP_CNT st 1 |> ingFault 1 2 st
    | some oc => storePkt st n ts p oc s
/-- The SSRC in use: the entry's, or the one learned; none while it is to be learned. -/
def ssrcOf (s : Dev) (st : Nat) : Option Nat :=
  if stF s st 2 0 32 ≠ 0 then some (stF s st 2 0 32) else if tst s (Reg.ING_S_STATE st) 4 then some (rdN s (Reg.ING_S_SSRC st)) else none
/-- A media packet ends a silence (R265). -/
def heard (st : Nat) (s : Dev) : Dev :=
  let q := strm s st
  let s := setStrm st { q with lastPkt := now s, silent := false } s
  if q.silent then putSState st (flowState s st) s else s
/-- RTP_MEDIA_PACKET (R253, R255). -/
def rtpMediaPacket (st : Nat) (p : RtpPkt) (s : Dev) : Dev :=
  if !(portRuns s (stPort s st)) then s
  else if !(stValid s st) || !(ingMatches s) then bump (Reg.ING_PORT_NOMATCH_CNT (stPort s st)) 1 s
  else
    let s := heard st s
    if p.ver ≠ 2 ∨ p.pt ≠ stF s st 0 16 7 then sCount Reg.ING_S_DROP_CNT st 1 s
    else match ssrcOf s st with
      | none => s |> setB (Reg.ING_S_STATE st) 4 true |> wrN (Reg.ING_S_SSRC st) p.ssrc |> acceptRtp st p
      | some x =>
        if x = p.ssrc % 2 ^ 32 then s |> wrN (Reg.ING_S_SSRC st) x |> acceptRtp st p
        else
          let s := sCount Reg.ING_S_DROP_CNT st 1 s
          if stF s st 2 0 32 ≠ 0 ∨ (strm s st).hold then s
          else s |> modStrm st (fun q => { q with hold := true }) |> putSState st 5 |> ingFault 2 3 st
/-- RTP_MEDIA_PACKET (R255): a media packet that matches stream `st` by R253. -/
def execRtpMediaPacket (st : Fin 512) (p : RtpPkt) (s : State) : Result := onDev (rtpMediaPacket st p) s

/-! ## RTCP (R258, R261) -/

/-- The offset of a sender report (R258). -/
def srOffset (s : Dev) (st sec frac : Nat) (ts : Int) : Int :=
  let utc : Int := if stF s st 0 13 1 = 0 then toSigned (rf s Reg.TIDE_UTC_OFS 0 16) 16 else 0
  ((sec : Int) - 2208988800 + utc) * 1000000000 + frac * 1000000000 / 2 ^ 32 - ticksNs ts
/-- Whether an RTCP packet reaches the receiver of a stream. -/
def rtcpHears (s : Dev) (st : Nat) : Bool := portRuns s (stPort s st) && stValid s st && ingMatches s
/-- RTCP_SENDER_REPORT (R258, R260). -/
def senderReport (st ssrc sec frac rtp : Nat) (s : Dev) : Dev :=
  if !(portRuns s (stPort s st)) then s
  else if !(rtcpHears s st) then bump (Reg.ING_PORT_NOMATCH_CNT (stPort s st)) 1 s
  else if ssrcOf s st ≠ some ssrc then s
  else
    let ts := extendTs (strm s st) rtp
    let s := s |> modStrm st (fun q => { q with sr := some (srOffset s st sec frac ts), srTs := some ts, jump := false, lsr := some (sec % 65536 * 65536 + frac / 65536 % 65536, now s) })
      |> setB (Reg.ING_S_STATE st) 3 true
    if sState s st = 2 then putSState st 3 s else s
/-- RTCP_SENDER_REPORT (R258). -/
def execRtcpSenderReport (st : Fin 512) (ssrc sec frac rtp : Nat) (s : State) : Result := onDev (senderReport st ssrc sec frac rtp) s
/-- A session ends otherwise than by a command (R266). -/
def sessionLost (st : Nat) (s : Dev) : Dev := s |> modStrm st (fun q => { q with tcp := none }) |> putSState st 6 |> ingFault 3 4 st
/-- RTCP_BYE (R258). -/
def rtcpBye (st : Nat) (s : Dev) : Dev :=
  if !(portRuns s (stPort s st)) then s
  else if !(rtcpHears s st) then bump (Reg.ING_PORT_NOMATCH_CNT (stPort s st)) 1 s else sessionLost st s
/-- RTCP_BYE (R258). -/
def execRtcpBye (st : Fin 512) (s : State) : Result := onDev (rtcpBye st) s
/-- RTCP_RECEIVER_REPORT (R261): RR_INTERVAL after the last one, to the stream's source at RTCP_PORT, or RTP_PORT under RTCP_MUX: fraction lost,
cumulative lost, extended highest number, jitter, LSR and DLSR of RFC 3550. -/
def receiverReport (st : Nat) (s0 : Dev) : Dev :=
  let q := strm s0 st
  let s := waitUntil (q.rrAt + rf s0 Reg.ING_CTRL 8 8 * 1000000000) s0
  if rf s Reg.ING_CTRL 8 8 = 0 ∨ !(rtcpHears s st) ∨ !q.started ∨ q.probation ≠ 0 then s0
  else
    let expected := q.cycles + q.maxSeq + 1 - q.baseSeq
    let de := expected - q.expPrior
    let lostI : Int := (de : Int) - ((q.received : Int) - q.recPrior)
    let frac := if de = 0 ∨ lostI ≤ 0 then 0 else lostI.toNat * 256 / de
    let cum := ofSigned (clampI ((expected : Int) - q.received) (-(2 ^ 23)) (2 ^ 23 - 1)) 24
    let l := match q.lsr with | some x => (x.1, (now s - x.2) * 65536 / 1000000000) | none => (0, 0)
    s |> setStrm st { q with expPrior := expected, recPrior := q.received, rrAt := now s }
      |> send (.rtcp st (stPort s st) q.src (stF s st 1 (if stF s st 0 6 1 = 1 then 0 else 16) 16) [(ssrcOf s st).getD 0, frac, cum, (q.cycles + q.maxSeq) % 2 ^ 32, q.jitter / 16, l.1, l.2]) |> bump (Reg.ING_PORT_TX_CNT (stPort s st)) 1
/-- RTCP_RECEIVER_REPORT (R261). -/
def execRtcpReceiverReport (st : Fin 512) (s : State) : Result := onDev (receiverReport st) s

/-! ## Silence (R265) -/

/-- A stream becomes SILENT: one gap record names the span that follows its last released unit. -/
def goSilent (st : Nat) (s : Dev) : Dev :=
  let q := strm s st
  let first := match q.lastCap with
    | some c => c + 1
    | none => now s - rf s Reg.ING_SILENT_LIM 0 16 * 1000000
  s |> setStrm st { q with silent := true, quiet := some (q.epoch + q.cycles + q.maxSeq), lastCap := none } |> putSState st 4 |> ingFault 4 5 st
    |> gap st .lost 0xFF 0xFF (max 1 ((now s - first) * stFps s st / 100000000000)) first (now s) (untraceable s) |> closeQueries st
/-- Whether a stream is silent: health records name it until its next media packet. -/
def isSilent (s : Dev) (st : Nat) : Bool := stValid s st && (strm s st).silent
/-- STREAM_SILENT (R265): no media packet for ING_SILENT_LIM; never in ebb (R271). -/
def streamSilent (st : Nat) (s : Dev) : Dev :=
  if !(stValid s st) || (strm s st).silent || ebbState s != 0 then s
  else s |> waitUntil ((strm s st).lastPkt + rf s Reg.ING_SILENT_LIM 0 16 * 1000000) |> goSilent st
/-- STREAM_SILENT (R265). -/
def execStreamSilent (st : Fin 512) (s : State) : Result := onDev (streamSilent st) s

/-! ## Entry commands (R266 to R270) -/

/-- ING_ENTRY_RESULT. -/
def entryResult (code st : Nat) (s : Dev) : Dev := wrN Reg.ING_ENTRY_RESULT (code + st * 8) s
/-- The words that ING_STAGE holds. -/
def stagedWords (s : Dev) : List Word := (List.range 32).map fun i => mget regReset s.regs (Reg.ING_STAGE i)
/-- COMMIT: the words are captured and wait for the mark; an earlier COMMIT of the stream that waits is replaced. -/
def commitCmd (st : Nat) (s : Dev) : Dev :=
  let others := s.held.filter fun h => match h with
    | .commit x _ => x != st
    | _ => true
  entryResult 1 st { s with held := others ++ [.commit st (stagedWords s)] }
/-- COMMIT (R269). -/
def execCommit (st : Fin 512) (s : State) : Result := onDev (commitCmd st) s
/-- DISABLE (R269). -/
def disableCmd (st : Nat) (s : Dev) : Dev := entryResult 1 st { s with held := s.held ++ [.disable st] }
/-- DISABLE (R269): held to the next mark. -/
def execDisable (st : Fin 512) (s : State) : Result := onDev (disableCmd st) s
/-- A field of a staged entry. -/
def wF (ws : List Word) (w lo len : Nat) : Nat := bits (ws.getD w 0).toNat lo len
/-- The words of an entry, in the bits that say where media of a stream is received. -/
def entryKey (ws : List Word) : List Nat := [wF ws 0 2 2, wF ws 0 4 1, wF ws 8 0 32] ++ (if wF ws 0 4 1 = 1 then [wF ws 9 0 32, wF ws 10 0 32, wF ws 11 0 32] else []) ++ [wF ws 1 0 16]
/-- An entry of the table. -/
def entryWords (s : Dev) (st : Nat) : List Word := (List.range 32).map fun i => mget regReset s.regs (Reg.ING_TABLE st i)
/-- An entry with the fields cleared that a COMMIT of a valid entry may change. -/
def fixedPart (ws : List Word) : List Nat :=
  (List.range 32).map fun i =>
    let w := (ws.getD i 0).toNat
    match i with
    | 0 => putBits (putBits w 10 2 0) 12 1 0
    | 3 => 0
    | 4 => putBits w 9 7 0
    | 5 => 0
    | _ => w
/-- The check of a COMMIT at the mark (R269): 0, or the refusal of Table 10-8. -/
def commitCheck (s : Dev) (st : Nat) (ws : List Word) : Nat :=
  let f := wF ws
  let key := f 4 0 4 * 32 + f 4 4 5
  let die := f 4 0 4 / 8
  let base := f 7 0 32 * 256
  let size := f 6 0 20 * 4096
  if f 0 15 1 ≠ 0 ∨ f 0 23 9 ≠ 0 ∨ f 3 12 12 ≠ 0 ∨ f 6 20 12 ≠ 0 ∨ f 16 16 16 ≠ 0 ∨ (List.range 15).any (fun i => f (17 + i) 0 32 != 0)
      ∨ f 1 0 16 = 0 ∨ 200 < f 3 0 8 ∨ f 3 8 4 = 0 ∨ f 4 16 16 < 100 ∨ 12000 < f 4 16 16 ∨ size = 0 ∨ 262144 * 4096 ≤ size then 2
  else if !(ctxValid s key) ∨ ctxEncodes s key ∨ ctxStream s key ≠ st ∨ ctxCodec s key ≠ f 0 8 2 then 3
  else if base < die * 2 ^ 34 ∨ (die + 1) * 2 ^ 34 < base + size then 4
  else if (List.range 512).any (fun x => x != st && stValid s x && entryKey (entryWords s x) == entryKey ws) then 5
  else if stValid s st ∧ fixedPart ws ≠ fixedPart (entryWords s st) then 6
  else 0
/-- An address of a stream-table entry: DST_ADDR from word 8 on, SRC_ADDR from word 12 on. -/
def stAddr (s : Dev) (st w : Nat) : Nat :=
  if stF s st 0 4 1 = 1 then (List.range 4).foldl (fun a i => a * 2 ^ 32 + stF s st (w + i) 0 32) 0 else stF s st w 0 32
/-- Ziltur joins or leaves the group of a stream's entry on its port (R254): IGMPv3 or MLDv2, with source filtering if SRC_FILTER is set. -/
def groupMsg (join : Bool) (st : Nat) (s : Dev) : Dev :=
  if stF s st 0 5 1 = 1 then
    s |> send (.group (stPort s st) join (stF s st 0 4 1 == 1) (stAddr s st 8) (if stF s st 0 7 1 = 1 then some (stAddr s st 12) else none))
      |> bump (Reg.ING_PORT_TX_CNT (stPort s st)) 1
  else s
/-- Whether another valid entry keeps the group of a stream's entry joined on its port. -/
def groupKept (s : Dev) (st : Nat) : Bool :=
  (List.range 512).any fun x => x != st && stValid s x && stF s x 0 5 1 == 1 && stPort s x == stPort s st && stAddr s x 8 == stAddr s st 8 && stF s x 0 4 1 == stF s st 0 4 1
/-- RTSP_SESSION_OPEN is due for a hardware-mode stream; a host-assisted one runs at once. -/
def openStream (st : Nat) (s : Dev) : Dev :=
  s |> setStrm st { lastPkt := now s, rrAt := now s, epoch := (strm s st).epoch + 65536 } |> wrN (Reg.ING_S_STATE st) 0 |> wrN (Reg.ING_S_SSRC st) (stF s st 2 0 32) |> wr64 (Reg.ING_S_OFS_LO st) 0
    |> (fun s => putSState st (if stHost s st then flowState s st else 1) s)
/-- An RTSP request of a stream's session leaves its port (R266). -/
def rtspSend (st : Nat) (m : String) (s : Dev) : Dev := s |> send (.rtsp st m) |> bump (Reg.ING_PORT_TX_CNT (stPort s st)) 1
/-- Write an entry. -/
def putEntry (st : Nat) (ws : List Word) (s : Dev) : Dev := forS (List.range 32) (fun i => wrN (Reg.ING_TABLE st i) (ws.getD i 0).toNat) s
/-- A COMMIT takes effect at the mark, or is refused with ING_CFG_INVALID. -/
def applyCommit (st : Nat) (ws : List Word) (s : Dev) : Dev :=
  let code := commitCheck s st ws
  let s := entryResult code st s
  if code ≠ 0 then ingFault 0 1 st s
  else
    let was := stValid s st
    let s := putEntry st ws s
    if !was && stValid s st then s |> openStream st |> groupMsg true st else s
/-- A DISABLE takes effect at the mark: matching stops, unreleased units are reported, the session is torn down. -/
def applyDisable (st : Nat) (s : Dev) : Dev :=
  let s := entryResult 0 st s
  if !(stValid s st) then s
  else
    s |> flushJ st 65536 |> closeQueries st |> whenS (!(stHost s st)) (rtspSend st "TEARDOWN") |> whenS (!(groupKept s st)) (groupMsg false st) |> wf (Reg.ING_TABLE st 0) 0 1 0
      |> modStrm st (fun q => { epoch := q.epoch + q.cycles + 65536 }) |> wrN (Reg.ING_S_STATE st) 0
/-- RESYNC (R270): a learned SSRC is forgotten and sequence extension restarts; the offset stays. -/
def resync (st : Nat) (s : Dev) : Dev :=
  let s := s |> modStrm st (fun q => { q with started := false, hold := false }) |> whenS (decide (stF s st 2 0 32 = 0)) (fun s => s |> setB (Reg.ING_S_STATE st) 4 false |> wrN (Reg.ING_S_SSRC st) 0)
    |> ingFault 7 0 st
  if sState s st = 5 then putSState st (flowState s st) s else s
/-- RESYNC by command: refused for an entry that is not valid. -/
def resyncCmd (st : Nat) (s : Dev) : Dev := if stValid s st then s |> resync st |> entryResult 0 st else entryResult 7 st s
/-- RESYNC (R270). -/
def execResync (st : Fin 512) (s : State) : Result := onDev (resyncCmd st) s
/-- REOPEN (R266): Ziltur opens the session of a hardware-mode stream again. -/
def reopen (st : Nat) (s : Dev) : Dev := putSState st 1 s
/-- Whether a REOPEN has an effect. -/
def mayReopen (s : Dev) (st : Nat) : Bool := stValid s st && !(stHost s st)
/-- REOPEN by command. -/
def reopenCmd (st : Nat) (s : Dev) : Dev := if mayReopen s st then s |> reopen st |> entryResult 0 st else entryResult 7 st s
/-- REOPEN (R266). -/
def execReopen (st : Fin 512) (s : State) : Result := onDev (reopenCmd st) s
/-- A multicast stream's group becomes the one that SETUP names: the old one is left, the new one joined (R254, R266). -/
def setupGroup (st : Nat) (dst : List Word) (s : Dev) : Dev :=
  let t := forS (List.range 4) (fun i => wrN (Reg.ING_TABLE st (8 + i)) (dst.getD i 0).toNat) s
  if stF s st 0 5 1 ≠ 1 then s
  else if stAddr t st 8 = stAddr s st 8 then t
  else s |> whenS (!(groupKept s st)) (groupMsg false st) |> forS (List.range 4) (fun i => wrN (Reg.ING_TABLE st (8 + i)) (dst.getD i 0).toNat) |> groupMsg true st
/-- RTSP_SESSION_OPEN (R266): SETUP fills SSRC, PT and, for multicast, DST_ADDR; `peer` is the session's TCP connection; SDP without a format of Table 10-4 is refused, and the
session is then lost. -/
def rtspOpen (st : Nat) (fmt : Bool) (ssrc pt : Nat) (dst : List Word) (peer : TcpEnd) (s : Dev) : Dev :=
  if !(mayReopen s st) || sState s st != 1 || ebbState s != 0 then s
  else
    let s := s |> rtspSend st "OPTIONS" |> rtspSend st "DESCRIBE"
    if !fmt then sessionLost st s
    else
      s |> rtspSend st "SETUP" |> rtspSend st "PLAY" |> wrN (Reg.ING_TABLE st 2) ssrc |> wf (Reg.ING_TABLE st 0) 16 7 pt
        |> setupGroup st dst
        |> wrN (Reg.ING_S_SSRC st) ssrc |> setB (Reg.ING_S_STATE st) 4 false |> modStrm st (fun q => { q with hold := false, tcp := some peer })
        |> (fun s => putSState st (flowState s st) s)
/-- RTSP_SESSION_OPEN (R266). -/
def execRtspSessionOpen (st : Fin 512) (fmt : Bool) (ssrc pt : Nat) (dst : List Word) (peer : TcpEnd) (s : State) : Result :=
  onDev (rtspOpen st fmt ssrc pt dst peer) s
/-- RTSP_KEEPALIVE (R266): GET_PARAMETER at half the session timeout. -/
def rtspKeepalive (st : Nat) (s : Dev) : Dev :=
  if mayReopen s st && ebbState s == 0 && [2, 3, 4, 5].contains (sState s st) then rtspSend st "GET_PARAMETER" s else s
/-- RTSP_KEEPALIVE (R266). -/
def execRtspKeepalive (st : Fin 512) (s : State) : Result := onDev (rtspKeepalive st) s
/-- ING_SESSION_LOST (R266): the server closes the connection, refuses a keep-alive or exceeds its timeout. -/
def execIngSessionLost (st : Fin 512) (s : State) : Result :=
  onDev (fun s => if mayReopen s st && sState s st != 6 && ebbState s == 0 then sessionLost st s else s) s

/-! ## Ebb (R271) -/

/-- Sessions are torn down when ebb is entered; matching has stopped. -/
def teardownAll (s : Dev) : Dev := forS ((List.range 512).filter fun st => mayReopen s st) (fun st s => s |> rtspSend st "TEARDOWN" |> modStrm st (fun q => { q with tcp := none }) |> putSState st 1) s
/-- On leaving ebb each stream restarts at R260 and its codec context at R229. -/
def restartStreams (s : Dev) : Dev :=
  forS ((List.range 512).filter (stValid s)) (fun st s => s |> openStream st |> restartCtx (stEngine s st * 32 + stCtx s st)) s

end Sys2Proof.Machine
end

