-- ==== Sys2Proof/Machine/Results.lean ====
section
/-! DEFINITION. The end of a job: results of vision jobs become records and detections (R199, R201, R297). -/
set_option autoImplicit false
namespace Sys2Proof.Machine
open Sys2Proof

/-- A slot header as read from the batch (Table 11-7). -/
structure Slot where
  i : Nat
  stream : Nat
  cls : Nat
  void : Bool
  taint : Bool
  flip : Bool
  item : Nat
  cap : Nat
  x0 : Nat
  y0 : Nat
  w : Nat
  h : Nat
  xo : Nat
  yo : Nat
  wo : Nat
  ho : Nat
  untr : Bool
  deriving DecidableEq, Repr
/-- Slot `i` of queue entry `e` of a cove. -/
def slotAt (s : Dev) (c e i : Nat) : Slot :=
  let a := entryAddr s c e + 256 + 32 * i
  let w := rdLE .dram s a 4
  let g (o : Nat) : Nat := rdLE .dram s (a + o) 2
  { i, stream := bits w 0 9, cls := bits w 9 3, void := bitOf w 12, taint := bitOf w 13, flip := bitOf w 14, item := bits w 16 16, cap := rdLE .dram s (a + 4) 8,
    x0 := g 12, y0 := g 14, w := g 16, h := g 18, xo := g 20, yo := g 22, wo := g 24, ho := g 26, untr := bitOf (g 28) 15 }
/-- Whether a slot lies in one of some ranges. -/
def inRanges (rs : List (Nat × Nat)) (i : Nat) : Bool := rs.any fun r => decide (r.1 ≤ i) && decide (i < r.1 + r.2)
/-- An FP32 value held within 0..n. -/
def clip32 (x n : Nat) : Nat := (min32 (max32f x 0).v (ofInt32 n)).v
/-- A sample coordinate in luma samples of the picture (R297). -/
def mapCoord (x o at_ n len pic : Nat) : Nat := clip32 (tadd (ofInt32 o) (tdiv (tmul (tsub x (ofInt32 at_)) (ofInt32 n)) (ofInt32 len))) pic
/-- A detection entry, mapped to the picture (R297). -/
def detOf (b : List Byte) (x : Slot) (wc : Nat) (id : FrameId) : Det :=
  let w (o : Nat) : Nat := leNat ((b.drop o).take 4)
  let fl (v : Nat) : Nat := tsub (ofInt32 wc) v
  let l := if x.flip then fl (w 8) else w 0
  let r := if x.flip then fl (w 0) else w 8
  { x0 := mapCoord l x.x0 x.xo x.w x.wo id.w, y0 := mapCoord (w 4) x.y0 x.yo x.h x.ho id.h, x1 := mapCoord r x.x0 x.xo x.w x.wo id.w, y1 := mapCoord (w 12) x.y0 x.yo x.h x.ho id.h,
    score := w 16, cls := leNat ((b.drop 20).take 2), slot := x.i, emb := ((b.drop 24).take 128).map (·.toInt), exps := ((b.drop 152).take 4).map (·.toNat) }
/-- Greedy merging in descending score (R297). -/
def mergeDets (thr : Nat) : List Det → List Det → List Det
  | [], kept => kept
  | z :: zs, kept => if kept.any fun k => k.cls == z.cls && le32 thr (iou k.box z.box) then mergeDets thr zs kept else mergeDets thr zs (kept ++ [z])
/-- The merged detections of a frame: at most 256 are kept, those beyond counted. -/
def frameDets (d : Nat) (zs : List Det) (s : Dev) : List Det × Dev :=
  let m := mergeDets (tfrac (rf s (Reg.TRK_HANDOFF d) 23 8) 8) (sortBy (fun a b => lt32 b.score a.score) zs) []
  (m.take 256, bump (Reg.TRK_DET_DROP_CNT d) (m.length - 256) s)
/-- The COUNT records of a slot, 171 entries in each. -/
def countRecs (x : Slot) (es : List (List Byte)) (s : Dev) : Dev :=
  let n := ceilDiv es.length 171
  forS (List.range n) (fun i s =>
    let part := (es.drop (171 * i)).take 171
    let body := beBytes 4 part.length ++ part.flatMap fun b => (b.drop 2).take 1 ++ (b.drop 3).take 1 ++ [0, 0] ++ ((b.drop 4).take 4).reverse
    emitRec { mkRec s 2 x.stream (if 1 < n then i else x.item) x.cap x.untr body with taint := x.taint, continued := decide (i + 1 < n) } s) s
/-- The MASK record of a result. -/
def maskRec (x : Slot) (b : List Byte) (s : Dev) : Dev :=
  let g (o : Nat) : List Byte := ((b.drop o).take 2).reverse
  let cells := min 10944 (leNat ((b.drop 3).take 2) * leNat ((b.drop 5).take 2))
  emitRec { mkRec s 3 x.stream x.item x.cap x.untr ((b.drop 2).take 1 ++ [0] ++ g 3 ++ g 5 ++ [0, 0] ++ (b.drop 16).take (ceilDiv cells 8)) with taint := x.taint } s
/-- The EVENT record of a result: the identity is that of the track it names. -/
def resultEvent (x : Slot) (b : List Byte) (s : Dev) : Dev :=
  let t := leNat ((b.drop 4).take 4)
  let ident := if t < 32768 then trkIdent s t else 0
  eventRec x.stream x.item x.cap x.untr x.taint (leNat ((b.drop 2).take 2)) (t % 65536) ident (leNat ((b.drop 8).take 4)) (leNat ((b.drop 12).take 4)) s
/-- The records of one slot. -/
def slotRecs (r : Run) (x : Slot) (s : Dev) : Dev :=
  let es (k : Nat) : List (List Byte) := (r.emits.filter fun e => e.kind == k && e.slot == x.i).map (·.body)
  s |> countRecs x (es 2) |> forS (es 3) (maskRec x) |> forS (es 4) (resultEvent x)
/-- A frame reaches its track engine with the detections of its slots. -/
def frameToTrk (r : Run) (xs : List Slot) (id : FrameId) (s : Dev) : Dev :=
  let mine := xs.filter fun x => x.stream == id.stream && x.cap == id.cap && inRanges r.covers x.i
  if mine.isEmpty then s
  else
    let d := stDie s id.stream
    let zs := mine.flatMap fun x => (r.emits.filter fun e => e.kind == 1 && e.slot == x.i).map fun e => detOf e.body x (r.job.widths.getD x.cls 0) id
    let m := frameDets d zs s
    m.2 |> modTrk d (fun t => { t with queue := t.queue ++ [⟨id, m.1, tst s (Reg.TRK_CTRL d) 1⟩] })
/-- The results of a vision job leave in slot order; those of void slots and of contained tasks are suppressed, and one gap record with
reason contained names each frame and class concerned (R201). -/
def emitJob (c : Nat) (r : Run) (s : Dev) : Dev :=
  let xs := ((List.range r.job.slots).map (slotAt s c r.job.entry)).filter fun x => !x.void
  let bad := xs.filter fun x => inRanges r.bad x.i
  let good := xs.filter fun x => !(inRanges r.bad x.i)
  let frames := sortBy (fun a b : FrameId => lexLt [a.stream, a.cap] [b.stream, b.cap]) r.job.frames
  s |> forS ((bad.map fun x => (x.stream, x.cap, x.cls, x.untr)).eraseDups) (fun g => gap1 g.1 .contained c g.2.2.1 g.2.1 g.2.2.2)
    |> forS good (slotRecs r) |> forS frames (frameToTrk r good)
/-- JOB_END (R199): the last stage of the running job has ended; its queue entry is freed and its results leave. A step's results
leave at the step's end. -/
def jobEnd (c : Nat) (s : Dev) : Dev :=
  match runOf s c with
  | none => s
  | some r =>
    if !r.done then s
    else
      let s := if isSeqCove s c then { s with kv := { s.kv with steps := modIf s.kv.steps (fun x => x.cove == c && x.started) fun x => { x with done := true } } }
        else emitJob c r s
      let s := s |> modCove c (fun v => { v with run := none }) |> bump (Reg.SCH_COVE_JOB c) 1 |> setB (Reg.SCH_COVE_STATE c) 16 false
      if coveState s c = 3 then setCoveState c 4 s else s

end Sys2Proof.Machine
end

