-- ==== Sys2Proof/Machine/Power.lean ====
section
/-! DEFINITION. Power domains, the power cap, temperature, and ebb (chapter 18). -/
set_option autoImplicit false
namespace Sys2Proof.Machine
open Sys2Proof

/-! ## What a domain needs (R423, Table 18-3) -/

/-- Whether a self-test of core `k` is pending or running (R107). -/
def selfTest (s : Dev) (k : Nat) : Bool := tst s (Reg.ARR_BIST_STATUS k) 0 || tst s (Reg.WIN_BIST_STATUS k) 0
/-- Whether core `k` is needed; `cs` are coves counted as running although they are not (R434). -/
def coreNeeded (s : Dev) (cs : List Nat) (k : Nat) : Bool := coreInRunning s k || selfTest s k || cs.any fun c => inCove s c k
/-- The cluster that holds the placer of a cove: the lowest that has one of its cores (R200). -/
def placerOf (s : Dev) (c : Nat) : Option Nat := (coresOf s c).head?.map (· / 8)
/-- Whether domain `d` is needed outside ebb. -/
def needed (s : Dev) (cs : List Nat) (d : Nat) : Bool :=
  let runs (c : Nat) : Bool := (decide (1 ≤ coveState s c) && decide (coveState s c ≤ 3)) || cs.contains c
  if d < 64 then coreNeeded s cs d
  else if d < 72 then
    ((List.range 8).any fun i => coreNeeded s cs (8 * (d - 64) + i)) || (List.range 8).any fun c => runs c && placerOf s c == some (d - 64)
  else if d < 88 then (engKeys (d - 72)).any (ctxValid s)
  else if d < 92 then
    ((List.range 512).any fun st => stValid s st && profPipe s (stEngine s st / 8) (stProfile s st) == d - 88) ||
      ((d - 88) % 2 == 0 && (List.range 8).any fun c => (coveState s c == 2 || cs.contains c) && stagingSlots s c ((d - 88) / 2) != 0)
  else if d < 96 then tst s (Reg.ING_PORT_CFG (d - 92)) 0
  else true
/-- Whether the power manager holds a domain off (R412, R423). -/
def forcedOff (s : Dev) (d : Nat) : Bool := s.bt.heldOff.contains d || (decide (d < 64) && coreFailed s d && !(selfTest s d))
/-- UNUSED of a domain: run, retain or off; a port that is not enabled is off (Table 18-2). -/
def unusedState (s : Dev) (d : Nat) : Nat :=
  if 92 ≤ d ∧ d < 96 then 3 else if 96 ≤ d then 0
  else match rf s (Reg.PWR_DOM_CFG d) 0 2 with
    | 0 => 0
    | 1 => 2
    | _ => 3
/-- The target state of a domain outside ebb (R423). -/
def targetOf (s : Dev) (cs : List Nat) (d : Nat) : Nat := if forcedOff s d then 3 else if needed s cs d then 0 else unusedState s d
/-- The target state of a domain in ebb (Table 18-5). -/
def ebbTarget (s : Dev) (d : Nat) : Nat :=
  if d < 92 then 3
  else if d < 96 then if d - 92 = rf s Reg.ING_CTRL 1 1 then 0 else 3
  else if d = 97 ∨ d = 98 then if tst s Reg.PWR_STATUS 2 then 3 else 2
  else 0

/-! ## Transitions (R421, R422, Table 18-2) -/

/-- The state of a domain: 0 run, 2 retain, 3 off. -/
def domState (s : Dev) (d : Nat) : Nat := rf s (Reg.PWR_DOM_STATE d) 0 2
/-- The latency of a change from `a` to `b` in ns. -/
def domLatency (d a b : Nat) : Nat :=
  let t := if d < 64 then [3000, 6000, 1000, 40000] else if d < 72 then [3000, 6000, 2000, 60000]
    else if d < 88 then [5000, 10000, 2000, 5000000] else if d < 92 then [2000, 4000, 1000, 20000]
    else if d < 96 then [1000, 2000000, 1000, 2000000] else [5000, 50000, 5000, 150000000]
  t.getD (if b = 2 then 0 else if b = 3 then 2 else if a = 3 then 3 else 1) 0
/-- Whether domain `d` is running work (R422): a core with a task or a self-test, a cluster with such a core, a codec engine with a frame, a pipe
with a picture. -/
def working (s : Dev) (d : Nat) : Bool :=
  let core (k : Nat) : Bool := (coreOf s k).task.isSome || !(coreOf s k).susp.isEmpty || selfTest s k
  if d < 64 then core d
  else if d < 72 then (List.range 8).any fun i => core (8 * (d - 64) + i)
  else if d < 88 then (cdcOf s (d - 72)).busy.isSome
  else if d < 92 then (pipeOf s (d - 88)).any fun p => p.started
  else false
/-- The change in progress of a domain. -/
def transOf (s : Dev) (d : Nat) : Option (Nat × Nat) := mget (fun _ => none) s.pwr.trans d
/-- Set it. -/
def putTrans (d : Nat) (v : Option (Nat × Nat)) (s : Dev) : Dev := { s with pwr := { s.pwr with trans := mset (fun _ => none) s.pwr.trans d v } }
/-- The state that a domain is in, or on its way to. -/
def headingOf (s : Dev) (d : Nat) : Nat := match transOf s d with
  | some x => x.1
  | none => domState s d
/-- Move a domain towards a target; one that is running work is never moved to retain or off (R422). -/
def moveDomain (t d : Nat) (s : Dev) : Dev :=
  if headingOf s d = t ∨ (2 ≤ t ∧ working s d = true) then s else if domState s d = t then putTrans d none s else putTrans d (some (t, now s)) s
/-- Remove the register values at offsets from `lo` below `hi`. -/
def clearRegs (lo hi : Nat) (s : Dev) : Dev := { s with regs := s.regs.filter fun e => decide (e.1 < lo) || decide (hi ≤ e.1) }
/-- An exit from off clears every SRAM of the domain (R422): a codec engine reloads its firmware, and its contexts restart; a track engine begins
with nothing (its table lies in DRAM). -/
def clearDomain (d : Nat) (s : Dev) : Dev :=
  if d < 64 then
    { s with scr := s.scr.filter fun e => e.1 / 2 ^ 22 != d } |> setCore d {} |> clearRegs (Reg.LPD_TABLE d 0 0) (Reg.LPD_TABLE d 128 0)
  else if d < 72 then { s with cm := s.cm.filter fun e => e.1 / 2 ^ 24 != d - 64 }
  else if d < 88 then forS (engKeys (d - 72)) restartCtx s
  else if d = 97 ∨ d = 98 then modTrk (d - 97) (fun _ => {}) s
  else s
/-- All ranks of a die enter self-refresh, every postponed refresh issued (R339). -/
def selfRefresh (d : Nat) (s : Dev) : Dev := setB (Reg.DMC_STATUS d) 2 true s
/-- They leave it, every channel retrained, the content unchanged (R339). -/
def leaveSelfRefresh (d : Nat) (s : Dev) : Dev :=
  let k := dramCycle s
  let again (c : DChan) : DChan := { c with cyc := k, paused := now s, base := now s, scrubAt := now s, late := false, banks := c.banks.map fun b => (b.1, { b.2 with row := none, refs := 0 }) }
  { s with dmc := { s.dmc with chans := (List.range 64).map fun c => (c, if c / 32 = d then again (dchan s c) else dchan s c) } } |> setB (Reg.DMC_STATUS d) 2 false
/-- A LOADING cove enters RUN once every core of its set runs, and every section that it needs has been verified (R413, R424). -/
def sectsWait (s : Dev) (c : Nat) : Bool :=
  (enum s.bt.sects 0).any fun x => bitOf (rd64 s Reg.BOOT_SECT_PEND_LO) x.1 && bitOf x.2.coves c
/-- COVE_ENTER_RUN (R424): outside ebb, from the power step of the tide on. -/
def enterRuns (s : Dev) : Dev :=
  if !s.tide.stepDone || ebbState s != 0 then s
  else forS ((List.range 8).filter fun c => coveState s c == 1) (fun c s =>
    if (coresOf s c).all (fun k => coreFailed s k || domRuns s k) && !(sectsWait s c) then
      (let t := coveEnterRun c s
       whenS (coveState t c == 6) (dropPending c) t)
    else s) s
/-- A port that goes off has no link. -/
def portOff (d : Nat) (s : Dev) : Dev := if 92 ≤ d ∧ d < 96 then portLinkDown (d - 92) s else s
/-- Domains take the states that their needs give in an exit; the coves that were in RUN when the ebb began count as needed (R434). -/
def exitDomains (ds : List Nat) (s : Dev) : Dev := forS ds (fun d t => moveDomain (targetOf s s.pwr.coves d) d t) s
/-- The DRAM is ready in an exit: its channels have been retrained, and with DRAM off the image's contents reloaded (R339). -/
def dramReady (s : Dev) : Bool := domState s 97 == 0 && domState s 98 == 0 && !s.pwr.reload
/-- Step 2 of an exit, after the return of the memory controllers. -/
def exitRest (s : Dev) : Dev := if ebbState s = 3 && dramReady s then exitDomains (List.range 97) s else s
/-- What a memory-controller domain does to its DRAM as it changes from `was` to `t` (R339). -/
def memDomain (d was t : Nat) (s : Dev) : Dev :=
  if d ≠ 97 ∧ d ≠ 98 then s else s |> whenS (t == 2) (selfRefresh (d - 97)) |> whenS (was == 2 && t == 0) (leaveSelfRefresh (d - 97))
/-- DOMAIN_TRANSITION_DONE (R422): a domain reaches its target, except retain or off while work has come to it. -/
def transDone (d : Nat) (s : Dev) : Dev :=
  match transOf s d with
  | none => s
  | some (t, t0) =>
    let was := domState s d
    if decide (2 ≤ t) && working s d then putTrans d none s
    else s |> waitUntil (t0 + domLatency d was t) |> putTrans d none |> wf (Reg.PWR_DOM_STATE d) 0 2 t
      |> whenS (was == 3) (clearDomain d) |> whenS (t == 3) (portOff d) |> memDomain d was t |> enterRuns |> exitRest
/-- DOMAIN_TRANSITION_DONE (R422). -/
def execDomainTransitionDone (d : Fin 100) (s : State) : Result := onDev (transDone d.val) s
/-- PWR_DOM_TIMEOUT (R423): a target not reached within ten times its latency; the domain stays in its previous state. -/
def domTimeout (d : Nat) (s : Dev) : Dev :=
  match transOf s d with
  | none => s
  | some (t, t0) =>
    s |> waitUntil (t0 + 10 * domLatency d (domState s d) t) |> putTrans d none |> wrN Reg.PWR_FAULT_INFO (d + 2 ^ 7) |> raise 0x1504 d (d + 2 ^ 7)
/-- PWR_DOM_TIMEOUT (R423). -/
def execPwrDomTimeout (d : Fin 100) (s : State) : Result := onDev (domTimeout d.val) s
/-- Every domain takes its target (R423). -/
def setTargets (s : Dev) : Dev := forS (List.range 100) (fun d t => moveDomain (targetOf s [] d) d t) s

/-! ## The power cap (R427) -/

/-- scale[i]. -/
def capScale (s : Dev) (i : Nat) : Nat :=
  match i with
  | 0 => 1024
  | 1 => rf s Reg.PWR_SCALE 0 10
  | 2 => rf s Reg.PWR_SCALE 10 10
  | 3 => rf s Reg.PWR_SCALE 20 10
  | _ => rf s Reg.PWR_SCALE4 0 10
/-- Whether the prediction for step `i` stays within `lim`, with the mean powers of the tide that ended under step `a`; all in 0.1 W, exact:
p_oth + p_core · scale[i] / scale[a] ≤ lim. -/
def capFits (s : Dev) (pkg core a i : Nat) (lim : Int) : Bool :=
  decide (((pkg : Int) - core) * capScale s a + core * capScale s i ≤ lim * capScale s a)
/-- cap_step (R427), and whether no step meets the cap. A scale of the step in force of 0, which would divide by 0, leaves the choice free
(log entry 67). -/
def capStep (s : Dev) (pkg core a : Nat) : Nat × Bool :=
  let c := rdN s Reg.PWR_CAP
  if !(bitOf c 0) then (0, false)
  else if capScale s a = 0 then (Config.freeNat s.fresh % 5, Config.freeNat (s.fresh + 1) % 2 == 1)
  else
    let lim : Int := ((60 + 5 * bits c 1 5 : Nat) : Int) * 10 - bits c 6 5 * 10
    match (List.range 5).find? fun i => capFits s pkg core a i lim with
    | none => (4, true)
    | some i =>
      if i < a then (if capFits s pkg core a (a - 1) (lim - bits c 11 5 * 10) then a - 1 else a, false) else (i, false)
/-- The sensors that count. -/
def sensorOf (s : Dev) (i : Nat) : Sensor := mget (fun _ => {}) s.pwr.sensors i
/-- Set one. -/
def putSensor (i : Nat) (v : Sensor) (s : Dev) : Dev := { s with pwr := { s.pwr with sensors := mset (fun _ => {}) s.pwr.sensors i v } }
/-- The largest reading of sensor `i` in the tide that ended. -/
def tideTop (s : Dev) (i : Nat) : Int := toSigned (rf s (Reg.PWR_TEMP i) 16 16) 16
/-- The sensors of a range that are not excluded. -/
def counted (s : Dev) (l : List Nat) : List Nat := l.filter fun i => !(sensorOf s i).out
/-- therm_ofs after this power step (R429): readings are in 1/8 °C. -/
def thermOfs (s : Dev) (old : Nat) : Nat :=
  let thr : Int := rf s Reg.PWR_THERM 0 12
  let logic := counted s (List.range 22)
  let stack := counted s [22, 23]
  if logic.any (fun i => decide (thr ≤ tideTop s i)) || stack.any (fun i => decide (720 ≤ tideTop s i)) then min 4 (old + 1)
  else if logic.all (fun i => decide (tideTop s i < thr - 40)) && stack.all (fun i => decide (tideTop s i < 680)) then old - 1
  else old
/-- The ACLK of a step in MHz. -/
def stepMhz (i : Nat) : Nat := 700 - 100 * i
/-- Every ACLK domain moves to a frequency. -/
def setAclk (mhz : Nat) (s : Dev) : Dev := { s with clk := { mhz, at_ := now s, sum := aclkMilli s } }
/-- The choice of the ACLK step (R427, R429). -/
def chooseAclk (pkg core : Nat) (s : Dev) : Dev :=
  let a := rf s Reg.PWR_ACLK 0 3
  let o := rf s Reg.PWR_ACLK 6 3
  let o' := thermOfs s o
  let r := capStep s pkg core a
  let n := min 4 (r.1 + o')
  s |> wrN Reg.PWR_PKG_POWER (pkg % 2 ^ 16 + core % 2 ^ 16 * 2 ^ 16) |> wrN Reg.PWR_ACLK (n + r.1 * 8 + o' * 64)
    |> (fun s => { s with fresh := s.fresh + 2 }) |> setB Reg.PWR_STATUS 3 (decide (0 < r.1)) |> setB Reg.PWR_STATUS 4 (decide (0 < o'))
    |> whenS (decide (0 < n)) (bump Reg.PWR_THROTTLE_CNT 1) |> whenS r.2 (raise 0x1500 0 (rdN s Reg.PWR_FAULT_INFO))
    |> whenS (decide (o < o')) (raise 0x1501 0 (rdN s Reg.PWR_FAULT_INFO)) |> whenS (n != a) (setAclk (stepMhz n))

/-! ## Temperature (R429, R430) -/

/-- The sensor beside sensor `i` (log entry 18): the other one of its cluster, or the next of its group. -/
def neighbour (i : Nat) : Nat :=
  if i < 8 then (if i % 2 = 0 then i + 1 else i - 1) else if i < 10 then i + 1 else if i = 10 then 9
  else if i < 19 then (if i % 2 = 1 then i + 1 else i - 1) else if i < 21 then i + 1 else if i = 21 then 20 else if i = 22 then 23 else 22
/-- An implausible sensor is excluded until reset (R429). -/
def sensorFail (i : Nat) (s : Dev) : Dev :=
  s |> putSensor i { sensorOf s i with out := true } |> wrN Reg.PWR_FAULT_INFO (i + 3 * 2 ^ 7) |> raise 0x1503 i (i + 3 * 2 ^ 7)
/-- One sensor's reading `v`, with its neighbour's. -/
def oneSensor (ts : List Int) (i : Nat) (s : Dev) : Dev :=
  let v := ts.getD i 0
  let nb := ts.getD (neighbour i) 0
  let x := sensorOf s i
  let last := toSigned (rf s (Reg.PWR_TEMP i) 0 16) 16
  let fresh := x.same == 0 || v != last
  let x := { x with top := some (match x.top with | some t => max t v | none => v), same := if fresh then 1 else x.same + 1, lo := if fresh then nb else min x.lo nb, hi := if fresh then nb else max x.hi nb }
  let bad := decide (v < -320) || decide (1200 < v) || (decide (1000 ≤ x.same) && decide (16 < x.hi - x.lo))
  s |> putSensor i x |> wf (Reg.PWR_TEMP i) 0 16 (ofSigned v 16) |> whenS (bad && !x.out) (sensorFail i)
/-- R430: a sensor at its trip threshold drives THERMTRIP_N low until reset. -/
def trips (s : Dev) (ts : List Int) : Option Nat :=
  let thr : Int := rf s Reg.PWR_THERM 12 12
  (counted s (List.range 24)).find? fun i => decide ((if i < 22 then thr else 840) ≤ ts.getD i 0)
/-- DMC_TEMP and HOT of a die (R329); an excluded sensor takes part in no comparison (R429). -/
def stackTemp (d : Nat) (v : Int) (s : Dev) : Dev :=
  s |> wrN (Reg.DMC_TEMP d) (ofSigned v 16) |> setB (Reg.DMC_STATUS d) 3 (if (sensorOf s (22 + d)).out then tst s (Reg.DMC_STATUS d) 3 else if 680 ≤ v then true else if v < 640 then false else tst s (Reg.DMC_STATUS d) 3)
/-- TEMP_SAMPLE (R429): the sensors are read every 1 ms. -/
def tempSample (ts : List Int) (s : Dev) : Dev :=
  let s := waitUntil (s.pwr.sampled + 1000000) s
  let s := { s with pwr := { s.pwr with sampled := now s } } |> forS (List.range 24) (oneSensor ts)
    |> stackTemp 0 (ts.getD 22 0) |> stackTemp 1 (ts.getD 23 0)
  match trips s ts with
  | some i =>
    if tst s Reg.PWR_STATUS 5 then s
    else { s with pins := { s.pins with thermtrip := true } } |> send (.pin .thermtrip false) |> setB Reg.PWR_STATUS 5 true
      |> wrN Reg.PWR_FAULT_INFO (i + 2 * 2 ^ 7) |> raise 0x1502 i (i + 2 * 2 ^ 7)
  | none => s
/-- TEMP_SAMPLE (R429). -/
def execTempSample (ts : List Int) (s : State) : Result := onDev (tempSample ts) s
/-- At a mark the maxima of the tide that ends are shown, and those of the next begin. -/
def markTemps (s : Dev) : Dev :=
  forS (List.range 24) (fun i t => match (sensorOf t i).top with
    | some v => t |> wf (Reg.PWR_TEMP i) 16 16 (ofSigned v 16) |> putSensor i { sensorOf t i with top := none }
    | none => t) s

/-! ## Entering ebb (R431) -/

/-- Step 3 for one engine without a frame in progress: queued units are gaps, pictures are output, clips close. -/
def ebbEngine (e : Nat) (s : Dev) : Dev :=
  if (cdcOf s e).busy.isSome then s
  else forS ((engKeys e).filter fun key => (ctxOf s key) != {}) (fun key s =>
    if ctxEncodes s key then closeClip key s
    else s |> forS (ctxOf s key).queue (fun a s => s |> popUnit key |> loseUnit key .dropped a) |> bumpOut key 0) s
/-- Pictures in the pipes are admitted by no cove: their frames become gaps, and they leave (R293, R431). -/
def ebbPipes (s : Dev) : Dev :=
  let s := forS (List.range 8) dropPending s
  forS (List.range 4) (fun q s => forS (pipeOf s q) (fun p s => s |> (if p.coves.isEmpty then id else gap1 p.id.stream .dropped 0xFF 0xFF p.id.cap p.id.untr) |> endPic q p) s) s
/-- Live sequences, whose table state is not FREE. -/
def liveSeqs (s : Dev) : List Nat := (List.range 1024).filter fun q => sqState s q != 0
/-- Whether steps 2 and 3 have nothing left but tracks: no job, step, sequence, frame, unit or clip, and no frame in a track engine, whose domain
is not moved while it works (R422). -/
def ebbStill (s : Dev) : Bool :=
  ((List.range 8).all fun c => (coveOf s c).run.isNone && (coveOf s c).queue.isEmpty) && !(s.kv.steps.any (·.started)) && (liveSeqs s).isEmpty &&
    ((List.range 16).all fun e => (cdcOf s e).busy.isNone) && (s.cctx.all fun c => c.2.queue.isEmpty && c.2.clip.isNone) &&
    [0, 1].all fun d => (trkOf s d).queue.isEmpty && (trkOf s d).cur.isNone && (trkOf s d).posted.isEmpty
/-- The channels whose ports go off. -/
def ebbChans (s : Dev) : List Nat := (List.range 8).filter fun ch => rf s (Reg.MDO_DEST_CFG ch) 1 2 != rf s Reg.ING_CTRL 1 1
/-- Whether steps 2 to 4 are complete: the channels of ports that go off are empty or have no link. -/
def ebbDrained (s : Dev) : Bool :=
  ebbStill s && (ebbChans s).all fun ch => (chan s ch).q.isEmpty || !(tst s (Reg.ING_PORT_STATUS (rf s (Reg.MDO_DEST_CFG ch) 1 2)) 0)
/-- Once no step is in progress every live sequence ends (step 2). -/
def ebbSeqs (s : Dev) : Dev := if s.kv.steps.any (·.started) then s else forS (liveSeqs s) endSeq s
/-- Step 3's end, with DRAM off the end of every track, then step 4: the channels whose ports go off send what they hold. -/
def ebbLast (s : Dev) : Dev :=
  if !(ebbStill s) then s
  else s |> whenS (tst s Reg.PWR_STATUS 2) (endAllTracks s.pwr.markM) |> forS (ebbChans s) (fun ch => closeDatagrams ch true 4096)
/-- While the device is ENTERING ebb: what of steps 2 to 4 can be done now. -/
def ebbGoOn (s : Dev) : Dev := if ebbState s = 1 then s |> forS (List.range 16) ebbEngine |> ebbPipes |> ebbSeqs |> ebbLast else s
/-- The entry begins at mark `mt` (step 1). -/
def ebbAtMark (dramOff : Bool) (mt : Nat) (s : Dev) : Dev :=
  if ebbState s ≠ 0 then s
  else
    { s with pwr := { s.pwr with markM := mt, coves := (List.range 8).filter fun c => coveState s c == 2 } }
      |> wf Reg.PWR_STATUS 0 2 1 |> setB Reg.PWR_STATUS 2 dramOff |> teardownAll |> ebbGoOn
/-- JOB_END (R199, R431). -/
def execJobEnd (c : Fin 8) (s : State) : Result := onDev (fun s => ebbGoOn (jobEnd c s)) s
/-- STEP_END (R203, R431). -/
def execStepEnd (c : Fin 8) (s : State) : Result := onDev (fun s => ebbGoOn (stepEnd c s)) s
/-- CODEC_FRAME_END (R219, R431). -/
def execCodecFrameEnd (e : Fin 16) (fe : FrameEnd) (s : State) : Result := onDev (fun s => ebbGoOn (codecFrameEnd e fe s)) s
/-- CODEC_FRAME_WDOG (R236, R431). -/
def execCodecFrameWdog (e : Fin 16) (skip : CodedPic) (s : State) : Result := onDev (fun s => ebbGoOn (codecFrameWdog e skip s)) s
/-- The port that stays up retrains to the layer of EBB_MODE if it ran faster (R271). -/
def ebbPort (s : Dev) : Dev :=
  let r := Reg.ING_PORT_STATUS (rf s Reg.ING_CTRL 1 1)
  whenS (tst s r 0 && decide (rf s r 2 2 < 2)) (fun t => t |> setB r 1 false |> wf r 2 2 (2 + rf t Reg.ING_CTRL 2 1)) s
/-- Ebb begins (step 5): the domains take the states of Table 18-5, the DRAM follows R339. -/
def ebbBegin (s : Dev) : Dev :=
  s |> forS s.pwr.coves (fun c => setCoveState c 4)
    |> forS (List.range 100) (fun d s => moveDomain (ebbTarget s d) d s)
    |> wf Reg.PWR_STATUS 0 2 2 |> ebbPort |> bmcaAgain |> bump Reg.PWR_EBB_CNT 1 |> raise 0x1505 0 (rdN s Reg.PWR_FAULT_INFO)

/-! ## The power step (R423, R427, R431) -/

/-- POWER_STEP: the ACLK step for the tide from the mean powers `pkg` and `core` of the tide that ended, in 0.1 W; domain states; and the begin of
ebb when its drains are complete. There is none before the first mark, in ebb, or in the tide in which an exit completed. -/
def powerStep (pkg core : Nat) (s : Dev) : Dev :=
  if !s.tide.marked || s.tide.stepDone || decide (2 ≤ ebbState s) || s.pwr.fresh then s
  else
    let s := waitUntil (powerStepTime s) s
    let s := { s with tide := { s.tide with stepDone := true } } |> chooseAclk pkg core
    let s := ebbGoOn s
    if ebbState s = 1 && ebbDrained s then ebbBegin s else s |> setTargets |> enterRuns
/-- POWER_STEP (R423). -/
def execPowerStep (pkg core : Nat) (s : State) : Result := onDev (powerStep pkg core) s

/-! ## Leaving ebb (R433, R434) -/

/-- EBB_ENTER (R431): held to the next mark, in place of an earlier one (R13); ignored while entering or in ebb. -/
def ebbEnter (dramOff : Bool) (s : Dev) : Dev :=
  if ebbState s = 0 then { s with held := s.held.filter (fun h => !(isEbb h)) ++ [.ebb dramOff] } else s
/-- EBB_ENTER (R431). -/
def execEbbEnter (dramOff : Bool) (s : State) : Result := onDev (ebbEnter dramOff) s
/-- A wake by a source (R433); `m` are its bits in PWR_WAKE_SRC. A wake while the entry goes on ends it where it is; the sources that fire in
the cycle of the wake are recorded together. -/
def wakeBy (m : Nat) (s : Dev) : Dev :=
  let starts (off : Bool) (s : Dev) : Dev := { s with pwr := { s.pwr with wake := now s, reload := off } } |> wrN Reg.PWR_WAKE_SRC m |> wf Reg.PWR_STATUS 0 2 3
  match ebbState s with
  | 1 => starts false s
  | 2 =>
    let off := tst s Reg.PWR_STATUS 2
    s |> starts off |> whenS off (fun s => { s with bt := { s.bt with trained := false } } |> trainBegin)
      |> exitDomains [97, 98]
  | _ => if s.pwr.wake ≠ 0 ∧ s.pwr.wake = now s then wrN Reg.PWR_WAKE_SRC (rdN s Reg.PWR_WAKE_SRC ||| m) s else s
/-- A wake by the source at `bit`. -/
def wake (bit : Nat) (s : Dev) : Dev := wakeBy (2 ^ bit) s
/-- A wake by a source that its bit in PWR_WAKE_EN enables. -/
def wakeIf (bit : Nat) (s : Dev) : Dev := if tst s Reg.PWR_WAKE_EN bit then wake bit s else s
/-- EBB_EXIT (R434): always enabled. -/
def execEbbExit (s : State) : Result := onDev (wake 13) s
/-- GPIO_EDGE (R433, R463): ball `n` changes to `high` and stays there `ns`; an edge shorter than 1 µs is ignored. A GPIO that its mask selects
wakes on the edge of the chosen polarity. -/
def gpioEdge (n : Nat) (high : Bool) (ns : Nat) (s : Dev) : Dev :=
  if ns < 1000 ∨ bitOf s.pins.gpio n = high then s
  else
    let s := { s with pins := { s.pins with gpio := putBits s.pins.gpio n 1 (b2n high) } }
    let s := waitUntil (now s + 1000) s
    let e := rdN s Reg.PWR_WAKE_EN
    if bitOf e 3 && bitOf e (4 + n) && bitOf e 12 == !high then wakeBy (2 ^ 3 + 2 ^ (4 + n)) s else s
/-- GPIO_EDGE (R433). -/
def execGpioEdge (n : Fin 8) (high : Bool) (ns : Nat) (s : State) : Result := onDev (gpioEdge n.val high ns) s
/-- EBB_EXIT_COMPLETE (R434): every domain has reached its state; streams and contexts restart, and the coves that were in RUN start at the next
mark. -/
def exitComplete (s : Dev) : Dev :=
  if ebbState s ≠ 3 || !(dramReady s) then s
  else
    let s := exitRest s
    if (s.pwr.trans.any fun x => x.2.isSome) then s
    else
      { s with pwr := { s.pwr with fresh := true } } |> wf Reg.PWR_STATUS 0 2 0
        |> wrN Reg.PWR_EBB_TIME (min 65535 ((now s - s.pwr.wake) / 1000000)) |> restartStreams |> raise 0x1506 0 (rdN s Reg.PWR_FAULT_INFO)
/-- EBB_EXIT_COMPLETE (R434). -/
def execEbbExitComplete (s : State) : Result := onDev exitComplete s

end Sys2Proof.Machine
end

