-- ==== Sys2Proof/Machine/Mdo.lean ====
section
/-! DEFINITION. The metadata output unit: overflow gaps, datagrams, queue ECC, and what it takes in (R306 to R318). -/
set_option autoImplicit false
namespace Sys2Proof.Machine
open Sys2Proof

/-! ## Queues (R308, R309, R318) -/

/-- R318: a queued record with an uncorrected error is replaced, under its own number, by a gap record with reason contained. -/
def containedRec (r : LmpRec) : LmpRec :=
  { r with kind := 7, taint := false, continued := false, analysed := 0, offered := 0, body := [4, 0xFF, 0xFF, 0] ++ beBytes 4 0 ++ beBytes 8 r.time }
/-- What reading a queue finds: `ecc` 1 corrected, 2 uncorrected in its record at place `i`. -/
def queueEcc (ch ecc i : Nat) (s : Dev) : Dev :=
  let c := chan s ch
  if ecc = 1 then raise 0x0D03 ch 0 s
  else if ecc = 2 && decide (i < c.q.length) then
    s |> setChan ch { c with q := (enum c.q 0).map fun x => if x.1 = i then { x.2 with r := containedRec x.2.r } else x.2 } |> raise 0x0D04 ch 0
  else s
/-- OVERFLOW_GAP (R308): the gap record that ends a run of losses enters as soon as the queue has room, and what can leave leaves; `ecc` and
`i` tell what reading the queue finds (R318). -/
def overflowGapEnd (ch ecc i : Nat) (s : Dev) : Dev := s |> queueEcc ch ecc i |> endLostRun ch |> pump ch
/-- OVERFLOW_GAP (R308). -/
def execOverflowGap (ch : Fin 12) (ecc : Fin 3) (i : Nat) (s : State) : Result := onDev (overflowGapEnd ch.val ecc.val i) s
/-- DGRAM_HOLD_EXPIRY (R309): DGRAM_HOLD µs after its first record the datagram that is being filled is closed and sent. -/
def dgramHoldExpiry (ch ecc i : Nat) (s : Dev) : Dev :=
  match (chan s ch).openAt with
  | none => s
  | some t => s |> waitUntil (t + rf s Reg.MDO_DGRAM_HOLD 0 10 * 1000) |> queueEcc ch ecc i |> closeDatagrams ch true 4096
/-- DGRAM_HOLD_EXPIRY (R309). -/
def execDgramHoldExpiry (ch : Fin 8) (ecc : Fin 3) (i : Nat) (s : State) : Result := onDev (dgramHoldExpiry ch.val ecc.val i) s

/-! ## Requests (R313 to R316) -/

/-- Ingress that is dropped (R313, R316). -/
def rxDrop (s : Dev) : Dev := bump Reg.MDO_RX_DROP_CNT 1 s
/-- The device is in ebb for a requester: it takes only a WAKE (R316); while it enters ebb, queries meet busy reason 3 (R431). -/
def asleep (s : Dev) : Bool := ebbState s == 2 || ebbState s == 3
/-- Whether the same request was accepted at most 10 s earlier (R313). -/
def isDup (s : Dev) (clip : Bool) (src id : Nat) : Bool :=
  s.mdo.seen.any fun x => x.clip == clip && x.src == src && x.id == id && decide (now s ≤ x.at_ + 10000000000)
/-- Note an accepted request; those older than 10 s are forgotten. -/
def noteReq (clip : Bool) (src id : Nat) (s : Dev) : Dev :=
  { s with mdo := { s.mdo with seen := (s.mdo.seen.filter fun x => decide (now s ≤ x.at_ + 10000000000)) ++ [⟨clip, src, id, now s⟩] } }
/-- Whether bytes are well-formed UTF-8; `k` continuation bytes are due, the next one within `lo .. hi`. -/
def utf8Ok : Nat → Nat → Nat → List Byte → Bool
  | 0, _, _, [] => true
  | _ + 1, _, _, [] => false
  | 0, _, _, b :: bs =>
    let n := b.toNat
    if n < 0x80 then utf8Ok 0 0 0 bs
    else if 0xC2 ≤ n ∧ n ≤ 0xDF then utf8Ok 1 0x80 0xBF bs
    else if n = 0xE0 then utf8Ok 2 0xA0 0xBF bs
    else if n = 0xED then utf8Ok 2 0x80 0x9F bs
    else if 0xE1 ≤ n ∧ n ≤ 0xEF then utf8Ok 2 0x80 0xBF bs
    else if n = 0xF0 then utf8Ok 3 0x90 0xBF bs
    else if 0xF1 ≤ n ∧ n ≤ 0xF3 then utf8Ok 3 0x80 0xBF bs
    else if n = 0xF4 then utf8Ok 3 0x80 0x8F bs
    else false
  | k + 1, lo, hi, b :: bs => decide (lo ≤ b.toNat) && decide (b.toNat ≤ hi) && utf8Ok k 0x80 0xBF bs
/-- The cove of a query: as named, or DEFAULT_COVE. -/
def queryCove (s : Dev) (q : QueryRec) : Nat := if q.cove = 0xFFFF then rf s Reg.MDO_CTRL 4 3 else q.cove
/-- Live sequences of a cove (R214). -/
def liveCount (s : Dev) (c : Nat) : Nat := ((List.range 1024).filter fun q => sqState s q != 0 && sqCove s q == c).length
/-- The busy reason of R314, in its order; 0 when the query is taken. -/
def queryRefusal (s : Dev) (q : QueryRec) : Nat :=
  let c := queryCove s q
  if !(tst s Reg.MDO_CTRL 2) || decide (8 ≤ c) || !(isSeqCove s c) then 6
  else if !(coveOpen s c) then 3
  else if rf s Reg.SEQ_CTRL 0 11 ≤ liveCount s c then 1
  else if q.imgs.any (fun st => !(decide (st < 512) && stValid s st)) || decide (4 < q.imgs.length) || !(utf8Ok 0 0 0 q.text) then 6
  else if !q.imgs.isEmpty && (classOf s c 0).w == 0 then 6
  else 0
/-- A new sequence (R314): the lowest FREE entry, QUEUED. Its input store holds the images' samples, then the token IDs of the prompt, and
its token log goes on behind them (R184; log entry 61). What its formats, layers and places are the spec leaves to Ziltur and the work package
(log entry 3). -/
def newSeq (n c : Nat) (q : QueryRec) (s : Dev) : Dev :=
  let f (i : Nat) : Nat := Config.freeNat (s.fresh + i)
  let layers := 1 + f 2 % 255
  let prompt := Config.promptTokens (wpOf s c) q.text q.imgs.length % 2 ^ 16
  let geo := Config.kvGeometry (wpOf s c)
  let toks := f 4 % 2 ^ 32 * 256 + q.imgs.length * (classOf s c 0).size
  let w0 := c * 2 ^ 3 + q.prio % 4 * 2 ^ 6 + f 0 % 2 * 2 ^ 8 + f 1 % 8 * 2 ^ 9 + layers * 2 ^ 12
  { s with fresh := s.fresh + 5, kv := { s.kv with arrivals := s.kv.arrivals ++ [n] } }
    |> wrN (Reg.SEQ_TABLE n 0) w0 |> wrN (Reg.SEQ_TABLE n 1) (prompt * 2 ^ 16)
    |> wrN (Reg.SEQ_TABLE n 2) (q.id % 2 ^ 16 * 2 ^ 16) |> wrN (Reg.SEQ_TABLE n 3) 0
    |> wr64 (Reg.SEQ_TABLE n 4) (f 3 % 2 ^ 28 * 4096) |> wrN (Reg.SEQ_TABLE n 6) 0 |> wrN (Reg.SEQ_TABLE n 7) (f 4)
    |> sqPutState n 1
    |> putSqX n { time := now s, untr := untraceable s, maxTok := q.maxTok, imgs := (enum q.imgs 0).map fun x => (x.2, x.1),
                  hkv := 1 + geo.1 % 64, dh := 32 * (1 + geo.2 % 8), tokAt := toks }
    |> wrBytes .dram toks ((List.range prompt).flatMap fun i => leBytes 4 (Config.promptToken (wpOf s c) q.text q.imgs.length i).toNat)
/-- A QUERY record from a source (R313, R314, R316). -/
def takeQuery (src : Nat) (q : QueryRec) (s : Dev) : Dev :=
  if asleep s then rxDrop s
  else if isDup s false src q.id then bump Reg.MDO_DUP_CNT 1 s
  else
    let s := noteReq false src q.id s
    match queryRefusal s q with
    | 0 =>
      (match (List.range 1024).find? fun n => sqState s n == 0 with
        | some n => newSeq n (queryCove s q) q s
        | none => busyRec (queryCove s q) q.id 1 0 s)
    | r => busyRec (queryCove s q) q.id r 0 s
/-- QUERY (R314). -/
def execQuery (src : Nat) (q : QueryRec) (s : State) : Result := onDev (takeQuery src q) s
/-- A WAKE record on port `p` (R316); port 4 stands for the ingress ring. -/
def takeWake (p : Nat) (code : Nat) (s : Dev) : Dev :=
  if ebbState s = 0 ∨ (ebbState s = 3 ∧ s.pwr.wake ≠ now s) then s
  else if p = rf s Reg.ING_CTRL 1 1 ∧ code = rdN s Reg.MDO_WAKE_CODE then s |> raise 0x0D02 0 0 |> wakeIf 0
  else rxDrop s
/-- WAKE (R316). -/
def execWake (p : Fin 4) (code : Word) (s : State) : Result := onDev (takeWake p.val code.toNat) s
/-- The encode context of a stream (R315): the lowest valid one that names it and holds no open clip; none when there is no such context. -/
def clipContext (s : Dev) (st : Nat) : Option Nat :=
  ((List.range 16).flatMap engKeys).find? fun key => ctxValid s key && ctxEncodes s key && ctxStream s key == st && (ctxOf s key).clip.isNone
/-- A CLIP_REQUEST record (R313, R315, R316). -/
def takeClip (src : Nat) (c : ClipReq) (s : Dev) : Dev :=
  if asleep s then rxDrop s
  else if isDup s true src c.id then bump Reg.MDO_DUP_CNT 1 s
  else
    let s := noteReq true src c.id s
    let busy (r : Nat) (s : Dev) : Dev := busyRec c.stream c.id r 1 s
    if !(tst s Reg.MDO_CTRL 3) || decide (64 ≤ c.buffer) || clipSize s c.buffer == 0 then busy 6 s
    else match clipContext s c.stream with
      | none => busy 5 s
      | some key =>
        let r := openClip key c.id c.buffer c.stream c.start c.stop c.mask c.deliver (untraceable s) s
        if r.1 then r.2 else busy 6 r.2
/-- CLIP_REQUEST (R315). -/
def execClipRequest (src : Nat) (c : ClipReq) (s : State) : Result := onDev (takeClip src c) s

/-! ## Records on the wire (R313) -/

/-- A big-endian field of bytes. -/
def fieldAt (l : List Byte) (i n : Nat) : Nat := beNat ((l.drop i).take n)
/-- An ingress record. -/
inductive InRec where
  | query (q : QueryRec)
  | wake (code : Nat)
  | clip (c : ClipReq)
  deriving DecidableEq, Repr
/-- Read one record of `l` bytes; none when its kind or a length does not fit. -/
def readRec (l : List Byte) : Option InRec :=
  let b := l.drop 24
  let n := b.length
  let subj := fieldAt l 4 2
  match fieldAt l 0 1 with
  | 0x40 =>
    let nimg := fieldAt b 3 1
    let at_ := 8 + ceilDiv (2 * nimg) 4 * 4
    let len := fieldAt b 6 2
    if 8 ≤ n ∧ nimg ≤ 4 ∧ at_ + len ≤ n then
      some (.query { cove := subj, id := fieldAt b 0 2, prio := fieldAt b 2 1, maxTok := fieldAt b 4 2, imgs := (List.range nimg).map fun i => fieldAt b (8 + 2 * i) 2, text := (b.drop at_).take len })
    else none
  | 0x41 => if 4 ≤ n then some (.wake (fieldAt b 0 4)) else none
  | 0x42 =>
    if 17 ≤ n then some (.clip { stream := subj, start := fieldAt l 8 8, stop := fieldAt b 8 8, id := fieldAt b 0 2, buffer := fieldAt b 2 2, mask := fieldAt b 4 4, deliver := fieldAt b 16 1 })
    else none
  | _ => none
/-- The records of a datagram behind its header: whole ones, each with a LENGTH that is a multiple of 4 in 24..1,400. -/
def readRecs : Nat → List Byte → Option (List InRec)
  | 0, l => if l.isEmpty then some [] else none
  | n + 1, l =>
    let len := fieldAt l 2 2
    if len < 24 ∨ 1400 < len ∨ len % 4 ≠ 0 ∨ l.length < len then none
    else match readRec (l.take len), readRecs n (l.drop len) with
      | some r, some rs => some (r :: rs)
      | _, _ => none
/-- The records of an ingress datagram, none when it is to be dropped whole. -/
def readDatagram (l : List Byte) : Option (List InRec) :=
  if l.length < 32 ∨ fieldAt l 0 2 ≠ 0x4C4D ∨ fieldAt l 2 1 ≠ 1 then none else readRecs (fieldAt l 10 2) (l.drop 32)
/-- A record that came in on port `p` (4: the ingress ring) from a source. -/
def takeRec (p src : Nat) (r : InRec) (s : Dev) : Dev :=
  match r with
  | .query q => takeQuery src q s
  | .wake c => takeWake p c s
  | .clip c => takeClip src c s
/-- LMP_INGRESS_DATAGRAM (R313): a malformed datagram is dropped whole, any other has its records taken in order. -/
def ingressDatagram (p src : Nat) (bytes : List Byte) (s : Dev) : Dev :=
  match readDatagram bytes with
  | none => s |> rxDrop |> raise 0x0D01 0 0
  | some rs => forS rs (takeRec p src) s
/-- LMP_INGRESS_DATAGRAM (R313). -/
def execLmpIngressDatagram (p : Fin 4) (src : Nat) (bytes : List Byte) (s : State) : Result := onDev (ingressDatagram p.val src bytes) s
/-- The ingress ring as a source (R313): no IP address has this number. -/
def ringSource : Nat := 2 ^ 128
/-- INGRESS_RECORD (R313): the host writes a record to ring 4. Metadata entries have no KIND of their own on this ring (log entry 3), so only the
length and the record are checked. -/
def ingressRecord (h : H2D) (bytes : List Byte) (s : Dev) : Dev :=
  if !(ringHasEntry s 4) then s
  else
    let s := ringTake 4 s
    if ringSlot s 4 < h.len + 16 ∨ bytes.length ≠ h.len then staleEntry s
    else match (if fieldAt bytes 2 2 = bytes.length then readRec bytes else none) with
      | none => s |> rxDrop |> raise 0x0D01 0 0
      | some r => takeRec 4 ringSource r s
/-- INGRESS_RECORD (R313). -/
def execIngressRecord (h : H2D) (bytes : List Byte) (s : State) : Result := onDev (ingressRecord h bytes) s

end Sys2Proof.Machine
end

