-- ==== Sys2Proof/Machine/Ports.lean ====
section
/-! DEFINITION. Ethernet ports: links, the acceptance of frames and their delivery (R247 to R254). -/
set_option autoImplicit false
namespace Sys2Proof.Machine
open Sys2Proof

/-! ## Links (R250) -/

/-- ETH_LINK_DOWN (R250). -/
def ethLinkDown (p : Nat) (s : Dev) : Dev := portLinkDown p s
/-- ETH_LINK_DOWN (R250). -/
def execEthLinkDown (p : Fin 4) (s : State) : Result := onDev (ethLinkDown p) s
/-- ETH_LINK_UP (R250): a port that is enabled and whose domain runs trains; in ebb only the port kept up, at EBB_MODE (R271). The groups of the valid entries on it are
joined (R254). -/
def ethLinkUp (p : Nat) (s : Dev) : Dev :=
  let ebb := ebbState s == 2
  if !(tst s (Reg.ING_PORT_CFG p) 0) || !(domRuns s (92 + p)) || (ebb && p != rf s Reg.ING_CTRL 1 1) then s
  else
    let mode := if ebb then 2 + rf s Reg.ING_CTRL 2 1 else rf s (Reg.ING_PORT_CFG p) 1 2
    let fec := decide (mode < 2) && rf s (Reg.ING_PORT_CFG p) 3 2 != 0
    s |> wrN (Reg.ING_PORT_STATUS p) (1 + 2 * b2n fec + 4 * mode)
      |> whenS (!ebb) (forS ((List.range 512).filter fun st => stValid s st && stPort s st == p) (groupMsg true))
/-- ETH_LINK_UP (R250). -/
def execEthLinkUp (p : Fin 4) (s : State) : Result := onDev (ethLinkUp p) s

/-! ## Reading a frame -/

/-- `n` bytes from `i` as a number in network order. -/
def beAt (l : List Byte) (i n : Nat) : Nat := beNat ((l.drop i).take n)
/-- The one's complement sum of 16-bit words is all ones. -/
def sumOk (l : List Byte) : Bool :=
  let words := (List.range (ceilDiv l.length 2)).map fun i => (l.getD (2 * i) 0).toNat * 256 + (l.getD (2 * i + 1) 0).toNat
  sumN words != 0 && sumN words % 65535 == 0
/-- Why a frame is dropped (Table 10-2). -/
inductive DropAt where
  | nomatch
  | l3
  | csum
  deriving DecidableEq, Repr
/-- A frame of the accepted kinds: PTP of layer 2, ARP, or an IP packet with its protocol, its source and destination addresses as
numbers, and its payload. -/
inductive Accepted where
  | ptp (l : List Byte)
  | arp (l : List Byte)
  | ip (v6 : Bool) (proto src dst : Nat) (l : List Byte)
  deriving DecidableEq, Repr

/-- The MAC address of a port. -/
def portMac (s : Dev) (p : Nat) : Nat := rdN s (Reg.ING_PORT_MAC_LO p) + rf s (Reg.ING_PORT_MAC_HI p) 0 16 * 2 ^ 32
/-- The IPv6 link-local address of a port (R247): the modified EUI-64 of its MAC address behind fe80::/64. -/
def portLinkLocal (s : Dev) (p : Nat) : Nat :=
  let m := portMac s p
  0xFE80 * 2 ^ 112 + (xorN (m / 2 ^ 24) 0x020000) * 2 ^ 40 + 0xFFFE * 2 ^ 24 + m % 2 ^ 24
/-- The group MAC address of an IP group. -/
def groupMac (v6 : Bool) (a : Nat) : Nat := if v6 then 0x333300000000 + a % 2 ^ 32 else 0x01005E000000 + a % 2 ^ 23
/-- The groups of the protocols that the device itself speaks: PTP, all nodes, and the solicited-node groups of the port. -/
def ownGroups (s : Dev) (p : Nat) : List Nat :=
  [0x011B19000000, 0x0180C200000E, 0x01005E000181, 0x01005E00006B, 0x333300000181, 0x33330000006B, 0x01005E000001, 0x333300000001,
   0x3333FF000000 + portIp6 s p % 2 ^ 24, 0x3333FF000000 + portMac s p % 2 ^ 24]
/-- Whether a port takes frames to a MAC address (Table 10-2, R254). -/
def macOk (s : Dev) (p mac : Nat) : Bool :=
  mac == portMac s p || mac == 2 ^ 48 - 1 || (ownGroups s p).contains mac ||
    (List.range 512).any fun st => stValid s st && stPort s st == p && stF s st 0 5 1 == 1 && groupMac (stF s st 0 4 1 == 1) (stAddr s st 8) == mac
/-- The IPv4 row of Table 10-2. -/
def takeIp4 (l : List Byte) : Accepted ⊕ DropAt :=
  let ihl := beAt l 0 1 % 16 * 4
  let total := beAt l 2 2
  if beAt l 0 1 / 16 ≠ 4 ∨ ihl < 20 ∨ total < ihl ∨ l.length < total ∨ beAt l 6 2 % 2 ^ 14 ≠ 0 ∨ sumOk (l.take ihl) = false then .inr .l3
  else .inl (.ip false (beAt l 9 1) (beAt l 12 4) (beAt l 16 4) ((l.take total).drop ihl))
/-- The IPv6 row. -/
def takeIp6 (l : List Byte) : Accepted ⊕ DropAt :=
  let body := (l.drop 40).take (beAt l 4 2)
  let next := beAt l 6 1
  let hop := (beAt body 1 1 + 1) * 8
  if beAt l 0 1 / 16 ≠ 6 ∨ l.length < 40 + beAt l 4 2 then .inr .l3
  else if [17, 6, 58].contains next then .inl (.ip true next (beAt l 8 16) (beAt l 24 16) body)
  else if next = 0 ∧ beAt body 0 1 = 58 ∧ hop ≤ body.length then .inl (.ip true 58 (beAt l 8 16) (beAt l 24 16) (body.drop hop))
  else .inr .l3
/-- The UDP row: the checksum over the pseudo-header. -/
def udpOk (v6 : Bool) (src dst : Nat) (l : List Byte) : Bool :=
  let n := beAt l 4 2
  let pseudo := if v6 then beBytes 16 src ++ beBytes 16 dst ++ beBytes 4 n ++ [0, 0, 0, 17] else beBytes 4 src ++ beBytes 4 dst ++ [0, 17] ++ beBytes 2 n
  decide (8 ≤ n) && decide (n ≤ l.length) && ((beAt l 6 2 == 0 && !v6) || (beAt l 6 2 != 0 && sumOk (pseudo ++ l.take n)))
/-- Table 10-2, row by row: `l` is the frame without its FCS. -/
def acceptFrame (s : Dev) (p : Nat) (l : List Byte) : Accepted ⊕ DropAt :=
  let tagged := beAt l 12 2 == 0x8100
  let vid := beAt l 14 2 % 4096
  let ty := if tagged then beAt l 16 2 else beAt l 12 2
  let body := l.drop (if tagged then 18 else 14)
  if !(macOk s p (beAt l 0 6)) || (tagged && vid != 0 && vid != rf s (Reg.ING_PORT_CFG p) 16 12) then .inr .nomatch
  else
    let r := match ty with
      | 0x0800 => takeIp4 body
      | 0x86DD => takeIp6 body
      | 0x0806 => .inl (.arp body)
      | 0x88F7 => .inl (.ptp body)
      | _ => .inr .nomatch
    match r with
    | .inl (.ip v6 17 src dst u) => if udpOk v6 src dst u then r else .inr .csum
    | x => x

/-! ## Delivery (R252, R253, Table 10-3) -/

/-- The stream that a UDP packet matches, and whether as control. -/
def streamMatch (s : Dev) (p : Nat) (v6 : Bool) (src dst : Nat) (u : List Byte) : Option (Nat × Bool) :=
  let port := beAt u 2 2
  let pt := beAt u 9 1
  (List.range 512).findSome? fun st =>
    let mux := stF s st 0 6 1 == 1
    let rtp := stF s st 1 0 16 == port
    if !(stValid s st) || stPort s st != p || (stF s st 0 4 1 == 1) != v6 || stAddr s st 8 != dst || (stF s st 0 7 1 == 1 && stAddr s st 12 != src) then none
    else if mux && rtp && decide (200 ≤ pt) && decide (pt ≤ 204) then some (st, true)
    else if rtp then some (st, false)
    else if !mux && stF s st 1 16 16 == port then some (st, true)
    else none
/-- Whether a TCP segment belongs to a stream's RTSP session: it is addressed to the port, and is of the session's connection, or of the one that
Ziltur is opening, whose server only the URL names. -/
def sessionTcp (s : Dev) (st p : Nat) (v6 : Bool) (src dst : Nat) (l : List Byte) : Bool :=
  let own := if v6 then dst == portIp6 s p || dst == portLinkLocal s p else dst == rdN s (Reg.ING_PORT_IPV4 p)
  own && match (strm s st).tcp with
    | some x => x.addr == src && x.port == beAt l 0 2 && x.own == beAt l 2 2
    | none => sState s st == 1
/-- Whether Ziltur takes a packet: ARP, ICMP echo, neighbour discovery, IGMP, MLD, TCP of a session. -/
def forZiltur (s : Dev) (p : Nat) : Accepted → Bool
  | .arp _ => true
  | .ptp _ => false
  | .ip v6 proto src dst l =>
    let t := beAt l 0 1
    if proto = 6 then (List.range 512).any fun st => mayReopen s st && stPort s st == p && sessionTcp s st p v6 src dst l
    else if v6 then proto == 58 && ([128, 129, 130, 131, 132, 143].contains t || (decide (133 ≤ t) && decide (t ≤ 137)))
    else proto == 2 || (proto == 1 && [0, 8].contains t)
/-- Where an accepted packet goes: the first row of Table 10-3 that it matches. -/
def destOf (s : Dev) (p : Nat) (a : Accepted) : Option RxDest :=
  let ziltur := if forZiltur s p a then some RxDest.ziltur else none
  match a with
  | .ptp _ => some .time
  | .ip v6 17 src dst u =>
    if [319, 320].contains (beAt u 2 2) then some .time
    else if beAt u 2 2 == rf s Reg.MDO_LMP_PORT 0 16 then some .mdo
    else if ingMatches s then (streamMatch s p v6 src dst u).map fun m => if m.2 then .control m.1 else .media m.1
    else none
  | _ => ziltur
/-- The bytes of a PTP message. -/
def ptpBytes : Accepted → List Byte
  | .ptp l => l
  | .arp l => l
  | .ip _ _ _ _ u => u.drop 8
/-- What Ziltur answers at once: an ARP request, a neighbour solicitation, an echo request, or a query for group memberships (R252, R254). -/
def zilturAnswers (s : Dev) (p : Nat) : Accepted → Option Nat
  | .arp l => if beAt l 6 2 = 1 ∧ beAt l 24 4 = rdN s (Reg.ING_PORT_IPV4 p) then some 0x0806 else none
  | .ip v6 proto _ dst l =>
    let mine (a : Nat) : Bool := a == portIp6 s p || a == portLinkLocal s p
    if v6 then
      (if proto ≠ 58 then none
      else if beAt l 0 1 = 135 ∧ mine (beAt l 8 16) then some 135
      else if beAt l 0 1 = 128 ∧ mine dst then some 128
      else if beAt l 0 1 = 130 then some 130 else none)
    else if proto = 1 ∧ beAt l 0 1 = 8 ∧ dst = rdN s (Reg.ING_PORT_IPV4 p) then some 8
    else if proto = 2 ∧ beAt l 0 1 = 0x11 then some 2 else none
  | .ptp _ => none
/-- Ziltur takes a packet, at most 10,000 in a second per port. -/
def toZiltur (p : Nat) (a : Accepted) (s : Dev) : Dev :=
  let sec := now s / 1000000000
  let c := mget (fun _ => (0, 0)) s.ing.ctl p
  let n := if c.1 = sec then c.2 else 0
  if 10000 ≤ n then bump Reg.ING_CTL_DROP_CNT 1 s
  else
    let s := { s with ing := { s.ing with ctl := mset (fun _ => (0, 0)) s.ing.ctl p (sec, n + 1) } } |> send (.rx p .ziltur)
    match zilturAnswers s p a with
    | some k =>
      if k = 2 ∨ k = 130 then forS ((List.range 512).filter fun st => stValid s st && stPort s st == p && (stF s st 0 4 1 == 1) == (k == 130)) (groupMsg true) s
      else s |> send (.reply p k) |> bump (Reg.ING_PORT_TX_CNT p) 1
    | none => s
/-- An RTP packet as its stream takes it (R255): the CSRC list and the header extension skipped, padding removed. What is too short to be
one has version 0. -/
def readRtp (src : Nat) (u : List Byte) : RtpPkt :=
  let b := beAt u 0 1
  let h := 12 + 4 * (b % 16)
  let start := if bitOf b 4 then h + 4 + 4 * beAt u (h + 2) 2 else h
  let pad := if bitOf b 5 then beAt u (u.length - 1) 1 else 0
  if u.length < start + pad then ⟨0, 0, false, 0, 0, 0, [], src⟩
  else ⟨b / 64, beAt u 1 1 % 128, bitOf (beAt u 1 1) 7, beAt u 2 2, beAt u 4 4, beAt u 8 4, (u.take (u.length - pad)).drop start, src⟩
/-- The packets of a compound RTCP packet, in order: sender reports and BYE act (R258, R266). -/
def takeRtcp (st : Nat) : Nat → List Byte → Dev → Dev
  | 0, _, s => s
  | n + 1, u, s =>
    let len := 4 * (beAt u 2 2 + 1)
    if u.length < len ∨ beAt u 0 1 / 64 ≠ 2 then s
    else
      let s := if beAt u 1 1 = 200 ∧ 28 ≤ len then senderReport st (beAt u 4 4) (beAt u 8 4) (beAt u 12 4) (beAt u 16 4) s
        else if beAt u 1 1 = 203 then rtcpBye st s else s
      takeRtcp st n (u.drop len) s
/-- The UDP payload of a packet, without padding of the frame. -/
def udpBody : Accepted → List Byte
  | .ip _ _ _ _ u => (u.take (beAt u 4 2)).drop 8
  | _ => []
/-- The source address of a packet. -/
def srcAddr : Accepted → Nat
  | .ip _ _ src _ _ => src
  | _ => 0
/-! ## PTP messages (R37, R38) -/

/-- The body length of a PTP message type; TLVs follow it. -/
def ptpBody (t : Nat) : Nat := if t = 11 then 64 else if [2, 3, 9, 10].contains t then 54 else 44
/-- Whether the TLVs of a message hold a security or alternate-timescale TLV. -/
def ptpTlvs : Nat → List Byte → Bool
  | 0, _ => false
  | f + 1, l => decide (4 ≤ l.length) && ([0x0009, 0x2000, 0x8009].contains (beAt l 0 2) || ptpTlvs f (l.drop (4 + beAt l 2 2)))
/-- The header of a PTP message (log entry 65): an interval of 0x7F is none. -/
def ptpHdrOf (tr : Nat) (l : List Byte) : PtpHdr :=
  let i := toSigned (beAt l 33 1) 8
  { domain := beAt l 4 1, transport := tr, unicast := bitOf (beAt l 6 1) 2, tlv := ptpTlvs l.length ((l.take (beAt l 2 2)).drop (ptpBody (beAt l 0 1 % 16))), src := beAt l 20 8, srcPort := beAt l 28 2,
    seq := beAt l 30 2, logInterval := if i = 127 then 0 else i, corr := toSigned (beAt l 8 8) 64 }
/-- The timestamp of a message's body, in ns. -/
def ptpTime (l : List Byte) : Nat := beAt l 34 6 * 1000000000 + beAt l 40 4
/-- The dataset of an Announce message; announceReceiptTimeout is the standard's 3. -/
def ptpDataset (l : List Byte) : Announce :=
  { gm := beAt l 53 8, prio1 := beAt l 47 1, cls := beAt l 48 1, acc := beAt l 49 1, var := beAt l 50 2, prio2 := beAt l 52 1, steps := beAt l 61 2, timeout := 3, utc := toSigned (beAt l 44 2) 16 }
/-- The time unit takes a PTP message, `tr` its transport: management messages are counted, signalling and other slaves' requests ignored. -/
def ptpMessage (p tr : Nat) (l : List Byte) (s : Dev) : Dev :=
  let h := ptpHdrOf tr l
  if beAt l 1 1 % 16 ≠ 2 ∨ l.length < 44 then s
  else match beAt l 0 1 % 16 with
    | 0 => ptpSyncS p h (bitOf (beAt l 6 1) 1) (ptpTime l) s
    | 2 => ptpPdelayReqS p h s
    | 3 => ptpPdelayResp p h (bitOf (beAt l 6 1) 1) (ptpTime l) s
    | 8 => ptpFollowUpS p h (ptpTime l) s
    | 9 => ptpDelayRespS p h false (ptpTime l) s
    | 10 => ptpPdelayFollowUp p h (ptpTime l) s
    | 11 => ptpAnnounceS p h (ptpDataset l) s
    | 13 => ptpDrop s
    | _ => s
/-- The transport of an accepted packet (Table 2-2). -/
def ptpTransport : Accepted → Nat
  | .ip false _ _ _ _ => 0
  | .ip true _ _ _ _ => 1
  | _ => 2
/-- Deliver an accepted packet. -/
def deliver (p : Nat) (a : Accepted) (s : Dev) : Dev :=
  match destOf s p a with
  | some .ziltur => toZiltur p a s
  | some .time => s |> send (.rx p .time) |> ptpMessage p (ptpTransport a) (ptpBytes a)
  | some .mdo => s |> send (.rx p .mdo) |> ingressDatagram p (srcAddr a) (udpBody a)
  | some (.media st) => s |> send (.rx p (.media st)) |> rtpMediaPacket st (readRtp (srcAddr a) (udpBody a))
  | some (.control st) => s |> send (.rx p (.control st)) |> takeRtcp st (udpBody a).length (udpBody a)
  | none => bump (Reg.ING_PORT_NOMATCH_CNT p) 1 s
/-- ETH_FRAME_RX (R248, R251, R252): `bytes` is the frame with its FCS, `fcsOk` what the FCS check says. -/
def ethFrameRx (p : Nat) (bytes : List Byte) (fcsOk : Bool) (s : Dev) : Dev :=
  if !(portRuns s p) then s
  else if !fcsOk || decide (bytes.length < 64) || decide (9022 < bytes.length) then bump (Reg.ING_PORT_FCS_CNT p) 1 s
  else
    let s := bump (Reg.ING_PORT_RX_CNT p) 1 s
    match acceptFrame s p (bytes.take (bytes.length - 4)) with
    | .inl a => deliver p a s
    | .inr .nomatch => bump (Reg.ING_PORT_NOMATCH_CNT p) 1 s
    | .inr .l3 => bump (Reg.ING_PORT_L3_DROP_CNT p) 1 s
    | .inr .csum => bump (Reg.ING_PORT_CSUM_CNT p) 1 s
/-- ETH_FRAME_RX (R251). -/
def execEthFrameRx (p : Fin 4) (bytes : List Byte) (fcsOk : Bool) (s : State) : Result := onDev (ethFrameRx p bytes fcsOk) s

end Sys2Proof.Machine
end

