-- ==== Sys2Proof/Machine/Pcie.lean ====
section
/-! DEFINITION. The PCIe endpoint: link, configuration space, BAR2, rings, MSI-X, function reset and power states (R376 to R396, R443 to
R446, R457). -/
set_option autoImplicit false
namespace Sys2Proof.Machine
open Sys2Proof

/-! ## Errors (R395, Table 16-8) -/

/-- Bit `i` of the correctable error status, and the count. -/
def aerCorrBit (i : Nat) (s : Dev) : Dev := s |> cfgPut 0x110 (putBits (cfgDw s 0x110) i 1 1) |> bump Reg.PCI_AER_CORR_CNT 1
/-- A correctable AER error: bit `i` of the status register. -/
def aerCorr (i : Nat) (s : Dev) : Dev := s |> aerCorrBit i |> raise 0x1201 0 (rdN s Reg.PCI_FAULT_INFO)
/-- The header log holds the TLP of an error that has not been cleared: the one that First Error Pointer names. -/
def logHeld (s : Dev) : Bool := bitOf (cfgDw s 0x104) (bits (cfgDw s 0x118) 0 5)
/-- Bit `i` of the uncorrectable error status. An error that is not masked is logged with the first 4 dwords of its TLP, which no command spells out
(log entry 6), and First Error Pointer names it; one that comes before the log was read overflows it (Table 16-8). -/
def aerUncorr (i : Nat) (s : Dev) : Dev :=
  let set (s : Dev) : Dev := cfgPut 0x104 (putBits (cfgDw s 0x104) i 1 1) s
  if bitOf (cfgDw s 0x108) i then set s
  else if logHeld s then s |> set |> aerCorr 15
  else
    forS (List.range 4) (fun j s => freshS (cfgPut (0x11C + 4 * j) (Config.freeNat s.fresh % 2 ^ 32) s)) s
      |> cfgPut 0x118 (putBits (cfgDw s 0x118) 0 5 i) |> set
/-- An error whose default severity is non-fatal: bit `i` of the status register. With that severity it is advisory as well. -/
def aerNonfatal (i : Nat) (s : Dev) : Dev :=
  s |> aerUncorr i |> bump Reg.PCI_AER_NONFATAL_CNT 1 |> raise 0x1202 0 (rdN s Reg.PCI_FAULT_INFO)
    |> whenS (!(bitOf (cfgDw s 0x10C) i)) (aerCorr 13)
/-- A fatal error of the link: bit `i` of the status register. -/
def aerFatal (i : Nat) (s : Dev) : Dev :=
  s |> aerUncorr i |> bump Reg.PCI_AER_FATAL_CNT 1 |> wrN Reg.PCI_FAULT_INFO (5 * 16) |> raise 0x1203 0 (5 * 16)
/-- An error in an endpoint buffer (Table 16-8): internal errors, which have events of their own. -/
def bufEcc (bad : Bool) (s : Dev) : Dev :=
  if bad then
    s |> bump16 Reg.PCI_ECC_CNT 16 1 |> aerUncorr 22 |> bump Reg.PCI_AER_FATAL_CNT 1 |> wrN Reg.PCI_FAULT_INFO (4 * 16) |> raise 0x1208 0 (4 * 16)
  else s |> bump16 Reg.PCI_ECC_CNT 0 1 |> aerCorrBit 14 |> raise 0x1207 0 (rdN s Reg.PCI_FAULT_INFO)
/-- A fault of ring `r`: PCI_FAULT_INFO names it and the event. -/
def ringFault (r ev bit : Nat) (s : Dev) : Dev := s |> wrN Reg.PCI_FAULT_INFO (r + ev * 16) |> raise (0x1200 + bit) r (r + ev * 16)
/-- A report that is not an error. -/
def pciReport (bit unit : Nat) (s : Dev) : Dev := raise (0x1200 + bit) unit (rdN s Reg.PCI_FAULT_INFO) s

/-! ## What the host reaches (R380, R381, R440) -/

/-- The link is up. -/
def linkUp (s : Dev) : Bool := tst s Reg.PCI_STATUS 0
/-- Whether a memory request of the host reaches a BAR: no function reset, D0, Memory Space enabled. -/
def barReached (s : Dev) : Bool := linkUp s && !(tst s Reg.PCI_STATUS 10) && !(inD3 s) && bitOf (cfgDw s 0x04) 1
/-- A memory request of the host: `f` when it reaches a BAR, else Unsupported Request. -/
def hostMem (f : Dev → Dev) (s : Dev) : Dev :=
  if !(linkUp s) then s else if barReached s then f (leaveL1 s) else if tst s Reg.PCI_STATUS 10 then s else aerNonfatal 20 s
/-- s of R381: the BAR2 size is 2^s bytes. -/
def bar2Bits (s : Dev) : Nat := 28 + rf s Reg.PCI_BAR2_SIZE 0 3

/-! ## Function reset (R392, R393) -/

/-- PCI_STATUS copies of configuration space (Table 16-10). -/
def pciCopies (s : Dev) : Dev := s |> setB Reg.PCI_STATUS 12 (busMaster s) |> setB Reg.PCI_STATUS 13 (inD3 s)
/-- The trigger of a function reset: no new request leaves, FLR_BUSY reads 1. -/
def fnReset (s : Dev) : Dev :=
  if tst s Reg.PCI_STATUS 10 then s
  else s |> setB Reg.PCI_STATUS 10 true |> bump Reg.PCI_FLR_CNT 1 |> pciReport 9 0
/-- Configuration bytes that a function reset leaves alone: the AER registers, which the PCI Express Base Specification makes sticky, and the
subsystem identifiers, which come from the image. -/
def sticky (a : Nat) : Bool := (decide (0x104 ≤ a) && decide (a < 0x12C)) || (decide (0x2C ≤ a) && decide (a < 0x30))
/-- The function reset completes: what R392 lists returns to its reset values. -/
def fnResetDone (s : Dev) : Dev :=
  if !(tst s Reg.PCI_STATUS 10) then s
  else
    { s with pci := { s.pci with cfg := s.pci.cfg.filter fun e => sticky e.1, msix := [], pba := 0, modAt := [], deferred := [], everUnmasked := 0 } }
      |> clearRegs (Reg.PCI_RING_BASE_LO 0) (Reg.PCI_RING_BASE_LO 12) |> clearRegs Reg.PCI_BAR2_WIN_LO Reg.PCI_BAR2_SIZE
      |> setB Reg.PCI_STATUS 10 false |> pciCopies
/-- INITIATE_FLR (R392): the host sets Initiate Function Level Reset. -/
def execInitiateFlr (s : State) : Result := onDev (fun d => if linkUp d then fnReset d else d) s
/-- FLR_COMPLETE (R392). -/
def execFlrComplete (s : State) : Result := onDev fnResetDone s

/-! ## Link (R376, R378, R393, R394, R457) -/

/-- The highest speed at which the link trains: MAX_GEN, and before an image has given it every speed of R376, since training does not wait for the
image (R377, log entry 68). -/
def maxGen (s : Dev) : Nat := if rf s Reg.PCI_LINK_CFG 0 3 = 0 then 5 else rf s Reg.PCI_LINK_CFG 0 3
/-- PCIE_LINK_UP (R376): the link trains at a speed up to MAX_GEN and a width; a link that is up retrains. `rep` is what its layers report
meanwhile (R378, R395). -/
def pcieLinkUp (gen width : Nat) (rep : LinkReport) (s : Dev) : Dev :=
  if !s.pins.perst || gen == 0 || decide (maxGen s < gen) || !([1, 2, 4, 8, 16].contains width) then s
  else s |> whenS (linkUp s) (bump Reg.PCI_RETRAIN_CNT 1) |> setB Reg.PCI_STATUS 0 true |> wf Reg.PCI_STATUS 1 3 gen |> wf Reg.PCI_STATUS 4 5 width |> leaveL1
    |> whenS (decide (gen < 5) || decide (width < 16)) (pciReport 11 0) |> bump Reg.PCI_REPLAY_CNT rep.replays
    |> forS (rep.corr.filter fun i => [0, 6, 7, 8, 12].contains i) aerCorr |> forS (rep.fatal.filter fun i => [4, 13, 17, 18].contains i) aerFatal
/-- PCIE_LINK_UP (R376). -/
def execPcieLinkUp (gen width : Nat) (rep : LinkReport) (s : State) : Result := onDev (pcieLinkUp gen width rep) s
/-- DL_Down (R393): the event, the count, and the function reset. -/
def pcieLinkDown (s : Dev) : Dev :=
  if !(linkUp s) then s
  else s |> wf Reg.PCI_STATUS 0 10 0 |> bump Reg.PCI_LINK_DOWN_CNT 1 |> raise 0x1200 0 (rdN s Reg.PCI_FAULT_INFO) |> fnReset
/-- PCIE_LINK_DOWN (R393). -/
def execPcieLinkDown (s : State) : Result := onDev pcieLinkDown s
/-- PCIE_PERST_N low (R457) resets the endpoint only. -/
def perstAssert (s : Dev) : Dev := { (if inReset s then s else settle (pcieLinkDown s)) with pins := { s.pins with perst := false } }
/-- PCIE_PERST_ASSERT (R457). -/
def execPciePerstAssert (s : State) : Result := onPin perstAssert s
/-- PCIE_PERST_RELEASE (R377): the link may train, and configuration requests meet Request Retry Status until CFG_READY. -/
def execPciePerstRelease (s : State) : Result := onPin (fun s => { s with pins := { s.pins with perst := true } }) s
/-- L1_IDLE_EXPIRY (R394): with ASPM L1 enabled and nothing to send, the endpoint requests L1 when no TLP has passed for L1_IDLE µs. -/
def l1Idle (s : Dev) : Dev :=
  if linkUp s && bitOf (cfgDw s 0x60) 1 && !(s.pci.waiting.any fun p => ringCanTake s p.ring) then s |> waitUntil (s.pci.tlpAt + rf s Reg.PCI_LINK_CFG 3 10 * 1000) |> setB Reg.PCI_STATUS 9 true else s
/-- L1_IDLE_EXPIRY (R394). -/
def execL1IdleExpiry (s : State) : Result := onDev l1Idle s
/-- A PCI_WAKE write (R394, R433). -/
def pciWake (v : Nat) (s : Dev) : Dev := if bitOf v 0 then wakeIf 2 s else s
/-- PCI_WAKE (R394). -/
def execPciWake (v : Word) (s : State) : Result := onDev (hostMem (pciWake v.toNat)) s

/-! ## Configuration requests (R377, R379, R381) -/

/-- The bits of a configuration dword that a write changes, and those that a written 1 clears (Tables 16-1 to 16-3; for what they do not name, the
PCI Express Base Specification; log entry 6). -/
def cfgMasks (s : Dev) (a : Nat) : Nat × Nat :=
  let z := bar2Bits s
  match a with
  | 0x04 => (0x146, 0xF9000000)
  | 0x0C => (0xFF, 0)
  | 0x10 => (0xFC000000, 0)
  | 0x14 => (0xFFFFFFFF, 0)
  | 0x18 => (if z ≤ 31 then 2 ^ 32 - 2 ^ z else 0, 0)
  | 0x1C => (if z ≤ 32 then 0xFFFFFFFF else 2 ^ 32 - 2 ^ (z - 32), 0)
  | 0x20 => (0xFFF00000, 0)
  | 0x24 => (0xFFFFFFFF, 0)
  | 0x44 => (0x3, 0)
  | 0x58 => (0x79FF, 0x000F0000)
  | 0x60 => (0xCB, 0)
  | 0x78 => (0x1F, 0)
  | 0x80 => (0xFFFF, 0)
  | 0x90 => (0xC0000000, 0)
  | 0x104 => (0, 0x07FFF030)
  | 0x108 => (0x07FFF030, 0)
  | 0x10C => (0x07FFF030, 0)
  | 0x110 => (0, 0xF1C1)
  | 0x114 => (0xF1C1, 0)
  | 0x118 => (0x400, 0)
  | _ => (0, 0)
/-- A configuration dword as the host reads it: the device serial number is DEV_ID while the identity is valid (R416). -/
def cfgRead (s : Dev) (a : Nat) : Nat :=
  if a = 0x154 ∨ a = 0x158 then (if tst s Reg.SEC_STATUS 0 then rdN s (Reg.SEC_DEV_FP ((a - 0x154) / 4)) else 0) else cfgDw s a
/-- What a configuration write brings about beside its bits: a function reset, D3hot or D0, and messages that may leave now. -/
def cfgEffects (a v : Nat) (s : Dev) : Dev :=
  let s := s |> pciCopies |> msixFlush
  if a = 0x58 && bitOf v 15 then fnReset s else s
/-- A write under byte enables. PowerState takes D0 and D3hot only. -/
def cfgWrite (a be v : Nat) (s : Dev) : Dev :=
  let m := cfgMasks s a
  let lanes := (bitList be 4).foldl (fun x i => x + 0xFF * 2 ^ (8 * i)) 0
  let old := cfgDw s a
  let v := v &&& lanes
  let new_ := old - (old &&& m.1 &&& lanes) + (v &&& m.1)
  let new_ := new_ - (new_ &&& m.2 &&& v)
  let new_ := if a = 0x44 && (new_ % 4 == 1 || new_ % 4 == 2) then new_ - new_ % 4 + old % 4 else new_
  s |> cfgPut a new_ |> cfgEffects a v
/-- CONFIG_REQUEST (R379): Request Retry Status until CFG_READY and during a function reset (R377, R392). -/
def configRequest (a be : Nat) (wr : Option Word) (s : Dev) : Dev :=
  let a := a / 4 * 4
  if !(linkUp s) then s
  else if !(tst s Reg.PCI_STATUS 11) || tst s Reg.PCI_STATUS 10 then s |> leaveL1 |> send (.cfg none)
  else match wr with
    | none => s |> leaveL1 |> send (.cfg (some (cfgRead s a)))
    | some v => s |> leaveL1 |> cfgWrite a be v.toNat |> send (.cfg (some 0))
/-- CONFIG_REQUEST (R379): a read or a write of a dword under byte enables. -/
def execConfigRequest (a : Fin 4096) (be : Fin 16) (wr : Option Word) (s : State) : Result := onDev (configRequest a.val be.val wr) s
/-- PCIE_D3HOT_ENTRY (R380): the host writes PowerState. -/
def execPcieD3hotEntry (s : State) : Result := onDev (configRequest 0x44 1 (some 3)) s
/-- PCIE_D0_RETURN (R380): nothing of the function is reset, and the rings resume. -/
def execPcieD0Return (s : State) : Result := onDev (configRequest 0x44 1 (some 0)) s

/-! ## BAR2 (R383) -/

/-- Whether every byte of a range lies in a valid region of its die. -/
def inRegions (s : Dev) (a n : Nat) : Bool :=
  let ok (x : Nat) : Bool := decide (x < dramBytes) && (regionMap s (x / 2 ^ 34) (x % 2 ^ 34)).isSome
  ok a && ok (a + (n - 1)) && (List.range (n / 2 ^ 21)).all fun i => ok (a + i * 2 ^ 21)
/-- A read of `n` bytes at device address `a`: Completer Abort in no valid region, a poisoned completion where the data cannot be had. -/
def bar2Read (a n : Nat) (ecc : Bool) (s : Dev) : Dev :=
  match dramRead s 0 a n with
  | none => if ecc then s |> eccUncorr (32 * (a / 2 ^ 34 % 2) + (dramPlace ((regionMap s (a / 2 ^ 34 % 2) (a % 2 ^ 34)).getD 0) (a % 2 ^ 34)).1) a |> send (.bar2 none)
    else send (.bar2 (some (rdBytes .dram s a n))) s
  | some x =>
    let s := reportReach x s
    if x.why = .unmapped then s |> aerNonfatal 15 |> send (.bar2 none) else send (.bar2 none) s
/-- A BAR2 access at offset `o`: a write of bytes, or a read of `n` bytes, and what befalls it on its way. In ebb a read is aborted, a write
discarded. -/
def bar2Access (o n : Nat) (wr : Option (List Byte)) (flt : TlpFlt) (s : Dev) : Dev :=
  let a := rd64 s Reg.PCI_BAR2_WIN_LO + o
  let go (s : Dev) : Dev :=
    if 2 ^ bar2Bits s < o + n then aerNonfatal 20 s
    else match wr with
      | none => if 2 ≤ ebbState s then s |> aerNonfatal 15 |> send (.bar2 none) else bar2Read a n (flt == .dramEcc) s
      | some l => if 2 ≤ ebbState s then s else reachWrite 0 a l s
  match flt with
  | .malformed => aerFatal 18 s
  | .unexpected => aerNonfatal 16 s
  | .bufUncorr => bufEcc true s
  | .bufCorr => s |> bufEcc false |> go
  | .poisoned => if wr.isSome then aerNonfatal 12 s else go s
  | .none | .dramEcc => go s
/-- BAR2_ACCESS (R383). -/
def execBar2Access (o n : Nat) (wr : Option (List Byte)) (flt : TlpFlt) (s : State) : Result :=
  onDev (hostMem (bar2Access o (match wr with | some l => l.length | none => n) wr flt)) s

/-! ## Rings (R386, R389, R391, R446) -/

/-- The smallest LOG_SLOT of a ring (Table 16-4). -/
def minSlot (r : Nat) : Nat := if r ≤ 4 then 11 else if r = 6 then 8 else if r = 8 ∨ r = 10 then 10 else 6
/-- Whether the device writes the ring. -/
def isD2H (r : Nat) : Bool := [0, 1, 2, 3, 5, 7, 9, 11].contains r
/-- Whether R386 lets a ring be enabled. -/
def ringValid (s : Dev) (r : Nat) : Bool :=
  let c := rdN s (Reg.PCI_RING_CFG r)
  let e := bits c 1 4
  let z := bits c 5 4
  decide (4 ≤ e) && decide (minSlot r ≤ z) && decide (z ≤ 11) && rf s (Reg.PCI_RING_BASE_LO r) 0 12 == 0
/-- A ring turns OFF (Table 16-7). -/
def ringOff (r : Nat) (s : Dev) : Dev :=
  { s with pci := { s.pci with deferred := s.pci.deferred.erase r, modAt := mset (fun _ => 0) s.pci.modAt r 0 } } |> setB (Reg.PCI_RING_CFG r) 0 false |> wrN (Reg.PCI_RING_STATE r) 0
/-- A ring is enabled: both indices are 0 (R389). -/
def ringOn (r : Nat) (s : Dev) : Dev :=
  s |> setB (Reg.PCI_RING_CFG r) 0 true |> wrN (Reg.PCI_RING_PI r) 0 |> wrN (Reg.PCI_RING_CI r) 0 |> wrN (Reg.PCI_RING_STATE r) 1
/-- A write of PCI_RING_CFG. While EN is 1 only EN takes it: a change of another field is ignored with HOST_REJECT, unless the write clears EN. -/
def ringCfgWrite (r v : Nat) (s : Dev) : Dev :=
  let a := Reg.PCI_RING_CFG r
  if tst s a 0 then
    if !(bitOf v 0) then ringOff r s
    else if v % 2 ^ 26 = rdN s a then s else pciReport 12 r s
  else
    let s := wrN a (putBits (bits v 1 25 * 2) 16 10 (min 1000 (bits v 16 10))) s
    if !(bitOf v 0) then s
    else if ringValid s r then ringOn r s else ringFault r 3 6 s
/-- RING_ENABLE (R386): a host write of PCI_RING_CFG that sets EN. -/
def execRingEnable (r : Fin 12) (cfg : Word) (s : State) : Result := onDev (hostMem (ringCfgWrite r.val (putBits cfg.toNat 0 1 1))) s
/-- RING_DISABLE (R391): a host write that clears EN and keeps the other fields. An entry is whole in this model, so none is in progress. -/
def execRingDisable (r : Fin 12) (s : State) : Result :=
  onDev (hostMem fun d => ringCfgWrite r.val (putBits (rdN d (Reg.PCI_RING_CFG r.val)) 0 1 0) d) s
/-- A ring stops: it moves no entry until it is enabled again (R389, R391). -/
def ringStop (r : Nat) (s : Dev) : Dev := wf (Reg.PCI_RING_STATE r) 0 2 2 s
/-- DOORBELL_WRITE (R389, R446). The index that the device compares with is its CI; on a D2H ring the host's CI may not pass PI. -/
def doorbell (r be v : Nat) (s : Dev) : Dev :=
  if be ≠ 15 then pciReport 10 r s
  else if ringState s r ≠ 1 then pciReport 12 r s
  else
    let d := (v + 2 ^ 32 - rdN s (Reg.PCI_RING_CI r)) % 2 ^ 32
    let lim := if isD2H r then ringUsed s r else ringEntries s r
    if lim < d then s |> ringStop r |> ringFault r 1 4
    else s |> wrN (if isD2H r then Reg.PCI_RING_CI r else Reg.PCI_RING_PI r) v |> ringFullBit r
/-- DOORBELL_WRITE (R389): a write to the doorbell of ring `r` under byte enables. -/
def execDoorbellWrite (r : Fin 12) (be : Fin 16) (v : Word) (s : State) : Result := onDev (hostMem (doorbell r.val be.val v.toNat)) s
/-- PCI_DMA_ERR (R391): a request of the endpoint for ring `r` completes with UR (0), CA (1), poisoned data (2) or Completion Timeout (3). -/
def pciDmaErr (r how : Nat) (s : Dev) : Dev :=
  if ringState s r ≠ 1 then s
  else s |> ringStop r |> ringFault r 2 5 |> whenS (how == 2) (aerNonfatal 12) |> whenS (how == 3) (aerNonfatal 14)
/-- PCI_DMA_ERR (R391). -/
def execPciDmaErr (r : Fin 12) (how : Fin 4) (s : State) : Result := onDev (pciDmaErr r.val how.val) s

/-! ## MSI-X (R385, R443 to R445) -/

/-- The moderation time of a ring ends: a signal that fell into it is sent (R385). -/
def moderationEnd (r : Nat) (s : Dev) : Dev :=
  if !(s.pci.deferred.contains r) then s
  else
    let s := waitUntil (mget (fun _ => 0) s.pci.modAt r + rf s (Reg.PCI_RING_CFG r) 16 10 * 1000) s
    { s with pci := { s.pci with deferred := s.pci.deferred.erase r, modAt := mset (fun _ => 0) s.pci.modAt r (now s) } } |> msixSend (rf s (Reg.PCI_RING_CFG r) 9 6)
/-- MSIX_MODERATION_EXPIRY (R385). -/
def execMsixModerationExpiry (r : Fin 12) (s : State) : Result := onDev (moderationEnd r.val) s
/-- Whether an enabled pending source is mapped to a vector. -/
def mappedPending (s : Dev) (v : Nat) : Bool :=
  (List.range 24).any fun i => decide (1 ≤ i) && tst s Reg.GEN_IRQ_PEND i && tst s Reg.GEN_IRQ_EN i && rf s (Reg.GEN_IRQ_VEC i) 0 6 == v
/-- The host unmasks a vector: its pending message is sent, and at the first unmasking after a function reset one message when a mapped
GEN_IRQ_PEND bit reads 1 (R445). -/
def msixUnmask (v : Nat) (s : Dev) : Dev :=
  let first := !(bitOf s.pci.everUnmasked v)
  let due := bitOf s.pci.pba v || (first && mappedPending s v)
  { s with pci := { s.pci with msix := mset msixReset s.pci.msix (16 * v + 12) 0, everUnmasked := putBits s.pci.everUnmasked v 1 1 } } |> setPba v false
    |> whenS due (msixSend v)
/-- MSIX_UNMASK (R445). -/
def execMsixUnmask (v : Fin 64) (s : State) : Result := onDev (hostMem (msixUnmask v.val)) s
/-- A W1C write to GEN_IRQ_PEND (R444): bits clear, and each bit that still reads 1 and is enabled requests its message again. -/
def irqPendWrite (v : Nat) (s : Dev) : Dev :=
  let p := rdN s Reg.GEN_IRQ_PEND
  let s := wrN Reg.GEN_IRQ_PEND (p - (p &&& v)) s
  forS ((List.range 24).filter fun i => tst s Reg.GEN_IRQ_PEND i && tst s Reg.GEN_IRQ_EN i) irqRequest s

end Sys2Proof.Machine
end

