-- ==== Sys2Proof/Machine/Boot.lean ====
section
/-! DEFINITION. Resets, the boot stages, the flash, identity and attestation (chapter 17, R454 to R458). -/
set_option autoImplicit false
namespace Sys2Proof.Machine
open Sys2Proof

/-! ## The boot flash (R397 to R400) -/

/-- One byte of the flash. -/
def fl (s : Dev) (a : Nat) : Byte := mget erasedByte s.flash a
/-- Bytes of the flash. -/
def flBytes (s : Dev) (a n : Nat) : List Byte := (List.range n).map fun i => fl s (a + i)
/-- A little-endian number in the flash. -/
def flLE (s : Dev) (a n : Nat) : Nat := leNat (flBytes s a n)
/-- Write bytes of the flash. -/
def flPut (a : Nat) (l : List Byte) (s : Dev) : Dev :=
  { s with flash := (enum l 0).foldl (fun m x => mset erasedByte m (a + x.1) x.2) s.flash }
/-- What a cut or failed operation leaves in the flash is open (log entry 3). -/
def flFree (a n : Nat) (s : Dev) : Dev :=
  { flPut a ((List.range n).map fun i => BitVec.ofNat 8 (Config.freeNat (s.fresh + i))) s with fresh := s.fresh + n }
/-- 64 KiB. -/
def eraseSize : Nat := 65536
/-- 4 KiB. -/
def pageSize : Nat := 4096
/-- Show whether an operation is in progress. -/
def flashBusy (s : Dev) : Dev := setB Reg.BOOT_STATUS 13 (!s.bt.ops.isEmpty) s
/-- The size S of a slot (R399). -/
def slotSize (s : Dev) : Nat := (s.bt.dens - 4 * 2 ^ 20) / (2 * 2 ^ 20) * 2 ^ 20
/-- Where a slot begins. -/
def slotBase (s : Dev) (i : Nat) : Nat := 0x400000 + i * slotSize s
/-- An operation is cut short by XSPI_RESET_N (R456). -/
def cutFlash (s : Dev) : Dev :=
  match s.bt.ops with
  | .erase a :: _ => flFree a eraseSize s
  | .program a d :: _ => flFree a d.length s
  | _ => s

/-! ## Stages -/

/-- BOOT_STATUS.STAGE. -/
def stage (s : Dev) : Nat := rf s Reg.BOOT_STATUS 0 4
/-- A stage begins. -/
def setStage (n : Nat) (s : Dev) : Dev := wf Reg.BOOT_STATUS 0 4 n { s with bt := { s.bt with at_ := now s } }
/-- The strap value in BOOT_STATUS. -/
def bootMode (s : Dev) : Nat := rf s Reg.BOOT_STATUS 14 2
/-- Boot begins at the release of reset: stage ROM and DRAM training (R411). -/
def bootStart (count mode : Nat) (s : Dev) : Dev :=
  { s with bt := { s.bt with rel := now s } } |> wrN Reg.BOOT_COUNT count |> wf Reg.BOOT_STATUS 14 2 mode |> setStage 1 |> trainBegin

/-! ## Resets (R373, R430, R454 to R458) -/

/-- Drive XSPI_RESET_N. -/
def driveXspi (v : Bool) (s : Dev) : Dev :=
  if s.pins.xspiReset = v then s else { s with pins := { s.pins with xspiReset := v } } |> send (.pin .xspiReset v)
/-- Before the first flash read XSPI_RESET_N has been low for 10 µs (R458). -/
def flashAwake (s : Dev) : Dev := s |> waitUntil (s.bt.rel + 10000) |> driveXspi true
/-- The whole device is reset: outputs low, XSPI_RESET_N among them, THERMTRIP_N released; what stays is the flash, what stands on the pins, what has left the device. -/
def deviceReset (s : Dev) : Dev :=
  let s := s |> cutFlash |> driveSync false |> drivePps false |> driveXspi false |> whenS s.pins.thermtrip (send (.pin .thermtrip true))
  { pins := { s.pins with thermtrip := false }, flash := s.flash, jtag := { s.jtag with until_ := 0 }, out := s.out, fresh := s.fresh }
/-- Boot after a power-on reset, once nothing holds the device in reset. -/
def coldBoot (s : Dev) : Dev := if inReset s then s else bootStart 1 s.pins.bootMode s
/-- A warm reset (R373, R458): the straps are not sampled again, and BOOT_COUNT goes on. -/
def warmReset (s : Dev) : Dev := bootStart (rdN s Reg.BOOT_COUNT + 1) (bootMode s) (deviceReset s)
/-- PORST_N rises (R454, R458): the straps are sampled. -/
def porstRelease (mode : Nat) (s : Dev) : Dev :=
  if s.pins.porst then s else coldBoot { s with pins := { s.pins with porst := true, bootMode := mode } }
/-- PORST_N_RELEASE (R454). -/
def execPorstNRelease (mode : Fin 4) (s : State) : Result := onPin (porstRelease mode.val) s
/-- PORST_N low (R456). -/
def porstAssert (s : Dev) : Dev := if s.pins.porst then deviceReset { s with pins := { s.pins with porst := false } } else s
/-- PORST_N_ASSERT (R456). -/
def execPorstNAssert (s : State) : Result := onPin porstAssert s
/-- A rail is under its minimum for more than 2 µs (R455). -/
def undervoltage (s : Dev) : Dev := if s.pins.under then s else deviceReset { s with pins := { s.pins with under := true } }
/-- UNDERVOLTAGE (R455). -/
def execUndervoltage (s : State) : Result := onPin undervoltage s
/-- Every rail has been in tolerance for 1 ms (R455). -/
def undervoltageEnd (s : Dev) : Dev := if s.pins.under then coldBoot { s with pins := { s.pins with under := false } } else s
/-- UNDERVOLTAGE_RELEASE (R455). -/
def execUndervoltageRelease (s : State) : Result := onPin undervoltageEnd s
/-- REFCLK_SYS is absent or out of range (R456). -/
def refclkLoss (s : Dev) : Dev := if s.pins.refLoss then s else deviceReset { s with pins := { s.pins with refLoss := true } }
/-- REFCLK_SYS_LOSS (R456). -/
def execRefclkSysLoss (s : State) : Result := onPin refclkLoss s
/-- REFCLK_SYS is back in range. -/
def refclkReturn (s : Dev) : Dev := if s.pins.refLoss then coldBoot { s with pins := { s.pins with refLoss := false } } else s
/-- REFCLK_SYS_RETURN (R456). -/
def execRefclkSysReturn (s : State) : Result := onPin refclkReturn s

/-- Registers of the always-on domain and of the PCIe endpoint (Table 18-1). -/
def alwaysOn (a : Nat) : Bool :=
  decide (a < 0x11000) || (decide (0x12000 ≤ a) && decide (a < 0x1C000)) || (decide (0x20000 ≤ a) && decide (a < 0x50000)) ||
    (decide (0x200000 ≤ a) && decide (a < 0x400000))
/-- The internal reset of R408: everything outside the always-on domain and the PCIe endpoint. -/
def innerReset (s : Dev) : Dev :=
  { regs := s.regs.filter fun e => alwaysOn e.1, time := s.time, ptp := s.ptp, tide := s.tide, bus := s.bus, pins := s.pins, flash := s.flash, mdo := s.mdo, err := s.err,
    pci := s.pci, clk := s.clk, pwr := { s.pwr with trans := [] }, bt := { s.bt with sects := [], flags := 0, gateLim := 0, next := 0, trained := false, reload := false, check := none },
    jtag := { s.jtag with until_ := 0 }, out := s.out, fresh := s.fresh }

/-! ## The image header (R401 to R408) -/

/-- The number of `n` bytes at offset `o` of slot `i`. -/
def hd (s : Dev) (i o n : Nat) : Nat := flLE s (slotBase s i + o) n
/-- Whether `n` bytes at offset `o` of slot `i` are 0. -/
def hdZero (s : Dev) (i o n : Nat) : Bool := (List.range n).all fun j => fl s (slotBase s i + o + j) == 0
/-- VERSION of a slot. -/
def hdVersion (s : Dev) (i : Nat) : Nat := hd s i 8 8
/-- CERT_OFS of a slot. -/
def certOfs (s : Dev) (i : Nat) : Nat := hd s i 16 4
/-- The checks of step 1 of R407 on the owner certificate. -/
def certShape (s : Dev) (i : Nat) : Bool :=
  let c := certOfs s i
  c == 0 || (hd s i c 4 == 0x54524543 && decide (hd s i (c + 76) 2 ≤ 64) && hdZero s i (c + 78) 2 && hdZero s i (c + 80 + 8 * hd s i (c + 76) 2) (512 - 8 * hd s i (c + 76) 2))
/-- Step 1 of R407. -/
def hdrOk (s : Dev) (i : Nat) : Bool :=
  let n := hd s i 6 2
  let c := certOfs s i
  let g := hd s i 20 4
  s.bt.dens != 0 && hd s i 0 4 == 0x49464B48 && hd s i 4 2 == 1 && decide (1 ≤ n) && decide (n ≤ 64) && [0, 8192, 12288].contains c && [8192, 12288].contains g && c != g &&
    decide (hd s i 24 4 < 8) && hdZero s i 36 220 && (List.range n).all (fun e => hdZero s i (256 + 64 * e + 12) 4 && hdZero s i (256 + 64 * e + 56) 8) &&
    hdZero s i (256 + 64 * n) (4096 - 64 * n) && certShape s i
/-- An entry of the section table (Table 17-3). -/
def readSect (s : Dev) (i e : Nat) : Sect :=
  let o := 256 + 64 * e
  { kind := hd s i o 2, source := hd s i (o + 2) 1, coves := hd s i (o + 3) 1, ofs := hd s i (o + 4) 4, len := hd s i (o + 8) 4, dest := hd s i (o + 16) 8, digest := flBytes s (slotBase s i + o + 24) 32 }
/-- The section table of a slot. -/
def readSects (s : Dev) (i : Nat) : List Sect := (List.range (hd s i 6 2)).map (readSect s i)
/-- The slot that the straps give first (R408). -/
def firstSlot (s : Dev) : Nat :=
  if bootMode s = 1 then 0 else if bootMode s = 2 then 1
  else if hdrOk s 1 && (!(hdrOk s 0) || decide (hdVersion s 0 < hdVersion s 1)) then 1 else 0
/-- The slot booted or being tried. -/
def slotOf (s : Dev) : Nat := rf s Reg.BOOT_STATUS 4 1
/-- Stage HEADER begins: the first slot, or the other one when it has failed. -/
def enterHeader (s : Dev) : Dev :=
  let i := if tst s Reg.BOOT_STATUS 5 then 1 else if tst s Reg.BOOT_STATUS 6 then 0 else firstSlot s
  s |> setStage 3 |> wf Reg.BOOT_STATUS 4 1 i |> wr64 Reg.BOOT_OTHER_VER_LO (if hdrOk s (1 - i) then hdVersion s (1 - i) else 0)
/-- The endpoint takes its configuration from the first header that passed step 3, or the values that R408 names (R377). -/
def cfgReady (vid sid size gen : Nat) (s : Dev) : Dev :=
  if tst s Reg.PCI_STATUS 11 then s
  else s |> cfgPut 0x2C (vid + sid * 2 ^ 16) |> wrN Reg.PCI_BAR2_SIZE (size % 8) |> wf Reg.PCI_LINK_CFG 0 3 (clampN gen 1 5) |> setB Reg.PCI_STATUS 11 true
/-- HALT (R408): only the always-on domain and the endpoint run, and the output pins are low. -/
def halt (reason : Nat) (s : Dev) : Dev :=
  s |> driveSync false |> drivePps false |> innerReset |> cfgReady 0 0 0 5 |> setStage 15 |> wf Reg.BOOT_STATUS 8 4 reason |> setB Reg.BOOT_STATUS 12 false
    |> wf Reg.SEC_STATUS 4 3 0 |> forS (List.range 96 ++ [97, 98]) (fun d => wf (Reg.PWR_DOM_STATE d) 0 2 3) |> raise 0x1301 0 reason
/-- A slot fails (R408): the other one is tried, or the device enters HALT. What the registers show of the failed image, its owner, debug and gate
flags and its sections, is cleared. -/
def slotFail (s : Dev) : Dev :=
  let i := slotOf s
  let s := s |> raise 0x1300 i i |> setB Reg.BOOT_STATUS (5 + i) true |> setB Reg.BOOT_STATUS 12 false |> wf Reg.SEC_STATUS 4 3 0
    |> wr64 Reg.BOOT_SECT_OK_LO 0 |> wr64 Reg.BOOT_SECT_PEND_LO 0
  if tst s Reg.BOOT_STATUS 5 && tst s Reg.BOOT_STATUS 6 then halt 1 s else s |> innerReset |> trainBegin |> enterHeader

/-! ## Stages ROM, FLASH and HEADER -/

/-- Eight register words. -/
def put8 (f : Nat → Nat) (l : List Word) (s : Dev) : Dev := forS (List.range 8) (fun i => wrN (f i) (l.getD i 0).toNat) s
/-- The record of the signature-state log at place `i`: LIMIT and SEQ (R417). -/
def logRec (s : Dev) (i : Nat) : Nat × Nat := (flLE s (0x10000 + 16 * i) 4, flLE s (0x10000 + 16 * i + 4) 4)
/-- The signature state at boot (R417): `i` is the place of the record with the highest SEQ whose check is correct. -/
def logStart (i : Option Nat) (s : Dev) : Dev :=
  let lim := match i with | some x => min 65536 (logRec s x).1 | none => 0
  { s with bt := { s.bt with logAt := i } } |> wrN Reg.SEC_XMSS_IDX lim |> wrN Reg.SEC_XMSS_RES lim
    |> whenS i.isNone (fun s => s |> setB Reg.SEC_STATUS 7 true |> raise 0x1402 0 0) |> whenS (lim == 65536) (raise 0x1403 0 0)
/-- BOOT_ROM_DONE (R411, R415, R417): whether the security block passes its self-test, whether the device certificate verifies and the check value
matches, the fingerprint of the attestation key, and the log's governing record. -/
def romDone (pass idOk : Bool) (fp : List Word) (log : Option Nat) (s : Dev) : Dev :=
  if stage s ≠ 1 then s
  else if !pass then halt 3 s
  else
    let s := if idOk then s |> setB Reg.SEC_STATUS 0 true |> put8 Reg.SEC_DEV_FP fp else raise 0x1400 0 0 s
    s |> flashAwake |> logStart log |> setStage 2
/-- BOOT_ROM_DONE (R411). -/
def execBootRomDone (pass idOk : Bool) (fp : List Word) (log : Option (Fin 8192)) (s : State) : Result := onDev (romDone pass idOk fp (log.map (·.val))) s
/-- BOOT_FLASH_DONE (R397, R398): the density that SFDP gives, and whether a valid descriptor switched the protocol. -/
def flashDone (dens : Option Nat) (octal : Bool) (s : Dev) : Dev :=
  if stage s ≠ 2 then s
  else match dens with
    | some d =>
      if d < 64 * 2 ^ 20 then halt 1 s
      else { s with bt := { s.bt with dens := min d (512 * 2 ^ 20) } } |> setB Reg.BOOT_STATUS 7 octal |> enterHeader
    | none => halt 1 s
/-- BOOT_FLASH_DONE (R398). -/
def execBootFlashDone (dens : Option Nat) (octal : Bool) (s : State) : Result := onDev (flashDone dens octal) s
/-- Whether the certificate's scope admits this part (R406, R407). -/
def scopeOk (s : Dev) (i : Nat) : Bool :=
  let c := certOfs s i
  let n := hd s i (c + 76) 2
  n == 0 || (tst s Reg.SEC_STATUS 0 && (List.range n).any fun j => hd s i (c + 80 + 8 * j) 8 == rd64 s (Reg.SEC_DEV_FP 0))
/-- BOOT_HEADER_DONE (R407 steps 1 to 3): whether the certificate's and the image's signatures verify; the digest of the header and the fingerprint of the
owner key. -/
def headerDone (certOk sigOk : Bool) (digest ownerFp : List Word) (s : Dev) : Dev :=
  let i := slotOf s
  if stage s ≠ 3 then s
  else if !(hdrOk s i) || (certOfs s i != 0 && (!certOk || !(scopeOk s i))) || !sigOk then slotFail s
  else
    let owner := certOfs s i != 0
    { s with bt := { s.bt with sects := readSects s i, flags := hd s i 24 4, gateLim := hd s i 28 2, next := 0 } }
      |> wr64 Reg.BOOT_VERSION_LO (hdVersion s i) |> put8 Reg.BOOT_HDR_DIGEST digest |> setB Reg.SEC_STATUS 4 owner
      |> put8 Reg.SEC_OWNER_FP (if owner then ownerFp else []) |> cfgReady (hd s i 30 2) (hd s i 32 2) (hd s i 34 1) (hd s i 35 1) |> setStage 4
/-- BOOT_HEADER_DONE (R407). -/
def execBootHeaderDone (certOk sigOk : Bool) (digest ownerFp : List Word) (s : State) : Result := onDev (headerDone certOk sigOk digest ownerFp) s

/-! ## The section table, DRAM training and stage LOAD (R402, R404, R407, R414) -/

/-- Whether two ranges overlap. -/
def rangesMeet (a n b m : Nat) : Bool := decide (a < b + m) && decide (b < a + n)
/-- The checks of R402 and R404 on the section table. -/
def tableOk (s : Dev) : Bool :=
  let xs := enum s.bt.sects 0
  let count (k : Nat) : Nat := (xs.filter fun x => x.2.kind == k).length
  count 1 == 1 && count 2 == 1 && count 3 == 1 && decide (count 4 ≤ 8) && decide (count 6 ≤ 1) && (match s.bt.sects.head? with | some x => x.kind == 1 | none => false) &&
    xs.all fun x =>
      let z := x.2
      decide (1 ≤ z.kind) && decide (z.kind ≤ 6) && decide (1 ≤ z.len) &&
        (if z.source = 0 then z.coves == 0 && z.ofs % 4096 == 0 && decide (16384 ≤ z.ofs) && decide (z.ofs + z.len ≤ slotSize s) else z.source == 1 && (z.kind == 4 || z.kind == 5)) &&
        (if z.kind = 1 then z.dest == 0
          else z.dest % 256 == 0 && inRegions s z.dest z.len && xs.all fun y => y.1 == x.1 || y.2.kind == 1 || !(rangesMeet z.dest z.len y.2.dest y.2.len))
/-- Sections that the host delivers, as a number with bit i for section i (R413). -/
def hostSects (s : Dev) : Nat := ofBitList ((enum s.bt.sects 0).filterMap fun x => if x.2.source = 1 then some x.1 else none)
/-- The reload that follows training when ebb left the DRAM off (R414). -/
def reloadBegin (s : Dev) : Dev :=
  { s with bt := { s.bt with reload := true, next := 1 } } |> wr64 Reg.BOOT_SECT_OK_LO 1 |> wr64 Reg.BOOT_SECT_PEND_LO (hostSects s) |> setStage 5
/-- DRAM_TRAINING_DONE (R336): training passes, or a lane of a channel fails. -/
def trainingDone (fail : Option (Nat × Nat)) (s : Dev) : Dev :=
  if !(tst s (Reg.DMC_STATUS 0) 1) then s
  else match fail with
    | some (k, lane) => s |> trainFail (k / 32) (k % 32) lane |> halt 2
    | none =>
      let s := trainedAll { s with bt := { s.bt with trained := true } }
      if ebbState s = 3 then reloadBegin s else if stage s = 4 ∧ s.bt.next ≠ 0 then setStage 5 s else s
/-- DRAM_TRAINING_DONE (R336): `fail` names a channel, by die × 32 + channel, and a lane. -/
def execDramTrainingDone (fail : Option (Fin 64 × Fin 576)) (s : State) : Result := onDev (trainingDone (fail.map fun x => (x.1.val, x.2.val))) s
/-- Stage SELFTEST begins (R105): the array self-test of every core that runs; at boot that is every core (R425). -/
def selftestBegin (s : Dev) : Dev := s |> setStage 7 |> forS (List.range 64) (fun k s => setB (Reg.ARR_BIST_STATUS k) 0 (domRuns s k) s)
/-- LOAD ends: the gate, or the self-tests. -/
def loadEnd (s : Dev) : Dev :=
  if s.bt.reload then selftestBegin s
  else
    let s := setB Reg.SEC_STATUS 5 (bitOf s.bt.flags 2) s
    if bitOf s.bt.flags 0 then s |> setStage 6 |> setB Reg.BOOT_STATUS 12 true |> irqFire 23 0 else selftestBegin s
/-- The next section to stream from the flash. -/
def nextSect (s : Dev) (i : Nat) : Option (Nat × Sect) := (enum s.bt.sects 0).find? fun x => decide (i ≤ x.1) && x.2.source == 0
/-- What the verified firmware shows of itself: its version, whose place in its section the spec does not give (log entry 3). -/
def showVersion (kind : Nat) (s : Dev) : Dev :=
  let v := Config.freeNat s.fresh
  if kind = 2 then s |> wrN Reg.GEN_ZILTUR_VER v |> freshS
  else if kind = 3 then s |> forS (List.range 16) (fun e => wrN (Reg.CDC_FW_VERSION e) v) |> freshS else s
/-- SECTION_VERIFIED (R407 step 5): the next section has been streamed to DRAM, and the security block's digest of it is compared. -/
def sectionVerified (digest : List Byte) (s : Dev) : Dev :=
  if stage s ≠ 5 then s
  else match nextSect s s.bt.next with
    | none => s
    | some (i, z) =>
      let s := wrBytes .dram z.dest (flBytes s (slotBase s (slotOf s) + z.ofs) z.len) s
      if digest = z.digest then
        let s := { s with bt := { s.bt with next := i + 1 } } |> setB (Reg.BOOT_SECT_OK_LO + 4 * (i / 32)) (i % 32) true |> showVersion z.kind
        if (nextSect s (i + 1)).isNone then loadEnd s else s
      else if s.bt.reload then s |> raise 0x1305 0 0 |> halt 5
      else slotFail s
/-- SECTION_VERIFIED (R407). -/
def execSectionVerified (digest : List Byte) (s : State) : Result := onDev (sectionVerified digest) s

/-! ## Stages GATE, SELFTEST and CONFIG (R410 to R412) -/

/-- A gate answer counts while the gate waits and its limit has not expired. -/
def gateOpen (s : Dev) : Bool := tst s Reg.BOOT_STATUS 12 && decide (now s < s.bt.at_ + s.bt.gateLim * 1000000)
/-- BOOT_CMD results. -/
def bootResult (v : Nat) (s : Dev) : Dev := wrN Reg.BOOT_CMD_RESULT v s
/-- The gate ends and boot goes on. -/
def gateEnd (s : Dev) : Dev := s |> setB Reg.BOOT_STATUS 12 false |> selftestBegin
/-- GATE_ACCEPT (R410). -/
def gateAccept (s : Dev) : Dev :=
  if gateOpen s then s |> setB Reg.SEC_STATUS 6 true |> gateEnd |> bootResult 0
  else if tst s Reg.BOOT_STATUS 12 then s else bootResult 2 s
/-- GATE_REJECT (R410). -/
def gateReject (s : Dev) : Dev :=
  if gateOpen s then s |> bootResult 0 |> slotFail else if tst s Reg.BOOT_STATUS 12 then s else bootResult 2 s
/-- BOOT_GATE_TIMEOUT (R410). -/
def gateTimeout (s : Dev) : Dev :=
  if !(tst s Reg.BOOT_STATUS 12) then s
  else
    let s := s |> waitUntil (s.bt.at_ + s.bt.gateLim * 1000000) |> raise 0x1303 0 0
    if bitOf s.bt.flags 1 then gateEnd s else halt 4 s
/-- BOOT_GATE_TIMEOUT (R410). -/
def execBootGateTimeout (s : State) : Result := onDev gateTimeout s
/-- A block that fails its march test is held off (R412): its code is its block's code × 256 + its global instance. -/
def holdOff (b : Nat) (s : Dev) : Dev :=
  let s := raise 0x1304 b b s
  match b / 256 with
  | 0x08 => { s with bt := { s.bt with heldOff := s.bt.heldOff ++ [72 + b % 256] } } |> setB (Reg.CDC_STATUS (b % 256)) 8 true |> setB (Reg.CDC_STATUS (b % 256)) 1 false
  | 0x0A => { s with bt := { s.bt with heldOff := s.bt.heldOff ++ [88 + b % 256] } }
  | 0x0C => { s with bt := { s.bt with trkOff := s.bt.trkOff ++ [b % 256] } }
  | _ => s
/-- The array self-test of core `k` at boot ends (R105, R106): `arr` lists failing cores with their arrays and first failing step. -/
def bootArrTest (arr : List (Nat × Nat × Nat)) (us k : Nat) (s : Dev) : Dev :=
  let f := (arr.find? fun x => x.1 == k).getD (k, 0, 0)
  s |> arrBistDone k f.2.1 f.2.2 us |> setB (Reg.ARR_BIST_STATUS k) 0 false
/-- The self-test of the window engine of core `k` at boot, once it is released (R129): `we` lists failing V-cores with their first failing
step. -/
def bootWeTest (we : List (Nat × Nat)) (us k : Nat) (s : Dev) : Dev :=
  s |> winRelease k |> weReleaseDone k |> whenS (!(isSCore k) && domRuns s k) (fun s => s |> setB (Reg.WIN_BIST_STATUS k) 0 true |> weBistDone k ((we.find? fun x => x.1 == k).getD (k, 0)).2 us)
/-- A core that failed its self-test is off (R106, R425). -/
def failedOff (k : Nat) (s : Dev) : Dev := whenS (coreFailed s k) (fun s => wf (Reg.PWR_DOM_STATE k) 0 2 3 s) s
/-- BOOT_SELFTEST_DONE (R412, R414): the arrays' tests of at most `arrUs` microseconds, then those of the window engines, which are released,
then the blocks that fail. The codec firmware runs. -/
def selftestDone (arr : List (Nat × Nat × Nat)) (we : List (Nat × Nat)) (arrUs weUs : Nat) (blk : List Nat) (s : Dev) : Dev :=
  if stage s ≠ 7 then s
  else
    let s := s |> forS (List.range 64) (bootArrTest arr arrUs) |> forS (List.range 64) (bootWeTest we weUs) |> forS (List.range 64) failedOff
      |> forS (List.range 16) (fun e => setB (Reg.CDC_STATUS e) 1 true) |> forS blk holdOff
    if s.bt.reload then { s with bt := { s.bt with reload := false }, pwr := { s.pwr with reload := false } } |> setStage 10 |> exitRest
    else setStage 8 s
/-- BOOT_SELFTEST_DONE (R412). -/
def execBootSelftestDone (arr : List (Nat × Nat × Nat)) (we : List (Nat × Nat)) (arrUs weUs : Nat) (blk : List Nat) (s : State) : Result :=
  onDev (selftestDone arr we arrUs weUs blk) s
/-- BOOT_CONFIG_DONE (R411): the KV region is initialised, and the TIME stage begins. -/
def configDone (s : Dev) : Dev :=
  if stage s ≠ 8 then s
  else
    let s := kvfInitDone s
    let s := { s with ptp := { s.ptp with acqFrom := some (now s) } } |> setStage 9
    if timeState s = 1 then timeReady s else s
/-- BOOT_CONFIG_DONE (R411). -/
def execBootConfigDone (s : State) : Result := onDev configDone s
/-- The bound of a stage in ns (Table 17-5); none for those that end otherwise. -/
def stageBound (s : Dev) : Option Nat :=
  match stage s with
  | 1 => some 5000000
  | 2 => some 2000000
  | 3 => some 10000000
  | 4 => if s.bt.next = 0 then some 5000000 else none
  | 5 => some (sumN ((s.bt.sects.filter fun z => z.source == 0).map (·.len)) * 5 / 2 + 5000000)
  | 7 => some 10000000
  | 8 => some 20000000
  | _ => none
/-- BOOT_STAGE_TIMEOUT (R411). -/
def stageTimeout (s : Dev) : Dev :=
  match stageBound s with
  | some b => if s.bt.reload then s else s |> waitUntil (s.bt.at_ + b) |> slotFail
  | none => s
/-- BOOT_STAGE_TIMEOUT (R411). -/
def execBootStageTimeout (s : State) : Result := onDev stageTimeout s

/-! ## BOOT_CMD (R409, R413, R419) -/

/-- The previous BOOT_CMD still runs. -/
def bootBusy (s : Dev) : Bool := s.bt.check.isSome || !s.bt.ops.isEmpty
/-- Whether a command may write flash bytes (R409). -/
def flashAllowed (s : Dev) (a n : Nat) : Bool :=
  let inSlot (i : Nat) : Bool := s.bt.dens != 0 && decide (slotBase s i ≤ a) && decide (a + n ≤ slotBase s i + slotSize s)
  if stage s = 15 then inSlot 0 || inSlot 1 || decide (a + n ≤ 0x10000) else inSlot (1 - slotOf s)
/-- Request a flash operation (R400). -/
def flashAsk (o : FlashOp) (s : Dev) : Dev := flashBusy { s with bt := { s.bt with ops := s.bt.ops ++ [o] } }
/-- FLASH_ERASE (R409). -/
def flashErase (s : Dev) : Dev :=
  let a := rdN s Reg.BOOT_FLASH_ADDR
  if a % eraseSize = 0 ∧ flashAllowed s a eraseSize then flashAsk (.erase a) s else bootResult 1 s
/-- The bytes of BOOT_BUF. -/
def bootBuf (s : Dev) : List Byte := (List.range 1024).flatMap fun i => leBytes 4 (rdN s (Reg.BOOT_BUF i))
/-- FLASH_PROGRAM (R409). -/
def flashProgram (s : Dev) : Dev :=
  let a := rdN s Reg.BOOT_FLASH_ADDR
  if a % pageSize = 0 ∧ flashAllowed s a pageSize then flashAsk (.program a (bootBuf s)) s else bootResult 1 s
/-- SLOT_VERIFY (R409): the slot not booted is read. -/
def slotVerify (s : Dev) : Dev := if s.bt.dens = 0 then bootResult 1 s else flashAsk (.verify (1 - slotOf s)) s
/-- SECT_CHECK (R413): a pending section is hashed. -/
def sectCheck (i : Nat) (s : Dev) : Dev :=
  if bitOf (rd64 s Reg.BOOT_SECT_PEND_LO) i then { s with bt := { s.bt with check := some i } } else bootResult 1 s
/-- A BOOT_CMD write while the previous command runs is ignored with result 3 (R419). -/
def bootCmd (f : Dev → Dev) (s : Dev) : Dev := if bootBusy s then bootResult 3 s else f s
/-- The operations of BOOT_CMD by code. -/
def bootCmdWrite (v : Nat) (s : Dev) : Dev :=
  match v % 8 with
  | 1 => bootCmd gateAccept s
  | 2 => bootCmd gateReject s
  | 3 => bootCmd (sectCheck (bits v 3 6)) s
  | 4 => bootCmd flashErase s
  | 5 => bootCmd flashProgram s
  | 6 => bootCmd slotVerify s
  | 7 => bootCmd warmReset s
  | _ => s
/-- GATE_ACCEPT (R410). -/
def execGateAccept (s : State) : Result := onDev (bootCmd gateAccept) s
/-- GATE_REJECT (R410). -/
def execGateReject (s : State) : Result := onDev (bootCmd gateReject) s
/-- SECT_CHECK (R413). -/
def execSectCheck (i : Fin 64) (s : State) : Result := onDev (bootCmd (sectCheck i.val)) s
/-- FLASH_ERASE (R409). -/
def execFlashErase (s : State) : Result := onDev (bootCmd flashErase) s
/-- FLASH_PROGRAM (R409). -/
def execFlashProgram (s : State) : Result := onDev (bootCmd flashProgram) s
/-- SLOT_VERIFY (R409). -/
def execSlotVerify (s : State) : Result := onDev (bootCmd slotVerify) s
/-- REBOOT (R373). -/
def execReboot (s : State) : Result := onDev (bootCmd warmReset) s
/-- SECT_CHECK_DONE (R413): the digest of the DRAM range is compared. -/
def sectCheckDone (digest : List Byte) (s : Dev) : Dev :=
  match s.bt.check with
  | none => s
  | some i =>
    let s := { s with bt := { s.bt with check := none } }
    if s.bt.sects[i]?.map (·.digest) = some digest then
      s |> setB (Reg.BOOT_SECT_PEND_LO + 4 * (i / 32)) (i % 32) false |> setB (Reg.BOOT_SECT_OK_LO + 4 * (i / 32)) (i % 32) true |> bootResult 0 |> enterRuns
    else s |> raise 0x1302 i i |> bootResult 5
/-- SECT_CHECK_DONE (R413). -/
def execSectCheckDone (digest : List Byte) (s : State) : Result := onDev (sectCheckDone digest) s
/-- A program changes ones to zeros only, as NOR flash does (log entry 5); it is read back. -/
def programmed (s : Dev) (a : Nat) (d : List Byte) : List Byte := (enum d 0).map fun x => fl s (a + x.1) &&& x.2
/-- What an operation brings about at its end: `ok` tells that the flash did as asked, or for SLOT_VERIFY that every signature and digest matched. -/
def flashEnd (o : FlashOp) (ok : Bool) (s : Dev) : Dev :=
  let bad (s : Dev) : Dev := s |> raise 0x1306 0 0 |> bootResult 4
  match o with
  | .erase a => if ok then s |> flPut a (List.replicate eraseSize 0xFF) |> bootResult 0 else s |> flFree a eraseSize |> bad
  | .program a d =>
    if ok then
      let p := programmed s a d
      s |> flPut a p |> if p = d then bootResult 0 else bad
    else s |> flFree a d.length |> bad
  | .verify i => bootResult (if hdrOk s i && ok then 0 else 5) s
/-- FLASH_OPERATION_DONE (R400): the operation in progress ends, and the next request starts. -/
def flashOpDone (ok : Bool) (s : Dev) : Dev :=
  match s.bt.ops with
  | [] => s
  | o :: os => { s with bt := { s.bt with ops := os } } |> flashEnd o ok |> flashBusy
/-- FLASH_OPERATION_DONE (R400). -/
def execFlashOperationDone (ok : Bool) (s : State) : Result := onDev (flashOpDone ok) s

/-! ## Attestation (R416 to R418) -/

/-- LEAF_CACHE_CHECK_DONE (R416): the cache gives the certificate's root, or a rebuild starts. -/
def cacheCheckDone (ok : Bool) (s : Dev) : Dev :=
  if !(tst s Reg.SEC_STATUS 0) || tst s Reg.SEC_STATUS 1 || tst s Reg.SEC_STATUS 2 then s
  else if ok then setB Reg.SEC_STATUS 1 true s
  else s |> setB Reg.SEC_STATUS 2 true |> raise 0x1401 0 0
/-- LEAF_CACHE_CHECK_DONE (R416). -/
def execLeafCacheCheckDone (ok : Bool) (s : State) : Result := onDev (cacheCheckDone ok) s
/-- CACHE_REBUILD_DONE (R416): every leaf is recomputed and the cache is in the flash, once no earlier operation is in progress (R400). -/
def cacheRebuilt (s : Dev) : Dev :=
  if tst s Reg.SEC_STATUS 2 && s.bt.ops.isEmpty then
    s |> flPut 0x100000 ((List.range (2 * 2 ^ 20)).map Config.leafCache) |> setB Reg.SEC_STATUS 2 false |> setB Reg.SEC_STATUS 1 true
  else s
/-- CACHE_REBUILD_DONE (R416). -/
def execCacheRebuildDone (s : State) : Result := onDev cacheRebuilt s
/-- The 256-byte report (Table 17-6). -/
def attReport (s : Dev) : List Byte :=
  let words (f : Nat → Nat) : List Byte := (List.range 8).flatMap fun i => leBytes 4 (rdN s (f i))
  let flags := b2n (tst s Reg.SEC_STATUS 4) + 2 * b2n (tst s Reg.SEC_STATUS 5) + 4 * b2n (tst s Reg.SEC_STATUS 6) + 8 * b2n (tst s Reg.ERR_STATUS 1) +
    16 * b2n (tst s Reg.ERR_STATUS 2) + 32 * b2n (untraceable s) + 64 * b2n (tst s Reg.SEC_STATUS 7)
  leBytes 4 0x5454414B ++ leBytes 2 1 ++ leBytes 2 flags ++ leBytes 8 (rd64 s (Reg.SEC_DEV_FP 0)) ++ words Reg.SEC_NONCE ++ leBytes 8 (now s) ++
    leBytes 8 (rd64 s Reg.BOOT_VERSION_LO) ++ words Reg.BOOT_HDR_DIGEST ++ words Reg.SEC_OWNER_FP ++ leBytes 4 (rdN s Reg.SEC_XMSS_IDX) ++
    leBytes 4 (rdN s Reg.BOOT_COUNT) ++ leBytes 8 (rd64 s Reg.BOOT_SECT_OK_LO) ++ leBytes 8 (ofBitList ((List.range 64).filter (coreFailed s))) ++ List.replicate 104 0
/-- SEC_CMD results. -/
def secResult (v : Nat) (s : Dev) : Dev := wrN Reg.SEC_CMD_RESULT v s
/-- ATTEST (R418). -/
def attest (s : Dev) : Dev :=
  let a := baseAddr s Reg.SEC_ATT_BUF_LO
  if tst s Reg.SEC_STATUS 3 then secResult 3 s
  else if !(tst s Reg.SEC_STATUS 0) || !(tst s Reg.SEC_STATUS 1) then secResult 1 s
  else if 65536 ≤ rdN s Reg.SEC_XMSS_IDX then secResult 2 s
  else if !(inRegions s a 2952) then secResult 5 s
  else setB Reg.SEC_STATUS 3 true { s with bt := { s.bt with att := some (attReport s, a) } }
/-- ATTEST (R418): a SEC_CMD write. -/
def execAttest (s : State) : Result := onDev attest s
/-- A new record of the signature-state log (R417), with its 8 check bytes: in the next place, the other half erased first when a half is full. -/
def logAppend (check : List Byte) (s : Dev) : Dev :=
  let i := match s.bt.logAt with | some x => (x + 1) % 8192 | none => 0
  let seq := match s.bt.logAt with | some x => (logRec s x).2 + 1 | none => 1
  let lim := min 65536 (rdN s Reg.SEC_XMSS_IDX + 64)
  { s with bt := { s.bt with logAt := some i } } |> whenS (i % 4096 == 0) (flPut (0x10000 + 16 * i) (List.replicate eraseSize 0xFF))
    |> flPut (0x10000 + 16 * i) (leBytes 4 lim ++ leBytes 4 seq ++ check.take 8) |> wrN Reg.SEC_XMSS_RES lim
/-- ATTEST_DONE (R417, R418): `res` is 0 when the report is signed, 1 when a log record could not be written and read back, 2 for an uncorrected
error in the security block's SRAM, 3 when it is signed after a corrected one. A new record waits until no earlier operation of the flash is in
progress (R400); `check` is the check of a new record, `sig` the OID and the signature. -/
def attestDone (res : Nat) (check sig : List Byte) (s : Dev) : Dev :=
  match s.bt.att with
  | none => s
  | some (rep, a) =>
    let idx := rdN s Reg.SEC_XMSS_IDX
    let due := idx == rdN s Reg.SEC_XMSS_RES
    if due && res != 2 && !s.bt.ops.isEmpty then s else
    let s := s |> (fun s => setB Reg.SEC_STATUS 3 false { s with bt := { s.bt with att := none } }) |> whenS (res == 3) (raise 0x1405 0 0)
    if res = 2 then s |> raise 0x1406 0 0 |> secResult 4
    else if res = 1 ∧ due then s |> raise 0x1404 0 0 |> secResult 4
    else
      s |> whenS due (logAppend check) |> reachWrite 0 a (rep ++ sig.take 2696) |> wrN Reg.SEC_XMSS_IDX (idx + 1) |> secResult 0
        |> whenS (idx + 1 == 65536) (raise 0x1403 0 0)
/-- ATTEST_DONE (R418). -/
def execAttestDone (res : Fin 4) (check sig : List Byte) (s : State) : Result := onDev (attestDone res.val check sig) s
/-- A SEC_CMD write. -/
def secCmdWrite (v : Nat) (s : Dev) : Dev := if bitOf v 0 then attest s else s

end Sys2Proof.Machine
end

