-- ==== Sys2Proof/Machine/HeldWrites.lean ====
section
/-! DEFINITION. Writes that wait for the next tide mark (R13, R44, R51). -/
set_option autoImplicit false
namespace Sys2Proof.Machine
open Sys2Proof

/-- Put the bits `mask` of `v` into a register. -/
def putMasked (a mask v : Nat) (s : Dev) : Dev := wrN a (rdN s a - (rdN s a &&& mask) + (v &&& mask)) s
/-- Whether a register belongs to the time unit. -/
def isTide (a : Nat) : Bool := decide (0x10000 ≤ a) && decide (a < 0x11000)
/-- A write of held bits of the time unit takes effect; what hangs on the source and the rate follows (R44, R47, R53). -/
def applyTide (a mask v : Nat) (s : Dev) : Dev :=
  let old := tideSource s
  s |> putMasked a mask v |> whenS (a == Reg.TIDE_CTRL) (sourceChanged old) |> whenS (a == Reg.TIDE_RATE) rateChanged
    |> whenS (a == Reg.TIDE_PTP_CFG) bmcaAgain |> clampOffsets
/-- The bits of a waiting write that a later write of `mask` to register `a` leaves waiting. -/
def replaceHeld (a mask : Nat) (h : Held) : Option Held :=
  match h with
  | .reg b m w => if b = a then (if m - (m &&& mask) = 0 then none else some (.reg b (m - (m &&& mask)) w)) else some h
  | _ => some h
/-- A write of held bits waits for the next mark, and replaces a waiting write of the same bits (R13), a rate that waits for mark 0 of a
PTP second included (R44). Before the first mark the held fields
of the time unit take effect when written. -/
def hold (a mask v : Nat) (s : Dev) : Dev :=
  if isTide a && !s.tide.marked then applyTide a mask v s
  else
    let tide := if a = Reg.TIDE_RATE then { s.tide with rateReq := none } else s.tide
    { s with held := s.held.filterMap (replaceHeld a mask) ++ [.reg a mask (v &&& mask)], tide }

end Sys2Proof.Machine
end

