-- ==== Sys2Proof/Machine/Errors.lean ====
section
/-! DEFINITION. The error collector, the policy table and the actions (R355 to R375). -/
set_option autoImplicit false
namespace Sys2Proof.Machine
open Sys2Proof

/-! ## The collector's own events (Table 15-9) -/

/-- The collector raises an event of its own. -/
def errRaise (bit unit : Nat) (s : Dev) : Dev :=
  s |> wrN Reg.ERR_FAULT_INFO (unit % 2 ^ 16 + bit * 2 ^ 16) |> raise (0x1000 + bit) unit (unit % 2 ^ 16 + bit * 2 ^ 16)
/-- An action that is not equivalence-preserving has taken effect (R371): GUARANTEE falls, and the event is raised once. -/
def notEquivalent (s : Dev) : Dev :=
  if tst s Reg.ERR_STATUS 1 then s |> setB Reg.ERR_STATUS 1 false |> errRaise 5 0 else s

/-! ## The log (R375) -/

/-- Whether a log entry is PENDING. -/
def logPending (s : Dev) (i : Nat) : Bool := tst s (Reg.ERR_LOG i 0) 19
/-- ERR_STATUS.HOST_PENDING. -/
def showPending (s : Dev) : Dev := setB Reg.ERR_STATUS 3 ((List.range 64).any (logPending s)) s
/-- The entry that the next event takes: the first, from LOG_HEAD on, that is not PENDING. -/
def logSlot (s : Dev) : Option Nat :=
  ((List.range 64).map fun j => (rf s Reg.ERR_LOG_HEAD 0 6 + j) % 64).find? fun i => !(logPending s i)
/-- Write an entry (Table 15-12); the head moves behind it, and the entries written are counted. -/
def logWrite (i : Nat) (e : Ev) (pending : Bool) (entry action arg outcome : Nat) (s : Dev) : Dev :=
  let n := satAdd (rf s Reg.ERR_LOG_HEAD 6 26) 1 (2 ^ 26 - 1)
  s |> wrN (Reg.ERR_LOG i 0) (e.code + eventClass e.code * 2 ^ 16 + b2n pending * 2 ^ 19) |> wrN (Reg.ERR_LOG i 1) (e.unit % 2 ^ 16)
    |> wrN (Reg.ERR_LOG i 2) e.info |> wrN (Reg.ERR_LOG i 3) (entry + action * 2 ^ 8 + arg * 2 ^ 14 + outcome * 2 ^ 22)
    |> wrN (Reg.ERR_LOG i 4) (now s) |> wrN (Reg.ERR_LOG i 5) (now s / 2 ^ 32) |> wrN (Reg.ERR_LOG i 6) (tideNum s) |> wrN (Reg.ERR_LOG i 7) 0
    |> wrN Reg.ERR_LOG_HEAD ((i + 1) % 64 + n * 2 ^ 6) |> showPending

/-! ## Actions (Table 15-5)

Each answers the OUTCOME that its log entry takes (0: it is in progress) and the device. `log` is the entry, 64 for none. -/

/-- What an action answers. -/
abbrev Acted := Nat × Dev
/-- An action goes on; its end will write the outcome. -/
def later (log action unit : Nat) (s : Dev) : Acted := (0, { s with err := { s.err with acts := s.err.acts ++ [⟨log, action, unit⟩] } })
/-- WE_RESET: HOLD_RESET 1, then 0 when the engine is in reset (R127). -/
def actWeReset (k log : Nat) (s : Dev) : Acted :=
  if 64 ≤ k || isSCore k || !(domRuns s k) then (2, s)
  else if acting s 1 k || tst s (Reg.WIN_STATUS k) 0 then (3, s)
  else later log 1 k (winHoldReset k s)
/-- CORE_BIST: both self-tests of the core (R107, R129). -/
def actBist (k log : Nat) (s : Dev) : Acted :=
  if 64 ≤ k || coreInRunning s k then (2, s)
  else if selfTest s k then (3, s)
  else later log 2 k (s |> arrBistStart k |> winBistStart k)
/-- COVE_RESTART: START at the next mark, or from RUN a STOP at the next mark and START at the one after. -/
def actRestart (c log : Nat) (s : Dev) : Acted :=
  if 8 ≤ c then (2, s)
  else if acting s 3 c then (3, s)
  else match coveState s c with
    | 2 => later log 3 c { s with held := s.held ++ [.cove c 3] }
    | 4 | 5 | 6 => later log 3 c { s with held := s.held ++ [.cove c 4] }
    | _ => (2, s)
/-- ENGINE_RESET (R245). -/
def actEngineReset (e log : Nat) (s : Dev) : Acted :=
  if 16 ≤ e then (2, s) else if tst s (Reg.CDC_STATUS e) 9 then (3, s) else later log 4 e (engineReset e s)
/-- Contexts of an engine that a move could take. -/
def freeContexts (s : Dev) (g : Nat) : Nat := ((engKeys g).filter fun k => !(ctxValid s k)).length
/-- The engine that a context of engine `e` moves to: of the same die or of the other, the one with most free contexts, the lowest on a tie. -/
def moveTarget (s : Dev) (e : Nat) (remote : Bool) : Nat :=
  let gs := (List.range 16).filter fun g => g != e && (g / 8 != e / 8) == remote
  (leastBy (fun a b => lexLt [32 - freeContexts s a, a] [32 - freeContexts s b, b]) gs).getD 0
/-- Move contexts one after the other; the least result of R223 is kept. -/
def moveAll (e : Nat) (remote : Bool) : List Nat → Nat → Dev → Nat × Dev
  | [], best, s => (best, s)
  | x :: xs, best, s =>
    let r := moveTo e x (moveTarget s e remote) s
    moveAll e remote xs (if r.1 = 0 then 0 else if best = 0 then 0 else r.1) r.2
/-- MOVE_LOCAL and MOVE_REMOTE (R223): done once a context's move has been taken up; refused when none is. -/
def actMove (e arg : Nat) (remote : Bool) (s : Dev) : Acted :=
  if 16 ≤ e then (2, s)
  else
    let xs := if bitOf arg 7 then [arg % 32] else (List.range 32).filter fun x => ctxValid s (e * 32 + x)
    let r := moveAll e remote xs 2 s
    if r.1 = 0 then (1, if remote then notEquivalent r.2 else r.2) else if r.1 = 3 then (3, s) else (2, s)
/-- ING_REOPEN (R266). -/
def actReopen (st : Nat) (s : Dev) : Acted := if mayReopen s st then (1, reopen st s) else (2, s)
/-- ING_RESYNC (R270). -/
def actResync (st : Nat) (s : Dev) : Acted := if stValid s st then (1, resync st s) else (2, s)
/-- TIDE_RELOCK (R47). -/
def actRelock (s : Dev) : Acted := if tideSource s = 0 then (2, s) else (1, relock s)
/-- TIDE_SOURCE: a SOURCE write, held to the next mark. -/
def actSource (v log : Nat) (s : Dev) : Acted :=
  if v % 4 = 3 then (2, s)
  else if s.tide.marked then later log 10 0 (hold Reg.TIDE_CTRL 3 (v % 4) s)
  else (1, s |> hold Reg.TIDE_CTRL 3 (v % 4) |> notEquivalent)
/-- TIDE_STEP: refused without a selected master or an offset measured since its selection. -/
def actStep (log : Nat) (s : Dev) : Acted :=
  if s.ptp.sel.isNone || s.ptp.lastOff.isNone then (2, s)
  else later log 11 0 { s with tide := { s.tide with timeReq := some .master } }
/-- DMC_RETRAIN (R335). -/
def actRetrain (k log : Nat) (s : Dev) : Acted :=
  if 64 ≤ k then (2, s) else (let r := retrainCmd (k / 32) (k % 32) s
    if r.1 then later log 12 k r.2 else (3, s))
/-- DLINK_RETRAIN (R345). -/
def actDlink (k log : Nat) (s : Dev) : Acted :=
  if 64 ≤ k then (2, s) else (let r := retrainPortCmd (k / 32) (k % 32) s
    if r.1 then later log 13 k r.2 else (3, s))
/-- The live sequences whose page list names a frame. -/
def holdersOf (s : Dev) (f : Nat) : List Nat :=
  (liveSeqs s).filter fun q => (List.range (sqLayers s q)).any fun l => (List.range 2048).any fun p => plFrame s q l p == some f
/-- KV_RECLAIM: the holders of a withheld frame are evicted, each at the end of its active step, and the frame is returned. -/
def actReclaim (f log : Nat) (s : Dev) : Acted :=
  if kvPool s ≤ f || frState s f != 3 then (2, s)
  else
    let t := forS (holdersOf s f) evictWhenFree s
    if (holdersOf s f).any (inStep s) then later log 14 f t else (1, returnFrame f t)
/-- The core that the task of an event ran on: the unit, or for a scheduling event the core that its information names (Table 8-7). -/
def eventCore (e : Ev) : Nat := if e.code / 256 = 7 then bits e.info 3 6 else e.unit
/-- The sequences that a contained task left waiting (R206): those that wait already, those of a step in progress that have lost it, and those of
the contained task's own slots; for a damaged sequence entry, that sequence. -/
def leftWaiting (s : Dev) (e : Ev) : List Nat :=
  if e.code = 0x1001 then (if e.unit / 4096 = 1 then [e.unit % 1024] else [])
  else
    let k := eventCore e
    let ents := (s.kv.steps.filter (·.started)).flatMap fun x => (enum x.ents 0).map fun p => (x.cove, p.1, p.2)
    let byTask : List Nat := match (coreOf s k).task with
      | some t => if t.contained then (ents.filter fun x => x.1 == t.cove && decide (t.slot0 ≤ x.2.1) && decide (x.2.1 < t.slot0 + t.slots)).map fun x => x.2.2.seq else []
      | none => []
    ((s.kv.waiting.filter fun w => w.2 == k).map (·.1) ++ (ents.filter fun x => x.2.2.lost && x.2.2.by_ == k).map (fun x => x.2.2.seq) ++ byTask).eraseDups
/-- SEQ_RECOMPUTE: eviction of the waiting sequences (R184). -/
def actRecompute (qs : List Nat) (s : Dev) : Acted := if qs.isEmpty then (2, s) else (1, forS qs evictWhenFree s)
/-- SEQ_END: the waiting sequences end (R206). -/
def actEnd (qs : List Nat) (s : Dev) : Acted := if qs.isEmpty then (2, s) else (1, s |> forS qs endSeq |> notEquivalent)
/-- Select hardware mode for a function row of Table 1-8, counted from 0; every one of these writes is held. -/
def hwMode (row : Nat) (s : Dev) : Dev :=
  let contexts (enc : Bool) : List Nat := (List.range 512).filter fun k => ctxValid s k && ctxEncodes s k == enc && ctxHost s k
  let toHw (k : Nat) : Dev → Dev := hold (Reg.CDC_CTX_CFG (k / 32) (k % 32)) (2 ^ 13) 0
  match row with
  | 0 => forS ((List.range 512).filter fun st => stValid s st && stHost s st) (fun st => hold (Reg.ING_TABLE st 0) 2 0) s
  | 1 => forS (contexts false) toHw s
  | 2 => forS (contexts true) toHw s
  | 3 => hold Reg.PIX_CTRL 1 0 s
  | 4 => s |> hold (Reg.TRK_CTRL 0) 2 0 |> hold (Reg.TRK_CTRL 1) 2 0
  | 5 => hold Reg.KVF_CTRL 1 0 s
  | 6 => hold Reg.ERR_CTRL 1 0 s
  | _ => hold Reg.MDO_CTRL 3 1 s
/-- SELECT_HW_MODE: mode writes, held to the next mark. -/
def actHwMode (row log : Nat) (s : Dev) : Acted := if 8 ≤ row then (2, s) else later log 17 row (hwMode row s)
/-- Counters of an action other than NONE (R365). -/
def countAct (r : Acted) : Dev :=
  r.2 |> bump Reg.ERR_ACT_CNT 1 |> whenS (r.1 == 2 || r.1 == 3) (bump Reg.ERR_ACT_REFUSED_CNT 1)
/-- An action of Table 15-5 on the unit of an event. DEVICE_RESET answers done; its reset comes last (`endIssue`). -/
def doAction (code arg log : Nat) (e : Ev) (s : Dev) : Acted :=
  let u := e.unit
  match code with
  | 1 => actWeReset u log s
  | 2 => actBist u log s
  | 3 => actRestart (if bitOf arg 7 then arg % 8 else u) log s
  | 4 => actEngineReset u log s
  | 5 => actMove u arg false s
  | 6 => actMove u arg true s
  | 7 => actReopen u s
  | 8 => actResync u s
  | 9 => actRelock s
  | 10 => actSource arg log s
  | 11 => actStep log s
  | 12 => actRetrain u log s
  | 13 => actDlink u log s
  | 14 => actReclaim (e.info % 2 ^ 19) log s
  | 15 => actRecompute (leftWaiting s e) s
  | 16 => actEnd (leftWaiting s e) s
  | 17 => actHwMode (arg % 16) log s
  | _ => (1, s)
/-- Issue an action other than NONE, and count it. -/
def issue (code arg log : Nat) (e : Ev) (s : Dev) : Acted :=
  if code = 0 then (0, s) else (let r := doAction code arg log e s
    (r.1, countAct r))
/-- DEVICE_RESET resets the device when everything else of its event has been done (R373). -/
def endIssue (code : Nat) (s : Dev) : Dev := if code = 18 then warmReset s else s

/-! ## Actions as commands (R366) -/

/-- An action issued alone, without a log entry. -/
def rowAct (f : Dev → Acted) (s : State) : Result := onDev (fun d => countAct (f d)) s
/-- WE_RESET (R366). -/
def execWeReset (k : Fin 64) (s : State) : Result := rowAct (actWeReset k.val 64) s
/-- CORE_BIST (R366). -/
def execCoreBist (k : Fin 64) (s : State) : Result := rowAct (actBist k.val 64) s
/-- COVE_RESTART (R366). -/
def execCoveRestart (c : Fin 8) (s : State) : Result := rowAct (actRestart c.val 64) s
/-- MOVE_LOCAL (R366). -/
def execMoveLocal (e : Fin 16) (arg : Fin 256) (s : State) : Result := rowAct (actMove e.val arg.val false) s
/-- MOVE_REMOTE (R366). -/
def execMoveRemote (e : Fin 16) (arg : Fin 256) (s : State) : Result := rowAct (actMove e.val arg.val true) s
/-- ING_REOPEN (R366). -/
def execIngReopen (st : Fin 512) (s : State) : Result := rowAct (actReopen st.val) s
/-- ING_RESYNC (R366). -/
def execIngResync (st : Fin 512) (s : State) : Result := rowAct (actResync st.val) s
/-- TIDE_RELOCK (R366). -/
def execTideRelock (s : State) : Result := rowAct actRelock s
/-- TIDE_SOURCE (R366). -/
def execTideSource (v : Fin 4) (s : State) : Result := rowAct (actSource v.val 64) s
/-- TIDE_STEP (R366). -/
def execTideStep (s : State) : Result := rowAct (actStep 64) s
/-- DMC_RETRAIN (R366). -/
def execDmcRetrain (d : Fin 2) (ch : Fin 32) (s : State) : Result := rowAct (actRetrain (32 * d.val + ch.val) 64) s
/-- DLINK_RETRAIN (R366). -/
def execDlinkRetrain (d : Fin 2) (p : Fin 32) (s : State) : Result := rowAct (actDlink (32 * d.val + p.val) 64) s
/-- KV_RECLAIM (R366). -/
def execKvReclaim (f : Nat) (s : State) : Result := rowAct (actReclaim (f % 2 ^ 19) 64) s
/-- The event of a contained task on core `k`, for an action issued alone. -/
def taskEvent (k : Nat) : Ev := { code := 0x1100, unit := k, info := 0 }
/-- SEQ_RECOMPUTE (R366). -/
def execSeqRecompute (k : Fin 64) (s : State) : Result := rowAct (fun d => actRecompute (leftWaiting d (taskEvent k.val)) d) s
/-- SEQ_END (R366). -/
def execSeqEnd (k : Fin 64) (s : State) : Result := rowAct (fun d => actEnd (leftWaiting d (taskEvent k.val)) d) s
/-- SELECT_HW_MODE (R366). -/
def execSelectHwMode (row : Fin 16) (s : State) : Result := rowAct (actHwMode row.val 64) s
/-- DEVICE_RESET (R373): a new run begins. -/
def execDeviceReset (s : State) : Result := onDev warmReset s

/-! ## The policy table (R364) -/

/-- A field of policy entry `i`. -/
def polF (s : Dev) (i w lo len : Nat) : Nat := rf s (Reg.ERR_POLICY i w) lo len
/-- VALID of an entry; one with an uncorrectable error is treated as not valid (R364). -/
def polValid (s : Dev) (i : Nat) : Bool := polF s i 2 6 1 == 1 && !(s.err.bad.contains i)
/-- Whether entry `i` matches an event. -/
def polMatch (s : Dev) (e : Ev) (i : Nat) : Bool :=
  polValid s i && (xorN e.code (polF s i 0 0 16) &&& polF s i 0 16 16) == 0 && decide (polF s i 1 0 16 ≤ e.unit) && decide (e.unit ≤ polF s i 1 16 16)
/-- Follow NEXT through at most `n` entries to one that may still fire. -/
def polChain (s : Dev) : Nat → Nat → Option Nat
  | 0, _ => none
  | n + 1, e =>
    if polF s e 2 24 8 = 0 ∨ rf s (Reg.ERR_POLICY_FIRE e) 0 8 < polF s e 2 24 8 then some e
    else if polF s e 2 16 8 = 255 ∨ !(polValid s (polF s e 2 16 8)) then none
    else polChain s n (polF s e 2 16 8)
/-- The entry that fires. -/
def polLookup (s : Dev) (e : Ev) : Option Nat := ((List.range 256).find? (polMatch s e)).bind (polChain s 4)
/-- An entry fires: FIRE_CNT counts up to 255, and its tides without a firing start again. -/
def polFire (i : Nat) (s : Dev) : Dev := wrN (Reg.ERR_POLICY_FIRE i) (min 255 (rf s (Reg.ERR_POLICY_FIRE i) 0 8 + 1)) s

/-! ## Taking an event (R358, R361, R367) -/

/-- The event that the collector takes in this cycle: the rotation rule over the blocks, all of class 3, then lowest unit, lowest bit, oldest. -/
def takeNext (s : Dev) : Option Ev :=
  match rotate s.time.sclk 32 (s.err.evq.map fun e => (e.code / 256, 3)) with
  | none => none
  | some b => leastBy (fun x y => lexLt [x.unit, x.code] [y.unit, y.code]) (s.err.evq.filter fun e => e.code / 256 == b)
/-- Count an event by class; a device-fatal one sets DEGRADED (R362). -/
def countClass (code : Nat) (s : Dev) : Dev :=
  match eventClass code with
  | 0 => bump Reg.ERR_CORR_CNT 1 s
  | 1 => bump Reg.ERR_CONT_CNT 1 s
  | 2 => bump Reg.ERR_COVE_CNT 1 s
  | 3 => s |> bump Reg.ERR_DEV_CNT 1 |> setB Reg.ERR_STATUS 2 true
  | _ => s
/-- The ERROR record of an event (R361): a corrected one at most once per code, unit and tide, one that is no error only with an action. -/
def reportEvent (e : Ev) (entry action : Nat) (s : Dev) : Dev :=
  let rec_ := errorRec e.subject e.at_ e.code (eventClass e.code) entry e.unit e.info
  match eventClass e.code with
  | 0 =>
    if s.err.seen.contains (e.code, e.unit) then bump Reg.ERR_SUPPRESS_CNT 1 s
    else rec_ { s with err := { s.err with seen := s.err.seen ++ [(e.code, e.unit)] } }
  | 4 => if action = 0 then s else rec_ s
  | _ => rec_ s
/-- Whether an event is looked up in the policy table in both modes: ERR_HOST_TIMEOUT and ERR_KEEPER_LOST (R367). -/
def alwaysPolicy (code : Nat) : Bool := code == 0x1002 || code == 0x1004
/-- The post of an event (Table 16-4, ring 11). -/
def errorPost (i : Nat) (e : Ev) (t : Nat) : List Byte :=
  leBytes 1 i ++ leBytes 1 (eventClass e.code) ++ leBytes 2 e.code ++ leBytes 2 e.unit ++ leBytes 2 0 ++ leBytes 4 e.info ++ leBytes 8 t
/-- The host is to decide (R367): the event is posted and its entry is PENDING; without a free entry or a link, no action is taken. -/
def hostEvent (e : Ev) (slot : Option Nat) (s : Dev) : Dev :=
  match slot with
  | none => s |> bump Reg.ERR_UNLOGGED_CNT 1 |> irqFire (e.code / 256) (eventClass e.code) |> errRaise 2 0 |> reportEvent e 0xFF 0
  | some i =>
    if !(tst s Reg.PCI_STATUS 0) then
      s |> hostGone 6 |> logWrite i e false 0xFF 0 0 5 |> irqFire (e.code / 256) (eventClass e.code) |> errRaise 2 0 |> reportEvent e 0xFF 0
    else
      { s with err := { s.err with posts := s.err.posts ++ [(i, now s, nextTag s 11)] } } |> hostPost 11 1 (errorPost i e (now s))
        |> logWrite i e true 0xFF 0 0 0 |> irqFire (e.code / 256) (eventClass e.code) |> reportEvent e 0xFF 0
/-- The policy table decides: the entry that fires issues its action, and the event is logged with the outcome. -/
def policyEvent (e : Ev) (slot : Option Nat) (s : Dev) : Dev :=
  let hit := polLookup s e
  let action := match hit with | some i => polF s i 2 0 6 | none => 0
  let arg := match hit with | some i => polF s i 2 8 8 | none => 0
  let s := match hit with | some i => polFire i s | none => s
  let r := issue action arg (slot.getD 64) e s
  let s := match slot with
    | some i => logWrite i e false (hit.getD 255) action arg r.1 r.2
    | none => bump Reg.ERR_UNLOGGED_CNT 1 r.2
  s |> irqFire (e.code / 256) (eventClass e.code) |> reportEvent e (hit.getD 255) action |> endIssue action
/-- What the ECC check of the stream (0), sequence (1) or policy table (2) finds in an entry (Table 15-9). -/
def tableEcc (t e : Nat) (bad : Bool) (s : Dev) : Dev :=
  let s := errRaise (b2n bad) (t * 4096 + e) s
  if !bad then s
  else match t with
    | 0 => goSilent (e % 512) s
    | 1 =>
      let q := e % 1024
      if inStep s q then { s with kv := { s.kv with steps := modIf s.kv.steps (·.started) fun x => { x with ents := modIf x.ents (fun y => y.seq == q) fun y => { y with lost := true, by_ := 64 } } } }
      else if sqState s q = 0 then s
      else { s with kv := { s.kv with waiting := s.kv.waiting ++ [(q, 64)] } }
    | _ => { s with err := { s.err with bad := (s.err.bad.erase (e % 256)) ++ [e % 256] } }
/-- COLLECTOR_TAKE (R358 steps 2 to 4): one event. -/
def collectorTake (s : Dev) : Dev :=
  match takeNext s with
  | none => s
  | some e =>
    let s := countClass e.code { s with err := { s.err with evq := s.err.evq.erase e } }
    let slot := logSlot s
    if tst s Reg.ERR_CTRL 0 && !(alwaysPolicy e.code) then hostEvent e slot s else policyEvent e slot s
/-- COLLECTOR_TAKE (R358): `ecc` tells what the check of a table entry finds in this cycle: the table, the entry, whether it is uncorrectable. -/
def execCollectorTake (ecc : Option (Fin 3 × Fin 1024 × Bool)) (s : State) : Result :=
  onDev (fun d => collectorTake (match ecc with | some x => tableEcc x.1.val x.2.1.val x.2.2 d | none => d)) s

/-! ## The host's answer (R367) -/

/-- A post to the host ends. -/
def endPost (p : Nat × Nat × Nat) (s : Dev) : Dev :=
  { s with err := { s.err with posts := s.err.posts.erase p } } |> dropPost 11 p.2.2 |> setB (Reg.ERR_LOG p.1 0) 19 false |> showPending
/-- A post whose limit has passed ends without an answer. -/
def expirePost (p : Nat × Nat × Nat) (s : Dev) : Dev := s |> endPost p |> wf (Reg.ERR_LOG p.1 3) 22 3 5 |> hostGone 6 |> errRaise 2 0
/-- ERR_HOST_LIM in ns. -/
def errHostLim (s : Dev) : Nat := rf s Reg.ERR_HOST_LIM 0 16 * 1000000
/-- The event of a log entry. -/
def logEvent (s : Dev) (i : Nat) : Ev := { code := rf s (Reg.ERR_LOG i 0) 0 16, unit := rf s (Reg.ERR_LOG i 1) 0 16, info := rdN s (Reg.ERR_LOG i 2) }
/-- ERR_HOST_CMD (R367): the host answers a PENDING entry with an action. -/
def errHostCmd (v : Nat) (s : Dev) : Dev :=
  let i := bits v 0 6
  let action := bits v 6 6
  let arg := bits v 12 8
  let s := match s.err.posts.find? fun p => p.1 == i with
    | some p => if p.2.1 + errHostLim s < now s then expirePost p s else s
    | none => s
  match s.err.posts.find? fun p => p.1 == i with
  | none => wrN Reg.ERR_HOST_RESULT 1 s
  | some p =>
    if 19 ≤ action then wrN Reg.ERR_HOST_RESULT 2 s
    else
      let r := issue action arg i (logEvent s i) (endPost p s)
      r.2 |> wrN (Reg.ERR_LOG i 3) (0xFE + action * 2 ^ 8 + arg * 2 ^ 14 + r.1 * 2 ^ 22) |> wrN Reg.ERR_HOST_RESULT 0 |> endIssue action
/-- ERR_HOST_CMD (R367). -/
def execErrHostCmd (v : Word) (s : State) : Result := onDev (errHostCmd v.toNat) s
/-- ERR_HOST_TIMEOUT (R367): the oldest post passes its limit. -/
def errHostTimeout (s : Dev) : Dev :=
  match s.err.posts with
  | [] => s
  | p :: _ => s |> waitUntil (p.2.1 + errHostLim s + 1) |> expirePost p
/-- ERR_HOST_TIMEOUT (R367). -/
def execErrHostTimeout (s : State) : Result := onDev errHostTimeout s
/-- ERR_KEEPER_LOST (R374): the die keeper misses its heartbeat; while die 1's memory-controller domain is not in run no keeper runs, and
nothing is raised (R431). -/
def errKeeperLost (s : Dev) : Dev := if domRuns s 98 then errRaise 4 1 s else s
/-- ERR_KEEPER_LOST (R374). -/
def execErrKeeperLost (s : State) : Result := onDev errKeeperLost s

end Sys2Proof.Machine
end

