-- ==== Sys2Proof/Machine/Lpd.lean ====
section
/-! DEFINITION. Host writes to the loop-descriptor block (R131, R132, R144). -/
set_option autoImplicit false
namespace Sys2Proof.Machine
open Sys2Proof

/-- A host write was ignored: LPD_STATUS.HOST_REJECT. -/
def lpdReject (k : Nat) (s : Dev) : Dev := setB (Reg.LPD_STATUS k) 9 true s
/-- Whether entries `b .. b + n − 1` meet a nonzero range of another cove (R132). -/
def rangeOverlaps (s : Dev) (k c b n : Nat) : Bool :=
  (List.range 8).any fun x =>
    let o := rf s (Reg.LPD_RANGE k x) 0 6
    let m := rf s (Reg.LPD_RANGE k x) 6 7
    x != c && m != 0 && n != 0 && decide (b < o + m) && decide (o < b + n)
/-- A write to LPD_RANGEc (R132). -/
def lpdRangeWrite (k c : Nat) (v : Word) (s : Dev) : Dev :=
  if rangeOverlaps s k c (bits v.toNat 0 6) (bits v.toNat 6 7) then lpdReject k s
  else wrN (Reg.LPD_RANGE k c) (bits v.toNat 0 13) s
/-- LPD_RANGE_WRITE (R132). -/
def execLpdRangeWrite (k : Fin 64) (c : Fin 8) (v : Word) (s : State) : Result := onDev (lpdRangeWrite k c v) s
/-- A host write to shape register `i` (R144). -/
def lpdShapeWrite (k i : Nat) (v : Word) (s : Dev) : Dev :=
  if coreInRunning s k then lpdReject k s else wrN (Reg.LPD_SHAPE k i) v.toNat s
/-- LPD_SHAPE_WRITE (R144). -/
def execLpdShapeWrite (k : Fin 64) (i : Fin 16) (v : Word) (s : State) : Result := onDev (lpdShapeWrite k i v) s
/-- A host write to word `j` of table entry `e` (R131, Table 6-9). -/
def lpdTableWrite (k e j : Nat) (v : Word) (s : Dev) : Dev :=
  if coreInRunning s k then lpdReject k s else wrN (Reg.LPD_TABLE k e j) v.toNat s
/-- LPD_TABLE_WRITE (R131). -/
def execLpdTableWrite (k : Fin 64) (e : Fin 64) (j : Fin 64) (v : Word) (s : State) : Result := onDev (lpdTableWrite k e j v) s

end Sys2Proof.Machine
end

