-- ==== Sys2Proof/Machine/Regs.lean ====
section
/-! DEFINITION. The register bus: what a read returns, what a write does, and the latches of 64-bit quantities (R8 to R13, R382,
R436 to R440). -/
set_option autoImplicit false
namespace Sys2Proof.Machine
open Sys2Proof

/-! ## Which register an offset names -/

/-- `x` when offset `a` is that of register `r`. -/
def at1 {α : Type} (a r : Nat) (x : α) : Option α := if a = r then some x else none
/-- `f i` when offset `a` is that of copy `i` of a register with `n` copies. -/
def atN {α : Type} (a n : Nat) (r : Nat → Nat) (f : Nat → α) : Option α := ((List.range n).find? fun i => r i == a).map f
/-- `f i j` when offset `a` is that of copy `j` of unit `i`. -/
def atNM {α : Type} (a n m : Nat) (r : Nat → Nat → Nat) (f : Nat → Nat → α) : Option α := (List.range n).findSome? fun i => atN a m (r i) (f i)

/-! ## Registers that show live state -/

/-- GEN_STATUS (Table 19-4). -/
def genStatus (s : Dev) : Nat :=
  b2n (domRuns s 98) + 2 * b2n (halted s) + 4 * b2n (ebbState s != 0) + 8 * b2n (tst s Reg.SEC_STATUS 5) + 16 * rf s Reg.GEN_STATUS 4 1 +
    32 * rf s Reg.GEN_DBG_CTRL 0 1
/-- Whether a write of a policy entry waits for a mark (Table 15-11). -/
def policyHeld (s : Dev) : Bool := s.held.any fun h => match h with
  | .reg a _ _ => decide (Reg.ERR_POLICY 0 0 ≤ a) && decide (a < Reg.ERR_POLICY 256 0)
  | _ => false
/-- ING_STATUS (Table 10-8). -/
def ingStatus (s : Dev) : Nat :=
  let pending := s.held.any fun h => match h with
    | .commit _ _ => true
    | _ => false
  ((List.range 512).filter (stValid s)).length + ((List.range 512).filter (isSilent s)).length * 2 ^ 10 + b2n pending * 2 ^ 20
/-- A core, cluster, codec engine or pipe with no work shows idle (R422). Of the other domains, whose work the spec does not name, the model
shows run. -/
def domIdle (s : Dev) (d : Nat) : Bool := decide (d < 92) && !(working s d)
/-- PWR_DOM_STATE of domain `d` (Table 18-8): its state, NEEDED, which holds outside ebb alone for domains 96 to 99
(Table 18-3), CHANGING and FORCED_OFF. -/
def domShown (s : Dev) (d : Nat) : Nat :=
  let need := needed s (if ebbState s = 3 then s.pwr.coves else []) d && (decide (d < 96) || ebbState s != 2)
  domState s d + b2n (domState s d == 0 && domIdle s d) + 4 * b2n need + 8 * b2n (transOf s d).isSome + 16 * b2n (forcedOff s d)
/-- PIX_STATUS of pipe `q` (Table 11-8). -/
def pixStatus (s : Dev) (q : Nat) : Nat :=
  match (pipeOf s q).find? fun p => p.started with
  | none => 0
  | some p =>
    let g := match p.cur with
      | some (_, x, _) => x.gen
      | none => 0
    1 + p.id.stream * 2 + g % 8 * 2 ^ 10 + b2n p.waits.isSome * 2 ^ 13
/-- PIX_Q_STATE of cove `c` (Table 11-13). -/
def qState (s : Dev) (c : Nat) : Nat :=
  let used := ((stagingUsed s c 0).filter (· < stagingSlots s c 0)).length + ((stagingUsed s c 1).filter (· < stagingSlots s c 1)).length
  queued s c % 128 + (qDepth s c - queued s c) % 128 * 2 ^ 7 + rf s (Reg.PIX_Q_STATE c) 14 2 * 2 ^ 14 + used % 2 ^ 13 * 2 ^ 16
/-- PIX_S_STATE of stream `st`: the backlog is the number of its pending frames, the largest over the coves. -/
def sShown (s : Dev) (st : Nat) : Nat :=
  let of_ (c : Nat) : Nat := ((coveOf s c).frames.filter fun f => f.id.stream == st).length
  rdN s (Reg.PIX_S_STATE st) / 16 * 16 + min 15 (((List.range 8).map of_).foldl max 0)
/-- CDC_STATUS of engine `e` (Table 9-8): the codec firmware runs while its domain does. -/
def cdcStatus (s : Dev) (e : Nat) : Nat :=
  let v := if domRuns s (72 + e) then rdN s (Reg.CDC_STATUS e) else putBits (rdN s (Reg.CDC_STATUS e)) 1 1 0
  match (cdcOf s e).busy with
  | none => v
  | some b => v + 1 + b2n (!b.charged) * 4 + b.ctx * 8
/-- STATE of a context (Table 9-13): HELD while its engine is stopped or in reset. -/
def ctxStateOf (s : Dev) (key : Nat) : Nat :=
  let e := key / 32
  let x := ctxOf s key
  let running := match (cdcOf s e).busy with
    | some b => b.ctx == key % 32
    | none => false
  if x.move.isSome || (cdcOf s e).moves.any (fun m => m.1 == key) then 5
  else if tst s (Reg.CDC_STATUS e) 8 || tst s (Reg.CDC_STATUS e) 9 then 6
  else if running then 2
  else if ctxEncodes s key then
    match x.clip with
    | none => 0
    | some c => if c.taken.any fun t => t.post.isSome && t.qp.isNone then 4 else if encodeReady s key then 1 else 0
  else match x.queue with
    | [] => 0
    | a :: _ =>
      if a.real && a.host == some true && a.hdr.isNone then 4 else if a.real && (freeBufs s key).isEmpty then 3
      else if decodeReady s key then 1 else 0
/-- CDC_CTX_STATE of a context (Table 9-13). -/
def ctxShown (s : Dev) (key : Nat) : Nat :=
  let x := ctxOf s key
  let marks := match x.clip with
    | some c => c.taken.length
    | none => 0
  ctxStateOf s key + min 8 x.queue.length * 8 + rf s (Reg.CDC_CTX_STATE (key / 32) (key % 32)) 7 2 * 2 ^ 7 + (freeBufs s key).length % 64 * 2 ^ 9 +
    b2n x.clip.isSome * 2 ^ 15 + min 4 marks * 2 ^ 16
/-- CDC_CTX_DEBT of a context (Table 9-7). -/
def ctxDebt (s : Dev) (key : Nat) : Nat := min 0xFFFF ((ctxOf s key).debt / 1000) + min 0xFFFF ((ctxOf s key).credit / 1000) * 2 ^ 16
/-- DMC_CH_STATUS of a channel: PAUSED while a pause runs (Table 13-11). -/
def chShown (s : Dev) (k : Nat) : Nat := putBits (rdN s (chStatus k)) 1 1 (b2n (decide (dramCycle s < (dchan s k).pauseEnd) && (dchan s k).paused != 0))
/-- DMC_CH_RETRAIN of a channel: ms since its last pause. -/
def chRetrain (s : Dev) (d ch : Nat) : Nat :=
  let v := rdN s (Reg.DMC_CH_RETRAIN d ch)
  let t := (dchan s (32 * d + ch)).paused
  if t = 0 then v else putBits v 0 16 (min 65535 ((now s - t) / 1000000))
/-- PCI_RING_STATE of a ring: WAIT_LINK while it is in RUN and the link is down (Table 16-9). -/
def ringShown (s : Dev) (r : Nat) : Nat := putBits (rdN s (Reg.PCI_RING_STATE r)) 3 1 (b2n (ringState s r == 1 && !(linkUp s)))

/-- What the register at offset `a` shows when that follows from state kept elsewhere. -/
def liveVal (s : Dev) (a : Nat) : Option Nat :=
  at1 a Reg.GEN_STATUS (genStatus s) <|> at1 a Reg.TIDE_STATUS (putBits (rdN s a) 5 1 (b2n (!s.held.isEmpty || s.tide.rateReq.isSome)))
    <|> at1 a Reg.TIDE_TIME_LO (now s % 2 ^ 32) <|> at1 a Reg.TIDE_TIME_HI (now s / 2 ^ 32)
    <|> at1 a Reg.ERR_STATUS (putBits (putBits (rdN s a) 0 1 (rf s Reg.ERR_CTRL 0 1)) 4 1 (b2n (policyHeld s)))
    <|> at1 a Reg.ING_STATUS (ingStatus s) <|> atN a 100 Reg.PWR_DOM_STATE (domShown s) <|> atN a 4 Reg.PIX_STATUS (pixStatus s)
    <|> atN a 8 Reg.PIX_Q_STATE (qState s) <|> atN a 512 Reg.PIX_S_STATE (sShown s) <|> atN a 16 Reg.CDC_STATUS (cdcStatus s)
    <|> atNM a 16 32 Reg.CDC_CTX_STATE (fun e x => ctxShown s (32 * e + x)) <|> atNM a 16 32 Reg.CDC_CTX_DEBT (fun e x => ctxDebt s (32 * e + x))
    <|> atN a 64 chStatus (chShown s) <|> atNM a 2 32 Reg.DMC_CH_RETRAIN (chRetrain s) <|> atN a 2 Reg.ARB_FCLK_CNT (fun _ => fclk s % 2 ^ 32)
    <|> atN a 12 Reg.PCI_RING_STATE (ringShown s) <|> atN a 8 Reg.SEC_ANCHOR_FP (fun i => (Config.anchorFp i).toNat)
/-- What a register shows (Table 0-5). -/
def shown (s : Dev) (a : Nat) : Nat := (liveVal s a).getD (rdN s a)

/-! ## What a request reaches (R421, R440) -/

/-- The blocks that respond in HALT (Table 19-2): GEN_, PCI_, BOOT_, SEC_, ERR_. -/
def haltBlock (o : Nat) : Bool := decide (o < 0x1000) || decide (0x13000 ≤ o ∧ o < 0x15000) || decide (0x16000 ≤ o ∧ o < 0x1C000)
/-- Whether an access to offset `a` is answered with an error on its way: the requesters are on die 0, and the register bus of die 1 is reached
through the port pair at router (7, 3) (Table 14-1, R344, R345). -/
def regLost (s : Dev) (a : Nat) : Bool := decide (dieHalf ≤ a) && crossesDown s 0 1 31
/-- Whether the register at offset `a` responds: one exists there, the device is not in HALT or its block responds there, die 1 runs, and the
access reaches it. -/
def responds (s : Dev) (a : Nat) : Bool :=
  (regDef? a).isSome && (!(halted s) || haltBlock (a % dieHalf)) && (decide (a < dieHalf) || domRuns s 98) && !(regLost s a)

/-! ## Reads (R439) -/

/-- The latch of a requester for the pair at `a`. -/
def latchOf (s : Dev) (r : Req) (a : Nat) : Latch := (s.bus.find? fun l => l.r == r && l.a == a).getD { r, a }
/-- Set it. -/
def putLatch (l : Latch) (s : Dev) : Dev := { s with bus := l :: s.bus.filter fun x => !(x.r == l.r && x.a == l.a) }
/-- Whether the register at `a` is the lower half of a pair. -/
def isLow (a : Nat) : Bool := match regDef? a with
  | some d => d.lo
  | none => false
/-- Whether the register at `a` is the upper half of a pair. -/
def isHigh (a : Nat) : Bool := decide (4 ≤ a) && isLow (a - 4)
/-- A register read: a _LO read latches the upper half for the requester, a _HI read returns that latch, or the live upper half while there is
none. -/
def readReg (r : Req) (a : Nat) (s : Dev) : Nat × Dev :=
  if !(responds s a) then (0, s)
  else if isLow a then (shown s a, putLatch { latchOf s r a with rd := some (BitVec.ofNat 32 (shown s (a + 4))) } s)
  else if isHigh a then (match (latchOf s r (a - 4)).rd with
    | some v => (v.toNat, s)
    | none => (shown s a, s))
  else (shown s a, s)

/-! ## Writes (R9 to R13) -/

/-- The fields that clamp, with what each becomes; TIDE_POWER_OFS and TIDE_CODEC_OFS are limited by the tide (Table 2-5). -/
def clampsOf (s : Dev) (a : Nat) (d : RegDef) : List Clamp :=
  d.clamps ++ if a = Reg.TIDE_POWER_OFS ∨ a = Reg.TIDE_CODEC_OFS then [⟨0, 17, 0, halfTideUs s⟩] else []
/-- A value after its clamps. -/
def clamped (cs : List Clamp) (v : Nat) : Nat := cs.foldl (fun v c => putBits v c.lo c.len (clampN (bits v c.lo c.len) c.min c.max)) v
/-- SYNC_OUT and PPS_OUT are low while they are disabled (R56). -/
def outputsOff (s : Dev) : Dev := s |> whenS (!(tst s Reg.TIDE_CTRL 2)) (driveSync false) |> whenS (!(tst s Reg.TIDE_CTRL 3)) (drivePps false)
/-- A write by the access codes of the register (Table 0-5): a W1C bit clears, a W1S bit sets, RW bits outside held fields change at once, and
held fields wait for the mark. The time unit reports clamped values, and refuses the reserved SOURCE (Table 2-8). -/
def plainWrite (a v : Nat) (s : Dev) : Dev :=
  match regDef? a with
  | none => s
  | some d =>
    let w := clamped (clampsOf s a d) v
    let reject := a == Reg.TIDE_CTRL && v % 4 == 3
    let held := if reject then d.held - d.held % 4 else d.held
    s |> whenS (isTide a && w != v) cfgClamp |> whenS reject cfgReject
      |> (fun s => wrN a (rdN s a - (rdN s a &&& d.w1c &&& v)) s) |> (fun s => wrN a (rdN s a ||| (d.w1s &&& v)) s)
      |> putMasked a (d.rw - d.held) w |> whenS (held != 0) (hold a held w) |> whenS (a == Reg.TIDE_CTRL) outputsOff
/-- SEQ_CMD (Table 7-12). A write while CMD_BUSY is ignored (R188); a command is done when its write is, so that CMD_BUSY reads 0. -/
def seqCmdWrite (v : Nat) (s : Dev) : Dev :=
  if tst s Reg.SEQ_STATUS 11 then raise 0x0604 0 0 s
  else match v % 16 with
  | 1 => sharePrefix (bits v 4 10) (bits v 14 10) s
  | 2 => cancel (bits v 4 10) s
  | 3 => evict (bits v 4 10) s
  | 4 => exhDone s
  | _ => raise 0x0604 0 0 s
/-- PWR_CMD (Table 18-8). -/
def pwrCmdWrite (v : Nat) (s : Dev) : Dev :=
  match v % 4 with
  | 1 => ebbEnter (bitOf v 2) s
  | 2 => wake 13 s
  | _ => s
/-- KVF_CMD (Table 7-8). -/
def kvfCmdWrite (v : Nat) (s : Dev) : Dev :=
  match v % 4 with
  | 1 => withhold (bits v 2 19) s
  | 2 => returnFrame (bits v 2 19) s
  | _ => s
/-- CDC_CMD of engine `e` (Table 9-10). -/
def cdcCmdWrite (e v : Nat) (s : Dev) : Dev :=
  match v % 4 with
  | 1 => engineReset e s
  | 2 =>
    let r := moveTo e (bits v 2 5) (bits v 7 4) s
    wrN (Reg.CDC_CMD_RESULT e) r.1 r.2
  | _ => s
/-- ING_ENTRY_CMD (Table 10-8). -/
def ingCmdWrite (v : Nat) (s : Dev) : Dev :=
  match v % 8 with
  | 1 => commitCmd (bits v 3 9) s
  | 2 => disableCmd (bits v 3 9) s
  | 3 => resyncCmd (bits v 3 9) s
  | 4 => reopenCmd (bits v 3 9) s
  | _ => s
/-- WIN_CTRL of core `k` (Table 5-5). -/
def winCtrlWrite (k v : Nat) (s : Dev) : Dev :=
  let was := tst s (Reg.WIN_CTRL k) 0
  s |> whenS (bitOf v 0 && !was) (winHoldReset k) |> whenS (!(bitOf v 0) && was) (winRelease k) |> whenS (bitOf v 1) (winBistStart k)
/-- What a write to a command register, or to a register with a rule of its own, does. Every START and STOP that SCH_CMD holds before a mark is
kept, and all take effect in issue order (log entry 56). -/
def ruledWrite (a v : Nat) : Option (Dev → Dev) :=
  at1 a Reg.TIDE_CMD (fun s => s |> whenS (bitOf v 0) relock |> whenS (bitOf v 1) hostEdgeGo |> whenS (bitOf v 2) setTimeGo)
    <|> at1 a Reg.SCH_CMD (fun s => if bits v 3 2 = 1 ∨ bits v 3 2 = 2 then { s with held := s.held ++ [.cove (v % 8) (bits v 3 2)] } else s)
    <|> at1 a Reg.GEN_IRQ_PEND (irqPendWrite v) <|> at1 a Reg.PCI_WAKE (pciWake v) <|> atN a 12 Reg.PCI_RING_CFG (fun r => ringCfgWrite r v)
    <|> at1 a Reg.SEC_CMD (secCmdWrite v) <|> at1 a Reg.BOOT_CMD (bootCmdWrite v) <|> at1 a Reg.ERR_HOST_CMD (errHostCmd v)
    <|> at1 a Reg.PWR_CMD (pwrCmdWrite v)
    <|> at1 a Reg.ING_ENTRY_CMD (ingCmdWrite v) <|> at1 a Reg.SEQ_CMD (seqCmdWrite v)
    <|> at1 a Reg.KVF_CMD (kvfCmdWrite v)
    <|> atN a 16 Reg.CDC_CMD (fun e => cdcCmdWrite e v)
    <|> atN a 2 Reg.DMC_CMD (fun d s => if v % 4 = 1 then (retrainCmd d (bits v 2 5) s).2 else s)
    <|> atN a 2 Reg.ARB_CMD (fun d s => if v % 4 = 1 then (retrainPortCmd d (bits v 2 5) s).2 else s)
    <|> atN a 2 Reg.DMC_CTRL (fun d s => s |> plainWrite a (v - v % 2) |> whenS (bitOf v 0) (lockTable d))
    <|> atNM a 2 32 (fun d i => Reg.DMC_RGN_BASE d 0 + 4 * i) (fun d _ s =>
      if tst s (Reg.DMC_CTRL d) 0 then raise 0x0E0A (32 * d) (rdN s (Reg.DMC_FAULT_INFO d)) s else plainWrite a v s)
    <|> atN a 64 Reg.ARR_BIST_CTRL (fun k => whenS (bitOf v 0) (arrBistStart k)) <|> atN a 64 Reg.WIN_CTRL (fun k => winCtrlWrite k v)
    <|> atNM a 64 8 Reg.LPD_RANGE (fun k c => lpdRangeWrite k c (BitVec.ofNat 32 v))
    <|> atNM a 64 16 Reg.LPD_SHAPE (fun k i => lpdShapeWrite k i (BitVec.ofNat 32 v))
    <|> ((List.range 64).find? fun k => decide (Reg.LPD_TABLE k 0 0 ≤ a) && decide (a < Reg.LPD_TABLE k 64 0)).map (fun k =>
      lpdTableWrite k ((a - Reg.LPD_TABLE k 0 0) / 256) ((a - Reg.LPD_TABLE k 0 0) % 256 / 4) (BitVec.ofNat 32 v))
/-- A write of BAR2's window: bits below the BAR2 size read 0 (R383). -/
def barWindow (v : Nat) (s : Dev) : Dev :=
  let m := 2 ^ bar2Bits s
  wr64 Reg.PCI_BAR2_WIN_LO (if bar2Bits s = 35 then 0 else v % 2 ^ 40 / m * m) s
/-- What a write of a register, or of a pair as a whole, does where the pair or the register has a rule of its own: `vs` are the values from
offset `a` on, `each` the write of each register by itself. Writes of the pool and the CPB of a valid codec context are ignored (R246). -/
def pairRule (a : Nat) (vs : List Nat) (each : Dev → Dev) : Option (Dev → Dev) :=
  let unlessValid (r : Nat → Nat → Nat) : Option (Dev → Dev) := atNM a 16 32 r (fun e x s => if ctxValid s (32 * e + x) then s else each s)
  atNM a 8 7 (fun c i => (coveCfgReg c i).1) (fun c i => schCoveConfigWrite c i vs)
    <|> atNM a 8 7 (fun c i => (pixQReg c i).1) (fun c i => pixQConfigWrite c i vs)
    <|> atN a 11 (fun i => (kvCfgReg i).1) (fun i => kvfConfigWrite i vs)
    <|> at1 a Reg.PCI_BAR2_WIN_LO (barWindow (vs.getD 0 0 + vs.getD 1 0 * 2 ^ 32))
    <|> unlessValid Reg.CDC_CTX_POOL_LO <|> unlessValid Reg.CDC_CTX_POOL_CFG <|> unlessValid Reg.CDC_CTX_CPB
    <|> atN a 24 (fun i => if i < 12 then Reg.PCI_RING_BASE_LO i else Reg.PCI_RING_SHADOW_LO (i - 12)) (fun i s =>
      if tst s (Reg.PCI_RING_CFG (i % 12)) 0 then pciReport 12 (i % 12) s else each s)
/-- The write of each register by itself. -/
def storeEach (a : Nat) (vs : List Nat) : Dev → Dev :=
  forS (List.range vs.length) fun j s => (match ruledWrite (a + 4 * j) (vs.getD j 0) with
    | some f => f s
    | none => plainWrite (a + 4 * j) (vs.getD j 0) s)
/-- The write of a register, or of a pair as a whole. -/
def storeRegs (a : Nat) (vs : List Nat) : Dev → Dev := (pairRule a vs (storeEach a vs)).getD (storeEach a vs)
/-- A register write: a _LO write is kept in the requester's latch, and a _HI write makes the pair's value take effect as a whole (R439). -/
def writeReg (r : Req) (a v : Nat) (s : Dev) : Dev :=
  let writable := match regDef? a with
    | some d => d.rw != 0
    | none => false
  if !(responds s a) then s
  else if isLow a && writable then putLatch { latchOf s r a with wr := some (BitVec.ofNat 32 v) } s
  else if isHigh a && writable then
    let l := latchOf s r (a - 4)
    let lo := match l.wr with
      | some w => w.toNat
      | none => rdN s (a - 4)
    s |> putLatch { l with wr := none } |> storeRegs (a - 4) [lo, v]
  else storeRegs a [v] s

/-! ## Commands -/

/-- A requester's access: the host's is a memory request of the link (R382, R440). -/
def viaBus (r : Req) (f : Dev → Dev) (s : Dev) : Dev := if r = .host then hostMem f s else f s
/-- A write request under byte enables (R382): only whole dwords are performed. -/
def busWrite (r : Req) (a be v : Nat) (s : Dev) : Dev := viaBus r (fun s => if be ≠ 15 then pciReport 10 0 s else writeReg r a v s) s
/-- A read request: the value returns to its requester, or the error response. -/
def busRead (r : Req) (a : Nat) (s : Dev) : Dev := viaBus r (fun s => if regLost s a then send (.regError r a) s else send (.regRead r a (BitVec.ofNat 32 (readReg r a s).1)) (readReg r a s).2) s
/-- REGISTER_WRITE (R13). -/
def execRegisterWrite (r : Req) (a : Nat) (be : Fin 16) (v : Word) (s : State) : Result := onDev (busWrite r a be.val v.toNat) s
/-- REG64_LO_READ (R439): a read of any register; a _LO register latches its upper half. -/
def execReg64LoRead (r : Req) (a : Nat) (s : State) : Result := onDev (busRead r a) s
/-- REG64_HI_WRITE (R439). -/
def execReg64HiWrite (r : Req) (a : Nat) (v : Word) (s : State) : Result := onDev (busWrite r a 15 v.toNat) s
/-- SCH_COVE_CONFIG_WRITE (R191). -/
def execSchCoveConfigWrite (r : Req) (c : Fin 8) (i : Fin 7) (v : Word) (s : State) : Result := onDev (busWrite r (coveCfgReg c.val i.val).1 15 v.toNat) s
/-- PIX_Q_CONFIG_WRITE (R295). -/
def execPixQConfigWrite (r : Req) (c : Fin 8) (i : Fin 7) (v : Word) (s : State) : Result := onDev (busWrite r (pixQReg c.val i.val).1 15 v.toNat) s
/-- KVF_CONFIG_WRITE (R187). -/
def execKvfConfigWrite (r : Req) (i : Fin 11) (v : Word) (s : State) : Result := onDev (busWrite r (kvCfgReg i.val).1 15 v.toNat) s
/-- GEN_IRQ_PEND_WRITE (R444). -/
def execGenIrqPendWrite (r : Req) (v : Word) (s : State) : Result := onDev (busWrite r Reg.GEN_IRQ_PEND 15 v.toNat) s
/-- A rising edge on SYNC_IN: one that R55 accepts may wake the device, except under source SYNC_IN (Table 18-7). -/
def syncIn (high : Nat) (s : Dev) : Dev :=
  let t := syncEdge high s
  whenS (t.tide.lastEdge != s.tide.lastEdge && tideSource s != 1) (wakeIf 1) t
/-- SYNC_IN_EDGE (R46, R55): a rising edge whose pulse stays high `high` ns. -/
def execSyncInEdge (high : Nat) (s : State) : Result := onDev (syncIn high) s

end Sys2Proof.Machine
end

