-- ==== Sys2Proof/Machine/Debug.lean ====
section
/-! DEFINITION. The debug port: the test access port's instructions and the debug accesses (R447 to R449). -/
set_option autoImplicit false
namespace Sys2Proof.Machine
open Sys2Proof

/-! ## Instructions (Table 19-7) -/

/-- The instruction register takes an instruction. -/
def tapSelect (i : TapReg) (s : Dev) : Dev := { s with jtag := { s.jtag with ir := i } }
/-- The IDCODE: silicon step 1, part 0x9600, manufacturer 0x725 (Table 19-7). -/
def idcodeValue : Nat := 0x19600E4B
/-- Whether a debug access is permitted (R447). -/
def dbgPermitted (s : Dev) : Bool := tst s Reg.SEC_STATUS 5 && !(tst s Reg.GEN_DBG_CTRL 0)
/-- EXTEST is available in HALT or while DEBUG_EN is 1; elsewhere the code selects the bypass bit (log entry 9). -/
def selectExtest (s : Dev) : Dev := tapSelect (if halted s || tst s Reg.SEC_STATUS 5 then .extest else .bypass) s
/-- EXTEST (R447). -/
def execExtest (s : State) : Result := onPin selectExtest s
/-- The identification register is selected and captured. -/
def selectIdcode (s : Dev) : Dev := s |> tapSelect .idcode |> send (.jtag idcodeValue)
/-- IDCODE (R447). -/
def execIdcode (s : State) : Result := onPin selectIdcode s
/-- SAMPLE_PRELOAD (R447). -/
def execSamplePreload (s : State) : Result := onPin (tapSelect .sample) s
/-- BYPASS (R447), which every unlisted code selects too. -/
def execBypass (s : State) : Result := onPin (tapSelect .bypass) s

/-! ## Accesses (R448, R449) -/

/-- Whether a request is outstanding: a memory access waits while its channel takes no commands (R337, R448). -/
def dbgBusy (s : Dev) : Bool := !(inReset s) && decide (dramCycle s < s.jtag.until_)
/-- A request ends: DATA and STATUS for the next capture. -/
def dbgEnd (status data : Nat) (s : Dev) : Dev := { s with jtag := { s.jtag with status := status, data := data } }
/-- A refused access: STATUS 3, no access, counted. -/
def dbgRefuse (s : Dev) : Dev := s |> bump Reg.GEN_DBG_REFUSED_CNT 1 |> dbgEnd 3 0
/-- An access of the debug port when DBG_ACCESS is selected: ignored while a request is outstanding, refused unless it is permitted and its address
is `ok`; else performed and counted.
A device held in reset has no DEBUG_EN, and its counter stays 0. -/
def dbgDo (ok : Bool) (f : Dev → Dev) (s : Dev) : Dev :=
  if s.jtag.ir ≠ .dbgAccess || dbgBusy s then s
  else if inReset s then dbgEnd 3 0 s
  else if dbgPermitted s && ok then settle (s |> bump Reg.GEN_DBG_CNT 1 |> f)
  else settle (dbgRefuse s)
/-- A register offset that the debug port can name: a multiple of 4 within BAR0. -/
def dbgReg (a : Nat) : Bool := a % 4 == 0 && decide (a < 2 * dieHalf)
/-- The effect of REG_READ. -/
def dbgRegRead (a : Nat) (s : Dev) : Dev :=
  if regLost s a then dbgEnd 2 0 s else let r := readReg .debug a s; dbgEnd 0 (r.1 % 2 ^ 32) r.2
/-- DEBUG_WRITTEN, until reset (R449). -/
def dbgWritten (s : Dev) : Dev := setB Reg.GEN_STATUS 4 true s
/-- The effect of REG_WRITE: a write of the port's own requester. -/
def dbgRegWrite (a v : Nat) (s : Dev) : Dev :=
  s |> dbgWritten |> fun s => if regLost s a then dbgEnd 2 0 s else s |> writeReg .debug a v |> dbgEnd 0 0
/-- The channel, bank and row of a device address. -/
def dbgPlace (s : Dev) (a : Nat) : Nat × Nat × Nat :=
  let d := a / 2 ^ 34 % 2
  let m := dramPlace ((regionMap s d (a % 2 ^ 34)).getD 0) (a % 2 ^ 34)
  (32 * d + m.1, m.2.1, m.2.2)
/-- The grant that the access takes from the bank's owner, when it has one (R353); while the channel takes no commands the request stays
outstanding. -/
def dbgGrant (k b : Nat) (s : Dev) : Dev :=
  let s := catchUp k s
  let x := dbank (dchan s k) b
  { s with jtag := { s.jtag with until_ := (dchan s k).pauseEnd } } |> whenS (x.row.isSome || x.lock.isSome) (bump (Reg.ARB_PREEMPT_CNT (k / 32)) 1)
/-- The effect of MEM_READ: the 8 bytes as they are final (R333). A corrected word is written back; an uncorrected one, like an address that the port
does not reach, is an error response (R325, R331, R335). -/
def dbgMemRead (a ecc : Nat) (s : Dev) : Dev :=
  match burstReach s 0 a with
  | some x => s |> reportReach x |> dbgEnd 2 0
  | none =>
    let m := dbgPlace s a
    let s := dbgGrant m.1 m.2.1 s
    let s := if ecc = 2 then noteBad a (a / 8 % 32) s else s
    if burstBad s a then s |> eccUncorr m.1 (a / 256 * 256) |> dbgEnd 2 0
    else
      s |> whenS (ecc == 1) (fun s => s |> dmcEcc m.1 0 |> dmcRaise 0x0E00 m.1
          |> writeBack m.1 { n := 0, id := 0, addr := a, bank := m.2.1, row := m.2.2, wr := none, at_ := 0 })
        |> fun s => dbgEnd 0 (rdLE .dram s a 8) s
/-- The effect of MEM_WRITE: one 8-byte masked burst write (R322), inside a locked sequence as well. -/
def dbgMemWrite (a v : Nat) (s : Dev) : Dev :=
  let s := dbgWritten s
  match burstReach s 0 a with
  | some x => s |> reportReach x |> dbgEnd 2 0
  | none => s |> dbgGrant (dbgPlace s a).1 (dbgPlace s a).2.1 |> wrLE .dram a 8 v |> dbgEnd 0 0
/-- A cluster-memory address: cluster in [26:24], offset in [23:0] below 12 MiB, a multiple of 8; the bits above are 0. -/
def dbgCm (a : Nat) : Bool := decide (a < 2 ^ 27) && decide (a % 2 ^ 24 < cmBytes) && a % 8 == 0
/-- The effect of CM_READ; a cluster whose domain is off gives an error response (log entry 9). -/
def dbgCmRead (a : Nat) (s : Dev) : Dev :=
  let c := a / 2 ^ 24
  if domRuns s (64 + c) then dbgEnd 0 (rdLE (.cm c) s (a % 2 ^ 24) 8) s else dbgEnd 2 0 s

/-- REG_READ (R448). -/
def execRegRead (a : Nat) (s : State) : Result := onPin (dbgDo (dbgReg a) (dbgRegRead a)) s
/-- REG_WRITE (R449). -/
def execRegWrite (a : Nat) (v : Word) (s : State) : Result := onPin (dbgDo (dbgReg a) (dbgRegWrite a v.toNat)) s
/-- MEM_READ (R449). -/
def execMemRead (a : Nat) (ecc : Fin 3) (s : State) : Result := onPin (dbgDo (a % 8 == 0) (dbgMemRead a ecc.val)) s
/-- MEM_WRITE (R449). -/
def execMemWrite (a : Nat) (v : BitVec 64) (s : State) : Result := onPin (dbgDo (a % 8 == 0) (dbgMemWrite a v.toNat)) s
/-- CM_READ (R448). -/
def execCmRead (a : Nat) (s : State) : Result := onPin (dbgDo (dbgCm a) (dbgCmRead a)) s

/-! ## The data register (Table 19-8) -/

/-- What Capture-DR loads: OP and ADDR 0, DATA, STATUS; STATUS 1 while a request is outstanding. -/
def dbgCapture (s : Dev) : Nat := if dbgBusy s then 2 ^ 107 else s.jtag.data * 2 ^ 43 + s.jtag.status * 2 ^ 107
/-- What Update-DR does with the 109 bits `w` that were shifted in; OP 6 and 7 are reserved. -/
def dbgUpdate (w ecc : Nat) (s : Dev) : Dev :=
  let a := bits w 3 40
  let v := bits w 43 64
  match bits w 0 3 with
  | 0 => s
  | 1 => dbgDo (dbgReg a) (dbgRegRead a) s
  | 2 => dbgDo (dbgReg a) (dbgRegWrite a (v % 2 ^ 32)) s
  | 3 => dbgDo (a % 8 == 0) (dbgMemRead a ecc) s
  | 4 => dbgDo (a % 8 == 0) (dbgMemWrite a v) s
  | 5 => dbgDo (dbgCm a) (dbgCmRead a) s
  | _ => dbgDo false id s
/-- DBG_ACCESS selects the debug access register; a scan of it captures what the last request left, and its Update-DR issues what was
shifted in. -/
def dbgScan (w : Option (BitVec 109)) (ecc : Nat) (s : Dev) : Dev :=
  let s := tapSelect .dbgAccess s
  match w with
  | none => s
  | some w => s |> send (.jtag (dbgCapture s)) |> dbgUpdate w.toNat ecc
/-- DBG_ACCESS (R447, R448). -/
def execDbgAccess (w : Option (BitVec 109)) (ecc : Fin 3) (s : State) : Result := onPin (dbgScan w ecc.val) s

/-- LOCK_OUT (R447): GEN_DBG_CTRL.LOCK_OUT is set by any requester and stays set until reset. -/
def execLockOut (r : Req) (s : State) : Result := onDev (busWrite r Reg.GEN_DBG_CTRL 15 1) s

end Sys2Proof.Machine
end

