-- ==== Sys2Proof/Machine/Image.lean ====
section
/-! DEFINITION. The DEVICE section of the image: the defaults of IMG fields, and the register writes that the image lists (R403). -/
set_option autoImplicit false
namespace Sys2Proof.Machine
open Sys2Proof

/-- Whether a pair of the DEVICE section may name offset `a` (R403); the table windows hold IMG fields. -/
def pairAllowed (a : Nat) : Bool :=
  isImg a || a == Reg.ING_ENTRY_CMD || (decide (Reg.ING_STAGE 0 ≤ a) && decide (a ≤ Reg.ING_STAGE 31) && a % 4 == 0)
/-- Every IMG field takes the value its chapter gives, or 0 where it gives none; the fields that the header gave (Table 17-2) stay. -/
def imageDefaults (s : Dev) : Dev :=
  let size := rdN s Reg.PCI_BAR2_SIZE
  let gen := rf s Reg.PCI_LINK_CFG 0 3
  { s with regs := s.regs.filter fun e => !(isImg e.1) } |> forS imageValues (fun x s => wrN x.1 x.2 s)
    |> wrN Reg.PCI_BAR2_SIZE size |> wf Reg.PCI_LINK_CFG 0 3 gen
/-- The pairs of the section at flash address `a`, performed in order as writes of Ziltur's position; `false` when one names another offset. -/
def runPairs : Nat → Nat → Dev → Bool × Dev
  | 0, _, s => (true, s)
  | n + 1, a, s =>
    let o := flLE s a 4
    if pairAllowed o then runPairs n (a + 8) (writeReg .ziltur o (flLE s (a + 4) 4) s) else (false, s)
/-- Whether a waiting write is one of a port's configuration. -/
def portWrite (h : Held) : Bool := match h with
  | .reg a _ _ => (List.range 4).any fun p => a == Reg.ING_PORT_CFG p
  | _ => false
/-- The ports start: their configuration takes effect in stage DEVICE, so that PTP acquisition can precede the first mark. -/
def startPorts (s : Dev) : Dev :=
  { s with held := s.held.filter fun h => !(portWrite h) } |> forS (s.held.filter portWrite) fun h s => (match h with
    | .reg a m v => putMasked a m v s
    | _ => s)
/-- BOOT_DEVICE_DONE (R403, R404, R407): the DEVICE section, whose digest the security block computes as `digest`, is applied; the region tables
must be locked and the section table must pass. -/
def bootDeviceDone (digest : List Byte) (s : Dev) : Dev :=
  if stage s ≠ 4 || s.bt.next != 0 then s
  else match s.bt.sects.head? with
    | none => slotFail s
    | some z =>
      if z.kind ≠ 1 || z.source != 0 || digest != z.digest then slotFail s
      else
        let r := runPairs (z.len / 8) (slotBase s (slotOf s) + z.ofs) (imageDefaults s)
        let t := r.2
        if !r.1 || !(tst t (Reg.DMC_CTRL 0) 0) || !(tst t (Reg.DMC_CTRL 1) 0) || !(tableOk t) then slotFail t
        else
          { t with bt := { t.bt with next := 1 } } |> wr64 Reg.BOOT_SECT_OK_LO 1 |> wr64 Reg.BOOT_SECT_PEND_LO (hostSects t) |> startPorts
            |> whenS t.bt.trained (setStage 5)
/-- BOOT_DEVICE_DONE (R403). -/
def execBootDeviceDone (digest : List Byte) (s : State) : Result := onDev (bootDeviceDone digest) s

end Sys2Proof.Machine
end

