-- ==== Sys2Proof/Machine/Mark.lean ====
section
/-! DEFINITION. The actions of a tide mark: step 3, held writes, commands and mode changes; step 5, the tide's records; and the order of all
(R31, R44, R50, R51, R54, R191, R211, R212, R309, R363). -/
set_option autoImplicit false
namespace Sys2Proof.Machine
open Sys2Proof

/-! ## Starting and stopping coves (R191, R293, R371) -/

/-- A cove's closed batches that have not started become gaps (R191). -/
def dropBatches (c : Nat) (s : Dev) : Dev :=
  let fs := (coveOf s c).queue.flatMap (·.frames)
  s |> modCove c (fun v => { v with queue := [] }) |> forS fs (fun f => gap1 f.stream .dropped c 0xFF f.cap f.untr)
/-- STOP at the mark that ends tide `k`: no other job starts, and the cove enters STOPPED when none is in progress. -/
def coveStop (k c : Nat) (s : Dev) : Dev :=
  let v := coveOf s c
  let seq := isSeqCove s c
  if coveState s c = 1 then setCoveState c 4 s
  else if coveState s c ≠ 2 then s
  else
    s |> setCoveState c (if v.run.isSome || (seq && !v.queue.isEmpty) then 3 else 4)
      |> whenS seq (dropUnstarted c) |> whenS (!seq) (fun s => s |> noteFrames k false (v.frames.map (·.id)) |> dropBatches c |> dropPending c)
/-- START of the action COVE_RESTART: it is equivalence-preserving only when every stage has the n_elig of the previous start. -/
def coveRestart (c : Nat) (s : Dev) : Dev :=
  let t := coveStart c s
  let went := !([1, 2, 3].contains (coveState s c)) && coveState t c == 1
  let same := (List.range (nStages t c)).all fun i => nElig s c i == nElig t c i
  t |> whenS (went && !same) notEquivalent |> endActions 3 c (if went then 1 else 4)
/-- A held cove command: 1 START, 2 STOP, 3 the STOP and 4 the START of COVE_RESTART. -/
def coveOp (k c op : Nat) (s : Dev) : Dev :=
  match op with
  | 1 => coveStart c s
  | 2 => coveStop k c s
  | 3 => (fun s => { s with held := s.held ++ [.cove c 4] }) (coveStop k c s)
  | _ => coveRestart c s

/-! ## Checked groups of words: profiles and policy entries (R275, R363) -/

/-- The profile (0..127) or policy entry (128..383) that a word belongs to. -/
def groupOf (a : Nat) : Option Nat :=
  if Reg.PIX_PROFILE 0 0 ≤ a ∧ a < Reg.PIX_PROFILE 128 0 then some ((a - Reg.PIX_PROFILE 0 0) / 128)
  else if Reg.ERR_POLICY 0 0 ≤ a ∧ a < Reg.ERR_POLICY 256 0 then some (128 + (a - Reg.ERR_POLICY 0 0) / 16)
  else none
/-- The check of R363 on policy entry `i`. -/
def policyOk (s : Dev) (i : Nat) : Bool :=
  let act := polF s i 2 0 6
  decide (act ≤ 18) && polF s i 3 16 16 == 0 && (polF s i 2 7 1 == 1 || !([6, 10, 11, 16, 17, 18].contains act)) &&
    decide (polF s i 1 0 16 ≤ polF s i 1 16 16)
/-- The held words of group `g` take effect together; a profile or entry that fails its check keeps its words. -/
def applyGroup (g : Nat) (all : List Held) (s : Dev) : Dev :=
  let t := forS all (fun h s => (match h with
    | .reg a m v => if groupOf a = some g then putMasked a m v s else s
    | _ => s)) s
  if g < 128 then if profOk t g then t else pixInvalid (0x100 + g) s
  else if policyOk t (g - 128) then { t with err := { t.err with bad := t.err.bad.erase (g - 128) } } else errRaise 3 (g - 128) s

/-! ## Step 3 (R13, R31, R44, R51) -/

/-- A held write of a register at the mark; `grid` tells that the mark is mark 0 of a PTP second. Under source PTP a new rate waits for such a
mark. -/
def applyReg (a m v : Nat) (grid : Bool) (s : Dev) : Dev :=
  if a = Reg.TIDE_RATE then
    if tideSource s = 0 ∧ ¬ grid then { s with tide := { s.tide with rateReq := some v } }
    else applyTide a m v { s with tide := { s.tide with rateReq := none } }
  else if a = Reg.TIDE_CTRL then (let t := applyTide a m v s
    if m % 4 = 0 then t else t |> whenS (acting t 10 0) notEquivalent |> endActions 10 0 1)
  else if isTide a then applyTide a m v s
  else match atNM a 16 32 Reg.CDC_CTX_CFG (fun e x => 32 * e + x) with
    | some key => applyCtxCfg key (rdN s a - (rdN s a &&& m) + (v &&& m)) s
    | none => putMasked a m v s
/-- Held writes and commands take effect in issue order; the words of a profile or a policy entry with the first of them. -/
def applyHeld (k mt : Nat) (grid : Bool) (all : List Held) : List Held → List Nat → Dev → Dev
  | [], _, s => s
  | h :: hs, gs, s =>
    match h with
    | .reg a m v =>
      match groupOf a with
      | some g => if gs.contains g then applyHeld k mt grid all hs gs s else applyHeld k mt grid all hs (g :: gs) (applyGroup g all s)
      | none => applyHeld k mt grid all hs gs (applyReg a m v grid s)
    | .cove c op => applyHeld k mt grid all hs gs (coveOp k c op s)
    | .commit st ws => applyHeld k mt grid all hs gs (applyCommit st ws s)
    | .disable st => applyHeld k mt grid all hs gs (applyDisable st s)
    | .ebb off => applyHeld k mt grid all hs gs (ebbAtMark off mt s)
/-- A rate that waits for mark 0 of a PTP second takes effect there, or at any mark of another source. -/
def rateAtMark (grid : Bool) (s : Dev) : Dev :=
  match s.tide.rateReq with
  | some v => applyReg Reg.TIDE_RATE 0x7F v grid s
  | none => s
/-- The coves that were in RUN when an ebb began start at the first mark after its exit (R434). -/
def startAgain (s : Dev) : Dev :=
  if ebbState s ≠ 0 then s else { forS s.pwr.coves coveStart s with pwr := { s.pwr with coves := [] } }
/-- Whether a held write concerns the pixel unit's classes, profiles or pyramids. -/
def pixHeld (h : Held) : Bool := match h with
  | .reg a _ _ => decide (0x50000 ≤ a) && decide (a < 0x60000)
  | _ => false
/-- Step 3: at the first mark AUTO_START starts its coves after the image's held writes (R191). -/
def markStep3 (k mt : Nat) (s : Dev) : Dev :=
  let all := s.held
  let first := !s.tide.marked
  let grid := mt % 1000000000 == 0
  let t := { s with held := [] } |> rateAtMark grid |> startAgain |> applyHeld k mt grid all all []
  t |> whenS (all.any pixHeld) (pixRecheck s) |> forS (s.err.acts.filter fun a => a.action == 17) (fun a s => s |> notEquivalent |> endActions 17 a.unit 1)
    |> whenS first (forS ((List.range 8).filter fun c => tst t (Reg.SCH_COVE_CFG c) 3) coveStart)

/-! ## Step 5: records of tide k (R50, R75, R211, R212) -/

/-- A bitmap of the coves that satisfy `p`. -/
def coveMap (p : Nat → Bool) : Nat := ofBitList ((List.range 8).filter p)
/-- HOST_WAIT: a bit for each function of Table 1-8 that waits for the host, or gave work up in the tide for want of an answer (R32); camera
sessions are row 0. -/
def hostWaits (s : Dev) : Nat :=
  let heads := (s.cctx.map (·.2)).filterMap fun x => x.queue.head?
  let codec := heads.any fun a => a.real && a.host == some true && a.hdr.isNone
  let encode := s.cctx.any fun x => match x.2.clip with
    | some c => c.taken.any fun t => t.post.isSome && t.qp.isNone
    | none => false
  let crops := s.pix.pipes.any fun x => x.2.any fun p => p.host && p.post.isSome && p.list.isNone
  let tracks := (List.range 2).any fun d => !(trkOf s d).posted.isEmpty
  let rings := rf s Reg.MDO_CTRL 0 2 == 2 && (List.range 4).any fun r => !(chan s (8 + r)).q.isEmpty
  let now_ := 2 * b2n codec + 4 * b2n encode + 8 * b2n crops + 16 * b2n tracks + 32 * b2n (tst s Reg.KVF_STATUS 3) + 64 * b2n (tst s Reg.ERR_STATUS 3) + 128 * b2n rings
  now_ ||| ofBitList s.tide.waited
/-- The body of a HEALTH record for tide `k` (Table 12-7). -/
def healthBody (k : Nat) (s : Dev) : List Byte :=
  let silent (st : Nat) : Bool := isSilent s st
  let temps := (List.range 24).map (tideTop s)
  beBytes 8 k ++ beBytes 1 (timeState s + syncState s * 4 + b2n (ebbState s != 0) * 16) ++ [0] ++ beBytes 2 (rf s Reg.TIDE_UTC_OFS 0 16)
    ++ beBytes 8 (ofBitList ((List.range 64).filter (coreFailed s))) ++ beBytes 2 (hostWaits s)
    ++ beBytes 1 (coveMap fun c => coveState s c == 5) ++ beBytes 1 (coveMap fun c => coveState s c == 6)
    ++ beBytes 1 (coveMap fun c => tst s (Reg.PIX_Q_STATE c) 14) ++ beBytes 1 (coveMap fun c => mget (fun _ => 0) s.kv.short c != 0)
    ++ beBytes 1 (b2n (tst s Reg.KVF_STATUS 4) + 2 * b2n (tst s (Reg.TRK_STATUS 0) 16) + 4 * b2n (tst s (Reg.TRK_STATUS 1) 16)) ++ [0]
    ++ beBytes 2 ((List.range 512).filter silent).length ++ beBytes 2 (rf s Reg.PWR_PKG_POWER 0 16)
    ++ beBytes 2 (ofSigned (temps.foldl max (temps.headD 0)) 16) ++ [0, 0]
    ++ (List.range 64).flatMap (fun i => beBytes 1 (ofBitList ((List.range 8).filter fun j => silent (8 * i + j))))
    ++ (List.range 8).flatMap fun c =>
      beBytes 2 (min 65535 (coveOf s c).stat.sat) ++ beBytes 2 (min 65535 (coveOf s c).stat.nonfin) ++ beBytes 1 (coveState s c) ++ [0, 0, 0]
/-- Σ measured / Σ estimate of a tide's tasks, in 1/256. -/
def meanSigma (x : TideStat) : Nat := if x.est = 0 then 0 else min 65535 (256 * x.meas / x.est)
/-- Whether a cove of the tide had a task at SCH_SLOW_THR or above (R211). -/
def slowed (s : Dev) (c : Nat) : Bool := (coveOf s c).stat.tasks != 0 && decide (rf s Reg.SCH_SLOW_THR 0 16 ≤ (coveOf s c).stat.sigma)
/-- The body of a SLOWDOWN record. -/
def slowBody (x : TideStat) : List Byte :=
  beBytes 2 (min 65535 x.tasks) ++ beBytes 2 (meanSigma x) ++ beBytes 2 x.sigma ++ beBytes 1 x.stage ++ beBytes 1 x.core ++ beBytes 2 (min 65535 x.ovr)
    ++ beBytes 2 (min 65535 x.switches) ++ beBytes 4 (min 0xFFFFFFFF (x.swNs / 1000))
/-- The body of an OVERLOAD record. -/
def overloadBody (x : TideStat) : List Byte :=
  beBytes 4 (x.nominal / 4096) ++ beBytes 4 (x.offered / 4096) ++ beBytes 4 (x.admitted / 4096) ++ beBytes 4 (x.outst / 4096)
    ++ (List.range 4).flatMap fun p => beBytes 2 (min 65535 (x.byPrio.getD p (0, 0)).1) ++ beBytes 2 (min 65535 (x.byPrio.getD p (0, 0)).2)
/-- A record of step 5: it carries tide number `k`, and its TIME is `tm`, the mark time of that tide (R43, R50). -/
def markRec (s : Dev) (k tm kind subject : Nat) (body : List Byte) : LmpRec :=
  { mkRec s kind subject 0 tm (untraceable s) body with tide := k % 2 ^ 32 }
/-- SCH_COVE_SLOW, the slow-down and overload records and SLOWDOWN of one cove that ran in tide `k`. -/
def coveReport (k tm c : Nat) (s : Dev) : Dev :=
  let x := (coveOf s c).stat
  s |> whenS (serves s c || x.tasks != 0) (wrN (Reg.SCH_COVE_SLOW c) (meanSigma x + x.sigma * 2 ^ 16))
    |> whenS x.short (fun s => emitRec (markRec s k tm 11 c (overloadBody x)) s)
    |> whenS (slowed s c) (fun s => s |> emitRec (markRec s k tm 9 c (slowBody x)) |> raiseFor 0x0706 c 0 c)
/-- The datagrams of every UDP channel close after the health records of a mark (R309). -/
def closeAll (s : Dev) : Dev := forS (List.range 8) (fun ch => closeDatagrams ch true 4096) s
/-- Step 5; in ebb one health record at each mark whose tide number is a multiple of N (R54). -/
def markStep5 (k tm : Nat) (s : Dev) : Dev :=
  let health (s : Dev) : Dev := emitRec (markRec s k tm 8 0xFFFF (healthBody k s)) { s with tide := { s.tide with waited := [] } }
  if ebbState s = 2 then (if (k + 1) % tideN s = 0 then s |> health |> closeAll else s)
  else
    s |> health |> forS (List.range 8) (coveReport k tm) |> closeAll |> forS (List.range 8) (fun c => modStat c fun _ => {})

/-! ## The error collector and boot at a mark (R361, R363, R364, R411) -/

/-- A policy entry that has fired counts the tides since; one that has not fired in the last WINDOW tides starts again at FIRE_CNT 0. -/
def policyWindow (i : Nat) (s : Dev) : Dev :=
  let a := Reg.ERR_POLICY_FIRE i
  let since := rf s a 8 16
  if rdN s a = 0 then s
  else
    let w := polF s i 3 0 16
    s |> whenS (w != 0 && decide (w ≤ since)) (wf a 0 8 0) |> wf a 8 16 (min 65535 (since + 1))
/-- Boot is complete at the first mark: STAGE 10, and BOOT_TIME in ms since the release of reset. -/
def bootComplete (s : Dev) : Dev := s |> setStage 10 |> wrN Reg.BOOT_TIME (min 65535 ((now s - s.bt.rel) / 1000000))
/-- The step of device time at a mark; the action TIDE_STEP ends with it, failed when a later request replaced it (R49). -/
def markStep (s : Dev) : Dev :=
  let mine := match s.tide.timeReq with
    | some .master => true
    | _ => false
  s |> markTimeStep |> whenS (acting s 11 0) (fun s => s |> whenS mine notEquivalent |> endActions 11 0 (if mine then 1 else 4))

/-! ## The mark (R50) -/

/-- Step 2, from which ebb is excepted (R54): the batches of tide `k` close. At the first mark none does (R43). -/
def markStep2 (k mt : Nat) (first : Bool) (s : Dev) : Dev := if first || ebbState s == 2 then s else markAdmission k mt s
/-- TIDE_MARK_ACTION (R50): the steps of Table 2-4 in order, then a requested step of device time and the prediction of the next mark. -/
def tideMark (s : Dev) : Dev :=
  match s.tide.next with
  | none => s
  | some _ =>
    let first := !s.tide.marked
    let k := endingTide s
    let mt := (comingMark s).1
    let tm := if first then mt else rd64 s Reg.TIDE_MARK_LO
    let s := s |> markStep1 |> markTemps |> markStep2 k mt first |> markStep3 k mt |> markTracks mt |> markStep4
      |> whenS first bootComplete |> markStep5 k tm |> forS (List.range 256) policyWindow
    let t0 := now s
    let had := s.tide.timeReq.isSome
    let t := markStep { s with err := { s.err with seen := [] }, pwr := { s.pwr with fresh := false } }
    planNext mt had ((now t : Int) - t0) t
/-- TIDE_MARK_ACTION (R50). -/
def execTideMarkAction (s : State) : Result := onDev tideMark s

end Sys2Proof.Machine
end

