-- ==== Sys2Proof/Machine/VeCommands.lean ====
section
/-! DEFINITION. The vector-engine commands: an ENG 3 nest whose VE entry names the function (Table 8-4, R77 to R79). -/
set_option autoImplicit false
namespace Sys2Proof.Machine
open Sys2Proof

/-- The VE nest of function 0x01 (R72). -/
def execConvert (k : Fin 64) (ecc : Fin 3) (s : State) : Result := onDev (veNest k ecc 0x01) s
/-- The VE nest of function 0x02 (R77). -/
def execAdd (k : Fin 64) (ecc : Fin 3) (s : State) : Result := onDev (veNest k ecc 0x02) s
/-- The VE nest of function 0x03 (R77). -/
def execSub (k : Fin 64) (ecc : Fin 3) (s : State) : Result := onDev (veNest k ecc 0x03) s
/-- The VE nest of function 0x04 (R77). -/
def execMul (k : Fin 64) (ecc : Fin 3) (s : State) : Result := onDev (veNest k ecc 0x04) s
/-- The VE nest of function 0x05 (R77). -/
def execFma (k : Fin 64) (ecc : Fin 3) (s : State) : Result := onDev (veNest k ecc 0x05) s
/-- The VE nest of function 0x06 (R77). -/
def execMin (k : Fin 64) (ecc : Fin 3) (s : State) : Result := onDev (veNest k ecc 0x06) s
/-- The VE nest of function 0x07 (R77). -/
def execMax (k : Fin 64) (ecc : Fin 3) (s : State) : Result := onDev (veNest k ecc 0x07) s
/-- The VE nest of function 0x08 (R77). -/
def execRelu (k : Fin 64) (ecc : Fin 3) (s : State) : Result := onDev (veNest k ecc 0x08) s
/-- The VE nest of function 0x09 (R77). -/
def execRelu6 (k : Fin 64) (ecc : Fin 3) (s : State) : Result := onDev (veNest k ecc 0x09) s
/-- The VE nest of function 0x0A (R77). -/
def execLeakyRelu (k : Fin 64) (ecc : Fin 3) (s : State) : Result := onDev (veNest k ecc 0x0A) s
/-- The VE nest of function 0x0B (R77). -/
def execClip (k : Fin 64) (ecc : Fin 3) (s : State) : Result := onDev (veNest k ecc 0x0B) s
/-- The VE nest of function 0x10 (R77). -/
def execReciprocal (k : Fin 64) (ecc : Fin 3) (s : State) : Result := onDev (veNest k ecc 0x10) s
/-- The VE nest of function 0x11 (R77). -/
def execSqrt (k : Fin 64) (ecc : Fin 3) (s : State) : Result := onDev (veNest k ecc 0x11) s
/-- The VE nest of function 0x12 (R77). -/
def execRsqrt (k : Fin 64) (ecc : Fin 3) (s : State) : Result := onDev (veNest k ecc 0x12) s
/-- The VE nest of function 0x13 (R77). -/
def execExp (k : Fin 64) (ecc : Fin 3) (s : State) : Result := onDev (veNest k ecc 0x13) s
/-- The VE nest of function 0x14 (R77). -/
def execExp2 (k : Fin 64) (ecc : Fin 3) (s : State) : Result := onDev (veNest k ecc 0x14) s
/-- The VE nest of function 0x15 (R77). -/
def execLog (k : Fin 64) (ecc : Fin 3) (s : State) : Result := onDev (veNest k ecc 0x15) s
/-- The VE nest of function 0x16 (R77). -/
def execLog2 (k : Fin 64) (ecc : Fin 3) (s : State) : Result := onDev (veNest k ecc 0x16) s
/-- The VE nest of function 0x18 (R77). -/
def execSigmoid (k : Fin 64) (ecc : Fin 3) (s : State) : Result := onDev (veNest k ecc 0x18) s
/-- The VE nest of function 0x19 (R77). -/
def execTanh (k : Fin 64) (ecc : Fin 3) (s : State) : Result := onDev (veNest k ecc 0x19) s
/-- The VE nest of function 0x1A (R77). -/
def execSilu (k : Fin 64) (ecc : Fin 3) (s : State) : Result := onDev (veNest k ecc 0x1A) s
/-- The VE nest of function 0x1B (R77). -/
def execGeluErf (k : Fin 64) (ecc : Fin 3) (s : State) : Result := onDev (veNest k ecc 0x1B) s
/-- The VE nest of function 0x1C (R77). -/
def execGeluTanh (k : Fin 64) (ecc : Fin 3) (s : State) : Result := onDev (veNest k ecc 0x1C) s
/-- The VE nest of function 0x1D (R77). -/
def execHardSwish (k : Fin 64) (ecc : Fin 3) (s : State) : Result := onDev (veNest k ecc 0x1D) s
/-- The VE nest of function 0x20 (R78). -/
def execLayerNorm (k : Fin 64) (ecc : Fin 3) (s : State) : Result := onDev (veNest k ecc 0x20) s
/-- The VE nest of function 0x21 (R78). -/
def execRmsNorm (k : Fin 64) (ecc : Fin 3) (s : State) : Result := onDev (veNest k ecc 0x21) s
/-- The VE nest of function 0x22 (R78). -/
def execSoftmaxRow (k : Fin 64) (ecc : Fin 3) (s : State) : Result := onDev (veNest k ecc 0x22) s
/-- The VE nest of function 0x28 (R144). -/
def execCompact (k : Fin 64) (ecc : Fin 3) (s : State) : Result := onDev (veNest k ecc 0x28) s
/-- The VE nest of function 0x30 (R79). -/
def execMxint8Import (k : Fin 64) (ecc : Fin 3) (s : State) : Result := onDev (veNest k ecc 0x30) s
/-- The VE nest of function 0x31 (R72). -/
def execToBx1Activation (k : Fin 64) (ecc : Fin 3) (s : State) : Result := onDev (veNest k ecc 0x31) s

end Sys2Proof.Machine
end

