-- ==== Sys2Proof/Machine/Dispatch.lean ====
section
/-! DEFINITION. One arm for each command of the opcode table. -/
namespace Sys2Proof.Machine
open Sys2Proof

/-- The effect of a command on everything but the queue. -/
def exec (i : Instr) (s : State) : Host.Outcome State Fault Refusal :=
  match i with
  | .registerWrite r a be v => Sys2Proof.Machine.execRegisterWrite r a be v s
  | .reg64LoRead r a => Sys2Proof.Machine.execReg64LoRead r a s
  | .reg64HiWrite r a v => Sys2Proof.Machine.execReg64HiWrite r a v s
  | .ptpAnnounce p h m => Sys2Proof.Machine.execPtpAnnounce p h m s
  | .ptpSync p h twoStep origin => Sys2Proof.Machine.execPtpSync p h twoStep origin s
  | .ptpFollowUp p h origin => Sys2Proof.Machine.execPtpFollowUp p h origin s
  | .ptpDelayReqSend p => Sys2Proof.Machine.execPtpDelayReqSend p s
  | .ptpDelayResp p h peer t => Sys2Proof.Machine.execPtpDelayResp p h peer t s
  | .ptpPdelayReq p h => Sys2Proof.Machine.execPtpPdelayReq p h s
  | .announceReceiptTimeout => Sys2Proof.Machine.execAnnounceReceiptTimeout s
  | .holdoverLimitExpiry => Sys2Proof.Machine.execHoldoverLimitExpiry s
  | .acqLimitExpiry => Sys2Proof.Machine.execAcqLimitExpiry s
  | .syncInEdge high => Sys2Proof.Machine.execSyncInEdge high s
  | .hostEdgeGo => Sys2Proof.Machine.execHostEdgeGo s
  | .hostEdgeTimeReached => Sys2Proof.Machine.execHostEdgeTimeReached s
  | .relock => Sys2Proof.Machine.execRelock s
  | .setTimeGo => Sys2Proof.Machine.execSetTimeGo s
  | .tideMarkAction => Sys2Proof.Machine.execTideMarkAction s
  | .syncOutPulseEnd => Sys2Proof.Machine.execSyncOutPulseEnd s
  | .ppsOutRise => Sys2Proof.Machine.execPpsOutRise s
  | .ppsOutPulseEnd => Sys2Proof.Machine.execPpsOutPulseEnd s
  | .dramRetrainWindow => Sys2Proof.Machine.execDramRetrainWindow s
  | .powerStep pkg core => Sys2Proof.Machine.execPowerStep pkg core s
  | .codecRoundStart => Sys2Proof.Machine.execCodecRoundStart s
  | .weightRowLoaded k r ws more => Sys2Proof.Machine.execWeightRowLoaded k r ws more s
  | .passEntry k p => Sys2Proof.Machine.execPassEntry k p s
  | .swapTokenArrival k r => Sys2Proof.Machine.execSwapTokenArrival k r s
  | .passCommit k flt => Sys2Proof.Machine.execPassCommit k flt s
  | .swapTimeout k => Sys2Proof.Machine.execSwapTimeout k s
  | .arrBistStart k => Sys2Proof.Machine.execArrBistStart k s
  | .arrBistDone k fails step us => Sys2Proof.Machine.execArrBistDone k fails step us s
  | .winHoldReset k => Sys2Proof.Machine.execWinHoldReset k s
  | .weResetEnter k => Sys2Proof.Machine.execWeResetEnter k s
  | .winRelease k => Sys2Proof.Machine.execWinRelease k s
  | .weReleaseDone k => Sys2Proof.Machine.execWeReleaseDone k s
  | .winBistStart k => Sys2Proof.Machine.execWinBistStart k s
  | .weBistDone k step us => Sys2Proof.Machine.execWeBistDone k step us s
  | .lineBufferRowWrite k blk part set row => Sys2Proof.Machine.execLineBufferRowWrite k blk part set row s
  | .windowGather k m flt => Sys2Proof.Machine.execWindowGather k m flt s
  | .winConv k ecc => Sys2Proof.Machine.execWinConv k ecc s
  | .winDepthwiseConv k ecc => Sys2Proof.Machine.execWinDepthwiseConv k ecc s
  | .winMaxPool k ecc => Sys2Proof.Machine.execWinMaxPool k ecc s
  | .winAveragePool k ecc => Sys2Proof.Machine.execWinAveragePool k ecc s
  | .winArgmax k ecc => Sys2Proof.Machine.execWinArgmax k ecc s
  | .plainPathConv k ecc => Sys2Proof.Machine.execPlainPathConv k ecc s
  | .nestMatrixProduct k ecc => Sys2Proof.Machine.execNestMatrixProduct k ecc s
  | .lpdRangeWrite k c v => Sys2Proof.Machine.execLpdRangeWrite k c v s
  | .lpdShapeWrite k j v => Sys2Proof.Machine.execLpdShapeWrite k j v s
  | .lpdTableWrite k e j v => Sys2Proof.Machine.execLpdTableWrite k e j v s
  | .attend k ecc fe => Sys2Proof.Machine.execAttend k ecc fe s
  | .append k ecc fe => Sys2Proof.Machine.execAppend k ecc fe s
  | .stepAdmission c fe => Sys2Proof.Machine.execStepAdmission c fe s
  | .frameCopyDone c => Sys2Proof.Machine.execFrameCopyDone c s
  | .frameSweep d => Sys2Proof.Machine.execFrameSweep d s
  | .stepEnd c => Sys2Proof.Machine.execStepEnd c s
  | .sharePrefix q src => Sys2Proof.Machine.execSharePrefix q src s
  | .cancel q => Sys2Proof.Machine.execCancel q s
  | .evict q => Sys2Proof.Machine.execEvict q s
  | .exhDone => Sys2Proof.Machine.execExhDone s
  | .kvfHostTimeout c => Sys2Proof.Machine.execKvfHostTimeout c s
  | .withhold f => Sys2Proof.Machine.execWithhold f s
  | .returnFrame f => Sys2Proof.Machine.execReturnFrame f s
  | .kvfConfigWrite r j v => Sys2Proof.Machine.execKvfConfigWrite r j v s
  | .kvfInitDone => Sys2Proof.Machine.execKvfInitDone s
  | .schStart c => Sys2Proof.Machine.execSchStart c s
  | .schStop c => Sys2Proof.Machine.execSchStop c s
  | .schCoveConfigWrite r c j v => Sys2Proof.Machine.execSchCoveConfigWrite r c j v s
  | .jobStart c => Sys2Proof.Machine.execJobStart c s
  | .taskPlace c => Sys2Proof.Machine.execTaskPlace c s
  | .copy k => Sys2Proof.Machine.execCopy k s
  | .emitDetect k => Sys2Proof.Machine.execEmitDetect k s
  | .emitCount k => Sys2Proof.Machine.execEmitCount k s
  | .emitMask k => Sys2Proof.Machine.execEmitMask k s
  | .emitEvent k => Sys2Proof.Machine.execEmitEvent k s
  | .emitText k => Sys2Proof.Machine.execEmitText k s
  | .convert k ecc => Sys2Proof.Machine.execConvert k ecc s
  | .add k ecc => Sys2Proof.Machine.execAdd k ecc s
  | .sub k ecc => Sys2Proof.Machine.execSub k ecc s
  | .mul k ecc => Sys2Proof.Machine.execMul k ecc s
  | .fma k ecc => Sys2Proof.Machine.execFma k ecc s
  | .min k ecc => Sys2Proof.Machine.execMin k ecc s
  | .max k ecc => Sys2Proof.Machine.execMax k ecc s
  | .relu k ecc => Sys2Proof.Machine.execRelu k ecc s
  | .relu6 k ecc => Sys2Proof.Machine.execRelu6 k ecc s
  | .leakyRelu k ecc => Sys2Proof.Machine.execLeakyRelu k ecc s
  | .clip k ecc => Sys2Proof.Machine.execClip k ecc s
  | .reciprocal k ecc => Sys2Proof.Machine.execReciprocal k ecc s
  | .sqrt k ecc => Sys2Proof.Machine.execSqrt k ecc s
  | .rsqrt k ecc => Sys2Proof.Machine.execRsqrt k ecc s
  | .exp k ecc => Sys2Proof.Machine.execExp k ecc s
  | .exp2 k ecc => Sys2Proof.Machine.execExp2 k ecc s
  | .log k ecc => Sys2Proof.Machine.execLog k ecc s
  | .log2 k ecc => Sys2Proof.Machine.execLog2 k ecc s
  | .sigmoid k ecc => Sys2Proof.Machine.execSigmoid k ecc s
  | .tanh k ecc => Sys2Proof.Machine.execTanh k ecc s
  | .silu k ecc => Sys2Proof.Machine.execSilu k ecc s
  | .geluErf k ecc => Sys2Proof.Machine.execGeluErf k ecc s
  | .geluTanh k ecc => Sys2Proof.Machine.execGeluTanh k ecc s
  | .hardSwish k ecc => Sys2Proof.Machine.execHardSwish k ecc s
  | .layerNorm k ecc => Sys2Proof.Machine.execLayerNorm k ecc s
  | .rmsNorm k ecc => Sys2Proof.Machine.execRmsNorm k ecc s
  | .softmaxRow k ecc => Sys2Proof.Machine.execSoftmaxRow k ecc s
  | .compact k ecc => Sys2Proof.Machine.execCompact k ecc s
  | .mxint8Import k ecc => Sys2Proof.Machine.execMxint8Import k ecc s
  | .toBx1Activation k ecc => Sys2Proof.Machine.execToBx1Activation k ecc s
  | .commandComplete k cycles => Sys2Proof.Machine.execCommandComplete k cycles s
  | .sliceExpiry k => Sys2Proof.Machine.execSliceExpiry k s
  | .switchSaveDone k => Sys2Proof.Machine.execSwitchSaveDone k s
  | .switchRestoreDone k => Sys2Proof.Machine.execSwitchRestoreDone k s
  | .taskEnd k => Sys2Proof.Machine.execTaskEnd k s
  | .stageEnd c => Sys2Proof.Machine.execStageEnd c s
  | .jobEnd c => Sys2Proof.Machine.execJobEnd c s
  | .schCmdTimeout k => Sys2Proof.Machine.execSchCmdTimeout k s
  | .codecSelect e => Sys2Proof.Machine.execCodecSelect e s
  | .ccpParseDone e x f => Sys2Proof.Machine.execCcpParseDone e x f s
  | .codecFrameEnd e fe => Sys2Proof.Machine.execCodecFrameEnd e fe s
  | .codecFrameWdog e skip => Sys2Proof.Machine.execCodecFrameWdog e skip s
  | .engineReset e => Sys2Proof.Machine.execEngineReset e s
  | .engineResetDone e => Sys2Proof.Machine.execEngineResetDone e s
  | .move e x g => Sys2Proof.Machine.execMove e x g s
  | .ccpHeartbeatMiss e => Sys2Proof.Machine.execCcpHeartbeatMiss e s
  | .pictureCommand h c => Sys2Proof.Machine.execPictureCommand h c s
  | .qpAnswer h qp => Sys2Proof.Machine.execQpAnswer h qp s
  | .codecHostTimeout e x skip => Sys2Proof.Machine.execCodecHostTimeout e x skip s
  | .clipClose e x => Sys2Proof.Machine.execClipClose e x s
  | .maskStaleExpiry e x => Sys2Proof.Machine.execMaskStaleExpiry e x s
  | .ethFrameRx p bytes fcsOk => Sys2Proof.Machine.execEthFrameRx p bytes fcsOk s
  | .rtpMediaPacket st p => Sys2Proof.Machine.execRtpMediaPacket st p s
  | .rtcpSenderReport st ssrc sec frac rtp => Sys2Proof.Machine.execRtcpSenderReport st ssrc sec frac rtp s
  | .rtcpBye st => Sys2Proof.Machine.execRtcpBye st s
  | .rtcpReceiverReport st => Sys2Proof.Machine.execRtcpReceiverReport st s
  | .jbRelease st => Sys2Proof.Machine.execJbRelease st s
  | .ethLinkDown p => Sys2Proof.Machine.execEthLinkDown p s
  | .ethLinkUp p => Sys2Proof.Machine.execEthLinkUp p s
  | .streamSilent st => Sys2Proof.Machine.execStreamSilent st s
  | .commit st => Sys2Proof.Machine.execCommit st s
  | .disable st => Sys2Proof.Machine.execDisable st s
  | .resync st => Sys2Proof.Machine.execResync st s
  | .reopen st => Sys2Proof.Machine.execReopen st s
  | .rtspSessionOpen st fmt ssrc pt dst peer => Sys2Proof.Machine.execRtspSessionOpen st fmt ssrc pt dst peer s
  | .rtspKeepalive st => Sys2Proof.Machine.execRtspKeepalive st s
  | .ingSessionLost st => Sys2Proof.Machine.execIngSessionLost st s
  | .pipePictureStart q => Sys2Proof.Machine.execPipePictureStart q s
  | .pipeSampleStart q => Sys2Proof.Machine.execPipeSampleStart q s
  | .pipeSampleDone q flt => Sys2Proof.Machine.execPipeSampleDone q flt s
  | .sampleList h es => Sys2Proof.Machine.execSampleList h es s
  | .pixHostTimeout q => Sys2Proof.Machine.execPixHostTimeout q s
  | .batchCopyDone c d bad => Sys2Proof.Machine.execBatchCopyDone c d bad s
  | .pixQConfigWrite r c j v => Sys2Proof.Machine.execPixQConfigWrite r c j v s
  | .trackAssociate d ecc lost => Sys2Proof.Machine.execTrackAssociate d ecc lost s
  | .trackCommit d => Sys2Proof.Machine.execTrackCommit d s
  | .handoffClaim d => Sys2Proof.Machine.execHandoffClaim d s
  | .trackActions h acts => Sys2Proof.Machine.execTrackActions h acts s
  | .trkHostTimeout d => Sys2Proof.Machine.execTrkHostTimeout d s
  | .overflowGap ch ecc j => Sys2Proof.Machine.execOverflowGap ch ecc j s
  | .dgramHoldExpiry ch ecc j => Sys2Proof.Machine.execDgramHoldExpiry ch ecc j s
  | .lmpIngressDatagram p src bytes => Sys2Proof.Machine.execLmpIngressDatagram p src bytes s
  | .ingressRecord h bytes => Sys2Proof.Machine.execIngressRecord h bytes s
  | .query src q => Sys2Proof.Machine.execQuery src q s
  | .wake p code => Sys2Proof.Machine.execWake p code s
  | .clipRequest src c => Sys2Proof.Machine.execClipRequest src c s
  | .dramRequest rs => Sys2Proof.Machine.execDramRequest rs s
  | .dramReadFinal d ch ecc w flt => Sys2Proof.Machine.execDramReadFinal d ch ecc w flt s
  | .dramAlert d ch => Sys2Proof.Machine.execDramAlert d ch s
  | .replayDone d ch => Sys2Proof.Machine.execReplayDone d ch s
  | .dramRefresh d ch b => Sys2Proof.Machine.execDramRefresh d ch b s
  | .emergencyRefresh d ch b => Sys2Proof.Machine.execEmergencyRefresh d ch b s
  | .rowIdlePrecharge d ch b => Sys2Proof.Machine.execRowIdlePrecharge d ch b s
  | .patrolScrubRead d ch ecc w => Sys2Proof.Machine.execPatrolScrubRead d ch ecc w s
  | .dramRetrainPause d ch margin lane => Sys2Proof.Machine.execDramRetrainPause d ch margin lane s
  | .retrainLate d ch => Sys2Proof.Machine.execRetrainLate d ch s
  | .retrain d ch => Sys2Proof.Machine.execRetrain d ch s
  | .retrainDone d pass => Sys2Proof.Machine.execRetrainDone d pass s
  | .lock d => Sys2Proof.Machine.execLock d s
  | .dramTrainingDone fail => Sys2Proof.Machine.execDramTrainingDone fail s
  | .dlinkCrcMismatch d p again => Sys2Proof.Machine.execDlinkCrcMismatch d p again s
  | .retrainPort d p => Sys2Proof.Machine.execRetrainPort d p s
  | .retrainPortDone d pass => Sys2Proof.Machine.execRetrainPortDone d pass s
  | .lockLong d ch b => Sys2Proof.Machine.execLockLong d ch b s
  | .collectorTake ecc => Sys2Proof.Machine.execCollectorTake ecc s
  | .errHostCmd v => Sys2Proof.Machine.execErrHostCmd v s
  | .errHostTimeout => Sys2Proof.Machine.execErrHostTimeout s
  | .errKeeperLost => Sys2Proof.Machine.execErrKeeperLost s
  | .weReset k => Sys2Proof.Machine.execWeReset k s
  | .coreBist k => Sys2Proof.Machine.execCoreBist k s
  | .coveRestart c => Sys2Proof.Machine.execCoveRestart c s
  | .moveLocal e arg => Sys2Proof.Machine.execMoveLocal e arg s
  | .moveRemote e arg => Sys2Proof.Machine.execMoveRemote e arg s
  | .ingReopen st => Sys2Proof.Machine.execIngReopen st s
  | .ingResync st => Sys2Proof.Machine.execIngResync st s
  | .tideRelock => Sys2Proof.Machine.execTideRelock s
  | .tideSource v => Sys2Proof.Machine.execTideSource v s
  | .tideStep => Sys2Proof.Machine.execTideStep s
  | .dmcRetrain d ch => Sys2Proof.Machine.execDmcRetrain d ch s
  | .dlinkRetrain d p => Sys2Proof.Machine.execDlinkRetrain d p s
  | .kvReclaim f => Sys2Proof.Machine.execKvReclaim f s
  | .seqRecompute k => Sys2Proof.Machine.execSeqRecompute k s
  | .seqEnd k => Sys2Proof.Machine.execSeqEnd k s
  | .selectHwMode row => Sys2Proof.Machine.execSelectHwMode row s
  | .deviceReset => Sys2Proof.Machine.execDeviceReset s
  | .pciePerstAssert => Sys2Proof.Machine.execPciePerstAssert s
  | .pciePerstRelease => Sys2Proof.Machine.execPciePerstRelease s
  | .pcieLinkUp gen width rep => Sys2Proof.Machine.execPcieLinkUp gen width rep s
  | .pcieLinkDown => Sys2Proof.Machine.execPcieLinkDown s
  | .configRequest a be wr => Sys2Proof.Machine.execConfigRequest a be wr s
  | .initiateFlr => Sys2Proof.Machine.execInitiateFlr s
  | .flrComplete => Sys2Proof.Machine.execFlrComplete s
  | .pcieD3hotEntry => Sys2Proof.Machine.execPcieD3hotEntry s
  | .pcieD0Return => Sys2Proof.Machine.execPcieD0Return s
  | .bar2Access o n wr flt => Sys2Proof.Machine.execBar2Access o n wr flt s
  | .doorbellWrite r be v => Sys2Proof.Machine.execDoorbellWrite r be v s
  | .ringEnable r cfg => Sys2Proof.Machine.execRingEnable r cfg s
  | .ringDisable r => Sys2Proof.Machine.execRingDisable r s
  | .pciDmaErr r how => Sys2Proof.Machine.execPciDmaErr r how s
  | .msixModerationExpiry r => Sys2Proof.Machine.execMsixModerationExpiry r s
  | .msixUnmask v => Sys2Proof.Machine.execMsixUnmask v s
  | .l1IdleExpiry => Sys2Proof.Machine.execL1IdleExpiry s
  | .pciWake v => Sys2Proof.Machine.execPciWake v s
  | .genIrqPendWrite r v => Sys2Proof.Machine.execGenIrqPendWrite r v s
  | .porstNRelease mode => Sys2Proof.Machine.execPorstNRelease mode s
  | .porstNAssert => Sys2Proof.Machine.execPorstNAssert s
  | .undervoltage => Sys2Proof.Machine.execUndervoltage s
  | .refclkSysLoss => Sys2Proof.Machine.execRefclkSysLoss s
  | .bootRomDone pass idOk fp log => Sys2Proof.Machine.execBootRomDone pass idOk fp log s
  | .bootFlashDone dens octal => Sys2Proof.Machine.execBootFlashDone dens octal s
  | .bootHeaderDone certOk sigOk digest ownerFp => Sys2Proof.Machine.execBootHeaderDone certOk sigOk digest ownerFp s
  | .bootDeviceDone digest => Sys2Proof.Machine.execBootDeviceDone digest s
  | .sectionVerified digest => Sys2Proof.Machine.execSectionVerified digest s
  | .bootSelftestDone arr we arrUs weUs blk => Sys2Proof.Machine.execBootSelftestDone arr we arrUs weUs blk s
  | .bootConfigDone => Sys2Proof.Machine.execBootConfigDone s
  | .bootStageTimeout => Sys2Proof.Machine.execBootStageTimeout s
  | .gateAccept => Sys2Proof.Machine.execGateAccept s
  | .gateReject => Sys2Proof.Machine.execGateReject s
  | .bootGateTimeout => Sys2Proof.Machine.execBootGateTimeout s
  | .sectCheck j => Sys2Proof.Machine.execSectCheck j s
  | .sectCheckDone digest => Sys2Proof.Machine.execSectCheckDone digest s
  | .flashErase => Sys2Proof.Machine.execFlashErase s
  | .flashProgram => Sys2Proof.Machine.execFlashProgram s
  | .slotVerify => Sys2Proof.Machine.execSlotVerify s
  | .reboot => Sys2Proof.Machine.execReboot s
  | .flashOperationDone ok => Sys2Proof.Machine.execFlashOperationDone ok s
  | .leafCacheCheckDone ok => Sys2Proof.Machine.execLeafCacheCheckDone ok s
  | .cacheRebuildDone => Sys2Proof.Machine.execCacheRebuildDone s
  | .attest => Sys2Proof.Machine.execAttest s
  | .attestDone res check sig => Sys2Proof.Machine.execAttestDone res check sig s
  | .domainTransitionDone d => Sys2Proof.Machine.execDomainTransitionDone d s
  | .pwrDomTimeout d => Sys2Proof.Machine.execPwrDomTimeout d s
  | .tempSample ts => Sys2Proof.Machine.execTempSample ts s
  | .ebbEnter dramOff => Sys2Proof.Machine.execEbbEnter dramOff s
  | .ebbExit => Sys2Proof.Machine.execEbbExit s
  | .gpioEdge n high ns => Sys2Proof.Machine.execGpioEdge n high ns s
  | .ebbExitComplete => Sys2Proof.Machine.execEbbExitComplete s
  | .extest => Sys2Proof.Machine.execExtest s
  | .idcode => Sys2Proof.Machine.execIdcode s
  | .samplePreload => Sys2Proof.Machine.execSamplePreload s
  | .bypass => Sys2Proof.Machine.execBypass s
  | .dbgAccess w ecc => Sys2Proof.Machine.execDbgAccess w ecc s
  | .regRead a => Sys2Proof.Machine.execRegRead a s
  | .regWrite a v => Sys2Proof.Machine.execRegWrite a v s
  | .memRead a ecc => Sys2Proof.Machine.execMemRead a ecc s
  | .memWrite a v => Sys2Proof.Machine.execMemWrite a v s
  | .cmRead a => Sys2Proof.Machine.execCmRead a s
  | .lockOut r => Sys2Proof.Machine.execLockOut r s
  | .undervoltageRelease => Sys2Proof.Machine.execUndervoltageRelease s
  | .refclkSysReturn => Sys2Proof.Machine.execRefclkSysReturn s
  | .clipIntervalEnd e x skip => Sys2Proof.Machine.execClipIntervalEnd e x skip s

end Sys2Proof.Machine
end

