-- ==== Sys2Proof/Machine/Step.lean ====
section
/-! DEFINITION. One step of the block: the command at the front of the queue, or one SCLK cycle when none waits. -/
set_option autoImplicit false
namespace Sys2Proof.Machine
open Sys2Proof

/-- What happens while no command waits: one SCLK cycle. -/
def idle (d : Dev) : Dev := if inReset d then d else { d with time := tickTime d.time }

/-- One step: take the oldest waiting command and give it its effect. On an empty queue one SCLK cycle of device time
passes (R33; log entry 2), unless the device is held in reset. -/
def step (s : State) : Host.Outcome State Fault Refusal :=
  match s.pending with
  | [] => .next { s with dev := idle s.dev }
  | c :: rest => exec c { s with pending := rest }

/-- Put the command that a table word spells at the front of the queue. -/
def State.withFetchWord (s : State) (nbits w : Nat) : State :=
  match decodeTableWord nbits w with
  | some c => { s with pending := c :: s.pending }
  | none => s

end Sys2Proof.Machine
end

