-- ==== Sys2Proof/Safety.lean ====
section
/-! DEFINITION. The terms that claims are stated in: completion of a command, what it leaves alone, what waits for the host. -/
set_option autoImplicit false
namespace Sys2Proof.Machine
open Sys2Proof

/-- Command `c` completes from `s` with a device `d` of which `P` holds: it answers a next state whose queue is the one of `s` and whose device is
`d` once all that can leave it has left (`settle`: R309, R391, Table 16-7). -/
def Does (c : Instr) (s : State) (P : Dev → Prop) : Prop := ∃ d, exec c s = .next { s with dev := settle d } ∧ P d

/-- The same for a command that a reset does not hold: it ends with the device as the command left it. -/
def DoesPin (c : Instr) (s : State) (P : Dev → Prop) : Prop := ∃ d, exec c s = .next { s with dev := d } ∧ P d

/-- The device is not held in reset (R455, R456). -/
def Awake (s : State) : Prop := inReset s.dev = false

/-- The commands that a reset does not hold: the supplies, the reset pins and the reference clock (R454 to R457), and the test access port (R447). -/
def pinRow : Instr → Bool
  | .porstNRelease _ | .porstNAssert | .undervoltage | .undervoltageRelease | .refclkSysLoss | .refclkSysReturn | .pciePerstAssert
  | .pciePerstRelease | .extest | .idcode | .samplePreload | .bypass | .dbgAccess _ _ | .regRead _ | .regWrite _ _ | .memRead _ _
  | .memWrite _ _ | .cmRead _ => true
  | _ => false

/-- No byte of any memory differs. -/
def SameMem (a b : Dev) : Prop := b.dram = a.dram ∧ b.cm = a.cm ∧ b.scr = a.scr ∧ b.flash = a.flash

/-- A DRAM byte lies in the ring that holds the free queue of die `d` (R176). -/
def inFreeRing (s : Dev) (d x : Nat) : Bool :=
  let b := rd64 s (if d = 0 then Reg.KVF_FREEQ0_LO else Reg.KVF_FREEQ1_LO) % 2 ^ 40
  decide (b ≤ x) && decide (x < b + 4 * freeRing)
/-- No byte of any memory differs but those of the free-queue rings of the dies `ds`. -/
def SameButQueues (ds : List Nat) (a b : Dev) : Prop :=
  (∀ x, (∀ d ∈ ds, inFreeRing a d x = false) → mrd .dram b x = mrd .dram a x) ∧ b.cm = a.cm ∧ b.scr = a.scr ∧ b.flash = a.flash

/-- No byte of any memory differs but the `n` bytes of the DRAM from `x` on. -/
def SameOutside (x n : Nat) (a b : Dev) : Prop :=
  (∀ y, y < x ∨ x + n ≤ y → mrd .dram b y = mrd .dram a y) ∧ b.cm = a.cm ∧ b.scr = a.scr ∧ b.flash = a.flash

/-- Every memory is in its canonical form: addresses rising, no byte listed that reads as an unlisted one does (log entry 5). -/
def Memory.wf (d : Dev) : Bool := mwf zeroByte d.dram && mwf zeroByte d.cm && mwf zeroByte d.scr && mwf erasedByte d.flash

/-- Every register outside `l` reads the same in the register file. -/
def SameRegs (l : List Nat) (a b : Dev) : Prop := ∀ x, x ∉ l → rdN b x = rdN a x

/-- A request of `r` reaches the register at BAR0 offset `a`: the host's as a memory request that reaches a BAR (R382, R440), and the register responds
(R421). -/
abbrev Reaches (s : Dev) (r : Req) (a : Nat) : Prop := (r ≠ .host ∨ barReached s = true) ∧ responds s a = true

/-- Every field of the device but registers, metadata output, error collector, endpoint and the record of what left is the same. -/
def SameRest (a b : Dev) : Prop := b = { a with regs := b.regs, mdo := b.mdo, err := b.err, pci := b.pci, out := b.out }

/-- No post waits for a ring that can take it (Table 16-7). -/
def PostsBlocked (d : Dev) : Prop := ∀ p ∈ d.pci.waiting, ringCanTake d p.ring = false

/-- The registers that what leaves the device changes: the indices and states of the rings, the endpoint's L1 bit, the metadata output unit's counters and
event, and the ports' transmit counters. -/
def outRegs : List Nat :=
  [Reg.PCI_STATUS, Reg.MDO_STATUS, Reg.MDO_EVENT] ++ (List.range 12).map Reg.PCI_RING_PI ++ (List.range 12).map Reg.PCI_RING_STATE
    ++ (List.range 12).map Reg.MDO_CH_SEQ_LO ++ (List.range 12).map (fun ch => Reg.MDO_CH_SEQ_LO ch + 4) ++ (List.range 12).map Reg.MDO_CH_REC_CNT
    ++ (List.range 12).map Reg.MDO_CH_LOST_CNT ++ (List.range 4).map Reg.ING_PORT_TX_CNT

/-! ## Boot (R408, R411) -/

/-- The device is in HALT with a reason (Table 17-5). -/
abbrev HaltedWith (reason : Nat) (d : Dev) : Prop := stage d = 15 ∧ rf d Reg.BOOT_STATUS 8 4 = reason
/-- The slot that was being tried has failed: it is reported and marked, and the other one is tried, or the device is in HALT when that had failed before. -/
abbrev SlotFailed (s d : Dev) : Prop :=
  tst d Reg.BOOT_EVENT 0 = true ∧ tst d Reg.BOOT_STATUS (5 + slotOf s) = true ∧
    if tst s Reg.BOOT_STATUS (6 - slotOf s) then HaltedWith 1 d else stage d = 3 ∧ slotOf d = 1 - slotOf s

/-! ## Commands of a core (R133, R195) -/

/-- Core `k`'s task `t` is at the well-formed command record `c` of its cove's package, and nothing keeps it from running. -/
abbrev AtCommand (d : Dev) (k : Nat) (t : Task) (c : Cmd) : Prop :=
  (coreOf d k).task = some t ∧ t.cove < 8 ∧ t.pos < cmdCount d t.cove t.stage ∧ c = cmdAt d t.cove (cmdIndex d t) ∧ t.ran = false ∧ t.contained = false ∧ (coreOf d k).saving = false ∧
    (coreOf d k).restoring = false ∧ domRuns d k = true ∧ cmdBad d t c = false
/-- That record names the loop descriptor at entry `e`, which passes every check of Table 6-6. -/
abbrev AtNest (d : Dev) (k : Nat) (t : Task) (c : Cmd) (e : Nat) : Prop :=
  AtCommand d k t c ∧ c.type = 1 ∧ nestEntry d k t c = some e ∧
    descReason (descOf d k e) (arraysOf k) ((veOf d t.cove (descOf d k e).epi).getD ⟨0, 0, 0, false, 0, 0, 0, 0, 0, false⟩) = 0
/-- The device when the work of the nest at entry `e` begins; `ecc` is what reading the entry found. -/
def nestStart (k ecc e : Nat) (s : Dev) : Dev := (entryEcc k e ecc (showNest k (descOf s k e) (startCmd k s))).1
/-- The device when the work of any other command begins. -/
def cmdStart (k : Nat) (s : Dev) : Dev := startCmd k s
/-- A command whose work left core `k`'s task `x` has ended with a status (R198). -/
def endedTask (status : Nat) (x : Task) : Task := if x.contained then x else { x with ran := true, status := status }
/-- A nest has ended: memory is as its work `u` left it, it counts, and its task waits for the completion. -/
abbrev NestEnded (k status : Nat) (u d : Dev) : Prop :=
  SameMem u d ∧ rdN d (Reg.LPD_CMD_CNT k) = (rdN u (Reg.LPD_CMD_CNT k) + 1) % 2 ^ 32 ∧ (coreOf d k).task = (coreOf u k).task.map (endedTask status)
/-- A command has ended contained (R18): no byte of memory has changed, and the task has ended with status 2. -/
abbrev Contained (k : Nat) (s d : Dev) : Prop :=
  SameMem s d ∧ (coreOf d k).task.map (fun x => (x.contained, x.ran, x.status)) = some (true, true, 2) ∧ (coreOf d k).passes = [] ∧ (coreOf d k).cx.tiles = []

/-- The rows of the vector engine on core `k` with the function code each runs (Table 8-4). -/
def veRows (k : Fin 64) (ecc : Fin 3) : List (Instr × Nat) :=
  [(.convert k ecc, 0x01), (.add k ecc, 0x02), (.sub k ecc, 0x03), (.mul k ecc, 0x04), (.fma k ecc, 0x05), (.min k ecc, 0x06), (.max k ecc, 0x07), (.relu k ecc, 0x08),
    (.relu6 k ecc, 0x09), (.leakyRelu k ecc, 0x0A), (.clip k ecc, 0x0B), (.reciprocal k ecc, 0x10), (.sqrt k ecc, 0x11), (.rsqrt k ecc, 0x12), (.exp k ecc, 0x13),
    (.exp2 k ecc, 0x14), (.log k ecc, 0x15), (.log2 k ecc, 0x16), (.sigmoid k ecc, 0x18), (.tanh k ecc, 0x19), (.silu k ecc, 0x1A), (.geluErf k ecc, 0x1B),
    (.geluTanh k ecc, 0x1C), (.hardSwish k ecc, 0x1D), (.layerNorm k ecc, 0x20), (.rmsNorm k ecc, 0x21), (.softmaxRow k ecc, 0x22), (.compact k ecc, 0x28),
    (.mxint8Import k ecc, 0x30), (.toBx1Activation k ecc, 0x31)]
/-- The rows of the window engine on core `k` with the engine code of their descriptor and the OP of their window descriptor (Table 5-1). -/
def weRows (k : Fin 64) (ecc : Fin 3) : List (Instr × Nat × Nat) :=
  [(.winConv k ecc, 1, 0), (.winDepthwiseConv k ecc, 1, 1), (.winMaxPool k ecc, 2, 2), (.winAveragePool k ecc, 2, 3), (.winArgmax k ecc, 2, 4)]
/-- A window command whose descriptors and blocks are legal, with work to do (R110, R112). -/
abbrev WinLegal (d : Desc) (w : WinD) (ps : List PLev) : Prop :=
  winBad d w = false ∧ (d.eng = 1 → w.bias = d.bias) ∧ (∀ p ∈ ps, p.cnt ≠ 0) ∧ w.ho ≠ 0 ∧ w.wo ≠ 0 ∧ (w.op = 4 → w.c ≠ 0) ∧
    ∀ b ∈ bodiesOf ps, blkBad w (blkOf w b) = false

end Sys2Proof.Machine
end

