-- ==== Sys2Proof/Certificates/Slice0/Obligations.lean ====
section
/-! DEFINITION. The statements about the model. Unless a docstring says otherwise, a command's clause says that the command completes (`Does`), for every
state that is not held in reset and meets the clause's own hypotheses, with a device of which the clause names the effect, once all that can leave it has
left. -/
set_option autoImplicit false
open Sys2Proof Sys2Proof.Machine

/-! ## The whole block -/

/-- For every command c and state s: a step of s with c at the front of its queue is the meaning of c on s with the rest of the queue. -/
def Obligations.StepRunsFrontCommand : Prop :=
  ∀ (c : Instr) (rest : List Instr) (s : State), step { s with pending := c :: rest } = exec c { s with pending := rest }

/-- Every command answers a next state with the queue as it was. A device that is held in reset (R455, R456) is changed by the rows of the supplies,
the reset pins and the test access port only; every other command leaves it alone, and on a device that is not held in reset it ends with what can
leave the device. On an empty queue one SCLK cycle passes and nothing else changes (R33; DESIGN CHOICE, log entry 2: an empty queue ticks): with no
frequency correction exactly 2 ns; a device held in reset stays as it is. -/
def Obligations.EveryStepCompletes : Prop :=
  (∀ (c : Instr) (s : State), (∃ d, exec c s = .next { s with dev := d }) ∧
      (pinRow c = false → (inReset s.dev = true → exec c s = .next s) ∧ (Awake s → Does c s fun _ => True))) ∧
    ∀ (s : State), s.pending = [] →
      (inReset s.dev = true → step s = .next s) ∧
      (Awake s → ∃ t, step s = .next { s with dev := { s.dev with time := t } } ∧ t.sclk = s.dev.time.sclk + 1 ∧ t.f = s.dev.time.f ∧
        (s.dev.time.f = 0 → s.dev.time.frac < 2 ^ 32 → s.dev.time.ns + 2 < 2 ^ 64 → t.ns = s.dev.time.ns + 2 ∧ t.frac = s.dev.time.frac))

/-- What leaves the device after a command (R309, R391, Table 16-7) touches registers, metadata output, collector, endpoint and the record of what
left only, no memory among them; of the registers it changes only the ring indices and states, the endpoint's status, the metadata output unit's
counters, event and status, and the ports' transmit counters. -/
def Obligations.WhatLeavesTouchesOutputOnly : Prop :=
  ∀ (d : Dev), SameRest d (settle d) ∧ SameRegs outRegs d (settle d)

/-- Headline (Table 16-7, R391): no step leaves a post waiting for a ring that can take it. From every state in which every waiting post is blocked,
whatever the command at the front of the queue or with an empty queue, the step ends in a state in which every waiting post is blocked. -/
def Obligations.WaitingPostsStayBlocked : Prop :=
  ∀ (s s' : State), PostsBlocked s.dev → step s = .next s' → PostsBlocked s'.dev

/-- After reset no post waits, so every waiting post is blocked: the invariant of WaitingPostsStayBlocked holds at reset (R12, R391). -/
def Obligations.WaitingPostsBlockedAtReset : Prop :=
  PostsBlocked State.reset.dev

/-- Reset (R12): the register file reads its reset values, every table is empty, nothing waits, SYNC_OUT and PPS_OUT are low, and the device is held
in reset by PORST_N (R454). The time unit is UNSET with its sync state 3, the error guarantee holds, the window engines are held in reset, and both
tokens of an array are at row 32 (Tables 2-9, 15-11, 5-5, 4-5). Device time 0 and every register with no stated reset value at 0 are the model's
choice (DESIGN CHOICE, log entry 1). -/
def Obligations.ResetLeavesStatedValues : Prop :=
  (∀ a, rdN State.reset.dev a = (regReset a).toNat) ∧ State.reset.pending = [] ∧ State.reset.dev.pins.syncOut = false ∧ State.reset.dev.pins.pps = false ∧
    inReset State.reset.dev = true ∧ timeState State.reset.dev = 0 ∧ syncState State.reset.dev = 3 ∧ tst State.reset.dev Reg.ERR_STATUS 1 = true ∧
    (∀ k : Fin 64, isSCore k.val = false → tst State.reset.dev (Reg.WIN_CTRL k.val) 0 = true ∧ tst State.reset.dev (Reg.WIN_STATUS k.val) 0 = true) ∧
    (∀ k : Fin 64, rf State.reset.dev (Reg.ARR_STATUS k.val) 12 6 = 32 ∧ rf State.reset.dev (Reg.ARR_STATUS k.val) 18 6 = 32)

/-- Bit fields (R2). Bit `i` of a field [hi:lo] of a register is bit `lo + i` of the register, bit 0 the least significant; a field written takes the
value's low bits at bits hi down to lo, its bit lo the value's least significant bit, and every bit outside it stays. The same of any word or data
element as a number. -/
def Obligations.FieldsAreBitRanges : Prop :=
  (∀ (n lo len v i : Nat), (bits n lo len).testBit i = (decide (i < len) && n.testBit (lo + i)) ∧
      (putBits n lo len v).testBit i = (if lo ≤ i ∧ i < lo + len then v.testBit (i - lo) else n.testBit i)) ∧
    ∀ (s : Dev) (a lo len v i : Nat), lo + len ≤ 32 →
      (rf s a lo len).testBit i = (decide (i < len) && (rdN s a).testBit (lo + i)) ∧
      (rdN (wf a lo len v s) a).testBit i = (if lo ≤ i ∧ i < lo + len then v.testBit (i - lo) else (rdN s a).testBit i) ∧
      SameRegs [a] s (wf a lo len v s)

/-! ## Time unit (02) -/

/-- PTP messages (R34 to R40). An Announce that the subset of Table 2-2 admits enters the table of masters, and the BMCA selects a best one of the
table without touching device time. A Sync of the selected master with a known path delay, outside UNSET and within 1 µs, is corrected through f
alone, shows its offset in TIDE_PTP_OFS and counts; 16 in a row lock. In UNSET the first offset steps device time. A Follow_Up gives its two-step Sync
the precise origin time. A Delay_Req or Pdelay_Req leaves with a hardware egress time; its answer completes one path-delay measurement; a Pdelay_Req
is answered in two steps under the peer-to-peer mechanism (log entry 8). A message outside the subset is counted in TIDE_PTP_DROP and has no other
effect. -/
def Obligations.PtpMessagesSteerDeviceTime : Prop :=
  ∀ (s : State) (p : Fin 4) (h : PtpHdr), Awake s →
    (∀ (m : Announce), ptpHears s.dev p h = true → ptpOutside s.dev h (-3) 4 = false → 2 ≤ m.timeout → m.timeout ≤ 10 → Does (.ptpAnnounce p h m) s
      fun d => (⟨p, h.src, h.srcPort, h.domain, h.transport, m, now s.dev, logSpan m.timeout h.logInterval⟩ : Master) ∈ d.ptp.masters ∧ d.time =
      s.dev.time ∧ ∃ b ∈ d.ptp.masters, d.ptp.sel = some b ∧ ∀ x ∈ d.ptp.masters, lexLt x.key b.key = false) ∧
    (∀ (m : Announce), ptpHears s.dev p h = true → ptpOutside s.dev h (-3) 4 = true → Does (.ptpAnnounce p h m) s fun d => d = bump Reg.TIDE_PTP_DROP
      1 s.dev) ∧
    (∀ (origin : Nat) (dl : Int) (off : Int), ptpHears s.dev p h = true → ptpOutside s.dev h (-7) 1 = false → fromMaster s.dev p h = true →
      s.dev.ptp.delay = some dl → off = stamp s.dev p - ((origin : Int) + h.corr / 65536) - dl → off.natAbs ≤ 1000 → timeState s.dev ≠ 0 → Does
      (.ptpSync p h false origin) s fun d => d.time.ns = s.dev.time.ns ∧ toSigned (rdN d Reg.TIDE_PTP_OFS) 32 = off ∧ syncCount d = Nat.min 16
      (syncCount s.dev + 1) ∧ (15 ≤ syncCount s.dev → timeState d = 1) ∧ SameMem s.dev d) ∧
    (∀ (origin : Nat) (dl : Int) (off : Int), ptpHears s.dev p h = true → ptpOutside s.dev h (-7) 1 = false → fromMaster s.dev p h = true →
      s.dev.ptp.delay = some dl → off = stamp s.dev p - ((origin : Int) + h.corr / 65536) - dl → timeState s.dev = 0 → s.dev.ptp.stepped = false →
      Does (.ptpSync p h false origin) s fun d => (d.time.ns : Int) = ((s.dev.time.ns : Int) - off) % 2 ^ 64 ∧ d.ptp.stepped = true ∧ d.time.f =
      s.dev.time.f) ∧
    (∀ (origin : Nat) (w : TwoStep), ptpHears s.dev p h = true → ptpOutside s.dev h (-7) 1 = false → s.dev.ptp.wait = some w → w.port = p → w.src =
      h.src → w.srcPort = h.srcPort → w.seq = h.seq → s.dev.ptp.delay = none → Does (.ptpFollowUp p h origin) s fun d => d.ptp.sync = some ((origin :
      Int) + (w.corr + h.corr) / 65536, w.t2) ∧ d.ptp.wait = none ∧ d.time = s.dev.time) ∧
    (ptpPort s.dev p = true → (peerDelay s.dev = true ∨ s.dev.ptp.sel.map (·.port) = some p.val) → Does (.ptpDelayReqSend p) s fun d => d.ptp.req =
      some ⟨peerDelay s.dev, p, s.dev.ptp.seqId, stamp s.dev p⟩ ∧ d.ptp.seqId = (s.dev.ptp.seqId + 1) % 65536 ∧ d.out = s.dev.out ++ [.ptp p (if
      peerDelay s.dev then 2 else 1) s.dev.ptp.seqId (stamp s.dev p)]) ∧
    (∀ (t : Nat) (q : DelayReq) (t1 : Int) (t2 : Int), ptpHears s.dev p h = true → ptpOutside s.dev h (-7) 5 = false → s.dev.ptp.req = some q → q.port
      = p → q.seq = h.seq → q.peer = false → fromMaster s.dev p h = true → s.dev.ptp.sync = some (t1, t2) → Does (.ptpDelayResp p h false t) s fun d
      => d.ptp.delay = some ((t2 - t1 + ((t : Int) - h.corr / 65536 - q.t3)) / 2) ∧ d.ptp.req = none ∧ d.time = s.dev.time) ∧
    (∀ (t : Nat) (q : DelayReq), ptpHears s.dev p h = true → ptpOutside s.dev h (-7) 5 = false → s.dev.ptp.req = some q → q.port = p → q.seq = h.seq →
      q.peer = true → Does (.ptpDelayResp p h true t) s fun d => d.ptp.delay = some ((stamp s.dev p - q.t3 - t - h.corr / 65536) / 2) ∧ d.ptp.req =
      none) ∧
    (ptpHears s.dev p h = true → ptpOutside s.dev h (-7) 5 = false → peerDelay s.dev = true → Does (.ptpPdelayReq p h) s fun d => d.out = s.dev.out ++
      [.ptp p 3 h.seq (stamp s.dev p), .ptp p 10 h.seq (stamp s.dev p)])

/-- Time-state limits (Table 2-1). When the selected master's Announce messages stop, LOCKED becomes HOLDOVER at the timeout, PTP_LOST is raised and
that master leaves the table; TIDE_HOLDOVER_LIM later HOLDOVER becomes FREE with f = 0 and TIME_FREE; in UNSET the same happens TIDE_ACQ_LIM after the
TIME stage of boot began, and the first mark is placed after that moment. Device time is then at the limit's moment (log entry 2). -/
def Obligations.TimeStateLimitsExpire : Prop :=
  ∀ (s : State), Awake s →
    (∀ (m : Master), s.dev.ptp.sel = some m → timeState s.dev = 1 → m.at_ + m.span < 2 ^ 64 → Does .announceReceiptTimeout s fun d => timeState d = 2
      ∧ tst d Reg.TIDE_STATUS 12 = true ∧ m.at_ + m.span ≤ d.time.ns ∧ d.ptp.holdFrom = d.time.ns ∧ ∀ x ∈ d.ptp.masters, x.same m = false) ∧
    (timeState s.dev = 2 → s.dev.ptp.holdFrom + rf s.dev Reg.TIDE_HOLDOVER_LIM 0 17 * 1000000000 < 2 ^ 64 → Does .holdoverLimitExpiry s fun d =>
      timeState d = 3 ∧ d.time.f = 0 ∧ rdN d Reg.TIDE_PTP_FREQ = 0 ∧ tst d Reg.TIDE_STATUS 15 = true ∧ s.dev.ptp.holdFrom + rf s.dev
      Reg.TIDE_HOLDOVER_LIM 0 17 * 1000000000 ≤ d.time.ns) ∧
    (∀ (t : Nat), timeState s.dev = 0 → s.dev.ptp.acqFrom = some t → tideN s.dev ≠ 0 → t + rf s.dev Reg.TIDE_ACQ_LIM 0 16 * 1000000 < 2 ^ 64 → Does
      .acqLimitExpiry s fun d => timeState d = 3 ∧ d.time.f = 0 ∧ d.ptp.acqFrom = none ∧ t + rf s.dev Reg.TIDE_ACQ_LIM 0 16 * 1000000 ≤ d.time.ns ∧ ∃
      m, d.tide.next = some m ∧ d.time.ns < m)

/-- Edges (R45 to R47, R49, R55). A SYNC_IN pulse shorter than 20 ns has no effect. Under source SYNC_IN, after the first mark and outside UNLOCKED,
an edge inside the slack window of the predicted mark is that mark's edge if it is the window's first: its time and offset are shown, it counts, and
the state is LOCKED; an edge outside the window counts, is reported and unlocks a LOCKED unit. A host edge at least 10 µs ahead is submitted, a later
one rejected; when its time comes it is treated as a SYNC_IN edge. RELOCK acts at once under an edge source. SET_TIME_GO asks for one step at the next
mark, with the value that TIDE_SET_TIME holds now. -/
def Obligations.SyncEdgesPlaceMarks : Prop :=
  ∀ (s : State), Awake s →
    (∀ (high : Nat), high < 20 → Does (.syncInEdge high) s fun d => d = s.dev) ∧
    (∀ (high : Nat) (m : Nat), 20 ≤ high → tideSource s.dev = 1 → s.dev.tide.lastEdge = none → s.dev.tide.next = some m → s.dev.tide.marked = true →
      s.dev.tide.prevEnd = none → s.dev.tide.taken = none → syncState s.dev ≠ 1 → m ≤ now s.dev / 2 * 2 + slackH s.dev → now s.dev / 2 * 2 ≤ m +
      slackH s.dev → now s.dev < 2 ^ 64 → Does (.syncInEdge high) s fun d => d.tide.taken = some (now s.dev / 2 * 2) ∧ d.tide.lastEdge = some (now
      s.dev / 2 * 2) ∧ rd64 d Reg.TIDE_SYNCIN_LO = now s.dev / 2 * 2 ∧ syncState d = 0 ∧ d.tide.miss = 0 ∧ rdN d Reg.TIDE_EDGE_CNT = (rdN s.dev
      Reg.TIDE_EDGE_CNT + 1) % 2 ^ 32 ∧ rdN d Reg.TIDE_EDGE_OFS = ofSigned ((now s.dev / 2 * 2 : Nat) - (m : Int)) 32 ∧ SameMem s.dev d) ∧
    (∀ (high : Nat) (m : Nat), 20 ≤ high → tideSource s.dev = 1 → s.dev.tide.lastEdge = none → s.dev.tide.next = some m → s.dev.tide.marked = true →
      s.dev.tide.prevEnd = none → syncState s.dev = 0 → now s.dev / 2 * 2 + slackH s.dev < m → Does (.syncInEdge high) s fun d => d.tide.taken =
      s.dev.tide.taken ∧ syncState d = 1 ∧ tst d Reg.TIDE_STATUS 10 = true ∧ rdN d Reg.TIDE_OUTSIDE_CNT = (rdN s.dev Reg.TIDE_OUTSIDE_CNT + 1) % 2 ^
      32) ∧
    (tideSource s.dev = 2 → now s.dev + 10000 ≤ rd64 s.dev Reg.TIDE_HOST_EDGE_LO → Does .hostEdgeGo s fun d => d = { s.dev with tide :=
      { s.dev.tide with hostEdges := s.dev.tide.hostEdges ++ [rd64 s.dev Reg.TIDE_HOST_EDGE_LO] } }) ∧
    (tideSource s.dev = 2 → rd64 s.dev Reg.TIDE_HOST_EDGE_LO < now s.dev + 10000 → Does .hostEdgeGo s fun d => tst d Reg.TIDE_STATUS 14 = true ∧
      d.tide = s.dev.tide ∧ SameRegs [Reg.TIDE_STATUS] s.dev d) ∧
    (∀ (t : Nat) (m : Nat), tideSource s.dev = 2 → s.dev.tide.hostEdges = [t] → t < 2 ^ 64 → s.dev.tide.lastHost = none → s.dev.tide.next = some m →
      s.dev.tide.marked = true → s.dev.tide.prevEnd = none → s.dev.tide.taken = none → syncState s.dev ≠ 1 → m ≤ t + slackH s.dev → t ≤ m + slackH
      s.dev → Does .hostEdgeTimeReached s fun d => d.tide.taken = some t ∧ d.tide.hostEdges = [] ∧ syncState d = 0 ∧ t ≤ d.time.ns ∧ rdN d
      Reg.TIDE_EDGE_CNT = (rdN s.dev Reg.TIDE_EDGE_CNT + 1) % 2 ^ 32) ∧
    (tideSource s.dev ≠ 0 → Does .relock s fun d => syncState d = 2 ∧ timeState d = timeState s.dev ∧ SameRegs [Reg.TIDE_STATUS] s.dev d ∧ SameMem
      s.dev d) ∧
    (Does .setTimeGo s fun d => d = { s.dev with tide := { s.dev.tide with timeReq := some (.to (rd64 s.dev Reg.TIDE_SET_TIME_LO)) } })

/-- Output pins and retraining windows (R53, R54, R56). SYNC_OUT and PPS_OUT fall when their widths have passed. PPS_OUT rises at an integer second of
device time while it is enabled, the time state is not UNSET and the device is not in HALT. The tide's next retraining window opens at its offset when
it starts at least 10 µs before the next action time, outside ebb, and windows count on over the whole run. -/
def Obligations.OutputPulsesAndWindowsFollowTime : Prop :=
  ∀ (s : State), Awake s →
    (∀ (t : Nat), s.dev.tide.soFall = some t → t < 2 ^ 64 → Does .syncOutPulseEnd s fun d => d.pins.syncOut = false ∧ d.tide.soFall = none ∧ t ≤
      d.time.ns ∧ (s.dev.pins.syncOut = true → ballsYield s.dev = false → d.out = s.dev.out ++ [.pin .syncOut false])) ∧
    (∀ (t : Nat), s.dev.tide.ppsFall = some t → t < 2 ^ 64 → Does .ppsOutPulseEnd s fun d => d.pins.pps = false ∧ d.tide.ppsFall = none ∧ t ≤
      d.time.ns ∧ (s.dev.pins.pps = true → ballsYield s.dev = false → d.out = s.dev.out ++ [.pin .ppsOut false])) ∧
    (tst s.dev Reg.TIDE_CTRL 3 = true → timeState s.dev ≠ 0 → halted s.dev = false → now s.dev + 2000000000 < 2 ^ 64 → Does .ppsOutRise s fun d =>
      d.pins.pps = true ∧ d.time.ns % 1000000000 = 0 ∧ now s.dev ≤ d.time.ns ∧ d.time.ns ≤ now s.dev + 2000000000 ∧ d.tide.ppsFall = some (d.time.ns +
      rf s.dev Reg.TIDE_PPS_CFG 0 9 * 1000000)) ∧
    (s.dev.tide.marked = true → ebbState s.dev ≠ 2 → windowStart s.dev s.dev.tide.winIdx + 10000 ≤ (comingMark s.dev).2 → windowStart s.dev
      s.dev.tide.winIdx < 2 ^ 64 → Does .dramRetrainWindow s fun d => d.tide.win = some (windowStart s.dev s.dev.tide.winIdx) ∧ windowStart s.dev
      s.dev.tide.winIdx ≤ d.time.ns ∧ d.tide.winIdx = s.dev.tide.winIdx + 1 ∧ d.tide.winCnt = s.dev.tide.winCnt + 1 ∧ d.regs = s.dev.regs ∧ SameMem
      s.dev d)

/-! ## Marks and power (02, 18) -/

/-- The mark action (R43, R50, Table 2-4), whatever else its steps do: afterwards the unit is marked, a next mark is predicted, no edge has been taken
for it, its retraining windows start again at window 0, the corrected events reported in the tide that ended are forgotten (R361), and the tide no
longer counts as the one in which an ebb exit completed (R434). Without a predicted mark there is no mark. Step 1 latches the mark time and shows the
number of the tide that ends; device time is then at the action time or later, and no memory has changed. Step 4 makes the tide number one more,
modulo 2^48. -/
def Obligations.MarkActionLeavesNewTide : Prop :=
  (∀ (s : State), Awake s →
    (∀ (m : Nat), s.dev.tide.next = some m → Does .tideMarkAction s fun d => d.tide.marked = true ∧ d.tide.next.isSome = true ∧ d.tide.taken = none ∧
      d.tide.winIdx = 0 ∧ d.err.seen = [] ∧ d.pwr.fresh = false) ∧
    (s.dev.tide.next = none → Does .tideMarkAction s fun d => d = s.dev)) ∧
  (∀ (d : Dev), (comingMark d).2 < 2 ^ 64 → (comingMark d).1 < 2 ^ 64 →
    rd64 (markStep1 d) Reg.TIDE_MARK_LO = (comingMark d).1 ∧ tideNum (markStep1 d) = endingTide d ∧ (comingMark d).2 ≤ (markStep1 d).time.ns ∧
      (markStep1 d).tide.action = (comingMark d).2 ∧ SameMem d (markStep1 d) ∧ tideNum (markStep4 d) = (tideNum d + 1) % 2 ^ 48)

/-- The power step (R423, R427). Once in a tide, in run, with no cove in LOADING: the measured powers are shown; the cap step and the thermal offset
are chosen and shown with the ACLK step, their sum held to 4; every domain shows whether it is needed; the step happens at its moment or later. In
ebb, on the way out of it and in the tide in which an exit completed there is none. In ebb entry the step changes the same registers. The cap step,
from the step `a` of the tide that ended: no step meets the cap exactly when the choice reports it, and then it is step 4; otherwise the choice is at
most 4 and never more than one below `a`; when it is above `a` it meets the cap and no lower step does; when it is below `a` it meets the cap less the
margin. With the cap off the step is 0. -/
def Obligations.PowerStepShowsPowersAndStep : Prop :=
  (∀ (s : State) (pkg : Nat) (core : Nat), Awake s →
    (s.dev.tide.marked = true → s.dev.tide.stepDone = false → ebbState s.dev = 0 → s.dev.pwr.fresh = false → (∀ c : Fin 8, coveState s.dev c ≠ 1) →
      powerStepTime s.dev < 2 ^ 64 → Does (.powerStep pkg core) s fun d => d.tide.stepDone = true ∧ rdN d Reg.PWR_PKG_POWER = pkg % 2 ^ 16 + core % 2
      ^ 16 * 2 ^ 16 ∧ rf d Reg.PWR_ACLK 3 3 = (capStep s.dev pkg core (rf s.dev Reg.PWR_ACLK 0 3)).1 ∧ rf d Reg.PWR_ACLK 0 3 = min 4 (rf d
      Reg.PWR_ACLK 3 3 + rf d Reg.PWR_ACLK 6 3) ∧ (∀ n < 100, headingOf d n = targetOf s.dev [] n ∨ (2 ≤ targetOf s.dev [] n ∧ working s.dev n =
      true)) ∧ powerStepTime s.dev ≤ d.time.ns ∧ SameMem s.dev d) ∧
    (s.dev.tide.marked = false ∨ s.dev.tide.stepDone = true ∨ 2 ≤ ebbState s.dev ∨ s.dev.pwr.fresh = true → Does (.powerStep pkg core) s fun d => d =
      s.dev)) ∧
  (∀ (d : Dev) (pkg core a : Nat) (lim : Int), lim = ((60 + 5 * rf d Reg.PWR_CAP 1 5 : Nat) : Int) * 10 - rf d Reg.PWR_CAP 6 5 * 10 →
    (tst d Reg.PWR_CAP 0 = false → capStep d pkg core a = (0, false)) ∧
    (tst d Reg.PWR_CAP 0 = true →
      ((capStep d pkg core a).2 = true ↔ ∀ i < 5, capFits d pkg core a i lim = false) ∧
      ((capStep d pkg core a).2 = true → (capStep d pkg core a).1 = 4) ∧
      ((capStep d pkg core a).2 = false → a ≤ (capStep d pkg core a).1 + 1 ∧ (a ≤ 4 → (capStep d pkg core a).1 ≤ 4) ∧
        (a < (capStep d pkg core a).1 → capFits d pkg core a (capStep d pkg core a).1 lim = true ∧ ∀ j < (capStep d pkg core a).1, capFits d pkg core a j lim = false) ∧
        ((capStep d pkg core a).1 < a → capFits d pkg core a (a - 1) (lim - rf d Reg.PWR_CAP 11 5 * 10) = true))))

/-- Domains and sensors (R422, R423, R429, R430). A domain change that ends outside an exit from ebb, from a state other than off and with no cove in
LOADING, leaves the domain in its target state with nothing changing, at its latency or later; one to retain or off that meets work leaves the domain
as it was (R422). Leaving off clears a core's scratch. A change that times out leaves the domain as it was and raises its event. A sample shows every
sensor's reading; a reading at the trip threshold of a sensor that counts, itself plausible, drives THERMTRIP_N low. -/
def Obligations.DomainChangesEndOrTimeOut : Prop :=
  ∀ (s : State), Awake s →
    (∀ (n : Fin 100) (t : Nat) (t0 : Nat), transOf s.dev n = some (t, t0) → 2 ≤ t → working s.dev n = true → Does (.domainTransitionDone n) s fun d =>
      domState d n = domState s.dev n ∧ transOf d n = none) ∧
    (∀ (n : Fin 100) (t : Nat) (t0 : Nat), transOf s.dev n = some (t, t0) → t < 4 → (2 ≤ t → working s.dev n = false) → domState s.dev n ≠ 3 →
      ebbState s.dev ≠ 3 → (∀ c : Fin 8, coveState s.dev c ≠ 1) → t0 + domLatency n (domState s.dev n) t < 2 ^ 64 → Does (.domainTransitionDone n) s
      fun d => domState d n = t ∧ transOf d n = none ∧ bitOf (domShown d n) 3 = false ∧ t0 + domLatency n (domState s.dev n) t ≤ d.time.ns) ∧
    (∀ (n : Fin 100) (t : Nat) (t0 : Nat), transOf s.dev n = some (t, t0) → n.val < 64 → domState s.dev n = 3 → ebbState s.dev ≠ 3 → (∀ c : Fin 8,
      coveState s.dev c ≠ 1) → Does (.domainTransitionDone n) s fun d => ∀ a, mrd (.scr n) d a = 0) ∧
    (∀ (n : Fin 100) (x : Nat × Nat), transOf s.dev n = some x → Does (.pwrDomTimeout n) s fun d => transOf d n = none ∧ domState d n = domState s.dev
      n ∧ rdN d Reg.PWR_FAULT_INFO = n + 2 ^ 7 ∧ tst d Reg.PWR_EVENT 4 = true ∧ SameMem s.dev d) ∧
    (∀ (ts : List Int), s.dev.pwr.sampled + 1000000 < 2 ^ 64 → Does (.tempSample ts) s fun d => (∀ i : Fin 24, rf d (Reg.PWR_TEMP i) 0 16 = ofSigned
      (ts.getD i 0) 16) ∧ d.pwr.sampled = d.time.ns ∧ s.dev.pwr.sampled + 1000000 ≤ d.time.ns) ∧
    (∀ (ts : List Int) (i : Nat), i < 22 → (rf s.dev Reg.PWR_THERM 12 12 : Int) ≤ ts.getD i 0 → ts.getD i 0 ≤ 1200 → (sensorOf s.dev i).out = false →
      (sensorOf s.dev i).same < 999 → tst s.dev Reg.PWR_STATUS 5 = false → Does (.tempSample ts) s fun d => d.pins.thermtrip = true ∧ tst d
      Reg.PWR_STATUS 5 = true ∧ tst d Reg.PWR_EVENT 2 = true)

/-- Ebb (R431, R433, R434). EBB_ENTER in run is held to the next mark in place of an earlier one (R13), and ignored otherwise. A wake while the entry
goes on or in ebb makes the state EXITING and names its source. A GPIO edge shorter than 1 µs is ignored; a longer one becomes the ball's level 1 µs
later, and wakes the device when it is selected with its polarity. The exit completes when the DRAM is ready and no domain is changing: the state is
run, the coves that were in RUN are kept for the start at the next mark, and EBB_EXITED is raised. -/
def Obligations.EbbEntryAndWake : Prop :=
  ∀ (s : State), Awake s →
    (∀ (off : Bool), ebbState s.dev = 0 → Does (.ebbEnter off) s fun d => d =
      { s.dev with held := s.dev.held.filter (fun h => !(isEbb h)) ++ [.ebb off] }) ∧
    (∀ (off : Bool), ebbState s.dev ≠ 0 → Does (.ebbEnter off) s fun d => d = s.dev) ∧
    (ebbState s.dev = 1 ∨ ebbState s.dev = 2 → Does .ebbExit s fun d => ebbState d = 3 ∧ rdN d Reg.PWR_WAKE_SRC = 2 ^ 13 ∧ d.pwr.wake = now s.dev ∧
      SameMem s.dev d) ∧
    (∀ (n : Fin 8) (high : Bool) (ns : Nat), ns < 1000 → Does (.gpioEdge n high ns) s fun d => d = s.dev) ∧
    (∀ (n : Fin 8) (high : Bool) (ns : Nat), 1000 ≤ ns → bitOf s.dev.pins.gpio n ≠ high → tst s.dev Reg.PWR_WAKE_EN 3 = false → now s.dev + 1000 < 2 ^
      64 → Does (.gpioEdge n high ns) s fun d => bitOf d.pins.gpio n = high ∧ now s.dev + 1000 ≤ d.time.ns ∧ d.regs = s.dev.regs) ∧
    (∀ (n : Fin 8) (high : Bool) (ns : Nat), 1000 ≤ ns → bitOf s.dev.pins.gpio n ≠ high → tst s.dev Reg.PWR_WAKE_EN 3 = true → tst s.dev
      Reg.PWR_WAKE_EN (4 + n) = true → tst s.dev Reg.PWR_WAKE_EN 12 = !high → ebbState s.dev = 2 → Does (.gpioEdge n high ns) s fun d => ebbState d =
      3 ∧ tst d Reg.PWR_WAKE_SRC 3 = true ∧ tst d Reg.PWR_WAKE_SRC (4 + n) = true) ∧
    (ebbState s.dev = 3 → dramReady s.dev = true → ((exitRest s.dev).pwr.trans.any fun x => x.2.isSome) = false → Does .ebbExitComplete s fun d =>
      ebbState d = 0 ∧ tst d Reg.PWR_EVENT 6 = true ∧ d.held = s.dev.held ∧ d.pwr.coves = s.dev.pwr.coves)

/-! ## Codec engines and clips (09) -/

/-- Service rounds (R53, R221, R222). At the codec round start of a tide, outside ebb, every engine without a frame in progress counts a round, and
each of its valid contexts gets its share less its debt as credit; an engine whose round is already due counts a skipped one. A selection by an idle
engine that may serve starts a charged frame while some valid decode context is ready and has credit. -/
def Obligations.CodecRoundsGiveCredit : Prop :=
  ∀ (s : State) (e : Fin 16), Awake s →
    (s.dev.tide.marked = true → s.dev.tide.roundDone = false → ebbState s.dev ≠ 2 → codecRoundTime s.dev < 2 ^ 64 → Does .codecRoundStart s fun d =>
      d.tide.roundDone = true ∧ codecRoundTime s.dev ≤ d.time.ns ∧ ((cdcOf s.dev e).busy = none → rdN d (Reg.CDC_ROUND_CNT e) = (rdN s.dev
      (Reg.CDC_ROUND_CNT e) + 1) % 2 ^ 32) ∧ ((cdcOf s.dev e).busy.isSome = true → (cdcOf s.dev e).roundDue = true → rdN d (Reg.CDC_ROUND_SKIP_CNT e)
      = (rdN s.dev (Reg.CDC_ROUND_SKIP_CNT e) + 1) % 2 ^ 32) ∧ SameMem s.dev d) ∧
    (∀ (x : Fin 32), s.dev.tide.marked = true → s.dev.tide.roundDone = false → ebbState s.dev ≠ 2 → (cdcOf s.dev e).busy = none → ctxValid s.dev (e *
      32 + x) = true → Does .codecRoundStart s fun d => (ctxOf d (e * 32 + x)).credit = shareNs s.dev (e * 32 + x) - (ctxOf s.dev (e * 32 + x)).debt ∧
      (ctxOf d (e * 32 + x)).debt = (ctxOf s.dev (e * 32 + x)).debt - shareNs s.dev (e * 32 + x)) ∧
    (∀ (x : Fin 32), mayServe s.dev e = true → ctxValid s.dev (e * 32 + x) = true → ctxEncodes s.dev (e * 32 + x) = false → decodeReady s.dev (e * 32
      + x) = true → 0 < (ctxOf s.dev (e * 32 + x)).credit → Does (.codecSelect e) s fun d => ((cdcOf d e).busy.map fun b => (b.charged, b.at_)) = some
      (true, now s.dev) ∧ (cdcOf d e).busy.map (·.ctx) = some (cdcOf d e).served)

/-- The head unit of a decode context (R217, R218, R224, R230, R235). A picture header of a random access point that Table 9-1 and the pool admit,
found by the firmware or given by the host, is kept with the unit until its frame starts. A unit of an unsupported stream is lost with
CDC_UNSUPPORTED. A unit whose host answer does not come within CDC_HOST_LIM is lost and counted, with CDC_HOST_TIMEOUT. -/
def Obligations.CodecHeadersAreAcceptedOrLost : Prop :=
  ∀ (s : State) (e : Fin 16) (x : Fin 32), Awake s →
    (∀ (a : Au) (h : PicHdr), (ctxOf s.dev (e * 32 + x)).queue = [a] → (ctxOf s.dev (e * 32 + x)).move = none → a.host = some false → a.hdr = none →
      ctxValid s.dev (e * 32 + x) = true → ctxEncodes s.dev (e * 32 + x) = false → tst s.dev (Reg.CDC_STATUS e) 8 = false → tst s.dev (Reg.CDC_STATUS
      e) 9 = false → h.rap = true → tooLarge (ctxCodec s.dev (e * 32 + x)) h.w h.h h.p10 = false → picBytes h.w h.h h.p10 ≤ bufBytes s.dev (e * 32 +
      x) → Does (.ccpParseDone e x (.picture h)) s fun d => (ctxOf d (e * 32 + x)).queue = [{ a with hdr := some h, buf := none, slices := [] }] ∧
      d.regs = s.dev.regs ∧ SameMem s.dev d) ∧
    (∀ (a : Au), (ctxOf s.dev (e * 32 + x)).queue = [a] → a.host = some false → a.hdr = none → ctxValid s.dev (e * 32 + x) = true → ctxEncodes s.dev
      (e * 32 + x) = false → tst s.dev (Reg.CDC_STATUS e) 8 = false → tst s.dev (Reg.CDC_STATUS e) 9 = false → Does (.ccpParseDone e x .unsupported) s
      fun d => (ctxOf d (e * 32 + x)).queue = [] ∧ tst d (Reg.CDC_EVENT e) 4 = true) ∧
    (∀ (h : H2D) (c : PicCmd) (v : CdcCtx) (a : Au) (p : Nat × Nat), ringHasEntry s.dev 6 = true → h2dOk s.dev 6 1 h = true → s.dev.cctx = [((e * 32 +
      x : Nat), v)] → v.queue = [a] → v.move = none → a.hdr = none → a.post = some p → p.1 = h.tag → cmdOk s.dev (e * 32 + x) a c = true → c.rap =
      true → picBytes c.w c.h (c.depth == 10) ≤ bufBytes s.dev (e * 32 + x) → Does (.pictureCommand h c) s fun d => (ctxOf d (e * 32 + x)).queue =
      [{ a with hdr := some (cmdHdr c), buf := some c.outBuf, slices := c.slices.take c.nslice }] ∧ rdN d (Reg.PCI_RING_CI 6) = (rdN s.dev
      (Reg.PCI_RING_CI 6) + 1) % 2 ^ 32) ∧
    (∀ (sk : CodedPic) (a : Au) (p : Nat × Nat), ctxEncodes s.dev (e * 32 + x) = false → (ctxOf s.dev (e * 32 + x)).queue = [a] → a.hdr = none →
      a.post = some p → p.2 + rf s.dev (Reg.CDC_HOST_LIM e) 0 16 * 1000000 < 2 ^ 64 → Does (.codecHostTimeout e x sk) s fun d => (ctxOf d (e * 32 +
      x)).queue = [] ∧ tst d (Reg.CDC_EVENT e) 6 = true ∧ p.2 + rf s.dev (Reg.CDC_HOST_LIM e) 0 16 * 1000000 ≤ d.time.ns ∧ rdN d (Reg.CDC_CTX_LOST_CNT
      e x) = (rdN s.dev (Reg.CDC_CTX_LOST_CNT e x) + 1) % 2 ^ 32)

/-- Frames and engines (R218, R221, R223, R236, R245). A frame that ends within WDOG leaves the datapath free, its engine time counted. At WDOG it is
abandoned with CDC_WDOG. An engine reset abandons the frame in progress and shows the reset; its end restarts every context at its next random access
point. A missed heartbeat stops the engine with CDC_CCP_FAULT. A move of a context that is not valid is refused with 2; one of a decode context to the
other die waits for the next random access point; one on the same die, or of an encode context without an open clip (log entry 63), takes registers
and queue to the lowest free context at once. -/
def Obligations.CodecFramesEndAndEnginesReset : Prop :=
  ∀ (s : State) (e : Fin 16), Awake s →
    (∀ (fe : FrameEnd) (b : Busy), (cdcOf s.dev e).busy = some b → fe.us * 1000 < wdogNs s.dev (e * 32 + b.ctx) → b.at_ + fe.us * 1000 < 2 ^ 64 → Does
      (.codecFrameEnd e fe) s fun d => (cdcOf d e).busy = none ∧ b.at_ + fe.us * 1000 ≤ d.time.ns) ∧
    (∀ (sk : CodedPic) (b : Busy), (cdcOf s.dev e).busy = some b → b.ctx < 32 → (cdcOf s.dev e).moves = [] → b.at_ + wdogNs s.dev (e * 32 + b.ctx) < 2
      ^ 64 → Does (.codecFrameWdog e sk) s fun d => (cdcOf d e).busy = none ∧ tst d (Reg.CDC_EVENT e) 2 = true ∧ b.at_ + wdogNs s.dev (e * 32 + b.ctx)
      ≤ d.time.ns) ∧
    (tst s.dev (Reg.CDC_STATUS e) 9 = false → Does (.engineReset e) s fun d => (cdcOf d e).busy = none ∧ tst d (Reg.CDC_STATUS e) 9 = true ∧ tst d
      (Reg.CDC_STATUS e) 1 = false ∧ rdN d (Reg.CDC_CMD_RESULT e) = 0) ∧
    (tst s.dev (Reg.CDC_STATUS e) 9 = true → Does (.engineReset e) s fun d => d = wrN (Reg.CDC_CMD_RESULT e) 3 s.dev) ∧
    (tst s.dev (Reg.CDC_STATUS e) 9 = true → Does (.engineResetDone e) s fun d => tst d (Reg.CDC_STATUS e) 9 = false ∧ tst d (Reg.CDC_STATUS e) 8 =
      false ∧ tst d (Reg.CDC_STATUS e) 1 = true ∧ (∀ x < 32, synced d (e * 32 + x) = false) ∧ SameMem s.dev d) ∧
    (Does (.ccpHeartbeatMiss e) s fun d => tst d (Reg.CDC_STATUS e) 8 = true ∧ tst d (Reg.CDC_STATUS e) 1 = false ∧ tst d (Reg.CDC_EVENT e) 5 = true ∧
      SameMem s.dev d) ∧
    (∀ (x : Fin 32) (g : Fin 16), ctxValid s.dev (e * 32 + x) = false → Does (.move e x g) s fun d => d = wrN (Reg.CDC_CMD_RESULT e) 2 s.dev) ∧
    (∀ (x : Fin 32) (g : Fin 16) (k : Nat), ctxValid s.dev (e * 32 + x) = true → (ctxOf s.dev (e * 32 + x)).move = none → (cdcOf s.dev e).moves = [] →
      freeCtx s.dev g = some k → e.val / 8 ≠ g.val / 8 → ctxEncodes s.dev (e * 32 + x) = false → Does (.move e x g) s fun d => (ctxOf d (e * 32 +
      x)).move = some (g.val, k % 32) ∧ rdN d (Reg.CDC_CMD_RESULT e) = 0 ∧ d.cdc = s.dev.cdc ∧ SameMem s.dev d) ∧
    (∀ (x : Fin 32) (g : Fin 16) (k : Nat), ctxValid s.dev (e * 32 + x) = true → (ctxOf s.dev (e * 32 + x)).move = none → (cdcOf s.dev e).moves = [] →
      (cdcOf s.dev e).busy = none → freeCtx s.dev g = some k → (e.val / 8 = g.val / 8 ∨ (ctxEncodes s.dev (e * 32 + x) = true ∧ (ctxOf s.dev (e * 32 +
      x)).clip = none)) → Does (.move e x g) s fun d => rdN d (Reg.CDC_CTX_CFG (k / 32) (k % 32)) = rdN s.dev (Reg.CDC_CTX_CFG e x) ∧ ctxValid d (e *
      32 + x) = false ∧ (ctxOf d k).queue = (ctxOf s.dev (e * 32 + x)).queue ∧ rdN d (Reg.CDC_CMD_RESULT e) = 0 ∧ SameMem s.dev d)

/-- Clips (R237, R240, R242, R243). A clip closes when every interval up to its end time is done. An interval that ends without a picture taken is
over, and before the first IDR it is replaced by nothing. A taken picture whose frame is not committed by MASK_STALE after its capture is settled
then. The host's QP, at most 51, is kept with the picture it was asked for. -/
def Obligations.ClipsAdvanceAndClose : Prop :=
  ∀ (s : State) (e : Fin 16) (x : Fin 32), Awake s →
    (∀ (c : Clip), (ctxOf s.dev (e * 32 + x)).clip = some c → c.count ≤ c.n → (cdcOf s.dev e).moves = [] → Does (.clipClose e x) s fun d => (ctxOf d
      (e * 32 + x)).clip = none) ∧
    (∀ (c : Clip), (ctxOf s.dev (e * 32 + x)).clip = some c → c.n < c.count → Does (.clipClose e x) s fun d => d = s.dev) ∧
    (∀ (sk : CodedPic) (c : Clip), (ctxOf s.dev (e * 32 + x)).clip = some c → c.head = none → c.n < c.count → c.idr = false → c.start + (c.n + 1) *
      100000000000 / c.fps < 2 ^ 64 → Does (.clipIntervalEnd e x sk) s fun d => ((ctxOf d (e * 32 + x)).clip.map fun v => (v.n, v.replaced,
      v.pictures)) = some (c.n + 1, c.replaced + 1, c.pictures) ∧ c.start + (c.n + 1) * 100000000000 / c.fps ≤ d.time.ns ∧ SameMem s.dev d) ∧
    (∀ (c : Clip) (t : Taken), (ctxOf s.dev (e * 32 + x)).clip = some c → c.head = some t → settled s.dev c t = false → t.cap + c.staleNs < 2 ^ 64 →
      Does (.maskStaleExpiry e x) s fun d => ((ctxOf d (e * 32 + x)).clip.map fun v => (v.taken.filter fun y => y.n == t.n).all (·.stale)) = some true
      ∧ t.cap + c.staleNs ≤ d.time.ns) ∧
    (∀ (h : H2D) (qp : Nat) (v : CdcCtx) (c : Clip) (t : Taken) (p : Nat × Nat), ringHasEntry s.dev 6 = true → h2dOk s.dev 6 2 h = true → qp ≤ 51 →
      s.dev.cctx = [((e * 32 + x : Nat), v)] → v.clip = some c → c.taken = [t] → t.qp = none → t.post = some p → p.1 = h.tag → Does (.qpAnswer h qp) s
      fun d => ((ctxOf d (e * 32 + x)).clip.map fun y => y.taken) = some [{ t with qp := some qp }] ∧ rdN d (Reg.PCI_RING_CI 6) = (rdN s.dev
      (Reg.PCI_RING_CI 6) + 1) % 2 ^ 32)

/-! ## Arithmetic (03) -/

/-- The bit-serial loop of a DPU computes the exact dot product (R61, R62). For every activation width and every weight width, and elements within
them, the sum over cycles (j, b) equals the sum of the 32 products of activation and weight value (Table 3-1): nothing is rounded, saturated or
scaled. It lies in the 29-bit two's complement range, its magnitude is at most 2^27, and a16 with every weight −128 against every activation −32,768
attains 2^27. -/
def Obligations.DpuSumIsExact : Prop :=
  (∀ (a w : Nat) (qa qw : List Int), a ∈ [1, 2, 3, 4, 5, 6, 7, 8, 16] → w ∈ [1, 2, 4, 8] → (∀ q ∈ qa, -(2 ^ (a - 1)) ≤ q ∧ q < 2 ^ (a - 1)) →
    (∀ q ∈ qw, -(2 ^ (w - 1)) ≤ q ∧ q < 2 ^ (w - 1)) → qa.length = 32 → qw.length = 32 →
    dpuSum a w qa qw = ((List.range 32).map fun i => qa.getD i 0 * weightVal w (qw.getD i 0)).sum ∧
      -(2 ^ 28) ≤ dpuSum a w qa qw ∧ dpuSum a w qa qw < 2 ^ 28 ∧ (dpuSum a w qa qw).natAbs ≤ 2 ^ 27) ∧
    dpuSum 16 8 (List.replicate 32 (-32768)) (List.replicate 32 (-128)) = 2 ^ 27

/-- FP32 sums and products of finite operands are finite (R69, R71): never an infinity or a NaN, never a subnormal, no NUM_NONFINITE, and where
NUM_SAT is set the result is the largest finite value of its sign. Conversion to BXn (R65, R73): whatever the values, every element of the pip fits n
bits in two's complement, the shared exponent is not the reserved 255, and a nonfinite value sets NUM_NONFINITE. Conversion to BX1 gives 0 and −1
alone (R68). -/
def Obligations.SumsAndConversionsStayInRange : Prop :=
  (∀ (a b : Nat) (r : Fr), bits a 23 8 ≠ 255 → bits b 23 8 ≠ 255 → r = add32 a b ∨ r = sub32 a b ∨ r = mul32 a b →
    r.v < 2 ^ 32 ∧ bits r.v 23 8 ≠ 255 ∧ (bits r.v 23 8 = 0 → bits r.v 0 23 = 0) ∧ r.fl.nonfin = false ∧ (r.fl.sat = true → bits r.v 0 31 = max32)) ∧
  ((∀ (n : Nat) (xs : List Nat), 2 ≤ n → (toBx n xs).1.e ≤ 254 ∧ (toBx n xs).1.q.length = xs.length ∧
      (∀ q ∈ (toBx n xs).1.q, -(2 ^ (n - 1)) ≤ q ∧ q < 2 ^ (n - 1)) ∧ ((∃ x ∈ xs, bits x 23 8 = 255) → (toBx n xs).2.nonfin = true)) ∧
    (∀ (e : Nat) (xs : List Nat), ∀ q ∈ (toBx1 e xs).1.q, q = 0 ∨ q = -1))

/-- The parts of a split (R142): for every count, every number of cores and every granularity, each index of the level lies in exactly one core's
part. -/
def Obligations.SplitPartsCoverOnce : Prop :=
  ∀ (cnt g gran x : Nat), 0 < g → 0 < gran → x < cnt →
    ∃ i < g, ((partOf cnt g i gran).1 ≤ x ∧ x < (partOf cnt g i gran).1 + (partOf cnt g i gran).2) ∧
      ∀ j < g, (partOf cnt g j gran).1 ≤ x → x < (partOf cnt g j gran).1 + (partOf cnt g j gran).2 → j = i

/-! ## Cores: arrays, window engine, nests (04, 05, 06) -/

/-- The arrays (R83, R88, R92 to R97). The loader's next row, written where it is not FULL, becomes FULL and the row behind it in the set LOADING; a
write to a FULL row is held and counted, and goes on when that row has swapped. A pass that the tile checks admit enters behind those in flight and
counts, and opens its tile. A token at a FULL active row swaps it: the row is EMPTY, its weights are active, and the token moves on; a row that is not
FULL stalls it. The oldest pass, its token past the array, commits: it leaves, and its tile holds the accumulator's sums. -/
def Obligations.WeightRowsAndTokens : Prop :=
  ∀ (s : State) (k : Fin 64), Awake s →
    (∀ (r : Fin 32) (ws : List (List Int × Nat)) (more : Bool), shadowOf s.dev k r ≠ 2 → (coreOf s.dev k).cx.heldW = none → r.val = rf s.dev
      (Reg.ARR_STATUS k) 12 6 % 32 → rf s.dev (Reg.ARR_STATUS k) 12 6 ≤ 32 → (∀ p ∈ ws, p.2 ≠ 255) → Does (.weightRowLoaded k r ws more) s fun d =>
      shadowOf d k r = 2 ∧ mget (fun _ => []) (coreOf d k).cx.shW r = ws.map (fun p => ⟨p.1, p.2⟩) ∧ (more = true → shadowOf s.dev k (r + 1) = 0 →
      shadowOf d k (r + 1) = 1) ∧ rf d (Reg.ARR_STATUS k) 12 6 = (if more = true then r.val + 1 else 32) ∧ tst d (Reg.ARR_STATUS k) 3 = false ∧
      SameRegs [Reg.ARR_STATUS k] s.dev d ∧ SameMem s.dev d) ∧
    (∀ (r : Fin 32) (ws : List (List Int × Nat)) (more : Bool), shadowOf s.dev k r = 2 → (coreOf s.dev k).cx.heldW = none → r.val = rf s.dev
      (Reg.ARR_STATUS k) 12 6 % 32 → rf s.dev (Reg.ARR_STATUS k) 12 6 ≤ 32 → (∀ p ∈ ws, p.2 ≠ 255) → Does (.weightRowLoaded k r ws more) s fun d =>
      rdN d (Reg.ARR_LOAD_WAIT_CNT k) = (rdN s.dev (Reg.ARR_LOAD_WAIT_CNT k) + 1) % 2 ^ 32 ∧ tst d (Reg.ARR_STATUS k) 3 = true ∧ (coreOf d k).cx =
      { (coreOf s.dev k).cx with heldW := some ⟨r, ws.map (fun p => ⟨p.1, p.2⟩), more⟩ }) ∧
    (∀ (p : PassIn) (q : Pass), q = passOf p.wide p.a p.w p.acts p.tile p.row p.cols p.first p.init p.last p.out p.tok → tokenStalled s.dev k = false
      → (∀ x ∈ (coreOf s.dev k).passes, x.sameShape q = true) → tileCheck s.dev k q = .ok → (coreOf s.dev k).stale = false → (∀ x ∈ q.acts, x.e ≠ 255)
      → Does (.passEntry k p) s fun d => (coreOf d k).passes = (coreOf s.dev k).passes ++ [q] ∧ (tileOf d k q.tile).isSome = true ∧ rd64 d
      (Reg.ARR_PASS_CNT_LO k) = (rd64 s.dev (Reg.ARR_PASS_CNT_LO k) + 1) % 2 ^ 64 ∧ SameMem s.dev d) ∧
    (∀ (r : Fin 32) (p : Pass), (coreOf s.dev k).passes = [p] → p.tok = r.val → r.val < p.rows → shadowOf s.dev k r = 2 → (coreOf s.dev k).cx.heldW =
      none → Does (.swapTokenArrival k r) s fun d => shadowOf d k r = 0 ∧ mget (fun _ => []) (coreOf d k).cx.acW r = mget (fun _ => []) (coreOf s.dev
      k).cx.shW r ∧ tst d (Reg.ARR_STATUS k) 2 = false ∧ SameMem s.dev d) ∧
    (∀ (r : Fin 32) (w : RowWrite) (p : Pass), (coreOf s.dev k).passes = [p] → p.tok = r.val → r.val < p.rows → shadowOf s.dev k r = 2 → (coreOf s.dev
      k).cx.heldW = some w → w.row = r.val → Does (.swapTokenArrival k r) s fun d => shadowOf d k r = 2 ∧ mget (fun _ => []) (coreOf d k).cx.acW r =
      mget (fun _ => []) (coreOf s.dev k).cx.shW r ∧ mget (fun _ => []) (coreOf d k).cx.shW r = w.ws ∧ (coreOf d k).cx.heldW = none ∧ tst d
      (Reg.ARR_STATUS k) 3 = false) ∧
    (∀ (r : Fin 32) (p : Pass), (coreOf s.dev k).passes = [p] → p.tok = r.val → r.val < p.rows → shadowOf s.dev k r ≠ 2 → Does (.swapTokenArrival k r)
      s fun d => tst d (Reg.ARR_STATUS k) 2 = true ∧ rdN d (Reg.ARR_SWAP_STALL_CNT k) = (rdN s.dev (Reg.ARR_SWAP_STALL_CNT k) + 1) % 2 ^ 32 ∧ d.cores
      = s.dev.cores) ∧
    (∀ (p : Pass) (ps : List Pass) (t : Tile), (coreOf s.dev k).passes = p :: ps → 32 ≤ p.tok → p.last = false → tileOf s.dev k p.tile = some t →
      parityBad (coreOf s.dev k).cx p.rows = none → Does (.passCommit k .none) s fun d => (coreOf d k).passes = ps ∧ tileOf d k p.tile = some
      { (accumulate (arraysOf k) (advance s.dev k 32 p) true t).1 with done := false, held := false } ∧ SameMem s.dev d)

/-- Core faults and self-tests (R99, R103 to R107, R129). A token that stands still too long, an uncorrectable accumulator error, and a weight whose
parity is wrong when its pass commits end the task contained: passes and tiles are dropped. A self-test starts unless the core is in a running cove,
in which case it is refused. It ends after its time: the result is shown, a failure marks the core FAILED, and a pass of the array test clears that.
Reset of a window engine (R127). A hold is requested of a V-core's engine and takes effect when the engine is idle: the line buffer loses its rows and
the status shows the reset alone. A release of a held engine counts once, and ends with the engine READY and out of reset. An S-core has no window
engine: nothing happens. -/
def Obligations.CoreFaultsSelfTestsAndEngineReset : Prop :=
  ∀ (s : State) (k : Fin 64), Awake s →
    (tst s.dev (Reg.ARR_STATUS k) 2 = true → (coreOf s.dev k).task.isSome = true → Does (.swapTimeout k) s fun d => tst d (Reg.ARR_EVENT k) 3 = true ∧
      Contained k s.dev d) ∧
    (∀ (a : Nat) (t : Nat), (coreOf s.dev k).task.isSome = true → Does (.passCommit k (.eccUncorr a t)) s fun d => tst d (Reg.ARR_EVENT k) 1 = true ∧
      Contained k s.dev d) ∧
    (∀ (p : Pass) (ps : List Pass) (x : Nat × Nat), (coreOf s.dev k).task.isSome = true → (coreOf s.dev k).passes = p :: ps → 32 ≤ p.tok → parityBad
      (coreOf s.dev k).cx p.rows = some x → Does (.passCommit k .none) s fun d => tst d (Reg.ARR_EVENT k) 2 = true ∧ rdN d (Reg.ARR_FAULT_INFO k) =
      x.1 % 4 + x.2 % 32 * 4 + 2 * 2 ^ 16 ∧ Contained k s.dev d) ∧
    (coreInRunning s.dev k = false → Does (.arrBistStart k) s fun d => tst d (Reg.ARR_BIST_STATUS k) 0 = true ∧ tst d (Reg.ARR_BIST_STATUS k) 8 =
      false ∧ SameRegs [Reg.ARR_BIST_STATUS k] s.dev d) ∧
    (coreInRunning s.dev k = true → Does (.arrBistStart k) s fun d => tst d (Reg.ARR_BIST_STATUS k) 8 = true ∧ SameRegs [Reg.ARR_BIST_STATUS k] s.dev
      d) ∧
    (∀ (fails : Nat) (step : Nat) (us : Nat), tst s.dev (Reg.ARR_BIST_STATUS k) 0 = true → domRuns s.dev k = true → Does (.arrBistDone k fails step
      us) s fun d => tst d (Reg.ARR_BIST_STATUS k) 0 = false ∧ tst d (Reg.ARR_BIST_STATUS k) 1 = true ∧ rf d (Reg.ARR_BIST_STATUS k) 2 4 = fails % 2 ^
      arraysOf k ∧ tst d (Reg.ARR_STATUS k) 10 = decide (fails % 2 ^ arraysOf k ≠ 0) ∧ SameMem s.dev d) ∧
    (isSCore k = false → coreInRunning s.dev k = false → Does (.winBistStart k) s fun d => tst d (Reg.WIN_BIST_STATUS k) 0 = true ∧ tst d
      (Reg.WIN_BIST_STATUS k) 4 = false ∧ SameRegs [Reg.WIN_BIST_STATUS k] s.dev d) ∧
    (∀ (step : Fin 4) (us : Nat), tst s.dev (Reg.WIN_BIST_STATUS k) 0 = true → domRuns s.dev k = true → Does (.weBistDone k step us) s fun d => tst d
      (Reg.WIN_BIST_STATUS k) 0 = false ∧ tst d (Reg.WIN_BIST_STATUS k) 1 = true ∧ rf d (Reg.WIN_BIST_STATUS k) 2 2 = step.val ∧ rf d
      (Reg.WIN_BIST_STATUS k) 16 16 = us % 2 ^ 16 ∧ (step.val ≠ 0 → tst d (Reg.ARR_STATUS k) 10 = true ∧ tst d (Reg.WIN_EVENT k) 6 = true)) ∧
    (isSCore k = false → Does (.winHoldReset k) s fun d => tst d (Reg.WIN_CTRL k) 0 = true ∧ (coreOf d k).weHold = !(tst s.dev (Reg.WIN_STATUS k) 0) ∧
      (coreOf d k).weRel = false ∧ SameRegs [Reg.WIN_CTRL k] s.dev d) ∧
    (isSCore k = true → Does (.winHoldReset k) s fun d => d = s.dev) ∧
    ((coreOf s.dev k).weHold = true → tst s.dev (Reg.WIN_STATUS k) 2 = false → acting s.dev 1 k = false → Does (.weResetEnter k) s fun d => rdN d
      (Reg.WIN_STATUS k) = 1 ∧ (coreOf d k).cx.we.slots = [] ∧ (coreOf d k).weHold = false ∧ SameMem s.dev d) ∧
    (isSCore k = false → tst s.dev (Reg.WIN_STATUS k) 0 = true → (coreOf s.dev k).weRel = false → Does (.winRelease k) s fun d => tst d (Reg.WIN_CTRL
      k) 0 = false ∧ (coreOf d k).weRel = true ∧ rdN d (Reg.WIN_RESET_CNT k) = (rdN s.dev (Reg.WIN_RESET_CNT k) + 1) % 2 ^ 32) ∧
    (isSCore k = false → (coreOf s.dev k).weRel = true → Does (.winRelease k) s fun d => tst d (Reg.WIN_CTRL k) 0 = false ∧ (coreOf d k).weRel = true
      ∧ rdN d (Reg.WIN_RESET_CNT k) = rdN s.dev (Reg.WIN_RESET_CNT k)) ∧
    ((coreOf s.dev k).weRel = true → Does (.weReleaseDone k) s fun d => tst d (Reg.WIN_STATUS k) 0 = false ∧ tst d (Reg.WIN_STATUS k) 1 = true ∧
      (coreOf d k).weRel = false ∧ SameMem s.dev d)

/-- The vector-engine rows (R133, R138, R140, R147, R196): a nest of engine 3 whose VE entry names the row's function. An uncorrectable error in its
descriptor ends the task contained with LPD_ECC_UNCORR. A nest with a level of count 0 is empty: memory stays, EMPTY and the command count. Otherwise
every invocation is done in walk order (`walkVe`): when none meets a fault, the command ends with status 0, memory as the walk left it, and counts. -/
def Obligations.VeNestsRunTheirFunction : Prop :=
  ∀ (s : State) (k : Fin 64) (ecc : Fin 3) (row : Instr × Nat) (t : Task) (c : Cmd) (e : Nat) (v : Ve), Awake s → row ∈ veRows k ecc → AtNest s.dev k t c e →
    (descOf s.dev k e).eng = 3 → veOf s.dev t.cove (descOf s.dev k e).epi = some v → v.func = row.2 →
    (ecc.val = 2 → Does row.1 s fun d => tst d (Reg.LPD_EVENT k) 1 = true ∧ Contained k s.dev d) ∧
    (ecc.val ≠ 2 → (∃ p ∈ planOf s.dev k (descOf s.dev k e), p.cnt = 0) →
      Does row.1 s fun d => NestEnded k 1 (nestStart k ecc e s.dev) d ∧ SameMem s.dev d ∧ rdN d (Reg.LPD_EMPTY_CNT k) = (rdN s.dev (Reg.LPD_EMPTY_CNT k) + 1) % 2 ^ 32) ∧
    (ecc.val ≠ 2 → (∀ p ∈ planOf s.dev k (descOf s.dev k e), p.cnt ≠ 0) →
      ∀ u, walkVe k (descOf s.dev k e) v (planOf s.dev k (descOf s.dev k e)) (nestStart k ecc e s.dev) = .ok u → Does row.1 s fun d => NestEnded k 0 u d)

/-- A matrix product (R133, R138, R139, R145, R147). A nest of engine 0 with a level other than K of count 0 is empty. Otherwise it walks its bodies
in order (`walkMat`), with a K level of count 0 writing initial values alone and counted; when no body meets a fault the command ends with status 0,
memory as the walk left it. An uncorrectable error in its descriptor ends the task contained. -/
def Obligations.MatrixProductsRunTheirNest : Prop :=
  ∀ (s : State) (k : Fin 64) (ecc : Fin 3) (t : Task) (c : Cmd) (e : Nat), Awake s → AtNest s.dev k t c e → (descOf s.dev k e).eng = 0 →
    (ecc.val = 2 → Does (.nestMatrixProduct k ecc) s fun d => tst d (Reg.LPD_EVENT k) 1 = true ∧ Contained k s.dev d) ∧
    (ecc.val ≠ 2 → (∃ p ∈ planOf s.dev k (descOf s.dev k e), p.l.dim ≠ 3 ∧ p.cnt = 0) →
      Does (.nestMatrixProduct k ecc) s fun d => NestEnded k 1 (nestStart k ecc e s.dev) d ∧ SameMem s.dev d) ∧
    (∀ k0 u, ecc.val ≠ 2 → (∀ p ∈ planOf s.dev k (descOf s.dev k e), p.l.dim ≠ 3 → p.cnt ≠ 0) →
      k0 = (planOf s.dev k (descOf s.dev k e)).any (fun p => p.l.dim == 3 && p.cnt == 0) →
      walkMat k t.cove (descOf s.dev k e) k0 (planOf s.dev k (descOf s.dev k e)) (nestStart k ecc e s.dev) = .ok u →
      Does (.nestMatrixProduct k ecc) s fun d => NestEnded k 0 u d ∧ (k0 = true → rdN d (Reg.LPD_K0_CNT k) = (rdN u (Reg.LPD_K0_CNT k) + 1) % 2 ^ 32))

/-- Window-engine commands (R110, R112, R114, R125, R140). With a legal window descriptor, legal blocks and a line buffer large enough, a V-core's
ready engine runs the row of its OP: the blocks are walked in order (`weWalk`), and when none meets a fault the command ends with status 0, memory as
the walk left it. A convolution of a 1×1 filter marked PLAIN_OK runs the same way past the engine while that is held in reset, whatever its
line-buffer need. A command whose line-buffer need exceeds 512 KiB ends contained with WIN_LB_CAPACITY. -/
def Obligations.WindowCommandsRunTheirNest : Prop :=
  ∀ (s : State) (k : Fin 64) (ecc : Fin 3) (t : Task) (c : Cmd) (e : Nat) (w : WinD), Awake s → AtNest s.dev k t c e → ecc.val ≠ 2 →
    w = winAt s.dev k (descOf s.dev k e).wdesc → WinLegal (descOf s.dev k e) w (planOf s.dev k (descOf s.dev k e)) →
    (∀ row ∈ weRows k ecc, weReady s.dev k = true → (descOf s.dev k e).eng = row.2.1 → w.op = row.2.2 →
      (w.op = 4 ∨ lineNeed (descOf s.dev k e) w (bodiesOf (planOf s.dev k (descOf s.dev k e))) ≤ 524288 →
        ∀ u, weWalk k t.cove false (descOf s.dev k e) w (bodiesOf (planOf s.dev k (descOf s.dev k e))) (nestStart k ecc e s.dev) = .ok u → Does row.1 s fun d => NestEnded k 0 u d) ∧
      (w.op ≠ 4 → 524288 < lineNeed (descOf s.dev k e) w (bodiesOf (planOf s.dev k (descOf s.dev k e))) →
        Does row.1 s fun d => tst d (Reg.WIN_EVENT k) 4 = true ∧ Contained k s.dev d)) ∧
    (tst s.dev (Reg.WIN_STATUS k) 0 = true → (descOf s.dev k e).eng = 1 → w.op = 0 → w.plainOk = true → w.fh = 1 → w.fw = 1 →
      ∀ u, weWalk k t.cove true (descOf s.dev k e) w (bodiesOf (planOf s.dev k (descOf s.dev k e))) (nestStart k ecc e s.dev) = .ok u →
        Does (.plainPathConv k ecc) s fun d => NestEnded k 0 u d)

/-- The line buffer and the window register (R113, R115, R117, R128). The loader's next row of the set in progress, when some output row reads it,
goes into a released slot and is counted as written. A gather of a pixel whose rows are all present fills the halves of the window register in turn
with one pip per tap; while a row has not been written yet it is a bubble. A parity mismatch of the window register ends the task contained. -/
def Obligations.LineBufferFillsAndGathers : Prop :=
  ∀ (s : State) (k : Fin 64) (g : Desc) (w : WinD) (b : Body) (bl : WBlk) (p : WPart), Awake s →
    (∀ (blk : Nat) (part : Nat) (set : Nat) (row : Nat) (ps : List Pip), weReady s.dev k = true → weGeom s.dev k blk part = some (g, w, b, bl, p) →
      (coreOf s.dev k).cx.we.at_ = some ⟨blk, part, set⟩ → row = nextInput w p bl (coreOf s.dev k).cx.we → row ≤ inRow w p bl.y1 (p.hy - 1) →
      rowNeeded w p bl.y0 bl.y1 row = true → (coreOf s.dev k).cx.we.slots = [] → slotsOf w p ≠ 0 → readLine k g w p b bl row s.dev = .ok ps → Does
      (.lineBufferRowWrite k blk part set row) s fun d => ∃ i, mget (fun _ => none) (coreOf d k).cx.we.slots i = some ⟨row, ps⟩ ∧ (coreOf d
      k).cx.we.written = row + 1 ∧ SameMem s.dev d) ∧
    (∀ (x : WeAt) (m : Nat) (ts : List Tap), weReady s.dev k = true → (coreOf s.dev k).cx.we.at_ = some x → weGeom s.dev k x.blk x.part = some (g, w,
      b, bl, p) → ts = (if w.op ≤ 1 then partSets w p (arraysOf k) b else [convTaps w p]).getD x.set [] → m < bl.pixels → (∀ t ∈ ts, inRow w p
      (bl.pixel m).1 t.fy < (coreOf s.dev k).cx.we.written ∧ (slotWith (coreOf s.dev k).cx.we (inRow w p (bl.pixel m).1 t.fy)).isSome = true) → Does
      (.windowGather k m .none) s fun d => (∃ ps : List Pip, ps.length = ts.length ∧ (coreOf d k).cx.we.win = (fillHalves ps.length ps (coreOf s.dev
      k).cx.we).win ∧ (coreOf d k).cx.we.half = (fillHalves ps.length ps (coreOf s.dev k).cx.we).half) ∧ d.err = s.dev.err ∧ SameMem s.dev d) ∧
    (∀ (x : WeAt) (m : Nat) (slot : Nat), weReady s.dev k = true → (coreOf s.dev k).cx.we.at_ = some x → weGeom s.dev k x.blk x.part = some (g, w, b,
      bl, p) → Does (.windowGather k m (.parity slot)) s fun d => tst d (Reg.WIN_EVENT k) 2 = true ∧ Contained k s.dev d)

/-! ## Descriptors and attention (06, 07) -/

/-- Host writes to a core's descriptor block (R131, R132, R144). A range that meets no range of another cove is stored; one that overlaps is ignored
with HOST_REJECT. A shape register and a table word take the written value while the core is in no running cove; inside a running cove the write is
ignored with HOST_REJECT. Nothing else of the register file changes. -/
def Obligations.DescriptorWritesKeepTheRules : Prop :=
  ∀ (s : State) (k : Fin 64) (v : Word), Awake s →
    (∀ (c : Fin 8), rangeOverlaps s.dev k c (bits v.toNat 0 6) (bits v.toNat 6 7) = false → Does (.lpdRangeWrite k c v) s fun d => rdN d
      (Reg.LPD_RANGE k c) = bits v.toNat 0 13 ∧ SameRegs [Reg.LPD_RANGE k c] s.dev d) ∧
    (∀ (c : Fin 8), rangeOverlaps s.dev k c (bits v.toNat 0 6) (bits v.toNat 6 7) = true → Does (.lpdRangeWrite k c v) s fun d => tst d
      (Reg.LPD_STATUS k) 9 = true ∧ SameRegs [Reg.LPD_STATUS k] s.dev d) ∧
    (∀ (i : Fin 16), coreInRunning s.dev k = false → Does (.lpdShapeWrite k i v) s fun d => rdN d (Reg.LPD_SHAPE k i) = v.toNat ∧ SameRegs
      [Reg.LPD_SHAPE k i] s.dev d) ∧
    (∀ (i : Fin 16), coreInRunning s.dev k = true → Does (.lpdShapeWrite k i v) s fun d => tst d (Reg.LPD_STATUS k) 9 = true ∧ SameRegs
      [Reg.LPD_STATUS k] s.dev d) ∧
    (∀ (e : Fin 64) (j : Fin 64), coreInRunning s.dev k = false → Does (.lpdTableWrite k e j v) s fun d => rdN d (Reg.LPD_TABLE k e j) = v.toNat ∧
      SameRegs [Reg.LPD_TABLE k e j] s.dev d) ∧
    (∀ (e : Fin 64) (j : Fin 64), coreInRunning s.dev k = true → Does (.lpdTableWrite k e j v) s fun d => tst d (Reg.LPD_STATUS k) 9 = true ∧ SameRegs
      [Reg.LPD_STATUS k] s.dev d)

/-- An attention command of an S-core (R155, R158, R159, R164, R166, R185). With a legal descriptor and legal entries ATTEND writes every row and
head, APPEND writes the entries' keys and values, and the command ends with status 0. An empty length table ends it with status 1 and no byte written.
An illegal descriptor, a length that the pages do not back and an uncorrectable error of staging or buffers end the task contained with the event and,
where an entry is at fault, its sequence. An entry that names a withheld frame, and an access that does not reach the DRAM, end the task contained. -/
def Obligations.AttentionCommandsRunOrFault : Prop :=
  ∀ (s : State) (k : Fin 64) (t : Task) (c : Cmd), Awake s →
    (∀ (x : Attn) (u : Dev), isSCore k = true → AtCommand s.dev k t c → c.type = 2 → x = attnAt s.dev k c.arg → x.append = false → u = placeTable k
      t.cove x (cmdStart k s.dev) → attnBad u x (lenTable u k t.cove x) = false → x.len ≠ 0 → (∀ e ∈ lenTable u k t.cove x, lenBad u x e = false) →
      (lenTable u k t.cove x).any (namesWithheld u x) = false → attnReach u k x (lenTable u k t.cove x) = none → queryBad u k x (rowsOf (lenTable u k
      t.cove x)) = false → Does (.attend k 0 .none) s fun d => SameMem (attendAll k x (lenTable u k t.cove x) u) d ∧ (coreOf d k).task = (coreOf u
      k).task.map (endedTask 0)) ∧
    (∀ (x : Attn) (u : Dev), isSCore k = true → AtCommand s.dev k t c → c.type = 2 → x = attnAt s.dev k c.arg → x.append = true → u = placeTable k
      t.cove x (cmdStart k s.dev) → attnBad u x (lenTable u k t.cove x) = false → x.len ≠ 0 → (∀ e ∈ lenTable u k t.cove x, lenBad u x e = false) →
      (lenTable u k t.cove x).any (namesWithheld u x) = false → attnReach u k x (lenTable u k t.cove x) = none → queryBad u k x (rowsOf (lenTable u k
      t.cove x)) = false → Does (.append k 0 .none) s fun d => SameMem (appendAll k x (lenTable u k t.cove x) u) d ∧ (coreOf d k).task = (coreOf u
      k).task.map (endedTask 0)) ∧
    (∀ (x : Attn) (u : Dev), isSCore k = true → AtCommand s.dev k t c → c.type = 2 → x = attnAt s.dev k c.arg → x.append = false → u = placeTable k
      t.cove x (cmdStart k s.dev) → attnBad u x (lenTable u k t.cove x) = false → x.len = 0 → Does (.attend k 0 .none) s fun d => SameMem u d ∧
      (coreOf d k).task = (coreOf u k).task.map (endedTask 1)) ∧
    (∀ (x : Attn) (u : Dev), isSCore k = true → AtCommand s.dev k t c → c.type = 2 → x = attnAt s.dev k c.arg → x.append = true → u = placeTable k
      t.cove x (cmdStart k s.dev) → attnBad u x (lenTable u k t.cove x) = false → x.len = 0 → Does (.append k 0 .none) s fun d => SameMem u d ∧
      (coreOf d k).task = (coreOf u k).task.map (endedTask 1)) ∧
    (∀ (x : Attn) (u : Dev), isSCore k = true → AtCommand s.dev k t c → c.type = 2 → x = attnAt s.dev k c.arg → x.append = false → u = placeTable k
      t.cove x (cmdStart k s.dev) → attnBad u x (lenTable u k t.cove x) = true → Does (.attend k 0 .none) s fun d => tst d Reg.SEQ_EVENT 0 = true ∧
      bits (rdN d Reg.SEQ_AU_FAULT) 16 16 = 1 ∧ Contained k u d) ∧
    (∀ (x : Attn) (u : Dev) (e : LenEnt), isSCore k = true → AtCommand s.dev k t c → c.type = 2 → x = attnAt s.dev k c.arg → x.append = true → u =
      placeTable k t.cove x (cmdStart k s.dev) → attnBad u x (lenTable u k t.cove x) = false → x.len ≠ 0 → (lenTable u k t.cove x).find? (lenBad u x)
      = some e → Does (.append k 0 .none) s fun d => tst d Reg.SEQ_EVENT 1 = true ∧ rdN d Reg.SEQ_AU_FAULT = k.val + e.seq % 1024 * 2 ^ 6 + 2 * 2 ^ 16
      ∧ Contained k u d) ∧
    (∀ (x : Attn) (u : Dev), isSCore k = true → AtCommand s.dev k t c → c.type = 2 → x = attnAt s.dev k c.arg → x.append = false → u = placeTable k
      t.cove x (cmdStart k s.dev) → attnBad u x (lenTable u k t.cove x) = false → x.len ≠ 0 → (∀ e ∈ lenTable u k t.cove x, lenBad u x e = false) →
      (lenTable u k t.cove x).any (namesWithheld u x) = true → Does (.attend k 0 .none) s fun d => Contained k u d) ∧
    (∀ (x : Attn) (u : Dev), isSCore k = true → AtCommand s.dev k t c → c.type = 2 → x = attnAt s.dev k c.arg → x.append = false → u = placeTable k
      t.cove x (cmdStart k s.dev) → attnBad u x (lenTable u k t.cove x) = false → x.len ≠ 0 → (∀ e ∈ lenTable u k t.cove x, lenBad u x e = false) →
      (lenTable u k t.cove x).any (namesWithheld u x) = false → (attnReach u k x (lenTable u k t.cove x)).isSome = true → Does (.attend k 0 .none) s
      fun d => Contained k u d) ∧
    (∀ (x : Attn) (u : Dev), isSCore k = true → AtCommand s.dev k t c → c.type = 2 → x = attnAt s.dev k c.arg → x.append = false → u = placeTable k
      t.cove x (cmdStart k s.dev) → Does (.attend k 2 .none) s fun d => tst d Reg.SEQ_EVENT 3 = true ∧ Contained k s.dev d)

/-! ## KV frames and steps (07, 08) -/

/-- KV frames (R174, R176, R177, R185, R187). A sweep makes the first DRAIN frame of a die's queue FREE when its stamp lies below the oldest active
step, and no other. WITHHOLD takes a frame of the pool out of use and out of its queue; a frame beyond the pool is left alone. RETURN puts a withheld
frame that no page list names at the tail of its die's queue as DRAIN with STAMP KVF_STEP, and its number into the queue's ring in DRAM (log entry
61). Initialisation makes every frame FREE and queues them in ascending order. -/
def Obligations.FramesMoveBetweenStates : Prop :=
  ∀ (s : State) (f : Nat), Awake s →
    (∀ (dd : Fin 2), (freeQ s.dev dd).find? (fun f => frState s.dev f == 1) = some f → f < 262144 → stampBelow s.dev (frStamp s.dev f) = true → Does
      (.frameSweep dd) s fun d => frState d f = 0 ∧ SameMem s.dev d ∧ d.kv = s.dev.kv) ∧
    (∀ (dd : Fin 2), ((freeQ s.dev dd).find? (fun f => frState s.dev f == 1) = none ∨ ∃ f, (freeQ s.dev dd).find? (fun f => frState s.dev f == 1) =
      some f ∧ stampBelow s.dev (frStamp s.dev f) = false) → Does (.frameSweep dd) s fun d => d = s.dev) ∧
    (f < kvPool s.dev → f < 262144 → Does (.withhold f) s fun d => frState d f = 3 ∧ f ∉ freeQ d (frDie s.dev f) ∧ SameButQueues [frDie s.dev f] s.dev
      d) ∧
    (kvPool s.dev ≤ f → f < 2 ^ 19 → Does (.withhold f) s fun d => d = s.dev) ∧
    (frState s.dev f = 3 → frRef s.dev f = 0 → f < 262144 → queueAddr s.dev (frDie s.dev f) (freeQ s.dev (frDie s.dev f)).length + 4 ≤ dramBytes →
      Does (.returnFrame f) s fun d => frState d f = 1 ∧ frStamp d f = rdN s.dev Reg.KVF_STEP % 2 ^ 15 ∧ freeQ d (frDie s.dev f) = freeQ s.dev (frDie
      s.dev f) ++ [f] ∧ rdLE .dram d (queueAddr s.dev (frDie s.dev f) (freeQ s.dev (frDie s.dev f)).length) 4 = f ∧ SameButQueues [frDie s.dev f]
      s.dev d) ∧
    (frState s.dev f ≠ 3 → f < 2 ^ 19 → Does (.returnFrame f) s fun d => d = s.dev) ∧
    (tst s.dev Reg.KVF_STATUS 1 = true → kvPool s.dev ≤ 262144 → Does .kvfInitDone s fun d => (∀ f < kvPool s.dev, frState d f = 0) ∧ d.kv.q0 =
      List.range (rf s.dev Reg.KVF_FRAMES0 0 19) ∧ d.kv.q1 = (List.range (rf s.dev Reg.KVF_FRAMES1 0 19)).map (rf s.dev Reg.KVF_FRAMES0 0 19 + ·) ∧
      rdN d Reg.KVF_FREE0_CNT = rf s.dev Reg.KVF_FRAMES0 0 19 ∧ rdN d Reg.KVF_LIVE_CNT = 0 ∧ tst d Reg.KVF_STATUS 0 = true ∧ SameButQueues [0, 1]
      s.dev d)

/-- Writes of the KV pool's configuration (R169, R187, R439). While no sequence cove runs, a register that is no half of a pair takes the written
value's bits, INIT_DONE falls, and the pool is initialised when its limits hold; a lower half waits in its requester's latch and takes effect with the
upper half. While a sequence cove runs the registers stay and KVF_CFG_REJECT is set. -/
def Obligations.KvConfigurationIsChecked : Prop :=
  ∀ (s : State) (r : Req) (v : Word), Awake s →
    (∀ (i : Fin 11), i.val < 3 → Reaches s.dev r (kvCfgReg i).1 → seqCoveRuns s.dev = false → Does (.kvfConfigWrite r i v) s fun d => rdN d (kvCfgReg
      i).1 = v.toNat % 2 ^ (kvCfgReg i).2 ∧ tst d Reg.KVF_STATUS 0 = false ∧ tst d Reg.KVF_STATUS 1 = kvConfigOk d ∧ SameMem s.dev d) ∧
    (∀ (i : Fin 11), i.val % 2 = 1 → 3 ≤ i.val → Reaches s.dev r (kvCfgReg i).1 → Does (.kvfConfigWrite r i v) s fun d => (latchOf d r (kvCfgReg
      i).1).wr = some v ∧ SameRegs [Reg.PCI_STATUS] s.dev d ∧ SameMem s.dev d) ∧
    (∀ (i : Fin 11) (lo : Word), i.val % 2 = 0 → 4 ≤ i.val → Reaches s.dev r (kvCfgReg i).1 → (latchOf s.dev r ((kvCfgReg i).1 - 4)).wr = some lo →
      seqCoveRuns s.dev = false → Does (.kvfConfigWrite r i v) s fun d => rdN d (kvCfgReg i).1 = v.toNat % 2 ^ 8 ∧ rdN d ((kvCfgReg i).1 - 4) =
      lo.toNat ∧ tst d Reg.KVF_STATUS 0 = false ∧ tst d Reg.KVF_STATUS 1 = kvConfigOk d ∧ SameMem s.dev d) ∧
    (∀ (i : Fin 11), i.val < 3 → Reaches s.dev r (kvCfgReg i).1 → seqCoveRuns s.dev = true → Does (.kvfConfigWrite r i v) s fun d => tst d
      Reg.KVF_EVENT 7 = true ∧ SameRegs [Reg.KVF_EVENT, Reg.PCI_STATUS] s.dev d ∧ SameMem s.dev d)

/-- Steps of a sequence cove (R173, R175, R180, R203, R206). A step whose frames are available is admitted; an admitted step without a copy to wait
for starts with the next KVF_STEP, and its job joins the cove's queue. A whole-frame copy that is done puts the new frame into the page list and
counts. When the tasks of a step have ended, the step leaves and its sequence's length becomes the positions it then holds; a token joins the
sequence's log (log entry 61); a sequence that the step's last token ends becomes FREE, one left behind by a contained task waits. -/
def Obligations.StepsAreAdmittedCopiedAndEnded : Prop :=
  ∀ (s : State) (c : Fin 8) (x : Step), Awake s →
    (coveOpen s.dev c = true → isSeqCove s.dev c = true → tst s.dev Reg.KVF_STATUS 0 = true → s.dev.kv.steps.find? (fun y => y.cove == c.val) = some x
      → x.started = false → x.waits = false → x.copies = [] → tst s.dev Reg.KVF_STATUS 4 = false → needOf s.dev x = 0 → (∀ e ∈ x.ents, e.seq < 1024) →
      Does (.stepAdmission c .none) s fun d => rdN d Reg.KVF_STEP = (rdN s.dev Reg.KVF_STEP + 1) % 2 ^ 32 ∧
      { x with started := true, num := (rdN s.dev Reg.KVF_STEP + 1) % 2 ^ 32 } ∈ d.kv.steps ∧ (coveOf d c).queue.length = (coveOf s.dev
      c).queue.length + 1 ∧ SameMem s.dev d) ∧
    (∀ (r : Dev × List PageCopy), coveOpen s.dev c = true → isSeqCove s.dev c = true → tst s.dev Reg.KVF_STATUS 0 = true → s.dev.kv.steps.find? (fun y
      => y.cove == c.val) = some x → x.waits = true → needOf s.dev x ≤ availOf s.dev c → x.ents.foldlM allocEntry (frameless c s.dev, x.copies) = some
      r → needOf r.1 { x with copies := r.2, waits := false, freed := [] } = 0 → Does (.stepAdmission c .none) s fun d => (∃ y ∈ d.kv.steps, y.cove =
      c.val ∧ y.ents = x.ents ∧ y.copies = r.2 ∧ y.waits = false)) ∧
    (coveOpen s.dev c = false → Does (.stepAdmission c .none) s fun d => d = s.dev) ∧
    (∀ (p : PageCopy) (ps : List PageCopy), s.dev.kv.steps.find? (fun y => y.cove == c.val && !y.started && !y.copies.isEmpty) = some x → x.copies = p
      :: ps → ps ≠ [] → p.seq < 1024 → p.old < 262144 → p.new_ < 262144 → 2 ≤ frRef s.dev p.old → plAddr s.dev p.seq p.layer p.page + 4 ≤ dramBytes →
      Does (.frameCopyDone c) s fun d => rdN d Reg.KVF_COW_CNT = (rdN s.dev Reg.KVF_COW_CNT + 1) % 2 ^ 32 ∧ plFrame d p.seq p.layer p.page = some
      p.new_ ∧ { x with copies := ps } ∈ d.kv.steps) ∧
    (∀ (e : StepEnt), ebbState s.dev ≠ 1 → s.dev.kv.steps = [x] → x.cove = c.val → x.started = true → x.done = true → x.ents = [e] → e.seq < 1024 →
      e.lost = false → e.yields = false → sqState s.dev e.seq ≠ 5 → s.dev.kv.evictLater = [] → s.dev.kv.arrivals = [] → s.dev.err.acts = [] → Does
      (.stepEnd c) s fun d => d.kv.steps = [] ∧ sqLen d e.seq = (e.qpos + e.qcnt) % 2 ^ 16 ∧ SameMem s.dev d) ∧
    (∀ (e : StepEnt) (tok : Nat), ebbState s.dev ≠ 1 → s.dev.kv.steps = [x] → x.cove = c.val → x.started = true → x.done = true → x.ents = [e] → e.seq
      < 1024 → e.lost = false → e.yields = true → x.toks = [(e.seq, true, tok)] → sqState s.dev e.seq = 2 → s.dev.kv.evictLater = [] →
      s.dev.kv.arrivals = [] → s.dev.err.acts = [] → Does (.stepEnd c) s fun d => d.kv.steps = [] ∧ sqState d e.seq = 0) ∧
    (∀ (e : StepEnt) (tok : Nat), ebbState s.dev ≠ 1 → s.dev.kv.steps = [x] → x.cove = c.val → x.started = true → x.done = true → x.ents = [e] → e.seq
      < 1024 → e.lost = false → e.yields = true → x.toks = [(e.seq, false, tok)] → sqState s.dev e.seq = 2 → s.dev.kv.evictLater = [] →
      s.dev.kv.arrivals = [] → s.dev.err.acts = [] → sqGen s.dev e.seq + 1 < (sqX s.dev e.seq).maxTok → tok < 2 ^ 32 → (sqX s.dev e.seq).tokAt + 4 *
      (sqPrompt s.dev e.seq + sqGen s.dev e.seq) + 4 ≤ dramBytes → Does (.stepEnd c) s fun d => sqGen d e.seq = (sqGen s.dev e.seq + 1) % 2 ^ 16 ∧
      sqLen d e.seq = (e.qpos + e.qcnt) % 2 ^ 16 ∧ rdLE .dram d ((sqX s.dev e.seq).tokAt + 4 * (sqPrompt s.dev e.seq + sqGen s.dev e.seq)) 4 = tok) ∧
    (∀ (e : StepEnt), ebbState s.dev ≠ 1 → s.dev.kv.steps = [x] → x.cove = c.val → x.started = true → x.done = true → x.ents = [e] → e.seq < 1024 →
      e.lost = true → sqState s.dev e.seq ≠ 5 → s.dev.kv.evictLater = [] → s.dev.kv.arrivals = [] → s.dev.err.acts = [] → Does (.stepEnd c) s fun d =>
      d.kv.steps = [] ∧ (e.seq, e.by_) ∈ d.kv.waiting)

/-- The commands of SEQ_CMD (R178, R179, R182, R183, R184, R188). SHARE_PREFIX of two sequences outside a step gives the destination the prefix
length; a prefix beyond the source's length is refused with code 3, different LAYERS with 2, a FREE entry with 1. CANCEL frees a sequence outside a
step and leaves one inside a step ENDING. EVICT is refused in hardware mode; in host mode an idle ACTIVE sequence returns to RECOMPUTE with no
position left. EXH_DONE ends the wait of the coves, and a wait that outlasts KVF_HOST_LIM ends with KVF_HOST_TIMEOUT. -/
def Obligations.SequenceCommandsReportTheirResult : Prop :=
  ∀ (s : State) (q : Fin 1024), Awake s →
    (∀ (src : Fin 1024), inStep s.dev q = false → inStep s.dev src = false → sqState s.dev q ≠ 0 → sqState s.dev src ≠ 0 → q ≠ src → rf s.dev
      Reg.SEQ_CMD_ARG 0 16 ≤ sqLen s.dev src → geometryDiffers s.dev q src = false → (∀ lp ∈ prefixPages s.dev src (rf s.dev Reg.SEQ_CMD_ARG 0 16), ∀
      f, plFrame s.dev src lp.1 lp.2 = some f → frRef s.dev f ≠ 1023) → Does (.sharePrefix q src) s fun d => sqLen d q = rf s.dev Reg.SEQ_CMD_ARG 0 16
      ∧ rf d Reg.SEQ_CMD_RESULT 0 3 = 0) ∧
    (∀ (src : Fin 1024), inStep s.dev q = false → inStep s.dev src = false → sqState s.dev q ≠ 0 → sqState s.dev src ≠ 0 → q ≠ src → sqLen s.dev src <
      rf s.dev Reg.SEQ_CMD_ARG 0 16 → Does (.sharePrefix q src) s fun d => rf d Reg.SEQ_CMD_RESULT 0 3 = 3 ∧ SameRegs [Reg.SEQ_CMD_RESULT] s.dev d ∧
      d.kv = s.dev.kv ∧ SameMem s.dev d) ∧
    (∀ (src : Fin 1024), inStep s.dev q = false → inStep s.dev src = false → sqState s.dev q ≠ 0 → sqState s.dev src ≠ 0 → q ≠ src → rf s.dev
      Reg.SEQ_CMD_ARG 0 16 ≤ sqLen s.dev src → geometryDiffers s.dev q src = true → Does (.sharePrefix q src) s fun d => rf d Reg.SEQ_CMD_RESULT 0 3 =
      2 ∧ SameRegs [Reg.SEQ_CMD_RESULT] s.dev d ∧ d.kv = s.dev.kv ∧ SameMem s.dev d) ∧
    (∀ (src : Fin 1024), (inStep s.dev q = true ∨ inStep s.dev src = true ∨ sqState s.dev q = 0 ∨ sqState s.dev src = 0 ∨ q = src) → Does
      (.sharePrefix q src) s fun d => rf d Reg.SEQ_CMD_RESULT 0 3 = 1 ∧ SameRegs [Reg.SEQ_CMD_RESULT] s.dev d ∧ d.kv = s.dev.kv ∧ SameMem s.dev d) ∧
    (sqState s.dev q ≠ 0 → sqState s.dev q ≠ 5 → inStep s.dev q = false → Does (.cancel q) s fun d => sqState d q = 0 ∧ rf d Reg.SEQ_CMD_RESULT 0 3 =
      0) ∧
    (sqState s.dev q ≠ 0 → sqState s.dev q ≠ 5 → inStep s.dev q = true → Does (.cancel q) s fun d => sqState d q = 5 ∧ rf d Reg.SEQ_CMD_RESULT 0 3 =
      0) ∧
    ((sqState s.dev q = 0 ∨ sqState s.dev q = 5) → Does (.cancel q) s fun d => rf d Reg.SEQ_CMD_RESULT 0 3 = 1 ∧ SameRegs [Reg.SEQ_CMD_RESULT] s.dev d
      ∧ d.kv = s.dev.kv ∧ SameMem s.dev d) ∧
    (tst s.dev Reg.KVF_CTRL 0 = false → waitsHost s.dev (sqCove s.dev q) = false → Does (.evict q) s fun d => rf d Reg.SEQ_CMD_RESULT 0 3 = 4 ∧
      SameRegs [Reg.SEQ_CMD_RESULT] s.dev d ∧ d.kv = s.dev.kv ∧ SameMem s.dev d) ∧
    (tst s.dev Reg.KVF_CTRL 0 = true → sqState s.dev q = 2 → waitsHost s.dev (sqCove s.dev q) = false → inStep s.dev q = false → Does (.evict q) s fun
      d => sqState d q = 3 ∧ sqLen d q = 0 ∧ rf d Reg.SEQ_CMD_RESULT 0 3 = 0) ∧
    (tst s.dev Reg.KVF_CTRL 0 = true → sqState s.dev q = 4 → waitsHost s.dev (sqCove s.dev q) = true → Does (.evict q) s fun d => rf d
      Reg.SEQ_CMD_RESULT 0 3 = 0 ∧ q.val ∈ d.kv.victims ∧ SameRegs [Reg.SEQ_CMD_RESULT] s.dev d) ∧
    (∀ (c : Nat), tst s.dev Reg.KVF_CTRL 0 = true → c < 8 → waitsHost s.dev c = true → s.dev.kv.victims = [] → Does .exhDone s fun d => rf d
      Reg.SEQ_CMD_RESULT 0 3 = 0 ∧ (List.range 8).any (waitsHost d) = false ∧ tst d Reg.KVF_STATUS 3 = false ∧ SameMem s.dev d) ∧
    (tst s.dev Reg.KVF_CTRL 0 = true → (List.range 8).any (waitsHost s.dev) = false → Does .exhDone s fun d => rf d Reg.SEQ_CMD_RESULT 0 3 = 1 ∧
      SameRegs [Reg.SEQ_CMD_RESULT] s.dev d ∧ d.kv = s.dev.kv ∧ SameMem s.dev d) ∧
    (∀ (c : Fin 8) (t : Nat), mget (fun _ => none) s.dev.kv.exhAt c.val = some t → t + rf s.dev Reg.KVF_HOST_LIM 0 16 * 1000000 < 2 ^ 64 → Does
      (.kvfHostTimeout c) s fun d => waitsHost d c = false ∧ tst d Reg.KVF_EVENT 3 = true ∧ t + rf s.dev Reg.KVF_HOST_LIM 0 16 * 1000000 ≤ now d)

/-! ## Coves and scheduling (08) -/

/-- Control of coves (R13, R191, R215, R439). START and STOP are held for the next tide mark and do nothing before it. The configuration of a cove
outside LOADING, RUN and STOPPING takes a written value: SLICE held to 500..20,000 and BUDGET_PCT to 10..100, a save area's 20 bits, the core set and
the package address as pairs, the latter read as the 4 KiB multiple at or below it (log entry 57). In the other states the registers stay and
SCH_CFG_REJECT is set. -/
def Obligations.CoveCommandsWaitForTheMark : Prop :=
  ∀ (s : State) (c : Fin 8) (r : Req) (v : Word), Awake s →
    (Does (.schStart c) s fun d => d = { s.dev with held := s.dev.held ++ [.cove c 1] }) ∧
    (Does (.schStop c) s fun d => d = { s.dev with held := s.dev.held ++ [.cove c 2] }) ∧
    (Reaches s.dev r (Reg.SCH_COVE_CFG c) → coveState s.dev c ∉ [1, 2, 3] → Does (.schCoveConfigWrite r c 0 v) s fun d => rf d (Reg.SCH_COVE_CFG c) 4
      15 = clampN (bits v.toNat 4 15) 500 20000 ∧ rf d (Reg.SCH_COVE_CFG c) 19 7 = clampN (bits v.toNat 19 7) 10 100 ∧ rf d (Reg.SCH_COVE_CFG c) 0 4 =
      bits v.toNat 0 4 ∧ SameRegs [Reg.SCH_COVE_CFG c, Reg.PCI_STATUS] s.dev d ∧ SameMem s.dev d) ∧
    (∀ (i : Fin 7), 5 ≤ i.val → Reaches s.dev r (coveCfgReg c i).1 → coveState s.dev c ∉ [1, 2, 3] → Does (.schCoveConfigWrite r c i v) s fun d => rdN
      d (coveCfgReg c i).1 = v.toNat % 2 ^ 20 ∧ SameRegs [(coveCfgReg c i).1, Reg.PCI_STATUS] s.dev d ∧ SameMem s.dev d) ∧
    (∀ (lo : Word), Reaches s.dev r (Reg.SCH_COVE_CORES_HI c) → (latchOf s.dev r (Reg.SCH_COVE_CORES_LO c)).wr = some lo → coveState s.dev c ∉ [1, 2,
      3] → Does (.schCoveConfigWrite r c 2 v) s fun d => rdN d (Reg.SCH_COVE_CORES_HI c) = v.toNat ∧ rdN d (Reg.SCH_COVE_CORES_LO c) = lo.toNat ∧
      SameMem s.dev d) ∧
    (∀ (lo : Word), Reaches s.dev r (Reg.SCH_COVE_WP_HI c) → (latchOf s.dev r (Reg.SCH_COVE_WP_LO c)).wr = some lo → coveState s.dev c ∉ [1, 2, 3] →
      Does (.schCoveConfigWrite r c 4 v) s fun d => rdN d (Reg.SCH_COVE_WP_HI c) = v.toNat % 2 ^ 8 ∧ rdN d (Reg.SCH_COVE_WP_LO c) = lo.toNat ∧ wpOf d
      c = (v.toNat % 2 ^ 8 * 2 ^ 32 + lo.toNat) / 4096 * 4096 ∧ SameMem s.dev d) ∧
    (∀ (i : Fin 7), (i.val = 0 ∨ 5 ≤ i.val) → Reaches s.dev r (coveCfgReg c i).1 → coveState s.dev c ∈ [1, 2, 3] → Does (.schCoveConfigWrite r c i v)
      s fun d => tst d Reg.SCH_EVENT 4 = true ∧ SameRegs [Reg.SCH_EVENT, Reg.PCI_STATUS] s.dev d ∧ SameMem s.dev d)

/-- START (R191, R193, R424). In LOADING, RUN and STOPPING a START does nothing, nor does that of a sequence cove while the KV configuration is
invalid. A package that fails the check of R193 puts the cove into FAULT with SCH_WP_INVALID. A package that passes, with an eligible core for every
stage, takes the cove to LOADING, or to HOLD when it may not run with a lost core and has one. When its cores run and each has a free block of table
entries, the cove enters RUN with no job in progress; without one it faults. -/
def Obligations.CoveStartChecksThePackage : Prop :=
  ∀ (s : Dev) (c : Nat), c < 8 →
    (coveState s c ∈ [1, 2, 3] → coveStart c s = s) ∧
    (coveState s c ∉ [1, 2, 3] → kvLets s c = false → coveStart c s = s) ∧
    (coveState s c ∉ [1, 2, 3] → kvLets s c = true → wpOk s c = false → coveState (coveStart c s) c = 6 ∧ tst (coveStart c s) Reg.SCH_EVENT 0 = true ∧ SameMem s (coveStart c s)) ∧
    (coveState s c ∉ [1, 2, 3] → kvLets s c = true → wpOk s c = true → (∀ i < nStages s c, stageKind s c i < 3 ∧ ∃ k ∈ sound s c, kindFits (stageKind s c i) k = true) →
      coveState (coveStart c s) c = (if tst s (Reg.SCH_COVE_CFG c) 2 = true ∧ (∃ k ∈ coresOf s c, coreFailed s k = true) then 5 else 1) ∧
        (coveOf (coveStart c s) c).elig = sound s c ∧ SameMem s (coveStart c s)) ∧
    ((isSeqCove s c = true → tst s Reg.KVF_STATUS 0 = true) → (∀ k ∈ coresOf s c, (freeBlock s k c (wpField s c 12 1)).isSome = true) → wpField s c 12 1 ≤ 64 → coveState (coveEnterRun c s) c = 2 ∧ runOf (coveEnterRun c s) c = none ∧ SameMem s (coveEnterRun c s)) ∧
    ((isSeqCove s c = true → tst s Reg.KVF_STATUS 0 = true) → (∃ k ∈ coresOf s c, freeBlock s k c (wpField s c 12 1) = none) → coveState (coveEnterRun c s) c = 6 ∧ SameMem s (coveEnterRun c s))

/-- Jobs and tasks (R197, R199, R200, R201, R206). A running cove without a job starts the first queued one whose batch is complete, with its shape
vector and job number. The next task of the stage goes to the first eligible free core with its grid, and while none is free it waits. A task that has
run its commands ends and frees its core; a contained one counts and its slots are marked. When every task of a stage has ended the exports join the
shape vector and the next stage begins; after the last the job is done, it leaves, and the job number advances. -/
def Obligations.JobsRunStageByStage : Prop :=
  ∀ (s : State) (c : Fin 8) (r : Run), Awake s →
    (∀ (j : Job) (js : List Job), (coveOf s.dev c).queue = j :: js → (coveState s.dev c = 2 ∨ coveState s.dev c = 3 ∧ isSeqCove s.dev c = true) →
      runOf s.dev c = none → j.copies = [] → Does (.jobStart c) s fun d => (coveOf d c).queue = js ∧ runOf d c = some
      { job := j, num := rdN s.dev (Reg.SCH_COVE_JOB c), shapes := if isSeqCove s.dev c then [0, j.slots, j.rows] else [j.slots] } ∧ rf d
      (Reg.SCH_COVE_STATE c) 10 6 = 0 ∧ tst d (Reg.SCH_COVE_STATE c) 16 = true ∧ SameRegs [Reg.SCH_COVE_STATE c] s.dev d ∧ SameMem s.dev d) ∧
    (∀ (k : Nat), runOf s.dev c = some r → r.done = false → serves s.dev c = true → r.next < stageTasks s.dev c r.stage → (∀ j ∈ coresOf s.dev c,
      shared s.dev j = false ∧ (coreOf s.dev j).susp = []) → (eligible s.dev c (stageKind s.dev c r.stage)).find? (coreFree s.dev c r.stage) = some k
      → Does (.taskPlace c) s fun d => (coreOf d k).task.map (fun t => (t.cove, t.job, t.stage, t.idx, t.pos)) = some (c.val, r.num, r.stage, r.next,
      0) ∧ runOf d c = some { r with next := r.next + 1 } ∧ bits (rdN d (Reg.LPD_GRID k)) 14 6 = r.next / (gridOf s.dev c r.stage (nElig s.dev c
      r.stage)).2.1 ∧ rdN d (Reg.LPD_SHAPE k 0) = r.shapes.getD 0 0 % 2 ^ 32 ∧ SameMem s.dev d) ∧
    (runOf s.dev c = some r → (∀ j ∈ coresOf s.dev c, shared s.dev j = false ∧ (coreOf s.dev j).susp = []) → (eligible s.dev c (stageKind s.dev c
      r.stage)).find? (coreFree s.dev c r.stage) = none → Does (.taskPlace c) s fun d => runOf d c = some r ∧ SameMem s.dev d) ∧
    (∀ (k : Fin 64) (t : Task), (coreOf s.dev k).task = some t → t.cove < 8 → t.contained = false → t.cmdAt = none → cmdCount s.dev t.cove t.stage ≤
      t.pos → runOf s.dev t.cove = some r → Does (.taskEnd k) s fun d => (coreOf d k).task = none ∧ (runOf d t.cove).map (fun x => (x.ended.map fun y
      => (y.idx, y.contained), x.bad)) = some (r.ended.map (fun y => (y.idx, y.contained)) ++ [(t.idx, false)], r.bad) ∧ SameMem s.dev d) ∧
    (∀ (k : Fin 64) (t : Task), (coreOf s.dev k).task = some t → t.cove < 8 → t.contained = true → runOf s.dev t.cove = some r → (∀ x ∈ (coreOf s.dev
      k).turn, x < 8) → Does (.taskEnd k) s fun d => (coreOf d k).task = none ∧ (runOf d t.cove).map (fun x => (x.ended.map fun y => (y.idx,
      y.contained), x.bad)) = some (r.ended.map (fun y => (y.idx, y.contained)) ++ [(t.idx, true)], r.bad ++ [(t.slot0, t.slots)]) ∧ rdN d
      (Reg.SCH_COVE_CONTAIN_CNT t.cove) = (rdN s.dev (Reg.SCH_COVE_CONTAIN_CNT t.cove) + 1) % 2 ^ 32) ∧
    (runOf s.dev c = some r → r.done = false → r.ended.length = stageTasks s.dev c r.stage → r.stage + 1 < nStages s.dev c → Does (.stageEnd c) s fun
      d => (runOf d c).map (fun x => (x.stage, x.shapes, x.ended.length, x.next)) = some (r.stage + 1, exportShapes r (stageExport s.dev c r.stage),
      0, 0) ∧ rf d (Reg.SCH_COVE_STATE c) 10 6 = (r.stage + 1) % 64 ∧ SameMem s.dev d) ∧
    (runOf s.dev c = some r → r.done = false → r.ended.length = stageTasks s.dev c r.stage → nStages s.dev c ≤ r.stage + 1 → Does (.stageEnd c) s fun
      d => (runOf d c).map (fun x => (x.done, x.shapes)) = some (true, exportShapes r (stageExport s.dev c r.stage)) ∧ d.regs = s.dev.regs ∧ SameMem
      s.dev d) ∧
    (ebbState s.dev ≠ 1 → runOf s.dev c = some r → r.done = true → Does (.jobEnd c) s fun d => runOf d c = none ∧ rdN d (Reg.SCH_COVE_JOB c) = (rdN
      s.dev (Reg.SCH_COVE_JOB c) + 1) % 2 ^ 32 ∧ tst d (Reg.SCH_COVE_STATE c) 16 = false ∧ coveState d c = (if coveState s.dev c = 3 then 4 else
      coveState s.dev c) ∧ (isSeqCove s.dev c = true → ∀ x ∈ d.kv.steps, x.cove = c.val → x.started = true → x.done = true))

/-- Commands of a core beside the nests (R195, R198, R201, R202, R203). COPY moves its bytes and ends with status 0. EMIT of detections, counts, masks
or events hands the buffer's entries to the job in progress; EMIT of text hands tokens to the cove's step. A command whose work is done completes: its
log entry names core, record, status and flags, and the task stands at the next record. A command still running SCH_CMD_LIM after its start ends its
task contained with SCH_CMD_TIMEOUT. -/
def Obligations.CopiesEmissionsAndCompletions : Prop :=
  ∀ (s : State) (k : Fin 64) (t : Task) (c : Cmd), Awake s →
    (AtCommand s.dev k t c → c.type = 3 → wordRead k c.src c.arg s.dev = none → wordReach k c.dst c.arg s.dev = none → Does (.copy k) s fun d =>
      SameMem (copyBytes k c.src c.dst c.arg s.dev) d ∧ (coreOf d k).task.map (fun x => (x.ran, x.status)) = some (true, 0)) ∧
    (∀ (r : Run), AtCommand s.dev k t c → c.type = 4 → c.arg % 16 = 1 → runOf s.dev t.cove = some r → wordRead k c.src 32 s.dev = none → wordRead k
      c.src (32 + sumN ((entriesFrom (spaceAt k (addrWord c.src).1) s.dev 1 (rdLE (spaceAt k (addrWord c.src).1) s.dev (addrWord c.src).2 2)
      ((addrWord c.src).2 + 32)).map (·.length))) s.dev = none → Does (.emitDetect k) s fun d => (runOf d t.cove).map (·.emits) = some (r.emits ++
      (entriesFrom (spaceAt k (addrWord c.src).1) s.dev 1 (rdLE (spaceAt k (addrWord c.src).1) s.dev (addrWord c.src).2 2) ((addrWord c.src).2 +
      32)).map fun b => ⟨1, entrySlot 1 b, b⟩) ∧ (coreOf d k).task.map (fun x => (x.ran, x.status)) = some (true, 0) ∧ SameMem s.dev d) ∧
    (∀ (r : Run), AtCommand s.dev k t c → c.type = 4 → c.arg % 16 = 2 → runOf s.dev t.cove = some r → wordRead k c.src 32 s.dev = none → wordRead k
      c.src (32 + sumN ((entriesFrom (spaceAt k (addrWord c.src).1) s.dev 2 (rdLE (spaceAt k (addrWord c.src).1) s.dev (addrWord c.src).2 2)
      ((addrWord c.src).2 + 32)).map (·.length))) s.dev = none → Does (.emitCount k) s fun d => (runOf d t.cove).map (·.emits) = some (r.emits ++
      (entriesFrom (spaceAt k (addrWord c.src).1) s.dev 2 (rdLE (spaceAt k (addrWord c.src).1) s.dev (addrWord c.src).2 2) ((addrWord c.src).2 +
      32)).map fun b => ⟨2, entrySlot 2 b, b⟩) ∧ (coreOf d k).task.map (fun x => (x.ran, x.status)) = some (true, 0) ∧ SameMem s.dev d) ∧
    (∀ (r : Run), AtCommand s.dev k t c → c.type = 4 → c.arg % 16 = 3 → runOf s.dev t.cove = some r → wordRead k c.src 32 s.dev = none → wordRead k
      c.src (32 + sumN ((entriesFrom (spaceAt k (addrWord c.src).1) s.dev 3 (rdLE (spaceAt k (addrWord c.src).1) s.dev (addrWord c.src).2 2)
      ((addrWord c.src).2 + 32)).map (·.length))) s.dev = none → Does (.emitMask k) s fun d => (runOf d t.cove).map (·.emits) = some (r.emits ++
      (entriesFrom (spaceAt k (addrWord c.src).1) s.dev 3 (rdLE (spaceAt k (addrWord c.src).1) s.dev (addrWord c.src).2 2) ((addrWord c.src).2 +
      32)).map fun b => ⟨3, entrySlot 3 b, b⟩) ∧ (coreOf d k).task.map (fun x => (x.ran, x.status)) = some (true, 0) ∧ SameMem s.dev d) ∧
    (∀ (r : Run), AtCommand s.dev k t c → c.type = 4 → c.arg % 16 = 4 → runOf s.dev t.cove = some r → wordRead k c.src 32 s.dev = none → wordRead k
      c.src (32 + sumN ((entriesFrom (spaceAt k (addrWord c.src).1) s.dev 4 (rdLE (spaceAt k (addrWord c.src).1) s.dev (addrWord c.src).2 2)
      ((addrWord c.src).2 + 32)).map (·.length))) s.dev = none → Does (.emitEvent k) s fun d => (runOf d t.cove).map (·.emits) = some (r.emits ++
      (entriesFrom (spaceAt k (addrWord c.src).1) s.dev 4 (rdLE (spaceAt k (addrWord c.src).1) s.dev (addrWord c.src).2 2) ((addrWord c.src).2 +
      32)).map fun b => ⟨4, entrySlot 4 b, b⟩) ∧ (coreOf d k).task.map (fun x => (x.ran, x.status)) = some (true, 0) ∧ SameMem s.dev d) ∧
    (∀ (x : Step), AtCommand s.dev k t c → c.type = 4 → c.arg % 16 = 5 → s.dev.kv.steps = [x] → x.cove = t.cove → x.started = true → wordRead k c.src
      32 s.dev = none → wordRead k c.src (32 + sumN ((entriesFrom (spaceAt k (addrWord c.src).1) s.dev 5 (rdLE (spaceAt k (addrWord c.src).1) s.dev
      (addrWord c.src).2 2) ((addrWord c.src).2 + 32)).map (·.length))) s.dev = none → Does (.emitText k) s fun d => (d.kv.steps.map (·.toks)) =
      [x.toks ++ (entriesFrom (spaceAt k (addrWord c.src).1) s.dev 5 (rdLE (spaceAt k (addrWord c.src).1) s.dev (addrWord c.src).2 2) ((addrWord
      c.src).2 + 32)).map fun b => (leNat (b.take 2) % 1024, bitOf (leNat (b.take 2)) 10, leNat (b.drop 4))] ∧ (coreOf d k).task.map (fun x => (x.ran,
      x.status)) = some (true, 0) ∧ SameMem s.dev d) ∧
    (∀ (cycles : Nat) (y : Task) (u : Dev), (coreOf s.dev k).task = some y → y.ran = true → y.cmdAt.isSome = true → y.contained = false → u = withNest
      k (fun cove g => drainTiles k cove g) s.dev → (coreOf u k).task = some t → t.ran = true → t.cmdAt.isSome = true → logAddr u t.cove + 16 ≤
      dramBytes → Does (.commandComplete k cycles) s fun d => ((coreOf d k).task.map (·.pos) = some (t.pos + 1) ∨ ∃ x ∈ (coreOf d k).susp, x.1.pos =
      t.pos + 1) ∧ rdLE .dram d (logAddr u t.cove) 4 = k.val + cmdIndex u t % 2 ^ 16 * 2 ^ 6 + t.status % 8 * 2 ^ 22 + t.flags % 16 * 2 ^ 25 ∧ (coveOf
      d t.cove).logPos = ((coveOf u t.cove).logPos + 1) % 4096) ∧
    (∀ (a : Nat), (coreOf s.dev k).task = some t → t.cmdAt = some a → t.contained = false → a + rf s.dev Reg.SCH_CMD_LIM 0 10 * 1000000 < 2 ^ 64 →
      Does (.schCmdTimeout k) s fun d => tst d Reg.SCH_EVENT 3 = true ∧ rdN d Reg.SCH_FAULT_INFO = schInfo t.cove k t.stage (cmdIndex s.dev t) % 2 ^
      32 ∧ a + rf s.dev Reg.SCH_CMD_LIM 0 10 * 1000000 ≤ now d ∧ Contained k s.dev d) ∧
    (((coreOf s.dev k).task.bind (·.cmdAt)) = none → Does (.schCmdTimeout k) s fun d => d = s.dev)

/-- Turns and switches (R207, R208, R209). At the end of a turn's length a command in progress goes on, the turn being over; at a boundary the task is
suspended when another cove has work there, and is being saved. A save that ends has written the live scratch bytes to the core's save slot. A restore
that ends has brought them back, with the task's grid, and the task resumes. -/
def Obligations.SharedCoresTakeTurns : Prop :=
  ∀ (s : State) (k : Fin 64) (t : Task), Awake s →
    (∀ (e : Nat), (coreOf s.dev k).turnEnd = some e → e < 2 ^ 64 → (coreOf s.dev k).task = some t → t.cmdAt.isSome = true → Does (.sliceExpiry k) s
      fun d => (coreOf d k).expired = true ∧ (coreOf d k).task = some t ∧ e ≤ now d ∧ SameMem s.dev d) ∧
    (∀ (e : Nat) (c : Nat) (x : Nat), (coreOf s.dev k).turnEnd = some e → (coreOf s.dev k).task = some t → t.cmdAt = none → allRun s.dev t = false →
      (coreOf s.dev k).saving = false → (coreOf s.dev k).restoring = false → (coreOf s.dev k).turn = some c → c < 8 → x < 8 → x ≠ c → inCove s.dev x k
      = true → couldPlace s.dev k x = true → Does (.sliceExpiry k) s fun d => (coreOf d k).saving = true ∧ (coreOf d k).task = none ∧ (coreOf d
      k).susp.length = (coreOf s.dev k).susp.length + 1 ∧ SameMem s.dev d) ∧
    ((coreOf s.dev k).turnEnd = none → Does (.sliceExpiry k) s fun d => d = s.dev) ∧
    (∀ (x : Ctx), (coreOf s.dev k).saving = true → (coreOf s.dev k).susp.getLast? = some (t, x) → saveSlot s.dev t.cove k + t.live * 4096 ≤ dramBytes
      → Does (.switchSaveDone k) s fun d => (coreOf d k).saving = false ∧ rdBytes .dram d (saveSlot s.dev t.cove k) (t.live * 4096) = rdBytes (.scr k)
      s.dev 0 (t.live * 4096)) ∧
    (∀ (x : Ctx), (coreOf s.dev k).restoring = true → (coreOf s.dev k).susp.find? (fun y => some y.1.cove == (coreOf s.dev k).turn) = some (t, x) →
      t.staged = [] → t.live ≤ 768 → Does (.switchRestoreDone k) s fun d => (coreOf d k).restoring = false ∧ (coreOf d k).task = some t ∧ rdN d
      (Reg.LPD_GRID k) = t.grid % 2 ^ 32 ∧ rdBytes (.scr k) d 0 (t.live * 4096) = rdBytes .dram s.dev (saveSlot s.dev t.cove k) (t.live * 4096)) ∧
    ((coreOf s.dev k).restoring = true → (coreOf s.dev k).susp = [] → Does (.switchRestoreDone k) s fun d => (coreOf d k).restoring = false ∧ (coreOf
      d k).task = (coreOf s.dev k).task ∧ SameMem s.dev d)

/-! ## Ingest (10) -/

/-- Ethernet ports (R248, R250, R251, R252, R253). A frame on a port that runs is counted by its first failing row of Table 10-2: a bad FCS or length
alone, then address, layer 3 and checksum beside the received count. An accepted frame that no row of Table 10-3 takes is counted; one that the
control processor, the time unit or a stream takes is handed to it. A link that goes down reports ING_LINK_DOWN; one that comes up on an enabled port
whose domain runs shows its mode and FEC. -/
def Obligations.PortsReceiveFramesAndTrain : Prop :=
  ∀ (s : State) (p : Fin 4) (b : List Byte) (ok : Bool), Awake s →
    (portRuns s.dev p = true → (ok = false ∨ b.length < 64 ∨ 9022 < b.length) → Does (.ethFrameRx p b ok) s fun d => rdN d (Reg.ING_PORT_FCS_CNT p) =
      (rdN s.dev (Reg.ING_PORT_FCS_CNT p) + 1) % 2 ^ 32 ∧ SameRegs [Reg.ING_PORT_FCS_CNT p] s.dev d ∧ d.ing = s.dev.ing ∧ d.out = s.dev.out) ∧
    (portRuns s.dev p = false → Does (.ethFrameRx p b ok) s fun d => d = s.dev) ∧
    (portRuns s.dev p = true → 64 ≤ b.length → b.length ≤ 9022 → acceptFrame s.dev p (b.take (b.length - 4)) = .inr .l3 → Does (.ethFrameRx p b true)
      s fun d => rdN d (Reg.ING_PORT_RX_CNT p) = (rdN s.dev (Reg.ING_PORT_RX_CNT p) + 1) % 2 ^ 32 ∧ rdN d (Reg.ING_PORT_L3_DROP_CNT p) = (rdN s.dev
      (Reg.ING_PORT_L3_DROP_CNT p) + 1) % 2 ^ 32 ∧ SameRegs [Reg.ING_PORT_RX_CNT p, Reg.ING_PORT_L3_DROP_CNT p] s.dev d ∧ d.ing = s.dev.ing) ∧
    (portRuns s.dev p = true → 64 ≤ b.length → b.length ≤ 9022 → acceptFrame s.dev p (b.take (b.length - 4)) = .inr .csum → Does (.ethFrameRx p b
      true) s fun d => rdN d (Reg.ING_PORT_RX_CNT p) = (rdN s.dev (Reg.ING_PORT_RX_CNT p) + 1) % 2 ^ 32 ∧ rdN d (Reg.ING_PORT_CSUM_CNT p) = (rdN s.dev
      (Reg.ING_PORT_CSUM_CNT p) + 1) % 2 ^ 32 ∧ SameRegs [Reg.ING_PORT_RX_CNT p, Reg.ING_PORT_CSUM_CNT p] s.dev d ∧ d.ing = s.dev.ing) ∧
    (portRuns s.dev p = true → 64 ≤ b.length → b.length ≤ 9022 → (acceptFrame s.dev p (b.take (b.length - 4)) = .inr .nomatch ∨ ∃ a, acceptFrame s.dev
      p (b.take (b.length - 4)) = .inl a ∧ destOf s.dev p a = none) → Does (.ethFrameRx p b true) s fun d => rdN d (Reg.ING_PORT_NOMATCH_CNT p) = (rdN
      s.dev (Reg.ING_PORT_NOMATCH_CNT p) + 1) % 2 ^ 32 ∧ SameRegs [Reg.ING_PORT_RX_CNT p, Reg.ING_PORT_NOMATCH_CNT p] s.dev d ∧ d.ing = s.dev.ing) ∧
    (∀ (a : Accepted), portRuns s.dev p = true → 64 ≤ b.length → b.length ≤ 9022 → acceptFrame s.dev p (b.take (b.length - 4)) = .inl a → destOf s.dev
      p a = some .ziltur → (mget (fun _ => (0, 0)) s.dev.ing.ctl p.val).2 < 10000 → Does (.ethFrameRx p b true) s fun d => OutMsg.rx p .ziltur ∈ d.out
      ∧ SameMem s.dev d) ∧
    (∀ (a : Accepted) (st : Nat), portRuns s.dev p = true → 64 ≤ b.length → b.length ≤ 9022 → acceptFrame s.dev p (b.take (b.length - 4)) = .inl a →
      destOf s.dev p a = some (.media st) → Does (.ethFrameRx p b true) s fun d => OutMsg.rx p (.media st) ∈ d.out) ∧
    (tst s.dev (Reg.ING_PORT_STATUS p) 0 = true → Does (.ethLinkDown p) s fun d => rf d (Reg.ING_PORT_STATUS p) 0 2 = 0 ∧ tst d Reg.ING_EVENT 5 = true
      ∧ d.ing = s.dev.ing ∧ SameMem s.dev d) ∧
    (tst s.dev (Reg.ING_PORT_CFG p) 0 = true → domRuns s.dev (92 + p) = true → ebbState s.dev ≠ 2 → Does (.ethLinkUp p) s fun d => rdN d
      (Reg.ING_PORT_STATUS p) = 1 + 2 * b2n (decide (rf s.dev (Reg.ING_PORT_CFG p) 1 2 < 2) && rf s.dev (Reg.ING_PORT_CFG p) 3 2 != 0) + 4 * rf s.dev
      (Reg.ING_PORT_CFG p) 1 2 ∧ SameRegs [Reg.ING_PORT_STATUS p, Reg.ING_PORT_TX_CNT p] s.dev d ∧ SameMem s.dev d)

/-- Media of a stream (R253, R255, R256, R257, R262, R265). A packet that matches no valid stream counts at its port; one of another version or
payload type, or of another source, counts as dropped, the last with ING_SSRC_CONFLICT where the source was learned. The first packet of a receiver is
stored in the stream's region and begins a unit. The head of a jitter buffer is released when its time has come, a placeholder counted. A stream
without a media packet for ING_SILENT_LIM goes SILENT with ING_STREAM_SILENT. RTCP (R258, R261, R266). A sender report of a stream's source gives the
receiver its RTP-to-PTP offset and shows it, and ends WAIT_SR; a report of another source changes nothing. A BYE ends the session with
ING_SESSION_LOST. RR_INTERVAL after the last one a report with seven fields goes to the source of a receiver past its probation, and counts at the
port. -/
def Obligations.MediaAndReportsSteerTheReceiver : Prop :=
  ∀ (s : State) (st : Fin 512) (p : RtpPkt), Awake s →
    (portRuns s.dev (stPort s.dev st) = true → (stValid s.dev st = false ∨ ingMatches s.dev = false) → Does (.rtpMediaPacket st p) s fun d => rdN d
      (Reg.ING_PORT_NOMATCH_CNT (stPort s.dev st)) = (rdN s.dev (Reg.ING_PORT_NOMATCH_CNT (stPort s.dev st)) + 1) % 2 ^ 32 ∧ SameRegs
      [Reg.ING_PORT_NOMATCH_CNT (stPort s.dev st)] s.dev d ∧ d.ing = s.dev.ing ∧ SameMem s.dev d) ∧
    (portRuns s.dev (stPort s.dev st) = true → stValid s.dev st = true → ingMatches s.dev = true → (p.ver ≠ 2 ∨ p.pt ≠ stF s.dev st 0 16 7) → Does
      (.rtpMediaPacket st p) s fun d => rdN d (Reg.ING_S_DROP_CNT st) = (rdN s.dev (Reg.ING_S_DROP_CNT st) + 1) % 2 ^ 32 ∧ (strm d st).pkts = (strm
      s.dev st).pkts ∧ SameMem s.dev d) ∧
    (∀ (x : Nat), portRuns s.dev (stPort s.dev st) = true → stValid s.dev st = true → ingMatches s.dev = true → p.ver = 2 → p.pt = stF s.dev st 0 16 7
      → ssrcOf s.dev st = some x → x ≠ p.ssrc % 2 ^ 32 → Does (.rtpMediaPacket st p) s fun d => rdN d (Reg.ING_S_DROP_CNT st) = (rdN s.dev
      (Reg.ING_S_DROP_CNT st) + 1) % 2 ^ 32 ∧ (stF s.dev st 2 0 32 = 0 → (strm s.dev st).hold = false → sState d st = 5 ∧ tst d Reg.ING_EVENT 2 =
      true) ∧ (strm d st).pkts = (strm s.dev st).pkts ∧ SameMem s.dev d) ∧
    (∀ (oc : Bool × Bool), portRuns s.dev (stPort s.dev st) = true → stValid s.dev st = true → ingMatches s.dev = true → p.ver = 2 → p.pt = stF s.dev
      st 0 16 7 → ssrcOf s.dev st = some (p.ssrc % 2 ^ 32) → strm s.dev st = {} → classify (stF s.dev st 0 8 2) p = some oc → stF s.dev st 0 14 1 = 0
      → p.payload.length ≤ jbBytes s.dev st → jbBase s.dev st + jbBytes s.dev st ≤ dramBytes → dramReach s.dev (stPort s.dev st / 2) (jbBase s.dev st)
      (jbBytes s.dev st) = none → Does (.rtpMediaPacket st p) s fun d => ∃ k, (strm d st).pkts = [k] ∧ k.len = p.payload.length ∧ k.addr + k.len ≤
      jbBytes s.dev st ∧ rdBytes .dram d (jbBase s.dev st + k.addr) k.len = p.payload ∧ (strm d st).units.length = 1 ∧ rdN d (Reg.ING_S_RX_CNT st) =
      (rdN s.dev (Reg.ING_S_RX_CNT st) + 1) % 2 ^ 32) ∧
    (∀ (u : JUnit) (ps : List JPkt), jHead s.dev st = some (.unit u ps) → releaseTime s.dev st (.unit u ps) < 2 ^ 64 → Does (.jbRelease st) s fun d =>
      releaseTime s.dev st (.unit u ps) ≤ now d ∧ (strm d st).lastTs = u.ts ∧ (∀ x ∈ (strm d st).pkts, x.ts ≠ u.ts) ∧ rdN d (Reg.ING_S_AU_CNT st) =
      (rdN s.dev (Reg.ING_S_AU_CNT st) + b2n (unitWhole (strm s.dev st) ps)) % 2 ^ 32) ∧
    (∀ (u : JUnit) (ts : Int), jHead s.dev st = some (.ph ts u) → releaseTime s.dev st (.ph ts u) < 2 ^ 64 → Does (.jbRelease st) s fun d =>
      releaseTime s.dev st (.ph ts u) ≤ now d ∧ rdN d (Reg.ING_S_PH_CNT st) = (rdN s.dev (Reg.ING_S_PH_CNT st) + 1) % 2 ^ 32 ∧ (strm d st).pkts =
      (strm s.dev st).pkts) ∧
    (jHead s.dev st = none → Does (.jbRelease st) s fun d => d = s.dev) ∧
    (stValid s.dev st = true → (strm s.dev st).silent = false → ebbState s.dev = 0 → (strm s.dev st).lastPkt + rf s.dev Reg.ING_SILENT_LIM 0 16 *
      1000000 < 2 ^ 64 → Does (.streamSilent st) s fun d => (strm d st).silent = true ∧ sState d st = 4 ∧ tst d Reg.ING_EVENT 4 = true ∧ (strm s.dev
      st).lastPkt + rf s.dev Reg.ING_SILENT_LIM 0 16 * 1000000 ≤ now d) ∧
    ((stValid s.dev st = false ∨ (strm s.dev st).silent = true ∨ ebbState s.dev ≠ 0) → Does (.streamSilent st) s fun d => d = s.dev) ∧
    (∀ (ssrc : Nat) (sec : Nat) (frac : Nat) (rtp : Nat), rtcpHears s.dev st = true → ssrcOf s.dev st = some ssrc → Does (.rtcpSenderReport st ssrc
      sec frac rtp) s fun d => (strm d st).sr = some (srOffset s.dev st sec frac (extendTs (strm s.dev st) rtp)) ∧ tst d (Reg.ING_S_STATE st) 3 = true
      ∧ sState d st = (if sState s.dev st = 2 then 3 else sState s.dev st) ∧ SameRegs [Reg.ING_S_STATE st] s.dev d ∧ SameMem s.dev d) ∧
    (∀ (ssrc : Nat) (sec : Nat) (frac : Nat) (rtp : Nat), rtcpHears s.dev st = true → ssrcOf s.dev st ≠ some ssrc → Does (.rtcpSenderReport st ssrc
      sec frac rtp) s fun d => d = s.dev) ∧
    (rtcpHears s.dev st = true → Does (.rtcpBye st) s fun d => sState d st = 6 ∧ tst d Reg.ING_EVENT 3 = true ∧ strm d st =
      { strm s.dev st with tcp := none } ∧ SameMem s.dev d) ∧
    (rf s.dev Reg.ING_CTRL 8 8 ≠ 0 → (strm s.dev st).rrAt + rf s.dev Reg.ING_CTRL 8 8 * 1000000000 < 2 ^ 64 → rtcpHears s.dev st = true → (strm s.dev
      st).started = true → (strm s.dev st).probation = 0 → Does (.rtcpReceiverReport st) s fun d => (∃ l, d.out = s.dev.out ++ [.rtcp st (stPort s.dev
      st) (strm s.dev st).src (stF s.dev st 1 (if stF s.dev st 0 6 1 = 1 then 0 else 16) 16) l] ∧ l.length = 7 ∧ l.getD 3 0 = ((strm s.dev st).cycles
      + (strm s.dev st).maxSeq) % 2 ^ 32) ∧ (strm s.dev st).rrAt + rf s.dev Reg.ING_CTRL 8 8 * 1000000000 ≤ now d ∧ rdN d (Reg.ING_PORT_TX_CNT (stPort
      s.dev st)) = (rdN s.dev (Reg.ING_PORT_TX_CNT (stPort s.dev st)) + 1) % 2 ^ 32 ∧ SameMem s.dev d) ∧
    ((rf s.dev Reg.ING_CTRL 8 8 = 0 ∨ rtcpHears s.dev st = false ∨ (strm s.dev st).started = false ∨ (strm s.dev st).probation ≠ 0) → Does
      (.rtcpReceiverReport st) s fun d => d = s.dev)

/-- The stream table and sessions (R266, R269, R270). COMMIT captures the staged words and DISABLE the stream for the next mark, both reporting 1.
RESYNC of a valid entry restarts sequence extension with a report; REOPEN puts a hardware-mode stream into OPENING; both refuse with 7 where there is
nothing to act on. An opening session sends its four requests and lets media flow, or is lost when the description is refused. A keep-alive sends
GET_PARAMETER, and a session that its server ends is SESSION_LOST. The mark applies the stream table's waiting commands (R267, R269). A COMMIT that
fails its check is refused with the code of Table 10-8 and ING_CFG_INVALID, the entry as it was; one that passes writes every word of the entry and
reports 0. A DISABLE of a valid entry makes it invalid, its state OFF, and leaves no unit behind. -/
def Obligations.StreamEntriesOpenAndClose : Prop :=
  (∀ (s : State) (st : Fin 512), Awake s →
    (Does (.commit st) s fun d => rdN d Reg.ING_ENTRY_RESULT = 1 + st.val * 8 ∧ Held.commit st (stagedWords s.dev) ∈ d.held ∧ SameRegs
      [Reg.ING_ENTRY_RESULT] s.dev d ∧ SameMem s.dev d) ∧
    (Does (.disable st) s fun d => rdN d Reg.ING_ENTRY_RESULT = 1 + st.val * 8 ∧ d.held = s.dev.held ++ [.disable st] ∧ SameRegs
      [Reg.ING_ENTRY_RESULT] s.dev d ∧ SameMem s.dev d) ∧
    (stValid s.dev st = true → Does (.resync st) s fun d => rdN d Reg.ING_ENTRY_RESULT = 0 + st.val * 8 ∧ (strm d st).started = false ∧ (strm d
      st).hold = false ∧ (strm d st).o = (strm s.dev st).o ∧ tst d Reg.ING_EVENT 7 = true ∧ (sState s.dev st = 5 → sState d st = flowState d st)) ∧
    (stValid s.dev st = false → Does (.resync st) s fun d => rdN d Reg.ING_ENTRY_RESULT = 7 + st.val * 8 ∧ SameRegs [Reg.ING_ENTRY_RESULT] s.dev d ∧
      d.ing = s.dev.ing) ∧
    (mayReopen s.dev st = true → Does (.reopen st) s fun d => rdN d Reg.ING_ENTRY_RESULT = 0 + st.val * 8 ∧ sState d st = 1 ∧ SameRegs
      [Reg.ING_ENTRY_RESULT, Reg.ING_S_STATE st] s.dev d) ∧
    (mayReopen s.dev st = false → Does (.reopen st) s fun d => rdN d Reg.ING_ENTRY_RESULT = 7 + st.val * 8 ∧ SameRegs [Reg.ING_ENTRY_RESULT] s.dev d) ∧
    (∀ (ssrc : Nat) (pt : Nat) (dst : List Word) (peer : TcpEnd), mayReopen s.dev st = true → sState s.dev st = 1 → ebbState s.dev = 0 → Does
      (.rtspSessionOpen st true ssrc pt dst peer) s fun d => (∃ l, d.out = s.dev.out ++ [.rtsp st "OPTIONS", .rtsp st "DESCRIBE", .rtsp st "SETUP",
      .rtsp st "PLAY"] ++ l ∧ (stF s.dev st 0 5 1 ≠ 1 → l = [])) ∧ (strm d st).tcp = some peer ∧ stF d st 2 0 32 = ssrc % 2 ^ 32 ∧ stF d st 0 16 7 =
      pt % 2 ^ 7 ∧ sState d st = flowState d st ∧ SameMem s.dev d) ∧
    (∀ (ssrc : Nat) (pt : Nat) (dst : List Word) (peer : TcpEnd), mayReopen s.dev st = true → sState s.dev st = 1 → ebbState s.dev = 0 → Does
      (.rtspSessionOpen st false ssrc pt dst peer) s fun d => d.out = s.dev.out ++ [.rtsp st "OPTIONS", .rtsp st "DESCRIBE"] ∧ sState d st = 6 ∧ tst d
      Reg.ING_EVENT 3 = true) ∧
    (mayReopen s.dev st = true → ebbState s.dev = 0 → sState s.dev st ∈ [2, 3, 4, 5] → Does (.rtspKeepalive st) s fun d => d.out = s.dev.out ++ [.rtsp
      st "GET_PARAMETER"] ∧ rdN d (Reg.ING_PORT_TX_CNT (stPort s.dev st)) = (rdN s.dev (Reg.ING_PORT_TX_CNT (stPort s.dev st)) + 1) % 2 ^ 32 ∧ d.ing =
      s.dev.ing) ∧
    (mayReopen s.dev st = true → sState s.dev st ≠ 6 → ebbState s.dev = 0 → Does (.ingSessionLost st) s fun d => sState d st = 6 ∧ tst d Reg.ING_EVENT
      3 = true ∧ strm d st = { strm s.dev st with tcp := none } ∧ SameMem s.dev d)) ∧
  (∀ (s : Dev) (st : Nat) (l : List Word), st < 512 →
    (commitCheck s st l ≠ 0 → rdN (applyCommit st l s) Reg.ING_ENTRY_RESULT = commitCheck s st l + st * 8 ∧ tst (applyCommit st l s) Reg.ING_EVENT 0 = true ∧
      entryWords (applyCommit st l s) st = entryWords s st ∧ SameMem s (applyCommit st l s)) ∧
    (commitCheck s st l = 0 → l.length = 32 → entryWords (applyCommit st l s) st = l ∧ rdN (applyCommit st l s) Reg.ING_ENTRY_RESULT = st * 8 ∧ SameMem s (applyCommit st l s)) ∧
    (stValid s st = true → stValid (applyDisable st s) st = false ∧ sState (applyDisable st s) st = 0 ∧ (strm (applyDisable st s) st).units = [] ∧ (strm (applyDisable st s) st).pkts = []))

/-! ## Pixel pipes and batches (11) -/

/-- Pixel pipes (R273, R276, R280 to R284, R294). A pipe without a picture in progress starts the first one: the samples of its generators for a cove
that runs are listed in generator order, void for a corrupt picture, and the frame is pending there. The next sample takes the lowest free staging
slot, or waits for one. A sample that is done is written to its slot and joins its frame; an uncorrected error makes it void, with the report, and
nothing is written. -/
def Obligations.PipesBuildSamples : Prop :=
  ∀ (s : State) (q : Fin 4) (p : Pic) (c : Nat) (x : Samp), Awake s →
    (∀ (ps : List Pic) (xs : List (Nat × Samp)), domRuns s.dev (88 + q) = true → pipeOf s.dev q = p :: ps → (∀ y ∈ p :: ps, y.started = false ∧ y.host
      = false) → p.coves = [c] → c < 8 → coveState s.dev c ∈ [1, 2, 3] → p.id.taint = false → xs = ((List.range 7).map fun g => genSamps s.dev (q.val
      / 2) p.id (stProfile s.dev p.id.stream) g).flatMap (·.1) → xs.any (fun y => y.1 == c) = true → Does (.pipePictureStart q) s fun d => (pipeOf d
      q).head?.map (fun y => (y.started, y.coves, y.todo)) = some (true, [c], (xs.filter fun y => y.1 == c).map fun y => (y.1,
      { y.2 with void := p.corrupt })) ∧ (pendOf d c p.id).isSome = true ∧ SameMem s.dev d) ∧
    ((pipeOf s.dev q).any (·.started) = true → Does (.pipePictureStart q) s fun d => d = s.dev) ∧
    (∀ (i : Nat) (ps : List Pic) (rest : List (Nat × Samp)), domRuns s.dev (88 + q) = true → pipeOf s.dev q = p :: ps → p.started = true → p.cur =
      none → p.todo = (c, x) :: rest → x.void = false → freeStage s.dev c (q.val / 2) = some i → Does (.pipeSampleStart q) s fun d => (pipeOf d
      q).head?.map (fun y => (y.cur, y.todo, y.at_)) = some (some (c, x, i), rest, now s.dev) ∧ SameMem s.dev d) ∧
    (∀ (ps : List Pic) (rest : List (Nat × Samp)), domRuns s.dev (88 + q) = true → pipeOf s.dev q = p :: ps → p.started = true → p.cur = none → p.todo
      = (c, x) :: rest → freeStage s.dev c (q.val / 2) = none → Does (.pipeSampleStart q) s fun d => (pipeOf d q).head?.map (fun y => (y.cur, y.todo,
      y.waits.isSome)) = some (none, p.todo, true) ∧ d.regs = s.dev.regs ∧ SameMem s.dev d) ∧
    ((pipeOf s.dev q).any (·.started) = false → Does (.pipeSampleStart q) s fun d => d = s.dev) ∧
    (∀ (i : Nat) (ps : List Pic) (f : PFrame) (b : List Byte), pipeOf s.dev q = p :: ps → p.started = true → p.cur = some (c, x, i) → c < 8 → pendOf
      s.dev c p.id = some f → b = (sampleBytes s.dev p (matrixFor s.dev (stProfile s.dev p.id.stream) p.jpeg p.vui) (classOf s.dev c x.cls) x).1 →
      stageAddr s.dev c (q.val / 2) i + b.length ≤ dramBytes → (pipeReach s.dev q p (stageAddr s.dev c (q.val / 2) i) (classOf s.dev c
      x.cls).size).isNone = true → Does (.pipeSampleDone q 0) s fun d => rdBytes .dram d (stageAddr s.dev c (q.val / 2) i) b.length = b ∧ rdN d
      (Reg.PIX_SAMPLE_CNT q) = (rdN s.dev (Reg.PIX_SAMPLE_CNT q) + 1) % 2 ^ 32 ∧ (pendOf d c p.id).map (·.samples) = some (f.samples ++
      [({ x with void := false }, q.val / 2, i)])) ∧
    (∀ (flt : Fin 4) (i : Nat) (ps : List Pic) (f : PFrame), pipeOf s.dev q = p :: ps → p.started = true → p.cur = some (c, x, i) → c < 8 → pendOf
      s.dev c p.id = some f → 2 ≤ flt.val → Does (.pipeSampleDone q flt) s fun d => tst d (Reg.PIX_EVENT q) (flt.val - 1) = true ∧ (pendOf d c
      p.id).map (·.samples) = some (f.samples ++ [({ x with void := true }, q.val / 2, i)]) ∧ SameMem s.dev d)

/-- Host-assisted pictures (R278, R391). A list of at most 32 entries whose tag names a picture that waits for it is kept with that picture, and its
ring entry is taken. An entry of another kind or length, a longer list and a list whose tag no picture waits for are stale: taken, counted, and
nothing else. A picture whose list does not come within PIX_HOST_LIM leaves its pipe with PIX_HOST_TIMEOUT. -/
def Obligations.HostListsAnswerPostedPictures : Prop :=
  ∀ (s : State) (h : H2D) (es : List ListSamp) (q : Fin 4) (p : Pic), Awake s →
    (ringHasEntry s.dev 8 = true → h2dOk s.dev 8 1 h = true → es.length ≤ 32 → picByTag s.dev h.tag = some (q.val, p) → Does (.sampleList h es) s fun
      d => (∃ y ∈ pipeOf d q, y.id = p.id ∧ y.list.isSome = true) ∧ rdN d (Reg.PCI_RING_CI 8) = (rdN s.dev (Reg.PCI_RING_CI 8) + 1) % 2 ^ 32 ∧ SameMem
      s.dev d) ∧
    (ringHasEntry s.dev 8 = true → (h2dOk s.dev 8 1 h = false ∨ 32 < es.length ∨ picByTag s.dev h.tag = none) → Does (.sampleList h es) s fun d => rdN
      d Reg.PCI_STALE_CNT = (rdN s.dev Reg.PCI_STALE_CNT + 1) % 2 ^ 32 ∧ rdN d (Reg.PCI_RING_CI 8) = (rdN s.dev (Reg.PCI_RING_CI 8) + 1) % 2 ^ 32 ∧
      d.pix = s.dev.pix ∧ d.coves = s.dev.coves ∧ SameMem s.dev d) ∧
    (ringHasEntry s.dev 8 = false → Does (.sampleList h es) s fun d => d = s.dev) ∧
    (∀ (x : Nat × Nat), (pipeOf s.dev q).find? (fun y => !y.started && y.list.isNone && y.post.isSome) = some p → p.post = some x → x.2 + rf s.dev
      Reg.PIX_HOST_LIM 0 16 * 1000000 < 2 ^ 64 → Does (.pixHostTimeout q) s fun d => (∀ y ∈ pipeOf d q, y.id.same p.id = false) ∧ tst d
      Reg.PIX_ADM_EVENT 2 = true ∧ x.2 + rf s.dev Reg.PIX_HOST_LIM 0 16 * 1000000 ≤ now d)

/-- Batches (R290, R295, R439). A batch engine that is done has copied its staged sample into the batch slot, and the job no longer waits for it; a
damaged staged sample, or one that the engine does not reach, makes the slot void with the report. The queue configuration of a cove outside LOADING,
RUN and STOPPING takes a written value, QDEPTH held to 1..64 and SLOTS_MAX to 1..4,096, the base as a pair, of which the 4 KiB boundary counts; in the
other states it stays and PIX_Q_CFG_REJECT is set. -/
def Obligations.BatchesAreCopiedAndConfigured : Prop :=
  ∀ (s : State) (c : Fin 8) (dd : Fin 2) (j : Job) (i : Nat) (n : Nat) (a : Nat) (h : Nat) (k : Nat × Nat) (bad : List Nat) (r : Req) (v : Word), Awake s →
    ((coveOf s.dev c).queue.find? (fun y => y.copies.contains dd.val) = some j → j.copies = [dd.val] → j.staged = [(dd.val, i, n)] → h = entryAddr
      s.dev c j.entry + 256 + 32 * n → a = entryAddr s.dev c j.entry + slotOfs s.dev c + n * slotBytes s.dev c → k = j.sizes.getD (bits (rdLE .dram
      s.dev h 4) 9 3) (0, 0) → bitOf (rdLE .dram s.dev h 4) 12 = false → a + (k.1 + k.2) ≤ dramBytes → n < slotsMax s.dev c → n ∉ bad → dramRead s.dev
      dd (stageAddr s.dev c dd i) (k.1 + k.2) = none → Does (.batchCopyDone c dd bad) s fun d => rdBytes .dram d a (k.1 + k.2) = rdBytes .dram s.dev
      (stageAddr s.dev c dd i) (k.1 + k.2) ∧ { j with copies := [] } ∈ (coveOf d c).queue) ∧
    ((coveOf s.dev c).queue.find? (fun y => y.copies.contains dd.val) = some j → j.copies = [dd.val] → j.staged = [(dd.val, i, n)] → h = entryAddr
      s.dev c j.entry + 256 + 32 * n → a = entryAddr s.dev c j.entry + slotOfs s.dev c + n * slotBytes s.dev c → k = j.sizes.getD (bits (rdLE .dram
      s.dev h 4) 9 3) (0, 0) → bitOf (rdLE .dram s.dev h 4) 12 = false → a + (k.1 + k.2) ≤ dramBytes → n < slotsMax s.dev c → (n ∈ bad ∨ (dramRead
      s.dev dd (stageAddr s.dev c dd i) (k.1 + k.2)).isSome = true) → Does (.batchCopyDone c dd bad) s fun d => bitOf (rdLE .dram d h 4) 12 = true ∧
      rdBytes .dram d a (k.1 + k.2) = voidBytes k ∧ tst d Reg.PIX_ADM_EVENT 4 = true ∧ { j with copies := [] } ∈ (coveOf d c).queue) ∧
    ((coveOf s.dev c).queue.find? (fun y => y.copies.contains dd.val) = none → Does (.batchCopyDone c dd bad) s fun d => d = s.dev) ∧
    (Reaches s.dev r (Reg.PIX_Q_CFG c) → coveState s.dev c ∉ [1, 2, 3] → Does (.pixQConfigWrite r c 0 v) s fun d => rf d (Reg.PIX_Q_CFG c) 0 7 =
      clampN (bits v.toNat 0 7) 1 64 ∧ rf d (Reg.PIX_Q_CFG c) 7 6 = bits v.toNat 7 6 ∧ rf d (Reg.PIX_Q_CFG c) 13 13 = clampN (bits v.toNat 13 13) 1
      4096 ∧ SameRegs [Reg.PIX_Q_CFG c, Reg.PCI_STATUS] s.dev d ∧ SameMem s.dev d) ∧
    (∀ (lo : Word), Reaches s.dev r (Reg.PIX_Q_BASE_HI c) → (latchOf s.dev r (Reg.PIX_Q_BASE_LO c)).wr = some lo → coveState s.dev c ∉ [1, 2, 3] →
      Does (.pixQConfigWrite r c 2 v) s fun d => rdN d (Reg.PIX_Q_BASE_HI c) = v.toNat % 2 ^ 8 ∧ rdN d (Reg.PIX_Q_BASE_LO c) = lo.toNat ∧ entryAddr d
      c 0 = (v.toNat % 2 ^ 8 * 2 ^ 32 + lo.toNat) / 4096 * 4096 ∧ SameMem s.dev d) ∧
    (∀ (m : Fin 7), 3 ≤ m.val → m.val ≤ 5 → Reaches s.dev r (pixQReg c m).1 → coveState s.dev c ∉ [1, 2, 3] → Does (.pixQConfigWrite r c m v) s fun d
      => rdN d (pixQReg c m).1 = v.toNat % 2 ^ (pixQReg c m).2 ∧ SameRegs [(pixQReg c m).1, Reg.PCI_STATUS, Reg.PIX_ADM_EVENT] s.dev d ∧ SameMem s.dev
      d) ∧
    (∀ (m : Fin 7), (m.val = 0 ∨ 3 ≤ m.val) → Reaches s.dev r (pixQReg c m).1 → coveState s.dev c ∈ [1, 2, 3] → Does (.pixQConfigWrite r c m v) s fun
      d => tst d Reg.PIX_ADM_EVENT 5 = true ∧ SameRegs [Reg.PIX_ADM_EVENT, Reg.PCI_STATUS] s.dev d ∧ SameMem s.dev d)

/-! ## Tracking and metadata (12) -/

/-- The track engine (R298, R299, R300, R301, R302, R305). An idle engine that is enabled takes its next frame with the stream's candidates; a
host-assisted frame is posted and held instead; a disabled engine makes it a gap, and so does an uncorrected error, with its report. A commit whose
track entries are reached counts the frame and its detections and frees the engine: a CONFIRMED candidate without a match becomes LOST with one miss,
a TENTATIVE one FREE, and a detection that opens a track takes the lowest FREE entry as TENTATIVE. A commit that does not reach an entry makes the
frame a gap (R345). -/
def Obligations.FramesAreAssociatedAndCommitted : Prop :=
  ∀ (s : State) (dd : Fin 2) (f : TFrame) (a : Assoc) (t : Nat), Awake s →
    (nextFrame s.dev dd = some f → f.host = false → (trkOf s.dev dd).cur = none → (trkOf s.dev dd).posted = [] → s.dev.bt.trkOff.contains dd.val =
      false → tst s.dev (Reg.TRK_CTRL dd) 0 = true → assocReach s.dev dd 0 { f := f, cands := trkCands s.dev dd f.id } = none → Does (.trackAssociate
      dd 0 none) s fun d => (trkOf d dd).cur.map (fun x => (x.f, x.cands)) = some (f, trkCands s.dev dd f.id) ∧ (trkOf d dd).queue = (trkOf s.dev
      dd).queue.erase f ∧ tst d (Reg.TRK_STATUS dd) 15 = true ∧ SameMem s.dev d) ∧
    (nextFrame s.dev dd = some f → f.host = true → (trkOf s.dev dd).posted = [] → s.dev.bt.trkOff.contains dd.val = false → tst s.dev (Reg.TRK_CTRL
      dd) 0 = true → assocReach s.dev dd 0 { f := f, cands := trkCands s.dev dd f.id } = none → Does (.trackAssociate dd 0 none) s fun d => (trkOf d
      dd).posted.map (fun x => x.2.f) = [f] ∧ tst d (Reg.TRK_STATUS dd) 17 = true ∧ (∃ p ∈ d.pci.waiting, p.ring = 9 ∧ p.tag = nextTag s.dev 9)) ∧
    (nextFrame s.dev dd = some f → (trkOf s.dev dd).cur = none → (trkOf s.dev dd).posted = [] → s.dev.bt.trkOff.contains dd.val = false → tst s.dev
      (Reg.TRK_CTRL dd) 0 = false → Does (.trackAssociate dd 0 none) s fun d => (trkOf d dd).cur = none ∧ d.mdo.gaps = s.dev.mdo.gaps ++
      [(f.id.stream, f.id.cap, f.id.cap)] ∧ SameMem s.dev d) ∧
    (nextFrame s.dev dd = some f → (trkOf s.dev dd).cur = none → (trkOf s.dev dd).posted = [] → s.dev.bt.trkOff.contains dd.val = false → Does
      (.trackAssociate dd 2 none) s fun d => tst d (Reg.TRK_EVENT dd) 1 = true ∧ (trkOf d dd).cur = none ∧ d.mdo.gaps = s.dev.mdo.gaps ++
      [(f.id.stream, f.id.cap, f.id.cap)] ∧ SameMem s.dev d) ∧
    (∀ (ecc : Fin 3) (lost : Option (Fin 16384)), nextFrame s.dev dd = none → Does (.trackAssociate dd ecc lost) s fun d => d = s.dev) ∧
    ((trkOf s.dev dd).cur = some a → trkReach s.dev dd (commitTouches s.dev dd a (openers s.dev dd a (assignment s.dev dd a))) = none → (∀ x ∈
      a.cands, x < 32768) → Does (.trackCommit dd) s fun d => (trkOf d dd).cur = none ∧ rdN d (Reg.TRK_FRAME_CNT dd) = (rdN s.dev (Reg.TRK_FRAME_CNT
      dd) + 1) % 2 ^ 32 ∧ rdN d (Reg.TRK_DET_CNT dd) = (rdN s.dev (Reg.TRK_DET_CNT dd) + a.f.dets.length) % 2 ^ 32 ∧ tst d (Reg.TRK_STATUS dd) 15 =
      false) ∧
    ((trkOf s.dev dd).cur = some a → trkReach s.dev dd (commitTouches s.dev dd a (openers s.dev dd a (assignment s.dev dd a))) = none → a.cands = [t]
      → a.f.dets = [] → t / 16384 = dd.val → (trkState s.dev t = 1 ∨ trkState s.dev t = 2) → trkAddr s.dev t + 256 ≤ dramBytes → Does (.trackCommit
      dd) s fun d => trkState d t = (if trkState s.dev t = 2 then 3 else 0) ∧ (trkState s.dev t = 2 → (trkGet d t).misses = 1)) ∧
    (∀ (z : Det), (trkOf s.dev dd).cur = some a → trkReach s.dev dd (commitTouches s.dev dd a (openers s.dev dd a (assignment s.dev dd a))) = none →
      a.cands = [] → a.f.dets = [z] → le32 (tfrac (rf s.dev (Reg.TRK_LIMITS dd) 24 8) 8) z.score = true → confirmHits s.dev dd ≠ 1 → streamTracks
      s.dev dd a.f.id.stream [3] = [] → (dieTracks dd).find? (fun x => trkState s.dev x == 0) = some t → trkAddr s.dev t + 256 ≤ dramBytes → Does
      (.trackCommit dd) s fun d => trkState d t = 1 ∧ trkStream d t = a.f.id.stream % 512 ∧ rdN d (Reg.TRK_NEW_CNT dd) = (rdN s.dev (Reg.TRK_NEW_CNT
      dd) + 1) % 2 ^ 32) ∧
    (∀ (x : NoReach), (trkOf s.dev dd).cur = some a → trkReach s.dev dd (commitTouches s.dev dd a (openers s.dev dd a (assignment s.dev dd a))) = some
      x → x.why = .down → Does (.trackCommit dd) s fun d => (trkOf d dd).cur = none ∧ d.mdo.gaps = s.dev.mdo.gaps ++ [(a.f.id.stream, a.f.id.cap,
      a.f.id.cap)] ∧ SameMem s.dev d) ∧
    ((trkOf s.dev dd).cur = none → Does (.trackCommit dd) s fun d => d = s.dev)

/-- Hand-off and host-assisted association (R303, R304, R388). A frame whose detection confirms a track claims its first untried candidate: a LOST
track of the camera group that no frame has as a candidate becomes FREE, the claim is won and counted. The host's valid answer to a posted frame is
committed and the post no longer held; an invalid one is reported and makes the frame a gap; an answer whose tag no frame waits for is stale. A post
without an answer for TRK_HOST_LIM is withdrawn with TRK_HOST_TIMEOUT, and its frame a gap. -/
def Obligations.HandoffsAndHostActions : Prop :=
  ∀ (s : State) (dd : Fin 2) (a : Assoc) (h : H2D) (acts : List Nat), Awake s →
    (∀ (z : Nat × Nat × (List Int × List Nat)) (t : Nat), (trkOf s.dev dd).cur = some a → a.tried = [] → a.won = [] → (confirming s.dev dd a
      (assignment s.dev dd a) (openers s.dev dd a (assignment s.dev dd a))).head? = some z → stGroup s.dev a.f.id.stream ≠ 0 → (handoffCands s.dev dd
      a.f.id.stream a.f.id.cap z.2.1 z.2.2).head? = some t → isCandidate s.dev t = false → trkAddr s.dev t + 4 ≤ dramBytes → Does (.handoffClaim dd) s
      fun d => (trkOf d dd).cur.map (·.won) = some [(z.1, t, trkStream s.dev t, trkIdent s.dev t)] ∧ trkState d t = 0 ∧ rdN d (Reg.TRK_HANDOFF_CNT dd)
      = (rdN s.dev (Reg.TRK_HANDOFF_CNT dd) + 1) % 2 ^ 32) ∧
    ((trkOf s.dev dd).cur = none → Does (.handoffClaim dd) s fun d => d = s.dev) ∧
    (∀ (b : Nat), ringHasEntry s.dev 10 = true → h2dOk s.dev 10 1 h = true → postedBy s.dev h.tag = some (dd.val, b, a) → actionsOk a acts = true →
      trkReach s.dev dd (commitTouches s.dev dd a (((enum acts 0).filter fun x => x.2 == 0xFFFE).map (·.1))) = none → (∀ x ∈ a.cands, x < 32768) →
      Does (.trackActions h acts) s fun d => (∀ x ∈ (trkOf d dd).posted, x.1 ≠ b) ∧ rdN d (Reg.TRK_FRAME_CNT dd) = (rdN s.dev (Reg.TRK_FRAME_CNT dd) +
      1) % 2 ^ 32 ∧ rdN d (Reg.PCI_RING_CI 10) = (rdN s.dev (Reg.PCI_RING_CI 10) + 1) % 2 ^ 32) ∧
    (∀ (b : Nat), ringHasEntry s.dev 10 = true → h2dOk s.dev 10 1 h = true → postedBy s.dev h.tag = some (dd.val, b, a) → actionsOk a acts = false →
      Does (.trackActions h acts) s fun d => tst d (Reg.TRK_EVENT dd) 3 = true ∧ (∀ x ∈ (trkOf d dd).posted, x.1 ≠ b) ∧ d.mdo.gaps = s.dev.mdo.gaps ++
      [(a.f.id.stream, a.f.id.cap, a.f.id.cap)] ∧ SameMem s.dev d) ∧
    (ringHasEntry s.dev 10 = true → (h2dOk s.dev 10 1 h = false ∨ postedBy s.dev h.tag = none) → Does (.trackActions h acts) s fun d => rdN d
      Reg.PCI_STALE_CNT = (rdN s.dev Reg.PCI_STALE_CNT + 1) % 2 ^ 32 ∧ rdN d (Reg.PCI_RING_CI 10) = (rdN s.dev (Reg.PCI_RING_CI 10) + 1) % 2 ^ 32 ∧
      d.trk = s.dev.trk ∧ SameMem s.dev d) ∧
    (ringHasEntry s.dev 10 = false → Does (.trackActions h acts) s fun d => d = s.dev) ∧
    (∀ (b : Nat) (rest : List (Nat × Assoc)), (trkOf s.dev dd).posted = (b, a) :: rest → a.at_ + rf s.dev (Reg.TRK_HOST_LIM dd) 0 16 * 1000000 < 2 ^
      64 → Does (.trkHostTimeout dd) s fun d => tst d (Reg.TRK_EVENT dd) 2 = true ∧ (∀ x ∈ (trkOf d dd).posted, x.1 ≠ b) ∧ (∀ p ∈ d.pci.waiting, ¬
      (p.ring = 9 ∧ p.tag = a.tag)) ∧ d.mdo.gaps = s.dev.mdo.gaps ++ [(a.f.id.stream, a.f.id.cap, a.f.id.cap)] ∧ a.at_ + rf s.dev (Reg.TRK_HOST_LIM
      dd) 0 16 * 1000000 ≤ now d ∧ SameMem s.dev d)

/-! ## Metadata output (12) -/

/-- Metadata queues and ingress (R308, R309, R313, R318). When a channel has room again its run of losses ends with one gap record, which takes the
next number; without losses no number is taken. DGRAM_HOLD after its first record a datagram is closed: a channel whose port can send is empty then,
every record of at most 1,400 bytes counted; an error found in the queue is reported by its event, and a channel that fills no datagram is unchanged.
A malformed ingress datagram or record is dropped, counted and reported, and changes no memory; of any other the records are taken in order. A ring
entry of a wrong length is stale. -/
def Obligations.MetadataIsBoundedAndSent : Prop :=
  ∀ (s : State) (ch : Fin 12) (u : Fin 8) (i : Nat) (p : Fin 4) (src : Nat) (bytes : List Byte) (h : H2D), Awake s →
    (∀ (l : LostRun) (ecc : Fin 3), (chan s.dev ch).lost = some l → (chan s.dev ch).q.length < 4096 → Does (.overflowGap ch ecc i) s fun d => (chan d
      ch).lost = none ∧ rd64 d (Reg.MDO_CH_SEQ_LO ch) = (rd64 s.dev (Reg.MDO_CH_SEQ_LO ch) + 1) % 2 ^ 64 ∧ SameMem s.dev d) ∧
    (∀ (ecc : Fin 3), (chan s.dev ch).lost = none → Does (.overflowGap ch ecc i) s fun d => rd64 d (Reg.MDO_CH_SEQ_LO ch) = rd64 s.dev
      (Reg.MDO_CH_SEQ_LO ch) ∧ SameMem s.dev d) ∧
    (∀ (ecc : Fin 3) (t : Nat), (chan s.dev u).openAt = some t → portCanSend s.dev (rf s.dev (Reg.MDO_DEST_CFG u) 1 2) = true → (∀ x ∈ (chan s.dev
      u).q, x.r.length ≤ 1400) → (chan s.dev u).q.length ≤ 4096 → t + rf s.dev Reg.MDO_DGRAM_HOLD 0 10 * 1000 < 2 ^ 64 → ecc.val ≠ 2 → Does
      (.dgramHoldExpiry u ecc i) s fun d => (chan d u).q = [] ∧ rdN d (Reg.MDO_CH_REC_CNT u) = (rdN s.dev (Reg.MDO_CH_REC_CNT u) + (chan s.dev
      u).q.length) % 2 ^ 32 ∧ t + rf s.dev Reg.MDO_DGRAM_HOLD 0 10 * 1000 ≤ now d ∧ SameMem s.dev d) ∧
    (∀ (t : Nat), (chan s.dev u).openAt = some t → Does (.dgramHoldExpiry u 1 i) s fun d => tst d Reg.MDO_EVENT 3 = true ∧ SameMem s.dev d) ∧
    (∀ (t : Nat), (chan s.dev u).openAt = some t → i < (chan s.dev u).q.length → Does (.dgramHoldExpiry u 2 i) s fun d => tst d Reg.MDO_EVENT 4 = true
      ∧ SameMem s.dev d) ∧
    (∀ (ecc : Fin 3), (chan s.dev u).openAt = none → Does (.dgramHoldExpiry u ecc i) s fun d => d = s.dev) ∧
    (readDatagram bytes = none → Does (.lmpIngressDatagram p src bytes) s fun d => rdN d Reg.MDO_RX_DROP_CNT = (rdN s.dev Reg.MDO_RX_DROP_CNT + 1) % 2
      ^ 32 ∧ tst d Reg.MDO_EVENT 1 = true ∧ d.kv = s.dev.kv ∧ d.cctx = s.dev.cctx ∧ SameMem s.dev d) ∧
    (∀ (rs : List InRec), readDatagram bytes = some rs → Does (.lmpIngressDatagram p src bytes) s fun d => d = rs.foldl (fun t r => takeRec p src r t)
      s.dev) ∧
    (ringHasEntry s.dev 4 = true → h.len + 16 ≤ ringSlot s.dev 4 → bytes.length = h.len → (fieldAt bytes 2 2 ≠ h.len ∨ readRec bytes = none) → Does
      (.ingressRecord h bytes) s fun d => rdN d Reg.MDO_RX_DROP_CNT = (rdN s.dev Reg.MDO_RX_DROP_CNT + 1) % 2 ^ 32 ∧ tst d Reg.MDO_EVENT 1 = true ∧
      rdN d (Reg.PCI_RING_CI 4) = (rdN s.dev (Reg.PCI_RING_CI 4) + 1) % 2 ^ 32 ∧ d.kv = s.dev.kv ∧ SameMem s.dev d) ∧
    (ringHasEntry s.dev 4 = true → (ringSlot s.dev 4 < h.len + 16 ∨ bytes.length ≠ h.len) → Does (.ingressRecord h bytes) s fun d => rdN d
      Reg.PCI_STALE_CNT = (rdN s.dev Reg.PCI_STALE_CNT + 1) % 2 ^ 32 ∧ rdN d (Reg.PCI_RING_CI 4) = (rdN s.dev (Reg.PCI_RING_CI 4) + 1) % 2 ^ 32 ∧ d.kv
      = s.dev.kv ∧ SameMem s.dev d) ∧
    (∀ (r : InRec), ringHasEntry s.dev 4 = true → h.len + 16 ≤ ringSlot s.dev 4 → bytes.length = h.len → fieldAt bytes 2 2 = h.len → readRec bytes =
      some r → Does (.ingressRecord h bytes) s fun d => d = takeRec 4 ringSource r (ringTake 4 s.dev)) ∧
    (ringHasEntry s.dev 4 = false → Does (.ingressRecord h bytes) s fun d => d = s.dev)

/-- Requests (R313 to R316). In ebb a query or clip request is dropped and counted; a repeat of one accepted within 10 s is counted and has no other
effect. A query that no reason of R314 refuses takes the lowest FREE sequence, QUEUED for its cove with its priority, and no memory but the prompt's
token IDs behind its images changes; a refused one has a BUSY record as its whole effect. In ebb or entering it, a wake from the wake port with the
wake code is reported, and an enabled one begins the exit; any other is dropped and counted; out of ebb a wake has no effect. A clip request opens a
clip on the stream's lowest free encode context; without one, or with the service off, it has a BUSY record. -/
def Obligations.RequestsAreAnswered : Prop :=
  ∀ (s : State) (src : Nat) (q : QueryRec) (c : ClipReq) (p : Fin 4) (code : Word), Awake s →
    (2 ≤ ebbState s.dev → Does (.query src q) s fun d => rdN d Reg.MDO_RX_DROP_CNT = (rdN s.dev Reg.MDO_RX_DROP_CNT + 1) % 2 ^ 32 ∧ SameRegs
      [Reg.MDO_RX_DROP_CNT] s.dev d ∧ SameRest s.dev d ∧ d.mdo = s.dev.mdo) ∧
    (ebbState s.dev < 2 → isDup s.dev false src q.id = true → Does (.query src q) s fun d => rdN d Reg.MDO_DUP_CNT = (rdN s.dev Reg.MDO_DUP_CNT + 1) %
      2 ^ 32 ∧ SameRegs [Reg.MDO_DUP_CNT] s.dev d ∧ SameRest s.dev d ∧ d.mdo = s.dev.mdo) ∧
    (∀ (n : Nat), ebbState s.dev < 2 → isDup s.dev false src q.id = false → queryRefusal s.dev q = 0 → (List.range 1024).find? (fun x => sqState s.dev
      x == 0) = some n → Does (.query src q) s fun d => sqState d n = 1 ∧ sqCove d n = queryCove s.dev q ∧ sqPrio d n = q.prio % 4 ∧ d.kv.arrivals =
      s.dev.kv.arrivals ++ [n] ∧ isDup d false src q.id = true ∧ SameOutside (rdN d (Reg.SEQ_TABLE n 7) * 256 + q.imgs.length * (classOf s.dev
      (queryCove s.dev q) 0).size) (4 * rf d (Reg.SEQ_TABLE n 1) 16 16) s.dev d) ∧
    (∀ (r : Nat), ebbState s.dev < 2 → isDup s.dev false src q.id = false → queryRefusal s.dev q = r → r ≠ 0 → Does (.query src q) s fun d => d =
      busyRec (queryCove s.dev q) q.id r 0 (noteReq false src q.id s.dev)) ∧
    ((ebbState s.dev = 1 ∨ ebbState s.dev = 2) → p.val = rf s.dev Reg.ING_CTRL 1 1 → code.toNat = rdN s.dev Reg.MDO_WAKE_CODE → tst s.dev
      Reg.PWR_WAKE_EN 0 = true → Does (.wake p code) s fun d => tst d Reg.MDO_EVENT 2 = true ∧ ebbState d = 3 ∧ rdN d Reg.PWR_WAKE_SRC = 1 ∧
      d.pwr.wake = now s.dev ∧ SameMem s.dev d) ∧
    ((ebbState s.dev = 1 ∨ ebbState s.dev = 2) → p.val = rf s.dev Reg.ING_CTRL 1 1 → code.toNat = rdN s.dev Reg.MDO_WAKE_CODE → tst s.dev
      Reg.PWR_WAKE_EN 0 = false → Does (.wake p code) s fun d => tst d Reg.MDO_EVENT 2 = true ∧ ebbState d = ebbState s.dev ∧ d.pwr = s.dev.pwr ∧
      SameMem s.dev d) ∧
    ((ebbState s.dev = 1 ∨ ebbState s.dev = 2) → ¬ (p.val = rf s.dev Reg.ING_CTRL 1 1 ∧ code.toNat = rdN s.dev Reg.MDO_WAKE_CODE) → Does (.wake p
      code) s fun d => rdN d Reg.MDO_RX_DROP_CNT = (rdN s.dev Reg.MDO_RX_DROP_CNT + 1) % 2 ^ 32 ∧ SameRegs [Reg.MDO_RX_DROP_CNT] s.dev d ∧ SameRest
      s.dev d) ∧
    ((ebbState s.dev = 0 ∨ (ebbState s.dev = 3 ∧ s.dev.pwr.wake ≠ now s.dev)) → Does (.wake p code) s fun d => d = s.dev) ∧
    (2 ≤ ebbState s.dev → Does (.clipRequest src c) s fun d => rdN d Reg.MDO_RX_DROP_CNT = (rdN s.dev Reg.MDO_RX_DROP_CNT + 1) % 2 ^ 32 ∧ SameRegs
      [Reg.MDO_RX_DROP_CNT] s.dev d ∧ SameRest s.dev d ∧ d.mdo = s.dev.mdo) ∧
    (ebbState s.dev < 2 → isDup s.dev true src c.id = true → Does (.clipRequest src c) s fun d => rdN d Reg.MDO_DUP_CNT = (rdN s.dev Reg.MDO_DUP_CNT +
      1) % 2 ^ 32 ∧ SameRegs [Reg.MDO_DUP_CNT] s.dev d ∧ SameRest s.dev d ∧ d.mdo = s.dev.mdo) ∧
    (ebbState s.dev < 2 → isDup s.dev true src c.id = false → (tst s.dev Reg.MDO_CTRL 3 = false ∨ 64 ≤ c.buffer ∨ clipSize s.dev c.buffer = 0) → Does
      (.clipRequest src c) s fun d => d = busyRec c.stream c.id 6 1 (noteReq true src c.id s.dev)) ∧
    (ebbState s.dev < 2 → isDup s.dev true src c.id = false → tst s.dev Reg.MDO_CTRL 3 = true → c.buffer < 64 → clipSize s.dev c.buffer ≠ 0 →
      clipContext s.dev c.stream = none → Does (.clipRequest src c) s fun d => d = busyRec c.stream c.id 5 1 (noteReq true src c.id s.dev)) ∧
    (∀ (key : Nat), ebbState s.dev < 2 → isDup s.dev true src c.id = false → tst s.dev Reg.MDO_CTRL 3 = true → c.buffer < 64 → clipSize s.dev c.buffer
      ≠ 0 → clipContext s.dev c.stream = some key → clipOk s.dev key (newClip s.dev key c.id c.buffer c.stream c.start c.stop c.mask c.deliver
      (untraceable s.dev)) = true → Does (.clipRequest src c) s fun d => (ctxOf d key).clip = some (newClip s.dev key c.id c.buffer c.stream c.start
      c.stop c.mask c.deliver (untraceable s.dev)) ∧ d.regs = s.dev.regs ∧ SameMem s.dev d)

/-! ## Bonded DRAM and fabric (13, 14) -/

/-- DRAM channels (R322, R325, R327, R329 to R335, R352). A request to a mapped address of an UP channel enters its queue at the place of its address
map; unmapped, or to a DOWN channel, it is answered with an error. A final read's data is answered once: corrected errors are counted, an uncorrected
one is reported with its address and answered with an error, and its word fails every read until it is written. An alert starts a replay of every
command that is not final, in order; the one after four takes the channel DOWN, with nothing pending. A refresh that falls due is postponed on a busy
bank and goes first on an idle one; a bank with 8 postponed is taken from its owner. An idle row is closed after 64 cycles. A lock beyond 256 cycles
is counted and reported once. The scrub moves on by one burst. -/
def Obligations.DramChannelsServeAndReplay : Prop :=
  ∀ (s : State) (dd : Fin 2) (ch : Fin 32) (b : Fin 128) (w : Fin 32) (q : DramReq) (t : Dev), Awake s →
    (∀ (n : Nat) (m : Nat) (k : Nat) (y : Nat × Nat × Nat), q.addr < dramBytes → q.flt = none → q.cls < 4 → tst s.dev (Reg.DMC_CTRL (q.addr / 2 ^ 34))
      0 = true → regionMap s.dev (q.addr / 2 ^ 34) (q.addr % 2 ^ 34) = some m → y = dramPlace m (q.addr % 2 ^ 34) → k = 32 * (q.addr / 2 ^ 34) + y.1 →
      chUp s.dev k = true → crossesDown s.dev q.die (q.addr / 2 ^ 34) y.1 = false → Does (.dramRequest [(n, q)]) s fun d => (dchan d
      k).queue.getLast?.map (fun x => (x.id, x.addr, x.bank, x.row)) = some (q.id, q.addr, y.2.1, y.2.2) ∧ (dchan d k).queue.getLast?.map (·.wr) =
      some q.wr ∧ d.out = (catchUp k s.dev).out) ∧
    (∀ (n : Nat), q.flt = none → q.cls < 4 → q.addr / 2 ^ 34 % 2 = dd.val → tst s.dev (Reg.DMC_CTRL dd) 0 = true → (dramBytes ≤ q.addr ∨ regionMap
      s.dev dd (q.addr % 2 ^ 34) = none) → Does (.dramRequest [(n, q)]) s fun d => d.out = s.dev.out ++ [.dram q.id false []] ∧ tst d (Reg.DMC_EVENT
      dd) 3 = true ∧ d.dmc = s.dev.dmc ∧ SameMem s.dev d) ∧
    (∀ (n : Nat) (m : Nat) (y : Nat × Nat × Nat), q.addr < dramBytes → q.flt = none → q.cls < 4 → regionMap s.dev (q.addr / 2 ^ 34) (q.addr % 2 ^ 34)
      = some m → tst s.dev (Reg.DMC_CTRL (q.addr / 2 ^ 34)) 0 = true → y = dramPlace m (q.addr % 2 ^ 34) → (chUp s.dev (32 * (q.addr / 2 ^ 34) + y.1)
      = false ∨ crossesDown s.dev q.die (q.addr / 2 ^ 34) y.1 = true) → Does (.dramRequest [(n, q)]) s fun d => d.out = s.dev.out ++ [.dram q.id false
      []] ∧ d.dmc = s.dev.dmc ∧ d.regs = s.dev.regs ∧ SameMem s.dev d) ∧
    (∀ (ecc : Fin 3) (r : DReq) (l : List Byte) (rest : List (DReq × List Byte)), t = runUntil (32 * dd.val + ch.val) 20000 (fun t => !(dchan t (32 *
      dd.val + ch.val)).fin.isEmpty) s.dev → (dchan t (32 * dd.val + ch.val)).fin = (r, l) :: rest → r.back = false → ecc.val ≠ 2 → burstBad t r.addr
      = false → Does (.dramReadFinal dd ch ecc w none) s fun d => d.out = t.out ++ [.dram r.id true l] ∧ (dchan d (32 * dd.val + ch.val)).fin = rest ∧
      (ecc.val = 1 → tst d (Reg.DMC_EVENT dd) 0 = true) ∧ SameMem t d) ∧
    (∀ (r : DReq) (l : List Byte) (rest : List (DReq × List Byte)), t = runUntil (32 * dd.val + ch.val) 20000 (fun t => !(dchan t (32 * dd.val +
      ch.val)).fin.isEmpty) s.dev → (dchan t (32 * dd.val + ch.val)).fin = (r, l) :: rest → r.back = false → Does (.dramReadFinal dd ch 2 w none) s
      fun d => d.out = t.out ++ [.dram r.id false []] ∧ (dchan d (32 * dd.val + ch.val)).fin = rest ∧ tst d (Reg.DMC_EVENT dd) 1 = true ∧ rd64 d
      (Reg.DMC_FAULT_ADDR_LO dd) = r.addr / 256 * 256 % 2 ^ 40 ∧ burstBad d r.addr = true ∧ SameMem t d) ∧
    (∀ (ecc : Fin 3), t = runUntil (32 * dd.val + ch.val) 20000 (fun t => !(dchan t (32 * dd.val + ch.val)).fin.isEmpty) s.dev → (dchan t (32 * dd.val
      + ch.val)).fin = [] → Does (.dramReadFinal dd ch ecc w none) s fun d => d = t) ∧
    (t = catchUp (32 * dd.val + ch.val) s.dev → chUp t (32 * dd.val + ch.val) = true → rf t (Reg.DMC_CH_STATUS dd ch) 3 3 ≠ 4 → Does (.dramAlert dd
      ch) s fun d => (dchan d (32 * dd.val + ch.val)).replay.map (·.2) = some ((dchan t (32 * dd.val + ch.val)).retry ++ ((dchan t (32 * dd.val +
      ch.val)).replay.map (·.2)).getD []) ∧ (dchan d (32 * dd.val + ch.val)).retry = [] ∧ tst d (Reg.DMC_CH_STATUS dd ch) 2 = true ∧ rdN d
      (Reg.DMC_REPLAY_CNT dd) = (rdN t (Reg.DMC_REPLAY_CNT dd) + 1) % 2 ^ 32 ∧ SameMem t d) ∧
    (t = catchUp (32 * dd.val + ch.val) s.dev → chUp t (32 * dd.val + ch.val) = true → rf t (Reg.DMC_CH_STATUS dd ch) 3 3 = 4 → Does (.dramAlert dd
      ch) s fun d => chUp d (32 * dd.val + ch.val) = false ∧ tst d (Reg.DMC_CH_DOWN dd) ch = true ∧ (dchan d (32 * dd.val + ch.val)).queue = [] ∧
      (dchan d (32 * dd.val + ch.val)).retry = [] ∧ (dchan d (32 * dd.val + ch.val)).replay = none ∧ tst d (Reg.DMC_EVENT dd) 4 = true) ∧
    (t = catchUp (32 * dd.val + ch.val) s.dev → chUp t (32 * dd.val + ch.val) = false → Does (.dramAlert dd ch) s fun d => d = t) ∧
    (t = catchUp (32 * dd.val + ch.val) s.dev → Does (.replayDone dd ch) s fun d => (dchan d (32 * dd.val + ch.val)).replay = none ∨ (dchan t (32 *
      dd.val + ch.val)).cyc + 100000 ≤ (dchan d (32 * dd.val + ch.val)).cyc) ∧
    (tst s.dev (Reg.DMC_STATUS dd) 2 = true → Does (.dramRefresh dd ch b) s fun d => d = s.dev) ∧
    (tst s.dev (Reg.DMC_STATUS dd) 2 = false → t = catchUp (32 * dd.val + ch.val) (waitUntil (refreshDue s.dev (32 * dd.val + ch.val) b) s.dev) → Does
      (.dramRefresh dd ch b) s fun d => (dbank (dchan d (32 * dd.val + ch.val)) b).late = (dbank (dchan t (32 * dd.val + ch.val)) b).late + 1 ∧ (dbank
      (dchan d (32 * dd.val + ch.val)) b).refs = refreshDue s.dev (32 * dd.val + ch.val) b ∧ (dchan d (32 * dd.val + ch.val)).first = (if ((dchan t
      (32 * dd.val + ch.val)).queue.any fun r => r.bank == b.val) || (dbank (dchan t (32 * dd.val + ch.val)) b).lock.isSome || (dchan t (32 * dd.val +
      ch.val)).replay.isSome || decide ((dchan t (32 * dd.val + ch.val)).cyc < (dchan t (32 * dd.val + ch.val)).pauseEnd) || chTraining t (32 * dd.val
      + ch.val) || !(chUp t (32 * dd.val + ch.val)) then (dchan t (32 * dd.val + ch.val)).first else (dchan t (32 * dd.val + ch.val)).first ++
      [b.val])) ∧
    (t = catchUp (32 * dd.val + ch.val) s.dev → 8 ≤ (dbank (dchan t (32 * dd.val + ch.val)) b).late → (dchan t (32 * dd.val + ch.val)).replay = none →
      (dchan t (32 * dd.val + ch.val)).first.contains b.val = false → Does (.emergencyRefresh dd ch b) s fun d => ((dchan d (32 * dd.val +
      ch.val)).first.contains b.val = false ∨ (dchan t (32 * dd.val + ch.val)).cyc + 1000 ≤ (dchan d (32 * dd.val + ch.val)).cyc) ∧ rdN d
      (Reg.ARB_PREEMPT_CNT dd) = (if (dbank (dchan t (32 * dd.val + ch.val)) b).row.isSome || (dbank (dchan t (32 * dd.val + ch.val)) b).lock.isSome
      then (rdN t (Reg.ARB_PREEMPT_CNT dd) + 1) % 2 ^ 32 else rdN t (Reg.ARB_PREEMPT_CNT dd))) ∧
    (t = catchUp (32 * dd.val + ch.val) s.dev → (dbank (dchan t (32 * dd.val + ch.val)) b).late < 8 → Does (.emergencyRefresh dd ch b) s fun d => d =
      t) ∧
    (chIdle (dchan s.dev (32 * dd.val + ch.val)) = true → (dbank (dchan s.dev (32 * dd.val + ch.val)) b).row.isSome = true → Does (.rowIdlePrecharge
      dd ch b) s fun d => (dbank (dchan d (32 * dd.val + ch.val)) b).row = none ∧ (dbank (dchan s.dev (32 * dd.val + ch.val)) b).last + 64 ≤ (dchan d
      (32 * dd.val + ch.val)).cyc ∧ SameMem s.dev d) ∧
    (chIdle (dchan s.dev (32 * dd.val + ch.val)) = true → (dbank (dchan s.dev (32 * dd.val + ch.val)) b).row = none → Does (.rowIdlePrecharge dd ch b)
      s fun d => (dchan d (32 * dd.val + ch.val)).banks = (dchan s.dev (32 * dd.val + ch.val)).banks ∧ SameMem s.dev d) ∧
    (∀ (l : Nat × Nat), (dbank (dchan (catchUp (32 * dd.val + ch.val) s.dev) (32 * dd.val + ch.val)) b).lock = some l → t = runUntil (32 * dd.val +
      ch.val) (l.2 + 257 - (dchan (catchUp (32 * dd.val + ch.val) s.dev) (32 * dd.val + ch.val)).cyc) (fun u => (dbank (dchan u (32 * dd.val +
      ch.val)) b).lock != some l) (catchUp (32 * dd.val + ch.val) s.dev) → (dbank (dchan t (32 * dd.val + ch.val)) b).lock = some l → (dbank (dchan t
      (32 * dd.val + ch.val)) b).long = false → Does (.lockLong dd ch b) s fun d => (dbank (dchan d (32 * dd.val + ch.val)) b).long = true ∧ rdN d
      (Reg.ARB_LOCK_LONG_CNT dd) = (rdN t (Reg.ARB_LOCK_LONG_CNT dd) + 1) % 2 ^ 32 ∧ tst d (Reg.ARB_EVENT dd) 4 = true ∧ (dbank (dchan d (32 * dd.val
      + ch.val)) b).lock = some l ∧ SameMem t d) ∧
    (t = catchUp (32 * dd.val + ch.val) s.dev → (dbank (dchan t (32 * dd.val + ch.val)) b).lock = none → Does (.lockLong dd ch b) s fun d => d = t) ∧
    (∀ (ecc : Fin 3), tst s.dev (Reg.DMC_CTRL dd) 0 = true → tst s.dev (Reg.DMC_CTRL dd) 1 = true → tst s.dev (Reg.DMC_STATUS dd) 2 = false → chUp
      s.dev (32 * dd.val + ch.val) = true → Does (.patrolScrubRead dd ch ecc w) s fun d => (dchan d (32 * dd.val + ch.val)).scrub = ((dchan s.dev (32
      * dd.val + ch.val)).scrub + 1) % 2 ^ 21 ∧ (ch = 0 → rdN d (Reg.DMC_SCRUB_POS dd) = ((dchan s.dev (32 * dd.val + ch.val)).scrub + 1) % 2 ^ 21) ∧
      (ecc.val = 2 → tst d (Reg.DMC_EVENT dd) 2 = true ∧ rd64 d (Reg.DMC_FAULT_ADDR_LO dd) = burstAddr s.dev dd ch (dchan s.dev (32 * dd.val +
      ch.val)).scrub % 2 ^ 40) ∧ (ecc.val = 1 → tst d (Reg.DMC_EVENT dd) 0 = true)) ∧
    (∀ (ecc : Fin 3), (tst s.dev (Reg.DMC_CTRL dd) 1 = false ∨ tst s.dev (Reg.DMC_STATUS dd) 2 = true ∨ chUp s.dev (32 * dd.val + ch.val) = false) →
      Does (.patrolScrubRead dd ch ecc w) s fun d => d = s.dev)

/-- Training and the Damarorn link (R324, R335 to R338, R345). LOCK puts a table that passes its checks in force, and otherwise reports and stays
clear. In the window of its half a channel pauses in its slot of 500 ns, or counts a skip when it replays or is DOWN; a margin below the threshold is
reported, and so is a channel without a pause for 100 ms, once. RETRAIN and RETRAIN_PORT are accepted when none runs, and end with the channel or port
pair up or DOWN and its result. Boot training that passes leaves every burst zero, and one that fails is reported and halts the device. A CRC mismatch
is counted and replayed; the one that ends the 8th replay in a row takes the pair DOWN in both directions. -/
def Obligations.TrainingPausesAndLinkRecover : Prop :=
  ∀ (s : State) (dd : Fin 2) (ch : Fin 32), Awake s →
    (tst s.dev (Reg.DMC_CTRL dd) 0 = false → regionsOk s.dev dd = true → Does (.lock dd) s fun d => tst d (Reg.DMC_CTRL dd) 0 = true ∧ tst d
      (Reg.DMC_STATUS dd) 4 = true ∧ SameRegs [Reg.DMC_CTRL dd, Reg.DMC_STATUS dd] s.dev d ∧ SameRest s.dev d) ∧
    (tst s.dev (Reg.DMC_CTRL dd) 0 = false → regionsOk s.dev dd = false → Does (.lock dd) s fun d => tst d (Reg.DMC_CTRL dd) 0 = false ∧ tst d
      (Reg.DMC_EVENT dd) 5 = true ∧ SameRegs [Reg.DMC_EVENT dd] s.dev d ∧ SameRest s.dev d) ∧
    (tst s.dev (Reg.DMC_CTRL dd) 0 = true → Does (.lock dd) s fun d => d = s.dev) ∧
    (∀ (w : Nat) (m : Nat) (n : Nat), s.dev.tide.win = some w → decide (16 ≤ ch.val) = (s.dev.tide.winCnt % 2 == 0) → (dchan s.dev (32 * dd.val +
      ch.val)).slot ≠ some w → tst s.dev (Reg.DMC_STATUS dd) 2 = false → tst s.dev (Reg.DMC_CH_STATUS dd ch) 2 = false → (dchan s.dev (32 * dd.val +
      ch.val)).replay = none → chUp s.dev (32 * dd.val + ch.val) = true → Does (.dramRetrainPause dd ch m n) s fun d => (dchan d (32 * dd.val +
      ch.val)).paused = w + 500 * (ch.val % 8) ∧ (dchan d (32 * dd.val + ch.val)).slot = some w ∧ (dchan d (32 * dd.val + ch.val)).late = false ∧ (m %
      256 < rf s.dev (Reg.DMC_MARGIN_THR dd) 0 8 → tst d (Reg.DMC_EVENT dd) 8 = true)) ∧
    (∀ (w : Nat) (m : Nat) (n : Nat), s.dev.tide.win = some w → decide (16 ≤ ch.val) = (s.dev.tide.winCnt % 2 == 0) → (dchan s.dev (32 * dd.val +
      ch.val)).slot ≠ some w → tst s.dev (Reg.DMC_STATUS dd) 2 = false → chUp s.dev (32 * dd.val + ch.val) = false → Does (.dramRetrainPause dd ch m
      n) s fun d => rdN d (Reg.DMC_RETRAIN_SKIP_CNT dd) = (rdN s.dev (Reg.DMC_RETRAIN_SKIP_CNT dd) + 1) % 2 ^ 32 ∧ (dchan d (32 * dd.val +
      ch.val)).paused = (dchan s.dev (32 * dd.val + ch.val)).paused) ∧
    (∀ (m : Nat) (n : Nat), (s.dev.tide.win = none ∨ decide (16 ≤ ch.val) ≠ (s.dev.tide.winCnt % 2 == 0) ∨ tst s.dev (Reg.DMC_STATUS dd) 2 = true) →
      Does (.dramRetrainPause dd ch m n) s fun d => d = s.dev) ∧
    ((dchan s.dev (32 * dd.val + ch.val)).late = false → tst s.dev (Reg.DMC_STATUS dd) 2 = false → (dchan s.dev (32 * dd.val + ch.val)).paused +
      100000001 < 2 ^ 64 → Does (.retrainLate dd ch) s fun d => (dchan d (32 * dd.val + ch.val)).late = true ∧ tst d (Reg.DMC_EVENT dd) 7 = true ∧
      (dchan s.dev (32 * dd.val + ch.val)).paused + 100000001 ≤ now d ∧ SameMem s.dev d) ∧
    (((dchan s.dev (32 * dd.val + ch.val)).late = true ∨ tst s.dev (Reg.DMC_STATUS dd) 2 = true) → Does (.retrainLate dd ch) s fun d => d = s.dev) ∧
    (training s.dev dd = none → tst s.dev (Reg.DMC_STATUS dd) 1 = false → Does (.retrain dd ch) s fun d => training d dd = some ch.val ∧ chTraining d
      (32 * dd.val + ch.val) = true) ∧
    (((training s.dev dd).isSome = true ∨ tst s.dev (Reg.DMC_STATUS dd) 1 = true) → Does (.retrain dd ch) s fun d => rdN d (Reg.DMC_CMD_RESULT dd) = 2
      ∧ SameRegs [Reg.DMC_CMD_RESULT dd] s.dev d ∧ SameRest s.dev d) ∧
    (∀ (pass : Bool), training s.dev dd = some ch.val → Does (.retrainDone dd pass) s fun d => training d dd = none ∧ chTraining d (32 * dd.val +
      ch.val) = false ∧ chUp d (32 * dd.val + ch.val) = pass ∧ rdN d (Reg.DMC_CMD_RESULT dd) = b2n !pass ∧ (pass = true → tst d (Reg.DMC_CH_DOWN dd)
      ch = false)) ∧
    (∀ (pass : Bool), training s.dev dd = none → Does (.retrainDone dd pass) s fun d => d = s.dev) ∧
    (tst s.dev (Reg.DMC_STATUS 0) 1 = true → ebbState s.dev ≠ 3 → Does (.dramTrainingDone none) s fun d => d.dram = [] ∧ d.bt.trained = true ∧ rf d
      (Reg.DMC_STATUS 0) 0 2 = 1 ∧ rf d (Reg.DMC_STATUS 1) 0 2 = 1) ∧
    (∀ (k : Fin 64) (n : Fin 576), tst s.dev (Reg.DMC_STATUS 0) 1 = true → Does (.dramTrainingDone (some (k, n))) s fun d => stage d = 15 ∧ rf d
      Reg.BOOT_STATUS 8 4 = 2) ∧
    (∀ (fail : Option (Fin 64 × Fin 576)), tst s.dev (Reg.DMC_STATUS 0) 1 = false → Does (.dramTrainingDone fail) s fun d => d = s.dev) ∧
    (∀ (again : Bool), tst s.dev (Reg.ARB_DLINK_DOWN dd) ch = false → (again = true → portRetries s.dev (32 * dd.val + ch.val) ≠ 7) → Does
      (.dlinkCrcMismatch dd ch again) s fun d => rdN d (Reg.ARB_DLINK_CRC_CNT dd) = (rdN s.dev (Reg.ARB_DLINK_CRC_CNT dd) + 1) % 2 ^ 32 ∧ rdN d
      (Reg.ARB_DLINK_RETRY_CNT dd) = (rdN s.dev (Reg.ARB_DLINK_RETRY_CNT dd) + 1) % 2 ^ 32 ∧ portRetries d (32 * dd.val + ch.val) = (if again then
      portRetries s.dev (32 * dd.val + ch.val) + 1 else 0) ∧ tst d (Reg.ARB_EVENT dd) 2 = true ∧ SameMem s.dev d) ∧
    (tst s.dev (Reg.ARB_DLINK_DOWN dd) ch = false → portRetries s.dev (32 * dd.val + ch.val) = 7 → Does (.dlinkCrcMismatch dd ch true) s fun d => tst
      d (Reg.ARB_DLINK_DOWN 0) ch = true ∧ tst d (Reg.ARB_DLINK_DOWN 1) ch = true ∧ tst d (Reg.ARB_STATUS 0) 0 = false ∧ tst d (Reg.ARB_STATUS 1) 0 =
      false ∧ tst d (Reg.ARB_EVENT dd) 3 = true ∧ SameMem s.dev d) ∧
    (∀ (again : Bool), tst s.dev (Reg.ARB_DLINK_DOWN dd) ch = true → Does (.dlinkCrcMismatch dd ch again) s fun d => d = s.dev) ∧
    (portTraining s.dev dd = none → Does (.retrainPort dd ch) s fun d => portTraining d dd = some ch.val ∧ tst d (Reg.ARB_STATUS dd) 1 = true ∧
      SameRegs [Reg.ARB_STATUS dd] s.dev d ∧ SameMem s.dev d) ∧
    ((portTraining s.dev dd).isSome = true → Does (.retrainPort dd ch) s fun d => rdN d (Reg.ARB_CMD_RESULT dd) = 2 ∧ SameRegs [Reg.ARB_CMD_RESULT dd]
      s.dev d ∧ SameRest s.dev d) ∧
    (∀ (pass : Bool), portTraining s.dev dd = some ch.val → Does (.retrainPortDone dd pass) s fun d => portTraining d dd = none ∧ tst d
      (Reg.ARB_STATUS dd) 1 = false ∧ rdN d (Reg.ARB_CMD_RESULT dd) = b2n !pass ∧ tst d (Reg.ARB_DLINK_DOWN dd) ch = !pass) ∧
    (∀ (pass : Bool), portTraining s.dev dd = none → Does (.retrainPortDone dd pass) s fun d => d = s.dev)

/-! ## Errors and actions (15) -/

/-- The error collector (R356 to R362, R364, R365, R367, R374, R375). With no raised event a take has no effect. An event that is taken is counted by
its class, a device-fatal one sets DEGRADED, and it is written to the first log entry that is not PENDING: in policy mode with no entry that fires, or
with one whose firing counts, and then with the action, its argument and its outcome, an action other than NONE being counted, and as refused when its
outcome says so; in host mode PENDING and posted to the host under the next tag. When every entry is PENDING it is counted as not logged. A damaged
entry that the table check finds in the same cycle is an event of its own, and a policy entry is then out of use. A host command for an entry that is
not pending has result 1, one with an illegal action result 2; otherwise it ends the post, issues its action with the argument, logs both with the
outcome, and has result 0. A post that passes its limit ends without an answer, with the report, and its function is named in the health record, also
when a command finds it expired. A lost keeper is reported; in ebb none runs, and nothing is. -/
def Obligations.EventsAreCollectedAndLogged : Prop :=
  ∀ (s : State) (e : Ev) (i : Nat) (v : Word) (p : Nat × Nat × Nat), Awake s →
    (takeNext s.dev = none → Does (.collectorTake none) s fun d => d = s.dev) ∧
    (takeNext s.dev = some e → logSlot s.dev = some i → (tst s.dev Reg.ERR_CTRL 0 = false ∨ alwaysPolicy e.code = true) → polLookup s.dev e = none →
      e.code < 2 ^ 16 → Does (.collectorTake none) s fun d => (eventClass e.code = 0 → rdN d Reg.ERR_CORR_CNT = (rdN s.dev Reg.ERR_CORR_CNT + 1) % 2 ^
      32) ∧ (eventClass e.code = 1 → rdN d Reg.ERR_CONT_CNT = (rdN s.dev Reg.ERR_CONT_CNT + 1) % 2 ^ 32) ∧ (eventClass e.code = 2 → rdN d
      Reg.ERR_COVE_CNT = (rdN s.dev Reg.ERR_COVE_CNT + 1) % 2 ^ 32) ∧ (eventClass e.code = 3 → rdN d Reg.ERR_DEV_CNT = (rdN s.dev Reg.ERR_DEV_CNT + 1)
      % 2 ^ 32 ∧ tst d Reg.ERR_STATUS 2 = true) ∧ rdN d (Reg.ERR_LOG i 1) = e.unit % 2 ^ 16 ∧ rdN d (Reg.ERR_LOG i 2) = e.info % 2 ^ 32 ∧ rdN d
      (Reg.ERR_LOG i 0) = (e.code + eventClass e.code * 2 ^ 16) % 2 ^ 32 ∧ rdN d (Reg.ERR_LOG i 3) = 255 ∧ SameMem s.dev d) ∧
    (∀ (n : Nat), takeNext s.dev = some e → logSlot s.dev = some i → (tst s.dev Reg.ERR_CTRL 0 = false ∨ alwaysPolicy e.code = true) → polLookup s.dev
      e = some n → polF s.dev n 2 0 6 = 0 → Does (.collectorTake none) s fun d => (eventClass e.code = 0 → rdN d Reg.ERR_CORR_CNT = (rdN s.dev
      Reg.ERR_CORR_CNT + 1) % 2 ^ 32) ∧ (eventClass e.code = 1 → rdN d Reg.ERR_CONT_CNT = (rdN s.dev Reg.ERR_CONT_CNT + 1) % 2 ^ 32) ∧ (eventClass
      e.code = 2 → rdN d Reg.ERR_COVE_CNT = (rdN s.dev Reg.ERR_COVE_CNT + 1) % 2 ^ 32) ∧ (eventClass e.code = 3 → rdN d Reg.ERR_DEV_CNT = (rdN s.dev
      Reg.ERR_DEV_CNT + 1) % 2 ^ 32 ∧ tst d Reg.ERR_STATUS 2 = true) ∧ rdN d (Reg.ERR_LOG i 1) = e.unit % 2 ^ 16 ∧ rdN d (Reg.ERR_LOG i 2) = e.info %
      2 ^ 32 ∧ rdN d (Reg.ERR_POLICY_FIRE n) = min 255 (rf s.dev (Reg.ERR_POLICY_FIRE n) 0 8 + 1) ∧ rf d (Reg.ERR_LOG i 3) 0 8 = n ∧ rf d (Reg.ERR_LOG
      i 3) 8 6 = 0 ∧ SameMem s.dev d) ∧
    (∀ (n : Nat), takeNext s.dev = some e → logSlot s.dev = some i → (tst s.dev Reg.ERR_CTRL 0 = false ∨ alwaysPolicy e.code = true) → polLookup s.dev
      e = some n → ((polF s.dev n 2 0 6 = 1 ∨ polF s.dev n 2 0 6 = 2 ∨ polF s.dev n 2 0 6 = 12 ∨ polF s.dev n 2 0 6 = 13) ∧ 64 ≤ e.unit ∨ polF s.dev n
      2 0 6 = 9 ∧ tideSource s.dev = 0) → Does (.collectorTake none) s fun d => (eventClass e.code = 0 → rdN d Reg.ERR_CORR_CNT = (rdN s.dev
      Reg.ERR_CORR_CNT + 1) % 2 ^ 32) ∧ (eventClass e.code = 1 → rdN d Reg.ERR_CONT_CNT = (rdN s.dev Reg.ERR_CONT_CNT + 1) % 2 ^ 32) ∧ (eventClass
      e.code = 2 → rdN d Reg.ERR_COVE_CNT = (rdN s.dev Reg.ERR_COVE_CNT + 1) % 2 ^ 32) ∧ (eventClass e.code = 3 → rdN d Reg.ERR_DEV_CNT = (rdN s.dev
      Reg.ERR_DEV_CNT + 1) % 2 ^ 32 ∧ tst d Reg.ERR_STATUS 2 = true) ∧ rdN d (Reg.ERR_LOG i 1) = e.unit % 2 ^ 16 ∧ rdN d (Reg.ERR_LOG i 2) = e.info %
      2 ^ 32 ∧ rf d (Reg.ERR_LOG i 3) 0 8 = n ∧ rf d (Reg.ERR_LOG i 3) 8 6 = polF s.dev n 2 0 6 ∧ rf d (Reg.ERR_LOG i 3) 14 8 = polF s.dev n 2 8 8 ∧
      rf d (Reg.ERR_LOG i 3) 22 3 = 2 ∧ rdN d Reg.ERR_ACT_CNT = (rdN s.dev Reg.ERR_ACT_CNT + 1) % 2 ^ 32 ∧ rdN d Reg.ERR_ACT_REFUSED_CNT = (rdN s.dev
      Reg.ERR_ACT_REFUSED_CNT + 1) % 2 ^ 32 ∧ SameMem s.dev d) ∧
    (∀ (n : Nat), takeNext s.dev = some e → logSlot s.dev = some i → (tst s.dev Reg.ERR_CTRL 0 = false ∨ alwaysPolicy e.code = true) → polLookup s.dev
      e = some n → polF s.dev n 2 0 6 = 11 → s.dev.ptp.sel.isSome = true → s.dev.ptp.lastOff.isSome = true → Does (.collectorTake none) s fun d =>
      (eventClass e.code = 0 → rdN d Reg.ERR_CORR_CNT = (rdN s.dev Reg.ERR_CORR_CNT + 1) % 2 ^ 32) ∧ (eventClass e.code = 1 → rdN d Reg.ERR_CONT_CNT =
      (rdN s.dev Reg.ERR_CONT_CNT + 1) % 2 ^ 32) ∧ (eventClass e.code = 2 → rdN d Reg.ERR_COVE_CNT = (rdN s.dev Reg.ERR_COVE_CNT + 1) % 2 ^ 32) ∧
      (eventClass e.code = 3 → rdN d Reg.ERR_DEV_CNT = (rdN s.dev Reg.ERR_DEV_CNT + 1) % 2 ^ 32 ∧ tst d Reg.ERR_STATUS 2 = true) ∧ rdN d (Reg.ERR_LOG
      i 1) = e.unit % 2 ^ 16 ∧ rdN d (Reg.ERR_LOG i 2) = e.info % 2 ^ 32 ∧ rf d (Reg.ERR_LOG i 3) 0 8 = n ∧ rf d (Reg.ERR_LOG i 3) 8 6 = 11 ∧ rf d
      (Reg.ERR_LOG i 3) 22 3 = 0 ∧ acting d 11 0 = true ∧ d.tide.timeReq = some .master ∧ rdN d Reg.ERR_ACT_CNT = (rdN s.dev Reg.ERR_ACT_CNT + 1) % 2
      ^ 32 ∧ rdN d Reg.ERR_ACT_REFUSED_CNT = rdN s.dev Reg.ERR_ACT_REFUSED_CNT ∧ SameMem s.dev d) ∧
    (takeNext s.dev = some e → logSlot s.dev = none → polLookup s.dev e = none → Does (.collectorTake none) s fun d => (eventClass e.code = 0 → rdN d
      Reg.ERR_CORR_CNT = (rdN s.dev Reg.ERR_CORR_CNT + 1) % 2 ^ 32) ∧ (eventClass e.code = 1 → rdN d Reg.ERR_CONT_CNT = (rdN s.dev Reg.ERR_CONT_CNT +
      1) % 2 ^ 32) ∧ (eventClass e.code = 2 → rdN d Reg.ERR_COVE_CNT = (rdN s.dev Reg.ERR_COVE_CNT + 1) % 2 ^ 32) ∧ (eventClass e.code = 3 → rdN d
      Reg.ERR_DEV_CNT = (rdN s.dev Reg.ERR_DEV_CNT + 1) % 2 ^ 32 ∧ tst d Reg.ERR_STATUS 2 = true) ∧ rdN d Reg.ERR_UNLOGGED_CNT = (rdN s.dev
      Reg.ERR_UNLOGGED_CNT + 1) % 2 ^ 32 ∧ rdN d Reg.ERR_LOG_HEAD = rdN s.dev Reg.ERR_LOG_HEAD ∧ SameMem s.dev d) ∧
    (∀ (t : Fin 3) (x : Fin 1024) (bad : Bool), s.dev.err.evq = [] → tst s.dev Reg.ERR_CTRL 0 = false → logSlot s.dev = some i → (List.range 256).all
      (fun n => !(polValid s.dev n)) = true → (t = 0 → bad = false) → Does (.collectorTake (some (t, x, bad))) s fun d => rf d (Reg.ERR_LOG i 0) 0 16
      = 0x1000 + b2n bad ∧ rdN d (Reg.ERR_LOG i 1) = t.val * 4096 + x.val ∧ tst d Reg.ERR_EVENT (b2n bad) = true ∧ (bad = true → t = 2 → polValid d
      (x.val % 256) = false) ∧ SameMem s.dev d) ∧
    (∀ (x : Fin 1024), s.dev.err.evq = [] → tst s.dev Reg.ERR_CTRL 0 = false → (List.range 256).all (fun n => !(polValid s.dev n)) = true → Does
      (.collectorTake (some (0, x, true))) s fun d => sState d (x.val % 512) = 4 ∧ tst d Reg.ERR_EVENT 1 = true ∧ SameMem s.dev d) ∧
    (takeNext s.dev = some e → logSlot s.dev = some i → tst s.dev Reg.ERR_CTRL 0 = true → alwaysPolicy e.code = false → tst s.dev Reg.PCI_STATUS 0 =
      true → Does (.collectorTake none) s fun d => (eventClass e.code = 0 → rdN d Reg.ERR_CORR_CNT = (rdN s.dev Reg.ERR_CORR_CNT + 1) % 2 ^ 32) ∧
      (eventClass e.code = 1 → rdN d Reg.ERR_CONT_CNT = (rdN s.dev Reg.ERR_CONT_CNT + 1) % 2 ^ 32) ∧ (eventClass e.code = 2 → rdN d Reg.ERR_COVE_CNT =
      (rdN s.dev Reg.ERR_COVE_CNT + 1) % 2 ^ 32) ∧ (eventClass e.code = 3 → rdN d Reg.ERR_DEV_CNT = (rdN s.dev Reg.ERR_DEV_CNT + 1) % 2 ^ 32 ∧ tst d
      Reg.ERR_STATUS 2 = true) ∧ rdN d (Reg.ERR_LOG i 1) = e.unit % 2 ^ 16 ∧ rdN d (Reg.ERR_LOG i 2) = e.info % 2 ^ 32 ∧ logPending d i = true ∧
      d.err.posts = s.dev.err.posts ++ [(i, now s.dev, nextTag s.dev 11)] ∧ (∃ x ∈ d.pci.waiting, x.ring = 11 ∧ x.tag = nextTag s.dev 11) ∧ SameMem
      s.dev d) ∧
    (s.dev.err.posts.find? (fun x => x.1 == bits v.toNat 0 6) = none → Does (.errHostCmd v) s fun d => rdN d Reg.ERR_HOST_RESULT = 1 ∧ SameRegs
      [Reg.ERR_HOST_RESULT] s.dev d ∧ SameRest s.dev d) ∧
    (s.dev.err.posts.find? (fun x => x.1 == bits v.toNat 0 6) = some p → now s.dev ≤ p.2.1 + errHostLim s.dev → 19 ≤ bits v.toNat 6 6 → Does
      (.errHostCmd v) s fun d => rdN d Reg.ERR_HOST_RESULT = 2 ∧ SameRegs [Reg.ERR_HOST_RESULT] s.dev d ∧ SameRest s.dev d) ∧
    (s.dev.err.posts.find? (fun x => x.1 == bits v.toNat 0 6) = some p → now s.dev ≤ p.2.1 + errHostLim s.dev → bits v.toNat 6 6 = 0 → Does
      (.errHostCmd v) s fun d => rdN d Reg.ERR_HOST_RESULT = 0 ∧ d.err.posts = s.dev.err.posts.erase p ∧ logPending d p.1 = false ∧ rf d (Reg.ERR_LOG
      p.1 3) 0 8 = 0xFE ∧ rf d (Reg.ERR_LOG p.1 3) 8 6 = 0 ∧ SameMem s.dev d) ∧
    (s.dev.err.posts = [p] → p.1 = bits v.toNat 0 6 → p.2.1 + errHostLim s.dev < now s.dev → Does (.errHostCmd v) s fun d => rdN d Reg.ERR_HOST_RESULT
      = 1 ∧ d.err.posts = [] ∧ rf d (Reg.ERR_LOG p.1 3) 22 3 = 5 ∧ tst d Reg.ERR_EVENT 2 = true ∧ SameMem s.dev d) ∧
    (s.dev.err.posts.find? (fun x => x.1 == bits v.toNat 0 6) = some p → now s.dev ≤ p.2.1 + errHostLim s.dev → bits v.toNat 6 6 = 9 → Does
      (.errHostCmd v) s fun d => rdN d Reg.ERR_HOST_RESULT = 0 ∧ d.err.posts = s.dev.err.posts.erase p ∧ logPending d p.1 = false ∧ rf d (Reg.ERR_LOG
      p.1 3) 0 8 = 0xFE ∧ rf d (Reg.ERR_LOG p.1 3) 8 6 = 9 ∧ rf d (Reg.ERR_LOG p.1 3) 14 8 = bits v.toNat 12 8 ∧ rf d (Reg.ERR_LOG p.1 3) 22 3 = (if
      tideSource s.dev = 0 then 2 else 1) ∧ rdN d Reg.ERR_ACT_CNT = (rdN s.dev Reg.ERR_ACT_CNT + 1) % 2 ^ 32 ∧ SameMem s.dev d) ∧
    (∀ (ps : List (Nat × Nat × Nat)), s.dev.err.posts = p :: ps → p.1 < 64 → p.2.1 + errHostLim s.dev + 1 < 2 ^ 64 → Does .errHostTimeout s fun d =>
      d.err.posts = ps ∧ rf d (Reg.ERR_LOG p.1 3) 22 3 = 5 ∧ logPending d p.1 = false ∧ tst d Reg.ERR_EVENT 2 = true ∧ p.2.1 + errHostLim s.dev < now
      d ∧ 6 ∈ d.tide.waited ∧ (∀ x ∈ d.pci.waiting, ¬ (x.ring = 11 ∧ x.tag = p.2.2)) ∧ SameMem s.dev d) ∧
    (s.dev.err.posts = [] → Does .errHostTimeout s fun d => d = s.dev) ∧
    (domRuns s.dev 98 = true → Does .errKeeperLost s fun d => tst d Reg.ERR_EVENT 4 = true ∧ rdN d Reg.ERR_FAULT_INFO = 1 + 4 * 2 ^ 16 ∧ d.err.evq =
      s.dev.err.evq ++ [⟨0x1004, 1, 1 + 4 * 2 ^ 16, 0xFFFF, now s.dev⟩] ∧ SameRegs [Reg.ERR_EVENT, Reg.ERR_FAULT_INFO] s.dev d ∧ SameMem s.dev d) ∧
    (domRuns s.dev 98 = false → Does .errKeeperLost s fun d => d = s.dev)

/-- Recovery actions (R365, R366, R371, R373, R203, R223, R345). Every action is counted; one that is refused or finds its unit busy is counted as
such too and has no other effect. An accepted action begins its unit's recovery, and stays in progress until that ends; one that is not
equivalence-preserving clears GUARANTEE. A retrain is in progress on its channel or port; a window engine is held for reset; the self-tests of a core
that no cove uses run; a cove's restart is held to the mark; SELECT_HW_MODE holds its mode writes; a device reset begins a boot in stage ROM with the
count of boots raised, an empty DRAM and nothing held. -/
def Obligations.ActionsRunOrAreRefused : Prop :=
  ∀ (s : State) (k : Fin 64) (c : Fin 8) (e : Fin 16) (arg : Fin 256) (st : Fin 512) (dd : Fin 2) (ch : Fin 32) (f : Nat) (row : Fin 16), Awake s →
    (isSCore k = false → domRuns s.dev k = true → acting s.dev 1 k = false → tst s.dev (Reg.WIN_STATUS k) 0 = false → Does (.weReset k) s fun d => rdN
      d Reg.ERR_ACT_CNT = (rdN s.dev Reg.ERR_ACT_CNT + 1) % 2 ^ 32 ∧ acting d 1 k = true ∧ tst d (Reg.WIN_CTRL k) 0 = true ∧ SameMem s.dev d) ∧
    ((isSCore k = true ∨ domRuns s.dev k = false ∨ acting s.dev 1 k = true ∨ tst s.dev (Reg.WIN_STATUS k) 0 = true) → Does (.weReset k) s fun d => rdN
      d Reg.ERR_ACT_CNT = (rdN s.dev Reg.ERR_ACT_CNT + 1) % 2 ^ 32 ∧ rdN d Reg.ERR_ACT_REFUSED_CNT = (rdN s.dev Reg.ERR_ACT_REFUSED_CNT + 1) % 2 ^ 32
      ∧ SameRegs [Reg.ERR_ACT_CNT, Reg.ERR_ACT_REFUSED_CNT] s.dev d ∧ SameRest s.dev d) ∧
    (coreInRunning s.dev k = false → selfTest s.dev k = false → Does (.coreBist k) s fun d => rdN d Reg.ERR_ACT_CNT = (rdN s.dev Reg.ERR_ACT_CNT + 1)
      % 2 ^ 32 ∧ acting d 2 k = true ∧ selfTest d k = true ∧ SameMem s.dev d) ∧
    ((coreInRunning s.dev k = true ∨ selfTest s.dev k = true) → Does (.coreBist k) s fun d => rdN d Reg.ERR_ACT_CNT = (rdN s.dev Reg.ERR_ACT_CNT + 1)
      % 2 ^ 32 ∧ rdN d Reg.ERR_ACT_REFUSED_CNT = (rdN s.dev Reg.ERR_ACT_REFUSED_CNT + 1) % 2 ^ 32 ∧ SameRegs [Reg.ERR_ACT_CNT,
      Reg.ERR_ACT_REFUSED_CNT] s.dev d ∧ SameRest s.dev d) ∧
    (acting s.dev 3 c = false → (coveState s.dev c = 2 ∨ coveState s.dev c = 4 ∨ coveState s.dev c = 5 ∨ coveState s.dev c = 6) → Does (.coveRestart
      c) s fun d => rdN d Reg.ERR_ACT_CNT = (rdN s.dev Reg.ERR_ACT_CNT + 1) % 2 ^ 32 ∧ acting d 3 c = true ∧ d.held = s.dev.held ++ [.cove c (if
      coveState s.dev c = 2 then 3 else 4)] ∧ SameMem s.dev d) ∧
    ((acting s.dev 3 c = true ∨ coveState s.dev c = 0 ∨ coveState s.dev c = 1 ∨ coveState s.dev c = 3) → Does (.coveRestart c) s fun d => rdN d
      Reg.ERR_ACT_CNT = (rdN s.dev Reg.ERR_ACT_CNT + 1) % 2 ^ 32 ∧ rdN d Reg.ERR_ACT_REFUSED_CNT = (rdN s.dev Reg.ERR_ACT_REFUSED_CNT + 1) % 2 ^ 32 ∧
      SameRegs [Reg.ERR_ACT_CNT, Reg.ERR_ACT_REFUSED_CNT] s.dev d ∧ SameRest s.dev d) ∧
    (∀ (x : Nat) (u : Dev), arg.val = 128 + x → x < 32 → moveTo e x (moveTarget s.dev e false) s.dev = (0, u) → Does (.moveLocal e arg) s fun d => d =
      bump Reg.ERR_ACT_CNT 1 u) ∧
    (arg.val < 128 → (List.range 32).any (fun x => ctxValid s.dev (e * 32 + x)) = false → Does (.moveLocal e arg) s fun d => rdN d Reg.ERR_ACT_CNT =
      (rdN s.dev Reg.ERR_ACT_CNT + 1) % 2 ^ 32 ∧ rdN d Reg.ERR_ACT_REFUSED_CNT = (rdN s.dev Reg.ERR_ACT_REFUSED_CNT + 1) % 2 ^ 32 ∧ SameRegs
      [Reg.ERR_ACT_CNT, Reg.ERR_ACT_REFUSED_CNT] s.dev d ∧ SameRest s.dev d) ∧
    (∀ (x : Nat) (u : Dev), arg.val = 128 + x → x < 32 → moveTo e x (moveTarget s.dev e true) s.dev = (0, u) → Does (.moveRemote e arg) s fun d => d =
      bump Reg.ERR_ACT_CNT 1 (notEquivalent u)) ∧
    (arg.val < 128 → (List.range 32).any (fun x => ctxValid s.dev (e * 32 + x)) = false → Does (.moveRemote e arg) s fun d => rdN d Reg.ERR_ACT_CNT =
      (rdN s.dev Reg.ERR_ACT_CNT + 1) % 2 ^ 32 ∧ rdN d Reg.ERR_ACT_REFUSED_CNT = (rdN s.dev Reg.ERR_ACT_REFUSED_CNT + 1) % 2 ^ 32 ∧ SameRegs
      [Reg.ERR_ACT_CNT, Reg.ERR_ACT_REFUSED_CNT] s.dev d ∧ SameRest s.dev d) ∧
    (mayReopen s.dev st = true → Does (.ingReopen st) s fun d => rdN d Reg.ERR_ACT_CNT = (rdN s.dev Reg.ERR_ACT_CNT + 1) % 2 ^ 32 ∧ sState d st = 1 ∧
      SameMem s.dev d) ∧
    (mayReopen s.dev st = false → Does (.ingReopen st) s fun d => rdN d Reg.ERR_ACT_CNT = (rdN s.dev Reg.ERR_ACT_CNT + 1) % 2 ^ 32 ∧ rdN d
      Reg.ERR_ACT_REFUSED_CNT = (rdN s.dev Reg.ERR_ACT_REFUSED_CNT + 1) % 2 ^ 32 ∧ SameRegs [Reg.ERR_ACT_CNT, Reg.ERR_ACT_REFUSED_CNT] s.dev d ∧
      SameRest s.dev d) ∧
    (stValid s.dev st = true → Does (.ingResync st) s fun d => d = bump Reg.ERR_ACT_CNT 1 (resync st s.dev)) ∧
    (stValid s.dev st = false → Does (.ingResync st) s fun d => rdN d Reg.ERR_ACT_CNT = (rdN s.dev Reg.ERR_ACT_CNT + 1) % 2 ^ 32 ∧ rdN d
      Reg.ERR_ACT_REFUSED_CNT = (rdN s.dev Reg.ERR_ACT_REFUSED_CNT + 1) % 2 ^ 32 ∧ SameRegs [Reg.ERR_ACT_CNT, Reg.ERR_ACT_REFUSED_CNT] s.dev d ∧
      SameRest s.dev d) ∧
    (tideSource s.dev ≠ 0 → Does .tideRelock s fun d => d = bump Reg.ERR_ACT_CNT 1 (relock s.dev)) ∧
    (tideSource s.dev = 0 → Does .tideRelock s fun d => rdN d Reg.ERR_ACT_CNT = (rdN s.dev Reg.ERR_ACT_CNT + 1) % 2 ^ 32 ∧ rdN d
      Reg.ERR_ACT_REFUSED_CNT = (rdN s.dev Reg.ERR_ACT_REFUSED_CNT + 1) % 2 ^ 32 ∧ SameRegs [Reg.ERR_ACT_CNT, Reg.ERR_ACT_REFUSED_CNT] s.dev d ∧
      SameRest s.dev d) ∧
    (∀ (w : Fin 4), w ≠ 3 → s.dev.tide.marked = true → Does (.tideSource w) s fun d => rdN d Reg.ERR_ACT_CNT = (rdN s.dev Reg.ERR_ACT_CNT + 1) % 2 ^
      32 ∧ acting d 10 0 = true ∧ Held.reg Reg.TIDE_CTRL 3 w ∈ d.held ∧ SameMem s.dev d) ∧
    (∀ (w : Fin 4), w ≠ 3 → s.dev.tide.marked = false → Does (.tideSource w) s fun d => rdN d Reg.ERR_ACT_CNT = (rdN s.dev Reg.ERR_ACT_CNT + 1) % 2 ^
      32 ∧ tideSource d = w ∧ tst d Reg.ERR_STATUS 1 = false ∧ SameMem s.dev d) ∧
    (Does (.tideSource 3) s fun d => rdN d Reg.ERR_ACT_CNT = (rdN s.dev Reg.ERR_ACT_CNT + 1) % 2 ^ 32 ∧ rdN d Reg.ERR_ACT_REFUSED_CNT = (rdN s.dev
      Reg.ERR_ACT_REFUSED_CNT + 1) % 2 ^ 32 ∧ SameRegs [Reg.ERR_ACT_CNT, Reg.ERR_ACT_REFUSED_CNT] s.dev d ∧ SameRest s.dev d) ∧
    (s.dev.ptp.sel.isSome = true → s.dev.ptp.lastOff.isSome = true → Does .tideStep s fun d => rdN d Reg.ERR_ACT_CNT = (rdN s.dev Reg.ERR_ACT_CNT + 1)
      % 2 ^ 32 ∧ acting d 11 0 = true ∧ d.tide.timeReq = some .master ∧ d.regs = (bump Reg.ERR_ACT_CNT 1 s.dev).regs ∧ SameMem s.dev d) ∧
    ((s.dev.ptp.sel = none ∨ s.dev.ptp.lastOff = none) → Does .tideStep s fun d => rdN d Reg.ERR_ACT_CNT = (rdN s.dev Reg.ERR_ACT_CNT + 1) % 2 ^ 32 ∧
      rdN d Reg.ERR_ACT_REFUSED_CNT = (rdN s.dev Reg.ERR_ACT_REFUSED_CNT + 1) % 2 ^ 32 ∧ SameRegs [Reg.ERR_ACT_CNT, Reg.ERR_ACT_REFUSED_CNT] s.dev d ∧
      SameRest s.dev d) ∧
    (training s.dev dd = none → tst s.dev (Reg.DMC_STATUS dd) 1 = false → Does (.dmcRetrain dd ch) s fun d => rdN d Reg.ERR_ACT_CNT = (rdN s.dev
      Reg.ERR_ACT_CNT + 1) % 2 ^ 32 ∧ training d dd = some ch.val ∧ acting d 12 (32 * dd.val + ch.val) = true) ∧
    (((training s.dev dd).isSome = true ∨ tst s.dev (Reg.DMC_STATUS dd) 1 = true) → Does (.dmcRetrain dd ch) s fun d => rdN d Reg.ERR_ACT_CNT = (rdN
      s.dev Reg.ERR_ACT_CNT + 1) % 2 ^ 32 ∧ rdN d Reg.ERR_ACT_REFUSED_CNT = (rdN s.dev Reg.ERR_ACT_REFUSED_CNT + 1) % 2 ^ 32 ∧ SameRegs
      [Reg.ERR_ACT_CNT, Reg.ERR_ACT_REFUSED_CNT] s.dev d ∧ SameRest s.dev d) ∧
    (portTraining s.dev dd = none → Does (.dlinkRetrain dd ch) s fun d => rdN d Reg.ERR_ACT_CNT = (rdN s.dev Reg.ERR_ACT_CNT + 1) % 2 ^ 32 ∧
      portTraining d dd = some ch.val ∧ acting d 13 (32 * dd.val + ch.val) = true ∧ SameMem s.dev d) ∧
    ((portTraining s.dev dd).isSome = true → Does (.dlinkRetrain dd ch) s fun d => rdN d Reg.ERR_ACT_CNT = (rdN s.dev Reg.ERR_ACT_CNT + 1) % 2 ^ 32 ∧
      rdN d Reg.ERR_ACT_REFUSED_CNT = (rdN s.dev Reg.ERR_ACT_REFUSED_CNT + 1) % 2 ^ 32 ∧ SameRegs [Reg.ERR_ACT_CNT, Reg.ERR_ACT_REFUSED_CNT] s.dev d ∧
      SameRest s.dev d) ∧
    (f < kvPool s.dev → f < 2 ^ 19 → frState s.dev f = 3 → holdersOf s.dev f = [] → Does (.kvReclaim f) s fun d => d = bump Reg.ERR_ACT_CNT 1
      (returnFrame f s.dev)) ∧
    (f < 2 ^ 19 → (kvPool s.dev ≤ f ∨ frState s.dev f ≠ 3) → Does (.kvReclaim f) s fun d => rdN d Reg.ERR_ACT_CNT = (rdN s.dev Reg.ERR_ACT_CNT + 1) %
      2 ^ 32 ∧ rdN d Reg.ERR_ACT_REFUSED_CNT = (rdN s.dev Reg.ERR_ACT_REFUSED_CNT + 1) % 2 ^ 32 ∧ SameRegs [Reg.ERR_ACT_CNT, Reg.ERR_ACT_REFUSED_CNT]
      s.dev d ∧ SameRest s.dev d) ∧
    (∀ (qs : List Nat), leftWaiting s.dev (taskEvent k) = qs → qs ≠ [] → Does (.seqRecompute k) s fun d => d = bump Reg.ERR_ACT_CNT 1 (qs.foldl (fun t
      q => evictWhenFree q t) s.dev)) ∧
    (leftWaiting s.dev (taskEvent k) = [] → Does (.seqRecompute k) s fun d => rdN d Reg.ERR_ACT_CNT = (rdN s.dev Reg.ERR_ACT_CNT + 1) % 2 ^ 32 ∧ rdN d
      Reg.ERR_ACT_REFUSED_CNT = (rdN s.dev Reg.ERR_ACT_REFUSED_CNT + 1) % 2 ^ 32 ∧ SameRegs [Reg.ERR_ACT_CNT, Reg.ERR_ACT_REFUSED_CNT] s.dev d ∧
      SameRest s.dev d) ∧
    (∀ (qs : List Nat), leftWaiting s.dev (taskEvent k) = qs → qs ≠ [] → Does (.seqEnd k) s fun d => d = bump Reg.ERR_ACT_CNT 1 (notEquivalent
      (qs.foldl (fun t q => endSeq q t) s.dev))) ∧
    (leftWaiting s.dev (taskEvent k) = [] → Does (.seqEnd k) s fun d => rdN d Reg.ERR_ACT_CNT = (rdN s.dev Reg.ERR_ACT_CNT + 1) % 2 ^ 32 ∧ rdN d
      Reg.ERR_ACT_REFUSED_CNT = (rdN s.dev Reg.ERR_ACT_REFUSED_CNT + 1) % 2 ^ 32 ∧ SameRegs [Reg.ERR_ACT_CNT, Reg.ERR_ACT_REFUSED_CNT] s.dev d ∧
      SameRest s.dev d) ∧
    (row.val < 8 → Does (.selectHwMode row) s fun d => rdN d Reg.ERR_ACT_CNT = (rdN s.dev Reg.ERR_ACT_CNT + 1) % 2 ^ 32 ∧ acting d 17 row = true ∧
      (row = 3 → .reg Reg.PIX_CTRL 1 0 ∈ d.held) ∧ (row = 4 → .reg (Reg.TRK_CTRL 0) 2 0 ∈ d.held ∧ .reg (Reg.TRK_CTRL 1) 2 0 ∈ d.held) ∧ (row = 5 →
      .reg Reg.KVF_CTRL 1 0 ∈ d.held) ∧ (row = 6 → .reg Reg.ERR_CTRL 1 0 ∈ d.held) ∧ (row = 7 → .reg Reg.MDO_CTRL 3 1 ∈ d.held) ∧ d.regs = (bump
      Reg.ERR_ACT_CNT 1 s.dev).regs ∧ SameMem s.dev d) ∧
    (row.val < 3 → Does (.selectHwMode row) s fun d => rdN d Reg.ERR_ACT_CNT = (rdN s.dev Reg.ERR_ACT_CNT + 1) % 2 ^ 32 ∧ (row = 0 → stValid s.dev st
      = true → stHost s.dev st = true → .reg (Reg.ING_TABLE st 0) 2 0 ∈ d.held) ∧ (∀ x, x < 512 → ctxValid s.dev x = true → ctxHost s.dev x = true →
      ((row = 1 ∧ ctxEncodes s.dev x = false) ∨ (row = 2 ∧ ctxEncodes s.dev x = true)) → .reg (Reg.CDC_CTX_CFG (x / 32) (x % 32)) (2 ^ 13) 0 ∈
      d.held)) ∧
    (8 ≤ row.val → Does (.selectHwMode row) s fun d => rdN d Reg.ERR_ACT_CNT = (rdN s.dev Reg.ERR_ACT_CNT + 1) % 2 ^ 32 ∧ rdN d
      Reg.ERR_ACT_REFUSED_CNT = (rdN s.dev Reg.ERR_ACT_REFUSED_CNT + 1) % 2 ^ 32 ∧ SameRegs [Reg.ERR_ACT_CNT, Reg.ERR_ACT_REFUSED_CNT] s.dev d ∧
      SameRest s.dev d) ∧
    (Does .deviceReset s fun d => rdN d Reg.BOOT_COUNT = (rdN s.dev Reg.BOOT_COUNT + 1) % 2 ^ 32 ∧ stage d = 1 ∧ bootMode d = bootMode s.dev ∧ d.dram
      = [] ∧ d.held = [] ∧ d.cores = [] ∧ d.kv = {} ∧ (s.dev.bt.ops = [] → d.flash = s.dev.flash))

/-! ## PCIe endpoint (16) -/

/-- The endpoint (R376, R377, R379 to R383, R392 to R395). With the link down a request of the host has no effect. A configuration request meets Retry
until CFG_READY and during a function reset; a read answers the register, a write changes its writable bits; D3hot stops new requests, and D0 leaves
the rings as they were. A BAR2 access inside its size whose bytes can be reached reads or writes those bytes of DRAM and no others; a read of others
or of damaged bytes answers an error, and a write of others or one that is damaged on its way changes nothing. A link that trains shows its speed and
width; one that is lost is counted and reported and resets the function, as Initiate FLR does. An idle link goes to L1 where that is enabled. PCI_WAKE
begins the exit from ebb. -/
def Obligations.HostAccessReachesTheFunction : Prop :=
  ∀ (s : State) (a : Fin 4096) (be : Fin 16) (v : Word) (o : Nat) (n : Nat) (l : List Byte) (x : Nat), Awake s →
    (∀ (wr : Option Word), linkUp s.dev = false → Does (.configRequest a be wr) s fun d => d = s.dev) ∧
    (∀ (wr : Option Word), linkUp s.dev = true → (tst s.dev Reg.PCI_STATUS 11 = false ∨ tst s.dev Reg.PCI_STATUS 10 = true) → Does (.configRequest a
      be wr) s fun d => d.out = s.dev.out ++ [.cfg none] ∧ SameRegs [Reg.PCI_STATUS] s.dev d ∧ d.pci = (leaveL1 s.dev).pci) ∧
    (linkUp s.dev = true → tst s.dev Reg.PCI_STATUS 11 = true → tst s.dev Reg.PCI_STATUS 10 = false → Does (.configRequest a be none) s fun d => d.out
      = s.dev.out ++ [.cfg (some (cfgRead s.dev (a.val / 4 * 4)))] ∧ SameRegs [Reg.PCI_STATUS] s.dev d ∧ d.pci = (leaveL1 s.dev).pci) ∧
    (∀ (m : Nat), linkUp s.dev = true → tst s.dev Reg.PCI_STATUS 11 = true → tst s.dev Reg.PCI_STATUS 10 = false → cfgMasks s.dev (a.val / 4 * 4) =
      (m, 0) → a.val / 4 * 4 ≠ 0x44 → Does (.configRequest a 15 (some v)) s fun d => cfgDw d (a.val / 4 * 4) = cfgDw s.dev (a.val / 4 * 4) - (cfgDw
      s.dev (a.val / 4 * 4) &&& m) + (v.toNat &&& m) ∧ d.out.getLast? = some (.cfg (some 0)) ∧ SameMem s.dev d) ∧
    (linkUp s.dev = true → tst s.dev Reg.PCI_STATUS 11 = true → tst s.dev Reg.PCI_STATUS 10 = false → Does .pcieD3hotEntry s fun d => inD3 d = true ∧
      tst d Reg.PCI_STATUS 13 = true ∧ canIssue d = false ∧ SameMem s.dev d) ∧
    (linkUp s.dev = false → Does .pcieD3hotEntry s fun d => d = s.dev) ∧
    (linkUp s.dev = true → tst s.dev Reg.PCI_STATUS 11 = true → tst s.dev Reg.PCI_STATUS 10 = false → Does .pcieD0Return s fun d => inD3 d = false ∧
      tst d Reg.PCI_STATUS 13 = false ∧ (∀ r : Fin 12, ringState d r = ringState s.dev r ∧ rdN d (Reg.PCI_RING_PI r) = rdN s.dev (Reg.PCI_RING_PI r) ∧
      rdN d (Reg.PCI_RING_CI r) = rdN s.dev (Reg.PCI_RING_CI r)) ∧ SameMem s.dev d) ∧
    (linkUp s.dev = false → Does .pcieD0Return s fun d => d = s.dev) ∧
    (barReached s.dev = true → x = rd64 s.dev Reg.PCI_BAR2_WIN_LO + o → o + n ≤ 2 ^ bar2Bits s.dev → ebbState s.dev < 2 → (dramRead s.dev 0 x
      n).isNone = true → Does (.bar2Access o n none .none) s fun d => d.out = s.dev.out ++ [.bar2 (some (rdBytes .dram s.dev x n))] ∧ SameMem s.dev d) ∧
    (barReached s.dev = true → x = rd64 s.dev Reg.PCI_BAR2_WIN_LO + o → o + n ≤ 2 ^ bar2Bits s.dev → ebbState s.dev < 2 → x < dramBytes → (dramRead
      s.dev 0 x n).isNone = true → Does (.bar2Access o n none .dramEcc) s fun d => d.out = s.dev.out ++ [.bar2 none] ∧ tst d (Reg.DMC_EVENT (x / 2 ^
      34)) 1 = true ∧ rd64 d (Reg.DMC_FAULT_ADDR_LO (x / 2 ^ 34)) = x ∧ SameMem s.dev d) ∧
    (barReached s.dev = true → x = rd64 s.dev Reg.PCI_BAR2_WIN_LO + o → o + n ≤ 2 ^ bar2Bits s.dev → (2 ≤ ebbState s.dev ∨ (dramRead s.dev 0 x
      n).isSome = true) → Does (.bar2Access o n none .none) s fun d => d.out = s.dev.out ++ [.bar2 none] ∧ SameMem s.dev d) ∧
    (barReached s.dev = true → x = rd64 s.dev Reg.PCI_BAR2_WIN_LO + o → o + l.length ≤ 2 ^ bar2Bits s.dev → (dramReach s.dev 0 x l.length).isNone =
      true → ebbState s.dev < 2 → x + l.length ≤ dramBytes → Does (.bar2Access o n (some l) .none) s fun d => rdBytes .dram d x l.length = l ∧
      SameOutside x l.length s.dev d ∧ SameRegs [Reg.PCI_STATUS] s.dev d) ∧
    (∀ (flt : TlpFlt), barReached s.dev = true → x = rd64 s.dev Reg.PCI_BAR2_WIN_LO + o → (flt = .poisoned ∨ flt = .malformed ∨ flt = .unexpected ∨
      flt = .bufUncorr ∨ 2 ^ bar2Bits s.dev < o + l.length ∨ (dramReach s.dev 0 x l.length).isSome = true ∨ 2 ≤ ebbState s.dev) → Does (.bar2Access o
      n (some l) flt) s fun d => SameMem s.dev d ∧ d.out = s.dev.out) ∧
    (∀ (wr : Option (List Byte)) (flt : TlpFlt), barReached s.dev = false → Does (.bar2Access o n wr flt) s fun d => SameMem s.dev d ∧ d.out =
      s.dev.out) ∧
    (linkUp s.dev = true → tst s.dev Reg.PCI_STATUS 10 = false → Does .initiateFlr s fun d => tst d Reg.PCI_STATUS 10 = true ∧ rdN d Reg.PCI_FLR_CNT =
      (rdN s.dev Reg.PCI_FLR_CNT + 1) % 2 ^ 32 ∧ tst d Reg.PCI_EVENT 9 = true ∧ canIssue d = false ∧ SameMem s.dev d) ∧
    ((linkUp s.dev = false ∨ tst s.dev Reg.PCI_STATUS 10 = true) → Does .initiateFlr s fun d => d = s.dev) ∧
    (∀ (gen : Nat) (width : Nat) (rep : LinkReport), s.dev.pins.perst = true → 1 ≤ gen → gen ≤ maxGen s.dev → width ∈ [1, 2, 4, 8, 16] → Does
      (.pcieLinkUp gen width rep) s fun d => linkUp d = true ∧ rf d Reg.PCI_STATUS 1 3 = gen ∧ rf d Reg.PCI_STATUS 4 5 = width ∧ rdN d
      Reg.PCI_RETRAIN_CNT = (rdN s.dev Reg.PCI_RETRAIN_CNT + b2n (linkUp s.dev)) % 2 ^ 32 ∧ ((gen < 5 ∨ width < 16) → tst d Reg.PCI_EVENT 11 = true) ∧
      rdN d Reg.PCI_REPLAY_CNT = (rdN s.dev Reg.PCI_REPLAY_CNT + rep.replays) % 2 ^ 32 ∧ SameMem s.dev d) ∧
    (∀ (gen : Nat) (width : Nat) (rep : LinkReport), (s.dev.pins.perst = false ∨ gen = 0 ∨ maxGen s.dev < gen ∨ width ∉ [1, 2, 4, 8, 16]) → Does
      (.pcieLinkUp gen width rep) s fun d => d = s.dev) ∧
    (linkUp s.dev = true → Does .pcieLinkDown s fun d => linkUp d = false ∧ tst d Reg.PCI_STATUS 10 = true ∧ rdN d Reg.PCI_LINK_DOWN_CNT = (rdN s.dev
      Reg.PCI_LINK_DOWN_CNT + 1) % 2 ^ 32 ∧ tst d Reg.PCI_EVENT 0 = true ∧ SameMem s.dev d) ∧
    (linkUp s.dev = false → Does .pcieLinkDown s fun d => d = s.dev) ∧
    (s.dev.pci.tlpAt + rf s.dev Reg.PCI_LINK_CFG 3 10 * 1000 < 2 ^ 64 → linkUp s.dev = true → bitOf (cfgDw s.dev 0x60) 1 = true → PostsBlocked s.dev →
      Does .l1IdleExpiry s fun d => tst d Reg.PCI_STATUS 9 = true ∧ s.dev.pci.tlpAt + rf s.dev Reg.PCI_LINK_CFG 3 10 * 1000 ≤ now d ∧ SameRegs
      [Reg.PCI_STATUS] s.dev d ∧ d.pci = s.dev.pci ∧ SameMem s.dev d) ∧
    ((linkUp s.dev = false ∨ bitOf (cfgDw s.dev 0x60) 1 = false) → Does .l1IdleExpiry s fun d => d = s.dev) ∧
    (barReached s.dev = true → bitOf v.toNat 0 = true → tst s.dev Reg.PWR_WAKE_EN 2 = true → (ebbState s.dev = 1 ∨ ebbState s.dev = 2) → Does
      (.pciWake v) s fun d => ebbState d = 3 ∧ rdN d Reg.PWR_WAKE_SRC = 4 ∧ SameMem s.dev d) ∧
    (barReached s.dev = true → (bitOf v.toNat 0 = false ∨ tst s.dev Reg.PWR_WAKE_EN 2 = false ∨ ebbState s.dev = 0) → Does (.pciWake v) s fun d => d =
      leaveL1 s.dev)

/-- Rings (R382, R385, R386, R389, R391, R446), for a host request that reaches BAR0 or BAR4. Enabling a ring whose slots and base R386 admits sets it
running with both indices 0; otherwise EN stays 0 with PCI_CFG_INVALID. A running ring's configuration takes only the clearing of EN, which turns it
OFF with its indices as they are. A doorbell in whole dwords on a running ring sets the producer index of a host ring, or the consumer index of a
device ring, within what the ring holds; one that goes further stops the ring with its report; on any other ring, or in part, it is refused and
reported. A request that ends in error stops the ring. A signal that fell into the moderation time is sent at its end. -/
def Obligations.RingsRunStopAndSignal : Prop :=
  ∀ (s : State) (r : Fin 12) (v : Word), Awake s →
    (barReached s.dev = true → tst s.dev (Reg.PCI_RING_CFG r) 0 = false → 4 ≤ bits v.toNat 1 4 → minSlot r ≤ bits v.toNat 5 4 → bits v.toNat 5 4 ≤ 11
      → rf s.dev (Reg.PCI_RING_BASE_LO r) 0 12 = 0 → Does (.ringEnable r v) s fun d => ringState d r = 1 ∧ tst d (Reg.PCI_RING_CFG r) 0 = true ∧ rdN d
      (Reg.PCI_RING_PI r) = 0 ∧ rdN d (Reg.PCI_RING_CI r) = 0 ∧ ringEntries d r = 2 ^ bits v.toNat 1 4 ∧ ringSlot d r = 2 ^ bits v.toNat 5 4 ∧ SameMem
      s.dev d) ∧
    (barReached s.dev = true → tst s.dev (Reg.PCI_RING_CFG r) 0 = false → (bits v.toNat 1 4 < 4 ∨ bits v.toNat 5 4 < minSlot r ∨ 11 < bits v.toNat 5 4
      ∨ rf s.dev (Reg.PCI_RING_BASE_LO r) 0 12 ≠ 0) → Does (.ringEnable r v) s fun d => tst d (Reg.PCI_RING_CFG r) 0 = false ∧ tst d Reg.PCI_EVENT 6 =
      true ∧ ringState d r = ringState s.dev r ∧ SameMem s.dev d) ∧
    (barReached s.dev = true → tst s.dev (Reg.PCI_RING_CFG r) 0 = true → putBits v.toNat 0 1 1 % 2 ^ 26 ≠ rdN s.dev (Reg.PCI_RING_CFG r) → Does
      (.ringEnable r v) s fun d => tst d Reg.PCI_EVENT 12 = true ∧ SameRegs [Reg.PCI_EVENT, Reg.PCI_STATUS] s.dev d ∧ SameMem s.dev d) ∧
    (barReached s.dev = true → tst s.dev (Reg.PCI_RING_CFG r) 0 = true → Does (.ringDisable r) s fun d => ringState d r = 0 ∧ tst d (Reg.PCI_RING_CFG
      r) 0 = false ∧ rdN d (Reg.PCI_RING_PI r) = rdN s.dev (Reg.PCI_RING_PI r) ∧ rdN d (Reg.PCI_RING_CI r) = rdN s.dev (Reg.PCI_RING_CI r) ∧ SameMem
      s.dev d) ∧
    (barReached s.dev = true → tst s.dev (Reg.PCI_RING_CFG r) 0 = false → Does (.ringDisable r) s fun d => ringState d r = ringState s.dev r ∧ tst d
      (Reg.PCI_RING_CFG r) 0 = false ∧ SameRegs [Reg.PCI_RING_CFG r, Reg.PCI_STATUS] s.dev d) ∧
    (∀ (be : Fin 16), barReached s.dev = true → (be ≠ 15 ∨ ringState s.dev r ≠ 1) → Does (.doorbellWrite r be v) s fun d => tst d Reg.PCI_EVENT (if be
      = 15 then 12 else 10) = true ∧ SameRegs [Reg.PCI_EVENT, Reg.PCI_STATUS] s.dev d ∧ SameMem s.dev d) ∧
    (barReached s.dev = true → ringState s.dev r = 1 → isD2H r = false → (v.toNat + 2 ^ 32 - rdN s.dev (Reg.PCI_RING_CI r)) % 2 ^ 32 ≤ ringEntries
      s.dev r → Does (.doorbellWrite r 15 v) s fun d => rdN d (Reg.PCI_RING_PI r) = v.toNat ∧ rdN d (Reg.PCI_RING_CI r) = rdN s.dev (Reg.PCI_RING_CI
      r) ∧ ringState d r = 1 ∧ tst d (Reg.PCI_RING_STATE r) 2 = ringFull d r ∧ SameMem s.dev d) ∧
    (barReached s.dev = true → ringState s.dev r = 1 → isD2H r = true → (v.toNat + 2 ^ 32 - rdN s.dev (Reg.PCI_RING_CI r)) % 2 ^ 32 ≤ ringUsed s.dev r
      → Does (.doorbellWrite r 15 v) s fun d => rdN d (Reg.PCI_RING_CI r) = v.toNat ∧ rdN d (Reg.PCI_RING_PI r) = rdN s.dev (Reg.PCI_RING_PI r) ∧
      ringState d r = 1 ∧ SameMem s.dev d) ∧
    (barReached s.dev = true → ringState s.dev r = 1 → (if isD2H r then ringUsed s.dev r else ringEntries s.dev r) < (v.toNat + 2 ^ 32 - rdN s.dev
      (Reg.PCI_RING_CI r)) % 2 ^ 32 → Does (.doorbellWrite r 15 v) s fun d => ringState d r = 2 ∧ tst d Reg.PCI_EVENT 4 = true ∧ rdN d
      Reg.PCI_FAULT_INFO = r + 16 ∧ SameRegs [Reg.PCI_EVENT, Reg.PCI_FAULT_INFO, Reg.PCI_RING_STATE r, Reg.PCI_STATUS] s.dev d) ∧
    (∀ (how : Fin 4), ringState s.dev r = 1 → Does (.pciDmaErr r how) s fun d => ringState d r = 2 ∧ tst d Reg.PCI_EVENT 5 = true ∧ rdN d
      Reg.PCI_FAULT_INFO = r + 32 ∧ SameMem s.dev d) ∧
    (∀ (how : Fin 4), ringState s.dev r ≠ 1 → Does (.pciDmaErr r how) s fun d => d = s.dev) ∧
    (∀ (t : Nat), s.dev.pci.deferred.contains r.val = true → t = mget (fun _ => 0) s.dev.pci.modAt r → t + rf s.dev (Reg.PCI_RING_CFG r) 16 10 * 1000
      < 2 ^ 64 → msixEnabled s.dev = true → msixFuncMask s.dev = false → vecMasked s.dev (rf s.dev (Reg.PCI_RING_CFG r) 9 6) = false → canIssue s.dev
      = true → Does (.msixModerationExpiry r) s fun d => d.out = s.dev.out ++ [.msix (rf s.dev (Reg.PCI_RING_CFG r) 9 6)] ∧ d.pci.deferred =
      s.dev.pci.deferred.erase r ∧ t + rf s.dev (Reg.PCI_RING_CFG r) 16 10 * 1000 ≤ now d ∧ SameMem s.dev d) ∧
    (s.dev.pci.deferred.contains r.val = false → Does (.msixModerationExpiry r) s fun d => d = s.dev)

/-- R445, with the function reset of R392 at its completion. Every vector is masked and GEN_IRQ_PEND is unchanged. The first unmasking of a vector
after that, with MSI-X enabled and messages allowed to leave, sends one message on it when an enabled pending source is mapped to it, so for a
BOOT_GATE that has fired, and none when there is none and no message is pending. -/
def Obligations.FirstUnmaskSendsPendingMessage : Prop :=
  ∀ (s : State) (v : Fin 64), Awake s →
    (tst s.dev Reg.PCI_STATUS 10 = true → Does .flrComplete s fun d => (∀ x : Fin 64, vecMasked d x = true ∧ bitOf d.pci.everUnmasked x = false) ∧ rdN
      d Reg.GEN_IRQ_PEND = rdN s.dev Reg.GEN_IRQ_PEND ∧ tst d Reg.PCI_STATUS 10 = false) ∧
    (tst s.dev Reg.PCI_STATUS 10 = false → Does .flrComplete s fun d => d = s.dev) ∧
    (barReached s.dev = true → bitOf s.dev.pci.everUnmasked v = false → bitOf s.dev.pci.pba v = false → msixEnabled s.dev = true → msixFuncMask s.dev
      = false → canIssue s.dev = true → Does (.msixUnmask v) s fun d => vecMasked d v = false ∧ d.out = s.dev.out ++ (if mappedPending s.dev v then
      [.msix v] else [])) ∧
    (barReached s.dev = true → bitOf s.dev.pci.everUnmasked v = false → (bitOf s.dev.pci.pba v = true ∨ (tst s.dev Reg.GEN_IRQ_PEND 23 = true ∧ tst
      s.dev Reg.GEN_IRQ_EN 23 = true ∧ rf s.dev (Reg.GEN_IRQ_VEC 23) 0 6 = v)) → msixEnabled s.dev = true → msixFuncMask s.dev = false → canIssue
      s.dev = true → Does (.msixUnmask v) s fun d => vecMasked d v = false ∧ d.out = s.dev.out ++ [.msix v] ∧ bitOf d.pci.pba v = false)

/-! ## Registers (19) -/

/-- The register bus (R9, R10, R13, R382, R421, R439, R440, R444). The host reaches a register through the link, the other requesters directly. A
write of part of a dword is rejected with a report, and one to an offset that does not respond changes no register. A register without a rule of its
own takes a write by its access codes: W1C bits written 1 clear, W1S bits written 1 set, RW bits take the value, held ones wait for the mark, and the
other bits stay. A die 1 offset behind a DOWN port pair gives an error response. A read of a lower half answers it and keeps the upper half for its
requester; a read of an upper half answers what was kept. A write of a lower half is kept, and that of the upper half then takes effect for both.
Clearing GEN_IRQ_PEND bits requests a message again for each enabled one that remains. -/
def Obligations.RegistersObeyTheirAccessCodes : Prop :=
  ∀ (s : State) (r : Req) (a : Nat) (v : Word) (u : Dev) (x : RegDef), Awake s →
    (∀ (be : Fin 16), (r ≠ Req.host ∨ barReached s.dev = true) → be ≠ 15 → Does (.registerWrite r a be v) s fun d => tst d Reg.PCI_EVENT 10 = true ∧
      SameRegs [Reg.PCI_EVENT, Reg.PCI_STATUS] s.dev d ∧ SameRest s.dev d) ∧
    (∀ (be : Fin 16), r = Req.host → linkUp s.dev = false → Does (.registerWrite r a be v) s fun d => d = s.dev) ∧
    ((r ≠ Req.host ∨ barReached s.dev = true) → responds s.dev a = false → Does (.registerWrite r a 15 v) s fun d => SameRegs [Reg.PCI_STATUS] s.dev d
      ∧ SameRest s.dev d ∧ d.held = s.dev.held) ∧
    (u = (if r = Req.host then leaveL1 s.dev else s.dev) → Reaches s.dev r a → regDef? (a) = some x → (x.rw = 0 ∨ (x.lo = false ∧ isHigh a = false)) →
      clampsOf s.dev a x = [] → a ≠ Reg.TIDE_CTRL → (x.held = 0 ∨ isTide a = false) → ruledWrite a v.toNat = none → pairRule a [v.toNat] (storeEach a
      [v.toNat]) = none → Does (.registerWrite r a 15 v) s fun d => rdN d a = (((rdN u a - (rdN u a &&& x.w1c &&& v.toNat)) ||| (x.w1s &&& v.toNat)) -
      (((rdN u a - (rdN u a &&& x.w1c &&& v.toNat)) ||| (x.w1s &&& v.toNat)) &&& (x.rw - x.held)) + (v.toNat &&& (x.rw - x.held))) % 2 ^ 32 ∧ SameRegs
      [a, Reg.PCI_STATUS] s.dev d ∧ SameMem s.dev d ∧ (x.held ≠ 0 → .reg a x.held (v.toNat &&& x.held) ∈ d.held)) ∧
    (Reaches s.dev r a → regDef? (a) = some x → x.lo = true → x.rw ≠ 0 → Does (.registerWrite r a 15 v) s fun d => (latchOf d r a).wr = some v ∧
      SameRegs [Reg.PCI_STATUS] s.dev d ∧ SameMem s.dev d) ∧
    (∀ (w : Word) (y : RegDef), Reaches s.dev r a → regDef? (a) = some x → regDef? (a - 4) = some y → y.lo = true → 4 ≤ a → x.lo = false → x.rw ≠ 0 →
      y.rw ≠ 0 → x.held = 0 → y.held = 0 → x.w1c = 0 → y.w1c = 0 → x.w1s = 0 → y.w1s = 0 → clampsOf s.dev a x = [] → clampsOf s.dev (a - 4) y = [] → a
      ≠ Reg.TIDE_CTRL → a - 4 ≠ Reg.TIDE_CTRL → (latchOf s.dev r (a - 4)).wr = some w → ruledWrite a v.toNat = none → ruledWrite (a - 4) w.toNat =
      none → pairRule (a - 4) [w.toNat, v.toNat] (storeEach (a - 4) [w.toNat, v.toNat]) = none → Does (.reg64HiWrite r a v) s fun d => rdN d (a - 4) =
      (rdN s.dev (a - 4) - (rdN s.dev (a - 4) &&& y.rw) + (w.toNat &&& y.rw)) % 2 ^ 32 ∧ rdN d a = (rdN s.dev a - (rdN s.dev a &&& x.rw) + (v.toNat
      &&& x.rw)) % 2 ^ 32 ∧ (latchOf d r (a - 4)).wr = none ∧ SameRegs [a - 4, a, Reg.PCI_STATUS] s.dev d ∧ SameMem s.dev d) ∧
    (u = (if r = Req.host then leaveL1 s.dev else s.dev) → Reaches s.dev r a → isLow a = true → Does (.reg64LoRead r a) s fun d => d.out = s.dev.out
      ++ [.regRead r a (BitVec.ofNat 32 (shown u a))] ∧ (latchOf d r a).rd = some (BitVec.ofNat 32 (shown u (a + 4))) ∧ SameRegs [Reg.PCI_STATUS]
      s.dev d ∧ SameMem s.dev d) ∧
    (∀ (w : Word), Reaches s.dev r a → isLow a = false → isHigh a = true → (latchOf s.dev r (a - 4)).rd = some w → Does (.reg64LoRead r a) s fun d =>
      d.out = s.dev.out ++ [.regRead r a w] ∧ d.bus = s.dev.bus ∧ SameRegs [Reg.PCI_STATUS] s.dev d) ∧
    (u = (if r = Req.host then leaveL1 s.dev else s.dev) → Reaches s.dev r a → isLow a = false → (isHigh a = true → (latchOf s.dev r (a - 4)).rd =
      none) → Does (.reg64LoRead r a) s fun d => d.out = s.dev.out ++ [.regRead r a (BitVec.ofNat 32 (shown u a))] ∧ d.bus = s.dev.bus ∧ SameRegs
      [Reg.PCI_STATUS] s.dev d) ∧
    ((r ≠ Req.host ∨ barReached s.dev = true) → responds s.dev a = false → regLost s.dev a = false → Does (.reg64LoRead r a) s fun d => d.out =
      s.dev.out ++ [.regRead r a 0] ∧ SameRegs [Reg.PCI_STATUS] s.dev d) ∧
    ((r ≠ Req.host ∨ barReached s.dev = true) → regLost s.dev a = true → Does (.reg64LoRead r a) s fun d => d.out = s.dev.out ++ [.regError r a] ∧
      SameRegs [Reg.PCI_STATUS] s.dev d) ∧
    (Reaches s.dev r Reg.GEN_IRQ_PEND → Does (.genIrqPendWrite r v) s fun d => rdN d Reg.GEN_IRQ_PEND = rdN s.dev Reg.GEN_IRQ_PEND - (rdN s.dev
      Reg.GEN_IRQ_PEND &&& v.toNat) ∧ rdN d Reg.GEN_IRQ_SENT_CNT = (rdN s.dev Reg.GEN_IRQ_SENT_CNT + ((List.range 24).filter fun i => bitOf (rdN d
      Reg.GEN_IRQ_PEND) i && tst s.dev Reg.GEN_IRQ_EN i).length) % 2 ^ 32 ∧ SameRegs [Reg.GEN_IRQ_PEND, Reg.GEN_IRQ_SENT_CNT, Reg.PCI_STATUS] s.dev d
      ∧ SameMem s.dev d) ∧
    (Reaches s.dev r Reg.GEN_DBG_CTRL → Does (.lockOut r) s fun d => tst d Reg.GEN_DBG_CTRL 0 = true ∧ SameRegs [Reg.GEN_DBG_CTRL, Reg.PCI_STATUS]
      s.dev d ∧ SameMem s.dev d)

/-! ## Pins and the test access port (19, 20) -/

/-- Pins (R416, R454 to R458): these commands act in reset as well. What resets the device leaves an empty register file and memory, and the flash
when no operation was cut; when the last reason to hold it ends, boot begins in stage ROM with BOOT_COUNT 1, the straps sampled at the rise of
PORST_N. PERST takes the link down, and its release changes its pin alone. The test port (R447 to R449): an instruction selects its register; IDCODE
captures 0x19600E4B; EXTEST needs HALT or DEBUG_EN. A scan captures the last request's DATA and STATUS, and 1 alone while one is outstanding. With
DBG_ACCESS selected, an access that is permitted and legal is counted and performed, with STATUS 0, or 2 for what cannot be reached; a write shows in
GEN_STATUS; any other is refused with STATUS 3, counted, and touches no memory. Without that selection, or while a request is outstanding, the access
rows do nothing (DESIGN CHOICE, log entry 9). -/
def Obligations.PinsAndTestPortActAtOnce : Prop :=
  ∀ (s : State) (a : Nat) (v : Word) (y : Nat × Nat × Nat), 
    (∀ (m : Fin 4), s.dev.pins.porst = false → s.dev.pins.under = false → s.dev.pins.refLoss = false → DoesPin (.porstNRelease m) s fun d => inReset d
      = false ∧ stage d = 1 ∧ rdN d Reg.BOOT_COUNT = 1 ∧ bootMode d = m ∧ SameMem s.dev d) ∧
    (∀ (m : Fin 4), s.dev.pins.porst = false → (s.dev.pins.under = true ∨ s.dev.pins.refLoss = true) → DoesPin (.porstNRelease m) s fun d => d = {
      s.dev with pins := { s.dev.pins with porst := true, bootMode := m } }) ∧
    (∀ (m : Fin 4), s.dev.pins.porst = true → DoesPin (.porstNRelease m) s fun d => d = s.dev) ∧
    (s.dev.pins.porst = true → DoesPin .porstNAssert s fun d => inReset d = true ∧ d.regs = [] ∧ d.dram = [] ∧ d.kv = {} ∧ d.pins.porst = false ∧
      (s.dev.bt.ops = [] → d.flash = s.dev.flash)) ∧
    (s.dev.pins.porst = false → DoesPin .porstNAssert s fun d => d = s.dev) ∧
    (s.dev.pins.under = false → DoesPin .undervoltage s fun d => inReset d = true ∧ d.regs = [] ∧ d.dram = [] ∧ d.kv = {} ∧ d.pins.under = true ∧
      (s.dev.bt.ops = [] → d.flash = s.dev.flash)) ∧
    (s.dev.pins.under = true → DoesPin .undervoltage s fun d => d = s.dev) ∧
    (s.dev.pins.porst = true → s.dev.pins.under = true → s.dev.pins.refLoss = false → DoesPin .undervoltageRelease s fun d => inReset d = false ∧
      stage d = 1 ∧ rdN d Reg.BOOT_COUNT = 1 ∧ bootMode d = s.dev.pins.bootMode % 4 ∧ SameMem s.dev d) ∧
    ((s.dev.pins.under = false ∨ s.dev.pins.porst = false ∨ s.dev.pins.refLoss = true) → DoesPin .undervoltageRelease s fun d => d = { s.dev with pins
      := { s.dev.pins with under := false } }) ∧
    (s.dev.pins.refLoss = false → DoesPin .refclkSysLoss s fun d => inReset d = true ∧ d.regs = [] ∧ d.dram = [] ∧ d.kv = {} ∧ d.pins.refLoss = true ∧
      (s.dev.bt.ops = [] → d.flash = s.dev.flash)) ∧
    (s.dev.pins.refLoss = true → DoesPin .refclkSysLoss s fun d => d = s.dev) ∧
    (s.dev.pins.porst = true → s.dev.pins.under = false → s.dev.pins.refLoss = true → DoesPin .refclkSysReturn s fun d => inReset d = false ∧ stage d
      = 1 ∧ rdN d Reg.BOOT_COUNT = 1 ∧ bootMode d = s.dev.pins.bootMode % 4 ∧ SameMem s.dev d) ∧
    ((s.dev.pins.refLoss = false ∨ s.dev.pins.porst = false ∨ s.dev.pins.under = true) → DoesPin .refclkSysReturn s fun d => d = { s.dev with pins :=
      { s.dev.pins with refLoss := false } }) ∧
    (inReset s.dev = false → linkUp s.dev = true → DoesPin .pciePerstAssert s fun d => linkUp d = false ∧ d.pins.perst = false ∧ tst d Reg.PCI_STATUS
      10 = true ∧ SameMem s.dev d) ∧
    (inReset s.dev = true → DoesPin .pciePerstAssert s fun d => d = { s.dev with pins := { s.dev.pins with perst := false } }) ∧
    (DoesPin .pciePerstRelease s fun d => d = { s.dev with pins := { s.dev.pins with perst := true } }) ∧
    (DoesPin .extest s fun d => d = { s.dev with jtag :=
      { s.dev.jtag with ir := if halted s.dev || tst s.dev Reg.SEC_STATUS 5 then .extest else .bypass } }) ∧
    (DoesPin .idcode s fun d => d.jtag = { s.dev.jtag with ir := .idcode } ∧ d.out = s.dev.out ++ [.jtag 0x19600E4B] ∧ d.regs = s.dev.regs ∧ SameMem
      s.dev d) ∧
    (DoesPin .samplePreload s fun d => d = { s.dev with jtag := { s.dev.jtag with ir := .sample } }) ∧
    (DoesPin .bypass s fun d => d = { s.dev with jtag := { s.dev.jtag with ir := .bypass } }) ∧
    (∀ (ecc : Fin 3), DoesPin (.dbgAccess none ecc) s fun d => d = { s.dev with jtag := { s.dev.jtag with ir := .dbgAccess } }) ∧
    (∀ (ecc : Fin 3) (w : BitVec 109), dbgBusy s.dev = false → bits w.toNat 0 3 = 0 → DoesPin (.dbgAccess (some w) ecc) s fun d => d.jtag =
      { s.dev.jtag with ir := .dbgAccess } ∧ d.out = s.dev.out ++ [.jtag (s.dev.jtag.data * 2 ^ 43 + s.dev.jtag.status * 2 ^ 107)] ∧ d.regs =
      s.dev.regs ∧ SameMem s.dev d) ∧
    (∀ (ecc : Fin 3) (w : BitVec 109), dbgBusy s.dev = true → DoesPin (.dbgAccess (some w) ecc) s fun d => d.jtag =
      { s.dev.jtag with ir := .dbgAccess } ∧ d.out = s.dev.out ++ [.jtag (2 ^ 107)] ∧ d.regs = s.dev.regs ∧ SameMem s.dev d) ∧
    (∀ (ecc : Fin 3) (w : BitVec 109), inReset s.dev = false → dbgBusy s.dev = false → (6 ≤ bits w.toNat 0 3 ∨ dbgPermitted s.dev = false) → bits
      w.toNat 0 3 ≠ 0 → DoesPin (.dbgAccess (some w) ecc) s fun d => d.jtag.status = 3 ∧ rdN d Reg.GEN_DBG_REFUSED_CNT = (rdN s.dev
      Reg.GEN_DBG_REFUSED_CNT + 1) % 2 ^ 32 ∧ SameMem s.dev d ∧ d.jtag.ir = .dbgAccess) ∧
    (∀ (ecc : Fin 3) (w : BitVec 109), inReset s.dev = false → dbgBusy s.dev = false → bits w.toNat 0 3 = 1 → dbgReg (bits w.toNat 3 40) = true →
      regLost s.dev (bits w.toNat 3 40) = false → dbgPermitted s.dev = true → DoesPin (.dbgAccess (some w) ecc) s fun d => d.jtag.status = 0 ∧
      d.jtag.ir = .dbgAccess ∧ rdN d Reg.GEN_DBG_CNT = (rdN s.dev Reg.GEN_DBG_CNT + 1) % 2 ^ 32) ∧
    (inReset s.dev = false → s.dev.jtag.ir = .dbgAccess → dbgBusy s.dev = false → dbgPermitted s.dev = true → dbgReg a = true → regLost s.dev a =
      false → DoesPin (.regRead a) s fun d => d.jtag.status = 0 ∧ d.jtag.data = (readReg .debug a (bump Reg.GEN_DBG_CNT 1 s.dev)).1 % 2 ^ 32 ∧ rdN d
      Reg.GEN_DBG_CNT = (rdN s.dev Reg.GEN_DBG_CNT + 1) % 2 ^ 32 ∧ SameMem s.dev d) ∧
    (inReset s.dev = false → s.dev.jtag.ir = .dbgAccess → dbgBusy s.dev = false → dbgPermitted s.dev = true → dbgReg a = true → regLost s.dev a = true
      → DoesPin (.regRead a) s fun d => d.jtag.status = 2 ∧ d.jtag.data = 0 ∧ rdN d Reg.GEN_DBG_CNT = (rdN s.dev Reg.GEN_DBG_CNT + 1) % 2 ^ 32 ∧
      SameMem s.dev d) ∧
    (inReset s.dev = false → s.dev.jtag.ir = .dbgAccess → dbgBusy s.dev = false → (dbgPermitted s.dev = false ∨ dbgReg a = false) → DoesPin (.regRead
      a) s fun d => d.jtag.status = 3 ∧ rdN d Reg.GEN_DBG_REFUSED_CNT = (rdN s.dev Reg.GEN_DBG_REFUSED_CNT + 1) % 2 ^ 32 ∧ SameMem s.dev d) ∧
    ((s.dev.jtag.ir ≠ .dbgAccess ∨ dbgBusy s.dev = true) → DoesPin (.regRead a) s fun d => d = s.dev) ∧
    (inReset s.dev = true → s.dev.jtag.ir = .dbgAccess → DoesPin (.regRead a) s fun d => d = { s.dev with jtag :=
      { s.dev.jtag with status := 3, data := 0 } }) ∧
    (inReset s.dev = false → s.dev.jtag.ir = .dbgAccess → dbgBusy s.dev = false → dbgPermitted s.dev = true → dbgReg a = true → regLost s.dev a =
      false → DoesPin (.regWrite a v) s fun d => d.jtag.status = 0 ∧ (∃ e, d = settle e ∧ e.regs = (writeReg .debug a v.toNat (setB Reg.GEN_STATUS 4
      true (bump Reg.GEN_DBG_CNT 1 s.dev))).regs)) ∧
    (inReset s.dev = false → s.dev.jtag.ir = .dbgAccess → dbgBusy s.dev = false → (dbgPermitted s.dev = false ∨ dbgReg a = false) → DoesPin (.regWrite
      a v) s fun d => d.jtag.status = 3 ∧ rdN d Reg.GEN_DBG_REFUSED_CNT = (rdN s.dev Reg.GEN_DBG_REFUSED_CNT + 1) % 2 ^ 32 ∧ SameMem s.dev d) ∧
    ((s.dev.jtag.ir ≠ .dbgAccess ∨ dbgBusy s.dev = true) → DoesPin (.regWrite a v) s fun d => d = s.dev) ∧
    (∀ (ecc : Fin 3), inReset s.dev = false → s.dev.jtag.ir = .dbgAccess → dbgBusy s.dev = false → dbgPermitted s.dev = true → a % 8 = 0 → (burstReach
      s.dev 0 a).isNone = true → y = dbgPlace s.dev a → chIdle (dchan s.dev y.1) = true → burstBad s.dev a = false → ecc.val ≠ 2 → DoesPin (.memRead a
      ecc) s fun d => d.jtag.status = 0 ∧ d.jtag.data = rdLE .dram s.dev a 8 ∧ rdN d Reg.GEN_DBG_CNT = (rdN s.dev Reg.GEN_DBG_CNT + 1) % 2 ^ 32 ∧
      SameMem s.dev d) ∧
    (∀ (ecc : Fin 3), inReset s.dev = false → s.dev.jtag.ir = .dbgAccess → dbgBusy s.dev = false → dbgPermitted s.dev = true → a % 8 = 0 →
      ((burstReach s.dev 0 a).isSome = true ∨ (chIdle (dchan s.dev (dbgPlace s.dev a).1) = true ∧ (ecc.val = 2 ∨ burstBad s.dev a = true))) → DoesPin
      (.memRead a ecc) s fun d => d.jtag.status = 2 ∧ d.jtag.data = 0 ∧ SameMem s.dev d) ∧
    (∀ (ecc : Fin 3), inReset s.dev = false → s.dev.jtag.ir = .dbgAccess → dbgBusy s.dev = false → (dbgPermitted s.dev = false ∨ a % 8 ≠ 0) → DoesPin
      (.memRead a ecc) s fun d => d.jtag.status = 3 ∧ rdN d Reg.GEN_DBG_REFUSED_CNT = (rdN s.dev Reg.GEN_DBG_REFUSED_CNT + 1) % 2 ^ 32 ∧ SameMem s.dev
      d) ∧
    (∀ (w : BitVec 64), inReset s.dev = false → s.dev.jtag.ir = .dbgAccess → dbgBusy s.dev = false → dbgPermitted s.dev = true → a % 8 = 0 →
      (burstReach s.dev 0 a).isNone = true → y = dbgPlace s.dev a → chIdle (dchan s.dev y.1) = true → DoesPin (.memWrite a w) s fun d => d.jtag.status
      = 0 ∧ rdLE .dram d a 8 = w.toNat ∧ SameOutside a 8 s.dev d ∧ tst d Reg.GEN_STATUS 4 = true ∧ rdN d Reg.GEN_DBG_CNT = (rdN s.dev Reg.GEN_DBG_CNT
      + 1) % 2 ^ 32) ∧
    (∀ (w : BitVec 64), inReset s.dev = false → s.dev.jtag.ir = .dbgAccess → dbgBusy s.dev = false → dbgPermitted s.dev = true → a % 8 = 0 →
      (burstReach s.dev 0 a).isSome = true → DoesPin (.memWrite a w) s fun d => d.jtag.status = 2 ∧ SameMem s.dev d) ∧
    (∀ (w : BitVec 64), inReset s.dev = false → s.dev.jtag.ir = .dbgAccess → dbgBusy s.dev = false → (dbgPermitted s.dev = false ∨ a % 8 ≠ 0) →
      DoesPin (.memWrite a w) s fun d => d.jtag.status = 3 ∧ rdN d Reg.GEN_DBG_REFUSED_CNT = (rdN s.dev Reg.GEN_DBG_REFUSED_CNT + 1) % 2 ^ 32 ∧
      SameMem s.dev d) ∧
    (inReset s.dev = false → s.dev.jtag.ir = .dbgAccess → dbgBusy s.dev = false → dbgPermitted s.dev = true → dbgCm a = true → DoesPin (.cmRead a) s
      fun d => d.jtag.status = (if domRuns s.dev (64 + a / 2 ^ 24) then 0 else 2) ∧ d.jtag.data = (if domRuns s.dev (64 + a / 2 ^ 24) then rdLE (.cm
      (a / 2 ^ 24)) s.dev (a % 2 ^ 24) 8 else 0) ∧ rdN d Reg.GEN_DBG_CNT = (rdN s.dev Reg.GEN_DBG_CNT + 1) % 2 ^ 32 ∧ SameMem s.dev d) ∧
    (inReset s.dev = false → s.dev.jtag.ir = .dbgAccess → dbgBusy s.dev = false → (dbgPermitted s.dev = false ∨ dbgCm a = false) → DoesPin (.cmRead a)
      s fun d => d.jtag.status = 3 ∧ rdN d Reg.GEN_DBG_REFUSED_CNT = (rdN s.dev Reg.GEN_DBG_REFUSED_CNT + 1) % 2 ^ 32 ∧ SameMem s.dev d)

/-! ## Boot and security (17) -/

/-- Boot stages (R397, R398, R403, R404, R407, R408, R411 to R414, R417). A command of a stage that is not in progress has no effect. Stage ROM ends
in FLASH with the identity and the signature state shown, or in HALT with reason 3; FLASH in HEADER, or in HALT with reason 1 on a flash that is
missing or under 64 MiB. A valid header shows its version and digest, fixes the section table and the configuration, and leads to DRAM; any other
fails its slot. A DEVICE section that passes has its section done and the host's sections pending; another fails the slot. A section read from the
flash whose digest matches lies in DRAM as in the flash and is done, and after the last one the gate or the self-tests follow; a mismatch fails the
slot, or halts a reload with reason 5. The self-tests end with the failing cores of those that ran marked and every window engine let go. CONFIG ends
in TIME. A stage that exceeds its bound fails the slot. -/
def Obligations.BootStagesEndOrFail : Prop :=
  ∀ (s : State) (fp : List Word) (dg : List Byte) (i : Nat) (z : Sect), Awake s →
    (∀ (pass : Bool) (idOk : Bool) (log : Option (Fin 8192)), stage s.dev ≠ 1 → Does (.bootRomDone pass idOk fp log) s fun d => d = s.dev) ∧
    (∀ (idOk : Bool) (log : Option (Fin 8192)), stage s.dev = 1 → Does (.bootRomDone false idOk fp log) s fun d => HaltedWith 3 d) ∧
    (∀ (idOk : Bool), stage s.dev = 1 → s.dev.bt.rel + 10000 < 2 ^ 64 → Does (.bootRomDone true idOk fp none) s fun d => stage d = 2 ∧
      d.pins.xspiReset = true ∧ s.dev.bt.rel + 10000 ≤ now d ∧ rdN d Reg.SEC_XMSS_IDX = 0 ∧ tst d Reg.SEC_STATUS 7 = true ∧ tst d Reg.SEC_EVENT 2 =
      true ∧ (if idOk then tst d Reg.SEC_STATUS 0 = true ∧ ∀ j : Fin 8, rdN d (Reg.SEC_DEV_FP j) = (fp.getD j 0).toNat else tst d Reg.SEC_EVENT 0 =
      true)) ∧
    (∀ (idOk : Bool) (n : Fin 8192), stage s.dev = 1 → Does (.bootRomDone true idOk fp (some n)) s fun d => stage d = 2 ∧ rdN d Reg.SEC_XMSS_IDX = min
      65536 (logRec s.dev n).1 ∧ rdN d Reg.SEC_XMSS_RES = min 65536 (logRec s.dev n).1 ∧ (65536 ≤ (logRec s.dev n).1 → tst d Reg.SEC_EVENT 3 = true)) ∧
    (∀ (dens : Option Nat) (oct : Bool), stage s.dev ≠ 2 → Does (.bootFlashDone dens oct) s fun d => d = s.dev) ∧
    (∀ (dens : Option Nat) (oct : Bool), stage s.dev = 2 → dens.getD 0 < 64 * 2 ^ 20 → Does (.bootFlashDone dens oct) s fun d => HaltedWith 1 d) ∧
    (∀ (n : Nat) (oct : Bool), stage s.dev = 2 → 64 * 2 ^ 20 ≤ n → Does (.bootFlashDone (some n) oct) s fun d => stage d = 3 ∧ d.bt.dens = min n (512
      * 2 ^ 20) ∧ tst d Reg.BOOT_STATUS 7 = oct) ∧
    (∀ (co : Bool) (so : Bool) (ow : List Word), stage s.dev ≠ 3 → Does (.bootHeaderDone co so fp ow) s fun d => d = s.dev) ∧
    (∀ (co : Bool) (so : Bool) (ow : List Word), stage s.dev = 3 → (hdrOk s.dev (slotOf s.dev) = false ∨ so = false ∨ (certOfs s.dev (slotOf s.dev) ≠
      0 ∧ (co = false ∨ scopeOk s.dev (slotOf s.dev) = false))) → Does (.bootHeaderDone co so fp ow) s fun d => SlotFailed s.dev d) ∧
    (∀ (co : Bool) (ow : List Word), stage s.dev = 3 → hdrOk s.dev (slotOf s.dev) = true → (certOfs s.dev (slotOf s.dev) = 0 ∨ (co = true ∧ scopeOk
      s.dev (slotOf s.dev) = true)) → Does (.bootHeaderDone co true fp ow) s fun d => stage d = 4 ∧ d.bt.sects = readSects s.dev (slotOf s.dev) ∧ rd64
      d Reg.BOOT_VERSION_LO = hdVersion s.dev (slotOf s.dev) ∧ (∀ j : Fin 8, rdN d (Reg.BOOT_HDR_DIGEST j) = (fp.getD j 0).toNat) ∧ tst d
      Reg.PCI_STATUS 11 = true ∧ SameMem s.dev d) ∧
    ((stage s.dev ≠ 4 ∨ s.dev.bt.next ≠ 0) → Does (.bootDeviceDone dg) s fun d => d = s.dev) ∧
    (stage s.dev = 4 → s.dev.bt.next = 0 → (s.dev.bt.sects = [] ∨ (s.dev.bt.sects.head? = some z ∧ (z.kind ≠ 1 ∨ z.source ≠ 0 ∨ dg ≠ z.digest))) →
      Does (.bootDeviceDone dg) s fun d => SlotFailed s.dev d) ∧
    (∀ (x : Bool × Dev), stage s.dev = 4 → s.dev.bt.next = 0 → s.dev.bt.sects.head? = some z → z.kind = 1 → z.source = 0 → dg = z.digest → x =
      runPairs (z.len / 8) (slotBase s.dev (slotOf s.dev) + z.ofs) (imageDefaults s.dev) → Does (.bootDeviceDone dg) s fun d => (if x.1 && tst x.2
      (Reg.DMC_CTRL 0) 0 && tst x.2 (Reg.DMC_CTRL 1) 0 && tableOk x.2 then d.bt.next = 1 ∧ rd64 d Reg.BOOT_SECT_OK_LO = 1 ∧ rd64 d
      Reg.BOOT_SECT_PEND_LO = hostSects x.2 % 2 ^ 64 ∧ (x.2.bt.trained = true → stage d = 5) else SlotFailed x.2 d)) ∧
    ((stage s.dev ≠ 5 ∨ nextSect s.dev s.dev.bt.next = none) → Does (.sectionVerified dg) s fun d => d = s.dev) ∧
    (stage s.dev = 5 → nextSect s.dev s.dev.bt.next = some (i, z) → dg = z.digest → (nextSect s.dev (i + 1)).isSome = true → i < 64 → z.dest + z.len ≤
      dramBytes → Does (.sectionVerified dg) s fun d => d.bt.next = i + 1 ∧ tst d (Reg.BOOT_SECT_OK_LO + 4 * (i / 32)) (i % 32) = true ∧ stage d = 5 ∧
      rdBytes .dram d z.dest z.len = flBytes s.dev (slotBase s.dev (slotOf s.dev) + z.ofs) z.len ∧ d.flash = s.dev.flash) ∧
    (stage s.dev = 5 → nextSect s.dev s.dev.bt.next = some (i, z) → dg = z.digest → nextSect s.dev (i + 1) = none → i < 64 → Does (.sectionVerified
      dg) s fun d => (if s.dev.bt.reload || !(bitOf s.dev.bt.flags 0) then stage d = 7 else stage d = 6 ∧ tst d Reg.BOOT_STATUS 12 = true) ∧
      (s.dev.bt.reload = false → tst d Reg.SEC_STATUS 5 = bitOf s.dev.bt.flags 2)) ∧
    (stage s.dev = 5 → nextSect s.dev s.dev.bt.next = some (i, z) → dg ≠ z.digest → Does (.sectionVerified dg) s fun d => (if s.dev.bt.reload then
      HaltedWith 5 d ∧ tst d Reg.BOOT_EVENT 5 = true else SlotFailed s.dev d)) ∧
    (∀ (arr : List (Nat × Nat × Nat)) (we : List (Nat × Nat)) (au : Nat) (wu : Nat) (blk : List Nat), stage s.dev ≠ 7 → Does (.bootSelftestDone arr we
      au wu blk) s fun d => d = s.dev) ∧
    (∀ (arr : List (Nat × Nat × Nat)) (we : List (Nat × Nat)) (au : Nat) (wu : Nat) (blk : List Nat), stage s.dev = 7 → (∀ b ∈ blk, b / 256 = 8 → b %
      256 < 16) → Does (.bootSelftestDone arr we au wu blk) s fun d => stage d = (if s.dev.bt.reload then 10 else 8) ∧ (∀ k : Fin 64, ((domRuns s.dev
      k = true ∧ tst s.dev (Reg.ARR_BIST_STATUS k) 0 = true ∧ ((arr.find? fun x => x.1 == k.val).getD (k, 0, 0)).2.1 % 2 ^ arraysOf k ≠ 0) ∨ (isSCore
      k = false ∧ domRuns s.dev k = true ∧ ((we.find? fun x => x.1 == k.val).getD (k, 0)).2 % 4 ≠ 0)) → coreFailed d k = true) ∧ (∀ k : Fin 64, tst d
      (Reg.ARR_BIST_STATUS k) 0 = false ∧ (isSCore k = false → tst d (Reg.WIN_CTRL k) 0 = false)) ∧ d.bt.reload = false) ∧
    (stage s.dev ≠ 8 → Does .bootConfigDone s fun d => d = s.dev) ∧
    (stage s.dev = 8 → Does .bootConfigDone s fun d => stage d = 9 ∧ (tst s.dev Reg.KVF_STATUS 1 = true → tst d Reg.KVF_STATUS 0 = true ∧ tst d
      Reg.KVF_STATUS 1 = false)) ∧
    (∀ (n : Nat), stageBound s.dev = some n → s.dev.bt.reload = false → s.dev.bt.at_ + n < 2 ^ 64 → Does .bootStageTimeout s fun d => SlotFailed s.dev
      d ∧ s.dev.bt.at_ + n ≤ now d) ∧
    ((stageBound s.dev = none ∨ s.dev.bt.reload = true) → Does .bootStageTimeout s fun d => d = s.dev)

/-- The gate, BOOT_CMD and attestation (R373, R400, R409, R410, R413, R416 to R419). A BOOT_CMD while one runs has result 3 and no other effect. An
answer to an open gate goes on to the self-tests, or fails the slot; when no gate waits it has result 2; its limit goes on or halts with reason 4, as
the image says. A section check of a pending section compares its digest, and a flash operation inside the slot not booted is requested, else refused
with result 1; REBOOT boots again with the count raised. Operations end in request order: an erase leaves 64 KiB of FFh, a program what it reads back,
each no other byte; a failed one is reported with result 4. ATTEST is refused busy 3, without identity or cache 1, without indices 2, outside the DRAM
5; when it is done the report and signature lie in DRAM and the index has moved on, or the error is reported. -/
def Obligations.BootCommandsAndAttestation : Prop :=
  ∀ (s : State) (dg : List Byte) (i : Fin 64) (a : Nat), Awake s →
    (bootBusy s.dev = true → Does .gateAccept s fun d => rdN d Reg.BOOT_CMD_RESULT = 3 ∧ SameRegs [Reg.BOOT_CMD_RESULT] s.dev d ∧ SameRest s.dev d ∧
      d.bt = s.dev.bt) ∧
    (bootBusy s.dev = true → Does .gateReject s fun d => rdN d Reg.BOOT_CMD_RESULT = 3 ∧ SameRegs [Reg.BOOT_CMD_RESULT] s.dev d ∧ SameRest s.dev d ∧
      d.bt = s.dev.bt) ∧
    (bootBusy s.dev = true → Does (.sectCheck i) s fun d => rdN d Reg.BOOT_CMD_RESULT = 3 ∧ SameRegs [Reg.BOOT_CMD_RESULT] s.dev d ∧ SameRest s.dev d
      ∧ d.bt = s.dev.bt) ∧
    (bootBusy s.dev = true → Does .flashErase s fun d => rdN d Reg.BOOT_CMD_RESULT = 3 ∧ SameRegs [Reg.BOOT_CMD_RESULT] s.dev d ∧ SameRest s.dev d ∧
      d.bt = s.dev.bt) ∧
    (bootBusy s.dev = true → Does .flashProgram s fun d => rdN d Reg.BOOT_CMD_RESULT = 3 ∧ SameRegs [Reg.BOOT_CMD_RESULT] s.dev d ∧ SameRest s.dev d ∧
      d.bt = s.dev.bt) ∧
    (bootBusy s.dev = true → Does .slotVerify s fun d => rdN d Reg.BOOT_CMD_RESULT = 3 ∧ SameRegs [Reg.BOOT_CMD_RESULT] s.dev d ∧ SameRest s.dev d ∧
      d.bt = s.dev.bt) ∧
    (bootBusy s.dev = true → Does .reboot s fun d => rdN d Reg.BOOT_CMD_RESULT = 3 ∧ SameRegs [Reg.BOOT_CMD_RESULT] s.dev d ∧ SameRest s.dev d ∧ d.bt
      = s.dev.bt) ∧
    (bootBusy s.dev = false → gateOpen s.dev = true → Does .gateAccept s fun d => stage d = 7 ∧ tst d Reg.SEC_STATUS 6 = true ∧ tst d Reg.BOOT_STATUS
      12 = false ∧ rdN d Reg.BOOT_CMD_RESULT = 0 ∧ SameMem s.dev d) ∧
    (bootBusy s.dev = false → tst s.dev Reg.BOOT_STATUS 12 = false → Does .gateAccept s fun d => rdN d Reg.BOOT_CMD_RESULT = 2 ∧ SameRegs
      [Reg.BOOT_CMD_RESULT] s.dev d ∧ SameRest s.dev d ∧ d.bt = s.dev.bt) ∧
    (bootBusy s.dev = false → tst s.dev Reg.BOOT_STATUS 12 = true → gateOpen s.dev = false → Does .gateAccept s fun d => d = s.dev) ∧
    (bootBusy s.dev = false → gateOpen s.dev = true → Does .gateReject s fun d => SlotFailed s.dev d ∧ rdN d Reg.BOOT_CMD_RESULT = 0) ∧
    (bootBusy s.dev = false → tst s.dev Reg.BOOT_STATUS 12 = false → Does .gateReject s fun d => rdN d Reg.BOOT_CMD_RESULT = 2 ∧ SameRegs
      [Reg.BOOT_CMD_RESULT] s.dev d ∧ SameRest s.dev d ∧ d.bt = s.dev.bt) ∧
    (tst s.dev Reg.BOOT_STATUS 12 = true → s.dev.bt.at_ + s.dev.bt.gateLim * 1000000 < 2 ^ 64 → Does .bootGateTimeout s fun d => tst d Reg.BOOT_EVENT
      3 = true ∧ s.dev.bt.at_ + s.dev.bt.gateLim * 1000000 ≤ now d ∧ (if bitOf s.dev.bt.flags 1 then stage d = 7 ∧ tst d Reg.BOOT_STATUS 12 = false
      else HaltedWith 4 d)) ∧
    (tst s.dev Reg.BOOT_STATUS 12 = false → Does .bootGateTimeout s fun d => d = s.dev) ∧
    (bootBusy s.dev = false → bitOf (rd64 s.dev Reg.BOOT_SECT_PEND_LO) i = true → Does (.sectCheck i) s fun d => d.bt =
      { s.dev.bt with check := some i.val } ∧ d.regs = s.dev.regs ∧ SameMem s.dev d) ∧
    (bootBusy s.dev = false → bitOf (rd64 s.dev Reg.BOOT_SECT_PEND_LO) i = false → Does (.sectCheck i) s fun d => rdN d Reg.BOOT_CMD_RESULT = 1 ∧
      SameRegs [Reg.BOOT_CMD_RESULT] s.dev d ∧ SameRest s.dev d ∧ d.bt = s.dev.bt) ∧
    (s.dev.bt.check = some i.val → s.dev.bt.sects[i.val]?.map (·.digest) = some dg → (∀ c : Fin 8, coveState s.dev c ≠ 1) → Does (.sectCheckDone dg) s
      fun d => d.bt.check = none ∧ tst d (Reg.BOOT_SECT_OK_LO + 4 * (i / 32)) (i % 32) = true ∧ tst d (Reg.BOOT_SECT_PEND_LO + 4 * (i / 32)) (i % 32)
      = false ∧ rdN d Reg.BOOT_CMD_RESULT = 0) ∧
    (s.dev.bt.check = some i.val → s.dev.bt.sects[i.val]?.map (·.digest) ≠ some dg → Does (.sectCheckDone dg) s fun d => d.bt.check = none ∧ tst d
      Reg.BOOT_EVENT 2 = true ∧ rdN d Reg.BOOT_CMD_RESULT = 5 ∧ SameRegs [Reg.BOOT_EVENT, Reg.BOOT_CMD_RESULT] s.dev d) ∧
    (s.dev.bt.check = none → Does (.sectCheckDone dg) s fun d => d = s.dev) ∧
    (bootBusy s.dev = false → a = rdN s.dev Reg.BOOT_FLASH_ADDR → a % 65536 = 0 → flashAllowed s.dev a 65536 = true → Does .flashErase s fun d =>
      d.bt.ops = s.dev.bt.ops ++ [.erase a] ∧ tst d Reg.BOOT_STATUS 13 = true ∧ SameRegs [Reg.BOOT_STATUS] s.dev d ∧ SameMem s.dev d) ∧
    (bootBusy s.dev = false → a = rdN s.dev Reg.BOOT_FLASH_ADDR → (a % 65536 ≠ 0 ∨ flashAllowed s.dev a 65536 = false) → Does .flashErase s fun d =>
      rdN d Reg.BOOT_CMD_RESULT = 1 ∧ SameRegs [Reg.BOOT_CMD_RESULT] s.dev d ∧ SameRest s.dev d ∧ d.bt = s.dev.bt) ∧
    (bootBusy s.dev = false → a = rdN s.dev Reg.BOOT_FLASH_ADDR → a % 4096 = 0 → flashAllowed s.dev a 4096 = true → Does .flashProgram s fun d =>
      d.bt.ops = s.dev.bt.ops ++ [.program a (bootBuf s.dev)] ∧ tst d Reg.BOOT_STATUS 13 = true ∧ SameRegs [Reg.BOOT_STATUS] s.dev d ∧ SameMem s.dev
      d) ∧
    (bootBusy s.dev = false → a = rdN s.dev Reg.BOOT_FLASH_ADDR → (a % 4096 ≠ 0 ∨ flashAllowed s.dev a 4096 = false) → Does .flashProgram s fun d =>
      rdN d Reg.BOOT_CMD_RESULT = 1 ∧ SameRegs [Reg.BOOT_CMD_RESULT] s.dev d ∧ SameRest s.dev d ∧ d.bt = s.dev.bt) ∧
    (bootBusy s.dev = false → s.dev.bt.dens ≠ 0 → Does .slotVerify s fun d => d.bt.ops = s.dev.bt.ops ++ [.verify (1 - slotOf s.dev)] ∧ tst d
      Reg.BOOT_STATUS 13 = true ∧ SameMem s.dev d) ∧
    (bootBusy s.dev = false → s.dev.bt.dens = 0 → Does .slotVerify s fun d => rdN d Reg.BOOT_CMD_RESULT = 1 ∧ SameRegs [Reg.BOOT_CMD_RESULT] s.dev d ∧
      SameRest s.dev d ∧ d.bt = s.dev.bt) ∧
    (bootBusy s.dev = false → Does .reboot s fun d => stage d = 1 ∧ rdN d Reg.BOOT_COUNT = (rdN s.dev Reg.BOOT_COUNT + 1) % 2 ^ 32 ∧ bootMode d =
      bootMode s.dev ∧ d.dram = [] ∧ d.flash = s.dev.flash) ∧
    (∀ (os : List FlashOp), s.dev.bt.ops = .erase a :: os → Does (.flashOperationDone true) s fun d => d.bt.ops = os ∧ (∀ x, x < 65536 → fl d (a + x)
      = 0xFF) ∧ (∀ x, (x < a ∨ a + 65536 ≤ x) → fl d x = fl s.dev x) ∧ rdN d Reg.BOOT_CMD_RESULT = 0 ∧ tst d Reg.BOOT_STATUS 13 = !os.isEmpty) ∧
    (∀ (p : List Byte) (os : List FlashOp), s.dev.bt.ops = .program a p :: os → Does (.flashOperationDone true) s fun d => d.bt.ops = os ∧ (∀ x, x <
      p.length → fl d (a + x) = (fl s.dev (a + x) &&& p.getD x 0)) ∧ (∀ x, (x < a ∨ a + p.length ≤ x) → fl d x = fl s.dev x) ∧ rdN d
      Reg.BOOT_CMD_RESULT = (if programmed s.dev a p = p then 0 else 4) ∧ (programmed s.dev a p ≠ p → tst d Reg.BOOT_EVENT 6 = true)) ∧
    (∀ (o : FlashOp) (os : List FlashOp), s.dev.bt.ops = o :: os → (o = .erase a ∨ ∃ p, o = .program a p ∧ p.length ≤ 65536) → Does
      (.flashOperationDone false) s fun d => d.bt.ops = os ∧ rdN d Reg.BOOT_CMD_RESULT = 4 ∧ tst d Reg.BOOT_EVENT 6 = true ∧ (∀ x, (x < a ∨ a + 65536
      ≤ x) → fl d x = fl s.dev x)) ∧
    (∀ (ok : Bool) (n : Nat) (os : List FlashOp), s.dev.bt.ops = .verify n :: os → Does (.flashOperationDone ok) s fun d => d.bt.ops = os ∧ rdN d
      Reg.BOOT_CMD_RESULT = (if hdrOk s.dev n && ok then 0 else 5) ∧ SameMem s.dev d) ∧
    (∀ (ok : Bool), s.dev.bt.ops = [] → Does (.flashOperationDone ok) s fun d => d = s.dev) ∧
    (∀ (ok : Bool), tst s.dev Reg.SEC_STATUS 0 = true → tst s.dev Reg.SEC_STATUS 1 = false → tst s.dev Reg.SEC_STATUS 2 = false → Does
      (.leafCacheCheckDone ok) s fun d => (if ok then tst d Reg.SEC_STATUS 1 = true ∧ SameRegs [Reg.SEC_STATUS] s.dev d else tst d Reg.SEC_STATUS 2 =
      true ∧ tst d Reg.SEC_EVENT 1 = true ∧ SameRegs [Reg.SEC_STATUS, Reg.SEC_EVENT] s.dev d)) ∧
    (∀ (ok : Bool), (tst s.dev Reg.SEC_STATUS 0 = false ∨ tst s.dev Reg.SEC_STATUS 1 = true ∨ tst s.dev Reg.SEC_STATUS 2 = true) → Does
      (.leafCacheCheckDone ok) s fun d => d = s.dev) ∧
    (tst s.dev Reg.SEC_STATUS 2 = true → s.dev.bt.ops = [] → Does .cacheRebuildDone s fun d => tst d Reg.SEC_STATUS 1 = true ∧ tst d Reg.SEC_STATUS 2
      = false ∧ SameRegs [Reg.SEC_STATUS] s.dev d ∧ (∀ x, x < 2 ^ 21 → fl d (0x100000 + x) = Config.leafCache x) ∧ (∀ x, (x < 0x100000 ∨ 0x300000 ≤ x)
      → fl d x = fl s.dev x)) ∧
    ((tst s.dev Reg.SEC_STATUS 2 = false ∨ s.dev.bt.ops ≠ []) → Does .cacheRebuildDone s fun d => d = s.dev) ∧
    (tst s.dev Reg.SEC_STATUS 3 = true → Does .attest s fun d => rdN d Reg.SEC_CMD_RESULT = 3 ∧ SameRegs [Reg.SEC_CMD_RESULT] s.dev d ∧ SameRest s.dev
      d ∧ d.bt = s.dev.bt) ∧
    (tst s.dev Reg.SEC_STATUS 3 = false → (tst s.dev Reg.SEC_STATUS 0 = false ∨ tst s.dev Reg.SEC_STATUS 1 = false) → Does .attest s fun d => rdN d
      Reg.SEC_CMD_RESULT = 1 ∧ SameRegs [Reg.SEC_CMD_RESULT] s.dev d ∧ SameRest s.dev d ∧ d.bt = s.dev.bt) ∧
    (tst s.dev Reg.SEC_STATUS 3 = false → tst s.dev Reg.SEC_STATUS 0 = true → tst s.dev Reg.SEC_STATUS 1 = true → 65536 ≤ rdN s.dev Reg.SEC_XMSS_IDX →
      Does .attest s fun d => rdN d Reg.SEC_CMD_RESULT = 2 ∧ SameRegs [Reg.SEC_CMD_RESULT] s.dev d ∧ SameRest s.dev d ∧ d.bt = s.dev.bt) ∧
    (tst s.dev Reg.SEC_STATUS 3 = false → tst s.dev Reg.SEC_STATUS 0 = true → tst s.dev Reg.SEC_STATUS 1 = true → rdN s.dev Reg.SEC_XMSS_IDX < 65536 →
      inRegions s.dev (baseAddr s.dev Reg.SEC_ATT_BUF_LO) 2952 = false → Does .attest s fun d => rdN d Reg.SEC_CMD_RESULT = 5 ∧ SameRegs
      [Reg.SEC_CMD_RESULT] s.dev d ∧ SameRest s.dev d ∧ d.bt = s.dev.bt) ∧
    (tst s.dev Reg.SEC_STATUS 3 = false → tst s.dev Reg.SEC_STATUS 0 = true → tst s.dev Reg.SEC_STATUS 1 = true → rdN s.dev Reg.SEC_XMSS_IDX < 65536 →
      inRegions s.dev (baseAddr s.dev Reg.SEC_ATT_BUF_LO) 2952 = true → Does .attest s fun d => d.bt.att = some (attReport s.dev, baseAddr s.dev
      Reg.SEC_ATT_BUF_LO) ∧ tst d Reg.SEC_STATUS 3 = true ∧ SameRegs [Reg.SEC_STATUS] s.dev d ∧ SameMem s.dev d) ∧
    (∀ (res : Fin 4) (rep : List Byte) (sig : List Byte) (chk : List Byte), s.dev.bt.att = some (rep, a) → sig.length = 2696 → a + rep.length + 2696 ≤
      dramBytes → dramReach s.dev 0 a (rep.length + 2696) = none → res.val ≠ 2 → (res.val = 1 → rdN s.dev Reg.SEC_XMSS_IDX ≠ rdN s.dev
      Reg.SEC_XMSS_RES) → (rdN s.dev Reg.SEC_XMSS_IDX = rdN s.dev Reg.SEC_XMSS_RES → s.dev.bt.ops = []) → Does (.attestDone res chk sig) s fun d =>
      d.bt.att = none ∧ (res.val = 3 → tst d Reg.SEC_EVENT 5 = true) ∧ rdBytes .dram d a (rep.length + 2696) = rep ++ sig ∧ rdN d Reg.SEC_XMSS_IDX =
      (rdN s.dev Reg.SEC_XMSS_IDX + 1) % 2 ^ 32 ∧ tst d Reg.SEC_STATUS 3 = false ∧ rdN d Reg.SEC_CMD_RESULT = 0 ∧ rdN d Reg.SEC_XMSS_RES = (if rdN
      s.dev Reg.SEC_XMSS_IDX = rdN s.dev Reg.SEC_XMSS_RES then min 65536 (rdN s.dev Reg.SEC_XMSS_IDX + 64) else rdN s.dev Reg.SEC_XMSS_RES) ∧ (rdN
      s.dev Reg.SEC_XMSS_IDX = 65535 → tst d Reg.SEC_EVENT 3 = true)) ∧
    (∀ (res : Fin 4) (chk : List Byte) (sig : List Byte) (x : List Byte × Nat), s.dev.bt.att = some x → (res.val = 2 ∨ (res.val = 1 ∧ rdN s.dev
      Reg.SEC_XMSS_IDX = rdN s.dev Reg.SEC_XMSS_RES ∧ s.dev.bt.ops = [])) → Does (.attestDone res chk sig) s fun d => d.bt.att = none ∧ tst d
      Reg.SEC_STATUS 3 = false ∧ rdN d Reg.SEC_CMD_RESULT = 4 ∧ tst d Reg.SEC_EVENT (if res.val = 2 then 6 else 4) = true ∧ SameRegs [Reg.SEC_STATUS,
      Reg.SEC_CMD_RESULT, Reg.SEC_EVENT] s.dev d ∧ SameMem s.dev d) ∧
    (∀ (res : Fin 4) (chk : List Byte) (sig : List Byte), (s.dev.bt.att = none ∨ (res.val ≠ 2 ∧ rdN s.dev Reg.SEC_XMSS_IDX = rdN s.dev
      Reg.SEC_XMSS_RES ∧ s.dev.bt.ops ≠ [])) → Does (.attestDone res chk sig) s fun d => d = s.dev)
end

