-- ==== Sys2Proof/Laws/SparseMap.lean ====
section
/-! SUPPORT. Laws of the sparse maps: a read after a write, and the canonical form. -/
set_option autoImplicit false
namespace Sys2Proof.Machine

theorem mget_mdel_same {α : Type} (d : Nat → α) (m : SMap α) (a : Nat) : mget d (mdel m a) a = d a := by
  induction m with
  | nil => rfl
  | cons p m ih =>
    obtain ⟨k, v⟩ := p
    by_cases h : k = a <;> simp [mdel, mget, h, ih]

theorem mget_mdel_other {α : Type} (d : Nat → α) (m : SMap α) {a b : Nat} (h : b ≠ a) : mget d (mdel m a) b = mget d m b := by
  induction m with
  | nil => rfl
  | cons p m ih =>
    obtain ⟨k, v⟩ := p
    by_cases hk : k = a
    · subst hk
      simp [mdel, mget, ih, Ne.symm h]
    · simp only [mdel, hk, if_false, mget, ih]

theorem mget_mins_other {α : Type} (d : Nat → α) (m : SMap α) {a b : Nat} (v : α) (h : b ≠ a) : mget d (mins m a v) b = mget d m b := by
  induction m with
  | nil => simp [mins, mget, Ne.symm h]
  | cons p m ih =>
    obtain ⟨k, w⟩ := p
    by_cases hk : a < k
    · simp [mins, mget, hk, Ne.symm h]
    · simp only [mins, hk, if_false, mget, ih]

/-- A key that no entry has. -/
theorem mget_mins_same {α : Type} (d : Nat → α) (m : SMap α) (a : Nat) (v : α) (h : ∀ p ∈ m, p.1 ≠ a) : mget d (mins m a v) a = v := by
  induction m with
  | nil => simp [mins, mget]
  | cons p m ih =>
    obtain ⟨k, w⟩ := p
    have hk : k ≠ a := h (k, w) (by simp)
    by_cases hl : a < k
    · simp [mins, mget, hl]
    · simp [mins, mget, hl, hk, ih fun q hq => h q (by simp [hq])]

theorem mdel_keys {α : Type} (m : SMap α) (a : Nat) : ∀ p ∈ mdel m a, p.1 ≠ a := by
  induction m with
  | nil => simp [mdel]
  | cons p m ih =>
    obtain ⟨k, w⟩ := p
    by_cases hk : k = a
    · simpa [mdel, hk] using ih
    · simpa [mdel, hk] using ih

/-- A read after a write gives the value written. -/
@[simp] theorem mget_mset_same {α : Type} [DecidableEq α] (d : Nat → α) (m : SMap α) (a : Nat) (v : α) : mget d (mset d m a v) a = v := by
  unfold mset
  split
  · rename_i h
    rw [mget_mdel_same, h]
  · exact mget_mins_same d _ a v (mdel_keys m a)

/-- A write leaves every other key alone. -/
theorem mget_mset_other {α : Type} [DecidableEq α] (d : Nat → α) (m : SMap α) {a b : Nat} (v : α) (h : b ≠ a) : mget d (mset d m a v) b = mget d m b := by
  unfold mset
  split
  · exact mget_mdel_other d m h
  · rw [mget_mins_other d _ v h, mget_mdel_other d m h]

/-- Both at once. -/
theorem mget_mset {α : Type} [DecidableEq α] (d : Nat → α) (m : SMap α) (a b : Nat) (v : α) :
    mget d (mset d m a v) b = if b = a then v else mget d m b := by
  by_cases h : b = a
  · subst h; simp
  · simp [h, mget_mset_other d m v h]

/-! ## The canonical form -/

/-- Keys above `lo`. -/
theorem mwfFrom_some {α : Type} [DecidableEq α] (d : Nat → α) (lo k : Nat) (v : α) (m : SMap α) :
    mwfFrom d (some lo) ((k, v) :: m) = true ↔ lo < k ∧ v ≠ d k ∧ mwfFrom d (some k) m = true := by
  simp [mwfFrom, and_assoc]

theorem mwfFrom_none {α : Type} [DecidableEq α] (d : Nat → α) (k : Nat) (v : α) (m : SMap α) :
    mwfFrom d none ((k, v) :: m) = true ↔ v ≠ d k ∧ mwfFrom d (some k) m = true := by
  simp [mwfFrom]

theorem mwfFrom_mono {α : Type} [DecidableEq α] (d : Nat → α) {lo lo' : Nat} (h : lo' ≤ lo) (m : SMap α) (hm : mwfFrom d (some lo) m = true) :
    mwfFrom d (some lo') m = true := by
  cases m with
  | nil => rfl
  | cons p m =>
    obtain ⟨k, v⟩ := p
    rw [mwfFrom_some] at hm ⊢
    exact ⟨by omega, hm.2⟩

theorem mwfFrom_toNone {α : Type} [DecidableEq α] (d : Nat → α) (lo : Nat) (m : SMap α) (hm : mwfFrom d (some lo) m = true) :
    mwfFrom d none m = true := by
  cases m with
  | nil => rfl
  | cons p m =>
    obtain ⟨k, v⟩ := p
    rw [mwfFrom_some] at hm
    rw [mwfFrom_none]
    exact hm.2

theorem mwfFrom_mdel {α : Type} [DecidableEq α] (d : Nat → α) (a lo : Nat) (m : SMap α) (hm : mwfFrom d (some lo) m = true) :
    mwfFrom d (some lo) (mdel m a) = true := by
  induction m generalizing lo with
  | nil => rfl
  | cons p m ih =>
    obtain ⟨k, v⟩ := p
    rw [mwfFrom_some] at hm
    by_cases hk : k = a
    · simpa [mdel, hk] using ih lo (mwfFrom_mono d (by omega) m hm.2.2)
    · simp only [mdel, hk, if_false]
      rw [mwfFrom_some]
      exact ⟨hm.1, hm.2.1, ih k hm.2.2⟩

theorem mwf_mdel {α : Type} [DecidableEq α] (d : Nat → α) (a : Nat) (m : SMap α) (hm : mwf d m = true) : mwf d (mdel m a) = true := by
  unfold mwf at *
  cases m with
  | nil => rfl
  | cons p m =>
    obtain ⟨k, v⟩ := p
    rw [mwfFrom_none] at hm
    by_cases hk : k = a
    · simpa [mdel, hk] using mwfFrom_toNone d k _ (mwfFrom_mdel d a k m hm.2)
    · simp only [mdel, hk, if_false]
      rw [mwfFrom_none]
      exact ⟨hm.1, mwfFrom_mdel d a k m hm.2⟩

theorem mwfFrom_mins {α : Type} [DecidableEq α] (d : Nat → α) (a : Nat) (v : α) (hv : v ≠ d a) (lo : Nat) (m : SMap α) (hlo : lo < a)
    (hk : ∀ p ∈ m, p.1 ≠ a) (hm : mwfFrom d (some lo) m = true) : mwfFrom d (some lo) (mins m a v) = true := by
  induction m generalizing lo with
  | nil =>
    simp only [mins]
    rw [mwfFrom_some]
    exact ⟨hlo, hv, rfl⟩
  | cons p m ih =>
    obtain ⟨k, w⟩ := p
    rw [mwfFrom_some] at hm
    have hka : k ≠ a := hk (k, w) (by simp)
    by_cases h : a < k
    · simp only [mins, h, if_true]
      rw [mwfFrom_some, mwfFrom_some]
      exact ⟨hlo, hv, h, hm.2⟩
    · simp only [mins, h, if_false]
      rw [mwfFrom_some]
      exact ⟨hm.1, hm.2.1, ih k (by omega) (fun q hq => hk q (by simp [hq])) hm.2.2⟩

/-- A write keeps the canonical form. -/
theorem mwf_mset {α : Type} [DecidableEq α] (d : Nat → α) (m : SMap α) (a : Nat) (v : α) (hm : mwf d m = true) : mwf d (mset d m a v) = true := by
  unfold mset
  split
  · exact mwf_mdel d a m hm
  · rename_i hv
    have h := mwf_mdel d a m hm
    have hk := mdel_keys m a
    revert h hk
    generalize mdel m a = q
    intro h hk
    unfold mwf at *
    cases q with
    | nil =>
      simp only [mins]
      rw [mwfFrom_none]
      exact ⟨hv, rfl⟩
    | cons p q =>
      obtain ⟨k, w⟩ := p
      rw [mwfFrom_none] at h
      have hka : k ≠ a := hk (k, w) (by simp)
      by_cases hl : a < k
      · simp only [mins, hl, if_true]
        rw [mwfFrom_none, mwfFrom_some]
        exact ⟨hv, hl, h⟩
      · simp only [mins, hl, if_false]
        rw [mwfFrom_none]
        exact ⟨h.1, mwfFrom_mins d a v hv k q (by omega) (fun x hx => hk x (by simp [hx])) h.2⟩

end Sys2Proof.Machine
end

