-- ==== Sys2Proof/Laws/Memory.lean ====
section
/-! SUPPORT. The memories: a read after a write, what a write leaves alone, and that every memory operation keeps the canonical form. -/
set_option autoImplicit false
namespace Sys2Proof.Machine
open Sys2Proof

/-! ## The canonical form -/

theorem mwfFrom_filter {α : Type} [DecidableEq α] (d : Nat → α) (p : Nat × α → Bool) (m : SMap α) (lo : Nat) (h : mwfFrom d (some lo) m = true) :
    mwfFrom d (some lo) (m.filter p) = true := by
  induction m generalizing lo with
  | nil => rfl
  | cons x m ih =>
    obtain ⟨k, v⟩ := x
    rw [mwfFrom_some] at h
    obtain ⟨h1, h2, h3⟩ := h
    rw [List.filter_cons]
    split
    · exact (mwfFrom_some ..).mpr ⟨h1, h2, ih k h3⟩
    · exact ih lo (mwfFrom_mono d (by omega) m h3)
/-- Dropping entries keeps the canonical form. -/
theorem mwf_filter {α : Type} [DecidableEq α] (d : Nat → α) (p : Nat × α → Bool) (m : SMap α) (h : mwf d m = true) : mwf d (m.filter p) = true := by
  cases m with
  | nil => rfl
  | cons x m =>
    obtain ⟨k, v⟩ := x
    unfold mwf at *
    rw [mwfFrom_none] at h
    rw [List.filter_cons]
    split
    · exact (mwfFrom_none ..).mpr ⟨h.1, mwfFrom_filter d p m k h.2⟩
    · exact mwfFrom_toNone d k _ (mwfFrom_filter d p m k h.2)

theorem Memory.wf_iff (d : Dev) :
    Memory.wf d = true ↔ mwf zeroByte d.dram = true ∧ mwf zeroByte d.cm = true ∧ mwf zeroByte d.scr = true ∧ mwf erasedByte d.flash = true := by
  simp [Memory.wf, and_assoc]
/-- The memories after reset are in canonical form. -/
theorem Memory.wf_reset : Memory.wf State.reset.dev = true := by decide
/-- A write of one byte keeps the canonical form. -/
theorem Memory.wf_mwr (sp : Space) (a : Nat) (b : Byte) (s : Dev) (h : Memory.wf s = true) : Memory.wf (mwr sp a b s) = true := by
  rw [Memory.wf_iff] at *
  obtain ⟨h1, h2, h3, h4⟩ := h
  unfold mwr
  cases sp <;> dsimp only <;> split <;> refine ⟨?_, ?_, ?_, ?_⟩ <;> first | assumption | exact mwf_mset _ _ _ _ ‹_›
/-- So does a write of several. -/
theorem Memory.wf_wrBytes (sp : Space) (a : Nat) (bs : List Byte) (s : Dev) (h : Memory.wf s = true) : Memory.wf (wrBytes sp a bs s) = true := by
  induction bs generalizing a s with
  | nil => exact h
  | cons b bs ih => exact ih _ _ (Memory.wf_mwr sp a b s h)
theorem Memory.wf_wrLE (sp : Space) (a n v : Nat) (s : Dev) (h : Memory.wf s = true) : Memory.wf (wrLE sp a n v s) = true := Memory.wf_wrBytes _ _ _ _ h
theorem Memory.wf_clearBytes (sp : Space) (a n : Nat) (s : Dev) (h : Memory.wf s = true) : Memory.wf (clearBytes sp a n s) = true :=
  Memory.wf_wrBytes _ _ _ _ h

/-! ## Reads and writes -/

/-- The bytes of a memory. -/
def Space.bytes : Space → Nat
  | .dram => dramBytes
  | .cm _ => cmBytes
  | .scr _ => scrBytes
@[simp] theorem mrd_mwr_same (sp : Space) (a : Nat) (b : Byte) (s : Dev) (h : a < sp.bytes) : mrd sp (mwr sp a b s) a = b := by
  cases sp <;> (dsimp only [Space.bytes] at h; simp [mrd, mwr, h])
theorem mrd_mwr_other (sp : Space) {a x : Nat} (b : Byte) (s : Dev) (h : x ≠ a) : mrd sp (mwr sp a b s) x = mrd sp s x := by
  have k : ∀ (m : SMap Byte) (n : Nat), mget zeroByte (mset zeroByte m (n + a) b) (n + x) = mget zeroByte m (n + x) := fun m n =>
    mget_mset_other _ _ _ (by omega)
  have k0 := k s.dram 0
  rw [Nat.zero_add, Nat.zero_add] at k0
  cases sp <;> (unfold mwr; dsimp only; split)
  · unfold mrd; dsimp only; rw [k0]
  · rfl
  · unfold mrd; dsimp only; rw [k]
  · rfl
  · unfold mrd; dsimp only; rw [k]
  · rfl
/-- A write of several bytes leaves every byte outside them alone. -/
theorem mrd_wrBytes_other (sp : Space) (bs : List Byte) {a x : Nat} (s : Dev) (h : x < a ∨ a + bs.length ≤ x) : mrd sp (wrBytes sp a bs s) x = mrd sp s x := by
  induction bs generalizing a s with
  | nil => rfl
  | cons b bs ih =>
    rw [List.length_cons] at h
    exact (ih (a := a + 1) (mwr sp a b s) (by omega)).trans (mrd_mwr_other sp b s (by omega))
/-- Each byte written reads back. -/
theorem mrd_wrBytes_at (sp : Space) (bs : List Byte) {a i : Nat} (s : Dev) (h : i < bs.length) (hs : a + bs.length ≤ sp.bytes) :
    mrd sp (wrBytes sp a bs s) (a + i) = bs[i] := by
  induction bs generalizing a s i with
  | nil => simp at h
  | cons b bs ih =>
    rw [List.length_cons] at h hs
    cases i with
    | zero => exact (mrd_wrBytes_other sp bs (mwr sp a b s) (by omega)).trans (mrd_mwr_same sp a b s (by omega))
    | succ i =>
      have := ih (a := a + 1) (i := i) (mwr sp a b s) (by omega) (by omega)
      rw [show a + 1 + i = a + (i + 1) by omega] at this
      exact this
/-- What was written reads back. -/
theorem rdBytes_wrBytes (sp : Space) (bs : List Byte) (a : Nat) (s : Dev) (h : a + bs.length ≤ sp.bytes) : rdBytes sp (wrBytes sp a bs s) a bs.length = bs := by
  have key : ∀ (n : Nat) (d : Dev) (x : Nat) (l : List Byte), l.length = n → (∀ i (hi : i < l.length), mrd sp d (x + i) = l[i]) → rdBytes sp d x n = l := by
    intro n
    induction n with
    | zero => intro d x l hl _; rw [List.length_eq_zero_iff.mp hl]; rfl
    | succ n ih =>
      intro d x l hl hi
      cases l with
      | nil => cases hl
      | cons b l =>
        rw [List.length_cons, Nat.succ_inj] at hl
        have h0 := hi 0 (by simp)
        have ht := ih d (x + 1) l hl fun i h => by have := hi (i + 1) (by simpa using h); rw [show x + 1 + i = x + (i + 1) by omega]; exact this
        simp only [rdBytes, ht]
        simpa using h0
  exact key _ _ _ _ rfl fun i hi => mrd_wrBytes_at sp bs s hi h

end Sys2Proof.Machine
end

