-- ==== Sys2Proof/Laws/Registers.lean ====
section
/-! SUPPORT. Laws of bit fields and of the register file: what a read gives after each kind of write. -/
set_option autoImplicit false
namespace Sys2Proof.Machine
open Sys2Proof

/-! ## Bit fields -/

theorem bits_lt (n lo len : Nat) : bits n lo len < 2 ^ len := Nat.mod_lt _ (Nat.two_pow_pos len)

theorem testBit_bits (n lo len i : Nat) : (bits n lo len).testBit i = (decide (i < len) && n.testBit (lo + i)) := by
  simp [bits, Nat.testBit_mod_two_pow, Nat.testBit_div_two_pow, Nat.add_comm]

theorem bitOf_eq (n i : Nat) : bitOf n i = n.testBit i := by
  simp [bitOf, Nat.testBit_eq_decide_div_mod_eq, Bool.beq_eq_decide_eq]

/-- A field taken out leaves the bits above and below it. -/
theorem putBits_split (n lo len v : Nat) :
    putBits n lo len v = n % 2 ^ lo + 2 ^ lo * (v % 2 ^ len + 2 ^ len * (n / 2 ^ (lo + len))) := by
  unfold putBits bits
  have h1 := Nat.div_add_mod n (2 ^ lo)
  have h2 := Nat.div_add_mod (n / 2 ^ lo) (2 ^ len)
  rw [Nat.div_div_eq_div_mul, ← pow_add] at h2
  generalize v % 2 ^ len = w
  generalize n % 2 ^ lo = r at *
  generalize n / 2 ^ lo % 2 ^ len = m at *
  generalize n / 2 ^ (lo + len) = q at *
  generalize n / 2 ^ lo = p at *
  subst h2
  rw [← h1]
  have : 2 ^ lo * (2 ^ len * q + m) + r = (2 ^ lo * (2 ^ len * q) + r) + m * 2 ^ lo := by ring
  rw [this, Nat.add_sub_cancel]
  ring

/-- A field that has been put is what was put. -/
@[simp] theorem bits_putBits_same (n lo len v : Nat) : bits (putBits n lo len v) lo len = v % 2 ^ len := by
  rw [putBits_split, bits, Nat.add_mul_div_left _ _ (Nat.two_pow_pos lo), Nat.div_eq_of_lt (Nat.mod_lt _ (Nat.two_pow_pos lo)), Nat.zero_add,
    Nat.add_mul_mod_self_left, Nat.mod_mod]

theorem testBit_putBits (n lo len v i : Nat) :
    (putBits n lo len v).testBit i = if i < lo then n.testBit i else if i < lo + len then v.testBit (i - lo) else n.testBit i := by
  rw [putBits_split, Nat.add_comm (n % 2 ^ lo), Nat.testBit_two_pow_mul_add _ (Nat.mod_lt _ (Nat.two_pow_pos lo))]
  split
  · simp [Nat.testBit_mod_two_pow, *]
  · rw [Nat.add_comm (v % 2 ^ len), Nat.testBit_two_pow_mul_add _ (Nat.mod_lt _ (Nat.two_pow_pos len))]
    by_cases h : i < lo + len
    · have h' : i - lo < len := by omega
      simp [h, h', Nat.testBit_mod_two_pow]
    · have h' : ¬ i - lo < len := by omega
      simp only [h, h', if_false]
      rw [Nat.testBit_div_two_pow]
      congr 1
      omega

/-- A field put elsewhere leaves a field alone. -/
theorem bits_putBits_disj (n lo len v lo' len' : Nat) (h : lo' + len' ≤ lo ∨ lo + len ≤ lo') :
    bits (putBits n lo len v) lo' len' = bits n lo' len' := by
  apply Nat.eq_of_testBit_eq
  intro i
  rw [testBit_bits, testBit_bits, testBit_putBits]
  by_cases hi : i < len'
  · rcases h with h | h
    · have : lo' + i < lo := by omega
      simp [this]
    · have h1 : ¬ lo' + i < lo := by omega
      have h2 : ¬ lo' + i < lo + len := by omega
      simp [h2]
  · simp [hi]

theorem bits_mod32 (n lo len : Nat) (h : lo + len ≤ 32) : bits (n % 2 ^ 32) lo len = bits n lo len := by
  apply Nat.eq_of_testBit_eq
  intro i
  rw [testBit_bits, testBit_bits, Nat.testBit_mod_two_pow]
  by_cases hi : i < len
  · have : lo + i < 32 := by omega
    simp [this]
  · simp [hi]

theorem putBits_lt (n lo len v w : Nat) (hn : n < 2 ^ w) (h : lo + len ≤ w) : putBits n lo len v < 2 ^ w := by
  apply Nat.lt_of_testBit w <;> simp [testBit_putBits, Nat.testBit_lt_two_pow hn]
  · have h1 : ¬ w < lo := by omega
    have h2 : ¬ w < lo + len := by omega
    simp [h2]
  · intro j hj
    have h1 : ¬ j < lo := by omega
    have h2 : ¬ j < lo + len := by omega
    have h3 : n.testBit j = false := Nat.testBit_lt_two_pow (lt_of_lt_of_le hn (Nat.pow_le_pow_right (by decide) hj.le))
    simp [h1, h2, h3, Nat.ne_of_lt hj]

/-! ## Registers -/

@[simp] theorem rdN_wrN_same (a n : Nat) (s : Dev) : rdN (wrN a n s) a = n % 2 ^ 32 := by
  simp [rdN, wrN]

theorem rdN_wrN_other {a b : Nat} (n : Nat) (s : Dev) (h : b ≠ a) : rdN (wrN a n s) b = rdN s b := by
  simp [rdN, wrN, mget_mset_other _ _ _ h]

theorem rdN_wrN (a b n : Nat) (s : Dev) : rdN (wrN a n s) b = if b = a then n % 2 ^ 32 else rdN s b := by
  by_cases h : b = a
  · subst h; simp
  · simp [h, rdN_wrN_other n s h]

theorem rdN_lt (s : Dev) (a : Nat) : rdN s a < 2 ^ 32 := (mget regReset s.regs a).isLt

theorem rdN_wf_other {a b : Nat} (lo len v : Nat) (s : Dev) (h : b ≠ a) : rdN (wf a lo len v s) b = rdN s b := rdN_wrN_other _ s h
theorem rdN_setB_other {a b : Nat} (i : Nat) (v : Bool) (s : Dev) (h : b ≠ a) : rdN (setB a i v s) b = rdN s b := rdN_wrN_other _ s h
theorem rdN_bump_other {a b : Nat} (k : Nat) (s : Dev) (h : b ≠ a) : rdN (bump a k s) b = rdN s b := rdN_wrN_other _ s h
theorem rdN_bumpSat_other {a b : Nat} (k : Nat) (s : Dev) (h : b ≠ a) : rdN (bumpSat a k s) b = rdN s b := rdN_wrN_other _ s h
@[simp] theorem rdN_bump_same (a k : Nat) (s : Dev) : rdN (bump a k s) a = (rdN s a + k) % 2 ^ 32 := rdN_wrN_same a _ s
@[simp] theorem rdN_bumpSat_same (a k : Nat) (s : Dev) : rdN (bumpSat a k s) a = satAdd (rdN s a) k 0xFFFFFFFF := by
  rw [bumpSat, rdN_wrN_same, Nat.mod_eq_of_lt]
  have := rdN_lt s a
  unfold satAdd
  split <;> omega

theorem rdN_wf_same (a lo len v : Nat) (s : Dev) (h : lo + len ≤ 32) : rdN (wf a lo len v s) a = putBits (rdN s a) lo len v := by
  rw [wf, rdN_wrN_same, Nat.mod_eq_of_lt (putBits_lt _ _ _ _ 32 (rdN_lt s a) h)]

/-- A field that has been set. -/
theorem rf_wf_same (a lo len v : Nat) (s : Dev) (h : lo + len ≤ 32) : rf (wf a lo len v s) a lo len = v % 2 ^ len := by
  rw [rf, rdN_wf_same _ _ _ _ _ h, bits_putBits_same]

/-- Another field of the same register. -/
theorem rf_wf_disj (a lo len v lo' len' : Nat) (s : Dev) (h : lo + len ≤ 32) (hd : lo' + len' ≤ lo ∨ lo + len ≤ lo') :
    rf (wf a lo len v s) a lo' len' = rf s a lo' len' := by
  rw [rf, rdN_wf_same _ _ _ _ _ h, bits_putBits_disj _ _ _ _ _ _ hd, rf]

/-- A field of another register. -/
theorem rf_wf_other {a b : Nat} (lo len v lo' len' : Nat) (s : Dev) (h : b ≠ a) : rf (wf a lo len v s) b lo' len' = rf s b lo' len' := by
  rw [rf, rdN_wf_other _ _ _ _ h, rf]

theorem rf_wrN_other {a b : Nat} (n lo len : Nat) (s : Dev) (h : b ≠ a) : rf (wrN a n s) b lo len = rf s b lo len := by
  rw [rf, rdN_wrN_other _ _ h, rf]

theorem tst_wrN_other {a b : Nat} (n i : Nat) (s : Dev) (h : b ≠ a) : tst (wrN a n s) b i = tst s b i := by
  rw [tst, rdN_wrN_other _ _ h, tst]

theorem tst_setB_same (a i : Nat) (v : Bool) (s : Dev) (h : i < 32) : tst (setB a i v s) a i = v := by
  rw [tst, setB, rdN_wf_same _ _ _ _ _ (by omega), bitOf_eq, testBit_putBits]
  cases v <;> simp [b2n]

theorem tst_setB_bit (a i j : Nat) (v : Bool) (s : Dev) (h : i < 32) (hj : j ≠ i) : tst (setB a i v s) a j = tst s a j := by
  rw [tst, setB, rdN_wf_same _ _ _ _ _ (by omega), bitOf_eq, testBit_putBits, tst, bitOf_eq]
  split
  · rfl
  · have : ¬ j < i + 1 := by omega
    simp [this]

theorem tst_setB_other {a b : Nat} (i j : Nat) (v : Bool) (s : Dev) (h : b ≠ a) : tst (setB a i v s) b j = tst s b j := by
  rw [tst, rdN_setB_other _ _ _ h, tst]

theorem tst_wf_other {a b : Nat} (lo len v j : Nat) (s : Dev) (h : b ≠ a) : tst (wf a lo len v s) b j = tst s b j := by
  rw [tst, rdN_wf_other _ _ _ _ h, tst]

theorem rf_setB_other {a b : Nat} (i lo len : Nat) (v : Bool) (s : Dev) (h : b ≠ a) : rf (setB a i v s) b lo len = rf s b lo len := by
  rw [rf, rdN_setB_other _ _ _ h, rf]

theorem rf_setB_disj (a i lo len : Nat) (v : Bool) (s : Dev) (h : i < 32) (hd : lo + len ≤ i ∨ i + 1 ≤ lo) : rf (setB a i v s) a lo len = rf s a lo len :=
  rf_wf_disj a i 1 _ lo len s (by omega) hd

/-- The register file stays in canonical form. -/
theorem mwf_wrN (a n : Nat) (s : Dev) (h : mwf regReset s.regs = true) : mwf regReset (wrN a n s).regs = true := mwf_mset _ _ _ _ h

end Sys2Proof.Machine
end

