-- ==== Sys2Proof/Laws/State.lean ====
section
/-! SUPPORT. What each named update leaves alone: one lemma for each field of the device. -/
set_option autoImplicit false
namespace Sys2Proof.Machine
open Sys2Proof
/-! ## wrN -/
@[simp] theorem wrN_time (a n : Nat) (s : Dev) : (wrN a n s).time = s.time := rfl
@[simp] theorem wrN_ptp (a n : Nat) (s : Dev) : (wrN a n s).ptp = s.ptp := rfl
@[simp] theorem wrN_tide (a n : Nat) (s : Dev) : (wrN a n s).tide = s.tide := rfl
@[simp] theorem wrN_held (a n : Nat) (s : Dev) : (wrN a n s).held = s.held := rfl
@[simp] theorem wrN_bus (a n : Nat) (s : Dev) : (wrN a n s).bus = s.bus := rfl
@[simp] theorem wrN_pins (a n : Nat) (s : Dev) : (wrN a n s).pins = s.pins := rfl
@[simp] theorem wrN_dram (a n : Nat) (s : Dev) : (wrN a n s).dram = s.dram := rfl
@[simp] theorem wrN_cm (a n : Nat) (s : Dev) : (wrN a n s).cm = s.cm := rfl
@[simp] theorem wrN_scr (a n : Nat) (s : Dev) : (wrN a n s).scr = s.scr := rfl
@[simp] theorem wrN_flash (a n : Nat) (s : Dev) : (wrN a n s).flash = s.flash := rfl
@[simp] theorem wrN_mdo (a n : Nat) (s : Dev) : (wrN a n s).mdo = s.mdo := rfl
@[simp] theorem wrN_err (a n : Nat) (s : Dev) : (wrN a n s).err = s.err := rfl
@[simp] theorem wrN_pci (a n : Nat) (s : Dev) : (wrN a n s).pci = s.pci := rfl
@[simp] theorem wrN_cores (a n : Nat) (s : Dev) : (wrN a n s).cores = s.cores := rfl
@[simp] theorem wrN_clk (a n : Nat) (s : Dev) : (wrN a n s).clk = s.clk := rfl
@[simp] theorem wrN_kv (a n : Nat) (s : Dev) : (wrN a n s).kv = s.kv := rfl
@[simp] theorem wrN_coves (a n : Nat) (s : Dev) : (wrN a n s).coves = s.coves := rfl
@[simp] theorem wrN_trk (a n : Nat) (s : Dev) : (wrN a n s).trk = s.trk := rfl
@[simp] theorem wrN_cdc (a n : Nat) (s : Dev) : (wrN a n s).cdc = s.cdc := rfl
@[simp] theorem wrN_cctx (a n : Nat) (s : Dev) : (wrN a n s).cctx = s.cctx := rfl
@[simp] theorem wrN_ing (a n : Nat) (s : Dev) : (wrN a n s).ing = s.ing := rfl
@[simp] theorem wrN_pix (a n : Nat) (s : Dev) : (wrN a n s).pix = s.pix := rfl
@[simp] theorem wrN_dmc (a n : Nat) (s : Dev) : (wrN a n s).dmc = s.dmc := rfl
@[simp] theorem wrN_pwr (a n : Nat) (s : Dev) : (wrN a n s).pwr = s.pwr := rfl
@[simp] theorem wrN_bt (a n : Nat) (s : Dev) : (wrN a n s).bt = s.bt := rfl
@[simp] theorem wrN_jtag (a n : Nat) (s : Dev) : (wrN a n s).jtag = s.jtag := rfl
@[simp] theorem wrN_out (a n : Nat) (s : Dev) : (wrN a n s).out = s.out := rfl
@[simp] theorem wrN_fresh (a n : Nat) (s : Dev) : (wrN a n s).fresh = s.fresh := rfl
/-! ## wf -/
@[simp] theorem wf_time (a lo len v : Nat) (s : Dev) : (wf a lo len v s).time = s.time := rfl
@[simp] theorem wf_ptp (a lo len v : Nat) (s : Dev) : (wf a lo len v s).ptp = s.ptp := rfl
@[simp] theorem wf_tide (a lo len v : Nat) (s : Dev) : (wf a lo len v s).tide = s.tide := rfl
@[simp] theorem wf_held (a lo len v : Nat) (s : Dev) : (wf a lo len v s).held = s.held := rfl
@[simp] theorem wf_bus (a lo len v : Nat) (s : Dev) : (wf a lo len v s).bus = s.bus := rfl
@[simp] theorem wf_pins (a lo len v : Nat) (s : Dev) : (wf a lo len v s).pins = s.pins := rfl
@[simp] theorem wf_dram (a lo len v : Nat) (s : Dev) : (wf a lo len v s).dram = s.dram := rfl
@[simp] theorem wf_cm (a lo len v : Nat) (s : Dev) : (wf a lo len v s).cm = s.cm := rfl
@[simp] theorem wf_scr (a lo len v : Nat) (s : Dev) : (wf a lo len v s).scr = s.scr := rfl
@[simp] theorem wf_flash (a lo len v : Nat) (s : Dev) : (wf a lo len v s).flash = s.flash := rfl
@[simp] theorem wf_mdo (a lo len v : Nat) (s : Dev) : (wf a lo len v s).mdo = s.mdo := rfl
@[simp] theorem wf_err (a lo len v : Nat) (s : Dev) : (wf a lo len v s).err = s.err := rfl
@[simp] theorem wf_pci (a lo len v : Nat) (s : Dev) : (wf a lo len v s).pci = s.pci := rfl
@[simp] theorem wf_cores (a lo len v : Nat) (s : Dev) : (wf a lo len v s).cores = s.cores := rfl
@[simp] theorem wf_clk (a lo len v : Nat) (s : Dev) : (wf a lo len v s).clk = s.clk := rfl
@[simp] theorem wf_kv (a lo len v : Nat) (s : Dev) : (wf a lo len v s).kv = s.kv := rfl
@[simp] theorem wf_coves (a lo len v : Nat) (s : Dev) : (wf a lo len v s).coves = s.coves := rfl
@[simp] theorem wf_trk (a lo len v : Nat) (s : Dev) : (wf a lo len v s).trk = s.trk := rfl
@[simp] theorem wf_cdc (a lo len v : Nat) (s : Dev) : (wf a lo len v s).cdc = s.cdc := rfl
@[simp] theorem wf_cctx (a lo len v : Nat) (s : Dev) : (wf a lo len v s).cctx = s.cctx := rfl
@[simp] theorem wf_ing (a lo len v : Nat) (s : Dev) : (wf a lo len v s).ing = s.ing := rfl
@[simp] theorem wf_pix (a lo len v : Nat) (s : Dev) : (wf a lo len v s).pix = s.pix := rfl
@[simp] theorem wf_dmc (a lo len v : Nat) (s : Dev) : (wf a lo len v s).dmc = s.dmc := rfl
@[simp] theorem wf_pwr (a lo len v : Nat) (s : Dev) : (wf a lo len v s).pwr = s.pwr := rfl
@[simp] theorem wf_bt (a lo len v : Nat) (s : Dev) : (wf a lo len v s).bt = s.bt := rfl
@[simp] theorem wf_jtag (a lo len v : Nat) (s : Dev) : (wf a lo len v s).jtag = s.jtag := rfl
@[simp] theorem wf_out (a lo len v : Nat) (s : Dev) : (wf a lo len v s).out = s.out := rfl
@[simp] theorem wf_fresh (a lo len v : Nat) (s : Dev) : (wf a lo len v s).fresh = s.fresh := rfl
/-! ## setB -/
@[simp] theorem setB_time (a i : Nat) (v : Bool) (s : Dev) : (setB a i v s).time = s.time := rfl
@[simp] theorem setB_ptp (a i : Nat) (v : Bool) (s : Dev) : (setB a i v s).ptp = s.ptp := rfl
@[simp] theorem setB_tide (a i : Nat) (v : Bool) (s : Dev) : (setB a i v s).tide = s.tide := rfl
@[simp] theorem setB_held (a i : Nat) (v : Bool) (s : Dev) : (setB a i v s).held = s.held := rfl
@[simp] theorem setB_bus (a i : Nat) (v : Bool) (s : Dev) : (setB a i v s).bus = s.bus := rfl
@[simp] theorem setB_pins (a i : Nat) (v : Bool) (s : Dev) : (setB a i v s).pins = s.pins := rfl
@[simp] theorem setB_dram (a i : Nat) (v : Bool) (s : Dev) : (setB a i v s).dram = s.dram := rfl
@[simp] theorem setB_cm (a i : Nat) (v : Bool) (s : Dev) : (setB a i v s).cm = s.cm := rfl
@[simp] theorem setB_scr (a i : Nat) (v : Bool) (s : Dev) : (setB a i v s).scr = s.scr := rfl
@[simp] theorem setB_flash (a i : Nat) (v : Bool) (s : Dev) : (setB a i v s).flash = s.flash := rfl
@[simp] theorem setB_mdo (a i : Nat) (v : Bool) (s : Dev) : (setB a i v s).mdo = s.mdo := rfl
@[simp] theorem setB_err (a i : Nat) (v : Bool) (s : Dev) : (setB a i v s).err = s.err := rfl
@[simp] theorem setB_pci (a i : Nat) (v : Bool) (s : Dev) : (setB a i v s).pci = s.pci := rfl
@[simp] theorem setB_cores (a i : Nat) (v : Bool) (s : Dev) : (setB a i v s).cores = s.cores := rfl
@[simp] theorem setB_clk (a i : Nat) (v : Bool) (s : Dev) : (setB a i v s).clk = s.clk := rfl
@[simp] theorem setB_kv (a i : Nat) (v : Bool) (s : Dev) : (setB a i v s).kv = s.kv := rfl
@[simp] theorem setB_coves (a i : Nat) (v : Bool) (s : Dev) : (setB a i v s).coves = s.coves := rfl
@[simp] theorem setB_trk (a i : Nat) (v : Bool) (s : Dev) : (setB a i v s).trk = s.trk := rfl
@[simp] theorem setB_cdc (a i : Nat) (v : Bool) (s : Dev) : (setB a i v s).cdc = s.cdc := rfl
@[simp] theorem setB_cctx (a i : Nat) (v : Bool) (s : Dev) : (setB a i v s).cctx = s.cctx := rfl
@[simp] theorem setB_ing (a i : Nat) (v : Bool) (s : Dev) : (setB a i v s).ing = s.ing := rfl
@[simp] theorem setB_pix (a i : Nat) (v : Bool) (s : Dev) : (setB a i v s).pix = s.pix := rfl
@[simp] theorem setB_dmc (a i : Nat) (v : Bool) (s : Dev) : (setB a i v s).dmc = s.dmc := rfl
@[simp] theorem setB_pwr (a i : Nat) (v : Bool) (s : Dev) : (setB a i v s).pwr = s.pwr := rfl
@[simp] theorem setB_bt (a i : Nat) (v : Bool) (s : Dev) : (setB a i v s).bt = s.bt := rfl
@[simp] theorem setB_jtag (a i : Nat) (v : Bool) (s : Dev) : (setB a i v s).jtag = s.jtag := rfl
@[simp] theorem setB_out (a i : Nat) (v : Bool) (s : Dev) : (setB a i v s).out = s.out := rfl
@[simp] theorem setB_fresh (a i : Nat) (v : Bool) (s : Dev) : (setB a i v s).fresh = s.fresh := rfl
/-! ## bump -/
@[simp] theorem bump_time (a k : Nat) (s : Dev) : (bump a k s).time = s.time := rfl
@[simp] theorem bump_ptp (a k : Nat) (s : Dev) : (bump a k s).ptp = s.ptp := rfl
@[simp] theorem bump_tide (a k : Nat) (s : Dev) : (bump a k s).tide = s.tide := rfl
@[simp] theorem bump_held (a k : Nat) (s : Dev) : (bump a k s).held = s.held := rfl
@[simp] theorem bump_bus (a k : Nat) (s : Dev) : (bump a k s).bus = s.bus := rfl
@[simp] theorem bump_pins (a k : Nat) (s : Dev) : (bump a k s).pins = s.pins := rfl
@[simp] theorem bump_dram (a k : Nat) (s : Dev) : (bump a k s).dram = s.dram := rfl
@[simp] theorem bump_cm (a k : Nat) (s : Dev) : (bump a k s).cm = s.cm := rfl
@[simp] theorem bump_scr (a k : Nat) (s : Dev) : (bump a k s).scr = s.scr := rfl
@[simp] theorem bump_flash (a k : Nat) (s : Dev) : (bump a k s).flash = s.flash := rfl
@[simp] theorem bump_mdo (a k : Nat) (s : Dev) : (bump a k s).mdo = s.mdo := rfl
@[simp] theorem bump_err (a k : Nat) (s : Dev) : (bump a k s).err = s.err := rfl
@[simp] theorem bump_pci (a k : Nat) (s : Dev) : (bump a k s).pci = s.pci := rfl
@[simp] theorem bump_cores (a k : Nat) (s : Dev) : (bump a k s).cores = s.cores := rfl
@[simp] theorem bump_clk (a k : Nat) (s : Dev) : (bump a k s).clk = s.clk := rfl
@[simp] theorem bump_kv (a k : Nat) (s : Dev) : (bump a k s).kv = s.kv := rfl
@[simp] theorem bump_coves (a k : Nat) (s : Dev) : (bump a k s).coves = s.coves := rfl
@[simp] theorem bump_trk (a k : Nat) (s : Dev) : (bump a k s).trk = s.trk := rfl
@[simp] theorem bump_cdc (a k : Nat) (s : Dev) : (bump a k s).cdc = s.cdc := rfl
@[simp] theorem bump_cctx (a k : Nat) (s : Dev) : (bump a k s).cctx = s.cctx := rfl
@[simp] theorem bump_ing (a k : Nat) (s : Dev) : (bump a k s).ing = s.ing := rfl
@[simp] theorem bump_pix (a k : Nat) (s : Dev) : (bump a k s).pix = s.pix := rfl
@[simp] theorem bump_dmc (a k : Nat) (s : Dev) : (bump a k s).dmc = s.dmc := rfl
@[simp] theorem bump_pwr (a k : Nat) (s : Dev) : (bump a k s).pwr = s.pwr := rfl
@[simp] theorem bump_bt (a k : Nat) (s : Dev) : (bump a k s).bt = s.bt := rfl
@[simp] theorem bump_jtag (a k : Nat) (s : Dev) : (bump a k s).jtag = s.jtag := rfl
@[simp] theorem bump_out (a k : Nat) (s : Dev) : (bump a k s).out = s.out := rfl
@[simp] theorem bump_fresh (a k : Nat) (s : Dev) : (bump a k s).fresh = s.fresh := rfl
/-! ## bumpSat -/
@[simp] theorem bumpSat_time (a k : Nat) (s : Dev) : (bumpSat a k s).time = s.time := rfl
@[simp] theorem bumpSat_ptp (a k : Nat) (s : Dev) : (bumpSat a k s).ptp = s.ptp := rfl
@[simp] theorem bumpSat_tide (a k : Nat) (s : Dev) : (bumpSat a k s).tide = s.tide := rfl
@[simp] theorem bumpSat_held (a k : Nat) (s : Dev) : (bumpSat a k s).held = s.held := rfl
@[simp] theorem bumpSat_bus (a k : Nat) (s : Dev) : (bumpSat a k s).bus = s.bus := rfl
@[simp] theorem bumpSat_pins (a k : Nat) (s : Dev) : (bumpSat a k s).pins = s.pins := rfl
@[simp] theorem bumpSat_dram (a k : Nat) (s : Dev) : (bumpSat a k s).dram = s.dram := rfl
@[simp] theorem bumpSat_cm (a k : Nat) (s : Dev) : (bumpSat a k s).cm = s.cm := rfl
@[simp] theorem bumpSat_scr (a k : Nat) (s : Dev) : (bumpSat a k s).scr = s.scr := rfl
@[simp] theorem bumpSat_flash (a k : Nat) (s : Dev) : (bumpSat a k s).flash = s.flash := rfl
@[simp] theorem bumpSat_mdo (a k : Nat) (s : Dev) : (bumpSat a k s).mdo = s.mdo := rfl
@[simp] theorem bumpSat_err (a k : Nat) (s : Dev) : (bumpSat a k s).err = s.err := rfl
@[simp] theorem bumpSat_pci (a k : Nat) (s : Dev) : (bumpSat a k s).pci = s.pci := rfl
@[simp] theorem bumpSat_cores (a k : Nat) (s : Dev) : (bumpSat a k s).cores = s.cores := rfl
@[simp] theorem bumpSat_clk (a k : Nat) (s : Dev) : (bumpSat a k s).clk = s.clk := rfl
@[simp] theorem bumpSat_kv (a k : Nat) (s : Dev) : (bumpSat a k s).kv = s.kv := rfl
@[simp] theorem bumpSat_coves (a k : Nat) (s : Dev) : (bumpSat a k s).coves = s.coves := rfl
@[simp] theorem bumpSat_trk (a k : Nat) (s : Dev) : (bumpSat a k s).trk = s.trk := rfl
@[simp] theorem bumpSat_cdc (a k : Nat) (s : Dev) : (bumpSat a k s).cdc = s.cdc := rfl
@[simp] theorem bumpSat_cctx (a k : Nat) (s : Dev) : (bumpSat a k s).cctx = s.cctx := rfl
@[simp] theorem bumpSat_ing (a k : Nat) (s : Dev) : (bumpSat a k s).ing = s.ing := rfl
@[simp] theorem bumpSat_pix (a k : Nat) (s : Dev) : (bumpSat a k s).pix = s.pix := rfl
@[simp] theorem bumpSat_dmc (a k : Nat) (s : Dev) : (bumpSat a k s).dmc = s.dmc := rfl
@[simp] theorem bumpSat_pwr (a k : Nat) (s : Dev) : (bumpSat a k s).pwr = s.pwr := rfl
@[simp] theorem bumpSat_bt (a k : Nat) (s : Dev) : (bumpSat a k s).bt = s.bt := rfl
@[simp] theorem bumpSat_jtag (a k : Nat) (s : Dev) : (bumpSat a k s).jtag = s.jtag := rfl
@[simp] theorem bumpSat_out (a k : Nat) (s : Dev) : (bumpSat a k s).out = s.out := rfl
@[simp] theorem bumpSat_fresh (a k : Nat) (s : Dev) : (bumpSat a k s).fresh = s.fresh := rfl
/-! ## bump16 -/
@[simp] theorem bump16_time (a lo k : Nat) (s : Dev) : (bump16 a lo k s).time = s.time := rfl
@[simp] theorem bump16_ptp (a lo k : Nat) (s : Dev) : (bump16 a lo k s).ptp = s.ptp := rfl
@[simp] theorem bump16_tide (a lo k : Nat) (s : Dev) : (bump16 a lo k s).tide = s.tide := rfl
@[simp] theorem bump16_held (a lo k : Nat) (s : Dev) : (bump16 a lo k s).held = s.held := rfl
@[simp] theorem bump16_bus (a lo k : Nat) (s : Dev) : (bump16 a lo k s).bus = s.bus := rfl
@[simp] theorem bump16_pins (a lo k : Nat) (s : Dev) : (bump16 a lo k s).pins = s.pins := rfl
@[simp] theorem bump16_dram (a lo k : Nat) (s : Dev) : (bump16 a lo k s).dram = s.dram := rfl
@[simp] theorem bump16_cm (a lo k : Nat) (s : Dev) : (bump16 a lo k s).cm = s.cm := rfl
@[simp] theorem bump16_scr (a lo k : Nat) (s : Dev) : (bump16 a lo k s).scr = s.scr := rfl
@[simp] theorem bump16_flash (a lo k : Nat) (s : Dev) : (bump16 a lo k s).flash = s.flash := rfl
@[simp] theorem bump16_mdo (a lo k : Nat) (s : Dev) : (bump16 a lo k s).mdo = s.mdo := rfl
@[simp] theorem bump16_err (a lo k : Nat) (s : Dev) : (bump16 a lo k s).err = s.err := rfl
@[simp] theorem bump16_pci (a lo k : Nat) (s : Dev) : (bump16 a lo k s).pci = s.pci := rfl
@[simp] theorem bump16_cores (a lo k : Nat) (s : Dev) : (bump16 a lo k s).cores = s.cores := rfl
@[simp] theorem bump16_clk (a lo k : Nat) (s : Dev) : (bump16 a lo k s).clk = s.clk := rfl
@[simp] theorem bump16_kv (a lo k : Nat) (s : Dev) : (bump16 a lo k s).kv = s.kv := rfl
@[simp] theorem bump16_coves (a lo k : Nat) (s : Dev) : (bump16 a lo k s).coves = s.coves := rfl
@[simp] theorem bump16_trk (a lo k : Nat) (s : Dev) : (bump16 a lo k s).trk = s.trk := rfl
@[simp] theorem bump16_cdc (a lo k : Nat) (s : Dev) : (bump16 a lo k s).cdc = s.cdc := rfl
@[simp] theorem bump16_cctx (a lo k : Nat) (s : Dev) : (bump16 a lo k s).cctx = s.cctx := rfl
@[simp] theorem bump16_ing (a lo k : Nat) (s : Dev) : (bump16 a lo k s).ing = s.ing := rfl
@[simp] theorem bump16_pix (a lo k : Nat) (s : Dev) : (bump16 a lo k s).pix = s.pix := rfl
@[simp] theorem bump16_dmc (a lo k : Nat) (s : Dev) : (bump16 a lo k s).dmc = s.dmc := rfl
@[simp] theorem bump16_pwr (a lo k : Nat) (s : Dev) : (bump16 a lo k s).pwr = s.pwr := rfl
@[simp] theorem bump16_bt (a lo k : Nat) (s : Dev) : (bump16 a lo k s).bt = s.bt := rfl
@[simp] theorem bump16_jtag (a lo k : Nat) (s : Dev) : (bump16 a lo k s).jtag = s.jtag := rfl
@[simp] theorem bump16_out (a lo k : Nat) (s : Dev) : (bump16 a lo k s).out = s.out := rfl
@[simp] theorem bump16_fresh (a lo k : Nat) (s : Dev) : (bump16 a lo k s).fresh = s.fresh := rfl
/-! ## wr64 -/
@[simp] theorem wr64_time (a n : Nat) (s : Dev) : (wr64 a n s).time = s.time := rfl
@[simp] theorem wr64_ptp (a n : Nat) (s : Dev) : (wr64 a n s).ptp = s.ptp := rfl
@[simp] theorem wr64_tide (a n : Nat) (s : Dev) : (wr64 a n s).tide = s.tide := rfl
@[simp] theorem wr64_held (a n : Nat) (s : Dev) : (wr64 a n s).held = s.held := rfl
@[simp] theorem wr64_bus (a n : Nat) (s : Dev) : (wr64 a n s).bus = s.bus := rfl
@[simp] theorem wr64_pins (a n : Nat) (s : Dev) : (wr64 a n s).pins = s.pins := rfl
@[simp] theorem wr64_dram (a n : Nat) (s : Dev) : (wr64 a n s).dram = s.dram := rfl
@[simp] theorem wr64_cm (a n : Nat) (s : Dev) : (wr64 a n s).cm = s.cm := rfl
@[simp] theorem wr64_scr (a n : Nat) (s : Dev) : (wr64 a n s).scr = s.scr := rfl
@[simp] theorem wr64_flash (a n : Nat) (s : Dev) : (wr64 a n s).flash = s.flash := rfl
@[simp] theorem wr64_mdo (a n : Nat) (s : Dev) : (wr64 a n s).mdo = s.mdo := rfl
@[simp] theorem wr64_err (a n : Nat) (s : Dev) : (wr64 a n s).err = s.err := rfl
@[simp] theorem wr64_pci (a n : Nat) (s : Dev) : (wr64 a n s).pci = s.pci := rfl
@[simp] theorem wr64_cores (a n : Nat) (s : Dev) : (wr64 a n s).cores = s.cores := rfl
@[simp] theorem wr64_clk (a n : Nat) (s : Dev) : (wr64 a n s).clk = s.clk := rfl
@[simp] theorem wr64_kv (a n : Nat) (s : Dev) : (wr64 a n s).kv = s.kv := rfl
@[simp] theorem wr64_coves (a n : Nat) (s : Dev) : (wr64 a n s).coves = s.coves := rfl
@[simp] theorem wr64_trk (a n : Nat) (s : Dev) : (wr64 a n s).trk = s.trk := rfl
@[simp] theorem wr64_cdc (a n : Nat) (s : Dev) : (wr64 a n s).cdc = s.cdc := rfl
@[simp] theorem wr64_cctx (a n : Nat) (s : Dev) : (wr64 a n s).cctx = s.cctx := rfl
@[simp] theorem wr64_ing (a n : Nat) (s : Dev) : (wr64 a n s).ing = s.ing := rfl
@[simp] theorem wr64_pix (a n : Nat) (s : Dev) : (wr64 a n s).pix = s.pix := rfl
@[simp] theorem wr64_dmc (a n : Nat) (s : Dev) : (wr64 a n s).dmc = s.dmc := rfl
@[simp] theorem wr64_pwr (a n : Nat) (s : Dev) : (wr64 a n s).pwr = s.pwr := rfl
@[simp] theorem wr64_bt (a n : Nat) (s : Dev) : (wr64 a n s).bt = s.bt := rfl
@[simp] theorem wr64_jtag (a n : Nat) (s : Dev) : (wr64 a n s).jtag = s.jtag := rfl
@[simp] theorem wr64_out (a n : Nat) (s : Dev) : (wr64 a n s).out = s.out := rfl
@[simp] theorem wr64_fresh (a n : Nat) (s : Dev) : (wr64 a n s).fresh = s.fresh := rfl
/-! ## bump64 -/
@[simp] theorem bump64_time (a k : Nat) (s : Dev) : (bump64 a k s).time = s.time := wr64_time a (rd64 s a + k) s
@[simp] theorem bump64_ptp (a k : Nat) (s : Dev) : (bump64 a k s).ptp = s.ptp := wr64_ptp a (rd64 s a + k) s
@[simp] theorem bump64_tide (a k : Nat) (s : Dev) : (bump64 a k s).tide = s.tide := wr64_tide a (rd64 s a + k) s
@[simp] theorem bump64_held (a k : Nat) (s : Dev) : (bump64 a k s).held = s.held := wr64_held a (rd64 s a + k) s
@[simp] theorem bump64_bus (a k : Nat) (s : Dev) : (bump64 a k s).bus = s.bus := wr64_bus a (rd64 s a + k) s
@[simp] theorem bump64_pins (a k : Nat) (s : Dev) : (bump64 a k s).pins = s.pins := wr64_pins a (rd64 s a + k) s
@[simp] theorem bump64_dram (a k : Nat) (s : Dev) : (bump64 a k s).dram = s.dram := wr64_dram a (rd64 s a + k) s
@[simp] theorem bump64_cm (a k : Nat) (s : Dev) : (bump64 a k s).cm = s.cm := wr64_cm a (rd64 s a + k) s
@[simp] theorem bump64_scr (a k : Nat) (s : Dev) : (bump64 a k s).scr = s.scr := wr64_scr a (rd64 s a + k) s
@[simp] theorem bump64_flash (a k : Nat) (s : Dev) : (bump64 a k s).flash = s.flash := wr64_flash a (rd64 s a + k) s
@[simp] theorem bump64_mdo (a k : Nat) (s : Dev) : (bump64 a k s).mdo = s.mdo := wr64_mdo a (rd64 s a + k) s
@[simp] theorem bump64_err (a k : Nat) (s : Dev) : (bump64 a k s).err = s.err := wr64_err a (rd64 s a + k) s
@[simp] theorem bump64_pci (a k : Nat) (s : Dev) : (bump64 a k s).pci = s.pci := wr64_pci a (rd64 s a + k) s
@[simp] theorem bump64_cores (a k : Nat) (s : Dev) : (bump64 a k s).cores = s.cores := wr64_cores a (rd64 s a + k) s
@[simp] theorem bump64_clk (a k : Nat) (s : Dev) : (bump64 a k s).clk = s.clk := wr64_clk a (rd64 s a + k) s
@[simp] theorem bump64_kv (a k : Nat) (s : Dev) : (bump64 a k s).kv = s.kv := wr64_kv a (rd64 s a + k) s
@[simp] theorem bump64_coves (a k : Nat) (s : Dev) : (bump64 a k s).coves = s.coves := wr64_coves a (rd64 s a + k) s
@[simp] theorem bump64_trk (a k : Nat) (s : Dev) : (bump64 a k s).trk = s.trk := wr64_trk a (rd64 s a + k) s
@[simp] theorem bump64_cdc (a k : Nat) (s : Dev) : (bump64 a k s).cdc = s.cdc := wr64_cdc a (rd64 s a + k) s
@[simp] theorem bump64_cctx (a k : Nat) (s : Dev) : (bump64 a k s).cctx = s.cctx := wr64_cctx a (rd64 s a + k) s
@[simp] theorem bump64_ing (a k : Nat) (s : Dev) : (bump64 a k s).ing = s.ing := wr64_ing a (rd64 s a + k) s
@[simp] theorem bump64_pix (a k : Nat) (s : Dev) : (bump64 a k s).pix = s.pix := wr64_pix a (rd64 s a + k) s
@[simp] theorem bump64_dmc (a k : Nat) (s : Dev) : (bump64 a k s).dmc = s.dmc := wr64_dmc a (rd64 s a + k) s
@[simp] theorem bump64_pwr (a k : Nat) (s : Dev) : (bump64 a k s).pwr = s.pwr := wr64_pwr a (rd64 s a + k) s
@[simp] theorem bump64_bt (a k : Nat) (s : Dev) : (bump64 a k s).bt = s.bt := wr64_bt a (rd64 s a + k) s
@[simp] theorem bump64_jtag (a k : Nat) (s : Dev) : (bump64 a k s).jtag = s.jtag := wr64_jtag a (rd64 s a + k) s
@[simp] theorem bump64_out (a k : Nat) (s : Dev) : (bump64 a k s).out = s.out := wr64_out a (rd64 s a + k) s
@[simp] theorem bump64_fresh (a k : Nat) (s : Dev) : (bump64 a k s).fresh = s.fresh := wr64_fresh a (rd64 s a + k) s
/-! ## freshS -/
@[simp] theorem freshS_regs (s : Dev) : (freshS s).regs = s.regs := rfl
@[simp] theorem freshS_time (s : Dev) : (freshS s).time = s.time := rfl
@[simp] theorem freshS_ptp (s : Dev) : (freshS s).ptp = s.ptp := rfl
@[simp] theorem freshS_tide (s : Dev) : (freshS s).tide = s.tide := rfl
@[simp] theorem freshS_held (s : Dev) : (freshS s).held = s.held := rfl
@[simp] theorem freshS_bus (s : Dev) : (freshS s).bus = s.bus := rfl
@[simp] theorem freshS_pins (s : Dev) : (freshS s).pins = s.pins := rfl
@[simp] theorem freshS_dram (s : Dev) : (freshS s).dram = s.dram := rfl
@[simp] theorem freshS_cm (s : Dev) : (freshS s).cm = s.cm := rfl
@[simp] theorem freshS_scr (s : Dev) : (freshS s).scr = s.scr := rfl
@[simp] theorem freshS_flash (s : Dev) : (freshS s).flash = s.flash := rfl
@[simp] theorem freshS_mdo (s : Dev) : (freshS s).mdo = s.mdo := rfl
@[simp] theorem freshS_err (s : Dev) : (freshS s).err = s.err := rfl
@[simp] theorem freshS_pci (s : Dev) : (freshS s).pci = s.pci := rfl
@[simp] theorem freshS_cores (s : Dev) : (freshS s).cores = s.cores := rfl
@[simp] theorem freshS_clk (s : Dev) : (freshS s).clk = s.clk := rfl
@[simp] theorem freshS_kv (s : Dev) : (freshS s).kv = s.kv := rfl
@[simp] theorem freshS_coves (s : Dev) : (freshS s).coves = s.coves := rfl
@[simp] theorem freshS_trk (s : Dev) : (freshS s).trk = s.trk := rfl
@[simp] theorem freshS_cdc (s : Dev) : (freshS s).cdc = s.cdc := rfl
@[simp] theorem freshS_cctx (s : Dev) : (freshS s).cctx = s.cctx := rfl
@[simp] theorem freshS_ing (s : Dev) : (freshS s).ing = s.ing := rfl
@[simp] theorem freshS_pix (s : Dev) : (freshS s).pix = s.pix := rfl
@[simp] theorem freshS_dmc (s : Dev) : (freshS s).dmc = s.dmc := rfl
@[simp] theorem freshS_pwr (s : Dev) : (freshS s).pwr = s.pwr := rfl
@[simp] theorem freshS_bt (s : Dev) : (freshS s).bt = s.bt := rfl
@[simp] theorem freshS_jtag (s : Dev) : (freshS s).jtag = s.jtag := rfl
@[simp] theorem freshS_out (s : Dev) : (freshS s).out = s.out := rfl
/-! ## send -/
@[simp] theorem send_regs (m : OutMsg) (s : Dev) : (send m s).regs = s.regs := by unfold send; split <;> rfl
@[simp] theorem send_time (m : OutMsg) (s : Dev) : (send m s).time = s.time := by unfold send; split <;> rfl
@[simp] theorem send_ptp (m : OutMsg) (s : Dev) : (send m s).ptp = s.ptp := by unfold send; split <;> rfl
@[simp] theorem send_tide (m : OutMsg) (s : Dev) : (send m s).tide = s.tide := by unfold send; split <;> rfl
@[simp] theorem send_held (m : OutMsg) (s : Dev) : (send m s).held = s.held := by unfold send; split <;> rfl
@[simp] theorem send_bus (m : OutMsg) (s : Dev) : (send m s).bus = s.bus := by unfold send; split <;> rfl
@[simp] theorem send_pins (m : OutMsg) (s : Dev) : (send m s).pins = s.pins := by unfold send; split <;> rfl
@[simp] theorem send_dram (m : OutMsg) (s : Dev) : (send m s).dram = s.dram := by unfold send; split <;> rfl
@[simp] theorem send_cm (m : OutMsg) (s : Dev) : (send m s).cm = s.cm := by unfold send; split <;> rfl
@[simp] theorem send_scr (m : OutMsg) (s : Dev) : (send m s).scr = s.scr := by unfold send; split <;> rfl
@[simp] theorem send_flash (m : OutMsg) (s : Dev) : (send m s).flash = s.flash := by unfold send; split <;> rfl
@[simp] theorem send_mdo (m : OutMsg) (s : Dev) : (send m s).mdo = s.mdo := by unfold send; split <;> rfl
@[simp] theorem send_err (m : OutMsg) (s : Dev) : (send m s).err = s.err := by unfold send; split <;> rfl
@[simp] theorem send_pci (m : OutMsg) (s : Dev) : (send m s).pci = s.pci := by unfold send; split <;> rfl
@[simp] theorem send_cores (m : OutMsg) (s : Dev) : (send m s).cores = s.cores := by unfold send; split <;> rfl
@[simp] theorem send_clk (m : OutMsg) (s : Dev) : (send m s).clk = s.clk := by unfold send; split <;> rfl
@[simp] theorem send_kv (m : OutMsg) (s : Dev) : (send m s).kv = s.kv := by unfold send; split <;> rfl
@[simp] theorem send_coves (m : OutMsg) (s : Dev) : (send m s).coves = s.coves := by unfold send; split <;> rfl
@[simp] theorem send_trk (m : OutMsg) (s : Dev) : (send m s).trk = s.trk := by unfold send; split <;> rfl
@[simp] theorem send_cdc (m : OutMsg) (s : Dev) : (send m s).cdc = s.cdc := by unfold send; split <;> rfl
@[simp] theorem send_cctx (m : OutMsg) (s : Dev) : (send m s).cctx = s.cctx := by unfold send; split <;> rfl
@[simp] theorem send_ing (m : OutMsg) (s : Dev) : (send m s).ing = s.ing := by unfold send; split <;> rfl
@[simp] theorem send_pix (m : OutMsg) (s : Dev) : (send m s).pix = s.pix := by unfold send; split <;> rfl
@[simp] theorem send_dmc (m : OutMsg) (s : Dev) : (send m s).dmc = s.dmc := by unfold send; split <;> rfl
@[simp] theorem send_pwr (m : OutMsg) (s : Dev) : (send m s).pwr = s.pwr := by unfold send; split <;> rfl
@[simp] theorem send_bt (m : OutMsg) (s : Dev) : (send m s).bt = s.bt := by unfold send; split <;> rfl
@[simp] theorem send_jtag (m : OutMsg) (s : Dev) : (send m s).jtag = s.jtag := by unfold send; split <;> rfl
@[simp] theorem send_fresh (m : OutMsg) (s : Dev) : (send m s).fresh = s.fresh := by unfold send; split <;> rfl
/-! ## setCore -/
@[simp] theorem setCore_regs (k : Nat) (c : Core) (s : Dev) : (setCore k c s).regs = s.regs := rfl
@[simp] theorem setCore_time (k : Nat) (c : Core) (s : Dev) : (setCore k c s).time = s.time := rfl
@[simp] theorem setCore_ptp (k : Nat) (c : Core) (s : Dev) : (setCore k c s).ptp = s.ptp := rfl
@[simp] theorem setCore_tide (k : Nat) (c : Core) (s : Dev) : (setCore k c s).tide = s.tide := rfl
@[simp] theorem setCore_held (k : Nat) (c : Core) (s : Dev) : (setCore k c s).held = s.held := rfl
@[simp] theorem setCore_bus (k : Nat) (c : Core) (s : Dev) : (setCore k c s).bus = s.bus := rfl
@[simp] theorem setCore_pins (k : Nat) (c : Core) (s : Dev) : (setCore k c s).pins = s.pins := rfl
@[simp] theorem setCore_dram (k : Nat) (c : Core) (s : Dev) : (setCore k c s).dram = s.dram := rfl
@[simp] theorem setCore_cm (k : Nat) (c : Core) (s : Dev) : (setCore k c s).cm = s.cm := rfl
@[simp] theorem setCore_scr (k : Nat) (c : Core) (s : Dev) : (setCore k c s).scr = s.scr := rfl
@[simp] theorem setCore_flash (k : Nat) (c : Core) (s : Dev) : (setCore k c s).flash = s.flash := rfl
@[simp] theorem setCore_mdo (k : Nat) (c : Core) (s : Dev) : (setCore k c s).mdo = s.mdo := rfl
@[simp] theorem setCore_err (k : Nat) (c : Core) (s : Dev) : (setCore k c s).err = s.err := rfl
@[simp] theorem setCore_pci (k : Nat) (c : Core) (s : Dev) : (setCore k c s).pci = s.pci := rfl
@[simp] theorem setCore_clk (k : Nat) (c : Core) (s : Dev) : (setCore k c s).clk = s.clk := rfl
@[simp] theorem setCore_kv (k : Nat) (c : Core) (s : Dev) : (setCore k c s).kv = s.kv := rfl
@[simp] theorem setCore_coves (k : Nat) (c : Core) (s : Dev) : (setCore k c s).coves = s.coves := rfl
@[simp] theorem setCore_trk (k : Nat) (c : Core) (s : Dev) : (setCore k c s).trk = s.trk := rfl
@[simp] theorem setCore_cdc (k : Nat) (c : Core) (s : Dev) : (setCore k c s).cdc = s.cdc := rfl
@[simp] theorem setCore_cctx (k : Nat) (c : Core) (s : Dev) : (setCore k c s).cctx = s.cctx := rfl
@[simp] theorem setCore_ing (k : Nat) (c : Core) (s : Dev) : (setCore k c s).ing = s.ing := rfl
@[simp] theorem setCore_pix (k : Nat) (c : Core) (s : Dev) : (setCore k c s).pix = s.pix := rfl
@[simp] theorem setCore_dmc (k : Nat) (c : Core) (s : Dev) : (setCore k c s).dmc = s.dmc := rfl
@[simp] theorem setCore_pwr (k : Nat) (c : Core) (s : Dev) : (setCore k c s).pwr = s.pwr := rfl
@[simp] theorem setCore_bt (k : Nat) (c : Core) (s : Dev) : (setCore k c s).bt = s.bt := rfl
@[simp] theorem setCore_jtag (k : Nat) (c : Core) (s : Dev) : (setCore k c s).jtag = s.jtag := rfl
@[simp] theorem setCore_out (k : Nat) (c : Core) (s : Dev) : (setCore k c s).out = s.out := rfl
@[simp] theorem setCore_fresh (k : Nat) (c : Core) (s : Dev) : (setCore k c s).fresh = s.fresh := rfl
/-! ## modCore -/
@[simp] theorem modCore_regs (k : Nat) (f : Core → Core) (s : Dev) : (modCore k f s).regs = s.regs := setCore_regs k _ s
@[simp] theorem modCore_time (k : Nat) (f : Core → Core) (s : Dev) : (modCore k f s).time = s.time := setCore_time k _ s
@[simp] theorem modCore_ptp (k : Nat) (f : Core → Core) (s : Dev) : (modCore k f s).ptp = s.ptp := setCore_ptp k _ s
@[simp] theorem modCore_tide (k : Nat) (f : Core → Core) (s : Dev) : (modCore k f s).tide = s.tide := setCore_tide k _ s
@[simp] theorem modCore_held (k : Nat) (f : Core → Core) (s : Dev) : (modCore k f s).held = s.held := setCore_held k _ s
@[simp] theorem modCore_bus (k : Nat) (f : Core → Core) (s : Dev) : (modCore k f s).bus = s.bus := setCore_bus k _ s
@[simp] theorem modCore_pins (k : Nat) (f : Core → Core) (s : Dev) : (modCore k f s).pins = s.pins := setCore_pins k _ s
@[simp] theorem modCore_dram (k : Nat) (f : Core → Core) (s : Dev) : (modCore k f s).dram = s.dram := setCore_dram k _ s
@[simp] theorem modCore_cm (k : Nat) (f : Core → Core) (s : Dev) : (modCore k f s).cm = s.cm := setCore_cm k _ s
@[simp] theorem modCore_scr (k : Nat) (f : Core → Core) (s : Dev) : (modCore k f s).scr = s.scr := setCore_scr k _ s
@[simp] theorem modCore_flash (k : Nat) (f : Core → Core) (s : Dev) : (modCore k f s).flash = s.flash := setCore_flash k _ s
@[simp] theorem modCore_mdo (k : Nat) (f : Core → Core) (s : Dev) : (modCore k f s).mdo = s.mdo := setCore_mdo k _ s
@[simp] theorem modCore_err (k : Nat) (f : Core → Core) (s : Dev) : (modCore k f s).err = s.err := setCore_err k _ s
@[simp] theorem modCore_pci (k : Nat) (f : Core → Core) (s : Dev) : (modCore k f s).pci = s.pci := setCore_pci k _ s
@[simp] theorem modCore_clk (k : Nat) (f : Core → Core) (s : Dev) : (modCore k f s).clk = s.clk := setCore_clk k _ s
@[simp] theorem modCore_kv (k : Nat) (f : Core → Core) (s : Dev) : (modCore k f s).kv = s.kv := setCore_kv k _ s
@[simp] theorem modCore_coves (k : Nat) (f : Core → Core) (s : Dev) : (modCore k f s).coves = s.coves := setCore_coves k _ s
@[simp] theorem modCore_trk (k : Nat) (f : Core → Core) (s : Dev) : (modCore k f s).trk = s.trk := setCore_trk k _ s
@[simp] theorem modCore_cdc (k : Nat) (f : Core → Core) (s : Dev) : (modCore k f s).cdc = s.cdc := setCore_cdc k _ s
@[simp] theorem modCore_cctx (k : Nat) (f : Core → Core) (s : Dev) : (modCore k f s).cctx = s.cctx := setCore_cctx k _ s
@[simp] theorem modCore_ing (k : Nat) (f : Core → Core) (s : Dev) : (modCore k f s).ing = s.ing := setCore_ing k _ s
@[simp] theorem modCore_pix (k : Nat) (f : Core → Core) (s : Dev) : (modCore k f s).pix = s.pix := setCore_pix k _ s
@[simp] theorem modCore_dmc (k : Nat) (f : Core → Core) (s : Dev) : (modCore k f s).dmc = s.dmc := setCore_dmc k _ s
@[simp] theorem modCore_pwr (k : Nat) (f : Core → Core) (s : Dev) : (modCore k f s).pwr = s.pwr := setCore_pwr k _ s
@[simp] theorem modCore_bt (k : Nat) (f : Core → Core) (s : Dev) : (modCore k f s).bt = s.bt := setCore_bt k _ s
@[simp] theorem modCore_jtag (k : Nat) (f : Core → Core) (s : Dev) : (modCore k f s).jtag = s.jtag := setCore_jtag k _ s
@[simp] theorem modCore_out (k : Nat) (f : Core → Core) (s : Dev) : (modCore k f s).out = s.out := setCore_out k _ s
@[simp] theorem modCore_fresh (k : Nat) (f : Core → Core) (s : Dev) : (modCore k f s).fresh = s.fresh := setCore_fresh k _ s
/-! ## waitUntil -/
@[simp] theorem waitUntil_regs (t : Nat) (s : Dev) : (waitUntil t s).regs = s.regs := by unfold waitUntil; split <;> rfl
@[simp] theorem waitUntil_ptp (t : Nat) (s : Dev) : (waitUntil t s).ptp = s.ptp := by unfold waitUntil; split <;> rfl
@[simp] theorem waitUntil_tide (t : Nat) (s : Dev) : (waitUntil t s).tide = s.tide := by unfold waitUntil; split <;> rfl
@[simp] theorem waitUntil_held (t : Nat) (s : Dev) : (waitUntil t s).held = s.held := by unfold waitUntil; split <;> rfl
@[simp] theorem waitUntil_bus (t : Nat) (s : Dev) : (waitUntil t s).bus = s.bus := by unfold waitUntil; split <;> rfl
@[simp] theorem waitUntil_pins (t : Nat) (s : Dev) : (waitUntil t s).pins = s.pins := by unfold waitUntil; split <;> rfl
@[simp] theorem waitUntil_dram (t : Nat) (s : Dev) : (waitUntil t s).dram = s.dram := by unfold waitUntil; split <;> rfl
@[simp] theorem waitUntil_cm (t : Nat) (s : Dev) : (waitUntil t s).cm = s.cm := by unfold waitUntil; split <;> rfl
@[simp] theorem waitUntil_scr (t : Nat) (s : Dev) : (waitUntil t s).scr = s.scr := by unfold waitUntil; split <;> rfl
@[simp] theorem waitUntil_flash (t : Nat) (s : Dev) : (waitUntil t s).flash = s.flash := by unfold waitUntil; split <;> rfl
@[simp] theorem waitUntil_mdo (t : Nat) (s : Dev) : (waitUntil t s).mdo = s.mdo := by unfold waitUntil; split <;> rfl
@[simp] theorem waitUntil_err (t : Nat) (s : Dev) : (waitUntil t s).err = s.err := by unfold waitUntil; split <;> rfl
@[simp] theorem waitUntil_pci (t : Nat) (s : Dev) : (waitUntil t s).pci = s.pci := by unfold waitUntil; split <;> rfl
@[simp] theorem waitUntil_cores (t : Nat) (s : Dev) : (waitUntil t s).cores = s.cores := by unfold waitUntil; split <;> rfl
@[simp] theorem waitUntil_clk (t : Nat) (s : Dev) : (waitUntil t s).clk = s.clk := by unfold waitUntil; split <;> rfl
@[simp] theorem waitUntil_kv (t : Nat) (s : Dev) : (waitUntil t s).kv = s.kv := by unfold waitUntil; split <;> rfl
@[simp] theorem waitUntil_coves (t : Nat) (s : Dev) : (waitUntil t s).coves = s.coves := by unfold waitUntil; split <;> rfl
@[simp] theorem waitUntil_trk (t : Nat) (s : Dev) : (waitUntil t s).trk = s.trk := by unfold waitUntil; split <;> rfl
@[simp] theorem waitUntil_cdc (t : Nat) (s : Dev) : (waitUntil t s).cdc = s.cdc := by unfold waitUntil; split <;> rfl
@[simp] theorem waitUntil_cctx (t : Nat) (s : Dev) : (waitUntil t s).cctx = s.cctx := by unfold waitUntil; split <;> rfl
@[simp] theorem waitUntil_ing (t : Nat) (s : Dev) : (waitUntil t s).ing = s.ing := by unfold waitUntil; split <;> rfl
@[simp] theorem waitUntil_pix (t : Nat) (s : Dev) : (waitUntil t s).pix = s.pix := by unfold waitUntil; split <;> rfl
@[simp] theorem waitUntil_dmc (t : Nat) (s : Dev) : (waitUntil t s).dmc = s.dmc := by unfold waitUntil; split <;> rfl
@[simp] theorem waitUntil_pwr (t : Nat) (s : Dev) : (waitUntil t s).pwr = s.pwr := by unfold waitUntil; split <;> rfl
@[simp] theorem waitUntil_bt (t : Nat) (s : Dev) : (waitUntil t s).bt = s.bt := by unfold waitUntil; split <;> rfl
@[simp] theorem waitUntil_jtag (t : Nat) (s : Dev) : (waitUntil t s).jtag = s.jtag := by unfold waitUntil; split <;> rfl
@[simp] theorem waitUntil_out (t : Nat) (s : Dev) : (waitUntil t s).out = s.out := by unfold waitUntil; split <;> rfl
@[simp] theorem waitUntil_fresh (t : Nat) (s : Dev) : (waitUntil t s).fresh = s.fresh := by unfold waitUntil; split <;> rfl
/-! ## mwr -/
@[simp] theorem mwr_regs (sp : Space) (a : Nat) (b : Byte) (s : Dev) : (mwr sp a b s).regs = s.regs := by cases sp <;> simp only [mwr] <;> split <;> rfl
@[simp] theorem mwr_time (sp : Space) (a : Nat) (b : Byte) (s : Dev) : (mwr sp a b s).time = s.time := by cases sp <;> simp only [mwr] <;> split <;> rfl
@[simp] theorem mwr_ptp (sp : Space) (a : Nat) (b : Byte) (s : Dev) : (mwr sp a b s).ptp = s.ptp := by cases sp <;> simp only [mwr] <;> split <;> rfl
@[simp] theorem mwr_tide (sp : Space) (a : Nat) (b : Byte) (s : Dev) : (mwr sp a b s).tide = s.tide := by cases sp <;> simp only [mwr] <;> split <;> rfl
@[simp] theorem mwr_held (sp : Space) (a : Nat) (b : Byte) (s : Dev) : (mwr sp a b s).held = s.held := by cases sp <;> simp only [mwr] <;> split <;> rfl
@[simp] theorem mwr_bus (sp : Space) (a : Nat) (b : Byte) (s : Dev) : (mwr sp a b s).bus = s.bus := by cases sp <;> simp only [mwr] <;> split <;> rfl
@[simp] theorem mwr_pins (sp : Space) (a : Nat) (b : Byte) (s : Dev) : (mwr sp a b s).pins = s.pins := by cases sp <;> simp only [mwr] <;> split <;> rfl
@[simp] theorem mwr_flash (sp : Space) (a : Nat) (b : Byte) (s : Dev) : (mwr sp a b s).flash = s.flash := by cases sp <;> simp only [mwr] <;> split <;> rfl
@[simp] theorem mwr_mdo (sp : Space) (a : Nat) (b : Byte) (s : Dev) : (mwr sp a b s).mdo = s.mdo := by cases sp <;> simp only [mwr] <;> split <;> rfl
@[simp] theorem mwr_err (sp : Space) (a : Nat) (b : Byte) (s : Dev) : (mwr sp a b s).err = s.err := by cases sp <;> simp only [mwr] <;> split <;> rfl
@[simp] theorem mwr_pci (sp : Space) (a : Nat) (b : Byte) (s : Dev) : (mwr sp a b s).pci = s.pci := by cases sp <;> simp only [mwr] <;> split <;> rfl
@[simp] theorem mwr_cores (sp : Space) (a : Nat) (b : Byte) (s : Dev) : (mwr sp a b s).cores = s.cores := by cases sp <;> simp only [mwr] <;> split <;> rfl
@[simp] theorem mwr_clk (sp : Space) (a : Nat) (b : Byte) (s : Dev) : (mwr sp a b s).clk = s.clk := by cases sp <;> simp only [mwr] <;> split <;> rfl
@[simp] theorem mwr_kv (sp : Space) (a : Nat) (b : Byte) (s : Dev) : (mwr sp a b s).kv = s.kv := by cases sp <;> simp only [mwr] <;> split <;> rfl
@[simp] theorem mwr_coves (sp : Space) (a : Nat) (b : Byte) (s : Dev) : (mwr sp a b s).coves = s.coves := by cases sp <;> simp only [mwr] <;> split <;> rfl
@[simp] theorem mwr_trk (sp : Space) (a : Nat) (b : Byte) (s : Dev) : (mwr sp a b s).trk = s.trk := by cases sp <;> simp only [mwr] <;> split <;> rfl
@[simp] theorem mwr_cdc (sp : Space) (a : Nat) (b : Byte) (s : Dev) : (mwr sp a b s).cdc = s.cdc := by cases sp <;> simp only [mwr] <;> split <;> rfl
@[simp] theorem mwr_cctx (sp : Space) (a : Nat) (b : Byte) (s : Dev) : (mwr sp a b s).cctx = s.cctx := by cases sp <;> simp only [mwr] <;> split <;> rfl
@[simp] theorem mwr_ing (sp : Space) (a : Nat) (b : Byte) (s : Dev) : (mwr sp a b s).ing = s.ing := by cases sp <;> simp only [mwr] <;> split <;> rfl
@[simp] theorem mwr_pix (sp : Space) (a : Nat) (b : Byte) (s : Dev) : (mwr sp a b s).pix = s.pix := by cases sp <;> simp only [mwr] <;> split <;> rfl
@[simp] theorem mwr_dmc (sp : Space) (a : Nat) (b : Byte) (s : Dev) : (mwr sp a b s).dmc = s.dmc := by cases sp <;> simp only [mwr] <;> split <;> rfl
@[simp] theorem mwr_pwr (sp : Space) (a : Nat) (b : Byte) (s : Dev) : (mwr sp a b s).pwr = s.pwr := by cases sp <;> simp only [mwr] <;> split <;> rfl
@[simp] theorem mwr_bt (sp : Space) (a : Nat) (b : Byte) (s : Dev) : (mwr sp a b s).bt = s.bt := by cases sp <;> simp only [mwr] <;> split <;> rfl
@[simp] theorem mwr_jtag (sp : Space) (a : Nat) (b : Byte) (s : Dev) : (mwr sp a b s).jtag = s.jtag := by cases sp <;> simp only [mwr] <;> split <;> rfl
@[simp] theorem mwr_out (sp : Space) (a : Nat) (b : Byte) (s : Dev) : (mwr sp a b s).out = s.out := by cases sp <;> simp only [mwr] <;> split <;> rfl
@[simp] theorem mwr_fresh (sp : Space) (a : Nat) (b : Byte) (s : Dev) : (mwr sp a b s).fresh = s.fresh := by cases sp <;> simp only [mwr] <;> split <;> rfl
/-! ## wrBytes -/
@[simp] theorem wrBytes_regs (sp : Space) (a : Nat) (l : List Byte) (s : Dev) : (wrBytes sp a l s).regs = s.regs := by
  induction l generalizing a s with
  | nil => rfl
  | cons x l ih => rw [wrBytes, ih, mwr_regs]
@[simp] theorem wrBytes_time (sp : Space) (a : Nat) (l : List Byte) (s : Dev) : (wrBytes sp a l s).time = s.time := by
  induction l generalizing a s with
  | nil => rfl
  | cons x l ih => rw [wrBytes, ih, mwr_time]
@[simp] theorem wrBytes_ptp (sp : Space) (a : Nat) (l : List Byte) (s : Dev) : (wrBytes sp a l s).ptp = s.ptp := by
  induction l generalizing a s with
  | nil => rfl
  | cons x l ih => rw [wrBytes, ih, mwr_ptp]
@[simp] theorem wrBytes_tide (sp : Space) (a : Nat) (l : List Byte) (s : Dev) : (wrBytes sp a l s).tide = s.tide := by
  induction l generalizing a s with
  | nil => rfl
  | cons x l ih => rw [wrBytes, ih, mwr_tide]
@[simp] theorem wrBytes_held (sp : Space) (a : Nat) (l : List Byte) (s : Dev) : (wrBytes sp a l s).held = s.held := by
  induction l generalizing a s with
  | nil => rfl
  | cons x l ih => rw [wrBytes, ih, mwr_held]
@[simp] theorem wrBytes_bus (sp : Space) (a : Nat) (l : List Byte) (s : Dev) : (wrBytes sp a l s).bus = s.bus := by
  induction l generalizing a s with
  | nil => rfl
  | cons x l ih => rw [wrBytes, ih, mwr_bus]
@[simp] theorem wrBytes_pins (sp : Space) (a : Nat) (l : List Byte) (s : Dev) : (wrBytes sp a l s).pins = s.pins := by
  induction l generalizing a s with
  | nil => rfl
  | cons x l ih => rw [wrBytes, ih, mwr_pins]
@[simp] theorem wrBytes_flash (sp : Space) (a : Nat) (l : List Byte) (s : Dev) : (wrBytes sp a l s).flash = s.flash := by
  induction l generalizing a s with
  | nil => rfl
  | cons x l ih => rw [wrBytes, ih, mwr_flash]
@[simp] theorem wrBytes_mdo (sp : Space) (a : Nat) (l : List Byte) (s : Dev) : (wrBytes sp a l s).mdo = s.mdo := by
  induction l generalizing a s with
  | nil => rfl
  | cons x l ih => rw [wrBytes, ih, mwr_mdo]
@[simp] theorem wrBytes_err (sp : Space) (a : Nat) (l : List Byte) (s : Dev) : (wrBytes sp a l s).err = s.err := by
  induction l generalizing a s with
  | nil => rfl
  | cons x l ih => rw [wrBytes, ih, mwr_err]
@[simp] theorem wrBytes_pci (sp : Space) (a : Nat) (l : List Byte) (s : Dev) : (wrBytes sp a l s).pci = s.pci := by
  induction l generalizing a s with
  | nil => rfl
  | cons x l ih => rw [wrBytes, ih, mwr_pci]
@[simp] theorem wrBytes_cores (sp : Space) (a : Nat) (l : List Byte) (s : Dev) : (wrBytes sp a l s).cores = s.cores := by
  induction l generalizing a s with
  | nil => rfl
  | cons x l ih => rw [wrBytes, ih, mwr_cores]
@[simp] theorem wrBytes_clk (sp : Space) (a : Nat) (l : List Byte) (s : Dev) : (wrBytes sp a l s).clk = s.clk := by
  induction l generalizing a s with
  | nil => rfl
  | cons x l ih => rw [wrBytes, ih, mwr_clk]
@[simp] theorem wrBytes_kv (sp : Space) (a : Nat) (l : List Byte) (s : Dev) : (wrBytes sp a l s).kv = s.kv := by
  induction l generalizing a s with
  | nil => rfl
  | cons x l ih => rw [wrBytes, ih, mwr_kv]
@[simp] theorem wrBytes_coves (sp : Space) (a : Nat) (l : List Byte) (s : Dev) : (wrBytes sp a l s).coves = s.coves := by
  induction l generalizing a s with
  | nil => rfl
  | cons x l ih => rw [wrBytes, ih, mwr_coves]
@[simp] theorem wrBytes_trk (sp : Space) (a : Nat) (l : List Byte) (s : Dev) : (wrBytes sp a l s).trk = s.trk := by
  induction l generalizing a s with
  | nil => rfl
  | cons x l ih => rw [wrBytes, ih, mwr_trk]
@[simp] theorem wrBytes_cdc (sp : Space) (a : Nat) (l : List Byte) (s : Dev) : (wrBytes sp a l s).cdc = s.cdc := by
  induction l generalizing a s with
  | nil => rfl
  | cons x l ih => rw [wrBytes, ih, mwr_cdc]
@[simp] theorem wrBytes_cctx (sp : Space) (a : Nat) (l : List Byte) (s : Dev) : (wrBytes sp a l s).cctx = s.cctx := by
  induction l generalizing a s with
  | nil => rfl
  | cons x l ih => rw [wrBytes, ih, mwr_cctx]
@[simp] theorem wrBytes_ing (sp : Space) (a : Nat) (l : List Byte) (s : Dev) : (wrBytes sp a l s).ing = s.ing := by
  induction l generalizing a s with
  | nil => rfl
  | cons x l ih => rw [wrBytes, ih, mwr_ing]
@[simp] theorem wrBytes_pix (sp : Space) (a : Nat) (l : List Byte) (s : Dev) : (wrBytes sp a l s).pix = s.pix := by
  induction l generalizing a s with
  | nil => rfl
  | cons x l ih => rw [wrBytes, ih, mwr_pix]
@[simp] theorem wrBytes_dmc (sp : Space) (a : Nat) (l : List Byte) (s : Dev) : (wrBytes sp a l s).dmc = s.dmc := by
  induction l generalizing a s with
  | nil => rfl
  | cons x l ih => rw [wrBytes, ih, mwr_dmc]
@[simp] theorem wrBytes_pwr (sp : Space) (a : Nat) (l : List Byte) (s : Dev) : (wrBytes sp a l s).pwr = s.pwr := by
  induction l generalizing a s with
  | nil => rfl
  | cons x l ih => rw [wrBytes, ih, mwr_pwr]
@[simp] theorem wrBytes_bt (sp : Space) (a : Nat) (l : List Byte) (s : Dev) : (wrBytes sp a l s).bt = s.bt := by
  induction l generalizing a s with
  | nil => rfl
  | cons x l ih => rw [wrBytes, ih, mwr_bt]
@[simp] theorem wrBytes_jtag (sp : Space) (a : Nat) (l : List Byte) (s : Dev) : (wrBytes sp a l s).jtag = s.jtag := by
  induction l generalizing a s with
  | nil => rfl
  | cons x l ih => rw [wrBytes, ih, mwr_jtag]
@[simp] theorem wrBytes_out (sp : Space) (a : Nat) (l : List Byte) (s : Dev) : (wrBytes sp a l s).out = s.out := by
  induction l generalizing a s with
  | nil => rfl
  | cons x l ih => rw [wrBytes, ih, mwr_out]
@[simp] theorem wrBytes_fresh (sp : Space) (a : Nat) (l : List Byte) (s : Dev) : (wrBytes sp a l s).fresh = s.fresh := by
  induction l generalizing a s with
  | nil => rfl
  | cons x l ih => rw [wrBytes, ih, mwr_fresh]
/-! ## wrLE -/
@[simp] theorem wrLE_regs (sp : Space) (a n v : Nat) (s : Dev) : (wrLE sp a n v s).regs = s.regs := wrBytes_regs sp a (leBytes n v) s
@[simp] theorem wrLE_time (sp : Space) (a n v : Nat) (s : Dev) : (wrLE sp a n v s).time = s.time := wrBytes_time sp a (leBytes n v) s
@[simp] theorem wrLE_ptp (sp : Space) (a n v : Nat) (s : Dev) : (wrLE sp a n v s).ptp = s.ptp := wrBytes_ptp sp a (leBytes n v) s
@[simp] theorem wrLE_tide (sp : Space) (a n v : Nat) (s : Dev) : (wrLE sp a n v s).tide = s.tide := wrBytes_tide sp a (leBytes n v) s
@[simp] theorem wrLE_held (sp : Space) (a n v : Nat) (s : Dev) : (wrLE sp a n v s).held = s.held := wrBytes_held sp a (leBytes n v) s
@[simp] theorem wrLE_bus (sp : Space) (a n v : Nat) (s : Dev) : (wrLE sp a n v s).bus = s.bus := wrBytes_bus sp a (leBytes n v) s
@[simp] theorem wrLE_pins (sp : Space) (a n v : Nat) (s : Dev) : (wrLE sp a n v s).pins = s.pins := wrBytes_pins sp a (leBytes n v) s
@[simp] theorem wrLE_flash (sp : Space) (a n v : Nat) (s : Dev) : (wrLE sp a n v s).flash = s.flash := wrBytes_flash sp a (leBytes n v) s
@[simp] theorem wrLE_mdo (sp : Space) (a n v : Nat) (s : Dev) : (wrLE sp a n v s).mdo = s.mdo := wrBytes_mdo sp a (leBytes n v) s
@[simp] theorem wrLE_err (sp : Space) (a n v : Nat) (s : Dev) : (wrLE sp a n v s).err = s.err := wrBytes_err sp a (leBytes n v) s
@[simp] theorem wrLE_pci (sp : Space) (a n v : Nat) (s : Dev) : (wrLE sp a n v s).pci = s.pci := wrBytes_pci sp a (leBytes n v) s
@[simp] theorem wrLE_cores (sp : Space) (a n v : Nat) (s : Dev) : (wrLE sp a n v s).cores = s.cores := wrBytes_cores sp a (leBytes n v) s
@[simp] theorem wrLE_clk (sp : Space) (a n v : Nat) (s : Dev) : (wrLE sp a n v s).clk = s.clk := wrBytes_clk sp a (leBytes n v) s
@[simp] theorem wrLE_kv (sp : Space) (a n v : Nat) (s : Dev) : (wrLE sp a n v s).kv = s.kv := wrBytes_kv sp a (leBytes n v) s
@[simp] theorem wrLE_coves (sp : Space) (a n v : Nat) (s : Dev) : (wrLE sp a n v s).coves = s.coves := wrBytes_coves sp a (leBytes n v) s
@[simp] theorem wrLE_trk (sp : Space) (a n v : Nat) (s : Dev) : (wrLE sp a n v s).trk = s.trk := wrBytes_trk sp a (leBytes n v) s
@[simp] theorem wrLE_cdc (sp : Space) (a n v : Nat) (s : Dev) : (wrLE sp a n v s).cdc = s.cdc := wrBytes_cdc sp a (leBytes n v) s
@[simp] theorem wrLE_cctx (sp : Space) (a n v : Nat) (s : Dev) : (wrLE sp a n v s).cctx = s.cctx := wrBytes_cctx sp a (leBytes n v) s
@[simp] theorem wrLE_ing (sp : Space) (a n v : Nat) (s : Dev) : (wrLE sp a n v s).ing = s.ing := wrBytes_ing sp a (leBytes n v) s
@[simp] theorem wrLE_pix (sp : Space) (a n v : Nat) (s : Dev) : (wrLE sp a n v s).pix = s.pix := wrBytes_pix sp a (leBytes n v) s
@[simp] theorem wrLE_dmc (sp : Space) (a n v : Nat) (s : Dev) : (wrLE sp a n v s).dmc = s.dmc := wrBytes_dmc sp a (leBytes n v) s
@[simp] theorem wrLE_pwr (sp : Space) (a n v : Nat) (s : Dev) : (wrLE sp a n v s).pwr = s.pwr := wrBytes_pwr sp a (leBytes n v) s
@[simp] theorem wrLE_bt (sp : Space) (a n v : Nat) (s : Dev) : (wrLE sp a n v s).bt = s.bt := wrBytes_bt sp a (leBytes n v) s
@[simp] theorem wrLE_jtag (sp : Space) (a n v : Nat) (s : Dev) : (wrLE sp a n v s).jtag = s.jtag := wrBytes_jtag sp a (leBytes n v) s
@[simp] theorem wrLE_out (sp : Space) (a n v : Nat) (s : Dev) : (wrLE sp a n v s).out = s.out := wrBytes_out sp a (leBytes n v) s
@[simp] theorem wrLE_fresh (sp : Space) (a n v : Nat) (s : Dev) : (wrLE sp a n v s).fresh = s.fresh := wrBytes_fresh sp a (leBytes n v) s
/-! ## clearBytes -/
@[simp] theorem clearBytes_regs (sp : Space) (a n : Nat) (s : Dev) : (clearBytes sp a n s).regs = s.regs := wrBytes_regs sp a (List.replicate n 0) s
@[simp] theorem clearBytes_time (sp : Space) (a n : Nat) (s : Dev) : (clearBytes sp a n s).time = s.time := wrBytes_time sp a (List.replicate n 0) s
@[simp] theorem clearBytes_ptp (sp : Space) (a n : Nat) (s : Dev) : (clearBytes sp a n s).ptp = s.ptp := wrBytes_ptp sp a (List.replicate n 0) s
@[simp] theorem clearBytes_tide (sp : Space) (a n : Nat) (s : Dev) : (clearBytes sp a n s).tide = s.tide := wrBytes_tide sp a (List.replicate n 0) s
@[simp] theorem clearBytes_held (sp : Space) (a n : Nat) (s : Dev) : (clearBytes sp a n s).held = s.held := wrBytes_held sp a (List.replicate n 0) s
@[simp] theorem clearBytes_bus (sp : Space) (a n : Nat) (s : Dev) : (clearBytes sp a n s).bus = s.bus := wrBytes_bus sp a (List.replicate n 0) s
@[simp] theorem clearBytes_pins (sp : Space) (a n : Nat) (s : Dev) : (clearBytes sp a n s).pins = s.pins := wrBytes_pins sp a (List.replicate n 0) s
@[simp] theorem clearBytes_flash (sp : Space) (a n : Nat) (s : Dev) : (clearBytes sp a n s).flash = s.flash := wrBytes_flash sp a (List.replicate n 0) s
@[simp] theorem clearBytes_mdo (sp : Space) (a n : Nat) (s : Dev) : (clearBytes sp a n s).mdo = s.mdo := wrBytes_mdo sp a (List.replicate n 0) s
@[simp] theorem clearBytes_err (sp : Space) (a n : Nat) (s : Dev) : (clearBytes sp a n s).err = s.err := wrBytes_err sp a (List.replicate n 0) s
@[simp] theorem clearBytes_pci (sp : Space) (a n : Nat) (s : Dev) : (clearBytes sp a n s).pci = s.pci := wrBytes_pci sp a (List.replicate n 0) s
@[simp] theorem clearBytes_cores (sp : Space) (a n : Nat) (s : Dev) : (clearBytes sp a n s).cores = s.cores := wrBytes_cores sp a (List.replicate n 0) s
@[simp] theorem clearBytes_clk (sp : Space) (a n : Nat) (s : Dev) : (clearBytes sp a n s).clk = s.clk := wrBytes_clk sp a (List.replicate n 0) s
@[simp] theorem clearBytes_kv (sp : Space) (a n : Nat) (s : Dev) : (clearBytes sp a n s).kv = s.kv := wrBytes_kv sp a (List.replicate n 0) s
@[simp] theorem clearBytes_coves (sp : Space) (a n : Nat) (s : Dev) : (clearBytes sp a n s).coves = s.coves := wrBytes_coves sp a (List.replicate n 0) s
@[simp] theorem clearBytes_trk (sp : Space) (a n : Nat) (s : Dev) : (clearBytes sp a n s).trk = s.trk := wrBytes_trk sp a (List.replicate n 0) s
@[simp] theorem clearBytes_cdc (sp : Space) (a n : Nat) (s : Dev) : (clearBytes sp a n s).cdc = s.cdc := wrBytes_cdc sp a (List.replicate n 0) s
@[simp] theorem clearBytes_cctx (sp : Space) (a n : Nat) (s : Dev) : (clearBytes sp a n s).cctx = s.cctx := wrBytes_cctx sp a (List.replicate n 0) s
@[simp] theorem clearBytes_ing (sp : Space) (a n : Nat) (s : Dev) : (clearBytes sp a n s).ing = s.ing := wrBytes_ing sp a (List.replicate n 0) s
@[simp] theorem clearBytes_pix (sp : Space) (a n : Nat) (s : Dev) : (clearBytes sp a n s).pix = s.pix := wrBytes_pix sp a (List.replicate n 0) s
@[simp] theorem clearBytes_dmc (sp : Space) (a n : Nat) (s : Dev) : (clearBytes sp a n s).dmc = s.dmc := wrBytes_dmc sp a (List.replicate n 0) s
@[simp] theorem clearBytes_pwr (sp : Space) (a n : Nat) (s : Dev) : (clearBytes sp a n s).pwr = s.pwr := wrBytes_pwr sp a (List.replicate n 0) s
@[simp] theorem clearBytes_bt (sp : Space) (a n : Nat) (s : Dev) : (clearBytes sp a n s).bt = s.bt := wrBytes_bt sp a (List.replicate n 0) s
@[simp] theorem clearBytes_jtag (sp : Space) (a n : Nat) (s : Dev) : (clearBytes sp a n s).jtag = s.jtag := wrBytes_jtag sp a (List.replicate n 0) s
@[simp] theorem clearBytes_out (sp : Space) (a n : Nat) (s : Dev) : (clearBytes sp a n s).out = s.out := wrBytes_out sp a (List.replicate n 0) s
@[simp] theorem clearBytes_fresh (sp : Space) (a n : Nat) (s : Dev) : (clearBytes sp a n s).fresh = s.fresh := wrBytes_fresh sp a (List.replicate n 0) s
/-! ## raiseFor -/
@[simp] theorem raiseFor_time (code unit info subject : Nat) (s : Dev) : (raiseFor code unit info subject s).time = s.time := by unfold raiseFor; cases eventReg code unit <;> rfl
@[simp] theorem raiseFor_ptp (code unit info subject : Nat) (s : Dev) : (raiseFor code unit info subject s).ptp = s.ptp := by unfold raiseFor; cases eventReg code unit <;> rfl
@[simp] theorem raiseFor_tide (code unit info subject : Nat) (s : Dev) : (raiseFor code unit info subject s).tide = s.tide := by unfold raiseFor; cases eventReg code unit <;> rfl
@[simp] theorem raiseFor_held (code unit info subject : Nat) (s : Dev) : (raiseFor code unit info subject s).held = s.held := by unfold raiseFor; cases eventReg code unit <;> rfl
@[simp] theorem raiseFor_bus (code unit info subject : Nat) (s : Dev) : (raiseFor code unit info subject s).bus = s.bus := by unfold raiseFor; cases eventReg code unit <;> rfl
@[simp] theorem raiseFor_pins (code unit info subject : Nat) (s : Dev) : (raiseFor code unit info subject s).pins = s.pins := by unfold raiseFor; cases eventReg code unit <;> rfl
@[simp] theorem raiseFor_dram (code unit info subject : Nat) (s : Dev) : (raiseFor code unit info subject s).dram = s.dram := by unfold raiseFor; cases eventReg code unit <;> rfl
@[simp] theorem raiseFor_cm (code unit info subject : Nat) (s : Dev) : (raiseFor code unit info subject s).cm = s.cm := by unfold raiseFor; cases eventReg code unit <;> rfl
@[simp] theorem raiseFor_scr (code unit info subject : Nat) (s : Dev) : (raiseFor code unit info subject s).scr = s.scr := by unfold raiseFor; cases eventReg code unit <;> rfl
@[simp] theorem raiseFor_flash (code unit info subject : Nat) (s : Dev) : (raiseFor code unit info subject s).flash = s.flash := by unfold raiseFor; cases eventReg code unit <;> rfl
@[simp] theorem raiseFor_mdo (code unit info subject : Nat) (s : Dev) : (raiseFor code unit info subject s).mdo = s.mdo := by unfold raiseFor; cases eventReg code unit <;> rfl
@[simp] theorem raiseFor_pci (code unit info subject : Nat) (s : Dev) : (raiseFor code unit info subject s).pci = s.pci := by unfold raiseFor; cases eventReg code unit <;> rfl
@[simp] theorem raiseFor_cores (code unit info subject : Nat) (s : Dev) : (raiseFor code unit info subject s).cores = s.cores := by unfold raiseFor; cases eventReg code unit <;> rfl
@[simp] theorem raiseFor_clk (code unit info subject : Nat) (s : Dev) : (raiseFor code unit info subject s).clk = s.clk := by unfold raiseFor; cases eventReg code unit <;> rfl
@[simp] theorem raiseFor_kv (code unit info subject : Nat) (s : Dev) : (raiseFor code unit info subject s).kv = s.kv := by unfold raiseFor; cases eventReg code unit <;> rfl
@[simp] theorem raiseFor_coves (code unit info subject : Nat) (s : Dev) : (raiseFor code unit info subject s).coves = s.coves := by unfold raiseFor; cases eventReg code unit <;> rfl
@[simp] theorem raiseFor_trk (code unit info subject : Nat) (s : Dev) : (raiseFor code unit info subject s).trk = s.trk := by unfold raiseFor; cases eventReg code unit <;> rfl
@[simp] theorem raiseFor_cdc (code unit info subject : Nat) (s : Dev) : (raiseFor code unit info subject s).cdc = s.cdc := by unfold raiseFor; cases eventReg code unit <;> rfl
@[simp] theorem raiseFor_cctx (code unit info subject : Nat) (s : Dev) : (raiseFor code unit info subject s).cctx = s.cctx := by unfold raiseFor; cases eventReg code unit <;> rfl
@[simp] theorem raiseFor_ing (code unit info subject : Nat) (s : Dev) : (raiseFor code unit info subject s).ing = s.ing := by unfold raiseFor; cases eventReg code unit <;> rfl
@[simp] theorem raiseFor_pix (code unit info subject : Nat) (s : Dev) : (raiseFor code unit info subject s).pix = s.pix := by unfold raiseFor; cases eventReg code unit <;> rfl
@[simp] theorem raiseFor_dmc (code unit info subject : Nat) (s : Dev) : (raiseFor code unit info subject s).dmc = s.dmc := by unfold raiseFor; cases eventReg code unit <;> rfl
@[simp] theorem raiseFor_pwr (code unit info subject : Nat) (s : Dev) : (raiseFor code unit info subject s).pwr = s.pwr := by unfold raiseFor; cases eventReg code unit <;> rfl
@[simp] theorem raiseFor_bt (code unit info subject : Nat) (s : Dev) : (raiseFor code unit info subject s).bt = s.bt := by unfold raiseFor; cases eventReg code unit <;> rfl
@[simp] theorem raiseFor_jtag (code unit info subject : Nat) (s : Dev) : (raiseFor code unit info subject s).jtag = s.jtag := by unfold raiseFor; cases eventReg code unit <;> rfl
@[simp] theorem raiseFor_out (code unit info subject : Nat) (s : Dev) : (raiseFor code unit info subject s).out = s.out := by unfold raiseFor; cases eventReg code unit <;> rfl
@[simp] theorem raiseFor_fresh (code unit info subject : Nat) (s : Dev) : (raiseFor code unit info subject s).fresh = s.fresh := by unfold raiseFor; cases eventReg code unit <;> rfl
/-! ## raise -/
@[simp] theorem raise_time (code unit info : Nat) (s : Dev) : (raise code unit info s).time = s.time := raiseFor_time code unit info 0xFFFF s
@[simp] theorem raise_ptp (code unit info : Nat) (s : Dev) : (raise code unit info s).ptp = s.ptp := raiseFor_ptp code unit info 0xFFFF s
@[simp] theorem raise_tide (code unit info : Nat) (s : Dev) : (raise code unit info s).tide = s.tide := raiseFor_tide code unit info 0xFFFF s
@[simp] theorem raise_held (code unit info : Nat) (s : Dev) : (raise code unit info s).held = s.held := raiseFor_held code unit info 0xFFFF s
@[simp] theorem raise_bus (code unit info : Nat) (s : Dev) : (raise code unit info s).bus = s.bus := raiseFor_bus code unit info 0xFFFF s
@[simp] theorem raise_pins (code unit info : Nat) (s : Dev) : (raise code unit info s).pins = s.pins := raiseFor_pins code unit info 0xFFFF s
@[simp] theorem raise_dram (code unit info : Nat) (s : Dev) : (raise code unit info s).dram = s.dram := raiseFor_dram code unit info 0xFFFF s
@[simp] theorem raise_cm (code unit info : Nat) (s : Dev) : (raise code unit info s).cm = s.cm := raiseFor_cm code unit info 0xFFFF s
@[simp] theorem raise_scr (code unit info : Nat) (s : Dev) : (raise code unit info s).scr = s.scr := raiseFor_scr code unit info 0xFFFF s
@[simp] theorem raise_flash (code unit info : Nat) (s : Dev) : (raise code unit info s).flash = s.flash := raiseFor_flash code unit info 0xFFFF s
@[simp] theorem raise_mdo (code unit info : Nat) (s : Dev) : (raise code unit info s).mdo = s.mdo := raiseFor_mdo code unit info 0xFFFF s
@[simp] theorem raise_pci (code unit info : Nat) (s : Dev) : (raise code unit info s).pci = s.pci := raiseFor_pci code unit info 0xFFFF s
@[simp] theorem raise_cores (code unit info : Nat) (s : Dev) : (raise code unit info s).cores = s.cores := raiseFor_cores code unit info 0xFFFF s
@[simp] theorem raise_clk (code unit info : Nat) (s : Dev) : (raise code unit info s).clk = s.clk := raiseFor_clk code unit info 0xFFFF s
@[simp] theorem raise_kv (code unit info : Nat) (s : Dev) : (raise code unit info s).kv = s.kv := raiseFor_kv code unit info 0xFFFF s
@[simp] theorem raise_coves (code unit info : Nat) (s : Dev) : (raise code unit info s).coves = s.coves := raiseFor_coves code unit info 0xFFFF s
@[simp] theorem raise_trk (code unit info : Nat) (s : Dev) : (raise code unit info s).trk = s.trk := raiseFor_trk code unit info 0xFFFF s
@[simp] theorem raise_cdc (code unit info : Nat) (s : Dev) : (raise code unit info s).cdc = s.cdc := raiseFor_cdc code unit info 0xFFFF s
@[simp] theorem raise_cctx (code unit info : Nat) (s : Dev) : (raise code unit info s).cctx = s.cctx := raiseFor_cctx code unit info 0xFFFF s
@[simp] theorem raise_ing (code unit info : Nat) (s : Dev) : (raise code unit info s).ing = s.ing := raiseFor_ing code unit info 0xFFFF s
@[simp] theorem raise_pix (code unit info : Nat) (s : Dev) : (raise code unit info s).pix = s.pix := raiseFor_pix code unit info 0xFFFF s
@[simp] theorem raise_dmc (code unit info : Nat) (s : Dev) : (raise code unit info s).dmc = s.dmc := raiseFor_dmc code unit info 0xFFFF s
@[simp] theorem raise_pwr (code unit info : Nat) (s : Dev) : (raise code unit info s).pwr = s.pwr := raiseFor_pwr code unit info 0xFFFF s
@[simp] theorem raise_bt (code unit info : Nat) (s : Dev) : (raise code unit info s).bt = s.bt := raiseFor_bt code unit info 0xFFFF s
@[simp] theorem raise_jtag (code unit info : Nat) (s : Dev) : (raise code unit info s).jtag = s.jtag := raiseFor_jtag code unit info 0xFFFF s
@[simp] theorem raise_out (code unit info : Nat) (s : Dev) : (raise code unit info s).out = s.out := raiseFor_out code unit info 0xFFFF s
@[simp] theorem raise_fresh (code unit info : Nat) (s : Dev) : (raise code unit info s).fresh = s.fresh := raiseFor_fresh code unit info 0xFFFF s
/-! ## setChan -/
@[simp] theorem setChan_regs (ch : Nat) (c : Chan) (s : Dev) : (setChan ch c s).regs = s.regs := rfl
@[simp] theorem setChan_time (ch : Nat) (c : Chan) (s : Dev) : (setChan ch c s).time = s.time := rfl
@[simp] theorem setChan_ptp (ch : Nat) (c : Chan) (s : Dev) : (setChan ch c s).ptp = s.ptp := rfl
@[simp] theorem setChan_tide (ch : Nat) (c : Chan) (s : Dev) : (setChan ch c s).tide = s.tide := rfl
@[simp] theorem setChan_held (ch : Nat) (c : Chan) (s : Dev) : (setChan ch c s).held = s.held := rfl
@[simp] theorem setChan_bus (ch : Nat) (c : Chan) (s : Dev) : (setChan ch c s).bus = s.bus := rfl
@[simp] theorem setChan_pins (ch : Nat) (c : Chan) (s : Dev) : (setChan ch c s).pins = s.pins := rfl
@[simp] theorem setChan_dram (ch : Nat) (c : Chan) (s : Dev) : (setChan ch c s).dram = s.dram := rfl
@[simp] theorem setChan_cm (ch : Nat) (c : Chan) (s : Dev) : (setChan ch c s).cm = s.cm := rfl
@[simp] theorem setChan_scr (ch : Nat) (c : Chan) (s : Dev) : (setChan ch c s).scr = s.scr := rfl
@[simp] theorem setChan_flash (ch : Nat) (c : Chan) (s : Dev) : (setChan ch c s).flash = s.flash := rfl
@[simp] theorem setChan_err (ch : Nat) (c : Chan) (s : Dev) : (setChan ch c s).err = s.err := rfl
@[simp] theorem setChan_pci (ch : Nat) (c : Chan) (s : Dev) : (setChan ch c s).pci = s.pci := rfl
@[simp] theorem setChan_cores (ch : Nat) (c : Chan) (s : Dev) : (setChan ch c s).cores = s.cores := rfl
@[simp] theorem setChan_clk (ch : Nat) (c : Chan) (s : Dev) : (setChan ch c s).clk = s.clk := rfl
@[simp] theorem setChan_kv (ch : Nat) (c : Chan) (s : Dev) : (setChan ch c s).kv = s.kv := rfl
@[simp] theorem setChan_coves (ch : Nat) (c : Chan) (s : Dev) : (setChan ch c s).coves = s.coves := rfl
@[simp] theorem setChan_trk (ch : Nat) (c : Chan) (s : Dev) : (setChan ch c s).trk = s.trk := rfl
@[simp] theorem setChan_cdc (ch : Nat) (c : Chan) (s : Dev) : (setChan ch c s).cdc = s.cdc := rfl
@[simp] theorem setChan_cctx (ch : Nat) (c : Chan) (s : Dev) : (setChan ch c s).cctx = s.cctx := rfl
@[simp] theorem setChan_ing (ch : Nat) (c : Chan) (s : Dev) : (setChan ch c s).ing = s.ing := rfl
@[simp] theorem setChan_pix (ch : Nat) (c : Chan) (s : Dev) : (setChan ch c s).pix = s.pix := rfl
@[simp] theorem setChan_dmc (ch : Nat) (c : Chan) (s : Dev) : (setChan ch c s).dmc = s.dmc := rfl
@[simp] theorem setChan_pwr (ch : Nat) (c : Chan) (s : Dev) : (setChan ch c s).pwr = s.pwr := rfl
@[simp] theorem setChan_bt (ch : Nat) (c : Chan) (s : Dev) : (setChan ch c s).bt = s.bt := rfl
@[simp] theorem setChan_jtag (ch : Nat) (c : Chan) (s : Dev) : (setChan ch c s).jtag = s.jtag := rfl
@[simp] theorem setChan_out (ch : Nat) (c : Chan) (s : Dev) : (setChan ch c s).out = s.out := rfl
@[simp] theorem setChan_fresh (ch : Nat) (c : Chan) (s : Dev) : (setChan ch c s).fresh = s.fresh := rfl
/-! ## setPba -/
@[simp] theorem setPba_regs (v : Nat) (b : Bool) (s : Dev) : (setPba v b s).regs = s.regs := rfl
@[simp] theorem setPba_time (v : Nat) (b : Bool) (s : Dev) : (setPba v b s).time = s.time := rfl
@[simp] theorem setPba_ptp (v : Nat) (b : Bool) (s : Dev) : (setPba v b s).ptp = s.ptp := rfl
@[simp] theorem setPba_tide (v : Nat) (b : Bool) (s : Dev) : (setPba v b s).tide = s.tide := rfl
@[simp] theorem setPba_held (v : Nat) (b : Bool) (s : Dev) : (setPba v b s).held = s.held := rfl
@[simp] theorem setPba_bus (v : Nat) (b : Bool) (s : Dev) : (setPba v b s).bus = s.bus := rfl
@[simp] theorem setPba_pins (v : Nat) (b : Bool) (s : Dev) : (setPba v b s).pins = s.pins := rfl
@[simp] theorem setPba_dram (v : Nat) (b : Bool) (s : Dev) : (setPba v b s).dram = s.dram := rfl
@[simp] theorem setPba_cm (v : Nat) (b : Bool) (s : Dev) : (setPba v b s).cm = s.cm := rfl
@[simp] theorem setPba_scr (v : Nat) (b : Bool) (s : Dev) : (setPba v b s).scr = s.scr := rfl
@[simp] theorem setPba_flash (v : Nat) (b : Bool) (s : Dev) : (setPba v b s).flash = s.flash := rfl
@[simp] theorem setPba_mdo (v : Nat) (b : Bool) (s : Dev) : (setPba v b s).mdo = s.mdo := rfl
@[simp] theorem setPba_err (v : Nat) (b : Bool) (s : Dev) : (setPba v b s).err = s.err := rfl
@[simp] theorem setPba_cores (v : Nat) (b : Bool) (s : Dev) : (setPba v b s).cores = s.cores := rfl
@[simp] theorem setPba_clk (v : Nat) (b : Bool) (s : Dev) : (setPba v b s).clk = s.clk := rfl
@[simp] theorem setPba_kv (v : Nat) (b : Bool) (s : Dev) : (setPba v b s).kv = s.kv := rfl
@[simp] theorem setPba_coves (v : Nat) (b : Bool) (s : Dev) : (setPba v b s).coves = s.coves := rfl
@[simp] theorem setPba_trk (v : Nat) (b : Bool) (s : Dev) : (setPba v b s).trk = s.trk := rfl
@[simp] theorem setPba_cdc (v : Nat) (b : Bool) (s : Dev) : (setPba v b s).cdc = s.cdc := rfl
@[simp] theorem setPba_cctx (v : Nat) (b : Bool) (s : Dev) : (setPba v b s).cctx = s.cctx := rfl
@[simp] theorem setPba_ing (v : Nat) (b : Bool) (s : Dev) : (setPba v b s).ing = s.ing := rfl
@[simp] theorem setPba_pix (v : Nat) (b : Bool) (s : Dev) : (setPba v b s).pix = s.pix := rfl
@[simp] theorem setPba_dmc (v : Nat) (b : Bool) (s : Dev) : (setPba v b s).dmc = s.dmc := rfl
@[simp] theorem setPba_pwr (v : Nat) (b : Bool) (s : Dev) : (setPba v b s).pwr = s.pwr := rfl
@[simp] theorem setPba_bt (v : Nat) (b : Bool) (s : Dev) : (setPba v b s).bt = s.bt := rfl
@[simp] theorem setPba_jtag (v : Nat) (b : Bool) (s : Dev) : (setPba v b s).jtag = s.jtag := rfl
@[simp] theorem setPba_out (v : Nat) (b : Bool) (s : Dev) : (setPba v b s).out = s.out := rfl
@[simp] theorem setPba_fresh (v : Nat) (b : Bool) (s : Dev) : (setPba v b s).fresh = s.fresh := rfl
/-! ## cfgPut -/
@[simp] theorem cfgPut_regs (a v : Nat) (s : Dev) : (cfgPut a v s).regs = s.regs := rfl
@[simp] theorem cfgPut_time (a v : Nat) (s : Dev) : (cfgPut a v s).time = s.time := rfl
@[simp] theorem cfgPut_ptp (a v : Nat) (s : Dev) : (cfgPut a v s).ptp = s.ptp := rfl
@[simp] theorem cfgPut_tide (a v : Nat) (s : Dev) : (cfgPut a v s).tide = s.tide := rfl
@[simp] theorem cfgPut_held (a v : Nat) (s : Dev) : (cfgPut a v s).held = s.held := rfl
@[simp] theorem cfgPut_bus (a v : Nat) (s : Dev) : (cfgPut a v s).bus = s.bus := rfl
@[simp] theorem cfgPut_pins (a v : Nat) (s : Dev) : (cfgPut a v s).pins = s.pins := rfl
@[simp] theorem cfgPut_dram (a v : Nat) (s : Dev) : (cfgPut a v s).dram = s.dram := rfl
@[simp] theorem cfgPut_cm (a v : Nat) (s : Dev) : (cfgPut a v s).cm = s.cm := rfl
@[simp] theorem cfgPut_scr (a v : Nat) (s : Dev) : (cfgPut a v s).scr = s.scr := rfl
@[simp] theorem cfgPut_flash (a v : Nat) (s : Dev) : (cfgPut a v s).flash = s.flash := rfl
@[simp] theorem cfgPut_mdo (a v : Nat) (s : Dev) : (cfgPut a v s).mdo = s.mdo := rfl
@[simp] theorem cfgPut_err (a v : Nat) (s : Dev) : (cfgPut a v s).err = s.err := rfl
@[simp] theorem cfgPut_cores (a v : Nat) (s : Dev) : (cfgPut a v s).cores = s.cores := rfl
@[simp] theorem cfgPut_clk (a v : Nat) (s : Dev) : (cfgPut a v s).clk = s.clk := rfl
@[simp] theorem cfgPut_kv (a v : Nat) (s : Dev) : (cfgPut a v s).kv = s.kv := rfl
@[simp] theorem cfgPut_coves (a v : Nat) (s : Dev) : (cfgPut a v s).coves = s.coves := rfl
@[simp] theorem cfgPut_trk (a v : Nat) (s : Dev) : (cfgPut a v s).trk = s.trk := rfl
@[simp] theorem cfgPut_cdc (a v : Nat) (s : Dev) : (cfgPut a v s).cdc = s.cdc := rfl
@[simp] theorem cfgPut_cctx (a v : Nat) (s : Dev) : (cfgPut a v s).cctx = s.cctx := rfl
@[simp] theorem cfgPut_ing (a v : Nat) (s : Dev) : (cfgPut a v s).ing = s.ing := rfl
@[simp] theorem cfgPut_pix (a v : Nat) (s : Dev) : (cfgPut a v s).pix = s.pix := rfl
@[simp] theorem cfgPut_dmc (a v : Nat) (s : Dev) : (cfgPut a v s).dmc = s.dmc := rfl
@[simp] theorem cfgPut_pwr (a v : Nat) (s : Dev) : (cfgPut a v s).pwr = s.pwr := rfl
@[simp] theorem cfgPut_bt (a v : Nat) (s : Dev) : (cfgPut a v s).bt = s.bt := rfl
@[simp] theorem cfgPut_jtag (a v : Nat) (s : Dev) : (cfgPut a v s).jtag = s.jtag := rfl
@[simp] theorem cfgPut_out (a v : Nat) (s : Dev) : (cfgPut a v s).out = s.out := rfl
@[simp] theorem cfgPut_fresh (a v : Nat) (s : Dev) : (cfgPut a v s).fresh = s.fresh := rfl
/-! ## hostPost -/
@[simp] theorem hostPost_regs (r kind : Nat) (body : List Byte) (s : Dev) : (hostPost r kind body s).regs = s.regs := rfl
@[simp] theorem hostPost_time (r kind : Nat) (body : List Byte) (s : Dev) : (hostPost r kind body s).time = s.time := rfl
@[simp] theorem hostPost_ptp (r kind : Nat) (body : List Byte) (s : Dev) : (hostPost r kind body s).ptp = s.ptp := rfl
@[simp] theorem hostPost_tide (r kind : Nat) (body : List Byte) (s : Dev) : (hostPost r kind body s).tide = s.tide := rfl
@[simp] theorem hostPost_held (r kind : Nat) (body : List Byte) (s : Dev) : (hostPost r kind body s).held = s.held := rfl
@[simp] theorem hostPost_bus (r kind : Nat) (body : List Byte) (s : Dev) : (hostPost r kind body s).bus = s.bus := rfl
@[simp] theorem hostPost_pins (r kind : Nat) (body : List Byte) (s : Dev) : (hostPost r kind body s).pins = s.pins := rfl
@[simp] theorem hostPost_dram (r kind : Nat) (body : List Byte) (s : Dev) : (hostPost r kind body s).dram = s.dram := rfl
@[simp] theorem hostPost_cm (r kind : Nat) (body : List Byte) (s : Dev) : (hostPost r kind body s).cm = s.cm := rfl
@[simp] theorem hostPost_scr (r kind : Nat) (body : List Byte) (s : Dev) : (hostPost r kind body s).scr = s.scr := rfl
@[simp] theorem hostPost_flash (r kind : Nat) (body : List Byte) (s : Dev) : (hostPost r kind body s).flash = s.flash := rfl
@[simp] theorem hostPost_mdo (r kind : Nat) (body : List Byte) (s : Dev) : (hostPost r kind body s).mdo = s.mdo := rfl
@[simp] theorem hostPost_err (r kind : Nat) (body : List Byte) (s : Dev) : (hostPost r kind body s).err = s.err := rfl
@[simp] theorem hostPost_cores (r kind : Nat) (body : List Byte) (s : Dev) : (hostPost r kind body s).cores = s.cores := rfl
@[simp] theorem hostPost_clk (r kind : Nat) (body : List Byte) (s : Dev) : (hostPost r kind body s).clk = s.clk := rfl
@[simp] theorem hostPost_kv (r kind : Nat) (body : List Byte) (s : Dev) : (hostPost r kind body s).kv = s.kv := rfl
@[simp] theorem hostPost_coves (r kind : Nat) (body : List Byte) (s : Dev) : (hostPost r kind body s).coves = s.coves := rfl
@[simp] theorem hostPost_trk (r kind : Nat) (body : List Byte) (s : Dev) : (hostPost r kind body s).trk = s.trk := rfl
@[simp] theorem hostPost_cdc (r kind : Nat) (body : List Byte) (s : Dev) : (hostPost r kind body s).cdc = s.cdc := rfl
@[simp] theorem hostPost_cctx (r kind : Nat) (body : List Byte) (s : Dev) : (hostPost r kind body s).cctx = s.cctx := rfl
@[simp] theorem hostPost_ing (r kind : Nat) (body : List Byte) (s : Dev) : (hostPost r kind body s).ing = s.ing := rfl
@[simp] theorem hostPost_pix (r kind : Nat) (body : List Byte) (s : Dev) : (hostPost r kind body s).pix = s.pix := rfl
@[simp] theorem hostPost_dmc (r kind : Nat) (body : List Byte) (s : Dev) : (hostPost r kind body s).dmc = s.dmc := rfl
@[simp] theorem hostPost_pwr (r kind : Nat) (body : List Byte) (s : Dev) : (hostPost r kind body s).pwr = s.pwr := rfl
@[simp] theorem hostPost_bt (r kind : Nat) (body : List Byte) (s : Dev) : (hostPost r kind body s).bt = s.bt := rfl
@[simp] theorem hostPost_jtag (r kind : Nat) (body : List Byte) (s : Dev) : (hostPost r kind body s).jtag = s.jtag := rfl
@[simp] theorem hostPost_out (r kind : Nat) (body : List Byte) (s : Dev) : (hostPost r kind body s).out = s.out := rfl
@[simp] theorem hostPost_fresh (r kind : Nat) (body : List Byte) (s : Dev) : (hostPost r kind body s).fresh = s.fresh := rfl

end Sys2Proof.Machine
end

