-- ==== Sys2Proof/Laws/Settle.lean ====
section
/-! SUPPORT. What can follow a command: which fields records and posts change on their way out. -/
set_option autoImplicit false
namespace Sys2Proof.Machine
open Sys2Proof

theorem SameRest.refl (a : Dev) : SameRest a a := rfl
theorem SameRest.trans {a b c : Dev} (h : SameRest a b) (k : SameRest b c) : SameRest a c := by
  unfold SameRest at *
  rw [h] at k
  rw [k]

theorem sameRest_wrN (a n : Nat) (s : Dev) : SameRest s (wrN a n s) := rfl
theorem sameRest_setB (a i : Nat) (v : Bool) (s : Dev) : SameRest s (setB a i v s) := sameRest_wrN a _ s
theorem sameRest_bump (a k : Nat) (s : Dev) : SameRest s (bump a k s) := sameRest_wrN a _ s
theorem sameRest_wr64 (a n : Nat) (s : Dev) : SameRest s (wr64 a n s) := (sameRest_wrN a _ s).trans (sameRest_wrN _ _ _)
theorem sameRest_send (m : OutMsg) (s : Dev) : SameRest s (send m s) := by unfold send; split <;> rfl
theorem sameRest_raiseFor (code unit info subject : Nat) (s : Dev) : SameRest s (raiseFor code unit info subject s) := by
  unfold raiseFor
  cases eventReg code unit <;> rfl
theorem sameRest_pci (q : Pci) (s : Dev) : SameRest s { s with pci := q } := rfl
theorem sameRest_mdo (q : Mdo) (s : Dev) : SameRest s { s with mdo := q } := rfl
theorem sameRest_raise (code unit info : Nat) (s : Dev) : SameRest s (raise code unit info s) := sameRest_raiseFor _ _ _ _ s
theorem sameRest_setChan (ch : Nat) (c : Chan) (s : Dev) : SameRest s (setChan ch c s) := rfl

/-- A relation that each element keeps, the whole pass keeps. -/
theorem forS_rel {α : Type} (R : Dev → Dev → Prop) (hr : ∀ a, R a a) (ht : ∀ a b c, R a b → R b c → R a c) (l : List α) (f : α → Dev → Dev)
    (h : ∀ x ∈ l, ∀ d, R d (f x d)) (s : Dev) : R s (forS l f s) := by
  unfold forS
  induction l generalizing s with
  | nil => exact hr s
  | cons x l ih => exact ht _ _ _ (h x (by simp) s) (ih (fun y hy => h y (by simp [hy])) (f x s))

/-- A fact that each element keeps, the whole pass keeps. -/
theorem forS_inv {α : Type} (P : Dev → Prop) (l : List α) (f : α → Dev → Dev) (h : ∀ x ∈ l, ∀ d, P d → P (f x d)) (s : Dev) (hs : P s) :
    P (forS l f s) := by
  unfold forS
  induction l generalizing s with
  | nil => exact hs
  | cons x l ih => exact ih (fun y hy => h y (by simp [hy])) (f x s) (h x (by simp) s hs)

theorem sameRest_chanStatus (ch : Nat) (s : Dev) : SameRest s (chanStatus ch s) := (sameRest_setB _ _ _ s).trans (sameRest_setB _ _ _ _)
theorem sameRest_leaveL1 (s : Dev) : SameRest s (leaveL1 s) := SameRest.trans (sameRest_pci _ s) (sameRest_setB _ _ _ _)
theorem sameRest_msixSend (v : Nat) (s : Dev) : SameRest s (msixSend v s) := by
  unfold msixSend
  split
  · rfl
  · split
    · rfl
    · exact (sameRest_leaveL1 s).trans (sameRest_send _ _)
theorem sameRest_ringSignal (r : Nat) (s : Dev) : SameRest s (ringSignal r s) := by
  unfold ringSignal
  dsimp only
  split
  · rfl
  · split
    · rfl
    · exact SameRest.trans (sameRest_pci _ s) (sameRest_msixSend _ _)
theorem sameRest_ringShadow (r i : Nat) (s : Dev) : SameRest s (ringShadow r i s) := by
  unfold ringShadow
  split
  · rfl
  · exact sameRest_send _ _
theorem sameRest_ringPut (r kind tag w : Nat) (body : List Byte) (s : Dev) : SameRest s (ringPut r kind tag w body s) :=
  (sameRest_leaveL1 s).trans ((sameRest_send _ _).trans ((sameRest_wrN _ _ _).trans ((sameRest_ringShadow _ _ _).trans
    ((sameRest_setB _ _ _ _).trans (sameRest_ringSignal _ _)))))
theorem sameRest_flushPosts (l : List Post) (s : Dev) : SameRest s (flushPosts l s) := by
  induction l generalizing s with
  | nil => rfl
  | cons p l ih =>
    unfold flushPosts
    split
    · refine SameRest.trans ?_ (ih _)
      refine SameRest.trans ?_ (sameRest_ringPut _ _ _ _ _ _)
      exact sameRest_pci _ s
    · exact ih s
theorem sameRest_sendDatagram (ch : Nat) (s : Dev) : SameRest s (sendDatagram ch s) := by
  unfold sendDatagram
  dsimp only
  split
  · rfl
  · refine SameRest.trans ?_ (sameRest_chanStatus _ _)
    refine SameRest.trans ?_ (sameRest_setChan _ _ _)
    refine SameRest.trans ?_ (sameRest_bump _ _ _)
    refine SameRest.trans ?_ (sameRest_bump _ _ _)
    exact sameRest_send _ _
theorem sameRest_closeDatagrams (ch : Nat) (all : Bool) (n : Nat) (s : Dev) : SameRest s (closeDatagrams ch all n s) := by
  induction n generalizing s with
  | zero => rfl
  | succ n ih =>
    unfold closeDatagrams
    dsimp only
    split
    · rfl
    · split
      · rfl
      · exact (sameRest_sendDatagram ch s).trans (ih _)
theorem sameRest_drainRing (ch n : Nat) (s : Dev) : SameRest s (drainRing ch n s) := by
  induction n generalizing s with
  | zero => rfl
  | succ n ih =>
    unfold drainRing
    split
    · rfl
    · split
      · exact (sameRest_ringPut _ _ _ _ _ s).trans ((sameRest_bump _ _ _).trans ((sameRest_setChan _ _ _).trans ((sameRest_chanStatus _ _).trans (ih _))))
      · rfl
theorem sameRest_pump (ch : Nat) (s : Dev) : SameRest s (pump ch s) := by
  unfold pump
  split
  · exact sameRest_closeDatagrams _ _ _ _
  · exact sameRest_drainRing _ _ _
theorem sameRest_chanPush (ch : Nat) (r : LmpRec) (s : Dev) : SameRest s (chanPush ch r s) :=
  (sameRest_setChan _ _ s).trans ((sameRest_wr64 _ _ _).trans (sameRest_chanStatus _ _))
theorem sameRest_endLostRun (ch : Nat) (s : Dev) : SameRest s (endLostRun ch s) := by
  unfold endLostRun
  split
  · rfl
  · split
    · exact (sameRest_setChan _ _ s).trans (sameRest_chanPush _ _ _)
    · rfl
theorem sameRest_chanLose (ch : Nat) (s : Dev) : SameRest s (chanLose ch s) := by
  unfold chanLose
  dsimp only
  split
  · refine SameRest.trans ?_ (sameRest_raise _ _ _ _)
    refine SameRest.trans ?_ (sameRest_chanStatus _ _)
    exact (sameRest_bump _ _ s).trans (sameRest_setChan _ _ _)
  · exact (sameRest_bump _ _ s).trans (sameRest_setChan _ _ _)
theorem sameRest_chanEnter (r : LmpRec) (ch : Nat) (s : Dev) : SameRest s (chanEnter r ch s) := by
  unfold chanEnter
  dsimp only
  split
  · exact (sameRest_endLostRun ch s).trans ((sameRest_chanPush _ _ _).trans (sameRest_pump _ _))
  · exact (sameRest_endLostRun ch s).trans (sameRest_chanLose _ _)
theorem sameRest_enterChans (r : LmpRec) (s : Dev) : SameRest s (enterChans r s) := by
  refine forS_rel SameRest SameRest.refl (fun _ _ _ => SameRest.trans) _ _ (fun x _ d => ?_) s
  split
  · exact sameRest_chanEnter _ _ _
  · rfl
theorem sameRest_releaseRecs (l : List LmpRec) (shut : List Nat) (s : Dev) : SameRest s (releaseRecs l shut s) := by
  induction l generalizing shut s with
  | nil => rfl
  | cons r l ih =>
    unfold releaseRecs
    split
    · exact ih _ _
    · refine SameRest.trans ?_ (ih _ _)
      refine SameRest.trans ?_ (sameRest_enterChans _ _)
      exact sameRest_mdo _ s
theorem sameRest_emitRec (r : LmpRec) (s : Dev) : SameRest s (emitRec r s) := by
  unfold emitRec
  split
  · exact SameRest.trans (sameRest_mdo _ s) (sameRest_releaseRecs _ _ _)
  · exact sameRest_enterChans _ _
/-- What can leave the device leaves every field alone but registers, metadata output, collector, endpoint and the record of what left. -/
theorem sameRest_settle (s : Dev) : SameRest s (settle s) :=
  (sameRest_releaseRecs _ _ s).trans ((sameRest_flushPosts _ _).trans
    (forS_rel SameRest SameRest.refl (fun _ _ _ => SameRest.trans) _ _ (fun _ _ d => sameRest_pump _ d) _))

/-! ## Completion -/

/-- A command whose meaning is `f` on the device completes with what `f` makes of it. -/
theorem Does.of_onDev {c : Instr} {f : Dev → Dev} {s : State} {P : Dev → Prop} (h : Awake s) (hc : exec c s = onDev f s) (hp : P (f s.dev)) : Does c s P := by
  refine ⟨f s.dev, ?_, hp⟩
  have h' : inReset s.dev = false := h
  rw [hc, onDev, act, h']
  rfl

end Sys2Proof.Machine
end

