-- ==== Sys2Proof/Laws/Rings.lean ====
section
/-! SUPPORT. The rings: what an entry put into one ring leaves alone, and that nothing on the way out unblocks a ring. -/
set_option autoImplicit false
namespace Sys2Proof.Machine
open Sys2Proof

/-- Nothing that a ring's readiness rests on has changed but what belongs to ring `r0`. -/
def RingKeep (r0 : Nat) (a b : Dev) : Prop :=
  b.pci.waiting = a.pci.waiting ∧ b.pci.cfg = a.pci.cfg ∧ tst b Reg.PCI_STATUS 0 = tst a Reg.PCI_STATUS 0 ∧
  tst b Reg.PCI_STATUS 10 = tst a Reg.PCI_STATUS 10 ∧
  ∀ r, r < 12 → r ≠ r0 → ringState b r = ringState a r ∧ ringFull b r = ringFull a r
theorem RingKeep.refl (r0 : Nat) (a : Dev) : RingKeep r0 a a := ⟨rfl, rfl, rfl, rfl, fun _ _ _ => ⟨rfl, rfl⟩⟩
theorem RingKeep.trans {r0 : Nat} {a b c : Dev} (h : RingKeep r0 a b) (k : RingKeep r0 b c) : RingKeep r0 a c :=
  ⟨k.1.trans h.1, k.2.1.trans h.2.1, k.2.2.1.trans h.2.2.1, k.2.2.2.1.trans h.2.2.2.1, fun r hr hn =>
    ⟨(k.2.2.2.2 r hr hn).1.trans (h.2.2.2.2 r hr hn).1, (k.2.2.2.2 r hr hn).2.trans (h.2.2.2.2 r hr hn).2⟩⟩
theorem RingKeep.canTake {r0 : Nat} {a b : Dev} (h : RingKeep r0 a b) {r : Nat} (hn : r ≠ r0) : ringCanTake b r = ringCanTake a r := by
  obtain ⟨-, hc, h0, h10, hr⟩ := h
  unfold ringCanTake
  by_cases h12 : r < 12
  · rw [(hr r h12 hn).1, (hr r h12 hn).2]
    have : canIssue b = canIssue a := by unfold canIssue busMaster inD3 cfgDw; rw [hc, h0, h10]
    rw [this]
  · simp [h12]
/-- A change of no register from 0x13000 to 0x132FF, and not of the endpoint. -/
theorem ringKeep_regs {a b : Dev} (r0 : Nat) (hp : b.pci = a.pci) (h : ∀ x, 0x13000 ≤ x → x < 0x13300 → rdN b x = rdN a x) : RingKeep r0 a b := by
  refine ⟨by rw [hp], by rw [hp], ?_, ?_, fun r hr _ => ?_⟩
  · unfold tst; rw [h _ (by decide) (by decide)]
  · unfold tst; rw [h _ (by decide) (by decide)]
  · unfold ringState ringFull ringUsed ringEntries rf
    rw [h _ (by unfold Reg.PCI_RING_STATE; omega) (by unfold Reg.PCI_RING_STATE; omega), h _ (by unfold Reg.PCI_RING_PI; omega) (by unfold Reg.PCI_RING_PI; omega),
      h _ (by unfold Reg.PCI_RING_CI; omega) (by unfold Reg.PCI_RING_CI; omega), h _ (by unfold Reg.PCI_RING_CFG; omega) (by unfold Reg.PCI_RING_CFG; omega)]
    exact ⟨rfl, rfl⟩
theorem ringKeep_wrN (r0 a n : Nat) (s : Dev) (h : a < 0x13000 ∨ 0x13300 ≤ a) : RingKeep r0 s (wrN a n s) :=
  ringKeep_regs r0 rfl fun x h1 h2 => rdN_wrN_other n s (by omega)
theorem ringKeep_same {a b : Dev} (r0 : Nat) (hr : b.regs = a.regs) (hp : b.pci = a.pci) : RingKeep r0 a b :=
  ringKeep_regs r0 hp fun x _ _ => by unfold rdN; rw [hr]
theorem ringKeep_pci (r0 : Nat) (q : Pci) (s : Dev) (h : q.waiting = s.pci.waiting) (hc : q.cfg = s.pci.cfg) : RingKeep r0 s { s with pci := q } :=
  ⟨h, hc, rfl, rfl, fun _ _ _ => ⟨rfl, rfl⟩⟩
theorem ringKeep_send (r0 : Nat) (m : OutMsg) (s : Dev) : RingKeep r0 s (send m s) := by
  unfold send; split
  · exact RingKeep.refl _ _
  · exact ringKeep_same _ rfl rfl
theorem ringKeep_leaveL1 (r0 : Nat) (s : Dev) : RingKeep r0 s (leaveL1 s) := by
  refine ⟨rfl, rfl, tst_setB_bit _ _ _ _ _ (by decide) (by decide), tst_setB_bit _ _ _ _ _ (by decide) (by decide), fun r hr _ => ?_⟩
  unfold leaveL1 ringState ringFull ringUsed ringEntries rf
  rw [rdN_setB_other _ _ _ (by unfold Reg.PCI_RING_STATE Reg.PCI_STATUS; omega), rdN_setB_other _ _ _ (by unfold Reg.PCI_RING_PI Reg.PCI_STATUS; omega),
    rdN_setB_other _ _ _ (by unfold Reg.PCI_RING_CI Reg.PCI_STATUS; omega), rdN_setB_other _ _ _ (by unfold Reg.PCI_RING_CFG Reg.PCI_STATUS; omega)]
  exact ⟨rfl, rfl⟩
theorem ringKeep_msixSend (r0 v : Nat) (s : Dev) : RingKeep r0 s (msixSend v s) := by
  unfold msixSend
  split
  · exact RingKeep.refl _ _
  · split
    · exact ringKeep_pci _ _ _ rfl rfl
    · exact (ringKeep_leaveL1 _ _).trans (ringKeep_send _ _ _)
theorem ringKeep_ringSignal (r0 r : Nat) (s : Dev) : RingKeep r0 s (ringSignal r s) := by
  unfold ringSignal
  dsimp only
  split
  · exact RingKeep.refl _ _
  · split
    · exact ringKeep_pci _ _ _ rfl rfl
    · exact RingKeep.trans (ringKeep_pci _ _ s rfl rfl) (ringKeep_msixSend _ _ _)
theorem ringKeep_ringShadow (r0 r i : Nat) (s : Dev) : RingKeep r0 s (ringShadow r i s) := by
  unfold ringShadow
  split
  · exact RingKeep.refl _ _
  · exact ringKeep_send _ _ _
/-- A change of one register of ring `r` only. -/
theorem ringKeep_own (r a n : Nat) (s : Dev) (h12 : r < 12) (h : a = Reg.PCI_RING_PI r ∨ a = Reg.PCI_RING_STATE r) : RingKeep r s (wrN a n s) := by
  have key : ∀ x, x < 0x13100 + 32 * r ∨ 0x13120 + 32 * r ≤ x → rdN (wrN a n s) x = rdN s x := fun x hx =>
    rdN_wrN_other n s (by rcases h with rfl | rfl <;> simp only [Reg.PCI_RING_PI, Reg.PCI_RING_STATE] <;> omega)
  refine ⟨rfl, rfl, ?_, ?_, fun q hq hn => ?_⟩
  · unfold tst; rw [key _ (.inl (by unfold Reg.PCI_STATUS; omega))]
  · unfold tst; rw [key _ (.inl (by unfold Reg.PCI_STATUS; omega))]
  · unfold ringState ringFull ringUsed ringEntries rf
    rw [key _ (by unfold Reg.PCI_RING_STATE; omega), key _ (by unfold Reg.PCI_RING_PI; omega), key _ (by unfold Reg.PCI_RING_CI; omega), key _ (by unfold Reg.PCI_RING_CFG; omega)]
    exact ⟨rfl, rfl⟩
/-- An entry put into ring `r` changes nothing that another ring's readiness rests on. -/
theorem ringKeep_ringPut (r kind tag w : Nat) (body : List Byte) (s : Dev) (h12 : r < 12) : RingKeep r s (ringPut r kind tag w body s) := by
  unfold ringPut
  refine RingKeep.trans ?_ (ringKeep_ringSignal _ _ _)
  refine RingKeep.trans ?_ (ringKeep_own r _ _ _ h12 (.inr rfl))
  refine RingKeep.trans ?_ (ringKeep_ringShadow _ _ _ _)
  refine RingKeep.trans ?_ (ringKeep_own r _ _ _ h12 (.inl rfl))
  exact (ringKeep_leaveL1 _ _).trans (ringKeep_send _ _ _)

/-- The same posts wait, and a ring that could take nothing still can take nothing. -/
def Blocks (a b : Dev) : Prop := b.pci.waiting = a.pci.waiting ∧ ∀ r, ringCanTake a r = false → ringCanTake b r = false
theorem Blocks.refl (a : Dev) : Blocks a a := ⟨rfl, fun _ h => h⟩
theorem Blocks.trans {a b c : Dev} (h : Blocks a b) (k : Blocks b c) : Blocks a c := ⟨k.1.trans h.1, fun r hr => k.2 r (h.2 r hr)⟩
theorem RingKeep.blocks12 {a b : Dev} (h : RingKeep 12 a b) : Blocks a b := by
  refine ⟨h.1, fun r hr => ?_⟩
  by_cases hn : r = 12
  · subst hn; rfl
  · rw [h.canTake hn, hr]
theorem blocks_ringPut (r kind tag w : Nat) (body : List Byte) (s : Dev) (h : ringCanTake s r = true) : Blocks s (ringPut r kind tag w body s) := by
  have h12 : r < 12 := by unfold ringCanTake at h; simp at h; exact h.1.1.1
  have k := ringKeep_ringPut r kind tag w body s h12
  refine ⟨k.1, fun q hq => ?_⟩
  rw [k.canTake (by rintro rfl; rw [h] at hq; cases hq), hq]
theorem blocks_wrN (a n : Nat) (s : Dev) (h : a < 0x13000 ∨ 0x13300 ≤ a) : Blocks s (wrN a n s) := (ringKeep_wrN 12 a n s h).blocks12
theorem blocks_bump (a n : Nat) (s : Dev) (h : a < 0x13000 ∨ 0x13300 ≤ a) : Blocks s (bump a n s) := blocks_wrN _ _ _ h
theorem blocks_setB (a i : Nat) (v : Bool) (s : Dev) (h : a < 0x13000 ∨ 0x13300 ≤ a) : Blocks s (setB a i v s) := blocks_wrN _ _ _ h
theorem blocks_same {a b : Dev} (hr : b.regs = a.regs) (hp : b.pci = a.pci) : Blocks a b := (ringKeep_same 12 hr hp).blocks12
theorem blocks_setChan (ch : Nat) (c : Chan) (s : Dev) : Blocks s (setChan ch c s) := blocks_same rfl rfl
theorem blocks_chanStatus (ch : Nat) (s : Dev) : Blocks s (chanStatus ch s) :=
  (blocks_setB _ _ _ s (by decide)).trans (blocks_setB _ _ _ _ (by decide))
theorem blocks_sendDatagram (ch : Nat) (h : ch < 12) (s : Dev) : Blocks s (sendDatagram ch s) := by
  unfold sendDatagram
  dsimp only
  split
  · exact Blocks.refl _
  · refine Blocks.trans ?_ (blocks_chanStatus _ _)
    refine Blocks.trans ?_ (blocks_setChan _ _ _)
    refine Blocks.trans ?_ (blocks_bump _ _ _ (by unfold Reg.MDO_CH_REC_CNT; omega))
    refine Blocks.trans ?_ (blocks_bump _ _ _ (by have : rf s (Reg.MDO_DEST_CFG ch) 1 2 < 4 := bits_lt _ _ _; unfold Reg.ING_PORT_TX_CNT; omega))
    exact (ringKeep_send 12 _ _).blocks12
theorem blocks_closeDatagrams (ch : Nat) (h : ch < 12) (all : Bool) (n : Nat) (s : Dev) : Blocks s (closeDatagrams ch all n s) := by
  induction n generalizing s with
  | zero => exact Blocks.refl _
  | succ n ih =>
    unfold closeDatagrams
    dsimp only
    split
    · exact Blocks.refl _
    · split
      · exact Blocks.refl _
      · exact (blocks_sendDatagram ch h s).trans (ih _)
theorem blocks_drainRing (ch : Nat) (h : ch < 12) (n : Nat) (s : Dev) : Blocks s (drainRing ch n s) := by
  induction n generalizing s with
  | zero => exact Blocks.refl _
  | succ n ih =>
    unfold drainRing
    split
    · exact Blocks.refl _
    · split
      · next hc =>
        refine Blocks.trans ?_ (ih _)
        refine Blocks.trans ?_ (blocks_chanStatus _ _)
        refine Blocks.trans ?_ (blocks_setChan _ _ _)
        refine Blocks.trans ?_ (blocks_bump _ _ _ (by unfold Reg.MDO_CH_REC_CNT; omega))
        exact blocks_ringPut _ _ _ _ _ _ (by simp at hc; exact hc.2)
      · exact Blocks.refl _
theorem blocks_pump (ch : Nat) (h : ch < 12) (s : Dev) : Blocks s (pump ch s) := by
  unfold pump
  split
  · exact blocks_closeDatagrams _ h _ _ _
  · exact blocks_drainRing _ h _ _


/-- A state in which every waiting post is blocked stays so. -/
theorem postsBlocked_of {a b : Dev} (h : Blocks a b) (ha : PostsBlocked a) : PostsBlocked b := fun p hp => h.2 _ (ha p (h.1 ▸ hp))
theorem blocks_raise (code unit info : Nat) (s : Dev) (h : ∀ a, eventReg code unit = some a → a < 0x13000 ∨ 0x13300 ≤ a) : Blocks s (raise code unit info s) := by
  unfold raise raiseFor
  dsimp only
  split
  · next a e => exact (blocks_setB a _ _ s (h a e)).trans (blocks_same rfl rfl)
  · exact blocks_same rfl rfl
theorem blocks_mdo (q : Mdo) (s : Dev) : Blocks s { s with mdo := q } := blocks_same rfl rfl
theorem blocks_chanPush (ch : Nat) (hc : ch < 12) (r : LmpRec) (s : Dev) : Blocks s (chanPush ch r s) :=
  (blocks_setChan _ _ s).trans ((Blocks.trans (blocks_wrN _ _ _ (by unfold Reg.MDO_CH_SEQ_LO; omega)) (blocks_wrN _ _ _ (by unfold Reg.MDO_CH_SEQ_LO; omega))).trans (blocks_chanStatus _ _))
theorem blocks_endLostRun (ch : Nat) (hc : ch < 12) (s : Dev) : Blocks s (endLostRun ch s) := by
  unfold endLostRun
  split
  · exact Blocks.refl _
  · split
    · exact (blocks_setChan _ _ s).trans (blocks_chanPush _ hc _ _)
    · exact Blocks.refl _
theorem blocks_chanLose (ch : Nat) (hc : ch < 12) (s : Dev) : Blocks s (chanLose ch s) := by
  unfold chanLose
  dsimp only
  split
  · refine Blocks.trans ?_ (blocks_raise _ _ _ _ (by intro a e; cases e; decide))
    refine Blocks.trans ?_ (blocks_chanStatus _ _)
    exact (blocks_bump _ _ s (by unfold Reg.MDO_CH_LOST_CNT; omega)).trans (blocks_setChan _ _ _)
  · exact (blocks_bump _ _ s (by unfold Reg.MDO_CH_LOST_CNT; omega)).trans (blocks_setChan _ _ _)
theorem blocks_chanEnter (r : LmpRec) (ch : Nat) (hc : ch < 12) (s : Dev) : Blocks s (chanEnter r ch s) := by
  unfold chanEnter
  dsimp only
  split
  · exact (blocks_endLostRun ch hc s).trans ((blocks_chanPush _ hc _ _).trans (blocks_pump _ hc _))
  · exact (blocks_endLostRun ch hc s).trans (blocks_chanLose _ hc _)
theorem blocks_enterChans (r : LmpRec) (s : Dev) : Blocks s (enterChans r s) := by
  refine forS_rel Blocks Blocks.refl (fun _ _ _ => Blocks.trans) _ _ (fun x hx d => ?_) s
  split
  · exact blocks_chanEnter _ _ (List.mem_range.mp hx) _
  · exact Blocks.refl _
theorem blocks_releaseRecs (l : List LmpRec) (shut : List Nat) (s : Dev) : Blocks s (releaseRecs l shut s) := by
  induction l generalizing shut s with
  | nil => exact Blocks.refl _
  | cons r l ih =>
    unfold releaseRecs
    split
    · exact ih _ _
    · refine Blocks.trans ?_ (ih _ _)
      refine Blocks.trans ?_ (blocks_enterChans _ _)
      exact blocks_mdo _ s

end Sys2Proof.Machine
end

