-- ==== Sys2Proof/Machine/Balls.lean ====
section
/-! DEFINITION. What each ball of the package carries (R451 to R453). -/
set_option autoImplicit false
namespace Sys2Proof.Machine
open Sys2Proof

/-- The signals of Table 20-2; `neg` is the negative ball of a pair. -/
inductive Signal where
  | pcieTx (n : Nat) (neg : Bool)
  | pcieRx (n : Nat) (neg : Bool)
  | refclkPcie (neg : Bool)
  | ethTx (p : Nat) (neg : Bool)
  | ethRx (p : Nat) (neg : Bool)
  | refclkEth (die : Nat) (neg : Bool)
  | xspiClk
  | xspiDqs
  | xspiDq (i : Nat)
  | xspiCsN
  | xspiResetN
  | porstN
  | pciePerstN
  | bootMode (i : Nat)
  | refclkSys
  | syncIn
  | syncOut
  | ppsOut
  | thermtripN
  | tck
  | tms
  | tdi
  | tdo
  | trstN
  | gpio (i : Nat)
  deriving DecidableEq, Repr
/-- The rails of Table 20-4, and ground. -/
inductive Rail where
  | core | soc | aon | stk | vppStk | vddaSerdes | vddhSerdes | vddio | vss
  deriving DecidableEq, Repr
/-- What a ball carries. -/
inductive BallUse where
  | signal (x : Signal)
  | supply (r : Rail)
  deriving DecidableEq, Repr

/-- The Ethernet port whose positive ball lies in column `c` (Table 20-2). -/
def ethColumn (c : Nat) : Option Nat := [4, 8, 58, 62].findIdx? (· == c)
/-- The pair ball of a port in column `c`. -/
def ethBall (f : Nat → Bool → Signal) (c : Nat) : Option Signal := ((ethColumn c).map fun p => f p false).or ((ethColumn (c - 1)).map fun p => f p true)
/-- The signals of column 1 from row 20 on. -/
def columnOne : List Signal := [.xspiClk, .xspiDqs] ++ (List.range 8).map .xspiDq ++ [.xspiCsN, .xspiResetN]
/-- The signals of column 2 from row 20 on. -/
def columnTwo : List Signal :=
  [.porstN, .pciePerstN, .bootMode 0, .bootMode 1, .refclkSys, .syncIn, .syncOut, .ppsOut, .thermtripN, .tck, .tms, .tdi, .tdo, .trstN] ++ (List.range 8).map .gpio
/-- The signal at the ball of row `r` and column `c`, none where it is a supply ball (R451). -/
def signalAt (r c : Nat) : Option Signal :=
  if c = 1 ∧ 20 ≤ r ∧ r < 32 then columnOne[r - 20]?
  else if c = 2 ∧ 20 ≤ r ∧ r < 42 then columnTwo[r - 20]?
  else match r with
    | 66 => if 1 ≤ c ∧ c ≤ 32 then some (.pcieTx ((c - 1) / 2) (c % 2 == 0)) else none
    | 64 => if 1 ≤ c ∧ c ≤ 32 then some (.pcieRx ((c - 1) / 2) (c % 2 == 0)) else none
    | 62 => if c = 1 ∨ c = 2 then some (.refclkPcie (c == 2)) else none
    | 1 => if c = 12 ∨ c = 13 then some (.refclkEth 0 (c == 13)) else if c = 54 ∨ c = 55 then some (.refclkEth 1 (c == 55)) else ethBall .ethTx c
    | 3 => ethBall .ethRx c
    | _ => none
/-- The rail of a supply ball: the regions of Table 20-3, tested in its order (R452). -/
def railAt (r c : Nat) : Rail :=
  let even := (r + c) % 2 == 0
  if c = 1 ∧ 42 ≤ r ∧ r ≤ 45 then .aon
  else if c = 1 ∧ (r = 46 ∨ r = 47) then .vppStk
  else if (c = 1 ∨ c = 2) ∧ (r = 18 ∨ r = 19) then .vddio
  else if (r = 63 ∧ c % 2 = 1 ∧ c ≤ 31) ∨ (r = 2 ∧ (ethColumn c).isSome) then .vddaSerdes
  else if (r = 63 ∧ c % 2 = 0 ∧ 2 ≤ c ∧ c ≤ 16) ∨ (r = 2 ∧ (ethColumn (c - 1)).isSome) then .vddhSerdes
  else if 10 ≤ r ∧ r ≤ 57 ∧ 10 ≤ c ∧ c ≤ 57 then if even then .core else .vss
  else if ((5 ≤ r ∧ r ≤ 9) ∨ (58 ≤ r ∧ r ≤ 61)) ∧ 10 ≤ c ∧ c ≤ 57 then if even then .soc else .vss
  else if ((5 ≤ c ∧ c ≤ 9) ∨ (58 ≤ c ∧ c ≤ 61)) ∧ 5 ≤ r ∧ r ≤ 61 then if even then .stk else .vss
  else .vss
/-- What the ball of row `r` and column `c`, each 1 to 66, carries. -/
def ballAt (r c : Nat) : BallUse := match signalAt r c with
  | some x => .signal x
  | none => .supply (railAt r c)
/-- The ball signal of a pin that the model drives. -/
def OutPin.signal : OutPin → Signal
  | .syncOut => .syncOut
  | .ppsOut => .ppsOut
  | .thermtrip => .thermtripN
  | .xspiReset => .xspiResetN

end Sys2Proof.Machine
end

