-- ==== Sys2Proof/WellFormed.lean ====
section
/-! DEFINITION. Which commands an agent can form: operands within the ranges that the wires and messages can carry. A meaning does not
rest on these checks. -/
set_option autoImplicit false
namespace Sys2Proof
open Sys2Proof.Machine

/-- The header of a PTP message holds what its fields can carry (R37, R38). -/
def PtpHdr.wf (h : PtpHdr) : Bool :=
  decide (h.domain < 256) && decide (h.transport < 3) && decide (h.src < 2 ^ 64) && decide (h.srcPort < 2 ^ 16) &&
    decide (h.seq < 2 ^ 16)
/-- The header of an RTP packet holds what its fields can carry, and its payload fits a frame of Table 10-1 (R252, R255). -/
def RtpPkt.wf (p : RtpPkt) : Bool :=
  decide (p.ver < 4) && decide (p.pt < 128) && decide (p.seq < 2 ^ 16) && decide (p.ts < 2 ^ 32) && decide (p.ssrc < 2 ^ 32) &&
    decide (p.payload.length < 9022) && decide (p.src < 2 ^ 128)
/-- The header of an H2D entry holds what its fields can carry (R387). -/
def H2D.wf (h : H2D) : Bool := decide (h.kind < 2 ^ 8) && decide (h.len < 2 ^ 16) && decide (h.tag < 2 ^ 32)
/-- A request names a device address, a die and a class, and a write holds 256 bytes and names no more (R321, R322). -/
def DramReq.wf (q : DramReq) : Bool :=
  decide (q.addr < 2 ^ 40) && decide (q.die < 2) && (match q.wr with
    | some w => decide (w.1 < 2 ^ 256) && w.2.length == 256
    | none => true)
/-- An offset of a 4-byte register of BAR0 (R8, R440). -/
def regOffset (a : Nat) : Bool := decide (a < 2 * dieHalf) && a % 4 == 0

/-- A command that an agent can form (R8, R37, R255, R321, R387, R439, R448). -/
def Instr.wf : Instr → Bool
  | .registerWrite _ a _ _ | .reg64LoRead _ a | .reg64HiWrite _ a _ => regOffset a
  | .ptpAnnounce _ h _ | .ptpSync _ h _ _ | .ptpFollowUp _ h _ | .ptpDelayResp _ h _ _ | .ptpPdelayReq _ h => h.wf
  | .rtpMediaPacket _ p => p.wf
  | .pictureCommand h _ | .qpAnswer h _ | .sampleList h _ | .trackActions h _ | .ingressRecord h _ => h.wf
  | .dramRequest rs => rs.all fun r => r.2.wf
  | .regRead a | .regWrite a _ | .memRead a _ | .memWrite a _ | .cmRead a => decide (a < 2 ^ 40)
  | _ => true

end Sys2Proof
end

