-- ==== Sys2Proof/Tests/Slice0.lean ====
section
/-! SUPPORT. Small tests: each check of well-formedness refuses a term, and worked examples and tables of the spec, one step each. -/
set_option autoImplicit false
namespace Sys2Proof.Machine
open Sys2Proof

/-! ## Well-formedness -/

theorem test_wf_register : (Instr.registerWrite .host 0x13000 15 1).wf = true := by decide
theorem test_wf_register_align : (Instr.registerWrite .host 0x13002 15 1).wf = false := by decide
theorem test_wf_register_range : (Instr.registerWrite .host (2 * dieHalf) 15 1).wf = false := by decide
theorem test_wf_reg64_read : (Instr.reg64LoRead .ziltur 0x13001).wf = false := by decide
theorem test_wf_reg64_write : (Instr.reg64HiWrite .debug 0x13003 1).wf = false := by decide
theorem test_wf_ptp : (Instr.ptpFollowUp 0 ⟨255, 2, false, false, 1, 1, 65535, 0, 0⟩ 5).wf = true := by decide
theorem test_wf_ptp_domain : (Instr.ptpPdelayReq 0 ⟨256, 0, false, false, 1, 1, 0, 0, 0⟩).wf = false := by decide
theorem test_wf_ptp_transport : (Instr.ptpSync 0 ⟨0, 3, false, false, 1, 1, 0, 0, 0⟩ false 0).wf = false := by decide
theorem test_wf_ptp_source : (Instr.ptpDelayResp 0 ⟨0, 0, false, false, 2 ^ 64, 1, 0, 0, 0⟩ false 0).wf = false := by decide
theorem test_wf_ptp_port : (Instr.ptpPdelayReq 0 ⟨0, 0, false, false, 1, 65536, 0, 0, 0⟩).wf = false := by decide
theorem test_wf_ptp_seq : (Instr.ptpPdelayReq 0 ⟨0, 0, false, false, 1, 1, 65536, 0, 0⟩).wf = false := by decide
theorem test_wf_rtp : (Instr.rtpMediaPacket 0 ⟨2, 96, true, 65535, 1, 1, [0], 0⟩).wf = true := by decide
theorem test_wf_rtp_version : (Instr.rtpMediaPacket 0 ⟨4, 96, true, 0, 1, 1, [0], 0⟩).wf = false := by decide
theorem test_wf_rtp_type : (Instr.rtpMediaPacket 0 ⟨2, 128, true, 0, 1, 1, [0], 0⟩).wf = false := by decide
theorem test_wf_rtp_seq : (Instr.rtpMediaPacket 0 ⟨2, 96, true, 65536, 1, 1, [0], 0⟩).wf = false := by decide
theorem test_wf_rtp_time : (Instr.rtpMediaPacket 0 ⟨2, 96, true, 0, 2 ^ 32, 1, [0], 0⟩).wf = false := by decide
theorem test_wf_rtp_ssrc : (Instr.rtpMediaPacket 0 ⟨2, 96, true, 0, 1, 2 ^ 32, [0], 0⟩).wf = false := by decide
theorem test_wf_rtp_source : (Instr.rtpMediaPacket 0 ⟨2, 96, true, 0, 1, 1, [0], 2 ^ 128⟩).wf = false := by decide
theorem test_wf_rtp_payload : RtpPkt.wf ⟨2, 96, true, 0, 1, 1, List.replicate 9022 0, 0⟩ = false := by simp only [RtpPkt.wf, List.length_replicate]; decide
theorem test_wf_h2d : (Instr.qpAnswer ⟨1, 4, 7⟩ 20).wf = true := by decide
theorem test_wf_h2d_kind : (Instr.qpAnswer ⟨256, 4, 7⟩ 20).wf = false := by decide
theorem test_wf_h2d_length : (Instr.qpAnswer ⟨1, 65536, 7⟩ 20).wf = false := by decide
theorem test_wf_h2d_tag : (Instr.qpAnswer ⟨1, 4, 2 ^ 32⟩ 20).wf = false := by decide
theorem test_wf_dram : (Instr.dramRequest [(0, ⟨1, 256, 0, 3, false, none, none⟩)]).wf = true := by decide
theorem test_wf_dram_address : (Instr.dramRequest [(0, ⟨1, 2 ^ 40, 0, 3, false, none, none⟩)]).wf = false := by decide
theorem test_wf_dram_die : (Instr.dramRequest [(0, ⟨1, 0, 2, 3, false, none, none⟩)]).wf = false := by decide
theorem test_wf_dram_mask : (Instr.dramRequest [(0, ⟨1, 0, 0, 3, false, some (2 ^ 256, []), none⟩)]).wf = false := by decide
theorem test_wf_dram_data : (Instr.dramRequest [(0, ⟨1, 0, 0, 3, false, some (1, [0]), none⟩)]).wf = false := by decide
theorem test_wf_debug : (Instr.memWrite (2 ^ 40) 1).wf = false := by decide

/-! ## Arithmetic: the landing detector's pip (03, worked example) -/

/-- x, as FP32. -/
def pipX : List Nat := [0x3E99999A, 0xBF8CCCCD, 0x3F400000, 0x3FF33333, 0, 0xBF0CCCCD, 0x3D4CCCCD, 0x3FA00000] ++ List.replicate 24 0
/-- q_a and q_w. -/
def pipA : List Int := [1, -4, 3, 7, 0, -2, 0, 5] ++ List.replicate 24 0
def pipW : List Int := [3, -2, 5, -1, 7, 4, -8, 2] ++ List.replicate 24 0

theorem test_convert_bx4 : toBx 4 pipX = (⟨pipA, 125⟩, {}) := by decide
theorem test_pack_activation : (packPip 4 pipA).take 5 = [0xC1, 0x73, 0xE0, 0x50, 0x00] := by decide
theorem test_pack_weight : (packPip 4 pipW).take 4 = [0xE3, 0xF5, 0x47, 0x28] := by decide
theorem test_dpu_cycles : (List.range 4).map (dpuCycle 4 4 pipA pipW 0) = [9, 16, 12, -16] := by decide
theorem test_dpu_sum : dpuSum 4 4 pipA pipW = 21 := by decide
theorem test_dpu_scale : (dpuScale 21 125 121).v = 0x3DA80000 := by decide
theorem test_convert_bx8 : (toBx 8 pipX).1.e = 121 ∧ (toBx 8 pipX).1.q.getD 3 0 = 122 := by decide

/-! ## The package (20) -/

/-- How many balls a rail has. -/
def ballsOf (x : Rail) : Nat := sumN ((List.range 66).map fun r => ((List.range 66).filter fun c => ballAt (r + 1) (c + 1) == .supply x).length)
/-- Table 20-3, the central row: 1,152 balls of VDD_CORE. -/
theorem test_core_balls : ballsOf .core = 1152 := by decide +kernel
/-- Table 20-2: column 2 begins with PORST_N at row 20. -/
theorem test_porst_ball : ballAt 20 2 = .signal .porstN := by decide

/-! ## The device -/

theorem test_reset_memory : Memory.wf State.reset.dev = true := by decide
theorem test_step_idle_in_reset : step State.reset = .next State.reset := by rfl
/-- A device out of reset on which nothing is configured. -/
def awake : State := { dev := { pins := { porst := true } } }
/-- 2 ns a cycle (R33). -/
theorem test_step_tick : (match step awake with | .next s => s.dev.time.ns | _ => 0) = 2 := by decide
/-- Table 19-7: the identification register. -/
theorem test_idcode : (match step { awake with pending := [.idcode] } with | .next s => (s.dev.out, s.pending) | _ => ([], [])) = ([.jtag 0x19600E4B], []) := by decide
/-- Table 2-1: a pulse of SYNC_IN shorter than 20 ns has no effect (R46). -/
theorem test_short_pulse : (match step { awake with pending := [.syncInEdge 19] } with | .next s => decide (s.dev = awake.dev) | _ => false) = true := by decide +kernel
/-- Table 2-8: PPS_EN is bit 3 of TIDE_CTRL. -/
theorem test_pps_en : (match execRegisterWrite .ziltur Reg.TIDE_CTRL 15 8 { awake with dev := { awake.dev with regs := [(Reg.TIDE_CTRL, 0), (Reg.BOOT_STATUS, 10)] } } with
    | .next s => tst s.dev Reg.TIDE_CTRL 3 | _ => false) = true := by decide +kernel
/-- R445: MSI-X vectors start masked, and the function's table holds 64 of them. -/
theorem test_msix_masked : vecMasked awake.dev 63 = true := by decide

end Sys2Proof.Machine
end

