-- ==== Sys2Proof/Tests/Witness.lean ====
section
/-! SUPPORT. For every statement with hypotheses, and each of its clauses, a state and operands that meet them. -/
set_option autoImplicit false
set_option linter.unusedVariables false
set_option Elab.async false
namespace Sys2Proof.Machine
open Sys2Proof

/-- A device out of reset with the listed registers, changed by `f`. -/
def ws (l : List (Nat × Nat)) (f : Dev → Dev) : State :=
  { dev := f { regs := l.map fun p => (p.1, BitVec.ofNat 32 p.2), pins := { porst := true } } }
/-- Registers of a running ring `r` with one entry, on a link that is up. -/
def wring (r : Nat) : List (Nat × Nat) :=
  [(Reg.PCI_STATUS, 1), (Reg.PCI_RING_STATE r, 1), (Reg.PCI_RING_PI r, 1), (Reg.PCI_RING_CI r, 0), (Reg.PCI_RING_CFG r, 297), (Reg.PCI_RING_SHADOW_LO r, 0),
    (Reg.PCI_RING_SHADOW_HI r, 0)]
/-- Registers of a die 0 whose whole DRAM is one valid region, its table locked and every channel up. -/
def wreach : List (Nat × Nat) :=
  [(Reg.DMC_CTRL 0, 1), (Reg.DMC_RGN_BASE 0 0, 0), (Reg.DMC_RGN_CFG 0 0, 73728), (Reg.PWR_DOM_STATE 97, 0)] ++ (List.range 32).map fun c => (Reg.DMC_CH_STATUS 0 c, 1)
/-- A bus master. -/
def wpci : Pci := { cfg := [(4, 4)] }
/-- A task of cove 0. -/
def wtask : Task := { cove := 0, job := 0, stage := 0, idx := 0, grid := 0, shapes := [], slot0 := 0, slots := 1 }
/-- Core `k` at the first command of a package at DRAM address 0: descriptor words `ws`, further bytes of the package, of scratch. -/
def wnest (k : Nat) (ws : List (Nat × Nat)) (pkg scr : SMap Byte) (l : List (Nat × Nat)) : State :=
  { dev := { regs := (([(Reg.LPD_RANGE k 0, 64), (Reg.LPD_GRID k, 0), (Reg.LPD_STATUS k, 0), (Reg.PWR_DOM_STATE k, 0), (Reg.SCH_COVE_WP_LO 0, 0),
      (Reg.SCH_COVE_WP_HI 0, 0)] ++ l ++ (List.range 64).map fun i => (Reg.LPD_TABLE k 0 i, mget (fun _ => 0) ws i)).map fun (p : Nat × Nat) => (p.1, BitVec.ofNat 32 p.2)),
             dram := [(4, 1), (10, 1), (12, 1), (21, 4), (29, 8)] ++ pkg, scr := scr, cores := [(k, { task := some wtask })], pins := { porst := true } } }

/-- Registers of port 1, its settings `c`, its status `q`. -/
def wport (c q : Nat) : List (Nat × Nat) :=
  [(Reg.ING_PORT_CFG 1, c), (Reg.ING_PORT_STATUS 1, q), (Reg.PWR_STATUS, 0), (Reg.PWR_DOM_STATE 93, 0), (Reg.ING_PORT_TX_CNT 1, 3), (Reg.ING_CTRL, 1 + 256), (Reg.ING_FAULT_INFO, 0), (Reg.ING_PORT_FCS_CNT 1, 4), (Reg.ING_PORT_RX_CNT 1, 6), (Reg.ING_PORT_L3_DROP_CNT 1, 0), (Reg.ING_PORT_CSUM_CNT 1, 0), (Reg.ING_PORT_NOMATCH_CNT 1, 0), (Reg.ING_PORT_MAC_LO 1, 0x02030405), (Reg.ING_PORT_MAC_HI 1, 0x0001), (Reg.ING_PORT_IPV4 1, 0), (Reg.MDO_LMP_PORT, 6000)]
/-- Registers of stream 0, filed on port 1. -/
def wstream : List (Nat × Nat) :=
  [(Reg.ING_TABLE 0 0, 1 + 1 * 4 + 96 * 65536), (Reg.ING_TABLE 0 1, 5004 + 5005 * 65536), (Reg.ING_TABLE 0 2, 77), (Reg.ING_TABLE 0 3, 100 + 65536 * 0), (Reg.ING_TABLE 0 5, 0), (Reg.ING_TABLE 0 6, 16), (Reg.ING_TABLE 0 7, 256), (Reg.ING_S_STATE 0, 3), (Reg.ING_S_SSRC 0, 77), (Reg.ING_S_DROP_CNT 0, 0), (Reg.ING_S_RX_CNT 0, 5)]
/-- A received frame with the header of port 1, `l` after the addresses. -/
def wframe (l : List Byte) : List Byte := [0x00, 0x01, 0x02, 0x03, 0x04, 0x05, 1, 2, 3, 4, 5, 6] ++ l ++ List.replicate 60 0
/-- A frame, a sample of it, a picture of it, and a state with a vision cove 0 and pipe 0. -/
def wid : FrameId := ⟨0, 50, 64, 48, false, false⟩
def wsamp : Samp := { cls := 0, void := false, ax := ⟨0, 64, 32, 0, 0, 32, 0, 64⟩, ay := ⟨0, 48, 1, 0, 0, 1, 0, 48⟩, flip := false, gain := 64 }
def wpic : Pic := { key := 0, buf := 0, id := wid, corrupt := false, p10 := false, vui := 0, jpeg := false, host := false, coves := [0] }
def wpicT : Pic := { wpic with started := true, todo := [(0, wsamp)] }
def wpicC : Pic := { wpic with started := true, cur := some (0, wsamp, 0) }
def wpicH : Pic := { wpic with host := true, post := some (3, 10) }
def wpixR : List (Nat × Nat) :=
  [(Reg.SCH_COVE_STATE 0, 2), (Reg.SCH_COVE_CFG 0, 0), (Reg.PWR_DOM_STATE 88, 0), (Reg.PIX_CLASS_A 0 0, 65568), (Reg.PIX_CLASS_B 0 0, 127), (Reg.PIX_Q_SLOT_BYTES 0, 1),
    (Reg.PIX_Q_STAGE0 0, 16), (Reg.PIX_PROFILE 0 4, 1), (Reg.PIX_CROP_EMPTY_CNT 0, 0), (Reg.PIX_SAMPLE_CNT 0, 5), (Reg.PIX_HOST_LIM, 100), (Reg.PIX_EVENT 0, 0),
    (Reg.PIX_ECC_CNT 0, 0), (Reg.PIX_PIC_CNT 0, 0), (Reg.PIX_BUSY_CNT_LO 0, 0), (Reg.PIX_BUSY_CNT_LO 0 + 4, 0), (Reg.PIX_CLAMP_CNT 0, 0), (Reg.CDC_CTX_POOL_LO 0 0, 0), (Reg.CDC_CTX_POOL_LO 0 0 + 4, 0),
    (Reg.CDC_CTX_POOL_CFG 0 0, 1 + 6 * 64)]
def wpix (n : Nat) (p : List Pic) : State :=
  ws (wreach ++ wpixR ++ [(Reg.PIX_Q_STAGE_SLOTS 0, n)] ++ (List.range 7).map fun g => (Reg.PIX_PROFILE 0 (8 + 4 * g), 0)) fun d =>
    { d with pix := { pipes := [(0, p)] }, coves := [(0, { frames := [{ id := wid }] })] }
/-- A LOST track 1 of stream 1, in a camera group with the frame in association. -/
def whand : State := ws ([(Reg.TRK_TABLE_BASE_LO 0, 1048576), (Reg.TRK_TABLE_BASE_HI 0, 0), (Reg.TRK_CTRL 0, 1), (Reg.TRK_STATUS 0, 1), (Reg.TRK_STATUS 1, 0), (Reg.TRK_EVENT 0, 0), (Reg.TRK_FRAME_CNT 0, 4), (Reg.TRK_DET_CNT 0, 9), (Reg.TRK_LIMITS 0, 0x100), (Reg.TRK_NOISE 0, 0), (Reg.TRK_ECC_CNT 0, 0), (Reg.TRK_HANDOFF 0, 25600), (Reg.TRK_HANDOFF_CNT 0, 3), (Reg.ING_TABLE 0 3, 16777216), (Reg.ING_TABLE 1 3, 16777216)] ++ wreach) fun d => { d with trk := [(0, { cur := some ({ f := ({ id := wid, dets := [({ x0 := 0, y0 := 0, x1 := 0, y1 := 0, score := 0x3F800000, cls := 0, emb := [], exps := [] } : Det)], host := false } : TFrame), cands := [] } : Assoc) })], dram := [(1048576 + 256, 7)] }
theorem whand_addr (t : Nat) : trkAddr whand.dev t = if t / 16384 = 0 then 1048576 + 256 * (t % 16384) else trkAddr whand.dev t := by
  split
  · next h => unfold trkAddr; rw [h]; have : baseAddr whand.dev (Reg.TRK_TABLE_BASE_LO 0) = 1048576 := by decide +kernel
              rw [this]
  · rfl
theorem whand_byte (a : Nat) (h : a ≠ 1048832) : mrd .dram whand.dev a = 0 := by
  have : whand.dev.dram = [(1048832, 7)] := rfl
  unfold mrd
  simp only [this]
  split
  · simp [mget, zeroByte, Ne.symm h]
  · rfl
theorem whand_free (t : Nat) (h : t < 16384) (h1 : t ≠ 1) : trkState whand.dev t = 0 := by
  have hd : t / 16384 = 0 := by omega
  unfold trkState trkWord rdLE
  rw [whand_addr, if_pos hd]
  simp only [rdBytes]
  rw [whand_byte _ (by omega), whand_byte _ (by omega), whand_byte _ (by omega), whand_byte _ (by omega)]
  rfl
theorem w_filterMap_one {β : Type} (f : Nat → Option β) (n : Nat) (hn : 2 ≤ n) (h : ∀ t, t < n → t ≠ 1 → f t = none) : (List.range n).filterMap f = (f 1).toList := by
  induction n with
  | zero => omega
  | succ n ih =>
    rw [List.range_succ, List.filterMap_append]
    rcases Nat.lt_or_ge n 2 with h2 | h2
    · have : n = 1 := by omega
      subst this
      have h0 := h 0 (by omega) (by omega)
      cases hf : f 1 <;> simp [List.range_succ, h0, hf]
    · have hn' := h n (by omega) (by omega)
      rw [ih h2 fun t ht => h t (by omega)]
      simp [hn']
theorem w_map_off (n : Nat) : (List.range n).map (fun i => 16384 * 0 + i) = List.range n := by
  rw [show (fun i : Nat => 16384 * 0 + i) = id from funext fun i => Nat.zero_add i]; exact List.map_id _
theorem w_dieTracks_zero : ∃ N, 2 ≤ N ∧ N ≤ 16384 ∧ dieTracks 0 = List.range N := ⟨16384, by omega, by omega, w_map_off 16384⟩
theorem w_treeLevel_zero (t : Nat) (ls : List (Option Fr)) (h : ∀ x ∈ ls, x = none ∨ x = some ⟨0, {}⟩) : ∀ x ∈ treeLevel t ls, x = none ∨ x = some ⟨0, {}⟩ := by
  have ha : addFr ⟨0, {}⟩ ⟨0, {}⟩ = ⟨0, {}⟩ := by decide +kernel
  have hg : ∀ i, ls.getD i none = none ∨ ls.getD i none = some ⟨0, {}⟩ := by
    intro i
    rw [List.getD_eq_getElem?_getD]
    cases hi : ls[i]? with
    | none => exact .inl rfl
    | some y => exact h y (List.mem_of_getElem? hi)
  intro x hx
  unfold treeLevel at hx
  rw [List.mem_map] at hx
  obtain ⟨l, -, rfl⟩ := hx
  split
  · rcases hg l with h1 | h1 <;> rcases hg (l + 2 ^ (t - 1)) with h2 | h2 <;> rw [h1, h2] <;> simp [ha]
  · exact hg l
theorem w_sum32_zero (n : Nat) : sum32 (List.replicate n 0) = ⟨0, {}⟩ := by
  have ha : addFr ⟨0, {}⟩ ⟨0, {}⟩ = ⟨0, {}⟩ := by decide +kernel
  have he : ∀ (n k : Nat), ∀ p ∈ enum (List.replicate n 0) k, p.2 = 0 := by
    intro n
    induction n with
    | zero => intro k p hp; cases hp
    | succ n ih =>
      intro k p hp
      rw [List.replicate_succ, enum] at hp
      rcases List.mem_cons.mp hp with rfl | hp
      · rfl
      · exact ih _ p hp
  have hf : ∀ (l : List (Nat × Nat)) (a : Option Fr), (∀ p ∈ l, p.2 = 0) → (a = none ∨ a = some ⟨0, {}⟩) →
      (l.foldl (fun acc p => (match acc with | none => some ⟨p.2, {}⟩ | some a => some (addFr a ⟨p.2, {}⟩) : Option Fr)) a = none ∨
        l.foldl (fun acc p => (match acc with | none => some ⟨p.2, {}⟩ | some a => some (addFr a ⟨p.2, {}⟩) : Option Fr)) a = some ⟨0, {}⟩) := by
    intro l
    induction l with
    | nil => intro a _ h; exact h
    | cons p l ih =>
      intro a hp h
      rw [List.foldl_cons]
      apply ih _ fun q hq => hp q (List.mem_cons_of_mem _ hq)
      rw [hp p List.mem_cons_self]
      rcases h with rfl | rfl
      · exact .inr rfl
      · simp [ha]
  have hl : ∀ (ts : List Nat) (ls : List (Option Fr)), (∀ x ∈ ls, x = none ∨ x = some ⟨0, {}⟩) → ∀ x ∈ ts.foldl (fun ls t => treeLevel t ls) ls, x = none ∨ x = some ⟨0, {}⟩ := by
    intro ts
    induction ts with
    | nil => intro ls h; exact h
    | cons t ts ih => intro ls h; exact ih _ (w_treeLevel_zero t ls h)
  unfold sum32
  dsimp only
  split
  · next v hv =>
    rw [List.getD_eq_getElem?_getD] at hv
    cases hi : (List.foldl (fun ls t => treeLevel t ls) _ [1, 2, 3, 4, 5, 6])[0]? with
    | none => rw [hi] at hv; cases hv
    | some y =>
      rw [hi] at hv
      have := hl [1, 2, 3, 4, 5, 6] _ (by
        intro x hx
        rw [List.mem_map] at hx
        obtain ⟨i, -, rfl⟩ := hx
        exact hf _ none (fun p hp => he n 0 p ((List.mem_filter.mp hp).1)) (.inl rfl)) y (List.mem_of_getElem? hi)
      simp only [Option.getD_some] at hv
      rcases this with h | h
      · rw [h] at hv; cases hv
      · rw [h] at hv; cases hv; rfl
  · rfl
theorem w_cosine_zero (b : List Int × List Nat) : cosine ([], []) b = 0 := by
  have hv : (bxTo32 0 0).v = 0 := by decide +kernel
  have ht : tmul 0 0 = 0 := by decide +kernel
  have hs : bits (sum32 ((List.range 128).map fun _ => 0)).v 0 31 = 0 := by
    have : ((List.range 128).map fun _ => (0 : Nat)) = List.replicate 128 0 := by simp [List.map_const']
    rw [this, w_sum32_zero]; rfl
  simp only [cosine, List.getD_nil, hv, ht]
  rw [if_pos (Or.inl hs)]
theorem whand_cands : handoffCands whand.dev 0 0 50 0 (([] : List Int), ([] : List Nat)) = [1] := by
  have h0 : rf whand.dev (Reg.TRK_STATUS 0) 0 15 = 1 := by decide +kernel
  have h1 : rf whand.dev (Reg.TRK_STATUS 1) 0 15 = 0 := by decide +kernel
  obtain ⟨N, hN, hM, hd⟩ := w_dieTracks_zero
  have hd : ((List.range 2).flatMap fun x => if rf whand.dev (Reg.TRK_STATUS x) 0 15 = 0 then [] else dieTracks x) = List.range N := by
    have e : List.range 2 = [0, 1] := rfl
    simp [e, h0, h1, hd]
  unfold handoffCands
  simp only [hd]
  rw [w_filterMap_one _ N hN]
  · simp only [w_cosine_zero]
    decide +kernel
  · intro t ht h1
    have := whand_free t (by omega) h1
    simp [this]
/-- A device in stage DRAM whose image's DEVICE section names a region of die 0 and locks both tables. -/
def wpairs : List (Nat × Nat) := [(Reg.DMC_RGN_BASE 0 0, 0), (Reg.DMC_RGN_CFG 0 0, 65536 + 8192), (Reg.DMC_CTRL 0, 1), (Reg.DMC_CTRL 1, 1)]
def wdevS : State := ws [(Reg.BOOT_STATUS, 4), (Reg.BOOT_EVENT, 0), (Reg.BOOT_COUNT, 3), (Reg.BOOT_CMD_RESULT, 9), (Reg.BOOT_VERSION_LO, 0), (Reg.BOOT_VERSION_LO + 4, 0), (Reg.BOOT_OTHER_VER_LO, 0), (Reg.BOOT_OTHER_VER_LO + 4, 0), (Reg.BOOT_SECT_OK_LO, 0), (Reg.BOOT_SECT_OK_LO + 4, 0), (Reg.BOOT_SECT_PEND_LO, 0), (Reg.BOOT_SECT_PEND_LO + 4, 0), (Reg.SEC_STATUS, 0), (Reg.SEC_EVENT, 0), (Reg.PCI_STATUS, 2049), (Reg.TIDE_CTRL, 0), (Reg.TIDE_STATUS, 12), (Reg.DMC_STATUS 0, 0), (Reg.DMC_STATUS 1, 0), (Reg.PWR_DOM_STATE 98, 0), (Reg.DMC_CTRL 0, 0), (Reg.DMC_CTRL 1, 0)] fun d => { d with bt := { dens := 67108864, trained := true, sects := [({ kind := 1, source := 0, coves := 0, ofs := 16384, len := 32, dest := 0, digest := [7] } : Sect), { ({ kind := 2, source := 0, coves := 0, ofs := 16384, len := 2, dest := 256, digest := [7] } : Sect) with ofs := 20480 }, { ({ kind := 2, source := 0, coves := 0, ofs := 16384, len := 2, dest := 256, digest := [7] } : Sect) with kind := 3, ofs := 24576, dest := 512 }] }, flash := (enum (wpairs.flatMap fun p => leBytes 4 p.1 ++ leBytes 4 p.2) 0).map fun x => (0x404000 + x.1, x.2) }
/-- A flash whose slot 0 holds a valid header and the DEVICE section of a booted image. -/
def whdr (i : Nat) : Byte :=
  if i < 4 then [0x48, 0x4B, 0x46, 0x49].getD i 0 else if i = 4 ∨ i = 6 then 1 else if i = 21 then 0x20 else if i < 4352 then 0 else 0xFF
def wflash : SMap Byte := (List.range 4352).map fun i => (0x400000 + i, whdr i)
def wboot : State := ws [(Reg.BOOT_STATUS, 3), (Reg.BOOT_EVENT, 0), (Reg.BOOT_COUNT, 3), (Reg.BOOT_CMD_RESULT, 9), (Reg.BOOT_VERSION_LO, 0), (Reg.BOOT_VERSION_LO + 4, 0), (Reg.BOOT_OTHER_VER_LO, 0), (Reg.BOOT_OTHER_VER_LO + 4, 0), (Reg.BOOT_SECT_OK_LO, 0), (Reg.BOOT_SECT_OK_LO + 4, 0), (Reg.BOOT_SECT_PEND_LO, 0), (Reg.BOOT_SECT_PEND_LO + 4, 0), (Reg.SEC_STATUS, 0), (Reg.SEC_EVENT, 0), (Reg.PCI_STATUS, 2049), (Reg.TIDE_CTRL, 0), (Reg.TIDE_STATUS, 12), (Reg.DMC_STATUS 0, 0), (Reg.DMC_STATUS 1, 0)] fun d => { d with bt := { dens := 67108864 }, flash := wflash }
theorem w_mget_range (g : Nat → Byte) (b n k a : Nat) (h1 : b + k ≤ a) (h2 : a < b + k + n) : mget erasedByte ((List.range' k n).map fun i => (b + i, g i)) a = g (a - b) := by
  induction n generalizing k with
  | zero => omega
  | succ n ih =>
    rw [List.range'_succ, List.map_cons, mget]
    split
    · next h => rw [← h]; congr 1; omega
    · exact ih (k + 1) (by omega) (by omega)
theorem w_mget_out (g : Nat → Byte) (b n k a : Nat) (h : a < b + k ∨ b + k + n ≤ a) : mget erasedByte ((List.range' k n).map fun i => (b + i, g i)) a = 0xFF := by
  induction n generalizing k with
  | zero => rfl
  | succ n ih =>
    rw [List.range'_succ, List.map_cons, mget, if_neg (by omega)]
    exact ih (k + 1) (by omega)
theorem wboot_fl : fl wboot.dev = fun a => if 0x400000 ≤ a then (if a - 0x400000 < 4352 then whdr (a - 0x400000) else 0xFF) else 0xFF := by
  funext a
  unfold fl
  rw [show wboot.dev.flash = wflash from by simp only [wboot, ws]]
  unfold wflash
  rw [List.range_eq_range']
  split
  · split
    · exact w_mget_range whdr _ _ _ a (by omega) (by omega)
    · exact w_mget_out whdr _ _ _ a (by omega)
  · exact w_mget_out whdr _ _ _ a (by omega)
theorem w_all_true (n : Nat) (f : Nat → Bool) (h : ∀ j, j < n → f j = true) : (List.range n).all f = true := by
  rw [List.all_eq_true]; intro x hx; exact h x (List.mem_range.mp hx)
theorem wboot_ok : hdrOk wboot.dev 0 = true := by
  have hs : slotBase wboot.dev 0 = 0x400000 := by decide +kernel
  have hz : ∀ o n, (∀ j, j < n → o + j < 4352 ∧ whdr (o + j) = 0) → hdZero wboot.dev 0 o n = true := by
    intro o n h
    unfold hdZero
    apply w_all_true
    intro j hj
    rw [hs, wboot_fl]
    have := h j hj
    have e : 0x400000 + o + j - 0x400000 = o + j := by omega
    simp [e, this.1, this.2, show 0x400000 ≤ 0x400000 + o + j by omega]
  have hw : ∀ i, 22 ≤ i → i < 4352 → whdr i = 0 := by
    intro i h1 h2
    unfold whdr
    rw [if_neg (by omega), if_neg (by omega), if_neg (by omega), if_pos h2]
  have n1 : hd wboot.dev 0 6 2 = 1 := by unfold hd flLE flBytes; rw [hs, wboot_fl]; decide +kernel
  have n2 : certOfs wboot.dev 0 = 0 := by unfold certOfs hd flLE flBytes; rw [hs, wboot_fl]; decide +kernel
  have n3 : hd wboot.dev 0 20 4 = 8192 := by unfold hd flLE flBytes; rw [hs, wboot_fl]; decide +kernel
  have n4 : hd wboot.dev 0 0 4 = 0x49464B48 := by unfold hd flLE flBytes; rw [hs, wboot_fl]; decide +kernel
  have n5 : hd wboot.dev 0 4 2 = 1 := by unfold hd flLE flBytes; rw [hs, wboot_fl]; decide +kernel
  have n6 : hd wboot.dev 0 24 4 = 0 := by unfold hd flLE flBytes; rw [hs, wboot_fl]; decide +kernel
  have n7 : wboot.dev.bt.dens = 67108864 := rfl
  have z (o n : Nat) (h1 : 22 ≤ o) (h2 : o + n ≤ 4352) : hdZero wboot.dev 0 o n = true := hz o n fun j hj => ⟨by omega, hw _ (by omega) (by omega)⟩
  have c : certShape wboot.dev 0 = true := by unfold certShape; simp [n2]
  unfold hdrOk
  simp [n1, n2, n3, n4, n5, n6, n7, c, z]

theorem witness_EveryStepCompletes :
    (∃ (c : Instr) (s : State), pinRow c = false ∧ inReset s.dev = true) ∧ (∃ (c : Instr) (s : State), pinRow c = false ∧ inReset s.dev = false) ∧
    ∃ s : State, s.pending = [] ∧ inReset s.dev = false ∧ s.dev.time.f = 0 ∧ s.dev.time.frac < 2 ^ 32 ∧ s.dev.time.ns + 2 < 2 ^ 64 :=
  ⟨⟨.reboot, {}, by decide⟩, ⟨.reboot, ws [] id, by decide⟩, ws [] id, by decide⟩

theorem witness_WaitingPostsStayBlocked : ∃ s s' : State, PostsBlocked s.dev ∧ s.dev.pci.waiting ≠ [] ∧ step s = .next s' :=
  ⟨ws [(Reg.PCI_STATUS, 0)] fun d => { d with pci := { waiting := [⟨11, 1, 0, []⟩] } }, _, fun p hp => by rw [List.mem_singleton.mp hp]; decide +kernel, by decide +kernel, rfl⟩

theorem witness_FieldsAreBitRanges : ∃ lo len : Nat, lo + len ≤ 32 := ⟨8, 24, by decide⟩

theorem witness_PtpMessagesSteerDeviceTime :
    (∃ (s : State) (p : Fin 4) (h : PtpHdr) (m : Announce), inReset s.dev = false ∧ ptpHears s.dev p h = true ∧ ptpOutside s.dev h (-3) 4 = false ∧ 2
      ≤ m.timeout ∧ m.timeout ≤ 10) ∧
    (∃ (s : State) (p : Fin 4) (h : PtpHdr), inReset s.dev = false ∧ ptpHears s.dev p h = true ∧ ptpOutside s.dev h (-3) 4 = true) ∧
    (∃ (s : State) (p : Fin 4) (h : PtpHdr) (origin : Nat) (dl : Int) (off : Int), inReset s.dev = false ∧ ptpHears s.dev p h = true ∧ ptpOutside
      s.dev h (-7) 1 = false ∧ fromMaster s.dev p h = true ∧ s.dev.ptp.delay = some dl ∧ off = stamp s.dev p - ((origin : Int) + h.corr / 65536) - dl
      ∧ off.natAbs ≤ 1000 ∧ timeState s.dev ≠ 0) ∧
    (∃ (s : State) (p : Fin 4) (h : PtpHdr) (origin : Nat) (dl : Int) (off : Int), inReset s.dev = false ∧ ptpHears s.dev p h = true ∧ ptpOutside
      s.dev h (-7) 1 = false ∧ fromMaster s.dev p h = true ∧ s.dev.ptp.delay = some dl ∧ off = stamp s.dev p - ((origin : Int) + h.corr / 65536) - dl
      ∧ timeState s.dev = 0 ∧ s.dev.ptp.stepped = false) ∧
    (∃ (s : State) (p : Fin 4) (h : PtpHdr) (w : TwoStep), inReset s.dev = false ∧ ptpHears s.dev p h = true ∧ ptpOutside s.dev h (-7) 1 = false ∧
      s.dev.ptp.wait = some w ∧ w.port = p ∧ w.src = h.src ∧ w.srcPort = h.srcPort ∧ w.seq = h.seq ∧ s.dev.ptp.delay = none) ∧
    (∃ (s : State) (p : Fin 4), inReset s.dev = false ∧ ptpPort s.dev p = true ∧ (peerDelay s.dev = true ∨ s.dev.ptp.sel.map (·.port) = some p.val)) ∧
    (∃ (s : State) (p : Fin 4) (h : PtpHdr) (q : DelayReq) (t1 : Int) (t2 : Int), inReset s.dev = false ∧ ptpHears s.dev p h = true ∧ ptpOutside s.dev
      h (-7) 5 = false ∧ s.dev.ptp.req = some q ∧ q.port = p ∧ q.seq = h.seq ∧ q.peer = false ∧ fromMaster s.dev p h = true ∧ s.dev.ptp.sync = some
      (t1, t2)) ∧
    (∃ (s : State) (p : Fin 4) (h : PtpHdr) (q : DelayReq), inReset s.dev = false ∧ ptpHears s.dev p h = true ∧ ptpOutside s.dev h (-7) 5 = false ∧
      s.dev.ptp.req = some q ∧ q.port = p ∧ q.seq = h.seq ∧ q.peer = true) ∧
    (∃ (s : State) (p : Fin 4) (h : PtpHdr), inReset s.dev = false ∧ ptpHears s.dev p h = true ∧ ptpOutside s.dev h (-7) 5 = false ∧ peerDelay s.dev =
      true) :=
  ⟨⟨(ws [(Reg.TIDE_PTP_CFG, 0x1100), (Reg.PWR_STATUS, 0)] id), 0, ⟨0, 0, false, false, 0, 0, 0, 0, 0⟩, (⟨0, 0, 0, 0, 0, 0, 0, 3, 0⟩), by decide +kernel⟩,
   ⟨(ws [(Reg.TIDE_PTP_CFG, 0x1101), (Reg.PWR_STATUS, 0)] id), 0, ⟨0, 0, false, false, 0, 0, 0, 0, 0⟩, by decide +kernel⟩,
   ⟨(ws [(Reg.TIDE_PTP_CFG, 0x1100), (Reg.PWR_STATUS, 0), (Reg.TIDE_STATUS, 3), (Reg.TIDE_ASYM 0, 0), (Reg.TIDE_PTP_STATUS, 0xF0)] fun d => { d with time := { ns := 5500 }, ptp := { sel := some ⟨0, 0, 0, 0, 0, ⟨0, 0, 0, 0, 0, 0, 0, 3, 0⟩, 0, 0⟩, delay := some 100 } }), 0, ⟨0, 0, false, false, 0, 0, 0, 0, 0⟩, (5000), (100), (400), by decide +kernel⟩,
   ⟨(ws [(Reg.TIDE_PTP_CFG, 0x1100), (Reg.PWR_STATUS, 0), (Reg.TIDE_STATUS, 0), (Reg.TIDE_ASYM 0, 0), (Reg.TIDE_PTP_STATUS, 0xF0)] fun d => { d with time := { ns := 5500 }, ptp := { sel := some ⟨0, 0, 0, 0, 0, ⟨0, 0, 0, 0, 0, 0, 0, 3, 0⟩, 0, 0⟩, delay := some 100 } }), 0, ⟨0, 0, false, false, 0, 0, 0, 0, 0⟩, (5000), (100), (400), by decide +kernel⟩,
   ⟨(ws [(Reg.TIDE_PTP_CFG, 0x1100), (Reg.PWR_STATUS, 0)] fun d => { d with ptp := { wait := some ⟨0, 0, 0, 0, 5500, 0⟩ } }), 0, ⟨0, 0, false, false, 0, 0, 0, 0, 0⟩, (⟨0, 0, 0, 0, 5500, 0⟩), by decide +kernel⟩,
   ⟨(ws [(Reg.TIDE_PTP_CFG, 0x8100), (Reg.PWR_STATUS, 0)] id), 0, by decide +kernel⟩,
   ⟨(ws [(Reg.TIDE_PTP_CFG, 0x1100), (Reg.PWR_STATUS, 0)] fun d => { d with ptp := { sel := some ⟨0, 0, 0, 0, 0, ⟨0, 0, 0, 0, 0, 0, 0, 3, 0⟩, 0, 0⟩, req := some ⟨false, 0, 0, 6500⟩, sync := some (5000, 5500) } }), 0, ⟨0, 0, false, false, 0, 0, 0, 0, 0⟩, (⟨false, 0, 0, 6500⟩), (5000), (5500), by decide +kernel⟩,
   ⟨(ws [(Reg.TIDE_PTP_CFG, 0x9100), (Reg.PWR_STATUS, 0), (Reg.TIDE_ASYM 0, 0)] fun d => { d with time := { ns := 7500 }, ptp := { req := some ⟨true, 0, 0, 6500⟩ } }), 0, ⟨0, 0, false, false, 0, 0, 0, 0, 0⟩, (⟨true, 0, 0, 6500⟩), by decide +kernel⟩,
   ⟨(ws [(Reg.TIDE_PTP_CFG, 0x9100), (Reg.PWR_STATUS, 0), (Reg.TIDE_ASYM 0, 0)] id), 0, ⟨0, 0, false, false, 0, 0, 0, 0, 0⟩, by decide +kernel⟩⟩

theorem witness_TimeStateLimitsExpire :
    (∃ (s : State) (m : Master), inReset s.dev = false ∧ s.dev.ptp.sel = some m ∧ timeState s.dev = 1 ∧ m.at_ + m.span < 2 ^ 64) ∧
    (∃ (s : State), inReset s.dev = false ∧ timeState s.dev = 2 ∧ s.dev.ptp.holdFrom + rf s.dev Reg.TIDE_HOLDOVER_LIM 0 17 * 1000000000 < 2 ^ 64) ∧
    (∃ (s : State) (t : Nat), inReset s.dev = false ∧ timeState s.dev = 0 ∧ s.dev.ptp.acqFrom = some t ∧ tideN s.dev ≠ 0 ∧ t + rf s.dev
      Reg.TIDE_ACQ_LIM 0 16 * 1000000 < 2 ^ 64) :=
  ⟨⟨(ws [(Reg.TIDE_STATUS, 1)] fun d => { d with ptp := { sel := some ⟨0, 0, 0, 0, 0, ⟨0, 0, 0, 0, 0, 0, 0, 3, 0⟩, 7, 8⟩, masters := [⟨0, 0, 0, 0, 0, ⟨0, 0, 0, 0, 0, 0, 0, 3, 0⟩, 7, 8⟩] } }), (⟨0, 0, 0, 0, 0, ⟨0, 0, 0, 0, 0, 0, 0, 3, 0⟩, 7, 8⟩), by decide +kernel⟩,
   ⟨(ws [(Reg.TIDE_STATUS, 2), (Reg.TIDE_HOLDOVER_LIM, 600)] id), by decide +kernel⟩,
   ⟨(ws [(Reg.TIDE_STATUS, 0), (Reg.TIDE_RATE, 30), (Reg.TIDE_ACQ_LIM, 5000)] fun d => { d with ptp := { acqFrom := some 5 } }), (5), by decide +kernel⟩⟩

theorem witness_SyncEdgesPlaceMarks :
    (∃ (s : State) (high : Nat), inReset s.dev = false ∧ high < 20) ∧
    (∃ (s : State) (high : Nat) (m : Nat), inReset s.dev = false ∧ 20 ≤ high ∧ tideSource s.dev = 1 ∧ s.dev.tide.lastEdge = none ∧ s.dev.tide.next =
      some m ∧ s.dev.tide.marked = true ∧ s.dev.tide.prevEnd = none ∧ s.dev.tide.taken = none ∧ syncState s.dev ≠ 1 ∧ m ≤ now s.dev / 2 * 2 + slackH
      s.dev ∧ now s.dev / 2 * 2 ≤ m + slackH s.dev ∧ now s.dev < 2 ^ 64) ∧
    (∃ (s : State) (high : Nat) (m : Nat), inReset s.dev = false ∧ 20 ≤ high ∧ tideSource s.dev = 1 ∧ s.dev.tide.lastEdge = none ∧ s.dev.tide.next =
      some m ∧ s.dev.tide.marked = true ∧ s.dev.tide.prevEnd = none ∧ syncState s.dev = 0 ∧ now s.dev / 2 * 2 + slackH s.dev < m) ∧
    (∃ (s : State), inReset s.dev = false ∧ tideSource s.dev = 2 ∧ now s.dev + 10000 ≤ rd64 s.dev Reg.TIDE_HOST_EDGE_LO) ∧
    (∃ (s : State), inReset s.dev = false ∧ tideSource s.dev = 2 ∧ rd64 s.dev Reg.TIDE_HOST_EDGE_LO < now s.dev + 10000) ∧
    (∃ (s : State) (t : Nat) (m : Nat), inReset s.dev = false ∧ tideSource s.dev = 2 ∧ s.dev.tide.hostEdges = [t] ∧ t < 2 ^ 64 ∧ s.dev.tide.lastHost =
      none ∧ s.dev.tide.next = some m ∧ s.dev.tide.marked = true ∧ s.dev.tide.prevEnd = none ∧ s.dev.tide.taken = none ∧ syncState s.dev ≠ 1 ∧ m ≤ t +
      slackH s.dev ∧ t ≤ m + slackH s.dev) ∧
    (∃ (s : State), inReset s.dev = false ∧ tideSource s.dev ≠ 0) ∧
    (∃ (s : State), inReset s.dev = false) :=
  ⟨⟨(ws [] id), (19), by decide +kernel⟩,
   ⟨(ws [(Reg.TIDE_CTRL, 1), (Reg.TIDE_RATE, 30), (Reg.TIDE_STATUS, 8), (Reg.TIDE_EXTRA_CNT, 0), (Reg.TIDE_EDGE_CNT, 5), (Reg.TIDE_OUTSIDE_CNT, 0)] fun d => { d with time := { ns := 901 }, tide := { marked := true, next := some 1000 } }), (20), (1000), by decide +kernel⟩,
   ⟨(ws [(Reg.TIDE_CTRL, 1), (Reg.TIDE_RATE, 30), (Reg.TIDE_STATUS, 0), (Reg.TIDE_EXTRA_CNT, 0), (Reg.TIDE_EDGE_CNT, 5), (Reg.TIDE_OUTSIDE_CNT, 0)] fun d => { d with time := { ns := 901 }, tide := { marked := true, next := some 100000000 } }), (20), (100000000), by decide +kernel⟩,
   ⟨(ws [(Reg.TIDE_CTRL, 2), (Reg.TIDE_RATE, 30), (Reg.TIDE_STATUS, 0), (Reg.TIDE_HOST_EDGE_LO, 10000), (Reg.TIDE_HOST_EDGE_HI, 0), (Reg.TIDE_EDGE_CNT, 5)] id), by decide +kernel⟩,
   ⟨(ws [(Reg.TIDE_CTRL, 2), (Reg.TIDE_RATE, 30), (Reg.TIDE_STATUS, 0), (Reg.TIDE_HOST_EDGE_LO, 9999), (Reg.TIDE_HOST_EDGE_HI, 0), (Reg.TIDE_EDGE_CNT, 5)] id), by decide +kernel⟩,
   ⟨(ws [(Reg.TIDE_CTRL, 2), (Reg.TIDE_RATE, 30), (Reg.TIDE_STATUS, 0), (Reg.TIDE_HOST_EDGE_LO, 0), (Reg.TIDE_HOST_EDGE_HI, 0), (Reg.TIDE_EDGE_CNT, 5)] fun d => { d with tide := { marked := true, next := some 1000, hostEdges := [500] } }), (500), (1000), by decide +kernel⟩,
   ⟨(ws [(Reg.TIDE_CTRL, 2)] id), by decide +kernel⟩,
   ⟨(ws [] id), by decide +kernel⟩⟩

theorem witness_OutputPulsesAndWindowsFollowTime :
    (∃ (s : State) (t : Nat), inReset s.dev = false ∧ s.dev.tide.soFall = some t ∧ t < 2 ^ 64) ∧
    (∃ (s : State) (t : Nat), inReset s.dev = false ∧ s.dev.tide.ppsFall = some t ∧ t < 2 ^ 64) ∧
    (∃ (s : State), inReset s.dev = false ∧ tst s.dev Reg.TIDE_CTRL 3 = true ∧ timeState s.dev ≠ 0 ∧ halted s.dev = false ∧ now s.dev + 2000000000 < 2
      ^ 64) ∧
    (∃ (s : State), inReset s.dev = false ∧ s.dev.tide.marked = true ∧ ebbState s.dev ≠ 2 ∧ windowStart s.dev s.dev.tide.winIdx + 10000 ≤ (comingMark
      s.dev).2 ∧ windowStart s.dev s.dev.tide.winIdx < 2 ^ 64) :=
  ⟨⟨(ws [] fun d => { d with tide := { soFall := some 50 }, pins := { porst := true, syncOut := true } }), (50), by decide +kernel⟩,
   ⟨(ws [] fun d => { d with tide := { ppsFall := some 50 }, pins := { porst := true, pps := true } }), (50), by decide +kernel⟩,
   ⟨(ws [(Reg.TIDE_CTRL, 8), (Reg.TIDE_STATUS, 3), (Reg.TIDE_PPS_CFG, 100), (Reg.BOOT_STATUS, 10)] fun d => { d with time := { ns := 1 } }), by decide +kernel⟩,
   ⟨(ws [(Reg.TIDE_CTRL, 0), (Reg.TIDE_RATE, 30), (Reg.TIDE_RETRAIN_OFS, 50), (Reg.PWR_STATUS, 0)] fun d => { d with tide := { marked := true, next := some 33333333 } }), by decide +kernel⟩⟩

theorem witness_MarkStepsLatchTideAndTime : ∃ d : Dev, (comingMark d).2 < 2 ^ 64 ∧ (comingMark d).1 < 2 ^ 64 := ⟨(ws [] id).dev, by decide⟩
theorem witness_MarkActionLeavesNewTide :
    (∃ (s : State) (m : Nat), inReset s.dev = false ∧ s.dev.tide.next = some m) ∧
    (∃ (s : State), inReset s.dev = false ∧ s.dev.tide.next = none) :=
  ⟨⟨(ws [(Reg.TIDE_CTRL, 0), (Reg.TIDE_RATE, 30)] fun d => { d with tide := { next := some 1000 } }), (1000), by decide +kernel⟩,
   ⟨(ws [] id), by decide +kernel⟩⟩

theorem witness_CapStepFitsAndFallsByOne :
    (∃ d : Dev, tst d Reg.PWR_CAP 0 = false) ∧ (∃ d : Dev, tst d Reg.PWR_CAP 0 = true ∧ (capStep d 100 50 0).2 = false) :=
  ⟨⟨(ws [(Reg.PWR_CAP, 0)] id).dev, by decide⟩, ⟨(ws [(Reg.PWR_CAP, 1), (Reg.PWR_SCALE, 0)] id).dev, by decide⟩⟩
theorem witness_PowerStepShowsPowersAndStep :
    (∃ (s : State), inReset s.dev = false ∧ s.dev.tide.marked = true ∧ s.dev.tide.stepDone = false ∧ ebbState s.dev = 0 ∧ s.dev.pwr.fresh = false ∧ (∀
      c : Fin 8, coveState s.dev c ≠ 1) ∧ powerStepTime s.dev < 2 ^ 64) ∧
    (∃ (s : State), inReset s.dev = false ∧ s.dev.tide.marked = false ∨ s.dev.tide.stepDone = true ∨ 2 ≤ ebbState s.dev ∨ s.dev.pwr.fresh = true) :=
  ⟨⟨(ws ([(Reg.PWR_STATUS, 0), (Reg.TIDE_POWER_OFS, 100)] ++ (List.range 8).map fun c => (Reg.SCH_COVE_STATE c, 0)) fun d => { d with tide := { marked := true } }), by decide +kernel⟩,
   ⟨(ws [] id), by decide +kernel⟩⟩

theorem witness_DomainChangesEndOrTimeOut :
    (∃ (s : State) (n : Fin 100) (t : Nat) (t0 : Nat), inReset s.dev = false ∧ transOf s.dev n = some (t, t0) ∧ 2 ≤ t ∧ working s.dev n = true) ∧
    (∃ (s : State) (n : Fin 100) (t : Nat) (t0 : Nat), inReset s.dev = false ∧ transOf s.dev n = some (t, t0) ∧ t < 4 ∧ (2 ≤ t → working s.dev n =
      false) ∧ domState s.dev n ≠ 3 ∧ ebbState s.dev ≠ 3 ∧ (∀ c : Fin 8, coveState s.dev c ≠ 1) ∧ t0 + domLatency n (domState s.dev n) t < 2 ^ 64) ∧
    (∃ (s : State) (n : Fin 100) (t : Nat) (t0 : Nat), inReset s.dev = false ∧ transOf s.dev n = some (t, t0) ∧ n.val < 64 ∧ domState s.dev n = 3 ∧
      ebbState s.dev ≠ 3 ∧ (∀ c : Fin 8, coveState s.dev c ≠ 1)) ∧
    (∃ (s : State) (n : Fin 100) (x : Nat × Nat), inReset s.dev = false ∧ transOf s.dev n = some x) ∧
    (∃ (s : State), inReset s.dev = false ∧ s.dev.pwr.sampled + 1000000 < 2 ^ 64) ∧
    (∃ (s : State) (ts : List Int) (i : Nat), inReset s.dev = false ∧ i < 22 ∧ (rf s.dev Reg.PWR_THERM 12 12 : Int) ≤ ts.getD i 0 ∧ ts.getD i 0 ≤ 1200
      ∧ (sensorOf s.dev i).out = false ∧ (sensorOf s.dev i).same < 999 ∧ tst s.dev Reg.PWR_STATUS 5 = false) :=
  ⟨⟨(ws [(Reg.PWR_DOM_STATE 0, 0), (Reg.ARR_BIST_STATUS 0, 1)] fun d => { d with pwr := { trans := [(0, some (3, 7))] } }), (0), (3), (7), by decide +kernel⟩,
   ⟨(ws ([(Reg.PWR_STATUS, 0), (Reg.PWR_DOM_STATE 0, 8)] ++ (List.range 8).map fun c => (Reg.SCH_COVE_STATE c, 0)) fun d => { d with pwr := { trans := [(0, some (3, 7))] } }), (0), (3), (7), by decide +kernel⟩,
   ⟨(ws ([(Reg.PWR_STATUS, 0), (Reg.PWR_DOM_STATE 0, 11)] ++ (List.range 8).map fun c => (Reg.SCH_COVE_STATE c, 0)) fun d => { d with pwr := { trans := [(0, some (0, 7))] } }), (0), (0), (7), by decide +kernel⟩,
   ⟨(ws [(Reg.PWR_DOM_STATE 0, 11)] fun d => { d with pwr := { trans := [(0, some (0, 7))] } }), (0), ((0, 7)), by decide +kernel⟩,
   ⟨(ws [] id), by decide +kernel⟩,
   ⟨(ws [(Reg.PWR_THERM, 840 * 4096 + 720), (Reg.PWR_STATUS, 0)] id), ([840]), (0), by decide +kernel⟩⟩

theorem witness_EbbEntryAndWake :
    (∃ (s : State), inReset s.dev = false ∧ ebbState s.dev = 0) ∧
    (∃ (s : State), inReset s.dev = false ∧ ebbState s.dev ≠ 0) ∧
    (∃ (s : State), inReset s.dev = false ∧ ebbState s.dev = 1 ∨ ebbState s.dev = 2) ∧
    (∃ (s : State) (ns : Nat), inReset s.dev = false ∧ ns < 1000) ∧
    (∃ (s : State) (n : Fin 8) (high : Bool) (ns : Nat), inReset s.dev = false ∧ 1000 ≤ ns ∧ bitOf s.dev.pins.gpio n ≠ high ∧ tst s.dev
      Reg.PWR_WAKE_EN 3 = false ∧ now s.dev + 1000 < 2 ^ 64) ∧
    (∃ (s : State) (n : Fin 8) (high : Bool) (ns : Nat), inReset s.dev = false ∧ 1000 ≤ ns ∧ bitOf s.dev.pins.gpio n ≠ high ∧ tst s.dev
      Reg.PWR_WAKE_EN 3 = true ∧ tst s.dev Reg.PWR_WAKE_EN (4 + n) = true ∧ tst s.dev Reg.PWR_WAKE_EN 12 = !high ∧ ebbState s.dev = 2) ∧
    (∃ (s : State), inReset s.dev = false ∧ ebbState s.dev = 3 ∧ dramReady s.dev = true ∧ ((exitRest s.dev).pwr.trans.any fun x => x.2.isSome) =
      false) :=
  ⟨⟨(ws [(Reg.PWR_STATUS, 0)] id), by decide +kernel⟩,
   ⟨(ws [(Reg.PWR_STATUS, 2)] id), by decide +kernel⟩,
   ⟨(ws [(Reg.PWR_STATUS, 2)] id), by decide +kernel⟩,
   ⟨(ws [] id), (999), by decide +kernel⟩,
   ⟨(ws [(Reg.PWR_WAKE_EN, 0)] id), (3), (true), (1000), by decide +kernel⟩,
   ⟨(ws [(Reg.PWR_WAKE_EN, 0x88), (Reg.PWR_STATUS, 2)] id), (3), (true), (1000), by decide +kernel⟩,
   ⟨(ws ([(Reg.PWR_STATUS, 3), (Reg.PWR_DOM_STATE 97, 0), (Reg.PWR_DOM_STATE 98, 0)] ++ (List.range 97).map fun e => (Reg.PWR_DOM_STATE e, 3)) fun d => { d with bt := { heldOff := List.range 97 } }), by decide +kernel⟩⟩

theorem witness_CodecRoundsGiveCredit :
    (∃ (s : State), inReset s.dev = false ∧ s.dev.tide.marked = true ∧ s.dev.tide.roundDone = false ∧ ebbState s.dev ≠ 2 ∧ codecRoundTime s.dev < 2 ^
      64) ∧
    (∃ (s : State) (e : Fin 16) (x : Fin 32), inReset s.dev = false ∧ s.dev.tide.marked = true ∧ s.dev.tide.roundDone = false ∧ ebbState s.dev ≠ 2 ∧
      (cdcOf s.dev e).busy = none ∧ ctxValid s.dev (e * 32 + x) = true) ∧
    (∃ (s : State) (e : Fin 16) (x : Fin 32), inReset s.dev = false ∧ mayServe s.dev e = true ∧ ctxValid s.dev (e * 32 + x) = true ∧ ctxEncodes s.dev
      (e * 32 + x) = false ∧ decodeReady s.dev (e * 32 + x) = true ∧ 0 < (ctxOf s.dev (e * 32 + x)).credit) :=
  ⟨⟨(ws [(Reg.PWR_STATUS, 0), (Reg.TIDE_CODEC_OFS, 10)] fun d => { d with tide := { marked := true } }), by decide +kernel⟩,
   ⟨(ws [(Reg.PWR_STATUS, 0), (Reg.TIDE_CODEC_OFS, 10), (Reg.TIDE_RATE, 30), (Reg.CDC_CTX_CFG 0 2, 0x14200)] fun d => { d with tide := { marked := true } }), 0, (2), by decide +kernel⟩,
   ⟨(ws [(Reg.CDC_CTX_CFG 0 2, 0x200), (Reg.CDC_STATUS 0, 0), (Reg.PWR_DOM_STATE 72, 0), (Reg.CDC_CTX_POOL_CFG 0 2, 4 + 64 * 500)] fun d => { d with cctx := [(2, { queue := [⟨true, 5, false, 0, 100, 7, some false, none, 0, some ⟨true, 640, 480, false, [], 0, true, true, true, 3, 0, 0, 3, [], [], []⟩, none, []⟩], credit := 100 })] }), 0, (2), by decide +kernel⟩⟩

theorem witness_CodecHeadersAreAcceptedOrLost :
    (∃ (s : State) (e : Fin 16) (x : Fin 32) (a : Au) (h : PicHdr), inReset s.dev = false ∧ (ctxOf s.dev (e * 32 + x)).queue = [a] ∧ (ctxOf s.dev (e *
      32 + x)).move = none ∧ a.host = some false ∧ a.hdr = none ∧ ctxValid s.dev (e * 32 + x) = true ∧ ctxEncodes s.dev (e * 32 + x) = false ∧ tst
      s.dev (Reg.CDC_STATUS e) 8 = false ∧ tst s.dev (Reg.CDC_STATUS e) 9 = false ∧ h.rap = true ∧ tooLarge (ctxCodec s.dev (e * 32 + x)) h.w h.h
      h.p10 = false ∧ picBytes h.w h.h h.p10 ≤ bufBytes s.dev (e * 32 + x)) ∧
    (∃ (s : State) (e : Fin 16) (x : Fin 32) (a : Au), inReset s.dev = false ∧ (ctxOf s.dev (e * 32 + x)).queue = [a] ∧ a.host = some false ∧ a.hdr =
      none ∧ ctxValid s.dev (e * 32 + x) = true ∧ ctxEncodes s.dev (e * 32 + x) = false ∧ tst s.dev (Reg.CDC_STATUS e) 8 = false ∧ tst s.dev
      (Reg.CDC_STATUS e) 9 = false) ∧
    (∃ (s : State) (e : Fin 16) (x : Fin 32) (h : H2D) (c : PicCmd) (v : CdcCtx) (a : Au) (p : Nat × Nat), inReset s.dev = false ∧ ringHasEntry s.dev
      6 = true ∧ h2dOk s.dev 6 1 h = true ∧ s.dev.cctx = [((e * 32 + x : Nat), v)] ∧ v.queue = [a] ∧ v.move = none ∧ a.hdr = none ∧ a.post = some p ∧
      p.1 = h.tag ∧ cmdOk s.dev (e * 32 + x) a c = true ∧ c.rap = true ∧ picBytes c.w c.h (c.depth == 10) ≤ bufBytes s.dev (e * 32 + x)) ∧
    (∃ (s : State) (e : Fin 16) (x : Fin 32) (a : Au) (p : Nat × Nat), inReset s.dev = false ∧ ctxEncodes s.dev (e * 32 + x) = false ∧ (ctxOf s.dev (e
      * 32 + x)).queue = [a] ∧ a.hdr = none ∧ a.post = some p ∧ p.2 + rf s.dev (Reg.CDC_HOST_LIM e) 0 16 * 1000000 < 2 ^ 64) :=
  ⟨⟨(ws [(Reg.CDC_CTX_CFG 0 2, 0x200), (Reg.CDC_STATUS 0, 0), (Reg.CDC_CTX_POOL_CFG 0 2, 4 + 64 * 500)] fun d => { d with cctx := [(2, { queue := [⟨true, 5, false, 0, 100, 7, some false, none, 0, none, none, []⟩] })] }), 0, 2, (⟨true, 5, false, 0, 100, 7, some false, none, 0, none, none, []⟩), (⟨true, 640, 480, false, [], 0, true, true, true, 3, 0, 0, 3, [], [], []⟩), by decide +kernel⟩,
   ⟨(ws [(Reg.CDC_CTX_CFG 0 2, 0x200), (Reg.CDC_STATUS 0, 0)] fun d => { d with cctx := [(2, { queue := [⟨true, 5, false, 0, 100, 7, some false, none, 0, none, none, []⟩] })] }), 0, 2, (⟨true, 5, false, 0, 100, 7, some false, none, 0, none, none, []⟩), by decide +kernel⟩,
   ⟨(ws (wring 6 ++ [(Reg.CDC_CTX_CFG 0 2, 0x200), (Reg.CDC_STATUS 0, 0), (Reg.CDC_CTX_POOL_CFG 0 2, 4 + 64 * 500)]) fun d => { d with pci := wpci, cctx := [(2, { queue := [⟨true, 5, false, 0, 100, 7, some true, some (9, 50), 2, none, none, []⟩] })] }), 0, 2, (⟨1, 100, 9⟩), (⟨7, 2, 0, 8, true, 640, 480, 3, true, 0, [], [], 1, 0, 0, []⟩), ({ queue := [⟨true, 5, false, 0, 100, 7, some true, some (9, 50), 2, none, none, []⟩] }), (⟨true, 5, false, 0, 100, 7, some true, some (9, 50), 2, none, none, []⟩), ((9, 50)), by decide +kernel⟩,
   ⟨(ws [(Reg.CDC_CTX_CFG 0 2, 0x200), (Reg.CDC_HOST_LIM 0, 20), (Reg.CDC_CTX_LOST_CNT 0 2, 1)] fun d => { d with cctx := [(2, { queue := [⟨true, 5, false, 0, 100, 7, some true, some (9, 50), 2, none, none, []⟩] })] }), 0, 2, (⟨true, 5, false, 0, 100, 7, some true, some (9, 50), 2, none, none, []⟩), ((9, 50)), by decide +kernel⟩⟩

theorem witness_CodecFramesEndAndEnginesReset :
    (∃ (s : State) (e : Fin 16) (fe : FrameEnd) (b : Busy), inReset s.dev = false ∧ (cdcOf s.dev e).busy = some b ∧ fe.us * 1000 < wdogNs s.dev (e *
      32 + b.ctx) ∧ b.at_ + fe.us * 1000 < 2 ^ 64) ∧
    (∃ (s : State) (e : Fin 16) (b : Busy), inReset s.dev = false ∧ (cdcOf s.dev e).busy = some b ∧ b.ctx < 32 ∧ (cdcOf s.dev e).moves = [] ∧ b.at_ +
      wdogNs s.dev (e * 32 + b.ctx) < 2 ^ 64) ∧
    (∃ (s : State) (e : Fin 16), inReset s.dev = false ∧ tst s.dev (Reg.CDC_STATUS e) 9 = false) ∧
    (∃ (s : State) (e : Fin 16), inReset s.dev = false ∧ tst s.dev (Reg.CDC_STATUS e) 9 = true) ∧
    (∃ (s : State) (e : Fin 16), inReset s.dev = false ∧ tst s.dev (Reg.CDC_STATUS e) 9 = true) ∧
    (∃ (s : State), inReset s.dev = false) ∧
    (∃ (s : State) (e : Fin 16) (x : Fin 32), inReset s.dev = false ∧ ctxValid s.dev (e * 32 + x) = false) ∧
    (∃ (s : State) (e : Fin 16) (x : Fin 32) (g : Fin 16) (k : Nat), inReset s.dev = false ∧ ctxValid s.dev (e * 32 + x) = true ∧ (ctxOf s.dev (e * 32
      + x)).move = none ∧ (cdcOf s.dev e).moves = [] ∧ freeCtx s.dev g = some k ∧ e.val / 8 ≠ g.val / 8 ∧ ctxEncodes s.dev (e * 32 + x) = false) ∧
    (∃ (s : State) (e : Fin 16) (x : Fin 32) (g : Fin 16) (k : Nat), inReset s.dev = false ∧ ctxValid s.dev (e * 32 + x) = true ∧ (ctxOf s.dev (e * 32
      + x)).move = none ∧ (cdcOf s.dev e).moves = [] ∧ (cdcOf s.dev e).busy = none ∧ freeCtx s.dev g = some k ∧ (e.val / 8 = g.val / 8 ∨ (ctxEncodes
      s.dev (e * 32 + x) = true ∧ (ctxOf s.dev (e * 32 + x)).clip = none))) :=
  ⟨⟨(ws [(Reg.CDC_CTX_CFG 0 2, 0x8400200)] fun d => { d with cdc := [(0, { busy := some { ctx := 2, charged := true, at_ := 9 } })] }), 0, (⟨500, 0, [], 0, [], [], [], [], ⟨[], [], []⟩⟩), ({ ctx := 2, charged := true, at_ := 9 }), by decide +kernel⟩,
   ⟨(ws [(Reg.CDC_CTX_CFG 0 2, 0x8400200)] fun d => { d with cdc := [(0, { busy := some { ctx := 2, charged := true, at_ := 9, au := some ⟨true, 5, false, 0, 100, 7, some false, none, 0, none, none, []⟩ } })] }), 0, ({ ctx := 2, charged := true, at_ := 9, au := some ⟨true, 5, false, 0, 100, 7, some false, none, 0, none, none, []⟩ }), by decide +kernel⟩,
   ⟨(ws [(Reg.CDC_STATUS 0, 2)] id), 0, by decide +kernel⟩,
   ⟨(ws [(Reg.CDC_STATUS 0, 0x200)] id), 0, by decide +kernel⟩,
   ⟨(ws [(Reg.CDC_STATUS 0, 0x200)] id), 0, by decide +kernel⟩,
   ⟨(ws [] id), by decide +kernel⟩,
   ⟨(ws [(Reg.CDC_CTX_CFG 0 2, 0)] id), 0, (2), by decide +kernel⟩,
   ⟨(ws [(Reg.CDC_CTX_CFG 0 2, 0x200), (Reg.CDC_CTX_CFG 8 0, 0)] id), 0, (2), (8), (256), by decide +kernel⟩,
   ⟨(ws [(Reg.CDC_CTX_CFG 0 2, 0x200), (Reg.CDC_CTX_CFG 1 0, 0)] id), 0, (2), (1), (32), by decide +kernel⟩⟩

theorem witness_ClipsAdvanceAndClose :
    (∃ (s : State) (e : Fin 16) (x : Fin 32) (c : Clip), inReset s.dev = false ∧ (ctxOf s.dev (e * 32 + x)).clip = some c ∧ c.count ≤ c.n ∧ (cdcOf
      s.dev e).moves = []) ∧
    (∃ (s : State) (e : Fin 16) (x : Fin 32) (c : Clip), inReset s.dev = false ∧ (ctxOf s.dev (e * 32 + x)).clip = some c ∧ c.n < c.count) ∧
    (∃ (s : State) (e : Fin 16) (x : Fin 32) (c : Clip), inReset s.dev = false ∧ (ctxOf s.dev (e * 32 + x)).clip = some c ∧ c.head = none ∧ c.n <
      c.count ∧ c.idr = false ∧ c.start + (c.n + 1) * 100000000000 / c.fps < 2 ^ 64) ∧
    (∃ (s : State) (e : Fin 16) (x : Fin 32) (c : Clip) (t : Taken), inReset s.dev = false ∧ (ctxOf s.dev (e * 32 + x)).clip = some c ∧ c.head = some
      t ∧ settled s.dev c t = false ∧ t.cap + c.staleNs < 2 ^ 64) ∧
    (∃ (s : State) (e : Fin 16) (x : Fin 32) (h : H2D) (qp : Nat) (v : CdcCtx) (c : Clip) (t : Taken) (p : Nat × Nat), inReset s.dev = false ∧
      ringHasEntry s.dev 6 = true ∧ h2dOk s.dev 6 2 h = true ∧ qp ≤ 51 ∧ s.dev.cctx = [((e * 32 + x : Nat), v)] ∧ v.clip = some c ∧ c.taken = [t] ∧
      t.qp = none ∧ t.post = some p ∧ p.1 = h.tag) :=
  ⟨⟨(ws [(Reg.MDO_CTRL, 0)] fun d => { d with cctx := [(2, { clip := some { req := 1, buffer := 0, stream := 3, start := 0, stop := 1000000000, mask := 0, deliver := 9, untr := false, rate := 0x1900100, cpb := 0x100100, enc := 0, fps := 2500, n := 25 } })] }), 0, 2, ({ req := 1, buffer := 0, stream := 3, start := 0, stop := 1000000000, mask := 0, deliver := 9, untr := false, rate := 0x1900100, cpb := 0x100100, enc := 0, fps := 2500, n := 25 }), by decide +kernel⟩,
   ⟨(ws [(Reg.MDO_CTRL, 0)] fun d => { d with cctx := [(2, { clip := some { req := 1, buffer := 0, stream := 3, start := 0, stop := 1000000000, mask := 0, deliver := 9, untr := false, rate := 0x1900100, cpb := 0x100100, enc := 0, fps := 2500, n := 24 } })] }), 0, 2, ({ req := 1, buffer := 0, stream := 3, start := 0, stop := 1000000000, mask := 0, deliver := 9, untr := false, rate := 0x1900100, cpb := 0x100100, enc := 0, fps := 2500, n := 24 }), by decide +kernel⟩,
   ⟨(ws [(Reg.CDC_CTX_CFG 0 2, 0x200)] fun d => { d with cctx := [(2, { clip := some { req := 1, buffer := 0, stream := 3, start := 0, stop := 1000000000, mask := 0, deliver := 9, untr := false, rate := 0x1900100, cpb := 0x100100, enc := 0, fps := 2500 } })] }), 0, 2, ({ req := 1, buffer := 0, stream := 3, start := 0, stop := 1000000000, mask := 0, deliver := 9, untr := false, rate := 0x1900100, cpb := 0x100100, enc := 0, fps := 2500 }), by decide +kernel⟩,
   ⟨(ws [(Reg.CDC_CTX_CFG 0 2, 0x200)] fun d => { d with cctx := [(2, { clip := some { req := 1, buffer := 0, stream := 3, start := 0, stop := 1000000000, mask := 0, deliver := 9, untr := false, rate := 0x1900100, cpb := 0x100100, enc := 0, fps := 2500, taken := [⟨0, 40, 1, 5, false, none, none, none⟩] } })] }), 0, 2, ({ req := 1, buffer := 0, stream := 3, start := 0, stop := 1000000000, mask := 0, deliver := 9, untr := false, rate := 0x1900100, cpb := 0x100100, enc := 0, fps := 2500, taken := [⟨0, 40, 1, 5, false, none, none, none⟩] }), (⟨0, 40, 1, 5, false, none, none, none⟩), by decide +kernel⟩,
   ⟨(ws (wring 6 ++ [(Reg.CDC_CTX_CFG 0 2, 0x200)]) fun d => { d with pci := wpci, cctx := [(2, { clip := some { req := 1, buffer := 0, stream := 3, start := 0, stop := 1000000000, mask := 0, deliver := 9, untr := false, rate := 0x1900100, cpb := 0x100100, enc := 0, fps := 2500, taken := [⟨0, 40, 1, 5, false, some true, some (9, 50), none⟩] } })] }), 0, 2, (⟨2, 8, 9⟩), (51), ({ clip := some { req := 1, buffer := 0, stream := 3, start := 0, stop := 1000000000, mask := 0, deliver := 9, untr := false, rate := 0x1900100, cpb := 0x100100, enc := 0, fps := 2500, taken := [⟨0, 40, 1, 5, false, some true, some (9, 50), none⟩] } }), ({ req := 1, buffer := 0, stream := 3, start := 0, stop := 1000000000, mask := 0, deliver := 9, untr := false, rate := 0x1900100, cpb := 0x100100, enc := 0, fps := 2500, taken := [⟨0, 40, 1, 5, false, some true, some (9, 50), none⟩] }), (⟨0, 40, 1, 5, false, some true, some (9, 50), none⟩), ((9, 50)), by decide +kernel⟩⟩

theorem witness_DpuSumIsExact : ∃ (a w : Nat) (qa qw : List Int), a ∈ [1, 2, 3, 4, 5, 6, 7, 8, 16] ∧ w ∈ [1, 2, 4, 8] ∧ (∀ q ∈ qa, -(2 ^ (a - 1)) ≤ q ∧ q < 2 ^ (a - 1)) ∧
    (∀ q ∈ qw, -(2 ^ (w - 1)) ≤ q ∧ q < 2 ^ (w - 1)) ∧ qa.length = 32 ∧ qw.length = 32 :=
  ⟨16, 8, List.replicate 32 (-32768), List.replicate 32 (-128), by decide⟩

theorem witness_FiniteSumsSaturate : ∃ (a b : Nat) (r : Fr), bits a 23 8 ≠ 255 ∧ bits b 23 8 ≠ 255 ∧ (r = add32 a b ∨ r = sub32 a b ∨ r = mul32 a b) ∧ r.fl.sat = true :=
  ⟨max32, max32, mul32 max32 max32, by decide⟩
theorem witness_BlockElementsStayInRange : ∃ (n : Nat) (xs : List Nat), 2 ≤ n ∧ ∃ x ∈ xs, bits x 23 8 = 255 := ⟨2, [0x7F800000], by decide⟩

theorem witness_SplitPartsCoverOnce : ∃ (cnt g gran x : Nat), 0 < g ∧ 0 < gran ∧ x < cnt := ⟨33, 4, 32, 32, by decide⟩

theorem witness_WeightRowsAndTokens :
    (∃ (s : State) (k : Fin 64) (r : Fin 32) (ws : List (List Int × Nat)), inReset s.dev = false ∧ shadowOf s.dev k r ≠ 2 ∧ (coreOf s.dev k).cx.heldW
      = none ∧ r.val = rf s.dev (Reg.ARR_STATUS k) 12 6 % 32 ∧ rf s.dev (Reg.ARR_STATUS k) 12 6 ≤ 32 ∧ (∀ p ∈ ws, p.2 ≠ 255)) ∧
    (∃ (s : State) (k : Fin 64) (r : Fin 32) (ws : List (List Int × Nat)), inReset s.dev = false ∧ shadowOf s.dev k r = 2 ∧ (coreOf s.dev k).cx.heldW
      = none ∧ r.val = rf s.dev (Reg.ARR_STATUS k) 12 6 % 32 ∧ rf s.dev (Reg.ARR_STATUS k) 12 6 ≤ 32 ∧ (∀ p ∈ ws, p.2 ≠ 255)) ∧
    (∃ (s : State) (k : Fin 64) (p : PassIn) (q : Pass), inReset s.dev = false ∧ q = passOf p.wide p.a p.w p.acts p.tile p.row p.cols p.first p.init
      p.last p.out p.tok ∧ tokenStalled s.dev k = false ∧ (∀ x ∈ (coreOf s.dev k).passes, x.sameShape q = true) ∧ tileCheck s.dev k q = .ok ∧ (coreOf
      s.dev k).stale = false ∧ (∀ x ∈ q.acts, x.e ≠ 255)) ∧
    (∃ (s : State) (k : Fin 64) (r : Fin 32) (p : Pass), inReset s.dev = false ∧ (coreOf s.dev k).passes = [p] ∧ p.tok = r.val ∧ r.val < p.rows ∧
      shadowOf s.dev k r = 2 ∧ (coreOf s.dev k).cx.heldW = none) ∧
    (∃ (s : State) (k : Fin 64) (r : Fin 32) (w : RowWrite) (p : Pass), inReset s.dev = false ∧ (coreOf s.dev k).passes = [p] ∧ p.tok = r.val ∧ r.val
      < p.rows ∧ shadowOf s.dev k r = 2 ∧ (coreOf s.dev k).cx.heldW = some w ∧ w.row = r.val) ∧
    (∃ (s : State) (k : Fin 64) (r : Fin 32) (p : Pass), inReset s.dev = false ∧ (coreOf s.dev k).passes = [p] ∧ p.tok = r.val ∧ r.val < p.rows ∧
      shadowOf s.dev k r ≠ 2) ∧
    (∃ (s : State) (k : Fin 64) (p : Pass) (ps : List Pass) (t : Tile), inReset s.dev = false ∧ (coreOf s.dev k).passes = p :: ps ∧ 32 ≤ p.tok ∧
      p.last = false ∧ tileOf s.dev k p.tile = some t ∧ parityBad (coreOf s.dev k).cx p.rows = none) :=
  ⟨⟨(ws [(Reg.ARR_STATUS 0, 31 * 4096)] id), 0, (31), ([]), by decide +kernel⟩,
   ⟨(ws [(Reg.ARR_STATUS 0, 31 * 4096), (Reg.ARR_LOAD_WAIT_CNT 0, 3)] fun d => { d with cores := [(0, { cx := { shSt := [(31, 2)] } })] }), 0, (31), ([]), by decide +kernel⟩,
   ⟨(ws [(Reg.ARR_STATUS 0, 0)] id), 0, (⟨false, 1, 1, [], 3, 0, 32, true, [], true, 0, true⟩), (passOf false 1 1 [] 3 0 32 true [] true 0 true), by decide +kernel⟩,
   ⟨(ws [(Reg.ARR_STATUS 0, 0)] fun d => { d with cores := [(0, { cx := { shSt := [(0, 2)] }, passes := [{ passOf false 1 1 [([], 0)] 3 0 32 true [] true 0 true with tok := 0 }] })] }), 0, (0), ({ passOf false 1 1 [([], 0)] 3 0 32 true [] true 0 true with tok := 0 }), by decide +kernel⟩,
   ⟨(ws [(Reg.ARR_STATUS 0, 0)] fun d => { d with cores := [(0, { cx := { shSt := [(0, 2)], heldW := some ⟨0, [], false⟩ }, passes := [{ passOf false 1 1 [([], 0)] 3 0 32 true [] true 0 true with tok := 0 }] })] }), 0, (0), (⟨0, [], false⟩), ({ passOf false 1 1 [([], 0)] 3 0 32 true [] true 0 true with tok := 0 }), by decide +kernel⟩,
   ⟨(ws [(Reg.ARR_STATUS 0, 0)] fun d => { d with cores := [(0, { passes := [{ passOf false 1 1 [([], 0)] 3 0 32 true [] true 0 true with tok := 0 }] })] }), 0, (0), ({ passOf false 1 1 [([], 0)] 3 0 32 true [] true 0 true with tok := 0 }), by decide +kernel⟩,
   ⟨(ws [(Reg.ARR_STATUS 0, 0)] fun d => { d with cores := [(0, { cx := { tiles := [(3, some {})] }, passes := [passOf false 1 1 [] 3 0 0 true [] false 0 false] })] }), 0, (passOf false 1 1 [] 3 0 0 true [] false 0 false), ([]), ({}), by decide +kernel⟩⟩

theorem witness_CoreFaultsSelfTestsAndEngineReset :
    (∃ (s : State) (k : Fin 64), inReset s.dev = false ∧ tst s.dev (Reg.ARR_STATUS k) 2 = true ∧ (coreOf s.dev k).task.isSome = true) ∧
    (∃ (s : State) (k : Fin 64), inReset s.dev = false ∧ (coreOf s.dev k).task.isSome = true) ∧
    (∃ (s : State) (k : Fin 64) (p : Pass) (ps : List Pass) (x : Nat × Nat), inReset s.dev = false ∧ (coreOf s.dev k).task.isSome = true ∧ (coreOf
      s.dev k).passes = p :: ps ∧ 32 ≤ p.tok ∧ parityBad (coreOf s.dev k).cx p.rows = some x) ∧
    (∃ (s : State) (k : Fin 64), inReset s.dev = false ∧ coreInRunning s.dev k = false) ∧
    (∃ (s : State) (k : Fin 64), inReset s.dev = false ∧ coreInRunning s.dev k = true) ∧
    (∃ (s : State) (k : Fin 64), inReset s.dev = false ∧ tst s.dev (Reg.ARR_BIST_STATUS k) 0 = true ∧ domRuns s.dev k = true) ∧
    (∃ (s : State) (k : Fin 64), inReset s.dev = false ∧ isSCore k = false ∧ coreInRunning s.dev k = false) ∧
    (∃ (s : State) (k : Fin 64), inReset s.dev = false ∧ tst s.dev (Reg.WIN_BIST_STATUS k) 0 = true ∧ domRuns s.dev k = true) ∧
    (∃ (s : State) (k : Fin 64), inReset s.dev = false ∧ isSCore k = false) ∧
    (∃ (s : State) (k : Fin 64), inReset s.dev = false ∧ isSCore k = true) ∧
    (∃ (s : State) (k : Fin 64), inReset s.dev = false ∧ (coreOf s.dev k).weHold = true ∧ tst s.dev (Reg.WIN_STATUS k) 2 = false ∧ acting s.dev 1 k =
      false) ∧
    (∃ (s : State) (k : Fin 64), inReset s.dev = false ∧ isSCore k = false ∧ tst s.dev (Reg.WIN_STATUS k) 0 = true ∧ (coreOf s.dev k).weRel = false) ∧
    (∃ (s : State) (k : Fin 64), inReset s.dev = false ∧ isSCore k = false ∧ (coreOf s.dev k).weRel = true) ∧
    (∃ (s : State) (k : Fin 64), inReset s.dev = false ∧ (coreOf s.dev k).weRel = true) :=
  ⟨⟨(ws [(Reg.ARR_STATUS 0, 4)] fun d => { d with cores := [(0, { task := some wtask })] }), 0, by decide +kernel⟩,
   ⟨(ws [(Reg.ARR_STATUS 0, 4)] fun d => { d with cores := [(0, { task := some wtask })] }), 0, by decide +kernel⟩,
   ⟨(ws [(Reg.ARR_STATUS 0, 4)] fun d => { d with cores := [(0, { cx := { acW := [(0, [⟨[1], 0⟩])], acP := [(0, [0])] }, task := some wtask, passes := [passOf false 1 1 [([], 0)] 3 0 0 true [] false 0 false] })] }), 0, (passOf false 1 1 [([], 0)] 3 0 0 true [] false 0 false), ([]), ((0, 0)), by decide +kernel⟩,
   ⟨(ws ((Reg.ARR_BIST_STATUS 0, 0) :: (List.range 8).map fun c => (Reg.SCH_COVE_CORES_LO c, 0)) id), 0, by decide +kernel⟩,
   ⟨(ws [(Reg.ARR_BIST_STATUS 0, 0), (Reg.SCH_COVE_CORES_LO 0, 1), (Reg.SCH_COVE_STATE 0, 2)] id), 0, by decide +kernel⟩,
   ⟨(ws [(Reg.ARR_BIST_STATUS 0, 1), (Reg.ARR_STATUS 0, 0), (Reg.PWR_DOM_STATE 0, 0)] id), 0, by decide +kernel⟩,
   ⟨(ws ((Reg.WIN_BIST_STATUS 0, 0) :: (List.range 8).map fun c => (Reg.SCH_COVE_CORES_LO c, 0)) id), 0, by decide +kernel⟩,
   ⟨(ws [(Reg.WIN_BIST_STATUS 0, 1), (Reg.ARR_STATUS 0, 0), (Reg.PWR_DOM_STATE 0, 0)] id), 0, by decide +kernel⟩,
   ⟨(ws [(Reg.WIN_CTRL 0, 0), (Reg.WIN_STATUS 0, 2)] id), 0, by decide +kernel⟩,
   ⟨(ws [] id), 6, by decide +kernel⟩,
   ⟨(ws [(Reg.WIN_STATUS 0, 2)] fun d => { d with cores := [(0, { weHold := true })] }), 0, by decide +kernel⟩,
   ⟨(ws [(Reg.WIN_STATUS 0, 1), (Reg.WIN_CTRL 0, 1), (Reg.WIN_RESET_CNT 0, 4)] id), 0, by decide +kernel⟩,
   ⟨(ws [(Reg.WIN_STATUS 0, 1), (Reg.WIN_CTRL 0, 0), (Reg.WIN_RESET_CNT 0, 4)] fun d => { d with cores := [(0, { weRel := true })] }), 0, by decide +kernel⟩,
   ⟨(ws [(Reg.WIN_STATUS 0, 1)] fun d => { d with cores := [(0, { weRel := true })] }), 0, by decide +kernel⟩⟩

theorem witness_VeNestsRunTheirFunction :
    (∃ (s : State) (t : Task) (c : Cmd) (v : Ve), inReset s.dev = false ∧ (Instr.add 0 0, 2) ∈ veRows 0 0 ∧ AtNest s.dev 0 t c 0 ∧ (descOf s.dev 0 0).eng = 3 ∧
      veOf s.dev t.cove (descOf s.dev 0 0).epi = some v ∧ v.func = 2 ∧ (∀ p ∈ planOf s.dev 0 (descOf s.dev 0 0), p.cnt ≠ 0) ∧
      ∃ u, walkVe 0 (descOf s.dev 0 0) v (planOf s.dev 0 (descOf s.dev 0 0)) (nestStart 0 0 0 s.dev) = .ok u) ∧
    (∃ (s : State) (t : Task) (c : Cmd) (v : Ve), inReset s.dev = false ∧ AtNest s.dev 0 t c 0 ∧ (descOf s.dev 0 0).eng = 3 ∧
      veOf s.dev t.cove (descOf s.dev 0 0).epi = some v ∧ v.func = 2 ∧ ∃ p ∈ planOf s.dev 0 (descOf s.dev 0 0), p.cnt = 0) := by
  have h : ∀ {x : NR Dev}, x.isOk = true → ∃ u, x = .ok u := fun {x} hx => by cases x <;> first | exact ⟨_, rfl⟩ | cases hx
  refine ⟨⟨(wnest 0 [(0, 1027), (8, 0), (9, 0x80000000), (10, 1), (16, 256), (17, 0x80000000), (18, 1), (20, 512), (21, 0x80000000), (22, 1), (24, 16385), (25, 1)] [(1024, 1), (2048, 2), (2052, 32)] [] []), wtask, ⟨1, 0, false, 0, 0, 0, 0, false⟩, ⟨2, 0, 0, false, 32, 0, 0, 0, 0, false⟩, by decide +kernel, by simp [veRows], by decide +kernel, by decide +kernel, by decide +kernel, by decide +kernel, by decide +kernel,
    h (by decide +kernel)⟩, ⟨(wnest 0 [(0, 1027), (8, 0), (9, 0x80000000), (10, 1), (16, 256), (17, 0x80000000), (18, 1), (20, 512), (21, 0x80000000), (22, 1), (24, 16385), (25, 0)] [(1024, 1), (2048, 2), (2052, 32)] [] []), wtask, ⟨1, 0, false, 0, 0, 0, 0, false⟩, ⟨2, 0, 0, false, 32, 0, 0, 0, 0, false⟩, by decide +kernel, by decide +kernel, by decide +kernel, by decide +kernel, by decide +kernel, by decide +kernel⟩⟩

theorem witness_MatrixProductsRunTheirNest :
    (∃ (s : State) (t : Task) (c : Cmd), inReset s.dev = false ∧ AtNest s.dev 6 t c 0 ∧ (descOf s.dev 6 0).eng = 0 ∧ (∀ p ∈ planOf s.dev 6 (descOf s.dev 6 0), p.l.dim ≠ 3 → p.cnt ≠ 0) ∧
      ∃ u, walkMat 6 t.cove (descOf s.dev 6 0) false (planOf s.dev 6 (descOf s.dev 6 0)) (nestStart 6 0 0 s.dev) = .ok u) ∧
    (∃ (s : State) (t : Task) (c : Cmd), inReset s.dev = false ∧ AtNest s.dev 6 t c 0 ∧ (descOf s.dev 6 0).eng = 0 ∧ ∃ p ∈ planOf s.dev 6 (descOf s.dev 6 0), p.l.dim ≠ 3 ∧ p.cnt = 0) := by
  have h : ∀ {x : NR Dev}, x.isOk = true → ∃ u, x = .ok u := fun {x} hx => by cases x <;> first | exact ⟨_, rfl⟩ | cases hx
  refine ⟨⟨wnest 6 [(0, 0x804), (1, 8), (4, 0xFFFF), (8, 0), (9, 0x80000000), (10, 1), (11, 0x800), (12, 256), (13, 0x80000000), (14, 64), (15, 0x800), (24, 32 * 16384 + 2), (25, 1), (30, 16385), (31, 1)] [(1024, 1)] [] [], wtask, ⟨1, 0, false, 0, 0, 0, 0, false⟩, by decide +kernel, by decide +kernel, by decide +kernel, by decide +kernel, h (by decide +kernel)⟩,
    ⟨wnest 6 [(0, 0x804), (1, 8), (4, 0xFFFF), (8, 0), (9, 0x80000000), (10, 1), (11, 0x800), (12, 256), (13, 0x80000000), (14, 64), (15, 0x800), (24, 32 * 16384 + 2), (25, 1), (30, 16385), (31, 0)] [(1024, 1)] [] [], wtask, ⟨1, 0, false, 0, 0, 0, 0, false⟩, by decide +kernel, by decide +kernel, by decide +kernel, by decide +kernel⟩⟩

theorem witness_WindowCommandsRunTheirNest :
    (∃ (s : State) (t : Task) (c : Cmd) (w : WinD), inReset s.dev = false ∧ AtNest s.dev 0 t c 0 ∧ w = winAt s.dev 0 (descOf s.dev 0 0).wdesc ∧
      WinLegal (descOf s.dev 0 0) w (planOf s.dev 0 (descOf s.dev 0 0)) ∧ weReady s.dev 0 = true ∧ (descOf s.dev 0 0).eng = 2 ∧ w.op = 4 ∧
      ∃ u, weWalk 0 t.cove false (descOf s.dev 0 0) w (bodiesOf (planOf s.dev 0 (descOf s.dev 0 0))) (nestStart 0 0 0 s.dev) = .ok u) ∧
    (∃ (s : State) (t : Task) (c : Cmd) (w : WinD), inReset s.dev = false ∧ AtNest s.dev 0 t c 0 ∧ w = winAt s.dev 0 (descOf s.dev 0 0).wdesc ∧
      WinLegal (descOf s.dev 0 0) w (planOf s.dev 0 (descOf s.dev 0 0)) ∧ weReady s.dev 0 = true ∧ (descOf s.dev 0 0).eng = 2 ∧ w.op = 2 ∧
      524288 < lineNeed (descOf s.dev 0 0) w (bodiesOf (planOf s.dev 0 (descOf s.dev 0 0)))) ∧
    (∃ (s : State) (t : Task) (c : Cmd) (w : WinD), inReset s.dev = false ∧ AtNest s.dev 6 t c 0 ∧ w = winAt s.dev 6 (descOf s.dev 6 0).wdesc ∧
      WinLegal (descOf s.dev 6 0) w (planOf s.dev 6 (descOf s.dev 6 0)) ∧ tst s.dev (Reg.WIN_STATUS 6) 0 = true ∧ (descOf s.dev 6 0).eng = 1 ∧ w.op = 0 ∧ w.plainOk = true ∧ w.fh = 1 ∧ w.fw = 1 ∧
      ∃ u, weWalk 6 t.cove true (descOf s.dev 6 0) w (bodiesOf (planOf s.dev 6 (descOf s.dev 6 0))) (nestStart 6 0 0 s.dev) = .ok u) := by
  have h : ∀ {x : NR Dev}, x.isOk = true → ∃ u, x = .ok u := fun {x} hx => by cases x <;> first | exact ⟨_, rfl⟩ | cases hx
  refine ⟨⟨wnest 0 [(0, 1026), (3, 4096), (4, 0xFFFF), (8, 0), (9, 0x80000000), (10, 1), (11, 0), (16, 256), (17, 0x80000000), (18, 1), (19, 0x300), (24, 16388), (25, 1)] [(1024, 1)] [(4096, 4), (4100, 1), (4102, 1), (4104, 1), (4108, 32)] [(Reg.WIN_STATUS 0, 2)], wtask, ⟨1, 0, false, 0, 0, 0, 0, false⟩, _, by decide +kernel, by decide +kernel, rfl, by decide +kernel, by decide +kernel, by decide +kernel, by decide +kernel, h (by decide +kernel)⟩,
    ⟨wnest 0 [(0, 1026), (3, 4096), (4, 0xFFFF), (8, 0), (9, 0x80000000), (10, 1), (11, 0x800), (16, 256), (17, 0x80000000), (18, 1), (19, 0x300), (24, 16388), (25, 1)] [(1024, 1)] [(4096, 2), (4100, 1), (4103, 1), (4104, 255), (4105, 15)] [(Reg.WIN_STATUS 0, 2)], wtask, ⟨1, 0, false, 0, 0, 0, 0, false⟩, _, by decide +kernel, by decide +kernel, rfl, by decide +kernel, by decide +kernel, by decide +kernel, by decide +kernel, by decide +kernel⟩,
    ⟨wnest 6 [(0, 1025), (3, 4096), (4, 0xFFFF), (8, 0), (9, 0x80000000), (10, 1), (11, 0x800), (12, 256), (13, 0x80000000), (14, 64), (15, 0x800), (24, 16388), (25, 1)] [(1024, 1)] [(25169923, 4), (25169924, 1), (25169926, 1)] [(Reg.WIN_STATUS 6, 1)], wtask, ⟨1, 0, false, 0, 0, 0, 0, false⟩, _, by decide +kernel, by decide +kernel, rfl, by decide +kernel, by decide +kernel, by decide +kernel, by decide +kernel, by decide +kernel, by decide +kernel, by decide +kernel, h (by decide +kernel)⟩⟩

theorem witness_LineBufferFillsAndGathers :
    (∃ (s : State) (g : Desc) (w : WinD) (b : Body) (bl : WBlk) (p : WPart), inReset s.dev = false ∧ weReady s.dev 0 = true ∧ weGeom s.dev 0 0 0 = some (g, w, b, bl, p) ∧ (coreOf s.dev 0).cx.we.at_ = some ⟨0, 0, 0⟩ ∧
      0 = nextInput w p bl (coreOf s.dev 0).cx.we ∧ 0 ≤ inRow w p bl.y1 (p.hy - 1) ∧ rowNeeded w p bl.y0 bl.y1 0 = true ∧
      (coreOf s.dev 0).cx.we.slots = [] ∧ slotsOf w p ≠ 0 ∧ ∃ ps, readLine 0 g w p b bl 0 s.dev = .ok ps) ∧
    (∃ (s : State) (g : Desc) (w : WinD) (b : Body) (bl : WBlk) (p : WPart) (ts : List Tap), inReset s.dev = false ∧ weReady s.dev 0 = true ∧ (coreOf s.dev 0).cx.we.at_ = some ⟨0, 0, 0⟩ ∧ weGeom s.dev 0 0 0 = some (g, w, b, bl, p) ∧
      ts = (if w.op ≤ 1 then partSets w p (arraysOf 0) b else [convTaps w p]).getD 0 [] ∧ 0 < bl.pixels ∧ ts ≠ [] ∧
      ∀ t ∈ ts, inRow w p (bl.pixel 0).1 t.fy < (coreOf s.dev 0).cx.we.written ∧ (slotWith (coreOf s.dev 0).cx.we (inRow w p (bl.pixel 0).1 t.fy)).isSome = true) := by
  have h : ∀ {x : NR (List Pip)}, x.isOk = true → ∃ u, x = .ok u := fun {x} hx => by cases x <;> first | exact ⟨_, rfl⟩ | cases hx
  exact ⟨⟨(fun s => { s with dev := { s.dev with cores := [(0, { task := some wtask, cx := { we := { at_ := some ⟨0, 0, 0⟩ } } })] } }) (wnest 0 [(0, 1026), (3, 4096), (4, 0xFFFF), (8, 0), (9, 0x80000000), (10, 1), (11, 0x800), (16, 256), (17, 0x80000000), (18, 1), (19, 0), (24, 16388), (25, 1)] [(1024, 1)] [(4096, 2), (4100, 1), (4102, 1), (4104, 1)] [(Reg.WIN_STATUS 0, 2)]), _, _, _, _, _, by decide +kernel, by decide +kernel, rfl, by decide +kernel, by decide +kernel, by decide +kernel, by decide +kernel, by decide +kernel, by decide +kernel, h (by decide +kernel)⟩,
    ⟨(fun s => { s with dev := { s.dev with cores := [(0, { task := some wtask, cx := { we := { at_ := some ⟨0, 0, 0⟩, written := 1, slots := [(0, some ⟨0, [zeroPip]⟩)] } } })] } }) (wnest 0 [(0, 1026), (3, 4096), (4, 0xFFFF), (8, 0), (9, 0x80000000), (10, 1), (11, 0x800), (16, 256), (17, 0x80000000), (18, 1), (19, 0), (24, 16388), (25, 1)] [(1024, 1)] [(4096, 2), (4100, 1), (4102, 1), (4104, 1)] [(Reg.WIN_STATUS 0, 2)]),
      _, _, _, _, _, _, by decide +kernel, by decide +kernel, by decide +kernel, rfl, rfl, by decide +kernel, by decide +kernel, by decide +kernel⟩⟩

theorem witness_DescriptorWritesKeepTheRules :
    (∃ (s : State) (k : Fin 64) (v : Word) (c : Fin 8), inReset s.dev = false ∧ rangeOverlaps s.dev k c (bits v.toNat 0 6) (bits v.toNat 6 7) = false) ∧
    (∃ (s : State) (k : Fin 64) (v : Word) (c : Fin 8), inReset s.dev = false ∧ rangeOverlaps s.dev k c (bits v.toNat 0 6) (bits v.toNat 6 7) = true) ∧
    (∃ (s : State) (k : Fin 64), inReset s.dev = false ∧ coreInRunning s.dev k = false) ∧
    (∃ (s : State) (k : Fin 64), inReset s.dev = false ∧ coreInRunning s.dev k = true) ∧
    (∃ (s : State) (k : Fin 64), inReset s.dev = false ∧ coreInRunning s.dev k = false) ∧
    (∃ (s : State) (k : Fin 64), inReset s.dev = false ∧ coreInRunning s.dev k = true) :=
  ⟨⟨(ws ((List.range 8).map fun c => (Reg.LPD_RANGE 0 c, 0)) id), 0, 0x2085, (3), by decide +kernel⟩,
   ⟨(ws ((List.range 8).map fun c => (Reg.LPD_RANGE 0 c, 0x85)) id), 0, 0x085, (3), by decide +kernel⟩,
   ⟨(ws ((List.range 8).map fun c => (Reg.SCH_COVE_CORES_LO c, 0)) id), 0, by decide +kernel⟩,
   ⟨(ws [(Reg.SCH_COVE_CORES_LO 0, 1), (Reg.SCH_COVE_STATE 0, 2)] id), 0, by decide +kernel⟩,
   ⟨(ws ((List.range 8).map fun c => (Reg.SCH_COVE_CORES_LO c, 0)) id), 0, by decide +kernel⟩,
   ⟨(ws [(Reg.SCH_COVE_CORES_LO 0, 1), (Reg.SCH_COVE_STATE 0, 2)] id), 0, by decide +kernel⟩⟩

theorem witness_AttentionCommandsRunOrFault :
    (∃ (s : State) (k : Fin 64) (t : Task) (c : Cmd) (x : Attn) (u : Dev), inReset s.dev = false ∧ isSCore k = true ∧ AtCommand s.dev k t c ∧ c.type =
      2 ∧ x = attnAt s.dev k c.arg ∧ x.append = false ∧ u = placeTable k t.cove x (cmdStart k s.dev) ∧ attnBad u x (lenTable u k t.cove x) = false ∧
      x.len ≠ 0 ∧ (∀ e ∈ lenTable u k t.cove x, lenBad u x e = false) ∧ (lenTable u k t.cove x).any (namesWithheld u x) = false ∧ attnReach u k x
      (lenTable u k t.cove x) = none ∧ queryBad u k x (rowsOf (lenTable u k t.cove x)) = false) ∧
    (∃ (s : State) (k : Fin 64) (t : Task) (c : Cmd) (x : Attn) (u : Dev), inReset s.dev = false ∧ isSCore k = true ∧ AtCommand s.dev k t c ∧ c.type =
      2 ∧ x = attnAt s.dev k c.arg ∧ x.append = true ∧ u = placeTable k t.cove x (cmdStart k s.dev) ∧ attnBad u x (lenTable u k t.cove x) = false ∧
      x.len ≠ 0 ∧ (∀ e ∈ lenTable u k t.cove x, lenBad u x e = false) ∧ (lenTable u k t.cove x).any (namesWithheld u x) = false ∧ attnReach u k x
      (lenTable u k t.cove x) = none ∧ queryBad u k x (rowsOf (lenTable u k t.cove x)) = false) ∧
    (∃ (s : State) (k : Fin 64) (t : Task) (c : Cmd) (x : Attn) (u : Dev), inReset s.dev = false ∧ isSCore k = true ∧ AtCommand s.dev k t c ∧ c.type =
      2 ∧ x = attnAt s.dev k c.arg ∧ x.append = false ∧ u = placeTable k t.cove x (cmdStart k s.dev) ∧ attnBad u x (lenTable u k t.cove x) = false ∧
      x.len = 0) ∧
    (∃ (s : State) (k : Fin 64) (t : Task) (c : Cmd) (x : Attn) (u : Dev), inReset s.dev = false ∧ isSCore k = true ∧ AtCommand s.dev k t c ∧ c.type =
      2 ∧ x = attnAt s.dev k c.arg ∧ x.append = true ∧ u = placeTable k t.cove x (cmdStart k s.dev) ∧ attnBad u x (lenTable u k t.cove x) = false ∧
      x.len = 0) ∧
    (∃ (s : State) (k : Fin 64) (t : Task) (c : Cmd) (x : Attn) (u : Dev), inReset s.dev = false ∧ isSCore k = true ∧ AtCommand s.dev k t c ∧ c.type =
      2 ∧ x = attnAt s.dev k c.arg ∧ x.append = false ∧ u = placeTable k t.cove x (cmdStart k s.dev) ∧ attnBad u x (lenTable u k t.cove x) = true) ∧
    (∃ (s : State) (k : Fin 64) (t : Task) (c : Cmd) (x : Attn) (u : Dev) (e : LenEnt), inReset s.dev = false ∧ isSCore k = true ∧ AtCommand s.dev k t
      c ∧ c.type = 2 ∧ x = attnAt s.dev k c.arg ∧ x.append = true ∧ u = placeTable k t.cove x (cmdStart k s.dev) ∧ attnBad u x (lenTable u k t.cove x)
      = false ∧ x.len ≠ 0 ∧ (lenTable u k t.cove x).find? (lenBad u x) = some e) ∧
    (∃ (s : State) (k : Fin 64) (t : Task) (c : Cmd) (x : Attn) (u : Dev), inReset s.dev = false ∧ isSCore k = true ∧ AtCommand s.dev k t c ∧ c.type =
      2 ∧ x = attnAt s.dev k c.arg ∧ x.append = false ∧ u = placeTable k t.cove x (cmdStart k s.dev) ∧ attnBad u x (lenTable u k t.cove x) = false ∧
      x.len ≠ 0 ∧ (∀ e ∈ lenTable u k t.cove x, lenBad u x e = false) ∧ (lenTable u k t.cove x).any (namesWithheld u x) = true) ∧
    (∃ (s : State) (k : Fin 64) (t : Task) (c : Cmd) (x : Attn) (u : Dev), inReset s.dev = false ∧ isSCore k = true ∧ AtCommand s.dev k t c ∧ c.type =
      2 ∧ x = attnAt s.dev k c.arg ∧ x.append = false ∧ u = placeTable k t.cove x (cmdStart k s.dev) ∧ attnBad u x (lenTable u k t.cove x) = false ∧
      x.len ≠ 0 ∧ (∀ e ∈ lenTable u k t.cove x, lenBad u x e = false) ∧ (lenTable u k t.cove x).any (namesWithheld u x) = false ∧ (attnReach u k x
      (lenTable u k t.cove x)).isSome = true) ∧
    (∃ (s : State) (k : Fin 64) (t : Task) (c : Cmd) (x : Attn) (u : Dev), inReset s.dev = false ∧ isSCore k = true ∧ AtCommand s.dev k t c ∧ c.type =
      2 ∧ x = attnAt s.dev k c.arg ∧ x.append = false ∧ u = placeTable k t.cove x (cmdStart k s.dev)) :=
  ⟨⟨((wnest 6 [] [(1024, 2), (65538, 8)] [(25165824, 64), (25165825, 32), (25165829, 1), (25165836, 64), (25165841, 2), (25165894, 1), (25165896, 1)] ([(Reg.KVF_FRAME_BYTES, 2048), (Reg.SEQ_TABLE 0 0, 2 + 4096), (Reg.SEQ_TABLE 0 4, 65536), (Reg.SEQ_TABLE 0 5, 0), (Reg.KVF_BASE0_LO, 131072), (Reg.KVF_BASE0_HI, 0), (Reg.KVF_FRAMES0, 1), (Reg.KVF_FRAMES1, 0), (Reg.KVF_TABLE 0, 2049), (Reg.SEQ_EVENT, 0), (Reg.LPD_CMD_CNT 6, 0), (Reg.ARR_STATUS 6, 0)] ++ wreach))), 6, wtask, ⟨2, 0, false, 0, 0, 0, 0, false⟩, (attnAt (wnest 6 [] [(1024, 2), (65538, 8)] [(25165824, 64), (25165825, 32), (25165829, 1), (25165836, 64), (25165841, 2), (25165894, 1), (25165896, 1)] ([(Reg.KVF_FRAME_BYTES, 2048), (Reg.SEQ_TABLE 0 0, 2 + 4096), (Reg.SEQ_TABLE 0 4, 65536), (Reg.SEQ_TABLE 0 5, 0), (Reg.KVF_BASE0_LO, 131072), (Reg.KVF_BASE0_HI, 0), (Reg.KVF_FRAMES0, 1), (Reg.KVF_FRAMES1, 0), (Reg.KVF_TABLE 0, 2049), (Reg.SEQ_EVENT, 0), (Reg.LPD_CMD_CNT 6, 0), (Reg.ARR_STATUS 6, 0)] ++ wreach)).dev 6 0), (placeTable 6 0 (attnAt (wnest 6 [] [(1024, 2), (65538, 8)] [(25165824, 64), (25165825, 32), (25165829, 1), (25165836, 64), (25165841, 2), (25165894, 1), (25165896, 1)] ([(Reg.KVF_FRAME_BYTES, 2048), (Reg.SEQ_TABLE 0 0, 2 + 4096), (Reg.SEQ_TABLE 0 4, 65536), (Reg.SEQ_TABLE 0 5, 0), (Reg.KVF_BASE0_LO, 131072), (Reg.KVF_BASE0_HI, 0), (Reg.KVF_FRAMES0, 1), (Reg.KVF_FRAMES1, 0), (Reg.KVF_TABLE 0, 2049), (Reg.SEQ_EVENT, 0), (Reg.LPD_CMD_CNT 6, 0), (Reg.ARR_STATUS 6, 0)] ++ wreach)).dev 6 0) (cmdStart 6 (wnest 6 [] [(1024, 2), (65538, 8)] [(25165824, 64), (25165825, 32), (25165829, 1), (25165836, 64), (25165841, 2), (25165894, 1), (25165896, 1)] ([(Reg.KVF_FRAME_BYTES, 2048), (Reg.SEQ_TABLE 0 0, 2 + 4096), (Reg.SEQ_TABLE 0 4, 65536), (Reg.SEQ_TABLE 0 5, 0), (Reg.KVF_BASE0_LO, 131072), (Reg.KVF_BASE0_HI, 0), (Reg.KVF_FRAMES0, 1), (Reg.KVF_FRAMES1, 0), (Reg.KVF_TABLE 0, 2049), (Reg.SEQ_EVENT, 0), (Reg.LPD_CMD_CNT 6, 0), (Reg.ARR_STATUS 6, 0)] ++ wreach)).dev)), by decide +kernel⟩,
   ⟨((wnest 6 [] [(1024, 2), (65538, 8)] [(25165824, 65), (25165825, 32), (25165829, 1), (25165836, 64), (25165841, 2), (25165894, 1), (25165896, 1), (25165900, 1)] ([(Reg.KVF_FRAME_BYTES, 2048), (Reg.SEQ_TABLE 0 0, 2 + 4096), (Reg.SEQ_TABLE 0 4, 65536), (Reg.SEQ_TABLE 0 5, 0), (Reg.KVF_BASE0_LO, 131072), (Reg.KVF_BASE0_HI, 0), (Reg.KVF_FRAMES0, 1), (Reg.KVF_FRAMES1, 0), (Reg.KVF_TABLE 0, 2049), (Reg.SEQ_EVENT, 0), (Reg.LPD_CMD_CNT 6, 0), (Reg.ARR_STATUS 6, 0)] ++ wreach))), 6, wtask, ⟨2, 0, false, 0, 0, 0, 0, false⟩, (attnAt (wnest 6 [] [(1024, 2), (65538, 8)] [(25165824, 65), (25165825, 32), (25165829, 1), (25165836, 64), (25165841, 2), (25165894, 1), (25165896, 1), (25165900, 1)] ([(Reg.KVF_FRAME_BYTES, 2048), (Reg.SEQ_TABLE 0 0, 2 + 4096), (Reg.SEQ_TABLE 0 4, 65536), (Reg.SEQ_TABLE 0 5, 0), (Reg.KVF_BASE0_LO, 131072), (Reg.KVF_BASE0_HI, 0), (Reg.KVF_FRAMES0, 1), (Reg.KVF_FRAMES1, 0), (Reg.KVF_TABLE 0, 2049), (Reg.SEQ_EVENT, 0), (Reg.LPD_CMD_CNT 6, 0), (Reg.ARR_STATUS 6, 0)] ++ wreach)).dev 6 0), (placeTable 6 0 (attnAt (wnest 6 [] [(1024, 2), (65538, 8)] [(25165824, 65), (25165825, 32), (25165829, 1), (25165836, 64), (25165841, 2), (25165894, 1), (25165896, 1), (25165900, 1)] ([(Reg.KVF_FRAME_BYTES, 2048), (Reg.SEQ_TABLE 0 0, 2 + 4096), (Reg.SEQ_TABLE 0 4, 65536), (Reg.SEQ_TABLE 0 5, 0), (Reg.KVF_BASE0_LO, 131072), (Reg.KVF_BASE0_HI, 0), (Reg.KVF_FRAMES0, 1), (Reg.KVF_FRAMES1, 0), (Reg.KVF_TABLE 0, 2049), (Reg.SEQ_EVENT, 0), (Reg.LPD_CMD_CNT 6, 0), (Reg.ARR_STATUS 6, 0)] ++ wreach)).dev 6 0) (cmdStart 6 (wnest 6 [] [(1024, 2), (65538, 8)] [(25165824, 65), (25165825, 32), (25165829, 1), (25165836, 64), (25165841, 2), (25165894, 1), (25165896, 1), (25165900, 1)] ([(Reg.KVF_FRAME_BYTES, 2048), (Reg.SEQ_TABLE 0 0, 2 + 4096), (Reg.SEQ_TABLE 0 4, 65536), (Reg.SEQ_TABLE 0 5, 0), (Reg.KVF_BASE0_LO, 131072), (Reg.KVF_BASE0_HI, 0), (Reg.KVF_FRAMES0, 1), (Reg.KVF_FRAMES1, 0), (Reg.KVF_TABLE 0, 2049), (Reg.SEQ_EVENT, 0), (Reg.LPD_CMD_CNT 6, 0), (Reg.ARR_STATUS 6, 0)] ++ wreach)).dev)), by decide +kernel⟩,
   ⟨((wnest 6 [] [(1024, 2), (65538, 8)] [(25165824, 64), (25165825, 32), (25165836, 64), (25165841, 2)] [(Reg.KVF_FRAME_BYTES, 2048), (Reg.SEQ_TABLE 0 0, 2 + 4096), (Reg.SEQ_TABLE 0 4, 65536), (Reg.SEQ_TABLE 0 5, 0), (Reg.KVF_BASE0_LO, 131072), (Reg.KVF_BASE0_HI, 0), (Reg.KVF_FRAMES0, 1), (Reg.KVF_FRAMES1, 0), (Reg.KVF_TABLE 0, 2049), (Reg.SEQ_EVENT, 0), (Reg.LPD_CMD_CNT 6, 0), (Reg.ARR_STATUS 6, 0)])), 6, wtask, ⟨2, 0, false, 0, 0, 0, 0, false⟩, (attnAt (wnest 6 [] [(1024, 2), (65538, 8)] [(25165824, 64), (25165825, 32), (25165836, 64), (25165841, 2)] [(Reg.KVF_FRAME_BYTES, 2048), (Reg.SEQ_TABLE 0 0, 2 + 4096), (Reg.SEQ_TABLE 0 4, 65536), (Reg.SEQ_TABLE 0 5, 0), (Reg.KVF_BASE0_LO, 131072), (Reg.KVF_BASE0_HI, 0), (Reg.KVF_FRAMES0, 1), (Reg.KVF_FRAMES1, 0), (Reg.KVF_TABLE 0, 2049), (Reg.SEQ_EVENT, 0), (Reg.LPD_CMD_CNT 6, 0), (Reg.ARR_STATUS 6, 0)]).dev 6 0), (placeTable 6 0 (attnAt (wnest 6 [] [(1024, 2), (65538, 8)] [(25165824, 64), (25165825, 32), (25165836, 64), (25165841, 2)] [(Reg.KVF_FRAME_BYTES, 2048), (Reg.SEQ_TABLE 0 0, 2 + 4096), (Reg.SEQ_TABLE 0 4, 65536), (Reg.SEQ_TABLE 0 5, 0), (Reg.KVF_BASE0_LO, 131072), (Reg.KVF_BASE0_HI, 0), (Reg.KVF_FRAMES0, 1), (Reg.KVF_FRAMES1, 0), (Reg.KVF_TABLE 0, 2049), (Reg.SEQ_EVENT, 0), (Reg.LPD_CMD_CNT 6, 0), (Reg.ARR_STATUS 6, 0)]).dev 6 0) (cmdStart 6 (wnest 6 [] [(1024, 2), (65538, 8)] [(25165824, 64), (25165825, 32), (25165836, 64), (25165841, 2)] [(Reg.KVF_FRAME_BYTES, 2048), (Reg.SEQ_TABLE 0 0, 2 + 4096), (Reg.SEQ_TABLE 0 4, 65536), (Reg.SEQ_TABLE 0 5, 0), (Reg.KVF_BASE0_LO, 131072), (Reg.KVF_BASE0_HI, 0), (Reg.KVF_FRAMES0, 1), (Reg.KVF_FRAMES1, 0), (Reg.KVF_TABLE 0, 2049), (Reg.SEQ_EVENT, 0), (Reg.LPD_CMD_CNT 6, 0), (Reg.ARR_STATUS 6, 0)]).dev)), by decide +kernel⟩,
   ⟨((wnest 6 [] [(1024, 2), (65538, 8)] [(25165824, 65), (25165825, 32), (25165836, 64), (25165841, 2), (25165900, 1)] [(Reg.KVF_FRAME_BYTES, 2048), (Reg.SEQ_TABLE 0 0, 2 + 4096), (Reg.SEQ_TABLE 0 4, 65536), (Reg.SEQ_TABLE 0 5, 0), (Reg.KVF_BASE0_LO, 131072), (Reg.KVF_BASE0_HI, 0), (Reg.KVF_FRAMES0, 1), (Reg.KVF_FRAMES1, 0), (Reg.KVF_TABLE 0, 2049), (Reg.SEQ_EVENT, 0), (Reg.LPD_CMD_CNT 6, 0), (Reg.ARR_STATUS 6, 0)])), 6, wtask, ⟨2, 0, false, 0, 0, 0, 0, false⟩, (attnAt (wnest 6 [] [(1024, 2), (65538, 8)] [(25165824, 65), (25165825, 32), (25165836, 64), (25165841, 2), (25165900, 1)] [(Reg.KVF_FRAME_BYTES, 2048), (Reg.SEQ_TABLE 0 0, 2 + 4096), (Reg.SEQ_TABLE 0 4, 65536), (Reg.SEQ_TABLE 0 5, 0), (Reg.KVF_BASE0_LO, 131072), (Reg.KVF_BASE0_HI, 0), (Reg.KVF_FRAMES0, 1), (Reg.KVF_FRAMES1, 0), (Reg.KVF_TABLE 0, 2049), (Reg.SEQ_EVENT, 0), (Reg.LPD_CMD_CNT 6, 0), (Reg.ARR_STATUS 6, 0)]).dev 6 0), (placeTable 6 0 (attnAt (wnest 6 [] [(1024, 2), (65538, 8)] [(25165824, 65), (25165825, 32), (25165836, 64), (25165841, 2), (25165900, 1)] [(Reg.KVF_FRAME_BYTES, 2048), (Reg.SEQ_TABLE 0 0, 2 + 4096), (Reg.SEQ_TABLE 0 4, 65536), (Reg.SEQ_TABLE 0 5, 0), (Reg.KVF_BASE0_LO, 131072), (Reg.KVF_BASE0_HI, 0), (Reg.KVF_FRAMES0, 1), (Reg.KVF_FRAMES1, 0), (Reg.KVF_TABLE 0, 2049), (Reg.SEQ_EVENT, 0), (Reg.LPD_CMD_CNT 6, 0), (Reg.ARR_STATUS 6, 0)]).dev 6 0) (cmdStart 6 (wnest 6 [] [(1024, 2), (65538, 8)] [(25165824, 65), (25165825, 32), (25165836, 64), (25165841, 2), (25165900, 1)] [(Reg.KVF_FRAME_BYTES, 2048), (Reg.SEQ_TABLE 0 0, 2 + 4096), (Reg.SEQ_TABLE 0 4, 65536), (Reg.SEQ_TABLE 0 5, 0), (Reg.KVF_BASE0_LO, 131072), (Reg.KVF_BASE0_HI, 0), (Reg.KVF_FRAMES0, 1), (Reg.KVF_FRAMES1, 0), (Reg.KVF_TABLE 0, 2049), (Reg.SEQ_EVENT, 0), (Reg.LPD_CMD_CNT 6, 0), (Reg.ARR_STATUS 6, 0)]).dev)), by decide +kernel⟩,
   ⟨((wnest 6 [] [(1024, 2), (65538, 8)] [(25165824, 64), (25165825, 64), (25165829, 1), (25165836, 64)] [(Reg.KVF_FRAME_BYTES, 2048), (Reg.SEQ_TABLE 0 0, 2 + 4096), (Reg.SEQ_TABLE 0 4, 65536), (Reg.SEQ_TABLE 0 5, 0), (Reg.KVF_BASE0_LO, 131072), (Reg.KVF_BASE0_HI, 0), (Reg.KVF_FRAMES0, 1), (Reg.KVF_FRAMES1, 0), (Reg.KVF_TABLE 0, 2049), (Reg.SEQ_EVENT, 0), (Reg.LPD_CMD_CNT 6, 0), (Reg.ARR_STATUS 6, 0)])), 6, wtask, ⟨2, 0, false, 0, 0, 0, 0, false⟩, (attnAt (wnest 6 [] [(1024, 2), (65538, 8)] [(25165824, 64), (25165825, 64), (25165829, 1), (25165836, 64)] [(Reg.KVF_FRAME_BYTES, 2048), (Reg.SEQ_TABLE 0 0, 2 + 4096), (Reg.SEQ_TABLE 0 4, 65536), (Reg.SEQ_TABLE 0 5, 0), (Reg.KVF_BASE0_LO, 131072), (Reg.KVF_BASE0_HI, 0), (Reg.KVF_FRAMES0, 1), (Reg.KVF_FRAMES1, 0), (Reg.KVF_TABLE 0, 2049), (Reg.SEQ_EVENT, 0), (Reg.LPD_CMD_CNT 6, 0), (Reg.ARR_STATUS 6, 0)]).dev 6 0), (placeTable 6 0 (attnAt (wnest 6 [] [(1024, 2), (65538, 8)] [(25165824, 64), (25165825, 64), (25165829, 1), (25165836, 64)] [(Reg.KVF_FRAME_BYTES, 2048), (Reg.SEQ_TABLE 0 0, 2 + 4096), (Reg.SEQ_TABLE 0 4, 65536), (Reg.SEQ_TABLE 0 5, 0), (Reg.KVF_BASE0_LO, 131072), (Reg.KVF_BASE0_HI, 0), (Reg.KVF_FRAMES0, 1), (Reg.KVF_FRAMES1, 0), (Reg.KVF_TABLE 0, 2049), (Reg.SEQ_EVENT, 0), (Reg.LPD_CMD_CNT 6, 0), (Reg.ARR_STATUS 6, 0)]).dev 6 0) (cmdStart 6 (wnest 6 [] [(1024, 2), (65538, 8)] [(25165824, 64), (25165825, 64), (25165829, 1), (25165836, 64)] [(Reg.KVF_FRAME_BYTES, 2048), (Reg.SEQ_TABLE 0 0, 2 + 4096), (Reg.SEQ_TABLE 0 4, 65536), (Reg.SEQ_TABLE 0 5, 0), (Reg.KVF_BASE0_LO, 131072), (Reg.KVF_BASE0_HI, 0), (Reg.KVF_FRAMES0, 1), (Reg.KVF_FRAMES1, 0), (Reg.KVF_TABLE 0, 2049), (Reg.SEQ_EVENT, 0), (Reg.LPD_CMD_CNT 6, 0), (Reg.ARR_STATUS 6, 0)]).dev)), by decide +kernel⟩,
   ⟨((wnest 6 [] [(1024, 2), (65538, 8)] [(25165824, 65), (25165825, 32), (25165829, 1), (25165836, 64), (25165841, 2), (25165894, 1), (25165896, 40), (25165900, 1)] [(Reg.KVF_FRAME_BYTES, 2048), (Reg.SEQ_TABLE 0 0, 2 + 4096), (Reg.SEQ_TABLE 0 4, 65536), (Reg.SEQ_TABLE 0 5, 0), (Reg.KVF_BASE0_LO, 131072), (Reg.KVF_BASE0_HI, 0), (Reg.KVF_FRAMES0, 1), (Reg.KVF_FRAMES1, 0), (Reg.KVF_TABLE 0, 2049), (Reg.SEQ_EVENT, 0), (Reg.LPD_CMD_CNT 6, 0), (Reg.ARR_STATUS 6, 0)])), 6, wtask, ⟨2, 0, false, 0, 0, 0, 0, false⟩, (attnAt (wnest 6 [] [(1024, 2), (65538, 8)] [(25165824, 65), (25165825, 32), (25165829, 1), (25165836, 64), (25165841, 2), (25165894, 1), (25165896, 40), (25165900, 1)] [(Reg.KVF_FRAME_BYTES, 2048), (Reg.SEQ_TABLE 0 0, 2 + 4096), (Reg.SEQ_TABLE 0 4, 65536), (Reg.SEQ_TABLE 0 5, 0), (Reg.KVF_BASE0_LO, 131072), (Reg.KVF_BASE0_HI, 0), (Reg.KVF_FRAMES0, 1), (Reg.KVF_FRAMES1, 0), (Reg.KVF_TABLE 0, 2049), (Reg.SEQ_EVENT, 0), (Reg.LPD_CMD_CNT 6, 0), (Reg.ARR_STATUS 6, 0)]).dev 6 0), (placeTable 6 0 (attnAt (wnest 6 [] [(1024, 2), (65538, 8)] [(25165824, 65), (25165825, 32), (25165829, 1), (25165836, 64), (25165841, 2), (25165894, 1), (25165896, 40), (25165900, 1)] [(Reg.KVF_FRAME_BYTES, 2048), (Reg.SEQ_TABLE 0 0, 2 + 4096), (Reg.SEQ_TABLE 0 4, 65536), (Reg.SEQ_TABLE 0 5, 0), (Reg.KVF_BASE0_LO, 131072), (Reg.KVF_BASE0_HI, 0), (Reg.KVF_FRAMES0, 1), (Reg.KVF_FRAMES1, 0), (Reg.KVF_TABLE 0, 2049), (Reg.SEQ_EVENT, 0), (Reg.LPD_CMD_CNT 6, 0), (Reg.ARR_STATUS 6, 0)]).dev 6 0) (cmdStart 6 (wnest 6 [] [(1024, 2), (65538, 8)] [(25165824, 65), (25165825, 32), (25165829, 1), (25165836, 64), (25165841, 2), (25165894, 1), (25165896, 40), (25165900, 1)] [(Reg.KVF_FRAME_BYTES, 2048), (Reg.SEQ_TABLE 0 0, 2 + 4096), (Reg.SEQ_TABLE 0 4, 65536), (Reg.SEQ_TABLE 0 5, 0), (Reg.KVF_BASE0_LO, 131072), (Reg.KVF_BASE0_HI, 0), (Reg.KVF_FRAMES0, 1), (Reg.KVF_FRAMES1, 0), (Reg.KVF_TABLE 0, 2049), (Reg.SEQ_EVENT, 0), (Reg.LPD_CMD_CNT 6, 0), (Reg.ARR_STATUS 6, 0)]).dev)), (⟨0, 0, 1, 40, true, false, none⟩), by decide +kernel⟩,
   ⟨((wnest 6 [] [(1024, 2), (65538, 8)] [(25165824, 64), (25165825, 32), (25165829, 1), (25165836, 64), (25165841, 2), (25165894, 1), (25165896, 1)] [(Reg.KVF_FRAME_BYTES, 2048), (Reg.SEQ_TABLE 0 0, 2 + 4096), (Reg.SEQ_TABLE 0 4, 65536), (Reg.SEQ_TABLE 0 5, 0), (Reg.KVF_BASE0_LO, 131072), (Reg.KVF_BASE0_HI, 0), (Reg.KVF_FRAMES0, 1), (Reg.KVF_FRAMES1, 0), (Reg.KVF_TABLE 0, 3073), (Reg.SEQ_EVENT, 0), (Reg.LPD_CMD_CNT 6, 0), (Reg.ARR_STATUS 6, 0)])), 6, wtask, ⟨2, 0, false, 0, 0, 0, 0, false⟩, (attnAt (wnest 6 [] [(1024, 2), (65538, 8)] [(25165824, 64), (25165825, 32), (25165829, 1), (25165836, 64), (25165841, 2), (25165894, 1), (25165896, 1)] [(Reg.KVF_FRAME_BYTES, 2048), (Reg.SEQ_TABLE 0 0, 2 + 4096), (Reg.SEQ_TABLE 0 4, 65536), (Reg.SEQ_TABLE 0 5, 0), (Reg.KVF_BASE0_LO, 131072), (Reg.KVF_BASE0_HI, 0), (Reg.KVF_FRAMES0, 1), (Reg.KVF_FRAMES1, 0), (Reg.KVF_TABLE 0, 3073), (Reg.SEQ_EVENT, 0), (Reg.LPD_CMD_CNT 6, 0), (Reg.ARR_STATUS 6, 0)]).dev 6 0), (placeTable 6 0 (attnAt (wnest 6 [] [(1024, 2), (65538, 8)] [(25165824, 64), (25165825, 32), (25165829, 1), (25165836, 64), (25165841, 2), (25165894, 1), (25165896, 1)] [(Reg.KVF_FRAME_BYTES, 2048), (Reg.SEQ_TABLE 0 0, 2 + 4096), (Reg.SEQ_TABLE 0 4, 65536), (Reg.SEQ_TABLE 0 5, 0), (Reg.KVF_BASE0_LO, 131072), (Reg.KVF_BASE0_HI, 0), (Reg.KVF_FRAMES0, 1), (Reg.KVF_FRAMES1, 0), (Reg.KVF_TABLE 0, 3073), (Reg.SEQ_EVENT, 0), (Reg.LPD_CMD_CNT 6, 0), (Reg.ARR_STATUS 6, 0)]).dev 6 0) (cmdStart 6 (wnest 6 [] [(1024, 2), (65538, 8)] [(25165824, 64), (25165825, 32), (25165829, 1), (25165836, 64), (25165841, 2), (25165894, 1), (25165896, 1)] [(Reg.KVF_FRAME_BYTES, 2048), (Reg.SEQ_TABLE 0 0, 2 + 4096), (Reg.SEQ_TABLE 0 4, 65536), (Reg.SEQ_TABLE 0 5, 0), (Reg.KVF_BASE0_LO, 131072), (Reg.KVF_BASE0_HI, 0), (Reg.KVF_FRAMES0, 1), (Reg.KVF_FRAMES1, 0), (Reg.KVF_TABLE 0, 3073), (Reg.SEQ_EVENT, 0), (Reg.LPD_CMD_CNT 6, 0), (Reg.ARR_STATUS 6, 0)]).dev)), by decide +kernel⟩,
   ⟨((wnest 6 [] [(1024, 2), (65538, 8)] [(25165824, 64), (25165825, 32), (25165829, 1), (25165836, 64), (25165841, 2), (25165894, 1), (25165896, 1)] [(Reg.KVF_FRAME_BYTES, 2048), (Reg.SEQ_TABLE 0 0, 2 + 4096), (Reg.SEQ_TABLE 0 4, 65536), (Reg.SEQ_TABLE 0 5, 0), (Reg.KVF_BASE0_LO, 131072), (Reg.KVF_BASE0_HI, 0), (Reg.KVF_FRAMES0, 1), (Reg.KVF_FRAMES1, 0), (Reg.KVF_TABLE 0, 2049), (Reg.SEQ_EVENT, 0), (Reg.LPD_CMD_CNT 6, 0), (Reg.ARR_STATUS 6, 0), (Reg.DMC_CTRL 0, 0)])), 6, wtask, ⟨2, 0, false, 0, 0, 0, 0, false⟩, (attnAt (wnest 6 [] [(1024, 2), (65538, 8)] [(25165824, 64), (25165825, 32), (25165829, 1), (25165836, 64), (25165841, 2), (25165894, 1), (25165896, 1)] [(Reg.KVF_FRAME_BYTES, 2048), (Reg.SEQ_TABLE 0 0, 2 + 4096), (Reg.SEQ_TABLE 0 4, 65536), (Reg.SEQ_TABLE 0 5, 0), (Reg.KVF_BASE0_LO, 131072), (Reg.KVF_BASE0_HI, 0), (Reg.KVF_FRAMES0, 1), (Reg.KVF_FRAMES1, 0), (Reg.KVF_TABLE 0, 2049), (Reg.SEQ_EVENT, 0), (Reg.LPD_CMD_CNT 6, 0), (Reg.ARR_STATUS 6, 0), (Reg.DMC_CTRL 0, 0)]).dev 6 0), (placeTable 6 0 (attnAt (wnest 6 [] [(1024, 2), (65538, 8)] [(25165824, 64), (25165825, 32), (25165829, 1), (25165836, 64), (25165841, 2), (25165894, 1), (25165896, 1)] [(Reg.KVF_FRAME_BYTES, 2048), (Reg.SEQ_TABLE 0 0, 2 + 4096), (Reg.SEQ_TABLE 0 4, 65536), (Reg.SEQ_TABLE 0 5, 0), (Reg.KVF_BASE0_LO, 131072), (Reg.KVF_BASE0_HI, 0), (Reg.KVF_FRAMES0, 1), (Reg.KVF_FRAMES1, 0), (Reg.KVF_TABLE 0, 2049), (Reg.SEQ_EVENT, 0), (Reg.LPD_CMD_CNT 6, 0), (Reg.ARR_STATUS 6, 0), (Reg.DMC_CTRL 0, 0)]).dev 6 0) (cmdStart 6 (wnest 6 [] [(1024, 2), (65538, 8)] [(25165824, 64), (25165825, 32), (25165829, 1), (25165836, 64), (25165841, 2), (25165894, 1), (25165896, 1)] [(Reg.KVF_FRAME_BYTES, 2048), (Reg.SEQ_TABLE 0 0, 2 + 4096), (Reg.SEQ_TABLE 0 4, 65536), (Reg.SEQ_TABLE 0 5, 0), (Reg.KVF_BASE0_LO, 131072), (Reg.KVF_BASE0_HI, 0), (Reg.KVF_FRAMES0, 1), (Reg.KVF_FRAMES1, 0), (Reg.KVF_TABLE 0, 2049), (Reg.SEQ_EVENT, 0), (Reg.LPD_CMD_CNT 6, 0), (Reg.ARR_STATUS 6, 0), (Reg.DMC_CTRL 0, 0)]).dev)), by decide +kernel⟩,
   ⟨((wnest 6 [] [(1024, 2), (65538, 8)] [(25165824, 64), (25165825, 32), (25165829, 1), (25165836, 64), (25165841, 2), (25165894, 1)] [(Reg.KVF_FRAME_BYTES, 2048), (Reg.SEQ_TABLE 0 0, 2 + 4096), (Reg.SEQ_TABLE 0 4, 65536), (Reg.SEQ_TABLE 0 5, 0), (Reg.KVF_BASE0_LO, 131072), (Reg.KVF_BASE0_HI, 0), (Reg.KVF_FRAMES0, 1), (Reg.KVF_FRAMES1, 0), (Reg.KVF_TABLE 0, 2049), (Reg.SEQ_EVENT, 0), (Reg.LPD_CMD_CNT 6, 0), (Reg.ARR_STATUS 6, 0)])), 6, wtask, ⟨2, 0, false, 0, 0, 0, 0, false⟩, (attnAt (wnest 6 [] [(1024, 2), (65538, 8)] [(25165824, 64), (25165825, 32), (25165829, 1), (25165836, 64), (25165841, 2), (25165894, 1)] [(Reg.KVF_FRAME_BYTES, 2048), (Reg.SEQ_TABLE 0 0, 2 + 4096), (Reg.SEQ_TABLE 0 4, 65536), (Reg.SEQ_TABLE 0 5, 0), (Reg.KVF_BASE0_LO, 131072), (Reg.KVF_BASE0_HI, 0), (Reg.KVF_FRAMES0, 1), (Reg.KVF_FRAMES1, 0), (Reg.KVF_TABLE 0, 2049), (Reg.SEQ_EVENT, 0), (Reg.LPD_CMD_CNT 6, 0), (Reg.ARR_STATUS 6, 0)]).dev 6 0), (placeTable 6 0 (attnAt (wnest 6 [] [(1024, 2), (65538, 8)] [(25165824, 64), (25165825, 32), (25165829, 1), (25165836, 64), (25165841, 2), (25165894, 1)] [(Reg.KVF_FRAME_BYTES, 2048), (Reg.SEQ_TABLE 0 0, 2 + 4096), (Reg.SEQ_TABLE 0 4, 65536), (Reg.SEQ_TABLE 0 5, 0), (Reg.KVF_BASE0_LO, 131072), (Reg.KVF_BASE0_HI, 0), (Reg.KVF_FRAMES0, 1), (Reg.KVF_FRAMES1, 0), (Reg.KVF_TABLE 0, 2049), (Reg.SEQ_EVENT, 0), (Reg.LPD_CMD_CNT 6, 0), (Reg.ARR_STATUS 6, 0)]).dev 6 0) (cmdStart 6 (wnest 6 [] [(1024, 2), (65538, 8)] [(25165824, 64), (25165825, 32), (25165829, 1), (25165836, 64), (25165841, 2), (25165894, 1)] [(Reg.KVF_FRAME_BYTES, 2048), (Reg.SEQ_TABLE 0 0, 2 + 4096), (Reg.SEQ_TABLE 0 4, 65536), (Reg.SEQ_TABLE 0 5, 0), (Reg.KVF_BASE0_LO, 131072), (Reg.KVF_BASE0_HI, 0), (Reg.KVF_FRAMES0, 1), (Reg.KVF_FRAMES1, 0), (Reg.KVF_TABLE 0, 2049), (Reg.SEQ_EVENT, 0), (Reg.LPD_CMD_CNT 6, 0), (Reg.ARR_STATUS 6, 0)]).dev)), by decide +kernel⟩⟩

theorem witness_FramesMoveBetweenStates :
    (∃ (s : State) (f : Nat) (dd : Fin 2), inReset s.dev = false ∧ (freeQ s.dev dd).find? (fun f => frState s.dev f == 1) = some f ∧ f < 262144 ∧
      stampBelow s.dev (frStamp s.dev f) = true) ∧
    (∃ (s : State) (f : Nat) (dd : Fin 2), inReset s.dev = false ∧ ((freeQ s.dev dd).find? (fun f => frState s.dev f == 1) = none ∨ ∃ f, (freeQ s.dev
      dd).find? (fun f => frState s.dev f == 1) = some f ∧ stampBelow s.dev (frStamp s.dev f) = false)) ∧
    (∃ (s : State) (f : Nat), inReset s.dev = false ∧ f < kvPool s.dev ∧ f < 262144) ∧
    (∃ (s : State) (f : Nat), inReset s.dev = false ∧ kvPool s.dev ≤ f ∧ f < 2 ^ 19) ∧
    (∃ (s : State) (f : Nat), inReset s.dev = false ∧ frState s.dev f = 3 ∧ frRef s.dev f = 0 ∧ f < 262144 ∧ queueAddr s.dev (frDie s.dev f) (freeQ
      s.dev (frDie s.dev f)).length + 4 ≤ dramBytes) ∧
    (∃ (s : State) (f : Nat), inReset s.dev = false ∧ frState s.dev f ≠ 3 ∧ f < 2 ^ 19) ∧
    (∃ (s : State), inReset s.dev = false ∧ tst s.dev Reg.KVF_STATUS 1 = true ∧ kvPool s.dev ≤ 262144) :=
  ⟨⟨(ws [(Reg.KVF_FREEQ0_LO, 8192), (Reg.KVF_FREEQ0_HI, 0), (Reg.KVF_FREEQ1_LO, 2000000), (Reg.KVF_FREEQ1_HI, 0), (Reg.KVF_FRAMES0, 4), (Reg.KVF_FRAMES1, 0), (Reg.KVF_STEP, 9), (Reg.KVF_LIVE_CNT, 1), (Reg.KVF_FREE0_CNT, 2), (Reg.KVF_DRAIN_CNT, 1), (Reg.KVF_WITHHELD_CNT, 1), (Reg.KVF_TABLE 3, 1024 + 5 * 131072)] fun d => { d with kv := { q0 := [3] } }), 3, (0), by decide +kernel⟩,
   ⟨(ws [] id), 0, (1), by decide +kernel⟩,
   ⟨(ws [(Reg.KVF_FREEQ0_LO, 8192), (Reg.KVF_FREEQ0_HI, 0), (Reg.KVF_FREEQ1_LO, 2000000), (Reg.KVF_FREEQ1_HI, 0), (Reg.KVF_FRAMES0, 4), (Reg.KVF_FRAMES1, 0), (Reg.KVF_STEP, 9), (Reg.KVF_LIVE_CNT, 1), (Reg.KVF_FREE0_CNT, 2), (Reg.KVF_DRAIN_CNT, 1), (Reg.KVF_WITHHELD_CNT, 1), (Reg.KVF_TABLE 3, 0)] fun d => { d with kv := { q0 := [2, 3] } }), 3, by decide +kernel⟩,
   ⟨(ws [(Reg.KVF_FREEQ0_LO, 8192), (Reg.KVF_FREEQ0_HI, 0), (Reg.KVF_FREEQ1_LO, 2000000), (Reg.KVF_FREEQ1_HI, 0), (Reg.KVF_FRAMES0, 4), (Reg.KVF_FRAMES1, 0), (Reg.KVF_STEP, 9), (Reg.KVF_LIVE_CNT, 1), (Reg.KVF_FREE0_CNT, 2), (Reg.KVF_DRAIN_CNT, 1), (Reg.KVF_WITHHELD_CNT, 1)] id), 4, by decide +kernel⟩,
   ⟨(ws [(Reg.KVF_FREEQ0_LO, 8192), (Reg.KVF_FREEQ0_HI, 0), (Reg.KVF_FREEQ1_LO, 2000000), (Reg.KVF_FREEQ1_HI, 0), (Reg.KVF_FRAMES0, 4), (Reg.KVF_FRAMES1, 0), (Reg.KVF_STEP, 9), (Reg.KVF_LIVE_CNT, 1), (Reg.KVF_FREE0_CNT, 2), (Reg.KVF_DRAIN_CNT, 1), (Reg.KVF_WITHHELD_CNT, 1), (Reg.KVF_TABLE 3, 3072)] fun d => { d with kv := { q0 := [2] } }), 3, by decide +kernel⟩,
   ⟨(ws [(Reg.KVF_FREEQ0_LO, 8192), (Reg.KVF_FREEQ0_HI, 0), (Reg.KVF_FREEQ1_LO, 2000000), (Reg.KVF_FREEQ1_HI, 0), (Reg.KVF_FRAMES0, 4), (Reg.KVF_FRAMES1, 0), (Reg.KVF_STEP, 9), (Reg.KVF_LIVE_CNT, 1), (Reg.KVF_FREE0_CNT, 2), (Reg.KVF_DRAIN_CNT, 1), (Reg.KVF_WITHHELD_CNT, 1), (Reg.KVF_TABLE 3, 2048)] id), 3, by decide +kernel⟩,
   ⟨(ws [(Reg.KVF_FREEQ0_LO, 8192), (Reg.KVF_FREEQ0_HI, 0), (Reg.KVF_FREEQ1_LO, 2000000), (Reg.KVF_FREEQ1_HI, 0), (Reg.KVF_FRAMES0, 4), (Reg.KVF_FRAMES1, 0), (Reg.KVF_STEP, 9), (Reg.KVF_LIVE_CNT, 1), (Reg.KVF_FREE0_CNT, 2), (Reg.KVF_DRAIN_CNT, 1), (Reg.KVF_WITHHELD_CNT, 1), (Reg.KVF_STATUS, 2)] id), by decide +kernel⟩⟩

theorem witness_KvConfigurationIsChecked :
    (∃ (s : State) (r : Req) (i : Fin 11), inReset s.dev = false ∧ i.val < 3 ∧ Reaches s.dev r (kvCfgReg i).1 ∧ seqCoveRuns s.dev = false) ∧
    (∃ (s : State) (r : Req) (i : Fin 11), inReset s.dev = false ∧ i.val % 2 = 1 ∧ 3 ≤ i.val ∧ Reaches s.dev r (kvCfgReg i).1) ∧
    (∃ (s : State) (r : Req) (i : Fin 11) (lo : Word), inReset s.dev = false ∧ i.val % 2 = 0 ∧ 4 ≤ i.val ∧ Reaches s.dev r (kvCfgReg i).1 ∧ (latchOf
      s.dev r ((kvCfgReg i).1 - 4)).wr = some lo ∧ seqCoveRuns s.dev = false) ∧
    (∃ (s : State) (r : Req) (i : Fin 11), inReset s.dev = false ∧ i.val < 3 ∧ Reaches s.dev r (kvCfgReg i).1 ∧ seqCoveRuns s.dev = true) :=
  ⟨⟨(ws (((List.range 8).map fun c => (Reg.SCH_COVE_CFG c, 0)) ++ [(Reg.BOOT_STATUS, 10), (Reg.KVF_EVENT, 0), (Reg.KVF_STATUS, 1)]) id), .ziltur, (0), by decide +kernel⟩,
   ⟨(ws (((List.range 8).map fun c => (Reg.SCH_COVE_CFG c, 0)) ++ [(Reg.BOOT_STATUS, 10), (Reg.KVF_EVENT, 0), (Reg.KVF_STATUS, 1)]) id), .ziltur, (3), by decide +kernel⟩,
   ⟨(ws (((List.range 8).map fun c => (Reg.SCH_COVE_CFG c, 0)) ++ [(Reg.BOOT_STATUS, 10), (Reg.KVF_EVENT, 0), (Reg.KVF_STATUS, 1)]) fun d => { d with bus := [{ r := .ziltur, a := Reg.KVF_BASE0_LO, wr := some 4096 }] }), .ziltur, (4), (4096), by decide +kernel⟩,
   ⟨(ws [(Reg.SCH_COVE_CFG 0, 1), (Reg.SCH_COVE_STATE 0, 2), (Reg.BOOT_STATUS, 10)] id), .ziltur, (1), by decide +kernel⟩⟩

theorem witness_StepsAreAdmittedCopiedAndEnded :
    (∃ (s : State) (c : Fin 8) (x : Step), inReset s.dev = false ∧ coveOpen s.dev c = true ∧ isSeqCove s.dev c = true ∧ tst s.dev Reg.KVF_STATUS 0 =
      true ∧ s.dev.kv.steps.find? (fun y => y.cove == c.val) = some x ∧ x.started = false ∧ x.waits = false ∧ x.copies = [] ∧ tst s.dev Reg.KVF_STATUS
      4 = false ∧ needOf s.dev x = 0 ∧ (∀ e ∈ x.ents, e.seq < 1024)) ∧
    (∃ (s : State) (c : Fin 8) (x : Step) (r : Dev × List PageCopy), inReset s.dev = false ∧ coveOpen s.dev c = true ∧ isSeqCove s.dev c = true ∧ tst
      s.dev Reg.KVF_STATUS 0 = true ∧ s.dev.kv.steps.find? (fun y => y.cove == c.val) = some x ∧ x.waits = true ∧ needOf s.dev x ≤ availOf s.dev c ∧
      x.ents.foldlM allocEntry (frameless c s.dev, x.copies) = some r ∧ needOf r.1 { x with copies := r.2, waits := false, freed := [] } = 0) ∧
    (∃ (s : State) (c : Fin 8), inReset s.dev = false ∧ coveOpen s.dev c = false) ∧
    (∃ (s : State) (c : Fin 8) (x : Step) (p : PageCopy) (ps : List PageCopy), inReset s.dev = false ∧ s.dev.kv.steps.find? (fun y => y.cove == c.val
      && !y.started && !y.copies.isEmpty) = some x ∧ x.copies = p :: ps ∧ ps ≠ [] ∧ p.seq < 1024 ∧ p.old < 262144 ∧ p.new_ < 262144 ∧ 2 ≤ frRef s.dev
      p.old ∧ plAddr s.dev p.seq p.layer p.page + 4 ≤ dramBytes) ∧
    (∃ (s : State) (c : Fin 8) (x : Step) (e : StepEnt), inReset s.dev = false ∧ ebbState s.dev ≠ 1 ∧ s.dev.kv.steps = [x] ∧ x.cove = c.val ∧
      x.started = true ∧ x.done = true ∧ x.ents = [e] ∧ e.seq < 1024 ∧ e.lost = false ∧ e.yields = false ∧ sqState s.dev e.seq ≠ 5 ∧
      s.dev.kv.evictLater = [] ∧ s.dev.kv.arrivals = [] ∧ s.dev.err.acts = []) ∧
    (∃ (s : State) (c : Fin 8) (x : Step) (e : StepEnt) (tok : Nat), inReset s.dev = false ∧ ebbState s.dev ≠ 1 ∧ s.dev.kv.steps = [x] ∧ x.cove =
      c.val ∧ x.started = true ∧ x.done = true ∧ x.ents = [e] ∧ e.seq < 1024 ∧ e.lost = false ∧ e.yields = true ∧ x.toks = [(e.seq, true, tok)] ∧
      sqState s.dev e.seq = 2 ∧ s.dev.kv.evictLater = [] ∧ s.dev.kv.arrivals = [] ∧ s.dev.err.acts = []) ∧
    (∃ (s : State) (c : Fin 8) (x : Step) (e : StepEnt) (tok : Nat), inReset s.dev = false ∧ ebbState s.dev ≠ 1 ∧ s.dev.kv.steps = [x] ∧ x.cove =
      c.val ∧ x.started = true ∧ x.done = true ∧ x.ents = [e] ∧ e.seq < 1024 ∧ e.lost = false ∧ e.yields = true ∧ x.toks = [(e.seq, false, tok)] ∧
      sqState s.dev e.seq = 2 ∧ s.dev.kv.evictLater = [] ∧ s.dev.kv.arrivals = [] ∧ s.dev.err.acts = [] ∧ sqGen s.dev e.seq + 1 < (sqX s.dev
      e.seq).maxTok ∧ tok < 2 ^ 32 ∧ (sqX s.dev e.seq).tokAt + 4 * (sqPrompt s.dev e.seq + sqGen s.dev e.seq) + 4 ≤ dramBytes) ∧
    (∃ (s : State) (c : Fin 8) (x : Step) (e : StepEnt), inReset s.dev = false ∧ ebbState s.dev ≠ 1 ∧ s.dev.kv.steps = [x] ∧ x.cove = c.val ∧
      x.started = true ∧ x.done = true ∧ x.ents = [e] ∧ e.seq < 1024 ∧ e.lost = true ∧ sqState s.dev e.seq ≠ 5 ∧ s.dev.kv.evictLater = [] ∧
      s.dev.kv.arrivals = [] ∧ s.dev.err.acts = []) :=
  ⟨⟨(ws [(Reg.SCH_COVE_STATE 0, 2), (Reg.SCH_COVE_CFG 0, 1), (Reg.KVF_STATUS, 1), (Reg.PWR_STATUS, 0), (Reg.KVF_STEP, 9), (Reg.KVF_OLDEST, 10), (Reg.SCH_COVE_WP_LO 0, 0), (Reg.SCH_COVE_WP_HI 0, 0)] fun d => { d with kv := { steps := [{ cove := 0, ents := [⟨0, 1, 1, true, false, 0, none⟩] }] } }), 0, { cove := 0, ents := [⟨0, 1, 1, true, false, 0, none⟩] }, by decide +kernel⟩,
   ⟨((ws [(Reg.SCH_COVE_STATE 0, 2), (Reg.SCH_COVE_CFG 0, 1), (Reg.KVF_STATUS, 1), (Reg.PWR_STATUS, 0), (Reg.KVF_STEP, 9), (Reg.KVF_OLDEST, 10), (Reg.SCH_COVE_WP_LO 0, 0), (Reg.SCH_COVE_WP_HI 0, 0), (Reg.KVF_EVENT, 0), (Reg.SEQ_TABLE 0 0, 2 + 4096), (Reg.SEQ_TABLE 0 4, 65536), (Reg.SEQ_TABLE 0 5, 0), (Reg.KVF_FREE0_CNT, 1), (Reg.KVF_FREE1_CNT, 0), (Reg.KVF_COVE_LIM 0, 4), (Reg.KVF_COVE_HELD 0, 0), (Reg.KVF_EXH_INFO, 0)] fun d => { d with kv := { steps := [{ cove := 0, waits := true, ents := [⟨0, 1, 1, true, false, 0, none⟩] }] } })), 0, { cove := 0, waits := true, ents := [⟨0, 1, 1, true, false, 0, none⟩] }, ((frameless 0 (ws [(Reg.SCH_COVE_STATE 0, 2), (Reg.SCH_COVE_CFG 0, 1), (Reg.KVF_STATUS, 1), (Reg.PWR_STATUS, 0), (Reg.KVF_STEP, 9), (Reg.KVF_OLDEST, 10), (Reg.SCH_COVE_WP_LO 0, 0), (Reg.SCH_COVE_WP_HI 0, 0), (Reg.KVF_EVENT, 0), (Reg.SEQ_TABLE 0 0, 2 + 4096), (Reg.SEQ_TABLE 0 4, 65536), (Reg.SEQ_TABLE 0 5, 0), (Reg.KVF_FREE0_CNT, 1), (Reg.KVF_FREE1_CNT, 0), (Reg.KVF_COVE_LIM 0, 4), (Reg.KVF_COVE_HELD 0, 0), (Reg.KVF_EXH_INFO, 0)] fun d => { d with kv := { steps := [{ cove := 0, waits := true, ents := [⟨0, 1, 1, true, false, 0, none⟩] }] } }).dev, [])), by decide +kernel⟩,
   ⟨(ws [(Reg.SCH_COVE_STATE 0, 4), (Reg.PWR_STATUS, 0)] id), 0, by decide +kernel⟩,
   ⟨(ws [(Reg.SCH_COVE_STATE 0, 2), (Reg.SCH_COVE_CFG 0, 1), (Reg.KVF_STATUS, 1), (Reg.PWR_STATUS, 0), (Reg.KVF_STEP, 9), (Reg.KVF_OLDEST, 10), (Reg.SCH_COVE_WP_LO 0, 0), (Reg.SCH_COVE_WP_HI 0, 0), (Reg.SEQ_TABLE 0 0, 2 + 8192), (Reg.SEQ_TABLE 0 4, 65536), (Reg.SEQ_TABLE 0 5, 0), (Reg.KVF_COW_CNT, 3), (Reg.KVF_FRAMES0, 4), (Reg.KVF_FRAMES1, 0), (Reg.KVF_FRAME_BYTES, 1024), (Reg.KVF_TABLE 0, 2048 + 3)] fun d => { d with kv := { steps := [{ cove := 0, ents := [⟨0, 1, 1, true, false, 0, none⟩], copies := [⟨0, 0, 0, 0, 1⟩, ⟨0, 1, 0, 0, 2⟩] }] } }), 0, { cove := 0, ents := [⟨0, 1, 1, true, false, 0, none⟩], copies := [⟨0, 0, 0, 0, 1⟩, ⟨0, 1, 0, 0, 2⟩] }, (⟨0, 0, 0, 0, 1⟩), ([⟨0, 1, 0, 0, 2⟩]), by decide +kernel⟩,
   ⟨(ws [(Reg.SCH_COVE_STATE 0, 2), (Reg.SCH_COVE_CFG 0, 1), (Reg.KVF_STATUS, 1), (Reg.PWR_STATUS, 0), (Reg.KVF_STEP, 9), (Reg.KVF_OLDEST, 10), (Reg.SCH_COVE_WP_LO 0, 0), (Reg.SCH_COVE_WP_HI 0, 0), (Reg.SEQ_TABLE 0 0, 3 + 8192), (Reg.SEQ_TABLE 0 1, 1)] fun d => { d with kv := { steps := [{ cove := 0, started := true, done := true, ents := [⟨0, 1, 1, false, false, 0, none⟩] }] } }), 0, { cove := 0, started := true, done := true, ents := [⟨0, 1, 1, false, false, 0, none⟩] }, (⟨0, 1, 1, false, false, 0, none⟩), by decide +kernel⟩,
   ⟨(ws [(Reg.SCH_COVE_STATE 0, 2), (Reg.SCH_COVE_CFG 0, 1), (Reg.KVF_STATUS, 1), (Reg.PWR_STATUS, 0), (Reg.KVF_STEP, 9), (Reg.KVF_OLDEST, 10), (Reg.SCH_COVE_WP_LO 0, 0), (Reg.SCH_COVE_WP_HI 0, 0), (Reg.SEQ_TABLE 0 0, 2 + 4096), (Reg.SEQ_TABLE 0 1, 1)] fun d => { d with kv := { steps := [{ cove := 0, started := true, done := true, ents := [⟨0, 1, 1, true, false, 0, none⟩], toks := [(0, true, 7)] }] } }), 0, { cove := 0, started := true, done := true, ents := [⟨0, 1, 1, true, false, 0, none⟩], toks := [(0, true, 7)] }, (⟨0, 1, 1, true, false, 0, none⟩), (7), by decide +kernel⟩,
   ⟨(ws [(Reg.SCH_COVE_STATE 0, 2), (Reg.SCH_COVE_CFG 0, 1), (Reg.KVF_STATUS, 1), (Reg.PWR_STATUS, 0), (Reg.KVF_STEP, 9), (Reg.KVF_OLDEST, 10), (Reg.SCH_COVE_WP_LO 0, 0), (Reg.SCH_COVE_WP_HI 0, 0), (Reg.SEQ_TABLE 0 0, 2 + 4096), (Reg.SEQ_TABLE 0 1, 1), (Reg.SEQ_TABLE 0 2, 0)] fun d => { d with kv := { xs := [(0, { maxTok := 5, tokAt := 64 })], steps := [{ cove := 0, started := true, done := true, ents := [⟨0, 1, 1, true, false, 0, none⟩], toks := [(0, false, 7)] }] } }), 0, { cove := 0, started := true, done := true, ents := [⟨0, 1, 1, true, false, 0, none⟩], toks := [(0, false, 7)] }, (⟨0, 1, 1, true, false, 0, none⟩), (7), by decide +kernel⟩,
   ⟨(ws [(Reg.SCH_COVE_STATE 0, 2), (Reg.SCH_COVE_CFG 0, 1), (Reg.KVF_STATUS, 1), (Reg.PWR_STATUS, 0), (Reg.KVF_STEP, 9), (Reg.KVF_OLDEST, 10), (Reg.SCH_COVE_WP_LO 0, 0), (Reg.SCH_COVE_WP_HI 0, 0), (Reg.SEQ_TABLE 0 0, 2 + 4096), (Reg.SEQ_TABLE 0 1, 1)] fun d => { d with kv := { steps := [{ cove := 0, started := true, done := true, ents := [⟨0, 1, 1, true, true, 4, none⟩] }] } }), 0, { cove := 0, started := true, done := true, ents := [⟨0, 1, 1, true, true, 4, none⟩] }, (⟨0, 1, 1, true, true, 4, none⟩), by decide +kernel⟩⟩

theorem witness_SequenceCommandsReportTheirResult :
    (∃ (s : State) (q : Fin 1024) (src : Fin 1024), inReset s.dev = false ∧ inStep s.dev q = false ∧ inStep s.dev src = false ∧ sqState s.dev q ≠ 0 ∧
      sqState s.dev src ≠ 0 ∧ q ≠ src ∧ rf s.dev Reg.SEQ_CMD_ARG 0 16 ≤ sqLen s.dev src ∧ geometryDiffers s.dev q src = false ∧ (∀ lp ∈ prefixPages
      s.dev src (rf s.dev Reg.SEQ_CMD_ARG 0 16), ∀ f, plFrame s.dev src lp.1 lp.2 = some f → frRef s.dev f ≠ 1023)) ∧
    (∃ (s : State) (q : Fin 1024) (src : Fin 1024), inReset s.dev = false ∧ inStep s.dev q = false ∧ inStep s.dev src = false ∧ sqState s.dev q ≠ 0 ∧
      sqState s.dev src ≠ 0 ∧ q ≠ src ∧ sqLen s.dev src < rf s.dev Reg.SEQ_CMD_ARG 0 16) ∧
    (∃ (s : State) (q : Fin 1024) (src : Fin 1024), inReset s.dev = false ∧ inStep s.dev q = false ∧ inStep s.dev src = false ∧ sqState s.dev q ≠ 0 ∧
      sqState s.dev src ≠ 0 ∧ q ≠ src ∧ rf s.dev Reg.SEQ_CMD_ARG 0 16 ≤ sqLen s.dev src ∧ geometryDiffers s.dev q src = true) ∧
    (∃ (s : State) (q : Fin 1024) (src : Fin 1024), inReset s.dev = false ∧ (inStep s.dev q = true ∨ inStep s.dev src = true ∨ sqState s.dev q = 0 ∨
      sqState s.dev src = 0 ∨ q = src)) ∧
    (∃ (s : State) (q : Fin 1024), inReset s.dev = false ∧ sqState s.dev q ≠ 0 ∧ sqState s.dev q ≠ 5 ∧ inStep s.dev q = false) ∧
    (∃ (s : State) (q : Fin 1024), inReset s.dev = false ∧ sqState s.dev q ≠ 0 ∧ sqState s.dev q ≠ 5 ∧ inStep s.dev q = true) ∧
    (∃ (s : State) (q : Fin 1024), inReset s.dev = false ∧ (sqState s.dev q = 0 ∨ sqState s.dev q = 5)) ∧
    (∃ (s : State) (q : Fin 1024), inReset s.dev = false ∧ tst s.dev Reg.KVF_CTRL 0 = false ∧ waitsHost s.dev (sqCove s.dev q) = false) ∧
    (∃ (s : State) (q : Fin 1024), inReset s.dev = false ∧ tst s.dev Reg.KVF_CTRL 0 = true ∧ sqState s.dev q = 2 ∧ waitsHost s.dev (sqCove s.dev q) =
      false ∧ inStep s.dev q = false) ∧
    (∃ (s : State) (q : Fin 1024), inReset s.dev = false ∧ tst s.dev Reg.KVF_CTRL 0 = true ∧ sqState s.dev q = 4 ∧ waitsHost s.dev (sqCove s.dev q) =
      true) ∧
    (∃ (s : State) (c : Nat), inReset s.dev = false ∧ tst s.dev Reg.KVF_CTRL 0 = true ∧ c < 8 ∧ waitsHost s.dev c = true ∧ s.dev.kv.victims = []) ∧
    (∃ (s : State), inReset s.dev = false ∧ tst s.dev Reg.KVF_CTRL 0 = true ∧ (List.range 8).any (waitsHost s.dev) = false) ∧
    (∃ (s : State) (c : Fin 8) (t : Nat), inReset s.dev = false ∧ mget (fun _ => none) s.dev.kv.exhAt c.val = some t ∧ t + rf s.dev Reg.KVF_HOST_LIM 0
      16 * 1000000 < 2 ^ 64) :=
  ⟨⟨(ws [(Reg.SEQ_TABLE 0 0, 2), (Reg.SEQ_TABLE 1 0, 2), (Reg.SEQ_TABLE 0 1, 0), (Reg.SEQ_TABLE 1 1, 16), (Reg.SEQ_CMD_ARG, 16), (Reg.KVF_CTRL, 0), (Reg.SEQ_STATUS, 2), (Reg.SEQ_CMD_RESULT, 0), (Reg.KVF_EXH_INFO, 0), (Reg.KVF_STATUS, 1), (Reg.KVF_COVE_LIM 0, 4), (Reg.KVF_COVE_HELD 0, 0), (Reg.KVF_FREE0_CNT, 2), (Reg.KVF_FREE1_CNT, 0), (Reg.SEQ_TABLE 0 2, 0), (Reg.SEQ_TABLE 0 6, 0)] fun d => { d with kv := {} }), 0, (1), by decide +kernel⟩,
   ⟨(ws [(Reg.SEQ_TABLE 0 0, 2), (Reg.SEQ_TABLE 1 0, 2), (Reg.SEQ_TABLE 0 1, 0), (Reg.SEQ_TABLE 1 1, 15), (Reg.SEQ_CMD_ARG, 16), (Reg.KVF_CTRL, 0), (Reg.SEQ_STATUS, 2), (Reg.SEQ_CMD_RESULT, 0), (Reg.KVF_EXH_INFO, 0), (Reg.KVF_STATUS, 1), (Reg.KVF_COVE_LIM 0, 4), (Reg.KVF_COVE_HELD 0, 0), (Reg.KVF_FREE0_CNT, 2), (Reg.KVF_FREE1_CNT, 0), (Reg.SEQ_TABLE 0 2, 0), (Reg.SEQ_TABLE 0 6, 0)] fun d => { d with kv := {} }), 0, (1), by decide +kernel⟩,
   ⟨(ws [(Reg.SEQ_TABLE 0 0, 2), (Reg.SEQ_TABLE 1 0, 2+4096), (Reg.SEQ_TABLE 0 1, 0), (Reg.SEQ_TABLE 1 1, 16), (Reg.SEQ_CMD_ARG, 16), (Reg.KVF_CTRL, 0), (Reg.SEQ_STATUS, 2), (Reg.SEQ_CMD_RESULT, 0), (Reg.KVF_EXH_INFO, 0), (Reg.KVF_STATUS, 1), (Reg.KVF_COVE_LIM 0, 4), (Reg.KVF_COVE_HELD 0, 0), (Reg.KVF_FREE0_CNT, 2), (Reg.KVF_FREE1_CNT, 0), (Reg.SEQ_TABLE 0 2, 0), (Reg.SEQ_TABLE 0 6, 0)] fun d => { d with kv := {} }), 0, (1), by decide +kernel⟩,
   ⟨(ws [(Reg.SEQ_TABLE 0 0, 0), (Reg.SEQ_TABLE 1 0, 2), (Reg.SEQ_TABLE 0 1, 0), (Reg.SEQ_TABLE 1 1, 16), (Reg.SEQ_CMD_ARG, 16), (Reg.KVF_CTRL, 0), (Reg.SEQ_STATUS, 2), (Reg.SEQ_CMD_RESULT, 0), (Reg.KVF_EXH_INFO, 0), (Reg.KVF_STATUS, 1), (Reg.KVF_COVE_LIM 0, 4), (Reg.KVF_COVE_HELD 0, 0), (Reg.KVF_FREE0_CNT, 2), (Reg.KVF_FREE1_CNT, 0), (Reg.SEQ_TABLE 0 2, 0), (Reg.SEQ_TABLE 0 6, 0)] fun d => { d with kv := {} }), 0, (1), by decide +kernel⟩,
   ⟨(ws [(Reg.SEQ_TABLE 0 0, 2), (Reg.SEQ_TABLE 1 0, 2), (Reg.SEQ_TABLE 0 1, 0), (Reg.SEQ_TABLE 1 1, 16), (Reg.SEQ_CMD_ARG, 16), (Reg.KVF_CTRL, 0), (Reg.SEQ_STATUS, 2), (Reg.SEQ_CMD_RESULT, 0), (Reg.KVF_EXH_INFO, 0), (Reg.KVF_STATUS, 1), (Reg.KVF_COVE_LIM 0, 4), (Reg.KVF_COVE_HELD 0, 0), (Reg.KVF_FREE0_CNT, 2), (Reg.KVF_FREE1_CNT, 0), (Reg.SEQ_TABLE 0 2, 0), (Reg.SEQ_TABLE 0 6, 0)] fun d => { d with kv := {} }), 0, by decide +kernel⟩,
   ⟨(ws [(Reg.SEQ_TABLE 0 0, 2), (Reg.SEQ_TABLE 1 0, 2), (Reg.SEQ_TABLE 0 1, 0), (Reg.SEQ_TABLE 1 1, 16), (Reg.SEQ_CMD_ARG, 16), (Reg.KVF_CTRL, 0), (Reg.SEQ_STATUS, 2), (Reg.SEQ_CMD_RESULT, 0), (Reg.KVF_EXH_INFO, 0), (Reg.KVF_STATUS, 1), (Reg.KVF_COVE_LIM 0, 4), (Reg.KVF_COVE_HELD 0, 0), (Reg.KVF_FREE0_CNT, 2), (Reg.KVF_FREE1_CNT, 0), (Reg.SEQ_TABLE 0 2, 0), (Reg.SEQ_TABLE 0 6, 0)] fun d => { d with kv := { steps := [{ cove := 0, started := true, ents := [⟨0, 1, 1, true, false, 0, none⟩] }] } }), 0, by decide +kernel⟩,
   ⟨(ws [(Reg.SEQ_TABLE 0 0, 5), (Reg.SEQ_TABLE 1 0, 2), (Reg.SEQ_TABLE 0 1, 0), (Reg.SEQ_TABLE 1 1, 16), (Reg.SEQ_CMD_ARG, 16), (Reg.KVF_CTRL, 0), (Reg.SEQ_STATUS, 2), (Reg.SEQ_CMD_RESULT, 0), (Reg.KVF_EXH_INFO, 0), (Reg.KVF_STATUS, 1), (Reg.KVF_COVE_LIM 0, 4), (Reg.KVF_COVE_HELD 0, 0), (Reg.KVF_FREE0_CNT, 2), (Reg.KVF_FREE1_CNT, 0), (Reg.SEQ_TABLE 0 2, 0), (Reg.SEQ_TABLE 0 6, 0)] fun d => { d with kv := {} }), 0, by decide +kernel⟩,
   ⟨(ws [(Reg.SEQ_TABLE 0 0, 2), (Reg.SEQ_TABLE 1 0, 2), (Reg.SEQ_TABLE 0 1, 0), (Reg.SEQ_TABLE 1 1, 16), (Reg.SEQ_CMD_ARG, 16), (Reg.KVF_CTRL, 0), (Reg.SEQ_STATUS, 2), (Reg.SEQ_CMD_RESULT, 0), (Reg.KVF_EXH_INFO, 0), (Reg.KVF_STATUS, 1), (Reg.KVF_COVE_LIM 0, 4), (Reg.KVF_COVE_HELD 0, 0), (Reg.KVF_FREE0_CNT, 2), (Reg.KVF_FREE1_CNT, 0), (Reg.SEQ_TABLE 0 2, 0), (Reg.SEQ_TABLE 0 6, 0)] fun d => { d with kv := {} }), 0, by decide +kernel⟩,
   ⟨(ws [(Reg.SEQ_TABLE 0 0, 2), (Reg.SEQ_TABLE 1 0, 2), (Reg.SEQ_TABLE 0 1, 5), (Reg.SEQ_TABLE 1 1, 16), (Reg.SEQ_CMD_ARG, 16), (Reg.KVF_CTRL, 1), (Reg.SEQ_STATUS, 2), (Reg.SEQ_CMD_RESULT, 0), (Reg.KVF_EXH_INFO, 0), (Reg.KVF_STATUS, 1), (Reg.KVF_COVE_LIM 0, 4), (Reg.KVF_COVE_HELD 0, 0), (Reg.KVF_FREE0_CNT, 2), (Reg.KVF_FREE1_CNT, 0), (Reg.SEQ_TABLE 0 2, 0), (Reg.SEQ_TABLE 0 6, 0)] fun d => { d with kv := {} }), 0, by decide +kernel⟩,
   ⟨(ws [(Reg.SEQ_TABLE 0 0, 4), (Reg.SEQ_TABLE 1 0, 2), (Reg.SEQ_TABLE 0 1, 5), (Reg.SEQ_TABLE 1 1, 16), (Reg.SEQ_CMD_ARG, 16), (Reg.KVF_CTRL, 1), (Reg.SEQ_STATUS, 2), (Reg.SEQ_CMD_RESULT, 0), (Reg.KVF_EXH_INFO, 0), (Reg.KVF_STATUS, 1), (Reg.KVF_COVE_LIM 0, 4), (Reg.KVF_COVE_HELD 0, 0), (Reg.KVF_FREE0_CNT, 2), (Reg.KVF_FREE1_CNT, 0), (Reg.SEQ_TABLE 0 2, 0), (Reg.SEQ_TABLE 0 6, 0)] fun d => { d with kv := { exhAt := [(0, some 5)] } }), 0, by decide +kernel⟩,
   ⟨(ws [(Reg.SEQ_TABLE 0 0, 4), (Reg.SEQ_TABLE 1 0, 2), (Reg.SEQ_TABLE 0 1, 5), (Reg.SEQ_TABLE 1 1, 16), (Reg.SEQ_CMD_ARG, 16), (Reg.KVF_CTRL, 1), (Reg.SEQ_STATUS, 2), (Reg.SEQ_CMD_RESULT, 0), (Reg.KVF_EXH_INFO, 0), (Reg.KVF_STATUS, 1), (Reg.KVF_COVE_LIM 0, 4), (Reg.KVF_COVE_HELD 0, 0), (Reg.KVF_FREE0_CNT, 2), (Reg.KVF_FREE1_CNT, 0), (Reg.SEQ_TABLE 0 2, 0), (Reg.SEQ_TABLE 0 6, 0)] fun d => { d with kv := { exhAt := [(0, some 5)] } }), (0), by decide +kernel⟩,
   ⟨(ws [(Reg.SEQ_TABLE 0 0, 4), (Reg.SEQ_TABLE 1 0, 2), (Reg.SEQ_TABLE 0 1, 5), (Reg.SEQ_TABLE 1 1, 16), (Reg.SEQ_CMD_ARG, 16), (Reg.KVF_CTRL, 1), (Reg.SEQ_STATUS, 2), (Reg.SEQ_CMD_RESULT, 0), (Reg.KVF_EXH_INFO, 0), (Reg.KVF_STATUS, 1), (Reg.KVF_COVE_LIM 0, 4), (Reg.KVF_COVE_HELD 0, 0), (Reg.KVF_FREE0_CNT, 2), (Reg.KVF_FREE1_CNT, 0), (Reg.SEQ_TABLE 0 2, 0), (Reg.SEQ_TABLE 0 6, 0)] fun d => { d with kv := {} }), by decide +kernel⟩,
   ⟨(ws [(Reg.SEQ_TABLE 0 0, 2), (Reg.SEQ_TABLE 1 0, 2), (Reg.SEQ_TABLE 0 1, 5), (Reg.SEQ_TABLE 1 1, 16), (Reg.SEQ_CMD_ARG, 16), (Reg.KVF_CTRL, 1), (Reg.SEQ_STATUS, 2), (Reg.SEQ_CMD_RESULT, 0), (Reg.KVF_EXH_INFO, 0), (Reg.KVF_STATUS, 1), (Reg.KVF_COVE_LIM 0, 4), (Reg.KVF_COVE_HELD 0, 0), (Reg.KVF_FREE0_CNT, 2), (Reg.KVF_FREE1_CNT, 0), (Reg.SEQ_TABLE 0 2, 0), (Reg.SEQ_TABLE 0 6, 0)] fun d => { d with kv := { exhAt := [(0, some 5)] } }), (0), (5), by decide +kernel⟩⟩

theorem witness_CoveCommandsWaitForTheMark :
    (∃ (s : State), inReset s.dev = false) ∧
    (∃ (s : State), inReset s.dev = false) ∧
    (∃ (s : State) (c : Fin 8) (r : Req), inReset s.dev = false ∧ Reaches s.dev r (Reg.SCH_COVE_CFG c) ∧ coveState s.dev c ∉ [1, 2, 3]) ∧
    (∃ (s : State) (c : Fin 8) (r : Req) (i : Fin 7), inReset s.dev = false ∧ 5 ≤ i.val ∧ Reaches s.dev r (coveCfgReg c i).1 ∧ coveState s.dev c ∉ [1,
      2, 3]) ∧
    (∃ (s : State) (c : Fin 8) (r : Req) (lo : Word), inReset s.dev = false ∧ Reaches s.dev r (Reg.SCH_COVE_CORES_HI c) ∧ (latchOf s.dev r
      (Reg.SCH_COVE_CORES_LO c)).wr = some lo ∧ coveState s.dev c ∉ [1, 2, 3]) ∧
    (∃ (s : State) (c : Fin 8) (r : Req) (lo : Word), inReset s.dev = false ∧ Reaches s.dev r (Reg.SCH_COVE_WP_HI c) ∧ (latchOf s.dev r
      (Reg.SCH_COVE_WP_LO c)).wr = some lo ∧ coveState s.dev c ∉ [1, 2, 3]) ∧
    (∃ (s : State) (c : Fin 8) (r : Req) (i : Fin 7), inReset s.dev = false ∧ (i.val = 0 ∨ 5 ≤ i.val) ∧ Reaches s.dev r (coveCfgReg c i).1 ∧ coveState
      s.dev c ∈ [1, 2, 3]) :=
  ⟨⟨(ws [] id), by decide +kernel⟩,
   ⟨(ws [] id), by decide +kernel⟩,
   ⟨(ws (((List.range 8).map fun c => (Reg.SCH_COVE_STATE c, 0)) ++ [(Reg.BOOT_STATUS, 10), (Reg.SCH_EVENT, 0)]) id), 0, .ziltur, by decide +kernel⟩,
   ⟨(ws (((List.range 8).map fun c => (Reg.SCH_COVE_STATE c, 0)) ++ [(Reg.BOOT_STATUS, 10), (Reg.SCH_EVENT, 0)]) id), 0, .ziltur, (6), by decide +kernel⟩,
   ⟨(ws (((List.range 8).map fun c => (Reg.SCH_COVE_STATE c, 0)) ++ [(Reg.BOOT_STATUS, 10), (Reg.SCH_EVENT, 0)]) fun d => { d with bus := [{ r := .ziltur, a := Reg.SCH_COVE_CORES_LO 0, wr := some 5 }] }), 0, .ziltur, (5), by decide +kernel⟩,
   ⟨(ws (((List.range 8).map fun c => (Reg.SCH_COVE_STATE c, 0)) ++ [(Reg.BOOT_STATUS, 10), (Reg.SCH_EVENT, 0)]) fun d => { d with bus := [{ r := .ziltur, a := Reg.SCH_COVE_WP_LO 0, wr := some 8195 }] }), 0, .ziltur, (8195), by decide +kernel⟩,
   ⟨(ws [(Reg.SCH_COVE_STATE 0, 2), (Reg.BOOT_STATUS, 10)] id), 0, .ziltur, (0), by decide +kernel⟩⟩

theorem witness_CoveStartChecksThePackage :
    (∃ (s : State), coveState s.dev 0 ∈ [1, 2, 3]) ∧
    (∃ (s : State), coveState s.dev 0 ∉ [1, 2, 3] ∧ kvLets s.dev 0 = true ∧ wpOk s.dev 0 = false) ∧
    (∃ (s : State), coveState s.dev 0 ∉ [1, 2, 3] ∧ kvLets s.dev 0 = false) ∧
    (∃ (s : State), coveState s.dev 0 ∉ [1, 2, 3] ∧ kvLets s.dev 0 = true ∧ wpOk s.dev 0 = true ∧ ∀ i < nStages s.dev 0, stageKind s.dev 0 i < 3 ∧ ∃ k ∈ sound s.dev 0, kindFits (stageKind s.dev 0 i) k = true) ∧
    (∃ (s : State), (isSeqCove s.dev 0 = true → tst s.dev Reg.KVF_STATUS 0 = true) ∧ (∀ k ∈ coresOf s.dev 0, (freeBlock s.dev k 0 (wpField s.dev 0 12 1)).isSome = true) ∧ wpField s.dev 0 12 1 ≤ 64) ∧
    (∃ (s : State), (isSeqCove s.dev 0 = true → tst s.dev Reg.KVF_STATUS 0 = true) ∧ ∃ k ∈ coresOf s.dev 0, freeBlock s.dev k 0 (wpField s.dev 0 12 1) = none) :=
  ⟨⟨ws [(Reg.SCH_COVE_STATE 0, 2)] id, by decide +kernel⟩, ⟨ws [(Reg.SCH_COVE_STATE 0, 0), (Reg.SCH_COVE_CFG 0, 0), (Reg.SCH_COVE_WP_LO 0, 0), (Reg.SCH_COVE_WP_HI 0, 0)] id, by decide +kernel⟩,
   ⟨ws [(Reg.SCH_COVE_STATE 0, 0), (Reg.SCH_COVE_CFG 0, 1), (Reg.KVF_STATUS, 0)] id, by decide +kernel⟩,
   ⟨ws [(Reg.SCH_COVE_STATE 0, 0), (Reg.SCH_COVE_CFG 0, 0), (Reg.SCH_COVE_WP_LO 0, 0), (Reg.SCH_COVE_WP_HI 0, 0), (Reg.SCH_COVE_CORES_LO 0, 1), (Reg.SCH_COVE_CORES_HI 0, 0), (Reg.ARR_STATUS 0, 0)]
      fun d => { d with dram := [(0, 0x4B), (1, 0x50), (2, 0x57), (4, 1), (7, 1), (17, 1)] }, by decide +kernel⟩,
   ⟨ws [(Reg.SCH_COVE_CFG 0, 0), (Reg.SCH_COVE_CORES_LO 0, 0), (Reg.SCH_COVE_CORES_HI 0, 0), (Reg.SCH_COVE_WP_LO 0, 0), (Reg.SCH_COVE_WP_HI 0, 0)] id, by decide +kernel⟩,
   ⟨ws [(Reg.SCH_COVE_CFG 0, 0), (Reg.SCH_COVE_CORES_LO 0, 1), (Reg.SCH_COVE_CORES_HI 0, 0), (Reg.SCH_COVE_WP_LO 0, 0), (Reg.SCH_COVE_WP_HI 0, 0), (Reg.LPD_RANGE 0 1, 4096)] fun d => { d with dram := [(12, 4)] }, by decide +kernel, 0, by decide +kernel⟩⟩

theorem witness_JobsRunStageByStage :
    (∃ (s : State) (c : Fin 8) (j : Job) (js : List Job), inReset s.dev = false ∧ (coveOf s.dev c).queue = j :: js ∧ (coveState s.dev c = 2 ∨
      coveState s.dev c = 3 ∧ isSeqCove s.dev c = true) ∧ runOf s.dev c = none ∧ j.copies = []) ∧
    (∃ (s : State) (c : Fin 8) (r : Run) (k : Nat), inReset s.dev = false ∧ runOf s.dev c = some r ∧ r.done = false ∧ serves s.dev c = true ∧ r.next <
      stageTasks s.dev c r.stage ∧ (∀ j ∈ coresOf s.dev c, shared s.dev j = false ∧ (coreOf s.dev j).susp = []) ∧ (eligible s.dev c (stageKind s.dev c
      r.stage)).find? (coreFree s.dev c r.stage) = some k) ∧
    (∃ (s : State) (c : Fin 8) (r : Run), inReset s.dev = false ∧ runOf s.dev c = some r ∧ (∀ j ∈ coresOf s.dev c, shared s.dev j = false ∧ (coreOf
      s.dev j).susp = []) ∧ (eligible s.dev c (stageKind s.dev c r.stage)).find? (coreFree s.dev c r.stage) = none) ∧
    (∃ (s : State) (r : Run) (k : Fin 64) (t : Task), inReset s.dev = false ∧ (coreOf s.dev k).task = some t ∧ t.cove < 8 ∧ t.contained = false ∧
      t.cmdAt = none ∧ cmdCount s.dev t.cove t.stage ≤ t.pos ∧ runOf s.dev t.cove = some r) ∧
    (∃ (s : State) (r : Run) (k : Fin 64) (t : Task), inReset s.dev = false ∧ (coreOf s.dev k).task = some t ∧ t.cove < 8 ∧ t.contained = true ∧ runOf
      s.dev t.cove = some r ∧ (∀ x ∈ (coreOf s.dev k).turn, x < 8)) ∧
    (∃ (s : State) (c : Fin 8) (r : Run), inReset s.dev = false ∧ runOf s.dev c = some r ∧ r.done = false ∧ r.ended.length = stageTasks s.dev c
      r.stage ∧ r.stage + 1 < nStages s.dev c) ∧
    (∃ (s : State) (c : Fin 8) (r : Run), inReset s.dev = false ∧ runOf s.dev c = some r ∧ r.done = false ∧ r.ended.length = stageTasks s.dev c
      r.stage ∧ nStages s.dev c ≤ r.stage + 1) ∧
    (∃ (s : State) (c : Fin 8) (r : Run), inReset s.dev = false ∧ ebbState s.dev ≠ 1 ∧ runOf s.dev c = some r ∧ r.done = true) :=
  ⟨⟨(ws ([(Reg.PWR_STATUS, 0), (Reg.SCH_COVE_STATE 0, 2), (Reg.SCH_COVE_WP_LO 0, 0), (Reg.SCH_COVE_WP_HI 0, 0), (Reg.SCH_COVE_CORES_LO 0, 1), (Reg.SCH_COVE_CORES_HI 0, 0), (Reg.SCH_COVE_CFG 0, 0), (Reg.ARR_STATUS 0, 0), (Reg.PWR_DOM_STATE 0, 0), (Reg.SCH_COVE_JOB 0, 7), (Reg.SCH_COVE_CONTAIN_CNT 0, 2), (Reg.SCH_STATUS, 0)] ++ (List.range 7).flatMap fun c => [(Reg.SCH_COVE_STATE (c + 1), 0)]) fun d => { d with dram := [(7, 2), (4, 1)], coves := [(0, { queue := [{ slots := 3, rows := 0, cost := 0, step := 0 }] })] }), 0, ({ slots := 3, rows := 0, cost := 0, step := 0 }), ([]), by decide +kernel⟩,
   ⟨(ws ([(Reg.PWR_STATUS, 0), (Reg.SCH_COVE_STATE 0, 2), (Reg.SCH_COVE_WP_LO 0, 0), (Reg.SCH_COVE_WP_HI 0, 0), (Reg.SCH_COVE_CORES_LO 0, 1), (Reg.SCH_COVE_CORES_HI 0, 0), (Reg.SCH_COVE_CFG 0, 0), (Reg.ARR_STATUS 0, 0), (Reg.PWR_DOM_STATE 0, 0), (Reg.SCH_COVE_JOB 0, 7), (Reg.SCH_COVE_CONTAIN_CNT 0, 2), (Reg.SCH_STATUS, 0)] ++ (List.range 7).flatMap fun c => [(Reg.SCH_COVE_STATE (c + 1), 0)]) fun d => { d with dram := [(7, 2), (4, 1)], coves := [(0, { elig := [0], run := some ({ job := { slots := 3, rows := 0, cost := 0, step := 0 }, num := 7, shapes := [3] } : Run) })] }), 0, ({ job := { slots := 3, rows := 0, cost := 0, step := 0 }, num := 7, shapes := [3] } : Run), (0), by decide +kernel⟩,
   ⟨(ws ([(Reg.PWR_STATUS, 0), (Reg.SCH_COVE_STATE 0, 2), (Reg.SCH_COVE_WP_LO 0, 0), (Reg.SCH_COVE_WP_HI 0, 0), (Reg.SCH_COVE_CORES_LO 0, 1), (Reg.SCH_COVE_CORES_HI 0, 0), (Reg.SCH_COVE_CFG 0, 0), (Reg.ARR_STATUS 0, 0), (Reg.PWR_DOM_STATE 0, 0), (Reg.SCH_COVE_JOB 0, 7), (Reg.SCH_COVE_CONTAIN_CNT 0, 2), (Reg.SCH_STATUS, 0)] ++ (List.range 7).flatMap fun c => [(Reg.SCH_COVE_STATE (c + 1), 0)]) fun d => { d with dram := [(7, 2), (4, 1)], coves := [(0, { elig := [0], run := some ({ job := { slots := 3, rows := 0, cost := 0, step := 0 }, num := 7, shapes := [3] } : Run) })], cores := [(0, { saving := true })] }), 0, ({ job := { slots := 3, rows := 0, cost := 0, step := 0 }, num := 7, shapes := [3] } : Run), by decide +kernel⟩,
   ⟨(ws ([(Reg.PWR_STATUS, 0), (Reg.SCH_COVE_STATE 0, 2), (Reg.SCH_COVE_WP_LO 0, 0), (Reg.SCH_COVE_WP_HI 0, 0), (Reg.SCH_COVE_CORES_LO 0, 1), (Reg.SCH_COVE_CORES_HI 0, 0), (Reg.SCH_COVE_CFG 0, 0), (Reg.ARR_STATUS 0, 0), (Reg.PWR_DOM_STATE 0, 0), (Reg.SCH_COVE_JOB 0, 7), (Reg.SCH_COVE_CONTAIN_CNT 0, 2), (Reg.SCH_STATUS, 0)] ++ (List.range 7).flatMap fun c => [(Reg.SCH_COVE_STATE (c + 1), 0)]) fun d => { d with dram := [(7, 2), (4, 1)], coves := [(0, { elig := [0], run := some ({ job := { slots := 3, rows := 0, cost := 0, step := 0 }, num := 7, shapes := [3] } : Run) })], cores := [(0, { task := some { wtask with pos := 1 } })] }), ({ job := { slots := 3, rows := 0, cost := 0, step := 0 }, num := 7, shapes := [3] } : Run), (0), ({ wtask with pos := 1 }), by decide +kernel⟩,
   ⟨(ws ([(Reg.PWR_STATUS, 0), (Reg.SCH_COVE_STATE 0, 2), (Reg.SCH_COVE_WP_LO 0, 0), (Reg.SCH_COVE_WP_HI 0, 0), (Reg.SCH_COVE_CORES_LO 0, 1), (Reg.SCH_COVE_CORES_HI 0, 0), (Reg.SCH_COVE_CFG 0, 0), (Reg.ARR_STATUS 0, 0), (Reg.PWR_DOM_STATE 0, 0), (Reg.SCH_COVE_JOB 0, 7), (Reg.SCH_COVE_CONTAIN_CNT 0, 2), (Reg.SCH_STATUS, 0)] ++ (List.range 7).flatMap fun c => [(Reg.SCH_COVE_STATE (c + 1), 0)]) fun d => { d with dram := [(7, 2), (4, 1)], coves := [(0, { elig := [0], run := some ({ job := { slots := 3, rows := 0, cost := 0, step := 0 }, num := 7, shapes := [3] } : Run) })], cores := [(0, { task := some { wtask with contained := true } })] }), ({ job := { slots := 3, rows := 0, cost := 0, step := 0 }, num := 7, shapes := [3] } : Run), (0), ({ wtask with contained := true }), by decide +kernel⟩,
   ⟨(ws ([(Reg.PWR_STATUS, 0), (Reg.SCH_COVE_STATE 0, 2), (Reg.SCH_COVE_WP_LO 0, 0), (Reg.SCH_COVE_WP_HI 0, 0), (Reg.SCH_COVE_CORES_LO 0, 1), (Reg.SCH_COVE_CORES_HI 0, 0), (Reg.SCH_COVE_CFG 0, 0), (Reg.ARR_STATUS 0, 0), (Reg.PWR_DOM_STATE 0, 0), (Reg.SCH_COVE_JOB 0, 7), (Reg.SCH_COVE_CONTAIN_CNT 0, 2), (Reg.SCH_STATUS, 0)] ++ (List.range 7).flatMap fun c => [(Reg.SCH_COVE_STATE (c + 1), 0)]) fun d => { d with dram := [(7, 2), (4, 1)], coves := [(0, { elig := [0], run := some { ({ job := { slots := 3, rows := 0, cost := 0, step := 0 }, num := 7, shapes := [3] } : Run) with ended := [⟨0, false, []⟩] } })] }), 0, { ({ job := { slots := 3, rows := 0, cost := 0, step := 0 }, num := 7, shapes := [3] } : Run) with ended := [⟨0, false, []⟩] }, by decide +kernel⟩,
   ⟨(ws ([(Reg.PWR_STATUS, 0), (Reg.SCH_COVE_STATE 0, 2), (Reg.SCH_COVE_WP_LO 0, 0), (Reg.SCH_COVE_WP_HI 0, 0), (Reg.SCH_COVE_CORES_LO 0, 1), (Reg.SCH_COVE_CORES_HI 0, 0), (Reg.SCH_COVE_CFG 0, 0), (Reg.ARR_STATUS 0, 0), (Reg.PWR_DOM_STATE 0, 0), (Reg.SCH_COVE_JOB 0, 7), (Reg.SCH_COVE_CONTAIN_CNT 0, 2), (Reg.SCH_STATUS, 0)] ++ (List.range 7).flatMap fun c => [(Reg.SCH_COVE_STATE (c + 1), 0)]) fun d => { d with dram := [(7, 2), (4, 1), (16, 0)], coves := [(0, { elig := [0], run := some { ({ job := { slots := 3, rows := 0, cost := 0, step := 0 }, num := 7, shapes := [3] } : Run) with stage := 1, ended := [⟨0, false, []⟩] } })] }), 0, { ({ job := { slots := 3, rows := 0, cost := 0, step := 0 }, num := 7, shapes := [3] } : Run) with stage := 1, ended := [⟨0, false, []⟩] }, by decide +kernel⟩,
   ⟨(ws ([(Reg.PWR_STATUS, 0), (Reg.SCH_COVE_STATE 0, 3), (Reg.SCH_COVE_WP_LO 0, 0), (Reg.SCH_COVE_WP_HI 0, 0), (Reg.SCH_COVE_CORES_LO 0, 1), (Reg.SCH_COVE_CORES_HI 0, 0), (Reg.SCH_COVE_CFG 0, 0), (Reg.ARR_STATUS 0, 0), (Reg.PWR_DOM_STATE 0, 0), (Reg.SCH_COVE_JOB 0, 7), (Reg.SCH_COVE_CONTAIN_CNT 0, 2), (Reg.SCH_STATUS, 0)] ++ (List.range 7).flatMap fun c => [(Reg.SCH_COVE_STATE (c + 1), 0)]) fun d => { d with dram := [(7, 2), (4, 1)], coves := [(0, { run := some { ({ job := { slots := 3, rows := 0, cost := 0, step := 0 }, num := 7, shapes := [3] } : Run) with done := true } })] }), 0, { ({ job := { slots := 3, rows := 0, cost := 0, step := 0 }, num := 7, shapes := [3] } : Run) with done := true }, by decide +kernel⟩⟩

theorem witness_CopiesEmissionsAndCompletions :
    (∃ (s : State) (k : Fin 64) (t : Task) (c : Cmd), inReset s.dev = false ∧ AtCommand s.dev k t c ∧ c.type = 3 ∧ wordRead k c.src c.arg s.dev = none
      ∧ wordReach k c.dst c.arg s.dev = none) ∧
    (∃ (s : State) (k : Fin 64) (t : Task) (c : Cmd) (r : Run), inReset s.dev = false ∧ AtCommand s.dev k t c ∧ c.type = 4 ∧ c.arg % 16 = 1 ∧ runOf
      s.dev t.cove = some r ∧ wordRead k c.src 32 s.dev = none ∧ wordRead k c.src (32 + sumN ((entriesFrom (spaceAt k (addrWord c.src).1) s.dev 1
      (rdLE (spaceAt k (addrWord c.src).1) s.dev (addrWord c.src).2 2) ((addrWord c.src).2 + 32)).map (·.length))) s.dev = none) ∧
    (∃ (s : State) (k : Fin 64) (t : Task) (c : Cmd) (r : Run), inReset s.dev = false ∧ AtCommand s.dev k t c ∧ c.type = 4 ∧ c.arg % 16 = 2 ∧ runOf
      s.dev t.cove = some r ∧ wordRead k c.src 32 s.dev = none ∧ wordRead k c.src (32 + sumN ((entriesFrom (spaceAt k (addrWord c.src).1) s.dev 2
      (rdLE (spaceAt k (addrWord c.src).1) s.dev (addrWord c.src).2 2) ((addrWord c.src).2 + 32)).map (·.length))) s.dev = none) ∧
    (∃ (s : State) (k : Fin 64) (t : Task) (c : Cmd) (r : Run), inReset s.dev = false ∧ AtCommand s.dev k t c ∧ c.type = 4 ∧ c.arg % 16 = 3 ∧ runOf
      s.dev t.cove = some r ∧ wordRead k c.src 32 s.dev = none ∧ wordRead k c.src (32 + sumN ((entriesFrom (spaceAt k (addrWord c.src).1) s.dev 3
      (rdLE (spaceAt k (addrWord c.src).1) s.dev (addrWord c.src).2 2) ((addrWord c.src).2 + 32)).map (·.length))) s.dev = none) ∧
    (∃ (s : State) (k : Fin 64) (t : Task) (c : Cmd) (r : Run), inReset s.dev = false ∧ AtCommand s.dev k t c ∧ c.type = 4 ∧ c.arg % 16 = 4 ∧ runOf
      s.dev t.cove = some r ∧ wordRead k c.src 32 s.dev = none ∧ wordRead k c.src (32 + sumN ((entriesFrom (spaceAt k (addrWord c.src).1) s.dev 4
      (rdLE (spaceAt k (addrWord c.src).1) s.dev (addrWord c.src).2 2) ((addrWord c.src).2 + 32)).map (·.length))) s.dev = none) ∧
    (∃ (s : State) (k : Fin 64) (t : Task) (c : Cmd) (x : Step), inReset s.dev = false ∧ AtCommand s.dev k t c ∧ c.type = 4 ∧ c.arg % 16 = 5 ∧
      s.dev.kv.steps = [x] ∧ x.cove = t.cove ∧ x.started = true ∧ wordRead k c.src 32 s.dev = none ∧ wordRead k c.src (32 + sumN ((entriesFrom
      (spaceAt k (addrWord c.src).1) s.dev 5 (rdLE (spaceAt k (addrWord c.src).1) s.dev (addrWord c.src).2 2) ((addrWord c.src).2 + 32)).map
      (·.length))) s.dev = none) ∧
    (∃ (s : State) (k : Fin 64) (t : Task) (y : Task) (u : Dev), inReset s.dev = false ∧ (coreOf s.dev k).task = some y ∧ y.ran = true ∧
      y.cmdAt.isSome = true ∧ y.contained = false ∧ u = withNest k (fun cove g => drainTiles k cove g) s.dev ∧ (coreOf u k).task = some t ∧ t.ran =
      true ∧ t.cmdAt.isSome = true ∧ logAddr u t.cove + 16 ≤ dramBytes) ∧
    (∃ (s : State) (k : Fin 64) (t : Task) (a : Nat), inReset s.dev = false ∧ (coreOf s.dev k).task = some t ∧ t.cmdAt = some a ∧ t.contained = false
      ∧ a + rf s.dev Reg.SCH_CMD_LIM 0 10 * 1000000 < 2 ^ 64) ∧
    (∃ (s : State) (k : Fin 64), inReset s.dev = false ∧ ((coreOf s.dev k).task.bind (·.cmdAt)) = none) :=
  ⟨⟨(wnest 0 [] [(1024, 3), (1025, 4), (1029, 1), (1033, 32), (1041, 64), (1047, 128)] [] wreach), 0, wtask, ⟨3, 0, true, 0, 256, 8192, 16384 + 2 ^ 63, false⟩, by decide +kernel⟩,
   ⟨((fun (s : State) => { s with dev := { s.dev with coves := [(0, { run := some ({ job := { slots := 3, rows := 0, cost := 0, step := 0 }, num := 7, shapes := [3] } : Run) })] } }) (wnest 0 [] [(1024, 4), (1028, 1), (1033, 32), (8192, 1), (8224, 2)] [] wreach)), 0, wtask, ⟨4, 0, false, 0, 1, 8192, 0, false⟩, (({ job := { slots := 3, rows := 0, cost := 0, step := 0 }, num := 7, shapes := [3] } : Run)), by decide +kernel⟩,
   ⟨((fun (s : State) => { s with dev := { s.dev with coves := [(0, { run := some ({ job := { slots := 3, rows := 0, cost := 0, step := 0 }, num := 7, shapes := [3] } : Run) })] } }) (wnest 0 [] [(1024, 4), (1028, 2), (1033, 32), (8192, 1), (8224, 2)] [] wreach)), 0, wtask, ⟨4, 0, false, 0, 2, 8192, 0, false⟩, (({ job := { slots := 3, rows := 0, cost := 0, step := 0 }, num := 7, shapes := [3] } : Run)), by decide +kernel⟩,
   ⟨((fun (s : State) => { s with dev := { s.dev with coves := [(0, { run := some ({ job := { slots := 3, rows := 0, cost := 0, step := 0 }, num := 7, shapes := [3] } : Run) })] } }) (wnest 0 [] [(1024, 4), (1028, 3), (1033, 32), (8192, 1), (8224, 2)] [] wreach)), 0, wtask, ⟨4, 0, false, 0, 3, 8192, 0, false⟩, (({ job := { slots := 3, rows := 0, cost := 0, step := 0 }, num := 7, shapes := [3] } : Run)), by decide +kernel⟩,
   ⟨((fun (s : State) => { s with dev := { s.dev with coves := [(0, { run := some ({ job := { slots := 3, rows := 0, cost := 0, step := 0 }, num := 7, shapes := [3] } : Run) })] } }) (wnest 0 [] [(1024, 4), (1028, 4), (1033, 32), (8192, 1), (8224, 2)] [] wreach)), 0, wtask, ⟨4, 0, false, 0, 4, 8192, 0, false⟩, (({ job := { slots := 3, rows := 0, cost := 0, step := 0 }, num := 7, shapes := [3] } : Run)), by decide +kernel⟩,
   ⟨((fun (s : State) => { s with dev := { s.dev with kv := { steps := [{ cove := 0, started := true, ents := [] }] } } }) (wnest 0 [] [(1024, 4), (1028, 5), (1033, 32), (8192, 1), (8224, 2)] [] wreach)), 0, wtask, ⟨4, 0, false, 0, 5, 8192, 0, false⟩, ({ cove := 0, started := true, ents := [] }), by decide +kernel⟩,
   ⟨((fun (s : State) => { s with dev := { s.dev with cores := [(0, { task := some { wtask with ran := true, cmdAt := some 5, status := 0 } })] } }) (wnest 0 [] [(1024, 2)] [] [(Reg.SCH_COVE_SAVE0 0, 1), (Reg.WIN_STATUS 0, 0)])), 0, { wtask with ran := true, cmdAt := some 5, status := 0 }, ({ wtask with ran := true, cmdAt := some 5, status := 0 }), (withNest 0 (fun cove g => drainTiles 0 cove g) ((fun (s : State) => { s with dev := { s.dev with cores := [(0, { task := some { wtask with ran := true, cmdAt := some 5, status := 0 } })] } }) (wnest 0 [] [(1024, 2)] [] [(Reg.SCH_COVE_SAVE0 0, 1), (Reg.WIN_STATUS 0, 0)])).dev), by decide +kernel⟩,
   ⟨((fun (s : State) => { s with dev := { s.dev with cores := [(0, { task := some { wtask with cmdAt := some 5 } })] } }) (wnest 0 [] [] [] [(Reg.SCH_CMD_LIM, 100), (Reg.WIN_STATUS 0, 0), (Reg.ARR_STATUS 0, 0)])), 0, { wtask with cmdAt := some 5 }, (5), by decide +kernel⟩,
   ⟨(ws [] id), 0, by decide +kernel⟩⟩

theorem witness_SharedCoresTakeTurns :
    (∃ (s : State) (k : Fin 64) (t : Task) (e : Nat), inReset s.dev = false ∧ (coreOf s.dev k).turnEnd = some e ∧ e < 2 ^ 64 ∧ (coreOf s.dev k).task =
      some t ∧ t.cmdAt.isSome = true) ∧
    (∃ (s : State) (k : Fin 64) (t : Task) (e : Nat) (c : Nat) (x : Nat), inReset s.dev = false ∧ (coreOf s.dev k).turnEnd = some e ∧ (coreOf s.dev
      k).task = some t ∧ t.cmdAt = none ∧ allRun s.dev t = false ∧ (coreOf s.dev k).saving = false ∧ (coreOf s.dev k).restoring = false ∧ (coreOf
      s.dev k).turn = some c ∧ c < 8 ∧ x < 8 ∧ x ≠ c ∧ inCove s.dev x k = true ∧ couldPlace s.dev k x = true) ∧
    (∃ (s : State) (k : Fin 64), inReset s.dev = false ∧ (coreOf s.dev k).turnEnd = none) ∧
    (∃ (s : State) (k : Fin 64) (t : Task) (x : Ctx), inReset s.dev = false ∧ (coreOf s.dev k).saving = true ∧ (coreOf s.dev k).susp.getLast? = some
      (t, x) ∧ saveSlot s.dev t.cove k + t.live * 4096 ≤ dramBytes) ∧
    (∃ (s : State) (k : Fin 64) (t : Task) (x : Ctx), inReset s.dev = false ∧ (coreOf s.dev k).restoring = true ∧ (coreOf s.dev k).susp.find? (fun y
      => some y.1.cove == (coreOf s.dev k).turn) = some (t, x) ∧ t.staged = [] ∧ t.live ≤ 768) ∧
    (∃ (s : State) (k : Fin 64), inReset s.dev = false ∧ (coreOf s.dev k).restoring = true ∧ (coreOf s.dev k).susp = []) :=
  ⟨⟨(ws ([(Reg.SCH_COVE_WP_LO 0, 0), (Reg.SCH_COVE_WP_HI 0, 0), (Reg.SCH_COVE_STATE 0, 2), (Reg.SCH_COVE_STATE 1, 2), (Reg.SCH_COVE_CORES_LO 0, 1), (Reg.SCH_COVE_CORES_LO 1, 1), (Reg.SCH_COVE_CFG 0, 8000), (Reg.SCH_COVE_CFG 1, 8000), (Reg.SCH_COVE_SAVE0 0, 1)] ++ (List.range 6).flatMap fun c => [(Reg.SCH_COVE_STATE (c + 2), 0), (Reg.SCH_COVE_CORES_LO (c + 2), 0)]) fun d => { d with clk := { mhz := 1000 }, cores := [(0, { turn := some 0, turnEnd := some 900, task := some { wtask with cmdAt := some 5 } })]  }), 0, { wtask with cmdAt := some 5 }, (900), by decide +kernel⟩,
   ⟨(ws ([(Reg.SCH_COVE_WP_LO 0, 0), (Reg.SCH_COVE_WP_HI 0, 0), (Reg.SCH_COVE_STATE 0, 2), (Reg.SCH_COVE_STATE 1, 2), (Reg.SCH_COVE_CORES_LO 0, 1), (Reg.SCH_COVE_CORES_LO 1, 1), (Reg.SCH_COVE_CFG 0, 8000), (Reg.SCH_COVE_CFG 1, 8000), (Reg.SCH_COVE_SAVE0 0, 1), (Reg.SCH_COVE_WP_LO 1, 4096), (Reg.SCH_COVE_WP_HI 1, 0), (Reg.ARR_STATUS 0, 0)] ++ (List.range 6).flatMap fun c => [(Reg.SCH_COVE_STATE (c + 2), 0), (Reg.SCH_COVE_CORES_LO (c + 2), 0)]) fun d => { d with clk := { mhz := 1000 }, cores := [(0, { turn := some 0, turnEnd := some 900, task := some wtask })] , dram := [(4, 1), (4096 + 7, 1)], coves := [(1, { elig := [0], run := some ({ job := { slots := 3, rows := 0, cost := 0, step := 0 }, num := 7, shapes := [3] } : Run) })] }), 0, wtask, (900), (0), (1), by decide +kernel⟩,
   ⟨(ws ([(Reg.SCH_COVE_WP_LO 0, 0), (Reg.SCH_COVE_WP_HI 0, 0), (Reg.SCH_COVE_STATE 0, 2), (Reg.SCH_COVE_STATE 1, 2), (Reg.SCH_COVE_CORES_LO 0, 1), (Reg.SCH_COVE_CORES_LO 1, 1), (Reg.SCH_COVE_CFG 0, 8000), (Reg.SCH_COVE_CFG 1, 8000), (Reg.SCH_COVE_SAVE0 0, 1)] ++ (List.range 6).flatMap fun c => [(Reg.SCH_COVE_STATE (c + 2), 0), (Reg.SCH_COVE_CORES_LO (c + 2), 0)]) fun d => { d with clk := { mhz := 1000 }, cores := [(0, {})]  }), 0, by decide +kernel⟩,
   ⟨(ws ([(Reg.SCH_COVE_WP_LO 0, 0), (Reg.SCH_COVE_WP_HI 0, 0), (Reg.SCH_COVE_STATE 0, 2), (Reg.SCH_COVE_STATE 1, 2), (Reg.SCH_COVE_CORES_LO 0, 1), (Reg.SCH_COVE_CORES_LO 1, 1), (Reg.SCH_COVE_CFG 0, 8000), (Reg.SCH_COVE_CFG 1, 8000), (Reg.SCH_COVE_SAVE0 0, 1)] ++ (List.range 6).flatMap fun c => [(Reg.SCH_COVE_STATE (c + 2), 0), (Reg.SCH_COVE_CORES_LO (c + 2), 0)]) fun d => { d with clk := { mhz := 1000 }, cores := [(0, { saving := true, susp := [({ wtask with live := 1 }, {})] })] , scr := [(3, 9)] }), 0, { wtask with live := 1 }, ({}), by decide +kernel⟩,
   ⟨(ws ([(Reg.SCH_COVE_WP_LO 0, 0), (Reg.SCH_COVE_WP_HI 0, 0), (Reg.SCH_COVE_STATE 0, 2), (Reg.SCH_COVE_STATE 1, 2), (Reg.SCH_COVE_CORES_LO 0, 1), (Reg.SCH_COVE_CORES_LO 1, 1), (Reg.SCH_COVE_CFG 0, 8000), (Reg.SCH_COVE_CFG 1, 8000), (Reg.SCH_COVE_SAVE0 0, 1)] ++ (List.range 6).flatMap fun c => [(Reg.SCH_COVE_STATE (c + 2), 0), (Reg.SCH_COVE_CORES_LO (c + 2), 0)]) fun d => { d with clk := { mhz := 1000 }, cores := [(0, { restoring := true, turn := some 0, susp := [({ wtask with live := 1, grid := 129 }, {})] })] , dram := [(5242880 + 3, 9), (5242883, 7)] }), 0, { wtask with live := 1, grid := 129 }, ({}), by decide +kernel⟩,
   ⟨(ws ([(Reg.SCH_COVE_WP_LO 0, 0), (Reg.SCH_COVE_WP_HI 0, 0), (Reg.SCH_COVE_STATE 0, 2), (Reg.SCH_COVE_STATE 1, 2), (Reg.SCH_COVE_CORES_LO 0, 1), (Reg.SCH_COVE_CORES_LO 1, 1), (Reg.SCH_COVE_CFG 0, 8000), (Reg.SCH_COVE_CFG 1, 8000), (Reg.SCH_COVE_SAVE0 0, 1)] ++ (List.range 6).flatMap fun c => [(Reg.SCH_COVE_STATE (c + 2), 0), (Reg.SCH_COVE_CORES_LO (c + 2), 0)]) fun d => { d with clk := { mhz := 1000 }, cores := [(0, { restoring := true, turn := some 0 })]  }), 0, by decide +kernel⟩⟩

theorem witness_PortsReceiveFramesAndTrain :
    (∃ s : State, inReset s.dev = false ∧ portRuns s.dev 1 = true ∧ tst s.dev (Reg.ING_PORT_STATUS 1) 0 = true ∧ tst s.dev (Reg.ING_PORT_CFG 1) 0 = true ∧ domRuns s.dev 93 = true ∧ ebbState s.dev ≠ 2) ∧
    (∃ s : State, portRuns s.dev 1 = false) ∧
    (∃ (s : State) (b : List Byte), inReset s.dev = false ∧ portRuns s.dev 1 = true ∧ 64 ≤ b.length ∧ b.length ≤ 9022 ∧ acceptFrame s.dev 1 (b.take (b.length - 4)) = .inr .l3) ∧
    (∃ (s : State) (b : List Byte), inReset s.dev = false ∧ portRuns s.dev 1 = true ∧ 64 ≤ b.length ∧ b.length ≤ 9022 ∧ acceptFrame s.dev 1 (b.take (b.length - 4)) = .inr .csum) ∧
    (∃ (s : State) (b : List Byte), inReset s.dev = false ∧ portRuns s.dev 1 = true ∧ 64 ≤ b.length ∧ b.length ≤ 9022 ∧ acceptFrame s.dev 1 (b.take (b.length - 4)) = .inr .nomatch) ∧
    (∃ (s : State) (b : List Byte) (a : Accepted), inReset s.dev = false ∧ portRuns s.dev 1 = true ∧ 64 ≤ b.length ∧ b.length ≤ 9022 ∧ acceptFrame s.dev 1 (b.take (b.length - 4)) = .inl a ∧
      destOf s.dev 1 a = some .ziltur ∧ (mget (fun _ => (0, 0)) s.dev.ing.ctl 1).2 < 10000) ∧
    (∃ (s : State) (b : List Byte) (a : Accepted), inReset s.dev = false ∧ portRuns s.dev 1 = true ∧ 64 ≤ b.length ∧ b.length ≤ 9022 ∧ acceptFrame s.dev 1 (b.take (b.length - 4)) = .inl a ∧
      destOf s.dev 1 a = some (.media 0)) := by
  have key : ∀ (x : Accepted ⊕ DropAt) (P : Accepted → Bool), (match x with | .inl a => P a | .inr _ => false) = true → ∃ a, x = .inl a ∧ P a = true := by
    intro x P h; cases x with
    | inl a => exact ⟨a, rfl, h⟩
    | inr b => cases h
  have hs : inReset (ws (wport 1 1) id : State).dev = false := by decide +kernel
  have hr : portRuns (ws (wport 1 1) id : State).dev 1 = true := by decide +kernel
  refine ⟨⟨ws (wport 1 1) id, hs, hr, by decide +kernel, by decide +kernel, by decide +kernel, by decide +kernel⟩, ⟨ws (wport 0 0) id, by decide +kernel⟩,
    ⟨ws (wport 1 1) id, (wframe ([0x08, 0x00, 0x55])), hs, hr, by decide +kernel, by decide +kernel, by decide +kernel⟩, ⟨ws (wport 1 1) id, (wframe ([0x86, 0xDD, 0x60, 0, 0, 0, 0, 8, 17, 64] ++ List.replicate 32 0 ++ [0, 1, 0, 2, 0, 8, 0, 0])), hs, hr, by decide +kernel, by decide +kernel, by decide +kernel⟩,
    ⟨ws (wport 1 1) id, (wframe ([0x99, 0x00, 0x55])), hs, hr, by decide +kernel, by decide +kernel, by decide +kernel⟩, (let ⟨a, h1, h2⟩ := key (acceptFrame (ws (wport 1 1) id : State).dev 1 (List.take (List.length (wframe ([0x08, 0x06, 0x00])) - 4) (wframe ([0x08, 0x06, 0x00])))) (fun a => decide (destOf (ws (wport 1 1) id : State).dev 1 a = some .ziltur)) (by decide +kernel); ⟨ws (wport 1 1) id, (wframe ([0x08, 0x06, 0x00])), a, hs, hr, by decide +kernel, by decide +kernel, h1, of_decide_eq_true h2, by decide +kernel⟩),
    (let ⟨a, h1, h2⟩ := key (acceptFrame (ws (wport 1 1 ++ wstream ++ [(Reg.ING_TABLE 0 8, 1)]) id : State).dev 1 (List.take (List.length (wframe ([0x08, 0x00, 0x45, 0, 0, 40, 0, 0, 0, 0, 64, 17, 0x7A, 0xC5, 0, 0, 0, 0, 0, 0, 0, 1, 0, 1, 0x13, 0x8C, 0, 20, 0, 0, 0x80, 0x60, 0, 1, 0, 0, 0, 0, 0, 0, 0, 77])) - 4) (wframe ([0x08, 0x00, 0x45, 0, 0, 40, 0, 0, 0, 0, 64, 17, 0x7A, 0xC5, 0, 0, 0, 0, 0, 0, 0, 1, 0, 1, 0x13, 0x8C, 0, 20, 0, 0, 0x80, 0x60, 0, 1, 0, 0, 0, 0, 0, 0, 0, 77])))) (fun a => decide (destOf (ws (wport 1 1 ++ wstream ++ [(Reg.ING_TABLE 0 8, 1)]) id : State).dev 1 a = some (.media 0))) (by decide +kernel); ⟨ws (wport 1 1 ++ wstream ++ [(Reg.ING_TABLE 0 8, 1)]) id, (wframe ([0x08, 0x00, 0x45, 0, 0, 40, 0, 0, 0, 0, 64, 17, 0x7A, 0xC5, 0, 0, 0, 0, 0, 0, 0, 1, 0, 1, 0x13, 0x8C, 0, 20, 0, 0, 0x80, 0x60, 0, 1, 0, 0, 0, 0, 0, 0, 0, 77])), a, by decide +kernel, by decide +kernel, by decide +kernel, by decide +kernel, h1, of_decide_eq_true h2⟩)⟩

theorem witness_MediaAndReportsSteerTheReceiver :
    (∃ (s : State) (st : Fin 512), inReset s.dev = false ∧ portRuns s.dev (stPort s.dev st) = true ∧ (stValid s.dev st = false ∨ ingMatches s.dev =
      false)) ∧
    (∃ (s : State) (st : Fin 512) (p : RtpPkt), inReset s.dev = false ∧ portRuns s.dev (stPort s.dev st) = true ∧ stValid s.dev st = true ∧ ingMatches
      s.dev = true ∧ (p.ver ≠ 2 ∨ p.pt ≠ stF s.dev st 0 16 7)) ∧
    (∃ (s : State) (st : Fin 512) (p : RtpPkt) (x : Nat), inReset s.dev = false ∧ portRuns s.dev (stPort s.dev st) = true ∧ stValid s.dev st = true ∧
      ingMatches s.dev = true ∧ p.ver = 2 ∧ p.pt = stF s.dev st 0 16 7 ∧ ssrcOf s.dev st = some x ∧ x ≠ p.ssrc % 2 ^ 32) ∧
    (∃ (s : State) (st : Fin 512) (p : RtpPkt) (oc : Bool × Bool), inReset s.dev = false ∧ portRuns s.dev (stPort s.dev st) = true ∧ stValid s.dev st
      = true ∧ ingMatches s.dev = true ∧ p.ver = 2 ∧ p.pt = stF s.dev st 0 16 7 ∧ ssrcOf s.dev st = some (p.ssrc % 2 ^ 32) ∧ strm s.dev st = {} ∧
      classify (stF s.dev st 0 8 2) p = some oc ∧ stF s.dev st 0 14 1 = 0 ∧ p.payload.length ≤ jbBytes s.dev st ∧ jbBase s.dev st + jbBytes s.dev st ≤
      dramBytes ∧ dramReach s.dev (stPort s.dev st / 2) (jbBase s.dev st) (jbBytes s.dev st) = none) ∧
    (∃ (s : State) (st : Fin 512) (u : JUnit) (ps : List JPkt), inReset s.dev = false ∧ jHead s.dev st = some (.unit u ps) ∧ releaseTime s.dev st
      (.unit u ps) < 2 ^ 64) ∧
    (∃ (s : State) (st : Fin 512) (u : JUnit) (ts : Int), inReset s.dev = false ∧ jHead s.dev st = some (.ph ts u) ∧ releaseTime s.dev st (.ph ts u) <
      2 ^ 64) ∧
    (∃ (s : State) (st : Fin 512), inReset s.dev = false ∧ jHead s.dev st = none) ∧
    (∃ (s : State) (st : Fin 512), inReset s.dev = false ∧ stValid s.dev st = true ∧ (strm s.dev st).silent = false ∧ ebbState s.dev = 0 ∧ (strm s.dev
      st).lastPkt + rf s.dev Reg.ING_SILENT_LIM 0 16 * 1000000 < 2 ^ 64) ∧
    (∃ (s : State) (st : Fin 512), inReset s.dev = false ∧ (stValid s.dev st = false ∨ (strm s.dev st).silent = true ∨ ebbState s.dev ≠ 0)) ∧
    (∃ (s : State) (st : Fin 512) (ssrc : Nat), inReset s.dev = false ∧ rtcpHears s.dev st = true ∧ ssrcOf s.dev st = some ssrc) ∧
    (∃ (s : State) (st : Fin 512) (ssrc : Nat), inReset s.dev = false ∧ rtcpHears s.dev st = true ∧ ssrcOf s.dev st ≠ some ssrc) ∧
    (∃ (s : State) (st : Fin 512), inReset s.dev = false ∧ rtcpHears s.dev st = true) ∧
    (∃ (s : State) (st : Fin 512), inReset s.dev = false ∧ rf s.dev Reg.ING_CTRL 8 8 ≠ 0 ∧ (strm s.dev st).rrAt + rf s.dev Reg.ING_CTRL 8 8 *
      1000000000 < 2 ^ 64 ∧ rtcpHears s.dev st = true ∧ (strm s.dev st).started = true ∧ (strm s.dev st).probation = 0) ∧
    (∃ (s : State) (st : Fin 512), inReset s.dev = false ∧ (rf s.dev Reg.ING_CTRL 8 8 = 0 ∨ rtcpHears s.dev st = false ∨ (strm s.dev st).started =
      false ∨ (strm s.dev st).probation ≠ 0)) :=
  ⟨⟨(ws (wport 1 1 ++ [(Reg.ING_TABLE 0 0, 4)]) id), 0, by decide +kernel⟩,
   ⟨(ws (wport 1 1 ++ wstream) fun d => { d with ing := { strms := [(0, {})] } }), 0, ⟨2, 97, true, 7, 9000, 77, [0x41, 5], 0⟩, by decide +kernel⟩,
   ⟨(ws (wport 1 1 ++ wstream) fun d => { d with ing := { strms := [(0, {})] } }), 0, ⟨2, 96, true, 7, 9000, 78, [0x41, 5], 0⟩, (77), by decide +kernel⟩,
   ⟨(ws (wport 1 1 ++ wstream ++ wreach) fun d => { d with ing := { strms := [(0, {})] } }), 0, ⟨2, 96, true, 7, 9000, 77, [0x41, 5], 0⟩, ((true, true)), by decide +kernel⟩,
   ⟨(ws (wport 1 1 ++ wstream) fun d => { d with ing := { strms := [(0, { started := true, units := [⟨9000, 500, 0, false, 100, 10⟩], pkts := [⟨7, 9000, true, true, true, 0, 2⟩] })] } }), 0, (⟨9000, 500, 0, false, 100, 10⟩), ([⟨7, 9000, true, true, true, 0, 2⟩]), by decide +kernel⟩,
   ⟨(ws (wport 1 1 ++ wstream ++ [(Reg.ING_TABLE 0 4, 3000 * 65536)]) fun d => { d with ing := { strms := [(0, { started := true, lastSeq := some 3, endSeq := 3, lastTs := 3000, units := [⟨12000, 500, 0, false, 100, 10⟩], pkts := [⟨7, 12000, true, true, true, 0, 2⟩] })] } }), 0, (⟨12000, 500, 0, false, 100, 10⟩), (6000), by decide +kernel⟩,
   ⟨(ws (wport 1 1 ++ wstream) fun d => { d with ing := { strms := [(0, {})] } }), 0, by decide +kernel⟩,
   ⟨(ws (wport 1 1 ++ wstream) fun d => { d with ing := { strms := [(0, {})] } }), 0, by decide +kernel⟩,
   ⟨(ws (wport 1 1 ++ wstream) fun d => { d with ing := { strms := [(0, { silent := true })] } }), 0, by decide +kernel⟩,
   ⟨(ws (wport 1 1 ++ wstream) fun d => { d with ing := { strms := [(0, {})] } }), 0, (77), by decide +kernel⟩,
   ⟨(ws (wport 1 1 ++ wstream) fun d => { d with ing := { strms := [(0, {})] } }), 0, (78), by decide +kernel⟩,
   ⟨(ws (wport 1 1 ++ wstream) fun d => { d with ing := { strms := [(0, {})] } }), 0, by decide +kernel⟩,
   ⟨(ws (wport 1 1 ++ wstream) fun d => { d with ing := { strms := [(0, { started := true })] } }), 0, by decide +kernel⟩,
   ⟨(ws (wport 1 1 ++ wstream) fun d => { d with ing := { strms := [(0, {})] } }), 0, by decide +kernel⟩⟩

theorem witness_CommitTakesEffectAtTheMark :
    (∃ (s : State) (l : List Word), commitCheck s.dev 0 l ≠ 0) ∧ (∃ (s : State) (l : List Word), commitCheck s.dev 0 l = 0 ∧ l.length = 32) ∧ (∃ s : State, stValid s.dev 0 = true) :=
  ⟨⟨ws [] id, [], by decide +kernel⟩,
   ⟨ws ([(Reg.CDC_CTX_CFG 0 2, 0x200)] ++ (List.range 512).map fun i => (Reg.ING_TABLE i 0, 0)) id,
    (List.range 32).map (fun i => match i with | 0 => 1 | 1 => 5004 | 3 => 0x100 + 100 | 4 => 3000 * 65536 + 32 | 6 => 1 | _ => 0), by decide +kernel⟩,
   ⟨ws [(Reg.ING_TABLE 0 0, 1)] id, by decide +kernel⟩⟩
theorem witness_StreamEntriesOpenAndClose :
    (∃ (s : State), inReset s.dev = false) ∧
    (∃ (s : State), inReset s.dev = false) ∧
    (∃ (s : State) (st : Fin 512), inReset s.dev = false ∧ stValid s.dev st = true) ∧
    (∃ (s : State) (st : Fin 512), inReset s.dev = false ∧ stValid s.dev st = false) ∧
    (∃ (s : State) (st : Fin 512), inReset s.dev = false ∧ mayReopen s.dev st = true) ∧
    (∃ (s : State) (st : Fin 512), inReset s.dev = false ∧ mayReopen s.dev st = false) ∧
    (∃ (s : State) (st : Fin 512), inReset s.dev = false ∧ mayReopen s.dev st = true ∧ sState s.dev st = 1 ∧ ebbState s.dev = 0) ∧
    (∃ (s : State) (st : Fin 512), inReset s.dev = false ∧ mayReopen s.dev st = true ∧ sState s.dev st = 1 ∧ ebbState s.dev = 0) ∧
    (∃ (s : State) (st : Fin 512), inReset s.dev = false ∧ mayReopen s.dev st = true ∧ ebbState s.dev = 0 ∧ sState s.dev st ∈ [2, 3, 4, 5]) ∧
    (∃ (s : State) (st : Fin 512), inReset s.dev = false ∧ mayReopen s.dev st = true ∧ sState s.dev st ≠ 6 ∧ ebbState s.dev = 0) :=
  ⟨⟨(ws (wport 1 1 ++ wstream ++ [(Reg.ING_ENTRY_RESULT, 0)]) fun d => { d with ing := { strms := [] } }), by decide +kernel⟩,
   ⟨(ws (wport 1 1 ++ wstream ++ [(Reg.ING_ENTRY_RESULT, 0)]) fun d => { d with ing := { strms := [] } }), by decide +kernel⟩,
   ⟨(ws (wport 1 1 ++ [(Reg.ING_S_STATE 0, 5)] ++ wstream ++ [(Reg.ING_ENTRY_RESULT, 0)]) fun d => { d with ing := { strms := [] } }), 0, by decide +kernel⟩,
   ⟨(ws [(Reg.ING_TABLE 0 0, 0), (Reg.ING_ENTRY_RESULT, 0)] id), 0, by decide +kernel⟩,
   ⟨(ws (wport 1 1 ++ [(Reg.ING_S_STATE 0, 6)] ++ wstream ++ [(Reg.ING_ENTRY_RESULT, 0)]) fun d => { d with ing := { strms := [] } }), 0, by decide +kernel⟩,
   ⟨(ws [(Reg.ING_TABLE 0 0, 0), (Reg.ING_ENTRY_RESULT, 0)] id), 0, by decide +kernel⟩,
   ⟨(ws (wport 1 1 ++ [(Reg.ING_S_STATE 0, 1)] ++ wstream ++ [(Reg.ING_ENTRY_RESULT, 0)]) fun d => { d with ing := { strms := [] } }), 0, by decide +kernel⟩,
   ⟨(ws (wport 1 1 ++ [(Reg.ING_S_STATE 0, 1)] ++ wstream ++ [(Reg.ING_ENTRY_RESULT, 0)]) fun d => { d with ing := { strms := [] } }), 0, by decide +kernel⟩,
   ⟨(ws (wport 1 1 ++ wstream ++ [(Reg.ING_ENTRY_RESULT, 0)]) fun d => { d with ing := { strms := [] } }), 0, by decide +kernel⟩,
   ⟨(ws (wport 1 1 ++ wstream ++ [(Reg.ING_ENTRY_RESULT, 0)]) fun d => { d with ing := { strms := [] } }), 0, by decide +kernel⟩⟩

theorem witness_PipesBuildSamples :
    (∃ (s : State) (q : Fin 4) (p : Pic) (c : Nat) (ps : List Pic) (xs : List (Nat × Samp)), inReset s.dev = false ∧ domRuns s.dev (88 + q) = true ∧
      pipeOf s.dev q = p :: ps ∧ (∀ y ∈ p :: ps, y.started = false ∧ y.host = false) ∧ p.coves = [c] ∧ c < 8 ∧ coveState s.dev c ∈ [1, 2, 3] ∧
      p.id.taint = false ∧ xs = ((List.range 7).map fun g => genSamps s.dev (q.val / 2) p.id (stProfile s.dev p.id.stream) g).flatMap (·.1) ∧ xs.any
      (fun y => y.1 == c) = true) ∧
    (∃ (s : State) (q : Fin 4), inReset s.dev = false ∧ (pipeOf s.dev q).any (·.started) = true) ∧
    (∃ (s : State) (q : Fin 4) (p : Pic) (c : Nat) (x : Samp) (i : Nat) (ps : List Pic) (rest : List (Nat × Samp)), inReset s.dev = false ∧ domRuns
      s.dev (88 + q) = true ∧ pipeOf s.dev q = p :: ps ∧ p.started = true ∧ p.cur = none ∧ p.todo = (c, x) :: rest ∧ x.void = false ∧ freeStage s.dev
      c (q.val / 2) = some i) ∧
    (∃ (s : State) (q : Fin 4) (p : Pic) (c : Nat) (x : Samp) (ps : List Pic) (rest : List (Nat × Samp)), inReset s.dev = false ∧ domRuns s.dev (88 +
      q) = true ∧ pipeOf s.dev q = p :: ps ∧ p.started = true ∧ p.cur = none ∧ p.todo = (c, x) :: rest ∧ freeStage s.dev c (q.val / 2) = none) ∧
    (∃ (s : State) (q : Fin 4), inReset s.dev = false ∧ (pipeOf s.dev q).any (·.started) = false) ∧
    (∃ (s : State) (q : Fin 4) (p : Pic) (c : Nat) (x : Samp) (i : Nat) (ps : List Pic) (f : PFrame) (b : List Byte), inReset s.dev = false ∧ pipeOf
      s.dev q = p :: ps ∧ p.started = true ∧ p.cur = some (c, x, i) ∧ c < 8 ∧ pendOf s.dev c p.id = some f ∧ b = (sampleBytes s.dev p (matrixFor s.dev
      (stProfile s.dev p.id.stream) p.jpeg p.vui) (classOf s.dev c x.cls) x).1 ∧ stageAddr s.dev c (q.val / 2) i + b.length ≤ dramBytes ∧ (pipeReach
      s.dev q p (stageAddr s.dev c (q.val / 2) i) (classOf s.dev c x.cls).size).isNone = true) ∧
    (∃ (s : State) (q : Fin 4) (p : Pic) (c : Nat) (x : Samp) (flt : Fin 4) (i : Nat) (ps : List Pic) (f : PFrame), inReset s.dev = false ∧ pipeOf
      s.dev q = p :: ps ∧ p.started = true ∧ p.cur = some (c, x, i) ∧ c < 8 ∧ pendOf s.dev c p.id = some f ∧ 2 ≤ flt.val) :=
  ⟨⟨(wpix 2 [wpic]), 0, wpic, 0, ([]), ([(0, wsamp)]), by decide +kernel⟩,
   ⟨(wpix 2 [wpicT]), 0, by decide +kernel⟩,
   ⟨(wpix 2 [wpicT]), 0, wpicT, 0, wsamp, (0), ([]), ([]), by decide +kernel⟩,
   ⟨(wpix 0 [wpicT]), 0, wpicT, 0, wsamp, ([]), ([]), by decide +kernel⟩,
   ⟨(wpix 2 []), 0, by decide +kernel⟩,
   ⟨(wpix 2 [wpicC]), 0, wpicC, 0, wsamp, (0), ([]), ({ id := wid }), ((sampleBytes (wpix 2 [wpicC] : State).dev wpicC 0 (classOf (wpix 2 [wpicC] : State).dev 0 0) wsamp).1), by decide +kernel, by decide +kernel, rfl, rfl, by decide, by decide +kernel, rfl, by decide +kernel, by decide +kernel⟩,
   ⟨(wpix 2 [wpicC]), 0, wpicC, 0, wsamp, (2), (0), ([]), ({ id := wid }), by decide +kernel⟩⟩

theorem witness_HostListsAnswerPostedPictures :
    (∃ (s : State) (h : H2D) (es : List ListSamp) (q : Fin 4) (p : Pic), inReset s.dev = false ∧ ringHasEntry s.dev 8 = true ∧ h2dOk s.dev 8 1 h =
      true ∧ es.length ≤ 32 ∧ picByTag s.dev h.tag = some (q.val, p)) ∧
    (∃ (s : State) (h : H2D) (es : List ListSamp), inReset s.dev = false ∧ ringHasEntry s.dev 8 = true ∧ (h2dOk s.dev 8 1 h = false ∨ 32 < es.length ∨
      picByTag s.dev h.tag = none)) ∧
    (∃ (s : State), inReset s.dev = false ∧ ringHasEntry s.dev 8 = false) ∧
    (∃ (s : State) (q : Fin 4) (p : Pic) (x : Nat × Nat), inReset s.dev = false ∧ (pipeOf s.dev q).find? (fun y => !y.started && y.list.isNone &&
      y.post.isSome) = some p ∧ p.post = some x ∧ x.2 + rf s.dev Reg.PIX_HOST_LIM 0 16 * 1000000 < 2 ^ 64) :=
  ⟨⟨((fun (s : State) => { s with dev := { s.dev with regs := ((wring 8 ++ [(Reg.PCI_STALE_CNT, 0)]).map fun (p : Nat × Nat) => (p.1, BitVec.ofNat 32 p.2)) ++ s.dev.regs, pci := wpci } }) (wpix 2 [wpicH])), ⟨1, 16, 3⟩, [⟨0, 0, false, false, 64, 0, 0, 0, 0⟩], 0, wpicH, by decide +kernel⟩,
   ⟨((fun (s : State) => { s with dev := { s.dev with regs := ((wring 8 ++ [(Reg.PCI_STALE_CNT, 0)]).map fun (p : Nat × Nat) => (p.1, BitVec.ofNat 32 p.2)) ++ s.dev.regs, pci := wpci } }) (wpix 2 [wpicH])), ⟨1, 16, 4⟩, [⟨0, 0, false, false, 64, 0, 0, 0, 0⟩], by decide +kernel⟩,
   ⟨(ws [(Reg.PCI_RING_STATE 8, 0)] id), by decide +kernel⟩,
   ⟨((fun (s : State) => { s with dev := { s.dev with regs := ((wring 8 ++ [(Reg.PCI_STALE_CNT, 0)]).map fun (p : Nat × Nat) => (p.1, BitVec.ofNat 32 p.2)) ++ s.dev.regs, pci := wpci } }) (wpix 2 [wpicH])), 0, wpicH, ((3, 10)), by decide +kernel⟩⟩

theorem witness_BatchesAreCopiedAndConfigured :
    (∃ (s : State) (c : Fin 8) (dd : Fin 2) (j : Job) (i : Nat) (n : Nat) (a : Nat) (h : Nat) (k : Nat × Nat) (bad : List Nat), inReset s.dev = false
      ∧ (coveOf s.dev c).queue.find? (fun y => y.copies.contains dd.val) = some j ∧ j.copies = [dd.val] ∧ j.staged = [(dd.val, i, n)] ∧ h = entryAddr
      s.dev c j.entry + 256 + 32 * n ∧ a = entryAddr s.dev c j.entry + slotOfs s.dev c + n * slotBytes s.dev c ∧ k = j.sizes.getD (bits (rdLE .dram
      s.dev h 4) 9 3) (0, 0) ∧ bitOf (rdLE .dram s.dev h 4) 12 = false ∧ a + (k.1 + k.2) ≤ dramBytes ∧ n < slotsMax s.dev c ∧ n ∉ bad ∧ dramRead s.dev
      dd (stageAddr s.dev c dd i) (k.1 + k.2) = none) ∧
    (∃ (s : State) (c : Fin 8) (dd : Fin 2) (j : Job) (i : Nat) (n : Nat) (a : Nat) (h : Nat) (k : Nat × Nat) (bad : List Nat), inReset s.dev = false
      ∧ (coveOf s.dev c).queue.find? (fun y => y.copies.contains dd.val) = some j ∧ j.copies = [dd.val] ∧ j.staged = [(dd.val, i, n)] ∧ h = entryAddr
      s.dev c j.entry + 256 + 32 * n ∧ a = entryAddr s.dev c j.entry + slotOfs s.dev c + n * slotBytes s.dev c ∧ k = j.sizes.getD (bits (rdLE .dram
      s.dev h 4) 9 3) (0, 0) ∧ bitOf (rdLE .dram s.dev h 4) 12 = false ∧ a + (k.1 + k.2) ≤ dramBytes ∧ n < slotsMax s.dev c ∧ (n ∈ bad ∨ (dramRead
      s.dev dd (stageAddr s.dev c dd i) (k.1 + k.2)).isSome = true)) ∧
    (∃ (s : State) (c : Fin 8) (dd : Fin 2), inReset s.dev = false ∧ (coveOf s.dev c).queue.find? (fun y => y.copies.contains dd.val) = none) ∧
    (∃ (s : State) (c : Fin 8) (r : Req), inReset s.dev = false ∧ Reaches s.dev r (Reg.PIX_Q_CFG c) ∧ coveState s.dev c ∉ [1, 2, 3]) ∧
    (∃ (s : State) (c : Fin 8) (r : Req) (lo : Word), inReset s.dev = false ∧ Reaches s.dev r (Reg.PIX_Q_BASE_HI c) ∧ (latchOf s.dev r
      (Reg.PIX_Q_BASE_LO c)).wr = some lo ∧ coveState s.dev c ∉ [1, 2, 3]) ∧
    (∃ (s : State) (c : Fin 8) (r : Req) (m : Fin 7), inReset s.dev = false ∧ 3 ≤ m.val ∧ m.val ≤ 5 ∧ Reaches s.dev r (pixQReg c m).1 ∧ coveState
      s.dev c ∉ [1, 2, 3]) ∧
    (∃ (s : State) (c : Fin 8) (r : Req) (m : Fin 7), inReset s.dev = false ∧ (m.val = 0 ∨ 3 ≤ m.val) ∧ Reaches s.dev r (pixQReg c m).1 ∧ coveState
      s.dev c ∈ [1, 2, 3]) :=
  ⟨⟨(ws (wreach ++ wpixR ++ [(Reg.PIX_Q_BASE_LO 0, 1048576), (Reg.PIX_Q_BASE_HI 0, 0), (Reg.PIX_Q_CFG 0, 4 + 1 * 8192), (Reg.PIX_Q_VOID_CNT 0, 0)]) fun d => { d with dram := [(69632, 9)], coves := [(0, { queue := [({ entry := 0, slots := 1, copies := [0], staged := [(0, 1, 0)], sizes := [(256, 3)] } : Job)] })] }), 0, 0, ({ entry := 0, slots := 1, copies := [0], staged := [(0, 1, 0)], sizes := [(256, 3)] } : Job), 1, 0, entryAddr (ws (wreach ++ wpixR ++ [(Reg.PIX_Q_BASE_LO 0, 1048576), (Reg.PIX_Q_BASE_HI 0, 0), (Reg.PIX_Q_CFG 0, 4 + 1 * 8192), (Reg.PIX_Q_VOID_CNT 0, 0)]) fun d => { d with dram := [(69632, 9)], coves := [(0, { queue := [({ entry := 0, slots := 1, copies := [0], staged := [(0, 1, 0)], sizes := [(256, 3)] } : Job)] })] } : State).dev 0 0 + slotOfs (ws (wreach ++ wpixR ++ [(Reg.PIX_Q_BASE_LO 0, 1048576), (Reg.PIX_Q_BASE_HI 0, 0), (Reg.PIX_Q_CFG 0, 4 + 1 * 8192), (Reg.PIX_Q_VOID_CNT 0, 0)]) fun d => { d with dram := [(69632, 9)], coves := [(0, { queue := [({ entry := 0, slots := 1, copies := [0], staged := [(0, 1, 0)], sizes := [(256, 3)] } : Job)] })] } : State).dev 0, entryAddr (ws (wreach ++ wpixR ++ [(Reg.PIX_Q_BASE_LO 0, 1048576), (Reg.PIX_Q_BASE_HI 0, 0), (Reg.PIX_Q_CFG 0, 4 + 1 * 8192), (Reg.PIX_Q_VOID_CNT 0, 0)]) fun d => { d with dram := [(69632, 9)], coves := [(0, { queue := [({ entry := 0, slots := 1, copies := [0], staged := [(0, 1, 0)], sizes := [(256, 3)] } : Job)] })] } : State).dev 0 0 + 256, (256, 3), [], by decide +kernel⟩,
   ⟨(ws (wreach ++ wpixR ++ [(Reg.PIX_Q_BASE_LO 0, 1048576), (Reg.PIX_Q_BASE_HI 0, 0), (Reg.PIX_Q_CFG 0, 4 + 1 * 8192), (Reg.PIX_Q_VOID_CNT 0, 0)]) fun d => { d with dram := [(69632, 9)], coves := [(0, { queue := [({ entry := 0, slots := 1, copies := [0], staged := [(0, 1, 0)], sizes := [(256, 3)] } : Job)] })] }), 0, 0, ({ entry := 0, slots := 1, copies := [0], staged := [(0, 1, 0)], sizes := [(256, 3)] } : Job), 1, 0, entryAddr (ws (wreach ++ wpixR ++ [(Reg.PIX_Q_BASE_LO 0, 1048576), (Reg.PIX_Q_BASE_HI 0, 0), (Reg.PIX_Q_CFG 0, 4 + 1 * 8192), (Reg.PIX_Q_VOID_CNT 0, 0)]) fun d => { d with dram := [(69632, 9)], coves := [(0, { queue := [({ entry := 0, slots := 1, copies := [0], staged := [(0, 1, 0)], sizes := [(256, 3)] } : Job)] })] } : State).dev 0 0 + slotOfs (ws (wreach ++ wpixR ++ [(Reg.PIX_Q_BASE_LO 0, 1048576), (Reg.PIX_Q_BASE_HI 0, 0), (Reg.PIX_Q_CFG 0, 4 + 1 * 8192), (Reg.PIX_Q_VOID_CNT 0, 0)]) fun d => { d with dram := [(69632, 9)], coves := [(0, { queue := [({ entry := 0, slots := 1, copies := [0], staged := [(0, 1, 0)], sizes := [(256, 3)] } : Job)] })] } : State).dev 0, entryAddr (ws (wreach ++ wpixR ++ [(Reg.PIX_Q_BASE_LO 0, 1048576), (Reg.PIX_Q_BASE_HI 0, 0), (Reg.PIX_Q_CFG 0, 4 + 1 * 8192), (Reg.PIX_Q_VOID_CNT 0, 0)]) fun d => { d with dram := [(69632, 9)], coves := [(0, { queue := [({ entry := 0, slots := 1, copies := [0], staged := [(0, 1, 0)], sizes := [(256, 3)] } : Job)] })] } : State).dev 0 0 + 256, (256, 3), [0], by decide +kernel⟩,
   ⟨(ws [] id), 0, 0, by decide +kernel⟩,
   ⟨(ws (((List.range 8).map fun c => (Reg.SCH_COVE_STATE c, 0)) ++ [(Reg.BOOT_STATUS, 10), (Reg.PIX_ADM_EVENT, 0), (Reg.PIX_CLASS_A 0 0, 0)]) id), 0, .ziltur, by decide +kernel⟩,
   ⟨(ws (((List.range 8).map fun c => (Reg.SCH_COVE_STATE c, 0)) ++ [(Reg.BOOT_STATUS, 10), (Reg.PIX_ADM_EVENT, 0), (Reg.PIX_CLASS_A 0 0, 0)]) fun d => { d with bus := [{ r := .ziltur, a := Reg.PIX_Q_BASE_LO 0, wr := some 8195 }] }), 0, .ziltur, (8195), by decide +kernel⟩,
   ⟨(ws (((List.range 8).map fun c => (Reg.SCH_COVE_STATE c, 0)) ++ [(Reg.BOOT_STATUS, 10), (Reg.PIX_ADM_EVENT, 0), (Reg.PIX_CLASS_A 0 0, 0)]) id), 0, .ziltur, (4), by decide +kernel⟩,
   ⟨(ws [(Reg.SCH_COVE_STATE 0, 2), (Reg.BOOT_STATUS, 10)] id), 0, .ziltur, (0), by decide +kernel⟩⟩

theorem witness_FramesAreAssociatedAndCommitted :
    (∃ (s : State) (dd : Fin 2) (f : TFrame), inReset s.dev = false ∧ nextFrame s.dev dd = some f ∧ f.host = false ∧ (trkOf s.dev dd).cur = none ∧
      (trkOf s.dev dd).posted = [] ∧ s.dev.bt.trkOff.contains dd.val = false ∧ tst s.dev (Reg.TRK_CTRL dd) 0 = true ∧ assocReach s.dev dd 0
      { f := f, cands := trkCands s.dev dd f.id } = none) ∧
    (∃ (s : State) (dd : Fin 2) (f : TFrame), inReset s.dev = false ∧ nextFrame s.dev dd = some f ∧ f.host = true ∧ (trkOf s.dev dd).posted = [] ∧
      s.dev.bt.trkOff.contains dd.val = false ∧ tst s.dev (Reg.TRK_CTRL dd) 0 = true ∧ assocReach s.dev dd 0
      { f := f, cands := trkCands s.dev dd f.id } = none) ∧
    (∃ (s : State) (dd : Fin 2) (f : TFrame), inReset s.dev = false ∧ nextFrame s.dev dd = some f ∧ (trkOf s.dev dd).cur = none ∧ (trkOf s.dev
      dd).posted = [] ∧ s.dev.bt.trkOff.contains dd.val = false ∧ tst s.dev (Reg.TRK_CTRL dd) 0 = false) ∧
    (∃ (s : State) (dd : Fin 2) (f : TFrame), inReset s.dev = false ∧ nextFrame s.dev dd = some f ∧ (trkOf s.dev dd).cur = none ∧ (trkOf s.dev
      dd).posted = [] ∧ s.dev.bt.trkOff.contains dd.val = false) ∧
    (∃ (s : State) (dd : Fin 2), inReset s.dev = false ∧ nextFrame s.dev dd = none) ∧
    (∃ (s : State) (dd : Fin 2) (a : Assoc), inReset s.dev = false ∧ (trkOf s.dev dd).cur = some a ∧ trkReach s.dev dd (commitTouches s.dev dd a
      (openers s.dev dd a (assignment s.dev dd a))) = none ∧ (∀ x ∈ a.cands, x < 32768)) ∧
    (∃ (s : State) (dd : Fin 2) (a : Assoc) (t : Nat), inReset s.dev = false ∧ (trkOf s.dev dd).cur = some a ∧ trkReach s.dev dd (commitTouches s.dev
      dd a (openers s.dev dd a (assignment s.dev dd a))) = none ∧ a.cands = [t] ∧ a.f.dets = [] ∧ t / 16384 = dd.val ∧ (trkState s.dev t = 1 ∨
      trkState s.dev t = 2) ∧ trkAddr s.dev t + 256 ≤ dramBytes) ∧
    (∃ (s : State) (dd : Fin 2) (a : Assoc) (t : Nat) (z : Det), inReset s.dev = false ∧ (trkOf s.dev dd).cur = some a ∧ trkReach s.dev dd
      (commitTouches s.dev dd a (openers s.dev dd a (assignment s.dev dd a))) = none ∧ a.cands = [] ∧ a.f.dets = [z] ∧ le32 (tfrac (rf s.dev
      (Reg.TRK_LIMITS dd) 24 8) 8) z.score = true ∧ confirmHits s.dev dd ≠ 1 ∧ streamTracks s.dev dd a.f.id.stream [3] = [] ∧ (dieTracks dd).find?
      (fun x => trkState s.dev x == 0) = some t ∧ trkAddr s.dev t + 256 ≤ dramBytes) ∧
    (∃ (s : State) (dd : Fin 2) (a : Assoc) (x : NoReach), inReset s.dev = false ∧ (trkOf s.dev dd).cur = some a ∧ trkReach s.dev dd (commitTouches
      s.dev dd a (openers s.dev dd a (assignment s.dev dd a))) = some x ∧ x.why = .down) ∧
    (∃ (s : State) (dd : Fin 2), inReset s.dev = false ∧ (trkOf s.dev dd).cur = none) :=
  ⟨⟨(ws ([(Reg.TRK_TABLE_BASE_LO 0, 1048576), (Reg.TRK_TABLE_BASE_HI 0, 0), (Reg.TRK_CTRL 0, 1), (Reg.TRK_STATUS 0, 0), (Reg.TRK_STATUS 1, 0), (Reg.TRK_EVENT 0, 0), (Reg.TRK_FRAME_CNT 0, 4), (Reg.TRK_DET_CNT 0, 9), (Reg.TRK_LIMITS 0, 0x300), (Reg.TRK_NOISE 0, 0), (Reg.TRK_ECC_CNT 0, 0)] ++ wreach) fun d => { d with trk := [(0, { queue := [({ id := wid, dets := [], host := false } : TFrame)] })] }), 0, ({ id := wid, dets := [], host := false } : TFrame), by decide +kernel⟩,
   ⟨(ws ([(Reg.TRK_TABLE_BASE_LO 0, 1048576), (Reg.TRK_TABLE_BASE_HI 0, 0), (Reg.TRK_CTRL 0, 1), (Reg.TRK_STATUS 0, 0), (Reg.TRK_STATUS 1, 0), (Reg.TRK_EVENT 0, 0), (Reg.TRK_FRAME_CNT 0, 4), (Reg.TRK_DET_CNT 0, 9), (Reg.TRK_LIMITS 0, 0x300), (Reg.TRK_NOISE 0, 0), (Reg.TRK_ECC_CNT 0, 0)] ++ wreach) fun d => { d with trk := [(0, { queue := [({ id := wid, dets := [], host := true } : TFrame)] })] }), 0, ({ id := wid, dets := [], host := true } : TFrame), by decide +kernel⟩,
   ⟨(ws ([(Reg.TRK_TABLE_BASE_LO 0, 1048576), (Reg.TRK_TABLE_BASE_HI 0, 0), (Reg.TRK_CTRL 0, 0), (Reg.TRK_STATUS 0, 0), (Reg.TRK_STATUS 1, 0), (Reg.TRK_EVENT 0, 0), (Reg.TRK_FRAME_CNT 0, 4), (Reg.TRK_DET_CNT 0, 9), (Reg.TRK_LIMITS 0, 0x300), (Reg.TRK_NOISE 0, 0), (Reg.TRK_ECC_CNT 0, 0)] ++ wreach) fun d => { d with trk := [(0, { queue := [({ id := wid, dets := [], host := false } : TFrame)] })] }), 0, ({ id := wid, dets := [], host := false } : TFrame), by decide +kernel⟩,
   ⟨(ws ([(Reg.TRK_TABLE_BASE_LO 0, 1048576), (Reg.TRK_TABLE_BASE_HI 0, 0), (Reg.TRK_CTRL 0, 1), (Reg.TRK_STATUS 0, 0), (Reg.TRK_STATUS 1, 0), (Reg.TRK_EVENT 0, 0), (Reg.TRK_FRAME_CNT 0, 4), (Reg.TRK_DET_CNT 0, 9), (Reg.TRK_LIMITS 0, 0x300), (Reg.TRK_NOISE 0, 0), (Reg.TRK_ECC_CNT 0, 0)] ++ wreach) fun d => { d with trk := [(0, { queue := [({ id := wid, dets := [], host := false } : TFrame)] })] }), 0, ({ id := wid, dets := [], host := false } : TFrame), by decide +kernel⟩,
   ⟨(ws ([(Reg.TRK_TABLE_BASE_LO 0, 1048576), (Reg.TRK_TABLE_BASE_HI 0, 0), (Reg.TRK_CTRL 0, 1), (Reg.TRK_STATUS 0, 0), (Reg.TRK_STATUS 1, 0), (Reg.TRK_EVENT 0, 0), (Reg.TRK_FRAME_CNT 0, 4), (Reg.TRK_DET_CNT 0, 9), (Reg.TRK_LIMITS 0, 0x300), (Reg.TRK_NOISE 0, 0), (Reg.TRK_ECC_CNT 0, 0)] ++ wreach) fun d => { d with trk := [(0, {})] }), 0, by decide +kernel⟩,
   ⟨(ws ([(Reg.TRK_TABLE_BASE_LO 0, 1048576), (Reg.TRK_TABLE_BASE_HI 0, 0), (Reg.TRK_CTRL 0, 1), (Reg.TRK_STATUS 0, 0), (Reg.TRK_STATUS 1, 0), (Reg.TRK_EVENT 0, 0), (Reg.TRK_FRAME_CNT 0, 4), (Reg.TRK_DET_CNT 0, 9), (Reg.TRK_LIMITS 0, 0x300), (Reg.TRK_NOISE 0, 0), (Reg.TRK_ECC_CNT 0, 0)] ++ wreach) fun d => { d with trk := [(0, { cur := some ({ f := ({ id := wid, dets := [], host := false } : TFrame), cands := [] } : Assoc) })] }), 0, ({ f := ({ id := wid, dets := [], host := false } : TFrame), cands := [] } : Assoc), by decide +kernel⟩,
   ⟨(ws ([(Reg.TRK_TABLE_BASE_LO 0, 1048576), (Reg.TRK_TABLE_BASE_HI 0, 0), (Reg.TRK_CTRL 0, 1), (Reg.TRK_STATUS 0, 0), (Reg.TRK_STATUS 1, 0), (Reg.TRK_EVENT 0, 0), (Reg.TRK_FRAME_CNT 0, 4), (Reg.TRK_DET_CNT 0, 9), (Reg.TRK_LIMITS 0, 0x300), (Reg.TRK_NOISE 0, 0), (Reg.TRK_ECC_CNT 0, 0)] ++ wreach) fun d => { d with trk := [(0, { cur := some { ({ f := ({ id := wid, dets := [], host := false } : TFrame), cands := [] } : Assoc) with cands := [3] } })], dram := [(1048576 + 768, 2)] }), 0, { ({ f := ({ id := wid, dets := [], host := false } : TFrame), cands := [] } : Assoc) with cands := [3] }, 3, by decide +kernel⟩,
   ⟨(ws ([(Reg.TRK_TABLE_BASE_LO 0, 1048576), (Reg.TRK_TABLE_BASE_HI 0, 0), (Reg.TRK_CTRL 0, 1), (Reg.TRK_STATUS 0, 0), (Reg.TRK_STATUS 1, 0), (Reg.TRK_EVENT 0, 0), (Reg.TRK_FRAME_CNT 0, 4), (Reg.TRK_DET_CNT 0, 9), (Reg.TRK_LIMITS 0, 0x300), (Reg.TRK_NOISE 0, 0), (Reg.TRK_ECC_CNT 0, 0)] ++ wreach) fun d => { d with trk := [(0, { cur := some ({ f := ({ id := wid, dets := [({ x0 := 0, y0 := 0, x1 := 0, y1 := 0, score := 0x3F800000, cls := 0, emb := [], exps := [] } : Det)], host := false } : TFrame), cands := [] } : Assoc) })], dram := [(1048576, 2)] }), 0, ({ f := ({ id := wid, dets := [({ x0 := 0, y0 := 0, x1 := 0, y1 := 0, score := 0x3F800000, cls := 0, emb := [], exps := [] } : Det)], host := false } : TFrame), cands := [] } : Assoc), 1, (({ x0 := 0, y0 := 0, x1 := 0, y1 := 0, score := 0x3F800000, cls := 0, emb := [], exps := [] } : Det)), by decide +kernel⟩,
   ⟨(ws ([(Reg.TRK_TABLE_BASE_LO 0, 1048576), (Reg.TRK_TABLE_BASE_HI 0, 0), (Reg.DMC_CTRL 0, 0), (Reg.TRK_CTRL 0, 1), (Reg.TRK_STATUS 0, 0), (Reg.TRK_STATUS 1, 0), (Reg.TRK_EVENT 0, 0), (Reg.TRK_FRAME_CNT 0, 4), (Reg.TRK_DET_CNT 0, 9), (Reg.TRK_LIMITS 0, 0x300), (Reg.TRK_NOISE 0, 0), (Reg.TRK_ECC_CNT 0, 0)] ++ wreach) fun d => { d with trk := [(0, { cur := some { ({ f := ({ id := wid, dets := [], host := false } : TFrame), cands := [] } : Assoc) with cands := [3] } })] }), 0, { ({ f := ({ id := wid, dets := [], host := false } : TFrame), cands := [] } : Assoc) with cands := [3] }, (⟨1048576 + 768, .down⟩), by decide +kernel⟩,
   ⟨(ws ([(Reg.TRK_TABLE_BASE_LO 0, 1048576), (Reg.TRK_TABLE_BASE_HI 0, 0), (Reg.TRK_CTRL 0, 1), (Reg.TRK_STATUS 0, 0), (Reg.TRK_STATUS 1, 0), (Reg.TRK_EVENT 0, 0), (Reg.TRK_FRAME_CNT 0, 4), (Reg.TRK_DET_CNT 0, 9), (Reg.TRK_LIMITS 0, 0x300), (Reg.TRK_NOISE 0, 0), (Reg.TRK_ECC_CNT 0, 0)] ++ wreach) fun d => { d with trk := [(0, {})] }), 0, by decide +kernel⟩⟩

theorem witness_HandoffsAndHostActions :
    (∃ (s : State) (dd : Fin 2) (a : Assoc) (z : Nat × Nat × (List Int × List Nat)) (t : Nat), inReset s.dev = false ∧ (trkOf s.dev dd).cur = some a ∧
      a.tried = [] ∧ a.won = [] ∧ (confirming s.dev dd a (assignment s.dev dd a) (openers s.dev dd a (assignment s.dev dd a))).head? = some z ∧
      stGroup s.dev a.f.id.stream ≠ 0 ∧ (handoffCands s.dev dd a.f.id.stream a.f.id.cap z.2.1 z.2.2).head? = some t ∧ isCandidate s.dev t = false ∧
      trkAddr s.dev t + 4 ≤ dramBytes) ∧
    (∃ (s : State) (dd : Fin 2), inReset s.dev = false ∧ (trkOf s.dev dd).cur = none) ∧
    (∃ (s : State) (dd : Fin 2) (a : Assoc) (h : H2D) (acts : List Nat) (b : Nat), inReset s.dev = false ∧ ringHasEntry s.dev 10 = true ∧ h2dOk s.dev
      10 1 h = true ∧ postedBy s.dev h.tag = some (dd.val, b, a) ∧ actionsOk a acts = true ∧ trkReach s.dev dd (commitTouches s.dev dd a (((enum acts
      0).filter fun x => x.2 == 0xFFFE).map (·.1))) = none ∧ (∀ x ∈ a.cands, x < 32768)) ∧
    (∃ (s : State) (dd : Fin 2) (a : Assoc) (h : H2D) (acts : List Nat) (b : Nat), inReset s.dev = false ∧ ringHasEntry s.dev 10 = true ∧ h2dOk s.dev
      10 1 h = true ∧ postedBy s.dev h.tag = some (dd.val, b, a) ∧ actionsOk a acts = false) ∧
    (∃ (s : State) (h : H2D), inReset s.dev = false ∧ ringHasEntry s.dev 10 = true ∧ (h2dOk s.dev 10 1 h = false ∨ postedBy s.dev h.tag = none)) ∧
    (∃ (s : State), inReset s.dev = false ∧ ringHasEntry s.dev 10 = false) ∧
    (∃ (s : State) (dd : Fin 2) (a : Assoc) (b : Nat) (rest : List (Nat × Assoc)), inReset s.dev = false ∧ (trkOf s.dev dd).posted = (b, a) :: rest ∧
      a.at_ + rf s.dev (Reg.TRK_HOST_LIM dd) 0 16 * 1000000 < 2 ^ 64) :=
  ⟨⟨(whand), 0, ({ f := ({ id := wid, dets := [({ x0 := 0, y0 := 0, x1 := 0, y1 := 0, score := 0x3F800000, cls := 0, emb := [], exps := [] } : Det)], host := false } : TFrame), cands := [] } : Assoc), ((0, 0, ([], []))), (1), by decide +kernel, by decide +kernel, rfl, rfl, by decide +kernel, by decide +kernel, congrArg List.head? whand_cands, by decide +kernel, by decide +kernel⟩,
   ⟨(ws ([(Reg.TRK_TABLE_BASE_LO 0, 1048576), (Reg.TRK_TABLE_BASE_HI 0, 0), (Reg.TRK_CTRL 0, 1), (Reg.TRK_STATUS 0, 0), (Reg.TRK_STATUS 1, 0), (Reg.TRK_EVENT 0, 0), (Reg.TRK_FRAME_CNT 0, 4), (Reg.TRK_DET_CNT 0, 9), (Reg.TRK_LIMITS 0, 0x300), (Reg.TRK_NOISE 0, 0), (Reg.TRK_ECC_CNT 0, 0)] ++ wreach) fun d => { d with trk := [(0, {})] }), 0, by decide +kernel⟩,
   ⟨(ws (wring 10 ++ [(Reg.PCI_STALE_CNT, 0), (Reg.TRK_HOST_LIM 0, 100), (Reg.TRK_STATUS 0, 0), (Reg.TRK_STATUS 1, 0), (Reg.TRK_EVENT 0, 0), (Reg.TRK_FRAME_CNT 0, 4), (Reg.TRK_TABLE_BASE_LO 0, 1048576), (Reg.TRK_TABLE_BASE_HI 0, 0)]) fun d => { d with pci := wpci, trk := [(0, { posted := [(0, ({ f := ({ id := wid, dets := [], host := true } : TFrame), cands := [], tag := 3, at_ := 10 } : Assoc))] })] }), 0, ({ f := ({ id := wid, dets := [], host := true } : TFrame), cands := [], tag := 3, at_ := 10 } : Assoc), ⟨1, 16, 3⟩, [], (0), by decide +kernel⟩,
   ⟨(ws (wring 10 ++ [(Reg.PCI_STALE_CNT, 0), (Reg.TRK_HOST_LIM 0, 100), (Reg.TRK_STATUS 0, 0), (Reg.TRK_STATUS 1, 0), (Reg.TRK_EVENT 0, 0), (Reg.TRK_FRAME_CNT 0, 4), (Reg.TRK_TABLE_BASE_LO 0, 1048576), (Reg.TRK_TABLE_BASE_HI 0, 0)]) fun d => { d with pci := wpci, trk := [(0, { posted := [(0, ({ f := ({ id := wid, dets := [], host := true } : TFrame), cands := [], tag := 3, at_ := 10 } : Assoc))] })] }), 0, ({ f := ({ id := wid, dets := [], host := true } : TFrame), cands := [], tag := 3, at_ := 10 } : Assoc), ⟨1, 16, 3⟩, [5], (0), by decide +kernel⟩,
   ⟨(ws (wring 10 ++ [(Reg.PCI_STALE_CNT, 0), (Reg.TRK_HOST_LIM 0, 100), (Reg.TRK_STATUS 0, 0), (Reg.TRK_STATUS 1, 0), (Reg.TRK_EVENT 0, 0), (Reg.TRK_FRAME_CNT 0, 4), (Reg.TRK_TABLE_BASE_LO 0, 1048576), (Reg.TRK_TABLE_BASE_HI 0, 0)]) fun d => { d with pci := wpci, trk := [(0, { posted := [(0, ({ f := ({ id := wid, dets := [], host := true } : TFrame), cands := [], tag := 3, at_ := 10 } : Assoc))] })] }), ⟨1, 16, 4⟩, by decide +kernel⟩,
   ⟨(ws [(Reg.PCI_RING_STATE 10, 0)] id), by decide +kernel⟩,
   ⟨(ws (wring 10 ++ [(Reg.PCI_STALE_CNT, 0), (Reg.TRK_HOST_LIM 0, 100), (Reg.TRK_STATUS 0, 0), (Reg.TRK_STATUS 1, 0), (Reg.TRK_EVENT 0, 0), (Reg.TRK_FRAME_CNT 0, 4), (Reg.TRK_TABLE_BASE_LO 0, 1048576), (Reg.TRK_TABLE_BASE_HI 0, 0)]) fun d => { d with pci := wpci, trk := [(0, { posted := [(0, ({ f := ({ id := wid, dets := [], host := true } : TFrame), cands := [], tag := 3, at_ := 10 } : Assoc))] })] }), 0, ({ f := ({ id := wid, dets := [], host := true } : TFrame), cands := [], tag := 3, at_ := 10 } : Assoc), (0), ([]), by decide +kernel⟩⟩

theorem witness_MetadataIsBoundedAndSent :
    (∃ (s : State) (ch : Fin 12) (l : LostRun), inReset s.dev = false ∧ (chan s.dev ch).lost = some l ∧ (chan s.dev ch).q.length < 4096) ∧
    (∃ (s : State) (ch : Fin 12), inReset s.dev = false ∧ (chan s.dev ch).lost = none) ∧
    (∃ (s : State) (u : Fin 8) (ecc : Fin 3) (t : Nat), inReset s.dev = false ∧ (chan s.dev u).openAt = some t ∧ portCanSend s.dev (rf s.dev
      (Reg.MDO_DEST_CFG u) 1 2) = true ∧ (∀ x ∈ (chan s.dev u).q, x.r.length ≤ 1400) ∧ (chan s.dev u).q.length ≤ 4096 ∧ t + rf s.dev
      Reg.MDO_DGRAM_HOLD 0 10 * 1000 < 2 ^ 64 ∧ ecc.val ≠ 2) ∧
    (∃ (s : State) (u : Fin 8) (t : Nat), inReset s.dev = false ∧ (chan s.dev u).openAt = some t) ∧
    (∃ (s : State) (u : Fin 8) (i : Nat) (t : Nat), inReset s.dev = false ∧ (chan s.dev u).openAt = some t ∧ i < (chan s.dev u).q.length) ∧
    (∃ (s : State) (u : Fin 8), inReset s.dev = false ∧ (chan s.dev u).openAt = none) ∧
    (∃ (s : State) (bytes : List Byte), inReset s.dev = false ∧ readDatagram bytes = none) ∧
    (∃ (s : State) (bytes : List Byte) (rs : List InRec), inReset s.dev = false ∧ readDatagram bytes = some rs) ∧
    (∃ (s : State) (bytes : List Byte) (h : H2D), inReset s.dev = false ∧ ringHasEntry s.dev 4 = true ∧ h.len + 16 ≤ ringSlot s.dev 4 ∧ bytes.length =
      h.len ∧ (fieldAt bytes 2 2 ≠ h.len ∨ readRec bytes = none)) ∧
    (∃ (s : State) (bytes : List Byte) (h : H2D), inReset s.dev = false ∧ ringHasEntry s.dev 4 = true ∧ (ringSlot s.dev 4 < h.len + 16 ∨ bytes.length
      ≠ h.len)) ∧
    (∃ (s : State) (bytes : List Byte) (h : H2D) (r : InRec), inReset s.dev = false ∧ ringHasEntry s.dev 4 = true ∧ h.len + 16 ≤ ringSlot s.dev 4 ∧
      bytes.length = h.len ∧ fieldAt bytes 2 2 = h.len ∧ readRec bytes = some r) ∧
    (∃ (s : State), inReset s.dev = false ∧ ringHasEntry s.dev 4 = false) :=
  ⟨⟨(ws ([(Reg.MDO_EVENT, 0), (Reg.MDO_RX_DROP_CNT, 3), (Reg.MDO_DUP_CNT, 3), (Reg.MDO_STATUS, 0), (Reg.PWR_STATUS, 0), (Reg.BOOT_STATUS, 10), (Reg.MDO_CH_SEQ_LO 0, 4), (Reg.MDO_CH_SEQ_LO 0 + 4, 0), (Reg.MDO_DEST_CFG 0, 1), (Reg.ING_PORT_STATUS 0, 1), (Reg.MDO_DGRAM_HOLD, 5), (Reg.MDO_CH_REC_CNT 0, 0), (Reg.ING_PORT_TX_CNT 0, 0), (Reg.ING_CTRL, 2), (Reg.MDO_WAKE_CODE, 99), (Reg.PWR_WAKE_EN, 1), (Reg.MDO_CTRL, 0)]) (fun d => { d with mdo := { d.mdo with chans := [(0, ({ lost := some ⟨3, 5, 9⟩ } : Chan))] } })), 0, (⟨3, 5, 9⟩), by decide +kernel⟩,
   ⟨(ws ([(Reg.MDO_EVENT, 0), (Reg.MDO_RX_DROP_CNT, 3), (Reg.MDO_DUP_CNT, 3), (Reg.MDO_STATUS, 0), (Reg.PWR_STATUS, 0), (Reg.BOOT_STATUS, 10), (Reg.MDO_CH_SEQ_LO 0, 4), (Reg.MDO_CH_SEQ_LO 0 + 4, 0), (Reg.MDO_DEST_CFG 0, 1), (Reg.ING_PORT_STATUS 0, 1), (Reg.MDO_DGRAM_HOLD, 5), (Reg.MDO_CH_REC_CNT 0, 0), (Reg.ING_PORT_TX_CNT 0, 0), (Reg.ING_CTRL, 2), (Reg.MDO_WAKE_CODE, 99), (Reg.PWR_WAKE_EN, 1), (Reg.MDO_CTRL, 0)]) (id)), 0, by decide +kernel⟩,
   ⟨(ws ([(Reg.MDO_EVENT, 0), (Reg.MDO_RX_DROP_CNT, 3), (Reg.MDO_DUP_CNT, 3), (Reg.MDO_STATUS, 0), (Reg.PWR_STATUS, 0), (Reg.BOOT_STATUS, 10), (Reg.MDO_CH_SEQ_LO 0, 4), (Reg.MDO_CH_SEQ_LO 0 + 4, 0), (Reg.MDO_DEST_CFG 0, 1), (Reg.ING_PORT_STATUS 0, 1), (Reg.MDO_DGRAM_HOLD, 5), (Reg.MDO_CH_REC_CNT 0, 0), (Reg.ING_PORT_TX_CNT 0, 0), (Reg.ING_CTRL, 2), (Reg.MDO_WAKE_CODE, 99), (Reg.PWR_WAKE_EN, 1), (Reg.MDO_CTRL, 0)]) (fun d => { d with mdo := { d.mdo with chans := [(0, ({ q := [⟨3, ({ kind := 9, subject := 0, time := 5, body := [0, 0, 0, 0] } : LmpRec)⟩], openAt := some 100 } : Chan))] } })), 0, (0), (100), by decide +kernel⟩,
   ⟨(ws ([(Reg.MDO_EVENT, 0), (Reg.MDO_RX_DROP_CNT, 3), (Reg.MDO_DUP_CNT, 3), (Reg.MDO_STATUS, 0), (Reg.PWR_STATUS, 0), (Reg.BOOT_STATUS, 10), (Reg.MDO_CH_SEQ_LO 0, 4), (Reg.MDO_CH_SEQ_LO 0 + 4, 0), (Reg.MDO_DEST_CFG 0, 1), (Reg.ING_PORT_STATUS 0, 1), (Reg.MDO_DGRAM_HOLD, 5), (Reg.MDO_CH_REC_CNT 0, 0), (Reg.ING_PORT_TX_CNT 0, 0), (Reg.ING_CTRL, 2), (Reg.MDO_WAKE_CODE, 99), (Reg.PWR_WAKE_EN, 1), (Reg.MDO_CTRL, 0)]) (fun d => { d with mdo := { d.mdo with chans := [(0, ({ q := [⟨3, ({ kind := 9, subject := 0, time := 5, body := [0, 0, 0, 0] } : LmpRec)⟩], openAt := some 100 } : Chan))] } })), 0, (100), by decide +kernel⟩,
   ⟨(ws ([(Reg.MDO_EVENT, 0), (Reg.MDO_RX_DROP_CNT, 3), (Reg.MDO_DUP_CNT, 3), (Reg.MDO_STATUS, 0), (Reg.PWR_STATUS, 0), (Reg.BOOT_STATUS, 10), (Reg.MDO_CH_SEQ_LO 0, 4), (Reg.MDO_CH_SEQ_LO 0 + 4, 0), (Reg.MDO_DEST_CFG 0, 1), (Reg.ING_PORT_STATUS 0, 1), (Reg.MDO_DGRAM_HOLD, 5), (Reg.MDO_CH_REC_CNT 0, 0), (Reg.ING_PORT_TX_CNT 0, 0), (Reg.ING_CTRL, 2), (Reg.MDO_WAKE_CODE, 99), (Reg.PWR_WAKE_EN, 1), (Reg.MDO_CTRL, 0)]) (fun d => { d with mdo := { d.mdo with chans := [(0, ({ q := [⟨3, ({ kind := 9, subject := 0, time := 5, body := [0, 0, 0, 0] } : LmpRec)⟩], openAt := some 100 } : Chan))] } })), 0, 0, (100), by decide +kernel⟩,
   ⟨(ws ([(Reg.MDO_EVENT, 0), (Reg.MDO_RX_DROP_CNT, 3), (Reg.MDO_DUP_CNT, 3), (Reg.MDO_STATUS, 0), (Reg.PWR_STATUS, 0), (Reg.BOOT_STATUS, 10), (Reg.MDO_CH_SEQ_LO 0, 4), (Reg.MDO_CH_SEQ_LO 0 + 4, 0), (Reg.MDO_DEST_CFG 0, 1), (Reg.ING_PORT_STATUS 0, 1), (Reg.MDO_DGRAM_HOLD, 5), (Reg.MDO_CH_REC_CNT 0, 0), (Reg.ING_PORT_TX_CNT 0, 0), (Reg.ING_CTRL, 2), (Reg.MDO_WAKE_CODE, 99), (Reg.PWR_WAKE_EN, 1), (Reg.MDO_CTRL, 0)]) (id)), 0, by decide +kernel⟩,
   ⟨(ws ([(Reg.MDO_EVENT, 0), (Reg.MDO_RX_DROP_CNT, 3), (Reg.MDO_DUP_CNT, 3), (Reg.MDO_STATUS, 0), (Reg.PWR_STATUS, 0), (Reg.BOOT_STATUS, 10), (Reg.MDO_CH_SEQ_LO 0, 4), (Reg.MDO_CH_SEQ_LO 0 + 4, 0), (Reg.MDO_DEST_CFG 0, 1), (Reg.ING_PORT_STATUS 0, 1), (Reg.MDO_DGRAM_HOLD, 5), (Reg.MDO_CH_REC_CNT 0, 0), (Reg.ING_PORT_TX_CNT 0, 0), (Reg.ING_CTRL, 2), (Reg.MDO_WAKE_CODE, 99), (Reg.PWR_WAKE_EN, 1), (Reg.MDO_CTRL, 0)]) (id)), [1], by decide +kernel⟩,
   ⟨(ws ([(Reg.MDO_EVENT, 0), (Reg.MDO_RX_DROP_CNT, 3), (Reg.MDO_DUP_CNT, 3), (Reg.MDO_STATUS, 0), (Reg.PWR_STATUS, 0), (Reg.BOOT_STATUS, 10), (Reg.MDO_CH_SEQ_LO 0, 4), (Reg.MDO_CH_SEQ_LO 0 + 4, 0), (Reg.MDO_DEST_CFG 0, 1), (Reg.ING_PORT_STATUS 0, 1), (Reg.MDO_DGRAM_HOLD, 5), (Reg.MDO_CH_REC_CNT 0, 0), (Reg.ING_PORT_TX_CNT 0, 0), (Reg.ING_CTRL, 2), (Reg.MDO_WAKE_CODE, 99), (Reg.PWR_WAKE_EN, 1), (Reg.MDO_CTRL, 0)]) (id)), ([0x4C, 0x4D, 1, 0, 0, 0, 0, 0, 0, 0, 0, 1, 0, 0, 0, 0, 0, 0, 0, 0, 0, 0, 0, 0, 0, 0, 0, 0, 0, 0, 0, 0] ++ [0x41, 0, 0, 28, 0, 0, 0, 0, 0, 0, 0, 0, 0, 0, 0, 0, 0, 0, 0, 0, 0, 0, 0, 0, 0, 0, 0, 99]), ([.wake 99]), by decide +kernel⟩,
   ⟨(ws (wring 4 ++ [(Reg.MDO_EVENT, 0), (Reg.MDO_RX_DROP_CNT, 3), (Reg.MDO_DUP_CNT, 3), (Reg.MDO_STATUS, 0), (Reg.PWR_STATUS, 0), (Reg.BOOT_STATUS, 10), (Reg.MDO_CH_SEQ_LO 0, 4), (Reg.MDO_CH_SEQ_LO 0 + 4, 0), (Reg.MDO_DEST_CFG 0, 1), (Reg.ING_PORT_STATUS 0, 1), (Reg.MDO_DGRAM_HOLD, 5), (Reg.MDO_CH_REC_CNT 0, 0), (Reg.ING_PORT_TX_CNT 0, 0), (Reg.ING_CTRL, 2), (Reg.MDO_WAKE_CODE, 99), (Reg.PWR_WAKE_EN, 1), (Reg.MDO_CTRL, 0), (Reg.PCI_STALE_CNT, 0)]) (fun d => { d with pci := wpci })), [1], ⟨0, 1, 0⟩, by decide +kernel⟩,
   ⟨(ws (wring 4 ++ [(Reg.MDO_EVENT, 0), (Reg.MDO_RX_DROP_CNT, 3), (Reg.MDO_DUP_CNT, 3), (Reg.MDO_STATUS, 0), (Reg.PWR_STATUS, 0), (Reg.BOOT_STATUS, 10), (Reg.MDO_CH_SEQ_LO 0, 4), (Reg.MDO_CH_SEQ_LO 0 + 4, 0), (Reg.MDO_DEST_CFG 0, 1), (Reg.ING_PORT_STATUS 0, 1), (Reg.MDO_DGRAM_HOLD, 5), (Reg.MDO_CH_REC_CNT 0, 0), (Reg.ING_PORT_TX_CNT 0, 0), (Reg.ING_CTRL, 2), (Reg.MDO_WAKE_CODE, 99), (Reg.PWR_WAKE_EN, 1), (Reg.MDO_CTRL, 0), (Reg.PCI_STALE_CNT, 0)]) (fun d => { d with pci := wpci })), [1], ⟨0, 2, 0⟩, by decide +kernel⟩,
   ⟨(ws (wring 4 ++ [(Reg.MDO_EVENT, 0), (Reg.MDO_RX_DROP_CNT, 3), (Reg.MDO_DUP_CNT, 3), (Reg.MDO_STATUS, 0), (Reg.PWR_STATUS, 0), (Reg.BOOT_STATUS, 10), (Reg.MDO_CH_SEQ_LO 0, 4), (Reg.MDO_CH_SEQ_LO 0 + 4, 0), (Reg.MDO_DEST_CFG 0, 1), (Reg.ING_PORT_STATUS 0, 1), (Reg.MDO_DGRAM_HOLD, 5), (Reg.MDO_CH_REC_CNT 0, 0), (Reg.ING_PORT_TX_CNT 0, 0), (Reg.ING_CTRL, 2), (Reg.MDO_WAKE_CODE, 99), (Reg.PWR_WAKE_EN, 1), (Reg.MDO_CTRL, 0), (Reg.PCI_STALE_CNT, 0)]) (fun d => { d with pci := wpci })), [0x41, 0, 0, 28, 0, 0, 0, 0, 0, 0, 0, 0, 0, 0, 0, 0, 0, 0, 0, 0, 0, 0, 0, 0, 0, 0, 0, 99], ⟨0, 28, 0⟩, (.wake 99), by decide +kernel⟩,
   ⟨(ws [(Reg.PCI_RING_STATE 4, 0)] id), by decide +kernel⟩⟩

theorem witness_RequestsAreAnswered :
    (∃ (s : State), inReset s.dev = false ∧ 2 ≤ ebbState s.dev) ∧
    (∃ (s : State) (src : Nat) (q : QueryRec), inReset s.dev = false ∧ ebbState s.dev < 2 ∧ isDup s.dev false src q.id = true) ∧
    (∃ (s : State) (src : Nat) (q : QueryRec) (n : Nat), inReset s.dev = false ∧ ebbState s.dev < 2 ∧ isDup s.dev false src q.id = false ∧
      queryRefusal s.dev q = 0 ∧ (List.range 1024).find? (fun x => sqState s.dev x == 0) = some n) ∧
    (∃ (s : State) (src : Nat) (q : QueryRec) (r : Nat), inReset s.dev = false ∧ ebbState s.dev < 2 ∧ isDup s.dev false src q.id = false ∧
      queryRefusal s.dev q = r ∧ r ≠ 0) ∧
    (∃ (s : State) (p : Fin 4) (code : Word), inReset s.dev = false ∧ (ebbState s.dev = 1 ∨ ebbState s.dev = 2) ∧ p.val = rf s.dev Reg.ING_CTRL 1 1 ∧
      code.toNat = rdN s.dev Reg.MDO_WAKE_CODE ∧ tst s.dev Reg.PWR_WAKE_EN 0 = true) ∧
    (∃ (s : State) (p : Fin 4) (code : Word), inReset s.dev = false ∧ (ebbState s.dev = 1 ∨ ebbState s.dev = 2) ∧ p.val = rf s.dev Reg.ING_CTRL 1 1 ∧
      code.toNat = rdN s.dev Reg.MDO_WAKE_CODE ∧ tst s.dev Reg.PWR_WAKE_EN 0 = false) ∧
    (∃ (s : State) (p : Fin 4) (code : Word), inReset s.dev = false ∧ (ebbState s.dev = 1 ∨ ebbState s.dev = 2) ∧ ¬ (p.val = rf s.dev Reg.ING_CTRL 1 1
      ∧ code.toNat = rdN s.dev Reg.MDO_WAKE_CODE)) ∧
    (∃ (s : State), inReset s.dev = false ∧ (ebbState s.dev = 0 ∨ (ebbState s.dev = 3 ∧ s.dev.pwr.wake ≠ now s.dev))) ∧
    (∃ (s : State), inReset s.dev = false ∧ 2 ≤ ebbState s.dev) ∧
    (∃ (s : State) (src : Nat) (c : ClipReq), inReset s.dev = false ∧ ebbState s.dev < 2 ∧ isDup s.dev true src c.id = true) ∧
    (∃ (s : State) (src : Nat) (c : ClipReq), inReset s.dev = false ∧ ebbState s.dev < 2 ∧ isDup s.dev true src c.id = false ∧ (tst s.dev Reg.MDO_CTRL
      3 = false ∨ 64 ≤ c.buffer ∨ clipSize s.dev c.buffer = 0)) ∧
    (∃ (s : State) (src : Nat) (c : ClipReq), inReset s.dev = false ∧ ebbState s.dev < 2 ∧ isDup s.dev true src c.id = false ∧ tst s.dev Reg.MDO_CTRL
      3 = true ∧ c.buffer < 64 ∧ clipSize s.dev c.buffer ≠ 0 ∧ clipContext s.dev c.stream = none) ∧
    (∃ (s : State) (src : Nat) (c : ClipReq) (key : Nat), inReset s.dev = false ∧ ebbState s.dev < 2 ∧ isDup s.dev true src c.id = false ∧ tst s.dev
      Reg.MDO_CTRL 3 = true ∧ c.buffer < 64 ∧ clipSize s.dev c.buffer ≠ 0 ∧ clipContext s.dev c.stream = some key ∧ clipOk s.dev key (newClip s.dev
      key c.id c.buffer c.stream c.start c.stop c.mask c.deliver (untraceable s.dev)) = true) :=
  ⟨⟨(ws ([(Reg.MDO_EVENT, 0), (Reg.MDO_RX_DROP_CNT, 3), (Reg.MDO_DUP_CNT, 3), (Reg.MDO_STATUS, 0), (Reg.PWR_STATUS, 2), (Reg.BOOT_STATUS, 10), (Reg.MDO_CH_SEQ_LO 0, 4), (Reg.MDO_CH_SEQ_LO 0 + 4, 0), (Reg.MDO_DEST_CFG 0, 1), (Reg.ING_PORT_STATUS 0, 1), (Reg.MDO_DGRAM_HOLD, 5), (Reg.MDO_CH_REC_CNT 0, 0), (Reg.ING_PORT_TX_CNT 0, 0), (Reg.ING_CTRL, 2), (Reg.MDO_WAKE_CODE, 99), (Reg.PWR_WAKE_EN, 1), (Reg.MDO_CTRL, 0)]) (id)), by decide +kernel⟩,
   ⟨(ws ([(Reg.MDO_EVENT, 0), (Reg.MDO_RX_DROP_CNT, 3), (Reg.MDO_DUP_CNT, 3), (Reg.MDO_STATUS, 0), (Reg.PWR_STATUS, 0), (Reg.BOOT_STATUS, 10), (Reg.MDO_CH_SEQ_LO 0, 4), (Reg.MDO_CH_SEQ_LO 0 + 4, 0), (Reg.MDO_DEST_CFG 0, 1), (Reg.ING_PORT_STATUS 0, 1), (Reg.MDO_DGRAM_HOLD, 5), (Reg.MDO_CH_REC_CNT 0, 0), (Reg.ING_PORT_TX_CNT 0, 0), (Reg.ING_CTRL, 2), (Reg.MDO_WAKE_CODE, 99), (Reg.PWR_WAKE_EN, 1), (Reg.MDO_CTRL, 0)]) (fun d => { d with mdo := { d.mdo with seen := [⟨false, 5, 7, 0⟩] } })), 5, ({ cove := 0, id := 7, prio := 1, maxTok := 10, imgs := [], text := [65] } : QueryRec), by decide +kernel⟩,
   ⟨(ws ([(Reg.MDO_EVENT, 0), (Reg.MDO_RX_DROP_CNT, 3), (Reg.MDO_DUP_CNT, 3), (Reg.MDO_STATUS, 0), (Reg.PWR_STATUS, 0), (Reg.BOOT_STATUS, 10), (Reg.MDO_CH_SEQ_LO 0, 4), (Reg.MDO_CH_SEQ_LO 0 + 4, 0), (Reg.MDO_DEST_CFG 0, 1), (Reg.ING_PORT_STATUS 0, 1), (Reg.MDO_DGRAM_HOLD, 5), (Reg.MDO_CH_REC_CNT 0, 0), (Reg.ING_PORT_TX_CNT 0, 0), (Reg.ING_CTRL, 2), (Reg.MDO_WAKE_CODE, 99), (Reg.PWR_WAKE_EN, 1), (Reg.MDO_CTRL, 4), (Reg.SEQ_CTRL, 4), (Reg.SEQ_STATUS, 0), (Reg.SCH_COVE_CFG 0, 1), (Reg.SCH_COVE_STATE 0, 2), (Reg.SEQ_TABLE 0 0, 0)]) (id)), 5, ({ cove := 0, id := 7, prio := 1, maxTok := 10, imgs := [], text := [65] } : QueryRec), (0), by decide +kernel, by decide +kernel, by decide +kernel, by decide +kernel⟩,
   ⟨(ws ([(Reg.MDO_EVENT, 0), (Reg.MDO_RX_DROP_CNT, 3), (Reg.MDO_DUP_CNT, 3), (Reg.MDO_STATUS, 0), (Reg.PWR_STATUS, 0), (Reg.BOOT_STATUS, 10), (Reg.MDO_CH_SEQ_LO 0, 4), (Reg.MDO_CH_SEQ_LO 0 + 4, 0), (Reg.MDO_DEST_CFG 0, 1), (Reg.ING_PORT_STATUS 0, 1), (Reg.MDO_DGRAM_HOLD, 5), (Reg.MDO_CH_REC_CNT 0, 0), (Reg.ING_PORT_TX_CNT 0, 0), (Reg.ING_CTRL, 2), (Reg.MDO_WAKE_CODE, 99), (Reg.PWR_WAKE_EN, 1), (Reg.MDO_CTRL, 0)]) (id)), 5, ({ cove := 0, id := 7, prio := 1, maxTok := 10, imgs := [], text := [65] } : QueryRec), (6), by decide +kernel⟩,
   ⟨(ws ([(Reg.MDO_EVENT, 0), (Reg.MDO_RX_DROP_CNT, 3), (Reg.MDO_DUP_CNT, 3), (Reg.MDO_STATUS, 0), (Reg.PWR_STATUS, 2), (Reg.BOOT_STATUS, 10), (Reg.MDO_CH_SEQ_LO 0, 4), (Reg.MDO_CH_SEQ_LO 0 + 4, 0), (Reg.MDO_DEST_CFG 0, 1), (Reg.ING_PORT_STATUS 0, 1), (Reg.MDO_DGRAM_HOLD, 5), (Reg.MDO_CH_REC_CNT 0, 0), (Reg.ING_PORT_TX_CNT 0, 0), (Reg.ING_CTRL, 2), (Reg.MDO_WAKE_CODE, 99), (Reg.PWR_WAKE_EN, 1), (Reg.MDO_CTRL, 0)]) (id)), 1, 99, by decide +kernel⟩,
   ⟨(ws ([(Reg.MDO_EVENT, 0), (Reg.MDO_RX_DROP_CNT, 3), (Reg.MDO_DUP_CNT, 3), (Reg.MDO_STATUS, 0), (Reg.PWR_STATUS, 2), (Reg.BOOT_STATUS, 10), (Reg.MDO_CH_SEQ_LO 0, 4), (Reg.MDO_CH_SEQ_LO 0 + 4, 0), (Reg.MDO_DEST_CFG 0, 1), (Reg.ING_PORT_STATUS 0, 1), (Reg.MDO_DGRAM_HOLD, 5), (Reg.MDO_CH_REC_CNT 0, 0), (Reg.ING_PORT_TX_CNT 0, 0), (Reg.ING_CTRL, 2), (Reg.MDO_WAKE_CODE, 99), (Reg.PWR_WAKE_EN, 0), (Reg.MDO_CTRL, 0)]) (id)), 1, 99, by decide +kernel⟩,
   ⟨(ws ([(Reg.MDO_EVENT, 0), (Reg.MDO_RX_DROP_CNT, 3), (Reg.MDO_DUP_CNT, 3), (Reg.MDO_STATUS, 0), (Reg.PWR_STATUS, 2), (Reg.BOOT_STATUS, 10), (Reg.MDO_CH_SEQ_LO 0, 4), (Reg.MDO_CH_SEQ_LO 0 + 4, 0), (Reg.MDO_DEST_CFG 0, 1), (Reg.ING_PORT_STATUS 0, 1), (Reg.MDO_DGRAM_HOLD, 5), (Reg.MDO_CH_REC_CNT 0, 0), (Reg.ING_PORT_TX_CNT 0, 0), (Reg.ING_CTRL, 2), (Reg.MDO_WAKE_CODE, 99), (Reg.PWR_WAKE_EN, 1), (Reg.MDO_CTRL, 0)]) (id)), 0, 99, by decide +kernel⟩,
   ⟨(ws ([(Reg.MDO_EVENT, 0), (Reg.MDO_RX_DROP_CNT, 3), (Reg.MDO_DUP_CNT, 3), (Reg.MDO_STATUS, 0), (Reg.PWR_STATUS, 0), (Reg.BOOT_STATUS, 10), (Reg.MDO_CH_SEQ_LO 0, 4), (Reg.MDO_CH_SEQ_LO 0 + 4, 0), (Reg.MDO_DEST_CFG 0, 1), (Reg.ING_PORT_STATUS 0, 1), (Reg.MDO_DGRAM_HOLD, 5), (Reg.MDO_CH_REC_CNT 0, 0), (Reg.ING_PORT_TX_CNT 0, 0), (Reg.ING_CTRL, 2), (Reg.MDO_WAKE_CODE, 99), (Reg.PWR_WAKE_EN, 1), (Reg.MDO_CTRL, 0)]) (id)), by decide +kernel⟩,
   ⟨(ws ([(Reg.MDO_EVENT, 0), (Reg.MDO_RX_DROP_CNT, 3), (Reg.MDO_DUP_CNT, 3), (Reg.MDO_STATUS, 0), (Reg.PWR_STATUS, 2), (Reg.BOOT_STATUS, 10), (Reg.MDO_CH_SEQ_LO 0, 4), (Reg.MDO_CH_SEQ_LO 0 + 4, 0), (Reg.MDO_DEST_CFG 0, 1), (Reg.ING_PORT_STATUS 0, 1), (Reg.MDO_DGRAM_HOLD, 5), (Reg.MDO_CH_REC_CNT 0, 0), (Reg.ING_PORT_TX_CNT 0, 0), (Reg.ING_CTRL, 2), (Reg.MDO_WAKE_CODE, 99), (Reg.PWR_WAKE_EN, 1), (Reg.MDO_CTRL, 0)]) (id)), by decide +kernel⟩,
   ⟨(ws ([(Reg.MDO_EVENT, 0), (Reg.MDO_RX_DROP_CNT, 3), (Reg.MDO_DUP_CNT, 3), (Reg.MDO_STATUS, 0), (Reg.PWR_STATUS, 0), (Reg.BOOT_STATUS, 10), (Reg.MDO_CH_SEQ_LO 0, 4), (Reg.MDO_CH_SEQ_LO 0 + 4, 0), (Reg.MDO_DEST_CFG 0, 1), (Reg.ING_PORT_STATUS 0, 1), (Reg.MDO_DGRAM_HOLD, 5), (Reg.MDO_CH_REC_CNT 0, 0), (Reg.ING_PORT_TX_CNT 0, 0), (Reg.ING_CTRL, 2), (Reg.MDO_WAKE_CODE, 99), (Reg.PWR_WAKE_EN, 1), (Reg.MDO_CTRL, 0)]) (fun d => { d with mdo := { d.mdo with seen := [⟨true, 5, 7, 0⟩] } })), 5, ({ stream := 1, start := 1000, stop := 2000, id := 7, buffer := 0, mask := 0, deliver := 255 } : ClipReq), by decide +kernel⟩,
   ⟨(ws ([(Reg.MDO_EVENT, 0), (Reg.MDO_RX_DROP_CNT, 3), (Reg.MDO_DUP_CNT, 3), (Reg.MDO_STATUS, 0), (Reg.PWR_STATUS, 0), (Reg.BOOT_STATUS, 10), (Reg.MDO_CH_SEQ_LO 0, 4), (Reg.MDO_CH_SEQ_LO 0 + 4, 0), (Reg.MDO_DEST_CFG 0, 1), (Reg.ING_PORT_STATUS 0, 1), (Reg.MDO_DGRAM_HOLD, 5), (Reg.MDO_CH_REC_CNT 0, 0), (Reg.ING_PORT_TX_CNT 0, 0), (Reg.ING_CTRL, 2), (Reg.MDO_WAKE_CODE, 99), (Reg.PWR_WAKE_EN, 1), (Reg.MDO_CTRL, 0)]) (id)), 5, ({ stream := 1, start := 1000, stop := 2000, id := 7, buffer := 0, mask := 0, deliver := 255 } : ClipReq), by decide +kernel⟩,
   ⟨(ws ([(Reg.MDO_EVENT, 0), (Reg.MDO_RX_DROP_CNT, 3), (Reg.MDO_DUP_CNT, 3), (Reg.MDO_STATUS, 0), (Reg.PWR_STATUS, 0), (Reg.BOOT_STATUS, 10), (Reg.MDO_CH_SEQ_LO 0, 4), (Reg.MDO_CH_SEQ_LO 0 + 4, 0), (Reg.MDO_DEST_CFG 0, 1), (Reg.ING_PORT_STATUS 0, 1), (Reg.MDO_DGRAM_HOLD, 5), (Reg.MDO_CH_REC_CNT 0, 0), (Reg.ING_PORT_TX_CNT 0, 0), (Reg.ING_CTRL, 2), (Reg.MDO_WAKE_CODE, 99), (Reg.PWR_WAKE_EN, 1), (Reg.MDO_CTRL, 8), (Reg.MDO_CLIP_BUF_SIZE 0, 16), (Reg.CDC_CTX_CFG 0 2, 1 + 512 + 1024 + 2048), (Reg.CDC_CTX_RATE 0 2, 1000), (Reg.CDC_CTX_CPB 0 2, 1000 + 4 * 1048576), (Reg.CDC_CTX_ENC 0 2, 25), (Reg.ING_TABLE 1 4, 3 * 16 + 2500 * 65536)]) (id)), 5, ({ stream := 9, start := 1000, stop := 2000, id := 7, buffer := 0, mask := 0, deliver := 255 } : ClipReq), by decide +kernel⟩,
   ⟨(ws ([(Reg.MDO_EVENT, 0), (Reg.MDO_RX_DROP_CNT, 3), (Reg.MDO_DUP_CNT, 3), (Reg.MDO_STATUS, 0), (Reg.PWR_STATUS, 0), (Reg.BOOT_STATUS, 10), (Reg.MDO_CH_SEQ_LO 0, 4), (Reg.MDO_CH_SEQ_LO 0 + 4, 0), (Reg.MDO_DEST_CFG 0, 1), (Reg.ING_PORT_STATUS 0, 1), (Reg.MDO_DGRAM_HOLD, 5), (Reg.MDO_CH_REC_CNT 0, 0), (Reg.ING_PORT_TX_CNT 0, 0), (Reg.ING_CTRL, 2), (Reg.MDO_WAKE_CODE, 99), (Reg.PWR_WAKE_EN, 1), (Reg.MDO_CTRL, 8), (Reg.MDO_CLIP_BUF_SIZE 0, 16), (Reg.CDC_CTX_CFG 0 2, 1 + 512 + 1024 + 2048), (Reg.CDC_CTX_RATE 0 2, 1000), (Reg.CDC_CTX_CPB 0 2, 1000 + 4 * 1048576), (Reg.CDC_CTX_ENC 0 2, 25), (Reg.ING_TABLE 1 4, 3 * 16 + 2500 * 65536)]) (fun d => { d with cctx := [(3, { pool := [(0, { last := true, w := 64, h := 64 })] })] })), 5, ({ stream := 1, start := 1000, stop := 2000, id := 7, buffer := 0, mask := 0, deliver := 255 } : ClipReq), (2), by decide +kernel⟩⟩

theorem witness_DramChannelsServeAndReplay :
    (∃ (s : State) (q : DramReq) (m : Nat) (k : Nat) (y : Nat × Nat × Nat), inReset s.dev = false ∧ q.addr < dramBytes ∧ q.flt = none ∧ q.cls < 4 ∧
      tst s.dev (Reg.DMC_CTRL (q.addr / 2 ^ 34)) 0 = true ∧ regionMap s.dev (q.addr / 2 ^ 34) (q.addr % 2 ^ 34) = some m ∧ y = dramPlace m (q.addr % 2
      ^ 34) ∧ k = 32 * (q.addr / 2 ^ 34) + y.1 ∧ chUp s.dev k = true ∧ crossesDown s.dev q.die (q.addr / 2 ^ 34) y.1 = false) ∧
    (∃ (s : State) (dd : Fin 2) (q : DramReq), inReset s.dev = false ∧ q.flt = none ∧ q.cls < 4 ∧ q.addr / 2 ^ 34 % 2 = dd.val ∧ tst s.dev
      (Reg.DMC_CTRL dd) 0 = true ∧ (dramBytes ≤ q.addr ∨ regionMap s.dev dd (q.addr % 2 ^ 34) = none)) ∧
    (∃ (s : State) (q : DramReq) (m : Nat) (y : Nat × Nat × Nat), inReset s.dev = false ∧ q.addr < dramBytes ∧ q.flt = none ∧ q.cls < 4 ∧ regionMap
      s.dev (q.addr / 2 ^ 34) (q.addr % 2 ^ 34) = some m ∧ tst s.dev (Reg.DMC_CTRL (q.addr / 2 ^ 34)) 0 = true ∧ y = dramPlace m (q.addr % 2 ^ 34) ∧
      (chUp s.dev (32 * (q.addr / 2 ^ 34) + y.1) = false ∨ crossesDown s.dev q.die (q.addr / 2 ^ 34) y.1 = true)) ∧
    (∃ (s : State) (dd : Fin 2) (ch : Fin 32) (t : Dev) (ecc : Fin 3) (r : DReq) (l : List Byte) (rest : List (DReq × List Byte)), inReset s.dev =
      false ∧ t = runUntil (32 * dd.val + ch.val) 20000 (fun t => !(dchan t (32 * dd.val + ch.val)).fin.isEmpty) s.dev ∧ (dchan t (32 * dd.val +
      ch.val)).fin = (r, l) :: rest ∧ r.back = false ∧ ecc.val ≠ 2 ∧ burstBad t r.addr = false) ∧
    (∃ (s : State) (dd : Fin 2) (ch : Fin 32) (t : Dev) (r : DReq) (l : List Byte) (rest : List (DReq × List Byte)), inReset s.dev = false ∧ t =
      runUntil (32 * dd.val + ch.val) 20000 (fun t => !(dchan t (32 * dd.val + ch.val)).fin.isEmpty) s.dev ∧ (dchan t (32 * dd.val + ch.val)).fin =
      (r, l) :: rest ∧ r.back = false) ∧
    (∃ (s : State) (dd : Fin 2) (ch : Fin 32) (t : Dev), inReset s.dev = false ∧ t = runUntil (32 * dd.val + ch.val) 20000 (fun t => !(dchan t (32 *
      dd.val + ch.val)).fin.isEmpty) s.dev ∧ (dchan t (32 * dd.val + ch.val)).fin = []) ∧
    (∃ (s : State) (dd : Fin 2) (ch : Fin 32) (t : Dev), inReset s.dev = false ∧ t = catchUp (32 * dd.val + ch.val) s.dev ∧ chUp t (32 * dd.val +
      ch.val) = true ∧ rf t (Reg.DMC_CH_STATUS dd ch) 3 3 ≠ 4) ∧
    (∃ (s : State) (dd : Fin 2) (ch : Fin 32) (t : Dev), inReset s.dev = false ∧ t = catchUp (32 * dd.val + ch.val) s.dev ∧ chUp t (32 * dd.val +
      ch.val) = true ∧ rf t (Reg.DMC_CH_STATUS dd ch) 3 3 = 4) ∧
    (∃ (s : State) (dd : Fin 2) (ch : Fin 32) (t : Dev), inReset s.dev = false ∧ t = catchUp (32 * dd.val + ch.val) s.dev ∧ chUp t (32 * dd.val +
      ch.val) = false) ∧
    (∃ (s : State) (dd : Fin 2) (ch : Fin 32) (t : Dev), inReset s.dev = false ∧ t = catchUp (32 * dd.val + ch.val) s.dev) ∧
    (∃ (s : State) (dd : Fin 2), inReset s.dev = false ∧ tst s.dev (Reg.DMC_STATUS dd) 2 = true) ∧
    (∃ (s : State) (dd : Fin 2) (ch : Fin 32) (b : Fin 128) (t : Dev), inReset s.dev = false ∧ tst s.dev (Reg.DMC_STATUS dd) 2 = false ∧ t = catchUp
      (32 * dd.val + ch.val) (waitUntil (refreshDue s.dev (32 * dd.val + ch.val) b) s.dev)) ∧
    (∃ (s : State) (dd : Fin 2) (ch : Fin 32) (b : Fin 128) (t : Dev), inReset s.dev = false ∧ t = catchUp (32 * dd.val + ch.val) s.dev ∧ 8 ≤ (dbank
      (dchan t (32 * dd.val + ch.val)) b).late ∧ (dchan t (32 * dd.val + ch.val)).replay = none ∧ (dchan t (32 * dd.val + ch.val)).first.contains
      b.val = false) ∧
    (∃ (s : State) (dd : Fin 2) (ch : Fin 32) (b : Fin 128) (t : Dev), inReset s.dev = false ∧ t = catchUp (32 * dd.val + ch.val) s.dev ∧ (dbank
      (dchan t (32 * dd.val + ch.val)) b).late < 8) ∧
    (∃ (s : State) (dd : Fin 2) (ch : Fin 32) (b : Fin 128), inReset s.dev = false ∧ chIdle (dchan s.dev (32 * dd.val + ch.val)) = true ∧ (dbank
      (dchan s.dev (32 * dd.val + ch.val)) b).row.isSome = true) ∧
    (∃ (s : State) (dd : Fin 2) (ch : Fin 32) (b : Fin 128), inReset s.dev = false ∧ chIdle (dchan s.dev (32 * dd.val + ch.val)) = true ∧ (dbank
      (dchan s.dev (32 * dd.val + ch.val)) b).row = none) ∧
    (∃ (s : State) (dd : Fin 2) (ch : Fin 32) (b : Fin 128) (t : Dev) (l : Nat × Nat), inReset s.dev = false ∧ (dbank (dchan (catchUp (32 * dd.val +
      ch.val) s.dev) (32 * dd.val + ch.val)) b).lock = some l ∧ t = runUntil (32 * dd.val + ch.val) (l.2 + 257 - (dchan (catchUp (32 * dd.val +
      ch.val) s.dev) (32 * dd.val + ch.val)).cyc) (fun u => (dbank (dchan u (32 * dd.val + ch.val)) b).lock != some l) (catchUp (32 * dd.val + ch.val)
      s.dev) ∧ (dbank (dchan t (32 * dd.val + ch.val)) b).lock = some l ∧ (dbank (dchan t (32 * dd.val + ch.val)) b).long = false) ∧
    (∃ (s : State) (dd : Fin 2) (ch : Fin 32) (b : Fin 128) (t : Dev), inReset s.dev = false ∧ t = catchUp (32 * dd.val + ch.val) s.dev ∧ (dbank
      (dchan t (32 * dd.val + ch.val)) b).lock = none) ∧
    (∃ (s : State) (dd : Fin 2) (ch : Fin 32), inReset s.dev = false ∧ tst s.dev (Reg.DMC_CTRL dd) 0 = true ∧ tst s.dev (Reg.DMC_CTRL dd) 1 = true ∧
      tst s.dev (Reg.DMC_STATUS dd) 2 = false ∧ chUp s.dev (32 * dd.val + ch.val) = true) ∧
    (∃ (s : State) (dd : Fin 2) (ch : Fin 32), inReset s.dev = false ∧ (tst s.dev (Reg.DMC_CTRL dd) 1 = false ∨ tst s.dev (Reg.DMC_STATUS dd) 2 = true
      ∨ chUp s.dev (32 * dd.val + ch.val) = false)) :=
  ⟨⟨(ws ([(Reg.DMC_CTRL 0, 3), (Reg.DMC_STATUS 0, 0), (Reg.DMC_CH_STATUS 0 0, 1), (Reg.DMC_CH_DOWN 0, 0), (Reg.DMC_EVENT 0, 0), (Reg.DMC_EVENT 1, 0), (Reg.DMC_ECC_CNT 0, 0), (Reg.DMC_CH_ECC_CNT 0 0, 0), (Reg.DMC_RGN_CFG 0 0, 65536 + 8192), (Reg.DMC_RGN_BASE 0 0, 0), (Reg.ARB_DLINK_DOWN 0, 0), (Reg.ARB_DLINK_DOWN 1, 0), (Reg.DMC_REPLAY_CNT 0, 0), (Reg.DMC_CH_REPLAY_CNT 0 0, 0), (Reg.DMC_FAULT_INFO 0, 0), (Reg.DMC_SCRUB_POS 0, 0), (Reg.ARB_PREEMPT_CNT 0, 4), (Reg.ARB_LOCK_LONG_CNT 0, 4), (Reg.ARB_EVENT 0, 0), (Reg.ARB_LOCK_MAX 0, 0), (Reg.DMC_MARGIN_THR 0, 10), (Reg.DMC_RETRAIN_SKIP_CNT 0, 4), (Reg.DMC_CMD_RESULT 0, 9), (Reg.DMC_CH_STATUS 0 1, 1)]) (id)), ({ id := 7, addr := 256, die := 0, cls := 1, early := false, wr := none, flt := none } : DramReq), (0), (1), ((1, 0, 0)), by decide +kernel⟩,
   ⟨(ws ([(Reg.DMC_CTRL 0, 3), (Reg.DMC_STATUS 0, 0), (Reg.DMC_CH_STATUS 0 0, 1), (Reg.DMC_CH_DOWN 0, 0), (Reg.DMC_EVENT 0, 0), (Reg.DMC_EVENT 1, 0), (Reg.DMC_ECC_CNT 0, 0), (Reg.DMC_CH_ECC_CNT 0 0, 0), (Reg.DMC_RGN_BASE 0 0, 0), (Reg.ARB_DLINK_DOWN 0, 0), (Reg.ARB_DLINK_DOWN 1, 0), (Reg.DMC_REPLAY_CNT 0, 0), (Reg.DMC_CH_REPLAY_CNT 0 0, 0), (Reg.DMC_FAULT_INFO 0, 0), (Reg.DMC_SCRUB_POS 0, 0), (Reg.ARB_PREEMPT_CNT 0, 4), (Reg.ARB_LOCK_LONG_CNT 0, 4), (Reg.ARB_EVENT 0, 0), (Reg.ARB_LOCK_MAX 0, 0), (Reg.DMC_MARGIN_THR 0, 10), (Reg.DMC_RETRAIN_SKIP_CNT 0, 4), (Reg.DMC_CMD_RESULT 0, 9), (Reg.DMC_RGN_CFG 0 0, 0)]) (id)), 0, ({ id := 7, addr := 256, die := 0, cls := 1, early := false, wr := none, flt := none } : DramReq), by decide +kernel⟩,
   ⟨(ws ([(Reg.DMC_CTRL 0, 3), (Reg.DMC_STATUS 0, 0), (Reg.DMC_CH_STATUS 0 0, 1), (Reg.DMC_CH_DOWN 0, 0), (Reg.DMC_EVENT 0, 0), (Reg.DMC_EVENT 1, 0), (Reg.DMC_ECC_CNT 0, 0), (Reg.DMC_CH_ECC_CNT 0 0, 0), (Reg.DMC_RGN_CFG 0 0, 65536 + 8192), (Reg.DMC_RGN_BASE 0 0, 0), (Reg.ARB_DLINK_DOWN 0, 0), (Reg.ARB_DLINK_DOWN 1, 0), (Reg.DMC_REPLAY_CNT 0, 0), (Reg.DMC_CH_REPLAY_CNT 0 0, 0), (Reg.DMC_FAULT_INFO 0, 0), (Reg.DMC_SCRUB_POS 0, 0), (Reg.ARB_PREEMPT_CNT 0, 4), (Reg.ARB_LOCK_LONG_CNT 0, 4), (Reg.ARB_EVENT 0, 0), (Reg.ARB_LOCK_MAX 0, 0), (Reg.DMC_MARGIN_THR 0, 10), (Reg.DMC_RETRAIN_SKIP_CNT 0, 4), (Reg.DMC_CMD_RESULT 0, 9), (Reg.DMC_CH_STATUS 0 1, 0)]) (id)), ({ id := 7, addr := 256, die := 0, cls := 1, early := false, wr := none, flt := none } : DramReq), (0), ((1, 0, 0)), by decide +kernel⟩,
   ⟨(ws ([(Reg.DMC_CTRL 0, 3), (Reg.DMC_STATUS 0, 0), (Reg.DMC_CH_STATUS 0 0, 1), (Reg.DMC_CH_DOWN 0, 0), (Reg.DMC_EVENT 0, 0), (Reg.DMC_EVENT 1, 0), (Reg.DMC_ECC_CNT 0, 0), (Reg.DMC_CH_ECC_CNT 0 0, 0), (Reg.DMC_RGN_CFG 0 0, 65536 + 8192), (Reg.DMC_RGN_BASE 0 0, 0), (Reg.ARB_DLINK_DOWN 0, 0), (Reg.ARB_DLINK_DOWN 1, 0), (Reg.DMC_REPLAY_CNT 0, 0), (Reg.DMC_CH_REPLAY_CNT 0 0, 0), (Reg.DMC_FAULT_INFO 0, 0), (Reg.DMC_SCRUB_POS 0, 0), (Reg.ARB_PREEMPT_CNT 0, 4), (Reg.ARB_LOCK_LONG_CNT 0, 4), (Reg.ARB_EVENT 0, 0), (Reg.ARB_LOCK_MAX 0, 0), (Reg.DMC_MARGIN_THR 0, 10), (Reg.DMC_RETRAIN_SKIP_CNT 0, 4), (Reg.DMC_CMD_RESULT 0, 9)]) (fun d => { d with dmc := { chans := [(0, ({ fin := [(({ n := 0, id := 7, addr := 0, bank := 0, row := 0, wr := none, at_ := 0, rmw := 0 } : DReq), [])] } : DChan))] } })), 0, 0, runUntil 0 20000 (fun t => !(dchan t 0).fin.isEmpty) (ws ([(Reg.DMC_CTRL 0, 3), (Reg.DMC_STATUS 0, 0), (Reg.DMC_CH_STATUS 0 0, 1), (Reg.DMC_CH_DOWN 0, 0), (Reg.DMC_EVENT 0, 0), (Reg.DMC_EVENT 1, 0), (Reg.DMC_ECC_CNT 0, 0), (Reg.DMC_CH_ECC_CNT 0 0, 0), (Reg.DMC_RGN_CFG 0 0, 65536 + 8192), (Reg.DMC_RGN_BASE 0 0, 0), (Reg.ARB_DLINK_DOWN 0, 0), (Reg.ARB_DLINK_DOWN 1, 0), (Reg.DMC_REPLAY_CNT 0, 0), (Reg.DMC_CH_REPLAY_CNT 0 0, 0), (Reg.DMC_FAULT_INFO 0, 0), (Reg.DMC_SCRUB_POS 0, 0), (Reg.ARB_PREEMPT_CNT 0, 4), (Reg.ARB_LOCK_LONG_CNT 0, 4), (Reg.ARB_EVENT 0, 0), (Reg.ARB_LOCK_MAX 0, 0), (Reg.DMC_MARGIN_THR 0, 10), (Reg.DMC_RETRAIN_SKIP_CNT 0, 4), (Reg.DMC_CMD_RESULT 0, 9)]) (fun d => { d with dmc := { chans := [(0, ({ fin := [(({ n := 0, id := 7, addr := 0, bank := 0, row := 0, wr := none, at_ := 0, rmw := 0 } : DReq), [])] } : DChan))] } }) : State).dev, (1), (({ n := 0, id := 7, addr := 0, bank := 0, row := 0, wr := none, at_ := 0, rmw := 0 } : DReq)), ([]), ([]), by decide +kernel⟩,
   ⟨(ws ([(Reg.DMC_CTRL 0, 3), (Reg.DMC_STATUS 0, 0), (Reg.DMC_CH_STATUS 0 0, 1), (Reg.DMC_CH_DOWN 0, 0), (Reg.DMC_EVENT 0, 0), (Reg.DMC_EVENT 1, 0), (Reg.DMC_ECC_CNT 0, 0), (Reg.DMC_CH_ECC_CNT 0 0, 0), (Reg.DMC_RGN_CFG 0 0, 65536 + 8192), (Reg.DMC_RGN_BASE 0 0, 0), (Reg.ARB_DLINK_DOWN 0, 0), (Reg.ARB_DLINK_DOWN 1, 0), (Reg.DMC_REPLAY_CNT 0, 0), (Reg.DMC_CH_REPLAY_CNT 0 0, 0), (Reg.DMC_FAULT_INFO 0, 0), (Reg.DMC_SCRUB_POS 0, 0), (Reg.ARB_PREEMPT_CNT 0, 4), (Reg.ARB_LOCK_LONG_CNT 0, 4), (Reg.ARB_EVENT 0, 0), (Reg.ARB_LOCK_MAX 0, 0), (Reg.DMC_MARGIN_THR 0, 10), (Reg.DMC_RETRAIN_SKIP_CNT 0, 4), (Reg.DMC_CMD_RESULT 0, 9)]) (fun d => { d with dmc := { chans := [(0, ({ fin := [(({ n := 0, id := 7, addr := 0, bank := 0, row := 0, wr := none, at_ := 0, rmw := 0 } : DReq), [])] } : DChan))] } })), 0, 0, runUntil 0 20000 (fun t => !(dchan t 0).fin.isEmpty) (ws ([(Reg.DMC_CTRL 0, 3), (Reg.DMC_STATUS 0, 0), (Reg.DMC_CH_STATUS 0 0, 1), (Reg.DMC_CH_DOWN 0, 0), (Reg.DMC_EVENT 0, 0), (Reg.DMC_EVENT 1, 0), (Reg.DMC_ECC_CNT 0, 0), (Reg.DMC_CH_ECC_CNT 0 0, 0), (Reg.DMC_RGN_CFG 0 0, 65536 + 8192), (Reg.DMC_RGN_BASE 0 0, 0), (Reg.ARB_DLINK_DOWN 0, 0), (Reg.ARB_DLINK_DOWN 1, 0), (Reg.DMC_REPLAY_CNT 0, 0), (Reg.DMC_CH_REPLAY_CNT 0 0, 0), (Reg.DMC_FAULT_INFO 0, 0), (Reg.DMC_SCRUB_POS 0, 0), (Reg.ARB_PREEMPT_CNT 0, 4), (Reg.ARB_LOCK_LONG_CNT 0, 4), (Reg.ARB_EVENT 0, 0), (Reg.ARB_LOCK_MAX 0, 0), (Reg.DMC_MARGIN_THR 0, 10), (Reg.DMC_RETRAIN_SKIP_CNT 0, 4), (Reg.DMC_CMD_RESULT 0, 9)]) (fun d => { d with dmc := { chans := [(0, ({ fin := [(({ n := 0, id := 7, addr := 0, bank := 0, row := 0, wr := none, at_ := 0, rmw := 0 } : DReq), [])] } : DChan))] } }) : State).dev, (({ n := 0, id := 7, addr := 0, bank := 0, row := 0, wr := none, at_ := 0, rmw := 0 } : DReq)), ([]), ([]), by decide +kernel⟩,
   ⟨(ws ([(Reg.DMC_CTRL 0, 3), (Reg.DMC_STATUS 0, 0), (Reg.DMC_CH_STATUS 0 0, 1), (Reg.DMC_CH_DOWN 0, 0), (Reg.DMC_EVENT 0, 0), (Reg.DMC_EVENT 1, 0), (Reg.DMC_ECC_CNT 0, 0), (Reg.DMC_CH_ECC_CNT 0 0, 0), (Reg.DMC_RGN_CFG 0 0, 65536 + 8192), (Reg.DMC_RGN_BASE 0 0, 0), (Reg.ARB_DLINK_DOWN 0, 0), (Reg.ARB_DLINK_DOWN 1, 0), (Reg.DMC_REPLAY_CNT 0, 0), (Reg.DMC_CH_REPLAY_CNT 0 0, 0), (Reg.DMC_FAULT_INFO 0, 0), (Reg.DMC_SCRUB_POS 0, 0), (Reg.ARB_PREEMPT_CNT 0, 4), (Reg.ARB_LOCK_LONG_CNT 0, 4), (Reg.ARB_EVENT 0, 0), (Reg.ARB_LOCK_MAX 0, 0), (Reg.DMC_MARGIN_THR 0, 10), (Reg.DMC_RETRAIN_SKIP_CNT 0, 4), (Reg.DMC_CMD_RESULT 0, 9)]) (id)), 0, 0, runUntil 0 20000 (fun t => !(dchan t 0).fin.isEmpty) (ws ([(Reg.DMC_CTRL 0, 3), (Reg.DMC_STATUS 0, 0), (Reg.DMC_CH_STATUS 0 0, 1), (Reg.DMC_CH_DOWN 0, 0), (Reg.DMC_EVENT 0, 0), (Reg.DMC_EVENT 1, 0), (Reg.DMC_ECC_CNT 0, 0), (Reg.DMC_CH_ECC_CNT 0 0, 0), (Reg.DMC_RGN_CFG 0 0, 65536 + 8192), (Reg.DMC_RGN_BASE 0 0, 0), (Reg.ARB_DLINK_DOWN 0, 0), (Reg.ARB_DLINK_DOWN 1, 0), (Reg.DMC_REPLAY_CNT 0, 0), (Reg.DMC_CH_REPLAY_CNT 0 0, 0), (Reg.DMC_FAULT_INFO 0, 0), (Reg.DMC_SCRUB_POS 0, 0), (Reg.ARB_PREEMPT_CNT 0, 4), (Reg.ARB_LOCK_LONG_CNT 0, 4), (Reg.ARB_EVENT 0, 0), (Reg.ARB_LOCK_MAX 0, 0), (Reg.DMC_MARGIN_THR 0, 10), (Reg.DMC_RETRAIN_SKIP_CNT 0, 4), (Reg.DMC_CMD_RESULT 0, 9)]) (id) : State).dev, by decide +kernel⟩,
   ⟨(ws ([(Reg.DMC_CTRL 0, 3), (Reg.DMC_STATUS 0, 0), (Reg.DMC_CH_STATUS 0 0, 1), (Reg.DMC_CH_DOWN 0, 0), (Reg.DMC_EVENT 0, 0), (Reg.DMC_EVENT 1, 0), (Reg.DMC_ECC_CNT 0, 0), (Reg.DMC_CH_ECC_CNT 0 0, 0), (Reg.DMC_RGN_CFG 0 0, 65536 + 8192), (Reg.DMC_RGN_BASE 0 0, 0), (Reg.ARB_DLINK_DOWN 0, 0), (Reg.ARB_DLINK_DOWN 1, 0), (Reg.DMC_REPLAY_CNT 0, 0), (Reg.DMC_CH_REPLAY_CNT 0 0, 0), (Reg.DMC_FAULT_INFO 0, 0), (Reg.DMC_SCRUB_POS 0, 0), (Reg.ARB_PREEMPT_CNT 0, 4), (Reg.ARB_LOCK_LONG_CNT 0, 4), (Reg.ARB_EVENT 0, 0), (Reg.ARB_LOCK_MAX 0, 0), (Reg.DMC_MARGIN_THR 0, 10), (Reg.DMC_RETRAIN_SKIP_CNT 0, 4), (Reg.DMC_CMD_RESULT 0, 9)]) (fun d => { d with dmc := { chans := [(0, ({ retry := [⟨some ({ n := 0, id := 7, addr := 0, bank := 0, row := 0, wr := none, at_ := 0, rmw := 0 } : DReq), 0, 20⟩], cyc := 30 } : DChan))] } })), 0, 0, catchUp 0 (ws ([(Reg.DMC_CTRL 0, 3), (Reg.DMC_STATUS 0, 0), (Reg.DMC_CH_STATUS 0 0, 1), (Reg.DMC_CH_DOWN 0, 0), (Reg.DMC_EVENT 0, 0), (Reg.DMC_EVENT 1, 0), (Reg.DMC_ECC_CNT 0, 0), (Reg.DMC_CH_ECC_CNT 0 0, 0), (Reg.DMC_RGN_CFG 0 0, 65536 + 8192), (Reg.DMC_RGN_BASE 0 0, 0), (Reg.ARB_DLINK_DOWN 0, 0), (Reg.ARB_DLINK_DOWN 1, 0), (Reg.DMC_REPLAY_CNT 0, 0), (Reg.DMC_CH_REPLAY_CNT 0 0, 0), (Reg.DMC_FAULT_INFO 0, 0), (Reg.DMC_SCRUB_POS 0, 0), (Reg.ARB_PREEMPT_CNT 0, 4), (Reg.ARB_LOCK_LONG_CNT 0, 4), (Reg.ARB_EVENT 0, 0), (Reg.ARB_LOCK_MAX 0, 0), (Reg.DMC_MARGIN_THR 0, 10), (Reg.DMC_RETRAIN_SKIP_CNT 0, 4), (Reg.DMC_CMD_RESULT 0, 9)]) (fun d => { d with dmc := { chans := [(0, ({ retry := [⟨some ({ n := 0, id := 7, addr := 0, bank := 0, row := 0, wr := none, at_ := 0, rmw := 0 } : DReq), 0, 20⟩], cyc := 30 } : DChan))] } }) : State).dev, by decide +kernel⟩,
   ⟨(ws ([(Reg.DMC_CTRL 0, 3), (Reg.DMC_STATUS 0, 0), (Reg.DMC_CH_STATUS 0 0, 33), (Reg.DMC_CH_DOWN 0, 0), (Reg.DMC_EVENT 0, 0), (Reg.DMC_EVENT 1, 0), (Reg.DMC_ECC_CNT 0, 0), (Reg.DMC_CH_ECC_CNT 0 0, 0), (Reg.DMC_RGN_CFG 0 0, 65536 + 8192), (Reg.DMC_RGN_BASE 0 0, 0), (Reg.ARB_DLINK_DOWN 0, 0), (Reg.ARB_DLINK_DOWN 1, 0), (Reg.DMC_REPLAY_CNT 0, 0), (Reg.DMC_CH_REPLAY_CNT 0 0, 0), (Reg.DMC_FAULT_INFO 0, 0), (Reg.DMC_SCRUB_POS 0, 0), (Reg.ARB_PREEMPT_CNT 0, 4), (Reg.ARB_LOCK_LONG_CNT 0, 4), (Reg.ARB_EVENT 0, 0), (Reg.ARB_LOCK_MAX 0, 0), (Reg.DMC_MARGIN_THR 0, 10), (Reg.DMC_RETRAIN_SKIP_CNT 0, 4), (Reg.DMC_CMD_RESULT 0, 9)]) (fun d => { d with dmc := { chans := [(0, ({ retry := [⟨some ({ n := 0, id := 7, addr := 0, bank := 0, row := 0, wr := none, at_ := 0, rmw := 0 } : DReq), 0, 20⟩], cyc := 30 } : DChan))] } })), 0, 0, catchUp 0 (ws ([(Reg.DMC_CTRL 0, 3), (Reg.DMC_STATUS 0, 0), (Reg.DMC_CH_STATUS 0 0, 33), (Reg.DMC_CH_DOWN 0, 0), (Reg.DMC_EVENT 0, 0), (Reg.DMC_EVENT 1, 0), (Reg.DMC_ECC_CNT 0, 0), (Reg.DMC_CH_ECC_CNT 0 0, 0), (Reg.DMC_RGN_CFG 0 0, 65536 + 8192), (Reg.DMC_RGN_BASE 0 0, 0), (Reg.ARB_DLINK_DOWN 0, 0), (Reg.ARB_DLINK_DOWN 1, 0), (Reg.DMC_REPLAY_CNT 0, 0), (Reg.DMC_CH_REPLAY_CNT 0 0, 0), (Reg.DMC_FAULT_INFO 0, 0), (Reg.DMC_SCRUB_POS 0, 0), (Reg.ARB_PREEMPT_CNT 0, 4), (Reg.ARB_LOCK_LONG_CNT 0, 4), (Reg.ARB_EVENT 0, 0), (Reg.ARB_LOCK_MAX 0, 0), (Reg.DMC_MARGIN_THR 0, 10), (Reg.DMC_RETRAIN_SKIP_CNT 0, 4), (Reg.DMC_CMD_RESULT 0, 9)]) (fun d => { d with dmc := { chans := [(0, ({ retry := [⟨some ({ n := 0, id := 7, addr := 0, bank := 0, row := 0, wr := none, at_ := 0, rmw := 0 } : DReq), 0, 20⟩], cyc := 30 } : DChan))] } }) : State).dev, by decide +kernel⟩,
   ⟨(ws ([(Reg.DMC_CTRL 0, 3), (Reg.DMC_STATUS 0, 0), (Reg.DMC_CH_STATUS 0 0, 0), (Reg.DMC_CH_DOWN 0, 0), (Reg.DMC_EVENT 0, 0), (Reg.DMC_EVENT 1, 0), (Reg.DMC_ECC_CNT 0, 0), (Reg.DMC_CH_ECC_CNT 0 0, 0), (Reg.DMC_RGN_CFG 0 0, 65536 + 8192), (Reg.DMC_RGN_BASE 0 0, 0), (Reg.ARB_DLINK_DOWN 0, 0), (Reg.ARB_DLINK_DOWN 1, 0), (Reg.DMC_REPLAY_CNT 0, 0), (Reg.DMC_CH_REPLAY_CNT 0 0, 0), (Reg.DMC_FAULT_INFO 0, 0), (Reg.DMC_SCRUB_POS 0, 0), (Reg.ARB_PREEMPT_CNT 0, 4), (Reg.ARB_LOCK_LONG_CNT 0, 4), (Reg.ARB_EVENT 0, 0), (Reg.ARB_LOCK_MAX 0, 0), (Reg.DMC_MARGIN_THR 0, 10), (Reg.DMC_RETRAIN_SKIP_CNT 0, 4), (Reg.DMC_CMD_RESULT 0, 9)]) (id)), 0, 0, catchUp 0 (ws ([(Reg.DMC_CTRL 0, 3), (Reg.DMC_STATUS 0, 0), (Reg.DMC_CH_STATUS 0 0, 0), (Reg.DMC_CH_DOWN 0, 0), (Reg.DMC_EVENT 0, 0), (Reg.DMC_EVENT 1, 0), (Reg.DMC_ECC_CNT 0, 0), (Reg.DMC_CH_ECC_CNT 0 0, 0), (Reg.DMC_RGN_CFG 0 0, 65536 + 8192), (Reg.DMC_RGN_BASE 0 0, 0), (Reg.ARB_DLINK_DOWN 0, 0), (Reg.ARB_DLINK_DOWN 1, 0), (Reg.DMC_REPLAY_CNT 0, 0), (Reg.DMC_CH_REPLAY_CNT 0 0, 0), (Reg.DMC_FAULT_INFO 0, 0), (Reg.DMC_SCRUB_POS 0, 0), (Reg.ARB_PREEMPT_CNT 0, 4), (Reg.ARB_LOCK_LONG_CNT 0, 4), (Reg.ARB_EVENT 0, 0), (Reg.ARB_LOCK_MAX 0, 0), (Reg.DMC_MARGIN_THR 0, 10), (Reg.DMC_RETRAIN_SKIP_CNT 0, 4), (Reg.DMC_CMD_RESULT 0, 9)]) (id) : State).dev, by decide +kernel⟩,
   ⟨(ws ([(Reg.DMC_CTRL 0, 3), (Reg.DMC_STATUS 0, 0), (Reg.DMC_CH_STATUS 0 0, 1), (Reg.DMC_CH_DOWN 0, 0), (Reg.DMC_EVENT 0, 0), (Reg.DMC_EVENT 1, 0), (Reg.DMC_ECC_CNT 0, 0), (Reg.DMC_CH_ECC_CNT 0 0, 0), (Reg.DMC_RGN_CFG 0 0, 65536 + 8192), (Reg.DMC_RGN_BASE 0 0, 0), (Reg.ARB_DLINK_DOWN 0, 0), (Reg.ARB_DLINK_DOWN 1, 0), (Reg.DMC_REPLAY_CNT 0, 0), (Reg.DMC_CH_REPLAY_CNT 0 0, 0), (Reg.DMC_FAULT_INFO 0, 0), (Reg.DMC_SCRUB_POS 0, 0), (Reg.ARB_PREEMPT_CNT 0, 4), (Reg.ARB_LOCK_LONG_CNT 0, 4), (Reg.ARB_EVENT 0, 0), (Reg.ARB_LOCK_MAX 0, 0), (Reg.DMC_MARGIN_THR 0, 10), (Reg.DMC_RETRAIN_SKIP_CNT 0, 4), (Reg.DMC_CMD_RESULT 0, 9)]) (fun d => { d with dmc := { chans := [(0, ({ replay := some (40, []), cyc := 30 } : DChan))] } })), 0, 0, catchUp 0 (ws ([(Reg.DMC_CTRL 0, 3), (Reg.DMC_STATUS 0, 0), (Reg.DMC_CH_STATUS 0 0, 1), (Reg.DMC_CH_DOWN 0, 0), (Reg.DMC_EVENT 0, 0), (Reg.DMC_EVENT 1, 0), (Reg.DMC_ECC_CNT 0, 0), (Reg.DMC_CH_ECC_CNT 0 0, 0), (Reg.DMC_RGN_CFG 0 0, 65536 + 8192), (Reg.DMC_RGN_BASE 0 0, 0), (Reg.ARB_DLINK_DOWN 0, 0), (Reg.ARB_DLINK_DOWN 1, 0), (Reg.DMC_REPLAY_CNT 0, 0), (Reg.DMC_CH_REPLAY_CNT 0 0, 0), (Reg.DMC_FAULT_INFO 0, 0), (Reg.DMC_SCRUB_POS 0, 0), (Reg.ARB_PREEMPT_CNT 0, 4), (Reg.ARB_LOCK_LONG_CNT 0, 4), (Reg.ARB_EVENT 0, 0), (Reg.ARB_LOCK_MAX 0, 0), (Reg.DMC_MARGIN_THR 0, 10), (Reg.DMC_RETRAIN_SKIP_CNT 0, 4), (Reg.DMC_CMD_RESULT 0, 9)]) (fun d => { d with dmc := { chans := [(0, ({ replay := some (40, []), cyc := 30 } : DChan))] } }) : State).dev, by decide +kernel⟩,
   ⟨(ws ([(Reg.DMC_CTRL 0, 3), (Reg.DMC_STATUS 0, 4), (Reg.DMC_CH_STATUS 0 0, 1), (Reg.DMC_CH_DOWN 0, 0), (Reg.DMC_EVENT 0, 0), (Reg.DMC_EVENT 1, 0), (Reg.DMC_ECC_CNT 0, 0), (Reg.DMC_CH_ECC_CNT 0 0, 0), (Reg.DMC_RGN_CFG 0 0, 65536 + 8192), (Reg.DMC_RGN_BASE 0 0, 0), (Reg.ARB_DLINK_DOWN 0, 0), (Reg.ARB_DLINK_DOWN 1, 0), (Reg.DMC_REPLAY_CNT 0, 0), (Reg.DMC_CH_REPLAY_CNT 0 0, 0), (Reg.DMC_FAULT_INFO 0, 0), (Reg.DMC_SCRUB_POS 0, 0), (Reg.ARB_PREEMPT_CNT 0, 4), (Reg.ARB_LOCK_LONG_CNT 0, 4), (Reg.ARB_EVENT 0, 0), (Reg.ARB_LOCK_MAX 0, 0), (Reg.DMC_MARGIN_THR 0, 10), (Reg.DMC_RETRAIN_SKIP_CNT 0, 4), (Reg.DMC_CMD_RESULT 0, 9)]) (id)), 0, by decide +kernel⟩,
   ⟨(ws ([(Reg.DMC_CTRL 0, 3), (Reg.DMC_STATUS 0, 0), (Reg.DMC_CH_STATUS 0 0, 1), (Reg.DMC_CH_DOWN 0, 0), (Reg.DMC_EVENT 0, 0), (Reg.DMC_EVENT 1, 0), (Reg.DMC_ECC_CNT 0, 0), (Reg.DMC_CH_ECC_CNT 0 0, 0), (Reg.DMC_RGN_CFG 0 0, 65536 + 8192), (Reg.DMC_RGN_BASE 0 0, 0), (Reg.ARB_DLINK_DOWN 0, 0), (Reg.ARB_DLINK_DOWN 1, 0), (Reg.DMC_REPLAY_CNT 0, 0), (Reg.DMC_CH_REPLAY_CNT 0 0, 0), (Reg.DMC_FAULT_INFO 0, 0), (Reg.DMC_SCRUB_POS 0, 0), (Reg.ARB_PREEMPT_CNT 0, 4), (Reg.ARB_LOCK_LONG_CNT 0, 4), (Reg.ARB_EVENT 0, 0), (Reg.ARB_LOCK_MAX 0, 0), (Reg.DMC_MARGIN_THR 0, 10), (Reg.DMC_RETRAIN_SKIP_CNT 0, 4), (Reg.DMC_CMD_RESULT 0, 9)]) (id)), 0, 0, 0, catchUp 0 (waitUntil (refreshDue (ws ([(Reg.DMC_CTRL 0, 3), (Reg.DMC_STATUS 0, 0), (Reg.DMC_CH_STATUS 0 0, 1), (Reg.DMC_CH_DOWN 0, 0), (Reg.DMC_EVENT 0, 0), (Reg.DMC_EVENT 1, 0), (Reg.DMC_ECC_CNT 0, 0), (Reg.DMC_CH_ECC_CNT 0 0, 0), (Reg.DMC_RGN_CFG 0 0, 65536 + 8192), (Reg.DMC_RGN_BASE 0 0, 0), (Reg.ARB_DLINK_DOWN 0, 0), (Reg.ARB_DLINK_DOWN 1, 0), (Reg.DMC_REPLAY_CNT 0, 0), (Reg.DMC_CH_REPLAY_CNT 0 0, 0), (Reg.DMC_FAULT_INFO 0, 0), (Reg.DMC_SCRUB_POS 0, 0), (Reg.ARB_PREEMPT_CNT 0, 4), (Reg.ARB_LOCK_LONG_CNT 0, 4), (Reg.ARB_EVENT 0, 0), (Reg.ARB_LOCK_MAX 0, 0), (Reg.DMC_MARGIN_THR 0, 10), (Reg.DMC_RETRAIN_SKIP_CNT 0, 4), (Reg.DMC_CMD_RESULT 0, 9)]) (id) : State).dev 0 0) (ws ([(Reg.DMC_CTRL 0, 3), (Reg.DMC_STATUS 0, 0), (Reg.DMC_CH_STATUS 0 0, 1), (Reg.DMC_CH_DOWN 0, 0), (Reg.DMC_EVENT 0, 0), (Reg.DMC_EVENT 1, 0), (Reg.DMC_ECC_CNT 0, 0), (Reg.DMC_CH_ECC_CNT 0 0, 0), (Reg.DMC_RGN_CFG 0 0, 65536 + 8192), (Reg.DMC_RGN_BASE 0 0, 0), (Reg.ARB_DLINK_DOWN 0, 0), (Reg.ARB_DLINK_DOWN 1, 0), (Reg.DMC_REPLAY_CNT 0, 0), (Reg.DMC_CH_REPLAY_CNT 0 0, 0), (Reg.DMC_FAULT_INFO 0, 0), (Reg.DMC_SCRUB_POS 0, 0), (Reg.ARB_PREEMPT_CNT 0, 4), (Reg.ARB_LOCK_LONG_CNT 0, 4), (Reg.ARB_EVENT 0, 0), (Reg.ARB_LOCK_MAX 0, 0), (Reg.DMC_MARGIN_THR 0, 10), (Reg.DMC_RETRAIN_SKIP_CNT 0, 4), (Reg.DMC_CMD_RESULT 0, 9)]) (id) : State).dev), by decide +kernel⟩,
   ⟨(ws ([(Reg.DMC_CTRL 0, 3), (Reg.DMC_STATUS 0, 0), (Reg.DMC_CH_STATUS 0 0, 1), (Reg.DMC_CH_DOWN 0, 0), (Reg.DMC_EVENT 0, 0), (Reg.DMC_EVENT 1, 0), (Reg.DMC_ECC_CNT 0, 0), (Reg.DMC_CH_ECC_CNT 0 0, 0), (Reg.DMC_RGN_CFG 0 0, 65536 + 8192), (Reg.DMC_RGN_BASE 0 0, 0), (Reg.ARB_DLINK_DOWN 0, 0), (Reg.ARB_DLINK_DOWN 1, 0), (Reg.DMC_REPLAY_CNT 0, 0), (Reg.DMC_CH_REPLAY_CNT 0 0, 0), (Reg.DMC_FAULT_INFO 0, 0), (Reg.DMC_SCRUB_POS 0, 0), (Reg.ARB_PREEMPT_CNT 0, 4), (Reg.ARB_LOCK_LONG_CNT 0, 4), (Reg.ARB_EVENT 0, 0), (Reg.ARB_LOCK_MAX 0, 0), (Reg.DMC_MARGIN_THR 0, 10), (Reg.DMC_RETRAIN_SKIP_CNT 0, 4), (Reg.DMC_CMD_RESULT 0, 9)]) (fun d => { d with dmc := { chans := [(0, ({ banks := [(0, { late := 8, row := some 1 })] } : DChan))] } })), 0, 0, 0, catchUp 0 (ws ([(Reg.DMC_CTRL 0, 3), (Reg.DMC_STATUS 0, 0), (Reg.DMC_CH_STATUS 0 0, 1), (Reg.DMC_CH_DOWN 0, 0), (Reg.DMC_EVENT 0, 0), (Reg.DMC_EVENT 1, 0), (Reg.DMC_ECC_CNT 0, 0), (Reg.DMC_CH_ECC_CNT 0 0, 0), (Reg.DMC_RGN_CFG 0 0, 65536 + 8192), (Reg.DMC_RGN_BASE 0 0, 0), (Reg.ARB_DLINK_DOWN 0, 0), (Reg.ARB_DLINK_DOWN 1, 0), (Reg.DMC_REPLAY_CNT 0, 0), (Reg.DMC_CH_REPLAY_CNT 0 0, 0), (Reg.DMC_FAULT_INFO 0, 0), (Reg.DMC_SCRUB_POS 0, 0), (Reg.ARB_PREEMPT_CNT 0, 4), (Reg.ARB_LOCK_LONG_CNT 0, 4), (Reg.ARB_EVENT 0, 0), (Reg.ARB_LOCK_MAX 0, 0), (Reg.DMC_MARGIN_THR 0, 10), (Reg.DMC_RETRAIN_SKIP_CNT 0, 4), (Reg.DMC_CMD_RESULT 0, 9)]) (fun d => { d with dmc := { chans := [(0, ({ banks := [(0, { late := 8, row := some 1 })] } : DChan))] } }) : State).dev, by decide +kernel⟩,
   ⟨(ws ([(Reg.DMC_CTRL 0, 3), (Reg.DMC_STATUS 0, 0), (Reg.DMC_CH_STATUS 0 0, 1), (Reg.DMC_CH_DOWN 0, 0), (Reg.DMC_EVENT 0, 0), (Reg.DMC_EVENT 1, 0), (Reg.DMC_ECC_CNT 0, 0), (Reg.DMC_CH_ECC_CNT 0 0, 0), (Reg.DMC_RGN_CFG 0 0, 65536 + 8192), (Reg.DMC_RGN_BASE 0 0, 0), (Reg.ARB_DLINK_DOWN 0, 0), (Reg.ARB_DLINK_DOWN 1, 0), (Reg.DMC_REPLAY_CNT 0, 0), (Reg.DMC_CH_REPLAY_CNT 0 0, 0), (Reg.DMC_FAULT_INFO 0, 0), (Reg.DMC_SCRUB_POS 0, 0), (Reg.ARB_PREEMPT_CNT 0, 4), (Reg.ARB_LOCK_LONG_CNT 0, 4), (Reg.ARB_EVENT 0, 0), (Reg.ARB_LOCK_MAX 0, 0), (Reg.DMC_MARGIN_THR 0, 10), (Reg.DMC_RETRAIN_SKIP_CNT 0, 4), (Reg.DMC_CMD_RESULT 0, 9)]) (id)), 0, 0, 0, catchUp 0 (ws ([(Reg.DMC_CTRL 0, 3), (Reg.DMC_STATUS 0, 0), (Reg.DMC_CH_STATUS 0 0, 1), (Reg.DMC_CH_DOWN 0, 0), (Reg.DMC_EVENT 0, 0), (Reg.DMC_EVENT 1, 0), (Reg.DMC_ECC_CNT 0, 0), (Reg.DMC_CH_ECC_CNT 0 0, 0), (Reg.DMC_RGN_CFG 0 0, 65536 + 8192), (Reg.DMC_RGN_BASE 0 0, 0), (Reg.ARB_DLINK_DOWN 0, 0), (Reg.ARB_DLINK_DOWN 1, 0), (Reg.DMC_REPLAY_CNT 0, 0), (Reg.DMC_CH_REPLAY_CNT 0 0, 0), (Reg.DMC_FAULT_INFO 0, 0), (Reg.DMC_SCRUB_POS 0, 0), (Reg.ARB_PREEMPT_CNT 0, 4), (Reg.ARB_LOCK_LONG_CNT 0, 4), (Reg.ARB_EVENT 0, 0), (Reg.ARB_LOCK_MAX 0, 0), (Reg.DMC_MARGIN_THR 0, 10), (Reg.DMC_RETRAIN_SKIP_CNT 0, 4), (Reg.DMC_CMD_RESULT 0, 9)]) (id) : State).dev, by decide +kernel⟩,
   ⟨(ws ([(Reg.DMC_CTRL 0, 3), (Reg.DMC_STATUS 0, 0), (Reg.DMC_CH_STATUS 0 0, 1), (Reg.DMC_CH_DOWN 0, 0), (Reg.DMC_EVENT 0, 0), (Reg.DMC_EVENT 1, 0), (Reg.DMC_ECC_CNT 0, 0), (Reg.DMC_CH_ECC_CNT 0 0, 0), (Reg.DMC_RGN_CFG 0 0, 65536 + 8192), (Reg.DMC_RGN_BASE 0 0, 0), (Reg.ARB_DLINK_DOWN 0, 0), (Reg.ARB_DLINK_DOWN 1, 0), (Reg.DMC_REPLAY_CNT 0, 0), (Reg.DMC_CH_REPLAY_CNT 0 0, 0), (Reg.DMC_FAULT_INFO 0, 0), (Reg.DMC_SCRUB_POS 0, 0), (Reg.ARB_PREEMPT_CNT 0, 4), (Reg.ARB_LOCK_LONG_CNT 0, 4), (Reg.ARB_EVENT 0, 0), (Reg.ARB_LOCK_MAX 0, 0), (Reg.DMC_MARGIN_THR 0, 10), (Reg.DMC_RETRAIN_SKIP_CNT 0, 4), (Reg.DMC_CMD_RESULT 0, 9)]) (fun d => { d with dmc := { chans := [(0, ({ banks := [(0, { row := some 3, last := 5 })] } : DChan))] } })), 0, 0, 0, by decide +kernel⟩,
   ⟨(ws ([(Reg.DMC_CTRL 0, 3), (Reg.DMC_STATUS 0, 0), (Reg.DMC_CH_STATUS 0 0, 1), (Reg.DMC_CH_DOWN 0, 0), (Reg.DMC_EVENT 0, 0), (Reg.DMC_EVENT 1, 0), (Reg.DMC_ECC_CNT 0, 0), (Reg.DMC_CH_ECC_CNT 0 0, 0), (Reg.DMC_RGN_CFG 0 0, 65536 + 8192), (Reg.DMC_RGN_BASE 0 0, 0), (Reg.ARB_DLINK_DOWN 0, 0), (Reg.ARB_DLINK_DOWN 1, 0), (Reg.DMC_REPLAY_CNT 0, 0), (Reg.DMC_CH_REPLAY_CNT 0 0, 0), (Reg.DMC_FAULT_INFO 0, 0), (Reg.DMC_SCRUB_POS 0, 0), (Reg.ARB_PREEMPT_CNT 0, 4), (Reg.ARB_LOCK_LONG_CNT 0, 4), (Reg.ARB_EVENT 0, 0), (Reg.ARB_LOCK_MAX 0, 0), (Reg.DMC_MARGIN_THR 0, 10), (Reg.DMC_RETRAIN_SKIP_CNT 0, 4), (Reg.DMC_CMD_RESULT 0, 9)]) (id)), 0, 0, 0, by decide +kernel⟩,
   ⟨(ws ([(Reg.DMC_CTRL 0, 3), (Reg.DMC_STATUS 0, 0), (Reg.DMC_CH_STATUS 0 0, 1), (Reg.DMC_CH_DOWN 0, 0), (Reg.DMC_EVENT 0, 0), (Reg.DMC_EVENT 1, 0), (Reg.DMC_ECC_CNT 0, 0), (Reg.DMC_CH_ECC_CNT 0 0, 0), (Reg.DMC_RGN_CFG 0 0, 65536 + 8192), (Reg.DMC_RGN_BASE 0 0, 0), (Reg.ARB_DLINK_DOWN 0, 0), (Reg.ARB_DLINK_DOWN 1, 0), (Reg.DMC_REPLAY_CNT 0, 0), (Reg.DMC_CH_REPLAY_CNT 0 0, 0), (Reg.DMC_FAULT_INFO 0, 0), (Reg.DMC_SCRUB_POS 0, 0), (Reg.ARB_PREEMPT_CNT 0, 4), (Reg.ARB_LOCK_LONG_CNT 0, 4), (Reg.ARB_EVENT 0, 0), (Reg.ARB_LOCK_MAX 0, 0), (Reg.DMC_MARGIN_THR 0, 10), (Reg.DMC_RETRAIN_SKIP_CNT 0, 4), (Reg.DMC_CMD_RESULT 0, 9)]) (fun d => { d with dmc := { chans := [(0, ({ banks := [(0, { lock := some (4, 0) })] } : DChan))] } })), 0, 0, 0, runUntil 0 (0 + 257 - (dchan (catchUp 0 (ws ([(Reg.DMC_CTRL 0, 3), (Reg.DMC_STATUS 0, 0), (Reg.DMC_CH_STATUS 0 0, 1), (Reg.DMC_CH_DOWN 0, 0), (Reg.DMC_EVENT 0, 0), (Reg.DMC_EVENT 1, 0), (Reg.DMC_ECC_CNT 0, 0), (Reg.DMC_CH_ECC_CNT 0 0, 0), (Reg.DMC_RGN_CFG 0 0, 65536 + 8192), (Reg.DMC_RGN_BASE 0 0, 0), (Reg.ARB_DLINK_DOWN 0, 0), (Reg.ARB_DLINK_DOWN 1, 0), (Reg.DMC_REPLAY_CNT 0, 0), (Reg.DMC_CH_REPLAY_CNT 0 0, 0), (Reg.DMC_FAULT_INFO 0, 0), (Reg.DMC_SCRUB_POS 0, 0), (Reg.ARB_PREEMPT_CNT 0, 4), (Reg.ARB_LOCK_LONG_CNT 0, 4), (Reg.ARB_EVENT 0, 0), (Reg.ARB_LOCK_MAX 0, 0), (Reg.DMC_MARGIN_THR 0, 10), (Reg.DMC_RETRAIN_SKIP_CNT 0, 4), (Reg.DMC_CMD_RESULT 0, 9)]) (fun d => { d with dmc := { chans := [(0, ({ banks := [(0, { lock := some (4, 0) })] } : DChan))] } }) : State).dev) 0).cyc) (fun u => (dbank (dchan u 0) 0).lock != some (4, 0)) (catchUp 0 (ws ([(Reg.DMC_CTRL 0, 3), (Reg.DMC_STATUS 0, 0), (Reg.DMC_CH_STATUS 0 0, 1), (Reg.DMC_CH_DOWN 0, 0), (Reg.DMC_EVENT 0, 0), (Reg.DMC_EVENT 1, 0), (Reg.DMC_ECC_CNT 0, 0), (Reg.DMC_CH_ECC_CNT 0 0, 0), (Reg.DMC_RGN_CFG 0 0, 65536 + 8192), (Reg.DMC_RGN_BASE 0 0, 0), (Reg.ARB_DLINK_DOWN 0, 0), (Reg.ARB_DLINK_DOWN 1, 0), (Reg.DMC_REPLAY_CNT 0, 0), (Reg.DMC_CH_REPLAY_CNT 0 0, 0), (Reg.DMC_FAULT_INFO 0, 0), (Reg.DMC_SCRUB_POS 0, 0), (Reg.ARB_PREEMPT_CNT 0, 4), (Reg.ARB_LOCK_LONG_CNT 0, 4), (Reg.ARB_EVENT 0, 0), (Reg.ARB_LOCK_MAX 0, 0), (Reg.DMC_MARGIN_THR 0, 10), (Reg.DMC_RETRAIN_SKIP_CNT 0, 4), (Reg.DMC_CMD_RESULT 0, 9)]) (fun d => { d with dmc := { chans := [(0, ({ banks := [(0, { lock := some (4, 0) })] } : DChan))] } }) : State).dev), ((4, 0)), by decide +kernel⟩,
   ⟨(ws ([(Reg.DMC_CTRL 0, 3), (Reg.DMC_STATUS 0, 0), (Reg.DMC_CH_STATUS 0 0, 1), (Reg.DMC_CH_DOWN 0, 0), (Reg.DMC_EVENT 0, 0), (Reg.DMC_EVENT 1, 0), (Reg.DMC_ECC_CNT 0, 0), (Reg.DMC_CH_ECC_CNT 0 0, 0), (Reg.DMC_RGN_CFG 0 0, 65536 + 8192), (Reg.DMC_RGN_BASE 0 0, 0), (Reg.ARB_DLINK_DOWN 0, 0), (Reg.ARB_DLINK_DOWN 1, 0), (Reg.DMC_REPLAY_CNT 0, 0), (Reg.DMC_CH_REPLAY_CNT 0 0, 0), (Reg.DMC_FAULT_INFO 0, 0), (Reg.DMC_SCRUB_POS 0, 0), (Reg.ARB_PREEMPT_CNT 0, 4), (Reg.ARB_LOCK_LONG_CNT 0, 4), (Reg.ARB_EVENT 0, 0), (Reg.ARB_LOCK_MAX 0, 0), (Reg.DMC_MARGIN_THR 0, 10), (Reg.DMC_RETRAIN_SKIP_CNT 0, 4), (Reg.DMC_CMD_RESULT 0, 9)]) (id)), 0, 0, 0, catchUp 0 (ws ([(Reg.DMC_CTRL 0, 3), (Reg.DMC_STATUS 0, 0), (Reg.DMC_CH_STATUS 0 0, 1), (Reg.DMC_CH_DOWN 0, 0), (Reg.DMC_EVENT 0, 0), (Reg.DMC_EVENT 1, 0), (Reg.DMC_ECC_CNT 0, 0), (Reg.DMC_CH_ECC_CNT 0 0, 0), (Reg.DMC_RGN_CFG 0 0, 65536 + 8192), (Reg.DMC_RGN_BASE 0 0, 0), (Reg.ARB_DLINK_DOWN 0, 0), (Reg.ARB_DLINK_DOWN 1, 0), (Reg.DMC_REPLAY_CNT 0, 0), (Reg.DMC_CH_REPLAY_CNT 0 0, 0), (Reg.DMC_FAULT_INFO 0, 0), (Reg.DMC_SCRUB_POS 0, 0), (Reg.ARB_PREEMPT_CNT 0, 4), (Reg.ARB_LOCK_LONG_CNT 0, 4), (Reg.ARB_EVENT 0, 0), (Reg.ARB_LOCK_MAX 0, 0), (Reg.DMC_MARGIN_THR 0, 10), (Reg.DMC_RETRAIN_SKIP_CNT 0, 4), (Reg.DMC_CMD_RESULT 0, 9)]) (id) : State).dev, by decide +kernel⟩,
   ⟨(ws ([(Reg.DMC_CTRL 0, 3), (Reg.DMC_STATUS 0, 0), (Reg.DMC_CH_STATUS 0 0, 1), (Reg.DMC_CH_DOWN 0, 0), (Reg.DMC_EVENT 0, 0), (Reg.DMC_EVENT 1, 0), (Reg.DMC_ECC_CNT 0, 0), (Reg.DMC_CH_ECC_CNT 0 0, 0), (Reg.DMC_RGN_CFG 0 0, 65536 + 8192), (Reg.DMC_RGN_BASE 0 0, 0), (Reg.ARB_DLINK_DOWN 0, 0), (Reg.ARB_DLINK_DOWN 1, 0), (Reg.DMC_REPLAY_CNT 0, 0), (Reg.DMC_CH_REPLAY_CNT 0 0, 0), (Reg.DMC_FAULT_INFO 0, 0), (Reg.DMC_SCRUB_POS 0, 0), (Reg.ARB_PREEMPT_CNT 0, 4), (Reg.ARB_LOCK_LONG_CNT 0, 4), (Reg.ARB_EVENT 0, 0), (Reg.ARB_LOCK_MAX 0, 0), (Reg.DMC_MARGIN_THR 0, 10), (Reg.DMC_RETRAIN_SKIP_CNT 0, 4), (Reg.DMC_CMD_RESULT 0, 9)]) (id)), 0, 0, by decide +kernel⟩,
   ⟨(ws ([(Reg.DMC_CTRL 0, 1), (Reg.DMC_STATUS 0, 0), (Reg.DMC_CH_STATUS 0 0, 1), (Reg.DMC_CH_DOWN 0, 0), (Reg.DMC_EVENT 0, 0), (Reg.DMC_EVENT 1, 0), (Reg.DMC_ECC_CNT 0, 0), (Reg.DMC_CH_ECC_CNT 0 0, 0), (Reg.DMC_RGN_CFG 0 0, 65536 + 8192), (Reg.DMC_RGN_BASE 0 0, 0), (Reg.ARB_DLINK_DOWN 0, 0), (Reg.ARB_DLINK_DOWN 1, 0), (Reg.DMC_REPLAY_CNT 0, 0), (Reg.DMC_CH_REPLAY_CNT 0 0, 0), (Reg.DMC_FAULT_INFO 0, 0), (Reg.DMC_SCRUB_POS 0, 0), (Reg.ARB_PREEMPT_CNT 0, 4), (Reg.ARB_LOCK_LONG_CNT 0, 4), (Reg.ARB_EVENT 0, 0), (Reg.ARB_LOCK_MAX 0, 0), (Reg.DMC_MARGIN_THR 0, 10), (Reg.DMC_RETRAIN_SKIP_CNT 0, 4), (Reg.DMC_CMD_RESULT 0, 9)]) (id)), 0, 0, by decide +kernel⟩⟩

theorem witness_TrainingPausesAndLinkRecover :
    (∃ (s : State) (dd : Fin 2), inReset s.dev = false ∧ tst s.dev (Reg.DMC_CTRL dd) 0 = false ∧ regionsOk s.dev dd = true) ∧
    (∃ (s : State) (dd : Fin 2), inReset s.dev = false ∧ tst s.dev (Reg.DMC_CTRL dd) 0 = false ∧ regionsOk s.dev dd = false) ∧
    (∃ (s : State) (dd : Fin 2), inReset s.dev = false ∧ tst s.dev (Reg.DMC_CTRL dd) 0 = true) ∧
    (∃ (s : State) (dd : Fin 2) (ch : Fin 32) (w : Nat), inReset s.dev = false ∧ s.dev.tide.win = some w ∧ decide (16 ≤ ch.val) = (s.dev.tide.winCnt %
      2 == 0) ∧ (dchan s.dev (32 * dd.val + ch.val)).slot ≠ some w ∧ tst s.dev (Reg.DMC_STATUS dd) 2 = false ∧ tst s.dev (Reg.DMC_CH_STATUS dd ch) 2 =
      false ∧ (dchan s.dev (32 * dd.val + ch.val)).replay = none ∧ chUp s.dev (32 * dd.val + ch.val) = true) ∧
    (∃ (s : State) (dd : Fin 2) (ch : Fin 32) (w : Nat), inReset s.dev = false ∧ s.dev.tide.win = some w ∧ decide (16 ≤ ch.val) = (s.dev.tide.winCnt %
      2 == 0) ∧ (dchan s.dev (32 * dd.val + ch.val)).slot ≠ some w ∧ tst s.dev (Reg.DMC_STATUS dd) 2 = false ∧ chUp s.dev (32 * dd.val + ch.val) =
      false) ∧
    (∃ (s : State) (dd : Fin 2) (ch : Fin 32), inReset s.dev = false ∧ (s.dev.tide.win = none ∨ decide (16 ≤ ch.val) ≠ (s.dev.tide.winCnt % 2 == 0) ∨
      tst s.dev (Reg.DMC_STATUS dd) 2 = true)) ∧
    (∃ (s : State) (dd : Fin 2) (ch : Fin 32), inReset s.dev = false ∧ (dchan s.dev (32 * dd.val + ch.val)).late = false ∧ tst s.dev (Reg.DMC_STATUS
      dd) 2 = false ∧ (dchan s.dev (32 * dd.val + ch.val)).paused + 100000001 < 2 ^ 64) ∧
    (∃ (s : State) (dd : Fin 2) (ch : Fin 32), inReset s.dev = false ∧ ((dchan s.dev (32 * dd.val + ch.val)).late = true ∨ tst s.dev (Reg.DMC_STATUS
      dd) 2 = true)) ∧
    (∃ (s : State) (dd : Fin 2), inReset s.dev = false ∧ training s.dev dd = none ∧ tst s.dev (Reg.DMC_STATUS dd) 1 = false) ∧
    (∃ (s : State) (dd : Fin 2), inReset s.dev = false ∧ ((training s.dev dd).isSome = true ∨ tst s.dev (Reg.DMC_STATUS dd) 1 = true)) ∧
    (∃ (s : State) (dd : Fin 2) (ch : Fin 32), inReset s.dev = false ∧ training s.dev dd = some ch.val) ∧
    (∃ (s : State) (dd : Fin 2), inReset s.dev = false ∧ training s.dev dd = none) ∧
    (∃ (s : State), inReset s.dev = false ∧ tst s.dev (Reg.DMC_STATUS 0) 1 = true ∧ ebbState s.dev ≠ 3) ∧
    (∃ (s : State), inReset s.dev = false ∧ tst s.dev (Reg.DMC_STATUS 0) 1 = true) ∧
    (∃ (s : State), inReset s.dev = false ∧ tst s.dev (Reg.DMC_STATUS 0) 1 = false) ∧
    (∃ (s : State) (dd : Fin 2) (ch : Fin 32) (again : Bool), inReset s.dev = false ∧ tst s.dev (Reg.ARB_DLINK_DOWN dd) ch = false ∧ (again = true →
      portRetries s.dev (32 * dd.val + ch.val) ≠ 7)) ∧
    (∃ (s : State) (dd : Fin 2) (ch : Fin 32), inReset s.dev = false ∧ tst s.dev (Reg.ARB_DLINK_DOWN dd) ch = false ∧ portRetries s.dev (32 * dd.val +
      ch.val) = 7) ∧
    (∃ (s : State) (dd : Fin 2) (ch : Fin 32), inReset s.dev = false ∧ tst s.dev (Reg.ARB_DLINK_DOWN dd) ch = true) ∧
    (∃ (s : State) (dd : Fin 2), inReset s.dev = false ∧ portTraining s.dev dd = none) ∧
    (∃ (s : State) (dd : Fin 2), inReset s.dev = false ∧ (portTraining s.dev dd).isSome = true) ∧
    (∃ (s : State) (dd : Fin 2) (ch : Fin 32), inReset s.dev = false ∧ portTraining s.dev dd = some ch.val) ∧
    (∃ (s : State) (dd : Fin 2), inReset s.dev = false ∧ portTraining s.dev dd = none) :=
  ⟨⟨(ws ([(Reg.DMC_CTRL 0, 0), (Reg.DMC_STATUS 0, 0), (Reg.DMC_CH_STATUS 0 0, 1), (Reg.DMC_CH_DOWN 0, 0), (Reg.DMC_EVENT 0, 0), (Reg.DMC_EVENT 1, 0), (Reg.DMC_ECC_CNT 0, 0), (Reg.DMC_CH_ECC_CNT 0 0, 0), (Reg.DMC_RGN_CFG 0 0, 65536 + 8192), (Reg.DMC_RGN_BASE 0 0, 0), (Reg.ARB_DLINK_DOWN 0, 0), (Reg.ARB_DLINK_DOWN 1, 0), (Reg.DMC_REPLAY_CNT 0, 0), (Reg.DMC_CH_REPLAY_CNT 0 0, 0), (Reg.DMC_FAULT_INFO 0, 0), (Reg.DMC_SCRUB_POS 0, 0), (Reg.ARB_PREEMPT_CNT 0, 4), (Reg.ARB_LOCK_LONG_CNT 0, 4), (Reg.ARB_EVENT 0, 0), (Reg.ARB_LOCK_MAX 0, 0), (Reg.DMC_MARGIN_THR 0, 10), (Reg.DMC_RETRAIN_SKIP_CNT 0, 4), (Reg.DMC_CMD_RESULT 0, 9)]) (id)), 0, by decide +kernel⟩,
   ⟨(ws ([(Reg.DMC_CTRL 0, 0), (Reg.DMC_STATUS 0, 0), (Reg.DMC_CH_STATUS 0 0, 1), (Reg.DMC_CH_DOWN 0, 0), (Reg.DMC_EVENT 0, 0), (Reg.DMC_EVENT 1, 0), (Reg.DMC_ECC_CNT 0, 0), (Reg.DMC_CH_ECC_CNT 0 0, 0), (Reg.DMC_RGN_CFG 0 0, 65536 + 8192), (Reg.DMC_RGN_BASE 0 0, 0), (Reg.ARB_DLINK_DOWN 0, 0), (Reg.ARB_DLINK_DOWN 1, 0), (Reg.DMC_REPLAY_CNT 0, 0), (Reg.DMC_CH_REPLAY_CNT 0 0, 0), (Reg.DMC_FAULT_INFO 0, 0), (Reg.DMC_SCRUB_POS 0, 0), (Reg.ARB_PREEMPT_CNT 0, 4), (Reg.ARB_LOCK_LONG_CNT 0, 4), (Reg.ARB_EVENT 0, 0), (Reg.ARB_LOCK_MAX 0, 0), (Reg.DMC_MARGIN_THR 0, 10), (Reg.DMC_RETRAIN_SKIP_CNT 0, 4), (Reg.DMC_CMD_RESULT 0, 9), (Reg.DMC_RGN_CFG 0 1, 65536 + 8192)]) (id)), 0, by decide +kernel⟩,
   ⟨(ws ([(Reg.DMC_CTRL 0, 3), (Reg.DMC_STATUS 0, 0), (Reg.DMC_CH_STATUS 0 0, 1), (Reg.DMC_CH_DOWN 0, 0), (Reg.DMC_EVENT 0, 0), (Reg.DMC_EVENT 1, 0), (Reg.DMC_ECC_CNT 0, 0), (Reg.DMC_CH_ECC_CNT 0 0, 0), (Reg.DMC_RGN_CFG 0 0, 65536 + 8192), (Reg.DMC_RGN_BASE 0 0, 0), (Reg.ARB_DLINK_DOWN 0, 0), (Reg.ARB_DLINK_DOWN 1, 0), (Reg.DMC_REPLAY_CNT 0, 0), (Reg.DMC_CH_REPLAY_CNT 0 0, 0), (Reg.DMC_FAULT_INFO 0, 0), (Reg.DMC_SCRUB_POS 0, 0), (Reg.ARB_PREEMPT_CNT 0, 4), (Reg.ARB_LOCK_LONG_CNT 0, 4), (Reg.ARB_EVENT 0, 0), (Reg.ARB_LOCK_MAX 0, 0), (Reg.DMC_MARGIN_THR 0, 10), (Reg.DMC_RETRAIN_SKIP_CNT 0, 4), (Reg.DMC_CMD_RESULT 0, 9)]) (id)), 0, by decide +kernel⟩,
   ⟨(ws ([(Reg.DMC_CTRL 0, 3), (Reg.DMC_STATUS 0, 0), (Reg.DMC_CH_STATUS 0 0, 1), (Reg.DMC_CH_DOWN 0, 0), (Reg.DMC_EVENT 0, 0), (Reg.DMC_EVENT 1, 0), (Reg.DMC_ECC_CNT 0, 0), (Reg.DMC_CH_ECC_CNT 0 0, 0), (Reg.DMC_RGN_CFG 0 0, 65536 + 8192), (Reg.DMC_RGN_BASE 0 0, 0), (Reg.ARB_DLINK_DOWN 0, 0), (Reg.ARB_DLINK_DOWN 1, 0), (Reg.DMC_REPLAY_CNT 0, 0), (Reg.DMC_CH_REPLAY_CNT 0 0, 0), (Reg.DMC_FAULT_INFO 0, 0), (Reg.DMC_SCRUB_POS 0, 0), (Reg.ARB_PREEMPT_CNT 0, 4), (Reg.ARB_LOCK_LONG_CNT 0, 4), (Reg.ARB_EVENT 0, 0), (Reg.ARB_LOCK_MAX 0, 0), (Reg.DMC_MARGIN_THR 0, 10), (Reg.DMC_RETRAIN_SKIP_CNT 0, 4), (Reg.DMC_CMD_RESULT 0, 9)]) (fun d => { d with tide := { d.tide with win := some 1000, winCnt := 1 } })), 0, 0, (1000), by decide +kernel⟩,
   ⟨(ws ([(Reg.DMC_CTRL 0, 3), (Reg.DMC_STATUS 0, 0), (Reg.DMC_CH_STATUS 0 0, 0), (Reg.DMC_CH_DOWN 0, 0), (Reg.DMC_EVENT 0, 0), (Reg.DMC_EVENT 1, 0), (Reg.DMC_ECC_CNT 0, 0), (Reg.DMC_CH_ECC_CNT 0 0, 0), (Reg.DMC_RGN_CFG 0 0, 65536 + 8192), (Reg.DMC_RGN_BASE 0 0, 0), (Reg.ARB_DLINK_DOWN 0, 0), (Reg.ARB_DLINK_DOWN 1, 0), (Reg.DMC_REPLAY_CNT 0, 0), (Reg.DMC_CH_REPLAY_CNT 0 0, 0), (Reg.DMC_FAULT_INFO 0, 0), (Reg.DMC_SCRUB_POS 0, 0), (Reg.ARB_PREEMPT_CNT 0, 4), (Reg.ARB_LOCK_LONG_CNT 0, 4), (Reg.ARB_EVENT 0, 0), (Reg.ARB_LOCK_MAX 0, 0), (Reg.DMC_MARGIN_THR 0, 10), (Reg.DMC_RETRAIN_SKIP_CNT 0, 4), (Reg.DMC_CMD_RESULT 0, 9)]) (fun d => { d with tide := { d.tide with win := some 1000, winCnt := 1 } })), 0, 0, (1000), by decide +kernel⟩,
   ⟨(ws ([(Reg.DMC_CTRL 0, 3), (Reg.DMC_STATUS 0, 0), (Reg.DMC_CH_STATUS 0 0, 1), (Reg.DMC_CH_DOWN 0, 0), (Reg.DMC_EVENT 0, 0), (Reg.DMC_EVENT 1, 0), (Reg.DMC_ECC_CNT 0, 0), (Reg.DMC_CH_ECC_CNT 0 0, 0), (Reg.DMC_RGN_CFG 0 0, 65536 + 8192), (Reg.DMC_RGN_BASE 0 0, 0), (Reg.ARB_DLINK_DOWN 0, 0), (Reg.ARB_DLINK_DOWN 1, 0), (Reg.DMC_REPLAY_CNT 0, 0), (Reg.DMC_CH_REPLAY_CNT 0 0, 0), (Reg.DMC_FAULT_INFO 0, 0), (Reg.DMC_SCRUB_POS 0, 0), (Reg.ARB_PREEMPT_CNT 0, 4), (Reg.ARB_LOCK_LONG_CNT 0, 4), (Reg.ARB_EVENT 0, 0), (Reg.ARB_LOCK_MAX 0, 0), (Reg.DMC_MARGIN_THR 0, 10), (Reg.DMC_RETRAIN_SKIP_CNT 0, 4), (Reg.DMC_CMD_RESULT 0, 9)]) (id)), 0, 0, by decide +kernel⟩,
   ⟨(ws ([(Reg.DMC_CTRL 0, 3), (Reg.DMC_STATUS 0, 0), (Reg.DMC_CH_STATUS 0 0, 1), (Reg.DMC_CH_DOWN 0, 0), (Reg.DMC_EVENT 0, 0), (Reg.DMC_EVENT 1, 0), (Reg.DMC_ECC_CNT 0, 0), (Reg.DMC_CH_ECC_CNT 0 0, 0), (Reg.DMC_RGN_CFG 0 0, 65536 + 8192), (Reg.DMC_RGN_BASE 0 0, 0), (Reg.ARB_DLINK_DOWN 0, 0), (Reg.ARB_DLINK_DOWN 1, 0), (Reg.DMC_REPLAY_CNT 0, 0), (Reg.DMC_CH_REPLAY_CNT 0 0, 0), (Reg.DMC_FAULT_INFO 0, 0), (Reg.DMC_SCRUB_POS 0, 0), (Reg.ARB_PREEMPT_CNT 0, 4), (Reg.ARB_LOCK_LONG_CNT 0, 4), (Reg.ARB_EVENT 0, 0), (Reg.ARB_LOCK_MAX 0, 0), (Reg.DMC_MARGIN_THR 0, 10), (Reg.DMC_RETRAIN_SKIP_CNT 0, 4), (Reg.DMC_CMD_RESULT 0, 9)]) (id)), 0, 0, by decide +kernel⟩,
   ⟨(ws ([(Reg.DMC_CTRL 0, 3), (Reg.DMC_STATUS 0, 0), (Reg.DMC_CH_STATUS 0 0, 1), (Reg.DMC_CH_DOWN 0, 0), (Reg.DMC_EVENT 0, 0), (Reg.DMC_EVENT 1, 0), (Reg.DMC_ECC_CNT 0, 0), (Reg.DMC_CH_ECC_CNT 0 0, 0), (Reg.DMC_RGN_CFG 0 0, 65536 + 8192), (Reg.DMC_RGN_BASE 0 0, 0), (Reg.ARB_DLINK_DOWN 0, 0), (Reg.ARB_DLINK_DOWN 1, 0), (Reg.DMC_REPLAY_CNT 0, 0), (Reg.DMC_CH_REPLAY_CNT 0 0, 0), (Reg.DMC_FAULT_INFO 0, 0), (Reg.DMC_SCRUB_POS 0, 0), (Reg.ARB_PREEMPT_CNT 0, 4), (Reg.ARB_LOCK_LONG_CNT 0, 4), (Reg.ARB_EVENT 0, 0), (Reg.ARB_LOCK_MAX 0, 0), (Reg.DMC_MARGIN_THR 0, 10), (Reg.DMC_RETRAIN_SKIP_CNT 0, 4), (Reg.DMC_CMD_RESULT 0, 9)]) (fun d => { d with dmc := { chans := [(0, ({ late := true } : DChan))] } })), 0, 0, by decide +kernel⟩,
   ⟨(ws ([(Reg.DMC_CTRL 0, 3), (Reg.DMC_STATUS 0, 0), (Reg.DMC_CH_STATUS 0 0, 1), (Reg.DMC_CH_DOWN 0, 0), (Reg.DMC_EVENT 0, 0), (Reg.DMC_EVENT 1, 0), (Reg.DMC_ECC_CNT 0, 0), (Reg.DMC_CH_ECC_CNT 0 0, 0), (Reg.DMC_RGN_CFG 0 0, 65536 + 8192), (Reg.DMC_RGN_BASE 0 0, 0), (Reg.ARB_DLINK_DOWN 0, 0), (Reg.ARB_DLINK_DOWN 1, 0), (Reg.DMC_REPLAY_CNT 0, 0), (Reg.DMC_CH_REPLAY_CNT 0 0, 0), (Reg.DMC_FAULT_INFO 0, 0), (Reg.DMC_SCRUB_POS 0, 0), (Reg.ARB_PREEMPT_CNT 0, 4), (Reg.ARB_LOCK_LONG_CNT 0, 4), (Reg.ARB_EVENT 0, 0), (Reg.ARB_LOCK_MAX 0, 0), (Reg.DMC_MARGIN_THR 0, 10), (Reg.DMC_RETRAIN_SKIP_CNT 0, 4), (Reg.DMC_CMD_RESULT 0, 9)]) (id)), 0, by decide +kernel⟩,
   ⟨(ws ([(Reg.DMC_CTRL 0, 3), (Reg.DMC_STATUS 0, 0), (Reg.DMC_CH_STATUS 0 0, 1), (Reg.DMC_CH_DOWN 0, 0), (Reg.DMC_EVENT 0, 0), (Reg.DMC_EVENT 1, 0), (Reg.DMC_ECC_CNT 0, 0), (Reg.DMC_CH_ECC_CNT 0 0, 0), (Reg.DMC_RGN_CFG 0 0, 65536 + 8192), (Reg.DMC_RGN_BASE 0 0, 0), (Reg.ARB_DLINK_DOWN 0, 0), (Reg.ARB_DLINK_DOWN 1, 0), (Reg.DMC_REPLAY_CNT 0, 0), (Reg.DMC_CH_REPLAY_CNT 0 0, 0), (Reg.DMC_FAULT_INFO 0, 0), (Reg.DMC_SCRUB_POS 0, 0), (Reg.ARB_PREEMPT_CNT 0, 4), (Reg.ARB_LOCK_LONG_CNT 0, 4), (Reg.ARB_EVENT 0, 0), (Reg.ARB_LOCK_MAX 0, 0), (Reg.DMC_MARGIN_THR 0, 10), (Reg.DMC_RETRAIN_SKIP_CNT 0, 4), (Reg.DMC_CMD_RESULT 0, 9)]) (fun d => { d with dmc := { train := [(0, some 3)] } })), 0, by decide +kernel⟩,
   ⟨(ws ([(Reg.DMC_CTRL 0, 3), (Reg.DMC_STATUS 0, 0), (Reg.DMC_CH_STATUS 0 0, 1), (Reg.DMC_CH_DOWN 0, 0), (Reg.DMC_EVENT 0, 0), (Reg.DMC_EVENT 1, 0), (Reg.DMC_ECC_CNT 0, 0), (Reg.DMC_CH_ECC_CNT 0 0, 0), (Reg.DMC_RGN_CFG 0 0, 65536 + 8192), (Reg.DMC_RGN_BASE 0 0, 0), (Reg.ARB_DLINK_DOWN 0, 0), (Reg.ARB_DLINK_DOWN 1, 0), (Reg.DMC_REPLAY_CNT 0, 0), (Reg.DMC_CH_REPLAY_CNT 0 0, 0), (Reg.DMC_FAULT_INFO 0, 0), (Reg.DMC_SCRUB_POS 0, 0), (Reg.ARB_PREEMPT_CNT 0, 4), (Reg.ARB_LOCK_LONG_CNT 0, 4), (Reg.ARB_EVENT 0, 0), (Reg.ARB_LOCK_MAX 0, 0), (Reg.DMC_MARGIN_THR 0, 10), (Reg.DMC_RETRAIN_SKIP_CNT 0, 4), (Reg.DMC_CMD_RESULT 0, 9)]) (fun d => { d with dmc := { train := [(0, some 0)] } })), 0, 0, by decide +kernel⟩,
   ⟨(ws ([(Reg.DMC_CTRL 0, 3), (Reg.DMC_STATUS 0, 0), (Reg.DMC_CH_STATUS 0 0, 1), (Reg.DMC_CH_DOWN 0, 0), (Reg.DMC_EVENT 0, 0), (Reg.DMC_EVENT 1, 0), (Reg.DMC_ECC_CNT 0, 0), (Reg.DMC_CH_ECC_CNT 0 0, 0), (Reg.DMC_RGN_CFG 0 0, 65536 + 8192), (Reg.DMC_RGN_BASE 0 0, 0), (Reg.ARB_DLINK_DOWN 0, 0), (Reg.ARB_DLINK_DOWN 1, 0), (Reg.DMC_REPLAY_CNT 0, 0), (Reg.DMC_CH_REPLAY_CNT 0 0, 0), (Reg.DMC_FAULT_INFO 0, 0), (Reg.DMC_SCRUB_POS 0, 0), (Reg.ARB_PREEMPT_CNT 0, 4), (Reg.ARB_LOCK_LONG_CNT 0, 4), (Reg.ARB_EVENT 0, 0), (Reg.ARB_LOCK_MAX 0, 0), (Reg.DMC_MARGIN_THR 0, 10), (Reg.DMC_RETRAIN_SKIP_CNT 0, 4), (Reg.DMC_CMD_RESULT 0, 9)]) (id)), 0, by decide +kernel⟩,
   ⟨(ws ([(Reg.DMC_CTRL 0, 3), (Reg.DMC_STATUS 0, 2), (Reg.DMC_CH_STATUS 0 0, 1), (Reg.DMC_CH_DOWN 0, 0), (Reg.DMC_EVENT 0, 0), (Reg.DMC_EVENT 1, 0), (Reg.DMC_ECC_CNT 0, 0), (Reg.DMC_CH_ECC_CNT 0 0, 0), (Reg.DMC_RGN_CFG 0 0, 65536 + 8192), (Reg.DMC_RGN_BASE 0 0, 0), (Reg.ARB_DLINK_DOWN 0, 0), (Reg.ARB_DLINK_DOWN 1, 0), (Reg.DMC_REPLAY_CNT 0, 0), (Reg.DMC_CH_REPLAY_CNT 0 0, 0), (Reg.DMC_FAULT_INFO 0, 0), (Reg.DMC_SCRUB_POS 0, 0), (Reg.ARB_PREEMPT_CNT 0, 4), (Reg.ARB_LOCK_LONG_CNT 0, 4), (Reg.ARB_EVENT 0, 0), (Reg.ARB_LOCK_MAX 0, 0), (Reg.DMC_MARGIN_THR 0, 10), (Reg.DMC_RETRAIN_SKIP_CNT 0, 4), (Reg.DMC_CMD_RESULT 0, 9), (Reg.ARB_DLINK_CRC_CNT 0, 3), (Reg.ARB_DLINK_RETRY_CNT 0, 3), (Reg.ARB_STATUS 0, 1), (Reg.ARB_STATUS 1, 1), (Reg.ARB_FAULT_INFO 0, 0), (Reg.ARB_CMD_RESULT 0, 9), (Reg.BOOT_STATUS, 4), (Reg.DMC_STATUS 1, 2), (Reg.PWR_STATUS, 0)]) (fun d => { d with dram := [(5, 6)] })), by decide +kernel⟩,
   ⟨(ws ([(Reg.DMC_CTRL 0, 3), (Reg.DMC_STATUS 0, 2), (Reg.DMC_CH_STATUS 0 0, 1), (Reg.DMC_CH_DOWN 0, 0), (Reg.DMC_EVENT 0, 0), (Reg.DMC_EVENT 1, 0), (Reg.DMC_ECC_CNT 0, 0), (Reg.DMC_CH_ECC_CNT 0 0, 0), (Reg.DMC_RGN_CFG 0 0, 65536 + 8192), (Reg.DMC_RGN_BASE 0 0, 0), (Reg.ARB_DLINK_DOWN 0, 0), (Reg.ARB_DLINK_DOWN 1, 0), (Reg.DMC_REPLAY_CNT 0, 0), (Reg.DMC_CH_REPLAY_CNT 0 0, 0), (Reg.DMC_FAULT_INFO 0, 0), (Reg.DMC_SCRUB_POS 0, 0), (Reg.ARB_PREEMPT_CNT 0, 4), (Reg.ARB_LOCK_LONG_CNT 0, 4), (Reg.ARB_EVENT 0, 0), (Reg.ARB_LOCK_MAX 0, 0), (Reg.DMC_MARGIN_THR 0, 10), (Reg.DMC_RETRAIN_SKIP_CNT 0, 4), (Reg.DMC_CMD_RESULT 0, 9), (Reg.ARB_DLINK_CRC_CNT 0, 3), (Reg.ARB_DLINK_RETRY_CNT 0, 3), (Reg.ARB_STATUS 0, 1), (Reg.ARB_STATUS 1, 1), (Reg.ARB_FAULT_INFO 0, 0), (Reg.ARB_CMD_RESULT 0, 9), (Reg.BOOT_STATUS, 4), (Reg.DMC_STATUS 1, 2), (Reg.TIDE_CTRL, 0), (Reg.PCI_STATUS, 2049), (Reg.SEC_STATUS, 0), (Reg.BOOT_EVENT, 0)]) (id)), by decide +kernel⟩,
   ⟨(ws ([(Reg.DMC_CTRL 0, 3), (Reg.DMC_STATUS 0, 0), (Reg.DMC_CH_STATUS 0 0, 1), (Reg.DMC_CH_DOWN 0, 0), (Reg.DMC_EVENT 0, 0), (Reg.DMC_EVENT 1, 0), (Reg.DMC_ECC_CNT 0, 0), (Reg.DMC_CH_ECC_CNT 0 0, 0), (Reg.DMC_RGN_CFG 0 0, 65536 + 8192), (Reg.DMC_RGN_BASE 0 0, 0), (Reg.ARB_DLINK_DOWN 0, 0), (Reg.ARB_DLINK_DOWN 1, 0), (Reg.DMC_REPLAY_CNT 0, 0), (Reg.DMC_CH_REPLAY_CNT 0 0, 0), (Reg.DMC_FAULT_INFO 0, 0), (Reg.DMC_SCRUB_POS 0, 0), (Reg.ARB_PREEMPT_CNT 0, 4), (Reg.ARB_LOCK_LONG_CNT 0, 4), (Reg.ARB_EVENT 0, 0), (Reg.ARB_LOCK_MAX 0, 0), (Reg.DMC_MARGIN_THR 0, 10), (Reg.DMC_RETRAIN_SKIP_CNT 0, 4), (Reg.DMC_CMD_RESULT 0, 9)]) (id)), by decide +kernel⟩,
   ⟨(ws ([(Reg.DMC_CTRL 0, 3), (Reg.DMC_STATUS 0, 0), (Reg.DMC_CH_STATUS 0 0, 1), (Reg.DMC_CH_DOWN 0, 0), (Reg.DMC_EVENT 0, 0), (Reg.DMC_EVENT 1, 0), (Reg.DMC_ECC_CNT 0, 0), (Reg.DMC_CH_ECC_CNT 0 0, 0), (Reg.DMC_RGN_CFG 0 0, 65536 + 8192), (Reg.DMC_RGN_BASE 0 0, 0), (Reg.ARB_DLINK_DOWN 0, 0), (Reg.ARB_DLINK_DOWN 1, 0), (Reg.DMC_REPLAY_CNT 0, 0), (Reg.DMC_CH_REPLAY_CNT 0 0, 0), (Reg.DMC_FAULT_INFO 0, 0), (Reg.DMC_SCRUB_POS 0, 0), (Reg.ARB_PREEMPT_CNT 0, 4), (Reg.ARB_LOCK_LONG_CNT 0, 4), (Reg.ARB_EVENT 0, 0), (Reg.ARB_LOCK_MAX 0, 0), (Reg.DMC_MARGIN_THR 0, 10), (Reg.DMC_RETRAIN_SKIP_CNT 0, 4), (Reg.DMC_CMD_RESULT 0, 9), (Reg.ARB_DLINK_CRC_CNT 0, 3), (Reg.ARB_DLINK_RETRY_CNT 0, 3), (Reg.ARB_STATUS 0, 1), (Reg.ARB_STATUS 1, 1), (Reg.ARB_FAULT_INFO 0, 0), (Reg.ARB_CMD_RESULT 0, 9), (Reg.BOOT_STATUS, 4)]) (id)), 0, 0, (true), by decide +kernel⟩,
   ⟨(ws ([(Reg.DMC_CTRL 0, 3), (Reg.DMC_STATUS 0, 0), (Reg.DMC_CH_STATUS 0 0, 1), (Reg.DMC_CH_DOWN 0, 0), (Reg.DMC_EVENT 0, 0), (Reg.DMC_EVENT 1, 0), (Reg.DMC_ECC_CNT 0, 0), (Reg.DMC_CH_ECC_CNT 0 0, 0), (Reg.DMC_RGN_CFG 0 0, 65536 + 8192), (Reg.DMC_RGN_BASE 0 0, 0), (Reg.ARB_DLINK_DOWN 0, 0), (Reg.ARB_DLINK_DOWN 1, 0), (Reg.DMC_REPLAY_CNT 0, 0), (Reg.DMC_CH_REPLAY_CNT 0 0, 0), (Reg.DMC_FAULT_INFO 0, 0), (Reg.DMC_SCRUB_POS 0, 0), (Reg.ARB_PREEMPT_CNT 0, 4), (Reg.ARB_LOCK_LONG_CNT 0, 4), (Reg.ARB_EVENT 0, 0), (Reg.ARB_LOCK_MAX 0, 0), (Reg.DMC_MARGIN_THR 0, 10), (Reg.DMC_RETRAIN_SKIP_CNT 0, 4), (Reg.DMC_CMD_RESULT 0, 9), (Reg.ARB_DLINK_CRC_CNT 0, 3), (Reg.ARB_DLINK_RETRY_CNT 0, 3), (Reg.ARB_STATUS 0, 1), (Reg.ARB_STATUS 1, 1), (Reg.ARB_FAULT_INFO 0, 0), (Reg.ARB_CMD_RESULT 0, 9), (Reg.BOOT_STATUS, 4)]) (fun d => { d with dmc := { retries := [(0, 7)] } })), 0, 0, by decide +kernel⟩,
   ⟨(ws ([(Reg.DMC_CTRL 0, 3), (Reg.DMC_STATUS 0, 0), (Reg.DMC_CH_STATUS 0 0, 1), (Reg.DMC_CH_DOWN 0, 0), (Reg.DMC_EVENT 0, 0), (Reg.DMC_EVENT 1, 0), (Reg.DMC_ECC_CNT 0, 0), (Reg.DMC_CH_ECC_CNT 0 0, 0), (Reg.DMC_RGN_CFG 0 0, 65536 + 8192), (Reg.DMC_RGN_BASE 0 0, 0), (Reg.ARB_DLINK_DOWN 0, 1), (Reg.ARB_DLINK_DOWN 1, 0), (Reg.DMC_REPLAY_CNT 0, 0), (Reg.DMC_CH_REPLAY_CNT 0 0, 0), (Reg.DMC_FAULT_INFO 0, 0), (Reg.DMC_SCRUB_POS 0, 0), (Reg.ARB_PREEMPT_CNT 0, 4), (Reg.ARB_LOCK_LONG_CNT 0, 4), (Reg.ARB_EVENT 0, 0), (Reg.ARB_LOCK_MAX 0, 0), (Reg.DMC_MARGIN_THR 0, 10), (Reg.DMC_RETRAIN_SKIP_CNT 0, 4), (Reg.DMC_CMD_RESULT 0, 9), (Reg.ARB_DLINK_CRC_CNT 0, 3), (Reg.ARB_DLINK_RETRY_CNT 0, 3), (Reg.ARB_STATUS 0, 1), (Reg.ARB_STATUS 1, 1), (Reg.ARB_FAULT_INFO 0, 0), (Reg.ARB_CMD_RESULT 0, 9), (Reg.BOOT_STATUS, 4)]) (id)), 0, 0, by decide +kernel⟩,
   ⟨(ws ([(Reg.DMC_CTRL 0, 3), (Reg.DMC_STATUS 0, 0), (Reg.DMC_CH_STATUS 0 0, 1), (Reg.DMC_CH_DOWN 0, 0), (Reg.DMC_EVENT 0, 0), (Reg.DMC_EVENT 1, 0), (Reg.DMC_ECC_CNT 0, 0), (Reg.DMC_CH_ECC_CNT 0 0, 0), (Reg.DMC_RGN_CFG 0 0, 65536 + 8192), (Reg.DMC_RGN_BASE 0 0, 0), (Reg.ARB_DLINK_DOWN 0, 0), (Reg.ARB_DLINK_DOWN 1, 0), (Reg.DMC_REPLAY_CNT 0, 0), (Reg.DMC_CH_REPLAY_CNT 0 0, 0), (Reg.DMC_FAULT_INFO 0, 0), (Reg.DMC_SCRUB_POS 0, 0), (Reg.ARB_PREEMPT_CNT 0, 4), (Reg.ARB_LOCK_LONG_CNT 0, 4), (Reg.ARB_EVENT 0, 0), (Reg.ARB_LOCK_MAX 0, 0), (Reg.DMC_MARGIN_THR 0, 10), (Reg.DMC_RETRAIN_SKIP_CNT 0, 4), (Reg.DMC_CMD_RESULT 0, 9), (Reg.ARB_DLINK_CRC_CNT 0, 3), (Reg.ARB_DLINK_RETRY_CNT 0, 3), (Reg.ARB_STATUS 0, 1), (Reg.ARB_STATUS 1, 1), (Reg.ARB_FAULT_INFO 0, 0), (Reg.ARB_CMD_RESULT 0, 9), (Reg.BOOT_STATUS, 4)]) (id)), 0, by decide +kernel⟩,
   ⟨(ws ([(Reg.DMC_CTRL 0, 3), (Reg.DMC_STATUS 0, 0), (Reg.DMC_CH_STATUS 0 0, 1), (Reg.DMC_CH_DOWN 0, 0), (Reg.DMC_EVENT 0, 0), (Reg.DMC_EVENT 1, 0), (Reg.DMC_ECC_CNT 0, 0), (Reg.DMC_CH_ECC_CNT 0 0, 0), (Reg.DMC_RGN_CFG 0 0, 65536 + 8192), (Reg.DMC_RGN_BASE 0 0, 0), (Reg.ARB_DLINK_DOWN 0, 0), (Reg.ARB_DLINK_DOWN 1, 0), (Reg.DMC_REPLAY_CNT 0, 0), (Reg.DMC_CH_REPLAY_CNT 0 0, 0), (Reg.DMC_FAULT_INFO 0, 0), (Reg.DMC_SCRUB_POS 0, 0), (Reg.ARB_PREEMPT_CNT 0, 4), (Reg.ARB_LOCK_LONG_CNT 0, 4), (Reg.ARB_EVENT 0, 0), (Reg.ARB_LOCK_MAX 0, 0), (Reg.DMC_MARGIN_THR 0, 10), (Reg.DMC_RETRAIN_SKIP_CNT 0, 4), (Reg.DMC_CMD_RESULT 0, 9), (Reg.ARB_DLINK_CRC_CNT 0, 3), (Reg.ARB_DLINK_RETRY_CNT 0, 3), (Reg.ARB_STATUS 0, 1), (Reg.ARB_STATUS 1, 1), (Reg.ARB_FAULT_INFO 0, 0), (Reg.ARB_CMD_RESULT 0, 9), (Reg.BOOT_STATUS, 4)]) (fun d => { d with dmc := { ports := [(0, some 3)] } })), 0, by decide +kernel⟩,
   ⟨(ws ([(Reg.DMC_CTRL 0, 3), (Reg.DMC_STATUS 0, 0), (Reg.DMC_CH_STATUS 0 0, 1), (Reg.DMC_CH_DOWN 0, 0), (Reg.DMC_EVENT 0, 0), (Reg.DMC_EVENT 1, 0), (Reg.DMC_ECC_CNT 0, 0), (Reg.DMC_CH_ECC_CNT 0 0, 0), (Reg.DMC_RGN_CFG 0 0, 65536 + 8192), (Reg.DMC_RGN_BASE 0 0, 0), (Reg.ARB_DLINK_DOWN 0, 0), (Reg.ARB_DLINK_DOWN 1, 0), (Reg.DMC_REPLAY_CNT 0, 0), (Reg.DMC_CH_REPLAY_CNT 0 0, 0), (Reg.DMC_FAULT_INFO 0, 0), (Reg.DMC_SCRUB_POS 0, 0), (Reg.ARB_PREEMPT_CNT 0, 4), (Reg.ARB_LOCK_LONG_CNT 0, 4), (Reg.ARB_EVENT 0, 0), (Reg.ARB_LOCK_MAX 0, 0), (Reg.DMC_MARGIN_THR 0, 10), (Reg.DMC_RETRAIN_SKIP_CNT 0, 4), (Reg.DMC_CMD_RESULT 0, 9), (Reg.ARB_DLINK_CRC_CNT 0, 3), (Reg.ARB_DLINK_RETRY_CNT 0, 3), (Reg.ARB_STATUS 0, 1), (Reg.ARB_STATUS 1, 1), (Reg.ARB_FAULT_INFO 0, 0), (Reg.ARB_CMD_RESULT 0, 9), (Reg.BOOT_STATUS, 4)]) (fun d => { d with dmc := { ports := [(0, some 0)] } })), 0, 0, by decide +kernel⟩,
   ⟨(ws ([(Reg.DMC_CTRL 0, 3), (Reg.DMC_STATUS 0, 0), (Reg.DMC_CH_STATUS 0 0, 1), (Reg.DMC_CH_DOWN 0, 0), (Reg.DMC_EVENT 0, 0), (Reg.DMC_EVENT 1, 0), (Reg.DMC_ECC_CNT 0, 0), (Reg.DMC_CH_ECC_CNT 0 0, 0), (Reg.DMC_RGN_CFG 0 0, 65536 + 8192), (Reg.DMC_RGN_BASE 0 0, 0), (Reg.ARB_DLINK_DOWN 0, 0), (Reg.ARB_DLINK_DOWN 1, 0), (Reg.DMC_REPLAY_CNT 0, 0), (Reg.DMC_CH_REPLAY_CNT 0 0, 0), (Reg.DMC_FAULT_INFO 0, 0), (Reg.DMC_SCRUB_POS 0, 0), (Reg.ARB_PREEMPT_CNT 0, 4), (Reg.ARB_LOCK_LONG_CNT 0, 4), (Reg.ARB_EVENT 0, 0), (Reg.ARB_LOCK_MAX 0, 0), (Reg.DMC_MARGIN_THR 0, 10), (Reg.DMC_RETRAIN_SKIP_CNT 0, 4), (Reg.DMC_CMD_RESULT 0, 9), (Reg.ARB_DLINK_CRC_CNT 0, 3), (Reg.ARB_DLINK_RETRY_CNT 0, 3), (Reg.ARB_STATUS 0, 1), (Reg.ARB_STATUS 1, 1), (Reg.ARB_FAULT_INFO 0, 0), (Reg.ARB_CMD_RESULT 0, 9), (Reg.BOOT_STATUS, 4)]) (id)), 0, by decide +kernel⟩⟩

theorem witness_EventsAreCollectedAndLogged :
    (∃ (s : State), inReset s.dev = false ∧ takeNext s.dev = none) ∧
    (∃ (s : State) (e : Ev) (i : Nat), inReset s.dev = false ∧ takeNext s.dev = some e ∧ logSlot s.dev = some i ∧ (tst s.dev Reg.ERR_CTRL 0 = false ∨
      alwaysPolicy e.code = true) ∧ polLookup s.dev e = none ∧ e.code < 2 ^ 16) ∧
    (∃ (s : State) (e : Ev) (i : Nat) (n : Nat), inReset s.dev = false ∧ takeNext s.dev = some e ∧ logSlot s.dev = some i ∧ (tst s.dev Reg.ERR_CTRL 0
      = false ∨ alwaysPolicy e.code = true) ∧ polLookup s.dev e = some n ∧ polF s.dev n 2 0 6 = 0) ∧
    (∃ (s : State) (e : Ev) (i : Nat) (n : Nat), inReset s.dev = false ∧ takeNext s.dev = some e ∧ logSlot s.dev = some i ∧ (tst s.dev Reg.ERR_CTRL 0
      = false ∨ alwaysPolicy e.code = true) ∧ polLookup s.dev e = some n ∧ ((polF s.dev n 2 0 6 = 1 ∨ polF s.dev n 2 0 6 = 2 ∨ polF s.dev n 2 0 6 = 12
      ∨ polF s.dev n 2 0 6 = 13) ∧ 64 ≤ e.unit ∨ polF s.dev n 2 0 6 = 9 ∧ tideSource s.dev = 0)) ∧
    (∃ (s : State) (e : Ev) (i : Nat) (n : Nat), inReset s.dev = false ∧ takeNext s.dev = some e ∧ logSlot s.dev = some i ∧ (tst s.dev Reg.ERR_CTRL 0
      = false ∨ alwaysPolicy e.code = true) ∧ polLookup s.dev e = some n ∧ polF s.dev n 2 0 6 = 11 ∧ s.dev.ptp.sel.isSome = true ∧
      s.dev.ptp.lastOff.isSome = true) ∧
    (∃ (s : State) (e : Ev), inReset s.dev = false ∧ takeNext s.dev = some e ∧ logSlot s.dev = none ∧ polLookup s.dev e = none) ∧
    (∃ (s : State) (i : Nat) (t : Fin 3) (bad : Bool), inReset s.dev = false ∧ s.dev.err.evq = [] ∧ tst s.dev Reg.ERR_CTRL 0 = false ∧ logSlot s.dev =
      some i ∧ (List.range 256).all (fun n => !(polValid s.dev n)) = true ∧ (t = 0 → bad = false)) ∧
    (∃ (s : State), inReset s.dev = false ∧ s.dev.err.evq = [] ∧ tst s.dev Reg.ERR_CTRL 0 = false ∧ (List.range 256).all (fun n => !(polValid s.dev
      n)) = true) ∧
    (∃ (s : State) (e : Ev) (i : Nat), inReset s.dev = false ∧ takeNext s.dev = some e ∧ logSlot s.dev = some i ∧ tst s.dev Reg.ERR_CTRL 0 = true ∧
      alwaysPolicy e.code = false ∧ tst s.dev Reg.PCI_STATUS 0 = true) ∧
    (∃ (s : State) (v : Word), inReset s.dev = false ∧ s.dev.err.posts.find? (fun x => x.1 == bits v.toNat 0 6) = none) ∧
    (∃ (s : State) (v : Word) (p : Nat × Nat × Nat), inReset s.dev = false ∧ s.dev.err.posts.find? (fun x => x.1 == bits v.toNat 0 6) = some p ∧ now
      s.dev ≤ p.2.1 + errHostLim s.dev ∧ 19 ≤ bits v.toNat 6 6) ∧
    (∃ (s : State) (v : Word) (p : Nat × Nat × Nat), inReset s.dev = false ∧ s.dev.err.posts.find? (fun x => x.1 == bits v.toNat 0 6) = some p ∧ now
      s.dev ≤ p.2.1 + errHostLim s.dev ∧ bits v.toNat 6 6 = 0) ∧
    (∃ (s : State) (v : Word) (p : Nat × Nat × Nat), inReset s.dev = false ∧ s.dev.err.posts = [p] ∧ p.1 = bits v.toNat 0 6 ∧ p.2.1 + errHostLim s.dev
      < now s.dev) ∧
    (∃ (s : State) (v : Word) (p : Nat × Nat × Nat), inReset s.dev = false ∧ s.dev.err.posts.find? (fun x => x.1 == bits v.toNat 0 6) = some p ∧ now
      s.dev ≤ p.2.1 + errHostLim s.dev ∧ bits v.toNat 6 6 = 9) ∧
    (∃ (s : State) (p : Nat × Nat × Nat) (ps : List (Nat × Nat × Nat)), inReset s.dev = false ∧ s.dev.err.posts = p :: ps ∧ p.1 < 64 ∧ p.2.1 +
      errHostLim s.dev + 1 < 2 ^ 64) ∧
    (∃ (s : State), inReset s.dev = false ∧ s.dev.err.posts = []) ∧
    (∃ (s : State), inReset s.dev = false ∧ domRuns s.dev 98 = true) ∧
    (∃ (s : State), inReset s.dev = false ∧ domRuns s.dev 98 = false) :=
  ⟨⟨(ws [(Reg.ERR_CTRL, 0), (Reg.ERR_STATUS, 2), (Reg.ERR_EVENT, 0), (Reg.ERR_LOG_HEAD, 0), (Reg.ERR_CONT_CNT, 3), (Reg.ERR_ACT_CNT, 4), (Reg.ERR_ACT_REFUSED_CNT, 5), (Reg.ERR_UNLOGGED_CNT, 0), (Reg.ERR_HOST_LIM, 10), (Reg.ERR_HOST_RESULT, 9), (Reg.ERR_LOG 0 0, 0), (Reg.ERR_LOG 0 3, 0), (Reg.GEN_IRQ_EN, 0), (Reg.MDO_CTRL, 0), (Reg.PCI_STATUS, 1), (Reg.TIDE_NUM_LO, 3), (Reg.TIDE_NUM_HI, 0)] (id)), by decide +kernel⟩,
   ⟨(ws [(Reg.ERR_CTRL, 0), (Reg.ERR_STATUS, 2), (Reg.ERR_EVENT, 0), (Reg.ERR_LOG_HEAD, 0), (Reg.ERR_CONT_CNT, 3), (Reg.ERR_ACT_CNT, 4), (Reg.ERR_ACT_REFUSED_CNT, 5), (Reg.ERR_UNLOGGED_CNT, 0), (Reg.ERR_HOST_LIM, 10), (Reg.ERR_HOST_RESULT, 9), (Reg.ERR_LOG 0 0, 0), (Reg.ERR_LOG 0 3, 0), (Reg.GEN_IRQ_EN, 0), (Reg.MDO_CTRL, 0), (Reg.PCI_STATUS, 1), (Reg.TIDE_NUM_LO, 3), (Reg.TIDE_NUM_HI, 0)] (fun d => { d with err := { evq := [(⟨0x0201, 5, 6, 0xFFFF, 1⟩ : Ev)] } })), (⟨0x0201, 5, 6, 0xFFFF, 1⟩ : Ev), 0, by decide +kernel⟩,
   ⟨(ws [(Reg.ERR_CTRL, 0), (Reg.ERR_STATUS, 2), (Reg.ERR_EVENT, 0), (Reg.ERR_LOG_HEAD, 0), (Reg.ERR_CONT_CNT, 3), (Reg.ERR_ACT_CNT, 4), (Reg.ERR_ACT_REFUSED_CNT, 5), (Reg.ERR_UNLOGGED_CNT, 0), (Reg.ERR_HOST_LIM, 10), (Reg.ERR_HOST_RESULT, 9), (Reg.ERR_LOG 0 0, 0), (Reg.ERR_LOG 0 3, 0), (Reg.GEN_IRQ_EN, 0), (Reg.MDO_CTRL, 0), (Reg.PCI_STATUS, 1), (Reg.TIDE_NUM_LO, 3), (Reg.TIDE_NUM_HI, 0), (Reg.ERR_POLICY 0 0, 0x0201 + 0xFFFF0000), (Reg.ERR_POLICY 0 1, 10 * 65536), (Reg.ERR_POLICY 0 2, 64 + 7 * 256), (Reg.ERR_POLICY_FIRE 0, 2)] (fun d => { d with err := { evq := [(⟨0x0201, 5, 6, 0xFFFF, 1⟩ : Ev)] } })), (⟨0x0201, 5, 6, 0xFFFF, 1⟩ : Ev), 0, (0), by decide +kernel⟩,
   ⟨(ws [(Reg.ERR_CTRL, 0), (Reg.ERR_STATUS, 2), (Reg.ERR_EVENT, 0), (Reg.ERR_LOG_HEAD, 0), (Reg.ERR_CONT_CNT, 3), (Reg.ERR_ACT_CNT, 4), (Reg.ERR_ACT_REFUSED_CNT, 5), (Reg.ERR_UNLOGGED_CNT, 0), (Reg.ERR_HOST_LIM, 10), (Reg.ERR_HOST_RESULT, 9), (Reg.ERR_LOG 0 0, 0), (Reg.ERR_LOG 0 3, 0), (Reg.GEN_IRQ_EN, 0), (Reg.MDO_CTRL, 0), (Reg.PCI_STATUS, 1), (Reg.TIDE_NUM_LO, 3), (Reg.TIDE_NUM_HI, 0), (Reg.ERR_POLICY 0 0, 0x0201 + 0xFFFF0000), (Reg.ERR_POLICY 0 1, 10 * 65536), (Reg.ERR_POLICY 0 2, 64 + 9 + 7 * 256), (Reg.ERR_POLICY_FIRE 0, 2), (Reg.TIDE_CTRL, 0)] (fun d => { d with err := { evq := [(⟨0x0201, 5, 6, 0xFFFF, 1⟩ : Ev)] } })), (⟨0x0201, 5, 6, 0xFFFF, 1⟩ : Ev), 0, (0), by decide +kernel⟩,
   ⟨(ws [(Reg.ERR_CTRL, 0), (Reg.ERR_STATUS, 2), (Reg.ERR_EVENT, 0), (Reg.ERR_LOG_HEAD, 0), (Reg.ERR_CONT_CNT, 3), (Reg.ERR_ACT_CNT, 4), (Reg.ERR_ACT_REFUSED_CNT, 5), (Reg.ERR_UNLOGGED_CNT, 0), (Reg.ERR_HOST_LIM, 10), (Reg.ERR_HOST_RESULT, 9), (Reg.ERR_LOG 0 0, 0), (Reg.ERR_LOG 0 3, 0), (Reg.GEN_IRQ_EN, 0), (Reg.MDO_CTRL, 0), (Reg.PCI_STATUS, 1), (Reg.TIDE_NUM_LO, 3), (Reg.TIDE_NUM_HI, 0), (Reg.ERR_POLICY 0 0, 0x0201 + 0xFFFF0000), (Reg.ERR_POLICY 0 1, 10 * 65536), (Reg.ERR_POLICY 0 2, 64 + 11 + 7 * 256), (Reg.ERR_POLICY_FIRE 0, 2)] (fun d => { d with err := { evq := [(⟨0x0201, 5, 6, 0xFFFF, 1⟩ : Ev)] }, ptp := { sel := some ⟨0, 0, 0, 0, 0, ⟨0, 0, 0, 0, 0, 0, 0, 3, 0⟩, 0, 3⟩, lastOff := some 5 } })), (⟨0x0201, 5, 6, 0xFFFF, 1⟩ : Ev), 0, (0), by decide +kernel⟩,
   ⟨(ws ((List.range 64).map (fun i => (Reg.ERR_LOG i 0, 2 ^ 19)) ++ [(Reg.ERR_CTRL, 0), (Reg.ERR_STATUS, 2), (Reg.ERR_EVENT, 0), (Reg.ERR_LOG_HEAD, 0), (Reg.ERR_CONT_CNT, 3), (Reg.ERR_ACT_CNT, 4), (Reg.ERR_ACT_REFUSED_CNT, 5), (Reg.ERR_UNLOGGED_CNT, 0), (Reg.ERR_HOST_LIM, 10), (Reg.ERR_HOST_RESULT, 9), (Reg.ERR_LOG 0 3, 0), (Reg.GEN_IRQ_EN, 0), (Reg.MDO_CTRL, 0), (Reg.PCI_STATUS, 1), (Reg.TIDE_NUM_LO, 3), (Reg.TIDE_NUM_HI, 0)]) (fun d => { d with err := { evq := [(⟨0x0201, 5, 6, 0xFFFF, 1⟩ : Ev)] } })), (⟨0x0201, 5, 6, 0xFFFF, 1⟩ : Ev), by decide +kernel⟩,
   ⟨(ws [(Reg.ERR_CTRL, 0), (Reg.ERR_STATUS, 2), (Reg.ERR_EVENT, 0), (Reg.ERR_LOG_HEAD, 0), (Reg.ERR_CONT_CNT, 3), (Reg.ERR_ACT_CNT, 4), (Reg.ERR_ACT_REFUSED_CNT, 5), (Reg.ERR_UNLOGGED_CNT, 0), (Reg.ERR_HOST_LIM, 10), (Reg.ERR_HOST_RESULT, 9), (Reg.ERR_LOG 0 0, 0), (Reg.ERR_LOG 0 3, 0), (Reg.GEN_IRQ_EN, 0), (Reg.MDO_CTRL, 0), (Reg.PCI_STATUS, 1), (Reg.TIDE_NUM_LO, 3), (Reg.TIDE_NUM_HI, 0)] (id)), 0, (2), (true), by decide +kernel⟩,
   ⟨(ws [(Reg.ERR_CTRL, 0), (Reg.ERR_STATUS, 2), (Reg.ERR_EVENT, 0), (Reg.ERR_LOG_HEAD, 0), (Reg.ERR_CONT_CNT, 3), (Reg.ERR_ACT_CNT, 4), (Reg.ERR_ACT_REFUSED_CNT, 5), (Reg.ERR_UNLOGGED_CNT, 0), (Reg.ERR_HOST_LIM, 10), (Reg.ERR_HOST_RESULT, 9), (Reg.ERR_LOG 0 0, 0), (Reg.ERR_LOG 0 3, 0), (Reg.GEN_IRQ_EN, 0), (Reg.MDO_CTRL, 0), (Reg.PCI_STATUS, 1), (Reg.TIDE_NUM_LO, 3), (Reg.TIDE_NUM_HI, 0), (Reg.ING_S_STATE 5, 2), (Reg.ING_TABLE 5 0, 1), (Reg.ING_EVENT, 0)] (id)), by decide +kernel⟩,
   ⟨(ws [(Reg.ERR_CTRL, 1), (Reg.ERR_STATUS, 2), (Reg.ERR_EVENT, 0), (Reg.ERR_LOG_HEAD, 0), (Reg.ERR_CONT_CNT, 3), (Reg.ERR_ACT_CNT, 4), (Reg.ERR_ACT_REFUSED_CNT, 5), (Reg.ERR_UNLOGGED_CNT, 0), (Reg.ERR_HOST_LIM, 10), (Reg.ERR_HOST_RESULT, 9), (Reg.ERR_LOG 0 0, 0), (Reg.ERR_LOG 0 3, 0), (Reg.GEN_IRQ_EN, 0), (Reg.MDO_CTRL, 0), (Reg.PCI_STATUS, 1), (Reg.TIDE_NUM_LO, 3), (Reg.TIDE_NUM_HI, 0)] (fun d => { d with err := { evq := [(⟨0x0201, 5, 6, 0xFFFF, 1⟩ : Ev)] } })), (⟨0x0201, 5, 6, 0xFFFF, 1⟩ : Ev), 0, by decide +kernel⟩,
   ⟨(ws [(Reg.ERR_CTRL, 0), (Reg.ERR_STATUS, 2), (Reg.ERR_EVENT, 0), (Reg.ERR_LOG_HEAD, 0), (Reg.ERR_CONT_CNT, 3), (Reg.ERR_ACT_CNT, 4), (Reg.ERR_ACT_REFUSED_CNT, 5), (Reg.ERR_UNLOGGED_CNT, 0), (Reg.ERR_HOST_LIM, 10), (Reg.ERR_HOST_RESULT, 9), (Reg.ERR_LOG 0 0, 0), (Reg.ERR_LOG 0 3, 0), (Reg.GEN_IRQ_EN, 0), (Reg.MDO_CTRL, 0), (Reg.PCI_STATUS, 1), (Reg.TIDE_NUM_LO, 3), (Reg.TIDE_NUM_HI, 0)] (id)), 0, by decide +kernel⟩,
   ⟨(ws [(Reg.ERR_CTRL, 0), (Reg.ERR_STATUS, 2), (Reg.ERR_EVENT, 0), (Reg.ERR_LOG_HEAD, 0), (Reg.ERR_CONT_CNT, 3), (Reg.ERR_ACT_CNT, 4), (Reg.ERR_ACT_REFUSED_CNT, 5), (Reg.ERR_UNLOGGED_CNT, 0), (Reg.ERR_HOST_LIM, 10), (Reg.ERR_HOST_RESULT, 9), (Reg.ERR_LOG 0 0, 0), (Reg.ERR_LOG 0 3, 0), (Reg.GEN_IRQ_EN, 0), (Reg.MDO_CTRL, 0), (Reg.PCI_STATUS, 1), (Reg.TIDE_NUM_LO, 3), (Reg.TIDE_NUM_HI, 0)] (fun d => { d with err := { posts := [(0, 100, 3)] } })), 20 * 64, (0, 100, 3), by decide +kernel⟩,
   ⟨(ws [(Reg.ERR_CTRL, 0), (Reg.ERR_STATUS, 2), (Reg.ERR_EVENT, 0), (Reg.ERR_LOG_HEAD, 0), (Reg.ERR_CONT_CNT, 3), (Reg.ERR_ACT_CNT, 4), (Reg.ERR_ACT_REFUSED_CNT, 5), (Reg.ERR_UNLOGGED_CNT, 0), (Reg.ERR_HOST_LIM, 10), (Reg.ERR_HOST_RESULT, 9), (Reg.ERR_LOG 0 0, 0), (Reg.ERR_LOG 0 3, 0), (Reg.GEN_IRQ_EN, 0), (Reg.MDO_CTRL, 0), (Reg.PCI_STATUS, 1), (Reg.TIDE_NUM_LO, 3), (Reg.TIDE_NUM_HI, 0)] (fun d => { d with err := { posts := [(0, 100, 3)] } })), 0, (0, 100, 3), by decide +kernel⟩,
   ⟨(ws [(Reg.ERR_CTRL, 0), (Reg.ERR_STATUS, 2), (Reg.ERR_EVENT, 0), (Reg.ERR_LOG_HEAD, 0), (Reg.ERR_CONT_CNT, 3), (Reg.ERR_ACT_CNT, 4), (Reg.ERR_ACT_REFUSED_CNT, 5), (Reg.ERR_UNLOGGED_CNT, 0), (Reg.ERR_HOST_LIM, 10), (Reg.ERR_HOST_RESULT, 9), (Reg.ERR_LOG 0 0, 0), (Reg.ERR_LOG 0 3, 0), (Reg.GEN_IRQ_EN, 0), (Reg.MDO_CTRL, 0), (Reg.PCI_STATUS, 1), (Reg.TIDE_NUM_LO, 3), (Reg.TIDE_NUM_HI, 0)] (fun d => { d with err := { posts := [(0, 100, 3)] }, time := { ns := 20000000 } })), 0, (0, 100, 3), by decide +kernel⟩,
   ⟨(ws [(Reg.ERR_CTRL, 0), (Reg.ERR_STATUS, 2), (Reg.ERR_EVENT, 0), (Reg.ERR_LOG_HEAD, 0), (Reg.ERR_CONT_CNT, 3), (Reg.ERR_ACT_CNT, 4), (Reg.ERR_ACT_REFUSED_CNT, 5), (Reg.ERR_UNLOGGED_CNT, 0), (Reg.ERR_HOST_LIM, 10), (Reg.ERR_HOST_RESULT, 9), (Reg.ERR_LOG 0 0, 0), (Reg.ERR_LOG 0 3, 0), (Reg.GEN_IRQ_EN, 0), (Reg.MDO_CTRL, 0), (Reg.PCI_STATUS, 1), (Reg.TIDE_NUM_LO, 3), (Reg.TIDE_NUM_HI, 0), (Reg.TIDE_CTRL, 1), (Reg.TIDE_STATUS, 0)] (fun d => { d with err := { posts := [(0, 100, 3)] } })), 9 * 64, (0, 100, 3), by decide +kernel⟩,
   ⟨(ws [(Reg.ERR_CTRL, 0), (Reg.ERR_STATUS, 2), (Reg.ERR_EVENT, 0), (Reg.ERR_LOG_HEAD, 0), (Reg.ERR_CONT_CNT, 3), (Reg.ERR_ACT_CNT, 4), (Reg.ERR_ACT_REFUSED_CNT, 5), (Reg.ERR_UNLOGGED_CNT, 0), (Reg.ERR_HOST_LIM, 10), (Reg.ERR_HOST_RESULT, 9), (Reg.ERR_LOG 0 0, 0), (Reg.ERR_LOG 0 3, 0), (Reg.GEN_IRQ_EN, 0), (Reg.MDO_CTRL, 0), (Reg.PCI_STATUS, 1), (Reg.TIDE_NUM_LO, 3), (Reg.TIDE_NUM_HI, 0)] (fun d => { d with err := { posts := [(0, 100, 3)] } })), (0, 100, 3), ([]), by decide +kernel⟩,
   ⟨(ws [(Reg.ERR_CTRL, 0), (Reg.ERR_STATUS, 2), (Reg.ERR_EVENT, 0), (Reg.ERR_LOG_HEAD, 0), (Reg.ERR_CONT_CNT, 3), (Reg.ERR_ACT_CNT, 4), (Reg.ERR_ACT_REFUSED_CNT, 5), (Reg.ERR_UNLOGGED_CNT, 0), (Reg.ERR_HOST_LIM, 10), (Reg.ERR_HOST_RESULT, 9), (Reg.ERR_LOG 0 0, 0), (Reg.ERR_LOG 0 3, 0), (Reg.GEN_IRQ_EN, 0), (Reg.MDO_CTRL, 0), (Reg.PCI_STATUS, 1), (Reg.TIDE_NUM_LO, 3), (Reg.TIDE_NUM_HI, 0)] (id)), by decide +kernel⟩,
   ⟨(ws [(Reg.ERR_CTRL, 0), (Reg.ERR_STATUS, 2), (Reg.ERR_EVENT, 0), (Reg.ERR_LOG_HEAD, 0), (Reg.ERR_CONT_CNT, 3), (Reg.ERR_ACT_CNT, 4), (Reg.ERR_ACT_REFUSED_CNT, 5), (Reg.ERR_UNLOGGED_CNT, 0), (Reg.ERR_HOST_LIM, 10), (Reg.ERR_HOST_RESULT, 9), (Reg.ERR_LOG 0 0, 0), (Reg.ERR_LOG 0 3, 0), (Reg.GEN_IRQ_EN, 0), (Reg.MDO_CTRL, 0), (Reg.PCI_STATUS, 1), (Reg.TIDE_NUM_LO, 3), (Reg.TIDE_NUM_HI, 0), (Reg.PWR_DOM_STATE 98, 0)] (id)), by decide +kernel⟩,
   ⟨(ws [(Reg.ERR_CTRL, 0), (Reg.ERR_STATUS, 2), (Reg.ERR_EVENT, 0), (Reg.ERR_LOG_HEAD, 0), (Reg.ERR_CONT_CNT, 3), (Reg.ERR_ACT_CNT, 4), (Reg.ERR_ACT_REFUSED_CNT, 5), (Reg.ERR_UNLOGGED_CNT, 0), (Reg.ERR_HOST_LIM, 10), (Reg.ERR_HOST_RESULT, 9), (Reg.ERR_LOG 0 0, 0), (Reg.ERR_LOG 0 3, 0), (Reg.GEN_IRQ_EN, 0), (Reg.MDO_CTRL, 0), (Reg.PCI_STATUS, 1), (Reg.TIDE_NUM_LO, 3), (Reg.TIDE_NUM_HI, 0), (Reg.PWR_DOM_STATE 98, 2)] (id)), by decide +kernel⟩⟩

theorem witness_ActionsRunOrAreRefused :
    (∃ (s : State) (k : Fin 64), inReset s.dev = false ∧ isSCore k = false ∧ domRuns s.dev k = true ∧ acting s.dev 1 k = false ∧ tst s.dev
      (Reg.WIN_STATUS k) 0 = false) ∧
    (∃ (s : State) (k : Fin 64), inReset s.dev = false ∧ (isSCore k = true ∨ domRuns s.dev k = false ∨ acting s.dev 1 k = true ∨ tst s.dev
      (Reg.WIN_STATUS k) 0 = true)) ∧
    (∃ (s : State) (k : Fin 64), inReset s.dev = false ∧ coreInRunning s.dev k = false ∧ selfTest s.dev k = false) ∧
    (∃ (s : State) (k : Fin 64), inReset s.dev = false ∧ (coreInRunning s.dev k = true ∨ selfTest s.dev k = true)) ∧
    (∃ (s : State) (c : Fin 8), inReset s.dev = false ∧ acting s.dev 3 c = false ∧ (coveState s.dev c = 2 ∨ coveState s.dev c = 4 ∨ coveState s.dev c
      = 5 ∨ coveState s.dev c = 6)) ∧
    (∃ (s : State) (c : Fin 8), inReset s.dev = false ∧ (acting s.dev 3 c = true ∨ coveState s.dev c = 0 ∨ coveState s.dev c = 1 ∨ coveState s.dev c =
      3)) ∧
    (∃ (s : State) (e : Fin 16) (arg : Fin 256) (x : Nat) (u : Dev), inReset s.dev = false ∧ arg.val = 128 + x ∧ x < 32 ∧ moveTo e x (moveTarget s.dev
      e false) s.dev = (0, u)) ∧
    (∃ (s : State) (e : Fin 16) (arg : Fin 256), inReset s.dev = false ∧ arg.val < 128 ∧ (List.range 32).any (fun x => ctxValid s.dev (e * 32 + x)) =
      false) ∧
    (∃ (s : State) (e : Fin 16) (arg : Fin 256) (x : Nat) (u : Dev), inReset s.dev = false ∧ arg.val = 128 + x ∧ x < 32 ∧ moveTo e x (moveTarget s.dev
      e true) s.dev = (0, u)) ∧
    (∃ (s : State) (e : Fin 16) (arg : Fin 256), inReset s.dev = false ∧ arg.val < 128 ∧ (List.range 32).any (fun x => ctxValid s.dev (e * 32 + x)) =
      false) ∧
    (∃ (s : State) (st : Fin 512), inReset s.dev = false ∧ mayReopen s.dev st = true) ∧
    (∃ (s : State) (st : Fin 512), inReset s.dev = false ∧ mayReopen s.dev st = false) ∧
    (∃ (s : State) (st : Fin 512), inReset s.dev = false ∧ stValid s.dev st = true) ∧
    (∃ (s : State) (st : Fin 512), inReset s.dev = false ∧ stValid s.dev st = false) ∧
    (∃ (s : State), inReset s.dev = false ∧ tideSource s.dev ≠ 0) ∧
    (∃ (s : State), inReset s.dev = false ∧ tideSource s.dev = 0) ∧
    (∃ (s : State) (w : Fin 4), inReset s.dev = false ∧ w ≠ 3 ∧ s.dev.tide.marked = true) ∧
    (∃ (s : State) (w : Fin 4), inReset s.dev = false ∧ w ≠ 3 ∧ s.dev.tide.marked = false) ∧
    (∃ (s : State), inReset s.dev = false) ∧
    (∃ (s : State), inReset s.dev = false ∧ s.dev.ptp.sel.isSome = true ∧ s.dev.ptp.lastOff.isSome = true) ∧
    (∃ (s : State), inReset s.dev = false ∧ (s.dev.ptp.sel = none ∨ s.dev.ptp.lastOff = none)) ∧
    (∃ (s : State) (dd : Fin 2), inReset s.dev = false ∧ training s.dev dd = none ∧ tst s.dev (Reg.DMC_STATUS dd) 1 = false) ∧
    (∃ (s : State) (dd : Fin 2), inReset s.dev = false ∧ ((training s.dev dd).isSome = true ∨ tst s.dev (Reg.DMC_STATUS dd) 1 = true)) ∧
    (∃ (s : State) (dd : Fin 2), inReset s.dev = false ∧ portTraining s.dev dd = none) ∧
    (∃ (s : State) (dd : Fin 2), inReset s.dev = false ∧ (portTraining s.dev dd).isSome = true) ∧
    (∃ (s : State) (f : Nat), inReset s.dev = false ∧ f < kvPool s.dev ∧ f < 2 ^ 19 ∧ frState s.dev f = 3 ∧ holdersOf s.dev f = []) ∧
    (∃ (s : State) (f : Nat), inReset s.dev = false ∧ f < 2 ^ 19 ∧ (kvPool s.dev ≤ f ∨ frState s.dev f ≠ 3)) ∧
    (∃ (s : State) (k : Fin 64) (qs : List Nat), inReset s.dev = false ∧ leftWaiting s.dev (taskEvent k) = qs ∧ qs ≠ []) ∧
    (∃ (s : State) (k : Fin 64), inReset s.dev = false ∧ leftWaiting s.dev (taskEvent k) = []) ∧
    (∃ (s : State) (k : Fin 64) (qs : List Nat), inReset s.dev = false ∧ leftWaiting s.dev (taskEvent k) = qs ∧ qs ≠ []) ∧
    (∃ (s : State) (k : Fin 64), inReset s.dev = false ∧ leftWaiting s.dev (taskEvent k) = []) ∧
    (∃ (s : State) (row : Fin 16), inReset s.dev = false ∧ row.val < 8) ∧
    (∃ (s : State) (row : Fin 16), inReset s.dev = false ∧ row.val < 3) ∧
    (∃ (s : State) (row : Fin 16), inReset s.dev = false ∧ 8 ≤ row.val) ∧
    (∃ (s : State), inReset s.dev = false) :=
  ⟨⟨(ws [(Reg.ERR_CTRL, 0), (Reg.ERR_STATUS, 2), (Reg.ERR_EVENT, 0), (Reg.ERR_LOG_HEAD, 0), (Reg.ERR_CONT_CNT, 3), (Reg.ERR_ACT_CNT, 4), (Reg.ERR_ACT_REFUSED_CNT, 5), (Reg.ERR_UNLOGGED_CNT, 0), (Reg.ERR_HOST_LIM, 10), (Reg.ERR_HOST_RESULT, 9), (Reg.ERR_LOG 0 0, 0), (Reg.ERR_LOG 0 3, 0), (Reg.GEN_IRQ_EN, 0), (Reg.MDO_CTRL, 0), (Reg.PCI_STATUS, 1), (Reg.TIDE_NUM_LO, 3), (Reg.TIDE_NUM_HI, 0), (Reg.PWR_DOM_STATE 1, 0), (Reg.WIN_CTRL 1, 0), (Reg.WIN_STATUS 1, 2), (Reg.ARR_BIST_STATUS 1, 0), (Reg.WIN_BIST_STATUS 1, 0), (Reg.SCH_COVE_STATE 0, 0), (Reg.SCH_COVE_STATE 1, 0), (Reg.SCH_COVE_STATE 2, 0), (Reg.SCH_COVE_STATE 3, 0), (Reg.SCH_COVE_STATE 4, 0), (Reg.SCH_COVE_STATE 5, 0), (Reg.SCH_COVE_STATE 6, 0), (Reg.SCH_COVE_STATE 7, 0)] (id)), 1, by decide +kernel⟩,
   ⟨(ws [(Reg.ERR_CTRL, 0), (Reg.ERR_STATUS, 2), (Reg.ERR_EVENT, 0), (Reg.ERR_LOG_HEAD, 0), (Reg.ERR_CONT_CNT, 3), (Reg.ERR_ACT_CNT, 4), (Reg.ERR_ACT_REFUSED_CNT, 5), (Reg.ERR_UNLOGGED_CNT, 0), (Reg.ERR_HOST_LIM, 10), (Reg.ERR_HOST_RESULT, 9), (Reg.ERR_LOG 0 0, 0), (Reg.ERR_LOG 0 3, 0), (Reg.GEN_IRQ_EN, 0), (Reg.MDO_CTRL, 0), (Reg.PCI_STATUS, 1), (Reg.TIDE_NUM_LO, 3), (Reg.TIDE_NUM_HI, 0), (Reg.PWR_DOM_STATE 1, 0), (Reg.WIN_CTRL 1, 0), (Reg.WIN_STATUS 1, 1), (Reg.ARR_BIST_STATUS 1, 0), (Reg.WIN_BIST_STATUS 1, 0), (Reg.SCH_COVE_STATE 0, 0), (Reg.SCH_COVE_STATE 1, 0), (Reg.SCH_COVE_STATE 2, 0), (Reg.SCH_COVE_STATE 3, 0), (Reg.SCH_COVE_STATE 4, 0), (Reg.SCH_COVE_STATE 5, 0), (Reg.SCH_COVE_STATE 6, 0), (Reg.SCH_COVE_STATE 7, 0)] (id)), 1, by decide +kernel⟩,
   ⟨(ws [(Reg.ERR_CTRL, 0), (Reg.ERR_STATUS, 2), (Reg.ERR_EVENT, 0), (Reg.ERR_LOG_HEAD, 0), (Reg.ERR_CONT_CNT, 3), (Reg.ERR_ACT_CNT, 4), (Reg.ERR_ACT_REFUSED_CNT, 5), (Reg.ERR_UNLOGGED_CNT, 0), (Reg.ERR_HOST_LIM, 10), (Reg.ERR_HOST_RESULT, 9), (Reg.ERR_LOG 0 0, 0), (Reg.ERR_LOG 0 3, 0), (Reg.GEN_IRQ_EN, 0), (Reg.MDO_CTRL, 0), (Reg.PCI_STATUS, 1), (Reg.TIDE_NUM_LO, 3), (Reg.TIDE_NUM_HI, 0), (Reg.PWR_DOM_STATE 1, 0), (Reg.WIN_CTRL 1, 0), (Reg.WIN_STATUS 1, 2), (Reg.ARR_BIST_STATUS 1, 0), (Reg.WIN_BIST_STATUS 1, 0), (Reg.SCH_COVE_STATE 0, 0), (Reg.SCH_COVE_STATE 1, 0), (Reg.SCH_COVE_STATE 2, 0), (Reg.SCH_COVE_STATE 3, 0), (Reg.SCH_COVE_STATE 4, 0), (Reg.SCH_COVE_STATE 5, 0), (Reg.SCH_COVE_STATE 6, 0), (Reg.SCH_COVE_STATE 7, 0)] (id)), 1, by decide +kernel⟩,
   ⟨(ws [(Reg.ERR_CTRL, 0), (Reg.ERR_STATUS, 2), (Reg.ERR_EVENT, 0), (Reg.ERR_LOG_HEAD, 0), (Reg.ERR_CONT_CNT, 3), (Reg.ERR_ACT_CNT, 4), (Reg.ERR_ACT_REFUSED_CNT, 5), (Reg.ERR_UNLOGGED_CNT, 0), (Reg.ERR_HOST_LIM, 10), (Reg.ERR_HOST_RESULT, 9), (Reg.ERR_LOG 0 0, 0), (Reg.ERR_LOG 0 3, 0), (Reg.GEN_IRQ_EN, 0), (Reg.MDO_CTRL, 0), (Reg.PCI_STATUS, 1), (Reg.TIDE_NUM_LO, 3), (Reg.TIDE_NUM_HI, 0), (Reg.PWR_DOM_STATE 1, 0), (Reg.WIN_CTRL 1, 0), (Reg.WIN_STATUS 1, 2), (Reg.ARR_BIST_STATUS 1, 1), (Reg.WIN_BIST_STATUS 1, 0), (Reg.SCH_COVE_STATE 0, 0), (Reg.SCH_COVE_STATE 1, 0), (Reg.SCH_COVE_STATE 2, 0), (Reg.SCH_COVE_STATE 3, 0), (Reg.SCH_COVE_STATE 4, 0), (Reg.SCH_COVE_STATE 5, 0), (Reg.SCH_COVE_STATE 6, 0), (Reg.SCH_COVE_STATE 7, 0)] (id)), 1, by decide +kernel⟩,
   ⟨(ws [(Reg.ERR_CTRL, 0), (Reg.ERR_STATUS, 2), (Reg.ERR_EVENT, 0), (Reg.ERR_LOG_HEAD, 0), (Reg.ERR_CONT_CNT, 3), (Reg.ERR_ACT_CNT, 4), (Reg.ERR_ACT_REFUSED_CNT, 5), (Reg.ERR_UNLOGGED_CNT, 0), (Reg.ERR_HOST_LIM, 10), (Reg.ERR_HOST_RESULT, 9), (Reg.ERR_LOG 0 0, 0), (Reg.ERR_LOG 0 3, 0), (Reg.GEN_IRQ_EN, 0), (Reg.MDO_CTRL, 0), (Reg.PCI_STATUS, 1), (Reg.TIDE_NUM_LO, 3), (Reg.TIDE_NUM_HI, 0), (Reg.PWR_DOM_STATE 1, 0), (Reg.WIN_CTRL 1, 0), (Reg.WIN_STATUS 1, 2), (Reg.ARR_BIST_STATUS 1, 0), (Reg.WIN_BIST_STATUS 1, 0), (Reg.SCH_COVE_STATE 0, 5), (Reg.SCH_COVE_STATE 1, 0), (Reg.SCH_COVE_STATE 2, 0), (Reg.SCH_COVE_STATE 3, 0), (Reg.SCH_COVE_STATE 4, 0), (Reg.SCH_COVE_STATE 5, 0), (Reg.SCH_COVE_STATE 6, 0), (Reg.SCH_COVE_STATE 7, 0)] (id)), 0, by decide +kernel⟩,
   ⟨(ws [(Reg.ERR_CTRL, 0), (Reg.ERR_STATUS, 2), (Reg.ERR_EVENT, 0), (Reg.ERR_LOG_HEAD, 0), (Reg.ERR_CONT_CNT, 3), (Reg.ERR_ACT_CNT, 4), (Reg.ERR_ACT_REFUSED_CNT, 5), (Reg.ERR_UNLOGGED_CNT, 0), (Reg.ERR_HOST_LIM, 10), (Reg.ERR_HOST_RESULT, 9), (Reg.ERR_LOG 0 0, 0), (Reg.ERR_LOG 0 3, 0), (Reg.GEN_IRQ_EN, 0), (Reg.MDO_CTRL, 0), (Reg.PCI_STATUS, 1), (Reg.TIDE_NUM_LO, 3), (Reg.TIDE_NUM_HI, 0), (Reg.PWR_DOM_STATE 1, 0), (Reg.WIN_CTRL 1, 0), (Reg.WIN_STATUS 1, 2), (Reg.ARR_BIST_STATUS 1, 0), (Reg.WIN_BIST_STATUS 1, 0), (Reg.SCH_COVE_STATE 0, 0), (Reg.SCH_COVE_STATE 1, 0), (Reg.SCH_COVE_STATE 2, 0), (Reg.SCH_COVE_STATE 3, 0), (Reg.SCH_COVE_STATE 4, 0), (Reg.SCH_COVE_STATE 5, 0), (Reg.SCH_COVE_STATE 6, 0), (Reg.SCH_COVE_STATE 7, 0)] (id)), 0, by decide +kernel⟩,
   ⟨(ws [(Reg.ERR_CTRL, 0), (Reg.ERR_STATUS, 2), (Reg.ERR_EVENT, 0), (Reg.ERR_LOG_HEAD, 0), (Reg.ERR_CONT_CNT, 3), (Reg.ERR_ACT_CNT, 4), (Reg.ERR_ACT_REFUSED_CNT, 5), (Reg.ERR_UNLOGGED_CNT, 0), (Reg.ERR_HOST_LIM, 10), (Reg.ERR_HOST_RESULT, 9), (Reg.ERR_LOG 0 0, 0), (Reg.ERR_LOG 0 3, 0), (Reg.GEN_IRQ_EN, 0), (Reg.MDO_CTRL, 0), (Reg.PCI_STATUS, 1), (Reg.TIDE_NUM_LO, 3), (Reg.TIDE_NUM_HI, 0), (Reg.CDC_CTX_CFG 0 2, 512), (Reg.CDC_CMD_RESULT 0, 0)] (id)), 0, 130, (2), ((moveTo 0 2 (moveTarget (ws [(Reg.ERR_CTRL, 0), (Reg.ERR_STATUS, 2), (Reg.ERR_EVENT, 0), (Reg.ERR_LOG_HEAD, 0), (Reg.ERR_CONT_CNT, 3), (Reg.ERR_ACT_CNT, 4), (Reg.ERR_ACT_REFUSED_CNT, 5), (Reg.ERR_UNLOGGED_CNT, 0), (Reg.ERR_HOST_LIM, 10), (Reg.ERR_HOST_RESULT, 9), (Reg.ERR_LOG 0 0, 0), (Reg.ERR_LOG 0 3, 0), (Reg.GEN_IRQ_EN, 0), (Reg.MDO_CTRL, 0), (Reg.PCI_STATUS, 1), (Reg.TIDE_NUM_LO, 3), (Reg.TIDE_NUM_HI, 0), (Reg.CDC_CTX_CFG 0 2, 512), (Reg.CDC_CMD_RESULT 0, 0)] (id) : State).dev 0 false) (ws [(Reg.ERR_CTRL, 0), (Reg.ERR_STATUS, 2), (Reg.ERR_EVENT, 0), (Reg.ERR_LOG_HEAD, 0), (Reg.ERR_CONT_CNT, 3), (Reg.ERR_ACT_CNT, 4), (Reg.ERR_ACT_REFUSED_CNT, 5), (Reg.ERR_UNLOGGED_CNT, 0), (Reg.ERR_HOST_LIM, 10), (Reg.ERR_HOST_RESULT, 9), (Reg.ERR_LOG 0 0, 0), (Reg.ERR_LOG 0 3, 0), (Reg.GEN_IRQ_EN, 0), (Reg.MDO_CTRL, 0), (Reg.PCI_STATUS, 1), (Reg.TIDE_NUM_LO, 3), (Reg.TIDE_NUM_HI, 0), (Reg.CDC_CTX_CFG 0 2, 512), (Reg.CDC_CMD_RESULT 0, 0)] (id) : State).dev).2), by decide +kernel⟩,
   ⟨(ws [(Reg.ERR_CTRL, 0), (Reg.ERR_STATUS, 2), (Reg.ERR_EVENT, 0), (Reg.ERR_LOG_HEAD, 0), (Reg.ERR_CONT_CNT, 3), (Reg.ERR_ACT_CNT, 4), (Reg.ERR_ACT_REFUSED_CNT, 5), (Reg.ERR_UNLOGGED_CNT, 0), (Reg.ERR_HOST_LIM, 10), (Reg.ERR_HOST_RESULT, 9), (Reg.ERR_LOG 0 0, 0), (Reg.ERR_LOG 0 3, 0), (Reg.GEN_IRQ_EN, 0), (Reg.MDO_CTRL, 0), (Reg.PCI_STATUS, 1), (Reg.TIDE_NUM_LO, 3), (Reg.TIDE_NUM_HI, 0)] (id)), 0, 0, by decide +kernel⟩,
   ⟨(ws [(Reg.ERR_CTRL, 0), (Reg.ERR_STATUS, 2), (Reg.ERR_EVENT, 0), (Reg.ERR_LOG_HEAD, 0), (Reg.ERR_CONT_CNT, 3), (Reg.ERR_ACT_CNT, 4), (Reg.ERR_ACT_REFUSED_CNT, 5), (Reg.ERR_UNLOGGED_CNT, 0), (Reg.ERR_HOST_LIM, 10), (Reg.ERR_HOST_RESULT, 9), (Reg.ERR_LOG 0 0, 0), (Reg.ERR_LOG 0 3, 0), (Reg.GEN_IRQ_EN, 0), (Reg.MDO_CTRL, 0), (Reg.PCI_STATUS, 1), (Reg.TIDE_NUM_LO, 3), (Reg.TIDE_NUM_HI, 0), (Reg.CDC_CTX_CFG 0 2, 512), (Reg.CDC_CMD_RESULT 0, 0)] (id)), 0, 130, (2), ((moveTo 0 2 (moveTarget (ws [(Reg.ERR_CTRL, 0), (Reg.ERR_STATUS, 2), (Reg.ERR_EVENT, 0), (Reg.ERR_LOG_HEAD, 0), (Reg.ERR_CONT_CNT, 3), (Reg.ERR_ACT_CNT, 4), (Reg.ERR_ACT_REFUSED_CNT, 5), (Reg.ERR_UNLOGGED_CNT, 0), (Reg.ERR_HOST_LIM, 10), (Reg.ERR_HOST_RESULT, 9), (Reg.ERR_LOG 0 0, 0), (Reg.ERR_LOG 0 3, 0), (Reg.GEN_IRQ_EN, 0), (Reg.MDO_CTRL, 0), (Reg.PCI_STATUS, 1), (Reg.TIDE_NUM_LO, 3), (Reg.TIDE_NUM_HI, 0), (Reg.CDC_CTX_CFG 0 2, 512), (Reg.CDC_CMD_RESULT 0, 0)] (id) : State).dev 0 true) (ws [(Reg.ERR_CTRL, 0), (Reg.ERR_STATUS, 2), (Reg.ERR_EVENT, 0), (Reg.ERR_LOG_HEAD, 0), (Reg.ERR_CONT_CNT, 3), (Reg.ERR_ACT_CNT, 4), (Reg.ERR_ACT_REFUSED_CNT, 5), (Reg.ERR_UNLOGGED_CNT, 0), (Reg.ERR_HOST_LIM, 10), (Reg.ERR_HOST_RESULT, 9), (Reg.ERR_LOG 0 0, 0), (Reg.ERR_LOG 0 3, 0), (Reg.GEN_IRQ_EN, 0), (Reg.MDO_CTRL, 0), (Reg.PCI_STATUS, 1), (Reg.TIDE_NUM_LO, 3), (Reg.TIDE_NUM_HI, 0), (Reg.CDC_CTX_CFG 0 2, 512), (Reg.CDC_CMD_RESULT 0, 0)] (id) : State).dev).2), by decide +kernel⟩,
   ⟨(ws [(Reg.ERR_CTRL, 0), (Reg.ERR_STATUS, 2), (Reg.ERR_EVENT, 0), (Reg.ERR_LOG_HEAD, 0), (Reg.ERR_CONT_CNT, 3), (Reg.ERR_ACT_CNT, 4), (Reg.ERR_ACT_REFUSED_CNT, 5), (Reg.ERR_UNLOGGED_CNT, 0), (Reg.ERR_HOST_LIM, 10), (Reg.ERR_HOST_RESULT, 9), (Reg.ERR_LOG 0 0, 0), (Reg.ERR_LOG 0 3, 0), (Reg.GEN_IRQ_EN, 0), (Reg.MDO_CTRL, 0), (Reg.PCI_STATUS, 1), (Reg.TIDE_NUM_LO, 3), (Reg.TIDE_NUM_HI, 0)] (id)), 0, 0, by decide +kernel⟩,
   ⟨(ws [(Reg.ERR_CTRL, 0), (Reg.ERR_STATUS, 2), (Reg.ERR_EVENT, 0), (Reg.ERR_LOG_HEAD, 0), (Reg.ERR_CONT_CNT, 3), (Reg.ERR_ACT_CNT, 4), (Reg.ERR_ACT_REFUSED_CNT, 5), (Reg.ERR_UNLOGGED_CNT, 0), (Reg.ERR_HOST_LIM, 10), (Reg.ERR_HOST_RESULT, 9), (Reg.ERR_LOG 0 0, 0), (Reg.ERR_LOG 0 3, 0), (Reg.GEN_IRQ_EN, 0), (Reg.MDO_CTRL, 0), (Reg.PCI_STATUS, 1), (Reg.TIDE_NUM_LO, 3), (Reg.TIDE_NUM_HI, 0), (Reg.ING_TABLE 0 0, 1), (Reg.ING_S_STATE 0, 4)] (id)), 0, by decide +kernel⟩,
   ⟨(ws [(Reg.ERR_CTRL, 0), (Reg.ERR_STATUS, 2), (Reg.ERR_EVENT, 0), (Reg.ERR_LOG_HEAD, 0), (Reg.ERR_CONT_CNT, 3), (Reg.ERR_ACT_CNT, 4), (Reg.ERR_ACT_REFUSED_CNT, 5), (Reg.ERR_UNLOGGED_CNT, 0), (Reg.ERR_HOST_LIM, 10), (Reg.ERR_HOST_RESULT, 9), (Reg.ERR_LOG 0 0, 0), (Reg.ERR_LOG 0 3, 0), (Reg.GEN_IRQ_EN, 0), (Reg.MDO_CTRL, 0), (Reg.PCI_STATUS, 1), (Reg.TIDE_NUM_LO, 3), (Reg.TIDE_NUM_HI, 0)] (id)), 0, by decide +kernel⟩,
   ⟨(ws [(Reg.ERR_CTRL, 0), (Reg.ERR_STATUS, 2), (Reg.ERR_EVENT, 0), (Reg.ERR_LOG_HEAD, 0), (Reg.ERR_CONT_CNT, 3), (Reg.ERR_ACT_CNT, 4), (Reg.ERR_ACT_REFUSED_CNT, 5), (Reg.ERR_UNLOGGED_CNT, 0), (Reg.ERR_HOST_LIM, 10), (Reg.ERR_HOST_RESULT, 9), (Reg.ERR_LOG 0 0, 0), (Reg.ERR_LOG 0 3, 0), (Reg.GEN_IRQ_EN, 0), (Reg.MDO_CTRL, 0), (Reg.PCI_STATUS, 1), (Reg.TIDE_NUM_LO, 3), (Reg.TIDE_NUM_HI, 0), (Reg.ING_TABLE 0 0, 1), (Reg.ING_S_STATE 0, 4)] (id)), 0, by decide +kernel⟩,
   ⟨(ws [(Reg.ERR_CTRL, 0), (Reg.ERR_STATUS, 2), (Reg.ERR_EVENT, 0), (Reg.ERR_LOG_HEAD, 0), (Reg.ERR_CONT_CNT, 3), (Reg.ERR_ACT_CNT, 4), (Reg.ERR_ACT_REFUSED_CNT, 5), (Reg.ERR_UNLOGGED_CNT, 0), (Reg.ERR_HOST_LIM, 10), (Reg.ERR_HOST_RESULT, 9), (Reg.ERR_LOG 0 0, 0), (Reg.ERR_LOG 0 3, 0), (Reg.GEN_IRQ_EN, 0), (Reg.MDO_CTRL, 0), (Reg.PCI_STATUS, 1), (Reg.TIDE_NUM_LO, 3), (Reg.TIDE_NUM_HI, 0)] (id)), 0, by decide +kernel⟩,
   ⟨(ws [(Reg.ERR_CTRL, 0), (Reg.ERR_STATUS, 2), (Reg.ERR_EVENT, 0), (Reg.ERR_LOG_HEAD, 0), (Reg.ERR_CONT_CNT, 3), (Reg.ERR_ACT_CNT, 4), (Reg.ERR_ACT_REFUSED_CNT, 5), (Reg.ERR_UNLOGGED_CNT, 0), (Reg.ERR_HOST_LIM, 10), (Reg.ERR_HOST_RESULT, 9), (Reg.ERR_LOG 0 0, 0), (Reg.ERR_LOG 0 3, 0), (Reg.GEN_IRQ_EN, 0), (Reg.MDO_CTRL, 0), (Reg.PCI_STATUS, 1), (Reg.TIDE_NUM_LO, 3), (Reg.TIDE_NUM_HI, 0), (Reg.TIDE_CTRL, 1)] (id)), by decide +kernel⟩,
   ⟨(ws [(Reg.ERR_CTRL, 0), (Reg.ERR_STATUS, 2), (Reg.ERR_EVENT, 0), (Reg.ERR_LOG_HEAD, 0), (Reg.ERR_CONT_CNT, 3), (Reg.ERR_ACT_CNT, 4), (Reg.ERR_ACT_REFUSED_CNT, 5), (Reg.ERR_UNLOGGED_CNT, 0), (Reg.ERR_HOST_LIM, 10), (Reg.ERR_HOST_RESULT, 9), (Reg.ERR_LOG 0 0, 0), (Reg.ERR_LOG 0 3, 0), (Reg.GEN_IRQ_EN, 0), (Reg.MDO_CTRL, 0), (Reg.PCI_STATUS, 1), (Reg.TIDE_NUM_LO, 3), (Reg.TIDE_NUM_HI, 0), (Reg.TIDE_CTRL, 0)] (id)), by decide +kernel⟩,
   ⟨(ws [(Reg.ERR_CTRL, 0), (Reg.ERR_STATUS, 2), (Reg.ERR_EVENT, 0), (Reg.ERR_LOG_HEAD, 0), (Reg.ERR_CONT_CNT, 3), (Reg.ERR_ACT_CNT, 4), (Reg.ERR_ACT_REFUSED_CNT, 5), (Reg.ERR_UNLOGGED_CNT, 0), (Reg.ERR_HOST_LIM, 10), (Reg.ERR_HOST_RESULT, 9), (Reg.ERR_LOG 0 0, 0), (Reg.ERR_LOG 0 3, 0), (Reg.GEN_IRQ_EN, 0), (Reg.MDO_CTRL, 0), (Reg.PCI_STATUS, 1), (Reg.TIDE_NUM_LO, 3), (Reg.TIDE_NUM_HI, 0)] (fun d => { d with tide := { marked := true } })), (1), by decide +kernel⟩,
   ⟨(ws [(Reg.ERR_CTRL, 0), (Reg.ERR_STATUS, 2), (Reg.ERR_EVENT, 0), (Reg.ERR_LOG_HEAD, 0), (Reg.ERR_CONT_CNT, 3), (Reg.ERR_ACT_CNT, 4), (Reg.ERR_ACT_REFUSED_CNT, 5), (Reg.ERR_UNLOGGED_CNT, 0), (Reg.ERR_HOST_LIM, 10), (Reg.ERR_HOST_RESULT, 9), (Reg.ERR_LOG 0 0, 0), (Reg.ERR_LOG 0 3, 0), (Reg.GEN_IRQ_EN, 0), (Reg.MDO_CTRL, 0), (Reg.PCI_STATUS, 1), (Reg.TIDE_NUM_LO, 3), (Reg.TIDE_NUM_HI, 0), (Reg.TIDE_CTRL, 0)] (id)), (1), by decide +kernel⟩,
   ⟨(ws [(Reg.ERR_CTRL, 0), (Reg.ERR_STATUS, 2), (Reg.ERR_EVENT, 0), (Reg.ERR_LOG_HEAD, 0), (Reg.ERR_CONT_CNT, 3), (Reg.ERR_ACT_CNT, 4), (Reg.ERR_ACT_REFUSED_CNT, 5), (Reg.ERR_UNLOGGED_CNT, 0), (Reg.ERR_HOST_LIM, 10), (Reg.ERR_HOST_RESULT, 9), (Reg.ERR_LOG 0 0, 0), (Reg.ERR_LOG 0 3, 0), (Reg.GEN_IRQ_EN, 0), (Reg.MDO_CTRL, 0), (Reg.PCI_STATUS, 1), (Reg.TIDE_NUM_LO, 3), (Reg.TIDE_NUM_HI, 0)] (id)), by decide +kernel⟩,
   ⟨(ws [(Reg.ERR_CTRL, 0), (Reg.ERR_STATUS, 2), (Reg.ERR_EVENT, 0), (Reg.ERR_LOG_HEAD, 0), (Reg.ERR_CONT_CNT, 3), (Reg.ERR_ACT_CNT, 4), (Reg.ERR_ACT_REFUSED_CNT, 5), (Reg.ERR_UNLOGGED_CNT, 0), (Reg.ERR_HOST_LIM, 10), (Reg.ERR_HOST_RESULT, 9), (Reg.ERR_LOG 0 0, 0), (Reg.ERR_LOG 0 3, 0), (Reg.GEN_IRQ_EN, 0), (Reg.MDO_CTRL, 0), (Reg.PCI_STATUS, 1), (Reg.TIDE_NUM_LO, 3), (Reg.TIDE_NUM_HI, 0)] (fun d => { d with ptp := { sel := some ⟨0, 0, 0, 0, 0, ⟨0, 0, 0, 0, 0, 0, 0, 3, 0⟩, 0, 3⟩, lastOff := some 5 } })), by decide +kernel⟩,
   ⟨(ws [(Reg.ERR_CTRL, 0), (Reg.ERR_STATUS, 2), (Reg.ERR_EVENT, 0), (Reg.ERR_LOG_HEAD, 0), (Reg.ERR_CONT_CNT, 3), (Reg.ERR_ACT_CNT, 4), (Reg.ERR_ACT_REFUSED_CNT, 5), (Reg.ERR_UNLOGGED_CNT, 0), (Reg.ERR_HOST_LIM, 10), (Reg.ERR_HOST_RESULT, 9), (Reg.ERR_LOG 0 0, 0), (Reg.ERR_LOG 0 3, 0), (Reg.GEN_IRQ_EN, 0), (Reg.MDO_CTRL, 0), (Reg.PCI_STATUS, 1), (Reg.TIDE_NUM_LO, 3), (Reg.TIDE_NUM_HI, 0)] (id)), by decide +kernel⟩,
   ⟨(ws [(Reg.ERR_CTRL, 0), (Reg.ERR_STATUS, 2), (Reg.ERR_EVENT, 0), (Reg.ERR_LOG_HEAD, 0), (Reg.ERR_CONT_CNT, 3), (Reg.ERR_ACT_CNT, 4), (Reg.ERR_ACT_REFUSED_CNT, 5), (Reg.ERR_UNLOGGED_CNT, 0), (Reg.ERR_HOST_LIM, 10), (Reg.ERR_HOST_RESULT, 9), (Reg.ERR_LOG 0 0, 0), (Reg.ERR_LOG 0 3, 0), (Reg.GEN_IRQ_EN, 0), (Reg.MDO_CTRL, 0), (Reg.PCI_STATUS, 1), (Reg.TIDE_NUM_LO, 3), (Reg.TIDE_NUM_HI, 0), (Reg.DMC_STATUS 0, 0), (Reg.DMC_CH_STATUS 0 0, 0)] (id)), 0, by decide +kernel⟩,
   ⟨(ws [(Reg.ERR_CTRL, 0), (Reg.ERR_STATUS, 2), (Reg.ERR_EVENT, 0), (Reg.ERR_LOG_HEAD, 0), (Reg.ERR_CONT_CNT, 3), (Reg.ERR_ACT_CNT, 4), (Reg.ERR_ACT_REFUSED_CNT, 5), (Reg.ERR_UNLOGGED_CNT, 0), (Reg.ERR_HOST_LIM, 10), (Reg.ERR_HOST_RESULT, 9), (Reg.ERR_LOG 0 0, 0), (Reg.ERR_LOG 0 3, 0), (Reg.GEN_IRQ_EN, 0), (Reg.MDO_CTRL, 0), (Reg.PCI_STATUS, 1), (Reg.TIDE_NUM_LO, 3), (Reg.TIDE_NUM_HI, 0), (Reg.DMC_STATUS 0, 2), (Reg.DMC_CMD_RESULT 0, 0)] (id)), 0, by decide +kernel⟩,
   ⟨(ws [(Reg.ERR_CTRL, 0), (Reg.ERR_STATUS, 2), (Reg.ERR_EVENT, 0), (Reg.ERR_LOG_HEAD, 0), (Reg.ERR_CONT_CNT, 3), (Reg.ERR_ACT_CNT, 4), (Reg.ERR_ACT_REFUSED_CNT, 5), (Reg.ERR_UNLOGGED_CNT, 0), (Reg.ERR_HOST_LIM, 10), (Reg.ERR_HOST_RESULT, 9), (Reg.ERR_LOG 0 0, 0), (Reg.ERR_LOG 0 3, 0), (Reg.GEN_IRQ_EN, 0), (Reg.MDO_CTRL, 0), (Reg.PCI_STATUS, 1), (Reg.TIDE_NUM_LO, 3), (Reg.TIDE_NUM_HI, 0), (Reg.ARB_STATUS 0, 1)] (id)), 0, by decide +kernel⟩,
   ⟨(ws [(Reg.ERR_CTRL, 0), (Reg.ERR_STATUS, 2), (Reg.ERR_EVENT, 0), (Reg.ERR_LOG_HEAD, 0), (Reg.ERR_CONT_CNT, 3), (Reg.ERR_ACT_CNT, 4), (Reg.ERR_ACT_REFUSED_CNT, 5), (Reg.ERR_UNLOGGED_CNT, 0), (Reg.ERR_HOST_LIM, 10), (Reg.ERR_HOST_RESULT, 9), (Reg.ERR_LOG 0 0, 0), (Reg.ERR_LOG 0 3, 0), (Reg.GEN_IRQ_EN, 0), (Reg.MDO_CTRL, 0), (Reg.PCI_STATUS, 1), (Reg.TIDE_NUM_LO, 3), (Reg.TIDE_NUM_HI, 0), (Reg.ARB_CMD_RESULT 0, 0)] (fun d => { d with dmc := { ports := [(0, some 3)] } })), 0, by decide +kernel⟩,
   ⟨(ws [(Reg.ERR_CTRL, 0), (Reg.ERR_STATUS, 2), (Reg.ERR_EVENT, 0), (Reg.ERR_LOG_HEAD, 0), (Reg.ERR_CONT_CNT, 3), (Reg.ERR_ACT_CNT, 4), (Reg.ERR_ACT_REFUSED_CNT, 5), (Reg.ERR_UNLOGGED_CNT, 0), (Reg.ERR_HOST_LIM, 10), (Reg.ERR_HOST_RESULT, 9), (Reg.ERR_LOG 0 0, 0), (Reg.ERR_LOG 0 3, 0), (Reg.GEN_IRQ_EN, 0), (Reg.MDO_CTRL, 0), (Reg.PCI_STATUS, 1), (Reg.TIDE_NUM_LO, 3), (Reg.TIDE_NUM_HI, 0), (Reg.KVF_FRAMES0, 4), (Reg.KVF_FRAMES1, 4), (Reg.KVF_TABLE 0, 3 * 1024)] (id)), 0, by decide +kernel⟩,
   ⟨(ws [(Reg.ERR_CTRL, 0), (Reg.ERR_STATUS, 2), (Reg.ERR_EVENT, 0), (Reg.ERR_LOG_HEAD, 0), (Reg.ERR_CONT_CNT, 3), (Reg.ERR_ACT_CNT, 4), (Reg.ERR_ACT_REFUSED_CNT, 5), (Reg.ERR_UNLOGGED_CNT, 0), (Reg.ERR_HOST_LIM, 10), (Reg.ERR_HOST_RESULT, 9), (Reg.ERR_LOG 0 0, 0), (Reg.ERR_LOG 0 3, 0), (Reg.GEN_IRQ_EN, 0), (Reg.MDO_CTRL, 0), (Reg.PCI_STATUS, 1), (Reg.TIDE_NUM_LO, 3), (Reg.TIDE_NUM_HI, 0), (Reg.KVF_FRAMES0, 4), (Reg.KVF_FRAMES1, 4), (Reg.KVF_TABLE 0, 0)] (id)), 0, by decide +kernel⟩,
   ⟨(ws [(Reg.ERR_CTRL, 0), (Reg.ERR_STATUS, 2), (Reg.ERR_EVENT, 0), (Reg.ERR_LOG_HEAD, 0), (Reg.ERR_CONT_CNT, 3), (Reg.ERR_ACT_CNT, 4), (Reg.ERR_ACT_REFUSED_CNT, 5), (Reg.ERR_UNLOGGED_CNT, 0), (Reg.ERR_HOST_LIM, 10), (Reg.ERR_HOST_RESULT, 9), (Reg.ERR_LOG 0 0, 0), (Reg.ERR_LOG 0 3, 0), (Reg.GEN_IRQ_EN, 0), (Reg.MDO_CTRL, 0), (Reg.PCI_STATUS, 1), (Reg.TIDE_NUM_LO, 3), (Reg.TIDE_NUM_HI, 0), (Reg.SEQ_TABLE 5 0, 2), (Reg.SEQ_STATUS, 1)] (fun d => { d with kv := { waiting := [(5, 0)] } })), 0, ([5]), by decide +kernel⟩,
   ⟨(ws [(Reg.ERR_CTRL, 0), (Reg.ERR_STATUS, 2), (Reg.ERR_EVENT, 0), (Reg.ERR_LOG_HEAD, 0), (Reg.ERR_CONT_CNT, 3), (Reg.ERR_ACT_CNT, 4), (Reg.ERR_ACT_REFUSED_CNT, 5), (Reg.ERR_UNLOGGED_CNT, 0), (Reg.ERR_HOST_LIM, 10), (Reg.ERR_HOST_RESULT, 9), (Reg.ERR_LOG 0 0, 0), (Reg.ERR_LOG 0 3, 0), (Reg.GEN_IRQ_EN, 0), (Reg.MDO_CTRL, 0), (Reg.PCI_STATUS, 1), (Reg.TIDE_NUM_LO, 3), (Reg.TIDE_NUM_HI, 0)] (id)), 0, by decide +kernel⟩,
   ⟨(ws [(Reg.ERR_CTRL, 0), (Reg.ERR_STATUS, 2), (Reg.ERR_EVENT, 0), (Reg.ERR_LOG_HEAD, 0), (Reg.ERR_CONT_CNT, 3), (Reg.ERR_ACT_CNT, 4), (Reg.ERR_ACT_REFUSED_CNT, 5), (Reg.ERR_UNLOGGED_CNT, 0), (Reg.ERR_HOST_LIM, 10), (Reg.ERR_HOST_RESULT, 9), (Reg.ERR_LOG 0 0, 0), (Reg.ERR_LOG 0 3, 0), (Reg.GEN_IRQ_EN, 0), (Reg.MDO_CTRL, 0), (Reg.PCI_STATUS, 1), (Reg.TIDE_NUM_LO, 3), (Reg.TIDE_NUM_HI, 0), (Reg.SEQ_TABLE 5 0, 2), (Reg.SEQ_STATUS, 1)] (fun d => { d with kv := { waiting := [(5, 0)] } })), 0, ([5]), by decide +kernel⟩,
   ⟨(ws [(Reg.ERR_CTRL, 0), (Reg.ERR_STATUS, 2), (Reg.ERR_EVENT, 0), (Reg.ERR_LOG_HEAD, 0), (Reg.ERR_CONT_CNT, 3), (Reg.ERR_ACT_CNT, 4), (Reg.ERR_ACT_REFUSED_CNT, 5), (Reg.ERR_UNLOGGED_CNT, 0), (Reg.ERR_HOST_LIM, 10), (Reg.ERR_HOST_RESULT, 9), (Reg.ERR_LOG 0 0, 0), (Reg.ERR_LOG 0 3, 0), (Reg.GEN_IRQ_EN, 0), (Reg.MDO_CTRL, 0), (Reg.PCI_STATUS, 1), (Reg.TIDE_NUM_LO, 3), (Reg.TIDE_NUM_HI, 0)] (id)), 0, by decide +kernel⟩,
   ⟨(ws [(Reg.ERR_CTRL, 0), (Reg.ERR_STATUS, 2), (Reg.ERR_EVENT, 0), (Reg.ERR_LOG_HEAD, 0), (Reg.ERR_CONT_CNT, 3), (Reg.ERR_ACT_CNT, 4), (Reg.ERR_ACT_REFUSED_CNT, 5), (Reg.ERR_UNLOGGED_CNT, 0), (Reg.ERR_HOST_LIM, 10), (Reg.ERR_HOST_RESULT, 9), (Reg.ERR_LOG 0 0, 0), (Reg.ERR_LOG 0 3, 0), (Reg.GEN_IRQ_EN, 0), (Reg.MDO_CTRL, 0), (Reg.PCI_STATUS, 1), (Reg.TIDE_NUM_LO, 3), (Reg.TIDE_NUM_HI, 0)] (id)), 7, by decide +kernel⟩,
   ⟨(ws [(Reg.ERR_CTRL, 0), (Reg.ERR_STATUS, 2), (Reg.ERR_EVENT, 0), (Reg.ERR_LOG_HEAD, 0), (Reg.ERR_CONT_CNT, 3), (Reg.ERR_ACT_CNT, 4), (Reg.ERR_ACT_REFUSED_CNT, 5), (Reg.ERR_UNLOGGED_CNT, 0), (Reg.ERR_HOST_LIM, 10), (Reg.ERR_HOST_RESULT, 9), (Reg.ERR_LOG 0 0, 0), (Reg.ERR_LOG 0 3, 0), (Reg.GEN_IRQ_EN, 0), (Reg.MDO_CTRL, 0), (Reg.PCI_STATUS, 1), (Reg.TIDE_NUM_LO, 3), (Reg.TIDE_NUM_HI, 0)] (id)), 1, by decide +kernel⟩,
   ⟨(ws [(Reg.ERR_CTRL, 0), (Reg.ERR_STATUS, 2), (Reg.ERR_EVENT, 0), (Reg.ERR_LOG_HEAD, 0), (Reg.ERR_CONT_CNT, 3), (Reg.ERR_ACT_CNT, 4), (Reg.ERR_ACT_REFUSED_CNT, 5), (Reg.ERR_UNLOGGED_CNT, 0), (Reg.ERR_HOST_LIM, 10), (Reg.ERR_HOST_RESULT, 9), (Reg.ERR_LOG 0 0, 0), (Reg.ERR_LOG 0 3, 0), (Reg.GEN_IRQ_EN, 0), (Reg.MDO_CTRL, 0), (Reg.PCI_STATUS, 1), (Reg.TIDE_NUM_LO, 3), (Reg.TIDE_NUM_HI, 0)] (id)), 9, by decide +kernel⟩,
   ⟨(ws [(Reg.ERR_CTRL, 0), (Reg.ERR_STATUS, 2), (Reg.ERR_EVENT, 0), (Reg.ERR_LOG_HEAD, 0), (Reg.ERR_CONT_CNT, 3), (Reg.ERR_ACT_CNT, 4), (Reg.ERR_ACT_REFUSED_CNT, 5), (Reg.ERR_UNLOGGED_CNT, 0), (Reg.ERR_HOST_LIM, 10), (Reg.ERR_HOST_RESULT, 9), (Reg.ERR_LOG 0 0, 0), (Reg.ERR_LOG 0 3, 0), (Reg.GEN_IRQ_EN, 0), (Reg.MDO_CTRL, 0), (Reg.PCI_STATUS, 1), (Reg.TIDE_NUM_LO, 3), (Reg.TIDE_NUM_HI, 0), (Reg.BOOT_COUNT, 3)] (id)), by decide +kernel⟩⟩

theorem witness_HostAccessReachesTheFunction :
    (∃ (s : State), inReset s.dev = false ∧ linkUp s.dev = false) ∧
    (∃ (s : State), inReset s.dev = false ∧ linkUp s.dev = true ∧ (tst s.dev Reg.PCI_STATUS 11 = false ∨ tst s.dev Reg.PCI_STATUS 10 = true)) ∧
    (∃ (s : State), inReset s.dev = false ∧ linkUp s.dev = true ∧ tst s.dev Reg.PCI_STATUS 11 = true ∧ tst s.dev Reg.PCI_STATUS 10 = false) ∧
    (∃ (s : State) (a : Fin 4096) (m : Nat), inReset s.dev = false ∧ linkUp s.dev = true ∧ tst s.dev Reg.PCI_STATUS 11 = true ∧ tst s.dev
      Reg.PCI_STATUS 10 = false ∧ cfgMasks s.dev (a.val / 4 * 4) = (m, 0) ∧ a.val / 4 * 4 ≠ 0x44) ∧
    (∃ (s : State), inReset s.dev = false ∧ linkUp s.dev = true ∧ tst s.dev Reg.PCI_STATUS 11 = true ∧ tst s.dev Reg.PCI_STATUS 10 = false) ∧
    (∃ (s : State), inReset s.dev = false ∧ linkUp s.dev = false) ∧
    (∃ (s : State), inReset s.dev = false ∧ linkUp s.dev = true ∧ tst s.dev Reg.PCI_STATUS 11 = true ∧ tst s.dev Reg.PCI_STATUS 10 = false) ∧
    (∃ (s : State), inReset s.dev = false ∧ linkUp s.dev = false) ∧
    (∃ (s : State) (o : Nat) (n : Nat) (x : Nat), inReset s.dev = false ∧ barReached s.dev = true ∧ x = rd64 s.dev Reg.PCI_BAR2_WIN_LO + o ∧ o + n ≤ 2
      ^ bar2Bits s.dev ∧ ebbState s.dev < 2 ∧ (dramRead s.dev 0 x n).isNone = true) ∧
    (∃ (s : State) (o : Nat) (n : Nat) (x : Nat), inReset s.dev = false ∧ barReached s.dev = true ∧ x = rd64 s.dev Reg.PCI_BAR2_WIN_LO + o ∧ o + n ≤ 2
      ^ bar2Bits s.dev ∧ ebbState s.dev < 2 ∧ x < dramBytes ∧ (dramRead s.dev 0 x n).isNone = true) ∧
    (∃ (s : State) (o : Nat) (n : Nat) (x : Nat), inReset s.dev = false ∧ barReached s.dev = true ∧ x = rd64 s.dev Reg.PCI_BAR2_WIN_LO + o ∧ o + n ≤ 2
      ^ bar2Bits s.dev ∧ (2 ≤ ebbState s.dev ∨ (dramRead s.dev 0 x n).isSome = true)) ∧
    (∃ (s : State) (o : Nat) (l : List Byte) (x : Nat), inReset s.dev = false ∧ barReached s.dev = true ∧ x = rd64 s.dev Reg.PCI_BAR2_WIN_LO + o ∧ o +
      l.length ≤ 2 ^ bar2Bits s.dev ∧ (dramReach s.dev 0 x l.length).isNone = true ∧ ebbState s.dev < 2 ∧ x + l.length ≤ dramBytes) ∧
    (∃ (s : State) (o : Nat) (l : List Byte) (x : Nat) (flt : TlpFlt), inReset s.dev = false ∧ barReached s.dev = true ∧ x = rd64 s.dev
      Reg.PCI_BAR2_WIN_LO + o ∧ (flt = .poisoned ∨ flt = .malformed ∨ flt = .unexpected ∨ flt = .bufUncorr ∨ 2 ^ bar2Bits s.dev < o + l.length ∨
      (dramReach s.dev 0 x l.length).isSome = true ∨ 2 ≤ ebbState s.dev)) ∧
    (∃ (s : State), inReset s.dev = false ∧ barReached s.dev = false) ∧
    (∃ (s : State), inReset s.dev = false ∧ linkUp s.dev = true ∧ tst s.dev Reg.PCI_STATUS 10 = false) ∧
    (∃ (s : State), inReset s.dev = false ∧ (linkUp s.dev = false ∨ tst s.dev Reg.PCI_STATUS 10 = true)) ∧
    (∃ (s : State) (gen : Nat) (width : Nat), inReset s.dev = false ∧ s.dev.pins.perst = true ∧ 1 ≤ gen ∧ gen ≤ maxGen s.dev ∧ width ∈ [1, 2, 4, 8,
      16]) ∧
    (∃ (s : State) (gen : Nat) (width : Nat), inReset s.dev = false ∧ (s.dev.pins.perst = false ∨ gen = 0 ∨ maxGen s.dev < gen ∨ width ∉ [1, 2, 4, 8,
      16])) ∧
    (∃ (s : State), inReset s.dev = false ∧ linkUp s.dev = true) ∧
    (∃ (s : State), inReset s.dev = false ∧ linkUp s.dev = false) ∧
    (∃ (s : State), inReset s.dev = false ∧ s.dev.pci.tlpAt + rf s.dev Reg.PCI_LINK_CFG 3 10 * 1000 < 2 ^ 64 ∧ linkUp s.dev = true ∧ bitOf (cfgDw
      s.dev 0x60) 1 = true ∧ PostsBlocked s.dev) ∧
    (∃ (s : State), inReset s.dev = false ∧ (linkUp s.dev = false ∨ bitOf (cfgDw s.dev 0x60) 1 = false)) ∧
    (∃ (s : State) (v : Word), inReset s.dev = false ∧ barReached s.dev = true ∧ bitOf v.toNat 0 = true ∧ tst s.dev Reg.PWR_WAKE_EN 2 = true ∧
      (ebbState s.dev = 1 ∨ ebbState s.dev = 2)) ∧
    (∃ (s : State) (v : Word), inReset s.dev = false ∧ barReached s.dev = true ∧ (bitOf v.toNat 0 = false ∨ tst s.dev Reg.PWR_WAKE_EN 2 = false ∨
      ebbState s.dev = 0)) :=
  ⟨⟨(ws [(Reg.PCI_STATUS, 0), (Reg.PCI_EVENT, 0), (Reg.PCI_FAULT_INFO, 0), (Reg.PCI_FLR_CNT, 3), (Reg.PCI_LINK_DOWN_CNT, 3), (Reg.PCI_RETRAIN_CNT, 3), (Reg.PCI_LINK_CFG, 5), (Reg.PCI_BAR2_SIZE, 0), (Reg.PCI_BAR2_WIN_LO, 0), (Reg.PCI_BAR2_WIN_HI, 0), (Reg.PWR_STATUS, 0), (Reg.PWR_WAKE_EN, 4), (Reg.DMC_RGN_CFG 0 0, 65536 + 8192), (Reg.DMC_RGN_BASE 0 0, 0), (Reg.PCI_AER_NONFATAL_CNT, 0), (Reg.PCI_AER_CORR_CNT, 0), (Reg.PCI_REPLAY_CNT, 0)] (fun d => (id) { d with pci := { d.pci with cfg := [(4, 6)] } })), by decide +kernel⟩,
   ⟨(ws [(Reg.PCI_STATUS, 1), (Reg.PCI_EVENT, 0), (Reg.PCI_FAULT_INFO, 0), (Reg.PCI_FLR_CNT, 3), (Reg.PCI_LINK_DOWN_CNT, 3), (Reg.PCI_RETRAIN_CNT, 3), (Reg.PCI_LINK_CFG, 5), (Reg.PCI_BAR2_SIZE, 0), (Reg.PCI_BAR2_WIN_LO, 0), (Reg.PCI_BAR2_WIN_HI, 0), (Reg.PWR_STATUS, 0), (Reg.PWR_WAKE_EN, 4), (Reg.DMC_RGN_CFG 0 0, 65536 + 8192), (Reg.DMC_RGN_BASE 0 0, 0), (Reg.PCI_AER_NONFATAL_CNT, 0), (Reg.PCI_AER_CORR_CNT, 0), (Reg.PCI_REPLAY_CNT, 0)] (fun d => (id) { d with pci := { d.pci with cfg := [(4, 6)] } })), by decide +kernel⟩,
   ⟨(ws [(Reg.PCI_STATUS, 2049), (Reg.PCI_EVENT, 0), (Reg.PCI_FAULT_INFO, 0), (Reg.PCI_FLR_CNT, 3), (Reg.PCI_LINK_DOWN_CNT, 3), (Reg.PCI_RETRAIN_CNT, 3), (Reg.PCI_LINK_CFG, 5), (Reg.PCI_BAR2_SIZE, 0), (Reg.PCI_BAR2_WIN_LO, 0), (Reg.PCI_BAR2_WIN_HI, 0), (Reg.PWR_STATUS, 0), (Reg.PWR_WAKE_EN, 4), (Reg.DMC_RGN_CFG 0 0, 65536 + 8192), (Reg.DMC_RGN_BASE 0 0, 0), (Reg.PCI_AER_NONFATAL_CNT, 0), (Reg.PCI_AER_CORR_CNT, 0), (Reg.PCI_REPLAY_CNT, 0)] (fun d => (id) { d with pci := { d.pci with cfg := [(4, 6)] } })), by decide +kernel⟩,
   ⟨(ws [(Reg.PCI_STATUS, 2049), (Reg.PCI_EVENT, 0), (Reg.PCI_FAULT_INFO, 0), (Reg.PCI_FLR_CNT, 3), (Reg.PCI_LINK_DOWN_CNT, 3), (Reg.PCI_RETRAIN_CNT, 3), (Reg.PCI_LINK_CFG, 5), (Reg.PCI_BAR2_SIZE, 0), (Reg.PCI_BAR2_WIN_LO, 0), (Reg.PCI_BAR2_WIN_HI, 0), (Reg.PWR_STATUS, 0), (Reg.PWR_WAKE_EN, 4), (Reg.DMC_RGN_CFG 0 0, 65536 + 8192), (Reg.DMC_RGN_BASE 0 0, 0), (Reg.PCI_AER_NONFATAL_CNT, 0), (Reg.PCI_AER_CORR_CNT, 0), (Reg.PCI_REPLAY_CNT, 0)] (fun d => (id) { d with pci := { d.pci with cfg := [(4, 6)] } })), 16, (0xFC000000), by decide +kernel⟩,
   ⟨(ws [(Reg.PCI_STATUS, 2049), (Reg.PCI_EVENT, 0), (Reg.PCI_FAULT_INFO, 0), (Reg.PCI_FLR_CNT, 3), (Reg.PCI_LINK_DOWN_CNT, 3), (Reg.PCI_RETRAIN_CNT, 3), (Reg.PCI_LINK_CFG, 5), (Reg.PCI_BAR2_SIZE, 0), (Reg.PCI_BAR2_WIN_LO, 0), (Reg.PCI_BAR2_WIN_HI, 0), (Reg.PWR_STATUS, 0), (Reg.PWR_WAKE_EN, 4), (Reg.DMC_RGN_CFG 0 0, 65536 + 8192), (Reg.DMC_RGN_BASE 0 0, 0), (Reg.PCI_AER_NONFATAL_CNT, 0), (Reg.PCI_AER_CORR_CNT, 0), (Reg.PCI_REPLAY_CNT, 0)] (fun d => (id) { d with pci := { d.pci with cfg := [(4, 6)] } })), by decide +kernel⟩,
   ⟨(ws [(Reg.PCI_STATUS, 0), (Reg.PCI_EVENT, 0), (Reg.PCI_FAULT_INFO, 0), (Reg.PCI_FLR_CNT, 3), (Reg.PCI_LINK_DOWN_CNT, 3), (Reg.PCI_RETRAIN_CNT, 3), (Reg.PCI_LINK_CFG, 5), (Reg.PCI_BAR2_SIZE, 0), (Reg.PCI_BAR2_WIN_LO, 0), (Reg.PCI_BAR2_WIN_HI, 0), (Reg.PWR_STATUS, 0), (Reg.PWR_WAKE_EN, 4), (Reg.DMC_RGN_CFG 0 0, 65536 + 8192), (Reg.DMC_RGN_BASE 0 0, 0), (Reg.PCI_AER_NONFATAL_CNT, 0), (Reg.PCI_AER_CORR_CNT, 0), (Reg.PCI_REPLAY_CNT, 0)] (fun d => (id) { d with pci := { d.pci with cfg := [(4, 6)] } })), by decide +kernel⟩,
   ⟨(ws [(Reg.PCI_STATUS, 2049), (Reg.PCI_EVENT, 0), (Reg.PCI_FAULT_INFO, 0), (Reg.PCI_FLR_CNT, 3), (Reg.PCI_LINK_DOWN_CNT, 3), (Reg.PCI_RETRAIN_CNT, 3), (Reg.PCI_LINK_CFG, 5), (Reg.PCI_BAR2_SIZE, 0), (Reg.PCI_BAR2_WIN_LO, 0), (Reg.PCI_BAR2_WIN_HI, 0), (Reg.PWR_STATUS, 0), (Reg.PWR_WAKE_EN, 4), (Reg.DMC_RGN_CFG 0 0, 65536 + 8192), (Reg.DMC_RGN_BASE 0 0, 0), (Reg.PCI_AER_NONFATAL_CNT, 0), (Reg.PCI_AER_CORR_CNT, 0), (Reg.PCI_REPLAY_CNT, 0)] (fun d => (id) { d with pci := { d.pci with cfg := [(4, 6), (0x44, 3)] } })), by decide +kernel⟩,
   ⟨(ws [(Reg.PCI_STATUS, 0), (Reg.PCI_EVENT, 0), (Reg.PCI_FAULT_INFO, 0), (Reg.PCI_FLR_CNT, 3), (Reg.PCI_LINK_DOWN_CNT, 3), (Reg.PCI_RETRAIN_CNT, 3), (Reg.PCI_LINK_CFG, 5), (Reg.PCI_BAR2_SIZE, 0), (Reg.PCI_BAR2_WIN_LO, 0), (Reg.PCI_BAR2_WIN_HI, 0), (Reg.PWR_STATUS, 0), (Reg.PWR_WAKE_EN, 4), (Reg.DMC_RGN_CFG 0 0, 65536 + 8192), (Reg.DMC_RGN_BASE 0 0, 0), (Reg.PCI_AER_NONFATAL_CNT, 0), (Reg.PCI_AER_CORR_CNT, 0), (Reg.PCI_REPLAY_CNT, 0)] (fun d => (id) { d with pci := { d.pci with cfg := [(4, 6)] } })), by decide +kernel⟩,
   ⟨(ws (wreach ++ [(Reg.PCI_STATUS, 2049), (Reg.PCI_EVENT, 0), (Reg.PCI_FAULT_INFO, 0), (Reg.PCI_FLR_CNT, 3), (Reg.PCI_LINK_DOWN_CNT, 3), (Reg.PCI_RETRAIN_CNT, 3), (Reg.PCI_LINK_CFG, 5), (Reg.PCI_BAR2_SIZE, 0), (Reg.PCI_BAR2_WIN_LO, 0), (Reg.PCI_BAR2_WIN_HI, 0), (Reg.PWR_STATUS, 0), (Reg.PWR_WAKE_EN, 4), (Reg.PCI_AER_NONFATAL_CNT, 0), (Reg.PCI_AER_CORR_CNT, 0), (Reg.PCI_REPLAY_CNT, 0)]) (fun d => (id) { d with pci := { d.pci with cfg := [(4, 6)] } })), 0, 4, 0, by decide +kernel⟩,
   ⟨(ws (wreach ++ [(Reg.PCI_STATUS, 2049), (Reg.PCI_EVENT, 0), (Reg.PCI_FAULT_INFO, 0), (Reg.PCI_FLR_CNT, 3), (Reg.PCI_LINK_DOWN_CNT, 3), (Reg.PCI_RETRAIN_CNT, 3), (Reg.PCI_LINK_CFG, 5), (Reg.PCI_BAR2_SIZE, 0), (Reg.PCI_BAR2_WIN_LO, 0), (Reg.PCI_BAR2_WIN_HI, 0), (Reg.PWR_STATUS, 0), (Reg.PWR_WAKE_EN, 4), (Reg.PCI_AER_NONFATAL_CNT, 0), (Reg.PCI_AER_CORR_CNT, 0), (Reg.PCI_REPLAY_CNT, 0)]) (fun d => (id) { d with pci := { d.pci with cfg := [(4, 6)] } })), 0, 4, 0, by decide +kernel⟩,
   ⟨(ws [(Reg.PCI_STATUS, 2049), (Reg.PCI_EVENT, 0), (Reg.PCI_FAULT_INFO, 0), (Reg.PCI_FLR_CNT, 3), (Reg.PCI_LINK_DOWN_CNT, 3), (Reg.PCI_RETRAIN_CNT, 3), (Reg.PCI_LINK_CFG, 5), (Reg.PCI_BAR2_SIZE, 0), (Reg.PCI_BAR2_WIN_LO, 0), (Reg.PCI_BAR2_WIN_HI, 0), (Reg.PWR_STATUS, 0), (Reg.PWR_WAKE_EN, 4), (Reg.DMC_RGN_CFG 0 0, 65536 + 8192), (Reg.DMC_RGN_BASE 0 0, 0), (Reg.PCI_AER_NONFATAL_CNT, 0), (Reg.PCI_AER_CORR_CNT, 0), (Reg.PCI_REPLAY_CNT, 0)] (fun d => (id) { d with pci := { d.pci with cfg := [(4, 6)] } })), 0, 4, 0, by decide +kernel⟩,
   ⟨(ws (wreach ++ [(Reg.PCI_STATUS, 2049), (Reg.PCI_EVENT, 0), (Reg.PCI_FAULT_INFO, 0), (Reg.PCI_FLR_CNT, 3), (Reg.PCI_LINK_DOWN_CNT, 3), (Reg.PCI_RETRAIN_CNT, 3), (Reg.PCI_LINK_CFG, 5), (Reg.PCI_BAR2_SIZE, 0), (Reg.PCI_BAR2_WIN_LO, 0), (Reg.PCI_BAR2_WIN_HI, 0), (Reg.PWR_STATUS, 0), (Reg.PWR_WAKE_EN, 4), (Reg.PCI_AER_NONFATAL_CNT, 0), (Reg.PCI_AER_CORR_CNT, 0), (Reg.PCI_REPLAY_CNT, 0)]) (fun d => (id) { d with pci := { d.pci with cfg := [(4, 6)] } })), 0, [5], 0, by decide +kernel⟩,
   ⟨(ws [(Reg.PCI_STATUS, 2049), (Reg.PCI_EVENT, 0), (Reg.PCI_FAULT_INFO, 0), (Reg.PCI_FLR_CNT, 3), (Reg.PCI_LINK_DOWN_CNT, 3), (Reg.PCI_RETRAIN_CNT, 3), (Reg.PCI_LINK_CFG, 5), (Reg.PCI_BAR2_SIZE, 0), (Reg.PCI_BAR2_WIN_LO, 0), (Reg.PCI_BAR2_WIN_HI, 0), (Reg.PWR_STATUS, 0), (Reg.PWR_WAKE_EN, 4), (Reg.DMC_RGN_CFG 0 0, 65536 + 8192), (Reg.DMC_RGN_BASE 0 0, 0), (Reg.PCI_AER_NONFATAL_CNT, 0), (Reg.PCI_AER_CORR_CNT, 0), (Reg.PCI_REPLAY_CNT, 0)] (fun d => (id) { d with pci := { d.pci with cfg := [(4, 6)] } })), 0, [5], 0, (.poisoned), by decide +kernel⟩,
   ⟨(ws [(Reg.PCI_STATUS, 1), (Reg.PCI_EVENT, 0), (Reg.PCI_FAULT_INFO, 0), (Reg.PCI_FLR_CNT, 3), (Reg.PCI_LINK_DOWN_CNT, 3), (Reg.PCI_RETRAIN_CNT, 3), (Reg.PCI_LINK_CFG, 5), (Reg.PCI_BAR2_SIZE, 0), (Reg.PCI_BAR2_WIN_LO, 0), (Reg.PCI_BAR2_WIN_HI, 0), (Reg.PWR_STATUS, 0), (Reg.PWR_WAKE_EN, 4), (Reg.DMC_RGN_CFG 0 0, 65536 + 8192), (Reg.DMC_RGN_BASE 0 0, 0), (Reg.PCI_AER_NONFATAL_CNT, 0), (Reg.PCI_AER_CORR_CNT, 0), (Reg.PCI_REPLAY_CNT, 0)] (fun d => (id) { d with pci := { d.pci with cfg := [] } })), by decide +kernel⟩,
   ⟨(ws [(Reg.PCI_STATUS, 2049), (Reg.PCI_EVENT, 0), (Reg.PCI_FAULT_INFO, 0), (Reg.PCI_FLR_CNT, 3), (Reg.PCI_LINK_DOWN_CNT, 3), (Reg.PCI_RETRAIN_CNT, 3), (Reg.PCI_LINK_CFG, 5), (Reg.PCI_BAR2_SIZE, 0), (Reg.PCI_BAR2_WIN_LO, 0), (Reg.PCI_BAR2_WIN_HI, 0), (Reg.PWR_STATUS, 0), (Reg.PWR_WAKE_EN, 4), (Reg.DMC_RGN_CFG 0 0, 65536 + 8192), (Reg.DMC_RGN_BASE 0 0, 0), (Reg.PCI_AER_NONFATAL_CNT, 0), (Reg.PCI_AER_CORR_CNT, 0), (Reg.PCI_REPLAY_CNT, 0)] (fun d => (id) { d with pci := { d.pci with cfg := [(4, 6)] } })), by decide +kernel⟩,
   ⟨(ws [(Reg.PCI_STATUS, 0), (Reg.PCI_EVENT, 0), (Reg.PCI_FAULT_INFO, 0), (Reg.PCI_FLR_CNT, 3), (Reg.PCI_LINK_DOWN_CNT, 3), (Reg.PCI_RETRAIN_CNT, 3), (Reg.PCI_LINK_CFG, 5), (Reg.PCI_BAR2_SIZE, 0), (Reg.PCI_BAR2_WIN_LO, 0), (Reg.PCI_BAR2_WIN_HI, 0), (Reg.PWR_STATUS, 0), (Reg.PWR_WAKE_EN, 4), (Reg.DMC_RGN_CFG 0 0, 65536 + 8192), (Reg.DMC_RGN_BASE 0 0, 0), (Reg.PCI_AER_NONFATAL_CNT, 0), (Reg.PCI_AER_CORR_CNT, 0), (Reg.PCI_REPLAY_CNT, 0)] (fun d => (id) { d with pci := { d.pci with cfg := [(4, 6)] } })), by decide +kernel⟩,
   ⟨(ws [(Reg.PCI_STATUS, 0), (Reg.PCI_EVENT, 0), (Reg.PCI_FAULT_INFO, 0), (Reg.PCI_FLR_CNT, 3), (Reg.PCI_LINK_DOWN_CNT, 3), (Reg.PCI_RETRAIN_CNT, 3), (Reg.PCI_LINK_CFG, 5), (Reg.PCI_BAR2_SIZE, 0), (Reg.PCI_BAR2_WIN_LO, 0), (Reg.PCI_BAR2_WIN_HI, 0), (Reg.PWR_STATUS, 0), (Reg.PWR_WAKE_EN, 4), (Reg.DMC_RGN_CFG 0 0, 65536 + 8192), (Reg.DMC_RGN_BASE 0 0, 0), (Reg.PCI_AER_NONFATAL_CNT, 0), (Reg.PCI_AER_CORR_CNT, 0), (Reg.PCI_REPLAY_CNT, 0)] (fun d => (fun d => { d with pins := { d.pins with perst := true } }) { d with pci := { d.pci with cfg := [(4, 6)] } })), (4), (16), by decide +kernel⟩,
   ⟨(ws [(Reg.PCI_STATUS, 0), (Reg.PCI_EVENT, 0), (Reg.PCI_FAULT_INFO, 0), (Reg.PCI_FLR_CNT, 3), (Reg.PCI_LINK_DOWN_CNT, 3), (Reg.PCI_RETRAIN_CNT, 3), (Reg.PCI_LINK_CFG, 5), (Reg.PCI_BAR2_SIZE, 0), (Reg.PCI_BAR2_WIN_LO, 0), (Reg.PCI_BAR2_WIN_HI, 0), (Reg.PWR_STATUS, 0), (Reg.PWR_WAKE_EN, 4), (Reg.DMC_RGN_CFG 0 0, 65536 + 8192), (Reg.DMC_RGN_BASE 0 0, 0), (Reg.PCI_AER_NONFATAL_CNT, 0), (Reg.PCI_AER_CORR_CNT, 0), (Reg.PCI_REPLAY_CNT, 0)] (fun d => (id) { d with pci := { d.pci with cfg := [(4, 6)] } })), (4), (16), by decide +kernel⟩,
   ⟨(ws [(Reg.PCI_STATUS, 2049), (Reg.PCI_EVENT, 0), (Reg.PCI_FAULT_INFO, 0), (Reg.PCI_FLR_CNT, 3), (Reg.PCI_LINK_DOWN_CNT, 3), (Reg.PCI_RETRAIN_CNT, 3), (Reg.PCI_LINK_CFG, 5), (Reg.PCI_BAR2_SIZE, 0), (Reg.PCI_BAR2_WIN_LO, 0), (Reg.PCI_BAR2_WIN_HI, 0), (Reg.PWR_STATUS, 0), (Reg.PWR_WAKE_EN, 4), (Reg.DMC_RGN_CFG 0 0, 65536 + 8192), (Reg.DMC_RGN_BASE 0 0, 0), (Reg.PCI_AER_NONFATAL_CNT, 0), (Reg.PCI_AER_CORR_CNT, 0), (Reg.PCI_REPLAY_CNT, 0)] (fun d => (id) { d with pci := { d.pci with cfg := [(4, 6)] } })), by decide +kernel⟩,
   ⟨(ws [(Reg.PCI_STATUS, 0), (Reg.PCI_EVENT, 0), (Reg.PCI_FAULT_INFO, 0), (Reg.PCI_FLR_CNT, 3), (Reg.PCI_LINK_DOWN_CNT, 3), (Reg.PCI_RETRAIN_CNT, 3), (Reg.PCI_LINK_CFG, 5), (Reg.PCI_BAR2_SIZE, 0), (Reg.PCI_BAR2_WIN_LO, 0), (Reg.PCI_BAR2_WIN_HI, 0), (Reg.PWR_STATUS, 0), (Reg.PWR_WAKE_EN, 4), (Reg.DMC_RGN_CFG 0 0, 65536 + 8192), (Reg.DMC_RGN_BASE 0 0, 0), (Reg.PCI_AER_NONFATAL_CNT, 0), (Reg.PCI_AER_CORR_CNT, 0), (Reg.PCI_REPLAY_CNT, 0)] (fun d => (id) { d with pci := { d.pci with cfg := [(4, 6)] } })), by decide +kernel⟩,
   ⟨(ws [(Reg.PCI_STATUS, 2049), (Reg.PCI_EVENT, 0), (Reg.PCI_FAULT_INFO, 0), (Reg.PCI_FLR_CNT, 3), (Reg.PCI_LINK_DOWN_CNT, 3), (Reg.PCI_RETRAIN_CNT, 3), (Reg.PCI_LINK_CFG, 5), (Reg.PCI_BAR2_SIZE, 0), (Reg.PCI_BAR2_WIN_LO, 0), (Reg.PCI_BAR2_WIN_HI, 0), (Reg.PWR_STATUS, 0), (Reg.PWR_WAKE_EN, 4), (Reg.DMC_RGN_CFG 0 0, 65536 + 8192), (Reg.DMC_RGN_BASE 0 0, 0), (Reg.PCI_AER_NONFATAL_CNT, 0), (Reg.PCI_AER_CORR_CNT, 0), (Reg.PCI_REPLAY_CNT, 0)] (fun d => (id) { d with pci := { d.pci with cfg := [(4, 6), (0x60, 2)] } })), by decide +kernel, by decide +kernel, by decide +kernel, by decide +kernel, fun p hp => by cases hp⟩,
   ⟨(ws [(Reg.PCI_STATUS, 0), (Reg.PCI_EVENT, 0), (Reg.PCI_FAULT_INFO, 0), (Reg.PCI_FLR_CNT, 3), (Reg.PCI_LINK_DOWN_CNT, 3), (Reg.PCI_RETRAIN_CNT, 3), (Reg.PCI_LINK_CFG, 5), (Reg.PCI_BAR2_SIZE, 0), (Reg.PCI_BAR2_WIN_LO, 0), (Reg.PCI_BAR2_WIN_HI, 0), (Reg.PWR_STATUS, 0), (Reg.PWR_WAKE_EN, 4), (Reg.DMC_RGN_CFG 0 0, 65536 + 8192), (Reg.DMC_RGN_BASE 0 0, 0), (Reg.PCI_AER_NONFATAL_CNT, 0), (Reg.PCI_AER_CORR_CNT, 0), (Reg.PCI_REPLAY_CNT, 0)] (fun d => (id) { d with pci := { d.pci with cfg := [(4, 6)] } })), by decide +kernel⟩,
   ⟨(ws [(Reg.PCI_STATUS, 2049), (Reg.PCI_EVENT, 0), (Reg.PCI_FAULT_INFO, 0), (Reg.PCI_FLR_CNT, 3), (Reg.PCI_LINK_DOWN_CNT, 3), (Reg.PCI_RETRAIN_CNT, 3), (Reg.PCI_LINK_CFG, 5), (Reg.PCI_BAR2_SIZE, 0), (Reg.PCI_BAR2_WIN_LO, 0), (Reg.PCI_BAR2_WIN_HI, 0), (Reg.PWR_STATUS, 2), (Reg.PWR_WAKE_EN, 4), (Reg.DMC_RGN_CFG 0 0, 65536 + 8192), (Reg.DMC_RGN_BASE 0 0, 0), (Reg.PCI_AER_NONFATAL_CNT, 0), (Reg.PCI_AER_CORR_CNT, 0), (Reg.PCI_REPLAY_CNT, 0)] (fun d => (id) { d with pci := { d.pci with cfg := [(4, 6)] } })), 1, by decide +kernel⟩,
   ⟨(ws [(Reg.PCI_STATUS, 2049), (Reg.PCI_EVENT, 0), (Reg.PCI_FAULT_INFO, 0), (Reg.PCI_FLR_CNT, 3), (Reg.PCI_LINK_DOWN_CNT, 3), (Reg.PCI_RETRAIN_CNT, 3), (Reg.PCI_LINK_CFG, 5), (Reg.PCI_BAR2_SIZE, 0), (Reg.PCI_BAR2_WIN_LO, 0), (Reg.PCI_BAR2_WIN_HI, 0), (Reg.PWR_STATUS, 0), (Reg.PWR_WAKE_EN, 4), (Reg.DMC_RGN_CFG 0 0, 65536 + 8192), (Reg.DMC_RGN_BASE 0 0, 0), (Reg.PCI_AER_NONFATAL_CNT, 0), (Reg.PCI_AER_CORR_CNT, 0), (Reg.PCI_REPLAY_CNT, 0)] (fun d => (id) { d with pci := { d.pci with cfg := [(4, 6)] } })), 0, by decide +kernel⟩⟩

theorem witness_RingsRunStopAndSignal :
    (∃ (s : State) (r : Fin 12) (v : Word), inReset s.dev = false ∧ barReached s.dev = true ∧ tst s.dev (Reg.PCI_RING_CFG r) 0 = false ∧ 4 ≤ bits
      v.toNat 1 4 ∧ minSlot r ≤ bits v.toNat 5 4 ∧ bits v.toNat 5 4 ≤ 11 ∧ rf s.dev (Reg.PCI_RING_BASE_LO r) 0 12 = 0) ∧
    (∃ (s : State) (r : Fin 12) (v : Word), inReset s.dev = false ∧ barReached s.dev = true ∧ tst s.dev (Reg.PCI_RING_CFG r) 0 = false ∧ (bits v.toNat
      1 4 < 4 ∨ bits v.toNat 5 4 < minSlot r ∨ 11 < bits v.toNat 5 4 ∨ rf s.dev (Reg.PCI_RING_BASE_LO r) 0 12 ≠ 0)) ∧
    (∃ (s : State) (r : Fin 12) (v : Word), inReset s.dev = false ∧ barReached s.dev = true ∧ tst s.dev (Reg.PCI_RING_CFG r) 0 = true ∧ putBits
      v.toNat 0 1 1 % 2 ^ 26 ≠ rdN s.dev (Reg.PCI_RING_CFG r)) ∧
    (∃ (s : State) (r : Fin 12), inReset s.dev = false ∧ barReached s.dev = true ∧ tst s.dev (Reg.PCI_RING_CFG r) 0 = true) ∧
    (∃ (s : State) (r : Fin 12), inReset s.dev = false ∧ barReached s.dev = true ∧ tst s.dev (Reg.PCI_RING_CFG r) 0 = false) ∧
    (∃ (s : State) (r : Fin 12) (be : Fin 16), inReset s.dev = false ∧ barReached s.dev = true ∧ (be ≠ 15 ∨ ringState s.dev r ≠ 1)) ∧
    (∃ (s : State) (r : Fin 12) (v : Word), inReset s.dev = false ∧ barReached s.dev = true ∧ ringState s.dev r = 1 ∧ isD2H r = false ∧ (v.toNat + 2 ^
      32 - rdN s.dev (Reg.PCI_RING_CI r)) % 2 ^ 32 ≤ ringEntries s.dev r) ∧
    (∃ (s : State) (r : Fin 12) (v : Word), inReset s.dev = false ∧ barReached s.dev = true ∧ ringState s.dev r = 1 ∧ isD2H r = true ∧ (v.toNat + 2 ^
      32 - rdN s.dev (Reg.PCI_RING_CI r)) % 2 ^ 32 ≤ ringUsed s.dev r) ∧
    (∃ (s : State) (r : Fin 12) (v : Word), inReset s.dev = false ∧ barReached s.dev = true ∧ ringState s.dev r = 1 ∧ (if isD2H r then ringUsed s.dev
      r else ringEntries s.dev r) < (v.toNat + 2 ^ 32 - rdN s.dev (Reg.PCI_RING_CI r)) % 2 ^ 32) ∧
    (∃ (s : State) (r : Fin 12), inReset s.dev = false ∧ ringState s.dev r = 1) ∧
    (∃ (s : State) (r : Fin 12), inReset s.dev = false ∧ ringState s.dev r ≠ 1) ∧
    (∃ (s : State) (r : Fin 12) (t : Nat), inReset s.dev = false ∧ s.dev.pci.deferred.contains r.val = true ∧ t = mget (fun _ => 0) s.dev.pci.modAt r
      ∧ t + rf s.dev (Reg.PCI_RING_CFG r) 16 10 * 1000 < 2 ^ 64 ∧ msixEnabled s.dev = true ∧ msixFuncMask s.dev = false ∧ vecMasked s.dev (rf s.dev
      (Reg.PCI_RING_CFG r) 9 6) = false ∧ canIssue s.dev = true) ∧
    (∃ (s : State) (r : Fin 12), inReset s.dev = false ∧ s.dev.pci.deferred.contains r.val = false) :=
  ⟨⟨(ws [(Reg.PCI_STATUS, 2049), (Reg.PCI_EVENT, 0), (Reg.PCI_FAULT_INFO, 0), (Reg.PCI_FLR_CNT, 3), (Reg.PCI_LINK_DOWN_CNT, 3), (Reg.PCI_RETRAIN_CNT, 3), (Reg.PCI_LINK_CFG, 5), (Reg.PCI_BAR2_SIZE, 0), (Reg.PCI_BAR2_WIN_LO, 0), (Reg.PCI_BAR2_WIN_HI, 0), (Reg.PWR_STATUS, 0), (Reg.PWR_WAKE_EN, 4), (Reg.DMC_RGN_CFG 0 0, 65536 + 8192), (Reg.DMC_RGN_BASE 0 0, 0), (Reg.PCI_AER_NONFATAL_CNT, 0), (Reg.PCI_AER_CORR_CNT, 0), (Reg.PCI_REPLAY_CNT, 0), (Reg.PCI_RING_CFG 4, 0), (Reg.PCI_RING_STATE 4, 0), (Reg.PCI_RING_PI 4, 5), (Reg.PCI_RING_CI 4, 3), (Reg.PCI_RING_BASE_LO 4, 4096)] (fun d => (id) { d with pci := { d.pci with cfg := [(4, 6)] } })), 4, 4 * 2 + 11 * 32, by decide +kernel⟩,
   ⟨(ws [(Reg.PCI_STATUS, 2049), (Reg.PCI_EVENT, 0), (Reg.PCI_FAULT_INFO, 0), (Reg.PCI_FLR_CNT, 3), (Reg.PCI_LINK_DOWN_CNT, 3), (Reg.PCI_RETRAIN_CNT, 3), (Reg.PCI_LINK_CFG, 5), (Reg.PCI_BAR2_SIZE, 0), (Reg.PCI_BAR2_WIN_LO, 0), (Reg.PCI_BAR2_WIN_HI, 0), (Reg.PWR_STATUS, 0), (Reg.PWR_WAKE_EN, 4), (Reg.DMC_RGN_CFG 0 0, 65536 + 8192), (Reg.DMC_RGN_BASE 0 0, 0), (Reg.PCI_AER_NONFATAL_CNT, 0), (Reg.PCI_AER_CORR_CNT, 0), (Reg.PCI_REPLAY_CNT, 0), (Reg.PCI_RING_CFG 4, 0), (Reg.PCI_RING_STATE 4, 0), (Reg.PCI_RING_PI 4, 5), (Reg.PCI_RING_CI 4, 3), (Reg.PCI_RING_BASE_LO 4, 4096)] (fun d => (id) { d with pci := { d.pci with cfg := [(4, 6)] } })), 4, 0, by decide +kernel⟩,
   ⟨(ws [(Reg.PCI_STATUS, 2049), (Reg.PCI_EVENT, 0), (Reg.PCI_FAULT_INFO, 0), (Reg.PCI_FLR_CNT, 3), (Reg.PCI_LINK_DOWN_CNT, 3), (Reg.PCI_RETRAIN_CNT, 3), (Reg.PCI_LINK_CFG, 5), (Reg.PCI_BAR2_SIZE, 0), (Reg.PCI_BAR2_WIN_LO, 0), (Reg.PCI_BAR2_WIN_HI, 0), (Reg.PWR_STATUS, 0), (Reg.PWR_WAKE_EN, 4), (Reg.DMC_RGN_CFG 0 0, 65536 + 8192), (Reg.DMC_RGN_BASE 0 0, 0), (Reg.PCI_AER_NONFATAL_CNT, 0), (Reg.PCI_AER_CORR_CNT, 0), (Reg.PCI_REPLAY_CNT, 0), (Reg.PCI_RING_CFG 4, 361), (Reg.PCI_RING_STATE 4, 1), (Reg.PCI_RING_PI 4, 5), (Reg.PCI_RING_CI 4, 3), (Reg.PCI_RING_BASE_LO 4, 4096)] (fun d => (id) { d with pci := { d.pci with cfg := [(4, 6)] } })), 4, 0, by decide +kernel⟩,
   ⟨(ws [(Reg.PCI_STATUS, 2049), (Reg.PCI_EVENT, 0), (Reg.PCI_FAULT_INFO, 0), (Reg.PCI_FLR_CNT, 3), (Reg.PCI_LINK_DOWN_CNT, 3), (Reg.PCI_RETRAIN_CNT, 3), (Reg.PCI_LINK_CFG, 5), (Reg.PCI_BAR2_SIZE, 0), (Reg.PCI_BAR2_WIN_LO, 0), (Reg.PCI_BAR2_WIN_HI, 0), (Reg.PWR_STATUS, 0), (Reg.PWR_WAKE_EN, 4), (Reg.DMC_RGN_CFG 0 0, 65536 + 8192), (Reg.DMC_RGN_BASE 0 0, 0), (Reg.PCI_AER_NONFATAL_CNT, 0), (Reg.PCI_AER_CORR_CNT, 0), (Reg.PCI_REPLAY_CNT, 0), (Reg.PCI_RING_CFG 4, 361), (Reg.PCI_RING_STATE 4, 1), (Reg.PCI_RING_PI 4, 5), (Reg.PCI_RING_CI 4, 3), (Reg.PCI_RING_BASE_LO 4, 4096)] (fun d => (id) { d with pci := { d.pci with cfg := [(4, 6)] } })), 4, by decide +kernel⟩,
   ⟨(ws [(Reg.PCI_STATUS, 2049), (Reg.PCI_EVENT, 0), (Reg.PCI_FAULT_INFO, 0), (Reg.PCI_FLR_CNT, 3), (Reg.PCI_LINK_DOWN_CNT, 3), (Reg.PCI_RETRAIN_CNT, 3), (Reg.PCI_LINK_CFG, 5), (Reg.PCI_BAR2_SIZE, 0), (Reg.PCI_BAR2_WIN_LO, 0), (Reg.PCI_BAR2_WIN_HI, 0), (Reg.PWR_STATUS, 0), (Reg.PWR_WAKE_EN, 4), (Reg.DMC_RGN_CFG 0 0, 65536 + 8192), (Reg.DMC_RGN_BASE 0 0, 0), (Reg.PCI_AER_NONFATAL_CNT, 0), (Reg.PCI_AER_CORR_CNT, 0), (Reg.PCI_REPLAY_CNT, 0), (Reg.PCI_RING_CFG 4, 360), (Reg.PCI_RING_STATE 4, 0), (Reg.PCI_RING_PI 4, 5), (Reg.PCI_RING_CI 4, 3), (Reg.PCI_RING_BASE_LO 4, 4096)] (fun d => (id) { d with pci := { d.pci with cfg := [(4, 6)] } })), 4, by decide +kernel⟩,
   ⟨(ws [(Reg.PCI_STATUS, 2049), (Reg.PCI_EVENT, 0), (Reg.PCI_FAULT_INFO, 0), (Reg.PCI_FLR_CNT, 3), (Reg.PCI_LINK_DOWN_CNT, 3), (Reg.PCI_RETRAIN_CNT, 3), (Reg.PCI_LINK_CFG, 5), (Reg.PCI_BAR2_SIZE, 0), (Reg.PCI_BAR2_WIN_LO, 0), (Reg.PCI_BAR2_WIN_HI, 0), (Reg.PWR_STATUS, 0), (Reg.PWR_WAKE_EN, 4), (Reg.DMC_RGN_CFG 0 0, 65536 + 8192), (Reg.DMC_RGN_BASE 0 0, 0), (Reg.PCI_AER_NONFATAL_CNT, 0), (Reg.PCI_AER_CORR_CNT, 0), (Reg.PCI_REPLAY_CNT, 0), (Reg.PCI_RING_CFG 4, 361), (Reg.PCI_RING_STATE 4, 1), (Reg.PCI_RING_PI 4, 5), (Reg.PCI_RING_CI 4, 3), (Reg.PCI_RING_BASE_LO 4, 4096)] (fun d => (id) { d with pci := { d.pci with cfg := [(4, 6)] } })), 4, (3), by decide +kernel⟩,
   ⟨(ws [(Reg.PCI_STATUS, 2049), (Reg.PCI_EVENT, 0), (Reg.PCI_FAULT_INFO, 0), (Reg.PCI_FLR_CNT, 3), (Reg.PCI_LINK_DOWN_CNT, 3), (Reg.PCI_RETRAIN_CNT, 3), (Reg.PCI_LINK_CFG, 5), (Reg.PCI_BAR2_SIZE, 0), (Reg.PCI_BAR2_WIN_LO, 0), (Reg.PCI_BAR2_WIN_HI, 0), (Reg.PWR_STATUS, 0), (Reg.PWR_WAKE_EN, 4), (Reg.DMC_RGN_CFG 0 0, 65536 + 8192), (Reg.DMC_RGN_BASE 0 0, 0), (Reg.PCI_AER_NONFATAL_CNT, 0), (Reg.PCI_AER_CORR_CNT, 0), (Reg.PCI_REPLAY_CNT, 0), (Reg.PCI_RING_CFG 4, 361), (Reg.PCI_RING_STATE 4, 1), (Reg.PCI_RING_PI 4, 5), (Reg.PCI_RING_CI 4, 3), (Reg.PCI_RING_BASE_LO 4, 4096)] (fun d => (id) { d with pci := { d.pci with cfg := [(4, 6)] } })), 4, 19, by decide +kernel⟩,
   ⟨(ws [(Reg.PCI_STATUS, 2049), (Reg.PCI_EVENT, 0), (Reg.PCI_FAULT_INFO, 0), (Reg.PCI_FLR_CNT, 3), (Reg.PCI_LINK_DOWN_CNT, 3), (Reg.PCI_RETRAIN_CNT, 3), (Reg.PCI_LINK_CFG, 5), (Reg.PCI_BAR2_SIZE, 0), (Reg.PCI_BAR2_WIN_LO, 0), (Reg.PCI_BAR2_WIN_HI, 0), (Reg.PWR_STATUS, 0), (Reg.PWR_WAKE_EN, 4), (Reg.DMC_RGN_CFG 0 0, 65536 + 8192), (Reg.DMC_RGN_BASE 0 0, 0), (Reg.PCI_AER_NONFATAL_CNT, 0), (Reg.PCI_AER_CORR_CNT, 0), (Reg.PCI_REPLAY_CNT, 0), (Reg.PCI_RING_CFG 0, 361), (Reg.PCI_RING_STATE 0, 1), (Reg.PCI_RING_PI 0, 5), (Reg.PCI_RING_CI 0, 3), (Reg.PCI_RING_BASE_LO 0, 4096)] (fun d => (id) { d with pci := { d.pci with cfg := [(4, 6)] } })), 0, 5, by decide +kernel⟩,
   ⟨(ws [(Reg.PCI_STATUS, 2049), (Reg.PCI_EVENT, 0), (Reg.PCI_FAULT_INFO, 0), (Reg.PCI_FLR_CNT, 3), (Reg.PCI_LINK_DOWN_CNT, 3), (Reg.PCI_RETRAIN_CNT, 3), (Reg.PCI_LINK_CFG, 5), (Reg.PCI_BAR2_SIZE, 0), (Reg.PCI_BAR2_WIN_LO, 0), (Reg.PCI_BAR2_WIN_HI, 0), (Reg.PWR_STATUS, 0), (Reg.PWR_WAKE_EN, 4), (Reg.DMC_RGN_CFG 0 0, 65536 + 8192), (Reg.DMC_RGN_BASE 0 0, 0), (Reg.PCI_AER_NONFATAL_CNT, 0), (Reg.PCI_AER_CORR_CNT, 0), (Reg.PCI_REPLAY_CNT, 0), (Reg.PCI_RING_CFG 4, 361), (Reg.PCI_RING_STATE 4, 1), (Reg.PCI_RING_PI 4, 5), (Reg.PCI_RING_CI 4, 3), (Reg.PCI_RING_BASE_LO 4, 4096)] (fun d => (id) { d with pci := { d.pci with cfg := [(4, 6)] } })), 4, 20, by decide +kernel⟩,
   ⟨(ws [(Reg.PCI_STATUS, 2049), (Reg.PCI_EVENT, 0), (Reg.PCI_FAULT_INFO, 0), (Reg.PCI_FLR_CNT, 3), (Reg.PCI_LINK_DOWN_CNT, 3), (Reg.PCI_RETRAIN_CNT, 3), (Reg.PCI_LINK_CFG, 5), (Reg.PCI_BAR2_SIZE, 0), (Reg.PCI_BAR2_WIN_LO, 0), (Reg.PCI_BAR2_WIN_HI, 0), (Reg.PWR_STATUS, 0), (Reg.PWR_WAKE_EN, 4), (Reg.DMC_RGN_CFG 0 0, 65536 + 8192), (Reg.DMC_RGN_BASE 0 0, 0), (Reg.PCI_AER_NONFATAL_CNT, 0), (Reg.PCI_AER_CORR_CNT, 0), (Reg.PCI_REPLAY_CNT, 0), (Reg.PCI_RING_CFG 4, 361), (Reg.PCI_RING_STATE 4, 1), (Reg.PCI_RING_PI 4, 5), (Reg.PCI_RING_CI 4, 3), (Reg.PCI_RING_BASE_LO 4, 4096)] (fun d => (id) { d with pci := { d.pci with cfg := [(4, 6)] } })), 4, by decide +kernel⟩,
   ⟨(ws [(Reg.PCI_STATUS, 2049), (Reg.PCI_EVENT, 0), (Reg.PCI_FAULT_INFO, 0), (Reg.PCI_FLR_CNT, 3), (Reg.PCI_LINK_DOWN_CNT, 3), (Reg.PCI_RETRAIN_CNT, 3), (Reg.PCI_LINK_CFG, 5), (Reg.PCI_BAR2_SIZE, 0), (Reg.PCI_BAR2_WIN_LO, 0), (Reg.PCI_BAR2_WIN_HI, 0), (Reg.PWR_STATUS, 0), (Reg.PWR_WAKE_EN, 4), (Reg.DMC_RGN_CFG 0 0, 65536 + 8192), (Reg.DMC_RGN_BASE 0 0, 0), (Reg.PCI_AER_NONFATAL_CNT, 0), (Reg.PCI_AER_CORR_CNT, 0), (Reg.PCI_REPLAY_CNT, 0), (Reg.PCI_RING_CFG 4, 361), (Reg.PCI_RING_STATE 4, 0), (Reg.PCI_RING_PI 4, 5), (Reg.PCI_RING_CI 4, 3), (Reg.PCI_RING_BASE_LO 4, 4096)] (fun d => (id) { d with pci := { d.pci with cfg := [(4, 6)] } })), 4, by decide +kernel⟩,
   ⟨(ws [(Reg.PCI_STATUS, 2049), (Reg.PCI_EVENT, 0), (Reg.PCI_FAULT_INFO, 0), (Reg.PCI_FLR_CNT, 3), (Reg.PCI_LINK_DOWN_CNT, 3), (Reg.PCI_RETRAIN_CNT, 3), (Reg.PCI_LINK_CFG, 5), (Reg.PCI_BAR2_SIZE, 0), (Reg.PCI_BAR2_WIN_LO, 0), (Reg.PCI_BAR2_WIN_HI, 0), (Reg.PWR_STATUS, 0), (Reg.PWR_WAKE_EN, 4), (Reg.DMC_RGN_CFG 0 0, 65536 + 8192), (Reg.DMC_RGN_BASE 0 0, 0), (Reg.PCI_AER_NONFATAL_CNT, 0), (Reg.PCI_AER_CORR_CNT, 0), (Reg.PCI_REPLAY_CNT, 0), (Reg.PCI_RING_CFG 4, 655721), (Reg.PCI_RING_STATE 4, 1), (Reg.PCI_RING_PI 4, 5), (Reg.PCI_RING_CI 4, 3), (Reg.PCI_RING_BASE_LO 4, 4096)] (fun d => (fun d => { d with pci := { d.pci with deferred := [4], modAt := [(4, 100)], msix := [(12, 0)] } }) { d with pci := { d.pci with cfg := [(4, 6), (0x93, 128)] } })), 4, (100), by decide +kernel⟩,
   ⟨(ws [(Reg.PCI_STATUS, 2049), (Reg.PCI_EVENT, 0), (Reg.PCI_FAULT_INFO, 0), (Reg.PCI_FLR_CNT, 3), (Reg.PCI_LINK_DOWN_CNT, 3), (Reg.PCI_RETRAIN_CNT, 3), (Reg.PCI_LINK_CFG, 5), (Reg.PCI_BAR2_SIZE, 0), (Reg.PCI_BAR2_WIN_LO, 0), (Reg.PCI_BAR2_WIN_HI, 0), (Reg.PWR_STATUS, 0), (Reg.PWR_WAKE_EN, 4), (Reg.DMC_RGN_CFG 0 0, 65536 + 8192), (Reg.DMC_RGN_BASE 0 0, 0), (Reg.PCI_AER_NONFATAL_CNT, 0), (Reg.PCI_AER_CORR_CNT, 0), (Reg.PCI_REPLAY_CNT, 0)] (fun d => (id) { d with pci := { d.pci with cfg := [(4, 6)] } })), 4, by decide +kernel⟩⟩

theorem witness_FirstUnmaskSendsPendingMessage :
    (∃ (s : State), inReset s.dev = false ∧ tst s.dev Reg.PCI_STATUS 10 = true) ∧
    (∃ (s : State), inReset s.dev = false ∧ tst s.dev Reg.PCI_STATUS 10 = false) ∧
    (∃ (s : State) (v : Fin 64), inReset s.dev = false ∧ barReached s.dev = true ∧ bitOf s.dev.pci.everUnmasked v = false ∧ bitOf s.dev.pci.pba v =
      false ∧ msixEnabled s.dev = true ∧ msixFuncMask s.dev = false ∧ canIssue s.dev = true) ∧
    (∃ (s : State) (v : Fin 64), inReset s.dev = false ∧ barReached s.dev = true ∧ bitOf s.dev.pci.everUnmasked v = false ∧ (bitOf s.dev.pci.pba v =
      true ∨ (tst s.dev Reg.GEN_IRQ_PEND 23 = true ∧ tst s.dev Reg.GEN_IRQ_EN 23 = true ∧ rf s.dev (Reg.GEN_IRQ_VEC 23) 0 6 = v)) ∧ msixEnabled s.dev
      = true ∧ msixFuncMask s.dev = false ∧ canIssue s.dev = true) :=
  ⟨⟨(ws [(Reg.PCI_STATUS, 1024), (Reg.PCI_EVENT, 0), (Reg.PCI_FAULT_INFO, 0), (Reg.PCI_FLR_CNT, 3), (Reg.PCI_LINK_DOWN_CNT, 3), (Reg.PCI_RETRAIN_CNT, 3), (Reg.PCI_LINK_CFG, 5), (Reg.PCI_BAR2_SIZE, 0), (Reg.PCI_BAR2_WIN_LO, 0), (Reg.PCI_BAR2_WIN_HI, 0), (Reg.PWR_STATUS, 0), (Reg.PWR_WAKE_EN, 4), (Reg.DMC_RGN_CFG 0 0, 65536 + 8192), (Reg.DMC_RGN_BASE 0 0, 0), (Reg.PCI_AER_NONFATAL_CNT, 0), (Reg.PCI_AER_CORR_CNT, 0), (Reg.PCI_REPLAY_CNT, 0), (Reg.GEN_IRQ_PEND, 5), (Reg.GEN_IRQ_EN, 0xFFFFFF), (Reg.GEN_IRQ_VEC 23, 7), (Reg.GEN_IRQ_VEC 5, 7)] (fun d => (fun d => { d with pci := { d.pci with msix := [(12, 0)], everUnmasked := 1 } }) { d with pci := { d.pci with cfg := [(4, 6)] } })), by decide +kernel⟩,
   ⟨(ws [(Reg.PCI_STATUS, 2049), (Reg.PCI_EVENT, 0), (Reg.PCI_FAULT_INFO, 0), (Reg.PCI_FLR_CNT, 3), (Reg.PCI_LINK_DOWN_CNT, 3), (Reg.PCI_RETRAIN_CNT, 3), (Reg.PCI_LINK_CFG, 5), (Reg.PCI_BAR2_SIZE, 0), (Reg.PCI_BAR2_WIN_LO, 0), (Reg.PCI_BAR2_WIN_HI, 0), (Reg.PWR_STATUS, 0), (Reg.PWR_WAKE_EN, 4), (Reg.DMC_RGN_CFG 0 0, 65536 + 8192), (Reg.DMC_RGN_BASE 0 0, 0), (Reg.PCI_AER_NONFATAL_CNT, 0), (Reg.PCI_AER_CORR_CNT, 0), (Reg.PCI_REPLAY_CNT, 0)] (fun d => (id) { d with pci := { d.pci with cfg := [(4, 6)] } })), by decide +kernel⟩,
   ⟨(ws [(Reg.PCI_STATUS, 2049), (Reg.PCI_EVENT, 0), (Reg.PCI_FAULT_INFO, 0), (Reg.PCI_FLR_CNT, 3), (Reg.PCI_LINK_DOWN_CNT, 3), (Reg.PCI_RETRAIN_CNT, 3), (Reg.PCI_LINK_CFG, 5), (Reg.PCI_BAR2_SIZE, 0), (Reg.PCI_BAR2_WIN_LO, 0), (Reg.PCI_BAR2_WIN_HI, 0), (Reg.PWR_STATUS, 0), (Reg.PWR_WAKE_EN, 4), (Reg.DMC_RGN_CFG 0 0, 65536 + 8192), (Reg.DMC_RGN_BASE 0 0, 0), (Reg.PCI_AER_NONFATAL_CNT, 0), (Reg.PCI_AER_CORR_CNT, 0), (Reg.PCI_REPLAY_CNT, 0), (Reg.GEN_IRQ_PEND, 32), (Reg.GEN_IRQ_EN, 0xFFFFFF), (Reg.GEN_IRQ_VEC 23, 7), (Reg.GEN_IRQ_VEC 5, 7)] (fun d => (id) { d with pci := { d.pci with cfg := [(4, 6), (0x93, 128)] } })), 7, by decide +kernel⟩,
   ⟨(ws [(Reg.PCI_STATUS, 2049), (Reg.PCI_EVENT, 0), (Reg.PCI_FAULT_INFO, 0), (Reg.PCI_FLR_CNT, 3), (Reg.PCI_LINK_DOWN_CNT, 3), (Reg.PCI_RETRAIN_CNT, 3), (Reg.PCI_LINK_CFG, 5), (Reg.PCI_BAR2_SIZE, 0), (Reg.PCI_BAR2_WIN_LO, 0), (Reg.PCI_BAR2_WIN_HI, 0), (Reg.PWR_STATUS, 0), (Reg.PWR_WAKE_EN, 4), (Reg.DMC_RGN_CFG 0 0, 65536 + 8192), (Reg.DMC_RGN_BASE 0 0, 0), (Reg.PCI_AER_NONFATAL_CNT, 0), (Reg.PCI_AER_CORR_CNT, 0), (Reg.PCI_REPLAY_CNT, 0), (Reg.GEN_IRQ_PEND, 8388608), (Reg.GEN_IRQ_EN, 0xFFFFFF), (Reg.GEN_IRQ_VEC 23, 7), (Reg.GEN_IRQ_VEC 5, 7)] (fun d => (id) { d with pci := { d.pci with cfg := [(4, 6), (0x93, 128)] } })), 7, by decide +kernel⟩⟩

theorem witness_RegistersObeyTheirAccessCodes :
    (∃ (s : State) (r : Req) (be : Fin 16), inReset s.dev = false ∧ (r ≠ Req.host ∨ barReached s.dev = true) ∧ be ≠ 15) ∧
    (∃ (s : State) (r : Req), inReset s.dev = false ∧ r = Req.host ∧ linkUp s.dev = false) ∧
    (∃ (s : State) (r : Req) (a : Nat), inReset s.dev = false ∧ (r ≠ Req.host ∨ barReached s.dev = true) ∧ responds s.dev a = false) ∧
    (∃ (s : State) (r : Req) (a : Nat) (v : Word) (u : Dev) (x : RegDef), inReset s.dev = false ∧ u = (if r = Req.host then leaveL1 s.dev else s.dev)
      ∧ Reaches s.dev r a ∧ regDef? (a) = some x ∧ (x.rw = 0 ∨ (x.lo = false ∧ isHigh a = false)) ∧ clampsOf s.dev a x = [] ∧ a ≠ Reg.TIDE_CTRL ∧
      (x.held = 0 ∨ isTide a = false) ∧ ruledWrite a v.toNat = none ∧ pairRule a [v.toNat] (storeEach a [v.toNat]) = none) ∧
    (∃ (s : State) (r : Req) (a : Nat) (x : RegDef), inReset s.dev = false ∧ Reaches s.dev r a ∧ regDef? (a) = some x ∧ x.lo = true ∧ x.rw ≠ 0) ∧
    (∃ (s : State) (r : Req) (a : Nat) (v : Word) (x : RegDef) (w : Word) (y : RegDef), inReset s.dev = false ∧ Reaches s.dev r a ∧ regDef? (a) = some
      x ∧ regDef? (a - 4) = some y ∧ y.lo = true ∧ 4 ≤ a ∧ x.lo = false ∧ x.rw ≠ 0 ∧ y.rw ≠ 0 ∧ x.held = 0 ∧ y.held = 0 ∧ x.w1c = 0 ∧ y.w1c = 0 ∧
      x.w1s = 0 ∧ y.w1s = 0 ∧ clampsOf s.dev a x = [] ∧ clampsOf s.dev (a - 4) y = [] ∧ a ≠ Reg.TIDE_CTRL ∧ a - 4 ≠ Reg.TIDE_CTRL ∧ (latchOf s.dev r
      (a - 4)).wr = some w ∧ ruledWrite a v.toNat = none ∧ ruledWrite (a - 4) w.toNat = none ∧ pairRule (a - 4) [w.toNat, v.toNat] (storeEach (a - 4)
      [w.toNat, v.toNat]) = none) ∧
    (∃ (s : State) (r : Req) (a : Nat) (u : Dev), inReset s.dev = false ∧ u = (if r = Req.host then leaveL1 s.dev else s.dev) ∧ Reaches s.dev r a ∧
      isLow a = true) ∧
    (∃ (s : State) (r : Req) (a : Nat) (w : Word), inReset s.dev = false ∧ Reaches s.dev r a ∧ isLow a = false ∧ isHigh a = true ∧ (latchOf s.dev r (a
      - 4)).rd = some w) ∧
    (∃ (s : State) (r : Req) (a : Nat) (u : Dev), inReset s.dev = false ∧ u = (if r = Req.host then leaveL1 s.dev else s.dev) ∧ Reaches s.dev r a ∧
      isLow a = false ∧ (isHigh a = true → (latchOf s.dev r (a - 4)).rd = none)) ∧
    (∃ (s : State) (r : Req) (a : Nat), inReset s.dev = false ∧ (r ≠ Req.host ∨ barReached s.dev = true) ∧ responds s.dev a = false ∧ regLost s.dev a
      = false) ∧
    (∃ (s : State) (r : Req) (a : Nat), inReset s.dev = false ∧ (r ≠ Req.host ∨ barReached s.dev = true) ∧ regLost s.dev a = true) ∧
    (∃ (s : State) (r : Req), inReset s.dev = false ∧ Reaches s.dev r Reg.GEN_IRQ_PEND) ∧
    (∃ (s : State) (r : Req), inReset s.dev = false ∧ Reaches s.dev r Reg.GEN_DBG_CTRL) :=
  ⟨⟨(ws [(Reg.PCI_STATUS, 513), (Reg.PCI_EVENT, 0), (Reg.PCI_FAULT_INFO, 0), (Reg.BOOT_STATUS, 10), (Reg.GEN_SCRATCH 0, 9), (Reg.SEC_ATT_BUF_LO, 4096), (Reg.SEC_ATT_BUF_LO + 4, 3), (Reg.TIDE_CTRL, 0), (Reg.GEN_IRQ_PEND, 6), (Reg.GEN_IRQ_EN, 15), (Reg.GEN_IRQ_SENT_CNT, 7), (Reg.GEN_IRQ_VEC 1, 0), (Reg.GEN_IRQ_VEC 2, 0)] (fun d => (id) { d with pci := { d.pci with cfg := [(4, 6)] } })), .host, (3), by decide +kernel⟩,
   ⟨(ws [(Reg.PCI_STATUS, 0)] id), .host, by decide +kernel⟩,
   ⟨(ws [(Reg.PCI_STATUS, 513), (Reg.PCI_EVENT, 0), (Reg.PCI_FAULT_INFO, 0), (Reg.BOOT_STATUS, 10), (Reg.GEN_SCRATCH 0, 9), (Reg.SEC_ATT_BUF_LO, 4096), (Reg.SEC_ATT_BUF_LO + 4, 3), (Reg.TIDE_CTRL, 0), (Reg.GEN_IRQ_PEND, 6), (Reg.GEN_IRQ_EN, 15), (Reg.GEN_IRQ_SENT_CNT, 7), (Reg.GEN_IRQ_VEC 1, 0), (Reg.GEN_IRQ_VEC 2, 0)] (fun d => (id) { d with pci := { d.pci with cfg := [(4, 6)] } })), .host, 2, by decide +kernel⟩,
   ⟨(ws [(Reg.PCI_STATUS, 513), (Reg.PCI_EVENT, 0), (Reg.PCI_FAULT_INFO, 0), (Reg.BOOT_STATUS, 10), (Reg.GEN_SCRATCH 0, 9), (Reg.SEC_ATT_BUF_LO, 4096), (Reg.SEC_ATT_BUF_LO + 4, 3), (Reg.TIDE_CTRL, 0), (Reg.GEN_IRQ_PEND, 6), (Reg.GEN_IRQ_EN, 15), (Reg.GEN_IRQ_SENT_CNT, 7), (Reg.GEN_IRQ_VEC 1, 0), (Reg.GEN_IRQ_VEC 2, 0)] (fun d => (id) { d with pci := { d.pci with cfg := [(4, 6)] } })), .host, Reg.GEN_SCRATCH 0, 77, leaveL1 (ws [(Reg.PCI_STATUS, 513), (Reg.PCI_EVENT, 0), (Reg.PCI_FAULT_INFO, 0), (Reg.BOOT_STATUS, 10), (Reg.GEN_SCRATCH 0, 9), (Reg.SEC_ATT_BUF_LO, 4096), (Reg.SEC_ATT_BUF_LO + 4, 3), (Reg.TIDE_CTRL, 0), (Reg.GEN_IRQ_PEND, 6), (Reg.GEN_IRQ_EN, 15), (Reg.GEN_IRQ_SENT_CNT, 7), (Reg.GEN_IRQ_VEC 1, 0), (Reg.GEN_IRQ_VEC 2, 0)] (fun d => (id) { d with pci := { d.pci with cfg := [(4, 6)] } }) : State).dev, (regDef? (Reg.GEN_SCRATCH 0)).getD { off := 0 }, by decide +kernel⟩,
   ⟨(ws [(Reg.PCI_STATUS, 513), (Reg.PCI_EVENT, 0), (Reg.PCI_FAULT_INFO, 0), (Reg.BOOT_STATUS, 10), (Reg.GEN_SCRATCH 0, 9), (Reg.SEC_ATT_BUF_LO, 4096), (Reg.SEC_ATT_BUF_LO + 4, 3), (Reg.TIDE_CTRL, 0), (Reg.GEN_IRQ_PEND, 6), (Reg.GEN_IRQ_EN, 15), (Reg.GEN_IRQ_SENT_CNT, 7), (Reg.GEN_IRQ_VEC 1, 0), (Reg.GEN_IRQ_VEC 2, 0)] (fun d => (id) { d with pci := { d.pci with cfg := [(4, 6)] } })), .host, Reg.SEC_ATT_BUF_LO, (regDef? Reg.SEC_ATT_BUF_LO).getD { off := 0 }, by decide +kernel⟩,
   ⟨(ws [(Reg.PCI_STATUS, 513), (Reg.PCI_EVENT, 0), (Reg.PCI_FAULT_INFO, 0), (Reg.BOOT_STATUS, 10), (Reg.GEN_SCRATCH 0, 9), (Reg.SEC_ATT_BUF_LO, 4096), (Reg.SEC_ATT_BUF_LO + 4, 3), (Reg.TIDE_CTRL, 0), (Reg.GEN_IRQ_PEND, 6), (Reg.GEN_IRQ_EN, 15), (Reg.GEN_IRQ_SENT_CNT, 7), (Reg.GEN_IRQ_VEC 1, 0), (Reg.GEN_IRQ_VEC 2, 0)] (fun d => (fun d => { d with bus := [{ r := .host, a := Reg.TIDE_HOST_EDGE_LO, wr := some 5 }] }) { d with pci := { d.pci with cfg := [(4, 6)] } })), .host, Reg.TIDE_HOST_EDGE_LO + 4, 77, (regDef? (Reg.TIDE_HOST_EDGE_LO + 4)).getD { off := 0 }, (5), ((regDef? (Reg.TIDE_HOST_EDGE_LO)).getD { off := 0 }), by decide +kernel⟩,
   ⟨(ws [(Reg.PCI_STATUS, 513), (Reg.PCI_EVENT, 0), (Reg.PCI_FAULT_INFO, 0), (Reg.BOOT_STATUS, 10), (Reg.GEN_SCRATCH 0, 9), (Reg.SEC_ATT_BUF_LO, 4096), (Reg.SEC_ATT_BUF_LO + 4, 3), (Reg.TIDE_CTRL, 0), (Reg.GEN_IRQ_PEND, 6), (Reg.GEN_IRQ_EN, 15), (Reg.GEN_IRQ_SENT_CNT, 7), (Reg.GEN_IRQ_VEC 1, 0), (Reg.GEN_IRQ_VEC 2, 0)] (fun d => (id) { d with pci := { d.pci with cfg := [(4, 6)] } })), .host, Reg.SEC_ATT_BUF_LO, leaveL1 (ws [(Reg.PCI_STATUS, 513), (Reg.PCI_EVENT, 0), (Reg.PCI_FAULT_INFO, 0), (Reg.BOOT_STATUS, 10), (Reg.GEN_SCRATCH 0, 9), (Reg.SEC_ATT_BUF_LO, 4096), (Reg.SEC_ATT_BUF_LO + 4, 3), (Reg.TIDE_CTRL, 0), (Reg.GEN_IRQ_PEND, 6), (Reg.GEN_IRQ_EN, 15), (Reg.GEN_IRQ_SENT_CNT, 7), (Reg.GEN_IRQ_VEC 1, 0), (Reg.GEN_IRQ_VEC 2, 0)] (fun d => (id) { d with pci := { d.pci with cfg := [(4, 6)] } }) : State).dev, by decide +kernel⟩,
   ⟨(ws [(Reg.PCI_STATUS, 513), (Reg.PCI_EVENT, 0), (Reg.PCI_FAULT_INFO, 0), (Reg.BOOT_STATUS, 10), (Reg.GEN_SCRATCH 0, 9), (Reg.SEC_ATT_BUF_LO, 4096), (Reg.SEC_ATT_BUF_LO + 4, 3), (Reg.TIDE_CTRL, 0), (Reg.GEN_IRQ_PEND, 6), (Reg.GEN_IRQ_EN, 15), (Reg.GEN_IRQ_SENT_CNT, 7), (Reg.GEN_IRQ_VEC 1, 0), (Reg.GEN_IRQ_VEC 2, 0)] (fun d => (fun d => { d with bus := [{ r := .host, a := Reg.SEC_ATT_BUF_LO, rd := some 5 }] }) { d with pci := { d.pci with cfg := [(4, 6)] } })), .host, Reg.SEC_ATT_BUF_LO + 4, (5), by decide +kernel⟩,
   ⟨(ws [(Reg.PCI_STATUS, 513), (Reg.PCI_EVENT, 0), (Reg.PCI_FAULT_INFO, 0), (Reg.BOOT_STATUS, 10), (Reg.GEN_SCRATCH 0, 9), (Reg.SEC_ATT_BUF_LO, 4096), (Reg.SEC_ATT_BUF_LO + 4, 3), (Reg.TIDE_CTRL, 0), (Reg.GEN_IRQ_PEND, 6), (Reg.GEN_IRQ_EN, 15), (Reg.GEN_IRQ_SENT_CNT, 7), (Reg.GEN_IRQ_VEC 1, 0), (Reg.GEN_IRQ_VEC 2, 0)] (fun d => (id) { d with pci := { d.pci with cfg := [(4, 6)] } })), .host, Reg.GEN_SCRATCH 0, leaveL1 (ws [(Reg.PCI_STATUS, 513), (Reg.PCI_EVENT, 0), (Reg.PCI_FAULT_INFO, 0), (Reg.BOOT_STATUS, 10), (Reg.GEN_SCRATCH 0, 9), (Reg.SEC_ATT_BUF_LO, 4096), (Reg.SEC_ATT_BUF_LO + 4, 3), (Reg.TIDE_CTRL, 0), (Reg.GEN_IRQ_PEND, 6), (Reg.GEN_IRQ_EN, 15), (Reg.GEN_IRQ_SENT_CNT, 7), (Reg.GEN_IRQ_VEC 1, 0), (Reg.GEN_IRQ_VEC 2, 0)] (fun d => (id) { d with pci := { d.pci with cfg := [(4, 6)] } }) : State).dev, by decide +kernel⟩,
   ⟨(ws [(Reg.PCI_STATUS, 513), (Reg.PCI_EVENT, 0), (Reg.PCI_FAULT_INFO, 0), (Reg.BOOT_STATUS, 10), (Reg.GEN_SCRATCH 0, 9), (Reg.SEC_ATT_BUF_LO, 4096), (Reg.SEC_ATT_BUF_LO + 4, 3), (Reg.TIDE_CTRL, 0), (Reg.GEN_IRQ_PEND, 6), (Reg.GEN_IRQ_EN, 15), (Reg.GEN_IRQ_SENT_CNT, 7), (Reg.GEN_IRQ_VEC 1, 0), (Reg.GEN_IRQ_VEC 2, 0)] (fun d => (id) { d with pci := { d.pci with cfg := [(4, 6)] } })), .host, 2, by decide +kernel⟩,
   ⟨(ws [(Reg.PCI_STATUS, 513), (Reg.PCI_EVENT, 0), (Reg.PCI_FAULT_INFO, 0), (Reg.BOOT_STATUS, 10), (Reg.GEN_SCRATCH 0, 9), (Reg.SEC_ATT_BUF_LO, 4096), (Reg.SEC_ATT_BUF_LO + 4, 3), (Reg.TIDE_CTRL, 0), (Reg.GEN_IRQ_PEND, 6), (Reg.GEN_IRQ_EN, 15), (Reg.GEN_IRQ_SENT_CNT, 7), (Reg.GEN_IRQ_VEC 1, 0), (Reg.GEN_IRQ_VEC 2, 0), (Reg.ARB_DLINK_DOWN 0, 2 ^ 31)] (fun d => (id) { d with pci := { d.pci with cfg := [(4, 6)] } })), .host, dieHalf, by decide +kernel⟩,
   ⟨(ws [(Reg.PCI_STATUS, 513), (Reg.PCI_EVENT, 0), (Reg.PCI_FAULT_INFO, 0), (Reg.BOOT_STATUS, 10), (Reg.GEN_SCRATCH 0, 9), (Reg.SEC_ATT_BUF_LO, 4096), (Reg.SEC_ATT_BUF_LO + 4, 3), (Reg.TIDE_CTRL, 0), (Reg.GEN_IRQ_PEND, 6), (Reg.GEN_IRQ_EN, 15), (Reg.GEN_IRQ_SENT_CNT, 7), (Reg.GEN_IRQ_VEC 1, 0), (Reg.GEN_IRQ_VEC 2, 0)] (fun d => (id) { d with pci := { d.pci with cfg := [(4, 6)] } })), .host, by decide +kernel⟩,
   ⟨(ws [(Reg.PCI_STATUS, 513), (Reg.PCI_EVENT, 0), (Reg.PCI_FAULT_INFO, 0), (Reg.BOOT_STATUS, 10), (Reg.GEN_SCRATCH 0, 9), (Reg.SEC_ATT_BUF_LO, 4096), (Reg.SEC_ATT_BUF_LO + 4, 3), (Reg.TIDE_CTRL, 0), (Reg.GEN_IRQ_PEND, 6), (Reg.GEN_IRQ_EN, 15), (Reg.GEN_IRQ_SENT_CNT, 7), (Reg.GEN_IRQ_VEC 1, 0), (Reg.GEN_IRQ_VEC 2, 0), (Reg.GEN_DBG_CTRL, 0)] (fun d => (id) { d with pci := { d.pci with cfg := [(4, 6)] } })), .host, by decide +kernel⟩⟩

theorem witness_PinsAndTestPortActAtOnce :
    (∃ (s : State), s.dev.pins.porst = false ∧ s.dev.pins.under = false ∧ s.dev.pins.refLoss = false) ∧
    (∃ (s : State), s.dev.pins.porst = false ∧ (s.dev.pins.under = true ∨ s.dev.pins.refLoss = true)) ∧
    (∃ (s : State), s.dev.pins.porst = true) ∧
    (∃ (s : State), s.dev.pins.porst = true) ∧
    (∃ (s : State), s.dev.pins.porst = false) ∧
    (∃ (s : State), s.dev.pins.under = false) ∧
    (∃ (s : State), s.dev.pins.under = true) ∧
    (∃ (s : State), s.dev.pins.porst = true ∧ s.dev.pins.under = true ∧ s.dev.pins.refLoss = false) ∧
    (∃ (s : State), (s.dev.pins.under = false ∨ s.dev.pins.porst = false ∨ s.dev.pins.refLoss = true)) ∧
    (∃ (s : State), s.dev.pins.refLoss = false) ∧
    (∃ (s : State), s.dev.pins.refLoss = true) ∧
    (∃ (s : State), s.dev.pins.porst = true ∧ s.dev.pins.under = false ∧ s.dev.pins.refLoss = true) ∧
    (∃ (s : State), (s.dev.pins.refLoss = false ∨ s.dev.pins.porst = false ∨ s.dev.pins.under = true)) ∧
    (∃ (s : State), inReset s.dev = false ∧ linkUp s.dev = true) ∧
    (∃ (s : State), inReset s.dev = true) ∧
    (∃ (s : State), True) ∧
    (∃ (s : State), True) ∧
    (∃ (s : State), True) ∧
    (∃ (s : State), True) ∧
    (∃ (s : State), True) ∧
    (∃ (s : State), True) ∧
    (∃ (s : State) (w : BitVec 109), dbgBusy s.dev = false ∧ bits w.toNat 0 3 = 0) ∧
    (∃ (s : State), dbgBusy s.dev = true) ∧
    (∃ (s : State) (w : BitVec 109), inReset s.dev = false ∧ dbgBusy s.dev = false ∧ (6 ≤ bits w.toNat 0 3 ∨ dbgPermitted s.dev = false) ∧ bits
      w.toNat 0 3 ≠ 0) ∧
    (∃ (s : State) (w : BitVec 109), inReset s.dev = false ∧ dbgBusy s.dev = false ∧ bits w.toNat 0 3 = 1 ∧ dbgReg (bits w.toNat 3 40) = true ∧
      regLost s.dev (bits w.toNat 3 40) = false ∧ dbgPermitted s.dev = true) ∧
    (∃ (s : State) (a : Nat), inReset s.dev = false ∧ s.dev.jtag.ir = .dbgAccess ∧ dbgBusy s.dev = false ∧ dbgPermitted s.dev = true ∧ dbgReg a = true
      ∧ regLost s.dev a = false) ∧
    (∃ (s : State) (a : Nat), inReset s.dev = false ∧ s.dev.jtag.ir = .dbgAccess ∧ dbgBusy s.dev = false ∧ dbgPermitted s.dev = true ∧ dbgReg a = true
      ∧ regLost s.dev a = true) ∧
    (∃ (s : State) (a : Nat), inReset s.dev = false ∧ s.dev.jtag.ir = .dbgAccess ∧ dbgBusy s.dev = false ∧ (dbgPermitted s.dev = false ∨ dbgReg a =
      false)) ∧
    (∃ (s : State), (s.dev.jtag.ir ≠ .dbgAccess ∨ dbgBusy s.dev = true)) ∧
    (∃ (s : State), inReset s.dev = true ∧ s.dev.jtag.ir = .dbgAccess) ∧
    (∃ (s : State) (a : Nat), inReset s.dev = false ∧ s.dev.jtag.ir = .dbgAccess ∧ dbgBusy s.dev = false ∧ dbgPermitted s.dev = true ∧ dbgReg a = true
      ∧ regLost s.dev a = false) ∧
    (∃ (s : State) (a : Nat), inReset s.dev = false ∧ s.dev.jtag.ir = .dbgAccess ∧ dbgBusy s.dev = false ∧ (dbgPermitted s.dev = false ∨ dbgReg a =
      false)) ∧
    (∃ (s : State), (s.dev.jtag.ir ≠ .dbgAccess ∨ dbgBusy s.dev = true)) ∧
    (∃ (s : State) (a : Nat) (y : Nat × Nat × Nat) (ecc : Fin 3), inReset s.dev = false ∧ s.dev.jtag.ir = .dbgAccess ∧ dbgBusy s.dev = false ∧
      dbgPermitted s.dev = true ∧ a % 8 = 0 ∧ (burstReach s.dev 0 a).isNone = true ∧ y = dbgPlace s.dev a ∧ chIdle (dchan s.dev y.1) = true ∧ burstBad
      s.dev a = false ∧ ecc.val ≠ 2) ∧
    (∃ (s : State) (a : Nat) (ecc : Fin 3), inReset s.dev = false ∧ s.dev.jtag.ir = .dbgAccess ∧ dbgBusy s.dev = false ∧ dbgPermitted s.dev = true ∧ a
      % 8 = 0 ∧ ((burstReach s.dev 0 a).isSome = true ∨ (chIdle (dchan s.dev (dbgPlace s.dev a).1) = true ∧ (ecc.val = 2 ∨ burstBad s.dev a = true)))) ∧
    (∃ (s : State) (a : Nat), inReset s.dev = false ∧ s.dev.jtag.ir = .dbgAccess ∧ dbgBusy s.dev = false ∧ (dbgPermitted s.dev = false ∨ a % 8 ≠ 0)) ∧
    (∃ (s : State) (a : Nat) (y : Nat × Nat × Nat), inReset s.dev = false ∧ s.dev.jtag.ir = .dbgAccess ∧ dbgBusy s.dev = false ∧ dbgPermitted s.dev =
      true ∧ a % 8 = 0 ∧ (burstReach s.dev 0 a).isNone = true ∧ y = dbgPlace s.dev a ∧ chIdle (dchan s.dev y.1) = true) ∧
    (∃ (s : State) (a : Nat), inReset s.dev = false ∧ s.dev.jtag.ir = .dbgAccess ∧ dbgBusy s.dev = false ∧ dbgPermitted s.dev = true ∧ a % 8 = 0 ∧
      (burstReach s.dev 0 a).isSome = true) ∧
    (∃ (s : State) (a : Nat), inReset s.dev = false ∧ s.dev.jtag.ir = .dbgAccess ∧ dbgBusy s.dev = false ∧ (dbgPermitted s.dev = false ∨ a % 8 ≠ 0)) ∧
    (∃ (s : State) (a : Nat), inReset s.dev = false ∧ s.dev.jtag.ir = .dbgAccess ∧ dbgBusy s.dev = false ∧ dbgPermitted s.dev = true ∧ dbgCm a = true) ∧
    (∃ (s : State) (a : Nat), inReset s.dev = false ∧ s.dev.jtag.ir = .dbgAccess ∧ dbgBusy s.dev = false ∧ (dbgPermitted s.dev = false ∨ dbgCm a =
      false)) :=
  ⟨⟨({ dev := {} }), by decide +kernel⟩,
   ⟨({ dev := { pins := { under := true } } }), by decide +kernel⟩,
   ⟨(ws (wreach ++ [(Reg.BOOT_COUNT, 3), (Reg.BOOT_STATUS, 10), (Reg.SEC_STATUS, 32), (Reg.GEN_DBG_CTRL, 0), (Reg.GEN_DBG_CNT, 4), (Reg.GEN_DBG_REFUSED_CNT, 5), (Reg.GEN_STATUS, 0), (Reg.PCI_STATUS, 1), (Reg.PCI_LINK_DOWN_CNT, 0), (Reg.PCI_EVENT, 0), (Reg.PCI_FLR_CNT, 0), (Reg.DMC_CTRL 0, 1), (Reg.DMC_RGN_CFG 0 0, 65536 + 8192), (Reg.DMC_RGN_BASE 0 0, 0), (Reg.DMC_CH_STATUS 0 0, 1), (Reg.ARB_DLINK_DOWN 0, 0), (Reg.GEN_SCRATCH 0, 7), (Reg.PWR_DOM_STATE 64, 0)]) (id)), by decide +kernel⟩,
   ⟨(ws (wreach ++ [(Reg.BOOT_COUNT, 3), (Reg.BOOT_STATUS, 10), (Reg.SEC_STATUS, 32), (Reg.GEN_DBG_CTRL, 0), (Reg.GEN_DBG_CNT, 4), (Reg.GEN_DBG_REFUSED_CNT, 5), (Reg.GEN_STATUS, 0), (Reg.PCI_STATUS, 1), (Reg.PCI_LINK_DOWN_CNT, 0), (Reg.PCI_EVENT, 0), (Reg.PCI_FLR_CNT, 0), (Reg.DMC_CTRL 0, 1), (Reg.DMC_RGN_CFG 0 0, 65536 + 8192), (Reg.DMC_RGN_BASE 0 0, 0), (Reg.DMC_CH_STATUS 0 0, 1), (Reg.ARB_DLINK_DOWN 0, 0), (Reg.GEN_SCRATCH 0, 7), (Reg.PWR_DOM_STATE 64, 0)]) (id)), by decide +kernel⟩,
   ⟨({ dev := {} }), by decide +kernel⟩,
   ⟨(ws (wreach ++ [(Reg.BOOT_COUNT, 3), (Reg.BOOT_STATUS, 10), (Reg.SEC_STATUS, 32), (Reg.GEN_DBG_CTRL, 0), (Reg.GEN_DBG_CNT, 4), (Reg.GEN_DBG_REFUSED_CNT, 5), (Reg.GEN_STATUS, 0), (Reg.PCI_STATUS, 1), (Reg.PCI_LINK_DOWN_CNT, 0), (Reg.PCI_EVENT, 0), (Reg.PCI_FLR_CNT, 0), (Reg.DMC_CTRL 0, 1), (Reg.DMC_RGN_CFG 0 0, 65536 + 8192), (Reg.DMC_RGN_BASE 0 0, 0), (Reg.DMC_CH_STATUS 0 0, 1), (Reg.ARB_DLINK_DOWN 0, 0), (Reg.GEN_SCRATCH 0, 7), (Reg.PWR_DOM_STATE 64, 0)]) (id)), by decide +kernel⟩,
   ⟨({ dev := { pins := { under := true } } }), by decide +kernel⟩,
   ⟨({ dev := { pins := { porst := true, under := true } } }), by decide +kernel⟩,
   ⟨({ dev := { pins := { under := true } } }), by decide +kernel⟩,
   ⟨(ws (wreach ++ [(Reg.BOOT_COUNT, 3), (Reg.BOOT_STATUS, 10), (Reg.SEC_STATUS, 32), (Reg.GEN_DBG_CTRL, 0), (Reg.GEN_DBG_CNT, 4), (Reg.GEN_DBG_REFUSED_CNT, 5), (Reg.GEN_STATUS, 0), (Reg.PCI_STATUS, 1), (Reg.PCI_LINK_DOWN_CNT, 0), (Reg.PCI_EVENT, 0), (Reg.PCI_FLR_CNT, 0), (Reg.DMC_CTRL 0, 1), (Reg.DMC_RGN_CFG 0 0, 65536 + 8192), (Reg.DMC_RGN_BASE 0 0, 0), (Reg.DMC_CH_STATUS 0 0, 1), (Reg.ARB_DLINK_DOWN 0, 0), (Reg.GEN_SCRATCH 0, 7), (Reg.PWR_DOM_STATE 64, 0)]) (id)), by decide +kernel⟩,
   ⟨({ dev := { pins := { refLoss := true } } }), by decide +kernel⟩,
   ⟨({ dev := { pins := { porst := true, refLoss := true } } }), by decide +kernel⟩,
   ⟨({ dev := { pins := { refLoss := true } } }), by decide +kernel⟩,
   ⟨(ws (wreach ++ [(Reg.BOOT_COUNT, 3), (Reg.BOOT_STATUS, 10), (Reg.SEC_STATUS, 32), (Reg.GEN_DBG_CTRL, 0), (Reg.GEN_DBG_CNT, 4), (Reg.GEN_DBG_REFUSED_CNT, 5), (Reg.GEN_STATUS, 0), (Reg.PCI_STATUS, 1), (Reg.PCI_LINK_DOWN_CNT, 0), (Reg.PCI_EVENT, 0), (Reg.PCI_FLR_CNT, 0), (Reg.DMC_CTRL 0, 1), (Reg.DMC_RGN_CFG 0 0, 65536 + 8192), (Reg.DMC_RGN_BASE 0 0, 0), (Reg.DMC_CH_STATUS 0 0, 1), (Reg.ARB_DLINK_DOWN 0, 0), (Reg.GEN_SCRATCH 0, 7), (Reg.PWR_DOM_STATE 64, 0)]) (fun d => { d with pins := { d.pins with perst := true } })), by decide +kernel⟩,
   ⟨({ dev := { pins := { perst := true } } }), by decide +kernel⟩,
   ⟨(ws (wreach ++ [(Reg.BOOT_COUNT, 3), (Reg.BOOT_STATUS, 10), (Reg.SEC_STATUS, 32), (Reg.GEN_DBG_CTRL, 0), (Reg.GEN_DBG_CNT, 4), (Reg.GEN_DBG_REFUSED_CNT, 5), (Reg.GEN_STATUS, 0), (Reg.PCI_STATUS, 1), (Reg.PCI_LINK_DOWN_CNT, 0), (Reg.PCI_EVENT, 0), (Reg.PCI_FLR_CNT, 0), (Reg.DMC_CTRL 0, 1), (Reg.DMC_RGN_CFG 0 0, 65536 + 8192), (Reg.DMC_RGN_BASE 0 0, 0), (Reg.DMC_CH_STATUS 0 0, 1), (Reg.ARB_DLINK_DOWN 0, 0), (Reg.GEN_SCRATCH 0, 7), (Reg.PWR_DOM_STATE 64, 0)]) (id)), by decide +kernel⟩,
   ⟨(ws (wreach ++ [(Reg.BOOT_COUNT, 3), (Reg.BOOT_STATUS, 10), (Reg.SEC_STATUS, 32), (Reg.GEN_DBG_CTRL, 0), (Reg.GEN_DBG_CNT, 4), (Reg.GEN_DBG_REFUSED_CNT, 5), (Reg.GEN_STATUS, 0), (Reg.PCI_STATUS, 1), (Reg.PCI_LINK_DOWN_CNT, 0), (Reg.PCI_EVENT, 0), (Reg.PCI_FLR_CNT, 0), (Reg.DMC_CTRL 0, 1), (Reg.DMC_RGN_CFG 0 0, 65536 + 8192), (Reg.DMC_RGN_BASE 0 0, 0), (Reg.DMC_CH_STATUS 0 0, 1), (Reg.ARB_DLINK_DOWN 0, 0), (Reg.GEN_SCRATCH 0, 7), (Reg.PWR_DOM_STATE 64, 0)]) (id)), by decide +kernel⟩,
   ⟨(ws (wreach ++ [(Reg.BOOT_COUNT, 3), (Reg.BOOT_STATUS, 10), (Reg.SEC_STATUS, 32), (Reg.GEN_DBG_CTRL, 0), (Reg.GEN_DBG_CNT, 4), (Reg.GEN_DBG_REFUSED_CNT, 5), (Reg.GEN_STATUS, 0), (Reg.PCI_STATUS, 1), (Reg.PCI_LINK_DOWN_CNT, 0), (Reg.PCI_EVENT, 0), (Reg.PCI_FLR_CNT, 0), (Reg.DMC_CTRL 0, 1), (Reg.DMC_RGN_CFG 0 0, 65536 + 8192), (Reg.DMC_RGN_BASE 0 0, 0), (Reg.DMC_CH_STATUS 0 0, 1), (Reg.ARB_DLINK_DOWN 0, 0), (Reg.GEN_SCRATCH 0, 7), (Reg.PWR_DOM_STATE 64, 0)]) (id)), by decide +kernel⟩,
   ⟨(ws (wreach ++ [(Reg.BOOT_COUNT, 3), (Reg.BOOT_STATUS, 10), (Reg.SEC_STATUS, 32), (Reg.GEN_DBG_CTRL, 0), (Reg.GEN_DBG_CNT, 4), (Reg.GEN_DBG_REFUSED_CNT, 5), (Reg.GEN_STATUS, 0), (Reg.PCI_STATUS, 1), (Reg.PCI_LINK_DOWN_CNT, 0), (Reg.PCI_EVENT, 0), (Reg.PCI_FLR_CNT, 0), (Reg.DMC_CTRL 0, 1), (Reg.DMC_RGN_CFG 0 0, 65536 + 8192), (Reg.DMC_RGN_BASE 0 0, 0), (Reg.DMC_CH_STATUS 0 0, 1), (Reg.ARB_DLINK_DOWN 0, 0), (Reg.GEN_SCRATCH 0, 7), (Reg.PWR_DOM_STATE 64, 0)]) (id)), by decide +kernel⟩,
   ⟨(ws (wreach ++ [(Reg.BOOT_COUNT, 3), (Reg.BOOT_STATUS, 10), (Reg.SEC_STATUS, 32), (Reg.GEN_DBG_CTRL, 0), (Reg.GEN_DBG_CNT, 4), (Reg.GEN_DBG_REFUSED_CNT, 5), (Reg.GEN_STATUS, 0), (Reg.PCI_STATUS, 1), (Reg.PCI_LINK_DOWN_CNT, 0), (Reg.PCI_EVENT, 0), (Reg.PCI_FLR_CNT, 0), (Reg.DMC_CTRL 0, 1), (Reg.DMC_RGN_CFG 0 0, 65536 + 8192), (Reg.DMC_RGN_BASE 0 0, 0), (Reg.DMC_CH_STATUS 0 0, 1), (Reg.ARB_DLINK_DOWN 0, 0), (Reg.GEN_SCRATCH 0, 7), (Reg.PWR_DOM_STATE 64, 0)]) (id)), by decide +kernel⟩,
   ⟨(ws (wreach ++ [(Reg.BOOT_COUNT, 3), (Reg.BOOT_STATUS, 10), (Reg.SEC_STATUS, 32), (Reg.GEN_DBG_CTRL, 0), (Reg.GEN_DBG_CNT, 4), (Reg.GEN_DBG_REFUSED_CNT, 5), (Reg.GEN_STATUS, 0), (Reg.PCI_STATUS, 1), (Reg.PCI_LINK_DOWN_CNT, 0), (Reg.PCI_EVENT, 0), (Reg.PCI_FLR_CNT, 0), (Reg.DMC_CTRL 0, 1), (Reg.DMC_RGN_CFG 0 0, 65536 + 8192), (Reg.DMC_RGN_BASE 0 0, 0), (Reg.DMC_CH_STATUS 0 0, 1), (Reg.ARB_DLINK_DOWN 0, 0), (Reg.GEN_SCRATCH 0, 7), (Reg.PWR_DOM_STATE 64, 0)]) (id)), by decide +kernel⟩,
   ⟨(ws (wreach ++ [(Reg.BOOT_COUNT, 3), (Reg.BOOT_STATUS, 10), (Reg.SEC_STATUS, 32), (Reg.GEN_DBG_CTRL, 0), (Reg.GEN_DBG_CNT, 4), (Reg.GEN_DBG_REFUSED_CNT, 5), (Reg.GEN_STATUS, 0), (Reg.PCI_STATUS, 1), (Reg.PCI_LINK_DOWN_CNT, 0), (Reg.PCI_EVENT, 0), (Reg.PCI_FLR_CNT, 0), (Reg.DMC_CTRL 0, 1), (Reg.DMC_RGN_CFG 0 0, 65536 + 8192), (Reg.DMC_RGN_BASE 0 0, 0), (Reg.DMC_CH_STATUS 0 0, 1), (Reg.ARB_DLINK_DOWN 0, 0), (Reg.GEN_SCRATCH 0, 7), (Reg.PWR_DOM_STATE 64, 0)]) (id)), (0), by decide +kernel⟩,
   ⟨(ws (wreach ++ [(Reg.BOOT_COUNT, 3), (Reg.BOOT_STATUS, 10), (Reg.SEC_STATUS, 32), (Reg.GEN_DBG_CTRL, 0), (Reg.GEN_DBG_CNT, 4), (Reg.GEN_DBG_REFUSED_CNT, 5), (Reg.GEN_STATUS, 0), (Reg.PCI_STATUS, 1), (Reg.PCI_LINK_DOWN_CNT, 0), (Reg.PCI_EVENT, 0), (Reg.PCI_FLR_CNT, 0), (Reg.DMC_CTRL 0, 1), (Reg.DMC_RGN_CFG 0 0, 65536 + 8192), (Reg.DMC_RGN_BASE 0 0, 0), (Reg.DMC_CH_STATUS 0 0, 1), (Reg.ARB_DLINK_DOWN 0, 0), (Reg.GEN_SCRATCH 0, 7), (Reg.PWR_DOM_STATE 64, 0)]) (fun d => { d with jtag := { until_ := 50 } })), by decide +kernel⟩,
   ⟨(ws (wreach ++ [(Reg.BOOT_COUNT, 3), (Reg.BOOT_STATUS, 10), (Reg.SEC_STATUS, 32), (Reg.GEN_DBG_CTRL, 0), (Reg.GEN_DBG_CNT, 4), (Reg.GEN_DBG_REFUSED_CNT, 5), (Reg.GEN_STATUS, 0), (Reg.PCI_STATUS, 1), (Reg.PCI_LINK_DOWN_CNT, 0), (Reg.PCI_EVENT, 0), (Reg.PCI_FLR_CNT, 0), (Reg.DMC_CTRL 0, 1), (Reg.DMC_RGN_CFG 0 0, 65536 + 8192), (Reg.DMC_RGN_BASE 0 0, 0), (Reg.DMC_CH_STATUS 0 0, 1), (Reg.ARB_DLINK_DOWN 0, 0), (Reg.GEN_SCRATCH 0, 7), (Reg.PWR_DOM_STATE 64, 0)]) (id)), (6), by decide +kernel⟩,
   ⟨(ws (wreach ++ [(Reg.BOOT_COUNT, 3), (Reg.BOOT_STATUS, 10), (Reg.SEC_STATUS, 32), (Reg.GEN_DBG_CTRL, 0), (Reg.GEN_DBG_CNT, 4), (Reg.GEN_DBG_REFUSED_CNT, 5), (Reg.GEN_STATUS, 0), (Reg.PCI_STATUS, 1), (Reg.PCI_LINK_DOWN_CNT, 0), (Reg.PCI_EVENT, 0), (Reg.PCI_FLR_CNT, 0), (Reg.DMC_CTRL 0, 1), (Reg.DMC_RGN_CFG 0 0, 65536 + 8192), (Reg.DMC_RGN_BASE 0 0, 0), (Reg.DMC_CH_STATUS 0 0, 1), (Reg.ARB_DLINK_DOWN 0, 0), (Reg.GEN_SCRATCH 0, 7), (Reg.PWR_DOM_STATE 64, 0)]) (id)), (1 + 0x20 * 8), by decide +kernel⟩,
   ⟨(ws (wreach ++ [(Reg.BOOT_COUNT, 3), (Reg.BOOT_STATUS, 10), (Reg.SEC_STATUS, 32), (Reg.GEN_DBG_CTRL, 0), (Reg.GEN_DBG_CNT, 4), (Reg.GEN_DBG_REFUSED_CNT, 5), (Reg.GEN_STATUS, 0), (Reg.PCI_STATUS, 1), (Reg.PCI_LINK_DOWN_CNT, 0), (Reg.PCI_EVENT, 0), (Reg.PCI_FLR_CNT, 0), (Reg.DMC_CTRL 0, 1), (Reg.DMC_RGN_CFG 0 0, 65536 + 8192), (Reg.DMC_RGN_BASE 0 0, 0), (Reg.DMC_CH_STATUS 0 0, 1), (Reg.ARB_DLINK_DOWN 0, 0), (Reg.GEN_SCRATCH 0, 7), (Reg.PWR_DOM_STATE 64, 0)]) (fun d => { d with jtag := { ir := .dbgAccess } })), 0x20, by decide +kernel⟩,
   ⟨(ws (wreach ++ [(Reg.BOOT_COUNT, 3), (Reg.BOOT_STATUS, 10), (Reg.SEC_STATUS, 32), (Reg.GEN_DBG_CTRL, 0), (Reg.GEN_DBG_CNT, 4), (Reg.GEN_DBG_REFUSED_CNT, 5), (Reg.GEN_STATUS, 0), (Reg.PCI_STATUS, 1), (Reg.PCI_LINK_DOWN_CNT, 0), (Reg.PCI_EVENT, 0), (Reg.PCI_FLR_CNT, 0), (Reg.DMC_CTRL 0, 1), (Reg.DMC_RGN_CFG 0 0, 65536 + 8192), (Reg.DMC_RGN_BASE 0 0, 0), (Reg.DMC_CH_STATUS 0 0, 1), (Reg.ARB_DLINK_DOWN 0, 2 ^ 31), (Reg.GEN_SCRATCH 0, 7), (Reg.PWR_DOM_STATE 64, 0)]) (fun d => { d with jtag := { ir := .dbgAccess } })), dieHalf, by decide +kernel⟩,
   ⟨(ws (wreach ++ [(Reg.BOOT_COUNT, 3), (Reg.BOOT_STATUS, 10), (Reg.SEC_STATUS, 32), (Reg.GEN_DBG_CTRL, 0), (Reg.GEN_DBG_CNT, 4), (Reg.GEN_DBG_REFUSED_CNT, 5), (Reg.GEN_STATUS, 0), (Reg.PCI_STATUS, 1), (Reg.PCI_LINK_DOWN_CNT, 0), (Reg.PCI_EVENT, 0), (Reg.PCI_FLR_CNT, 0), (Reg.DMC_CTRL 0, 1), (Reg.DMC_RGN_CFG 0 0, 65536 + 8192), (Reg.DMC_RGN_BASE 0 0, 0), (Reg.DMC_CH_STATUS 0 0, 1), (Reg.ARB_DLINK_DOWN 0, 0), (Reg.GEN_SCRATCH 0, 7), (Reg.PWR_DOM_STATE 64, 0)]) (fun d => { d with jtag := { ir := .dbgAccess } })), 1, by decide +kernel⟩,
   ⟨(ws (wreach ++ [(Reg.BOOT_COUNT, 3), (Reg.BOOT_STATUS, 10), (Reg.SEC_STATUS, 32), (Reg.GEN_DBG_CTRL, 0), (Reg.GEN_DBG_CNT, 4), (Reg.GEN_DBG_REFUSED_CNT, 5), (Reg.GEN_STATUS, 0), (Reg.PCI_STATUS, 1), (Reg.PCI_LINK_DOWN_CNT, 0), (Reg.PCI_EVENT, 0), (Reg.PCI_FLR_CNT, 0), (Reg.DMC_CTRL 0, 1), (Reg.DMC_RGN_CFG 0 0, 65536 + 8192), (Reg.DMC_RGN_BASE 0 0, 0), (Reg.DMC_CH_STATUS 0 0, 1), (Reg.ARB_DLINK_DOWN 0, 0), (Reg.GEN_SCRATCH 0, 7), (Reg.PWR_DOM_STATE 64, 0)]) (id)), by decide +kernel⟩,
   ⟨({ dev := { jtag := { ir := .dbgAccess } } }), by decide +kernel⟩,
   ⟨(ws (wreach ++ [(Reg.BOOT_COUNT, 3), (Reg.BOOT_STATUS, 10), (Reg.SEC_STATUS, 32), (Reg.GEN_DBG_CTRL, 0), (Reg.GEN_DBG_CNT, 4), (Reg.GEN_DBG_REFUSED_CNT, 5), (Reg.GEN_STATUS, 0), (Reg.PCI_STATUS, 1), (Reg.PCI_LINK_DOWN_CNT, 0), (Reg.PCI_EVENT, 0), (Reg.PCI_FLR_CNT, 0), (Reg.DMC_CTRL 0, 1), (Reg.DMC_RGN_CFG 0 0, 65536 + 8192), (Reg.DMC_RGN_BASE 0 0, 0), (Reg.DMC_CH_STATUS 0 0, 1), (Reg.ARB_DLINK_DOWN 0, 0), (Reg.GEN_SCRATCH 0, 7), (Reg.PWR_DOM_STATE 64, 0)]) (fun d => { d with jtag := { ir := .dbgAccess } })), 0x20, by decide +kernel⟩,
   ⟨(ws (wreach ++ [(Reg.BOOT_COUNT, 3), (Reg.BOOT_STATUS, 10), (Reg.SEC_STATUS, 32), (Reg.GEN_DBG_CTRL, 0), (Reg.GEN_DBG_CNT, 4), (Reg.GEN_DBG_REFUSED_CNT, 5), (Reg.GEN_STATUS, 0), (Reg.PCI_STATUS, 1), (Reg.PCI_LINK_DOWN_CNT, 0), (Reg.PCI_EVENT, 0), (Reg.PCI_FLR_CNT, 0), (Reg.DMC_CTRL 0, 1), (Reg.DMC_RGN_CFG 0 0, 65536 + 8192), (Reg.DMC_RGN_BASE 0 0, 0), (Reg.DMC_CH_STATUS 0 0, 1), (Reg.ARB_DLINK_DOWN 0, 0), (Reg.GEN_SCRATCH 0, 7), (Reg.PWR_DOM_STATE 64, 0)]) (fun d => { d with jtag := { ir := .dbgAccess } })), 1, by decide +kernel⟩,
   ⟨(ws (wreach ++ [(Reg.BOOT_COUNT, 3), (Reg.BOOT_STATUS, 10), (Reg.SEC_STATUS, 32), (Reg.GEN_DBG_CTRL, 0), (Reg.GEN_DBG_CNT, 4), (Reg.GEN_DBG_REFUSED_CNT, 5), (Reg.GEN_STATUS, 0), (Reg.PCI_STATUS, 1), (Reg.PCI_LINK_DOWN_CNT, 0), (Reg.PCI_EVENT, 0), (Reg.PCI_FLR_CNT, 0), (Reg.DMC_CTRL 0, 1), (Reg.DMC_RGN_CFG 0 0, 65536 + 8192), (Reg.DMC_RGN_BASE 0 0, 0), (Reg.DMC_CH_STATUS 0 0, 1), (Reg.ARB_DLINK_DOWN 0, 0), (Reg.GEN_SCRATCH 0, 7), (Reg.PWR_DOM_STATE 64, 0)]) (id)), by decide +kernel⟩,
   ⟨(ws (wreach ++ [(Reg.BOOT_COUNT, 3), (Reg.BOOT_STATUS, 10), (Reg.SEC_STATUS, 32), (Reg.GEN_DBG_CTRL, 0), (Reg.GEN_DBG_CNT, 4), (Reg.GEN_DBG_REFUSED_CNT, 5), (Reg.GEN_STATUS, 0), (Reg.PCI_STATUS, 1), (Reg.PCI_LINK_DOWN_CNT, 0), (Reg.PCI_EVENT, 0), (Reg.PCI_FLR_CNT, 0), (Reg.DMC_CTRL 0, 1), (Reg.DMC_RGN_CFG 0 0, 65536 + 8192), (Reg.DMC_RGN_BASE 0 0, 0), (Reg.DMC_CH_STATUS 0 0, 1), (Reg.ARB_DLINK_DOWN 0, 0), (Reg.GEN_SCRATCH 0, 7), (Reg.PWR_DOM_STATE 64, 0)]) (fun d => { d with jtag := { ir := .dbgAccess }, dram := [(3, 9)], cm := [(5, 8)] })), 0, (0, 0, 0), (0), by decide +kernel⟩,
   ⟨(ws (wreach ++ [(Reg.BOOT_COUNT, 3), (Reg.BOOT_STATUS, 10), (Reg.SEC_STATUS, 32), (Reg.GEN_DBG_CTRL, 0), (Reg.GEN_DBG_CNT, 4), (Reg.GEN_DBG_REFUSED_CNT, 5), (Reg.GEN_STATUS, 0), (Reg.PCI_STATUS, 1), (Reg.PCI_LINK_DOWN_CNT, 0), (Reg.PCI_EVENT, 0), (Reg.PCI_FLR_CNT, 0), (Reg.DMC_CTRL 0, 1), (Reg.DMC_RGN_CFG 0 0, 65536 + 8192), (Reg.DMC_RGN_BASE 0 0, 0), (Reg.DMC_CH_STATUS 0 0, 1), (Reg.ARB_DLINK_DOWN 0, 0), (Reg.GEN_SCRATCH 0, 7), (Reg.PWR_DOM_STATE 64, 0)]) (fun d => { d with jtag := { ir := .dbgAccess }, dram := [(3, 9)], cm := [(5, 8)] })), 0, (2), by decide +kernel⟩,
   ⟨(ws (wreach ++ [(Reg.BOOT_COUNT, 3), (Reg.BOOT_STATUS, 10), (Reg.SEC_STATUS, 32), (Reg.GEN_DBG_CTRL, 0), (Reg.GEN_DBG_CNT, 4), (Reg.GEN_DBG_REFUSED_CNT, 5), (Reg.GEN_STATUS, 0), (Reg.PCI_STATUS, 1), (Reg.PCI_LINK_DOWN_CNT, 0), (Reg.PCI_EVENT, 0), (Reg.PCI_FLR_CNT, 0), (Reg.DMC_CTRL 0, 1), (Reg.DMC_RGN_CFG 0 0, 65536 + 8192), (Reg.DMC_RGN_BASE 0 0, 0), (Reg.DMC_CH_STATUS 0 0, 1), (Reg.ARB_DLINK_DOWN 0, 0), (Reg.GEN_SCRATCH 0, 7), (Reg.PWR_DOM_STATE 64, 0)]) (fun d => { d with jtag := { ir := .dbgAccess } })), 1, by decide +kernel⟩,
   ⟨(ws (wreach ++ [(Reg.BOOT_COUNT, 3), (Reg.BOOT_STATUS, 10), (Reg.SEC_STATUS, 32), (Reg.GEN_DBG_CTRL, 0), (Reg.GEN_DBG_CNT, 4), (Reg.GEN_DBG_REFUSED_CNT, 5), (Reg.GEN_STATUS, 0), (Reg.PCI_STATUS, 1), (Reg.PCI_LINK_DOWN_CNT, 0), (Reg.PCI_EVENT, 0), (Reg.PCI_FLR_CNT, 0), (Reg.DMC_CTRL 0, 1), (Reg.DMC_RGN_CFG 0 0, 65536 + 8192), (Reg.DMC_RGN_BASE 0 0, 0), (Reg.DMC_CH_STATUS 0 0, 1), (Reg.ARB_DLINK_DOWN 0, 0), (Reg.GEN_SCRATCH 0, 7), (Reg.PWR_DOM_STATE 64, 0)]) (fun d => { d with jtag := { ir := .dbgAccess }, dram := [(3, 9)], cm := [(5, 8)] })), 0, (0, 0, 0), by decide +kernel⟩,
   ⟨(ws (wreach ++ [(Reg.BOOT_COUNT, 3), (Reg.BOOT_STATUS, 10), (Reg.SEC_STATUS, 32), (Reg.GEN_DBG_CTRL, 0), (Reg.GEN_DBG_CNT, 4), (Reg.GEN_DBG_REFUSED_CNT, 5), (Reg.GEN_STATUS, 0), (Reg.PCI_STATUS, 1), (Reg.PCI_LINK_DOWN_CNT, 0), (Reg.PCI_EVENT, 0), (Reg.PCI_FLR_CNT, 0), (Reg.DMC_CTRL 0, 1), (Reg.DMC_RGN_CFG 0 0, 65536 + 8192), (Reg.DMC_RGN_BASE 0 0, 0), (Reg.DMC_CH_STATUS 0 0, 1), (Reg.ARB_DLINK_DOWN 0, 0), (Reg.GEN_SCRATCH 0, 7), (Reg.PWR_DOM_STATE 64, 0)]) (fun d => { d with jtag := { ir := .dbgAccess } })), 2 ^ 36, by decide +kernel⟩,
   ⟨(ws (wreach ++ [(Reg.BOOT_COUNT, 3), (Reg.BOOT_STATUS, 10), (Reg.SEC_STATUS, 32), (Reg.GEN_DBG_CTRL, 0), (Reg.GEN_DBG_CNT, 4), (Reg.GEN_DBG_REFUSED_CNT, 5), (Reg.GEN_STATUS, 0), (Reg.PCI_STATUS, 1), (Reg.PCI_LINK_DOWN_CNT, 0), (Reg.PCI_EVENT, 0), (Reg.PCI_FLR_CNT, 0), (Reg.DMC_CTRL 0, 1), (Reg.DMC_RGN_CFG 0 0, 65536 + 8192), (Reg.DMC_RGN_BASE 0 0, 0), (Reg.DMC_CH_STATUS 0 0, 1), (Reg.ARB_DLINK_DOWN 0, 0), (Reg.GEN_SCRATCH 0, 7), (Reg.PWR_DOM_STATE 64, 0)]) (fun d => { d with jtag := { ir := .dbgAccess } })), 1, by decide +kernel⟩,
   ⟨(ws (wreach ++ [(Reg.BOOT_COUNT, 3), (Reg.BOOT_STATUS, 10), (Reg.SEC_STATUS, 32), (Reg.GEN_DBG_CTRL, 0), (Reg.GEN_DBG_CNT, 4), (Reg.GEN_DBG_REFUSED_CNT, 5), (Reg.GEN_STATUS, 0), (Reg.PCI_STATUS, 1), (Reg.PCI_LINK_DOWN_CNT, 0), (Reg.PCI_EVENT, 0), (Reg.PCI_FLR_CNT, 0), (Reg.DMC_CTRL 0, 1), (Reg.DMC_RGN_CFG 0 0, 65536 + 8192), (Reg.DMC_RGN_BASE 0 0, 0), (Reg.DMC_CH_STATUS 0 0, 1), (Reg.ARB_DLINK_DOWN 0, 0), (Reg.GEN_SCRATCH 0, 7), (Reg.PWR_DOM_STATE 64, 0)]) (fun d => { d with jtag := { ir := .dbgAccess }, dram := [(3, 9)], cm := [(5, 8)] })), 0, by decide +kernel⟩,
   ⟨(ws (wreach ++ [(Reg.BOOT_COUNT, 3), (Reg.BOOT_STATUS, 10), (Reg.SEC_STATUS, 32), (Reg.GEN_DBG_CTRL, 0), (Reg.GEN_DBG_CNT, 4), (Reg.GEN_DBG_REFUSED_CNT, 5), (Reg.GEN_STATUS, 0), (Reg.PCI_STATUS, 1), (Reg.PCI_LINK_DOWN_CNT, 0), (Reg.PCI_EVENT, 0), (Reg.PCI_FLR_CNT, 0), (Reg.DMC_CTRL 0, 1), (Reg.DMC_RGN_CFG 0 0, 65536 + 8192), (Reg.DMC_RGN_BASE 0 0, 0), (Reg.DMC_CH_STATUS 0 0, 1), (Reg.ARB_DLINK_DOWN 0, 0), (Reg.GEN_SCRATCH 0, 7), (Reg.PWR_DOM_STATE 64, 0)]) (fun d => { d with jtag := { ir := .dbgAccess } })), 1, by decide +kernel⟩⟩

theorem witness_BootStagesEndOrFail :
    (∃ (s : State), inReset s.dev = false ∧ stage s.dev ≠ 1) ∧
    (∃ (s : State), inReset s.dev = false ∧ stage s.dev = 1) ∧
    (∃ (s : State), inReset s.dev = false ∧ stage s.dev = 1 ∧ s.dev.bt.rel + 10000 < 2 ^ 64) ∧
    (∃ (s : State), inReset s.dev = false ∧ stage s.dev = 1) ∧
    (∃ (s : State), inReset s.dev = false ∧ stage s.dev ≠ 2) ∧
    (∃ (s : State) (dens : Option Nat), inReset s.dev = false ∧ stage s.dev = 2 ∧ dens.getD 0 < 64 * 2 ^ 20) ∧
    (∃ (s : State) (n : Nat), inReset s.dev = false ∧ stage s.dev = 2 ∧ 64 * 2 ^ 20 ≤ n) ∧
    (∃ (s : State), inReset s.dev = false ∧ stage s.dev ≠ 3) ∧
    (∃ (s : State) (co : Bool) (so : Bool), inReset s.dev = false ∧ stage s.dev = 3 ∧ (hdrOk s.dev (slotOf s.dev) = false ∨ so = false ∨ (certOfs
      s.dev (slotOf s.dev) ≠ 0 ∧ (co = false ∨ scopeOk s.dev (slotOf s.dev) = false)))) ∧
    (∃ (s : State) (co : Bool), inReset s.dev = false ∧ stage s.dev = 3 ∧ hdrOk s.dev (slotOf s.dev) = true ∧ (certOfs s.dev (slotOf s.dev) = 0 ∨ (co
      = true ∧ scopeOk s.dev (slotOf s.dev) = true))) ∧
    (∃ (s : State), inReset s.dev = false ∧ (stage s.dev ≠ 4 ∨ s.dev.bt.next ≠ 0)) ∧
    (∃ (s : State) (dg : List Byte) (z : Sect), inReset s.dev = false ∧ stage s.dev = 4 ∧ s.dev.bt.next = 0 ∧ (s.dev.bt.sects = [] ∨
      (s.dev.bt.sects.head? = some z ∧ (z.kind ≠ 1 ∨ z.source ≠ 0 ∨ dg ≠ z.digest)))) ∧
    (∃ (s : State) (dg : List Byte) (z : Sect) (x : Bool × Dev), inReset s.dev = false ∧ stage s.dev = 4 ∧ s.dev.bt.next = 0 ∧ s.dev.bt.sects.head? =
      some z ∧ z.kind = 1 ∧ z.source = 0 ∧ dg = z.digest ∧ x = runPairs (z.len / 8) (slotBase s.dev (slotOf s.dev) + z.ofs) (imageDefaults s.dev)) ∧
    (∃ (s : State), inReset s.dev = false ∧ (stage s.dev ≠ 5 ∨ nextSect s.dev s.dev.bt.next = none)) ∧
    (∃ (s : State) (dg : List Byte) (i : Nat) (z : Sect), inReset s.dev = false ∧ stage s.dev = 5 ∧ nextSect s.dev s.dev.bt.next = some (i, z) ∧ dg =
      z.digest ∧ (nextSect s.dev (i + 1)).isSome = true ∧ i < 64 ∧ z.dest + z.len ≤ dramBytes) ∧
    (∃ (s : State) (dg : List Byte) (i : Nat) (z : Sect), inReset s.dev = false ∧ stage s.dev = 5 ∧ nextSect s.dev s.dev.bt.next = some (i, z) ∧ dg =
      z.digest ∧ nextSect s.dev (i + 1) = none ∧ i < 64) ∧
    (∃ (s : State) (dg : List Byte) (i : Nat) (z : Sect), inReset s.dev = false ∧ stage s.dev = 5 ∧ nextSect s.dev s.dev.bt.next = some (i, z) ∧ dg ≠
      z.digest) ∧
    (∃ (s : State), inReset s.dev = false ∧ stage s.dev ≠ 7) ∧
    (∃ (s : State) (blk : List Nat), inReset s.dev = false ∧ stage s.dev = 7 ∧ (∀ b ∈ blk, b / 256 = 8 → b % 256 < 16)) ∧
    (∃ (s : State), inReset s.dev = false ∧ stage s.dev ≠ 8) ∧
    (∃ (s : State), inReset s.dev = false ∧ stage s.dev = 8) ∧
    (∃ (s : State) (n : Nat), inReset s.dev = false ∧ stageBound s.dev = some n ∧ s.dev.bt.reload = false ∧ s.dev.bt.at_ + n < 2 ^ 64) ∧
    (∃ (s : State), inReset s.dev = false ∧ (stageBound s.dev = none ∨ s.dev.bt.reload = true)) :=
  ⟨⟨(ws [(Reg.BOOT_STATUS, 2), (Reg.BOOT_EVENT, 0), (Reg.BOOT_COUNT, 3), (Reg.BOOT_CMD_RESULT, 9), (Reg.BOOT_VERSION_LO, 0), (Reg.BOOT_VERSION_LO + 4, 0), (Reg.BOOT_OTHER_VER_LO, 0), (Reg.BOOT_OTHER_VER_LO + 4, 0), (Reg.BOOT_SECT_OK_LO, 0), (Reg.BOOT_SECT_OK_LO + 4, 0), (Reg.BOOT_SECT_PEND_LO, 0), (Reg.BOOT_SECT_PEND_LO + 4, 0), (Reg.SEC_STATUS, 0), (Reg.SEC_EVENT, 0), (Reg.PCI_STATUS, 2049), (Reg.TIDE_CTRL, 0), (Reg.TIDE_STATUS, 12), (Reg.DMC_STATUS 0, 0), (Reg.DMC_STATUS 1, 0)] (fun d => (id) { d with bt := {  }, time := { ns := 10 } })), by decide +kernel⟩,
   ⟨(ws [(Reg.BOOT_STATUS, 1), (Reg.BOOT_EVENT, 0), (Reg.BOOT_COUNT, 3), (Reg.BOOT_CMD_RESULT, 9), (Reg.BOOT_VERSION_LO, 0), (Reg.BOOT_VERSION_LO + 4, 0), (Reg.BOOT_OTHER_VER_LO, 0), (Reg.BOOT_OTHER_VER_LO + 4, 0), (Reg.BOOT_SECT_OK_LO, 0), (Reg.BOOT_SECT_OK_LO + 4, 0), (Reg.BOOT_SECT_PEND_LO, 0), (Reg.BOOT_SECT_PEND_LO + 4, 0), (Reg.SEC_STATUS, 0), (Reg.SEC_EVENT, 0), (Reg.PCI_STATUS, 2049), (Reg.TIDE_CTRL, 0), (Reg.TIDE_STATUS, 12), (Reg.DMC_STATUS 0, 0), (Reg.DMC_STATUS 1, 0)] (fun d => (id) { d with bt := {  }, time := { ns := 10 } })), by decide +kernel⟩,
   ⟨(ws [(Reg.BOOT_STATUS, 1), (Reg.BOOT_EVENT, 0), (Reg.BOOT_COUNT, 3), (Reg.BOOT_CMD_RESULT, 9), (Reg.BOOT_VERSION_LO, 0), (Reg.BOOT_VERSION_LO + 4, 0), (Reg.BOOT_OTHER_VER_LO, 0), (Reg.BOOT_OTHER_VER_LO + 4, 0), (Reg.BOOT_SECT_OK_LO, 0), (Reg.BOOT_SECT_OK_LO + 4, 0), (Reg.BOOT_SECT_PEND_LO, 0), (Reg.BOOT_SECT_PEND_LO + 4, 0), (Reg.SEC_STATUS, 0), (Reg.SEC_EVENT, 0), (Reg.PCI_STATUS, 2049), (Reg.TIDE_CTRL, 0), (Reg.TIDE_STATUS, 12), (Reg.DMC_STATUS 0, 0), (Reg.DMC_STATUS 1, 0)] (fun d => (id) { d with bt := {  }, time := { ns := 10 } })), by decide +kernel⟩,
   ⟨(ws [(Reg.BOOT_STATUS, 1), (Reg.BOOT_EVENT, 0), (Reg.BOOT_COUNT, 3), (Reg.BOOT_CMD_RESULT, 9), (Reg.BOOT_VERSION_LO, 0), (Reg.BOOT_VERSION_LO + 4, 0), (Reg.BOOT_OTHER_VER_LO, 0), (Reg.BOOT_OTHER_VER_LO + 4, 0), (Reg.BOOT_SECT_OK_LO, 0), (Reg.BOOT_SECT_OK_LO + 4, 0), (Reg.BOOT_SECT_PEND_LO, 0), (Reg.BOOT_SECT_PEND_LO + 4, 0), (Reg.SEC_STATUS, 0), (Reg.SEC_EVENT, 0), (Reg.PCI_STATUS, 2049), (Reg.TIDE_CTRL, 0), (Reg.TIDE_STATUS, 12), (Reg.DMC_STATUS 0, 0), (Reg.DMC_STATUS 1, 0)] (fun d => (id) { d with bt := {  }, time := { ns := 10 } })), by decide +kernel⟩,
   ⟨(ws [(Reg.BOOT_STATUS, 1), (Reg.BOOT_EVENT, 0), (Reg.BOOT_COUNT, 3), (Reg.BOOT_CMD_RESULT, 9), (Reg.BOOT_VERSION_LO, 0), (Reg.BOOT_VERSION_LO + 4, 0), (Reg.BOOT_OTHER_VER_LO, 0), (Reg.BOOT_OTHER_VER_LO + 4, 0), (Reg.BOOT_SECT_OK_LO, 0), (Reg.BOOT_SECT_OK_LO + 4, 0), (Reg.BOOT_SECT_PEND_LO, 0), (Reg.BOOT_SECT_PEND_LO + 4, 0), (Reg.SEC_STATUS, 0), (Reg.SEC_EVENT, 0), (Reg.PCI_STATUS, 2049), (Reg.TIDE_CTRL, 0), (Reg.TIDE_STATUS, 12), (Reg.DMC_STATUS 0, 0), (Reg.DMC_STATUS 1, 0)] (fun d => (id) { d with bt := {  }, time := { ns := 10 } })), by decide +kernel⟩,
   ⟨(ws [(Reg.BOOT_STATUS, 2), (Reg.BOOT_EVENT, 0), (Reg.BOOT_COUNT, 3), (Reg.BOOT_CMD_RESULT, 9), (Reg.BOOT_VERSION_LO, 0), (Reg.BOOT_VERSION_LO + 4, 0), (Reg.BOOT_OTHER_VER_LO, 0), (Reg.BOOT_OTHER_VER_LO + 4, 0), (Reg.BOOT_SECT_OK_LO, 0), (Reg.BOOT_SECT_OK_LO + 4, 0), (Reg.BOOT_SECT_PEND_LO, 0), (Reg.BOOT_SECT_PEND_LO + 4, 0), (Reg.SEC_STATUS, 0), (Reg.SEC_EVENT, 0), (Reg.PCI_STATUS, 2049), (Reg.TIDE_CTRL, 0), (Reg.TIDE_STATUS, 12), (Reg.DMC_STATUS 0, 0), (Reg.DMC_STATUS 1, 0)] (fun d => (id) { d with bt := {  }, time := { ns := 10 } })), (none), by decide +kernel⟩,
   ⟨(ws [(Reg.BOOT_STATUS, 2), (Reg.BOOT_EVENT, 0), (Reg.BOOT_COUNT, 3), (Reg.BOOT_CMD_RESULT, 9), (Reg.BOOT_VERSION_LO, 0), (Reg.BOOT_VERSION_LO + 4, 0), (Reg.BOOT_OTHER_VER_LO, 0), (Reg.BOOT_OTHER_VER_LO + 4, 0), (Reg.BOOT_SECT_OK_LO, 0), (Reg.BOOT_SECT_OK_LO + 4, 0), (Reg.BOOT_SECT_PEND_LO, 0), (Reg.BOOT_SECT_PEND_LO + 4, 0), (Reg.SEC_STATUS, 0), (Reg.SEC_EVENT, 0), (Reg.PCI_STATUS, 2049), (Reg.TIDE_CTRL, 0), (Reg.TIDE_STATUS, 12), (Reg.DMC_STATUS 0, 0), (Reg.DMC_STATUS 1, 0)] (fun d => (id) { d with bt := {  }, time := { ns := 10 } })), (67108864), by decide +kernel⟩,
   ⟨(ws [(Reg.BOOT_STATUS, 1), (Reg.BOOT_EVENT, 0), (Reg.BOOT_COUNT, 3), (Reg.BOOT_CMD_RESULT, 9), (Reg.BOOT_VERSION_LO, 0), (Reg.BOOT_VERSION_LO + 4, 0), (Reg.BOOT_OTHER_VER_LO, 0), (Reg.BOOT_OTHER_VER_LO + 4, 0), (Reg.BOOT_SECT_OK_LO, 0), (Reg.BOOT_SECT_OK_LO + 4, 0), (Reg.BOOT_SECT_PEND_LO, 0), (Reg.BOOT_SECT_PEND_LO + 4, 0), (Reg.SEC_STATUS, 0), (Reg.SEC_EVENT, 0), (Reg.PCI_STATUS, 2049), (Reg.TIDE_CTRL, 0), (Reg.TIDE_STATUS, 12), (Reg.DMC_STATUS 0, 0), (Reg.DMC_STATUS 1, 0)] (fun d => (id) { d with bt := {  }, time := { ns := 10 } })), by decide +kernel⟩,
   ⟨(ws [(Reg.BOOT_STATUS, 3), (Reg.BOOT_EVENT, 0), (Reg.BOOT_COUNT, 3), (Reg.BOOT_CMD_RESULT, 9), (Reg.BOOT_VERSION_LO, 0), (Reg.BOOT_VERSION_LO + 4, 0), (Reg.BOOT_OTHER_VER_LO, 0), (Reg.BOOT_OTHER_VER_LO + 4, 0), (Reg.BOOT_SECT_OK_LO, 0), (Reg.BOOT_SECT_OK_LO + 4, 0), (Reg.BOOT_SECT_PEND_LO, 0), (Reg.BOOT_SECT_PEND_LO + 4, 0), (Reg.SEC_STATUS, 0), (Reg.SEC_EVENT, 0), (Reg.PCI_STATUS, 2049), (Reg.TIDE_CTRL, 0), (Reg.TIDE_STATUS, 12), (Reg.DMC_STATUS 0, 0), (Reg.DMC_STATUS 1, 0)] (fun d => (id) { d with bt := {  }, time := { ns := 10 } })), (true), (false), by decide +kernel⟩,
   ⟨(wboot), (true), by decide +kernel, by decide +kernel, (by rw [show slotOf wboot.dev = 0 by decide +kernel]; exact wboot_ok), .inl (by rw [show slotOf wboot.dev = 0 by decide +kernel]; unfold certOfs hd flLE flBytes; rw [wboot_fl, show slotBase wboot.dev 0 = 0x400000 by decide +kernel]; decide +kernel)⟩,
   ⟨(ws [(Reg.BOOT_STATUS, 1), (Reg.BOOT_EVENT, 0), (Reg.BOOT_COUNT, 3), (Reg.BOOT_CMD_RESULT, 9), (Reg.BOOT_VERSION_LO, 0), (Reg.BOOT_VERSION_LO + 4, 0), (Reg.BOOT_OTHER_VER_LO, 0), (Reg.BOOT_OTHER_VER_LO + 4, 0), (Reg.BOOT_SECT_OK_LO, 0), (Reg.BOOT_SECT_OK_LO + 4, 0), (Reg.BOOT_SECT_PEND_LO, 0), (Reg.BOOT_SECT_PEND_LO + 4, 0), (Reg.SEC_STATUS, 0), (Reg.SEC_EVENT, 0), (Reg.PCI_STATUS, 2049), (Reg.TIDE_CTRL, 0), (Reg.TIDE_STATUS, 12), (Reg.DMC_STATUS 0, 0), (Reg.DMC_STATUS 1, 0)] (fun d => (id) { d with bt := {  }, time := { ns := 10 } })), by decide +kernel⟩,
   ⟨(ws [(Reg.BOOT_STATUS, 4), (Reg.BOOT_EVENT, 0), (Reg.BOOT_COUNT, 3), (Reg.BOOT_CMD_RESULT, 9), (Reg.BOOT_VERSION_LO, 0), (Reg.BOOT_VERSION_LO + 4, 0), (Reg.BOOT_OTHER_VER_LO, 0), (Reg.BOOT_OTHER_VER_LO + 4, 0), (Reg.BOOT_SECT_OK_LO, 0), (Reg.BOOT_SECT_OK_LO + 4, 0), (Reg.BOOT_SECT_PEND_LO, 0), (Reg.BOOT_SECT_PEND_LO + 4, 0), (Reg.SEC_STATUS, 0), (Reg.SEC_EVENT, 0), (Reg.PCI_STATUS, 2049), (Reg.TIDE_CTRL, 0), (Reg.TIDE_STATUS, 12), (Reg.DMC_STATUS 0, 0), (Reg.DMC_STATUS 1, 0)] (fun d => (id) { d with bt := {  }, time := { ns := 10 } })), [], ({ kind := 2, source := 0, coves := 0, ofs := 16384, len := 2, dest := 256, digest := [7] } : Sect), by decide +kernel⟩,
   ⟨(wdevS), [7], ({ kind := 1, source := 0, coves := 0, ofs := 16384, len := 32, dest := 0, digest := [7] } : Sect), (runPairs 4 (slotBase (wdevS : State).dev (slotOf (wdevS : State).dev) + 16384) (imageDefaults (wdevS : State).dev)), by decide +kernel, by decide +kernel, rfl, rfl, rfl, rfl, rfl, rfl⟩,
   ⟨(ws [(Reg.BOOT_STATUS, 1), (Reg.BOOT_EVENT, 0), (Reg.BOOT_COUNT, 3), (Reg.BOOT_CMD_RESULT, 9), (Reg.BOOT_VERSION_LO, 0), (Reg.BOOT_VERSION_LO + 4, 0), (Reg.BOOT_OTHER_VER_LO, 0), (Reg.BOOT_OTHER_VER_LO + 4, 0), (Reg.BOOT_SECT_OK_LO, 0), (Reg.BOOT_SECT_OK_LO + 4, 0), (Reg.BOOT_SECT_PEND_LO, 0), (Reg.BOOT_SECT_PEND_LO + 4, 0), (Reg.SEC_STATUS, 0), (Reg.SEC_EVENT, 0), (Reg.PCI_STATUS, 2049), (Reg.TIDE_CTRL, 0), (Reg.TIDE_STATUS, 12), (Reg.DMC_STATUS 0, 0), (Reg.DMC_STATUS 1, 0)] (fun d => (id) { d with bt := {  }, time := { ns := 10 } })), by decide +kernel⟩,
   ⟨(ws [(Reg.BOOT_STATUS, 5), (Reg.BOOT_EVENT, 0), (Reg.BOOT_COUNT, 3), (Reg.BOOT_CMD_RESULT, 9), (Reg.BOOT_VERSION_LO, 0), (Reg.BOOT_VERSION_LO + 4, 0), (Reg.BOOT_OTHER_VER_LO, 0), (Reg.BOOT_OTHER_VER_LO + 4, 0), (Reg.BOOT_SECT_OK_LO, 0), (Reg.BOOT_SECT_OK_LO + 4, 0), (Reg.BOOT_SECT_PEND_LO, 0), (Reg.BOOT_SECT_PEND_LO + 4, 0), (Reg.SEC_STATUS, 0), (Reg.SEC_EVENT, 0), (Reg.PCI_STATUS, 2049), (Reg.TIDE_CTRL, 0), (Reg.TIDE_STATUS, 12), (Reg.DMC_STATUS 0, 0), (Reg.DMC_STATUS 1, 0)] (fun d => (id) { d with bt := { next := 1, sects := [({ kind := 1, source := 0, coves := 0, ofs := 16384, len := 32, dest := 0, digest := [7] } : Sect), ({ kind := 2, source := 0, coves := 0, ofs := 16384, len := 2, dest := 256, digest := [7] } : Sect), ({ kind := 2, source := 0, coves := 0, ofs := 16384, len := 2, dest := 256, digest := [7] } : Sect)] }, time := { ns := 10 } })), [7], 1, ({ kind := 2, source := 0, coves := 0, ofs := 16384, len := 2, dest := 256, digest := [7] } : Sect), by decide +kernel⟩,
   ⟨(ws [(Reg.BOOT_STATUS, 5), (Reg.BOOT_EVENT, 0), (Reg.BOOT_COUNT, 3), (Reg.BOOT_CMD_RESULT, 9), (Reg.BOOT_VERSION_LO, 0), (Reg.BOOT_VERSION_LO + 4, 0), (Reg.BOOT_OTHER_VER_LO, 0), (Reg.BOOT_OTHER_VER_LO + 4, 0), (Reg.BOOT_SECT_OK_LO, 0), (Reg.BOOT_SECT_OK_LO + 4, 0), (Reg.BOOT_SECT_PEND_LO, 0), (Reg.BOOT_SECT_PEND_LO + 4, 0), (Reg.SEC_STATUS, 0), (Reg.SEC_EVENT, 0), (Reg.PCI_STATUS, 2049), (Reg.TIDE_CTRL, 0), (Reg.TIDE_STATUS, 12), (Reg.DMC_STATUS 0, 0), (Reg.DMC_STATUS 1, 0), (Reg.GEN_IRQ_EN, 0)] (fun d => (id) { d with bt := { next := 1, flags := 1, sects := [({ kind := 1, source := 0, coves := 0, ofs := 16384, len := 32, dest := 0, digest := [7] } : Sect), ({ kind := 2, source := 0, coves := 0, ofs := 16384, len := 2, dest := 256, digest := [7] } : Sect)] }, time := { ns := 10 } })), [7], 1, ({ kind := 2, source := 0, coves := 0, ofs := 16384, len := 2, dest := 256, digest := [7] } : Sect), by decide +kernel⟩,
   ⟨(ws [(Reg.BOOT_STATUS, 5), (Reg.BOOT_EVENT, 0), (Reg.BOOT_COUNT, 3), (Reg.BOOT_CMD_RESULT, 9), (Reg.BOOT_VERSION_LO, 0), (Reg.BOOT_VERSION_LO + 4, 0), (Reg.BOOT_OTHER_VER_LO, 0), (Reg.BOOT_OTHER_VER_LO + 4, 0), (Reg.BOOT_SECT_OK_LO, 0), (Reg.BOOT_SECT_OK_LO + 4, 0), (Reg.BOOT_SECT_PEND_LO, 0), (Reg.BOOT_SECT_PEND_LO + 4, 0), (Reg.SEC_STATUS, 0), (Reg.SEC_EVENT, 0), (Reg.PCI_STATUS, 2049), (Reg.TIDE_CTRL, 0), (Reg.TIDE_STATUS, 12), (Reg.DMC_STATUS 0, 0), (Reg.DMC_STATUS 1, 0)] (fun d => (id) { d with bt := { next := 1, sects := [({ kind := 1, source := 0, coves := 0, ofs := 16384, len := 32, dest := 0, digest := [7] } : Sect), ({ kind := 2, source := 0, coves := 0, ofs := 16384, len := 2, dest := 256, digest := [7] } : Sect)] }, time := { ns := 10 } })), [8], 1, ({ kind := 2, source := 0, coves := 0, ofs := 16384, len := 2, dest := 256, digest := [7] } : Sect), by decide +kernel⟩,
   ⟨(ws [(Reg.BOOT_STATUS, 1), (Reg.BOOT_EVENT, 0), (Reg.BOOT_COUNT, 3), (Reg.BOOT_CMD_RESULT, 9), (Reg.BOOT_VERSION_LO, 0), (Reg.BOOT_VERSION_LO + 4, 0), (Reg.BOOT_OTHER_VER_LO, 0), (Reg.BOOT_OTHER_VER_LO + 4, 0), (Reg.BOOT_SECT_OK_LO, 0), (Reg.BOOT_SECT_OK_LO + 4, 0), (Reg.BOOT_SECT_PEND_LO, 0), (Reg.BOOT_SECT_PEND_LO + 4, 0), (Reg.SEC_STATUS, 0), (Reg.SEC_EVENT, 0), (Reg.PCI_STATUS, 2049), (Reg.TIDE_CTRL, 0), (Reg.TIDE_STATUS, 12), (Reg.DMC_STATUS 0, 0), (Reg.DMC_STATUS 1, 0)] (fun d => (id) { d with bt := {  }, time := { ns := 10 } })), by decide +kernel⟩,
   ⟨(ws [(Reg.BOOT_STATUS, 7), (Reg.BOOT_EVENT, 0), (Reg.BOOT_COUNT, 3), (Reg.BOOT_CMD_RESULT, 9), (Reg.BOOT_VERSION_LO, 0), (Reg.BOOT_VERSION_LO + 4, 0), (Reg.BOOT_OTHER_VER_LO, 0), (Reg.BOOT_OTHER_VER_LO + 4, 0), (Reg.BOOT_SECT_OK_LO, 0), (Reg.BOOT_SECT_OK_LO + 4, 0), (Reg.BOOT_SECT_PEND_LO, 0), (Reg.BOOT_SECT_PEND_LO + 4, 0), (Reg.SEC_STATUS, 0), (Reg.SEC_EVENT, 0), (Reg.PCI_STATUS, 2049), (Reg.TIDE_CTRL, 0), (Reg.TIDE_STATUS, 12), (Reg.DMC_STATUS 0, 0), (Reg.DMC_STATUS 1, 0), (Reg.ARR_BIST_STATUS 3, 1), (Reg.PWR_DOM_STATE 3, 0), (Reg.ARR_BIST_STATUS 4, 1), (Reg.PWR_DOM_STATE 4, 0)] (fun d => (id) { d with bt := {  }, time := { ns := 10 } })), ([2049]), by decide +kernel⟩,
   ⟨(ws [(Reg.BOOT_STATUS, 1), (Reg.BOOT_EVENT, 0), (Reg.BOOT_COUNT, 3), (Reg.BOOT_CMD_RESULT, 9), (Reg.BOOT_VERSION_LO, 0), (Reg.BOOT_VERSION_LO + 4, 0), (Reg.BOOT_OTHER_VER_LO, 0), (Reg.BOOT_OTHER_VER_LO + 4, 0), (Reg.BOOT_SECT_OK_LO, 0), (Reg.BOOT_SECT_OK_LO + 4, 0), (Reg.BOOT_SECT_PEND_LO, 0), (Reg.BOOT_SECT_PEND_LO + 4, 0), (Reg.SEC_STATUS, 0), (Reg.SEC_EVENT, 0), (Reg.PCI_STATUS, 2049), (Reg.TIDE_CTRL, 0), (Reg.TIDE_STATUS, 12), (Reg.DMC_STATUS 0, 0), (Reg.DMC_STATUS 1, 0)] (fun d => (id) { d with bt := {  }, time := { ns := 10 } })), by decide +kernel⟩,
   ⟨(ws [(Reg.BOOT_STATUS, 8), (Reg.BOOT_EVENT, 0), (Reg.BOOT_COUNT, 3), (Reg.BOOT_CMD_RESULT, 9), (Reg.BOOT_VERSION_LO, 0), (Reg.BOOT_VERSION_LO + 4, 0), (Reg.BOOT_OTHER_VER_LO, 0), (Reg.BOOT_OTHER_VER_LO + 4, 0), (Reg.BOOT_SECT_OK_LO, 0), (Reg.BOOT_SECT_OK_LO + 4, 0), (Reg.BOOT_SECT_PEND_LO, 0), (Reg.BOOT_SECT_PEND_LO + 4, 0), (Reg.SEC_STATUS, 0), (Reg.SEC_EVENT, 0), (Reg.PCI_STATUS, 2049), (Reg.TIDE_CTRL, 0), (Reg.TIDE_STATUS, 12), (Reg.DMC_STATUS 0, 0), (Reg.DMC_STATUS 1, 0), (Reg.KVF_STATUS, 2), (Reg.KVF_FRAMES0, 1), (Reg.KVF_FRAMES1, 0)] (fun d => (id) { d with bt := {  }, time := { ns := 10 } })), by decide +kernel⟩,
   ⟨(ws [(Reg.BOOT_STATUS, 1), (Reg.BOOT_EVENT, 0), (Reg.BOOT_COUNT, 3), (Reg.BOOT_CMD_RESULT, 9), (Reg.BOOT_VERSION_LO, 0), (Reg.BOOT_VERSION_LO + 4, 0), (Reg.BOOT_OTHER_VER_LO, 0), (Reg.BOOT_OTHER_VER_LO + 4, 0), (Reg.BOOT_SECT_OK_LO, 0), (Reg.BOOT_SECT_OK_LO + 4, 0), (Reg.BOOT_SECT_PEND_LO, 0), (Reg.BOOT_SECT_PEND_LO + 4, 0), (Reg.SEC_STATUS, 0), (Reg.SEC_EVENT, 0), (Reg.PCI_STATUS, 2049), (Reg.TIDE_CTRL, 0), (Reg.TIDE_STATUS, 12), (Reg.DMC_STATUS 0, 0), (Reg.DMC_STATUS 1, 0)] (fun d => (id) { d with bt := {  }, time := { ns := 10 } })), (5000000), by decide +kernel⟩,
   ⟨(ws [(Reg.BOOT_STATUS, 10), (Reg.BOOT_EVENT, 0), (Reg.BOOT_COUNT, 3), (Reg.BOOT_CMD_RESULT, 9), (Reg.BOOT_VERSION_LO, 0), (Reg.BOOT_VERSION_LO + 4, 0), (Reg.BOOT_OTHER_VER_LO, 0), (Reg.BOOT_OTHER_VER_LO + 4, 0), (Reg.BOOT_SECT_OK_LO, 0), (Reg.BOOT_SECT_OK_LO + 4, 0), (Reg.BOOT_SECT_PEND_LO, 0), (Reg.BOOT_SECT_PEND_LO + 4, 0), (Reg.SEC_STATUS, 0), (Reg.SEC_EVENT, 0), (Reg.PCI_STATUS, 2049), (Reg.TIDE_CTRL, 0), (Reg.TIDE_STATUS, 12), (Reg.DMC_STATUS 0, 0), (Reg.DMC_STATUS 1, 0)] (fun d => (id) { d with bt := {  }, time := { ns := 10 } })), by decide +kernel⟩⟩

theorem witness_BootCommandsAndAttestation :
    (∃ (s : State), inReset s.dev = false ∧ bootBusy s.dev = true) ∧
    (∃ (s : State), inReset s.dev = false ∧ bootBusy s.dev = true) ∧
    (∃ (s : State), inReset s.dev = false ∧ bootBusy s.dev = true) ∧
    (∃ (s : State), inReset s.dev = false ∧ bootBusy s.dev = true) ∧
    (∃ (s : State), inReset s.dev = false ∧ bootBusy s.dev = true) ∧
    (∃ (s : State), inReset s.dev = false ∧ bootBusy s.dev = true) ∧
    (∃ (s : State), inReset s.dev = false ∧ bootBusy s.dev = true) ∧
    (∃ (s : State), inReset s.dev = false ∧ bootBusy s.dev = false ∧ gateOpen s.dev = true) ∧
    (∃ (s : State), inReset s.dev = false ∧ bootBusy s.dev = false ∧ tst s.dev Reg.BOOT_STATUS 12 = false) ∧
    (∃ (s : State), inReset s.dev = false ∧ bootBusy s.dev = false ∧ tst s.dev Reg.BOOT_STATUS 12 = true ∧ gateOpen s.dev = false) ∧
    (∃ (s : State), inReset s.dev = false ∧ bootBusy s.dev = false ∧ gateOpen s.dev = true) ∧
    (∃ (s : State), inReset s.dev = false ∧ bootBusy s.dev = false ∧ tst s.dev Reg.BOOT_STATUS 12 = false) ∧
    (∃ (s : State), inReset s.dev = false ∧ tst s.dev Reg.BOOT_STATUS 12 = true ∧ s.dev.bt.at_ + s.dev.bt.gateLim * 1000000 < 2 ^ 64) ∧
    (∃ (s : State), inReset s.dev = false ∧ tst s.dev Reg.BOOT_STATUS 12 = false) ∧
    (∃ (s : State) (i : Fin 64), inReset s.dev = false ∧ bootBusy s.dev = false ∧ bitOf (rd64 s.dev Reg.BOOT_SECT_PEND_LO) i = true) ∧
    (∃ (s : State) (i : Fin 64), inReset s.dev = false ∧ bootBusy s.dev = false ∧ bitOf (rd64 s.dev Reg.BOOT_SECT_PEND_LO) i = false) ∧
    (∃ (s : State) (dg : List Byte) (i : Fin 64), inReset s.dev = false ∧ s.dev.bt.check = some i.val ∧ s.dev.bt.sects[i.val]?.map (·.digest) = some
      dg ∧ (∀ c : Fin 8, coveState s.dev c ≠ 1)) ∧
    (∃ (s : State) (dg : List Byte) (i : Fin 64), inReset s.dev = false ∧ s.dev.bt.check = some i.val ∧ s.dev.bt.sects[i.val]?.map (·.digest) ≠ some
      dg) ∧
    (∃ (s : State), inReset s.dev = false ∧ s.dev.bt.check = none) ∧
    (∃ (s : State) (a : Nat), inReset s.dev = false ∧ bootBusy s.dev = false ∧ a = rdN s.dev Reg.BOOT_FLASH_ADDR ∧ a % 65536 = 0 ∧ flashAllowed s.dev
      a 65536 = true) ∧
    (∃ (s : State) (a : Nat), inReset s.dev = false ∧ bootBusy s.dev = false ∧ a = rdN s.dev Reg.BOOT_FLASH_ADDR ∧ (a % 65536 ≠ 0 ∨ flashAllowed s.dev
      a 65536 = false)) ∧
    (∃ (s : State) (a : Nat), inReset s.dev = false ∧ bootBusy s.dev = false ∧ a = rdN s.dev Reg.BOOT_FLASH_ADDR ∧ a % 4096 = 0 ∧ flashAllowed s.dev a
      4096 = true) ∧
    (∃ (s : State) (a : Nat), inReset s.dev = false ∧ bootBusy s.dev = false ∧ a = rdN s.dev Reg.BOOT_FLASH_ADDR ∧ (a % 4096 ≠ 0 ∨ flashAllowed s.dev
      a 4096 = false)) ∧
    (∃ (s : State), inReset s.dev = false ∧ bootBusy s.dev = false ∧ s.dev.bt.dens ≠ 0) ∧
    (∃ (s : State), inReset s.dev = false ∧ bootBusy s.dev = false ∧ s.dev.bt.dens = 0) ∧
    (∃ (s : State), inReset s.dev = false ∧ bootBusy s.dev = false) ∧
    (∃ (s : State) (a : Nat) (os : List FlashOp), inReset s.dev = false ∧ s.dev.bt.ops = .erase a :: os) ∧
    (∃ (s : State) (a : Nat) (p : List Byte) (os : List FlashOp), inReset s.dev = false ∧ s.dev.bt.ops = .program a p :: os) ∧
    (∃ (s : State) (a : Nat) (o : FlashOp) (os : List FlashOp), inReset s.dev = false ∧ s.dev.bt.ops = o :: os ∧ (o = .erase a ∨ ∃ p, o = .program a p
      ∧ p.length ≤ 65536)) ∧
    (∃ (s : State) (n : Nat) (os : List FlashOp), inReset s.dev = false ∧ s.dev.bt.ops = .verify n :: os) ∧
    (∃ (s : State), inReset s.dev = false ∧ s.dev.bt.ops = []) ∧
    (∃ (s : State), inReset s.dev = false ∧ tst s.dev Reg.SEC_STATUS 0 = true ∧ tst s.dev Reg.SEC_STATUS 1 = false ∧ tst s.dev Reg.SEC_STATUS 2 =
      false) ∧
    (∃ (s : State), inReset s.dev = false ∧ (tst s.dev Reg.SEC_STATUS 0 = false ∨ tst s.dev Reg.SEC_STATUS 1 = true ∨ tst s.dev Reg.SEC_STATUS 2 =
      true)) ∧
    (∃ (s : State), inReset s.dev = false ∧ tst s.dev Reg.SEC_STATUS 2 = true ∧ s.dev.bt.ops = []) ∧
    (∃ (s : State), inReset s.dev = false ∧ (tst s.dev Reg.SEC_STATUS 2 = false ∨ s.dev.bt.ops ≠ [])) ∧
    (∃ (s : State), inReset s.dev = false ∧ tst s.dev Reg.SEC_STATUS 3 = true) ∧
    (∃ (s : State), inReset s.dev = false ∧ tst s.dev Reg.SEC_STATUS 3 = false ∧ (tst s.dev Reg.SEC_STATUS 0 = false ∨ tst s.dev Reg.SEC_STATUS 1 =
      false)) ∧
    (∃ (s : State), inReset s.dev = false ∧ tst s.dev Reg.SEC_STATUS 3 = false ∧ tst s.dev Reg.SEC_STATUS 0 = true ∧ tst s.dev Reg.SEC_STATUS 1 = true
      ∧ 65536 ≤ rdN s.dev Reg.SEC_XMSS_IDX) ∧
    (∃ (s : State), inReset s.dev = false ∧ tst s.dev Reg.SEC_STATUS 3 = false ∧ tst s.dev Reg.SEC_STATUS 0 = true ∧ tst s.dev Reg.SEC_STATUS 1 = true
      ∧ rdN s.dev Reg.SEC_XMSS_IDX < 65536 ∧ inRegions s.dev (baseAddr s.dev Reg.SEC_ATT_BUF_LO) 2952 = false) ∧
    (∃ (s : State), inReset s.dev = false ∧ tst s.dev Reg.SEC_STATUS 3 = false ∧ tst s.dev Reg.SEC_STATUS 0 = true ∧ tst s.dev Reg.SEC_STATUS 1 = true
      ∧ rdN s.dev Reg.SEC_XMSS_IDX < 65536 ∧ inRegions s.dev (baseAddr s.dev Reg.SEC_ATT_BUF_LO) 2952 = true) ∧
    (∃ (s : State) (a : Nat) (res : Fin 4) (rep : List Byte) (sig : List Byte), inReset s.dev = false ∧ s.dev.bt.att = some (rep, a) ∧ sig.length =
      2696 ∧ a + rep.length + 2696 ≤ dramBytes ∧ dramReach s.dev 0 a (rep.length + 2696) = none ∧ res.val ≠ 2 ∧ (res.val = 1 → rdN s.dev
      Reg.SEC_XMSS_IDX ≠ rdN s.dev Reg.SEC_XMSS_RES) ∧ (rdN s.dev Reg.SEC_XMSS_IDX = rdN s.dev Reg.SEC_XMSS_RES → s.dev.bt.ops = [])) ∧
    (∃ (s : State) (res : Fin 4) (x : List Byte × Nat), inReset s.dev = false ∧ s.dev.bt.att = some x ∧ (res.val = 2 ∨ (res.val = 1 ∧ rdN s.dev
      Reg.SEC_XMSS_IDX = rdN s.dev Reg.SEC_XMSS_RES ∧ s.dev.bt.ops = []))) ∧
    (∃ (s : State) (res : Fin 4), inReset s.dev = false ∧ (s.dev.bt.att = none ∨ (res.val ≠ 2 ∧ rdN s.dev Reg.SEC_XMSS_IDX = rdN s.dev
      Reg.SEC_XMSS_RES ∧ s.dev.bt.ops ≠ []))) :=
  ⟨⟨(ws [(Reg.BOOT_STATUS, 10), (Reg.BOOT_EVENT, 0), (Reg.BOOT_COUNT, 3), (Reg.BOOT_CMD_RESULT, 9), (Reg.BOOT_VERSION_LO, 0), (Reg.BOOT_VERSION_LO + 4, 0), (Reg.BOOT_OTHER_VER_LO, 0), (Reg.BOOT_OTHER_VER_LO + 4, 0), (Reg.BOOT_SECT_OK_LO, 0), (Reg.BOOT_SECT_OK_LO + 4, 0), (Reg.BOOT_SECT_PEND_LO, 0), (Reg.BOOT_SECT_PEND_LO + 4, 0), (Reg.SEC_STATUS, 0), (Reg.SEC_EVENT, 0), (Reg.PCI_STATUS, 2049), (Reg.TIDE_CTRL, 0), (Reg.TIDE_STATUS, 12), (Reg.DMC_STATUS 0, 0), (Reg.DMC_STATUS 1, 0)] (fun d => (id) { d with bt := { ops := [.erase 0] }, time := { ns := 10 } })), by decide +kernel⟩,
   ⟨(ws [(Reg.BOOT_STATUS, 10), (Reg.BOOT_EVENT, 0), (Reg.BOOT_COUNT, 3), (Reg.BOOT_CMD_RESULT, 9), (Reg.BOOT_VERSION_LO, 0), (Reg.BOOT_VERSION_LO + 4, 0), (Reg.BOOT_OTHER_VER_LO, 0), (Reg.BOOT_OTHER_VER_LO + 4, 0), (Reg.BOOT_SECT_OK_LO, 0), (Reg.BOOT_SECT_OK_LO + 4, 0), (Reg.BOOT_SECT_PEND_LO, 0), (Reg.BOOT_SECT_PEND_LO + 4, 0), (Reg.SEC_STATUS, 0), (Reg.SEC_EVENT, 0), (Reg.PCI_STATUS, 2049), (Reg.TIDE_CTRL, 0), (Reg.TIDE_STATUS, 12), (Reg.DMC_STATUS 0, 0), (Reg.DMC_STATUS 1, 0)] (fun d => (id) { d with bt := { ops := [.erase 0] }, time := { ns := 10 } })), by decide +kernel⟩,
   ⟨(ws [(Reg.BOOT_STATUS, 10), (Reg.BOOT_EVENT, 0), (Reg.BOOT_COUNT, 3), (Reg.BOOT_CMD_RESULT, 9), (Reg.BOOT_VERSION_LO, 0), (Reg.BOOT_VERSION_LO + 4, 0), (Reg.BOOT_OTHER_VER_LO, 0), (Reg.BOOT_OTHER_VER_LO + 4, 0), (Reg.BOOT_SECT_OK_LO, 0), (Reg.BOOT_SECT_OK_LO + 4, 0), (Reg.BOOT_SECT_PEND_LO, 0), (Reg.BOOT_SECT_PEND_LO + 4, 0), (Reg.SEC_STATUS, 0), (Reg.SEC_EVENT, 0), (Reg.PCI_STATUS, 2049), (Reg.TIDE_CTRL, 0), (Reg.TIDE_STATUS, 12), (Reg.DMC_STATUS 0, 0), (Reg.DMC_STATUS 1, 0)] (fun d => (id) { d with bt := { ops := [.erase 0] }, time := { ns := 10 } })), by decide +kernel⟩,
   ⟨(ws [(Reg.BOOT_STATUS, 10), (Reg.BOOT_EVENT, 0), (Reg.BOOT_COUNT, 3), (Reg.BOOT_CMD_RESULT, 9), (Reg.BOOT_VERSION_LO, 0), (Reg.BOOT_VERSION_LO + 4, 0), (Reg.BOOT_OTHER_VER_LO, 0), (Reg.BOOT_OTHER_VER_LO + 4, 0), (Reg.BOOT_SECT_OK_LO, 0), (Reg.BOOT_SECT_OK_LO + 4, 0), (Reg.BOOT_SECT_PEND_LO, 0), (Reg.BOOT_SECT_PEND_LO + 4, 0), (Reg.SEC_STATUS, 0), (Reg.SEC_EVENT, 0), (Reg.PCI_STATUS, 2049), (Reg.TIDE_CTRL, 0), (Reg.TIDE_STATUS, 12), (Reg.DMC_STATUS 0, 0), (Reg.DMC_STATUS 1, 0)] (fun d => (id) { d with bt := { ops := [.erase 0] }, time := { ns := 10 } })), by decide +kernel⟩,
   ⟨(ws [(Reg.BOOT_STATUS, 10), (Reg.BOOT_EVENT, 0), (Reg.BOOT_COUNT, 3), (Reg.BOOT_CMD_RESULT, 9), (Reg.BOOT_VERSION_LO, 0), (Reg.BOOT_VERSION_LO + 4, 0), (Reg.BOOT_OTHER_VER_LO, 0), (Reg.BOOT_OTHER_VER_LO + 4, 0), (Reg.BOOT_SECT_OK_LO, 0), (Reg.BOOT_SECT_OK_LO + 4, 0), (Reg.BOOT_SECT_PEND_LO, 0), (Reg.BOOT_SECT_PEND_LO + 4, 0), (Reg.SEC_STATUS, 0), (Reg.SEC_EVENT, 0), (Reg.PCI_STATUS, 2049), (Reg.TIDE_CTRL, 0), (Reg.TIDE_STATUS, 12), (Reg.DMC_STATUS 0, 0), (Reg.DMC_STATUS 1, 0)] (fun d => (id) { d with bt := { ops := [.erase 0] }, time := { ns := 10 } })), by decide +kernel⟩,
   ⟨(ws [(Reg.BOOT_STATUS, 10), (Reg.BOOT_EVENT, 0), (Reg.BOOT_COUNT, 3), (Reg.BOOT_CMD_RESULT, 9), (Reg.BOOT_VERSION_LO, 0), (Reg.BOOT_VERSION_LO + 4, 0), (Reg.BOOT_OTHER_VER_LO, 0), (Reg.BOOT_OTHER_VER_LO + 4, 0), (Reg.BOOT_SECT_OK_LO, 0), (Reg.BOOT_SECT_OK_LO + 4, 0), (Reg.BOOT_SECT_PEND_LO, 0), (Reg.BOOT_SECT_PEND_LO + 4, 0), (Reg.SEC_STATUS, 0), (Reg.SEC_EVENT, 0), (Reg.PCI_STATUS, 2049), (Reg.TIDE_CTRL, 0), (Reg.TIDE_STATUS, 12), (Reg.DMC_STATUS 0, 0), (Reg.DMC_STATUS 1, 0)] (fun d => (id) { d with bt := { ops := [.erase 0] }, time := { ns := 10 } })), by decide +kernel⟩,
   ⟨(ws [(Reg.BOOT_STATUS, 10), (Reg.BOOT_EVENT, 0), (Reg.BOOT_COUNT, 3), (Reg.BOOT_CMD_RESULT, 9), (Reg.BOOT_VERSION_LO, 0), (Reg.BOOT_VERSION_LO + 4, 0), (Reg.BOOT_OTHER_VER_LO, 0), (Reg.BOOT_OTHER_VER_LO + 4, 0), (Reg.BOOT_SECT_OK_LO, 0), (Reg.BOOT_SECT_OK_LO + 4, 0), (Reg.BOOT_SECT_PEND_LO, 0), (Reg.BOOT_SECT_PEND_LO + 4, 0), (Reg.SEC_STATUS, 0), (Reg.SEC_EVENT, 0), (Reg.PCI_STATUS, 2049), (Reg.TIDE_CTRL, 0), (Reg.TIDE_STATUS, 12), (Reg.DMC_STATUS 0, 0), (Reg.DMC_STATUS 1, 0)] (fun d => (id) { d with bt := { ops := [.erase 0] }, time := { ns := 10 } })), by decide +kernel⟩,
   ⟨(ws [(Reg.BOOT_STATUS, 4096 + 6), (Reg.BOOT_EVENT, 0), (Reg.BOOT_COUNT, 3), (Reg.BOOT_CMD_RESULT, 9), (Reg.BOOT_VERSION_LO, 0), (Reg.BOOT_VERSION_LO + 4, 0), (Reg.BOOT_OTHER_VER_LO, 0), (Reg.BOOT_OTHER_VER_LO + 4, 0), (Reg.BOOT_SECT_OK_LO, 0), (Reg.BOOT_SECT_OK_LO + 4, 0), (Reg.BOOT_SECT_PEND_LO, 0), (Reg.BOOT_SECT_PEND_LO + 4, 0), (Reg.SEC_STATUS, 0), (Reg.SEC_EVENT, 0), (Reg.PCI_STATUS, 2049), (Reg.TIDE_CTRL, 0), (Reg.TIDE_STATUS, 12), (Reg.DMC_STATUS 0, 0), (Reg.DMC_STATUS 1, 0)] (fun d => (id) { d with bt := { gateLim := 5 }, time := { ns := 10 } })), by decide +kernel⟩,
   ⟨(ws [(Reg.BOOT_STATUS, 10), (Reg.BOOT_EVENT, 0), (Reg.BOOT_COUNT, 3), (Reg.BOOT_CMD_RESULT, 9), (Reg.BOOT_VERSION_LO, 0), (Reg.BOOT_VERSION_LO + 4, 0), (Reg.BOOT_OTHER_VER_LO, 0), (Reg.BOOT_OTHER_VER_LO + 4, 0), (Reg.BOOT_SECT_OK_LO, 0), (Reg.BOOT_SECT_OK_LO + 4, 0), (Reg.BOOT_SECT_PEND_LO, 0), (Reg.BOOT_SECT_PEND_LO + 4, 0), (Reg.SEC_STATUS, 0), (Reg.SEC_EVENT, 0), (Reg.PCI_STATUS, 2049), (Reg.TIDE_CTRL, 0), (Reg.TIDE_STATUS, 12), (Reg.DMC_STATUS 0, 0), (Reg.DMC_STATUS 1, 0)] (fun d => (id) { d with bt := {  }, time := { ns := 10 } })), by decide +kernel⟩,
   ⟨(ws [(Reg.BOOT_STATUS, 4096 + 6), (Reg.BOOT_EVENT, 0), (Reg.BOOT_COUNT, 3), (Reg.BOOT_CMD_RESULT, 9), (Reg.BOOT_VERSION_LO, 0), (Reg.BOOT_VERSION_LO + 4, 0), (Reg.BOOT_OTHER_VER_LO, 0), (Reg.BOOT_OTHER_VER_LO + 4, 0), (Reg.BOOT_SECT_OK_LO, 0), (Reg.BOOT_SECT_OK_LO + 4, 0), (Reg.BOOT_SECT_PEND_LO, 0), (Reg.BOOT_SECT_PEND_LO + 4, 0), (Reg.SEC_STATUS, 0), (Reg.SEC_EVENT, 0), (Reg.PCI_STATUS, 2049), (Reg.TIDE_CTRL, 0), (Reg.TIDE_STATUS, 12), (Reg.DMC_STATUS 0, 0), (Reg.DMC_STATUS 1, 0)] (fun d => (id) { d with bt := { gateLim := 0 }, time := { ns := 10 } })), by decide +kernel⟩,
   ⟨(ws [(Reg.BOOT_STATUS, 4096 + 6), (Reg.BOOT_EVENT, 0), (Reg.BOOT_COUNT, 3), (Reg.BOOT_CMD_RESULT, 9), (Reg.BOOT_VERSION_LO, 0), (Reg.BOOT_VERSION_LO + 4, 0), (Reg.BOOT_OTHER_VER_LO, 0), (Reg.BOOT_OTHER_VER_LO + 4, 0), (Reg.BOOT_SECT_OK_LO, 0), (Reg.BOOT_SECT_OK_LO + 4, 0), (Reg.BOOT_SECT_PEND_LO, 0), (Reg.BOOT_SECT_PEND_LO + 4, 0), (Reg.SEC_STATUS, 0), (Reg.SEC_EVENT, 0), (Reg.PCI_STATUS, 2049), (Reg.TIDE_CTRL, 0), (Reg.TIDE_STATUS, 12), (Reg.DMC_STATUS 0, 0), (Reg.DMC_STATUS 1, 0)] (fun d => (id) { d with bt := { gateLim := 5 }, time := { ns := 10 } })), by decide +kernel⟩,
   ⟨(ws [(Reg.BOOT_STATUS, 10), (Reg.BOOT_EVENT, 0), (Reg.BOOT_COUNT, 3), (Reg.BOOT_CMD_RESULT, 9), (Reg.BOOT_VERSION_LO, 0), (Reg.BOOT_VERSION_LO + 4, 0), (Reg.BOOT_OTHER_VER_LO, 0), (Reg.BOOT_OTHER_VER_LO + 4, 0), (Reg.BOOT_SECT_OK_LO, 0), (Reg.BOOT_SECT_OK_LO + 4, 0), (Reg.BOOT_SECT_PEND_LO, 0), (Reg.BOOT_SECT_PEND_LO + 4, 0), (Reg.SEC_STATUS, 0), (Reg.SEC_EVENT, 0), (Reg.PCI_STATUS, 2049), (Reg.TIDE_CTRL, 0), (Reg.TIDE_STATUS, 12), (Reg.DMC_STATUS 0, 0), (Reg.DMC_STATUS 1, 0)] (fun d => (id) { d with bt := {  }, time := { ns := 10 } })), by decide +kernel⟩,
   ⟨(ws [(Reg.BOOT_STATUS, 4096 + 6), (Reg.BOOT_EVENT, 0), (Reg.BOOT_COUNT, 3), (Reg.BOOT_CMD_RESULT, 9), (Reg.BOOT_VERSION_LO, 0), (Reg.BOOT_VERSION_LO + 4, 0), (Reg.BOOT_OTHER_VER_LO, 0), (Reg.BOOT_OTHER_VER_LO + 4, 0), (Reg.BOOT_SECT_OK_LO, 0), (Reg.BOOT_SECT_OK_LO + 4, 0), (Reg.BOOT_SECT_PEND_LO, 0), (Reg.BOOT_SECT_PEND_LO + 4, 0), (Reg.SEC_STATUS, 0), (Reg.SEC_EVENT, 0), (Reg.PCI_STATUS, 2049), (Reg.TIDE_CTRL, 0), (Reg.TIDE_STATUS, 12), (Reg.DMC_STATUS 0, 0), (Reg.DMC_STATUS 1, 0)] (fun d => (id) { d with bt := { gateLim := 5, flags := 2 }, time := { ns := 10 } })), by decide +kernel⟩,
   ⟨(ws [(Reg.BOOT_STATUS, 6), (Reg.BOOT_EVENT, 0), (Reg.BOOT_COUNT, 3), (Reg.BOOT_CMD_RESULT, 9), (Reg.BOOT_VERSION_LO, 0), (Reg.BOOT_VERSION_LO + 4, 0), (Reg.BOOT_OTHER_VER_LO, 0), (Reg.BOOT_OTHER_VER_LO + 4, 0), (Reg.BOOT_SECT_OK_LO, 0), (Reg.BOOT_SECT_OK_LO + 4, 0), (Reg.BOOT_SECT_PEND_LO, 0), (Reg.BOOT_SECT_PEND_LO + 4, 0), (Reg.SEC_STATUS, 0), (Reg.SEC_EVENT, 0), (Reg.PCI_STATUS, 2049), (Reg.TIDE_CTRL, 0), (Reg.TIDE_STATUS, 12), (Reg.DMC_STATUS 0, 0), (Reg.DMC_STATUS 1, 0)] (fun d => (id) { d with bt := {  }, time := { ns := 10 } })), by decide +kernel⟩,
   ⟨(ws [(Reg.BOOT_STATUS, 10), (Reg.BOOT_EVENT, 0), (Reg.BOOT_COUNT, 3), (Reg.BOOT_CMD_RESULT, 9), (Reg.BOOT_VERSION_LO, 0), (Reg.BOOT_VERSION_LO + 4, 0), (Reg.BOOT_OTHER_VER_LO, 0), (Reg.BOOT_OTHER_VER_LO + 4, 0), (Reg.BOOT_SECT_OK_LO, 0), (Reg.BOOT_SECT_OK_LO + 4, 0), (Reg.BOOT_SECT_PEND_LO, 1), (Reg.BOOT_SECT_PEND_LO + 4, 0), (Reg.SEC_STATUS, 0), (Reg.SEC_EVENT, 0), (Reg.PCI_STATUS, 2049), (Reg.TIDE_CTRL, 0), (Reg.TIDE_STATUS, 12), (Reg.DMC_STATUS 0, 0), (Reg.DMC_STATUS 1, 0)] (fun d => (id) { d with bt := {  }, time := { ns := 10 } })), 0, by decide +kernel⟩,
   ⟨(ws [(Reg.BOOT_STATUS, 10), (Reg.BOOT_EVENT, 0), (Reg.BOOT_COUNT, 3), (Reg.BOOT_CMD_RESULT, 9), (Reg.BOOT_VERSION_LO, 0), (Reg.BOOT_VERSION_LO + 4, 0), (Reg.BOOT_OTHER_VER_LO, 0), (Reg.BOOT_OTHER_VER_LO + 4, 0), (Reg.BOOT_SECT_OK_LO, 0), (Reg.BOOT_SECT_OK_LO + 4, 0), (Reg.BOOT_SECT_PEND_LO, 0), (Reg.BOOT_SECT_PEND_LO + 4, 0), (Reg.SEC_STATUS, 0), (Reg.SEC_EVENT, 0), (Reg.PCI_STATUS, 2049), (Reg.TIDE_CTRL, 0), (Reg.TIDE_STATUS, 12), (Reg.DMC_STATUS 0, 0), (Reg.DMC_STATUS 1, 0)] (fun d => (id) { d with bt := {  }, time := { ns := 10 } })), 0, by decide +kernel⟩,
   ⟨(ws [(Reg.BOOT_STATUS, 10), (Reg.BOOT_EVENT, 0), (Reg.BOOT_COUNT, 3), (Reg.BOOT_CMD_RESULT, 9), (Reg.BOOT_VERSION_LO, 0), (Reg.BOOT_VERSION_LO + 4, 0), (Reg.BOOT_OTHER_VER_LO, 0), (Reg.BOOT_OTHER_VER_LO + 4, 0), (Reg.BOOT_SECT_OK_LO, 0), (Reg.BOOT_SECT_OK_LO + 4, 0), (Reg.BOOT_SECT_PEND_LO, 0), (Reg.BOOT_SECT_PEND_LO + 4, 0), (Reg.SEC_STATUS, 0), (Reg.SEC_EVENT, 0), (Reg.PCI_STATUS, 2049), (Reg.TIDE_CTRL, 0), (Reg.TIDE_STATUS, 12), (Reg.DMC_STATUS 0, 0), (Reg.DMC_STATUS 1, 0), (Reg.SCH_COVE_STATE 0, 0), (Reg.SCH_COVE_STATE 1, 0), (Reg.SCH_COVE_STATE 2, 0), (Reg.SCH_COVE_STATE 3, 0), (Reg.SCH_COVE_STATE 4, 0), (Reg.SCH_COVE_STATE 5, 0), (Reg.SCH_COVE_STATE 6, 0), (Reg.SCH_COVE_STATE 7, 0)] (fun d => (id) { d with bt := { check := some 0, sects := [({ kind := 2, source := 0, coves := 0, ofs := 16384, len := 2, dest := 256, digest := [7] } : Sect)] }, time := { ns := 10 } })), [7], 0, by decide +kernel⟩,
   ⟨(ws [(Reg.BOOT_STATUS, 10), (Reg.BOOT_EVENT, 0), (Reg.BOOT_COUNT, 3), (Reg.BOOT_CMD_RESULT, 9), (Reg.BOOT_VERSION_LO, 0), (Reg.BOOT_VERSION_LO + 4, 0), (Reg.BOOT_OTHER_VER_LO, 0), (Reg.BOOT_OTHER_VER_LO + 4, 0), (Reg.BOOT_SECT_OK_LO, 0), (Reg.BOOT_SECT_OK_LO + 4, 0), (Reg.BOOT_SECT_PEND_LO, 0), (Reg.BOOT_SECT_PEND_LO + 4, 0), (Reg.SEC_STATUS, 0), (Reg.SEC_EVENT, 0), (Reg.PCI_STATUS, 2049), (Reg.TIDE_CTRL, 0), (Reg.TIDE_STATUS, 12), (Reg.DMC_STATUS 0, 0), (Reg.DMC_STATUS 1, 0)] (fun d => (id) { d with bt := { check := some 0, sects := [({ kind := 2, source := 0, coves := 0, ofs := 16384, len := 2, dest := 256, digest := [7] } : Sect)] }, time := { ns := 10 } })), [8], 0, by decide +kernel⟩,
   ⟨(ws [(Reg.BOOT_STATUS, 10), (Reg.BOOT_EVENT, 0), (Reg.BOOT_COUNT, 3), (Reg.BOOT_CMD_RESULT, 9), (Reg.BOOT_VERSION_LO, 0), (Reg.BOOT_VERSION_LO + 4, 0), (Reg.BOOT_OTHER_VER_LO, 0), (Reg.BOOT_OTHER_VER_LO + 4, 0), (Reg.BOOT_SECT_OK_LO, 0), (Reg.BOOT_SECT_OK_LO + 4, 0), (Reg.BOOT_SECT_PEND_LO, 0), (Reg.BOOT_SECT_PEND_LO + 4, 0), (Reg.SEC_STATUS, 0), (Reg.SEC_EVENT, 0), (Reg.PCI_STATUS, 2049), (Reg.TIDE_CTRL, 0), (Reg.TIDE_STATUS, 12), (Reg.DMC_STATUS 0, 0), (Reg.DMC_STATUS 1, 0)] (fun d => (id) { d with bt := {  }, time := { ns := 10 } })), by decide +kernel⟩,
   ⟨(ws [(Reg.BOOT_STATUS, 15), (Reg.BOOT_EVENT, 0), (Reg.BOOT_COUNT, 3), (Reg.BOOT_CMD_RESULT, 9), (Reg.BOOT_VERSION_LO, 0), (Reg.BOOT_VERSION_LO + 4, 0), (Reg.BOOT_OTHER_VER_LO, 0), (Reg.BOOT_OTHER_VER_LO + 4, 0), (Reg.BOOT_SECT_OK_LO, 0), (Reg.BOOT_SECT_OK_LO + 4, 0), (Reg.BOOT_SECT_PEND_LO, 0), (Reg.BOOT_SECT_PEND_LO + 4, 0), (Reg.SEC_STATUS, 0), (Reg.SEC_EVENT, 0), (Reg.PCI_STATUS, 2049), (Reg.TIDE_CTRL, 0), (Reg.TIDE_STATUS, 12), (Reg.DMC_STATUS 0, 0), (Reg.DMC_STATUS 1, 0), (Reg.BOOT_FLASH_ADDR, 0)] (fun d => (id) { d with bt := {  }, time := { ns := 10 } })), 0, by decide +kernel⟩,
   ⟨(ws [(Reg.BOOT_STATUS, 10), (Reg.BOOT_EVENT, 0), (Reg.BOOT_COUNT, 3), (Reg.BOOT_CMD_RESULT, 9), (Reg.BOOT_VERSION_LO, 0), (Reg.BOOT_VERSION_LO + 4, 0), (Reg.BOOT_OTHER_VER_LO, 0), (Reg.BOOT_OTHER_VER_LO + 4, 0), (Reg.BOOT_SECT_OK_LO, 0), (Reg.BOOT_SECT_OK_LO + 4, 0), (Reg.BOOT_SECT_PEND_LO, 0), (Reg.BOOT_SECT_PEND_LO + 4, 0), (Reg.SEC_STATUS, 0), (Reg.SEC_EVENT, 0), (Reg.PCI_STATUS, 2049), (Reg.TIDE_CTRL, 0), (Reg.TIDE_STATUS, 12), (Reg.DMC_STATUS 0, 0), (Reg.DMC_STATUS 1, 0), (Reg.BOOT_FLASH_ADDR, 0)] (fun d => (id) { d with bt := {  }, time := { ns := 10 } })), 0, by decide +kernel⟩,
   ⟨(ws [(Reg.BOOT_STATUS, 15), (Reg.BOOT_EVENT, 0), (Reg.BOOT_COUNT, 3), (Reg.BOOT_CMD_RESULT, 9), (Reg.BOOT_VERSION_LO, 0), (Reg.BOOT_VERSION_LO + 4, 0), (Reg.BOOT_OTHER_VER_LO, 0), (Reg.BOOT_OTHER_VER_LO + 4, 0), (Reg.BOOT_SECT_OK_LO, 0), (Reg.BOOT_SECT_OK_LO + 4, 0), (Reg.BOOT_SECT_PEND_LO, 0), (Reg.BOOT_SECT_PEND_LO + 4, 0), (Reg.SEC_STATUS, 0), (Reg.SEC_EVENT, 0), (Reg.PCI_STATUS, 2049), (Reg.TIDE_CTRL, 0), (Reg.TIDE_STATUS, 12), (Reg.DMC_STATUS 0, 0), (Reg.DMC_STATUS 1, 0), (Reg.BOOT_FLASH_ADDR, 0)] (fun d => (id) { d with bt := {  }, time := { ns := 10 } })), 0, by decide +kernel⟩,
   ⟨(ws [(Reg.BOOT_STATUS, 10), (Reg.BOOT_EVENT, 0), (Reg.BOOT_COUNT, 3), (Reg.BOOT_CMD_RESULT, 9), (Reg.BOOT_VERSION_LO, 0), (Reg.BOOT_VERSION_LO + 4, 0), (Reg.BOOT_OTHER_VER_LO, 0), (Reg.BOOT_OTHER_VER_LO + 4, 0), (Reg.BOOT_SECT_OK_LO, 0), (Reg.BOOT_SECT_OK_LO + 4, 0), (Reg.BOOT_SECT_PEND_LO, 0), (Reg.BOOT_SECT_PEND_LO + 4, 0), (Reg.SEC_STATUS, 0), (Reg.SEC_EVENT, 0), (Reg.PCI_STATUS, 2049), (Reg.TIDE_CTRL, 0), (Reg.TIDE_STATUS, 12), (Reg.DMC_STATUS 0, 0), (Reg.DMC_STATUS 1, 0), (Reg.BOOT_FLASH_ADDR, 0)] (fun d => (id) { d with bt := {  }, time := { ns := 10 } })), 0, by decide +kernel⟩,
   ⟨(ws [(Reg.BOOT_STATUS, 10), (Reg.BOOT_EVENT, 0), (Reg.BOOT_COUNT, 3), (Reg.BOOT_CMD_RESULT, 9), (Reg.BOOT_VERSION_LO, 0), (Reg.BOOT_VERSION_LO + 4, 0), (Reg.BOOT_OTHER_VER_LO, 0), (Reg.BOOT_OTHER_VER_LO + 4, 0), (Reg.BOOT_SECT_OK_LO, 0), (Reg.BOOT_SECT_OK_LO + 4, 0), (Reg.BOOT_SECT_PEND_LO, 0), (Reg.BOOT_SECT_PEND_LO + 4, 0), (Reg.SEC_STATUS, 0), (Reg.SEC_EVENT, 0), (Reg.PCI_STATUS, 2049), (Reg.TIDE_CTRL, 0), (Reg.TIDE_STATUS, 12), (Reg.DMC_STATUS 0, 0), (Reg.DMC_STATUS 1, 0)] (fun d => (id) { d with bt := { dens := 67108864 }, time := { ns := 10 } })), by decide +kernel⟩,
   ⟨(ws [(Reg.BOOT_STATUS, 10), (Reg.BOOT_EVENT, 0), (Reg.BOOT_COUNT, 3), (Reg.BOOT_CMD_RESULT, 9), (Reg.BOOT_VERSION_LO, 0), (Reg.BOOT_VERSION_LO + 4, 0), (Reg.BOOT_OTHER_VER_LO, 0), (Reg.BOOT_OTHER_VER_LO + 4, 0), (Reg.BOOT_SECT_OK_LO, 0), (Reg.BOOT_SECT_OK_LO + 4, 0), (Reg.BOOT_SECT_PEND_LO, 0), (Reg.BOOT_SECT_PEND_LO + 4, 0), (Reg.SEC_STATUS, 0), (Reg.SEC_EVENT, 0), (Reg.PCI_STATUS, 2049), (Reg.TIDE_CTRL, 0), (Reg.TIDE_STATUS, 12), (Reg.DMC_STATUS 0, 0), (Reg.DMC_STATUS 1, 0)] (fun d => (id) { d with bt := {  }, time := { ns := 10 } })), by decide +kernel⟩,
   ⟨(ws [(Reg.BOOT_STATUS, 10), (Reg.BOOT_EVENT, 0), (Reg.BOOT_COUNT, 3), (Reg.BOOT_CMD_RESULT, 9), (Reg.BOOT_VERSION_LO, 0), (Reg.BOOT_VERSION_LO + 4, 0), (Reg.BOOT_OTHER_VER_LO, 0), (Reg.BOOT_OTHER_VER_LO + 4, 0), (Reg.BOOT_SECT_OK_LO, 0), (Reg.BOOT_SECT_OK_LO + 4, 0), (Reg.BOOT_SECT_PEND_LO, 0), (Reg.BOOT_SECT_PEND_LO + 4, 0), (Reg.SEC_STATUS, 0), (Reg.SEC_EVENT, 0), (Reg.PCI_STATUS, 2049), (Reg.TIDE_CTRL, 0), (Reg.TIDE_STATUS, 12), (Reg.DMC_STATUS 0, 0), (Reg.DMC_STATUS 1, 0)] (fun d => (id) { d with bt := {  }, time := { ns := 10 } })), by decide +kernel⟩,
   ⟨(ws [(Reg.BOOT_STATUS, 10), (Reg.BOOT_EVENT, 0), (Reg.BOOT_COUNT, 3), (Reg.BOOT_CMD_RESULT, 9), (Reg.BOOT_VERSION_LO, 0), (Reg.BOOT_VERSION_LO + 4, 0), (Reg.BOOT_OTHER_VER_LO, 0), (Reg.BOOT_OTHER_VER_LO + 4, 0), (Reg.BOOT_SECT_OK_LO, 0), (Reg.BOOT_SECT_OK_LO + 4, 0), (Reg.BOOT_SECT_PEND_LO, 0), (Reg.BOOT_SECT_PEND_LO + 4, 0), (Reg.SEC_STATUS, 0), (Reg.SEC_EVENT, 0), (Reg.PCI_STATUS, 2049), (Reg.TIDE_CTRL, 0), (Reg.TIDE_STATUS, 12), (Reg.DMC_STATUS 0, 0), (Reg.DMC_STATUS 1, 0)] (fun d => (id) { d with bt := { ops := [.erase 0] }, time := { ns := 10 } })), 0, ([]), by decide +kernel⟩,
   ⟨(ws [(Reg.BOOT_STATUS, 10), (Reg.BOOT_EVENT, 0), (Reg.BOOT_COUNT, 3), (Reg.BOOT_CMD_RESULT, 9), (Reg.BOOT_VERSION_LO, 0), (Reg.BOOT_VERSION_LO + 4, 0), (Reg.BOOT_OTHER_VER_LO, 0), (Reg.BOOT_OTHER_VER_LO + 4, 0), (Reg.BOOT_SECT_OK_LO, 0), (Reg.BOOT_SECT_OK_LO + 4, 0), (Reg.BOOT_SECT_PEND_LO, 0), (Reg.BOOT_SECT_PEND_LO + 4, 0), (Reg.SEC_STATUS, 0), (Reg.SEC_EVENT, 0), (Reg.PCI_STATUS, 2049), (Reg.TIDE_CTRL, 0), (Reg.TIDE_STATUS, 12), (Reg.DMC_STATUS 0, 0), (Reg.DMC_STATUS 1, 0)] (fun d => (id) { d with bt := { ops := [.program 0 [1, 2]] }, time := { ns := 10 } })), 0, ([1, 2]), ([]), by decide +kernel⟩,
   ⟨(ws [(Reg.BOOT_STATUS, 10), (Reg.BOOT_EVENT, 0), (Reg.BOOT_COUNT, 3), (Reg.BOOT_CMD_RESULT, 9), (Reg.BOOT_VERSION_LO, 0), (Reg.BOOT_VERSION_LO + 4, 0), (Reg.BOOT_OTHER_VER_LO, 0), (Reg.BOOT_OTHER_VER_LO + 4, 0), (Reg.BOOT_SECT_OK_LO, 0), (Reg.BOOT_SECT_OK_LO + 4, 0), (Reg.BOOT_SECT_PEND_LO, 0), (Reg.BOOT_SECT_PEND_LO + 4, 0), (Reg.SEC_STATUS, 0), (Reg.SEC_EVENT, 0), (Reg.PCI_STATUS, 2049), (Reg.TIDE_CTRL, 0), (Reg.TIDE_STATUS, 12), (Reg.DMC_STATUS 0, 0), (Reg.DMC_STATUS 1, 0)] (fun d => (id) { d with bt := { ops := [.erase 0] }, time := { ns := 10 } })), 0, (.erase 0), ([]), by decide +kernel, rfl, .inl rfl⟩,
   ⟨(ws [(Reg.BOOT_STATUS, 10), (Reg.BOOT_EVENT, 0), (Reg.BOOT_COUNT, 3), (Reg.BOOT_CMD_RESULT, 9), (Reg.BOOT_VERSION_LO, 0), (Reg.BOOT_VERSION_LO + 4, 0), (Reg.BOOT_OTHER_VER_LO, 0), (Reg.BOOT_OTHER_VER_LO + 4, 0), (Reg.BOOT_SECT_OK_LO, 0), (Reg.BOOT_SECT_OK_LO + 4, 0), (Reg.BOOT_SECT_PEND_LO, 0), (Reg.BOOT_SECT_PEND_LO + 4, 0), (Reg.SEC_STATUS, 0), (Reg.SEC_EVENT, 0), (Reg.PCI_STATUS, 2049), (Reg.TIDE_CTRL, 0), (Reg.TIDE_STATUS, 12), (Reg.DMC_STATUS 0, 0), (Reg.DMC_STATUS 1, 0)] (fun d => (id) { d with bt := { ops := [.verify 1] }, time := { ns := 10 } })), (1), ([]), by decide +kernel⟩,
   ⟨(ws [(Reg.BOOT_STATUS, 10), (Reg.BOOT_EVENT, 0), (Reg.BOOT_COUNT, 3), (Reg.BOOT_CMD_RESULT, 9), (Reg.BOOT_VERSION_LO, 0), (Reg.BOOT_VERSION_LO + 4, 0), (Reg.BOOT_OTHER_VER_LO, 0), (Reg.BOOT_OTHER_VER_LO + 4, 0), (Reg.BOOT_SECT_OK_LO, 0), (Reg.BOOT_SECT_OK_LO + 4, 0), (Reg.BOOT_SECT_PEND_LO, 0), (Reg.BOOT_SECT_PEND_LO + 4, 0), (Reg.SEC_STATUS, 0), (Reg.SEC_EVENT, 0), (Reg.PCI_STATUS, 2049), (Reg.TIDE_CTRL, 0), (Reg.TIDE_STATUS, 12), (Reg.DMC_STATUS 0, 0), (Reg.DMC_STATUS 1, 0)] (fun d => (id) { d with bt := {  }, time := { ns := 10 } })), by decide +kernel⟩,
   ⟨(ws [(Reg.BOOT_STATUS, 10), (Reg.BOOT_EVENT, 0), (Reg.BOOT_COUNT, 3), (Reg.BOOT_CMD_RESULT, 9), (Reg.BOOT_VERSION_LO, 0), (Reg.BOOT_VERSION_LO + 4, 0), (Reg.BOOT_OTHER_VER_LO, 0), (Reg.BOOT_OTHER_VER_LO + 4, 0), (Reg.BOOT_SECT_OK_LO, 0), (Reg.BOOT_SECT_OK_LO + 4, 0), (Reg.BOOT_SECT_PEND_LO, 0), (Reg.BOOT_SECT_PEND_LO + 4, 0), (Reg.SEC_STATUS, 1), (Reg.SEC_EVENT, 0), (Reg.PCI_STATUS, 2049), (Reg.TIDE_CTRL, 0), (Reg.TIDE_STATUS, 12), (Reg.DMC_STATUS 0, 0), (Reg.DMC_STATUS 1, 0)] (fun d => (id) { d with bt := {  }, time := { ns := 10 } })), by decide +kernel⟩,
   ⟨(ws [(Reg.BOOT_STATUS, 10), (Reg.BOOT_EVENT, 0), (Reg.BOOT_COUNT, 3), (Reg.BOOT_CMD_RESULT, 9), (Reg.BOOT_VERSION_LO, 0), (Reg.BOOT_VERSION_LO + 4, 0), (Reg.BOOT_OTHER_VER_LO, 0), (Reg.BOOT_OTHER_VER_LO + 4, 0), (Reg.BOOT_SECT_OK_LO, 0), (Reg.BOOT_SECT_OK_LO + 4, 0), (Reg.BOOT_SECT_PEND_LO, 0), (Reg.BOOT_SECT_PEND_LO + 4, 0), (Reg.SEC_STATUS, 0), (Reg.SEC_EVENT, 0), (Reg.PCI_STATUS, 2049), (Reg.TIDE_CTRL, 0), (Reg.TIDE_STATUS, 12), (Reg.DMC_STATUS 0, 0), (Reg.DMC_STATUS 1, 0)] (fun d => (id) { d with bt := {  }, time := { ns := 10 } })), by decide +kernel⟩,
   ⟨(ws [(Reg.BOOT_STATUS, 10), (Reg.BOOT_EVENT, 0), (Reg.BOOT_COUNT, 3), (Reg.BOOT_CMD_RESULT, 9), (Reg.BOOT_VERSION_LO, 0), (Reg.BOOT_VERSION_LO + 4, 0), (Reg.BOOT_OTHER_VER_LO, 0), (Reg.BOOT_OTHER_VER_LO + 4, 0), (Reg.BOOT_SECT_OK_LO, 0), (Reg.BOOT_SECT_OK_LO + 4, 0), (Reg.BOOT_SECT_PEND_LO, 0), (Reg.BOOT_SECT_PEND_LO + 4, 0), (Reg.SEC_STATUS, 4), (Reg.SEC_EVENT, 0), (Reg.PCI_STATUS, 2049), (Reg.TIDE_CTRL, 0), (Reg.TIDE_STATUS, 12), (Reg.DMC_STATUS 0, 0), (Reg.DMC_STATUS 1, 0)] (fun d => (id) { d with bt := {  }, time := { ns := 10 } })), by decide +kernel⟩,
   ⟨(ws [(Reg.BOOT_STATUS, 10), (Reg.BOOT_EVENT, 0), (Reg.BOOT_COUNT, 3), (Reg.BOOT_CMD_RESULT, 9), (Reg.BOOT_VERSION_LO, 0), (Reg.BOOT_VERSION_LO + 4, 0), (Reg.BOOT_OTHER_VER_LO, 0), (Reg.BOOT_OTHER_VER_LO + 4, 0), (Reg.BOOT_SECT_OK_LO, 0), (Reg.BOOT_SECT_OK_LO + 4, 0), (Reg.BOOT_SECT_PEND_LO, 0), (Reg.BOOT_SECT_PEND_LO + 4, 0), (Reg.SEC_STATUS, 0), (Reg.SEC_EVENT, 0), (Reg.PCI_STATUS, 2049), (Reg.TIDE_CTRL, 0), (Reg.TIDE_STATUS, 12), (Reg.DMC_STATUS 0, 0), (Reg.DMC_STATUS 1, 0)] (fun d => (id) { d with bt := {  }, time := { ns := 10 } })), by decide +kernel⟩,
   ⟨(ws [(Reg.BOOT_STATUS, 10), (Reg.BOOT_EVENT, 0), (Reg.BOOT_COUNT, 3), (Reg.BOOT_CMD_RESULT, 9), (Reg.BOOT_VERSION_LO, 0), (Reg.BOOT_VERSION_LO + 4, 0), (Reg.BOOT_OTHER_VER_LO, 0), (Reg.BOOT_OTHER_VER_LO + 4, 0), (Reg.BOOT_SECT_OK_LO, 0), (Reg.BOOT_SECT_OK_LO + 4, 0), (Reg.BOOT_SECT_PEND_LO, 0), (Reg.BOOT_SECT_PEND_LO + 4, 0), (Reg.SEC_STATUS, 11), (Reg.SEC_EVENT, 0), (Reg.PCI_STATUS, 2049), (Reg.TIDE_CTRL, 0), (Reg.TIDE_STATUS, 12), (Reg.DMC_STATUS 0, 0), (Reg.DMC_STATUS 1, 0)] (fun d => (id) { d with bt := {  }, time := { ns := 10 } })), by decide +kernel⟩,
   ⟨(ws [(Reg.BOOT_STATUS, 10), (Reg.BOOT_EVENT, 0), (Reg.BOOT_COUNT, 3), (Reg.BOOT_CMD_RESULT, 9), (Reg.BOOT_VERSION_LO, 0), (Reg.BOOT_VERSION_LO + 4, 0), (Reg.BOOT_OTHER_VER_LO, 0), (Reg.BOOT_OTHER_VER_LO + 4, 0), (Reg.BOOT_SECT_OK_LO, 0), (Reg.BOOT_SECT_OK_LO + 4, 0), (Reg.BOOT_SECT_PEND_LO, 0), (Reg.BOOT_SECT_PEND_LO + 4, 0), (Reg.SEC_STATUS, 1), (Reg.SEC_EVENT, 0), (Reg.PCI_STATUS, 2049), (Reg.TIDE_CTRL, 0), (Reg.TIDE_STATUS, 12), (Reg.DMC_STATUS 0, 0), (Reg.DMC_STATUS 1, 0)] (fun d => (id) { d with bt := {  }, time := { ns := 10 } })), by decide +kernel⟩,
   ⟨(ws [(Reg.BOOT_STATUS, 10), (Reg.BOOT_EVENT, 0), (Reg.BOOT_COUNT, 3), (Reg.BOOT_CMD_RESULT, 9), (Reg.BOOT_VERSION_LO, 0), (Reg.BOOT_VERSION_LO + 4, 0), (Reg.BOOT_OTHER_VER_LO, 0), (Reg.BOOT_OTHER_VER_LO + 4, 0), (Reg.BOOT_SECT_OK_LO, 0), (Reg.BOOT_SECT_OK_LO + 4, 0), (Reg.BOOT_SECT_PEND_LO, 0), (Reg.BOOT_SECT_PEND_LO + 4, 0), (Reg.SEC_STATUS, 3), (Reg.SEC_EVENT, 0), (Reg.PCI_STATUS, 2049), (Reg.TIDE_CTRL, 0), (Reg.TIDE_STATUS, 12), (Reg.DMC_STATUS 0, 0), (Reg.DMC_STATUS 1, 0), (Reg.SEC_XMSS_IDX, 65536)] (fun d => (id) { d with bt := {  }, time := { ns := 10 } })), by decide +kernel⟩,
   ⟨(ws [(Reg.BOOT_STATUS, 10), (Reg.BOOT_EVENT, 0), (Reg.BOOT_COUNT, 3), (Reg.BOOT_CMD_RESULT, 9), (Reg.BOOT_VERSION_LO, 0), (Reg.BOOT_VERSION_LO + 4, 0), (Reg.BOOT_OTHER_VER_LO, 0), (Reg.BOOT_OTHER_VER_LO + 4, 0), (Reg.BOOT_SECT_OK_LO, 0), (Reg.BOOT_SECT_OK_LO + 4, 0), (Reg.BOOT_SECT_PEND_LO, 0), (Reg.BOOT_SECT_PEND_LO + 4, 0), (Reg.SEC_STATUS, 3), (Reg.SEC_EVENT, 0), (Reg.PCI_STATUS, 2049), (Reg.TIDE_CTRL, 0), (Reg.TIDE_STATUS, 12), (Reg.DMC_STATUS 0, 0), (Reg.DMC_STATUS 1, 0), (Reg.SEC_XMSS_IDX, 3), (Reg.SEC_XMSS_RES, 3), (Reg.SEC_CMD_RESULT, 9), (Reg.SEC_ATT_BUF_LO, 4096), (Reg.SEC_ATT_BUF_LO + 4, 0), (Reg.DMC_RGN_CFG 0 0, 0), (Reg.DMC_RGN_BASE 0 0, 0)] (fun d => (id) { d with bt := {  }, time := { ns := 10 } })), by decide +kernel⟩,
   ⟨(ws [(Reg.BOOT_STATUS, 10), (Reg.BOOT_EVENT, 0), (Reg.BOOT_COUNT, 3), (Reg.BOOT_CMD_RESULT, 9), (Reg.BOOT_VERSION_LO, 0), (Reg.BOOT_VERSION_LO + 4, 0), (Reg.BOOT_OTHER_VER_LO, 0), (Reg.BOOT_OTHER_VER_LO + 4, 0), (Reg.BOOT_SECT_OK_LO, 0), (Reg.BOOT_SECT_OK_LO + 4, 0), (Reg.BOOT_SECT_PEND_LO, 0), (Reg.BOOT_SECT_PEND_LO + 4, 0), (Reg.SEC_STATUS, 3), (Reg.SEC_EVENT, 0), (Reg.PCI_STATUS, 2049), (Reg.TIDE_CTRL, 0), (Reg.TIDE_STATUS, 12), (Reg.DMC_STATUS 0, 0), (Reg.DMC_STATUS 1, 0), (Reg.SEC_XMSS_IDX, 3), (Reg.SEC_XMSS_RES, 3), (Reg.SEC_CMD_RESULT, 9), (Reg.SEC_ATT_BUF_LO, 4096), (Reg.SEC_ATT_BUF_LO + 4, 0), (Reg.DMC_RGN_CFG 0 0, 65536 + 8192), (Reg.DMC_RGN_BASE 0 0, 0)] (fun d => (id) { d with bt := {  }, time := { ns := 10 } })), by decide +kernel⟩,
   ⟨(ws (wreach ++ [(Reg.BOOT_STATUS, 10), (Reg.BOOT_EVENT, 0), (Reg.BOOT_COUNT, 3), (Reg.BOOT_CMD_RESULT, 9), (Reg.BOOT_VERSION_LO, 0), (Reg.BOOT_VERSION_LO + 4, 0), (Reg.BOOT_OTHER_VER_LO, 0), (Reg.BOOT_OTHER_VER_LO + 4, 0), (Reg.BOOT_SECT_OK_LO, 0), (Reg.BOOT_SECT_OK_LO + 4, 0), (Reg.BOOT_SECT_PEND_LO, 0), (Reg.BOOT_SECT_PEND_LO + 4, 0), (Reg.SEC_STATUS, 11), (Reg.SEC_EVENT, 0), (Reg.PCI_STATUS, 2049), (Reg.TIDE_CTRL, 0), (Reg.TIDE_STATUS, 12), (Reg.DMC_STATUS 0, 0), (Reg.DMC_STATUS 1, 0), (Reg.SEC_XMSS_IDX, 3), (Reg.SEC_XMSS_RES, 64), (Reg.SEC_CMD_RESULT, 9), (Reg.SEC_ATT_BUF_LO, 4096), (Reg.SEC_ATT_BUF_LO + 4, 0), (Reg.DMC_RGN_CFG 0 0, 65536 + 8192), (Reg.DMC_RGN_BASE 0 0, 0)]) (fun d => (id) { d with bt := { att := some ([], 4096) }, time := { ns := 10 } })), 4096, (3), ([]), (List.replicate 2696 0), by decide +kernel⟩,
   ⟨(ws [(Reg.BOOT_STATUS, 10), (Reg.BOOT_EVENT, 0), (Reg.BOOT_COUNT, 3), (Reg.BOOT_CMD_RESULT, 9), (Reg.BOOT_VERSION_LO, 0), (Reg.BOOT_VERSION_LO + 4, 0), (Reg.BOOT_OTHER_VER_LO, 0), (Reg.BOOT_OTHER_VER_LO + 4, 0), (Reg.BOOT_SECT_OK_LO, 0), (Reg.BOOT_SECT_OK_LO + 4, 0), (Reg.BOOT_SECT_PEND_LO, 0), (Reg.BOOT_SECT_PEND_LO + 4, 0), (Reg.SEC_STATUS, 11), (Reg.SEC_EVENT, 0), (Reg.PCI_STATUS, 2049), (Reg.TIDE_CTRL, 0), (Reg.TIDE_STATUS, 12), (Reg.DMC_STATUS 0, 0), (Reg.DMC_STATUS 1, 0), (Reg.SEC_XMSS_IDX, 3), (Reg.SEC_XMSS_RES, 3), (Reg.SEC_CMD_RESULT, 9), (Reg.SEC_ATT_BUF_LO, 4096), (Reg.SEC_ATT_BUF_LO + 4, 0), (Reg.DMC_RGN_CFG 0 0, 65536 + 8192), (Reg.DMC_RGN_BASE 0 0, 0)] (fun d => (id) { d with bt := { att := some ([], 4096) }, time := { ns := 10 } })), (1), (([], 4096)), by decide +kernel⟩,
   ⟨(ws [(Reg.BOOT_STATUS, 10), (Reg.BOOT_EVENT, 0), (Reg.BOOT_COUNT, 3), (Reg.BOOT_CMD_RESULT, 9), (Reg.BOOT_VERSION_LO, 0), (Reg.BOOT_VERSION_LO + 4, 0), (Reg.BOOT_OTHER_VER_LO, 0), (Reg.BOOT_OTHER_VER_LO + 4, 0), (Reg.BOOT_SECT_OK_LO, 0), (Reg.BOOT_SECT_OK_LO + 4, 0), (Reg.BOOT_SECT_PEND_LO, 0), (Reg.BOOT_SECT_PEND_LO + 4, 0), (Reg.SEC_STATUS, 0), (Reg.SEC_EVENT, 0), (Reg.PCI_STATUS, 2049), (Reg.TIDE_CTRL, 0), (Reg.TIDE_STATUS, 12), (Reg.DMC_STATUS 0, 0), (Reg.DMC_STATUS 1, 0)] (fun d => (id) { d with bt := {  }, time := { ns := 10 } })), (1), by decide +kernel⟩⟩

end Sys2Proof.Machine
end

section
/-! SUPPORT. Frames of the device: what it means that registers and memories stay, composed and weakened. -/
set_option autoImplicit false
namespace Sys2Proof.Machine
open Sys2Proof

theorem SameMem.refl (a : Dev) : SameMem a a := ⟨rfl, rfl, rfl, rfl⟩
theorem SameMem.trans {a b c : Dev} (h : SameMem a b) (k : SameMem b c) : SameMem a c := by
  obtain ⟨hd, hc, hs, hf⟩ := h
  obtain ⟨kd, kc, ks, kf⟩ := k
  exact ⟨kd.trans hd, kc.trans hc, ks.trans hs, kf.trans hf⟩
theorem SameRest.sameMem {a b : Dev} (h : SameRest a b) : SameMem a b := by
  unfold SameRest at h
  rw [h]
  exact ⟨rfl, rfl, rfl, rfl⟩
theorem SameRest.held {a b : Dev} (h : SameRest a b) : b.held = a.held := by
  unfold SameRest at h
  rw [h]
theorem SameRest.bus {a b : Dev} (h : SameRest a b) : b.bus = a.bus := by
  unfold SameRest at h
  rw [h]
theorem sameMem_wrN (a n : Nat) (s : Dev) : SameMem s (wrN a n s) := SameMem.refl _

theorem SameRegs.refl (l : List Nat) (a : Dev) : SameRegs l a a := fun _ _ => rfl
theorem SameRegs.trans {l : List Nat} {a b c : Dev} (h : SameRegs l a b) (k : SameRegs l b c) : SameRegs l a c := fun x hx =>
  (k x hx).trans (h x hx)
theorem SameRegs.mono {l m : List Nat} {a b : Dev} (h : SameRegs l a b) (hl : l ⊆ m) : SameRegs m a b := fun x hx => h x fun hm => hx (hl hm)
/-- Two changes in a row leave what neither touches. -/
theorem SameRegs.append {l m : List Nat} {a b c : Dev} (h : SameRegs l a b) (k : SameRegs m b c) : SameRegs (m ++ l) a c :=
  (h.mono (List.subset_append_right m l)).trans (k.mono (List.subset_append_left m l))
theorem sameRegs_of_regs {a b : Dev} (l : List Nat) (h : b.regs = a.regs) : SameRegs l a b := fun x _ => by unfold rdN; rw [h]
theorem sameRegs_wrN (a n : Nat) (s : Dev) : SameRegs [a] s (wrN a n s) := fun x hx => rdN_wrN_other n s (by simpa using hx)
theorem sameRegs_wf (a lo len v : Nat) (s : Dev) : SameRegs [a] s (wf a lo len v s) := sameRegs_wrN a _ s
theorem sameRegs_setB (a i : Nat) (v : Bool) (s : Dev) : SameRegs [a] s (setB a i v s) := sameRegs_wrN a _ s
theorem sameRegs_bump (a k : Nat) (s : Dev) : SameRegs [a] s (bump a k s) := sameRegs_wrN a _ s

/-! ## What is sent and raised -/

theorem sameRegs_send (l : List Nat) (m : OutMsg) (s : Dev) : SameRegs l s (send m s) := sameRegs_of_regs l (by unfold send; split <;> rfl)
/-- Only a level on a ball can be withheld (Table 19-7). -/
theorem send_out (m : OutMsg) (s : Dev) (h : isPin m = false) : (send m s).out = s.out ++ [m] := by simp [send, h]
/-- An event whose block keeps it in register `a` changes that register alone. -/
theorem sameRegs_raiseFor {code unit a : Nat} (info subject : Nat) (s : Dev) (h : eventReg code unit = some a) :
    SameRegs [a] s (raiseFor code unit info subject s) := by
  simp only [raiseFor, h]
  exact sameRegs_setB a _ true s
/-- An event shows in its block's register (R358). -/
theorem tst_raiseFor {code unit a : Nat} (info subject : Nat) (s : Dev) (h : eventReg code unit = some a) (hb : code % 256 < 32) :
    tst (raiseFor code unit info subject s) a (code % 256) = true := by
  simp only [raiseFor, h]
  exact tst_setB_same a _ true s hb

/-! ## L1 and MSI-X -/

theorem sameRegs_leaveL1 (s : Dev) : SameRegs [Reg.PCI_STATUS] s (leaveL1 s) := sameRegs_setB Reg.PCI_STATUS 9 false _
theorem sameRegs_msixSend (v : Nat) (s : Dev) : SameRegs [Reg.PCI_STATUS] s (msixSend v s) := by
  unfold msixSend
  split
  · exact SameRegs.refl _ _
  · split
    · exact sameRegs_of_regs _ rfl
    · exact (sameRegs_leaveL1 s).trans (sameRegs_send _ _ _)
theorem sameRest_irqRequest (i : Nat) (s : Dev) : SameRest s (irqRequest i s) := (sameRest_bump _ 1 s).trans (sameRest_msixSend _ _)
/-- A request of the interrupt aggregation (R444) counts, and may take the link out of L1. -/
theorem sameRegs_irqRequest (i : Nat) (s : Dev) : SameRegs [Reg.PCI_STATUS, Reg.GEN_IRQ_SENT_CNT] s (irqRequest i s) :=
  (sameRegs_bump Reg.GEN_IRQ_SENT_CNT 1 s).append (sameRegs_msixSend _ _)
theorem rdN_irqRequest_count (i : Nat) (s : Dev) : rdN (irqRequest i s) Reg.GEN_IRQ_SENT_CNT = (rdN s Reg.GEN_IRQ_SENT_CNT + 1) % 2 ^ 32 :=
  (sameRegs_msixSend _ _ _ (by decide)).trans (rdN_bump_same Reg.GEN_IRQ_SENT_CNT 1 s)
/-- Requests for several sources count one each. -/
theorem rdN_forS_irqRequest_count (l : List Nat) (s : Dev) :
    rdN (forS l irqRequest s) Reg.GEN_IRQ_SENT_CNT = (rdN s Reg.GEN_IRQ_SENT_CNT + l.length) % 2 ^ 32 := by
  induction l generalizing s with
  | nil => exact (Nat.mod_eq_of_lt (rdN_lt s _)).symm
  | cons i l ih =>
    have hstep : forS (i :: l) irqRequest s = forS l irqRequest (irqRequest i s) := rfl
    rw [hstep, ih, rdN_irqRequest_count, Nat.mod_add_mod, List.length_cons, Nat.add_assoc, Nat.add_comm 1]
theorem sameRegs_forS {α : Type} (r : List Nat) (l : List α) (f : α → Dev → Dev) (h : ∀ x d, SameRegs r d (f x d)) (s : Dev) : SameRegs r s (forS l f s) :=
  forS_rel (SameRegs r) (SameRegs.refl r) (fun _ _ _ => SameRegs.trans) l f (fun x _ d => h x d) s
theorem sameRest_forS {α : Type} (l : List α) (f : α → Dev → Dev) (h : ∀ x d, SameRest d (f x d)) (s : Dev) : SameRest s (forS l f s) :=
  forS_rel SameRest SameRest.refl (fun _ _ _ => SameRest.trans) l f (fun x _ d => h x d) s

end Sys2Proof.Machine
end

section
/-! SUPPORT. The register bus: how a request arrives, what it reaches, and which register it names. -/
set_option autoImplicit false
namespace Sys2Proof.Machine
open Sys2Proof

/-! ## How a request arrives (R382, R440) -/

/-- The device as a request of `r` finds it: the host's takes the link out of L1 (R394). -/
def arrived (r : Req) (s : Dev) : Dev := if r = .host then leaveL1 s else s

theorem sameRest_arrived (r : Req) (s : Dev) : SameRest s (arrived r s) := by
  unfold arrived
  split
  · exact sameRest_leaveL1 s
  · exact SameRest.refl s
theorem sameRegs_arrived (r : Req) (s : Dev) : SameRegs [Reg.PCI_STATUS] s (arrived r s) := by
  unfold arrived
  split
  · exact sameRegs_leaveL1 s
  · exact SameRegs.refl _ s
theorem rdN_arrived (r : Req) (s : Dev) {a : Nat} (h : a ≠ Reg.PCI_STATUS) : rdN (arrived r s) a = rdN s a := sameRegs_arrived r s a (by simpa using h)
@[simp] theorem arrived_bus (r : Req) (s : Dev) : (arrived r s).bus = s.bus := (sameRest_arrived r s).bus
@[simp] theorem arrived_held (r : Req) (s : Dev) : (arrived r s).held = s.held := (sameRest_arrived r s).held
@[simp] theorem arrived_out (r : Req) (s : Dev) : (arrived r s).out = s.out := by unfold arrived; split <;> rfl
theorem sameMem_arrived (r : Req) (s : Dev) : SameMem s (arrived r s) := (sameRest_arrived r s).sameMem

/-- A request that is not the host's, or that reaches a BAR, is performed. -/
theorem viaBus_of_reached {r : Req} {s : Dev} (f : Dev → Dev) (h : r ≠ .host ∨ barReached s = true) : viaBus r f s = f (arrived r s) := by
  by_cases hr : r = .host
  · have hb : barReached s = true := h.resolve_left fun hn => hn hr
    have hl : linkUp s = true := by
      unfold barReached at hb
      simp only [Bool.and_eq_true] at hb
      exact hb.1.1.1
    simp [viaBus, arrived, hostMem, hr, hb, hl]
  · simp [viaBus, arrived, hr]
/-- Without a link the host's request does not arrive. -/
theorem viaBus_host_of_linkDown (f : Dev → Dev) {s : Dev} (h : linkUp s = false) : viaBus .host f s = s := by simp [viaBus, hostMem, h]

/-! ## What responds (R421, R440) -/

theorem regLost_arrived (r : Req) (s : Dev) (a : Nat) : regLost (arrived r s) a = regLost s a := by
  have h : ∀ d, Reg.ARB_DLINK_DOWN d ≠ Reg.PCI_STATUS := fun d => by unfold Reg.ARB_DLINK_DOWN Reg.PCI_STATUS dieBase dieHalf; omega
  unfold regLost crossesDown tst
  rw [rdN_arrived r s (h 1), rdN_arrived r s (h 0)]
theorem responds_arrived (r : Req) (s : Dev) (a : Nat) : responds (arrived r s) a = responds s a := by
  unfold responds halted domRuns rf
  rw [regLost_arrived, rdN_arrived r s (by decide), rdN_arrived r s (by decide)]
/-- What responds is not lost on its way. -/
theorem regLost_of_responds {s : Dev} {a : Nat} (h : responds s a = true) : regLost s a = false := by
  unfold responds at h
  simpa using And.right (by simpa using h)
theorem clampsOf_eq_nil (s t : Dev) (a : Nat) (x : RegDef) (h : clampsOf s a x = []) : clampsOf t a x = [] := by
  unfold clampsOf at *
  split at h
  · simp at h
  · next hn => rwa [if_neg hn]

/-! ## Which register an offset names -/

theorem atN_none {α : Type} {a n : Nat} {r : Nat → Nat} (f : Nat → α) (h : ∀ i < n, r i ≠ a) : atN a n r f = none := by
  simpa [atN] using h
/-- The first copy at the offset is the one meant. -/
theorem atN_some {α : Type} {a n i : Nat} {r : Nat → Nat} (f : Nat → α) (hi : i < n) (h : r i = a) (hj : ∀ j < i, r j ≠ a) : atN a n r f = some (f i) := by
  have hfind : (List.range n).find? (fun j => r j == a) = some i := by
    rw [List.find?_range_eq_some]
    exact ⟨by simpa using h, by simpa using hi, fun j hlt => by simpa using hj j hlt⟩
  simp [atN, hfind]
theorem atNM_some {α : Type} {a n m i j : Nat} {r : Nat → Nat → Nat} (f : Nat → Nat → α) (hi : i < n) (hj : j < m) (h : r i j = a)
    (hu : ∀ i' < n, ∀ j' < m, r i' j' = a → i' = i ∧ j' = j) : atNM a n m r f = some (f i j) := by
  have hrow : atN a m (r i) (f i) = some (f i j) :=
    atN_some (f i) hj h fun j' hlt heq => by have := (hu i hi j' (by omega) heq).2; omega
  have hbefore : ∀ i' < i, atN a m (r i') (f i') = none := fun i' hlt =>
    atN_none (f i') fun j' hm heq => by have := (hu i' (by omega) j' hm heq).1; omega
  obtain ⟨k, rfl⟩ := Nat.exists_eq_add_of_le (Nat.succ_le_of_lt hi)
  have hsplit : List.range (i + 1 + k) = List.range i ++ i :: (List.range k).map (i + 1 + ·) := by simp [List.range_add, List.range_succ]
  exact List.findSome?_eq_some_iff.mpr ⟨_, i, _, hsplit, hrow, fun x hx => hbefore x (List.mem_range.mp hx)⟩

end Sys2Proof.Machine
end

section
/-! SUPPORT. The register bus: what a read returns and what a write does, one rule for each case of `readReg` and `writeReg`. -/
set_option autoImplicit false
namespace Sys2Proof.Machine
open Sys2Proof

/-! ## Latches (R439) -/

/-- A latch belongs to the requester and the pair it is asked for. -/
theorem latchOf_key (s : Dev) (r : Req) (a : Nat) : (latchOf s r a).r = r ∧ (latchOf s r a).a = a := by
  unfold latchOf
  cases hf : s.bus.find? fun l => l.r == r && l.a == a with
  | none => exact ⟨rfl, rfl⟩
  | some l => simpa using List.find?_some hf
theorem latchOf_putLatch (l : Latch) (s : Dev) : latchOf (putLatch l s) l.r l.a = l := by simp [latchOf, putLatch]
theorem latchOf_congr {s t : Dev} (r : Req) (a : Nat) (h : t.bus = s.bus) : latchOf t r a = latchOf s r a := by unfold latchOf; rw [h]
/-- The latch of a pair reads back with the half that was put. -/
theorem latchOf_putLatch_wr (r : Req) (a : Nat) (w : Option Word) (s : Dev) :
    latchOf (putLatch { latchOf s r a with wr := w } s) r a = { latchOf s r a with wr := w } := by
  obtain ⟨hr, ha⟩ := latchOf_key s r a
  have h := latchOf_putLatch { latchOf s r a with wr := w } s
  simpa only [hr, ha] using h
theorem latchOf_putLatch_rd (r : Req) (a : Nat) (w : Option Word) (s : Dev) :
    latchOf (putLatch { latchOf s r a with rd := w } s) r a = { latchOf s r a with rd := w } := by
  obtain ⟨hr, ha⟩ := latchOf_key s r a
  have h := latchOf_putLatch { latchOf s r a with rd := w } s
  simpa only [hr, ha] using h
theorem sameRegs_putLatch (l : List Nat) (x : Latch) (s : Dev) : SameRegs l s (putLatch x s) := sameRegs_of_regs l rfl
theorem sameMem_putLatch (x : Latch) (s : Dev) : SameMem s (putLatch x s) := ⟨rfl, rfl, rfl, rfl⟩

/-! ## Reads -/

/-- A register that does not respond reads 0 (R10). -/
theorem readReg_silent (r : Req) {a : Nat} {s : Dev} (h : responds s a = false) : readReg r a s = (0, s) := by simp [readReg, h]
theorem readReg_low (r : Req) {a : Nat} {s : Dev} (h : responds s a = true) (hl : isLow a = true) :
    readReg r a s = (shown s a, putLatch { latchOf s r a with rd := some (BitVec.ofNat 32 (shown s (a + 4))) } s) := by simp [readReg, h, hl]
theorem readReg_high_kept {r : Req} {a : Nat} {s : Dev} {w : Word} (h : responds s a = true) (hl : isLow a = false) (hh : isHigh a = true)
    (hk : (latchOf s r (a - 4)).rd = some w) : readReg r a s = (w.toNat, s) := by simp [readReg, h, hl, hh, hk]
theorem readReg_live {r : Req} {a : Nat} {s : Dev} (h : responds s a = true) (hl : isLow a = false)
    (hk : isHigh a = true → (latchOf s r (a - 4)).rd = none) : readReg r a s = (shown s a, s) := by
  by_cases hh : isHigh a = true
  · simp [readReg, h, hl, hh, hk hh]
  · simp [readReg, h, hl, hh]

/-- What a read request that arrives answers. -/
theorem busRead_answer {r : Req} {a : Nat} {s : Dev} (h : r ≠ .host ∨ barReached s = true) (hlost : regLost s a = false) :
    busRead r a s = send (.regRead r a (BitVec.ofNat 32 (readReg r a (arrived r s)).1)) (readReg r a (arrived r s)).2 := by
  unfold busRead
  rw [viaBus_of_reached _ h]
  exact if_neg (by rw [regLost_arrived, hlost]; decide)
/-- A read of a die 1 offset behind a port pair that is DOWN is answered with an error (R345). -/
theorem busRead_lost {r : Req} {a : Nat} {s : Dev} (h : r ≠ .host ∨ barReached s = true) (hlost : regLost s a = true) :
    busRead r a s = send (.regError r a) (arrived r s) := by
  unfold busRead
  rw [viaBus_of_reached _ h]
  exact if_pos (by rw [regLost_arrived, hlost])

/-! ## Which write is meant -/

/-- Whether a register has RW bits, so that a write of it as half of a pair waits for the other half (R439). -/
def writable (a : Nat) : Bool := match regDef? a with
  | some d => d.rw != 0
  | none => false
theorem writable_of_def {a : Nat} {x : RegDef} (h : regDef? a = some x) : writable a = (x.rw != 0) := by simp [writable, h]
theorem isLow_of_def {a : Nat} {x : RegDef} (h : regDef? a = some x) : isLow a = x.lo := by simp [isLow, h]

/-- A write of part of a dword is rejected (R382). -/
theorem busWrite_part {r : Req} {be : Nat} (a v : Nat) {s : Dev} (h : r ≠ .host ∨ barReached s = true) (hb : be ≠ 15) :
    busWrite r a be v s = pciReport 10 0 (arrived r s) := by
  unfold busWrite
  rw [viaBus_of_reached _ h, if_pos hb]
theorem busWrite_whole {r : Req} (a v : Nat) {s : Dev} (h : r ≠ .host ∨ barReached s = true) :
    busWrite r a 15 v s = writeReg r a v (arrived r s) := by
  unfold busWrite
  rw [viaBus_of_reached _ h]
  exact if_neg (by decide)
/-- The lower half that a write of an upper half goes with: the one kept for the requester, or the live one (R439). -/
def keptLow (s : Dev) (r : Req) (a : Nat) : Nat := match (latchOf s r a).wr with
  | some w => w.toNat
  | none => rdN s a
theorem writeReg_eq (r : Req) (a v : Nat) (s : Dev) :
    writeReg r a v s = if !(responds s a) then s
      else if isLow a && writable a then putLatch { latchOf s r a with wr := some (BitVec.ofNat 32 v) } s
      else if isHigh a && writable a then storeRegs (a - 4) [keptLow s r (a - 4), v] (putLatch { latchOf s r (a - 4) with wr := none } s)
      else storeRegs a [v] s := rfl

theorem writeReg_silent (r : Req) {a : Nat} (v : Nat) {s : Dev} (h : responds s a = false) : writeReg r a v s = s := by simp [writeReg_eq, h]
/-- A write of a lower half is kept for its requester (R439). -/
theorem writeReg_low (r : Req) {a : Nat} (v : Nat) {s : Dev} (h : responds s a = true) (hl : isLow a = true) (hw : writable a = true) :
    writeReg r a v s = putLatch { latchOf s r a with wr := some (BitVec.ofNat 32 v) } s := by simp [writeReg_eq, h, hl, hw]
/-- A write of an upper half makes the kept lower half take effect with it (R439). -/
theorem writeReg_high {r : Req} {a : Nat} (v : Nat) {s : Dev} {w : Word} (h : responds s a = true) (hl : isLow a = false) (hh : isHigh a = true)
    (hw : writable a = true) (hk : (latchOf s r (a - 4)).wr = some w) :
    writeReg r a v s = storeRegs (a - 4) [w.toNat, v] (putLatch { latchOf s r (a - 4) with wr := none } s) := by
  simp [writeReg_eq, h, hl, hh, hw, keptLow, hk]
/-- A write of a register that is no writable half of a pair is its own. -/
theorem writeReg_own (r : Req) {a : Nat} (v : Nat) {s : Dev} (h : responds s a = true) (hn : writable a = false ∨ (isLow a = false ∧ isHigh a = false)) :
    writeReg r a v s = storeRegs a [v] s := by
  rcases hn with hw | ⟨hl, hh⟩
  · simp [writeReg_eq, h, hw]
  · simp [writeReg_eq, h, hl, hh]

theorem storeRegs_of_pairRule {a : Nat} {vs : List Nat} {f : Dev → Dev} (h : pairRule a vs (storeEach a vs) = some f) : storeRegs a vs = f := by
  simp [storeRegs, h]
theorem storeRegs_of_none {a : Nat} {vs : List Nat} (h : pairRule a vs (storeEach a vs) = none) : storeRegs a vs = storeEach a vs := by
  simp [storeRegs, h]
/-- One register's write in `storeEach`. -/
def storeOne (a v : Nat) (s : Dev) : Dev := ((ruledWrite a v).getD (plainWrite a v)) s
theorem storeEach_one (a v : Nat) (s : Dev) : storeEach a [v] s = storeOne a v s := by
  cases h : ruledWrite a v <;> simp [storeEach, forS, storeOne, h]
theorem storeEach_two (a v w : Nat) (s : Dev) : storeEach a [v, w] s = storeOne (a + 4) w (storeOne a v s) := by
  cases h : ruledWrite a v <;> cases h' : ruledWrite (a + 4) w <;> simp [storeEach, forS, storeOne, h, h', List.range_succ]
theorem storeOne_plain {a v : Nat} (s : Dev) (h : ruledWrite a v = none) : storeOne a v s = plainWrite a v s := by simp [storeOne, h]
theorem storeOne_ruled {a v : Nat} {f : Dev → Dev} (s : Dev) (h : ruledWrite a v = some f) : storeOne a v s = f s := by simp [storeOne, h]

/-! ## A write by access codes (Table 0-5) -/

/-- What a register holding `n` holds after its W1C bits written 1 have cleared and its W1S bits written 1 are set. -/
def clearedAndSet (x : RegDef) (n v : Nat) : Nat := (n - (n &&& x.w1c &&& v)) ||| (x.w1s &&& v)
/-- What it holds once its RW bits outside held fields have taken the value too. -/
def accessed (x : RegDef) (n v : Nat) : Nat :=
  (clearedAndSet x n v - (clearedAndSet x n v &&& (x.rw - x.held)) + (v &&& (x.rw - x.held))) % 2 ^ 32

theorem clearedAndSet_lt (x : RegDef) {n v : Nat} (hn : n < 2 ^ 32) (hv : v < 2 ^ 32) : clearedAndSet x n v < 2 ^ 32 :=
  Nat.or_lt_two_pow (Nat.lt_of_le_of_lt (Nat.sub_le _ _) hn) (Nat.and_lt_two_pow _ hv)
/-- Without W1C, W1S and held bits a register takes the value in its RW bits. -/
theorem accessed_rw (x : RegDef) (n v : Nat) (hc : x.w1c = 0) (hs : x.w1s = 0) (hh : x.held = 0) :
    accessed x n v = (n - (n &&& x.rw) + (v &&& x.rw)) % 2 ^ 32 := by simp [accessed, clearedAndSet, hc, hs, hh]

section PlainWrite
variable {a v : Nat} {x : RegDef} {s : Dev}

/-- The part of a plain write that takes effect at once. -/
def writeNow (x : RegDef) (a v : Nat) (s : Dev) : Dev :=
  s |> (fun s => wrN a (rdN s a - (rdN s a &&& x.w1c &&& v)) s) |> (fun s => wrN a (rdN s a ||| (x.w1s &&& v)) s) |> putMasked a (x.rw - x.held) v
/-- A register without clamps, beside TIDE_CTRL, is written at once but for its held fields, which wait for the mark (R13). -/
theorem plainWrite_eq (hx : regDef? a = some x) (hc : clampsOf s a x = []) (ht : a ≠ Reg.TIDE_CTRL) :
    plainWrite a v s = whenS (x.held != 0) (hold a x.held v) (writeNow x a v s) := by
  simp [plainWrite, hx, hc, clamped, ht, whenS, writeNow]
theorem rdN_writeNow (hv : v < 2 ^ 32) : rdN (writeNow x a v s) a = accessed x (rdN s a) v := by
  have hclr : rdN s a - (rdN s a &&& x.w1c &&& v) < 2 ^ 32 := Nat.lt_of_le_of_lt (Nat.sub_le _ _) (rdN_lt s a)
  have hset := clearedAndSet_lt x (rdN_lt s a) hv
  unfold clearedAndSet at hset
  simp only [writeNow, putMasked, rdN_wrN_same, Nat.mod_eq_of_lt hclr, Nat.mod_eq_of_lt hset]
  rfl
theorem sameRegs_writeNow (x : RegDef) (a v : Nat) (s : Dev) : SameRegs [a] s (writeNow x a v s) :=
  (sameRegs_wrN a _ s).trans ((sameRegs_wrN a _ _).trans (sameRegs_wrN a _ _))
theorem sameMem_writeNow (x : RegDef) (a v : Nat) (s : Dev) : SameMem s (writeNow x a v s) := ⟨rfl, rfl, rfl, rfl⟩

/-- Outside the time unit a held write changes the list of waiting writes alone, and is in it. -/
theorem hold_outside_tide {mask : Nat} (h : isTide a = false) : (hold a mask v s).regs = s.regs ∧ SameMem s (hold a mask v s) ∧
    .reg a mask (v &&& mask) ∈ (hold a mask v s).held := by
  unfold hold
  rw [h]
  exact ⟨rfl, ⟨rfl, rfl, rfl, rfl⟩, List.mem_append_right _ (List.mem_singleton_self _)⟩

variable (hx : regDef? a = some x) (hc : clampsOf s a x = []) (ht : a ≠ Reg.TIDE_CTRL)
include hx hc ht

theorem plainWrite_unheld (hh : x.held = 0) : plainWrite a v s = writeNow x a v s := by
  rw [plainWrite_eq hx hc ht, hh]
  rfl
theorem plainWrite_held (hh : x.held ≠ 0) : plainWrite a v s = hold a x.held v (writeNow x a v s) := by
  rw [plainWrite_eq hx hc ht, whenS, if_pos (bne_iff_ne.mpr hh)]
/-- A write by access codes, whole: the register takes its value, no other register and no memory changes, and the held bits wait. -/
theorem plainWrite_effect (hh : x.held = 0 ∨ isTide a = false) (hv : v < 2 ^ 32) :
    rdN (plainWrite a v s) a = accessed x (rdN s a) v ∧ SameRegs [a] s (plainWrite a v s) ∧ SameMem s (plainWrite a v s) ∧
      (x.held ≠ 0 → .reg a x.held (v &&& x.held) ∈ (plainWrite a v s).held) := by
  by_cases h0 : x.held = 0
  · rw [plainWrite_unheld hx hc ht h0]
    exact ⟨rdN_writeNow hv, sameRegs_writeNow x a v s, sameMem_writeNow x a v s, fun hne => absurd h0 hne⟩
  · rw [plainWrite_held hx hc ht h0]
    obtain ⟨hregs, hmem, hin⟩ := hold_outside_tide (v := v) (s := writeNow x a v s) (mask := x.held) (hh.resolve_left h0)
    have hread : rdN (hold a x.held v (writeNow x a v s)) a = rdN (writeNow x a v s) a := by unfold rdN; rw [hregs]
    exact ⟨hread.trans (rdN_writeNow hv), (sameRegs_writeNow x a v s).trans (sameRegs_of_regs _ hregs), (sameMem_writeNow x a v s).trans hmem, fun _ => hin⟩

end PlainWrite

end Sys2Proof.Machine
end

section
/-! SUPPORT. The configuration registers of coves on the register bus (R191). -/
set_option autoImplicit false
namespace Sys2Proof.Machine
open Sys2Proof

/-! ## Fields -/

theorem bits_mod_two_pow (n w lo len : Nat) (h : lo + len ≤ w) : bits (n % 2 ^ w) lo len = bits n lo len := by
  apply Nat.eq_of_testBit_eq
  intro i
  rw [testBit_bits, testBit_bits, Nat.testBit_mod_two_pow]
  by_cases hi : i < len
  · simp [show lo + i < w by omega]
  · simp [hi]
theorem clampN_le (n lo hi : Nat) (h : lo ≤ hi) : clampN n lo hi ≤ hi := by
  unfold clampN
  split <;> [exact h; split <;> omega]

/-! ## Where the registers are -/

theorem coveCfgReg_offset (c : Nat) {i : Nat} (h : i < 7) : (coveCfgReg c i).1 = 0x11100 + 64 * c + 4 * i := by
  interval_cases i <;> simp only [coveCfgReg, Reg.SCH_COVE_CFG, Reg.SCH_COVE_CORES_LO, Reg.SCH_COVE_CORES_HI, Reg.SCH_COVE_WP_LO, Reg.SCH_COVE_WP_HI,
    Reg.SCH_COVE_SAVE0, Reg.SCH_COVE_SAVE1] <;> omega
/-- The core set and the package address are pairs; the other registers stand alone. -/
theorem coveCfgReg_halves : ∀ (c : Fin 8) (i : Fin 7), isLow (coveCfgReg c i).1 = (i.val == 1 || i.val == 3) ∧
    isHigh (coveCfgReg c i).1 = (i.val == 2 || i.val == 4) ∧ writable (coveCfgReg c i).1 = true := by decide +kernel
/-- A write of a configuration register follows R191's rule. -/
theorem pairRule_coveCfgReg {c i : Nat} (hc : c < 8) (hi : i < 7) (vs : List Nat) (each : Dev → Dev) :
    pairRule (coveCfgReg c i).1 vs each = some (schCoveConfigWrite c i vs) := by
  have hmeant : atNM (coveCfgReg c i).1 8 7 (fun c i => (coveCfgReg c i).1) (fun c i => schCoveConfigWrite c i vs) =
      some (schCoveConfigWrite c i vs) := by
    refine atNM_some _ hc hi rfl fun c' _ i' hi' heq => ?_
    rw [coveCfgReg_offset c' hi', coveCfgReg_offset c hi] at heq
    omega
  unfold pairRule
  rw [hmeant]
  rfl

/-! ## What a write does -/

/-- What configuration register `i` of a cove takes of a written value (R191, Table 8-9). -/
def coveCfgValue (c i v : Nat) : Nat :=
  let n := v % 2 ^ (coveCfgReg c i).2
  if i = 0 then putBits (putBits n 4 15 (clampN (bits n 4 15) 500 20000)) 19 7 (clampN (bits n 19 7) 10 100) else n
theorem coveCfgValue_of_ne_zero {i : Nat} (c v : Nat) (h : i ≠ 0) : coveCfgValue c i v = v % 2 ^ (coveCfgReg c i).2 := if_neg h

/-- Beside CFG a register takes as many low bits of the value as it holds. -/
theorem coveCfgValue_mod {c i w : Nat} (h : i ≠ 0) (hw : (coveCfgReg c i).2 = w) (hle : w ≤ 32) (v : Nat) : coveCfgValue c i v % 2 ^ 32 = v % 2 ^ w := by
  rw [coveCfgValue_of_ne_zero _ _ h, hw]
  exact Nat.mod_eq_of_lt ((Nat.mod_lt _ (Nat.two_pow_pos w)).trans_le (Nat.pow_le_pow_right (by decide) hle))

theorem bits_coveCfgValue_slice (c v : Nat) : bits (coveCfgValue c 0 v) 4 15 = clampN (bits v 4 15) 500 20000 := by
  have hle : clampN (bits v 4 15) 500 20000 ≤ 20000 := clampN_le _ _ _ (by decide)
  simp only [coveCfgValue, coveCfgReg, if_true]
  rw [bits_putBits_disj _ _ _ _ _ _ (by omega), bits_putBits_same, bits_mod_two_pow v 26 4 15 (by omega), Nat.mod_eq_of_lt (by omega)]
theorem bits_coveCfgValue_budget (c v : Nat) : bits (coveCfgValue c 0 v) 19 7 = clampN (bits v 19 7) 10 100 := by
  have hle : clampN (bits v 19 7) 10 100 ≤ 100 := clampN_le _ _ _ (by decide)
  simp only [coveCfgValue, coveCfgReg, if_true]
  rw [bits_putBits_same, bits_mod_two_pow v 26 19 7 (by omega), Nat.mod_eq_of_lt (by omega)]
theorem bits_coveCfgValue_flags (c v : Nat) : bits (coveCfgValue c 0 v) 0 4 = bits v 0 4 := by
  simp only [coveCfgValue, coveCfgReg, if_true]
  rw [bits_putBits_disj _ _ _ _ _ _ (by omega), bits_putBits_disj _ _ _ _ _ _ (by omega), bits_mod_two_pow v 26 0 4 (by omega)]

theorem schCoveConfigWrite_one {c : Nat} (i v : Nat) {s : Dev} (h : coveState s c ∉ [1, 2, 3]) :
    schCoveConfigWrite c i [v] s = wrN (coveCfgReg c i).1 (coveCfgValue c i v) s := by
  simp only [schCoveConfigWrite, if_neg h]
  rfl
theorem schCoveConfigWrite_two {c : Nat} (i v w : Nat) {s : Dev} (h : coveState s c ∉ [1, 2, 3]) :
    schCoveConfigWrite c i [v, w] s = wrN (coveCfgReg c (i + 1)).1 (coveCfgValue c (i + 1) w) (wrN (coveCfgReg c i).1 (coveCfgValue c i v) s) := by
  simp only [schCoveConfigWrite, if_neg h]
  rfl
/-- In LOADING, RUN and STOPPING a write is rejected with SCH_CFG_REJECT. -/
theorem schCoveConfigWrite_rejected {c : Nat} (i : Nat) (vs : List Nat) {s : Dev} (h : coveState s c ∈ [1, 2, 3]) :
    schCoveConfigWrite c i vs s = raiseFor 0x0704 c 0 c s := by simp only [schCoveConfigWrite, if_pos h]

theorem coveState_of_sameRegs {l : List Nat} {s t : Dev} (h : SameRegs l s t) (c : Nat) (hc : Reg.SCH_COVE_STATE c ∉ l) : coveState t c = coveState s c := by
  unfold coveState rf
  rw [h _ hc]
theorem coveState_arrived (r : Req) (s : Dev) (c : Nat) : coveState (arrived r s) c = coveState s c :=
  coveState_of_sameRegs (sameRegs_arrived r s) c (by simp only [Reg.SCH_COVE_STATE, Reg.PCI_STATUS, List.mem_singleton]; omega)

section Request
variable {s : Dev} {r : Req} {c : Fin 8} {v : Nat}

/-- A write request to a configuration register that is no half of a pair. -/
theorem busWrite_coveCfg_single (i : Fin 7) (hi : i.val = 0 ∨ 5 ≤ i.val) (h : Reaches s r (coveCfgReg c i).1) :
    busWrite r (coveCfgReg c i).1 15 v s = schCoveConfigWrite c i [v] (arrived r s) := by
  obtain ⟨hreach, hresp⟩ := h
  obtain ⟨hlow, hhigh, -⟩ := coveCfgReg_halves c i
  have hlow : isLow (coveCfgReg c i).1 = false := by rw [hlow]; simp; omega
  have hhigh : isHigh (coveCfgReg c i).1 = false := by rw [hhigh]; simp; omega
  rw [busWrite_whole _ _ hreach, writeReg_own r v (by rwa [responds_arrived]) (.inr ⟨hlow, hhigh⟩),
    storeRegs_of_pairRule (pairRule_coveCfgReg c.isLt i.isLt _ _)]
/-- A write request to the upper half `i + 1` of a pair whose lower half the requester has written. -/
theorem busWrite_coveCfg_pair (i : Fin 7) (hi : i.val = 2 ∨ i.val = 4) {lo : Word} (h : Reaches s r (coveCfgReg c i).1)
    (hk : (latchOf s r (coveCfgReg c (i.val - 1)).1).wr = some lo) :
    busWrite r (coveCfgReg c i).1 15 v s = schCoveConfigWrite c (i.val - 1) [lo.toNat, v]
      (putLatch { latchOf (arrived r s) r (coveCfgReg c (i.val - 1)).1 with wr := none } (arrived r s)) := by
  obtain ⟨hreach, hresp⟩ := h
  obtain ⟨hlow, hhigh, hw⟩ := coveCfgReg_halves c i
  have hlow : isLow (coveCfgReg c i).1 = false := by rw [hlow]; simp; omega
  have hhigh : isHigh (coveCfgReg c i).1 = true := by rw [hhigh]; simpa using hi
  have hbelow : (coveCfgReg c i).1 - 4 = (coveCfgReg c (i.val - 1)).1 := by
    rw [coveCfgReg_offset c i.isLt, coveCfgReg_offset c (by omega)]
    omega
  have hkept : (latchOf (arrived r s) r ((coveCfgReg c i).1 - 4)).wr = some lo := by
    rw [hbelow, latchOf_congr (s := s) r _ (arrived_bus r s), hk]
  rw [busWrite_whole _ _ hreach, writeReg_high v (by rwa [responds_arrived]) hlow hhigh hw hkept, hbelow,
    storeRegs_of_pairRule (pairRule_coveCfgReg c.isLt (by omega) _ _)]

/-- What a write of a register by itself leaves, for a cove that takes it. -/
theorem coveCfg_single_effect (i : Fin 7) (hi : i.val = 0 ∨ 5 ≤ i.val) (h : Reaches s r (coveCfgReg c i).1) (hs : coveState s c ∉ [1, 2, 3]) :
    rdN (busWrite r (coveCfgReg c i).1 15 v s) (coveCfgReg c i).1 = coveCfgValue c i v % 2 ^ 32 ∧
      SameRegs [(coveCfgReg c i).1, Reg.PCI_STATUS] s (busWrite r (coveCfgReg c i).1 15 v s) ∧ SameMem s (busWrite r (coveCfgReg c i).1 15 v s) := by
  rw [busWrite_coveCfg_single i hi h, schCoveConfigWrite_one _ _ (by rwa [coveState_arrived])]
  exact ⟨rdN_wrN_same _ _ _, (sameRegs_arrived r s).append (sameRegs_wrN _ _ _), (sameMem_arrived r s).trans (sameMem_wrN _ _ _)⟩
/-- What a write of a pair leaves, for a cove that takes it: both halves at once. -/
theorem coveCfg_pair_effect (i : Fin 7) (hi : i.val = 2 ∨ i.val = 4) {lo : Word} (h : Reaches s r (coveCfgReg c i).1)
    (hk : (latchOf s r (coveCfgReg c (i.val - 1)).1).wr = some lo) (hs : coveState s c ∉ [1, 2, 3]) :
    rdN (busWrite r (coveCfgReg c i).1 15 v s) (coveCfgReg c i).1 = coveCfgValue c i v % 2 ^ 32 ∧
      rdN (busWrite r (coveCfgReg c i).1 15 v s) (coveCfgReg c (i.val - 1)).1 = coveCfgValue c (i.val - 1) lo.toNat % 2 ^ 32 ∧
      SameMem s (busWrite r (coveCfgReg c i).1 15 v s) := by
  have hstate : coveState (putLatch { latchOf (arrived r s) r (coveCfgReg c (i.val - 1)).1 with wr := none } (arrived r s)) c ∉ [1, 2, 3] := by
    rwa [coveState_of_sameRegs (sameRegs_putLatch [] _ _) c (by simp), coveState_arrived]
  have hne : (coveCfgReg c (i.val - 1)).1 ≠ (coveCfgReg c i).1 := by
    rw [coveCfgReg_offset c i.isLt, coveCfgReg_offset c (by omega)]
    omega
  rw [busWrite_coveCfg_pair i hi h hk, schCoveConfigWrite_two _ _ _ hstate, Nat.sub_add_cancel (by omega)]
  exact ⟨rdN_wrN_same _ _ _, by rw [rdN_wrN_other _ _ hne, rdN_wrN_same], sameMem_arrived r s⟩
/-- In LOADING, RUN and STOPPING the registers stay and SCH_CFG_REJECT is set. -/
theorem coveCfg_rejected_effect (i : Fin 7) (hi : i.val = 0 ∨ 5 ≤ i.val) (h : Reaches s r (coveCfgReg c i).1) (hs : coveState s c ∈ [1, 2, 3]) :
    tst (busWrite r (coveCfgReg c i).1 15 v s) Reg.SCH_EVENT 4 = true ∧
      SameRegs [Reg.SCH_EVENT, Reg.PCI_STATUS] s (busWrite r (coveCfgReg c i).1 15 v s) ∧ SameMem s (busWrite r (coveCfgReg c i).1 15 v s) := by
  have hevent : eventReg 0x0704 c = some Reg.SCH_EVENT := rfl
  rw [busWrite_coveCfg_single i hi h, schCoveConfigWrite_rejected _ _ (by rwa [coveState_arrived])]
  exact ⟨tst_raiseFor 0 _ _ hevent (by decide), (sameRegs_arrived r s).append (sameRegs_raiseFor 0 _ _ hevent),
    (sameMem_arrived r s).trans (sameRest_raiseFor _ _ _ _ _).sameMem⟩

end Request

/-- A package address is read as the 4 KiB multiple at or below it (log entry 57). -/
theorem wpOf_eq {s : Dev} {c hi lo : Nat} (hhi : rdN s (Reg.SCH_COVE_WP_HI c) = hi) (hlo : rdN s (Reg.SCH_COVE_WP_LO c) = lo) (hb : hi < 2 ^ 8) :
    wpOf s c = (hi * 2 ^ 32 + lo) / 4096 * 4096 := by
  have hlt := rdN_lt s (Reg.SCH_COVE_WP_LO c)
  have hnext : Reg.SCH_COVE_WP_LO c + 4 = Reg.SCH_COVE_WP_HI c := by unfold Reg.SCH_COVE_WP_LO Reg.SCH_COVE_WP_HI; omega
  unfold wpOf baseAddr rd64
  rw [hnext, hhi, hlo, Nat.mod_eq_of_lt (by omega), Nat.add_comm]

/-- Settles O35: a START or STOP joins the held commands; a configuration write is the register bus's, and R191's rule decides it by the cove's state. -/
theorem coveCommandsWaitForTheMark : Obligations.CoveCommandsWaitForTheMark := by
  unfold Obligations.CoveCommandsWaitForTheMark
  intro s c r v hawake
  have hwrite : ∀ (i : Fin 7) {P : Dev → Prop}, P (busWrite r (coveCfgReg c i).1 15 v.toNat s.dev) → Does (.schCoveConfigWrite r c i v) s P :=
    fun i _ hp => Does.of_onDev hawake rfl hp
  refine ⟨Does.of_onDev hawake rfl rfl, Does.of_onDev hawake rfl rfl, fun hr hs => hwrite 0 ?_, fun i hi hr hs => hwrite i ?_,
    fun lo hr hk hs => hwrite 2 ?_, fun lo hr hk hs => hwrite 4 ?_, fun i hi hr hs => hwrite i (coveCfg_rejected_effect i hi hr hs)⟩
  · obtain ⟨hval, hregs, hmem⟩ := coveCfg_single_effect (v := v.toNat) 0 (.inl rfl) hr hs
    have hfield : ∀ lo len, lo + len ≤ 32 →
        rf (busWrite r (coveCfgReg c 0).1 15 v.toNat s.dev) (Reg.SCH_COVE_CFG c) lo len = bits (coveCfgValue c 0 v.toNat) lo len :=
      fun lo len hle => (congrArg (bits · lo len) hval).trans (bits_mod_two_pow _ 32 lo len hle)
    exact ⟨(hfield 4 15 (by decide)).trans (bits_coveCfgValue_slice c _), (hfield 19 7 (by decide)).trans (bits_coveCfgValue_budget c _),
      (hfield 0 4 (by decide)).trans (bits_coveCfgValue_flags c _), hregs, hmem⟩
  · obtain ⟨hval, hregs, hmem⟩ := coveCfg_single_effect (v := v.toNat) i (.inr hi) hr hs
    have hwidth : (coveCfgReg c i).2 = 20 := by fin_cases i <;> simp_all [coveCfgReg]
    exact ⟨hval.trans (coveCfgValue_mod (by omega) hwidth (by decide) _), hregs, hmem⟩
  · obtain ⟨hhi, hlo, hmem⟩ := coveCfg_pair_effect (v := v.toNat) 2 (.inl rfl) hr hk hs
    exact ⟨hhi.trans ((coveCfgValue_mod (by decide) rfl le_rfl _).trans (Nat.mod_eq_of_lt v.isLt)),
      hlo.trans ((coveCfgValue_mod (by decide) rfl le_rfl _).trans (Nat.mod_eq_of_lt lo.isLt)), hmem⟩
  · obtain ⟨hhi, hlo, hmem⟩ := coveCfg_pair_effect (v := v.toNat) 4 (.inr rfl) hr hk hs
    have hhi := hhi.trans (coveCfgValue_mod (w := 8) (by decide) rfl (by decide) _)
    have hlo := hlo.trans ((coveCfgValue_mod (by decide) rfl le_rfl _).trans (Nat.mod_eq_of_lt lo.isLt))
    exact ⟨hhi, hlo, wpOf_eq hhi hlo (Nat.mod_lt _ (by decide)), hmem⟩

end Sys2Proof.Machine
end

section
/-! SUPPORT. The commands of the register bus (R9, R10, R13, R382, R439, R440, R444): what each write and read request leaves. -/
set_option autoImplicit false
namespace Sys2Proof.Machine
open Sys2Proof

/-! ## Registers with their own place in the proofs -/

theorem pciStatus_def : regDef? Reg.PCI_STATUS = some { off := 0x0 } := by decide +kernel
theorem irqPend_def : regDef? Reg.GEN_IRQ_PEND = some { off := 0x100, w1c := 0xFFFFFE } := by decide +kernel
theorem dbgCtrl_def : regDef? Reg.GEN_DBG_CTRL = some { off := 0x30, w1s := 0x1 } := by decide +kernel
/-- A writable register is not PCI_STATUS, the one that an arriving request changes. -/
theorem ne_pciStatus_of_rw {a : Nat} {x : RegDef} (h : regDef? a = some x) (hw : x.rw ≠ 0) : a ≠ Reg.PCI_STATUS := by
  rintro rfl
  rw [pciStatus_def, Option.some.injEq] at h
  exact hw (h ▸ rfl)
theorem ruledWrite_irqPend (v : Nat) : ruledWrite Reg.GEN_IRQ_PEND v = some (irqPendWrite v) := rfl
theorem pairRule_irqPend (v : Nat) (each : Dev → Dev) : pairRule Reg.GEN_IRQ_PEND [v] each = none := rfl
theorem ruledWrite_dbgCtrl (v : Nat) : ruledWrite Reg.GEN_DBG_CTRL v = none := rfl
theorem pairRule_dbgCtrl (v : Nat) (each : Dev → Dev) : pairRule Reg.GEN_DBG_CTRL [v] each = none := rfl

section Request
variable {r : Req} {a : Nat} {s : Dev}

/-! ## Writes -/

/-- A rejected write of part of a dword is reported (R382). -/
theorem busWrite_part_effect {be : Nat} (v : Nat) (h : r ≠ .host ∨ barReached s = true) (hb : be ≠ 15) :
    tst (busWrite r a be v s) Reg.PCI_EVENT 10 = true ∧ SameRegs [Reg.PCI_EVENT, Reg.PCI_STATUS] s (busWrite r a be v s) ∧
      SameRest s (busWrite r a be v s) := by
  have hevent : eventReg 0x120A 0 = some Reg.PCI_EVENT := rfl
  have hreport : pciReport 10 0 (arrived r s) = raiseFor 0x120A 0 (rdN (arrived r s) Reg.PCI_FAULT_INFO) 0xFFFF (arrived r s) := rfl
  rw [busWrite_part a v h hb, hreport]
  exact ⟨tst_raiseFor _ _ _ hevent (by decide), (sameRegs_arrived r s).append (sameRegs_raiseFor _ _ _ hevent),
    (sameRest_arrived r s).trans (sameRest_raiseFor _ _ _ _ _)⟩
/-- A write to an offset that does not respond changes nothing but the link's L1 bit (R10). -/
theorem busWrite_silent (v : Nat) (h : r ≠ .host ∨ barReached s = true) (hn : responds s a = false) : busWrite r a 15 v s = arrived r s := by
  rw [busWrite_whole a v h, writeReg_silent r v (by rwa [responds_arrived])]

/-- A register that is no writable half of a pair, and that no rule of its own covers, takes a write by its access codes. -/
theorem busWrite_plain {x : RegDef} {v : Nat} (hv : v < 2 ^ 32) (h : Reaches s r a) (hx : regDef? a = some x)
    (hn : x.rw = 0 ∨ (x.lo = false ∧ isHigh a = false)) (hc : clampsOf s a x = []) (ht : a ≠ Reg.TIDE_CTRL) (hh : x.held = 0 ∨ isTide a = false)
    (hrule : ruledWrite a v = none) (hpair : pairRule a [v] (storeEach a [v]) = none) :
    rdN (busWrite r a 15 v s) a = accessed x (rdN (arrived r s) a) v ∧ SameRegs [a, Reg.PCI_STATUS] s (busWrite r a 15 v s) ∧
      SameMem s (busWrite r a 15 v s) ∧ (x.held ≠ 0 → .reg a x.held (v &&& x.held) ∈ (busWrite r a 15 v s).held) := by
  obtain ⟨hreach, hresp⟩ := h
  have hown : writable a = false ∨ (isLow a = false ∧ isHigh a = false) := by
    rw [writable_of_def hx, isLow_of_def hx]
    exact hn.imp_left fun h0 => by simp [h0]
  rw [busWrite_whole a v hreach, writeReg_own r v (by rwa [responds_arrived]) hown, storeRegs_of_none hpair, storeEach_one, storeOne_plain _ hrule]
  obtain ⟨hval, hregs, hmem, hheld⟩ := plainWrite_effect (s := arrived r s) hx (clampsOf_eq_nil s _ a x hc) ht hh hv
  exact ⟨hval, (sameRegs_arrived r s).append hregs, (sameMem_arrived r s).trans hmem, hheld⟩

/-- A write of a lower half is kept for its requester (R439). -/
theorem busWrite_low {x : RegDef} (v : Word) (h : Reaches s r a) (hx : regDef? a = some x) (hl : x.lo = true) (hw : x.rw ≠ 0) :
    (latchOf (busWrite r a 15 v.toNat s) r a).wr = some v ∧ SameRegs [Reg.PCI_STATUS] s (busWrite r a 15 v.toNat s) ∧
      SameMem s (busWrite r a 15 v.toNat s) := by
  obtain ⟨hreach, hresp⟩ := h
  rw [busWrite_whole a _ hreach, writeReg_low r _ (by rwa [responds_arrived]) (by rw [isLow_of_def hx, hl])
    (by rw [writable_of_def hx]; exact bne_iff_ne.mpr hw)]
  refine ⟨?_, (sameRegs_arrived r s).trans (sameRegs_putLatch _ _ _), (sameMem_arrived r s).trans (sameMem_putLatch _ _)⟩
  rw [latchOf_putLatch_wr, BitVec.ofNat_toNat, BitVec.setWidth_eq]

/-- A plain pair: both halves are written by their access codes when the upper one is, and the latch is empty again (R439). -/
theorem busWrite_pair {x y : RegDef} {w v : Word} (h : Reaches s r a) (ha : 4 ≤ a) (hx : regDef? a = some x) (hy : regDef? (a - 4) = some y)
    (hylo : y.lo = true) (hxlo : x.lo = false) (hxw : x.rw ≠ 0) (hyw : y.rw ≠ 0) (hxh : x.held = 0) (hyh : y.held = 0)
    (hxc : clampsOf s a x = []) (hyc : clampsOf s (a - 4) y = []) (hxt : a ≠ Reg.TIDE_CTRL) (hyt : a - 4 ≠ Reg.TIDE_CTRL)
    (hk : (latchOf s r (a - 4)).wr = some w) (hxr : ruledWrite a v.toNat = none) (hyr : ruledWrite (a - 4) w.toNat = none)
    (hpair : pairRule (a - 4) [w.toNat, v.toNat] (storeEach (a - 4) [w.toNat, v.toNat]) = none) :
    rdN (busWrite r a 15 v.toNat s) (a - 4) = accessed y (rdN s (a - 4)) w.toNat ∧ rdN (busWrite r a 15 v.toNat s) a = accessed x (rdN s a) v.toNat ∧
      (latchOf (busWrite r a 15 v.toNat s) r (a - 4)).wr = none ∧ SameRegs [a - 4, a, Reg.PCI_STATUS] s (busWrite r a 15 v.toNat s) ∧
      SameMem s (busWrite r a 15 v.toNat s) := by
  obtain ⟨hreach, hresp⟩ := h
  have hhigh : isHigh a = true := by simp [isHigh, ha, isLow_of_def hy, hylo]
  have hkept : (latchOf (arrived r s) r (a - 4)).wr = some w := by rw [latchOf_congr (s := s) r _ (arrived_bus r s), hk]
  rw [busWrite_whole a _ hreach, writeReg_high _ (by rwa [responds_arrived]) (by rw [isLow_of_def hx, hxlo]) hhigh
    (by rw [writable_of_def hx]; exact bne_iff_ne.mpr hxw) hkept, storeRegs_of_none hpair, storeEach_two, Nat.sub_add_cancel ha, storeOne_plain _ hxr,
    storeOne_plain _ hyr]
  generalize hp : putLatch { latchOf (arrived r s) r (a - 4) with wr := none } (arrived r s) = p
  have hpregs : SameRegs [Reg.PCI_STATUS] s p := hp ▸ (sameRegs_arrived r s).trans (sameRegs_putLatch _ _ _)
  have hpmem : SameMem s p := hp ▸ (sameMem_arrived r s).trans (sameMem_putLatch _ _)
  have hplatch : (latchOf p r (a - 4)).wr = none := by rw [← hp, latchOf_putLatch_wr]
  have hpa : rdN p a = rdN s a := hpregs a (by simpa using ne_pciStatus_of_rw hx hxw)
  have hpb : rdN p (a - 4) = rdN s (a - 4) := hpregs _ (by simpa using ne_pciStatus_of_rw hy hyw)
  rw [plainWrite_unheld hy (clampsOf_eq_nil s _ _ y hyc) hyt hyh, plainWrite_unheld hx (clampsOf_eq_nil s _ _ x hxc) hxt hxh]
  have hlow : SameRegs [a - 4] p (writeNow y (a - 4) w.toNat p) := sameRegs_writeNow y (a - 4) w.toNat p
  have hupp : SameRegs [a] (writeNow y (a - 4) w.toNat p) (writeNow x a v.toNat (writeNow y (a - 4) w.toNat p)) := sameRegs_writeNow x a v.toNat _
  refine ⟨?_, ?_, ?_, ((hpregs.append hlow).append hupp).mono (by simp), hpmem⟩
  · rw [hupp _ (by simp; omega), rdN_writeNow w.isLt, hpb]
  · rw [rdN_writeNow v.isLt, hlow a (by simp; omega), hpa]
  · have hbus : (writeNow x a v.toNat (writeNow y (a - 4) w.toNat p)).bus = p.bus := rfl
    rw [latchOf_congr r _ hbus, hplatch]

/-! ## Reads -/

/-- What a register that is no upper half with a kept value shows is what its read answers, and the read of a lower half keeps the upper one (R439). -/
theorem busRead_low (h : Reaches s r a) (hl : isLow a = true) :
    (busRead r a s).out = s.out ++ [.regRead r a (BitVec.ofNat 32 (shown (arrived r s) a))] ∧
      (latchOf (busRead r a s) r a).rd = some (BitVec.ofNat 32 (shown (arrived r s) (a + 4))) ∧ SameRegs [Reg.PCI_STATUS] s (busRead r a s) ∧
      SameMem s (busRead r a s) := by
  obtain ⟨hreach, hresp⟩ := h
  rw [busRead_answer hreach (regLost_of_responds hresp), readReg_low r (by rwa [responds_arrived]) hl]
  refine ⟨?_, ?_, ((sameRegs_arrived r s).trans (sameRegs_putLatch _ _ _)).trans (sameRegs_send _ _ _),
    ((sameMem_arrived r s).trans (sameMem_putLatch _ _)).trans (sameRest_send _ _).sameMem⟩
  · rw [send_out _ _ rfl]
    exact congrArg (· ++ _) (arrived_out r s)
  · rw [latchOf_congr r a (sameRest_send _ _).bus, latchOf_putLatch_rd]

/-- A request whose read changes no latch leaves its answer alone. -/
theorem send_answer (m : OutMsg) (hm : isPin m = false) :
    (send m (arrived r s)).out = s.out ++ [m] ∧ (send m (arrived r s)).bus = s.bus ∧ SameRegs [Reg.PCI_STATUS] s (send m (arrived r s)) :=
  ⟨by rw [send_out _ _ hm, arrived_out], by rw [(sameRest_send _ _).bus, arrived_bus], (sameRegs_arrived r s).trans (sameRegs_send _ _ _)⟩
/-- A read of an upper half answers what was kept (R439). -/
theorem busRead_high_kept {w : Word} (h : Reaches s r a) (hl : isLow a = false) (hh : isHigh a = true) (hk : (latchOf s r (a - 4)).rd = some w) :
    busRead r a s = send (.regRead r a w) (arrived r s) := by
  obtain ⟨hreach, hresp⟩ := h
  rw [busRead_answer hreach (regLost_of_responds hresp), readReg_high_kept (w := w) (by rwa [responds_arrived]) hl hh
    (by rwa [latchOf_congr (s := s) r _ (arrived_bus r s)]), BitVec.ofNat_toNat, BitVec.setWidth_eq]
/-- Any other register that responds answers what it shows. -/
theorem busRead_live (h : Reaches s r a) (hl : isLow a = false) (hk : isHigh a = true → (latchOf s r (a - 4)).rd = none) :
    busRead r a s = send (.regRead r a (BitVec.ofNat 32 (shown (arrived r s) a))) (arrived r s) := by
  obtain ⟨hreach, hresp⟩ := h
  rw [busRead_answer hreach (regLost_of_responds hresp), readReg_live (by rwa [responds_arrived]) hl
    (by rwa [latchOf_congr (s := s) r _ (arrived_bus r s)])]
/-- An offset that does not respond reads 0 (R10). -/
theorem busRead_silent (h : r ≠ .host ∨ barReached s = true) (hn : responds s a = false) (hlost : regLost s a = false) :
    busRead r a s = send (.regRead r a 0) (arrived r s) := by
  rw [busRead_answer h hlost, readReg_silent r (by rwa [responds_arrived])]
  rfl

/-! ## GEN_IRQ_PEND and GEN_DBG_CTRL -/

/-- The sources whose pending bit reads 1 in `pend` and that `en` enables. -/
def irqRemaining (pend en : Nat) : List Nat := (List.range 24).filter fun i => bitOf pend i && bitOf en i
/-- Clearing pending bits requests a message again for each enabled one that remains (R444). -/
theorem irqPendWrite_effect (v : Nat) (s : Dev) :
    rdN (irqPendWrite v s) Reg.GEN_IRQ_PEND = rdN s Reg.GEN_IRQ_PEND - (rdN s Reg.GEN_IRQ_PEND &&& v) ∧
      rdN (irqPendWrite v s) Reg.GEN_IRQ_SENT_CNT =
        (rdN s Reg.GEN_IRQ_SENT_CNT + (irqRemaining (rdN (irqPendWrite v s) Reg.GEN_IRQ_PEND) (rdN s Reg.GEN_IRQ_EN)).length) % 2 ^ 32 ∧
      SameRegs [Reg.PCI_STATUS, Reg.GEN_IRQ_SENT_CNT, Reg.GEN_IRQ_PEND] s (irqPendWrite v s) ∧ SameMem s (irqPendWrite v s) := by
  generalize hc : wrN Reg.GEN_IRQ_PEND (rdN s Reg.GEN_IRQ_PEND - (rdN s Reg.GEN_IRQ_PEND &&& v)) s = c
  have heq : irqPendWrite v s = forS (irqRemaining (rdN c Reg.GEN_IRQ_PEND) (rdN c Reg.GEN_IRQ_EN)) irqRequest c := hc ▸ rfl
  have hcregs : SameRegs [Reg.GEN_IRQ_PEND] s c := hc ▸ sameRegs_wrN _ _ s
  have hcmem : SameMem s c := hc ▸ sameMem_wrN _ _ s
  have hregs : SameRegs [Reg.PCI_STATUS, Reg.GEN_IRQ_SENT_CNT] c (irqPendWrite v s) := heq ▸ sameRegs_forS _ _ _ sameRegs_irqRequest c
  have hpend : rdN (irqPendWrite v s) Reg.GEN_IRQ_PEND = rdN c Reg.GEN_IRQ_PEND := hregs _ (by decide)
  refine ⟨?_, ?_, hcregs.append hregs, heq ▸ hcmem.trans (sameRest_forS _ _ sameRest_irqRequest c).sameMem⟩
  · rw [hpend, ← hc, rdN_wrN_same, Nat.mod_eq_of_lt (Nat.lt_of_le_of_lt (Nat.sub_le _ _) (rdN_lt s _))]
  · rw [hpend, heq, rdN_forS_irqRequest_count, hcregs Reg.GEN_IRQ_SENT_CNT (by decide), hcregs Reg.GEN_IRQ_EN (by decide)]

/-- A write request to GEN_IRQ_PEND, in the terms of the device before it. -/
theorem busWrite_irqPend (v : Nat) (h : Reaches s r Reg.GEN_IRQ_PEND) :
    rdN (busWrite r Reg.GEN_IRQ_PEND 15 v s) Reg.GEN_IRQ_PEND = rdN s Reg.GEN_IRQ_PEND - (rdN s Reg.GEN_IRQ_PEND &&& v) ∧
      rdN (busWrite r Reg.GEN_IRQ_PEND 15 v s) Reg.GEN_IRQ_SENT_CNT = (rdN s Reg.GEN_IRQ_SENT_CNT +
        (irqRemaining (rdN (busWrite r Reg.GEN_IRQ_PEND 15 v s) Reg.GEN_IRQ_PEND) (rdN s Reg.GEN_IRQ_EN)).length) % 2 ^ 32 ∧
      SameRegs [Reg.GEN_IRQ_PEND, Reg.GEN_IRQ_SENT_CNT, Reg.PCI_STATUS] s (busWrite r Reg.GEN_IRQ_PEND 15 v s) ∧
      SameMem s (busWrite r Reg.GEN_IRQ_PEND 15 v s) := by
  obtain ⟨hreach, hresp⟩ := h
  rw [busWrite_whole _ v hreach, writeReg_own r v (by rwa [responds_arrived]) (.inl (writable_of_def irqPend_def)), storeRegs_of_none (pairRule_irqPend v _),
    storeEach_one, storeOne_ruled _ (ruledWrite_irqPend v)]
  obtain ⟨hpend, hcnt, hregs, hmem⟩ := irqPendWrite_effect v (arrived r s)
  rw [rdN_arrived r s (by decide)] at hpend
  rw [rdN_arrived r s (a := Reg.GEN_IRQ_SENT_CNT) (by decide), rdN_arrived r s (a := Reg.GEN_IRQ_EN) (by decide)] at hcnt
  exact ⟨hpend, hcnt, ((sameRegs_arrived r s).append hregs).mono (by simp), (sameMem_arrived r s).trans hmem⟩
/-- Any requester's LOCK_OUT takes (R447): the bit is W1S. -/
theorem busWrite_lockOut (h : Reaches s r Reg.GEN_DBG_CTRL) :
    tst (busWrite r Reg.GEN_DBG_CTRL 15 1 s) Reg.GEN_DBG_CTRL 0 = true ∧
      SameRegs [Reg.GEN_DBG_CTRL, Reg.PCI_STATUS] s (busWrite r Reg.GEN_DBG_CTRL 15 1 s) ∧ SameMem s (busWrite r Reg.GEN_DBG_CTRL 15 1 s) := by
  obtain ⟨hval, hregs, hmem, -⟩ := busWrite_plain (by decide) h dbgCtrl_def (.inl rfl) rfl (by decide) (.inl rfl) (ruledWrite_dbgCtrl 1)
    (pairRule_dbgCtrl 1 _)
  refine ⟨?_, hregs, hmem⟩
  rw [tst, hval, bitOf_eq]
  simp [accessed, clearedAndSet]

end Request

/-- Settles O57: each command is a write or read request, and the case of the register bus that its hypotheses pick says what it leaves. -/
theorem registersObeyTheirAccessCodes : Obligations.RegistersObeyTheirAccessCodes := by
  unfold Obligations.RegistersObeyTheirAccessCodes
  intro s r a v u x hawake
  refine ⟨fun be hr hb => ?_, fun be hr hl => ?_, fun hr hn => ?_, fun hu h hx hn hc ht hh hrule hpair => ?_, fun h hx hl hw => ?_,
    fun w y h hx hy hylo ha hxlo hxw hyw hxh hyh hxc hyc hxs hys hxcl hycl hxt hyt hk hxr hyr hpair => ?_, fun hu h hl => ?_, fun w h hl hh hk => ?_,
    fun hu h hl hk => ?_, fun hr hn hlost => ?_, fun hr hlost => ?_, fun h => ?_, fun h => ?_⟩
  · exact Does.of_onDev hawake rfl (busWrite_part_effect v.toNat hr fun h => hb (Fin.ext h))
  · subst hr
    exact Does.of_onDev hawake rfl (viaBus_host_of_linkDown _ hl)
  · refine Does.of_onDev (f := busWrite r a 15 v.toNat) hawake rfl ?_
    rw [busWrite_silent v.toNat hr hn]
    exact ⟨sameRegs_arrived r s.dev, sameRest_arrived r s.dev, arrived_held r s.dev⟩
  · subst hu
    exact Does.of_onDev hawake rfl (busWrite_plain v.isLt h hx hn hc ht hh hrule hpair)
  · exact Does.of_onDev hawake rfl (busWrite_low v h hx hl hw)
  · rw [← accessed_rw y _ _ hyc hys hyh, ← accessed_rw x _ _ hxc hxs hxh]
    exact Does.of_onDev hawake rfl (busWrite_pair h ha hx hy hylo hxlo hxw hyw hxh hyh hxcl hycl hxt hyt hk hxr hyr hpair)
  · subst hu
    exact Does.of_onDev hawake rfl (busRead_low h hl)
  · refine Does.of_onDev (f := busRead r a) hawake rfl ?_
    rw [busRead_high_kept h hl hh hk]
    exact send_answer _ rfl
  · subst hu
    refine Does.of_onDev (f := busRead r a) hawake rfl ?_
    rw [busRead_live h hl hk]
    exact send_answer _ rfl
  · refine Does.of_onDev (f := busRead r a) hawake rfl ?_
    rw [busRead_silent hr hn hlost]
    obtain ⟨hout, -, hregs⟩ := send_answer (r := r) (s := s.dev) (.regRead r a 0) rfl
    exact ⟨hout, hregs⟩
  · refine Does.of_onDev (f := busRead r a) hawake rfl ?_
    rw [busRead_lost hr hlost]
    obtain ⟨hout, -, hregs⟩ := send_answer (r := r) (s := s.dev) (.regError r a) rfl
    exact ⟨hout, hregs⟩
  · exact Does.of_onDev hawake rfl (busWrite_irqPend v.toNat h)
  · exact Does.of_onDev hawake rfl (busWrite_lockOut h)

end Sys2Proof.Machine
end

section
/-! SUPPORT. The obligations on the whole block: a step, bit fields, and reset. -/
set_option autoImplicit false
namespace Sys2Proof.Machine
open Sys2Proof

/-- Settles O1: `step` hands the front of the queue to `exec`. -/
theorem stepRunsFrontCommand : Obligations.StepRunsFrontCommand := by
  unfold Obligations.StepRunsFrontCommand
  intro c rest s
  rfl

/-- Settles O7: bit by bit, from what `bits` and `putBits` do to a number. -/
theorem fieldsAreBitRanges : Obligations.FieldsAreBitRanges := by
  unfold Obligations.FieldsAreBitRanges
  have hput : ∀ n lo len v i : Nat, (putBits n lo len v).testBit i = if lo ≤ i ∧ i < lo + len then v.testBit (i - lo) else n.testBit i := by
    intro n lo len v i
    rw [testBit_putBits]
    by_cases hlo : i < lo
    · rw [if_pos hlo, if_neg fun h => absurd h.1 (Nat.not_le.mpr hlo)]
    · simp only [hlo, Nat.not_lt.mp hlo, if_false, true_and]
  refine ⟨fun n lo len v i => ⟨testBit_bits n lo len i, hput n lo len v i⟩,
    fun s a lo len v i h => ⟨testBit_bits _ lo len i, ?_, sameRegs_wf a lo len v s⟩⟩
  rw [rdN_wf_same a lo len v s h]
  exact hput _ lo len v i

/-- Settles O5: reset leaves no post waiting. -/
theorem waitingPostsBlockedAtReset : Obligations.WaitingPostsBlockedAtReset := by
  unfold Obligations.WaitingPostsBlockedAtReset PostsBlocked
  intro p hp
  have hnone : State.reset.dev.pci.waiting = [] := rfl
  rw [hnone] at hp
  exact absurd hp List.not_mem_nil

/-! ## Reset values (R12) -/

/-- After reset every register reads its reset value. -/
theorem rdN_reset (a : Nat) : rdN State.reset.dev a = (regReset a).toNat := rfl
/-- The window engine of a V-core is held in reset (Table 5-5). -/
theorem regReset_win : ∀ k : Fin 64, isSCore k.val = false → bitOf (regReset (Reg.WIN_CTRL k.val)).toNat 0 = true ∧
    bitOf (regReset (Reg.WIN_STATUS k.val)).toNat 0 = true := by decide +kernel
/-- Both tokens of an array are at row 32 (Table 4-5). -/
theorem regReset_arrTokens : ∀ k : Fin 64, bits (regReset (Reg.ARR_STATUS k.val)).toNat 12 6 = 32 ∧ bits (regReset (Reg.ARR_STATUS k.val)).toNat 18 6 = 32 := by
  decide +kernel
theorem regReset_tideStatus : regReset Reg.TIDE_STATUS = 0xC := by decide +kernel
theorem regReset_errStatus : bitOf (regReset Reg.ERR_STATUS).toNat 1 = true := by decide +kernel

/-- Settles O6: the register file after reset is empty, so that every register reads `regReset`; the fields stated are those of Tables 2-9, 15-11, 5-5 and
4-5. -/
theorem resetLeavesStatedValues : Obligations.ResetLeavesStatedValues := by
  unfold Obligations.ResetLeavesStatedValues
  have htime : timeState State.reset.dev = 0 ∧ syncState State.reset.dev = 3 := by
    unfold timeState syncState rf
    rw [rdN_reset, regReset_tideStatus]
    decide
  obtain ⟨hunset, hsync⟩ := htime
  exact ⟨rdN_reset, rfl, rfl, rfl, rfl, hunset, hsync, regReset_errStatus, regReset_win, regReset_arrTokens⟩

end Sys2Proof.Machine
end

section
/-! SUPPORT. Operations that the commands of the time unit share: registers outside a frame, waiting for a moment, and the fields of TIDE_STATUS. -/
set_option autoImplicit false
namespace Sys2Proof.Machine
open Sys2Proof

/-! ## Registers outside a frame -/

theorem rf_of_same {l : List Nat} {a b : Dev} {x : Nat} (h : SameRegs l a b) (hx : x ∉ l) (lo len : Nat) : rf b x lo len = rf a x lo len := by
  unfold rf
  rw [h x hx]
theorem tst_of_same {l : List Nat} {a b : Dev} {x : Nat} (h : SameRegs l a b) (hx : x ∉ l) (i : Nat) : tst b x i = tst a x i := by
  unfold tst
  rw [h x hx]
theorem rd64_of_same {l : List Nat} {a b : Dev} {x : Nat} (h : SameRegs l a b) (hx : x ∉ l) (hy : x + 4 ∉ l) : rd64 b x = rd64 a x := by
  unfold rd64
  rw [h x hx, h (x + 4) hy]
theorem sameRegs_wr64 (a n : Nat) (s : Dev) : SameRegs [a + 4, a] s (wr64 a n s) := (sameRegs_wrN a n s).append (sameRegs_wrN (a + 4) (n / 2 ^ 32) _)
/-- A 64-bit quantity that has been set (R8). -/
theorem rd64_wr64_same (a : Nat) {n : Nat} (s : Dev) (h : n < 2 ^ 64) : rd64 (wr64 a n s) a = n := by
  have hlow : rdN (wr64 a n s) a = n % 2 ^ 32 := (rdN_wrN_other _ _ (by omega)).trans (rdN_wrN_same a n s)
  have hhigh : rdN (wr64 a n s) (a + 4) = n / 2 ^ 32 % 2 ^ 32 := rdN_wrN_same (a + 4) _ _
  rw [rd64, hlow, hhigh]
  omega
/-- An event of the time unit changes TIDE_STATUS alone. -/
theorem sameRegs_raise_tide {code : Nat} (unit info : Nat) (s : Dev) (h : code / 256 = 1) : SameRegs [Reg.TIDE_STATUS] s (raise code unit info s) :=
  sameRegs_raiseFor info 0xFFFF s (by simp [eventReg, h])

/-! ## Waiting for a moment (log entry 2) -/

theorem waitUntil_ns {t : Nat} (s : Dev) (h : t < 2 ^ 64) : (waitUntil t s).time.ns = max s.time.ns t := by
  unfold waitUntil
  split
  · next hlt => exact (Nat.mod_eq_of_lt h).trans (Nat.max_eq_right hlt.le).symm
  · next hge => exact (Nat.max_eq_left (Nat.not_lt.mp hge)).symm
theorem le_waitUntil {t : Nat} (s : Dev) (h : t < 2 ^ 64) : t ≤ (waitUntil t s).time.ns := by
  rw [waitUntil_ns s h]
  exact Nat.le_max_right _ _
@[simp] theorem waitUntil_f (t : Nat) (s : Dev) : (waitUntil t s).time.f = s.time.f := by unfold waitUntil; split <;> rfl
theorem sameRegs_waitUntil (l : List Nat) (t : Nat) (s : Dev) : SameRegs l s (waitUntil t s) := sameRegs_of_regs l (waitUntil_regs t s)
theorem sameMem_waitUntil (t : Nat) (s : Dev) : SameMem s (waitUntil t s) := ⟨waitUntil_dram t s, waitUntil_cm t s, waitUntil_scr t s, waitUntil_flash t s⟩

/-! ## TIDE_STATUS (Table 2-9) -/

theorem timeState_setTimeState {v : Nat} (s : Dev) (h : v < 4) : timeState (setTimeState v s) = v :=
  (rf_wf_same Reg.TIDE_STATUS 0 2 v s (by decide)).trans (Nat.mod_eq_of_lt h)
theorem syncState_setSyncState {v : Nat} (s : Dev) (h : v < 4) : syncState (setSyncState v s) = v :=
  (rf_wf_same Reg.TIDE_STATUS 2 2 v _ (by decide)).trans (Nat.mod_eq_of_lt h)
theorem timeState_setSyncState (v : Nat) (s : Dev) : timeState (setSyncState v s) = timeState s :=
  rf_wf_disj Reg.TIDE_STATUS 2 2 v 0 2 _ (by decide) (by decide)
/-- The sync state is bits 3 and 2; an event bit lies above. -/
theorem tst_status_setSyncState (v : Nat) {i : Nat} (s : Dev) (h : 4 ≤ i) : tst (setSyncState v s) Reg.TIDE_STATUS i = tst s Reg.TIDE_STATUS i := by
  have hput : rdN (setSyncState v s) Reg.TIDE_STATUS = putBits (rdN s Reg.TIDE_STATUS) 2 2 v := rdN_wf_same Reg.TIDE_STATUS 2 2 v _ (by decide)
  rw [tst, hput, bitOf_eq, testBit_putBits, if_neg (by omega), if_neg (by omega), tst, bitOf_eq]
theorem sameRegs_setSyncState (v : Nat) (s : Dev) : SameRegs [Reg.TIDE_STATUS] s (setSyncState v s) := sameRegs_wf Reg.TIDE_STATUS 2 2 v _
theorem sameRegs_setTimeState (v : Nat) (s : Dev) : SameRegs [Reg.TIDE_STATUS] s (setTimeState v s) := sameRegs_wf Reg.TIDE_STATUS 0 2 v s
/-- An event of the time unit leaves the fields below its bit. -/
theorem rf_status_raise {code : Nat} (unit info : Nat) {lo len : Nat} (s : Dev) (hc : code / 256 = 1) (hb : code % 256 < 32) (h : lo + len ≤ code % 256) :
    rf (raise code unit info s) Reg.TIDE_STATUS lo len = rf s Reg.TIDE_STATUS lo len := by
  have hreg : eventReg code unit = some Reg.TIDE_STATUS := by simp [eventReg, hc]
  simp only [raise, raiseFor, hreg]
  exact rf_setB_disj Reg.TIDE_STATUS _ lo len true s hb (.inl h)
theorem timeState_raise {code : Nat} (unit info : Nat) (s : Dev) (hc : code / 256 = 1) (hb : code % 256 < 32) (h : 2 ≤ code % 256) :
    timeState (raise code unit info s) = timeState s := rf_status_raise unit info s hc hb h
/-- The event shows (R358). -/
theorem tst_status_raise {code : Nat} (unit info : Nat) (s : Dev) (hc : code / 256 = 1) (hb : code % 256 < 32) :
    tst (raise code unit info s) Reg.TIDE_STATUS (code % 256) = true := tst_raiseFor info 0xFFFF s (by simp [eventReg, hc]) hb
/-- The time state is that of the register. -/
theorem timeState_of_same {l : List Nat} {a b : Dev} (h : SameRegs l a b) (hx : Reg.TIDE_STATUS ∉ l) : timeState b = timeState a := rf_of_same h hx 0 2

end Sys2Proof.Machine
end

section
/-! SUPPORT. The best master clock algorithm and the time states it feeds (R34, R37, Table 2-1). -/
set_option autoImplicit false
namespace Sys2Proof.Machine
open Sys2Proof

/-! ## The BMCA (R37) -/

/-- The registers that show the selected master and the count of Syncs. -/
def masterRegs : List Nat := [Reg.TIDE_PTP_STATUS, Reg.TIDE_UTC_OFS, Reg.TIDE_GM_ID_LO + 4, Reg.TIDE_GM_ID_LO]
theorem sameRegs_setSyncCount (n : Nat) (w : Bool) (s : Dev) : SameRegs [Reg.TIDE_PTP_STATUS] s (setSyncCount n w s) :=
  (sameRegs_wf Reg.TIDE_PTP_STATUS 4 5 n s).trans (sameRegs_setB _ 3 w _)
theorem sameRegs_showMaster (m : Master) (s : Dev) : SameRegs masterRegs s (showMaster m s) :=
  ((((sameRegs_wr64 _ m.set.gm s).append (sameRegs_wrN Reg.TIDE_UTC_OFS _ _)).append (sameRegs_wf Reg.TIDE_PTP_STATUS 0 2 m.port _)).append
    (sameRegs_setB Reg.TIDE_PTP_STATUS 2 true _)).mono (by decide)
theorem sameRegs_newMaster (m : Option Master) (s : Dev) : SameRegs masterRegs s (newMaster m s) :=
  ((sameRegs_of_regs [Reg.TIDE_PTP_STATUS] rfl).trans (sameRegs_setSyncCount 0 false _)).mono (by decide)

/-- The masters that the BMCA still hears. -/
def heardMasters (s : Dev) : List Master := s.ptp.masters.filter (Master.heard s)
/-- What the BMCA does: the masters no longer heard leave the table and the least dataset of the rest is selected; only the registers that show
the master change, and device time does not. -/
theorem bmca_effect (s : Dev) :
    (bmca s).ptp.masters = heardMasters s ∧ (bmca s).ptp.sel = leastBy (fun a b => lexLt a.key b.key) (heardMasters s) ∧
      (bmca s).ptp.holdFrom = s.ptp.holdFrom ∧ (bmca s).time = s.time ∧ SameRegs masterRegs s (bmca s) := by
  unfold bmca heardMasters
  dsimp only
  split
  · next hnone => exact ⟨rfl, hnone.symm, rfl, rfl, (sameRegs_newMaster none _).trans ((sameRegs_setB _ 2 false _).mono (by decide))⟩
  · next m hm =>
    split
    · exact ⟨rfl, hm.symm, rfl, rfl, sameRegs_showMaster m _⟩
    · exact ⟨rfl, hm.symm, rfl, rfl, (sameRegs_newMaster (some m) _).trans (sameRegs_showMaster m _)⟩

/-! ## LOCKED to HOLDOVER -/

/-- PTP is lost while LOCKED (Tables 2-1 and 2-6). -/
theorem ptpLost_of_locked {s : Dev} (h : timeState s = 1) :
    timeState (ptpLost s) = 2 ∧ tst (ptpLost s) Reg.TIDE_STATUS 12 = true ∧ (ptpLost s).ptp = { s.ptp with holdFrom := now s } ∧
      (ptpLost s).time = s.time := by
  simp only [ptpLost, h, if_true]
  refine ⟨?_, tst_status_raise 0 0 _ (by decide) (by decide), by simp [setTimeState], by simp [setTimeState]⟩
  rw [timeState_raise 0 0 _ (by decide) (by decide) (by decide), timeState_setTimeState _ (by decide)]

/-- ANNOUNCE_RECEIPT_TIMEOUT (R34) in LOCKED. -/
theorem announceTimeout_of_locked {s : Dev} {m : Master} (hsel : s.ptp.sel = some m) (hlocked : timeState s = 1) (hmoment : m.at_ + m.span < 2 ^ 64) :
    timeState (announceTimeoutS s) = 2 ∧ tst (announceTimeoutS s) Reg.TIDE_STATUS 12 = true ∧ m.at_ + m.span ≤ (announceTimeoutS s).time.ns ∧
      (announceTimeoutS s).ptp.holdFrom = (announceTimeoutS s).time.ns ∧ ∀ x ∈ (announceTimeoutS s).ptp.masters, x.same m = false := by
  simp only [announceTimeoutS, hsel]
  generalize hw : waitUntil (m.at_ + m.span) s = w
  have hwait : m.at_ + m.span ≤ w.time.ns := hw ▸ le_waitUntil s hmoment
  have hstate : timeState w = 1 := by rw [← hw, timeState_of_same (sameRegs_waitUntil [] _ s) (by simp), hlocked]
  obtain ⟨hhold, hevent, hptp, htime⟩ := ptpLost_of_locked
    (s := { w with ptp := { w.ptp with masters := w.ptp.masters.filter fun x => !(x.same m) } }) hstate
  generalize ptpLost { w with ptp := { w.ptp with masters := w.ptp.masters.filter fun x => !(x.same m) } } = q at *
  obtain ⟨hmasters, -, hfrom, hns, hregs⟩ := bmca_effect q
  refine ⟨?_, ?_, ?_, ?_, fun x hx => ?_⟩
  · rw [timeState_of_same hregs (by decide), hhold]
  · rw [tst_of_same hregs (by decide), hevent]
  · rw [hns, htime]
    exact hwait
  · rw [hfrom, hns, hptp, htime]
    rfl
  · rw [hmasters, heardMasters, hptp] at hx
    simpa using (List.mem_filter.mp (List.mem_filter.mp hx).1).2

/-! ## FREE -/

theorem sameRegs_enterFree (s : Dev) : SameRegs [Reg.TIDE_STATUS, Reg.TIDE_PTP_FREQ] s (enterFree s) :=
  (((sameRegs_setTimeState 3 s).append (sameRegs_wrN Reg.TIDE_PTP_FREQ _ _)).append (sameRegs_raise_tide (code := 0x010F) 0 0 _ (by decide))).mono (by decide)
/-- Entering FREE (Tables 2-1 and 2-6). -/
theorem enterFree_effect (s : Dev) :
    timeState (enterFree s) = 3 ∧ (enterFree s).time.f = 0 ∧ (enterFree s).time.ns = s.time.ns ∧ rdN (enterFree s) Reg.TIDE_PTP_FREQ = 0 ∧
      tst (enterFree s) Reg.TIDE_STATUS 15 = true ∧ (enterFree s).ptp = s.ptp := by
  refine ⟨?_, ?_, ?_, ?_, tst_status_raise 0 0 _ (by decide) (by decide), ?_⟩
  · have hfreq : SameRegs [Reg.TIDE_PTP_FREQ] (setTimeState 3 s) (setFreq 0 (setTimeState 3 s)) := sameRegs_wrN Reg.TIDE_PTP_FREQ _ _
    rw [enterFree, timeState_raise 0 0 _ (by decide) (by decide) (by decide), timeState_of_same hfreq (by decide), timeState_setTimeState _ (by decide)]
  · rw [enterFree, raise_time]
    rfl
  · rw [enterFree, raise_time]
    rfl
  · rw [enterFree, sameRegs_raise_tide 0 0 _ (by decide) Reg.TIDE_PTP_FREQ (by decide), setFreq, rdN_wrN_same]
    rfl
  · rw [enterFree, raise_ptp]
    rfl

/-! ## The first mark (R36, R41) -/

/-- No nominal mark that is looked for from `x` on lies before it (R41). -/
theorem le_nominalGe {n : Nat} (x : Nat) (hn : n ≠ 0) : x ≤ nominalGe n x := by
  have hx := Nat.div_add_mod x 1000000000
  unfold nominalGe
  dsimp only
  split
  · have := Nat.mod_lt x (by decide : 1000000000 > 0)
    omega
  · have hceil : x % 1000000000 * n ≤ ceilDiv (x % 1000000000 * n) 1000000000 * 1000000000 := by
      unfold ceilDiv
      omega
    have := (Nat.le_div_iff_mul_le (Nat.pos_of_ne_zero hn)).mpr hceil
    omega
/-- The TIME stage ends once, with the first mark after now (R36). -/
theorem timeReady_of_acquiring {s : Dev} {t : Nat} (h : s.ptp.acqFrom = some t) :
    (timeReady s).regs = s.regs ∧ (timeReady s).time = s.time ∧ (timeReady s).ptp.acqFrom = none ∧
      (timeReady s).tide.next = some (nominalGe (tideN s) (now s + 1)) := by
  simp [timeReady, h]
theorem sameRegs_timeReady (l : List Nat) (s : Dev) : SameRegs l s (timeReady s) := by
  unfold timeReady
  split <;> exact sameRegs_of_regs l rfl

/-- ACQ_LIMIT_EXPIRY (R36), once its moment has come: state FREE, and a first mark after it. -/
theorem timeReady_enterFree {s : Dev} {t : Nat} (hacq : s.ptp.acqFrom = some t) (hrate : tideN s ≠ 0) :
    timeState (timeReady (enterFree s)) = 3 ∧ (timeReady (enterFree s)).time.f = 0 ∧ (timeReady (enterFree s)).time.ns = s.time.ns ∧
      (timeReady (enterFree s)).ptp.acqFrom = none ∧
      ∃ m, (timeReady (enterFree s)).tide.next = some m ∧ (timeReady (enterFree s)).time.ns < m := by
  obtain ⟨hfree, hfreq, hns, -, -, hptp⟩ := enterFree_effect s
  have hN : tideN (enterFree s) ≠ 0 := by
    rw [tideN, rf_of_same (sameRegs_enterFree s) (by decide)]
    exact hrate
  obtain ⟨-, htime, hdone, hnext⟩ := timeReady_of_acquiring (s := enterFree s) (by rw [hptp, hacq])
  refine ⟨?_, by rw [htime, hfreq], by rw [htime, hns], hdone, _, hnext, ?_⟩
  · rw [timeState_of_same (sameRegs_timeReady [] _) (by simp), hfree]
  · rw [htime]
    exact Nat.lt_of_succ_le (le_nominalGe (now (enterFree s) + 1) hN)

/-- Settles O9: each limit waits for its moment, and then Table 2-1 applies. -/
theorem timeStateLimitsExpire : Obligations.TimeStateLimitsExpire := by
  unfold Obligations.TimeStateLimitsExpire
  intro s hawake
  refine ⟨fun m hsel hlocked hmoment => ?_, fun hhold hmoment => ?_, fun t hunset hacq hrate hmoment => ?_⟩
  · exact Does.of_onDev hawake rfl (announceTimeout_of_locked hsel hlocked hmoment)
  · refine Does.of_onDev hawake rfl ?_
    simp only [hhold, if_true]
    obtain ⟨hfree, hf, hns, hfreq, hevent, -⟩ := enterFree_effect
      (waitUntil (s.dev.ptp.holdFrom + rf s.dev Reg.TIDE_HOLDOVER_LIM 0 17 * 1000000000) s.dev)
    exact ⟨hfree, hf, hfreq, hevent, by rw [hns]; exact le_waitUntil s.dev hmoment⟩
  · refine Does.of_onDev hawake rfl ?_
    simp only [hacq, hunset, if_true]
    generalize hw : waitUntil (t + rf s.dev Reg.TIDE_ACQ_LIM 0 16 * 1000000) s.dev = w
    have hpast : t + rf s.dev Reg.TIDE_ACQ_LIM 0 16 * 1000000 ≤ w.time.ns := hw ▸ le_waitUntil s.dev hmoment
    have hwrate : tideN w ≠ 0 := by
      rw [← hw, tideN, rf_of_same (sameRegs_waitUntil [] _ s.dev) (by simp)]
      exact hrate
    obtain ⟨hfree, hf, hns, hdone, hnext⟩ := timeReady_enterFree (s := w) (by rw [← hw, waitUntil_ptp, hacq]) hwrate
    exact ⟨hfree, hf, hdone, by rw [hns]; exact hpast, hnext⟩

end Sys2Proof.Machine
end

section
/-! SUPPORT. The PTP messages (R34 to R40): which master is selected, what an offset does, and how a path delay is measured. -/
set_option autoImplicit false
namespace Sys2Proof.Machine
open Sys2Proof

/-! ## The best master (R37) -/

/-- Of two lists of one length the comparison is the lexicographic order. -/
theorem lexLt_iff_lt {a b : List Nat} (h : a.length = b.length) : lexLt a b = true ↔ a < b := by
  induction a generalizing b with
  | nil => cases b with
    | nil => simp [lexLt]
    | cons y b => cases h
  | cons x a ih => cases b with
    | nil => cases h
    | cons y b =>
      rw [List.cons_lt_cons_iff, ← ih (Nat.succ_inj.mp h), lexLt]
      split
      · next hlt => simp [hlt]
      · split
        · next hgt => simp [hgt.ne', hgt.le]
        · next hge hle => simp [Nat.le_antisymm (Nat.not_lt.mp hle) (Nat.not_lt.mp hge)]
theorem leastBy_cons_isSome {α : Type} (lt : α → α → Bool) (x : α) (l : List α) : (leastBy lt (x :: l)).isSome = true := by
  rw [leastBy]
  split
  · rfl
  · split <;> rfl
theorem leastBy_isSome_of_mem {α : Type} (lt : α → α → Bool) {x : α} {l : List α} (h : x ∈ l) : (leastBy lt l).isSome = true := by
  cases l with
  | nil => cases h
  | cons y l => exact leastBy_cons_isSome lt y l
/-- The element that `leastBy` finds is one of the list, and its key is least. -/
theorem leastBy_least {α β : Type} [LinearOrder β] {lt : α → α → Bool} (key : α → β) (hlt : ∀ a b, lt a b = true ↔ key a < key b) {l : List α} {b : α}
    (h : leastBy lt l = some b) : b ∈ l ∧ ∀ x ∈ l, key b ≤ key x := by
  induction l generalizing b with
  | nil => cases h
  | cons x l ih =>
    rw [leastBy] at h
    split at h
    · next hnone =>
      cases h
      have hnil : l = [] := List.eq_nil_iff_forall_not_mem.mpr fun z hz => by
        have hsome := leastBy_isSome_of_mem lt hz
        rw [hnone] at hsome
        cases hsome
      simp [hnil]
    · next y hy =>
      obtain ⟨hmem, hleast⟩ := ih hy
      split at h
      · next hyx =>
        obtain rfl : y = b := Option.some.inj h
        exact ⟨List.mem_cons_of_mem x hmem, List.forall_mem_cons.mpr ⟨((hlt y x).mp hyx).le, hleast⟩⟩
      · next hyx =>
        obtain rfl : x = b := Option.some.inj h
        have hxy : key x ≤ key y := not_lt.mp fun hk => hyx ((hlt y x).mpr hk)
        exact ⟨List.mem_cons_self, List.forall_mem_cons.mpr ⟨le_rfl, fun z hz => hxy.trans (hleast z hz)⟩⟩
theorem Master.lexLt_key (a b : Master) : lexLt a.key b.key = true ↔ a.key < b.key := lexLt_iff_lt rfl
/-- When one master is heard, the BMCA selects a best one of those heard (R37). -/
theorem bmca_selects {s : Dev} {e : Master} (h : e ∈ heardMasters s) :
    ∃ b ∈ (bmca s).ptp.masters, (bmca s).ptp.sel = some b ∧ ∀ x ∈ (bmca s).ptp.masters, lexLt x.key b.key = false := by
  obtain ⟨hmasters, hsel, -⟩ := bmca_effect s
  obtain ⟨b, hb⟩ := Option.isSome_iff_exists.mp (leastBy_isSome_of_mem (fun a b : Master => lexLt a.key b.key) h)
  obtain ⟨hmem, hleast⟩ := leastBy_least Master.key Master.lexLt_key hb
  rw [hmasters]
  refine ⟨b, hmem, hsel.trans hb, fun x hx => ?_⟩
  rw [← Bool.not_eq_true, Master.lexLt_key]
  exact not_lt.mpr (hleast x hx)
/-- A master is heard from the Announce on that the subset of Table 2-2 admits. -/
theorem heard_of_announce {s : Dev} {p : Nat} {h : PtpHdr} {lo hi : Int} (m : Master) (hhears : ptpHears s p h = true) (hin : ptpOutside s h lo hi = false)
    (hport : m.port = p) (htransport : m.transport = h.transport) (hdomain : m.domain = h.domain) (hat : m.at_ = now s) : m.heard s = true := by
  simp only [ptpHears, Bool.and_eq_true] at hhears
  simp only [ptpOutside, Bool.or_eq_false_iff, bne_eq_false_iff_eq] at hin
  obtain ⟨⟨hon, htr⟩, -⟩ := hhears
  obtain ⟨⟨⟨-, hdom⟩, -⟩, -⟩ := hin
  simp [Master.heard, hport, htransport, hdomain, hat, hon, htr, hdom]

/-- The entry of the table of masters that an Announce makes. -/
def announced (s : Dev) (p : Nat) (h : PtpHdr) (m : Announce) : Master :=
  ⟨p, h.src, h.srcPort, h.domain, h.transport, m, now s, logSpan m.timeout h.logInterval⟩
/-- The table with that entry, before the BMCA looks at it. -/
def withAnnounced (s : Dev) (p : Nat) (h : PtpHdr) (m : Announce) : Dev :=
  { s with ptp := { s.ptp with masters := s.ptp.masters.filter (fun x => !(x.same (announced s p h m))) ++ [announced s p h m] } }
theorem ptpAnnounceS_admitted {s : Dev} {p : Nat} {h : PtpHdr} {m : Announce} (hhears : ptpHears s p h = true) (hin : ptpOutside s h (-3) 4 = false)
    (hmin : 2 ≤ m.timeout) (hmax : m.timeout ≤ 10) : ptpAnnounceS p h m s = bmca (withAnnounced s p h m) := by
  simp only [ptpAnnounceS, hhears, hin, Nat.not_lt.mpr hmin, Nat.not_lt.mpr hmax]
  rfl
theorem ptpAnnounceS_outside {s : Dev} {p : Nat} {h : PtpHdr} (m : Announce) (hhears : ptpHears s p h = true) (hout : ptpOutside s h (-3) 4 = true) :
    ptpAnnounceS p h m s = bump Reg.TIDE_PTP_DROP 1 s := by
  simp [ptpAnnounceS, hhears, hout, ptpDrop]
/-- PTP_ANNOUNCE (R37): the sender enters the table, and the BMCA selects without touching device time. -/
theorem ptpAnnounceS_effect {s : Dev} {p : Nat} {h : PtpHdr} {m : Announce} (hhears : ptpHears s p h = true) (hin : ptpOutside s h (-3) 4 = false)
    (hmin : 2 ≤ m.timeout) (hmax : m.timeout ≤ 10) :
    announced s p h m ∈ (ptpAnnounceS p h m s).ptp.masters ∧ (ptpAnnounceS p h m s).time = s.time ∧
      ∃ b ∈ (ptpAnnounceS p h m s).ptp.masters, (ptpAnnounceS p h m s).ptp.sel = some b ∧
        ∀ x ∈ (ptpAnnounceS p h m s).ptp.masters, lexLt x.key b.key = false := by
  rw [ptpAnnounceS_admitted hhears hin hmin hmax]
  have hheard : announced s p h m ∈ heardMasters (withAnnounced s p h m) :=
    List.mem_filter.mpr ⟨List.mem_append_right _ (List.mem_singleton.mpr rfl),
      heard_of_announce (s := withAnnounced s p h m) _ hhears hin rfl rfl rfl rfl⟩
  obtain ⟨hmasters, -, -, htime, -⟩ := bmca_effect (withAnnounced s p h m)
  exact ⟨hmasters ▸ hheard, htime, bmca_selects hheard⟩

/-! ## The offset from the master (R35, R36) -/

theorem ofSigned32_lt (i : Int) : ofSigned i 32 < 2 ^ 32 := by
  unfold ofSigned
  omega
theorem toSigned_ofSigned32 {i : Int} (hlo : -2 ^ 31 ≤ i) (hhi : i < 2 ^ 31) : toSigned (ofSigned i 32) 32 = i := by
  unfold toSigned ofSigned
  dsimp only
  split <;> omega
theorem clampI_of_mem {i lo hi : Int} (hlo : lo ≤ i) (hhi : i ≤ hi) : clampI i lo hi = i := by
  rw [clampI, if_neg (not_lt.mpr hlo), if_neg (not_lt.mpr hhi)]
theorem syncCount_setSyncCount {n : Nat} (w : Bool) (s : Dev) (h : n < 32) : syncCount (setSyncCount n w s) = n := by
  have hbelow : syncCount (setSyncCount n w s) = syncCount (wf Reg.TIDE_PTP_STATUS 4 5 n s) :=
    rf_setB_disj Reg.TIDE_PTP_STATUS 3 4 5 w _ (by decide) (by decide)
  rw [hbelow]
  exact (rf_wf_same Reg.TIDE_PTP_STATUS 4 5 n s (by decide)).trans (Nat.mod_eq_of_lt h)
theorem syncCount_of_same {l : List Nat} {a b : Dev} (h : SameRegs l a b) (hx : Reg.TIDE_PTP_STATUS ∉ l) : syncCount b = syncCount a := rf_of_same h hx 4 5

/-- Entering LOCKED (Table 2-1) touches TIDE_STATUS and the first mark only. -/
theorem lockIfReady_effect (s : Dev) :
    (lockIfReady s).time = s.time ∧ SameRegs [Reg.TIDE_STATUS] s (lockIfReady s) ∧ SameMem s (lockIfReady s) ∧
      (syncCount s = 16 → timeState (lockIfReady s) = 1) := by
  have hready : ∀ d : Dev, (timeReady d).time = d.time ∧ SameMem d (timeReady d) := fun d => by
    unfold timeReady
    split <;> exact ⟨rfl, SameMem.refl _⟩
  unfold lockIfReady
  split
  · obtain ⟨htime, hmem⟩ := hready (setTimeState 1 s)
    refine ⟨htime, (sameRegs_setTimeState 1 s).trans (sameRegs_timeReady _ _), (sameMem_wrN _ _ s).trans hmem, fun _ => ?_⟩
    exact (timeState_of_same (sameRegs_timeReady [] _) (by simp)).trans (timeState_setTimeState s (by decide))
  · next hnot => exact ⟨rfl, SameRegs.refl _ _, SameMem.refl _, fun hcount => by_contra fun hstate => hnot ⟨hcount, hstate⟩⟩

/-- The device when an offset has been shown and kept as the latest. -/
def offsetShown (off : Int) (s : Dev) : Dev :=
  wrN Reg.TIDE_PTP_OFS (ofSigned (clampI off (-2147483647) 2147483647) 32) { s with ptp := { s.ptp with lastOff := some off } }
theorem sameRegs_offsetShown (off : Int) (s : Dev) : SameRegs [Reg.TIDE_PTP_OFS] s (offsetShown off s) := sameRegs_wrN _ _ { s with ptp := _ }
/-- The device when the servo has set its frequency; free within R33's limit. -/
def servoSet (off : Int) (s : Dev) : Dev :=
  freshS (setFreq (servoFreq { s with ptp := { s.ptp with large := false } } off) { s with ptp := { s.ptp with large := false } })
theorem sameRegs_servoSet (off : Int) (s : Dev) : SameRegs [Reg.TIDE_PTP_FREQ] s (servoSet off s) := sameRegs_wrN Reg.TIDE_PTP_FREQ _ { s with ptp := _, time := _ }
/-- An offset within 1 µs outside UNSET: the servo, the count of Syncs, and LOCKED when 16 have come. -/
theorem useOffset_within_eq {off : Int} {s : Dev} (hstate : timeState s ≠ 0) (hoff : off.natAbs ≤ 1000) :
    useOffset off s = lockIfReady (setSyncCount (min 16 (syncCount s + 1)) true (servoSet off (offsetShown off s))) := by
  have hshown : timeState (offsetShown off s) ≠ 0 := by rwa [timeState_of_same (sameRegs_offsetShown off s) (by decide)]
  have hcount : syncCount (offsetShown off s) = syncCount s := syncCount_of_same (sameRegs_offsetShown off s) (by decide)
  rw [← hcount]
  unfold useOffset
  refine (if_neg fun h => hshown h.1).trans ((if_neg (by omega)).trans ?_)
  simp only [hoff, decide_true, if_true]
  rfl
/-- Device time itself does not move: the offset is corrected through f alone (R35). -/
theorem useOffset_within {off : Int} {s : Dev} (hstate : timeState s ≠ 0) (hoff : off.natAbs ≤ 1000) :
    (useOffset off s).time.ns = s.time.ns ∧ toSigned (rdN (useOffset off s) Reg.TIDE_PTP_OFS) 32 = off ∧
      syncCount (useOffset off s) = min 16 (syncCount s + 1) ∧ (15 ≤ syncCount s → timeState (useOffset off s) = 1) ∧ SameMem s (useOffset off s) := by
  rw [useOffset_within_eq hstate hoff]
  generalize hq : servoSet off (offsetShown off s) = q
  have hqregs : SameRegs [Reg.TIDE_PTP_FREQ] (offsetShown off s) q := hq ▸ sameRegs_servoSet off _
  have hqmem : SameMem s q := hq ▸ ⟨rfl, rfl, rfl, rfl⟩
  have hqtime : q.time.ns = s.time.ns := hq ▸ rfl
  obtain ⟨htime, hregs, hmem, hlock⟩ := lockIfReady_effect (setSyncCount (min 16 (syncCount s + 1)) true q)
  have hcount : syncCount (setSyncCount (min 16 (syncCount s + 1)) true q) = min 16 (syncCount s + 1) := syncCount_setSyncCount true q (by omega)
  refine ⟨?_, ?_, ?_, fun h15 => hlock (by omega), (hqmem.trans ⟨rfl, rfl, rfl, rfl⟩).trans hmem⟩
  · rw [htime]
    exact hqtime
  · rw [hregs _ (by decide), sameRegs_setSyncCount _ true q _ (by decide), hqregs _ (by decide), offsetShown, rdN_wrN_same,
      Nat.mod_eq_of_lt (ofSigned32_lt _), clampI_of_mem (by omega) (by omega), toSigned_ofSigned32 (by omega) (by omega)]
  · rw [syncCount_of_same hregs (by decide), hcount]

/-- A step of device time (R35): the whole of `d`, modulo 2^64 ns. -/
theorem stepTime_time (d : Int) (s : Dev) : ((stepTime d s).time.ns : Int) = ((s.time.ns : Int) + d) % 2 ^ 64 ∧ (stepTime d s).time.f = s.time.f :=
  ⟨Int.toNat_of_nonneg (Int.emod_nonneg _ (by decide)), rfl⟩
/-- In UNSET the first offset steps device time (R36). -/
theorem useOffset_first {off : Int} {s : Dev} (hstate : timeState s = 0) (hfirst : s.ptp.stepped = false) :
    ((useOffset off s).time.ns : Int) = ((s.time.ns : Int) - off) % 2 ^ 64 ∧ (useOffset off s).ptp.stepped = true ∧ (useOffset off s).time.f = s.time.f := by
  have hshown : timeState (offsetShown off s) = 0 := by rwa [timeState_of_same (sameRegs_offsetShown off s) (by decide)]
  have hstep : useOffset off s = setSyncCount 0 false (stepTime (-off)
      { offsetShown off s with ptp := { (offsetShown off s).ptp with stepped := true, lastOff := some 0, sync := none } }) := by
    unfold useOffset
    refine if_pos ⟨hshown, .inl ?_⟩
    rw [wrN_ptp, hfirst]
    decide
  rw [hstep]
  exact ⟨(stepTime_time (-off) _).1, rfl, rfl⟩

/-! ## Sync and Follow_Up (R36, R37) -/

theorem ptpSyncS_oneStep {s : Dev} {p : Nat} {h : PtpHdr} (origin : Nat) (hhears : ptpHears s p h = true) (hin : ptpOutside s h (-7) 1 = false)
    (hmaster : fromMaster s p h = true) : ptpSyncS p h false origin s = useSync ((origin : Int) + h.corr / 65536) (stamp s p) s := by
  simp [ptpSyncS, hhears, hin, hmaster]
/-- A Sync under a known path delay gives an offset; what it keeps of the Sync besides leaves registers and device time alone. -/
theorem useSync_of_delay {s : Dev} {dl : Int} (t1 t2 : Int) (h : s.ptp.delay = some dl) :
    ∃ r, useSync t1 t2 s = useOffset (t2 - t1 - dl) { s with ptp := { s.ptp with sync := some (t1, t2), rate := r } } := by
  simp only [useSync, h]
  exact ⟨_, rfl⟩
/-- Without one it is kept until a path delay is known. -/
theorem useSync_of_noDelay {s : Dev} (t1 t2 : Int) (h : s.ptp.delay = none) :
    (useSync t1 t2 s).ptp.sync = some (t1, t2) ∧ (useSync t1 t2 s).ptp.wait = s.ptp.wait ∧ (useSync t1 t2 s).time = s.time := by
  simp [useSync, h]
theorem ptpFollowUpS_of_wait {s : Dev} {p : Nat} {h : PtpHdr} {w : TwoStep} (origin : Nat) (hhears : ptpHears s p h = true)
    (hin : ptpOutside s h (-7) 1 = false) (hwait : s.ptp.wait = some w) (hfits : w.port = p ∧ w.src = h.src ∧ w.srcPort = h.srcPort ∧ w.seq = h.seq) :
    ptpFollowUpS p h origin s = useSync ((origin : Int) + (w.corr + h.corr) / 65536) w.t2 { s with ptp := { s.ptp with wait := none } } := by
  simp [ptpFollowUpS, hhears, hin, hwait, hfits]

/-! ## Path delay (R36, R37) -/

theorem ptpDelayReqSendS_sends {s : Dev} {p : Nat} (hport : ptpPort s p = true) (hwho : peerDelay s = true ∨ s.ptp.sel.map (·.port) = some p) :
    ptpDelayReqSendS p s = send (.ptp p (if peerDelay s then 2 else 1) s.ptp.seqId (stamp s p))
      { s with ptp := { s.ptp with req := some ⟨peerDelay s, p, s.ptp.seqId, stamp s p⟩, seqId := (s.ptp.seqId + 1) % 65536 } } := by
  unfold ptpDelayReqSendS
  refine if_neg ?_
  rcases hwho with hpeer | hsel
  · simp [hport, hpeer]
  · cases hs : s.ptp.sel with
    | none => simp [hs] at hsel
    | some m =>
      have hm : m.port = p := by simpa [hs] using hsel
      simp [hport, hm]
/-- The answer to the request in flight. -/
abbrev Answers (p : Nat) (h : PtpHdr) (q : DelayReq) (s : Dev) : Prop :=
  ptpHears s p h = true ∧ ptpOutside s h (-7) 5 = false ∧ s.ptp.req = some q ∧ q.port = p ∧ q.seq = h.seq
/-- A Pdelay exchange measures on its own timestamps. -/
theorem ptpDelayRespS_peer {s : Dev} {p : Nat} {h : PtpHdr} {q : DelayReq} (t : Nat) (ha : Answers p h q s) (hpeer : q.peer = true) :
    ptpDelayRespS p h true t s = { s with ptp := { s.ptp with req := none, delay := some ((stamp s p - q.t3 - t - h.corr / 65536) / 2) } } := by
  obtain ⟨hhears, hin, hreq, hport, hseq⟩ := ha
  simp [ptpDelayRespS, ptpDelayMeasured, hhears, hin, hreq, hport, hseq, hpeer]
/-- A Delay_Resp of the selected master measures against the latest Sync. -/
theorem ptpDelayRespS_master {s : Dev} {p : Nat} {h : PtpHdr} {q : DelayReq} {t1 t2 : Int} (t : Nat) (ha : Answers p h q s) (hpeer : q.peer = false)
    (hmaster : fromMaster s p h = true) (hsync : s.ptp.sync = some (t1, t2)) :
    ptpDelayRespS p h false t s =
      { s with ptp := { s.ptp with req := none, delay := some ((t2 - t1 + ((t : Int) - h.corr / 65536 - q.t3)) / 2) } } := by
  obtain ⟨hhears, hin, hreq, hport, hseq⟩ := ha
  simp [ptpDelayRespS, ptpDelayMeasured, hhears, hin, hreq, hport, hseq, hpeer, hmaster, hsync]
theorem ptpPdelayReqS_answers {s : Dev} {p : Nat} {h : PtpHdr} (hhears : ptpHears s p h = true) (hin : ptpOutside s h (-7) 5 = false)
    (hpeer : peerDelay s = true) : ptpPdelayReqS p h s = send (.ptp p 10 h.seq (stamp s p)) (send (.ptp p 3 h.seq (stamp s p)) s) := by
  simp [ptpPdelayReqS, hhears, hin, hpeer]

/-- Settles O8: each message is admitted by the subset of Table 2-2 and then acts on masters, offset or path delay. -/
theorem ptpMessagesSteerDeviceTime : Obligations.PtpMessagesSteerDeviceTime := by
  unfold Obligations.PtpMessagesSteerDeviceTime
  intro s p h hawake
  refine ⟨fun m hhears hin hmin hmax => ?_, fun m hhears hout => ?_, fun origin dl off hhears hin hmaster hdelay hoff hsmall hstate => ?_,
    fun origin dl off hhears hin hmaster hdelay hoff hstate hfirst => ?_, fun origin w hhears hin hwait hport hsrc hsrcPort hseq hdelay => ?_,
    fun hport hwho => ?_, fun t q t1 t2 hhears hin hreq hport hseq hpeer hmaster hsync => ?_, fun t q hhears hin hreq hport hseq hpeer => ?_,
    fun hhears hin hpeer => ?_⟩
  · exact Does.of_onDev hawake rfl (ptpAnnounceS_effect hhears hin hmin hmax)
  · exact Does.of_onDev hawake rfl (ptpAnnounceS_outside m hhears hout)
  · obtain ⟨r, hr⟩ := useSync_of_delay (origin + h.corr / 65536) (stamp s.dev p) hdelay
    refine Does.of_onDev (f := ptpSyncS p h false origin) hawake rfl ?_
    rw [ptpSyncS_oneStep origin hhears hin hmaster, hr, ← hoff]
    exact useOffset_within hstate hsmall
  · obtain ⟨r, hr⟩ := useSync_of_delay (origin + h.corr / 65536) (stamp s.dev p) hdelay
    refine Does.of_onDev (f := ptpSyncS p h false origin) hawake rfl ?_
    rw [ptpSyncS_oneStep origin hhears hin hmaster, hr, ← hoff]
    exact useOffset_first hstate hfirst
  · refine Does.of_onDev (f := ptpFollowUpS p h origin) hawake rfl ?_
    rw [ptpFollowUpS_of_wait origin hhears hin hwait ⟨hport, hsrc, hsrcPort, hseq⟩]
    exact useSync_of_noDelay _ _ hdelay
  · refine Does.of_onDev (f := ptpDelayReqSendS p) hawake rfl ?_
    rw [ptpDelayReqSendS_sends hport hwho]
    exact ⟨by rw [send_ptp], by rw [send_ptp], send_out _ _ rfl⟩
  · refine Does.of_onDev (f := ptpDelayRespS p h false t) hawake rfl ?_
    rw [ptpDelayRespS_master t ⟨hhears, hin, hreq, hport, hseq⟩ hpeer hmaster hsync]
    exact ⟨rfl, rfl, rfl⟩
  · refine Does.of_onDev (f := ptpDelayRespS p h true t) hawake rfl ?_
    rw [ptpDelayRespS_peer t ⟨hhears, hin, hreq, hport, hseq⟩ hpeer]
    exact ⟨rfl, rfl⟩
  · refine Does.of_onDev (f := ptpPdelayReqS p h) hawake rfl ?_
    rw [ptpPdelayReqS_answers hhears hin hpeer, send_out _ _ rfl, send_out _ _ rfl]
    exact List.append_assoc _ _ _

end Sys2Proof.Machine
end

section
/-! SUPPORT. SYNC_IN and host edges (R45 to R47, R49, R55). -/
set_option autoImplicit false
namespace Sys2Proof.Machine
open Sys2Proof

theorem tideSource_of_same {l : List Nat} {a b : Dev} (h : SameRegs l a b) (hx : Reg.TIDE_CTRL ∉ l) : tideSource b = tideSource a := rf_of_same h hx 0 2
theorem syncState_of_same {l : List Nat} {a b : Dev} (h : SameRegs l a b) (hx : Reg.TIDE_STATUS ∉ l) : syncState b = syncState a := rf_of_same h hx 2 2
theorem tideN_of_same {l : List Nat} {a b : Dev} (h : SameRegs l a b) (hx : Reg.TIDE_RATE ∉ l) : tideN b = tideN a := rf_of_same h hx 0 7
theorem tideP_of_same {l : List Nat} {a b : Dev} (h : SameRegs l a b) (hx : Reg.TIDE_RATE ∉ l) : tideP b = tideP a := by
  unfold tideP
  rw [tideN_of_same h hx]
theorem slackH_of_same {l : List Nat} {a b : Dev} (h : SameRegs l a b) (hx : Reg.TIDE_RATE ∉ l) : slackH b = slackH a := by
  unfold slackH
  rw [tideP_of_same h hx]
theorem sameMem_wr64 (a n : Nat) (s : Dev) : SameMem s (wr64 a n s) := (sameRest_wr64 a n s).sameMem

/-! ## An edge under an edge source (R46, Table 2-3) -/

/-- A mark at `m` is predicted, the first one has been, and no edge before it can be one too many. -/
abbrev AwaitsMark (m : Nat) (s : Dev) : Prop := s.tide.next = some m ∧ s.tide.marked = true ∧ s.tide.prevEnd = none
/-- Time `t` lies in the slack window of a mark predicted at `m` (R46). -/
abbrev InSlack (m t : Nat) (s : Dev) : Prop := m ≤ t + slackH s ∧ t ≤ m + slackH s

theorem edgeAt_first {s : Dev} {m t : Nat} (hw : AwaitsMark m s) (htaken : s.tide.taken = none) (hstate : syncState s ≠ 1) (hin : InSlack m t s) :
    edgeAt t s = setSyncState 0 (wrN Reg.TIDE_EDGE_OFS (ofSigned ((t : Int) - m) 32)
      (bump Reg.TIDE_EDGE_CNT 1 { s with tide := { s.tide with since := some t, taken := some t, miss := 0 } })) := by
  obtain ⟨hnext, hmarked, hprev⟩ := hw
  have hgoes : ¬ (decide (syncState s = 1) || !s.tide.marked) = true := by simp [hmarked, hstate]
  unfold edgeAt
  dsimp only
  rw [hnext]
  refine (if_neg hgoes).trans ((if_neg ?_).trans ((if_pos hin).trans (if_neg ?_)))
  · simp [hprev]
  · simp [htaken]
/-- The window's first edge is the mark's edge: it counts, its offset is shown, and the state is LOCKED. -/
theorem edgeAt_first_effect {s : Dev} {m t : Nat} (hw : AwaitsMark m s) (htaken : s.tide.taken = none) (hstate : syncState s ≠ 1) (hin : InSlack m t s) :
    (edgeAt t s).tide = { s.tide with since := some t, taken := some t, miss := 0 } ∧ syncState (edgeAt t s) = 0 ∧
      rdN (edgeAt t s) Reg.TIDE_EDGE_CNT = (rdN s Reg.TIDE_EDGE_CNT + 1) % 2 ^ 32 ∧
      rdN (edgeAt t s) Reg.TIDE_EDGE_OFS = ofSigned ((t : Int) - m) 32 ∧
      SameRegs [Reg.TIDE_STATUS, Reg.TIDE_EDGE_OFS, Reg.TIDE_EDGE_CNT] s (edgeAt t s) ∧ SameMem s (edgeAt t s) ∧ (edgeAt t s).time = s.time := by
  rw [edgeAt_first hw htaken hstate hin]
  generalize hd : { s with tide := { s.tide with since := some t, taken := some t, miss := 0 } } = d
  have hregs : d.regs = s.regs := hd ▸ rfl
  have hcnt : SameRegs [Reg.TIDE_EDGE_CNT] s (bump Reg.TIDE_EDGE_CNT 1 d) := (sameRegs_of_regs _ hregs).trans (sameRegs_bump Reg.TIDE_EDGE_CNT 1 d)
  have hofs := sameRegs_wrN Reg.TIDE_EDGE_OFS (ofSigned ((t : Int) - m) 32) (bump Reg.TIDE_EDGE_CNT 1 d)
  have hsync := sameRegs_setSyncState 0 (wrN Reg.TIDE_EDGE_OFS (ofSigned ((t : Int) - m) 32) (bump Reg.TIDE_EDGE_CNT 1 d))
  refine ⟨?_, syncState_setSyncState _ (by decide), ?_, ?_, (hcnt.append hofs).append hsync, hd ▸ ⟨rfl, rfl, rfl, rfl⟩, hd ▸ rfl⟩
  · subst hd
    simp [setSyncState]
  · rw [hsync _ (by decide), hofs _ (by decide), rdN_bump_same, sameRegs_of_regs [] hregs _ (by simp)]
  · rw [hsync _ (by decide), rdN_wrN_same, Nat.mod_eq_of_lt (ofSigned32_lt _)]

theorem edgeAt_early {s : Dev} {m t : Nat} (hw : AwaitsMark m s) (hstate : syncState s = 0) (hearly : t + slackH s < m) :
    edgeAt t s = setSyncState 1 (raise 0x010A 0 0 (bump Reg.TIDE_OUTSIDE_CNT 1 { s with tide := { s.tide with since := some t } })) := by
  obtain ⟨hnext, hmarked, hprev⟩ := hw
  have hgoes : ¬ (decide (syncState s = 1) || !s.tide.marked) = true := by simp [hmarked, hstate]
  unfold edgeAt
  dsimp only
  rw [hnext]
  refine (if_neg hgoes).trans ((if_neg ?_).trans ((if_neg fun hin => absurd hearly (Nat.not_lt.mpr hin.1)).trans (if_pos hstate)))
  · simp [hprev]
/-- An edge before the window of a LOCKED unit counts, is reported, and unlocks it. -/
theorem edgeAt_early_effect {s : Dev} {m t : Nat} (hw : AwaitsMark m s) (hstate : syncState s = 0) (hearly : t + slackH s < m) :
    (edgeAt t s).tide.taken = s.tide.taken ∧ syncState (edgeAt t s) = 1 ∧ tst (edgeAt t s) Reg.TIDE_STATUS 10 = true ∧
      rdN (edgeAt t s) Reg.TIDE_OUTSIDE_CNT = (rdN s Reg.TIDE_OUTSIDE_CNT + 1) % 2 ^ 32 := by
  rw [edgeAt_early hw hstate hearly]
  refine ⟨?_, syncState_setSyncState _ (by decide), ?_, ?_⟩
  · simp [setSyncState]
  · rw [tst_status_setSyncState 1 _ (by decide)]
    exact tst_status_raise (code := 0x010A) 0 0 _ (by decide) (by decide)
  · rw [sameRegs_setSyncState 1 _ _ (by decide), sameRegs_raise_tide (code := 0x010A) 0 0 _ (by decide) _ (by decide)]
    exact rdN_bump_same Reg.TIDE_OUTSIDE_CNT 1 _

/-! ## SYNC_IN (R55) -/

/-- The device when an edge on SYNC_IN at `t` has been timestamped and shown. -/
def edgeShown (t : Nat) (s : Dev) : Dev := wr64 Reg.TIDE_SYNCIN_LO t { s with tide := { s.tide with lastEdge := some t } }
theorem sameRegs_edgeShown (t : Nat) (s : Dev) : SameRegs [Reg.TIDE_SYNCIN_LO + 4, Reg.TIDE_SYNCIN_LO] s (edgeShown t s) :=
  sameRegs_wr64 Reg.TIDE_SYNCIN_LO t { s with tide := _ }
/-- A pulse shorter than 20 ns is filtered out. -/
theorem syncIn_filtered {s : Dev} {high : Nat} (h : high < 20) : syncIn high s = s := by
  have hfiltered : syncEdge high s = s := by
    unfold syncEdge
    exact if_pos h
  simp [syncIn, hfiltered, whenS]
/-- Under source SYNC_IN no edge wakes the device (Table 18-7). -/
theorem syncIn_of_source {s : Dev} (high : Nat) (h : tideSource s = 1) : syncIn high s = syncEdge high s := by simp [syncIn, h, whenS]
theorem syncEdge_syncIn {s : Dev} {high : Nat} (hhigh : 20 ≤ high) (hsource : tideSource s = 1) (hlast : s.tide.lastEdge = none) :
    syncEdge high s = edgeAt (now s / 2 * 2) (edgeShown (now s / 2 * 2) s) := by
  have hshown : tideSource (edgeShown (now s / 2 * 2) s) = 1 := by rw [tideSource_of_same (sameRegs_edgeShown _ s) (by decide), hsource]
  unfold syncEdge
  refine (if_neg (Nat.not_lt.mpr hhigh)).trans ((if_neg ?_).trans (if_pos hshown))
  simp [withinUs, hlast]
theorem slackH_edgeShown (t : Nat) (s : Dev) : slackH (edgeShown t s) = slackH s := slackH_of_same (sameRegs_edgeShown t s) (by decide)
theorem syncState_edgeShown (t : Nat) (s : Dev) : syncState (edgeShown t s) = syncState s := syncState_of_same (sameRegs_edgeShown t s) (by decide)
/-- SYNC_IN_EDGE inside the slack window. -/
theorem syncEdge_first_effect {s : Dev} {high m : Nat} (hhigh : 20 ≤ high) (hsource : tideSource s = 1) (hlast : s.tide.lastEdge = none)
    (hw : AwaitsMark m s) (htaken : s.tide.taken = none) (hstate : syncState s ≠ 1) (hin : InSlack m (now s / 2 * 2) s) (hnow : now s < 2 ^ 64) :
    (syncEdge high s).tide = { s.tide with lastEdge := some (now s / 2 * 2), since := some (now s / 2 * 2), taken := some (now s / 2 * 2), miss := 0 } ∧
      rd64 (syncEdge high s) Reg.TIDE_SYNCIN_LO = now s / 2 * 2 ∧ syncState (syncEdge high s) = 0 ∧
      rdN (syncEdge high s) Reg.TIDE_EDGE_CNT = (rdN s Reg.TIDE_EDGE_CNT + 1) % 2 ^ 32 ∧
      rdN (syncEdge high s) Reg.TIDE_EDGE_OFS = ofSigned ((now s / 2 * 2 : Nat) - (m : Int)) 32 ∧ SameMem s (syncEdge high s) := by
  rw [syncEdge_syncIn hhigh hsource hlast]
  generalize ht : now s / 2 * 2 = t at *
  have htlt : t < 2 ^ 64 := by omega
  obtain ⟨htide, hsync, hcnt, hofs, hregs, hmem, -⟩ := edgeAt_first_effect (s := edgeShown t s) (m := m) (t := t) hw htaken
    (by rwa [syncState_edgeShown]) (by rwa [InSlack, slackH_edgeShown])
  refine ⟨htide, ?_, hsync, ?_, hofs, (sameMem_wr64 Reg.TIDE_SYNCIN_LO t _).trans hmem⟩
  · rw [rd64_of_same hregs (by decide) (by decide)]
    exact rd64_wr64_same Reg.TIDE_SYNCIN_LO _ htlt
  · rw [hcnt, sameRegs_edgeShown t s _ (by decide)]
/-- SYNC_IN_EDGE before the slack window. -/
theorem syncEdge_early_effect {s : Dev} {high m : Nat} (hhigh : 20 ≤ high) (hsource : tideSource s = 1) (hlast : s.tide.lastEdge = none)
    (hw : AwaitsMark m s) (hstate : syncState s = 0) (hearly : now s / 2 * 2 + slackH s < m) :
    (syncEdge high s).tide.taken = s.tide.taken ∧ syncState (syncEdge high s) = 1 ∧ tst (syncEdge high s) Reg.TIDE_STATUS 10 = true ∧
      rdN (syncEdge high s) Reg.TIDE_OUTSIDE_CNT = (rdN s Reg.TIDE_OUTSIDE_CNT + 1) % 2 ^ 32 := by
  rw [syncEdge_syncIn hhigh hsource hlast]
  obtain ⟨htaken, hsync, hevent, hcnt⟩ := edgeAt_early_effect (s := edgeShown (now s / 2 * 2) s) hw
    (by rwa [syncState_edgeShown]) (by rwa [slackH_edgeShown])
  exact ⟨htaken, hsync, hevent, by rw [hcnt, sameRegs_edgeShown _ s _ (by decide)]⟩

/-! ## Host edges (R45) -/

theorem hostEdgeGo_ahead {s : Dev} (hsource : tideSource s = 2) (hahead : now s + 10000 ≤ rd64 s Reg.TIDE_HOST_EDGE_LO) :
    hostEdgeGo s = { s with tide := { s.tide with hostEdges := s.tide.hostEdges ++ [rd64 s Reg.TIDE_HOST_EDGE_LO] } } := by
  simp [hostEdgeGo, hsource, Nat.not_lt.mpr hahead]
theorem hostEdgeGo_late {s : Dev} (hsource : tideSource s = 2) (hlate : rd64 s Reg.TIDE_HOST_EDGE_LO < now s + 10000) :
    hostEdgeGo s = raise 0x010E 0 0 s := by
  simp [hostEdgeGo, hsource, hlate]
/-- The device at the time `t` of a submitted edge. -/
def hostEdgeDue (t : Nat) (s : Dev) : Dev :=
  let w := waitUntil t { s with tide := { s.tide with hostEdges := s.tide.hostEdges.erase t } }
  { w with tide := { w.tide with lastHost := some t } }
theorem hostEdgeDue_regs (t : Nat) (s : Dev) : (hostEdgeDue t s).regs = s.regs := waitUntil_regs t { s with tide := _ }
theorem hostEdgeDue_tide (t : Nat) (s : Dev) : (hostEdgeDue t s).tide = { s.tide with hostEdges := s.tide.hostEdges.erase t, lastHost := some t } := by
  simp [hostEdgeDue]
theorem le_hostEdgeDue {t : Nat} (s : Dev) (h : t < 2 ^ 64) : t ≤ (hostEdgeDue t s).time.ns := le_waitUntil { s with tide := _ } h
theorem hostEdgeReached_earliest {s : Dev} {t : Nat} (hsource : tideSource s = 2) (hedges : leastBy (fun a b => decide (a < b)) s.tide.hostEdges = some t)
    (hlast : s.tide.lastHost = none) : hostEdgeReached s = edgeAt t (hostEdgeDue t s) := by
  have hkept : tideSource (waitUntil t { s with tide := { s.tide with hostEdges := s.tide.hostEdges.erase t } }) = 2 := by
    rw [tideSource_of_same (sameRegs_waitUntil [] t _) (by simp)]
    exact hsource
  unfold hostEdgeReached
  rw [hedges]
  refine (if_neg (not_not.mpr hkept)).trans (if_neg ?_)
  rw [waitUntil_tide, hlast]
  exact Bool.false_ne_true
/-- HOST_EDGE_TIME_REACHED inside the slack window: the edge is treated as one on SYNC_IN at its time. -/
theorem hostEdgeReached_effect {s : Dev} {t m : Nat} (hsource : tideSource s = 2) (hedges : s.tide.hostEdges = [t]) (ht : t < 2 ^ 64)
    (hlast : s.tide.lastHost = none) (hw : AwaitsMark m s) (htaken : s.tide.taken = none) (hstate : syncState s ≠ 1) (hin : InSlack m t s) :
    (hostEdgeReached s).tide.taken = some t ∧ (hostEdgeReached s).tide.hostEdges = [] ∧ syncState (hostEdgeReached s) = 0 ∧
      t ≤ (hostEdgeReached s).time.ns ∧ rdN (hostEdgeReached s) Reg.TIDE_EDGE_CNT = (rdN s Reg.TIDE_EDGE_CNT + 1) % 2 ^ 32 := by
  have hsame : SameRegs [] s (hostEdgeDue t s) := sameRegs_of_regs [] (hostEdgeDue_regs t s)
  have hempty : (hostEdgeDue t s).tide = { s.tide with hostEdges := [], lastHost := some t } := by simp [hostEdgeDue_tide, hedges]
  obtain ⟨htide, hsync, hcnt, -, -, -, htime⟩ := edgeAt_first_effect (s := hostEdgeDue t s) (m := m) (t := t) (by rwa [AwaitsMark, hempty])
    (by rwa [hempty]) (by rwa [syncState_of_same hsame (by simp)]) (by rwa [InSlack, slackH_of_same hsame (by simp)])
  have hleast : leastBy (fun a b => decide (a < b)) s.tide.hostEdges = some t := hedges ▸ rfl
  rw [hostEdgeReached_earliest hsource hleast hlast]
  refine ⟨by rw [htide], by rw [htide, hempty], hsync, ?_, by rw [hcnt, hsame _ (by simp)]⟩
  rw [htime]
  exact le_hostEdgeDue s ht

/-- Settles O10: an edge is timestamped, and its place against the slack window says what it does. -/
theorem syncEdgesPlaceMarks : Obligations.SyncEdgesPlaceMarks := by
  unfold Obligations.SyncEdgesPlaceMarks
  intro s hawake
  refine ⟨fun high hhigh => ?_, fun high m hhigh hsource hlast hnext hmarked hprev htaken hstate hlo hhi hnow => ?_,
    fun high m hhigh hsource hlast hnext hmarked hprev hstate hearly => ?_, fun hsource hahead => ?_, fun hsource hlate => ?_,
    fun t m hsource hedges ht hlast hnext hmarked hprev htaken hstate hlo hhi => ?_, fun hsource => ?_, ?_⟩
  · exact Does.of_onDev (f := syncIn high) hawake rfl (syncIn_filtered hhigh)
  · refine Does.of_onDev (f := syncIn high) hawake rfl ?_
    rw [syncIn_of_source high hsource]
    obtain ⟨htide, hshown, hsync, hcnt, hofs, hmem⟩ := syncEdge_first_effect hhigh hsource hlast ⟨hnext, hmarked, hprev⟩ htaken hstate ⟨hlo, hhi⟩ hnow
    exact ⟨by rw [htide], by rw [htide], hshown, hsync, by rw [htide], hcnt, hofs, hmem⟩
  · refine Does.of_onDev (f := syncIn high) hawake rfl ?_
    rw [syncIn_of_source high hsource]
    exact syncEdge_early_effect hhigh hsource hlast ⟨hnext, hmarked, hprev⟩ hstate hearly
  · exact Does.of_onDev (f := hostEdgeGo) hawake rfl (hostEdgeGo_ahead hsource hahead)
  · refine Does.of_onDev (f := hostEdgeGo) hawake rfl ?_
    rw [hostEdgeGo_late hsource hlate]
    exact ⟨tst_status_raise (code := 0x010E) 0 0 _ (by decide) (by decide), raise_tide _ 0 0 _, sameRegs_raise_tide (code := 0x010E) 0 0 _ (by decide)⟩
  · exact Does.of_onDev (f := hostEdgeReached) hawake rfl
      (hostEdgeReached_effect hsource hedges ht hlast ⟨hnext, hmarked, hprev⟩ htaken hstate ⟨hlo, hhi⟩)
  · refine Does.of_onDev (f := relock) hawake rfl ?_
    rw [relock, if_neg hsource]
    exact ⟨syncState_setSyncState _ (by decide), timeState_setSyncState 2 _, sameRegs_setSyncState 2 _, rfl, rfl, rfl, rfl⟩
  · exact Does.of_onDev (f := setTimeGo) hawake rfl rfl

end Sys2Proof.Machine
end

section
/-! SUPPORT. SYNC_OUT, PPS_OUT and the retraining windows (R53, R54, R56). -/
set_option autoImplicit false
namespace Sys2Proof.Machine
open Sys2Proof

/-! ## The balls (R56, Table 19-7) -/

/-- A ball whose driver does not yield shows its new level. -/
theorem send_pin_out (p : OutPin) (v : Bool) {s : Dev} (h : ballsYield s = false) : (send (.pin p v) s).out = s.out ++ [.pin p v] := by
  simp [send, isPin, h]
theorem driveSync_effect (v : Bool) (s : Dev) :
    (driveSync v s).pins.syncOut = v ∧ (driveSync v s).tide = s.tide ∧ (driveSync v s).time = s.time ∧
      (s.pins.syncOut = !v → ballsYield s = false → (driveSync v s).out = s.out ++ [.pin .syncOut v]) := by
  unfold driveSync
  split
  · next hv => exact ⟨hv, rfl, rfl, fun hn => absurd (hv.symm.trans hn) (by cases v <;> decide)⟩
  · exact ⟨by rw [send_pins], send_tide _ _, send_time _ _, fun _ hdrives => send_pin_out (s := { s with pins := _ }) .syncOut v hdrives⟩
theorem drivePps_effect (v : Bool) (s : Dev) :
    (drivePps v s).pins.pps = v ∧ (drivePps v s).tide = s.tide ∧ (drivePps v s).time = s.time ∧
      (s.pins.pps = !v → ballsYield s = false → (drivePps v s).out = s.out ++ [.pin .ppsOut v]) := by
  unfold drivePps
  split
  · next hv => exact ⟨hv, rfl, rfl, fun hn => absurd (hv.symm.trans hn) (by cases v <;> decide)⟩
  · exact ⟨by rw [send_pins], send_tide _ _, send_time _ _, fun _ hdrives => send_pin_out (s := { s with pins := _ }) .ppsOut v hdrives⟩
theorem ballsYield_of_same {a b : Dev} (hj : b.jtag = a.jtag) (hr : b.regs = a.regs) : ballsYield b = ballsYield a := by
  unfold ballsYield rf tst rdN
  rw [hj, hr]
theorem ballsYield_waitUntil (t : Nat) (s : Dev) : ballsYield (waitUntil t s) = ballsYield s := ballsYield_of_same (waitUntil_jtag t s) (waitUntil_regs t s)

/-! ## PPS_OUT (R56) -/

/-- The second of device time at which PPS_OUT rises next: the coming one, or the one after when it has risen at that already. -/
def nextSecond (s : Dev) : Nat :=
  if s.tide.ppsSec = some ((now s + 999999999) / 1000000000) then (now s + 999999999) / 1000000000 + 1 else (now s + 999999999) / 1000000000
theorem nextSecond_bounds (s : Dev) : now s ≤ nextSecond s * 1000000000 ∧ nextSecond s * 1000000000 ≤ now s + 2000000000 := by
  unfold nextSecond
  split <;> omega
/-- The device at time `t`, its second `n`. -/
def secondReached (n t : Nat) (s : Dev) : Dev :=
  let w := waitUntil t s
  { w with tide := { w.tide with ppsSec := some n } }
theorem sameRegs_secondReached (l : List Nat) (n t : Nat) (s : Dev) : SameRegs l s (secondReached n t s) := sameRegs_of_regs l (waitUntil_regs t s)
theorem secondReached_ns (n : Nat) {t : Nat} {s : Dev} (hlo : now s ≤ t) (ht : t < 2 ^ 64) : (secondReached n t s).time.ns = t :=
  (waitUntil_ns s ht).trans (Nat.max_eq_right hlo)
theorem halted_of_same {l : List Nat} {a b : Dev} (h : SameRegs l a b) (hx : Reg.BOOT_STATUS ∉ l) : halted b = halted a := by
  unfold halted
  rw [rf_of_same h hx]
/-- PPS_OUT_RISE once its second `n`, at time `t`, is known. -/
def pulseAt (n t : Nat) (s : Dev) : Dev :=
  let d := secondReached n t s
  if tst d Reg.TIDE_CTRL 3 && timeState d != 0 && !(halted d) then
    drivePps true { d with tide := { d.tide with ppsFall := some (t + rf d Reg.TIDE_PPS_CFG 0 9 * 1000000) } }
  else d
theorem ppsRise_eq (s : Dev) : ppsRise s = pulseAt (nextSecond s) (nextSecond s * 1000000000) s := rfl
theorem pulseAt_enabled (n t : Nat) {s : Dev} (hon : tst s Reg.TIDE_CTRL 3 = true) (hstate : timeState s ≠ 0) (hrun : halted s = false) :
    pulseAt n t s = drivePps true { secondReached n t s with tide :=
      { (secondReached n t s).tide with ppsFall := some (t + rf s Reg.TIDE_PPS_CFG 0 9 * 1000000) } } := by
  have hsame := sameRegs_secondReached [] n t s
  have hrises : (tst (secondReached n t s) Reg.TIDE_CTRL 3 && timeState (secondReached n t s) != 0 && !(halted (secondReached n t s))) = true := by
    rw [tst_of_same hsame (by simp), timeState_of_same hsame (by simp), halted_of_same hsame (by simp), hon, hrun]
    simpa using hstate
  rw [← rf_of_same hsame (by simp) (x := Reg.TIDE_PPS_CFG)]
  exact if_pos hrises
theorem pulseAt_effect (n : Nat) {t : Nat} {s : Dev} (hon : tst s Reg.TIDE_CTRL 3 = true) (hstate : timeState s ≠ 0) (hrun : halted s = false)
    (hlo : now s ≤ t) (ht : t < 2 ^ 64) :
    (pulseAt n t s).pins.pps = true ∧ (pulseAt n t s).time.ns = t ∧
      (pulseAt n t s).tide.ppsFall = some (t + rf s Reg.TIDE_PPS_CFG 0 9 * 1000000) := by
  rw [pulseAt_enabled n t hon hstate hrun]
  obtain ⟨hpin, htide, htime, -⟩ := drivePps_effect true { secondReached n t s with tide :=
    { (secondReached n t s).tide with ppsFall := some (t + rf s Reg.TIDE_PPS_CFG 0 9 * 1000000) } }
  exact ⟨hpin, by rw [htime]; exact secondReached_ns n hlo ht, by rw [htide]⟩
/-- PPS_OUT_RISE (R56) while the pulse is enabled. -/
theorem ppsRise_effect {s : Dev} (hon : tst s Reg.TIDE_CTRL 3 = true) (hstate : timeState s ≠ 0) (hrun : halted s = false)
    (hnow : now s + 2000000000 < 2 ^ 64) :
    (ppsRise s).pins.pps = true ∧ (ppsRise s).time.ns % 1000000000 = 0 ∧ now s ≤ (ppsRise s).time.ns ∧ (ppsRise s).time.ns ≤ now s + 2000000000 ∧
      (ppsRise s).tide.ppsFall = some ((ppsRise s).time.ns + rf s Reg.TIDE_PPS_CFG 0 9 * 1000000) := by
  obtain ⟨hlo, hhi⟩ := nextSecond_bounds s
  obtain ⟨hpin, hns, hfall⟩ := pulseAt_effect (nextSecond s) hon hstate hrun hlo (Nat.lt_of_le_of_lt hhi hnow)
  rw [ppsRise_eq, hns]
  exact ⟨hpin, Nat.mul_mod_left _ _, hlo, hhi, hfall⟩

/-! ## Retraining windows (R53, R54) -/

/-- The device when the tide's next window opens at `t`. -/
def windowOpened (t : Nat) (s : Dev) : Dev :=
  { waitUntil t s with tide := { s.tide with winIdx := s.tide.winIdx + 1, winCnt := s.tide.winCnt + 1, win := some t } }
theorem windowOpened_effect {t : Nat} (s : Dev) (ht : t < 2 ^ 64) :
    t ≤ (windowOpened t s).time.ns ∧ (windowOpened t s).regs = s.regs ∧ SameMem s (windowOpened t s) :=
  ⟨le_waitUntil s ht, waitUntil_regs t s, sameMem_waitUntil t s⟩
theorem retrainWindow_opens {s : Dev} (hmarked : s.tide.marked = true) (hebb : ebbState s ≠ 2)
    (hearly : windowStart s s.tide.winIdx + 10000 ≤ (comingMark s).2) : retrainWindow s = windowOpened (windowStart s s.tide.winIdx) s := by
  have hopens : ¬ (!s.tide.marked || ebbState s == 2 || decide ((comingMark s).2 < windowStart s s.tide.winIdx + 10000)) = true := by
    simpa [hmarked, hebb] using hearly
  unfold retrainWindow
  refine (if_neg hopens).trans ?_
  simp only [waitUntil_tide]
  rfl

/-- Settles O11: each pulse end, pulse and window waits for its moment. -/
theorem outputPulsesAndWindowsFollowTime : Obligations.OutputPulsesAndWindowsFollowTime := by
  unfold Obligations.OutputPulsesAndWindowsFollowTime
  intro s hawake
  refine ⟨fun t hfall ht => ?_, fun t hfall ht => ?_, fun hon hstate hrun hnow => ?_, fun hmarked hebb hearly hstart => ?_⟩
  · refine Does.of_onDev hawake rfl ?_
    simp only [hfall]
    obtain ⟨hpin, htide, htime, hout⟩ := driveSync_effect false { waitUntil t s.dev with tide := { s.dev.tide with soFall := none } }
    refine ⟨hpin, by rw [htide], by rw [htime]; exact le_waitUntil s.dev ht, fun hhigh hdrives => ?_⟩
    rw [hout ((congrArg Pins.syncOut (waitUntil_pins t s.dev)).trans hhigh) ((ballsYield_waitUntil t s.dev).trans hdrives)]
    exact congrArg (· ++ _) (waitUntil_out t s.dev)
  · refine Does.of_onDev hawake rfl ?_
    simp only [hfall]
    obtain ⟨hpin, htide, htime, hout⟩ := drivePps_effect false { waitUntil t s.dev with tide := { s.dev.tide with ppsFall := none } }
    refine ⟨hpin, by rw [htide], by rw [htime]; exact le_waitUntil s.dev ht, fun hhigh hdrives => ?_⟩
    rw [hout ((congrArg Pins.pps (waitUntil_pins t s.dev)).trans hhigh) ((ballsYield_waitUntil t s.dev).trans hdrives)]
    exact congrArg (· ++ _) (waitUntil_out t s.dev)
  · exact Does.of_onDev (f := ppsRise) hawake rfl (ppsRise_effect hon hstate hrun hnow)
  · refine Does.of_onDev (f := retrainWindow) hawake rfl ?_
    rw [retrainWindow_opens hmarked hebb hearly]
    obtain ⟨htime, hregs, hmem⟩ := windowOpened_effect s.dev hstart
    exact ⟨rfl, htime, rfl, rfl, hregs, hmem⟩

end Sys2Proof.Machine
end

section
/-! SUPPORT. The whole block: every command completes, and an idle step is one SCLK cycle (R33, R454 to R457). -/
set_option autoImplicit false
namespace Sys2Proof.Machine
open Sys2Proof

/-! ## Every command -/

/-- The meaning of a row that does `f`, by whether a reset holds the row. -/
def rowMeaning : Bool → (Dev → Dev) → State → Result
  | true, f => onPin f
  | false, f => onDev f
/-- Each row of the table does one thing to the device, whatever waits in the queue. -/
theorem exec_rowMeaning (c : Instr) : ∃ f, ∀ s, exec c s = rowMeaning (pinRow c) f s := by
  cases c <;> exact ⟨_, fun _ => rfl⟩
theorem exec_keepsQueue (c : Instr) (s : State) : ∃ d, exec c s = .next { s with dev := d } := by
  obtain ⟨f, hf⟩ := exec_rowMeaning c
  rw [hf]
  cases pinRow c
  · exact ⟨act f s.dev, rfl⟩
  · exact ⟨f s.dev, rfl⟩
theorem exec_onDev {c : Instr} (h : pinRow c = false) : ∃ f, ∀ s, exec c s = onDev f s := by
  obtain ⟨f, hf⟩ := exec_rowMeaning c
  rw [h] at hf
  exact ⟨f, hf⟩
/-- A device that is held in reset does nothing (R455, R456). -/
theorem onDev_inReset (f : Dev → Dev) {s : State} (h : inReset s.dev = true) : onDev f s = .next s := by
  simp [onDev, act, h]

/-! ## An idle step -/

theorem step_idle {s : State} (h : s.pending = []) : step s = .next { s with dev := idle s.dev } := by
  simp [step, h]
/-- Without a frequency correction a cycle is exactly 2 ns (R33). -/
theorem tickTime_uncorrected {t : Time} (hf : t.f = 0) (hfrac : t.frac < 2 ^ 32) (hns : t.ns + 2 < 2 ^ 64) :
    (tickTime t).ns = t.ns + 2 ∧ (tickTime t).frac = t.frac := by
  have hinc : (2 ^ 33 * (1000000000 + t.f) / 1000000000).toNat = 2 ^ 33 := by rw [hf]; rfl
  simp only [tickTime, hinc]
  omega

/-- Settles O2: by what each row of the table is, and one cycle of device time. -/
theorem everyStepCompletes : Obligations.EveryStepCompletes := by
  unfold Obligations.EveryStepCompletes
  refine ⟨fun c s => ⟨exec_keepsQueue c s, fun hrow => ?_⟩, fun s hempty => ⟨fun hreset => ?_, fun hawake => ?_⟩⟩
  · obtain ⟨f, hf⟩ := exec_onDev hrow
    exact ⟨fun hreset => (hf s).trans (onDev_inReset f hreset), fun hawake => Does.of_onDev hawake (hf s) trivial⟩
  · simp [step_idle hempty, idle, hreset]
  · have hruns : idle s.dev = { s.dev with time := tickTime s.dev.time } := if_neg (Bool.eq_false_iff.mp hawake)
    exact ⟨tickTime s.dev.time, by rw [step_idle hempty, hruns], rfl, rfl, tickTime_uncorrected⟩

end Sys2Proof.Machine
end

section
/-! SUPPORT. The mark action (R43, R50): what its last part leaves behind whatever its steps did, and steps 1 and 4 of Table 2-4. -/
set_option autoImplicit false
namespace Sys2Proof.Machine
open Sys2Proof

/-! ## The prediction of the next mark (R41, R46, R47) -/

theorem planNext_tide (mark : Nat) (stepped : Bool) (d : Int) (s : Dev) :
    (planNext mark stepped d s).tide.marked = true ∧ (planNext mark stepped d s).tide.next.isSome = true ∧ (planNext mark stepped d s).tide.taken = none ∧
      (planNext mark stepped d s).tide.winIdx = 0 := by
  unfold planNext
  dsimp only
  split
  · split
    · exact ⟨rfl, rfl, rfl, rfl⟩
    · split <;> exact ⟨rfl, rfl, rfl, rfl⟩
  · exact ⟨rfl, rfl, rfl, rfl⟩

/-! ## What the tide that ended leaves behind (R361, R434) -/

/-- The corrected events of the tide that ended are forgotten, and it does not count as the one in which an ebb exit completed. -/
abbrev TideForgotten (d : Dev) : Prop := d.err.seen = [] ∧ d.pwr.fresh = false
theorem planNext_forgotten (mark : Nat) (stepped : Bool) (d : Int) {s : Dev} (h : TideForgotten s) : TideForgotten (planNext mark stepped d s) := by
  unfold planNext
  dsimp only
  split
  · split
    · exact h
    · split <;> exact h
  · exact h
theorem raise_seen (code unit info : Nat) (s : Dev) : (raise code unit info s).err.seen = s.err.seen := by
  unfold raise raiseFor
  cases eventReg code unit <;> rfl
theorem notEquivalent_forgotten {s : Dev} (h : TideForgotten s) : TideForgotten (notEquivalent s) := by
  unfold notEquivalent
  split
  · obtain ⟨hseen, hfresh⟩ := h
    exact ⟨by rw [errRaise, raise_seen, wrN_err, setB_err, hseen], by rw [errRaise, raise_pwr, wrN_pwr, setB_pwr, hfresh]⟩
  · exact h
theorem withActs_forgotten (l : List ActWait) {s : Dev} (h : TideForgotten s) : TideForgotten { s with err := { s.err with acts := l } } := h
theorem endActions_forgotten (action unit outcome : Nat) {s : Dev} (h : TideForgotten s) : TideForgotten (endActions action unit outcome s) := by
  refine withActs_forgotten _ (forS_inv TideForgotten _ _ (fun a _ d hd => ?_) s h)
  obtain ⟨hseen, hfresh⟩ := hd
  split
  · exact ⟨by rw [wf_err, hseen], by rw [wf_pwr, hfresh]⟩
  · exact ⟨hseen, hfresh⟩
theorem markTimeStep_forgotten {s : Dev} (h : TideForgotten s) : TideForgotten (markTimeStep s) := by
  unfold markTimeStep
  split <;> exact h
theorem whenS_inv {P : Dev → Prop} (c : Bool) {f : Dev → Dev} {s : Dev} (hs : P s) (hf : P s → P (f s)) : P (whenS c f s) := by
  cases c
  · exact hs
  · exact hf hs
theorem markStep_forgotten {s : Dev} (h : TideForgotten s) : TideForgotten (markStep s) :=
  whenS_inv _ (markTimeStep_forgotten h) fun hstep => endActions_forgotten _ _ _ (whenS_inv _ hstep notEquivalent_forgotten)
/-- Whatever the steps of the mark do, the requested step of device time and the prediction come last. -/
theorem tideMark_last {s : Dev} {m : Nat} (h : s.tide.next = some m) :
    ∃ mark stepped d q, TideForgotten q ∧ tideMark s = planNext mark stepped d (markStep q) := by
  simp only [tideMark, h]
  exact ⟨_, _, _, _, ⟨rfl, rfl⟩, rfl⟩
theorem tideMark_unpredicted {s : Dev} (h : s.tide.next = none) : tideMark s = s := by
  simp only [tideMark, h]

/-! ## Step 1 (Table 2-4) -/

theorem endingTide_lt (s : Dev) : endingTide s < 2 ^ 48 := by
  unfold endingTide
  split
  · exact Nat.mod_lt _ (by decide)
  · exact Nat.mod_lt _ (by decide)
theorem sameMem_countMiss (s : Dev) : SameMem s (countMiss s) := by
  unfold countMiss
  split
  · dsimp only
    split
    · exact SameMem.trans (b := bump Reg.TIDE_MISS_CNT 1 { s with tide := { s.tide with miss := s.tide.miss + 1 } }) ⟨rfl, rfl, rfl, rfl⟩
        (sameRest_raise 0x010B 0 0 _).sameMem
    · exact ⟨rfl, rfl, rfl, rfl⟩
  · exact SameMem.refl s
theorem convergeAt_effect (mark : Nat) (s : Dev) : (convergeAt mark s).time = s.time ∧ SameMem s (convergeAt mark s) := by
  unfold convergeAt
  split
  · split <;> exact ⟨rfl, rfl, rfl, rfl, rfl⟩
  · exact ⟨rfl, SameMem.refl s⟩
theorem syncOutRise_effect (s : Dev) :
    (syncOutRise s).regs = s.regs ∧ (syncOutRise s).time = s.time ∧ (syncOutRise s).tide.action = s.tide.action ∧ SameMem s (syncOutRise s) := by
  have hdrive : ∀ d : Dev, (driveSync true d).regs = d.regs ∧ SameMem d (driveSync true d) := fun d => by
    unfold driveSync
    split
    · exact ⟨rfl, SameMem.refl d⟩
    · exact ⟨send_regs _ _, SameMem.trans (b := { d with pins := { d.pins with syncOut := true } }) ⟨rfl, rfl, rfl, rfl⟩ (sameRest_send _ _).sameMem⟩
  unfold syncOutRise
  split
  · generalize hq : { s with tide := { s.tide with soFall := some (now s + rf s Reg.TIDE_SYNCOUT_CFG 0 10 * 1000) } } = q
    have hsame : q.regs = s.regs ∧ q.time = s.time ∧ q.tide.action = s.tide.action ∧ SameMem s q := hq ▸ ⟨rfl, rfl, rfl, rfl, rfl, rfl, rfl⟩
    obtain ⟨hregs, htime, haction, hmem⟩ := hsame
    obtain ⟨-, hdtide, hdtime, -⟩ := driveSync_effect true q
    obtain ⟨hdregs, hdmem⟩ := hdrive q
    exact ⟨hdregs.trans hregs, hdtime.trans htime, (congrArg Tide.action hdtide).trans haction, hmem.trans hdmem⟩
  · exact ⟨rfl, rfl, rfl, SameMem.refl s⟩
/-- An interrupt source that fires touches the aggregation and the endpoint's status (R443, R444). -/
theorem irqFire_effect (i cls : Nat) (s : Dev) :
    SameRegs [Reg.PCI_STATUS, Reg.GEN_IRQ_SENT_CNT, Reg.GEN_IRQ_PEND] s (irqFire i cls s) ∧ SameRest s (irqFire i cls s) := by
  unfold irqFire
  split
  · split
    · exact ⟨SameRegs.refl _ s, SameRest.refl s⟩
    · exact ⟨(sameRegs_setB Reg.GEN_IRQ_PEND i true s).append (sameRegs_irqRequest i _), (sameRest_setB _ i true s).trans (sameRest_irqRequest i _)⟩
  · exact ⟨SameRegs.refl _ s, SameRest.refl s⟩
theorem SameRest.time {a b : Dev} (h : SameRest a b) : b.time = a.time := by
  unfold SameRest at h
  rw [h]
theorem SameRest.tide {a b : Dev} (h : SameRest a b) : b.tide = a.tide := by
  unfold SameRest at h
  rw [h]

/-- The device at the action time, before the mark is shown. -/
def atAction (mark action : Nat) (s : Dev) : Dev :=
  let c := convergeAt mark (waitUntil action (countMiss s))
  { c with tide := { c.tide with action := action, since := none, roundDone := false, stepDone := false } }
/-- The mark at `mark`, which ends tide `k`, is latched and shown. -/
def markShown (mark k : Nat) (s : Dev) : Dev := irqFire 22 0 (syncOutRise (wr64 Reg.TIDE_MARK_LO mark (wr64 Reg.TIDE_NUM_LO k s)))
theorem markStep1_eq (s : Dev) : markStep1 s = markShown (comingMark s).1 (endingTide s) (atAction (comingMark s).1 (comingMark s).2 s) := rfl
theorem atAction_effect (mark : Nat) {action : Nat} (s : Dev) (h : action < 2 ^ 64) :
    action ≤ (atAction mark action s).time.ns ∧ (atAction mark action s).tide.action = action ∧ SameMem s (atAction mark action s) := by
  obtain ⟨htime, hmem⟩ := convergeAt_effect mark (waitUntil action (countMiss s))
  refine ⟨?_, rfl, ((sameMem_countMiss s).trans (sameMem_waitUntil action _)).trans hmem⟩
  have hns : (atAction mark action s).time = (waitUntil action (countMiss s)).time := htime
  rw [hns]
  exact le_waitUntil _ h
theorem markShown_effect {mark k : Nat} (s : Dev) (hmark : mark < 2 ^ 64) (hk : k < 2 ^ 48) :
    rd64 (markShown mark k s) Reg.TIDE_MARK_LO = mark ∧ tideNum (markShown mark k s) = k ∧ (markShown mark k s).time = s.time ∧
      (markShown mark k s).tide.action = s.tide.action ∧ SameMem s (markShown mark k s) := by
  unfold markShown
  generalize hw : wr64 Reg.TIDE_MARK_LO mark (wr64 Reg.TIDE_NUM_LO k s) = w
  have hshown : rd64 w Reg.TIDE_MARK_LO = mark := hw ▸ rd64_wr64_same Reg.TIDE_MARK_LO _ hmark
  have hnum : rd64 w Reg.TIDE_NUM_LO = k := by
    rw [← hw, rd64_of_same (sameRegs_wr64 Reg.TIDE_MARK_LO mark _) (by decide) (by decide)]
    exact rd64_wr64_same Reg.TIDE_NUM_LO s (Nat.lt_trans hk (by decide))
  have hrest : SameRest s w := hw ▸ (sameRest_wr64 _ k s).trans (sameRest_wr64 _ mark _)
  obtain ⟨hregs, htime, haction, hmem⟩ := syncOutRise_effect w
  obtain ⟨hirq, hirqRest⟩ := irqFire_effect 22 0 (syncOutRise w)
  have hsame : SameRegs [Reg.PCI_STATUS, Reg.GEN_IRQ_SENT_CNT, Reg.GEN_IRQ_PEND] w (irqFire 22 0 (syncOutRise w)) :=
    (sameRegs_of_regs _ hregs).trans hirq
  refine ⟨?_, ?_, ?_, ?_, (hrest.sameMem.trans hmem).trans hirqRest.sameMem⟩
  · rw [rd64_of_same hsame (by decide) (by decide), hshown]
  · rw [tideNum, rd64_of_same hsame (by decide) (by decide), hnum, Nat.mod_eq_of_lt hk]
  · rw [hirqRest.time, htime, hrest.time]
  · rw [hirqRest.tide, haction, hrest.tide]

/-! ## Step 4 (R43) -/

theorem tideNum_markStep4 (s : Dev) : tideNum (markStep4 s) = (tideNum s + 1) % 2 ^ 48 := by
  have hlt : (tideNum s + 1) % 2 ^ 48 < 2 ^ 48 := Nat.mod_lt _ (by decide)
  have hshown : rd64 (markStep4 s) Reg.TIDE_NUM_LO = (tideNum s + 1) % 2 ^ 48 := rd64_wr64_same Reg.TIDE_NUM_LO s (Nat.lt_trans hlt (by decide))
  rw [tideNum, hshown, Nat.mod_eq_of_lt hlt]

/-- Settles O12: the prediction of the next mark comes last, and steps 1 and 4 each set what they show. -/
theorem markActionLeavesNewTide : Obligations.MarkActionLeavesNewTide := by
  unfold Obligations.MarkActionLeavesNewTide
  refine ⟨fun s hawake => ⟨fun m hnext => ?_, fun hnone => ?_⟩, fun d haction hmark => ?_⟩
  · refine Does.of_onDev (f := tideMark) hawake rfl ?_
    obtain ⟨mark, stepped, d, q, hq, hlast⟩ := tideMark_last hnext
    rw [hlast]
    obtain ⟨hmarked, hsome, htaken, hwin⟩ := planNext_tide mark stepped d (markStep q)
    obtain ⟨hseen, hfresh⟩ := planNext_forgotten mark stepped d (markStep_forgotten hq)
    exact ⟨hmarked, hsome, htaken, hwin, hseen, hfresh⟩
  · exact Does.of_onDev (f := tideMark) hawake rfl (tideMark_unpredicted hnone)
  · obtain ⟨hpast, hact, hmem⟩ := atAction_effect (comingMark d).1 d haction
    obtain ⟨hshown, hnum, htime, hkept, hmem'⟩ := markShown_effect (atAction (comingMark d).1 (comingMark d).2 d) hmark (endingTide_lt d)
    rw [markStep1_eq]
    exact ⟨hshown, hnum, by rw [htime]; exact hpast, hkept.trans hact, hmem.trans hmem', tideNum_markStep4 d⟩

end Sys2Proof.Machine
end

section
/-! SUPPORT. Codec engines and contexts (R219 to R222): what a change of one leaves of the others, and what a service round gives. -/
set_option autoImplicit false
namespace Sys2Proof.Machine
open Sys2Proof

/-! ## Engines and contexts -/

theorem ctxOf_modCtx (k key : Nat) (f : CdcCtx → CdcCtx) (s : Dev) : ctxOf (modCtx k f s) key = if key = k then f (ctxOf s k) else ctxOf s key :=
  mget_mset _ _ _ _ _
theorem cdcOf_modCdc (j e : Nat) (f : Cdc → Cdc) (s : Dev) : cdcOf (modCdc j f s) e = if e = j then f (cdcOf s j) else cdcOf s e :=
  mget_mset _ _ _ _ _
theorem ctxOf_congr {a b : Dev} (h : b.cctx = a.cctx) (key : Nat) : ctxOf b key = ctxOf a key := by
  unfold ctxOf
  rw [h]
theorem cdcOf_congr {a b : Dev} (h : b.cdc = a.cdc) (e : Nat) : cdcOf b e = cdcOf a e := by
  unfold cdcOf
  rw [h]
theorem ctxOf_modCdc (e key : Nat) (f : Cdc → Cdc) (s : Dev) : ctxOf (modCdc e f s) key = ctxOf s key := rfl
theorem mem_engKeys {e key : Nat} : key ∈ engKeys e ↔ key / 32 = e := by
  unfold engKeys
  rw [List.mem_map]
  constructor
  · rintro ⟨x, hx, rfl⟩
    have := List.mem_range.mp hx
    omega
  · intro h
    exact ⟨key % 32, List.mem_range.mpr (by omega), by omega⟩
theorem engKeys_nodup (e : Nat) : (engKeys e).Nodup := List.nodup_range.map fun x y h => by omega

/-! ## A context's configuration and share (R219) -/

section Configured
variable {l : List Nat} {a b : Dev} (h : SameRegs l a b) (hcfg : ∀ g i, Reg.CDC_CTX_CFG g i ∉ l)
include h hcfg

theorem ctxCfg_of_same (key lo len : Nat) : ctxCfg b key lo len = ctxCfg a key lo len := rf_of_same h (hcfg _ _) lo len
theorem ctxValid_of_same (key : Nat) : ctxValid b key = ctxValid a key := by
  unfold ctxValid
  rw [ctxCfg_of_same h hcfg]
theorem shareNs_of_same (hrate : Reg.TIDE_RATE ∉ l) (key : Nat) : shareNs b key = shareNs a key := by
  have hvalid : ctxValid b = ctxValid a := funext (ctxValid_of_same h hcfg)
  unfold shareNs
  rw [ctxCfg_of_same h hcfg, tideP_of_same h hrate, hvalid]

end Configured

theorem ctxValid_of_regs {a b : Dev} (h : b.regs = a.regs) (key : Nat) : ctxValid b key = ctxValid a key :=
  ctxValid_of_same (sameRegs_of_regs [] h) (fun _ _ => List.not_mem_nil) key
theorem shareNs_of_regs {a b : Dev} (h : b.regs = a.regs) (key : Nat) : shareNs b key = shareNs a key :=
  shareNs_of_same (sameRegs_of_regs [] h) (fun _ _ => List.not_mem_nil) List.not_mem_nil key

/-! ## A round at one engine (R221, R222) -/

/-- What a round start makes of a context whose share is `sh`: the share pays its debt, and the rest is credit. -/
def credited (sh : Nat) (c : CdcCtx) : CdcCtx := if sh ≤ c.debt then { c with credit := 0, debt := c.debt - sh } else { c with credit := sh - c.debt, debt := 0 }
theorem credited_effect (sh : Nat) (c : CdcCtx) : (credited sh c).credit = sh - c.debt ∧ (credited sh c).debt = c.debt - sh := by
  unfold credited
  split
  · next hle => exact ⟨(Nat.sub_eq_zero_of_le hle).symm, rfl⟩
  · next hgt => exact ⟨rfl, (Nat.sub_eq_zero_of_le (Nat.not_le.mp hgt).le).symm⟩
/-- One context gets its credit. -/
def giveCredit (key : Nat) (s : Dev) : Dev := modCtx key (credited (shareNs s key)) s
theorem startRound_eq (e : Nat) (s : Dev) :
    startRound e s = modCdc e (fun c => { c with roundDue := false })
      (bump (Reg.CDC_ROUND_CNT e) 1 (forS ((engKeys e).filter (ctxValid s)) giveCredit s)) := rfl
/-- Giving credit touches the contexts alone. -/
theorem forS_giveCredit_rest (l : List Nat) (s : Dev) : ∃ c, forS l giveCredit s = { s with cctx := c } :=
  forS_rel (fun a b => ∃ c, b = { a with cctx := c }) (fun a => ⟨a.cctx, rfl⟩) (fun _ _ _ => by rintro ⟨c, rfl⟩ ⟨c', rfl⟩; exact ⟨c', rfl⟩)
    l giveCredit (fun _ _ _ => ⟨_, rfl⟩) s
/-- Each listed context gets its share once, and no other changes. -/
theorem ctxOf_forS_giveCredit {l : List Nat} (h : l.Nodup) (key : Nat) (s : Dev) :
    ctxOf (forS l giveCredit s) key = if key ∈ l then credited (shareNs s key) (ctxOf s key) else ctxOf s key := by
  induction l generalizing s with
  | nil => rfl
  | cons k l ih =>
    obtain ⟨hk, hl⟩ := List.nodup_cons.mp h
    have hshare : shareNs (giveCredit k s) key = shareNs s key := shareNs_of_regs rfl key
    have hfirst : forS (k :: l) giveCredit s = forS l giveCredit (giveCredit k s) := rfl
    rw [hfirst, ih hl, hshare, giveCredit, ctxOf_modCtx]
    by_cases hkey : key = k
    · subst hkey
      simp [hk]
    · simp [hkey]

/-- A round at engine `e` counts, and clears its deferred start. -/
theorem rdN_startRound_count (e : Nat) (s : Dev) : rdN (startRound e s) (Reg.CDC_ROUND_CNT e) = (rdN s (Reg.CDC_ROUND_CNT e) + 1) % 2 ^ 32 := by
  obtain ⟨c, hc⟩ := forS_giveCredit_rest ((engKeys e).filter (ctxValid s)) s
  rw [startRound_eq, hc]
  exact rdN_bump_same (Reg.CDC_ROUND_CNT e) 1 { s with cctx := c }
theorem sameRegs_startRound (e : Nat) (s : Dev) : SameRegs [Reg.CDC_ROUND_CNT e] s (startRound e s) := by
  obtain ⟨c, hc⟩ := forS_giveCredit_rest ((engKeys e).filter (ctxValid s)) s
  rw [startRound_eq, hc]
  exact sameRegs_bump (Reg.CDC_ROUND_CNT e) 1 { s with cctx := c }
theorem cdcOf_startRound_other {j e : Nat} (s : Dev) (h : e ≠ j) : cdcOf (startRound j s) e = cdcOf s e := by
  obtain ⟨c, hc⟩ := forS_giveCredit_rest ((engKeys j).filter (ctxValid s)) s
  rw [startRound_eq, hc, cdcOf_modCdc, if_neg h]
  exact cdcOf_congr (bump_cdc _ 1 { s with cctx := c }) e
/-- A valid context of the engine gets its share less its debt; one of another engine keeps what it has. -/
theorem ctxOf_startRound (j key : Nat) (s : Dev) :
    ctxOf (startRound j s) key = if key / 32 = j ∧ ctxValid s key = true then credited (shareNs s key) (ctxOf s key) else ctxOf s key := by
  rw [startRound_eq, ctxOf_modCdc, ctxOf_congr (bump_cctx _ 1 _), ctxOf_forS_giveCredit ((engKeys_nodup j).filter _)]
  simp only [List.mem_filter, mem_engKeys]

/-! ## A round start at every engine (R222) -/

/-- What a round start at another engine leaves of engine `e` and its contexts. -/
abbrev EngineKept (e : Nat) (l : List Nat) (a b : Dev) : Prop :=
  cdcOf b e = cdcOf a e ∧ (∀ key, key / 32 = e → ctxOf b key = ctxOf a key) ∧ SameRegs l a b
/-- The counters of rounds of every engine but `e`. -/
def otherCounters (e : Nat) : List Nat := ((List.range 16).filter (· != e)).flatMap fun j => [Reg.CDC_ROUND_CNT j, Reg.CDC_ROUND_SKIP_CNT j]
theorem mem_otherCounters {e a : Nat} : a ∈ otherCounters e ↔ ∃ j < 16, j ≠ e ∧ (a = Reg.CDC_ROUND_CNT j ∨ a = Reg.CDC_ROUND_SKIP_CNT j) := by
  simp [otherCounters, and_assoc]
theorem notMem_otherCounters_own {e a : Nat} (he : e < 16) (h : a = Reg.CDC_ROUND_CNT e ∨ a = Reg.CDC_ROUND_SKIP_CNT e) : a ∉ otherCounters e := by
  rw [mem_otherCounters]
  rintro ⟨j, hj, hne, heq⟩
  simp only [Reg.CDC_ROUND_CNT, Reg.CDC_ROUND_SKIP_CNT, engBase, dieHalf] at h heq
  omega
theorem ctxCfg_notMem_otherCounters (e g i : Nat) : Reg.CDC_CTX_CFG g i ∉ otherCounters e := by
  rw [mem_otherCounters]
  rintro ⟨j, hj, -, heq⟩
  simp only [Reg.CDC_ROUND_CNT, Reg.CDC_ROUND_SKIP_CNT, Reg.CDC_CTX_CFG, engBase, dieHalf] at heq
  omega
theorem rate_notMem_otherCounters (e : Nat) : Reg.TIDE_RATE ∉ otherCounters e := by
  rw [mem_otherCounters]
  rintro ⟨j, -, -, heq⟩
  simp only [Reg.CDC_ROUND_CNT, Reg.CDC_ROUND_SKIP_CNT, Reg.TIDE_RATE, engBase, dieHalf] at heq
  omega
theorem EngineKept.trans {e : Nat} {l : List Nat} {a b c : Dev} (h : EngineKept e l a b) (k : EngineKept e l b c) : EngineKept e l a c := by
  obtain ⟨hcdc, hctx, hregs⟩ := h
  obtain ⟨kcdc, kctx, kregs⟩ := k
  exact ⟨kcdc.trans hcdc, fun key hk => (kctx key hk).trans (hctx key hk), hregs.trans kregs⟩

theorem roundAt_idle {e : Nat} {s : Dev} (h : (cdcOf s e).busy = none) : roundAt e s = startRound e s := by
  simp [roundAt, h]
theorem roundAt_due {e : Nat} {s : Dev} (h : (cdcOf s e).busy.isSome = true) (hdue : (cdcOf s e).roundDue = true) :
    roundAt e s = bump (Reg.CDC_ROUND_SKIP_CNT e) 1 s := by
  unfold roundAt
  refine (if_neg ?_).trans (if_pos hdue)
  rw [← Option.not_isSome, h]
  decide
theorem roundAt_other {e j : Nat} (s : Dev) (hj : j < 16) (hne : j ≠ e) : EngineKept e (otherCounters e) s (roundAt j s) := by
  have hcnt : [Reg.CDC_ROUND_CNT j] ⊆ otherCounters e := List.cons_subset.mpr ⟨mem_otherCounters.mpr ⟨j, hj, hne, .inl rfl⟩, List.nil_subset _⟩
  have hskip : [Reg.CDC_ROUND_SKIP_CNT j] ⊆ otherCounters e := List.cons_subset.mpr ⟨mem_otherCounters.mpr ⟨j, hj, hne, .inr rfl⟩, List.nil_subset _⟩
  unfold roundAt
  dsimp only
  split
  · refine ⟨cdcOf_startRound_other s hne.symm, fun key hk => ?_, (sameRegs_startRound j s).mono hcnt⟩
    rw [ctxOf_startRound, if_neg fun h => hne (h.1.symm.trans hk)]
  · split
    · exact ⟨cdcOf_congr (bump_cdc _ 1 s) e, fun key _ => ctxOf_congr (bump_cctx _ 1 s) key, (sameRegs_bump _ 1 s).mono hskip⟩
    · exact ⟨by rw [cdcOf_modCdc, if_neg hne.symm], fun _ _ => rfl, sameRegs_of_regs _ rfl⟩
theorem forS_append {α : Type} (l m : List α) (f : α → Dev → Dev) (s : Dev) : forS (l ++ m) f s = forS m f (forS l f s) := List.foldl_append
/-- Of a round start at every engine, only engine `e`'s own touches it. -/
theorem rounds_at_engine {e : Nat} (he : e < 16) (s : Dev) :
    ∃ b, EngineKept e (otherCounters e) s b ∧ EngineKept e (otherCounters e) (roundAt e b) (forS (List.range 16) roundAt s) := by
  have hrefl : ∀ d, EngineKept e (otherCounters e) d d := fun d => ⟨rfl, fun _ _ => rfl, SameRegs.refl _ d⟩
  have hothers : ∀ l : List Nat, (∀ j ∈ l, j < 16 ∧ j ≠ e) → ∀ d, EngineKept e (otherCounters e) d (forS l roundAt d) := fun l hl d =>
    forS_rel _ hrefl (fun _ _ _ => EngineKept.trans) l roundAt (fun j hj d => roundAt_other d (hl j hj).1 (hl j hj).2) d
  obtain ⟨l, m, hsplit⟩ := List.append_of_mem (List.mem_range.mpr he)
  have hnodup := hsplit ▸ List.nodup_range (n := 16)
  have hlt : ∀ j ∈ l ++ e :: m, j < 16 := fun j hj => List.mem_range.mp (hsplit ▸ hj)
  obtain ⟨hnot, -⟩ := List.nodup_cons.mp (List.nodup_middle.mp hnodup)
  rw [hsplit, forS_append]
  refine ⟨forS l roundAt s, hothers l (fun j hj => ⟨hlt j (by simp [hj]), fun h => hnot (by simp [← h, hj])⟩) s, ?_⟩
  exact hothers m (fun j hj => ⟨hlt j (by simp [hj]), fun h => hnot (by simp [← h, hj])⟩) _

/-! ## CODEC_ROUND_START (R53) -/

/-- The device at the moment `t` of its codec round start. -/
def roundStarted (t : Nat) (s : Dev) : Dev := waitUntil t { s with tide := { s.tide with roundDone := true } }
theorem roundStarted_regs (t : Nat) (s : Dev) : (roundStarted t s).regs = s.regs := waitUntil_regs t { s with tide := _ }
theorem ctxOf_roundStarted (t key : Nat) (s : Dev) : ctxOf (roundStarted t s) key = ctxOf s key :=
  ctxOf_congr (waitUntil_cctx t { s with tide := { s.tide with roundDone := true } }) key
theorem cdcOf_roundStarted (t e : Nat) (s : Dev) : cdcOf (roundStarted t s) e = cdcOf s e :=
  cdcOf_congr (waitUntil_cdc t { s with tide := { s.tide with roundDone := true } }) e
theorem roundStarted_effect {t : Nat} (s : Dev) (ht : t < 2 ^ 64) :
    t ≤ (roundStarted t s).time.ns ∧ (roundStarted t s).tide.roundDone = true ∧ SameMem s (roundStarted t s) :=
  ⟨le_waitUntil { s with tide := _ } ht, by rw [roundStarted, waitUntil_tide], sameMem_waitUntil t { s with tide := _ }⟩
theorem codecRoundStart_starts {s : Dev} (hmarked : s.tide.marked = true) (hdone : s.tide.roundDone = false) (hebb : ebbState s ≠ 2) :
    codecRoundStart s = forS (List.range 16) roundAt (roundStarted (codecRoundTime s) s) := by
  unfold codecRoundStart
  refine if_neg ?_
  simp [hmarked, hdone, hebb]
/-- Neither memory nor time differs. -/
abbrev MemTimeKept (a b : Dev) : Prop := SameMem a b ∧ b.tide = a.tide ∧ b.time = a.time
theorem MemTimeKept.trans {a b c : Dev} (h : MemTimeKept a b) (k : MemTimeKept b c) : MemTimeKept a c := by
  obtain ⟨hmem, htide, htime⟩ := h
  obtain ⟨kmem, ktide, ktime⟩ := k
  exact ⟨hmem.trans kmem, ktide.trans htide, ktime.trans htime⟩
theorem memTimeKept_modCdc (e : Nat) (f : Cdc → Cdc) (s : Dev) : MemTimeKept s (modCdc e f s) := ⟨⟨rfl, rfl, rfl, rfl⟩, rfl, rfl⟩
theorem memTimeKept_bump (a n : Nat) (s : Dev) : MemTimeKept s (bump a n s) := ⟨⟨rfl, rfl, rfl, rfl⟩, rfl, rfl⟩
theorem memTimeKept_startRound (e : Nat) (s : Dev) : MemTimeKept s (startRound e s) := by
  obtain ⟨c, hc⟩ := forS_giveCredit_rest ((engKeys e).filter (ctxValid s)) s
  have hctx : MemTimeKept s { s with cctx := c } := ⟨⟨rfl, rfl, rfl, rfl⟩, rfl, rfl⟩
  rw [startRound_eq, hc]
  exact (hctx.trans (memTimeKept_bump _ 1 _)).trans (memTimeKept_modCdc e _ _)
theorem memTimeKept_roundAt (e : Nat) (s : Dev) : MemTimeKept s (roundAt e s) := by
  unfold roundAt
  dsimp only
  split
  · exact memTimeKept_startRound e s
  · split
    · exact memTimeKept_bump _ 1 s
    · exact memTimeKept_modCdc e _ s
theorem memTimeKept_rounds (s : Dev) : MemTimeKept s (forS (List.range 16) roundAt s) :=
  forS_rel MemTimeKept (fun a => ⟨SameMem.refl a, rfl, rfl⟩) (fun _ _ _ => MemTimeKept.trans) _ _ (fun e _ d => memTimeKept_roundAt e d) s

/-- Engine `e`'s own round start, in the terms of the device before the command. -/
theorem codecRoundStart_at_engine {e : Nat} (he : e < 16) {s : Dev} (hmarked : s.tide.marked = true) (hdone : s.tide.roundDone = false)
    (hebb : ebbState s ≠ 2) :
    ∃ b, EngineKept e (otherCounters e) s b ∧ EngineKept e (otherCounters e) (roundAt e b) (codecRoundStart s) := by
  rw [codecRoundStart_starts hmarked hdone hebb]
  generalize codecRoundTime s = t
  obtain ⟨b, hb, hd⟩ := rounds_at_engine he (roundStarted t s)
  have hstart : EngineKept e (otherCounters e) s (roundStarted t s) :=
    ⟨cdcOf_roundStarted t e s, fun key _ => ctxOf_roundStarted t key s, sameRegs_of_regs _ (roundStarted_regs t s)⟩
  exact ⟨b, hstart.trans hb, hd⟩

end Sys2Proof.Machine
end

section
/-! SUPPORT. Selection of a frame (R221, R222): CODEC_SELECT starts a charged frame of a ready context that has credit. -/
set_option autoImplicit false
namespace Sys2Proof.Machine
open Sys2Proof

/-! ## Posting for QP leaves queues, pools and credit alone (R242) -/

/-- Of the codec engines only what their clips have taken differs. -/
abbrev ClipsOnly (a b : Dev) : Prop :=
  b.regs = a.regs ∧ b.cdc = a.cdc ∧ b.time = a.time ∧
    ∀ key, (ctxOf b key).queue = (ctxOf a key).queue ∧ (ctxOf b key).pool = (ctxOf a key).pool ∧ (ctxOf b key).credit = (ctxOf a key).credit
theorem ClipsOnly.refl (a : Dev) : ClipsOnly a a := ⟨rfl, rfl, rfl, fun _ => ⟨rfl, rfl, rfl⟩⟩
theorem ClipsOnly.trans {a b c : Dev} (h : ClipsOnly a b) (k : ClipsOnly b c) : ClipsOnly a c := by
  obtain ⟨hregs, hcdc, htime, hctx⟩ := h
  obtain ⟨kregs, kcdc, ktime, kctx⟩ := k
  refine ⟨kregs.trans hregs, kcdc.trans hcdc, ktime.trans htime, fun key => ?_⟩
  obtain ⟨hq, hp, hc⟩ := hctx key
  obtain ⟨kq, kp, kc⟩ := kctx key
  exact ⟨kq.trans hq, kp.trans hp, kc.trans hc⟩
theorem clipsOnly_modTaken (k n : Nat) (f : Taken → Taken) (s : Dev) : ClipsOnly s (modTaken k n f s) := by
  refine ⟨rfl, rfl, rfl, fun key => ?_⟩
  unfold modTaken modClip
  rw [ctxOf_modCtx]
  split
  · next hkey => exact hkey ▸ ⟨rfl, rfl, rfl⟩
  · exact ⟨rfl, rfl, rfl⟩
theorem clipsOnly_hostPost (r kind : Nat) (body : List Byte) (s : Dev) : ClipsOnly s (hostPost r kind body s) := ⟨rfl, rfl, rfl, fun _ => ⟨rfl, rfl, rfl⟩⟩
theorem clipsOnly_postQp (key : Nat) (s : Dev) : ClipsOnly s (postQp key s) := by
  unfold postQp
  split
  · exact ClipsOnly.refl s
  · split
    · exact ClipsOnly.refl s
    · split
      · exact ClipsOnly.refl s
      · split
        · exact clipsOnly_modTaken _ _ _ s
        · exact (clipsOnly_modTaken _ _ _ s).trans (clipsOnly_hostPost _ _ _ _)
theorem clipsOnly_postQps (s : Dev) : ClipsOnly s (postQps s) :=
  forS_rel ClipsOnly ClipsOnly.refl (fun _ _ _ => ClipsOnly.trans) _ _ (fun key _ d => clipsOnly_postQp key d) s
theorem decodeReady_of_clipsOnly {a b : Dev} (h : ClipsOnly a b) (key : Nat) : decodeReady b key = decodeReady a key := by
  obtain ⟨hregs, -, -, hctx⟩ := h
  obtain ⟨hqueue, hpool, -⟩ := hctx key
  have hN : poolN b key = poolN a key := rf_of_same (sameRegs_of_regs [] hregs) List.not_mem_nil 0 6
  have hfree : freeBufs b key = freeBufs a key := by
    unfold freeBufs bufOf
    rw [hN, hpool]
  unfold decodeReady
  rw [hqueue, hfree]

/-! ## The next ready context (R221) -/

theorem nextCtx_mem {s : Dev} {e k : Nat} {ready : List Nat} (h : nextCtx s e ready = some k) : k ∈ ready := by
  have := List.find?_some h
  simpa using this
/-- The cyclic order passes every context of the engine. -/
theorem nextCtx_isSome {s : Dev} {e key : Nat} {ready : List Nat} (hkey : key / 32 = e) (h : key ∈ ready) : (nextCtx s e ready).isSome = true := by
  unfold nextCtx
  generalize (cdcOf s e).served = v
  rw [List.find?_isSome]
  refine ⟨key, List.mem_map.mpr ⟨(key % 32 + 31 * (v + 1)) % 32, List.mem_range.mpr (Nat.mod_lt _ (by decide)), ?_⟩, by simpa using h⟩
  omega

/-! ## The frame started -/

/-- Engine `e` has begun a frame at `t`, and serves the context of that frame. -/
abbrev FrameBegun (e t : Nat) (d : Dev) : Prop :=
  ((cdcOf d e).busy.map fun b => (b.charged, b.at_)) = some (true, t) ∧ (cdcOf d e).busy.map (·.ctx) = some (cdcOf d e).served
theorem SameRest.cdc {a b : Dev} (h : SameRest a b) : b.cdc = a.cdc := by
  unfold SameRest at h
  rw [h]
theorem loseUnit_cdc (key : Nat) (why : GapReason) (a : Au) (s : Dev) : (loseUnit key why a s).cdc = s.cdc := by
  have hgap : ∀ d : Dev, (gap1 (ctxStream s key) why 0xFF 0xFF a.cap a.untr d).cdc = d.cdc := fun d => (sameRest_emitRec _ _).cdc
  unfold loseUnit ctxCount
  rw [bump_cdc, hgap]
  cases a.post <;> rfl
/-- What becomes of the units behind the head leaves the engines alone. -/
theorem headStart_cdc (key n : Nat) (s : Dev) : (headStart key n s).cdc = s.cdc := by
  induction n generalizing s with
  | zero => rfl
  | succ n ih =>
    unfold headStart
    split
    · rfl
    · split
      · rw [ih, loseUnit_cdc]
        rfl
      · split
        · rfl
        · dsimp only
          split
          · exact hostPost_cdc _ _ _ _
          · rfl
theorem cdcOf_modCdc_same (e : Nat) (f : Cdc → Cdc) (s : Dev) : cdcOf (modCdc e f s) e = f (cdcOf s e) := by
  rw [cdcOf_modCdc, if_pos rfl]
theorem startDecode_begins {s : Dev} {e key : Nat} (hkey : key / 32 = e) (h : decodeReady s key = true) : FrameBegun e (now s) (startDecode key true s) := by
  subst hkey
  unfold decodeReady at h
  unfold startDecode
  split at h
  · next a q hq =>
    simp only [Bool.and_eq_true] at h
    obtain ⟨⟨⟨-, hhdr⟩, -⟩, -⟩ := h
    obtain ⟨p, hp⟩ := Option.isSome_iff_exists.mp hhdr
    rw [hq]
    dsimp only
    rw [hp]
    dsimp only
    unfold FrameBegun headNow
    rw [cdcOf_congr (headStart_cdc key 9 _), cdcOf_modCdc_same]
    exact ⟨rfl, rfl⟩
  · cases h
theorem startEncode_begins {s : Dev} {e key : Nat} (hkey : key / 32 = e) (h : encodeReady s key = true) : FrameBegun e (now s) (startEncode key true s) := by
  subst hkey
  unfold encodeReady at h
  unfold startEncode
  split at h
  · cases h
  · next c hc =>
    split at h
    · cases h
    · next t ht =>
      unfold FrameBegun
      rw [cdcOf_modCdc_same]
      exact ⟨rfl, rfl⟩

/-- Whether a context has a frame that can start. -/
def ctxReady (s : Dev) (k : Nat) : Bool := ctxValid s k && if ctxEncodes s k then encodeReady s k else decodeReady s k
/-- The engine's ready contexts that have credit. -/
def readyWithCredit (s : Dev) (e : Nat) : List Nat := ((engKeys e).filter (ctxReady s)).filter fun k => decide (0 < (ctxOf s k).credit)
/-- A context's frame starts, in its direction. -/
def startFrame (k : Nat) (charged : Bool) (s : Dev) : Dev := if ctxEncodes s k then startEncode k charged s else startDecode k charged s
theorem mem_readyWithCredit {s : Dev} {e k : Nat} : k ∈ readyWithCredit s e ↔ k / 32 = e ∧ ctxReady s k = true ∧ 0 < (ctxOf s k).credit := by
  simp only [readyWithCredit, List.mem_filter, mem_engKeys, decide_eq_true_eq, and_assoc]
theorem codecSelect_credit {s : Dev} {e k : Nat} (hserve : mayServe s e = true) (h : nextCtx (postQps s) e (readyWithCredit (postQps s) e) = some k) :
    codecSelect e s = startFrame k true (postQps s) := by
  unfold readyWithCredit ctxReady at h
  simp only [codecSelect, hserve, h]
  rfl
theorem startFrame_begins {s : Dev} {e k : Nat} (hkey : k / 32 = e) (h : ctxReady s k = true) : FrameBegun e (now s) (startFrame k true s) := by
  unfold ctxReady at h
  rw [Bool.and_eq_true] at h
  obtain ⟨-, hready⟩ := h
  unfold startFrame
  split
  · next henc => exact startEncode_begins hkey (by simpa [henc] using hready)
  · next hdec => exact startDecode_begins hkey (by simpa [hdec] using hready)
/-- CODEC_SELECT while a decode context is ready and has credit. -/
theorem codecSelect_begins {s : Dev} {e key : Nat} (hserve : mayServe s e = true) (hkey : key / 32 = e) (hvalid : ctxValid s key = true)
    (hdir : ctxEncodes s key = false) (hready : decodeReady s key = true) (hcredit : 0 < (ctxOf s key).credit) : FrameBegun e (now s) (codecSelect e s) := by
  have hposted := clipsOnly_postQps s
  generalize hp : postQps s = p at hposted
  have hpdecode := decodeReady_of_clipsOnly hposted key
  obtain ⟨hregs, -, htime, hctx⟩ := hposted
  obtain ⟨-, -, hpcredit⟩ := hctx key
  have hpdir : ctxEncodes p key = false := by
    unfold ctxEncodes at hdir ⊢
    rwa [ctxCfg_of_same (sameRegs_of_regs [] hregs) (fun _ _ => List.not_mem_nil)]
  have hpready : ctxReady p key = true := by
    simp [ctxReady, hpdir, ctxValid_of_regs hregs, hvalid, hpdecode, hready]
  have hmem : key ∈ readyWithCredit p e := mem_readyWithCredit.mpr ⟨hkey, hpready, hpcredit ▸ hcredit⟩
  obtain ⟨k, hk⟩ := Option.isSome_iff_exists.mp (nextCtx_isSome (s := p) hkey hmem)
  obtain ⟨hke, hkready, -⟩ := mem_readyWithCredit.mp (nextCtx_mem hk)
  have hnow : now p = now s := congrArg Time.ns htime
  rw [codecSelect_credit hserve (hp.symm ▸ hk), hp, ← hnow]
  exact startFrame_begins hke hkready

/-- Settles O16: a round start touches each engine once, and a selection finds a ready context with credit. -/
theorem codecRoundsGiveCredit : Obligations.CodecRoundsGiveCredit := by
  unfold Obligations.CodecRoundsGiveCredit
  intro s e hawake
  have hcntOwn : Reg.CDC_ROUND_CNT e ∉ otherCounters e := notMem_otherCounters_own e.isLt (.inl rfl)
  have hskipOwn : Reg.CDC_ROUND_SKIP_CNT e ∉ otherCounters e := notMem_otherCounters_own e.isLt (.inr rfl)
  refine ⟨fun hmarked hdone hebb htime => ?_, fun x hmarked hdone hebb hidle hvalid => ?_, fun x hserve hvalid hdir hready hcredit => ?_⟩
  · refine Does.of_onDev (f := codecRoundStart) hawake rfl ?_
    obtain ⟨b, ⟨hbcdc, -, hbregs⟩, -, -, hdregs⟩ := codecRoundStart_at_engine e.isLt hmarked hdone hebb
    obtain ⟨hmoment, hround, hmem⟩ := roundStarted_effect s.dev htime
    obtain ⟨hkeptMem, hkeptTide, hkeptTime⟩ := memTimeKept_rounds (roundStarted (codecRoundTime s.dev) s.dev)
    rw [← codecRoundStart_starts hmarked hdone hebb] at hkeptMem hkeptTide hkeptTime
    refine ⟨by rw [hkeptTide, hround], by rw [hkeptTime]; exact hmoment, fun hidle => ?_, fun hbusy hdue => ?_, hmem.trans hkeptMem⟩
    · rw [hdregs _ hcntOwn, roundAt_idle (hbcdc ▸ hidle), rdN_startRound_count, hbregs _ hcntOwn]
    · rw [hdregs _ hskipOwn, roundAt_due (hbcdc ▸ hbusy) (hbcdc ▸ hdue), rdN_bump_same, hbregs _ hskipOwn]
  · refine Does.of_onDev (f := codecRoundStart) hawake rfl ?_
    obtain ⟨b, ⟨hbcdc, hbctx, hbregs⟩, -, hdctx, -⟩ := codecRoundStart_at_engine e.isLt hmarked hdone hebb
    have hkey : (e.val * 32 + x.val) / 32 = e.val := by omega
    have hcfg := ctxCfg_notMem_otherCounters e.val
    rw [hdctx _ hkey, roundAt_idle (hbcdc ▸ hidle), ctxOf_startRound, if_pos ⟨hkey, (ctxValid_of_same hbregs hcfg _).trans hvalid⟩, hbctx _ hkey,
      shareNs_of_same hbregs hcfg (rate_notMem_otherCounters e.val)]
    exact credited_effect _ _
  · exact Does.of_onDev (f := codecSelect e) hawake rfl (codecSelect_begins hserve (by omega) hvalid hdir hready hcredit)

end Sys2Proof.Machine
end

section
/-! SUPPORT. The bit-serial DPU (R59 to R62): what its bits and nibbles spell, and the sum of a pass as a sum of products. -/
set_option autoImplicit false
namespace Sys2Proof.Machine
open Sys2Proof

/-! ## Sums in loop order -/

theorem foldl_add_range (f : Nat → Int) (c : Int) (n : Nat) :
    (List.range n).foldl (fun s i => s + f i) c = c + ∑ i ∈ Finset.range n, f i := by
  induction n with
  | zero => simp
  | succ n ih => simp [List.range_succ, Finset.sum_range_succ, ih, add_assoc]

/-- The cells act together (R61): the products of bits and nibbles, summed over the 32 cells. -/
theorem dpuCycle_eq_sum (a w : Nat) (qa qw : List Int) (j b : Nat) :
    dpuCycle a w qa qw j b = ∑ i ∈ Finset.range 32,
      ((if b + 1 = a then -1 else 1) * actBit (qa.getD i 0) a b * 2 ^ b) * (weightNib w (qw.getD i 0) j * 2 ^ (4 * j)) := by
  have hsign (p : Int) : (if b + 1 = a then -p else p) = (if b + 1 = a then -1 else 1) * p := by split <;> simp
  simp only [dpuCycle, foldl_add_range, zero_add]
  rw [hsign, Finset.mul_sum, Finset.sum_mul]
  exact Finset.sum_congr rfl fun i _ => by rw [pow_add]; ring

/-! ## What the bits of an activation spell (R60) -/

/-- The value that an activation's bits spell, the MSB's negated. -/
def actValue (a : Nat) (q : Int) : Int := ∑ b ∈ Finset.range a, (if b + 1 = a then -1 else 1) * actBit q a b * 2 ^ b

theorem sum_bits_eq_mod (u k : Nat) : ∑ b ∈ Finset.range k, u / 2 ^ b % 2 * 2 ^ b = u % 2 ^ k := by
  induction k with
  | zero => simp [Nat.mod_one]
  | succ k ih => rw [Finset.sum_range_succ, ih, Nat.mod_pow_succ, Nat.mul_comm]

theorem actValue_succ (k : Nat) (q : Int) :
    actValue (k + 1) q = ((ofSigned q (k + 1) % 2 ^ k : Nat) : Int) - ((ofSigned q (k + 1) / 2 ^ k % 2 * 2 ^ k : Nat) : Int) := by
  have hlow : ∀ b ∈ Finset.range k, (if b + 1 = k + 1 then -1 else 1) * actBit q (k + 1) b * 2 ^ b =
      ((ofSigned q (k + 1) / 2 ^ b % 2 * 2 ^ b : Nat) : Int) := fun b hb => by
    have hne : b + 1 ≠ k + 1 := by have := Finset.mem_range.1 hb; omega
    rw [if_neg hne]; simp [actBit]
  rw [actValue, Finset.sum_range_succ, Finset.sum_congr rfl hlow, ← Nat.cast_sum, sum_bits_eq_mod, if_pos rfl]
  push_cast [actBit]
  ring

theorem ofSigned_of_nonneg {q : Int} {w : Nat} (h0 : 0 ≤ q) (h : q < 2 ^ w) : (ofSigned q w : Int) = q := by
  rw [ofSigned, Int.emod_eq_of_lt h0 h, Int.toNat_of_nonneg h0]

theorem ofSigned_of_neg {q : Int} {w : Nat} (h0 : q < 0) (h : -(2 ^ w) ≤ q) : (ofSigned q w : Int) = q + 2 ^ w := by
  have hmod : q % 2 ^ w = q + 2 ^ w := by rw [← Int.add_emod_right, Int.emod_eq_of_lt] <;> omega
  rw [ofSigned, hmod, Int.toNat_of_nonneg (by omega)]

/-- An activation within its width is what its bits spell (R60). -/
theorem actValue_eq {a : Nat} {q : Int} (ha : 0 < a) (hlo : -(2 ^ (a - 1)) ≤ q) (hhi : q < 2 ^ (a - 1)) : actValue a q = q := by
  obtain ⟨k, rfl⟩ : ∃ k, a = k + 1 := ⟨a - 1, by omega⟩
  rw [Nat.add_sub_cancel] at hlo hhi
  have hpow : (2 : Int) ^ (k + 1) = 2 ^ k + 2 ^ k := by ring
  rw [actValue_succ]
  generalize hu : ofSigned q (k + 1) = u
  rcases lt_or_ge q 0 with hneg | hpos
  · have huq : (u : Int) = q + 2 ^ (k + 1) := hu ▸ ofSigned_of_neg hneg (by omega)
    have hone : u / 2 ^ k = 1 := Nat.div_eq_of_lt_le (by zify; omega) (by zify; omega)
    have hsplit := Nat.mod_add_div u (2 ^ k)
    rw [hone] at hsplit ⊢
    zify at hsplit
    push_cast
    omega
  · have huq : (u : Int) = q := hu ▸ ofSigned_of_nonneg hpos (by omega)
    have hlt : u < 2 ^ k := by zify; omega
    rw [Nat.mod_eq_of_lt hlt, Nat.div_eq_of_lt hlt]
    simpa using huq

/-! ## What the nibbles of a weight spell (Table 3-1) -/

theorem nibbles_of_byte {q : Int} (hlo : -128 ≤ q) (hhi : q < 128) : weightNib 8 q 0 + weightNib 8 q 1 * 16 = q := by
  simp only [weightNib, toSigned, ofSigned, if_true]
  omega

theorem sum_weightNib {w : Nat} {q : Int} (hw : w ∈ [1, 2, 4, 8]) (hlo : -(2 ^ (w - 1)) ≤ q) (hhi : q < 2 ^ (w - 1)) :
    ∑ j ∈ Finset.range (ceilDiv w 4), weightNib w q j * 2 ^ (4 * j) = weightVal w q := by
  fin_cases hw
  · simp [ceilDiv, weightNib]
  · simp [ceilDiv, weightNib]
  · simp [ceilDiv, weightNib]
  · simpa [ceilDiv, Finset.sum_range_succ, weightVal] using nibbles_of_byte hlo hhi

theorem abs_weightVal_le {w : Nat} {q : Int} (hw : w ∈ [1, 2, 4, 8]) (hlo : -(2 ^ (w - 1)) ≤ q) (hhi : q < 2 ^ (w - 1)) :
    |weightVal w q| ≤ 2 ^ 7 := by
  have hpow : (2 : Int) ^ (w - 1) ≤ 2 ^ 7 := pow_le_pow_right₀ (by norm_num) (by fin_cases hw <;> simp)
  unfold weightVal
  split
  · split <;> norm_num
  · exact abs_le.2 ⟨by omega, by omega⟩

/-! ## The DPU sum (R61, R62) -/

theorem dpuSum_eq_sum (a w : Nat) (qa qw : List Int) :
    dpuSum a w qa qw = ∑ i ∈ Finset.range 32, actValue a (qa.getD i 0) *
      ∑ j ∈ Finset.range (ceilDiv w 4), weightNib w (qw.getD i 0) j * 2 ^ (4 * j) := by
  simp only [dpuSum, foldl_add_range, zero_add, dpuCycle_eq_sum, actValue, Finset.sum_mul_sum]
  rw [Finset.sum_comm, Finset.sum_congr rfl fun b _ => Finset.sum_comm, Finset.sum_comm]

theorem dpuSum_exact {a w : Nat} {qa qw : List Int} (ha : 0 < a) (hw : w ∈ [1, 2, 4, 8])
    (hact : ∀ i < 32, -(2 ^ (a - 1)) ≤ qa.getD i 0 ∧ qa.getD i 0 < 2 ^ (a - 1))
    (hwt : ∀ i < 32, -(2 ^ (w - 1)) ≤ qw.getD i 0 ∧ qw.getD i 0 < 2 ^ (w - 1)) :
    dpuSum a w qa qw = ∑ i ∈ Finset.range 32, qa.getD i 0 * weightVal w (qw.getD i 0) := by
  rw [dpuSum_eq_sum]
  refine Finset.sum_congr rfl fun i hi => ?_
  obtain ⟨halo, hahi⟩ := hact i (Finset.mem_range.1 hi)
  obtain ⟨hwlo, hwhi⟩ := hwt i (Finset.mem_range.1 hi)
  rw [actValue_eq ha halo hahi, sum_weightNib hw hwlo hwhi]

/-- 32 products, each of magnitude at most 2^15 × 2^7 (R62). -/
theorem abs_dotProduct_le {a w : Nat} {qa qw : List Int} (ha : a ≤ 16) (hw : w ∈ [1, 2, 4, 8])
    (hact : ∀ i < 32, -(2 ^ (a - 1)) ≤ qa.getD i 0 ∧ qa.getD i 0 < 2 ^ (a - 1))
    (hwt : ∀ i < 32, -(2 ^ (w - 1)) ≤ qw.getD i 0 ∧ qw.getD i 0 < 2 ^ (w - 1)) :
    |∑ i ∈ Finset.range 32, qa.getD i 0 * weightVal w (qw.getD i 0)| ≤ 2 ^ 27 := by
  have hpow : (2 : Int) ^ (a - 1) ≤ 2 ^ 15 := pow_le_pow_right₀ (by norm_num) (by omega)
  have hterm : ∀ i ∈ Finset.range 32, |qa.getD i 0 * weightVal w (qw.getD i 0)| ≤ 2 ^ 15 * 2 ^ 7 := fun i hi => by
    obtain ⟨halo, hahi⟩ := hact i (Finset.mem_range.1 hi)
    obtain ⟨hwlo, hwhi⟩ := hwt i (Finset.mem_range.1 hi)
    rw [abs_mul]
    exact mul_le_mul (abs_le.2 ⟨by omega, by omega⟩) (abs_weightVal_le hw hwlo hwhi) (abs_nonneg _) (by norm_num)
  calc |∑ i ∈ Finset.range 32, qa.getD i 0 * weightVal w (qw.getD i 0)|
      ≤ ∑ i ∈ Finset.range 32, |qa.getD i 0 * weightVal w (qw.getD i 0)| := Finset.abs_sum_le_sum_abs _ _
    _ ≤ ∑ _i ∈ Finset.range 32, 2 ^ 15 * 2 ^ 7 := Finset.sum_le_sum hterm
    _ = 2 ^ 27 := by norm_num

theorem getD_of_forall {p : Int → Prop} {l : List Int} {n : Nat} (h : ∀ q ∈ l, p q) (hl : l.length = n) : ∀ i < n, p (l.getD i 0) :=
  fun i hi => by
    rw [List.getD_eq_getElem _ _ (hl ▸ hi)]
    exact h _ (List.getElem_mem _)

/-- Settles O20: each cell's bits and nibbles spell its two factors, so the loop sums 32 products. -/
theorem dpuSumIsExact : Obligations.DpuSumIsExact := by
  unfold Obligations.DpuSumIsExact
  refine ⟨fun a w qa qw ha hw hqa hqw hla hlw => ?_, by decide⟩
  obtain ⟨hpos, hle16⟩ : 0 < a ∧ a ≤ 16 := by fin_cases ha <;> simp
  have hact := getD_of_forall hqa hla
  have hwt := getD_of_forall hqw hlw
  have hsum := dpuSum_exact hpos hw hact hwt
  have hle := abs_dotProduct_le hle16 hw hact hwt
  rw [← hsum] at hle
  obtain ⟨hlo, hhi⟩ := abs_le.1 hle
  exact ⟨hsum, by omega, by omega, by omega⟩

end Sys2Proof.Machine
end

section
/-! SUPPORT. Rounding into FP32 and conversion to block formats (R65, R68, R69, R71, R73): results stay in range. -/
set_option autoImplicit false
namespace Sys2Proof.Machine
open Sys2Proof

/-! ## Rounding a mantissa (R72) -/

theorem rneShift_le (m k : Nat) : rneShift m k ≤ m / 2 ^ k + 1 := by
  simp only [rneShift]
  split
  · rfl
  · split <;> omega

theorem le_rneShift (m k : Nat) : m / 2 ^ k ≤ rneShift m k := by
  simp only [rneShift]
  split
  · omega
  · split <;> omega

theorem roundMant_bounds {p m : Nat} (hp : 0 < p) (hm : m ≠ 0) : 0 < (roundMant p m).1 ∧ (roundMant p m).1 < 2 ^ p := by
  have hlt : m < 2 ^ (Nat.log2 m + 1) := Nat.lt_log2_self
  have hle : 2 ^ Nat.log2 m ≤ m := Nat.log2_self_le hm
  have hhalf : 2 ^ p = 2 * 2 ^ (p - 1) := by rw [← pow_succ', Nat.sub_add_cancel hp]
  have hpow : 0 < 2 ^ (p - 1) := Nat.two_pow_pos _
  simp only [roundMant]
  split
  case isTrue hshort => exact ⟨Nat.pos_of_ne_zero hm, hlt.trans_le (Nat.pow_le_pow_right two_pos hshort)⟩
  case isFalse hlong =>
    generalize hk : Nat.log2 m + 1 - p = k
    have htop : m / 2 ^ k < 2 ^ p := Nat.div_lt_of_lt_mul (by rwa [← pow_add, show k + p = Nat.log2 m + 1 by omega])
    have hlow : 2 ^ (p - 1) ≤ m / 2 ^ k :=
      (Nat.le_div_iff_mul_le (Nat.two_pow_pos k)).2 (by rwa [← pow_add, show p - 1 + k = Nat.log2 m by omega])
    have hup := rneShift_le m k
    have hdown := le_rneShift m k
    split <;> (dsimp only; omega)

/-! ## FP32 results (R69, R71) -/

/-- A result that is zero or normal, raises no NUM_NONFINITE, and is the largest finite value of its sign where it raises NUM_SAT. -/
structure Contained32 (r : Fr) : Prop where
  word : r.v < 2 ^ 32
  finite : bits r.v 23 8 ≠ 255
  normal : bits r.v 23 8 = 0 → bits r.v 0 23 = 0
  quiet : r.fl.nonfin = false
  saturated : r.fl.sat = true → bits r.v 0 31 = max32

theorem b2n_le (b : Bool) : b2n b ≤ 1 := by cases b <;> decide

theorem signed32_lt {neg : Bool} {n : Nat} (hn : n < 2 ^ 31) : signed32 neg n < 2 ^ 32 := by
  have := b2n_le neg
  unfold signed32; omega

/-- The sign of a word lies above its exponent and fraction (Table 3-4). -/
theorem bits_signed32 (neg : Bool) (n : Nat) {lo len : Nat} (h : lo + len ≤ 31) : bits (signed32 neg n) lo len = bits n lo len := by
  rw [signed32, ← bits_mod_two_pow _ 31 _ _ h, Nat.mul_add_mod_self_right, bits_mod_two_pow _ 31 _ _ h]

theorem contained32_zero (neg : Bool) : Contained32 ⟨signed32 neg 0, {}⟩ where
  word := signed32_lt (by decide)
  finite := by rw [bits_signed32 _ _ (by decide)]; decide
  normal _ := by rw [bits_signed32 _ _ (by decide)]; decide
  quiet := rfl
  saturated h := by contradiction

theorem contained32_max (neg : Bool) : Contained32 ⟨signed32 neg max32, { sat := true }⟩ where
  word := signed32_lt (by decide)
  finite := by rw [bits_signed32 _ _ (by decide)]; decide
  normal h := by rw [bits_signed32 _ _ (by decide)] at h; contradiction
  quiet := rfl
  saturated _ := by rw [bits_signed32 _ _ (by decide)]; decide

theorem bits_exponent {ex fr : Nat} (hex : ex < 256) (hfr : fr < 2 ^ 23) : bits (ex * 2 ^ 23 + fr) 23 8 = ex := by
  unfold bits; omega

theorem contained32_normal (neg : Bool) {ex fr : Nat} (hpos : 0 < ex) (hex : ex < 255) (hfr : fr < 2 ^ 23) :
    Contained32 ⟨signed32 neg (ex * 2 ^ 23 + fr), {}⟩ where
  word := signed32_lt (by omega)
  finite := by rw [bits_signed32 _ _ (by decide), bits_exponent (by omega) hfr]; omega
  normal h := by rw [bits_signed32 _ _ (by decide), bits_exponent (by omega) hfr] at h; omega
  quiet := rfl
  saturated h := by contradiction

/-- A rounded mantissa, its leading one moved to bit 23 and dropped, fits the fraction. -/
theorem fraction_lt {q : Nat} (hpos : 0 < q) (hq : q < 2 ^ 24) : q * 2 ^ (23 - Nat.log2 q) - 2 ^ 23 < 2 ^ 23 := by
  have hlog : Nat.log2 q < 24 := (Nat.log2_lt hpos.ne').2 hq
  have hlt : q * 2 ^ (23 - Nat.log2 q) < 2 ^ (Nat.log2 q + 1) * 2 ^ (23 - Nat.log2 q) :=
    Nat.mul_lt_mul_of_pos_right Nat.lt_log2_self (Nat.two_pow_pos _)
  rw [← pow_add, show Nat.log2 q + 1 + (23 - Nat.log2 q) = 24 by omega] at hlt
  omega

theorem contained32_pack32 (neg : Bool) (m : Nat) (e : Int) : Contained32 (pack32 neg m e) := by
  simp only [pack32]
  split
  case isTrue => exact contained32_zero neg
  case isFalse hm =>
    obtain ⟨hpos, hlt⟩ := roundMant_bounds (p := 24) (by decide) hm
    split
    case isTrue => exact contained32_max neg
    case isFalse htop =>
      split
      case isTrue => exact contained32_zero neg
      case isFalse hflush => exact contained32_normal neg (by omega) (by omega) (fraction_lt hpos hlt)

/-! ## Sums and products of finite operands -/

theorem dec32_finite {a : Nat} (ha : bits a 23 8 ≠ 255) : ∃ n m e, dec32 a = .fin n m e := by
  simp only [dec32, if_neg ha]
  split
  · exact ⟨_, _, _, rfl⟩
  · exact ⟨_, _, _, rfl⟩

theorem nonfinOf_finite {a : Nat} (ha : bits a 23 8 ≠ 255) : nonfinOf a = {} := by simp [nonfinOf, ha]

theorem NumFlags.or_none (f : NumFlags) : f.or {} = f := by simp [NumFlags.or]

theorem fin32_finite {a b : Nat} (ha : bits a 23 8 ≠ 255) (hb : bits b 23 8 ≠ 255) (x : Fl) : fin32 [a, b] x = enc32 x := by
  simp only [fin32, List.foldl_cons, List.foldl_nil, nonfinOf_finite ha, nonfinOf_finite hb, NumFlags.or_none]

theorem addFl_finite (n₁ n₂ : Bool) (m₁ m₂ : Nat) (e₁ e₂ : Int) : ∃ n m e, addFl (.fin n₁ m₁ e₁) (.fin n₂ m₂ e₂) = .fin n m e := by
  simp only [addFl]
  split
  · exact ⟨_, _, _, rfl⟩
  · exact ⟨_, _, _, rfl⟩

theorem contained32_fin32 {a b : Nat} (ha : bits a 23 8 ≠ 255) (hb : bits b 23 8 ≠ 255) {x : Fl} (hx : ∃ n m e, x = .fin n m e) :
    Contained32 (fin32 [a, b] x) := by
  obtain ⟨n, m, e, rfl⟩ := hx
  rw [fin32_finite ha hb]
  exact contained32_pack32 n m e

theorem contained32_of_finite {a b : Nat} {r : Fr} (ha : bits a 23 8 ≠ 255) (hb : bits b 23 8 ≠ 255)
    (hr : r = add32 a b ∨ r = sub32 a b ∨ r = mul32 a b) : Contained32 r := by
  obtain ⟨n₁, m₁, e₁, hda⟩ := dec32_finite ha
  obtain ⟨n₂, m₂, e₂, hdb⟩ := dec32_finite hb
  rcases hr with rfl | rfl | rfl
  · exact contained32_fin32 ha hb (hda ▸ hdb ▸ addFl_finite ..)
  · exact contained32_fin32 ha hb (hda ▸ hdb ▸ addFl_finite ..)
  · exact contained32_fin32 ha hb (hda ▸ hdb ▸ ⟨_, _, _, rfl⟩)

/-! ## Conversion to BXn (R65, R73) -/

theorem clampI_bounds (i : Int) {lo hi : Int} (h : lo ≤ hi) : lo ≤ clampI i lo hi ∧ clampI i lo hi ≤ hi := by
  unfold clampI
  split
  · omega
  · split <;> omega

theorem toBx_exponent_le (n : Nat) (xs : List Nat) : (toBx n xs).1.e ≤ 254 := by
  simp only [toBx]
  exact Int.toNat_le.2 (clampI_bounds _ (by decide)).2

theorem toBx_length (n : Nat) (xs : List Nat) : (toBx n xs).1.q.length = xs.length := by simp [toBx]

theorem toBx_element_bounds (n : Nat) (xs : List Nat) : ∀ q ∈ (toBx n xs).1.q, -(2 ^ (n - 1)) ≤ q ∧ q < 2 ^ (n - 1) := by
  intro q hq
  obtain ⟨x, -, rfl⟩ := List.mem_map.1 hq
  have hpow : (0 : Int) < 2 ^ (n - 1) := by positivity
  obtain ⟨hlo, hhi⟩ := clampI_bounds _ (show -(2 ^ (n - 1)) ≤ (2 ^ (n - 1) - 1 : Int) by omega)
  exact ⟨hlo, Int.lt_of_le_sub_one hhi⟩

theorem toBx_nonfinite {n x : Nat} {xs : List Nat} (hx : x ∈ xs) (h : bits x 23 8 = 255) : (toBx n xs).2.nonfin = true :=
  List.any_eq_true.2 ⟨x, hx, by simp [h]⟩

theorem toBx1_element (e : Nat) (xs : List Nat) : ∀ q ∈ (toBx1 e xs).1.q, q = 0 ∨ q = -1 := by
  intro q hq
  obtain ⟨x, -, rfl⟩ := List.mem_map.1 hq
  split
  · exact .inr rfl
  · exact .inl rfl

/-- Settles O21: every finite result is packed as a zero, a normal or a saturated word, and every element and exponent of a pip is clamped. -/
theorem sumsAndConversionsStayInRange : Obligations.SumsAndConversionsStayInRange := by
  unfold Obligations.SumsAndConversionsStayInRange
  refine ⟨fun a b r ha hb hr => ?_, fun n xs _ => ?_, toBx1_element⟩
  · obtain ⟨hword, hfinite, hnormal, hquiet, hsat⟩ := contained32_of_finite ha hb hr
    exact ⟨hword, hfinite, hnormal, hquiet, hsat⟩
  · exact ⟨toBx_exponent_le n xs, toBx_length n xs, toBx_element_bounds n xs, fun ⟨_, hx, h⟩ => toBx_nonfinite hx h⟩

end Sys2Proof.Machine
end

section
/-! SUPPORT. The cores and their registers: what an update of a core leaves of registers and memories, and what an update of registers leaves of a core. -/
set_option autoImplicit false
namespace Sys2Proof.Machine
open Sys2Proof

/-! ## A core -/

theorem coreOf_congr {a b : Dev} (h : b.cores = a.cores) (k : Nat) : coreOf b k = coreOf a k := by
  unfold coreOf
  rw [h]
@[simp] theorem coreOf_modCore_same (k : Nat) (f : Core → Core) (s : Dev) : coreOf (modCore k f s) k = f (coreOf s k) := mget_mset_same _ _ _ _
@[simp] theorem coreOf_wrN (a n : Nat) (s : Dev) (k : Nat) : coreOf (wrN a n s) k = coreOf s k := coreOf_congr (wrN_cores a n s) k
@[simp] theorem coreOf_wf (a lo len v : Nat) (s : Dev) (k : Nat) : coreOf (wf a lo len v s) k = coreOf s k := coreOf_congr (wf_cores a lo len v s) k
@[simp] theorem coreOf_setB (a i : Nat) (v : Bool) (s : Dev) (k : Nat) : coreOf (setB a i v s) k = coreOf s k := coreOf_congr (setB_cores a i v s) k
@[simp] theorem coreOf_bump (a n : Nat) (s : Dev) (k : Nat) : coreOf (bump a n s) k = coreOf s k := coreOf_congr (bump_cores a n s) k
@[simp] theorem coreOf_bump16 (a lo n : Nat) (s : Dev) (k : Nat) : coreOf (bump16 a lo n s) k = coreOf s k := coreOf_congr (bump16_cores a lo n s) k
@[simp] theorem coreOf_bump64 (a n : Nat) (s : Dev) (k : Nat) : coreOf (bump64 a n s) k = coreOf s k := coreOf_congr (bump64_cores a n s) k
@[simp] theorem coreOf_raise (code unit info : Nat) (s : Dev) (k : Nat) : coreOf (raise code unit info s) k = coreOf s k :=
  coreOf_congr (raise_cores code unit info s) k
theorem SameRest.coreOf {a b : Dev} (h : SameRest a b) (k : Nat) : coreOf b k = coreOf a k := by
  unfold SameRest at h
  exact coreOf_congr (by rw [h]) k

theorem rdN_congr {a b : Dev} (h : b.regs = a.regs) (x : Nat) : rdN b x = rdN a x := sameRegs_of_regs [] h x List.not_mem_nil
theorem rdN_modCore (k a : Nat) (f : Core → Core) (s : Dev) : rdN (modCore k f s) a = rdN s a := rdN_congr (modCore_regs k f s) a
@[simp] theorem rf_modCore (k a lo len : Nat) (f : Core → Core) (s : Dev) : rf (modCore k f s) a lo len = rf s a lo len := by
  rw [rf, rdN_modCore, rf]
@[simp] theorem tst_modCore (k a i : Nat) (f : Core → Core) (s : Dev) : tst (modCore k f s) a i = tst s a i := by
  rw [tst, rdN_modCore, tst]
theorem sameRegs_modCore (l : List Nat) (k : Nat) (f : Core → Core) (s : Dev) : SameRegs l s (modCore k f s) := sameRegs_of_regs l (modCore_regs k f s)
theorem sameMem_modCore (k : Nat) (f : Core → Core) (s : Dev) : SameMem s (modCore k f s) := ⟨rfl, rfl, rfl, rfl⟩
theorem sameMem_wf (a lo len v : Nat) (s : Dev) : SameMem s (wf a lo len v s) := sameMem_wrN a _ s
theorem sameMem_setB (a i : Nat) (v : Bool) (s : Dev) : SameMem s (setB a i v s) := sameMem_wrN a _ s
theorem sameRest_wf (a lo len v : Nat) (s : Dev) : SameRest s (wf a lo len v s) := sameRest_wrN a _ s

/-- A bit outside a field that is set (R2). -/
theorem tst_wf_disj (a lo len v i : Nat) (s : Dev) (h : lo + len ≤ 32) (hd : i < lo ∨ lo + len ≤ i) : tst (wf a lo len v s) a i = tst s a i := by
  rw [tst, rdN_wf_same _ _ _ _ _ h, bitOf_eq, testBit_putBits, tst, bitOf_eq]
  rcases hd with hlow | hhigh
  · rw [if_pos hlow]
  · rw [if_neg (by omega), if_neg (by omega)]

end Sys2Proof.Machine
end

section
/-! SUPPORT. Weight rows (R93 to R97): the write of a row, the loader's next position, and the row that was held. -/
set_option autoImplicit false
namespace Sys2Proof.Machine
open Sys2Proof

/-- The weights that the shadow of a row holds. -/
abbrev shadowWeights (s : Dev) (k r : Nat) : List Pip := mget (fun _ => []) (coreOf s k).cx.shW r
/-- The weights that a row acts with. -/
abbrev activeWeights (s : Dev) (k r : Nat) : List Pip := mget (fun _ => []) (coreOf s k).cx.acW r

/-! ## The loader's position (R93, R94) -/

/-- The core whose loader begins with row `r`. -/
def loadingRow (r : Nat) (c : Core) : Core := { c with cx := { c.cx with shSt := mset (fun _ => 0) c.cx.shSt r 1 } }
/-- The loader's position shown in ARR_STATUS after row `r`. -/
def rowShown (k r : Nat) (more : Bool) (s : Dev) : Dev := wf (Reg.ARR_STATUS k) 12 6 (if more then r + 1 else 32) s

theorem nextRow_opens {k r : Nat} {more : Bool} {s : Dev} (h : more = true ∧ shadowOf s k (r + 1) = 0) :
    nextRow k r more s = modCore k (loadingRow (r + 1)) (rowShown k r more s) :=
  if_pos (by simpa [shadowOf] using h)
theorem nextRow_stays {k r : Nat} {more : Bool} {s : Dev} (h : ¬(more = true ∧ shadowOf s k (r + 1) = 0)) : nextRow k r more s = rowShown k r more s :=
  if_neg (by simpa [shadowOf] using h)

/-- The row behind becomes LOADING where it is EMPTY. -/
theorem shadowOf_nextRow (k r : Nat) (more : Bool) (s : Dev) (x : Nat) :
    shadowOf (nextRow k r more s) k x = if (more = true ∧ shadowOf s k (r + 1) = 0) ∧ x = r + 1 then 1 else shadowOf s k x := by
  by_cases hopen : more = true ∧ shadowOf s k (r + 1) = 0
  · rw [nextRow_opens hopen, shadowOf]
    simp only [coreOf_modCore_same, loadingRow, rowShown, coreOf_wf, mget_mset, hopen, true_and]
    rfl
  · rw [nextRow_stays hopen, if_neg fun h => hopen h.1, rowShown, shadowOf, coreOf_wf, shadowOf]
/-- Of a core the loader's next position changes shadow states alone, and of the rest ARR_STATUS. -/
theorem nextRow_frame (k r : Nat) (more : Bool) (s : Dev) :
    (∃ m, coreOf (nextRow k r more s) k = { coreOf s k with cx := { (coreOf s k).cx with shSt := m } }) ∧
      (nextRow k r more s).regs = (rowShown k r more s).regs ∧ SameMem s (nextRow k r more s) := by
  by_cases hopen : more = true ∧ shadowOf s k (r + 1) = 0
  · rw [nextRow_opens hopen]
    exact ⟨⟨_, by rw [coreOf_modCore_same, rowShown, coreOf_wf, loadingRow]⟩, modCore_regs .., (sameMem_wf ..).trans (sameMem_modCore ..)⟩
  · rw [nextRow_stays hopen]
    exact ⟨⟨(coreOf s k).cx.shSt, coreOf_wf ..⟩, rfl, sameMem_wf ..⟩
theorem rdN_nextRow (k r : Nat) (more : Bool) (s : Dev) (a : Nat) : rdN (nextRow k r more s) a = rdN (rowShown k r more s) a := by
  obtain ⟨-, hregs, -⟩ := nextRow_frame k r more s
  unfold rdN
  rw [hregs]

/-! ## The write of a row lands (R93, R94, R97) -/

/-- The write lands, before the loader goes on. -/
def rowFull (k r : Nat) (ws : List Pip) (s : Dev) : Dev :=
  modCore k (fun c => { c with cx := { c.cx with heldW := none, wWidth := loadWidth s k } }) (setB (Reg.ARR_STATUS k) 3 false (putShadow k r 2 ws s))
theorem landRow_eq (k r : Nat) (ws : List Pip) (more : Bool) (s : Dev) : landRow k r ws more s = nextRow k r more (rowFull k r ws s) := rfl

theorem shadowOf_putShadow (k r st : Nat) (ws : List Pip) (s : Dev) (x : Nat) :
    shadowOf (putShadow k r st ws s) k x = if x = r then st else shadowOf s k x := by
  simp [shadowOf, putShadow, mget_mset]
theorem shadowOf_rowFull (k r : Nat) (ws : List Pip) (s : Dev) (x : Nat) : shadowOf (rowFull k r ws s) k x = if x = r then 2 else shadowOf s k x := by
  rw [← shadowOf_putShadow k r 2 ws]
  simp [shadowOf, rowFull]

/-- The row is FULL, and the row behind it LOADING where the set goes on and it was EMPTY. -/
theorem landRow_shadow (k r : Nat) (ws : List Pip) (more : Bool) (s : Dev) :
    shadowOf (landRow k r ws more s) k r = 2 ∧ (more = true → shadowOf s k (r + 1) = 0 → shadowOf (landRow k r ws more s) k (r + 1) = 1) := by
  simp only [landRow_eq, shadowOf_nextRow, shadowOf_rowFull]
  exact ⟨by simp, fun hmore hempty => by simp [hmore, hempty]⟩
/-- The row's shadow holds the weights; active weights stay, and no write is held. -/
theorem landRow_weights (k r : Nat) (ws : List Pip) (more : Bool) (s : Dev) :
    shadowWeights (landRow k r ws more s) k r = ws ∧ (coreOf (landRow k r ws more s) k).cx.acW = (coreOf s k).cx.acW ∧
      (coreOf (landRow k r ws more s) k).cx.heldW = none := by
  obtain ⟨⟨m, hcore⟩, -, -⟩ := nextRow_frame k r more (rowFull k r ws s)
  rw [landRow_eq, shadowWeights, hcore]
  simp [rowFull, putShadow]
theorem landRow_status (k : Nat) {r : Nat} (ws : List Pip) (more : Bool) (s : Dev) (hr : r < 32) :
    rf (landRow k r ws more s) (Reg.ARR_STATUS k) 12 6 = (if more = true then r + 1 else 32) ∧ tst (landRow k r ws more s) (Reg.ARR_STATUS k) 3 = false := by
  constructor
  · rw [landRow_eq, rf, rdN_nextRow, ← rf, rowShown, rf_wf_same _ _ _ _ _ (by decide), Nat.mod_eq_of_lt (by split <;> omega)]
  · rw [landRow_eq, tst, rdN_nextRow, ← tst, rowShown, tst_wf_disj _ _ _ _ _ _ (by decide) (by decide)]
    exact tst_setB_same _ 3 false _ (by decide)
theorem landRow_frame (k r : Nat) (ws : List Pip) (more : Bool) (s : Dev) :
    SameRegs [Reg.ARR_STATUS k] s (landRow k r ws more s) ∧ SameMem s (landRow k r ws more s) := by
  obtain ⟨-, -, hmem⟩ := nextRow_frame k r more (rowFull k r ws s)
  have hput : SameRegs [Reg.ARR_STATUS k] s (putShadow k r 2 ws s) := sameRegs_modCore _ k _ s
  have hfull : SameRegs [Reg.ARR_STATUS k] s (rowFull k r ws s) := (hput.trans (sameRegs_setB _ 3 false _)).trans (sameRegs_modCore _ k _ _)
  have hmemFull : SameMem s (rowFull k r ws s) := ((sameMem_modCore ..).trans (sameMem_setB _ 3 false _)).trans (sameMem_modCore ..)
  exact ⟨fun a ha => (rdN_nextRow ..).trans ((hfull.trans (sameRegs_wf _ 12 6 _ _)) a ha), hmemFull.trans hmem⟩

/-! ## WEIGHT_ROW_LOADED (R93, R97) -/

/-- Row `r` is the loader's next, and nothing keeps it from being written. -/
abbrev LoaderAt (s : Dev) (k r : Nat) : Prop := (coreOf s k).cx.heldW = none ∧ r = rf s (Reg.ARR_STATUS k) 12 6 % 32 ∧ rf s (Reg.ARR_STATUS k) 12 6 ≤ 32
/-- No pip has the reserved exponent (R65). -/
theorem any_reserved_eq_false {ps : List Pip} (h : ∀ p ∈ ps, p.e ≠ 255) : (ps.any fun x => x.e == 255) = false := by
  simpa [List.any_eq_false] using h

theorem weightRowLoaded_lands {s : Dev} {k r : Nat} {ws : List Pip} (more : Bool) (hat : LoaderAt s k r) (hws : ∀ p ∈ ws, p.e ≠ 255)
    (hfree : shadowOf s k r ≠ 2) : weightRowLoaded k r ws more s = landRow k r ws more s := by
  obtain ⟨hheld, hnext, hpos⟩ := hat
  simp [weightRowLoaded, any_reserved_eq_false hws, hheld, ← hnext, hpos, hfree]
/-- The write that a FULL row holds up: counted, shown and kept. -/
def rowHeld (k r : Nat) (ws : List Pip) (more : Bool) (s : Dev) : Dev :=
  modCore k (fun c => { c with cx := { c.cx with heldW := some ⟨r, ws, more⟩ } })
    (wf (Reg.ARR_STATUS k) 12 6 r (setB (Reg.ARR_STATUS k) 3 true (bump (Reg.ARR_LOAD_WAIT_CNT k) 1 s)))
theorem weightRowLoaded_held {s : Dev} {k r : Nat} {ws : List Pip} (more : Bool) (hat : LoaderAt s k r) (hws : ∀ p ∈ ws, p.e ≠ 255)
    (hfull : shadowOf s k r = 2) : weightRowLoaded k r ws more s = rowHeld k r ws more s := by
  obtain ⟨hheld, hnext, hpos⟩ := hat
  simp [weightRowLoaded, any_reserved_eq_false hws, hheld, ← hnext, hpos, hfull, rowHeld]
theorem rowHeld_effect (k r : Nat) (ws : List Pip) (more : Bool) (s : Dev) :
    rdN (rowHeld k r ws more s) (Reg.ARR_LOAD_WAIT_CNT k) = (rdN s (Reg.ARR_LOAD_WAIT_CNT k) + 1) % 2 ^ 32 ∧ tst (rowHeld k r ws more s) (Reg.ARR_STATUS k) 3 = true ∧
      (coreOf (rowHeld k r ws more s) k).cx = { (coreOf s k).cx with heldW := some ⟨r, ws, more⟩ } := by
  have hne : Reg.ARR_LOAD_WAIT_CNT k ≠ Reg.ARR_STATUS k := by simp [Reg.ARR_LOAD_WAIT_CNT, Reg.ARR_STATUS]
  refine ⟨?_, ?_, by simp [rowHeld]⟩
  · rw [rowHeld, rdN_modCore, rdN_wf_other _ _ _ _ hne, rdN_setB_other _ _ _ hne, rdN_bump_same]
  · rw [rowHeld, tst_modCore, tst_wf_disj _ _ _ _ _ _ (by decide) (by decide), tst_setB_same _ _ _ _ (by decide)]

end Sys2Proof.Machine
end

section
/-! SUPPORT. The swap token (R94 to R97): a FULL row swaps, another stalls the token, and the write held for a row goes on when it has swapped. -/
set_option autoImplicit false
namespace Sys2Proof.Machine
open Sys2Proof

theorem Pass.sameShape_self (p : Pass) : p.sameShape p = true := by simp [Pass.sameShape]

section Token
variable {s : Dev} {k r : Nat} {p : Pass}

/-- One pass is in flight, and its token stands at a row that it uses. -/
abbrev TokenAt (s : Dev) (k r : Nat) (p : Pass) : Prop := (coreOf s k).passes = [p] ∧ p.tok = r ∧ r < p.rows

/-- The row has swapped: its shadow is EMPTY, its weights are active, and the token stands at the next row. -/
def rowSwapped (k r : Nat) (p : Pass) (s : Dev) : Dev :=
  wf (Reg.ARR_STATUS k) 18 6 (tokenRow (swapRow s k r [p])) (setB (Reg.ARR_STATUS k) 2 false (putShadow k r 0 []
    (putActive k r (shadowWeights s k r) (mget (fun _ => []) (coreOf s k).cx.shP r) (modCore k (fun c => { c with passes := swapRow s k r [p] }) s))))

theorem swapTokenArrival_full (hat : TokenAt s k r p) (hfull : shadowOf s k r = 2) :
    swapTokenArrival k r s = heldRowLands k r (rowSwapped k r p s) := by
  obtain ⟨hpasses, htok, hrow⟩ := hat
  have hused : ¬p.rows ≤ r := Nat.not_le.mpr hrow
  simp [swapTokenArrival, hpasses, htok, hfull, hused, shapeAhead, p.sameShape_self, whenS, rowSwapped]
theorem swapTokenArrival_stalls (hat : TokenAt s k r p) (hfull : shadowOf s k r ≠ 2) :
    swapTokenArrival k r s = setB (Reg.ARR_STATUS k) 2 true (bump (Reg.ARR_SWAP_STALL_CNT k) 1 s) := by
  obtain ⟨hpasses, htok, hrow⟩ := hat
  have hused : ¬p.rows ≤ r := Nat.not_le.mpr hrow
  simp [swapTokenArrival, hpasses, htok, hfull, hused]
end Token

theorem rowSwapped_effect (k r : Nat) (p : Pass) (s : Dev) :
    shadowOf (rowSwapped k r p s) k r = 0 ∧ activeWeights (rowSwapped k r p s) k r = shadowWeights s k r ∧
      (coreOf (rowSwapped k r p s) k).cx.heldW = (coreOf s k).cx.heldW ∧ tst (rowSwapped k r p s) (Reg.ARR_STATUS k) 2 = false ∧
      SameMem s (rowSwapped k r p s) := by
  refine ⟨by simp [shadowOf, rowSwapped, putShadow], by simp [activeWeights, rowSwapped, putShadow, putActive], by simp [rowSwapped, putShadow, putActive], ?_,
    ((((sameMem_modCore ..).trans (sameMem_modCore ..)).trans (sameMem_modCore ..)).trans (sameMem_setB ..)).trans (sameMem_wf ..)⟩
  rw [rowSwapped, tst_wf_disj _ _ _ _ _ _ (by decide) (by decide), tst_setB_same _ _ _ _ (by decide)]

theorem heldRowLands_none {s : Dev} {k : Nat} (r : Nat) (h : (coreOf s k).cx.heldW = none) : heldRowLands k r s = s := by simp [heldRowLands, h]
theorem heldRowLands_own {s : Dev} {k : Nat} {w : RowWrite} (h : (coreOf s k).cx.heldW = some w) : heldRowLands k w.row s = landRow k w.row w.ws w.more s := by
  simp [heldRowLands, h]

end Sys2Proof.Machine
end

section
/-! SUPPORT. Passes (R83, R88, R92, R149): the entry of a pass into row 0, its way through the rows, and the commit of the oldest one. -/
set_option autoImplicit false
namespace Sys2Proof.Machine
open Sys2Proof

/-! ## Tiles (R87, R88) -/

theorem tileOf_congr {a b : Dev} {k : Nat} (h : (coreOf b k).cx.tiles = (coreOf a k).cx.tiles) (t : Nat) : tileOf b k t = tileOf a k t := by
  rw [tileOf, h, tileOf]
theorem tileOf_putTile_same (k t : Nat) (x : Option Tile) (s : Dev) : tileOf (putTile k t x s) k t = x := by simp [tileOf, putTile]
@[simp] theorem coreOf_showTiles (k : Nat) (s : Dev) : coreOf (showTiles k s) k = coreOf s k := coreOf_wrN ..
theorem tileOf_showTiles (k t : Nat) (s : Dev) : tileOf (showTiles k s) k t = tileOf s k t := tileOf_congr (by rw [coreOf_showTiles]) t
/-- A tile is of its core's context. -/
theorem tileOf_modCore {k : Nat} {f : Core → Core} {s : Dev} (h : (f (coreOf s k)).cx.tiles = (coreOf s k).cx.tiles) (t : Nat) :
    tileOf (modCore k f s) k t = tileOf s k t := tileOf_congr (by rw [coreOf_modCore_same, h]) t
theorem SameRest.tileOf {a b : Dev} (h : SameRest a b) (k t : Nat) : tileOf b k t = tileOf a k t := tileOf_congr (by rw [h.coreOf]) t

/-- A pass opens its tile where it is FREE. -/
theorem openTile_effect (k : Nat) (p : Pass) (s : Dev) :
    (tileOf (openTile k p s) k p.tile).isSome = true ∧ SameRegs [Reg.ARR_ACC_USE k] s (openTile k p s) ∧ SameMem s (openTile k p s) := by
  unfold openTile
  split
  · refine ⟨?_, (sameRegs_modCore _ k _ s).trans (sameRegs_wrN (Reg.ARR_ACC_USE k) _ _), (sameMem_modCore ..).trans (sameMem_wrN ..)⟩
    rw [tileOf_showTiles, tileOf_putTile_same]
    rfl
  · next t ht => exact ⟨by rw [ht]; rfl, SameRegs.refl _ s, SameMem.refl s⟩

/-! ## PASS_ENTRY (R83, R149) -/

theorem roomFor_ok {s : Dev} {k : Nat} {p : Pass} (cove : Nat) (d : Desc) (depth : Nat) (h : tileCheck s k p = .ok) : roomFor k cove d p depth s = .ok s := by
  simp [roomFor, h]
theorem passEntry_enters {s : Dev} {k : Nat} {p : Pass} (hstall : tokenStalled s k = false) (hshape : ∀ x ∈ (coreOf s k).passes, x.sameShape p = true)
    (hroom : tileCheck s k p = .ok) (hfresh : (coreOf s k).stale = false) (hacts : ∀ x ∈ p.acts, x.e ≠ 255) : passEntry k p s = enterPass k p false s := by
  have hsame : ((coreOf s k).passes.any fun q => !(q.sameShape p)) = false := by simpa [List.any_eq_false] using hshape
  simp [passEntry, hstall, hfresh, hsame, any_reserved_eq_false hacts, roomFor_ok _ _ _ hroom]

theorem sameRest_showShape (k : Nat) (p : Pass) (s : Dev) : SameRest s (showShape k p s) :=
  ((sameRest_wf ..).trans (sameRest_wf ..)).trans (sameRest_wf ..)
theorem sameRegs_showShape (k : Nat) (p : Pass) (s : Dev) : SameRegs [Reg.ARR_STATUS k] s (showShape k p s) :=
  ((sameRegs_wf _ 0 2 _ s).trans (sameRegs_wf _ 4 4 _ _)).trans (sameRegs_wf _ 8 2 _ _)

/-- A 64-bit counter wraps at 2^64 (R8). -/
theorem rd64_bump64_same (a n : Nat) (s : Dev) : rd64 (bump64 a n s) a = (rd64 s a + n) % 2 ^ 64 := by
  generalize hm : rd64 s a + n = m
  have hlow : rdN (bump64 a n s) a = m % 2 ^ 32 := by rw [bump64, wr64, rdN_wrN_other _ _ (by omega), rdN_wrN_same, hm]
  have hhigh : rdN (bump64 a n s) (a + 4) = m / 2 ^ 32 % 2 ^ 32 := by rw [bump64, wr64, rdN_wrN_same, hm]
  rw [rd64, hlow, hhigh]
  omega

/-- A pass of the shape in flight: counted and shown. -/
def passShown (k : Nat) (p : Pass) (ps : List Pass) (s : Dev) : Dev :=
  wf (Reg.ARR_STATUS k) 18 6 (tokenRow ps) (showShape k p (bump64 (Reg.ARR_PASS_CNT_LO k) 1 s))
theorem sameRest_passShown (k : Nat) (p : Pass) (ps : List Pass) (s : Dev) : SameRest s (passShown k p ps s) :=
  ((sameRest_wr64 ..).trans (sameRest_showShape ..)).trans (sameRest_wf ..)
theorem rd64_passShown (k : Nat) (p : Pass) (ps : List Pass) (s : Dev) :
    rd64 (passShown k p ps s) (Reg.ARR_PASS_CNT_LO k) = (rd64 s (Reg.ARR_PASS_CNT_LO k) + 1) % 2 ^ 64 := by
  have hshown : SameRegs [Reg.ARR_STATUS k] (bump64 (Reg.ARR_PASS_CNT_LO k) 1 s) (passShown k p ps s) :=
    (sameRegs_showShape _ _ _).trans (sameRegs_wf _ 18 6 _ _)
  rw [rd64_of_same hshown (by simp [Reg.ARR_PASS_CNT_LO, Reg.ARR_STATUS]) (by simp [Reg.ARR_PASS_CNT_LO, Reg.ARR_STATUS, Nat.add_assoc]), rd64_bump64_same]

/-- The pass is the last in flight, its tile is not FREE, and it counts. -/
theorem enterPass_effect (k : Nat) (p : Pass) (s : Dev) :
    (coreOf (enterPass k p false s) k).passes = (coreOf s k).passes ++ [p] ∧ (tileOf (enterPass k p false s) k p.tile).isSome = true ∧
      rd64 (enterPass k p false s) (Reg.ARR_PASS_CNT_LO k) = (rd64 s (Reg.ARR_PASS_CNT_LO k) + 1) % 2 ^ 64 ∧ SameMem s (enterPass k p false s) := by
  obtain ⟨htile, hregs, hmem⟩ := openTile_effect k p s
  generalize hps : (coreOf s k).passes ++ [p] = ps
  have henter : enterPass k p false s = passShown k p ps (modCore k (fun c => { c with passes := ps, stale := false }) (openTile k p s)) := by
    simp [enterPass, passShown, hps]
  have hshown := sameRest_passShown k p ps (modCore k (fun c => { c with passes := ps, stale := false }) (openTile k p s))
  rw [← henter] at hshown
  refine ⟨by rw [hshown.coreOf, coreOf_modCore_same], by rw [hshown.tileOf, tileOf_modCore rfl, htile], ?_, (hmem.trans (sameMem_modCore ..)).trans hshown.sameMem⟩
  rw [henter, rd64_passShown, rd64_of_same (sameRegs_modCore [] k _ _) List.not_mem_nil List.not_mem_nil,
    rd64_of_same hregs (by simp [Reg.ARR_PASS_CNT_LO, Reg.ARR_ACC_USE]) (by simp [Reg.ARR_PASS_CNT_LO, Reg.ARR_ACC_USE, Nat.add_assoc])]

/-! ## The way through the rows (R82, R92) -/

/-- The same pass at another row: its progress, its values and their saturation may differ. -/
abbrev SamePass (p q : Pass) : Prop := ∃ n v b, q = { p with next := n, vals := v, sat := b }
theorem SamePass.refl (p : Pass) : SamePass p p := ⟨p.next, p.vals, p.sat, rfl⟩
theorem SamePass.trans {p q r : Pass} (h : SamePass p q) (h' : SamePass q r) : SamePass p r := by
  obtain ⟨n, v, b, rfl⟩ := h
  obtain ⟨n', v', b', rfl⟩ := h'
  exact ⟨n', v', b', rfl⟩
theorem samePass_dpus (ws : List Pip) (r : Nat) (l : List Nat) (p : Pass) : SamePass p (l.foldl (dpuStep ws r) p) := by
  induction l generalizing p with
  | nil => exact SamePass.refl p
  | cons i l ih =>
    have hstep : SamePass p (dpuStep ws r p i) := ⟨p.next, _, _, rfl⟩
    exact hstep.trans (ih _)
theorem samePass_rowStep (acW : SMap (List Pip)) (ac : Nat) (p : Pass) : SamePass p (rowStep acW ac p) := by
  have hnext (q : Pass) : SamePass q { q with next := p.next + 1 } := ⟨_, q.vals, q.sat, rfl⟩
  unfold rowStep
  dsimp only
  split
  · exact hnext p
  · exact (samePass_dpus ..).trans (hnext _)
theorem samePass_stepRows (acW : SMap (List Pip)) (ac upTo n : Nat) (p : Pass) : SamePass p (stepRows acW ac upTo n p) := by
  induction n generalizing p with
  | zero => exact SamePass.refl p
  | succ n ih =>
    rw [stepRows]
    split
    · exact (samePass_rowStep ..).trans (ih _)
    · exact SamePass.refl p
theorem samePass_advance (s : Dev) (k upTo : Nat) (p : Pass) : SamePass p (advance s k upTo p) := samePass_stepRows ..
theorem advance_place (s : Dev) (k upTo : Nat) (p : Pass) : (advance s k upTo p).tile = p.tile ∧ (advance s k upTo p).last = p.last := by
  obtain ⟨n, v, b, h⟩ := samePass_advance s k upTo p
  rw [h]
  exact ⟨rfl, rfl⟩

/-! ## PASS_COMMIT (R88, R92) -/

theorem sameRest_afterCommit (k : Nat) (p : Pass) (ps : List Pass) (s : Dev) : SameRest s (afterCommit k p ps s) := by
  cases ps with
  | nil => exact sameRest_wf ..
  | cons q ps =>
    rw [afterCommit]
    split
    · exact SameRest.refl s
    · exact (sameRest_setB ..).trans (sameRest_showShape ..)

/-- The tile holds the sums; the passes in flight and the memories stay. -/
theorem commitPass_effect {s : Dev} {k : Nat} {p : Pass} {t : Tile} (adds : Bool) (ht : tileOf s k p.tile = some t) :
    tileOf (commitPass k p adds s) k p.tile = some { (accumulate (arraysOf k) p adds t).1 with done := p.last, held := p.last } ∧
      SameMem s (commitPass k p adds s) := by
  simp only [commitPass, ht]
  refine ⟨?_, (sameMem_modCore ..).trans (sameMem_modCore ..)⟩
  rw [tileOf_modCore rfl, tileOf_putTile_same]

theorem passCommit_commits {s : Dev} {k : Nat} {p : Pass} {ps : List Pass} (hpasses : (coreOf s k).passes = p :: ps) (htok : 32 ≤ p.tok)
    (hlast : p.last = false) (hparity : parityBad (coreOf s k).cx p.rows = none) :
    passCommit k .none s = afterCommit k p ps (modCore k (fun c => { c with passes := ps }) (commitPass k (advance s k 32 p) true s)) := by
  simp [passCommit, hpasses, Nat.not_lt.mpr htok, hlast, hparity, whenS]
theorem passCommit_effect {s : Dev} {k : Nat} {p : Pass} {ps : List Pass} {t : Tile} (hpasses : (coreOf s k).passes = p :: ps) (htok : 32 ≤ p.tok)
    (hlast : p.last = false) (ht : tileOf s k p.tile = some t) (hparity : parityBad (coreOf s k).cx p.rows = none) :
    (coreOf (passCommit k .none s) k).passes = ps ∧
      tileOf (passCommit k .none s) k p.tile = some { (accumulate (arraysOf k) (advance s k 32 p) true t).1 with done := false, held := false } ∧
      SameMem s (passCommit k .none s) := by
  obtain ⟨hplace, hplaceLast⟩ := advance_place s k 32 p
  obtain ⟨htile, hmem⟩ := commitPass_effect true (hplace ▸ ht)
  rw [hplace, hplaceLast, hlast] at htile
  rw [passCommit_commits hpasses htok hlast hparity]
  have hafter := sameRest_afterCommit k p ps (modCore k (fun c => { c with passes := ps }) (commitPass k (advance s k 32 p) true s))
  exact ⟨by rw [hafter.coreOf, coreOf_modCore_same], by rw [hafter.tileOf, tileOf_modCore rfl, htile], (hmem.trans (sameMem_modCore ..)).trans hafter.sameMem⟩

/-- Settles O23: a row is written, held or swapped by its shadow state, and a pass enters behind those in flight and commits as the oldest. -/
theorem weightRowsAndTokens : Obligations.WeightRowsAndTokens := by
  unfold Obligations.WeightRowsAndTokens
  intro s k hawake
  have hpips {ws : List (List Int × Nat)} (h : ∀ p ∈ ws, p.2 ≠ 255) : ∀ x ∈ ws.map (fun p => (⟨p.1, p.2⟩ : Pip)), x.e ≠ 255 :=
    List.forall_mem_map.2 h
  refine ⟨fun r ws more hfree hheld hnext hpos hws => ?_, fun r ws more hfull hheld hnext hpos hws => ?_, fun p q hq hstall hshape hroom hfresh hacts => ?_,
    fun r p hpasses htok hrow hfull hheld => ?_, fun r w p hpasses htok hrow hfull hheld hown => ?_, fun r p hpasses htok hrow hfull => ?_,
    fun p ps t hpasses htok hlast ht hparity => ?_⟩
  · refine Does.of_onDev (f := weightRowLoaded k r _ more) hawake rfl ?_
    rw [weightRowLoaded_lands more ⟨hheld, hnext, hpos⟩ (hpips hws) hfree]
    obtain ⟨hfull, hopens⟩ := landRow_shadow k r (ws.map fun p => ⟨p.1, p.2⟩) more s.dev
    obtain ⟨hweights, -, -⟩ := landRow_weights k r (ws.map fun p => ⟨p.1, p.2⟩) more s.dev
    obtain ⟨hposition, hwait⟩ := landRow_status k (ws.map fun p => ⟨p.1, p.2⟩) more s.dev r.isLt
    obtain ⟨hregs, hmem⟩ := landRow_frame k r (ws.map fun p => ⟨p.1, p.2⟩) more s.dev
    exact ⟨hfull, hweights, hopens, hposition, hwait, hregs, hmem⟩
  · refine Does.of_onDev (f := weightRowLoaded k r _ more) hawake rfl ?_
    rw [weightRowLoaded_held more ⟨hheld, hnext, hpos⟩ (hpips hws) hfull]
    exact rowHeld_effect ..
  · subst hq
    refine Does.of_onDev (f := passEntry k _) hawake rfl ?_
    rw [passEntry_enters hstall hshape hroom hfresh hacts]
    exact enterPass_effect ..
  · refine Does.of_onDev (f := swapTokenArrival k r) hawake rfl ?_
    obtain ⟨hempty, hactive, hkept, hmoves, hmem⟩ := rowSwapped_effect k r p s.dev
    rw [swapTokenArrival_full ⟨hpasses, htok, hrow⟩ hfull, heldRowLands_none _ (hkept.trans hheld)]
    exact ⟨hempty, hactive, hmoves, hmem⟩
  · refine Does.of_onDev (f := swapTokenArrival k r) hawake rfl ?_
    obtain ⟨-, hactive, hkept, -, -⟩ := rowSwapped_effect k r p s.dev
    rw [swapTokenArrival_full ⟨hpasses, htok, hrow⟩ hfull]
    rw [← hown] at hactive hkept ⊢
    rw [heldRowLands_own (hkept.trans hheld)]
    obtain ⟨hfullAgain, -⟩ := landRow_shadow k w.row w.ws w.more (rowSwapped k w.row p s.dev)
    obtain ⟨hweights, hkeptActive, hnone⟩ := landRow_weights k w.row w.ws w.more (rowSwapped k w.row p s.dev)
    obtain ⟨-, hwait⟩ := landRow_status k w.ws w.more (rowSwapped k w.row p s.dev) (hown ▸ r.isLt)
    exact ⟨hfullAgain, by rw [hkeptActive]; exact hactive, hweights, hnone, hwait⟩
  · refine Does.of_onDev (f := swapTokenArrival k r) hawake rfl ?_
    rw [swapTokenArrival_stalls ⟨hpasses, htok, hrow⟩ hfull]
    refine ⟨tst_setB_same _ _ _ _ (by decide), ?_, (setB_cores ..).trans (bump_cores ..)⟩
    rw [rdN_setB_other _ _ _ (by simp [Reg.ARR_SWAP_STALL_CNT, Reg.ARR_STATUS]), rdN_bump_same]
  · exact Does.of_onDev (f := passCommit k .none) hawake rfl (passCommit_effect hpasses htok hlast ht hparity)

end Sys2Proof.Machine
end

section
/-! SUPPORT. Contained faults of a core (R99, R103, R104): the event shows, the fault is described, and the core's work is dropped. -/
set_option autoImplicit false
namespace Sys2Proof.Machine
open Sys2Proof

/-- A core whose work was dropped and whose task has ended contained; `c1` is the ACLK count. -/
def droppedCore (c1 : Nat) (c : Core) : Core :=
  { c with passes := [], stale := true, cx := { c.cx with shSt := [], shW := [], shP := [], heldW := none, tiles := [], we := {} },
           task := c.task.map fun t => { t with contained := true, ran := true, status := 2, c1 := if t.contained then t.c1 else c1 } }
/-- A core's registers show that nothing is in progress. -/
def idleShown (k : Nat) (s : Dev) : Dev :=
  setB (Reg.LPD_STATUS k) 0 false (wf (Reg.WIN_STATUS k) 8 11 0 (wf (Reg.WIN_STATUS k) 2 4 0 (showTiles k (arrIdle k s))))
/-- The registers that show it. -/
def idleRegs (k : Nat) : List Nat := [Reg.LPD_STATUS k, Reg.WIN_STATUS k, Reg.ARR_ACC_USE k, Reg.ARR_STATUS k]
theorem containCore_eq (k : Nat) (s : Dev) : containCore k s = idleShown k (modCore k (droppedCore (aclkMilli s)) s) := rfl

theorem sameRest_idleShown (k : Nat) (s : Dev) : SameRest s (idleShown k s) := by
  have harrays : SameRest s (showTiles k (arrIdle k s)) := ((sameRest_wf ..).trans (sameRest_wf ..)).trans (sameRest_wrN ..)
  exact ((harrays.trans (sameRest_wf ..)).trans (sameRest_wf ..)).trans (sameRest_setB ..)
theorem sameRegs_containCore (k : Nat) (s : Dev) : SameRegs (idleRegs k) s (containCore k s) := by
  intro a ha
  simp only [idleRegs, List.mem_cons, List.not_mem_nil, or_false, not_or] at ha
  obtain ⟨hlpd, hwin, hacc, harr⟩ := ha
  rw [containCore_eq, idleShown, rdN_setB_other _ _ _ hlpd, rdN_wf_other _ _ _ _ hwin, rdN_wf_other _ _ _ _ hwin, showTiles, rdN_wrN_other _ _ hacc,
    arrIdle, rdN_wf_other _ _ _ _ harr, rdN_wf_other _ _ _ _ harr, rdN_modCore]
theorem arrEvent_notMem_idleRegs (k : Nat) : Reg.ARR_EVENT k ∉ idleRegs k := by
  simp only [idleRegs, List.mem_cons, List.not_mem_nil, or_false, Reg.ARR_EVENT, Reg.LPD_STATUS, Reg.WIN_STATUS, Reg.ARR_ACC_USE, Reg.ARR_STATUS, coreBase, dieHalf]
  omega
theorem faultInfo_notMem_idleRegs (k : Nat) : Reg.ARR_FAULT_INFO k ∉ idleRegs k := by
  simp only [idleRegs, List.mem_cons, List.not_mem_nil, or_false, Reg.ARR_FAULT_INFO, Reg.LPD_STATUS, Reg.WIN_STATUS, Reg.ARR_ACC_USE, Reg.ARR_STATUS, coreBase,
    dieHalf]
  omega

theorem containCore_contained {s : Dev} {k : Nat} (htask : (coreOf s k).task.isSome = true) : Contained k s (containCore k s) := by
  obtain ⟨t, ht⟩ := Option.isSome_iff_exists.1 htask
  have hidle := sameRest_idleShown k (modCore k (droppedCore (aclkMilli s)) s)
  have hcore : coreOf (containCore k s) k = droppedCore (aclkMilli s) (coreOf s k) := by rw [containCore_eq, hidle.coreOf, coreOf_modCore_same]
  exact ⟨(sameMem_modCore ..).trans hidle.sameMem, by simp [hcore, droppedCore, ht], by rw [hcore, droppedCore], by rw [hcore, droppedCore]⟩

/-- A fault of core `k` is described in ARR_FAULT_INFO and raised. -/
def faultShown (k code info : Nat) (s : Dev) : Dev := raise code k info (wrN (Reg.ARR_FAULT_INFO k) info s)
theorem sameRest_faultShown (k code info : Nat) (s : Dev) : SameRest s (faultShown k code info s) := (sameRest_wrN ..).trans (sameRest_raise ..)
theorem faultShown_effect {k code : Nat} (info : Nat) (s : Dev) (hcode : code / 256 = 2) (hbit : code % 256 < 32) :
    tst (faultShown k code info s) (Reg.ARR_EVENT k) (code % 256) = true ∧ rdN (faultShown k code info s) (Reg.ARR_FAULT_INFO k) = info % 2 ^ 32 := by
  have hevent : eventReg code k = some (Reg.ARR_EVENT k) := by simp [eventReg, hcode]
  have hraise : SameRegs [Reg.ARR_EVENT k] (wrN (Reg.ARR_FAULT_INFO k) info s) (faultShown k code info s) := sameRegs_raiseFor info 0xFFFF _ hevent
  exact ⟨tst_raiseFor info 0xFFFF _ hevent hbit, by rw [hraise _ (by simp [Reg.ARR_FAULT_INFO, Reg.ARR_EVENT]), rdN_wrN_same]⟩

/-- A contained fault of the arrays (Table 4-8). -/
theorem arrFault_effect {s : Dev} {k code : Nat} (ev arr row tile : Nat) (hcode : code / 256 = 2) (hbit : code % 256 < 32)
    (htask : (coreOf s k).task.isSome = true) :
    tst (arrFault k code ev arr row tile s) (Reg.ARR_EVENT k) (code % 256) = true ∧
      rdN (arrFault k code ev arr row tile s) (Reg.ARR_FAULT_INFO k) = (arr + row * 4 + tile * 2 ^ 8 + ev * 2 ^ 16) % 2 ^ 32 ∧
      Contained k s (arrFault k code ev arr row tile s) := by
  generalize hn : arr + row * 4 + tile * 2 ^ 8 + ev * 2 ^ 16 = n
  have hfault : arrFault k code ev arr row tile s = containCore k (faultShown k code n s) := by
    rw [← hn]
    rfl
  have hrest := sameRest_faultShown k code n s
  have hdrop := sameRegs_containCore k (faultShown k code n s)
  obtain ⟨hevent, hinfo⟩ := faultShown_effect (k := k) n s hcode hbit
  obtain ⟨hmem, hended⟩ := containCore_contained (s := faultShown k code n s) (by rw [hrest.coreOf, htask])
  rw [hfault]
  exact ⟨(tst_of_same hdrop (arrEvent_notMem_idleRegs k) _).trans hevent, (hdrop _ (faultInfo_notMem_idleRegs k)).trans hinfo, hrest.sameMem.trans hmem, hended⟩

theorem swapTimeout_stalled {s : Dev} {k : Nat} (h : tst s (Reg.ARR_STATUS k) 2 = true) :
    swapTimeout k s = arrFault k 0x0203 3 0 (rf s (Reg.ARR_STATUS k) 18 6 % 32) 0 s := by
  simp [swapTimeout, h]
theorem passCommit_parity {s : Dev} {k : Nat} {p : Pass} {ps : List Pass} {x : Nat × Nat} (hpasses : (coreOf s k).passes = p :: ps) (htok : 32 ≤ p.tok)
    (hparity : parityBad (coreOf s k).cx p.rows = some x) : passCommit k .none s = arrFault k 0x0202 2 (x.1 % 4) (x.2 % 32) 0 s := by
  simp [passCommit, hpasses, Nat.not_lt.mpr htok, hparity]

end Sys2Proof.Machine
end

section
/-! SUPPORT. Self-tests of a core (R105 to R107, R129): what starts one, and what its end shows. -/
set_option autoImplicit false
namespace Sys2Proof.Machine
open Sys2Proof

/-! ## Actions that wait (Table 15-12) -/

/-- The words of the error log that hold the outcome of an action. -/
def actionLogs : List Nat := (List.range 64).map fun i => Reg.ERR_LOG i 3
/-- The error log lies below the registers of the cores (Table 19-1). -/
theorem coreBase_notMem_actionLogs {base : Nat} (size k i : Nat) (h : 0x20000 ≤ base) : coreBase base size k + i ∉ actionLogs := by
  simp only [actionLogs, List.mem_map, List.mem_range, not_exists, not_and, Reg.ERR_LOG, coreBase]
  intro j hj heq
  omega
theorem arrStatus_notMem_actionLogs (k : Nat) : Reg.ARR_STATUS k ∉ actionLogs := coreBase_notMem_actionLogs _ _ _ (by decide)
theorem sameRest_endActions (action unit outcome : Nat) (s : Dev) : SameRest s (endActions action unit outcome s) := by
  have hlog (a : ActWait) (t : Dev) : SameRest t (if a.log < 64 then wf (Reg.ERR_LOG a.log 3) 22 3 outcome t else t) := by
    split
    · exact sameRest_wf ..
    · exact SameRest.refl t
  exact SameRest.trans (sameRest_forS (s.err.acts.filter _) _ hlog s) rfl
theorem sameRegs_endActions (action unit outcome : Nat) (s : Dev) : SameRegs actionLogs s (endActions action unit outcome s) := by
  have hlog (a : ActWait) (t : Dev) : SameRegs actionLogs t (if a.log < 64 then wf (Reg.ERR_LOG a.log 3) 22 3 outcome t else t) := by
    split
    · next hlt => exact (sameRegs_wf _ 22 3 outcome t).mono (List.cons_subset.2 ⟨List.mem_map.2 ⟨a.log, List.mem_range.2 hlt, rfl⟩, List.nil_subset _⟩)
    · exact SameRegs.refl _ t
  exact SameRegs.trans (sameRegs_forS actionLogs (s.err.acts.filter _) _ hlog s) (sameRegs_of_regs _ rfl)
theorem bistEnd_frame (k : Nat) (s : Dev) : SameRest s (bistEnd k s) ∧ SameRegs actionLogs s (bistEnd k s) := by
  unfold bistEnd
  split
  · exact ⟨SameRest.refl s, SameRegs.refl _ s⟩
  · exact ⟨sameRest_endActions .., sameRegs_endActions _ _ _ _⟩

/-! ## A core that fails (R106) -/

/-- A core fails self-test, and its block's event says so. -/
def bistFailed (k code : Nat) (s : Dev) : Dev := raise code k 0 (failCore k s)
theorem sameRest_bistFailed (k code : Nat) (s : Dev) : SameRest s (bistFailed k code s) := (sameRest_setB ..).trans (sameRest_raise ..)
theorem bistFailed_effect {k code a : Nat} (s : Dev) (hevent : eventReg code k = some a) (hbit : code % 256 < 32) (hne : a ≠ Reg.ARR_STATUS k) :
    tst (bistFailed k code s) (Reg.ARR_STATUS k) 10 = true ∧ tst (bistFailed k code s) a (code % 256) = true ∧
      SameRegs [a, Reg.ARR_STATUS k] s (bistFailed k code s) := by
  have hraise : SameRegs [a] (failCore k s) (bistFailed k code s) := sameRegs_raiseFor 0 0xFFFF _ hevent
  refine ⟨?_, tst_raiseFor 0 0xFFFF _ hevent hbit, (sameRegs_setB (Reg.ARR_STATUS k) 10 true s).append hraise⟩
  rw [tst_of_same hraise (by simpa using hne.symm)]
  exact tst_setB_same _ _ _ _ (by decide)

/-! ## The array test (R105, R107) -/

theorem arrBistStart_free {s : Dev} {k : Nat} (h : coreInRunning s k = false) :
    arrBistStart k s = setB (Reg.ARR_BIST_STATUS k) 0 true (setB (Reg.ARR_BIST_STATUS k) 8 false s) := by simp [arrBistStart, h]
theorem arrBistStart_refused {s : Dev} {k : Nat} (h : coreInRunning s k = true) : arrBistStart k s = setB (Reg.ARR_BIST_STATUS k) 8 true s := by
  simp [arrBistStart, h]
/-- A start clears REFUSED and sets RUNNING, and changes nothing else. -/
theorem bistStarted_effect (a : Nat) {refused : Nat} (s : Dev) (h : 0 < refused) (hr : refused < 32) :
    tst (setB a 0 true (setB a refused false s)) a 0 = true ∧ tst (setB a 0 true (setB a refused false s)) a refused = false ∧
      SameRegs [a] s (setB a 0 true (setB a refused false s)) :=
  ⟨tst_setB_same _ _ _ _ (by decide), by rw [tst_setB_bit _ _ _ _ _ (by decide) (by omega), tst_setB_same _ _ _ _ hr],
    (sameRegs_setB _ refused false s).trans (sameRegs_setB _ 0 true _)⟩

/-- A test has ended: DONE in place of RUNNING, and the field of what failed. -/
abbrev BistShows (a len v : Nat) (d : Dev) : Prop := tst d a 0 = false ∧ tst d a 1 = true ∧ rf d a 2 len = v
theorem BistShows.of_wf {a len v lo n : Nat} {s : Dev} (h : BistShows a len v s) (x : Nat) (hlo : 2 + len ≤ lo) (hn : lo + n ≤ 32) :
    BistShows a len v (wf a lo n x s) := by
  obtain ⟨hrunning, hdone, hfield⟩ := h
  exact ⟨by rw [tst_wf_disj _ _ _ _ _ _ hn (by omega), hrunning], by rw [tst_wf_disj _ _ _ _ _ _ hn (by omega), hdone],
    by rw [rf_wf_disj _ _ _ _ _ _ _ hn (by omega), hfield]⟩
theorem BistShows.of_same {a len v : Nat} {l : List Nat} {s d : Dev} (h : BistShows a len v s) (hregs : SameRegs l s d) (ha : a ∉ l) : BistShows a len v d := by
  obtain ⟨hrunning, hdone, hfield⟩ := h
  exact ⟨(tst_of_same hregs ha 0).trans hrunning, (tst_of_same hregs ha 1).trans hdone, (rf_of_same hregs ha 2 len).trans hfield⟩

/-- The end of a test that found `v`. -/
def bistDone (a len v : Nat) (s : Dev) : Dev := wf a 2 len v (setB a 1 true (setB a 0 false s))
theorem bistDone_shows (a : Nat) {len : Nat} (v : Nat) (s : Dev) (h : 2 + len ≤ 32) : BistShows a len (v % 2 ^ len) (bistDone a len v s) := by
  refine ⟨?_, ?_, rf_wf_same _ _ _ _ _ h⟩
  · rw [bistDone, tst_wf_disj _ _ _ _ _ _ h (by omega), tst_setB_bit _ _ _ _ _ (by decide) (by decide), tst_setB_same _ _ _ _ (by decide)]
  · rw [bistDone, tst_wf_disj _ _ _ _ _ _ h (by omega), tst_setB_same _ _ _ _ (by decide)]
theorem sameRest_bistDone (a len v : Nat) (s : Dev) : SameRest s (bistDone a len v s) := ((sameRest_setB ..).trans (sameRest_setB ..)).trans (sameRest_wf ..)

/-- What the array test found: FAILED and its event, or FAILED cleared. -/
def arrVerdict (k f : Nat) (s : Dev) : Dev := if f = 0 then setB (Reg.ARR_STATUS k) 10 false s else bistFailed k 0x0205 s
theorem arrVerdict_effect (k f : Nat) (s : Dev) :
    tst (arrVerdict k f s) (Reg.ARR_STATUS k) 10 = decide (f ≠ 0) ∧ SameRegs [Reg.ARR_EVENT k, Reg.ARR_STATUS k] s (arrVerdict k f s) ∧
      SameRest s (arrVerdict k f s) := by
  unfold arrVerdict
  split
  · next hpass => exact ⟨by rw [tst_setB_same _ _ _ _ (by decide)]; simp [hpass], (sameRegs_setB _ 10 false s).mono (by simp), sameRest_setB ..⟩
  · next hfail =>
    obtain ⟨hshown, -, hregs⟩ := bistFailed_effect s (show eventReg 0x0205 k = some (Reg.ARR_EVENT k) from rfl) (by decide) (by simp [Reg.ARR_EVENT, Reg.ARR_STATUS])
    exact ⟨by simp [hshown, hfail], hregs, sameRest_bistFailed ..⟩

/-- The array test's report: failing arrays, first failing step and time (Table 4-7). -/
def arrBistReport (k f step us : Nat) (s : Dev) : Dev :=
  wf (Reg.ARR_BIST_STATUS k) 16 16 us (wf (Reg.ARR_BIST_STATUS k) 6 2 (if f = 0 then 0 else step) (bistDone (Reg.ARR_BIST_STATUS k) 4 f s))
theorem arrBistReport_effect (k step us : Nat) {f : Nat} (s : Dev) (hf : f < 2 ^ 4) :
    BistShows (Reg.ARR_BIST_STATUS k) 4 f (arrBistReport k f step us s) ∧ SameRest s (arrBistReport k f step us s) := by
  have hdone := bistDone_shows (Reg.ARR_BIST_STATUS k) (len := 4) f s (by decide)
  rw [Nat.mod_eq_of_lt hf] at hdone
  exact ⟨(hdone.of_wf (n := 2) _ (by decide) (by decide)).of_wf us (by decide) (by decide),
    ((sameRest_bistDone ..).trans (sameRest_wf ..)).trans (sameRest_wf ..)⟩
theorem arrBistDone_ends {s : Dev} {k : Nat} (fails step us : Nat) (hrunning : tst s (Reg.ARR_BIST_STATUS k) 0 = true) (hdom : domRuns s k = true) :
    arrBistDone k fails step us s =
      bistEnd k (arrVerdict k (fails % 2 ^ arraysOf k) (arrBistReport k (fails % 2 ^ arraysOf k) step us s)) := by
  simp [arrBistDone, hrunning, hdom, arrVerdict, arrBistReport, bistDone, bistFailed]
theorem failingArrays_lt (fails k : Nat) : fails % 2 ^ arraysOf k < 2 ^ 4 := by
  have harrays : arraysOf k ≤ 4 := by
    unfold arraysOf
    split <;> decide
  exact (Nat.mod_lt _ (Nat.two_pow_pos _)).trans_le (Nat.pow_le_pow_right (by decide) harrays)
theorem arrBistDone_effect {s : Dev} {k : Nat} (fails step us : Nat) (hrunning : tst s (Reg.ARR_BIST_STATUS k) 0 = true) (hdom : domRuns s k = true) :
    BistShows (Reg.ARR_BIST_STATUS k) 4 (fails % 2 ^ arraysOf k) (arrBistDone k fails step us s) ∧
      tst (arrBistDone k fails step us s) (Reg.ARR_STATUS k) 10 = decide (fails % 2 ^ arraysOf k ≠ 0) ∧ SameMem s (arrBistDone k fails step us s) := by
  rw [arrBistDone_ends fails step us hrunning hdom]
  have hf := failingArrays_lt fails k
  generalize fails % 2 ^ arraysOf k = f at hf ⊢
  obtain ⟨hreport, hreportRest⟩ := arrBistReport_effect k step us s hf
  obtain ⟨hfailed, hregs, hrest⟩ := arrVerdict_effect k f (arrBistReport k f step us s)
  obtain ⟨hendRest, hend⟩ := bistEnd_frame k (arrVerdict k f (arrBistReport k f step us s))
  have hown : Reg.ARR_BIST_STATUS k ∉ [Reg.ARR_EVENT k, Reg.ARR_STATUS k] := by simp [Reg.ARR_BIST_STATUS, Reg.ARR_EVENT, Reg.ARR_STATUS]
  have hlogs : Reg.ARR_BIST_STATUS k ∉ actionLogs := coreBase_notMem_actionLogs _ _ _ (by decide)
  exact ⟨(hreport.of_same hregs hown).of_same hend hlogs, (tst_of_same hend (arrStatus_notMem_actionLogs k) 10).trans hfailed,
    ((hreportRest.trans hrest).trans hendRest).sameMem⟩

/-! ## The window engine's test (R129) -/

theorem winBistStart_free {s : Dev} {k : Nat} (hcore : isSCore k = false) (h : coreInRunning s k = false) :
    winBistStart k s = setB (Reg.WIN_BIST_STATUS k) 0 true (setB (Reg.WIN_BIST_STATUS k) 4 false s) := by simp [winBistStart, hcore, h]

/-- What the window engine's test found: a failing step fails the core. -/
def weVerdict (k step : Nat) (s : Dev) : Dev := if step % 4 = 0 then s else bistFailed k 0x0306 s
theorem winEvent_ne_arrStatus (k : Nat) : Reg.WIN_EVENT k ≠ Reg.ARR_STATUS k := by
  simp only [Reg.WIN_EVENT, Reg.ARR_STATUS, coreBase, dieHalf]
  omega
theorem weVerdict_effect (k step : Nat) (s : Dev) :
    (step % 4 ≠ 0 → tst (weVerdict k step s) (Reg.ARR_STATUS k) 10 = true ∧ tst (weVerdict k step s) (Reg.WIN_EVENT k) 6 = true) ∧
      SameRegs [Reg.WIN_EVENT k, Reg.ARR_STATUS k] s (weVerdict k step s) := by
  unfold weVerdict
  split
  · next hpass => exact ⟨fun hfail => absurd hpass hfail, SameRegs.refl _ s⟩
  · obtain ⟨hfailed, hevent, hregs⟩ :=
      bistFailed_effect s (show eventReg 0x0306 k = some (Reg.WIN_EVENT k) from rfl) (by decide) (winEvent_ne_arrStatus k)
    exact ⟨fun _ => ⟨hfailed, hevent⟩, hregs⟩

/-- The window engine's report: first failing step and time (Table 5-8). -/
def weBistReport (k step us : Nat) (s : Dev) : Dev := wf (Reg.WIN_BIST_STATUS k) 16 16 us (bistDone (Reg.WIN_BIST_STATUS k) 2 step s)
theorem weBistReport_effect (k us : Nat) {step : Nat} (s : Dev) (hstep : step < 2 ^ 2) :
    BistShows (Reg.WIN_BIST_STATUS k) 2 step (weBistReport k step us s) ∧
      rf (weBistReport k step us s) (Reg.WIN_BIST_STATUS k) 16 16 = us % 2 ^ 16 := by
  have hdone := bistDone_shows (Reg.WIN_BIST_STATUS k) (len := 2) step s (by decide)
  rw [Nat.mod_eq_of_lt hstep] at hdone
  exact ⟨hdone.of_wf us (by decide) (by decide), rf_wf_same _ _ _ _ _ (by decide)⟩
theorem weBistDone_ends {s : Dev} {k : Nat} (step us : Nat) (hrunning : tst s (Reg.WIN_BIST_STATUS k) 0 = true) (hdom : domRuns s k = true) :
    weBistDone k step us s = bistEnd k (weVerdict k step (weBistReport k step us s)) := by
  simp [weBistDone, hrunning, hdom, weVerdict, weBistReport, whenS, bistDone, bistFailed]
theorem weBistDone_effect {s : Dev} {k step : Nat} (us : Nat) (hrunning : tst s (Reg.WIN_BIST_STATUS k) 0 = true) (hdom : domRuns s k = true)
    (hstep : step < 4) :
    BistShows (Reg.WIN_BIST_STATUS k) 2 step (weBistDone k step us s) ∧ rf (weBistDone k step us s) (Reg.WIN_BIST_STATUS k) 16 16 = us % 2 ^ 16 ∧
      (step ≠ 0 → tst (weBistDone k step us s) (Reg.ARR_STATUS k) 10 = true ∧ tst (weBistDone k step us s) (Reg.WIN_EVENT k) 6 = true) := by
  rw [weBistDone_ends step us hrunning hdom]
  obtain ⟨hreport, htime⟩ := weBistReport_effect k us s hstep
  obtain ⟨hfailed, hregs⟩ := weVerdict_effect k step (weBistReport k step us s)
  obtain ⟨-, hend⟩ := bistEnd_frame k (weVerdict k step (weBistReport k step us s))
  have hown : Reg.WIN_BIST_STATUS k ∉ [Reg.WIN_EVENT k, Reg.ARR_STATUS k] := by
    simp only [List.mem_cons, List.not_mem_nil, or_false, Reg.WIN_BIST_STATUS, Reg.WIN_EVENT, Reg.ARR_STATUS, coreBase, dieHalf]
    omega
  have hlogs : Reg.WIN_BIST_STATUS k ∉ actionLogs := coreBase_notMem_actionLogs _ _ _ (by decide)
  have hevent : Reg.WIN_EVENT k ∉ actionLogs := coreBase_notMem_actionLogs _ _ _ (by decide)
  refine ⟨(hreport.of_same hregs hown).of_same hend hlogs, by rw [rf_of_same hend hlogs, rf_of_same hregs hown, htime], fun hfail => ?_⟩
  rw [tst_of_same hend (arrStatus_notMem_actionLogs k), tst_of_same hend hevent]
  exact hfailed (by omega)

end Sys2Proof.Machine
end

section
/-! SUPPORT. Reset of a window engine (R127): the request of a hold, its taking effect, and the release. -/
set_option autoImplicit false
namespace Sys2Proof.Machine
open Sys2Proof

section WindowEngine
variable {s : Dev} {k : Nat}

theorem winHoldReset_sCore (h : isSCore k = true) : winHoldReset k s = s := by simp [winHoldReset, h]
theorem winHoldReset_effect (h : isSCore k = false) :
    tst (winHoldReset k s) (Reg.WIN_CTRL k) 0 = true ∧ (coreOf (winHoldReset k s) k).weHold = !(tst s (Reg.WIN_STATUS k) 0) ∧
      (coreOf (winHoldReset k s) k).weRel = false ∧ SameRegs [Reg.WIN_CTRL k] s (winHoldReset k s) := by
  simp only [winHoldReset, h, Bool.false_eq_true, if_false, coreOf_modCore_same, tst_modCore]
  exact ⟨tst_setB_same _ _ _ _ (by decide), trivial, trivial, (sameRegs_setB _ 0 true s).trans (sameRegs_modCore _ k _ _)⟩

/-- A release starts where the engine is held and not releasing yet, and counts then. -/
theorem winRelease_effect (h : isSCore k = false) :
    tst (winRelease k s) (Reg.WIN_CTRL k) 0 = false ∧
      (coreOf (winRelease k s) k).weRel = ((coreOf s k).weRel || (tst s (Reg.WIN_STATUS k) 0 && !(coreOf s k).weRel)) ∧
      rdN (winRelease k s) (Reg.WIN_RESET_CNT k) =
        if (tst s (Reg.WIN_STATUS k) 0 && !(coreOf s k).weRel) = true then (rdN s (Reg.WIN_RESET_CNT k) + 1) % 2 ^ 32 else rdN s (Reg.WIN_RESET_CNT k) := by
  have hne : Reg.WIN_RESET_CNT k ≠ Reg.WIN_CTRL k := by simp [Reg.WIN_RESET_CNT, Reg.WIN_CTRL]
  have hctrl : tst (setB (Reg.WIN_CTRL k) 0 false s) (Reg.WIN_CTRL k) 0 = false := tst_setB_same _ _ _ _ (by decide)
  simp only [winRelease, h, Bool.false_eq_true, if_false]
  generalize (tst s (Reg.WIN_STATUS k) 0 && !(coreOf s k).weRel) = go
  cases go with
  | false =>
    simp only [whenS, Bool.false_eq_true, if_false, tst_modCore, coreOf_modCore_same, coreOf_setB, rdN_modCore]
    exact ⟨hctrl, trivial, rdN_setB_other _ _ _ hne⟩
  | true =>
    simp only [whenS, if_true, coreOf_bump, coreOf_modCore_same, coreOf_setB, rdN_bump_same, rdN_modCore]
    refine ⟨?_, trivial, by rw [rdN_setB_other _ _ _ hne]⟩
    rw [bump, tst_wrN_other _ _ _ hne.symm, tst_modCore, hctrl]

/-- The hold takes effect, and no action waits to release the engine. -/
theorem weResetEnter_effect (hhold : (coreOf s k).weHold = true) (hidle : tst s (Reg.WIN_STATUS k) 2 = false) (hact : acting s 1 k = false) :
    rdN (weResetEnter k s) (Reg.WIN_STATUS k) = 1 ∧ (coreOf (weResetEnter k s) k).cx.we.slots = [] ∧ (coreOf (weResetEnter k s) k).weHold = false ∧
      SameMem s (weResetEnter k s) := by
  have henter : weResetEnter k s =
      wrN (Reg.WIN_STATUS k) 1 (modCore k (fun c => { c with weHold := false, weRel := false, cx := { c.cx with we := {} } }) s) := by
    simp [weResetEnter, hhold, hidle, hact, whenS]
  rw [henter, rdN_wrN_same, coreOf_wrN, coreOf_modCore_same]
  exact ⟨rfl, rfl, rfl, (sameMem_modCore ..).trans (sameMem_wrN ..)⟩

/-- The core whose engine is released, its line buffer empty. -/
def releasedCore (c : Core) : Core := { c with weRel := false, cx := { c.cx with we := {} } }
/-- An engine out of reset is READY. -/
def readyShown (k : Nat) (s : Dev) : Dev := setB (Reg.WIN_STATUS k) 1 true (setB (Reg.WIN_STATUS k) 0 false s)
theorem weReleaseDone_effect (h : (coreOf s k).weRel = true) :
    tst (weReleaseDone k s) (Reg.WIN_STATUS k) 0 = false ∧ tst (weReleaseDone k s) (Reg.WIN_STATUS k) 1 = true ∧
      (coreOf (weReleaseDone k s) k).weRel = false ∧ SameMem s (weReleaseDone k s) := by
  have hdone : weReleaseDone k s = endActions 1 k 1 (readyShown k (modCore k releasedCore s)) := if_pos h
  have hready : SameRest (modCore k releasedCore s) (readyShown k (modCore k releasedCore s)) := (sameRest_setB ..).trans (sameRest_setB ..)
  have hregs := sameRegs_endActions 1 k 1 (readyShown k (modCore k releasedCore s))
  have hsame := hready.trans (sameRest_endActions 1 k 1 _)
  have hlogs : Reg.WIN_STATUS k ∉ actionLogs := coreBase_notMem_actionLogs _ _ _ (by decide)
  rw [hdone]
  refine ⟨?_, ?_, by rw [hsame.coreOf, coreOf_modCore_same, releasedCore], (sameMem_modCore ..).trans hsame.sameMem⟩
  · rw [tst_of_same hregs hlogs, readyShown, tst_setB_bit _ _ _ _ _ (by decide) (by decide), tst_setB_same _ _ _ _ (by decide)]
  · rw [tst_of_same hregs hlogs, readyShown, tst_setB_same _ _ _ _ (by decide)]

end WindowEngine

/-- Settles O24: a fault drops the core's work, a self-test shows its result, and a window engine is held when idle and released once. -/
theorem coreFaultsSelfTestsAndEngineReset : Obligations.CoreFaultsSelfTestsAndEngineReset := by
  unfold Obligations.CoreFaultsSelfTestsAndEngineReset
  intro s k hawake
  refine ⟨fun hstall htask => ?_, fun arr tile htask => ?_, fun p ps x htask hpasses htok hparity => ?_, fun hfree => ?_, fun hrun => ?_,
    fun fails step us hrunning hdom => ?_, fun hcore hfree => ?_, fun step us hrunning hdom => ?_, fun hcore => ?_, fun hcore => ?_,
    fun hhold hidle hact => ?_, fun hcore hheld hrel => ?_, fun hcore hrel => ?_, fun hrel => ?_⟩
  · refine Does.of_onDev (f := swapTimeout k) hawake rfl ?_
    rw [swapTimeout_stalled hstall]
    obtain ⟨hevent, -, hcontained⟩ := arrFault_effect 3 0 (rf s.dev (Reg.ARR_STATUS k) 18 6 % 32) 0 (code := 0x0203) (by decide) (by decide) htask
    exact ⟨hevent, hcontained⟩
  · refine Does.of_onDev (f := passCommit k (.eccUncorr arr tile)) hawake rfl ?_
    have hmem : SameMem s.dev (bump16 (Reg.ARR_ECC_CNT k) 16 1 s.dev) := sameMem_wf ..
    obtain ⟨hevent, -, hsame, hended⟩ := arrFault_effect (s := bump16 (Reg.ARR_ECC_CNT k) 16 1 s.dev) 1 (arr % 4) 0 (tile % 32) (code := 0x0201)
      (by decide) (by decide) (by rw [coreOf_bump16, htask])
    exact ⟨hevent, hmem.trans hsame, hended⟩
  · refine Does.of_onDev (f := passCommit k .none) hawake rfl ?_
    rw [passCommit_parity hpasses htok hparity]
    obtain ⟨hevent, hinfo, hcontained⟩ := arrFault_effect 2 (x.1 % 4) (x.2 % 32) 0 (code := 0x0202) (by decide) (by decide) htask
    exact ⟨hevent, by rw [hinfo]; omega, hcontained⟩
  · refine Does.of_onDev (f := arrBistStart k) hawake rfl ?_
    rw [arrBistStart_free hfree]
    exact bistStarted_effect _ s.dev (by decide) (by decide)
  · refine Does.of_onDev (f := arrBistStart k) hawake rfl ?_
    rw [arrBistStart_refused hrun]
    exact ⟨tst_setB_same _ _ _ _ (by decide), sameRegs_setB _ 8 true _⟩
  · refine Does.of_onDev (f := arrBistDone k fails step us) hawake rfl ?_
    obtain ⟨⟨hended, hdone, hfield⟩, hfailed, hmem⟩ := arrBistDone_effect fails step us hrunning hdom
    exact ⟨hended, hdone, hfield, hfailed, hmem⟩
  · refine Does.of_onDev (f := winBistStart k) hawake rfl ?_
    rw [winBistStart_free hcore hfree]
    exact bistStarted_effect _ s.dev (by decide) (by decide)
  · refine Does.of_onDev (f := weBistDone k step us) hawake rfl ?_
    obtain ⟨⟨hended, hdone, hfield⟩, htime, hfailed⟩ := weBistDone_effect us hrunning hdom step.isLt
    exact ⟨hended, hdone, hfield, htime, hfailed⟩
  · exact Does.of_onDev (f := winHoldReset k) hawake rfl (winHoldReset_effect hcore)
  · exact Does.of_onDev (f := winHoldReset k) hawake rfl (winHoldReset_sCore hcore)
  · exact Does.of_onDev (f := weResetEnter k) hawake rfl (weResetEnter_effect hhold hidle hact)
  · refine Does.of_onDev (f := winRelease k) hawake rfl ?_
    obtain ⟨hctrl, hreleasing, hcount⟩ := winRelease_effect (s := s.dev) hcore
    exact ⟨hctrl, by rw [hreleasing, hheld, hrel]; rfl, by rw [hcount, hheld, hrel]; rfl⟩
  · refine Does.of_onDev (f := winRelease k) hawake rfl ?_
    obtain ⟨hctrl, hreleasing, hcount⟩ := winRelease_effect (s := s.dev) hcore
    exact ⟨hctrl, by rw [hreleasing, hrel]; rfl, by simpa [hrel] using hcount⟩
  · exact Does.of_onDev (f := weReleaseDone k) hawake rfl (weReleaseDone_effect hrel)

end Sys2Proof.Machine
end

section
/-! SUPPORT. Nests of a core (R133, R138, R195, R198): what the start of a nest leaves of registers and memories, that a nest in order is run, and how
it ends. -/
set_option autoImplicit false
namespace Sys2Proof.Machine
open Sys2Proof

/-! ## What is read from unchanged memories and registers -/

theorem SameMem.mrd {a b : Dev} (h : SameMem a b) (sp : Space) (x : Nat) : mrd sp b x = mrd sp a x := by
  obtain ⟨hdram, hcm, hscr, -⟩ := h
  cases sp <;> simp only [Machine.mrd, hdram, hcm, hscr]
theorem SameMem.rdBytes {a b : Dev} (h : SameMem a b) (sp : Space) (n : Nat) : ∀ x, rdBytes sp b x n = rdBytes sp a x n := by
  induction n with
  | zero => exact fun _ => rfl
  | succ n ih => exact fun x => by rw [Machine.rdBytes, Machine.rdBytes, h.mrd, ih]
theorem SameMem.rdLE {a b : Dev} (h : SameMem a b) (sp : Space) (x n : Nat) : rdLE sp b x n = rdLE sp a x n := by
  rw [Machine.rdLE, Machine.rdLE, h.rdBytes]
theorem SameMem.winAt {a b : Dev} (h : SameMem a b) (k x : Nat) : winAt b k x = winAt a k x := by
  simp only [Machine.winAt, h.rdLE]
theorem SameMem.veAt {a b : Dev} (h : SameMem a b) (x : Nat) : veAt b x = veAt a x := by
  simp only [Machine.veAt, h.rdLE]

theorem descOf_congr {a b : Dev} {k e : Nat} (h : ∀ j, rdN b (Reg.LPD_TABLE k e j) = rdN a (Reg.LPD_TABLE k e j)) : descOf b k e = descOf a k e := by
  simp only [descOf, h]
theorem planOf_of_same {l : List Nat} {a b : Dev} {k : Nat} (h : SameRegs l a b) (hshape : ∀ i, Reg.LPD_SHAPE k i ∉ l)
    (hgrid : Reg.LPD_GRID k ∉ l) (d : Desc) : planOf b k d = planOf a k d := by
  have hlev : planLev b k = planLev a k := funext fun v => by simp only [planLev, h _ (hshape _)]
  simp only [planOf, hlev, rf_of_same h hgrid]
theorem veOf_of_same {l : List Nat} {a b : Dev} {cove : Nat} (hmem : SameMem a b) (h : SameRegs l a b) (hlo : Reg.SCH_COVE_WP_LO cove ∉ l)
    (hhi : Reg.SCH_COVE_WP_LO cove + 4 ∉ l) (i : Nat) : veOf b cove i = veOf a cove i := by
  have hwp : wpOf b cove = wpOf a cove := by rw [wpOf, wpOf, baseAddr, baseAddr, rd64_of_same h hlo hhi]
  have hfield : wpField b cove = wpField a cove := funext fun _ => funext fun _ => by rw [wpField, wpField, hwp, hmem.rdLE]
  rw [veOf, veOf, hfield, hwp, hmem.veAt]

/-! ## The start of a nest (R133, Table 6-10) -/

theorem sameRegs_startCmd (l : List Nat) (k : Nat) (s : Dev) : SameRegs l s (startCmd k s) := sameRegs_modCore l k _ s
theorem sameMem_startCmd (k : Nat) (s : Dev) : SameMem s (startCmd k s) := sameMem_modCore ..
theorem task_startCmd_isSome (k : Nat) (s : Dev) : (coreOf (startCmd k s) k).task.isSome = (coreOf s k).task.isSome := by
  simp [startCmd, modTask]
theorem sameRest_showNest (k : Nat) (d : Desc) (s : Dev) : SameRest s (showNest k d s) := ((sameRest_setB ..).trans (sameRest_wf ..)).trans (sameRest_wf ..)
theorem sameRegs_showNest (k : Nat) (d : Desc) (s : Dev) : SameRegs [Reg.LPD_STATUS k] s (showNest k d s) :=
  ((sameRegs_setB _ 0 true s).trans (sameRegs_wf _ 1 6 _ _)).trans (sameRegs_wf _ 7 2 _ _)

/-- The registers that a nest shows itself in when it starts: its status, and what reading its descriptor found. -/
def nestRegs (k : Nat) : List Nat := [Reg.LPD_STATUS k, Reg.LPD_ECC_CNT k, Reg.LPD_EVENT k]
/-- A descriptor that was read, or corrected, lets its command proceed. -/
theorem entryEcc_proceeds {ecc : Nat} (k e : Nat) (s : Dev) (h : ecc ≠ 2) :
    (entryEcc k e ecc s).2 = true ∧ SameRest s (entryEcc k e ecc s).1 ∧ SameRegs (nestRegs k) s (entryEcc k e ecc s).1 := by
  rw [entryEcc, if_neg h]
  split
  · have hraise : SameRegs [Reg.LPD_EVENT k] (bump16 (Reg.LPD_ECC_CNT k) 0 1 s) (raise 0x0400 k 0 (bump16 (Reg.LPD_ECC_CNT k) 0 1 s)) :=
      sameRegs_raiseFor 0 0xFFFF _ rfl
    have hrest : SameRest s (raise 0x0400 k 0 (bump16 (Reg.LPD_ECC_CNT k) 0 1 s)) := (sameRest_wf ..).trans (sameRest_raise ..)
    exact ⟨rfl, hrest, ((sameRegs_wf _ 0 16 _ s).append hraise).mono (by simp [nestRegs])⟩
  · exact ⟨rfl, SameRest.refl s, SameRegs.refl _ s⟩

theorem nestStart_frame {ecc : Nat} (k e : Nat) (s : Dev) (h : ecc ≠ 2) :
    SameMem s (nestStart k ecc e s) ∧ SameRegs (nestRegs k) s (nestStart k ecc e s) ∧
      (coreOf (nestStart k ecc e s) k).task.isSome = (coreOf s k).task.isSome := by
  obtain ⟨-, hecc, heccRegs⟩ := entryEcc_proceeds k e (showNest k (descOf s k e) (startCmd k s)) h
  have hrest := (sameRest_showNest k (descOf s k e) (startCmd k s)).trans hecc
  have hshow : SameRegs (nestRegs k) (startCmd k s) (showNest k (descOf s k e) (startCmd k s)) := (sameRegs_showNest k _ _).mono (by simp [nestRegs])
  exact ⟨(sameMem_startCmd k s).trans hrest.sameMem, ((sameRegs_startCmd _ k s).trans hshow).trans heccRegs,
    by rw [nestStart, hrest.coreOf, task_startCmd_isSome]⟩

theorem planOf_showNest (k : Nat) (d d' : Desc) (s : Dev) : planOf (showNest k d s) k d' = planOf s k d' := by
  refine planOf_of_same (sameRegs_showNest k d s) (fun i => ?_) ?_ d'
  · simp only [List.mem_singleton, Reg.LPD_SHAPE, Reg.LPD_STATUS]
    omega
  · simp [Reg.LPD_GRID, Reg.LPD_STATUS]
theorem planOf_startCmd (k : Nat) (d : Desc) (s : Dev) : planOf (startCmd k s) k d = planOf s k d :=
  planOf_of_same (sameRegs_startCmd [] k s) (fun _ => List.not_mem_nil) List.not_mem_nil d

/-! ## A nest that is run (R138, R195) -/

theorem runCmd_runs {s : Dev} {k : Nat} {t : Task} {c : Cmd} {want : Task → Cmd → Bool} (f : Task → Cmd → Dev → Dev) (hat : AtCommand s k t c)
    (hwant : want t c = true) : runCmd k want f s = f t c (startCmd k s) := by
  obtain ⟨htask, -, hpos, hc, hran, -, hsaving, hrestoring, hdom, hbad⟩ := hat
  simp [runCmd, htask, ← hc, hran, hsaving, hrestoring, hdom, hbad, hwant, hpos]

theorem nestEntry_startCmd (s : Dev) (k : Nat) (t : Task) (c : Cmd) : nestEntry (startCmd k s) k t c = nestEntry s k t c := by
  simp [nestEntry, startCmd, modTask]

/-- A nest that passes its checks does its work by the plan. -/
theorem runNest_runs {s : Dev} {k ecc e : Nat} {t : Task} {c : Cmd} (body : Desc → List PLev → Dev → Dev) (hat : AtNest s k t c e) (hecc : ecc ≠ 2)
    (heng : (descOf s k e).eng = 3 → (veOf s t.cove (descOf s k e).epi).isSome = true) :
    runNest k ecc t c body (startCmd k s) = body (descOf s k e) (planOf s k (descOf s k e)) (nestStart k ecc e s) := by
  obtain ⟨⟨-, hcove, -⟩, -, hentry, hreason⟩ := hat
  have hdesc : descOf (startCmd k s) k e = descOf s k e := descOf_congr fun _ => rdN_modCore ..
  have hve (i : Nat) : veOf (showNest k (descOf s k e) (startCmd k s)) t.cove i = veOf s t.cove i := by
    have hnot (i : Nat) (hi : i < 8) : Reg.SCH_COVE_WP_LO t.cove + i ∉ [Reg.LPD_STATUS k] := by
      simp only [List.mem_singleton, Reg.SCH_COVE_WP_LO, Reg.LPD_STATUS, coreBase]
      omega
    exact veOf_of_same ((sameMem_startCmd k s).trans (sameRest_showNest ..).sameMem) ((sameRegs_startCmd _ k s).trans (sameRegs_showNest k _ _))
      (hnot 0 (by decide)) (hnot 4 (by decide)) i
  obtain ⟨hproceeds, -⟩ := entryEcc_proceeds k e (showNest k (descOf s k e) (startCmd k s)) hecc
  have hengine : ¬((descOf s k e).eng = 3 ∧ (veOf s t.cove (descOf s k e).epi).isNone = true) := fun h => by
    simpa [Option.isNone_iff_eq_none.1 h.2] using heng h.1
  simp only [runNest, nestEntry_startCmd, hentry, hdesc, hproceeds, hve, hreason, planOf_showNest, planOf_startCmd, if_neg hengine, Bool.not_true,
    Bool.false_eq_true, if_false]
  rfl

/-! ## The end of a nest (R198, Table 6-9) -/

theorem whenS_rel (R : Dev → Dev → Prop) (hrefl : ∀ a, R a a) (c : Bool) (f : Dev → Dev) (s : Dev) (h : R s (f s)) : R s (whenS c f s) :=
  whenS_inv c (hrefl s) fun _ => h

/-- The counters of a nest that has ended (Table 6-9), and no pass in the arrays. -/
def nestCounted (k status : Nat) (ovr k0 : Bool) (s : Dev) : Dev :=
  s |> wf (Reg.ARR_STATUS k) 0 2 0 |> bump (Reg.LPD_CMD_CNT k) 1 |> whenS (status == 1) (bump (Reg.LPD_EMPTY_CNT k) 1) |> whenS k0 (bump (Reg.LPD_K0_CNT k) 1)
    |> whenS ovr (bump (Reg.LPD_OVERPLAN_CNT k) 1)
theorem endNest_ok (k : Nat) (d : Desc) (status : Nat) (ovr k0 : Bool) (s0 u : Dev) :
    endNest k d status ovr k0 s0 (.ok u) = finishCmd k status (closeTiles k (nestCounted k status ovr k0 u)) := rfl
theorem sameRest_nestCounted (k status : Nat) (ovr k0 : Bool) (s : Dev) : SameRest s (nestCounted k status ovr k0 s) := by
  have hbump (c : Bool) (a : Nat) (u : Dev) : SameRest u (whenS c (bump a 1) u) := whenS_rel SameRest SameRest.refl c _ u (sameRest_bump ..)
  exact ((((sameRest_wf ..).trans (sameRest_bump ..)).trans (hbump ..)).trans (hbump ..)).trans (hbump ..)
theorem rdN_nestCounted_cmd (k status : Nat) (ovr k0 : Bool) (s : Dev) :
    rdN (nestCounted k status ovr k0 s) (Reg.LPD_CMD_CNT k) = (rdN s (Reg.LPD_CMD_CNT k) + 1) % 2 ^ 32 := by
  have hbump (c : Bool) {a : Nat} (u : Dev) (ha : Reg.LPD_CMD_CNT k ≠ a) : rdN (whenS c (bump a 1) u) (Reg.LPD_CMD_CNT k) = rdN u (Reg.LPD_CMD_CNT k) :=
    whenS_rel (fun u v => rdN v (Reg.LPD_CMD_CNT k) = rdN u (Reg.LPD_CMD_CNT k)) (fun _ => rfl) c _ u (rdN_bump_other 1 u ha)
  have harr : Reg.LPD_CMD_CNT k ≠ Reg.ARR_STATUS k := by
    simp only [Reg.LPD_CMD_CNT, Reg.ARR_STATUS, coreBase]
    omega
  rw [nestCounted, hbump _ _ (by simp [Reg.LPD_CMD_CNT, Reg.LPD_OVERPLAN_CNT]), hbump _ _ (by simp [Reg.LPD_CMD_CNT, Reg.LPD_K0_CNT]),
    hbump _ _ (by simp [Reg.LPD_CMD_CNT, Reg.LPD_EMPTY_CNT]), rdN_bump_same, rdN_wf_other _ _ _ _ harr]

/-- A nest whose work is done ends with its status. -/
theorem endNest_ended (k : Nat) (d : Desc) (status : Nat) (ovr k0 : Bool) (s0 u : Dev) : NestEnded k status u (endNest k d status ovr k0 s0 (.ok u)) := by
  have hcounted := sameRest_nestCounted k status ovr k0 u
  rw [endNest_ok]
  refine ⟨hcounted.sameMem.trans ((sameMem_modCore ..).trans (sameMem_modCore ..)), ?_, ?_⟩
  · rw [finishCmd, modTask, rdN_modCore, closeTiles, rdN_modCore, rdN_nestCounted_cmd]
  · rw [finishCmd, modTask, coreOf_modCore_same, closeTiles, coreOf_modCore_same, hcounted.coreOf]
    rfl

end Sys2Proof.Machine
end

section
/-! SUPPORT. Window-engine commands (R110, R112, R114, R125): what their checks find, which nest a command runs, and how it ends. -/
set_option autoImplicit false
namespace Sys2Proof.Machine
open Sys2Proof

/-! ## Contained events of a window engine (Table 5-6) -/

theorem faultCore_contained {s : Dev} {k : Nat} (code info : Nat) (htask : (coreOf s k).task.isSome = true) : Contained k s (faultCore k code info s) := by
  have hraise := sameRest_raise code k info s
  obtain ⟨hmem, hended⟩ := containCore_contained (s := raise code k info s) (by rw [hraise.coreOf, htask])
  exact ⟨hraise.sameMem.trans hmem, hended⟩
theorem winEvent_notMem_idleRegs (k : Nat) : Reg.WIN_EVENT k ∉ idleRegs k := by
  simp only [idleRegs, List.mem_cons, List.not_mem_nil, or_false, Reg.WIN_EVENT, Reg.LPD_STATUS, Reg.WIN_STATUS, Reg.ARR_ACC_USE, Reg.ARR_STATUS, coreBase]
  omega
theorem faultCore_event {k code a : Nat} (info : Nat) (s : Dev) (hevent : eventReg code k = some a) (ha : a ∉ idleRegs k) (hbit : code % 256 < 32) :
    tst (faultCore k code info s) a (code % 256) = true :=
  (tst_of_same (sameRegs_containCore k _) ha _).trans (tst_raiseFor info 0xFFFF s hevent hbit)
theorem winFault_effect {s : Dev} {k bit : Nat} (ev slot row : Nat) (hbit : bit < 32) (htask : (coreOf s k).task.isSome = true) :
    tst (winFault k bit ev slot row s) (Reg.WIN_EVENT k) bit = true ∧ Contained k s (winFault k bit ev slot row s) := by
  rw [winFault]
  generalize ev + slot % 64 * 2 ^ 3 + row % 2 ^ 16 * 2 ^ 9 = info
  have hlow : (0x0300 + bit) % 256 = bit := by omega
  have hevent : eventReg (0x0300 + bit) k = some (Reg.WIN_EVENT k) := by simp [eventReg, show (0x0300 + bit) / 256 = 3 by omega]
  have hraised := faultCore_event info (wrN (Reg.WIN_FAULT_INFO k) info s) hevent (winEvent_notMem_idleRegs k) (by omega)
  obtain ⟨hmem, hended⟩ := faultCore_contained (s := wrN (Reg.WIN_FAULT_INFO k) info s) (0x0300 + bit) info (by rw [coreOf_wrN, htask])
  rw [hlow] at hraised
  exact ⟨hraised, (sameMem_wrN ..).trans hmem, hended⟩

/-! ## The checks at the start (R110, R112, R114) -/

/-- A legal command is decided by its line-buffer need alone. -/
theorem weStart_of_legal {d : Desc} {w : WinD} {ps : List PLev} (plain : Bool) (h : WinLegal d w ps) :
    weStart plain d w ps = if !plain && w.op != 4 && decide (524288 < lineNeed d w (bodiesOf ps)) then .lbOver else .run := by
  obtain ⟨hbad, hbias, hcnt, hho, hwo, hc, hblk⟩ := h
  have hinit : ¬(d.eng = 1 ∧ w.bias ≠ d.bias) := fun hx => hx.2 (hbias hx.1)
  have hempty : ((ps.any fun p => p.cnt == 0) || w.ho == 0 || w.wo == 0 || (w.op == 4 && w.c == 0)) = false := by
    simpa [hho, hwo] using ⟨hcnt, hc⟩
  have hblocks : ((bodiesOf ps).any fun b => blkBad w (blkOf w b)) = false := by simpa using hblk
  simp only [weStart, if_neg hinit, hbad, hempty, hblocks, Bool.false_eq_true, if_false]

/-! ## What a window command does (R125) -/

section AtNest
variable {s : Dev} {k ecc e : Nat} {t : Task} {c : Cmd} {w : WinD}

theorem nestOf_atNest (hat : AtNest s k t c e) : nestOf s k t c = some (descOf s k e) := by
  obtain ⟨-, -, hentry, -⟩ := hat
  rw [nestOf, hentry, Option.map_some]
theorem isNest_atNest (hat : AtNest s k t c e) : isNest s k [(descOf s k e).eng] t c = true := by
  have hnest := nestOf_atNest hat
  obtain ⟨-, htype, -⟩ := hat
  simp [isNest, hnest, htype]
theorem isWin_atNest (hat : AtNest s k t c e) : isWin s k (descOf s k e).eng (winAt s k (descOf s k e).wdesc).op t c = true := by
  simp [isWin, isNest_atNest hat, nestOf_atNest hat]

/-- The device when the work of the window command at entry `e` has been decided by its checks. -/
abbrev weOutcome (s : Dev) (k ecc e cove : Nat) (plain : Bool) : Dev :=
  weRun k cove plain (descOf s k e) (planOf s k (descOf s k e)) (nestStart k ecc e s)

/-- A ready engine runs the command of its OP. -/
theorem winCmd_runs (hat : AtNest s k t c e) (hecc : ecc ≠ 2) (hready : weReady s k = true) (heng : (descOf s k e).eng ≠ 3) :
    winCmd k ecc (descOf s k e).eng (winAt s k (descOf s k e).wdesc).op s = weOutcome s k ecc e t.cove false := by
  rw [winCmd, runCmd_runs _ hat.1 (by rw [hready, isWin_atNest hat]; rfl)]
  exact runNest_runs _ hat hecc (absurd · heng)

/-- An engine held in reset lets a PLAIN_OK convolution of a 1×1 filter pass. -/
theorem plainPathConv_runs (hat : AtNest s k t c e) (hecc : ecc ≠ 2) (hheld : tst s (Reg.WIN_STATUS k) 0 = true) (heng : (descOf s k e).eng = 1)
    (hw : w = winAt s k (descOf s k e).wdesc) (hop : w.op = 0) (hplain : w.plainOk = true) (hfh : w.fh = 1) (hfw : w.fw = 1) :
    plainPathConv k ecc s = weOutcome s k ecc e t.cove true := by
  have hwin : isWin s k 1 0 t c = true := by
    have h := isWin_atNest hat
    rwa [heng, ← hw, hop] at h
  rw [plainPathConv, runCmd_runs _ hat.1 (by simp [hheld, hwin, nestOf_atNest hat, ← hw, hplain, hfh, hfw])]
  exact runNest_runs _ hat hecc fun h => absurd (heng.symm.trans h) (by decide)

/-- Its window descriptor is the one that stood in core scratch before it started. -/
theorem winAt_nestStart (s : Dev) (k e x : Nat) (hecc : ecc ≠ 2) : winAt (nestStart k ecc e s) k x = winAt s k x := by
  obtain ⟨hmem, -⟩ := nestStart_frame k e s hecc
  exact hmem.winAt k x

variable (hecc : ecc ≠ 2) (hw : w = winAt s k (descOf s k e).wdesc) (hlegal : WinLegal (descOf s k e) w (planOf s k (descOf s k e)))
include hecc hw hlegal

/-- A command that fits the line buffer, or does not use it, ends when no block meets a fault. -/
theorem weOutcome_ended {cove : Nat} {plain : Bool} {u : Dev}
    (hfits : plain = true ∨ w.op = 4 ∨ lineNeed (descOf s k e) w (bodiesOf (planOf s k (descOf s k e))) ≤ 524288)
    (hwalk : weWalk k cove plain (descOf s k e) w (bodiesOf (planOf s k (descOf s k e))) (nestStart k ecc e s) = .ok u) :
    NestEnded k 0 u (weOutcome s k ecc e cove plain) := by
  have hstart : weStart plain (descOf s k e) w (planOf s k (descOf s k e)) = .run := by
    rw [weStart_of_legal plain hlegal, if_neg]
    rcases hfits with h | h | h <;> simp [h]
  simp only [weOutcome, weRun, winAt_nestStart s k e _ hecc, ← hw, hstart, hwalk]
  exact endNest_ended ..

/-- A command that does not fit the line buffer ends contained with WIN_LB_CAPACITY. -/
theorem weOutcome_overCapacity {cove : Nat} (htask : (coreOf s k).task.isSome = true) (hop : w.op ≠ 4)
    (hover : 524288 < lineNeed (descOf s k e) w (bodiesOf (planOf s k (descOf s k e)))) :
    tst (weOutcome s k ecc e cove false) (Reg.WIN_EVENT k) 4 = true ∧ Contained k s (weOutcome s k ecc e cove false) := by
  have hstart : weStart false (descOf s k e) w (planOf s k (descOf s k e)) = .lbOver := by
    rw [weStart_of_legal false hlegal, if_pos (by simp [hop, hover])]
  obtain ⟨hmem, -, hsome⟩ := nestStart_frame k e s hecc
  simp only [weOutcome, weRun, winAt_nestStart s k e _ hecc, ← hw, hstart]
  obtain ⟨hevent, hsame, hended⟩ := winFault_effect (k := k) (bit := 4) 4 0 0 (by decide) (hsome.trans htask)
  exact ⟨hevent, hmem.trans hsame, hended⟩

end AtNest

/-- A row of the window engine runs the commands of its engine code and OP (Table 5-1). -/
theorem exec_weRow {k : Fin 64} {ecc : Fin 3} {row : Instr × Nat × Nat} (hrow : row ∈ weRows k ecc) (s : State) :
    exec row.1 s = onDev (winCmd k ecc row.2.1 row.2.2) s ∧ row.2.1 ≠ 3 := by
  simp only [weRows, List.mem_cons, List.not_mem_nil, or_false] at hrow
  rcases hrow with rfl | rfl | rfl | rfl | rfl <;> exact ⟨rfl, by simp⟩

/-- Settles O27: the checks let a legal command run unless it needs too much line buffer, and the end of its nest is that of its walk. -/
theorem windowCommandsRunTheirNest : Obligations.WindowCommandsRunTheirNest := by
  unfold Obligations.WindowCommandsRunTheirNest
  intro s k ecc t c e w hawake hat hecc hw hlegal
  refine ⟨fun row hrow hready heng hop => ?_, fun hheld heng hop hplain hfh hfw u hwalk => ?_⟩
  · obtain ⟨hexec, hne⟩ := exec_weRow hrow s
    have hruns : winCmd k ecc row.2.1 row.2.2 s.dev = weOutcome s.dev k ecc e t.cove false := by
      rw [← heng, ← hop, hw]
      exact winCmd_runs hat hecc hready (heng ▸ hne)
    refine ⟨fun hfits u hwalk => Does.of_onDev hawake hexec ?_, fun hop4 hover => Does.of_onDev hawake hexec ?_⟩
    · rw [hruns]
      exact weOutcome_ended hecc hw hlegal (.inr hfits) hwalk
    · rw [hruns]
      exact weOutcome_overCapacity hecc hw hlegal (Option.isSome_of_eq_some hat.1.1) hop4 hover
  · refine Does.of_onDev (f := plainPathConv k ecc) hawake rfl ?_
    rw [plainPathConv_runs hat hecc hheld heng hw hop hplain hfh hfw]
    exact weOutcome_ended hecc hw hlegal (.inl rfl) hwalk

end Sys2Proof.Machine
end

section
/-! SUPPORT. The line buffer and the window register (R113, R115, R117, R128): what a row write and a gather leave. -/
set_option autoImplicit false
namespace Sys2Proof.Machine
open Sys2Proof

/-- The window engine of core `k`. -/
abbrev weOf (s : Dev) (k : Nat) : We := (coreOf s k).cx.we
theorem engine_showSlots_modWe (k : Nat) (f : We → We) (s : Dev) : (coreOf (showSlots k (modWe k f s)) k).cx.we = f (weOf s k) := by
  rw [showSlots, coreOf_wf, modWe, coreOf_modCore_same]
theorem sameMem_showSlots_modWe (k : Nat) (f : We → We) (s : Dev) : SameMem s (showSlots k (modWe k f s)) := (sameMem_modCore ..).trans (sameMem_wf ..)
theorem showSlots_modWe_err (k : Nat) (f : We → We) (s : Dev) : (showSlots k (modWe k f s)).err = s.err := by rw [showSlots, wf_err, modWe, modCore_err]

/-! ## A row write (R113, R115) -/

/-- The window engine with input row `row` written to slot `i`. -/
def rowStored (row i : Nat) (ps : List Pip) (e : We) : We :=
  { e with slots := mset (fun _ => none) e.slots i (some ⟨row, ps⟩), slotOf := mset (fun _ => 0) e.slotOf row i, written := row + 1 }
theorem rowStored_slot (row i : Nat) (ps : List Pip) (e : We) : mget (fun _ => none) (rowStored row i ps e).slots i = some ⟨row, ps⟩ := by
  simp [rowStored]
/-- An empty line buffer has its first slot released. -/
theorem find_released_of_empty {n : Nat} (h : n ≠ 0) :
    (List.range n).find? (fun i => (mget (fun _ => none) ([] : SMap (Option LineRow)) i).isNone) = some 0 := by
  obtain ⟨n, rfl⟩ := Nat.exists_eq_succ_of_ne_zero h
  rw [List.range_succ_eq_map, List.find?_cons_of_pos rfl]

section Geometry
variable {s : Dev} {k : Nat} {g : Desc} {w : WinD} {b : Body} {bl : WBlk} {p : WPart}

/-- The loader's next row, when some output row reads it, goes into the first released slot. -/
theorem lineBufferRowWrite_stores {blk part set row i : Nat} {ps : List Pip} (hready : weReady s k = true)
    (hgeom : weGeom s k blk part = some (g, w, b, bl, p)) (hat : (weOf s k).at_ = some ⟨blk, part, set⟩) (hnext : row = nextInput w p bl (weOf s k))
    (hlast : row ≤ inRow w p bl.y1 (p.hy - 1)) (hneeded : rowNeeded w p bl.y0 bl.y1 row = true)
    (hfree : (List.range (slotsOf w p)).find? (fun i => (mget (fun _ => none) (weOf s k).slots i).isNone) = some i)
    (hread : readLine k g w p b bl row s = .ok ps) :
    lineBufferRowWrite k blk part set row s = showSlots k (modWe k (rowStored row i ps) s) := by
  have hset (a bytes : Nat) : atSet k a blk part set bytes s = s := if_pos hat
  have horder : ¬(row ≠ nextInput w p bl (weOf s k) ∨ inRow w p bl.y1 (p.hy - 1) < row) := by simpa using ⟨hnext, hlast⟩
  simp only [lineBufferRowWrite, hready, hgeom, hset, if_neg horder, hneeded, hfree, hread, Bool.not_true, Bool.false_eq_true, if_false]
  rfl

/-! ## A gather (R117, R128) -/

/-- The pip of tap `t` at output pixel `yx`, from the slot that holds its input row. -/
def gatheredPip (w : WinD) (p : WPart) (bl : WBlk) (yx : Nat × Nat) (e : We) (t : Tap) : Pip :=
  match slotWith e (inRow w p yx.1 t.fy) with
  | some x => x.2.pips.getD ((inCol w p yx.2 t.fx - inCol w p bl.x0 0) * w.cp + t.p) zeroPip
  | none => zeroPip
/-- The window engine with pips gathered at output pixel `yx`; the last one of a row releases the slots that no later row reads. -/
def gathered (w : WinD) (p : WPart) (bl : WBlk) (yx : Nat × Nat) (ps : List Pip) (e : We) : We :=
  if yx.2 = bl.x1 then releaseSlots w p (yx.1 + 1) bl.y1 (fillHalves ps.length ps e) else fillHalves ps.length ps e
/-- A release of slots leaves the window register. -/
theorem gathered_window (w : WinD) (p : WPart) (bl : WBlk) (yx : Nat × Nat) (ps : List Pip) (e : We) :
    (gathered w p bl yx ps e).win = (fillHalves ps.length ps e).win ∧ (gathered w p bl yx ps e).half = (fillHalves ps.length ps e).half := by
  rw [gathered]
  split <;> exact ⟨rfl, rfl⟩

/-- The geometry in progress is that of the command of a core's task. -/
theorem task_of_weGeom {blk part : Nat} {x : Desc × WinD × Body × WBlk × WPart} (h : weGeom s k blk part = some x) :
    (coreOf s k).task.isSome = true := by
  cases htask : (coreOf s k).task with
  | none => simp [weGeom, curNest, htask] at h
  | some t => rfl

variable {x : WeAt} (hready : weReady s k = true) (hat : (weOf s k).at_ = some x) (hgeom : weGeom s k x.blk x.part = some (g, w, b, bl, p))
include hready hat hgeom

/-- A gather whose rows are all present takes one pip for each tap of the set in progress. -/
theorem windowGather_fills {m : Nat} {ts : List Tap} (hts : ts = (if w.op ≤ 1 then partSets w p (arraysOf k) b else [convTaps w p]).getD x.set [])
    (hm : m < bl.pixels) (hrows : ∀ t ∈ ts, inRow w p (bl.pixel m).1 t.fy < (weOf s k).written ∧
      (slotWith (weOf s k) (inRow w p (bl.pixel m).1 t.fy)).isSome = true) :
    windowGather k m .none s =
      showSlots k (modWe k (fun _ => gathered w p bl (bl.pixel m) (ts.map (gatheredPip w p bl (bl.pixel m) (weOf s k))) (weOf s k)) s) := by
  have hwritten : ((ts.map fun t => inRow w p (bl.pixel m).1 t.fy).any fun r => decide ((weOf s k).written ≤ r)) = false := by
    simpa using fun t ht => (hrows t ht).1
  have hheld : ((ts.map fun t => inRow w p (bl.pixel m).1 t.fy).find? fun r => (slotWith (weOf s k) r).isNone) = none := by
    simpa [Option.isSome_iff_ne_none] using fun t ht => (hrows t ht).2
  simp only [windowGather, hready, hat, hgeom, ← hts, hwritten, hheld, if_neg hm.not_ge, if_true, reduceCtorEq, if_false, Bool.false_eq_true]
  rfl

theorem windowGather_parity (m slot : Nat) : windowGather k m (.parity slot) s = winFault k 2 2 slot 0 s := by
  simp [windowGather, hready, hat, hgeom]

end Geometry

/-- Settles O28: a row write stores its row in the first slot of the empty line buffer, a gather fills the halves, and a parity mismatch is a fault. -/
theorem lineBufferFillsAndGathers : Obligations.LineBufferFillsAndGathers := by
  unfold Obligations.LineBufferFillsAndGathers
  intro s k g w b bl p hawake
  refine ⟨fun blk part set row ps hready hgeom hat hnext hlast hneeded hempty hslots hread => ?_,
    fun x m ts hready hat hgeom hts hm hrows => ?_, fun x m slot hready hat hgeom => ?_⟩
  · refine Does.of_onDev (f := lineBufferRowWrite k blk part set row) hawake rfl ⟨0, ?_⟩
    have hfree := find_released_of_empty hslots
    rw [← hempty] at hfree
    rw [lineBufferRowWrite_stores hready hgeom hat hnext hlast hneeded hfree hread, engine_showSlots_modWe]
    exact ⟨rowStored_slot .., rfl, sameMem_showSlots_modWe ..⟩
  · refine Does.of_onDev (f := windowGather k m .none) hawake rfl ?_
    rw [windowGather_fills hready hat hgeom hts hm hrows, engine_showSlots_modWe]
    obtain ⟨hwin, hhalf⟩ := gathered_window w p bl (bl.pixel m) (ts.map (gatheredPip w p bl (bl.pixel m) (weOf s.dev k))) (weOf s.dev k)
    exact ⟨⟨_, List.length_map _, hwin, hhalf⟩, showSlots_modWe_err .., sameMem_showSlots_modWe ..⟩
  · refine Does.of_onDev (f := windowGather k m (.parity slot)) hawake rfl ?_
    rw [windowGather_parity hready hat hgeom]
    exact winFault_effect 2 slot 0 (by decide) (task_of_weGeom hgeom)

end Sys2Proof.Machine
end

section
/-! SUPPORT. The division of a split level among the cores of a cove (R142). -/
set_option autoImplicit false
namespace Sys2Proof.Machine
open Sys2Proof

/-- The granules before part `i` when `u` granules are divided among `g` cores: the first `u % g` parts hold one more. -/
def splitBound (u g i : Nat) : Nat := i * (u / g) + min i (u % g)

theorem splitBound_zero (u g : Nat) : splitBound u g 0 = 0 := by simp [splitBound]
theorem splitBound_succ (u g i : Nat) : splitBound u g (i + 1) = splitBound u g i + (u / g + if i < u % g then 1 else 0) := by
  have hmul : (i + 1) * (u / g) = i * (u / g) + u / g := Nat.succ_mul ..
  simp only [splitBound, hmul]
  split <;> omega
theorem splitBound_all (u : Nat) {g : Nat} (hg : 0 < g) : splitBound u g g = u := by
  rw [splitBound, min_eq_right (Nat.mod_lt u hg).le, Nat.div_add_mod]
theorem splitBound_monotone (u g : Nat) : Monotone (splitBound u g) := monotone_nat_of_le_succ fun i => by
  rw [splitBound_succ]
  exact Nat.le_add_right ..

/-- An index lies in part `i` when its granule does. -/
theorem mem_partOf_iff {cnt gran x : Nat} (g i : Nat) (hgran : 0 < gran) (hx : x < cnt) :
    ((partOf cnt g i gran).1 ≤ x ∧ x < (partOf cnt g i gran).1 + (partOf cnt g i gran).2) ↔
      splitBound (ceilDiv cnt gran) g i ≤ x / gran ∧ x / gran < splitBound (ceilDiv cnt gran) g (i + 1) := by
  have hstart : (partOf cnt g i gran).1 = splitBound (ceilDiv cnt gran) g i * gran := rfl
  have hlen : (partOf cnt g i gran).1 + (partOf cnt g i gran).2 =
      (partOf cnt g i gran).1 + min (splitBound (ceilDiv cnt gran) g (i + 1) * gran - (partOf cnt g i gran).1) (cnt - (partOf cnt g i gran).1) := by
    rw [splitBound_succ, Nat.add_mul, hstart, Nat.add_sub_cancel_left]
    rfl
  rw [hlen, hstart, Nat.le_div_iff_mul_le hgran, Nat.div_lt_iff_lt_mul hgran]
  omega

theorem div_lt_ceilDiv {cnt gran x : Nat} (hgran : 0 < gran) (hx : x < cnt) : x / gran < ceilDiv cnt gran := by
  rw [ceilDiv, Nat.lt_div_iff_mul_lt hgran]
  have hle := Nat.div_mul_le_self x gran
  omega

/-- What climbs from `f 0` past `y` at `f g` passes it at some step. -/
theorem exists_step_past {f : Nat → Nat} {y : Nat} (h0 : f 0 ≤ y) : ∀ {g : Nat}, y < f g → ∃ i < g, f i ≤ y ∧ y < f (i + 1)
  | 0, hy => absurd hy h0.not_gt
  | g + 1, hy => by
    by_cases hg : y < f g
    · obtain ⟨i, hi, hstep⟩ := exists_step_past h0 hg
      exact ⟨i, Nat.lt_succ_of_lt hi, hstep⟩
    · exact ⟨g, Nat.lt_succ_self g, Nat.not_lt.1 hg, hy⟩

/-- A granule lies in one part alone. -/
theorem splitBound_step_unique {u g i j y : Nat} (hi : splitBound u g i ≤ y ∧ y < splitBound u g (i + 1))
    (hj : splitBound u g j ≤ y ∧ y < splitBound u g (j + 1)) : j = i := by
  by_contra hne
  exact Set.disjoint_left.1 ((splitBound_monotone u g).pairwise_disjoint_on_Ico_succ hne) hj hi

/-- Settles O22: the parts' bounds climb from 0 to the number of granules, so each granule lies between two of them. -/
theorem splitPartsCoverOnce : Obligations.SplitPartsCoverOnce := by
  unfold Obligations.SplitPartsCoverOnce
  intro cnt g gran x hg hgran hx
  have hlast : x / gran < splitBound (ceilDiv cnt gran) g g := by
    rw [splitBound_all _ hg]
    exact div_lt_ceilDiv hgran hx
  obtain ⟨i, hi, hstep⟩ := exists_step_past ((splitBound_zero ..).trans_le (Nat.zero_le _)) hlast
  exact ⟨i, hi, (mem_partOf_iff g i hgran hx).2 hstep,
    fun j _ hfrom hto => splitBound_step_unique hstep ((mem_partOf_iff g j hgran hx).1 ⟨hfrom, hto⟩)⟩

end Sys2Proof.Machine
end

section
/-! SUPPORT. Host writes to a core's descriptor block (R131, R132, R144): one that is taken stores its value, one that is not shows HOST_REJECT. -/
set_option autoImplicit false
namespace Sys2Proof.Machine
open Sys2Proof

theorem lpdReject_effect (k : Nat) (s : Dev) : tst (lpdReject k s) (Reg.LPD_STATUS k) 9 = true ∧ SameRegs [Reg.LPD_STATUS k] s (lpdReject k s) :=
  ⟨tst_setB_same _ 9 true s (by decide), sameRegs_setB _ 9 true s⟩
theorem wrN_effect {n : Nat} (a : Nat) (s : Dev) (hn : n < 2 ^ 32) : rdN (wrN a n s) a = n ∧ SameRegs [a] s (wrN a n s) :=
  ⟨by rw [rdN_wrN_same, Nat.mod_eq_of_lt hn], sameRegs_wrN a n s⟩

section Writes
variable {s : Dev} {k : Nat}

theorem lpdRangeWrite_taken {c : Nat} {v : Word} (h : rangeOverlaps s k c (bits v.toNat 0 6) (bits v.toNat 6 7) = false) :
    lpdRangeWrite k c v s = wrN (Reg.LPD_RANGE k c) (bits v.toNat 0 13) s := by simp [lpdRangeWrite, h]
theorem lpdRangeWrite_rejected {c : Nat} {v : Word} (h : rangeOverlaps s k c (bits v.toNat 0 6) (bits v.toNat 6 7) = true) :
    lpdRangeWrite k c v s = lpdReject k s := by simp [lpdRangeWrite, h]
theorem lpdShapeWrite_taken (i : Nat) (v : Word) (h : coreInRunning s k = false) : lpdShapeWrite k i v s = wrN (Reg.LPD_SHAPE k i) v.toNat s := by
  simp [lpdShapeWrite, h]
theorem lpdShapeWrite_rejected (i : Nat) (v : Word) (h : coreInRunning s k = true) : lpdShapeWrite k i v s = lpdReject k s := by
  simp [lpdShapeWrite, h]
theorem lpdTableWrite_taken (e j : Nat) (v : Word) (h : coreInRunning s k = false) :
    lpdTableWrite k e j v s = wrN (Reg.LPD_TABLE k e j) v.toNat s := by simp [lpdTableWrite, h]
theorem lpdTableWrite_rejected (e j : Nat) (v : Word) (h : coreInRunning s k = true) : lpdTableWrite k e j v s = lpdReject k s := by
  simp [lpdTableWrite, h]

end Writes

/-- Settles O29: each write is either stored in its own register or shown as rejected. -/
theorem descriptorWritesKeepTheRules : Obligations.DescriptorWritesKeepTheRules := by
  unfold Obligations.DescriptorWritesKeepTheRules
  intro s k v hawake
  have hrange : bits v.toNat 0 13 < 2 ^ 32 := (Nat.mod_lt _ (by decide)).trans (by decide : 2 ^ 13 < 2 ^ 32)
  refine ⟨fun c hfree => ?_, fun c hover => ?_, fun i hfree => ?_, fun i hrun => ?_, fun e j hfree => ?_, fun e j hrun => ?_⟩
  · refine Does.of_onDev (f := lpdRangeWrite k c v) hawake rfl ?_
    rw [lpdRangeWrite_taken hfree]
    exact wrN_effect _ s.dev hrange
  · refine Does.of_onDev (f := lpdRangeWrite k c v) hawake rfl ?_
    rw [lpdRangeWrite_rejected hover]
    exact lpdReject_effect k s.dev
  · refine Does.of_onDev (f := lpdShapeWrite k i v) hawake rfl ?_
    rw [lpdShapeWrite_taken i v hfree]
    exact wrN_effect _ s.dev v.isLt
  · refine Does.of_onDev (f := lpdShapeWrite k i v) hawake rfl ?_
    rw [lpdShapeWrite_rejected i v hrun]
    exact lpdReject_effect k s.dev
  · refine Does.of_onDev (f := lpdTableWrite k e j v) hawake rfl ?_
    rw [lpdTableWrite_taken e j v hfree]
    exact wrN_effect _ s.dev v.isLt
  · refine Does.of_onDev (f := lpdTableWrite k e j v) hawake rfl ?_
    rw [lpdTableWrite_rejected e j v hrun]
    exact lpdReject_effect k s.dev

end Sys2Proof.Machine
end

section
/-! SUPPORT. What a nest of any engine does at its start and end (R133, R145, R147): an uncorrectable entry, and the counters of Table 6-9. -/
set_option autoImplicit false
namespace Sys2Proof.Machine
open Sys2Proof

/-! ## An uncorrectable descriptor (R133) -/

theorem lpdEvent_notMem_idleRegs (k : Nat) : Reg.LPD_EVENT k ∉ idleRegs k := by
  simp only [idleRegs, List.mem_cons, List.not_mem_nil, or_false, Reg.LPD_EVENT, Reg.LPD_STATUS, Reg.WIN_STATUS, Reg.ARR_ACC_USE, Reg.ARR_STATUS, coreBase]
  omega

theorem entryEcc_uncorrectable {s : Dev} {k : Nat} (e : Nat) (htask : (coreOf s k).task.isSome = true) :
    (entryEcc k e 2 s).2 = false ∧ tst (entryEcc k e 2 s).1 (Reg.LPD_EVENT k) 1 = true ∧ Contained k s (entryEcc k e 2 s).1 := by
  have hshown := (sameRest_wf (Reg.LPD_ECC_CNT k) 16 16 (satAdd (rf s (Reg.LPD_ECC_CNT k) 16 16) 1 0xFFFF) s).trans
    (sameRest_wrN (Reg.LPD_FAULT_INFO k) (1 + e * 2 ^ 5) _)
  obtain ⟨hmem, hended⟩ := faultCore_contained (k := k) 0x0401 (1 + e * 2 ^ 5) (by rw [hshown.coreOf, htask])
  exact ⟨rfl, faultCore_event _ _ rfl (lpdEvent_notMem_idleRegs k) (by decide), hshown.sameMem.trans hmem, hended⟩

/-- A nest whose entry cannot be read ends contained before any work. -/
theorem runNest_uncorrectable {s : Dev} {k e : Nat} {t : Task} {c : Cmd} (body : Desc → List PLev → Dev → Dev) (hat : AtNest s k t c e) :
    tst (runNest k 2 t c body (startCmd k s)) (Reg.LPD_EVENT k) 1 = true ∧ Contained k s (runNest k 2 t c body (startCmd k s)) := by
  obtain ⟨⟨htask, -⟩, -, hentry, -⟩ := hat
  have hshow := sameRest_showNest k (descOf (startCmd k s) k e) (startCmd k s)
  obtain ⟨hstop, hevent, hmem, hended⟩ := entryEcc_uncorrectable (s := showNest k (descOf (startCmd k s) k e) (startCmd k s)) (k := k) e
    (by rw [hshow.coreOf, task_startCmd_isSome, htask, Option.isSome_some])
  simp only [runNest, nestEntry_startCmd, hentry, hstop, Bool.not_false, if_true]
  exact ⟨hevent, ((sameMem_startCmd k s).trans hshow.sameMem).trans hmem, hended⟩

/-! ## What a nest finds when its work begins -/

theorem nestRegs_notMem_wp {k cove i : Nat} (hcove : cove < 8) (hi : i < 8) : Reg.SCH_COVE_WP_LO cove + i ∉ nestRegs k := by
  simp only [nestRegs, List.mem_cons, List.not_mem_nil, or_false, Reg.SCH_COVE_WP_LO, Reg.LPD_STATUS, Reg.LPD_ECC_CNT, Reg.LPD_EVENT, coreBase]
  omega
theorem veOf_nestStart {s : Dev} {k ecc e cove : Nat} (hecc : ecc ≠ 2) (hcove : cove < 8) (i : Nat) : veOf (nestStart k ecc e s) cove i = veOf s cove i := by
  obtain ⟨hmem, hregs, -⟩ := nestStart_frame k e s hecc
  exact veOf_of_same hmem hregs (nestRegs_notMem_wp (i := 0) hcove (by decide)) (nestRegs_notMem_wp (i := 4) hcove (by decide)) i

/-! ## The counters of a nest that has ended (Table 6-9) -/

theorem rdN_whenS_bump_other {a b : Nat} (cond : Bool) (s : Dev) (h : b ≠ a) : rdN (whenS cond (bump a 1) s) b = rdN s b :=
  whenS_rel (fun u v => rdN v b = rdN u b) (fun _ => rfl) cond _ s (rdN_bump_other 1 s h)
theorem rdN_endNest_ok (k : Nat) (d : Desc) (status : Nat) (ovr k0 : Bool) (s0 u : Dev) (a : Nat) :
    rdN (endNest k d status ovr k0 s0 (.ok u)) a = rdN (nestCounted k status ovr k0 u) a := by
  rw [endNest_ok, finishCmd, modTask, rdN_modCore, closeTiles, rdN_modCore]

/-- A nest that ended EMPTY counts in LPD_EMPTY_CNT (R145). -/
theorem rdN_endNest_empty (k : Nat) (d : Desc) (ovr k0 : Bool) (s0 u : Dev) :
    rdN (endNest k d 1 ovr k0 s0 (.ok u)) (Reg.LPD_EMPTY_CNT k) = (rdN u (Reg.LPD_EMPTY_CNT k) + 1) % 2 ^ 32 := by
  have harr : Reg.LPD_EMPTY_CNT k ≠ Reg.ARR_STATUS k := by
    simp only [Reg.LPD_EMPTY_CNT, Reg.ARR_STATUS, coreBase]
    omega
  rw [rdN_endNest_ok, nestCounted, rdN_whenS_bump_other _ _ (by simp [Reg.LPD_EMPTY_CNT, Reg.LPD_OVERPLAN_CNT]),
    rdN_whenS_bump_other _ _ (by simp [Reg.LPD_EMPTY_CNT, Reg.LPD_K0_CNT]), beq_self_eq_true, whenS, if_pos rfl, rdN_bump_same,
    rdN_bump_other _ _ (by simp [Reg.LPD_EMPTY_CNT, Reg.LPD_CMD_CNT]), rdN_wf_other _ _ _ _ harr]

/-- A nest that took the K = 0 path counts in LPD_K0_CNT (R145). -/
theorem rdN_endNest_k0 (k : Nat) (d : Desc) (status : Nat) (ovr : Bool) (s0 u : Dev) :
    rdN (endNest k d status ovr true s0 (.ok u)) (Reg.LPD_K0_CNT k) = (rdN u (Reg.LPD_K0_CNT k) + 1) % 2 ^ 32 := by
  have harr : Reg.LPD_K0_CNT k ≠ Reg.ARR_STATUS k := by
    simp only [Reg.LPD_K0_CNT, Reg.ARR_STATUS, coreBase]
    omega
  rw [rdN_endNest_ok, nestCounted, rdN_whenS_bump_other _ _ (by simp [Reg.LPD_K0_CNT, Reg.LPD_OVERPLAN_CNT]), whenS, if_pos rfl, rdN_bump_same,
    rdN_whenS_bump_other _ _ (by simp [Reg.LPD_K0_CNT, Reg.LPD_EMPTY_CNT]), rdN_bump_other _ _ (by simp [Reg.LPD_K0_CNT, Reg.LPD_CMD_CNT]),
    rdN_wf_other _ _ _ _ harr]

/-- A nest that ends EMPTY at once leaves memory as it was and counts (R145). -/
theorem endNest_empty {s : Dev} {k ecc e : Nat} (d : Desc) (ovr k0 : Bool) (s0 : Dev) (hecc : ecc ≠ 2) :
    NestEnded k 1 (nestStart k ecc e s) (endNest k d 1 ovr k0 s0 (.ok (nestStart k ecc e s))) ∧
      SameMem s (endNest k d 1 ovr k0 s0 (.ok (nestStart k ecc e s))) ∧
      rdN (endNest k d 1 ovr k0 s0 (.ok (nestStart k ecc e s))) (Reg.LPD_EMPTY_CNT k) = (rdN s (Reg.LPD_EMPTY_CNT k) + 1) % 2 ^ 32 := by
  obtain ⟨hkept, hended⟩ := endNest_ended k d 1 ovr k0 s0 (nestStart k ecc e s)
  obtain ⟨hmem, hregs, -⟩ := nestStart_frame k e s hecc
  refine ⟨⟨hkept, hended⟩, hmem.trans hkept, ?_⟩
  rw [rdN_endNest_empty, hregs _ (by simp [nestRegs, Reg.LPD_EMPTY_CNT, Reg.LPD_STATUS, Reg.LPD_ECC_CNT, Reg.LPD_EVENT])]

end Sys2Proof.Machine
end

section
/-! SUPPORT. The nests of the vector engine and the arrays (R138 to R140, R145): which nest each runs, and how it ends. -/
set_option autoImplicit false
namespace Sys2Proof.Machine
open Sys2Proof

/-! ## Vector-engine nests (R140, R196) -/

/-- The work of a vector-engine nest that passed its checks: `veNest`'s own. -/
def veWork (k cove : Nat) (d : Desc) (ps : List PLev) (s : Dev) : Dev :=
  if ps.any fun p => p.cnt == 0 then endNest k d 1 (overPlan ps) false s (.ok s)
  else match veOf s cove d.epi with
    | some v => endNest k d 0 (overPlan ps) false s (walkVe k d v ps s)
    | none => cmdInvalid k s

theorem veWork_empty {ps : List PLev} (k cove : Nat) (d : Desc) (s : Dev) (h : ∃ p ∈ ps, p.cnt = 0) :
    veWork k cove d ps s = endNest k d 1 (overPlan ps) false s (.ok s) := if_pos (by simpa using h)
theorem veWork_walks {ps : List PLev} {cove : Nat} {d : Desc} {s : Dev} {v : Ve} (k : Nat) (h : ∀ p ∈ ps, p.cnt ≠ 0) (hv : veOf s cove d.epi = some v) :
    veWork k cove d ps s = endNest k d 0 (overPlan ps) false s (walkVe k d v ps s) := by
  rw [veWork, if_neg (by simpa using h), hv]

/-- The records that `veNest` runs, over any outcome `b` of the check of the engine, any entries `g` of the package and any descriptor `o`. -/
theorem veRecord_wanted_iff (f : Nat) (b : Bool) (g : Nat → Option Ve) (o : Option Desc) : (b && (match o with
    | some d => (match g d.epi with | some v => v.func == f | none => true)
    | none => true)) = true ↔ b = true ∧ ∀ d, o = some d → ∀ v, g d.epi = some v → v.func = f := by
  cases o with
  | none => simp
  | some d => cases h : g d.epi <;> simp [h]

section Ve
variable {s : Dev} {k e f : Nat} {t : Task} {c : Cmd} {v : Ve} (hat : AtNest s k t c e) (heng : (descOf s k e).eng = 3)
  (hv : veOf s t.cove (descOf s k e).epi = some v) (hfunc : v.func = f)
include hat heng hv hfunc

/-- The row of the function that the nest's VE entry names runs it. The package's entries and the descriptor become variables before the match on them is
taken apart: the kernel would compute with them otherwise. -/
theorem veNest_atNest (ecc : Nat) : veNest k ecc f s = runNest k ecc t c (veWork k t.cove) (startCmd k s) := by
  have hnest : isNest s k [3] t c = true := heng ▸ isNest_atNest hat
  have hnames : ∀ d, nestOf s k t c = some d → ∀ x, veOf s t.cove d.epi = some x → x.func = f := fun d hd x hx => by
    obtain rfl : descOf s k e = d := Option.some.inj ((nestOf_atNest hat).symm.trans hd)
    obtain rfl : v = x := Option.some.inj (hv.symm.trans hx)
    exact hfunc
  rw [veNest, runCmd_runs _ hat.1]
  · rfl
  · generalize veOf s t.cove = g at hnames ⊢
    generalize nestOf s k t c = o at hnames ⊢
    exact (veRecord_wanted_iff f _ g o).2 ⟨hnest, hnames⟩

theorem veNest_runs {ecc : Nat} (hecc : ecc ≠ 2) :
    veNest k ecc f s = veWork k t.cove (descOf s k e) (planOf s k (descOf s k e)) (nestStart k ecc e s) := by
  rw [veNest_atNest hat heng hv hfunc, runNest_runs _ hat hecc fun _ => Option.isSome_of_eq_some hv]

end Ve

/-- A row of the vector engine runs the nests of its function (Table 8-4). -/
theorem exec_veRow (k : Fin 64) (ecc : Fin 3) (s : State) : ∀ row ∈ veRows k ecc, exec row.1 s = onDev (veNest k ecc row.2) s := by
  simp only [veRows, List.forall_mem_cons, List.not_mem_nil, false_imp_iff, implies_true, and_true]
  and_intros <;> exact rfl

/-- Settles O25: a row runs the nest of its function, which stops at an uncorrectable entry, is empty at a count of 0, and else ends as its walk does. -/
theorem veNestsRunTheirFunction : Obligations.VeNestsRunTheirFunction := by
  unfold Obligations.VeNestsRunTheirFunction
  intro s k ecc row t c e v hawake hrow hat heng hv hfunc
  have hexec := exec_veRow k ecc s row hrow
  have ⟨⟨_, hcove, _⟩, _⟩ := hat
  refine ⟨fun hecc => Does.of_onDev hawake hexec ?_, fun hecc hempty => Does.of_onDev hawake hexec ?_,
    fun hecc hfull u hwalk => Does.of_onDev hawake hexec ?_⟩
  · rw [hecc, veNest_atNest hat heng hv hfunc]
    exact runNest_uncorrectable _ hat
  · rw [veNest_runs hat heng hv hfunc hecc, veWork_empty _ _ _ _ hempty]
    exact endNest_empty _ _ _ _ hecc
  · rw [veNest_runs hat heng hv hfunc hecc, veWork_walks _ hfull ((veOf_nestStart hecc hcove _).trans hv), hwalk]
    exact endNest_ended ..

/-! ## Matrix products (R139, R145) -/

/-- The work of a matrix product that passed its checks: `nestMatrixProduct`'s own. -/
def matWork (k cove : Nat) (d : Desc) (ps : List PLev) (s : Dev) : Dev :=
  if ps.any fun p => p.l.dim != 3 && p.cnt == 0 then endNest k d 1 (overPlan ps) false s (.ok s)
  else endNest k d 0 (overPlan ps) (ps.any fun p => p.l.dim == 3 && p.cnt == 0) s
    (walkMat k cove d (ps.any fun p => p.l.dim == 3 && p.cnt == 0) ps s)

theorem matWork_empty {ps : List PLev} (k cove : Nat) (d : Desc) (s : Dev) (h : ∃ p ∈ ps, p.l.dim ≠ 3 ∧ p.cnt = 0) :
    matWork k cove d ps s = endNest k d 1 (overPlan ps) false s (.ok s) := if_pos (by simpa using h)
theorem matWork_walks {ps : List PLev} {k0 : Bool} (k cove : Nat) (d : Desc) (s : Dev) (h : ∀ p ∈ ps, p.l.dim ≠ 3 → p.cnt ≠ 0)
    (hk0 : k0 = ps.any fun p => p.l.dim == 3 && p.cnt == 0) :
    matWork k cove d ps s = endNest k d 0 (overPlan ps) k0 s (walkMat k cove d k0 ps s) := by
  rw [matWork, if_neg (by simpa using h), ← hk0]

section Mat
variable {s : Dev} {k e : Nat} {t : Task} {c : Cmd} (hat : AtNest s k t c e) (heng : (descOf s k e).eng = 0)
include hat heng

theorem nestMatrixProduct_atNest (ecc : Nat) : nestMatrixProduct k ecc s = runNest k ecc t c (matWork k t.cove) (startCmd k s) :=
  runCmd_runs _ hat.1 (heng ▸ isNest_atNest hat)
theorem nestMatrixProduct_runs {ecc : Nat} (hecc : ecc ≠ 2) :
    nestMatrixProduct k ecc s = matWork k t.cove (descOf s k e) (planOf s k (descOf s k e)) (nestStart k ecc e s) := by
  rw [nestMatrixProduct_atNest hat heng, runNest_runs _ hat hecc fun h => absurd (heng.symm.trans h) (by decide)]

end Mat

/-- Settles O26: the product stops at an uncorrectable entry, is empty where a level other than K is, and else ends as its walk does. -/
theorem matrixProductsRunTheirNest : Obligations.MatrixProductsRunTheirNest := by
  unfold Obligations.MatrixProductsRunTheirNest
  intro s k ecc t c e hawake hat heng
  refine ⟨fun hecc => ?_, fun hecc hempty => ?_, fun k0 u hecc hfull hk0 hwalk => ?_⟩
  · refine Does.of_onDev (f := nestMatrixProduct k ecc) hawake rfl ?_
    rw [hecc, nestMatrixProduct_atNest hat heng]
    exact runNest_uncorrectable _ hat
  · refine Does.of_onDev (f := nestMatrixProduct k ecc) hawake rfl ?_
    rw [nestMatrixProduct_runs hat heng hecc, matWork_empty _ _ _ _ hempty]
    obtain ⟨hended, hmem, -⟩ := endNest_empty (descOf s.dev k e) _ false (nestStart k ecc e s.dev) hecc
    exact ⟨hended, hmem⟩
  · refine Does.of_onDev (f := nestMatrixProduct k ecc) hawake rfl ?_
    rw [nestMatrixProduct_runs hat heng hecc, matWork_walks _ _ _ _ hfull hk0, hwalk]
    refine ⟨endNest_ended .., fun htrue => ?_⟩
    rw [htrue]
    exact rdN_endNest_k0 ..

end Sys2Proof.Machine
end

section
/-! SUPPORT. Registers that a change keeps, named by a predicate: for changes that write registers of a whole table. -/
set_option autoImplicit false
namespace Sys2Proof.Machine
open Sys2Proof

/-- Every register whose offset meets `p` reads the same. -/
def KeepsRegs (p : Nat → Prop) (a b : Dev) : Prop := ∀ x, p x → rdN b x = rdN a x

theorem KeepsRegs.refl (p : Nat → Prop) (a : Dev) : KeepsRegs p a a := fun _ _ => rfl
theorem KeepsRegs.trans {p : Nat → Prop} {a b c : Dev} (h : KeepsRegs p a b) (k : KeepsRegs p b c) : KeepsRegs p a c := fun x hx => (k x hx).trans (h x hx)
theorem KeepsRegs.rf {p : Nat → Prop} {a b : Dev} (h : KeepsRegs p a b) {x : Nat} (hx : p x) (lo len : Nat) : rf b x lo len = rf a x lo len := by
  unfold Machine.rf
  rw [h x hx]
theorem KeepsRegs.mono {p q : Nat → Prop} {a b : Dev} (h : KeepsRegs p a b) (hpq : ∀ x, q x → p x) : KeepsRegs q a b := fun x hx => h x (hpq x hx)
theorem KeepsRegs.tst {p : Nat → Prop} {a b : Dev} (h : KeepsRegs p a b) {x : Nat} (hx : p x) (i : Nat) : tst b x i = tst a x i := by
  unfold Machine.tst
  rw [h x hx]
theorem KeepsRegs.rd64 {p : Nat → Prop} {a b : Dev} (h : KeepsRegs p a b) {x : Nat} (hx : p x) (hx4 : p (x + 4)) : rd64 b x = rd64 a x := by
  unfold Machine.rd64
  rw [h x hx, h _ hx4]
theorem SameRegs.keeps {p : Nat → Prop} {l : List Nat} {a b : Dev} (h : SameRegs l a b) (hp : ∀ x ∈ l, ¬p x) : KeepsRegs p a b := fun x hx =>
  h x fun hl => hp x hl hx
theorem keepsRegs_wrN {p : Nat → Prop} {a : Nat} (n : Nat) (s : Dev) (h : ¬p a) : KeepsRegs p s (wrN a n s) :=
  (sameRegs_wrN a n s).keeps (by simpa using h)
theorem keepsRegs_of_regs (p : Nat → Prop) {a b : Dev} (h : b.regs = a.regs) : KeepsRegs p a b := fun x _ => rdN_congr h x
theorem keepsRegs_forS {α : Type} {p : Nat → Prop} (l : List α) (f : α → Dev → Dev) (h : ∀ x ∈ l, ∀ d, KeepsRegs p d (f x d)) (s : Dev) :
    KeepsRegs p s (forS l f s) :=
  forS_rel (KeepsRegs p) (KeepsRegs.refl p) (fun _ _ _ => KeepsRegs.trans) l f h s

end Sys2Proof.Machine
end

section
/-! SUPPORT. Coves and their packages (R191 to R194): what is read of a package, how a cove's state is entered, and how a cove faults. -/
set_option autoImplicit false
namespace Sys2Proof.Machine
open Sys2Proof

/-! ## What a cove keeps beside its registers -/

theorem coveOf_congr {a b : Dev} (h : b.coves = a.coves) (c : Nat) : coveOf b c = coveOf a c := by
  unfold coveOf
  rw [h]
theorem runOf_congr {a b : Dev} (h : b.coves = a.coves) (c : Nat) : runOf b c = runOf a c := congrArg Cove.run (coveOf_congr h c)
theorem SameRest.coves {a b : Dev} (h : SameRest a b) : b.coves = a.coves := by
  unfold SameRest at h
  rw [h]
@[simp] theorem coveOf_modCove_same (c : Nat) (f : Cove → Cove) (s : Dev) : coveOf (modCove c f s) c = f (coveOf s c) := mget_mset_same _ _ _ _
theorem sameMem_modCove (c : Nat) (f : Cove → Cove) (s : Dev) : SameMem s (modCove c f s) := ⟨rfl, rfl, rfl, rfl⟩

/-! ## What is read of a package (R192) -/

/-- The package of a cove reads the same: no memory has changed, and its address has not. -/
structure SamePackage (c : Nat) (a b : Dev) : Prop where
  mem : SameMem a b
  wp : wpOf b c = wpOf a c
theorem SamePackage.of_regs {c : Nat} {l : List Nat} {a b : Dev} (hmem : SameMem a b) (h : SameRegs l a b) (hlo : Reg.SCH_COVE_WP_LO c ∉ l)
    (hhi : Reg.SCH_COVE_WP_LO c + 4 ∉ l) : SamePackage c a b :=
  ⟨hmem, by rw [wpOf, wpOf, baseAddr, baseAddr, rd64_of_same h hlo hhi]⟩
theorem SamePackage.field {c : Nat} {a b : Dev} (h : SamePackage c a b) (x n : Nat) : wpField b c x n = wpField a c x n := by
  rw [wpField, wpField, h.wp, h.mem.rdLE]
theorem SamePackage.stages {c : Nat} {a b : Dev} (h : SamePackage c a b) : nStages b c = nStages a c := h.field 7 1
theorem SamePackage.stageKind {c : Nat} {a b : Dev} (h : SamePackage c a b) (i : Nat) : stageKind b c i = stageKind a c i := by
  rw [Machine.stageKind, Machine.stageKind, stageAt, stageAt, h.wp, h.field, h.mem.rdLE]

/-! ## Cove states (Table 8-7) -/

theorem coveState_setCoveState (c : Nat) {st : Nat} (s : Dev) (h : st < 8) : coveState (setCoveState c st s) c = st := by
  have hne : Reg.SCH_COVE_STATE c ≠ Reg.SCH_STATUS := by unfold Reg.SCH_COVE_STATE Reg.SCH_STATUS; omega
  rw [coveState, setCoveState, rf_setB_other _ _ _ _ _ hne, rf_setB_other _ _ _ _ _ hne, rf_wf_same _ _ _ _ _ (by decide)]
  exact Nat.mod_eq_of_lt h
theorem sameRest_setCoveState (c st : Nat) (s : Dev) : SameRest s (setCoveState c st s) := ((sameRest_wf ..).trans (sameRest_setB ..)).trans (sameRest_setB ..)

/-- A cove-fatal event (Table 8-8): the cove is in FAULT, the event shows, and no memory has changed. -/
theorem coveFault_effect {code : Nat} (c stage : Nat) (s : Dev) (hcode : code / 256 = 7) (hbit : code % 256 < 32) :
    coveState (coveFault code c stage s) c = 6 ∧ tst (coveFault code c stage s) Reg.SCH_EVENT (code % 256) = true ∧
      SameMem s (coveFault code c stage s) := by
  have hevent : eventReg code c = some Reg.SCH_EVENT := by simp [eventReg, hcode]
  have hshown : SameRegs [Reg.SCH_EVENT, Reg.SCH_FAULT_INFO] (setCoveState c 6 s) (coveFault code c stage s) :=
    (sameRegs_wrN _ _ _).append (sameRegs_raiseFor _ c _ hevent)
  have hnot : Reg.SCH_COVE_STATE c ∉ [Reg.SCH_EVENT, Reg.SCH_FAULT_INFO] := by
    simp only [Reg.SCH_COVE_STATE, Reg.SCH_EVENT, Reg.SCH_FAULT_INFO, List.mem_cons, List.not_mem_nil, or_false]
    omega
  exact ⟨(coveState_of_sameRegs hshown c hnot).trans (coveState_setCoveState c s (by decide)), tst_raiseFor _ _ _ hevent hbit,
    ((sameRest_setCoveState c 6 s).trans ((sameRest_wrN ..).trans (sameRest_raiseFor ..))).sameMem⟩

end Sys2Proof.Machine
end

section
/-! SUPPORT. The start of a cove (R187, R191, R193, R424): the checks at the mark, and the entry to RUN. -/
set_option autoImplicit false
namespace Sys2Proof.Machine
open Sys2Proof

/-! ## The checks (R191 steps 1 to 3) -/

/-- The cove with its eligible cores fixed and counted (R191 step 2). -/
def withEligible (c : Nat) (s : Dev) : Dev := s |> modCove c (fun v => { v with elig := sound s c }) |> wf (Reg.SCH_COVE_STATE c) 3 7 (sound s c).length
theorem withEligible_elig (c : Nat) (s : Dev) : (coveOf (withEligible c s) c).elig = sound s c :=
  congrArg Cove.elig (coveOf_modCove_same c (fun v => { v with elig := sound s c }) s)
theorem sameMem_withEligible (c : Nat) (s : Dev) : SameMem s (withEligible c s) := (sameMem_modCove ..).trans (sameMem_wf ..)
theorem sameRegs_withEligible (c : Nat) (s : Dev) : SameRegs [Reg.SCH_COVE_STATE c] s (withEligible c s) :=
  (sameRegs_of_regs _ rfl).trans (sameRegs_wf _ 3 7 _ (modCove c (fun v => { v with elig := sound s c }) s))
theorem samePackage_withEligible (c : Nat) (s : Dev) : SamePackage c s (withEligible c s) := by
  refine .of_regs (sameMem_withEligible c s) (sameRegs_withEligible c s) ?_ ?_ <;>
    (simp only [List.mem_singleton, Reg.SCH_COVE_WP_LO, Reg.SCH_COVE_STATE]; omega)

/-- A stage with a sound core of its kind has an eligible core. -/
theorem nElig_ne_zero {s : Dev} {c i : Nat} (h : ∃ k ∈ sound s c, kindFits (stageKind s c i) k = true) : nElig (withEligible c s) c i ≠ 0 := by
  obtain ⟨k, hk, hfits⟩ := h
  rw [nElig, withEligible_elig, (samePackage_withEligible c s).stageKind]
  exact List.length_eq_zero_iff.not.mpr (List.ne_nil_of_mem (List.mem_filter.mpr ⟨hk, hfits⟩))
/-- With an eligible core for every stage, no stage stops the start. -/
theorem stages_served {s : Dev} {c : Nat} (h : ∀ i < nStages s c, ∃ k ∈ sound s c, kindFits (stageKind s c i) k = true) :
    ((List.range (nStages (withEligible c s) c)).find? fun i => nElig (withEligible c s) c i == 0) = none := by
  rw [List.find?_eq_none]
  intro i hi
  rw [(samePackage_withEligible c s).stages, List.mem_range] at hi
  simpa using nElig_ne_zero (h i hi)

/-- Whether a start ends in HOLD: the cove may not run with a lost core, and has one (R191 step 3). -/
def startHolds (s : Dev) (c : Nat) : Bool := tst s (Reg.SCH_COVE_CFG c) 2 && (coresOf s c).any (coreFailed s)
theorem startHolds_iff (s : Dev) (c : Nat) :
    startHolds s c = true ↔ tst s (Reg.SCH_COVE_CFG c) 2 = true ∧ ∃ k ∈ coresOf s c, coreFailed s k = true := by
  simp [startHolds]
theorem startHolds_withEligible {c : Nat} (s : Dev) (hc : c < 8) : startHolds (withEligible c s) c = startHolds s c := by
  have hother {x : Nat} (hx : x ≠ Reg.SCH_COVE_STATE c) (i : Nat) : tst (withEligible c s) x i = tst s x i :=
    tst_of_same (sameRegs_withEligible c s) (by simpa using hx) i
  have hcfg : Reg.SCH_COVE_CFG c ≠ Reg.SCH_COVE_STATE c := by simp [Reg.SCH_COVE_CFG, Reg.SCH_COVE_STATE]
  have hlo : Reg.SCH_COVE_CORES_LO c ≠ Reg.SCH_COVE_STATE c := by simp [Reg.SCH_COVE_CORES_LO, Reg.SCH_COVE_STATE]
  have hhi : Reg.SCH_COVE_CORES_HI c ≠ Reg.SCH_COVE_STATE c := by simp [Reg.SCH_COVE_CORES_HI, Reg.SCH_COVE_STATE]
  have harr (k : Nat) : Reg.ARR_STATUS k ≠ Reg.SCH_COVE_STATE c := by
    simp only [Reg.ARR_STATUS, coreBase, Reg.SCH_COVE_STATE]
    omega
  have hcores : coresOf (withEligible c s) c = coresOf s c :=
    congrArg (List.filter · _) (funext fun k => by rw [inCove, inCove, hother hlo, hother hhi])
  have hfailed : coreFailed (withEligible c s) = coreFailed s := funext fun k => hother (harr k) 10
  rw [startHolds, startHolds, hother hcfg, hcores, hfailed]

/-! ## What a START does -/

theorem coveStart_ignored {s : Dev} {c : Nat} (h : coveState s c ∈ [1, 2, 3]) : coveStart c s = s := by rw [coveStart, if_pos h]
theorem coveStart_unready {s : Dev} {c : Nat} (h : coveState s c ∉ [1, 2, 3]) (hkv : kvLets s c = false) : coveStart c s = s := by
  rw [coveStart, if_neg h, hkv]
  rfl
theorem coveStart_badPackage {s : Dev} {c : Nat} (h : coveState s c ∉ [1, 2, 3]) (hkv : kvLets s c = true) (hwp : wpOk s c = false) :
    coveStart c s = coveFault 0x0700 c 0 s := by
  rw [coveStart, if_neg h, hkv, hwp]
  rfl
theorem coveStart_passes {s : Dev} {c : Nat} (h : coveState s c ∉ [1, 2, 3]) (hkv : kvLets s c = true) (hwp : wpOk s c = true)
    (hc : c < 8) (hstages : ∀ i < nStages s c, ∃ k ∈ sound s c, kindFits (stageKind s c i) k = true) :
    coveStart c s = setCoveState c (if startHolds s c then 5 else 1) (withEligible c s) := by
  have hserved := stages_served hstages
  rw [coveStart, if_neg h, hkv, hwp, ← startHolds_withEligible s hc]
  unfold withEligible at hserved ⊢
  simp only [Bool.not_true, Bool.false_eq_true, if_false, hserved]
  unfold startHolds
  split <;> rfl

/-! ## The entry to RUN (R191 steps 4 and 5) -/

theorem sameRest_loadNests (k c base n : Nat) (s : Dev) : SameRest s (loadNests k c base n s) :=
  (sameRest_wrN ..).trans (sameRest_forS _ _ (fun _ d => sameRest_forS _ _ (fun _ _ => sameRest_wrN ..) d) _)

/-- The registers of a core's turn that begins: its state, and the debt of the cove that has the turn. -/
def turnRegs (k c : Nat) : List Nat := [Reg.SCH_CORE_STATE k, Reg.SCH_COVE_DEBT c]
theorem setDebt_frame (k c ns : Nat) (s : Dev) :
    SameMem s (setDebt k c ns s) ∧ (setDebt k c ns s).coves = s.coves ∧ SameRegs (turnRegs k c) s (setDebt k c ns s) := by
  unfold setDebt showCore
  exact ⟨((sameMem_modCore ..).trans (sameMem_wrN ..)).trans (sameMem_wrN ..), by simp only [wrN_coves, modCore_coves],
    (sameRegs_modCore _ k _ s).trans ((sameRegs_wrN _ _ _).append (sameRegs_wrN _ _ _))⟩
theorem beginTurn_frame (k c : Nat) (switch : Bool) (s : Dev) :
    SameMem s (beginTurn k c switch s) ∧ (beginTurn k c switch s).coves = s.coves ∧ SameRegs (turnRegs k c) s (beginTurn k c switch s) := by
  have hcleared (d : Dev) (hmem : SameMem s d) (hcoves : d.coves = s.coves) (hregs : SameRegs (turnRegs k c) s d) :
      SameMem s (setDebt k c 0 d) ∧ (setDebt k c 0 d).coves = s.coves ∧ SameRegs (turnRegs k c) s (setDebt k c 0 d) := by
    obtain ⟨hdMem, hdCoves, hdRegs⟩ := setDebt_frame k c 0 d
    exact ⟨hmem.trans hdMem, hdCoves.trans hcoves, hregs.trans hdRegs⟩
  exact hcleared _ (sameMem_modCore ..) (modCore_coves ..) (sameRegs_modCore _ k _ s)
/-- A core that claims its turn changes no cove: neither what one keeps nor its state. -/
theorem claimTurn_frame {k : Nat} (s : Dev) {c : Nat} (hc : c < 8) :
    SameMem s (claimTurn k s) ∧ (claimTurn k s).coves = s.coves ∧ coveState (claimTurn k s) c = coveState s c := by
  unfold claimTurn
  split
  · next t _ _ =>
    split
    · obtain ⟨hmem, hcoves, hregs⟩ := beginTurn_frame k t.cove false s
      refine ⟨hmem, hcoves, coveState_of_sameRegs hregs c ?_⟩
      simp only [turnRegs, Reg.SCH_COVE_STATE, Reg.SCH_CORE_STATE, Reg.SCH_COVE_DEBT, List.mem_cons, List.not_mem_nil, or_false]
      omega
    · exact ⟨SameMem.refl s, rfl, rfl⟩
  · exact ⟨SameMem.refl s, rfl, rfl⟩

/-- The cove in RUN with its descriptors loaded, before its cores claim their turns. -/
def descriptorsLoaded (c : Nat) (s : Dev) : Dev :=
  s |> forS (coresOf s c) (fun k d => loadNests k c ((freeBlock d k c (wpField s c 12 1)).getD 0) (wpField s c 12 1) d)
    |> modCove c (fun v => { v with run := none, queue := if isSeqCove s c then v.queue else [] }) |> setCoveState c 2
theorem descriptorsLoaded_effect (c : Nat) (s : Dev) :
    coveState (descriptorsLoaded c s) c = 2 ∧ runOf (descriptorsLoaded c s) c = none ∧ SameMem s (descriptorsLoaded c s) := by
  have hloaded := sameRest_forS (coresOf s c) (fun k d => loadNests k c ((freeBlock d k c (wpField s c 12 1)).getD 0) (wpField s c 12 1) d)
    (fun k d => sameRest_loadNests k c _ _ d) s
  refine ⟨coveState_setCoveState c _ (by decide), ?_, hloaded.sameMem.trans ((sameMem_modCove ..).trans (sameRest_setCoveState ..).sameMem)⟩
  rw [descriptorsLoaded, runOf_congr (sameRest_setCoveState ..).coves, runOf, coveOf_modCove_same]

theorem coveEnterRun_runs {s : Dev} {c : Nat} (hkv : isSeqCove s c = true → tst s Reg.KVF_STATUS 0 = true)
    (hfree : ∀ k ∈ coresOf s c, (freeBlock s k c (wpField s c 12 1)).isSome = true) :
    coveEnterRun c s = forS (coresOf s c) claimTurn (descriptorsLoaded c s) := by
  have hready : (isSeqCove s c && !(tst s Reg.KVF_STATUS 0)) = false := by simpa using hkv
  have hblocks : ((coresOf s c).any fun k => (freeBlock s k c (wpField s c 12 1)).isNone) = false := by
    simpa [List.any_eq_false, Option.isSome_iff_ne_none] using hfree
  simp only [coveEnterRun, hready, hblocks, Bool.false_eq_true, if_false]
  rfl
theorem coveEnterRun_faults {s : Dev} {c : Nat} (hkv : isSeqCove s c = true → tst s Reg.KVF_STATUS 0 = true)
    (hfull : ∃ k ∈ coresOf s c, freeBlock s k c (wpField s c 12 1) = none) : coveEnterRun c s = coveFault 0x0700 c 0 s := by
  have hready : (isSeqCove s c && !(tst s Reg.KVF_STATUS 0)) = false := by simpa using hkv
  have hblocks : ((coresOf s c).any fun k => (freeBlock s k c (wpField s c 12 1)).isNone) = true := by simpa using hfull
  simp only [coveEnterRun, hready, hblocks, Bool.false_eq_true, if_false, if_true]
theorem coveEnterRun_effect {s : Dev} {c : Nat} (hc : c < 8) (hkv : isSeqCove s c = true → tst s Reg.KVF_STATUS 0 = true)
    (hfree : ∀ k ∈ coresOf s c, (freeBlock s k c (wpField s c 12 1)).isSome = true) :
    coveState (coveEnterRun c s) c = 2 ∧ runOf (coveEnterRun c s) c = none ∧ SameMem s (coveEnterRun c s) := by
  obtain ⟨hstate, hrun, hmem⟩ := descriptorsLoaded_effect c s
  rw [coveEnterRun_runs hkv hfree]
  refine forS_inv (fun d => coveState d c = 2 ∧ runOf d c = none ∧ SameMem s d) _ _ (fun k _ d h => ?_) _ ⟨hstate, hrun, hmem⟩
  obtain ⟨hstate, hrun, hmem⟩ := h
  obtain ⟨hturnMem, hturnCoves, hturnState⟩ := claimTurn_frame (k := k) d hc
  exact ⟨hturnState.trans hstate, (runOf_congr hturnCoves c).trans hrun, hmem.trans hturnMem⟩

/-- Settles O36: the cove's state and the checks of the package decide what a START does; the entry to RUN needs a free block on every core. -/
theorem coveStartChecksThePackage : Obligations.CoveStartChecksThePackage := by
  unfold Obligations.CoveStartChecksThePackage
  intro s c hc
  refine ⟨coveStart_ignored, coveStart_unready, fun hs hkv hwp => ?_, fun hs hkv hwp hstages => ?_, fun hkv hfree _ => coveEnterRun_effect hc hkv hfree,
    fun hkv hfull => ?_⟩
  · rw [coveStart_badPackage hs hkv hwp]
    exact coveFault_effect c 0 s (by decide) (by decide)
  · rw [coveStart_passes hs hkv hwp hc fun i hi => (hstages i hi).2, coveOf_congr (sameRest_setCoveState ..).coves, withEligible_elig,
      coveState_setCoveState c _ (by split <;> decide)]
    simp only [startHolds_iff]
    exact ⟨trivial, trivial, (sameMem_withEligible c s).trans (sameRest_setCoveState ..).sameMem⟩
  · rw [coveEnterRun_faults hkv hfull]
    obtain ⟨hstate, -, hmem⟩ := coveFault_effect (code := 0x0700) c 0 s (by decide) (by decide)
    exact ⟨hstate, hmem⟩

end Sys2Proof.Machine
end

section
/-! SUPPORT. The configuration registers of the KV pool on the register bus (R169, R187, R439). -/
set_option autoImplicit false
namespace Sys2Proof.Machine
open Sys2Proof

/-! ## Where the registers are -/

/-- The first three registers stand alone; the others are four pairs of 32 and 8 bits. -/
theorem kvCfgReg_halves : ∀ (i : Fin 11), isLow (kvCfgReg i).1 = (decide (3 ≤ i.val) && i.val % 2 == 1) ∧
    isHigh (kvCfgReg i).1 = (decide (4 ≤ i.val) && i.val % 2 == 0) ∧ writable (kvCfgReg i).1 = true := by decide +kernel
theorem kvCfgReg_width : ∀ (i : Fin 11), (kvCfgReg i).2 ≤ 32 ∧ (3 ≤ i.val → (kvCfgReg i).2 = if i.val % 2 = 1 then 32 else 8) := by decide
/-- The halves of a pair lie side by side. -/
theorem kvCfgReg_below : ∀ (i : Fin 11),
    i.val % 2 = 0 → 4 ≤ i.val → (kvCfgReg (i.val - 1)).1 = (kvCfgReg i).1 - 4 ∧ (kvCfgReg i).1 - 4 ≠ (kvCfgReg i).1 := by decide
/-- A write of a configuration register follows R187's rule. -/
theorem pairRule_kvCfgReg {i : Nat} (hi : i < 11) (vs : List Nat) (each : Dev → Dev) :
    pairRule (kvCfgReg i).1 vs each = some (kvfConfigWrite i vs) := by
  interval_cases i <;> rfl
/-- No configuration register is KVF_STATUS or KVF_EVENT. -/
theorem kvCfgReg_notMem : ∀ (i : Fin 11), (kvCfgReg i).1 ∉ [Reg.KVF_EVENT, Reg.KVF_STATUS] := by decide

/-! ## The check (R169) -/

theorem any_eq_of_forall_mem {α : Type} {l : List α} {p q : α → Bool} (h : ∀ x ∈ l, p x = q x) : l.any p = l.any q := by
  rw [Bool.eq_iff_iff, List.any_eq_true, List.any_eq_true]
  exact exists_congr fun x => and_congr_right fun hx => by rw [h x hx]
theorem inLineRegion_of_same {a b : Dev} (h : SameRegs [Reg.KVF_EVENT, Reg.KVF_STATUS] a b) (x n : Nat) : inLineRegion b x n = inLineRegion a x n := by
  unfold inLineRegion
  refine any_eq_of_forall_mem fun r hr => ?_
  have hlt : r < 16 := List.mem_range.mp hr
  have hcfg : Reg.DMC_RGN_CFG (x / 2 ^ 34) r ∉ [Reg.KVF_EVENT, Reg.KVF_STATUS] := by
    simp only [Reg.DMC_RGN_CFG, Reg.KVF_EVENT, Reg.KVF_STATUS, dieBase, dieHalf, List.mem_cons, List.not_mem_nil, or_false]
    omega
  have hbase : Reg.DMC_RGN_BASE (x / 2 ^ 34) r ∉ [Reg.KVF_EVENT, Reg.KVF_STATUS] := by
    simp only [Reg.DMC_RGN_BASE, Reg.KVF_EVENT, Reg.KVF_STATUS, dieBase, dieHalf, List.mem_cons, List.not_mem_nil, or_false]
    omega
  simp only [tst_of_same h hcfg, rf_of_same h hcfg, rf_of_same h hbase]
theorem kvConfigOk_of_same {a b : Dev} (h : SameRegs [Reg.KVF_EVENT, Reg.KVF_STATUS] a b) : kvConfigOk b = kvConfigOk a := by
  have hbytes : kvFrameBytes b = kvFrameBytes a := rf_of_same h (by decide) 0 17
  have hlo : rd64 b Reg.KVF_BASE0_LO = rd64 a Reg.KVF_BASE0_LO := rd64_of_same h (by decide) (by decide)
  have hhi : rd64 b Reg.KVF_BASE1_LO = rd64 a Reg.KVF_BASE1_LO := rd64_of_same h (by decide) (by decide)
  simp only [kvConfigOk, hbytes, hlo, hhi, rf_of_same h (show Reg.KVF_FRAMES0 ∉ _ by decide), rf_of_same h (show Reg.KVF_FRAMES1 ∉ _ by decide),
    inLineRegion_of_same h]

/-- The check of a written configuration: an initialisation begins when the limits of R169 hold (R187). -/
def checkPool (s : Dev) : Dev := if kvConfigOk s then setB Reg.KVF_STATUS 1 true s else raise 0x0506 0 0 (setB Reg.KVF_STATUS 1 false s)
theorem checkPool_effect (s : Dev) :
    tst (checkPool s) Reg.KVF_STATUS 0 = tst s Reg.KVF_STATUS 0 ∧ tst (checkPool s) Reg.KVF_STATUS 1 = kvConfigOk (checkPool s) ∧
      SameRegs [Reg.KVF_EVENT, Reg.KVF_STATUS] s (checkPool s) ∧ SameMem s (checkPool s) := by
  have hset (v : Bool) : SameRegs [Reg.KVF_EVENT, Reg.KVF_STATUS] s (setB Reg.KVF_STATUS 1 v s) := (sameRegs_setB _ 1 v s).mono (by simp)
  have hraise (d : Dev) : SameRegs [Reg.KVF_EVENT] d (raise 0x0506 0 0 d) := sameRegs_raiseFor 0 0xFFFF d rfl
  unfold checkPool
  split
  · next hok =>
    exact ⟨tst_setB_bit _ 1 0 true s (by decide) (by decide), by rw [tst_setB_same _ _ _ _ (by decide), kvConfigOk_of_same (hset true), hok], hset true,
      sameMem_setB ..⟩
  · next hbad =>
    have hregs := (hset false).trans ((hraise _).mono (by simp))
    rw [tst_of_same (hraise _) (by decide), tst_of_same (hraise _) (by decide), tst_setB_same _ _ _ _ (by decide),
      tst_setB_bit _ 1 0 false s (by decide) (by decide), kvConfigOk_of_same hregs]
    exact ⟨rfl, (by simpa using hbad : kvConfigOk s = false).symm, hregs, (sameMem_setB ..).trans (sameRest_raise ..).sameMem⟩

/-! ## A write (R187) -/

theorem kvfConfigWrite_one {s : Dev} (i v : Nat) (h : seqCoveRuns s = false) :
    kvfConfigWrite i [v] s = checkPool (setB Reg.KVF_STATUS 0 false (wrN (kvCfgReg i).1 (v % 2 ^ (kvCfgReg i).2) s)) := by
  simp only [kvfConfigWrite, h]
  rfl
theorem kvfConfigWrite_two {s : Dev} (i v w : Nat) (h : seqCoveRuns s = false) :
    kvfConfigWrite i [v, w] s = checkPool (setB Reg.KVF_STATUS 0 false (wrN (kvCfgReg (i + 1)).1 (w % 2 ^ (kvCfgReg (i + 1)).2)
      (wrN (kvCfgReg i).1 (v % 2 ^ (kvCfgReg i).2) s))) := by
  simp only [kvfConfigWrite, h]
  rfl
theorem kvfConfigWrite_rejected {s : Dev} (i : Nat) (vs : List Nat) (h : seqCoveRuns s = true) : kvfConfigWrite i vs s = raise 0x0507 0 0 s := by
  simp only [kvfConfigWrite, h, if_true]

/-- A configuration that has been written is no longer initialised, and initialisation begins when it passes the check. -/
theorem checkPool_written (s : Dev) :
    tst (checkPool (setB Reg.KVF_STATUS 0 false s)) Reg.KVF_STATUS 0 = false ∧
      tst (checkPool (setB Reg.KVF_STATUS 0 false s)) Reg.KVF_STATUS 1 = kvConfigOk (checkPool (setB Reg.KVF_STATUS 0 false s)) ∧
      SameRegs [Reg.KVF_EVENT, Reg.KVF_STATUS] s (checkPool (setB Reg.KVF_STATUS 0 false s)) ∧ SameMem s (checkPool (setB Reg.KVF_STATUS 0 false s)) := by
  obtain ⟨hdone, hbusy, hregs, hmem⟩ := checkPool_effect (setB Reg.KVF_STATUS 0 false s)
  exact ⟨hdone.trans (tst_setB_same _ 0 _ _ (by decide)), hbusy, ((sameRegs_setB _ 0 false s).mono (by simp)).trans hregs, (sameMem_setB ..).trans hmem⟩

theorem seqCoveRuns_of_sameRegs {a b : Dev} (h : SameRegs [Reg.PCI_STATUS] a b) : seqCoveRuns b = seqCoveRuns a := by
  refine any_eq_of_forall_mem fun c hc => ?_
  have hlt : c < 8 := List.mem_range.mp hc
  have hcfg : Reg.SCH_COVE_CFG c ∉ [Reg.PCI_STATUS] := by
    simp only [Reg.SCH_COVE_CFG, Reg.PCI_STATUS, List.mem_singleton]
    omega
  have hstate : Reg.SCH_COVE_STATE c ∉ [Reg.PCI_STATUS] := by
    simp only [Reg.SCH_COVE_STATE, Reg.PCI_STATUS, List.mem_singleton]
    omega
  rw [tst_of_same h hcfg, coveState_of_sameRegs h c hstate]

/-! ## Requests -/

section Request
variable {s : Dev} {r : Req}

theorem seqCoveRuns_arrived (r : Req) (s : Dev) : seqCoveRuns (arrived r s) = seqCoveRuns s := seqCoveRuns_of_sameRegs (sameRegs_arrived r s)

/-- A write request to a configuration register that is no half of a pair. -/
theorem busWrite_kvCfg_single (i : Fin 11) (v : Nat) (hi : i.val < 3) (h : Reaches s r (kvCfgReg i).1) :
    busWrite r (kvCfgReg i).1 15 v s = kvfConfigWrite i [v] (arrived r s) := by
  obtain ⟨hreach, hresp⟩ := h
  obtain ⟨hlow, hhigh, -⟩ := kvCfgReg_halves i
  have hlow : isLow (kvCfgReg i).1 = false := by rw [hlow]; simp; omega
  have hhigh : isHigh (kvCfgReg i).1 = false := by rw [hhigh]; simp; omega
  rw [busWrite_whole _ _ hreach, writeReg_own r v (by rwa [responds_arrived]) (.inr ⟨hlow, hhigh⟩), storeRegs_of_pairRule (pairRule_kvCfgReg i.isLt _ _)]
/-- A write request to the upper half of a pair whose lower half the requester has written. -/
theorem busWrite_kvCfg_pair (i : Fin 11) (v : Nat) (heven : i.val % 2 = 0) (hi : 4 ≤ i.val) {lo : Word} (h : Reaches s r (kvCfgReg i).1)
    (hk : (latchOf s r ((kvCfgReg i).1 - 4)).wr = some lo) :
    busWrite r (kvCfgReg i).1 15 v s = kvfConfigWrite (i.val - 1) [lo.toNat, v]
      (putLatch { latchOf (arrived r s) r ((kvCfgReg i).1 - 4) with wr := none } (arrived r s)) := by
  obtain ⟨hreach, hresp⟩ := h
  obtain ⟨hlow, hhigh, hw⟩ := kvCfgReg_halves i
  obtain ⟨hbelow, -⟩ := kvCfgReg_below i heven hi
  have hlow : isLow (kvCfgReg i).1 = false := by rw [hlow]; simp [heven]
  have hhigh : isHigh (kvCfgReg i).1 = true := by rw [hhigh]; simp [heven, hi]
  have hkept : (latchOf (arrived r s) r ((kvCfgReg i).1 - 4)).wr = some lo := by rw [latchOf_congr (s := s) r _ (arrived_bus r s), hk]
  rw [busWrite_whole _ _ hreach, writeReg_high v (by rwa [responds_arrived]) hlow hhigh hw hkept,
    storeRegs_of_pairRule (hbelow ▸ pairRule_kvCfgReg (i := i.val - 1) (by omega) _ _)]

/-- What a write of a register by itself leaves while no sequence cove runs. -/
theorem kvCfg_single_effect (i : Fin 11) (v : Nat) (hi : i.val < 3) (h : Reaches s r (kvCfgReg i).1) (hstill : seqCoveRuns s = false) :
    rdN (busWrite r (kvCfgReg i).1 15 v s) (kvCfgReg i).1 = v % 2 ^ (kvCfgReg i).2 ∧ tst (busWrite r (kvCfgReg i).1 15 v s) Reg.KVF_STATUS 0 = false ∧
      tst (busWrite r (kvCfgReg i).1 15 v s) Reg.KVF_STATUS 1 = kvConfigOk (busWrite r (kvCfgReg i).1 15 v s) ∧
      SameMem s (busWrite r (kvCfgReg i).1 15 v s) := by
  rw [busWrite_kvCfg_single i v hi h, kvfConfigWrite_one _ _ (by rwa [seqCoveRuns_arrived])]
  obtain ⟨hdone, hbusy, hregs, hmem⟩ := checkPool_written (wrN (kvCfgReg i).1 (v % 2 ^ (kvCfgReg i).2) (arrived r s))
  obtain ⟨hwidth, -⟩ := kvCfgReg_width i
  refine ⟨?_, hdone, hbusy, ((sameMem_arrived r s).trans (sameMem_wrN ..)).trans hmem⟩
  rw [hregs _ (kvCfgReg_notMem i), rdN_wrN_same]
  exact Nat.mod_eq_of_lt ((Nat.mod_lt _ (Nat.two_pow_pos _)).trans_le (Nat.pow_le_pow_right (by decide) hwidth))
/-- What a write of a pair leaves while no sequence cove runs: both halves at once. -/
theorem kvCfg_pair_effect (i : Fin 11) (v : Nat) (heven : i.val % 2 = 0) (hi : 4 ≤ i.val) {lo : Word} (h : Reaches s r (kvCfgReg i).1)
    (hk : (latchOf s r ((kvCfgReg i).1 - 4)).wr = some lo) (hstill : seqCoveRuns s = false) :
    rdN (busWrite r (kvCfgReg i).1 15 v s) (kvCfgReg i).1 = v % 2 ^ 8 ∧ rdN (busWrite r (kvCfgReg i).1 15 v s) ((kvCfgReg i).1 - 4) = lo.toNat ∧
      tst (busWrite r (kvCfgReg i).1 15 v s) Reg.KVF_STATUS 0 = false ∧
      tst (busWrite r (kvCfgReg i).1 15 v s) Reg.KVF_STATUS 1 = kvConfigOk (busWrite r (kvCfgReg i).1 15 v s) ∧
      SameMem s (busWrite r (kvCfgReg i).1 15 v s) := by
  have hstill' : seqCoveRuns (putLatch { latchOf (arrived r s) r ((kvCfgReg i).1 - 4) with wr := none } (arrived r s)) = false := by
    rw [seqCoveRuns_of_sameRegs (sameRegs_putLatch _ _ _), seqCoveRuns_arrived, hstill]
  rw [busWrite_kvCfg_pair i v heven hi h hk, kvfConfigWrite_two _ _ _ hstill', Nat.sub_add_cancel (by omega)]
  generalize hp : putLatch _ _ = p
  have hpmem : SameMem s p := hp ▸ (sameMem_arrived r s).trans (sameMem_putLatch _ _)
  obtain ⟨hbelow, hne⟩ := kvCfgReg_below i heven hi
  have hlower : (kvCfgReg (i.val - 1)).2 = 32 := by
    obtain ⟨-, hw⟩ := kvCfgReg_width ⟨i.val - 1, by omega⟩
    simpa [show (i.val - 1) % 2 = 1 by omega] using hw (by simp; omega)
  have hupper : (kvCfgReg i).2 = 8 := by
    obtain ⟨-, hw⟩ := kvCfgReg_width i
    simpa [heven] using hw (by omega)
  rw [hbelow, hlower, hupper, Nat.mod_eq_of_lt lo.isLt]
  obtain ⟨hdone, hbusy, hregs, hmem⟩ := checkPool_written (wrN (kvCfgReg i).1 (v % 2 ^ 8) (wrN ((kvCfgReg i).1 - 4) lo.toNat p))
  have hlowOther : (kvCfgReg i).1 - 4 ∉ [Reg.KVF_EVENT, Reg.KVF_STATUS] := hbelow ▸ kvCfgReg_notMem ⟨i.val - 1, by omega⟩
  refine ⟨?_, ?_, hdone, hbusy, ((hpmem.trans (sameMem_wrN ..)).trans (sameMem_wrN ..)).trans hmem⟩
  · rw [hregs _ (kvCfgReg_notMem i), rdN_wrN_same]
    omega
  · rw [hregs _ hlowOther, rdN_wrN_other _ _ hne, rdN_wrN_same]
    exact Nat.mod_eq_of_lt lo.isLt
/-- A write request to the lower half of a pair waits in its requester's latch (R439). -/
theorem kvCfg_low_effect (i : Fin 11) (v : Word) (hodd : i.val % 2 = 1) (hi : 3 ≤ i.val) (h : Reaches s r (kvCfgReg i).1) :
    (latchOf (busWrite r (kvCfgReg i).1 15 v.toNat s) r (kvCfgReg i).1).wr = some v ∧
      SameRegs [Reg.PCI_STATUS] s (busWrite r (kvCfgReg i).1 15 v.toNat s) ∧ SameMem s (busWrite r (kvCfgReg i).1 15 v.toNat s) := by
  obtain ⟨hreach, hresp⟩ := h
  obtain ⟨hlow, -, hw⟩ := kvCfgReg_halves i
  have hlow : isLow (kvCfgReg i).1 = true := by rw [hlow]; simp [hodd, hi]
  rw [busWrite_whole _ _ hreach, writeReg_low r _ (by rwa [responds_arrived]) hlow hw, latchOf_putLatch_wr]
  exact ⟨by rw [BitVec.ofNat_toNat, BitVec.setWidth_eq], (sameRegs_arrived r s).trans (sameRegs_putLatch _ _ _),
    (sameMem_arrived r s).trans (sameMem_putLatch _ _)⟩
/-- A write request to a register by itself while a sequence cove runs: no register of the pool changes, and the rejection shows. -/
theorem kvCfg_rejected_effect (i : Fin 11) (v : Nat) (hi : i.val < 3) (h : Reaches s r (kvCfgReg i).1) (hruns : seqCoveRuns s = true) :
    tst (busWrite r (kvCfgReg i).1 15 v s) Reg.KVF_EVENT 7 = true ∧
      SameRegs [Reg.KVF_EVENT, Reg.PCI_STATUS] s (busWrite r (kvCfgReg i).1 15 v s) ∧ SameMem s (busWrite r (kvCfgReg i).1 15 v s) := by
  rw [busWrite_kvCfg_single i v hi h, kvfConfigWrite_rejected _ _ (by rwa [seqCoveRuns_arrived])]
  have hraised : SameRegs [Reg.KVF_EVENT] (arrived r s) (raise 0x0507 0 0 (arrived r s)) := sameRegs_raiseFor 0 0xFFFF _ rfl
  exact ⟨tst_raiseFor (code := 0x0507) 0 0xFFFF _ rfl (by decide), ((sameRegs_arrived r s).mono (by simp)).trans (hraised.mono (by simp)),
    (sameMem_arrived r s).trans (sameRest_raise ..).sameMem⟩

end Request

/-- Settles O32: a write takes effect through the check of R169, waits in a latch, or is rejected while a sequence cove runs. -/
theorem kvConfigurationIsChecked : Obligations.KvConfigurationIsChecked := by
  unfold Obligations.KvConfigurationIsChecked
  intro s r v hawake
  refine ⟨fun i hi hreach hstill => ?_, fun i hodd hi hreach => ?_, fun i lo heven hi hreach hlo hstill => ?_, fun i hi hreach hruns => ?_⟩
  · exact Does.of_onDev hawake rfl (kvCfg_single_effect i v.toNat hi hreach hstill)
  · exact Does.of_onDev hawake rfl (kvCfg_low_effect i v hodd hi hreach)
  · exact Does.of_onDev hawake rfl (kvCfg_pair_effect i v.toNat heven hi hreach hlo hstill)
  · exact Does.of_onDev hawake rfl (kvCfg_rejected_effect i v.toNat hi hreach hruns)

end Sys2Proof.Machine
end

section
/-! SUPPORT. An attention command that raises a numeric flag (R164, R166): what refutes the equation of its task. -/
set_option autoImplicit false
namespace Sys2Proof.Machine
open Sys2Proof

/-- What a completion statement says of a command is said of a device that settles as the command's own effect does. -/
theorem Does.onDev_inv {c : Instr} {f : Dev → Dev} {s : State} {P : Dev → Prop} (h : Does c s P) (hawake : Awake s) (hc : exec c s = onDev f s) :
    ∃ d, settle d = settle (f s.dev) ∧ P d := by
  obtain ⟨d, hd, hp⟩ := h
  have h' : inReset s.dev = false := hawake
  rw [hc, onDev, act, h'] at hd
  injection hd with hd
  injection hd with hd
  exact ⟨d, hd.symm, hp⟩
/-- Devices that settle alike have the same cores. -/
theorem coreOf_of_settle_eq {a b : Dev} (h : settle a = settle b) (k : Nat) : coreOf a k = coreOf b k := by
  rw [← (sameRest_settle a).coreOf k, ← (sameRest_settle b).coreOf k, h]

/-- Core 6 at an APPEND of one position of sequence 0, whose NEWKV holds an infinity. -/
def infiniteAppend : State :=
  wnest 6 [] [(130, 0x80), (131, 0x7F), (1024, 2), (65538, 8)]
    [(25165824, 65), (25165825, 32), (25165829, 1), (25165836, 64), (25165841, 2), (25165894, 1), (25165896, 1), (25165900, 1)]
    ([(Reg.KVF_FRAME_BYTES, 2048), (Reg.SEQ_TABLE 0 0, 2 + 4096), (Reg.SEQ_TABLE 0 4, 65536), (Reg.SEQ_TABLE 0 5, 0), (Reg.KVF_BASE0_LO, 131072),
      (Reg.KVF_BASE0_HI, 0), (Reg.KVF_FRAMES0, 1), (Reg.KVF_FRAMES1, 0), (Reg.KVF_TABLE 0, 2049), (Reg.SEQ_EVENT, 0), (Reg.LPD_CMD_CNT 6, 0),
      (Reg.ARR_STATUS 6, 0)] ++ wreach)
/-- The descriptor of that command. -/
def infiniteAttn : Attn := attnAt infiniteAppend.dev 6 0
/-- The device with the command's length table in place. -/
def infinitePlaced : Dev := placeTable 6 0 infiniteAttn (cmdStart 6 infiniteAppend.dev)

/-- The command is legal and reaches what it names. -/
theorem infiniteAppend_legal :
    inReset infiniteAppend.dev = false ∧ isSCore (6 : Fin 64) = true ∧
      AtCommand infiniteAppend.dev (6 : Fin 64) wtask ⟨2, 0, false, 0, 0, 0, 0, false⟩ ∧
      infiniteAttn.append = true ∧ attnBad infinitePlaced infiniteAttn (lenTable infinitePlaced 6 0 infiniteAttn) = false ∧ infiniteAttn.len ≠ 0 ∧
      (∀ e ∈ lenTable infinitePlaced 6 0 infiniteAttn, lenBad infinitePlaced infiniteAttn e = false) ∧
      (lenTable infinitePlaced 6 0 infiniteAttn).any (namesWithheld infinitePlaced infiniteAttn) = false ∧
      attnReach infinitePlaced 6 infiniteAttn (lenTable infinitePlaced 6 0 infiniteAttn) = none ∧
      queryBad infinitePlaced 6 infiniteAttn (rowsOf (lenTable infinitePlaced 6 0 infiniteAttn)) = false := by decide +kernel
/-- Its work sets a numeric flag of the task, which the task did not have before. -/
theorem infiniteAppend_flags : (coreOf (attnCmd 6 true 0 .none infiniteAppend.dev) 6).task.map (·.flags) = some 2 ∧
    ((coreOf infinitePlaced 6).task.map (endedTask 0)).map (·.flags) = some 0 := by decide +kernel

/-- Refutes O30: the statement's equation of the ended task keeps the flags that the task had before the work, and an APPEND of an infinity sets one
(the same equation stands for ATTEND). -/
theorem not_attentionCommandsRunOrFault : ¬Obligations.AttentionCommandsRunOrFault := by
  unfold Obligations.AttentionCommandsRunOrFault
  intro h
  obtain ⟨hawake, hcore, hat, happend, hbad, hlen, hents, hheld, hreach, hquery⟩ := infiniteAppend_legal
  obtain ⟨-, hruns, -⟩ := h infiniteAppend 6 wtask ⟨2, 0, false, 0, 0, 0, 0, false⟩ hawake
  obtain ⟨d, hd, -, htask⟩ := (hruns infiniteAttn infinitePlaced hcore hat rfl rfl happend rfl hbad hlen hents hheld hreach hquery).onDev_inv hawake rfl
  obtain ⟨hset, hclear⟩ := infiniteAppend_flags
  rw [coreOf_of_settle_eq hd] at htask
  have hsame := congrArg (Option.map Task.flags) htask
  exact absurd (hset.symm.trans (hsame.trans hclear)) (by decide)

end Sys2Proof.Machine
end

section
/-! SUPPORT. KV frames and their free queues (R169, R174, R176): what each operation of Table 7-6 changes and what it leaves unchanged. -/
set_option autoImplicit false
namespace Sys2Proof.Machine
open Sys2Proof

/-! ## The registers that working with frames keeps -/

/-- Nothing has changed but registers. -/
def RegsOnly (a b : Dev) : Prop := ∃ r, b = { a with regs := r }

theorem RegsOnly.refl (a : Dev) : RegsOnly a a := ⟨a.regs, rfl⟩
theorem RegsOnly.trans {a b c : Dev} (h : RegsOnly a b) (k : RegsOnly b c) : RegsOnly a c := by
  obtain ⟨r, rfl⟩ := h
  obtain ⟨r', rfl⟩ := k
  exact ⟨r', rfl⟩
theorem RegsOnly.sameRest {a b : Dev} (h : RegsOnly a b) : SameRest a b := by
  obtain ⟨r, rfl⟩ := h
  rfl
theorem RegsOnly.kv {a b : Dev} (h : RegsOnly a b) : b.kv = a.kv := by
  obtain ⟨r, rfl⟩ := h
  rfl
theorem RegsOnly.sameMem {a b : Dev} (h : RegsOnly a b) : SameMem a b := h.sameRest.sameMem
theorem regsOnly_wrN (a n : Nat) (s : Dev) : RegsOnly s (wrN a n s) := ⟨_, rfl⟩

/-- The registers below the pool's counts: the pool's configuration, its status and its steps, and every other block of die 0. -/
abbrev belowCounts (x : Nat) : Prop := x < Reg.KVF_FREE0_CNT
/-- What a change of the state of frame `f` keeps: those registers, and the entries of the other frames. -/
def besideFrame (f x : Nat) : Prop := belowCounts x ∨ (Reg.KVF_TABLE 0 ≤ x ∧ x ≠ Reg.KVF_TABLE f)

/-- What a change of the counts of frames keeps. -/
def besideCounts (x : Nat) : Prop := belowCounts x ∨ Reg.KVF_TABLE 0 ≤ x

/-! ## States of frames -/

theorem stateCnt_counts (s : Dev) (f st : Nat) : ¬besideCounts (stateCnt s f st) := by
  unfold stateCnt besideCounts belowCounts
  split
  · split <;> decide
  all_goals decide
theorem heldCnt_counts (s : Dev) (f : Nat) : ¬besideCounts (Reg.KVF_COVE_HELD (frOwner s f)) := by
  have h : frOwner s f < 8 := Nat.mod_lt _ (by decide)
  simp only [besideCounts, belowCounts, Reg.KVF_COVE_HELD, Reg.KVF_FREE0_CNT, Reg.KVF_TABLE]
  omega
/-- The counts follow a frame from the state it has into another. -/
def frCounted (f st : Nat) (s : Dev) : Dev :=
  s |> drop1 (stateCnt s f (frState s f)) |> bump (stateCnt s f st) 1 |> whenS (frState s f == 2) (drop1 (Reg.KVF_COVE_HELD (frOwner s f)))
    |> whenS (st == 2) (bump (Reg.KVF_COVE_HELD (frOwner s f)) 1)
theorem frPutState_same {f st : Nat} {s : Dev} (h : frState s f = st) : frPutState f st s = s := if_pos h
theorem frPutState_moves {f st : Nat} {s : Dev} (h : frState s f ≠ st) : frPutState f st s = wf (Reg.KVF_TABLE f) 10 2 st (frCounted f st s) := if_neg h
theorem keepsRegs_frCounted (f st : Nat) (s : Dev) : KeepsRegs besideCounts s (frCounted f st s) := by
  have hstate (st : Nat) (d : Dev) (n : Nat) : KeepsRegs besideCounts d (wrN (stateCnt s f st) n d) := keepsRegs_wrN n d (stateCnt_counts s f st)
  have hheld (d : Dev) (n : Nat) : KeepsRegs besideCounts d (wrN (Reg.KVF_COVE_HELD (frOwner s f)) n d) := keepsRegs_wrN n d (heldCnt_counts s f)
  have hdrop (b : Bool) (d : Dev) : KeepsRegs besideCounts d (whenS b (drop1 (Reg.KVF_COVE_HELD (frOwner s f))) d) :=
    whenS_rel _ (KeepsRegs.refl _) b _ d (hheld d _)
  have hbump (b : Bool) (d : Dev) : KeepsRegs besideCounts d (whenS b (bump (Reg.KVF_COVE_HELD (frOwner s f)) 1) d) :=
    whenS_rel _ (KeepsRegs.refl _) b _ d (hheld d _)
  exact (((hstate _ s _).trans (hstate _ _ _)).trans (hdrop _ _)).trans (hbump _ _)
theorem regsOnly_frCounted (f st : Nat) (s : Dev) : RegsOnly s (frCounted f st s) := by
  have hdrop (b : Bool) (a : Nat) (d : Dev) : RegsOnly d (whenS b (drop1 a) d) := whenS_rel _ RegsOnly.refl b _ d (regsOnly_wrN a _ d)
  have hbump (b : Bool) (a : Nat) (d : Dev) : RegsOnly d (whenS b (bump a 1) d) := whenS_rel _ RegsOnly.refl b _ d (regsOnly_wrN a _ d)
  exact (((regsOnly_wrN _ _ s).trans (regsOnly_wrN ..)).trans (hdrop _ _ _)).trans (hbump _ _ _)

theorem regsOnly_frPutState (f st : Nat) (s : Dev) : RegsOnly s (frPutState f st s) := by
  by_cases h : frState s f = st
  · rw [frPutState_same h]
    exact RegsOnly.refl s
  · rw [frPutState_moves h]
    exact (regsOnly_frCounted f st s).trans (regsOnly_wrN ..)
theorem besideCounts_of_besideFrame {f x : Nat} (h : besideFrame f x) : besideCounts x := h.imp_right And.left
theorem not_besideFrame_entry (f : Nat) : ¬besideFrame f (Reg.KVF_TABLE f) := by
  simp only [besideFrame, belowCounts, Reg.KVF_TABLE, Reg.KVF_FREE0_CNT]
  omega
theorem keepsRegs_wf_entry (f lo len v : Nat) (s : Dev) : KeepsRegs (besideFrame f) s (wf (Reg.KVF_TABLE f) lo len v s) :=
  keepsRegs_wrN _ s (not_besideFrame_entry f)
theorem keepsRegs_frPutState (f st : Nat) (s : Dev) : KeepsRegs (besideFrame f) s (frPutState f st s) := by
  by_cases h : frState s f = st
  · rw [frPutState_same h]
    exact KeepsRegs.refl _ s
  · rw [frPutState_moves h]
    exact ((keepsRegs_frCounted f st s).mono fun _ => besideCounts_of_besideFrame).trans (keepsRegs_wf_entry f 10 2 st _)
theorem frState_frPutState (f : Nat) {st : Nat} (s : Dev) (h : st < 4) : frState (frPutState f st s) f = st := by
  by_cases hs : frState s f = st
  · rw [frPutState_same hs, hs]
  · rw [frPutState_moves hs, frState, rf_wf_same _ _ _ _ _ (by decide)]
    exact Nat.mod_eq_of_lt h

/-! ## What working with frames changes -/

theorem inFreeRing_of_keeps {a b : Dev} (h : KeepsRegs belowCounts a b) (d x : Nat) : inFreeRing b d x = inFreeRing a d x := by
  unfold inFreeRing
  split
  · rw [h.rd64 (by decide) (by decide)]
  · rw [h.rd64 (by decide) (by decide)]
theorem SameMem.butQueues {a b : Dev} (ds : List Nat) (h : SameMem a b) : SameButQueues ds a b :=
  ⟨fun x _ => h.mrd .dram x, h.2⟩
theorem SameButQueues.trans {ds : List Nat} {a b c : Dev} (h : SameButQueues ds a b) (hk : KeepsRegs belowCounts a b) (k : SameButQueues ds b c) :
    SameButQueues ds a c := by
  obtain ⟨hdram, hcm, hscr, hflash⟩ := h
  obtain ⟨kdram, kcm, kscr, kflash⟩ := k
  exact ⟨fun x hx => (kdram x fun d hd => by rw [inFreeRing_of_keeps hk, hx d hd]).trans (hdram x hx), kcm.trans hcm, kscr.trans hscr, kflash.trans hflash⟩

/-- `b` comes from `a` by working with frames: the pool's counts and its table have changed, the free queues, and the rings of the dies `ds` in DRAM. -/
structure FrameWork (ds : List Nat) (a b : Dev) : Prop where
  rest : ∃ r m q0 q1 h0 h1, b = { a with regs := r, dram := m, kv := { a.kv with q0 := q0, q1 := q1, h0 := h0, h1 := h1 } }
  regs : KeepsRegs belowCounts a b
  mem : SameButQueues ds a b
theorem FrameWork.trans {ds : List Nat} {a b c : Dev} (h : FrameWork ds a b) (k : FrameWork ds b c) : FrameWork ds a c := by
  obtain ⟨⟨r, m, q0, q1, h0, h1, hb⟩, hregs, hmem⟩ := h
  obtain ⟨⟨r', m', q0', q1', h0', h1', hc⟩, kregs, kmem⟩ := k
  exact ⟨⟨r', m', q0', q1', h0', h1', by rw [hc, hb]⟩, hregs.trans kregs, hmem.trans hregs kmem⟩
theorem RegsOnly.frameWork {a b : Dev} (ds : List Nat) (h : RegsOnly a b) (hregs : KeepsRegs belowCounts a b) : FrameWork ds a b := by
  refine ⟨?_, hregs, h.sameMem.butQueues ds⟩
  obtain ⟨r, rfl⟩ := h
  exact ⟨r, a.dram, a.kv.q0, a.kv.q1, a.kv.h0, a.kv.h1, rfl⟩

/-! ## Free queues (R176) -/

theorem freeQ_congr {a b : Dev} (h : b.kv = a.kv) (d : Nat) : freeQ b d = freeQ a d := by
  unfold freeQ
  rw [h]
@[simp] theorem freeQ_putFreeQ (d : Nat) (q : List Nat) (s : Dev) : freeQ (putFreeQ d q s) d = q := by
  unfold freeQ putFreeQ
  split <;> simp [*]
theorem freeQ_putHeadOf (d e n : Nat) (s : Dev) : freeQ (putHeadOf d n s) e = freeQ s e := by
  unfold freeQ putHeadOf
  split <;> split <;> rfl
theorem headOf_putFreeQ (d e : Nat) (q : List Nat) (s : Dev) : headOf (putFreeQ d q s) e = headOf s e := by
  unfold headOf putFreeQ
  split <;> split <;> rfl
theorem queueAddr_congr {a b : Dev} (h : KeepsRegs belowCounts a b) (d i : Nat) (hh : headOf b d = headOf a d) : queueAddr b d i = queueAddr a d i := by
  unfold queueAddr
  rw [hh]
  split
  · rw [h.rd64 (by decide) (by decide)]
  · rw [h.rd64 (by decide) (by decide)]
theorem frameWork_putFreeQ (ds : List Nat) (d : Nat) (q : List Nat) (s : Dev) : FrameWork ds s (putFreeQ d q s) := by
  refine ⟨?_, keepsRegs_of_regs _ rfl, SameMem.butQueues _ ⟨rfl, rfl, rfl, rfl⟩⟩
  unfold putFreeQ
  split
  · exact ⟨s.regs, s.dram, q, s.kv.q1, s.kv.h0, s.kv.h1, rfl⟩
  · exact ⟨s.regs, s.dram, s.kv.q0, q, s.kv.h0, s.kv.h1, rfl⟩
theorem frameWork_putHeadOf (ds : List Nat) (d n : Nat) (s : Dev) : FrameWork ds s (putHeadOf d n s) := by
  refine ⟨?_, keepsRegs_of_regs _ rfl, SameMem.butQueues _ ⟨rfl, rfl, rfl, rfl⟩⟩
  unfold putHeadOf
  split
  · exact ⟨s.regs, s.dram, s.kv.q0, s.kv.q1, n, s.kv.h1, rfl⟩
  · exact ⟨s.regs, s.dram, s.kv.q0, s.kv.q1, s.kv.h0, n, rfl⟩

theorem length_leBytes (n v : Nat) : (leBytes n v).length = n := by
  induction n generalizing v with
  | zero => rfl
  | succ n ih => simp [leBytes, ih]
theorem leNat_leBytes (n v : Nat) : leNat (leBytes n v) = v % 256 ^ n := by
  induction n generalizing v with
  | zero => simp [leBytes, leNat, Nat.mod_one]
  | succ n ih =>
    rw [leBytes, leNat, ih, BitVec.toNat_ofNat, Nat.pow_succ' (m := 256)]
    exact Nat.mod_mul.symm
theorem rdLE_wrLE_dram {a n v : Nat} (s : Dev) (ha : a + n ≤ dramBytes) (hv : v < 256 ^ n) : rdLE .dram (wrLE .dram a n v s) a n = v := by
  have hread := rdBytes_wrBytes .dram (leBytes n v) a s (by rwa [length_leBytes])
  rw [length_leBytes] at hread
  rw [rdLE, wrLE, hread, leNat_leBytes, Nat.mod_eq_of_lt hv]
theorem mrd_wrLE_other (sp : Space) {a n x : Nat} (v : Nat) (s : Dev) (h : x < a ∨ a + n ≤ x) : mrd sp (wrLE sp a n v s) x = mrd sp s x :=
  mrd_wrBytes_other sp _ s (by rwa [length_leBytes])
/-- Bytes written to DRAM change the DRAM alone. -/
theorem wrBytes_dram_only (a : Nat) (bs : List Byte) (s : Dev) : ∃ m, wrBytes .dram a bs s = { s with dram := m } := by
  induction bs generalizing a s with
  | nil => exact ⟨s.dram, rfl⟩
  | cons b bs ih =>
    obtain ⟨m, hm⟩ := ih (a + 1) (mwr .dram a b s)
    rw [wrBytes, hm, mwr]
    split
    · exact ⟨m, rfl⟩
    · exact ⟨m, rfl⟩
/-- An entry of a queue lies in the queue's ring. -/
theorem queueAddr_inRing {s : Dev} {d i x : Nat} (h : inFreeRing s d x = false) : x < queueAddr s d i ∨ queueAddr s d i + 4 ≤ x := by
  unfold inFreeRing at h
  unfold queueAddr
  have hpos : (headOf s d + i) % freeRing < freeRing := Nat.mod_lt _ (by decide)
  simp only [Bool.and_eq_false_iff, decide_eq_false_iff_not] at h
  omega

/-- Working with frames goes on when an entry of a queue is written to the queue's ring. -/
theorem FrameWork.wrEntry {ds : List Nat} {a b : Dev} {d : Nat} (h : FrameWork ds a b) (i v : Nat) (hd : d ∈ ds) :
    FrameWork ds a (wrLE .dram (queueAddr a d i) 4 v b) := by
  obtain ⟨⟨r, m, q0, q1, h0, h1, hb⟩, hregs, ⟨hdram, hcm, hscr, hflash⟩⟩ := h
  obtain ⟨m', hm⟩ := wrBytes_dram_only (queueAddr a d i) (leBytes 4 v) b
  refine ⟨⟨r, m', q0, q1, h0, h1, ?_⟩, hregs.trans (keepsRegs_of_regs _ (wrLE_regs ..)), fun x hx => ?_, ?_⟩
  · rw [wrLE, hm, hb]
  · exact (mrd_wrLE_other _ _ _ (queueAddr_inRing (hx d hd))).trans (hdram x hx)
  · rw [wrLE, hm]
    exact ⟨hcm, hscr, hflash⟩
theorem FrameWork.refl (ds : List Nat) (a : Dev) : FrameWork ds a a := (RegsOnly.refl a).frameWork ds (KeepsRegs.refl _ a)
theorem frameWork_writeQ {ds : List Nat} {d : Nat} (i : Nat) (s : Dev) (hd : d ∈ ds) : FrameWork ds s (writeQ d i s) :=
  forS_inv (FrameWork ds s) _ _ (fun p _ _ h => h.wrEntry p.1 p.2 hd) s (FrameWork.refl ds s)
theorem writeQ_regs (d i : Nat) (s : Dev) : (writeQ d i s).regs = s.regs :=
  forS_inv (fun t => t.regs = s.regs) _ _ (fun p _ t h => by rw [wrLE_regs, h]) s rfl
theorem writeQ_kv (d i : Nat) (s : Dev) : (writeQ d i s).kv = s.kv :=
  forS_inv (fun t => t.kv = s.kv) _ _ (fun p _ t h => by rw [wrLE_kv, h]) s rfl

/-! ### A frame joins a queue, and leaves it -/

theorem pushQ_eq (d f : Nat) (s : Dev) : pushQ d f s =
    wrLE .dram (queueAddr (putFreeQ d (freeQ s d ++ [f]) s) d (freeQ s d).length) 4 f (putFreeQ d (freeQ s d ++ [f]) s) := by
  rw [pushQ, writeQ, freeQ_putFreeQ, List.drop_left, enum, enum, forS, List.foldl_cons, List.foldl_nil]
theorem frameWork_pushQ {ds : List Nat} {d : Nat} (f : Nat) (s : Dev) (hd : d ∈ ds) : FrameWork ds s (pushQ d f s) :=
  (frameWork_putFreeQ ds d _ s).trans (frameWork_writeQ _ _ hd)
theorem putFreeQ_regs (d : Nat) (q : List Nat) (s : Dev) : (putFreeQ d q s).regs = s.regs := rfl
theorem pushQ_regs (d f : Nat) (s : Dev) : (pushQ d f s).regs = s.regs := writeQ_regs ..
theorem freeQ_pushQ (d f : Nat) (s : Dev) : freeQ (pushQ d f s) d = freeQ s d ++ [f] := by
  rw [pushQ, freeQ_congr (writeQ_kv ..), freeQ_putFreeQ]
theorem rdLE_pushQ {d f : Nat} (s : Dev) (ha : queueAddr s d (freeQ s d).length + 4 ≤ dramBytes) (hf : f < 2 ^ 32) :
    rdLE .dram (pushQ d f s) (queueAddr s d (freeQ s d).length) 4 = f := by
  have haddr (q : List Nat) (i : Nat) : queueAddr (putFreeQ d q s) d i = queueAddr s d i :=
    queueAddr_congr (keepsRegs_of_regs _ (putFreeQ_regs d q s)) d i (headOf_putFreeQ d d q s)
  rw [pushQ_eq, haddr, rdLE_wrLE_dram _ ha hf]

theorem frameWork_pullQ {ds : List Nat} {d : Nat} (f : Nat) (s : Dev) (hd : d ∈ ds) : FrameWork ds s (pullQ d f s) := by
  unfold pullQ
  split
  · exact FrameWork.refl ds s
  · next x xs _ =>
    split
    · exact (frameWork_putFreeQ ds d _ s).trans (frameWork_putHeadOf ds d _ _)
    · split
      · exact (frameWork_putFreeQ ds d _ s).trans (frameWork_writeQ _ _ hd)
      · exact FrameWork.refl ds s
theorem not_mem_pullQ (d f : Nat) (s : Dev) : f ∉ freeQ (pullQ d f s) d := by
  unfold pullQ
  split
  · next hnil => simp [hnil]
  · next x xs hcons =>
    split
    · rw [freeQ_putHeadOf, freeQ_putFreeQ]
      simp
    · next hne =>
      split
      · rw [freeQ_congr (writeQ_kv ..), freeQ_putFreeQ]
        simp
      · next hnot =>
        rw [hcons, List.mem_cons, not_or]
        exact ⟨fun h => hne h.symm, by simpa using hnot⟩

/-! ## A frame drains -/

theorem frameWork_frPutState (ds : List Nat) (f st : Nat) (s : Dev) : FrameWork ds s (frPutState f st s) :=
  (regsOnly_frPutState f st s).frameWork ds ((keepsRegs_frPutState f st s).mono fun _ => .inl)
theorem frameWork_wf_entry (ds : List Nat) (f lo len v : Nat) (s : Dev) : FrameWork ds s (wf (Reg.KVF_TABLE f) lo len v s) :=
  (regsOnly_wrN _ _ s).frameWork ds ((keepsRegs_wf_entry f lo len v s).mono fun _ => .inl)
/-- The frame in DRAIN with its stamp, before it joins its queue. -/
def drainStamped (f : Nat) (s : Dev) : Dev := s |> frPutState f 1 |> wf (Reg.KVF_TABLE f) 17 15 (rdN s Reg.KVF_STEP)
theorem frDrain_eq (f : Nat) (s : Dev) : frDrain f s = pushQ (frDie s f) f (drainStamped f s) := rfl
theorem regsOnly_drainStamped (f : Nat) (s : Dev) : RegsOnly s (drainStamped f s) := (regsOnly_frPutState f 1 s).trans (regsOnly_wrN ..)
theorem keepsRegs_drainStamped (f : Nat) (s : Dev) : KeepsRegs (besideFrame f) s (drainStamped f s) :=
  (keepsRegs_frPutState f 1 s).trans (keepsRegs_wf_entry f 17 15 _ _)
theorem frameWork_frDrain {ds : List Nat} {f : Nat} (s : Dev) (hd : frDie s f ∈ ds) : FrameWork ds s (frDrain f s) :=
  (((regsOnly_drainStamped f s).frameWork ds ((keepsRegs_drainStamped f s).mono fun _ => .inl))).trans (frameWork_pushQ f _ hd)
theorem frState_frDrain (f : Nat) (s : Dev) : frState (frDrain f s) f = 1 := by
  rw [frState, frDrain_eq, Machine.rf, rdN_congr (pushQ_regs ..), ← Machine.rf, drainStamped, rf_wf_disj _ _ _ _ _ _ _ (by decide) (by decide)]
  exact frState_frPutState f s (by decide)
theorem frStamp_frDrain (f : Nat) (s : Dev) : frStamp (frDrain f s) f = rdN s Reg.KVF_STEP % 2 ^ 15 := by
  rw [frStamp, frDrain_eq, Machine.rf, rdN_congr (pushQ_regs ..), ← Machine.rf, drainStamped, rf_wf_same _ _ _ _ _ (by decide)]
theorem headOf_congr {a b : Dev} (h : b.kv = a.kv) (d : Nat) : headOf b d = headOf a d := by
  unfold headOf
  rw [h]
theorem freeQ_frDrain (f : Nat) (s : Dev) : freeQ (frDrain f s) (frDie s f) = freeQ s (frDie s f) ++ [f] := by
  rw [frDrain_eq, freeQ_pushQ, freeQ_congr (regsOnly_drainStamped f s).kv]
theorem rdLE_frDrain {f : Nat} (s : Dev) (ha : queueAddr s (frDie s f) (freeQ s (frDie s f)).length + 4 ≤ dramBytes) (hf : f < 2 ^ 32) :
    rdLE .dram (frDrain f s) (queueAddr s (frDie s f) (freeQ s (frDie s f)).length) 4 = f := by
  have hkv := (regsOnly_drainStamped f s).kv
  have haddr (i : Nat) : queueAddr (drainStamped f s) (frDie s f) i = queueAddr s (frDie s f) i :=
    queueAddr_congr ((keepsRegs_drainStamped f s).mono fun _ => .inl) _ i (headOf_congr hkv _)
  have hread := rdLE_pushQ (d := frDie s f) (f := f) (drainStamped f s) (by rwa [haddr, freeQ_congr hkv]) hf
  rwa [haddr, freeQ_congr hkv] at hread

end Sys2Proof.Machine
end

section
/-! SUPPORT. How KV frames move between their states (R174, R176, R177, R185, R187). -/
set_option autoImplicit false
namespace Sys2Proof.Machine
open Sys2Proof

/-! ## SWEEP, WITHHOLD, RETURN -/

theorem frameSweep_frees {s : Dev} {d f : Nat} (h : (freeQ s d).find? (fun f => frState s f == 1) = some f) (hst : stampBelow s (frStamp s f) = true) :
    frameSweep d s = frPutState f 0 s := by simp only [frameSweep, h, hst, if_true]
theorem frameSweep_idle {s : Dev} {d : Nat} (h : (freeQ s d).find? (fun f => frState s f == 1) = none ∨
    ∃ f, (freeQ s d).find? (fun f => frState s f == 1) = some f ∧ stampBelow s (frStamp s f) = false) : frameSweep d s = s := by
  rcases h with hnone | ⟨f, hf, hst⟩
  · simp only [frameSweep, hnone]
  · simp only [frameSweep, hf, hst, Bool.false_eq_true, if_false]

theorem withhold_outside {s : Dev} {f : Nat} (h : kvPool s ≤ f) : withhold f s = s := if_pos h
theorem withhold_inside {s : Dev} {f : Nat} (h : f < kvPool s) : withhold f s = frPutState f 3 (pullQ (frDie s f) f s) := if_neg (Nat.not_le.mpr h)
theorem withhold_effect {s : Dev} {f : Nat} (h : f < kvPool s) :
    frState (withhold f s) f = 3 ∧ f ∉ freeQ (withhold f s) (frDie s f) ∧ SameButQueues [frDie s f] s (withhold f s) := by
  rw [withhold_inside h]
  refine ⟨frState_frPutState f _ (by decide), ?_, ((frameWork_pullQ f s (List.mem_singleton_self _)).trans (frameWork_frPutState _ f 3 _)).mem⟩
  rw [freeQ_congr (regsOnly_frPutState f 3 _).kv]
  exact not_mem_pullQ _ f s

theorem returnFrame_other {s : Dev} {f : Nat} (h : frState s f ≠ 3) : returnFrame f s = s := if_pos h
theorem returnFrame_unnamed {s : Dev} {f : Nat} (h : frState s f = 3) (href : frRef s f = 0) : returnFrame f s = frDrain f s := by
  rw [returnFrame, if_neg (not_not.mpr h), if_pos href]

/-! ## Initialisation (R187) -/

theorem regsOnly_clearTable (s : Dev) : RegsOnly s (clearTable s) :=
  forS_rel RegsOnly RegsOnly.refl (fun _ _ _ => RegsOnly.trans) _ _ (fun _ _ _ => regsOnly_wrN ..) s
theorem keepsRegs_clearTable (s : Dev) : KeepsRegs (· < Reg.KVF_TABLE 0) s (clearTable s) :=
  keepsRegs_forS _ _ (fun f _ d => keepsRegs_wrN 0 d (by simp only [Reg.KVF_TABLE]; omega)) s
theorem rdN_clearedEntries (n : Nat) {f : Nat} (s : Dev) (h : f < n) :
    rdN (forS (List.range n) (fun f t => wrN (Reg.KVF_TABLE f) 0 t) s) (Reg.KVF_TABLE f) = 0 := by
  induction n with
  | zero => omega
  | succ n ih =>
    rw [List.range_succ, forS_append]
    change rdN (wrN (Reg.KVF_TABLE n) 0 _) (Reg.KVF_TABLE f) = 0
    by_cases hf : f = n
    · rw [hf, rdN_wrN_same, Nat.zero_mod]
    · rw [rdN_wrN_other _ _ (by simp only [Reg.KVF_TABLE]; omega), ih (by omega)]
theorem rdN_clearTable {s : Dev} {f : Nat} (h : f < kvPool s) : rdN (clearTable s) (Reg.KVF_TABLE f) = 0 := rdN_clearedEntries _ s h

/-- The pool's lists at the end of initialisation: the queues in ascending order, and no step. -/
def initLists (s : Dev) : Dev :=
  { s with kv := { s.kv with q0 := List.range (rf s Reg.KVF_FRAMES0 0 19), q1 := (List.range (rf s Reg.KVF_FRAMES1 0 19)).map (rf s Reg.KVF_FRAMES0 0 19 + ·),
                             h0 := 0, h1 := 0, short := [], steps := [], evictLater := [], victims := [], waiting := [] } }
/-- The frame table cleared, and the queues in DRAM. -/
def initTables (s : Dev) : Dev := clearTable (initLists s) |> writeQ 0 0 |> writeQ 1 0
/-- The counts of frames at the end of initialisation, and the pool's status. -/
def initCounts (n0 n1 : Nat) (s : Dev) : Dev :=
  s |> forS (List.range 8) (fun c => wrN (Reg.KVF_COVE_HELD c) 0) |> wrN Reg.KVF_FREE0_CNT n0 |> wrN Reg.KVF_FREE1_CNT n1 |> wrN Reg.KVF_DRAIN_CNT 0
    |> wrN Reg.KVF_LIVE_CNT 0 |> wrN Reg.KVF_WITHHELD_CNT 0 |> setB Reg.KVF_STATUS 1 false |> setB Reg.KVF_STATUS 0 true
theorem kvfInitDone_eq {s : Dev} (h : tst s Reg.KVF_STATUS 1 = true) :
    kvfInitDone s = initCounts (rf s Reg.KVF_FRAMES0 0 19) (rf s Reg.KVF_FRAMES1 0 19) (initTables s) := by
  simp only [kvfInitDone, h]
  rfl

theorem regsOnly_initCounts (n0 n1 : Nat) (s : Dev) : RegsOnly s (initCounts n0 n1 s) := by
  have hheld : RegsOnly s (forS (List.range 8) (fun c => wrN (Reg.KVF_COVE_HELD c) 0) s) :=
    forS_rel RegsOnly RegsOnly.refl (fun _ _ _ => RegsOnly.trans) _ _ (fun _ _ _ => regsOnly_wrN ..) s
  exact hheld.trans <| (regsOnly_wrN ..).trans <| (regsOnly_wrN ..).trans <| (regsOnly_wrN ..).trans <| (regsOnly_wrN ..).trans <|
    (regsOnly_wrN ..).trans <| (regsOnly_wrN ..).trans (regsOnly_wrN ..)
theorem keepsRegs_initCounts (n0 n1 : Nat) (s : Dev) : KeepsRegs (Reg.KVF_TABLE 0 ≤ ·) s (initCounts n0 n1 s) := by
  have hheld : KeepsRegs (Reg.KVF_TABLE 0 ≤ ·) s (forS (List.range 8) (fun c => wrN (Reg.KVF_COVE_HELD c) 0) s) :=
    keepsRegs_forS _ _ (fun c hc d => keepsRegs_wrN 0 d (by have := List.mem_range.mp hc; simp only [Reg.KVF_TABLE, Reg.KVF_COVE_HELD]; omega)) s
  have hwr {a : Nat} (n : Nat) (d : Dev) (ha : ¬Reg.KVF_TABLE 0 ≤ a) : KeepsRegs (Reg.KVF_TABLE 0 ≤ ·) d (wrN a n d) := keepsRegs_wrN n d ha
  exact hheld.trans <| (hwr n0 _ (by decide)).trans <| (hwr n1 _ (by decide)).trans <| (hwr 0 _ (by decide)).trans <| (hwr 0 _ (by decide)).trans <|
    (hwr 0 _ (by decide)).trans <| (hwr _ _ (by decide)).trans (hwr _ _ (by decide))
theorem initCounts_read {n0 : Nat} (n1 : Nat) (s : Dev) (h : n0 < 2 ^ 32) :
    rdN (initCounts n0 n1 s) Reg.KVF_FREE0_CNT = n0 ∧ rdN (initCounts n0 n1 s) Reg.KVF_LIVE_CNT = 0 ∧
      tst (initCounts n0 n1 s) Reg.KVF_STATUS 0 = true := by
  have hstatus {x : Nat} (d : Dev) (hx : x ≠ Reg.KVF_STATUS) : rdN (setB Reg.KVF_STATUS 0 true (setB Reg.KVF_STATUS 1 false d)) x = rdN d x :=
    (rdN_wrN_other _ _ hx).trans (rdN_wrN_other _ _ hx)
  refine ⟨?_, ?_, tst_setB_same _ 0 _ _ (by decide)⟩
  · rw [initCounts, hstatus _ (by decide), rdN_wrN_other _ _ (by decide), rdN_wrN_other _ _ (by decide), rdN_wrN_other _ _ (by decide),
      rdN_wrN_other _ _ (by decide), rdN_wrN_same, Nat.mod_eq_of_lt h]
  · rw [initCounts, hstatus _ (by decide), rdN_wrN_other _ _ (by decide), rdN_wrN_same, Nat.zero_mod]

theorem sameMem_initLists (s : Dev) : SameMem s (initLists s) := ⟨rfl, rfl, rfl, rfl⟩
theorem initTables_effect (s : Dev) : (initTables s).kv = (initLists s).kv ∧ (∀ f < kvPool s, rdN (initTables s) (Reg.KVF_TABLE f) = 0) ∧
    SameButQueues [0, 1] s (initTables s) := by
  have hregs : (initTables s).regs = (clearTable (initLists s)).regs := (writeQ_regs ..).trans (writeQ_regs ..)
  have hlists : KeepsRegs belowCounts s (initLists s) := keepsRegs_of_regs _ rfl
  have hcleared : KeepsRegs belowCounts s (clearTable (initLists s)) :=
    hlists.trans ((keepsRegs_clearTable _).mono fun x hx => Nat.lt_trans hx (by decide))
  refine ⟨?_, fun f hf => ?_, ?_⟩
  · rw [initTables, writeQ_kv, writeQ_kv, (regsOnly_clearTable _).kv]
  · rw [rdN_congr hregs]
    exact rdN_clearTable hf
  · exact ((((sameMem_initLists s).trans (regsOnly_clearTable _).sameMem).butQueues [0, 1]).trans hcleared
      ((frameWork_writeQ 0 _ (by decide)).trans (frameWork_writeQ 0 _ (by decide))).mem)

/-- Initialisation: every frame FREE, the queues in ascending order, the counts and the status set, and nothing written but the queues' rings. -/
theorem kvfInitDone_effect {s : Dev} (h : tst s Reg.KVF_STATUS 1 = true) :
    (∀ f < kvPool s, frState (kvfInitDone s) f = 0) ∧ (kvfInitDone s).kv = (initLists s).kv ∧
      rdN (kvfInitDone s) Reg.KVF_FREE0_CNT = rf s Reg.KVF_FRAMES0 0 19 ∧ rdN (kvfInitDone s) Reg.KVF_LIVE_CNT = 0 ∧
      tst (kvfInitDone s) Reg.KVF_STATUS 0 = true ∧ SameButQueues [0, 1] s (kvfInitDone s) := by
  have hn0 : rf s Reg.KVF_FRAMES0 0 19 < 2 ^ 19 := Nat.mod_lt _ (by decide)
  obtain ⟨hkv, hentries, hmem⟩ := initTables_effect s
  obtain ⟨hfree, hlive, hdone⟩ := initCounts_read (rf s Reg.KVF_FRAMES1 0 19) (initTables s) (hn0.trans (by decide))
  have hcounts := regsOnly_initCounts (rf s Reg.KVF_FRAMES0 0 19) (rf s Reg.KVF_FRAMES1 0 19) (initTables s)
  rw [kvfInitDone_eq h]
  refine ⟨fun f hf => ?_, hcounts.kv.trans hkv, hfree, hlive, hdone, ?_⟩
  · rw [frState, Machine.rf, keepsRegs_initCounts _ _ _ (Reg.KVF_TABLE f) (by simp only [Reg.KVF_TABLE]; omega), hentries f hf]
    decide
  · obtain ⟨hdram, hcm, hscr, hflash⟩ := hmem
    obtain ⟨kdram, kcm, kscr, kflash⟩ := hcounts.sameMem
    exact ⟨fun x hx => (hcounts.sameMem.mrd .dram x).trans (hdram x hx), kcm.trans hcm, kscr.trans hscr, kflash.trans hflash⟩

/-- Settles O31: each change of a frame's state writes the entry last, and only queue entries go to DRAM. -/
theorem framesMoveBetweenStates : Obligations.FramesMoveBetweenStates := by
  unfold Obligations.FramesMoveBetweenStates
  intro s f hawake
  refine ⟨fun dd hfind _ hst => ?_, fun dd hidle => ?_, fun hpool hf => ?_, fun hpool hf => ?_, fun hst href hf haddr => ?_, fun hst hf => ?_,
    fun hinit _ => ?_⟩
  · refine Does.of_onDev hawake rfl ?_
    rw [frameSweep_frees hfind hst]
    have honly := regsOnly_frPutState f 0 s.dev
    exact ⟨frState_frPutState f _ (by decide), honly.sameMem, honly.kv⟩
  · exact Does.of_onDev hawake rfl (frameSweep_idle hidle)
  · refine Does.of_onDev hawake rfl ?_
    rw [Nat.mod_eq_of_lt (hf.trans (by decide))]
    exact withhold_effect hpool
  · refine Does.of_onDev hawake rfl ?_
    rw [Nat.mod_eq_of_lt hf]
    exact withhold_outside hpool
  · refine Does.of_onDev hawake rfl ?_
    rw [Nat.mod_eq_of_lt (hf.trans (by decide)), returnFrame_unnamed hst href]
    exact ⟨frState_frDrain .., frStamp_frDrain .., freeQ_frDrain .., rdLE_frDrain _ haddr (hf.trans (by decide)),
      (frameWork_frDrain _ (List.mem_singleton_self _)).mem⟩
  · refine Does.of_onDev hawake rfl ?_
    rw [Nat.mod_eq_of_lt hf]
    exact returnFrame_other hst
  · obtain ⟨hstate, hkv, hfree, hlive, hdone, hmem⟩ := kvfInitDone_effect hinit
    exact Does.of_onDev hawake rfl ⟨hstate, by rw [hkv]; rfl, by rw [hkv]; rfl, hfree, hlive, hdone, hmem⟩

end Sys2Proof.Machine
end

section
/-! SUPPORT. What a record changes on its way out (R306 to R309, R317, R385, R389): which registers, and no action in progress. -/
set_option autoImplicit false
namespace Sys2Proof.Machine
open Sys2Proof

/-- A register outside the metadata output, the endpoint and the ports' transmit counters. -/
abbrev besideOutput (x : Nat) : Prop := x < Reg.MDO_CTRL ∨ (0x14000 ≤ x ∧ x < Reg.ING_PORT_TX_CNT 0) ∨ Reg.ING_PORT_TX_CNT 4 ≤ x
/-- `b` comes from `a` by output: registers of the output side have changed, and no action of the collector has ended or begun. -/
structure Emitted (a b : Dev) : Prop where
  rest : SameRest a b
  regs : KeepsRegs besideOutput a b
  acts : b.err.acts = a.err.acts

theorem Emitted.refl (a : Dev) : Emitted a a := ⟨SameRest.refl a, KeepsRegs.refl _ a, rfl⟩
theorem Emitted.trans {a b c : Dev} (h : Emitted a b) (k : Emitted b c) : Emitted a c :=
  ⟨h.rest.trans k.rest, h.regs.trans k.regs, k.acts.trans h.acts⟩
theorem emitted_wrN {a : Nat} (n : Nat) (s : Dev) (h : ¬besideOutput a) : Emitted s (wrN a n s) := ⟨sameRest_wrN a n s, keepsRegs_wrN n s h, rfl⟩
theorem emitted_wr64 {a : Nat} (n : Nat) (s : Dev) (h : ¬besideOutput a) (h4 : ¬besideOutput (a + 4)) : Emitted s (wr64 a n s) :=
  (emitted_wrN _ s h).trans (emitted_wrN _ _ h4)
theorem emitted_pci (q : Pci) (s : Dev) : Emitted s { s with pci := q } := ⟨rfl, keepsRegs_of_regs _ rfl, rfl⟩
theorem emitted_mdo (q : Mdo) (s : Dev) : Emitted s { s with mdo := q } := ⟨rfl, keepsRegs_of_regs _ rfl, rfl⟩
theorem emitted_setChan (ch : Nat) (c : Chan) (s : Dev) : Emitted s (setChan ch c s) := emitted_mdo _ s
theorem emitted_send (m : OutMsg) (s : Dev) : Emitted s (send m s) :=
  ⟨sameRest_send m s, by unfold send; split <;> exact keepsRegs_of_regs _ rfl, by unfold send; split <;> rfl⟩
theorem raiseFor_acts (code unit info subject : Nat) (s : Dev) : (raiseFor code unit info subject s).err.acts = s.err.acts := by
  unfold raiseFor
  cases eventReg code unit <;> rfl
theorem emitted_raise {code unit a : Nat} (info : Nat) (s : Dev) (he : eventReg code unit = some a) (h : ¬besideOutput a) :
    Emitted s (raise code unit info s) :=
  ⟨sameRest_raise .., (sameRegs_raiseFor info 0xFFFF s he).keeps (by simpa using h), raiseFor_acts ..⟩

/-! ## Rings (R385, R389) -/

theorem emitted_leaveL1 (s : Dev) : Emitted s (leaveL1 s) := (emitted_pci _ s).trans (emitted_wrN _ _ (by decide))
theorem emitted_msixSend (v : Nat) (s : Dev) : Emitted s (msixSend v s) := by
  unfold msixSend
  split
  · exact Emitted.refl s
  · split
    · exact emitted_pci _ s
    · exact (emitted_leaveL1 s).trans (emitted_send _ _)
theorem emitted_ringSignal (r : Nat) (s : Dev) : Emitted s (ringSignal r s) := by
  unfold ringSignal
  dsimp only
  split
  · exact Emitted.refl s
  · split
    · exact emitted_pci _ s
    · exact (emitted_pci _ s).trans (emitted_msixSend _ _)
theorem emitted_ringShadow (r i : Nat) (s : Dev) : Emitted s (ringShadow r i s) := by
  unfold ringShadow
  split
  · exact Emitted.refl s
  · exact emitted_send _ s
theorem emitted_ringPut {r : Nat} (kind tag w : Nat) (body : List Byte) (s : Dev) (hr : r < 12) : Emitted s (ringPut r kind tag w body s) := by
  have hpi : ¬besideOutput (Reg.PCI_RING_PI r) := by
    simp only [besideOutput, Reg.PCI_RING_PI, Reg.MDO_CTRL, Reg.ING_PORT_TX_CNT]
    omega
  have hstate : ¬besideOutput (Reg.PCI_RING_STATE r) := by
    simp only [besideOutput, Reg.PCI_RING_STATE, Reg.MDO_CTRL, Reg.ING_PORT_TX_CNT]
    omega
  exact (emitted_leaveL1 s).trans ((emitted_send _ _).trans ((emitted_wrN _ _ hpi).trans ((emitted_ringShadow _ _ _).trans
    ((emitted_wrN _ _ hstate).trans (emitted_ringSignal _ _)))))

/-! ## Channels (R306 to R309) -/

section Channel
variable {ch : Nat} (hch : ch < 12)
include hch

theorem chanRegs_output (r : Nat)
    (hr : r = Reg.MDO_CH_SEQ_LO ch ∨ r = Reg.MDO_CH_SEQ_LO ch + 4 ∨ r = Reg.MDO_CH_REC_CNT ch ∨ r = Reg.MDO_CH_LOST_CNT ch) :
    ¬besideOutput r := by
  simp only [besideOutput, Reg.MDO_CH_SEQ_LO, Reg.MDO_CH_REC_CNT, Reg.MDO_CH_LOST_CNT, Reg.MDO_CTRL, Reg.ING_PORT_TX_CNT] at hr ⊢
  omega
omit hch in
theorem emitted_chanStatus (s : Dev) : Emitted s (chanStatus ch s) :=
  (emitted_wrN _ s (by decide)).trans (emitted_wrN _ _ (by decide))
theorem emitted_sendDatagram (s : Dev) : Emitted s (sendDatagram ch s) := by
  have hport : ¬besideOutput (Reg.ING_PORT_TX_CNT (rf s (Reg.MDO_DEST_CFG ch) 1 2)) := by
    have h : rf s (Reg.MDO_DEST_CFG ch) 1 2 < 4 := Nat.mod_lt _ (by decide)
    simp only [besideOutput, Reg.ING_PORT_TX_CNT, Reg.MDO_CTRL]
    omega
  unfold sendDatagram
  dsimp only
  split
  · exact Emitted.refl s
  · exact (emitted_send _ s).trans ((emitted_wrN _ _ hport).trans ((emitted_wrN _ _ (chanRegs_output hch _ (by simp))).trans
      ((emitted_setChan ch _ _).trans (emitted_chanStatus _))))
theorem emitted_closeDatagrams (all : Bool) (n : Nat) (s : Dev) : Emitted s (closeDatagrams ch all n s) := by
  induction n generalizing s with
  | zero => exact Emitted.refl s
  | succ n ih =>
    unfold closeDatagrams
    dsimp only
    split
    · exact Emitted.refl s
    · split
      · exact Emitted.refl s
      · exact (emitted_sendDatagram hch s).trans (ih _)
theorem emitted_drainRing (n : Nat) (s : Dev) : Emitted s (drainRing ch n s) := by
  induction n generalizing s with
  | zero => exact Emitted.refl s
  | succ n ih =>
    unfold drainRing
    split
    · exact Emitted.refl s
    · split
      · exact (emitted_ringPut _ _ _ _ s (by omega)).trans ((emitted_wrN _ _ (chanRegs_output hch _ (by simp))).trans
          ((emitted_setChan ch _ _).trans ((emitted_chanStatus _).trans (ih _))))
      · exact Emitted.refl s
theorem emitted_pump (s : Dev) : Emitted s (pump ch s) := by
  unfold pump
  split
  · exact emitted_closeDatagrams hch _ _ s
  · exact emitted_drainRing hch _ s
theorem emitted_chanPush (r : LmpRec) (s : Dev) : Emitted s (chanPush ch r s) :=
  (emitted_setChan ch _ s).trans ((emitted_wr64 _ _ (chanRegs_output hch _ (by simp)) (chanRegs_output hch _ (by simp))).trans (emitted_chanStatus _))
theorem emitted_endLostRun (s : Dev) : Emitted s (endLostRun ch s) := by
  unfold endLostRun
  split
  · exact Emitted.refl s
  · split
    · exact (emitted_setChan ch _ s).trans (emitted_chanPush hch _ _)
    · exact Emitted.refl s
theorem emitted_chanLose (s : Dev) : Emitted s (chanLose ch s) := by
  have hcount (n : Nat) : Emitted s (wrN (Reg.MDO_CH_LOST_CNT ch) n s) := emitted_wrN n s (chanRegs_output hch _ (by simp))
  unfold chanLose
  dsimp only
  split
  · exact (hcount _).trans ((emitted_setChan ch _ _).trans ((emitted_chanStatus _).trans (emitted_raise 0 _ rfl (by decide))))
  · exact (hcount _).trans (emitted_setChan ch _ _)
theorem emitted_chanEnter (r : LmpRec) (s : Dev) : Emitted s (chanEnter r ch s) := by
  unfold chanEnter
  dsimp only
  split
  · exact (emitted_endLostRun hch s).trans ((emitted_chanPush hch _ _).trans (emitted_pump hch _))
  · exact (emitted_endLostRun hch s).trans (emitted_chanLose hch _)

end Channel

theorem emitted_enterChans (r : LmpRec) (s : Dev) : Emitted s (enterChans r s) := by
  refine forS_rel Emitted Emitted.refl (fun _ _ _ => Emitted.trans) _ _ (fun ch hch d => ?_) s
  split
  · exact emitted_chanEnter (List.mem_range.mp hch) r d
  · exact Emitted.refl d
theorem emitted_releaseRecs (l : List LmpRec) (shut : List Nat) (s : Dev) : Emitted s (releaseRecs l shut s) := by
  induction l generalizing shut s with
  | nil => exact Emitted.refl s
  | cons r l ih =>
    unfold releaseRecs
    split
    · exact ih _ s
    · exact (emitted_mdo _ s).trans ((emitted_enterChans _ _).trans (ih _ _))
theorem emitted_emitRec (r : LmpRec) (s : Dev) : Emitted s (emitRec r s) := by
  unfold emitRec
  split
  · exact (emitted_mdo _ s).trans (emitted_releaseRecs _ _ _)
  · exact emitted_enterChans r s

end Sys2Proof.Machine
end

section
/-! SUPPORT. Page lists and the sequence table (R172, R178, R179, R184): what each operation changes and what it leaves unchanged. -/
set_option autoImplicit false
namespace Sys2Proof.Machine
open Sys2Proof

/-! ## Page lists -/

/-- What work on the page lists of sequence `q` keeps: the registers below the pool's counts but the sequence's NARROW_PAGES. -/
def besidePages (q x : Nat) : Prop := belowCounts x ∧ x ≠ Reg.SEQ_TABLE q 6
/-- `b` comes from `a` by work on the page lists of sequence `q` and on frames. -/
structure PageWork (q : Nat) (a b : Dev) : Prop where
  rest : ∃ r m q0 q1 h0 h1, b = { a with regs := r, dram := m, kv := { a.kv with q0 := q0, q1 := q1, h0 := h0, h1 := h1 } }
  regs : KeepsRegs (besidePages q) a b

theorem PageWork.trans {q : Nat} {a b c : Dev} (h : PageWork q a b) (k : PageWork q b c) : PageWork q a c := by
  obtain ⟨⟨r, m, q0, q1, h0, h1, hb⟩, hregs⟩ := h
  obtain ⟨⟨r', m', q0', q1', h0', h1', hc⟩, kregs⟩ := k
  exact ⟨⟨r', m', q0', q1', h0', h1', by rw [hc, hb]⟩, hregs.trans kregs⟩
theorem FrameWork.pageWork {ds : List Nat} {a b : Dev} (q : Nat) (h : FrameWork ds a b) : PageWork q a b := ⟨h.rest, h.regs.mono fun _ => And.left⟩
theorem PageWork.refl (q : Nat) (a : Dev) : PageWork q a a := (FrameWork.refl [] a).pageWork q
theorem pageWork_wrBytes (q a : Nat) (bs : List Byte) (s : Dev) : PageWork q s (wrBytes .dram a bs s) := by
  obtain ⟨m, hm⟩ := wrBytes_dram_only a bs s
  exact ⟨⟨s.regs, m, s.kv.q0, s.kv.q1, s.kv.h0, s.kv.h1, hm⟩, keepsRegs_of_regs _ (wrBytes_regs ..)⟩
theorem RegsOnly.pageWork {a b : Dev} {q : Nat} (h : RegsOnly a b) (hregs : KeepsRegs (besidePages q) a b) : PageWork q a b := by
  refine ⟨?_, hregs⟩
  obtain ⟨r, rfl⟩ := h
  exact ⟨r, a.dram, a.kv.q0, a.kv.q1, a.kv.h0, a.kv.h1, rfl⟩
theorem pageWork_narrowAdd (q : Nat) (up : Bool) (s : Dev) : PageWork q s (narrowAdd q up s) :=
  (regsOnly_wrN _ _ s).pageWork (keepsRegs_wrN _ s fun h => h.2 rfl)
/-- A write of an entry first takes the page that the entry names off NARROW_PAGES, when it counts there. -/
theorem plPut_some (q layer page f : Nat) (s : Dev) : ∃ b, plPut q layer page (some f) s =
    whenS (narrowFor (whenS b (narrowAdd q false) s) q f) (narrowAdd q true)
      (wrLE .dram (plAddr (whenS b (narrowAdd q false) s) q layer page) 4 (f + 2 ^ 19) (whenS b (narrowAdd q false) s)) := by
  unfold plPut
  cases h : plFrame s q layer page with
  | none => exact ⟨false, rfl⟩
  | some o => exact ⟨narrowFor s q o, rfl⟩
theorem plPut_none (q layer page : Nat) (s : Dev) : ∃ b, plPut q layer page none s =
    wrLE .dram (plAddr (whenS b (narrowAdd q false) s) q layer page) 4 0 (whenS b (narrowAdd q false) s) := by
  unfold plPut
  cases h : plFrame s q layer page with
  | none => exact ⟨false, rfl⟩
  | some o => exact ⟨narrowFor s q o, rfl⟩
theorem pageWork_wrLE (q a n v : Nat) (s : Dev) : PageWork q s (wrLE .dram a n v s) := pageWork_wrBytes q a _ s
theorem pageWork_whenNarrow (q : Nat) (b up : Bool) (s : Dev) : PageWork q s (whenS b (narrowAdd q up) s) :=
  whenS_rel _ (PageWork.refl q) _ _ _ (pageWork_narrowAdd q up s)
theorem pageWork_plPut (q layer page : Nat) (f : Option Nat) (s : Dev) : PageWork q s (plPut q layer page f s) := by
  cases f with
  | none =>
    obtain ⟨b, hb⟩ := plPut_none q layer page s
    rw [hb]
    exact (pageWork_whenNarrow ..).trans (pageWork_wrLE ..)
  | some f =>
    obtain ⟨b, hb⟩ := plPut_some q layer page f s
    rw [hb]
    exact (pageWork_whenNarrow ..).trans ((pageWork_wrLE ..).trans (pageWork_whenNarrow ..))

theorem frDie_le (s : Dev) (f : Nat) : frDie s f ∈ [0, 1] := by
  unfold frDie
  split <;> decide
theorem frameWork_decref (f : Nat) (s : Dev) : FrameWork [0, 1] s (decref f s) := by
  have hput : FrameWork [0, 1] s (frPutRef f (frRef s f - 1) s) := frameWork_wf_entry ..
  unfold decref
  dsimp only
  split
  · exact hput.trans (frameWork_frDrain _ (frDie_le _ f))
  · exact hput
theorem pageWork_decref (q f : Nat) (s : Dev) : PageWork q s (decref f s) := (frameWork_decref f s).pageWork q
theorem pageWork_dropPages (q : Nat) (s : Dev) : PageWork q s (dropPages q s) := by
  refine forS_rel (PageWork q) (PageWork.refl q) (fun _ _ _ => PageWork.trans) _ _ (fun l _ d => ?_) s
  refine forS_rel (PageWork q) (PageWork.refl q) (fun _ _ _ => PageWork.trans) _ _ (fun p _ d => ?_) d
  split
  · exact (pageWork_plPut ..).trans (pageWork_decref ..)
  · exact PageWork.refl q d

/-! ## The sequence table (Table 7-7) -/

/-- The state registers of sequence `q`: its entry's first word, and the count of the sequences. -/
def stateRegs (q : Nat) : List Nat := [Reg.SEQ_TABLE q 0, Reg.SEQ_STATUS]
theorem regsOnly_sqPutState (q st : Nat) (s : Dev) : RegsOnly s (sqPutState q st s) := by
  unfold sqPutState
  exact (regsOnly_wrN (Reg.SEQ_TABLE q 0) _ s).trans (regsOnly_wrN Reg.SEQ_STATUS _ _)
theorem sameRegs_sqPutState (q st : Nat) (s : Dev) : SameRegs (stateRegs q) s (sqPutState q st s) := by
  unfold sqPutState
  exact ((sameRegs_wf (Reg.SEQ_TABLE q 0) 0 3 st s).mono (by simp [stateRegs])).trans ((sameRegs_wf Reg.SEQ_STATUS 0 11 _ _).mono (by simp [stateRegs]))
theorem sqState_sqPutState (q : Nat) {st : Nat} (s : Dev) (h : st < 8) : sqState (sqPutState q st s) q = st := by
  unfold sqPutState
  rw [sqState, rf_wf_other _ _ _ _ _ _ (by simp only [Reg.SEQ_TABLE, Reg.SEQ_STATUS]; omega), rf_wf_same _ _ _ _ _ (by decide)]
  exact Nat.mod_eq_of_lt h
/-- The lists and the settings of the device without sequence `q`. -/
def forgetSeq (q : Nat) (s : Dev) : Dev :=
  putSqX q {} { s with kv := { s.kv with arrivals := s.kv.arrivals.filter (· != q), evictLater := s.kv.evictLater.filter (· != q),
                                         victims := s.kv.victims.filter (· != q), waiting := s.kv.waiting.filter (fun w => w.1 != q) } }
theorem freeSeq_eq (q : Nat) (s : Dev) : freeSeq q s = sqPutState q 0 (forgetSeq q s) := rfl

end Sys2Proof.Machine
end

section
/-! SUPPORT. The end of a step (R173, R203, R206): one entry's part of it, and the rest when nothing else waits for it. -/
set_option autoImplicit false
namespace Sys2Proof.Machine
open Sys2Proof

/-! ## KVF_OLDEST (R177) -/

theorem SameRest.kv {a b : Dev} (h : SameRest a b) : b.kv = a.kv := by
  unfold SameRest at h
  rw [h]
theorem showOldest_eq (s : Dev) : ∃ n hold report, showOldest s =
    whenS report (raise 0x0504 0 0) (setB Reg.KVF_STATUS 4 hold (wrN Reg.KVF_OLDEST n s)) := ⟨_, _, _, rfl⟩
theorem sameRest_showOldest (s : Dev) : SameRest s (showOldest s) := by
  obtain ⟨n, hold, report, h⟩ := showOldest_eq s
  rw [h]
  exact ((sameRest_wrN ..).trans (sameRest_setB ..)).trans (whenS_rel SameRest SameRest.refl _ _ _ (sameRest_raise ..))
theorem sameRegs_showOldest (s : Dev) : SameRegs [Reg.KVF_OLDEST, Reg.KVF_STATUS, Reg.KVF_EVENT] s (showOldest s) := by
  obtain ⟨n, hold, report, h⟩ := showOldest_eq s
  rw [h]
  have hraise (d : Dev) : SameRegs [Reg.KVF_EVENT] d (whenS report (raise 0x0504 0 0) d) :=
    whenS_rel (SameRegs _) (SameRegs.refl _) _ _ _ (sameRegs_raiseFor 0 0xFFFF d rfl)
  exact ((sameRegs_wrN Reg.KVF_OLDEST n s).mono (by simp)).trans (((sameRegs_setB Reg.KVF_STATUS 4 hold _).mono (by simp)).trans ((hraise _).mono (by simp)))
theorem keepsRegs_showOldest (s : Dev) : KeepsRegs (· < Reg.KVF_CTRL) s (showOldest s) := (sameRegs_showOldest s).keeps (by decide)
theorem showOldest_acts (s : Dev) : (showOldest s).err.acts = s.err.acts := by
  obtain ⟨n, hold, report, h⟩ := showOldest_eq s
  rw [h]
  cases report
  · rfl
  · exact raiseFor_acts 0x0504 0 0 0xFFFF (setB Reg.KVF_STATUS 4 hold (wrN Reg.KVF_OLDEST n s))

/-! ## Nothing else waits -/

/-- No step is left, and nothing waits for the end of one: no arrival, no eviction, no action of the collector, no ebb. -/
structure Quiet (s : Dev) : Prop where
  steps : s.kv.steps = []
  arrivals : s.kv.arrivals = []
  later : s.kv.evictLater = []
  acts : s.err.acts = []
  ebb : ebbState s ≠ 1

theorem ebbState_congr {a b : Dev} (h : rdN b Reg.PWR_STATUS = rdN a Reg.PWR_STATUS) : ebbState b = ebbState a := by
  unfold ebbState rf
  rw [h]
theorem Quiet.pageWork {q : Nat} {a b : Dev} (hq : Quiet a) (h : PageWork q a b) : Quiet b := by
  have hpwr : rdN b Reg.PWR_STATUS = rdN a Reg.PWR_STATUS :=
    h.regs _ ⟨by decide, by simp only [Reg.PWR_STATUS, Reg.SEQ_TABLE]; omega⟩
  obtain ⟨⟨r, m, q0, q1, h0, h1, rfl⟩, -⟩ := h
  exact ⟨hq.steps, hq.arrivals, hq.later, hq.acts, (ebbState_congr hpwr).trans_ne hq.ebb⟩
theorem Quiet.emitted {a b : Dev} (hq : Quiet a) (h : Emitted a b) : Quiet b := by
  obtain ⟨hrest, hregs, hacts⟩ := h
  have hpwr := hregs Reg.PWR_STATUS (.inr (.inl (by decide)))
  exact ⟨by rw [hrest.kv, hq.steps], by rw [hrest.kv, hq.arrivals], by rw [hrest.kv, hq.later], by rw [hacts, hq.acts],
    (ebbState_congr hpwr).trans_ne hq.ebb⟩
theorem Quiet.regsOnly {a b : Dev} (hq : Quiet a) (h : RegsOnly a b) (hpwr : rdN b Reg.PWR_STATUS = rdN a Reg.PWR_STATUS) : Quiet b := by
  obtain ⟨r, rfl⟩ := h
  exact ⟨hq.steps, hq.arrivals, hq.later, hq.acts, (ebbState_congr hpwr).trans_ne hq.ebb⟩
theorem Quiet.sqPutState {a : Dev} (hq : Quiet a) (q st : Nat) : Quiet (sqPutState q st a) :=
  hq.regsOnly (regsOnly_sqPutState q st a) (sameRegs_sqPutState q st a _ (by
    simp only [stateRegs, Reg.PWR_STATUS, Reg.SEQ_TABLE, Reg.SEQ_STATUS, List.mem_cons, List.not_mem_nil, or_false]
    omega))
theorem Quiet.forgetSeq {a : Dev} (hq : Quiet a) (q : Nat) : Quiet (forgetSeq q a) := by
  refine ⟨hq.steps, ?_, ?_, hq.acts, hq.ebb⟩
  · change a.kv.arrivals.filter (· != q) = []
    rw [hq.arrivals, List.filter_nil]
  · change a.kv.evictLater.filter (· != q) = []
    rw [hq.later, List.filter_nil]
theorem Quiet.freeSeq {a : Dev} (hq : Quiet a) (q : Nat) : Quiet (freeSeq q a) := by
  rw [freeSeq_eq]
  exact (hq.forgetSeq q).sqPutState q 0

/-- The device with the step of cove `c` gone. -/
def stepGone (c : Nat) (s : Dev) : Dev := { s with kv := { s.kv with steps := s.kv.steps.filter fun y => y.cove != c } }
theorem quiet_stepGone {s : Dev} {x : Step} (hebb : ebbState s ≠ 1) (hsteps : s.kv.steps = [x]) (hlater : s.kv.evictLater = []) (harr : s.kv.arrivals = [])
    (hacts : s.err.acts = []) : Quiet (stepGone x.cove s) := by
  refine ⟨?_, harr, hlater, hacts, hebb⟩
  change s.kv.steps.filter (fun y => y.cove != x.cove) = []
  simp [hsteps]
theorem promote_idle {s : Dev} (c : Nat) (h : s.kv.arrivals = []) : promote c s = s := by
  simp [promote, h, forS]
theorem startReady_idle {s : Dev} (h : s.kv.steps = []) : startReady s = s := by
  rw [startReady, h]
  rfl
theorem reclaimDone_idle {s : Dev} (h : s.err.acts = []) : reclaimDone s = s := by
  rw [reclaimDone, h]
  rfl
theorem ebbGoOn_idle {s : Dev} (h : ebbState s ≠ 1) : ebbGoOn s = s := if_neg h
/-- The end of a step's only entry is the end of the step, when nothing else waits for it. -/
theorem stepEnd_single {s : Dev} {c : Nat} {x : Step} {e : StepEnt} (hsteps : s.kv.steps = [x]) (hcove : x.cove = c) (hstarted : x.started = true)
    (hdone : x.done = true) (hents : x.ents = [e]) (hlater : s.kv.evictLater = []) (hq : Quiet (endEntry x e (stepGone c s))) :
    ebbGoOn (stepEnd c s) = showOldest (endEntry x e (stepGone c s)) := by
  have hfind : (s.kv.steps.find? fun x => x.cove == c && x.started && x.done) = some x := by simp [hsteps, hcove, hstarted, hdone]
  have hkv := (sameRest_showOldest (endEntry x e (stepGone c s))).kv
  have hend : stepEnd c s = reclaimDone (startReady (promote c (showOldest (endEntry x e (stepGone c s))))) := by
    simp only [stepEnd, hfind, hents, hlater, forS, List.foldl_cons, List.foldl_nil, stepGone]
  rw [hend, promote_idle c (by rw [hkv, hq.arrivals]), startReady_idle (by rw [hkv, hq.steps]), reclaimDone_idle (by rw [showOldest_acts, hq.acts])]
  exact ebbGoOn_idle ((ebbState_congr (keepsRegs_showOldest _ _ (by decide))).trans_ne hq.ebb)

/-! ## One entry -/

theorem seqTable_low {q j : Nat} (hq : q < 1024) (hj : j < 8) : Reg.SEQ_TABLE q j < Reg.KVF_CTRL := by
  simp only [Reg.SEQ_TABLE, Reg.KVF_CTRL]
  omega
theorem seqTable_ne {q i j : Nat} (h : i ≠ j) : Reg.SEQ_TABLE q i ≠ Reg.SEQ_TABLE q j := by
  simp only [Reg.SEQ_TABLE]
  omega
theorem seqTable_besideOutput (q j : Nat) : besideOutput (Reg.SEQ_TABLE q j) := by
  refine .inr (.inr ?_)
  simp only [Reg.SEQ_TABLE, Reg.ING_PORT_TX_CNT]
  omega
theorem quiet_wf_seqTable {s : Dev} (hq : Quiet s) (q j lo len v : Nat) : Quiet (wf (Reg.SEQ_TABLE q j) lo len v s) :=
  hq.regsOnly (regsOnly_wrN ..) (rdN_wrN_other _ _ (by simp only [Reg.PWR_STATUS, Reg.SEQ_TABLE]; omega))

/-- The entry's positions are those that its sequence then holds. -/
def lenEnded (e : StepEnt) (s : Dev) : Dev := wf (Reg.SEQ_TABLE e.seq 1) 0 16 (e.qpos + e.qcnt) s
theorem sqLen_lenEnded (e : StepEnt) (s : Dev) : sqLen (lenEnded e s) e.seq = (e.qpos + e.qcnt) % 2 ^ 16 := rf_wf_same _ _ _ _ _ (by decide)
theorem sqState_lenEnded (e : StepEnt) (s : Dev) (q : Nat) : sqState (lenEnded e s) q = sqState s q :=
  rf_wf_other _ _ _ _ _ _ (by simp only [Reg.SEQ_TABLE]; omega)
theorem sqGen_lenEnded (e : StepEnt) (s : Dev) (q : Nat) : sqGen (lenEnded e s) q = sqGen s q :=
  rf_wf_other _ _ _ _ _ _ (by simp only [Reg.SEQ_TABLE]; omega)
theorem sqPrompt_lenEnded (e : StepEnt) (s : Dev) : sqPrompt (lenEnded e s) e.seq = sqPrompt s e.seq := rf_wf_disj _ _ _ _ _ _ _ (by decide) (by decide)
theorem quiet_lenEnded {s : Dev} (hq : Quiet s) (e : StepEnt) : Quiet (lenEnded e s) := quiet_wf_seqTable hq e.seq 1 0 16 _

theorem endEntry_silent {x : Step} {e : StepEnt} {s : Dev} (hst : sqState s e.seq ≠ 5) (hlost : e.lost = false) (hy : e.yields = false) :
    endEntry x e s = lenEnded e s := by
  simp only [endEntry, if_neg hst, hlost, hy, Bool.false_eq_true, if_false, lenEnded]
theorem endEntry_lost {x : Step} {e : StepEnt} {s : Dev} (hst : sqState s e.seq ≠ 5) (hlost : e.lost = true) :
    endEntry x e s = { s with kv := { s.kv with waiting := s.kv.waiting ++ [(e.seq, e.by_)] } } := by
  simp only [endEntry, if_neg hst, hlost, if_true]
theorem endEntry_yields {x : Step} {e : StepEnt} {s : Dev} {fin : Bool} {tok : Nat} (hst : sqState s e.seq = 2) (hlost : e.lost = false)
    (hy : e.yields = true) (htoks : x.toks = [(e.seq, fin, tok)]) : endEntry x e s = handTokens e.seq [(fin, tok)] (lenEnded e s) := by
  have hlen : sqState (wf (Reg.SEQ_TABLE e.seq 1) 0 16 (e.qpos + e.qcnt) s) e.seq = 2 := (sqState_lenEnded e s e.seq).trans hst
  simp [endEntry, hst, hlost, hy, htoks, hlen, whenS, lenEnded]

/-- A token joins its sequence's log (log entry 61). -/
def tokenLogged (q tok : Nat) (s : Dev) : Dev :=
  wrLE .dram ((sqX s q).tokAt + 4 * (sqPrompt s q + sqGen s q)) 4 tok (wf (Reg.SEQ_TABLE q 2) 0 16 (sqGen s q + 1) s)
theorem emitted_textRec (seq queryId first : Nat) (toks : List Nat) (endCode recompute narrow time : Nat) (taint untr : Bool) (text : List Byte) (s : Dev) :
    Emitted s (textRec seq queryId first toks endCode recompute narrow time taint untr text s) := emitted_emitRec _ s
theorem handTokens_ends (q tok : Nat) (s : Dev) :
    ∃ d, Emitted (tokenLogged q tok s) d ∧ handTokens q [(true, tok)] s = freeSeq q (dropPages q d) := by
  simp only [tokenLogged, wrLE, handTokens, List.isEmpty_cons, Bool.false_eq_true, ↓reduceIte, List.any_cons, List.any_nil, Bool.or_false,
    List.length_cons, List.length_nil, zero_add, Bool.true_or, List.map_cons, List.map_nil, List.flatMap_cons, List.flatMap_nil, List.append_nil]
  exact ⟨_, emitted_textRec .., rfl⟩
theorem handTokens_goesOn {q tok : Nat} {s : Dev} (h : sqGen s q + 1 < (sqX s q).maxTok) :
    Emitted (tokenLogged q tok s) (handTokens q [(false, tok)] s) := by
  simp [handTokens, tokenLogged, wrLE, Nat.not_le.mpr h, emitted_textRec]

theorem tokenLogged_regs (q tok : Nat) (s : Dev) : (tokenLogged q tok s).regs = (wf (Reg.SEQ_TABLE q 2) 0 16 (sqGen s q + 1) s).regs := wrLE_regs ..
theorem sqGen_tokenLogged (q tok : Nat) (s : Dev) : sqGen (tokenLogged q tok s) q = (sqGen s q + 1) % 2 ^ 16 := by
  rw [sqGen, Machine.rf, rdN_congr (tokenLogged_regs q tok s), ← Machine.rf, rf_wf_same _ _ _ _ _ (by decide)]
theorem sqLen_tokenLogged (q tok : Nat) (s : Dev) : sqLen (tokenLogged q tok s) q = sqLen s q := by
  rw [sqLen, Machine.rf, rdN_congr (tokenLogged_regs q tok s), ← Machine.rf, rf_wf_other _ _ _ _ _ _ (seqTable_ne (by decide)), ← sqLen]
theorem quiet_tokenLogged {s : Dev} (hq : Quiet s) (q tok : Nat) : Quiet (tokenLogged q tok s) :=
  (quiet_wf_seqTable hq q 2 0 16 _).pageWork (pageWork_wrLE q _ 4 tok _)
theorem sqState_freeSeq (q : Nat) (s : Dev) : sqState (freeSeq q s) q = 0 := by
  rw [freeSeq_eq]
  exact sqState_sqPutState q _ (by decide)

/-! ## The end of a single sequence's step -/

theorem rf_seqTable_showOldest {q j : Nat} (lo len : Nat) (s : Dev) (hq : q < 1024) (hj : j < 8) :
    rf (showOldest s) (Reg.SEQ_TABLE q j) lo len = rf s (Reg.SEQ_TABLE q j) lo len := (keepsRegs_showOldest s).rf (seqTable_low hq hj) lo len

section StepEnd
variable {s : Dev} {c : Nat} {x : Step} {e : StepEnt} (hebb : ebbState s ≠ 1) (hsteps : s.kv.steps = [x]) (hcove : x.cove = c) (hstarted : x.started = true)
  (hdone : x.done = true) (hents : x.ents = [e]) (hq : e.seq < 1024) (hlater : s.kv.evictLater = []) (harr : s.kv.arrivals = []) (hacts : s.err.acts = [])
include hebb hsteps hcove hstarted hdone hents hq hlater harr hacts

theorem stepEnd_silent (hlost : e.lost = false) (hy : e.yields = false) (hst : sqState s e.seq ≠ 5) :
    (ebbGoOn (stepEnd c s)).kv.steps = [] ∧ sqLen (ebbGoOn (stepEnd c s)) e.seq = (e.qpos + e.qcnt) % 2 ^ 16 ∧ SameMem s (ebbGoOn (stepEnd c s)) := by
  have hgone : Quiet (stepGone c s) := hcove ▸ quiet_stepGone hebb hsteps hlater harr hacts
  have hent : endEntry x e (stepGone c s) = lenEnded e (stepGone c s) := endEntry_silent hst hlost hy
  have hquiet := quiet_lenEnded hgone e
  rw [stepEnd_single hsteps hcove hstarted hdone hents hlater (hent ▸ hquiet), hent]
  have hshow := sameRest_showOldest (lenEnded e (stepGone c s))
  refine ⟨by rw [hshow.kv, hquiet.steps], ?_, SameMem.trans ⟨rfl, rfl, rfl, rfl⟩ hshow.sameMem⟩
  rw [sqLen, rf_seqTable_showOldest _ _ _ hq (by decide)]
  exact sqLen_lenEnded ..
theorem stepEnd_finished {tok : Nat} (hlost : e.lost = false) (hy : e.yields = true) (htoks : x.toks = [(e.seq, true, tok)]) (hst : sqState s e.seq = 2) :
    (ebbGoOn (stepEnd c s)).kv.steps = [] ∧ sqState (ebbGoOn (stepEnd c s)) e.seq = 0 := by
  have hgone : Quiet (stepGone c s) := hcove ▸ quiet_stepGone hebb hsteps hlater harr hacts
  obtain ⟨d, hd, hfreed⟩ := handTokens_ends e.seq tok (lenEnded e (stepGone c s))
  have hent : endEntry x e (stepGone c s) = freeSeq e.seq (dropPages e.seq d) := by
    rw [endEntry_yields (s := stepGone c s) hst hlost hy htoks, hfreed]
  have hquiet : Quiet (freeSeq e.seq (dropPages e.seq d)) :=
    (((quiet_tokenLogged (quiet_lenEnded hgone e) e.seq tok).emitted hd).pageWork (pageWork_dropPages e.seq d)).freeSeq e.seq
  rw [stepEnd_single hsteps hcove hstarted hdone hents hlater (hent ▸ hquiet), hent]
  refine ⟨by rw [(sameRest_showOldest _).kv, hquiet.steps], ?_⟩
  rw [sqState, rf_seqTable_showOldest _ _ _ hq (by decide)]
  exact sqState_freeSeq ..
theorem stepEnd_goesOn {tok : Nat} (hlost : e.lost = false) (hy : e.yields = true) (htoks : x.toks = [(e.seq, false, tok)]) (hst : sqState s e.seq = 2)
    (hmax : sqGen s e.seq + 1 < (sqX s e.seq).maxTok) (htok : tok < 2 ^ 32)
    (haddr : (sqX s e.seq).tokAt + 4 * (sqPrompt s e.seq + sqGen s e.seq) + 4 ≤ dramBytes) :
    sqGen (ebbGoOn (stepEnd c s)) e.seq = (sqGen s e.seq + 1) % 2 ^ 16 ∧ sqLen (ebbGoOn (stepEnd c s)) e.seq = (e.qpos + e.qcnt) % 2 ^ 16 ∧
      rdLE .dram (ebbGoOn (stepEnd c s)) ((sqX s e.seq).tokAt + 4 * (sqPrompt s e.seq + sqGen s e.seq)) 4 = tok := by
  have hgone : Quiet (stepGone c s) := hcove ▸ quiet_stepGone hebb hsteps hlater harr hacts
  have hgen : sqGen (lenEnded e (stepGone c s)) e.seq = sqGen s e.seq := sqGen_lenEnded ..
  have hprompt : sqPrompt (lenEnded e (stepGone c s)) e.seq = sqPrompt s e.seq := sqPrompt_lenEnded ..
  have hent : endEntry x e (stepGone c s) = handTokens e.seq [(false, tok)] (lenEnded e (stepGone c s)) := endEntry_yields hst hlost hy htoks
  have hemit : Emitted (tokenLogged e.seq tok (lenEnded e (stepGone c s))) (handTokens e.seq [(false, tok)] (lenEnded e (stepGone c s))) :=
    handTokens_goesOn (by rwa [hgen])
  have hquiet := (quiet_tokenLogged (quiet_lenEnded hgone e) e.seq tok).emitted hemit
  rw [stepEnd_single hsteps hcove hstarted hdone hents hlater (hent ▸ hquiet), hent]
  have hread {j : Nat} (lo len : Nat) (hj : j < 8) :
      rf (showOldest (handTokens e.seq [(false, tok)] (lenEnded e (stepGone c s)))) (Reg.SEQ_TABLE e.seq j) lo len =
        rf (tokenLogged e.seq tok (lenEnded e (stepGone c s))) (Reg.SEQ_TABLE e.seq j) lo len :=
    (rf_seqTable_showOldest lo len _ hq hj).trans (hemit.regs.rf (seqTable_besideOutput _ _) lo len)
  refine ⟨?_, ?_, ?_⟩
  · rw [sqGen, hread _ _ (by decide), ← sqGen, sqGen_tokenLogged, hgen]
  · rw [sqLen, hread _ _ (by decide), ← sqLen, sqLen_tokenLogged, sqLen_lenEnded]
  · rw [(sameRest_showOldest _).sameMem.rdLE, hemit.rest.sameMem.rdLE, tokenLogged, hgen, hprompt]
    exact rdLE_wrLE_dram _ haddr htok
omit hq in
theorem stepEnd_lost (hlost : e.lost = true) (hst : sqState s e.seq ≠ 5) :
    (ebbGoOn (stepEnd c s)).kv.steps = [] ∧ (e.seq, e.by_) ∈ (ebbGoOn (stepEnd c s)).kv.waiting := by
  have hgone : Quiet (stepGone c s) := hcove ▸ quiet_stepGone hebb hsteps hlater harr hacts
  have hent := endEntry_lost (x := x) (e := e) (s := stepGone c s) hst hlost
  have hquiet : Quiet (endEntry x e (stepGone c s)) := hent ▸ ⟨hgone.steps, hgone.arrivals, hgone.later, hgone.acts, hgone.ebb⟩
  rw [stepEnd_single hsteps hcove hstarted hdone hents hlater hquiet, (sameRest_showOldest _).kv]
  refine ⟨hquiet.steps, ?_⟩
  rw [hent]
  exact List.mem_append_right _ (List.mem_singleton_self _)

end StepEnd

end Sys2Proof.Machine
end

section
/-! SUPPORT. Steps that are admitted and started, and whole-frame copies (R173, R175, R180, R199). -/
set_option autoImplicit false
namespace Sys2Proof.Machine
open Sys2Proof

/-! ## What the need of a step is read from (R180) -/

theorem seqTable_le (q j : Nat) : Reg.SEQ_TABLE 0 0 ≤ Reg.SEQ_TABLE q j := by
  simp only [Reg.SEQ_TABLE]
  omega

section Congr
variable {a b : Dev} (hmem : SameMem a b) (hregs : KeepsRegs (Reg.SEQ_TABLE 0 0 ≤ ·) a b)
include hregs

theorem sqLayers_congr (q : Nat) : sqLayers b q = sqLayers a q := hregs.rf (seqTable_le q 0) 12 8
theorem frRef_congr (f : Nat) : frRef b f = frRef a f := hregs.rf (by simp only [Reg.SEQ_TABLE, Reg.KVF_TABLE]; omega) 0 10
theorem plAddr_congr (q l p : Nat) : plAddr b q l p = plAddr a q l p := by
  unfold plAddr
  rw [hregs.rd64 (seqTable_le q 4) (Nat.le_add_right_of_le (seqTable_le q 4))]
include hmem
theorem plFrame_congr (q l p : Nat) : plFrame b q l p = plFrame a q l p := by
  unfold plFrame
  rw [plAddr_congr hregs, hmem.rdLE]
theorem copiesOf_congr (has : List PageCopy) (e : StepEnt) (decs : SMap Nat) : copiesOf b has e decs = copiesOf a has e decs := by
  simp only [copiesOf, sqLayers_congr hregs, plFrame_congr hmem hregs, frRef_congr hregs]
theorem freshPages_congr (e : StepEnt) : freshPages b e = freshPages a e := by
  simp only [freshPages, sqLayers_congr hregs, plFrame_congr hmem hregs]
theorem needsOf_congr (has : List PageCopy) (es : List StepEnt) (decs : SMap Nat) : needsOf b has es decs = needsOf a has es decs := by
  induction es generalizing decs with
  | nil => rfl
  | cons e es ih => simp only [needsOf, copiesOf_congr hmem hregs, freshPages_congr hmem hregs, ih]
theorem needOf_congr (x : Step) : needOf b x = needOf a x := by
  unfold needOf
  rw [needsOf_congr hmem hregs]

end Congr

/-! ## A step starts (R173, R199) -/

/-- The number that the next step takes. -/
def nextStep (s : Dev) : Nat := (rdN s Reg.KVF_STEP + 1) % 2 ^ 32
/-- The step in place under its number, and its sequences marked with it. -/
def stepNumbered (x : Step) (s : Dev) : Dev :=
  s |> putStep { x with started := true, num := nextStep s } |> wrN Reg.KVF_STEP (nextStep s) |> forS x.ents (fun e => wrN (Reg.SEQ_TABLE e.seq 3) (nextStep s))
/-- The job of a step. -/
def stepJob (x : Step) (s : Dev) : Job :=
  { slots := x.ents.length, rows := sumN (x.ents.map (·.qcnt)), cost := wpField s x.cove 32 4, step := nextStep s }
/-- The step's job in its cove's queue. -/
def stepQueued (x : Step) (s : Dev) : Dev :=
  let d := mget (fun _ => 0) s.kv.decodes x.cove
  stepNumbered x s |> (fun s => { s with kv := { s.kv with decodes := mset (fun _ => 0) s.kv.decodes x.cove (if x.prefill then 0 else d + 1) } })
    |> modCove x.cove (fun v => { v with queue := v.queue ++ [stepJob x s] })
/-- Whether nothing but frames keeps a step from its start. -/
def canStart (x : Step) (s : Dev) : Bool := !(x.started || x.waits || !x.copies.isEmpty || tst s Reg.KVF_STATUS 4 || coveState s x.cove != 2)
theorem canStart_iff (x : Step) (s : Dev) : canStart x s = true ↔
    x.started = false ∧ x.waits = false ∧ x.copies = [] ∧ tst s Reg.KVF_STATUS 4 = false ∧ coveState s x.cove = 2 := by
  simp [canStart, and_assoc]

theorem startStep_stays {x : Step} {s : Dev} (h : canStart x s = false) : startStep x s = s := by
  have h' : (x.started || x.waits || !x.copies.isEmpty || tst s Reg.KVF_STATUS 4 || coveState s x.cove != 2) = true := (Bool.not_eq_false' _).mp h
  rw [startStep, if_pos h']
theorem startStep_starts {x : Step} {s : Dev} (h : canStart x s = true) (hneed : needOf s x = 0) : startStep x s = showOldest (stepQueued x s) := by
  have h' : (x.started || x.waits || !x.copies.isEmpty || tst s Reg.KVF_STATUS 4 || coveState s x.cove != 2) = false := (Bool.not_eq_true' _).mp h
  rw [startStep, h', if_neg (by decide), if_neg (not_not.mpr hneed)]
  rfl

theorem regsOnly_stepNumbered (x : Step) (s : Dev) : RegsOnly (putStep { x with started := true, num := nextStep s } s) (stepNumbered x s) :=
  (regsOnly_wrN ..).trans (forS_rel RegsOnly RegsOnly.refl (fun _ _ _ => RegsOnly.trans) _ _ (fun _ _ _ => regsOnly_wrN ..) _)
theorem rdN_stepNumbered {x : Step} (s : Dev) (hx : ∀ e ∈ x.ents, e.seq < 1024) : rdN (stepNumbered x s) Reg.KVF_STEP = nextStep s := by
  have hmarked (d : Dev) : KeepsRegs (Reg.KVF_CTRL ≤ ·) d (forS x.ents (fun e => wrN (Reg.SEQ_TABLE e.seq 3) (nextStep s)) d) :=
    keepsRegs_forS _ _ (fun e he d => keepsRegs_wrN _ d (Nat.not_le.mpr (seqTable_low (hx e he) (by decide)))) d
  rw [stepNumbered, hmarked _ _ (by decide), rdN_wrN_same]
  exact Nat.mod_mod_of_dvd _ (dvd_refl _)
theorem kv_stepNumbered (x : Step) (s : Dev) : (stepNumbered x s).kv = (putStep { x with started := true, num := nextStep s } s).kv :=
  (regsOnly_stepNumbered x s).kv
theorem mem_steps_putStep (x : Step) (s : Dev) : x ∈ (putStep x s).kv.steps := List.mem_append_right _ (List.mem_singleton_self x)
theorem steps_stepQueued (x : Step) (s : Dev) : (stepQueued x s).kv.steps = (putStep { x with started := true, num := nextStep s } s).kv.steps :=
by
  rw [← kv_stepNumbered]
  rfl

theorem startStep_effect {x : Step} {s : Dev} (h : canStart x s = true) (hneed : needOf s x = 0) (hx : ∀ e ∈ x.ents, e.seq < 1024) :
    rdN (startStep x s) Reg.KVF_STEP = nextStep s ∧ { x with started := true, num := nextStep s } ∈ (startStep x s).kv.steps ∧
      (coveOf (startStep x s) x.cove).queue.length = (coveOf s x.cove).queue.length + 1 ∧ SameMem s (startStep x s) := by
  have hshow := sameRest_showOldest (stepQueued x s)
  have hcoves : (stepNumbered x s).coves = s.coves := (regsOnly_stepNumbered x s).sameRest.coves
  rw [startStep_starts h hneed]
  refine ⟨?_, ?_, ?_, ?_⟩
  · rw [sameRegs_showOldest (stepQueued x s) _ (by decide)]
    exact rdN_stepNumbered s hx
  · rw [hshow.kv, steps_stepQueued]
    exact mem_steps_putStep _ s
  · rw [coveOf_congr hshow.coves, stepQueued, coveOf_modCove_same, List.length_append]
    exact congrArg (· + 1) (congrArg (List.length ∘ Cove.queue) (coveOf_congr hcoves x.cove))
  · exact ((regsOnly_stepNumbered x s).sameMem.trans ⟨rfl, rfl, rfl, rfl⟩ : SameMem s (stepQueued x s)).trans hshow.sameMem

/-! ## Admission (R180, R181) -/

/-- A step that has its frames and waits for no further one is in place afterwards, started or not. -/
theorem startStep_keeps {y : Step} {s : Dev} (hin : y ∈ s.kv.steps) (hneed : needOf s y = 0) (hw : y.waits = false) :
    ∃ z ∈ (startStep y s).kv.steps, z.cove = y.cove ∧ z.ents = y.ents ∧ z.copies = y.copies ∧ z.waits = false := by
  cases h : canStart y s with
  | false =>
    rw [startStep_stays h]
    exact ⟨y, hin, rfl, rfl, rfl, hw⟩
  | true =>
    rw [startStep_starts h hneed, (sameRest_showOldest _).kv, steps_stepQueued]
    exact ⟨_, mem_steps_putStep _ s, rfl, rfl, rfl, hw⟩
/-- A composed step with its frames, no longer waiting. -/
def withFrames (x : Step) (cs : List PageCopy) : Step := { x with copies := cs, waits := false, freed := [] }
theorem admitStep_admits {x : Step} {s : Dev} {r : Dev × List PageCopy} (h : x.ents.foldlM allocEntry (s, x.copies) = some r)
    (hneed : needOf r.1 (withFrames x r.2) = 0) :
    ∃ z ∈ (admitStep x s).kv.steps, z.cove = x.cove ∧ z.ents = x.ents ∧ z.copies = r.2 ∧ z.waits = false := by
  obtain ⟨n, hn⟩ : ∃ n, admitStep x s = startStep (withFrames x r.2) (putStep (withFrames x r.2) (bump Reg.SEQ_RECOMPUTE_CNT n r.1)) := by
    simp only [admitStep, h]
    exact ⟨_, rfl⟩
  have hregs : KeepsRegs (Reg.SEQ_TABLE 0 0 ≤ ·) r.1 (putStep (withFrames x r.2) (bump Reg.SEQ_RECOMPUTE_CNT n r.1)) :=
    (keepsRegs_wrN (a := Reg.SEQ_RECOMPUTE_CNT) _ r.1 (by decide)).trans (keepsRegs_of_regs _ rfl)
  have hmem : SameMem r.1 (putStep (withFrames x r.2) (bump Reg.SEQ_RECOMPUTE_CNT n r.1)) := ⟨rfl, rfl, rfl, rfl⟩
  rw [hn]
  exact startStep_keeps (mem_steps_putStep _ _) ((needOf_congr hmem hregs _).trans hneed) rfl

/-- The step of a running sequence cove. -/
theorem stepAdmission_step {s : Dev} {c : Nat} {x : Step} (hopen : coveOpen s c = true) (hseq : isSeqCove s c = true) (hkv : tst s Reg.KVF_STATUS 0 = true)
    (hfind : s.kv.steps.find? (fun y => y.cove == c) = some x) : stepAdmission c s = if x.waits then giveFrames x s else startStep x s := by
  simp [stepAdmission, hopen, hseq, hkv, hfind]
theorem stepAdmission_closed {s : Dev} {c : Nat} (h : coveOpen s c = false) : stepAdmission c s = s := by
  simp [stepAdmission, h]
theorem giveFrames_available {x : Step} {s : Dev} (h : needOf s x ≤ availOf s x.cove) : giveFrames x s = admitStep x (frameless x.cove s) := by
  rw [giveFrames, if_pos h]
theorem coveState_of_open {s : Dev} {c : Nat} (h : coveOpen s c = true) : coveState s c = 2 := by
  simp only [coveOpen, Bool.and_eq_true, beq_iff_eq] at h
  obtain ⟨⟨hstate, -⟩, -⟩ := h
  exact hstate

/-! ## A whole-frame copy is done (R175) -/

theorem sameRegs_narrowAdd (q : Nat) (b up : Bool) (s : Dev) : SameRegs [Reg.SEQ_TABLE q 6] s (whenS b (narrowAdd q up) s) :=
  whenS_rel (SameRegs _) (SameRegs.refl _) _ _ _ (sameRegs_wrN _ _ s)
theorem sameRegs_plPut_some (q l p f : Nat) (s : Dev) : SameRegs [Reg.SEQ_TABLE q 6] s (plPut q l p (some f) s) := by
  obtain ⟨b, hb⟩ := plPut_some q l p f s
  rw [hb]
  exact (sameRegs_narrowAdd q b false s).trans ((sameRegs_of_regs _ (wrLE_regs ..)).trans (sameRegs_narrowAdd q _ true _))

theorem plAddr_of_sameRegs {l : List Nat} {a b : Dev} (h : SameRegs l a b) {q : Nat} (layer page : Nat) (h4 : Reg.SEQ_TABLE q 4 ∉ l)
    (h5 : Reg.SEQ_TABLE q 4 + 4 ∉ l) : plAddr b q layer page = plAddr a q layer page := by
  unfold plAddr
  rw [rd64_of_same h h4 h5]
theorem plFrame_of_sameRegs {l : List Nat} {a b : Dev} (hmem : SameMem a b) (h : SameRegs l a b) {q : Nat} (layer page : Nat)
    (h4 : Reg.SEQ_TABLE q 4 ∉ l) (h5 : Reg.SEQ_TABLE q 4 + 4 ∉ l) : plFrame b q layer page = plFrame a q layer page := by
  unfold plFrame
  rw [plAddr_of_sameRegs h layer page h4 h5, hmem.rdLE]
theorem putStep_regs (x : Step) (s : Dev) : (putStep x s).regs = s.regs := rfl
theorem sameMem_putStep (x : Step) (s : Dev) : SameMem s (putStep x s) := ⟨rfl, rfl, rfl, rfl⟩
theorem plFrame_putStep (x : Step) (s : Dev) (q layer page : Nat) : plFrame (putStep x s) q layer page = plFrame s q layer page :=
  plFrame_of_sameRegs (sameMem_putStep x s) (sameRegs_of_regs [] (putStep_regs x s)) _ _ List.not_mem_nil List.not_mem_nil
theorem plAddr_narrowAdd (q layer page : Nat) (b up : Bool) (s : Dev) : plAddr (whenS b (narrowAdd q up) s) q layer page = plAddr s q layer page :=
  plAddr_of_sameRegs (sameRegs_narrowAdd q b up s) _ _ (by simp [Reg.SEQ_TABLE]) (by simp [Reg.SEQ_TABLE])
theorem sameMem_narrowAdd (q : Nat) (b up : Bool) (s : Dev) : SameMem s (whenS b (narrowAdd q up) s) :=
  whenS_rel SameMem SameMem.refl _ _ _ (sameMem_wrN ..)
/-- The entry reads back with its frame. -/
theorem plFrame_plPut_some {q layer page f : Nat} (s : Dev) (hf : f < 262144) (ha : plAddr s q layer page + 4 ≤ dramBytes) :
    plFrame (plPut q layer page (some f) s) q layer page = some f := by
  obtain ⟨b, hb⟩ := plPut_some q layer page f s
  have haddr : plAddr (plPut q layer page (some f) s) q layer page = plAddr s q layer page :=
    plAddr_of_sameRegs (sameRegs_plPut_some q layer page f s) _ _ (by simp [Reg.SEQ_TABLE]) (by simp [Reg.SEQ_TABLE])
  have hread : rdLE .dram (plPut q layer page (some f) s) (plAddr s q layer page) 4 = f + 2 ^ 19 := by
    rw [hb, (sameMem_narrowAdd q _ true _).rdLE, plAddr_narrowAdd]
    exact rdLE_wrLE_dram _ ha (by omega)
  have hvalid : bitOf (f + 2 ^ 19) 19 = true := by
    simp only [bitOf, beq_iff_eq]
    omega
  have hframe : bits (f + 2 ^ 19) 0 19 = f := by
    simp only [bits]
    omega
  simp only [plFrame, haddr, hread, hvalid, hframe, if_true]

/-- The first copy of a step is in its page list. -/
def copyPlaced (p : PageCopy) (s : Dev) : Dev :=
  s |> wrBytes .dram (frAddr s p.new_) (rdBytes .dram s (frAddr s p.old) (kvFrameBytes s)) |> plPut p.seq p.layer p.page (some p.new_)
/-- One reference of the old frame is gone, and the copy counts. -/
def copyCounted (p : PageCopy) (s : Dev) : Dev := s |> frPutRef p.old (frRef s p.old - 1) |> bump Reg.KVF_COW_CNT 1
theorem sameRegs_copyPlaced (p : PageCopy) (s : Dev) : SameRegs [Reg.SEQ_TABLE p.seq 6] s (copyPlaced p s) :=
  (sameRegs_of_regs _ (wrBytes_regs ..)).trans (sameRegs_plPut_some p.seq p.layer p.page p.new_ _)
theorem regsOnly_copyCounted (p : PageCopy) (s : Dev) : RegsOnly s (copyCounted p s) := (regsOnly_wrN _ _ s).trans (regsOnly_wrN ..)
theorem decref_shared {s : Dev} {f : Nat} (h : 2 ≤ frRef s f) : decref f s = frPutRef f (frRef s f - 1) s := if_neg (by omega)
theorem frameCopyDone_more {s : Dev} {c : Nat} {x : Step} {p : PageCopy} {ps : List PageCopy} (hq : p.seq < 1024)
    (hfind : s.kv.steps.find? (fun y => y.cove == c && !y.started && !y.copies.isEmpty) = some x) (hcopies : x.copies = p :: ps) (hmore : ps ≠ [])
    (href : 2 ≤ frRef s p.old) : frameCopyDone c s = putStep { x with copies := ps } (copyCounted p (copyPlaced p s)) := by
  have hkept : frRef (copyPlaced p s) p.old = frRef s p.old := rf_of_same (sameRegs_copyPlaced p s) (by
    have hlow := seqTable_low (j := 6) hq (by decide)
    simp only [Reg.SEQ_TABLE, Reg.KVF_CTRL, Reg.KVF_TABLE, List.mem_singleton] at hlow ⊢
    omega) 0 10
  have hstays (d : Dev) : startStep { x with copies := ps } d = d := startStep_stays (by simp [canStart, hmore])
  have hdrop : decref p.old (copyPlaced p s) = frPutRef p.old (frRef (copyPlaced p s) p.old - 1) (copyPlaced p s) := decref_shared (by rwa [hkept])
  simp only [frameCopyDone, hfind, hcopies, hstays]
  rw [copyCounted, ← hdrop, copyPlaced]
theorem frameCopyDone_effect {s : Dev} {c : Nat} {x : Step} {p : PageCopy} {ps : List PageCopy} (hq : p.seq < 1024) (hnew : p.new_ < 262144)
    (hfind : s.kv.steps.find? (fun y => y.cove == c && !y.started && !y.copies.isEmpty) = some x) (hcopies : x.copies = p :: ps) (hmore : ps ≠ [])
    (href : 2 ≤ frRef s p.old) (haddr : plAddr s p.seq p.layer p.page + 4 ≤ dramBytes) :
    rdN (frameCopyDone c s) Reg.KVF_COW_CNT = (rdN s Reg.KVF_COW_CNT + 1) % 2 ^ 32 ∧ plFrame (frameCopyDone c s) p.seq p.layer p.page = some p.new_ ∧
      { x with copies := ps } ∈ (frameCopyDone c s).kv.steps := by
  rw [frameCopyDone_more hq hfind hcopies hmore href]
  have hlow := seqTable_low (j := 6) hq (by decide)
  refine ⟨?_, ?_, mem_steps_putStep _ _⟩
  · rw [rdN_congr (putStep_regs ..), copyCounted,
      rdN_bump_same, frPutRef, (sameRegs_wf _ 0 10 _ _) _ (by simp [Reg.KVF_TABLE, Reg.KVF_COW_CNT]; omega), (sameRegs_copyPlaced p s) _ (by
        simp only [Reg.KVF_COW_CNT, Reg.KVF_CTRL, List.mem_singleton] at hlow ⊢
        omega)]
  · have hregs : SameRegs [Reg.KVF_TABLE p.old, Reg.KVF_COW_CNT] (copyPlaced p s) (copyCounted p (copyPlaced p s)) :=
      ((sameRegs_wf _ 0 10 _ _).mono (by simp)).trans ((sameRegs_bump Reg.KVF_COW_CNT 1 _).mono (by simp))
    have hseq (n : Nat) (hn : n < Reg.KVF_CTRL) : n ∉ [Reg.KVF_TABLE p.old, Reg.KVF_COW_CNT] := by
      simp only [Reg.KVF_TABLE, Reg.KVF_COW_CNT, Reg.KVF_CTRL, List.mem_cons, List.not_mem_nil, or_false] at hn ⊢
      omega
    have hplaced : plFrame (copyPlaced p s) p.seq p.layer p.page = some p.new_ := by
      refine plFrame_plPut_some _ hnew ?_
      rwa [plAddr_of_sameRegs (sameRegs_of_regs [] (wrBytes_regs ..)) _ _ List.not_mem_nil List.not_mem_nil]
    have hcounted : plFrame (copyCounted p (copyPlaced p s)) p.seq p.layer p.page = some p.new_ :=
      (plFrame_of_sameRegs (regsOnly_copyCounted p _).sameMem hregs _ _ (hseq _ (seqTable_low hq (by decide)))
        (hseq _ (seqTable_low (j := 5) hq (by decide)))).trans hplaced
    rw [plFrame_putStep, hcounted]

/-- Settles O33: a step starts under the next number, a copy replaces its page, and the only entry of a step ends it. -/
theorem stepsAreAdmittedCopiedAndEnded : Obligations.StepsAreAdmittedCopiedAndEnded := by
  unfold Obligations.StepsAreAdmittedCopiedAndEnded
  intro s c x hawake
  refine ⟨fun hopen hseq hkv hfind hst hw hcs hhold hneed hx => ?_, fun r hopen hseq hkv hfind hw hav hr hneed => ?_, fun hclosed => ?_,
    fun p ps hfind hcs hmore hq _ hnew href haddr => ?_, fun e hebb hsteps hcove hst hdone hents hq hlost hy hseq hlater harr hacts => ?_,
    fun e tok hebb hsteps hcove hst hdone hents hq hlost hy htoks hseq hlater harr hacts => ?_,
    fun e tok hebb hsteps hcove hst hdone hents hq hlost hy htoks hseq hlater harr hacts hmax htok haddr => ?_,
    fun e hebb hsteps hcove hst hdone hents hq hlost hseq hlater harr hacts => ?_⟩
  · have hcove : x.cove = c := by simpa using List.find?_some hfind
    have hcan : canStart x s.dev = true := (canStart_iff x s.dev).mpr ⟨hst, hw, hcs, hhold, hcove ▸ coveState_of_open hopen⟩
    have hadm : stepAdmission c s.dev = startStep x s.dev := by rw [stepAdmission_step hopen hseq hkv hfind, if_neg (by simp [hw])]
    refine Does.of_onDev hawake rfl ?_
    rw [show frameEcc .none s.dev = s.dev from rfl, hadm, ← hcove]
    exact startStep_effect hcan hneed hx
  · have hcove : x.cove = c := by simpa using List.find?_some hfind
    refine Does.of_onDev hawake rfl ?_
    rw [show frameEcc .none s.dev = s.dev from rfl, stepAdmission_step hopen hseq hkv hfind, if_pos hw, giveFrames_available (hcove ▸ hav), ← hcove]
    exact admitStep_admits (hcove ▸ hr) hneed
  · exact Does.of_onDev hawake rfl (stepAdmission_closed hclosed)
  · exact Does.of_onDev hawake rfl (frameCopyDone_effect hq hnew hfind hcs hmore href haddr)
  · exact Does.of_onDev hawake rfl (stepEnd_silent hebb hsteps hcove hst hdone hents hq hlater harr hacts hlost hy hseq)
  · exact Does.of_onDev hawake rfl (stepEnd_finished hebb hsteps hcove hst hdone hents hq hlater harr hacts hlost hy htoks hseq)
  · exact Does.of_onDev hawake rfl (stepEnd_goesOn hebb hsteps hcove hst hdone hents hq hlater harr hacts hlost hy htoks hseq hmax htok haddr)
  · exact Does.of_onDev hawake rfl (stepEnd_lost hebb hsteps hcove hst hdone hents hlater harr hacts hlost hseq)

end Sys2Proof.Machine
end

section
/-! SUPPORT. The commands of SEQ_CMD (R178, R179, R182, R183, R188): their results, and the host's answer to exhaustion. -/
set_option autoImplicit false
namespace Sys2Proof.Machine
open Sys2Proof

/-! ## RESULT (Table 7-13) -/

theorem rf_seqResult {code : Nat} (s : Dev) (h : code < 8) : rf (seqResult code s) Reg.SEQ_CMD_RESULT 0 3 = code :=
  (rf_wf_same _ _ _ _ _ (by decide)).trans (Nat.mod_eq_of_lt h)
theorem rf_shareResult {code : Nat} (s : Dev) (h : code < 8) : rf (shareResult code false s) Reg.SEQ_CMD_RESULT 0 3 = code := by
  rw [shareResult, rf, rdN_wrN_same, bits, b2n]
  simp only [Bool.false_eq_true, if_false]
  omega
/-- A command that is refused, or that only names a victim, shows its result and changes no other register and no memory. -/
theorem seqResult_only {code : Nat} (s : Dev) (h : code < 8) : rf (seqResult code s) Reg.SEQ_CMD_RESULT 0 3 = code ∧
    SameRegs [Reg.SEQ_CMD_RESULT] s (seqResult code s) ∧ (seqResult code s).kv = s.kv ∧ SameMem s (seqResult code s) :=
  ⟨rf_seqResult s h, sameRegs_wf _ 0 3 code s, rfl, sameMem_wf ..⟩
theorem shareResult_only {code : Nat} (s : Dev) (h : code < 8) : rf (shareResult code false s) Reg.SEQ_CMD_RESULT 0 3 = code ∧
    SameRegs [Reg.SEQ_CMD_RESULT] s (shareResult code false s) ∧ (shareResult code false s).kv = s.kv ∧ SameMem s (shareResult code false s) :=
  ⟨rf_shareResult s h, sameRegs_wrN Reg.SEQ_CMD_RESULT _ s, rfl, sameMem_wrN ..⟩
theorem seqTable_ne_result (q j : Nat) : Reg.SEQ_TABLE q j ≠ Reg.SEQ_CMD_RESULT := by
  simp only [Reg.SEQ_TABLE, Reg.SEQ_CMD_RESULT]
  omega
theorem sqState_seqResult (q code : Nat) (s : Dev) : sqState (seqResult code s) q = sqState s q := rf_wf_other _ _ _ _ _ _ (seqTable_ne_result q 0)
theorem sqLen_seqResult (q code : Nat) (s : Dev) : sqLen (seqResult code s) q = sqLen s q := rf_wf_other _ _ _ _ _ _ (seqTable_ne_result q 1)

/-! ## SHARE_PREFIX (R178) -/

section Share
variable {s : Dev} {q src : Nat}

/-- Whether two sequences can share: both live, outside a step, and not one. -/
def canShare (s : Dev) (q src : Nat) : Bool := !(inStep s q || inStep s src || sqState s q == 0 || sqState s src == 0 || q == src)
theorem canShare_iff (s : Dev) (q src : Nat) : canShare s q src = true ↔
    inStep s q = false ∧ inStep s src = false ∧ sqState s q ≠ 0 ∧ sqState s src ≠ 0 ∧ q ≠ src := by
  simp [canShare, and_assoc]
theorem sharePrefix_refused (h : canShare s q src = false) : sharePrefix q src s = shareResult 1 false s := by
  rw [sharePrefix, if_pos ((Bool.not_eq_false' _).mp h)]
theorem sharePrefix_tooLong (h : canShare s q src = true) (hlen : sqLen s src < rf s Reg.SEQ_CMD_ARG 0 16) :
    sharePrefix q src s = shareResult 3 false s := by
  rw [sharePrefix, if_neg (by rw [(Bool.not_eq_true' _).mp h]; decide), if_pos hlen]
theorem sharePrefix_differs (h : canShare s q src = true) (hlen : rf s Reg.SEQ_CMD_ARG 0 16 ≤ sqLen s src) (hgeo : geometryDiffers s q src = true) :
    sharePrefix q src s = shareResult 2 false s := by
  rw [sharePrefix, if_neg (by rw [(Bool.not_eq_true' _).mp h]; decide), if_neg (Nat.not_lt.mpr hlen), if_pos hgeo]
/-- Without a saturated frame the prefix is shared page by page. -/
theorem sharePrefix_shares (h : canShare s q src = true) (hlen : rf s Reg.SEQ_CMD_ARG 0 16 ≤ sqLen s src) (hgeo : geometryDiffers s q src = false)
    (hsat : ∀ lp ∈ prefixPages s src (rf s Reg.SEQ_CMD_ARG 0 16), ∀ f, plFrame s src lp.1 lp.2 = some f → frRef s f ≠ 1023) :
    ∃ d, sharePrefix q src s = shareResult 0 false (wf (Reg.SEQ_TABLE q 1) 0 16 (rf s Reg.SEQ_CMD_ARG 0 16) d) := by
  rw [sharePrefix, if_neg (by rw [(Bool.not_eq_true' _).mp h]; decide), if_neg (Nat.not_lt.mpr hlen), if_neg (by rw [hgeo]; decide)]
  dsimp only
  rw [List.filter_eq_nil_iff.mpr]
  · exact ⟨_, rfl⟩
  · intro lp hlp
    cases hf : plFrame s src lp.1 lp.2 with
    | none => simp
    | some f => simpa using hsat lp hlp f hf

end Share

theorem sqLen_shared (q : Nat) {n : Nat} (s : Dev) (hn : n < 2 ^ 16) : sqLen (shareResult 0 false (wf (Reg.SEQ_TABLE q 1) 0 16 n s)) q = n := by
  rw [sqLen, shareResult, rf_wrN_other _ _ _ _ (seqTable_ne_result q 1), rf_wf_same _ _ _ _ _ (by decide), Nat.mod_eq_of_lt hn]

/-! ## CANCEL (R179) -/

section Cancel
variable {s : Dev} {q : Nat}

theorem cancel_refused (h : sqState s q = 0 ∨ sqState s q = 5) : cancel q s = seqResult 1 s := if_pos h
theorem cancel_accepted (h0 : sqState s q ≠ 0) (h5 : sqState s q ≠ 5) : cancel q s = seqResult 0 (endSeq q (bump Reg.SEQ_CANCEL_CNT 1 s)) :=
  if_neg (not_or.mpr ⟨h0, h5⟩)
theorem endSeq_outside (h : inStep s q = false) : ∃ d, endSeq q s = freeSeq q d := by
  rw [endSeq, if_neg (by rw [h]; decide)]
  exact ⟨_, rfl⟩
theorem endSeq_inside (h : inStep s q = true) : ∃ d, endSeq q s = sqPutState q 5 d := by
  rw [endSeq, if_pos h]
  exact ⟨_, rfl⟩
theorem inStep_bump (a k : Nat) (s : Dev) (q : Nat) : inStep (bump a k s) q = inStep s q := rfl
theorem cancel_outside (h0 : sqState s q ≠ 0) (h5 : sqState s q ≠ 5) (h : inStep s q = false) :
    sqState (cancel q s) q = 0 ∧ rf (cancel q s) Reg.SEQ_CMD_RESULT 0 3 = 0 := by
  obtain ⟨d, hd⟩ := endSeq_outside ((inStep_bump Reg.SEQ_CANCEL_CNT 1 s q).trans h)
  rw [cancel_accepted h0 h5, hd, sqState_seqResult, sqState_freeSeq]
  exact ⟨rfl, rf_seqResult _ (by decide)⟩
theorem cancel_inside (h0 : sqState s q ≠ 0) (h5 : sqState s q ≠ 5) (h : inStep s q = true) :
    sqState (cancel q s) q = 5 ∧ rf (cancel q s) Reg.SEQ_CMD_RESULT 0 3 = 0 := by
  obtain ⟨d, hd⟩ := endSeq_inside ((inStep_bump Reg.SEQ_CANCEL_CNT 1 s q).trans h)
  rw [cancel_accepted h0 h5, hd, sqState_seqResult, sqState_sqPutState _ _ (by decide)]
  exact ⟨rfl, rf_seqResult _ (by decide)⟩

end Cancel

/-! ## EVICT (R183, R184) -/

/-- What an eviction leaves to do once the sequence's pages are gone. -/
def evicted (q n : Nat) (s : Dev) : Dev :=
  s |> wf (Reg.SEQ_TABLE q 1) 0 16 0 |> sqPutState q 3 |> wf (Reg.SEQ_TABLE q 6) 20 8 n |> bump Reg.KVF_EVICT_CNT 1
theorem evictSeq_evicted (q : Nat) (s : Dev) : ∃ n d, evictSeq q s = evicted q n d := ⟨_, _, rfl⟩
theorem sameRegs_evictCounts (q n : Nat) (s : Dev) :
    SameRegs [Reg.SEQ_TABLE q 6, Reg.KVF_EVICT_CNT] s (bump Reg.KVF_EVICT_CNT 1 (wf (Reg.SEQ_TABLE q 6) 20 8 n s)) :=
  ((sameRegs_wf _ 20 8 n s).mono (by simp)).trans ((sameRegs_bump Reg.KVF_EVICT_CNT 1 _).mono (by simp))
theorem evicted_effect {q : Nat} (n : Nat) (s : Dev) (hq : q < 1024) : sqState (evicted q n s) q = 3 ∧ sqLen (evicted q n s) q = 0 := by
  have hother {j : Nat} (hj : j < 6) : Reg.SEQ_TABLE q j ∉ [Reg.SEQ_TABLE q 6, Reg.KVF_EVICT_CNT] := by
    simp only [Reg.SEQ_TABLE, Reg.KVF_EVICT_CNT, List.mem_cons, List.not_mem_nil, or_false]
    omega
  have hstate : Reg.SEQ_TABLE q 1 ∉ stateRegs q := by
    simp only [stateRegs, Reg.SEQ_TABLE, Reg.SEQ_STATUS, List.mem_cons, List.not_mem_nil, or_false]
    omega
  unfold evicted
  constructor
  · rw [sqState, rf_of_same (sameRegs_evictCounts q n _) (hother (by decide))]
    exact sqState_sqPutState q _ (by decide)
  · rw [sqLen, rf_of_same (sameRegs_evictCounts q n _) (hother (by decide)), rf_of_same (sameRegs_sqPutState q 3 _) hstate, rf_wf_same _ _ _ _ _ (by decide)]
    rfl

section Evict
variable {s : Dev} {q : Nat}

theorem evict_refused (hmode : tst s Reg.KVF_CTRL 0 = false) (hw : waitsHost s (sqCove s q) = false) : evict q s = seqResult 4 s := by
  simp [evict, hmode, hw]
theorem evict_idle (hmode : tst s Reg.KVF_CTRL 0 = true) (hst : sqState s q = 2) (hw : waitsHost s (sqCove s q) = false) (hin : inStep s q = false) :
    evict q s = seqResult 0 (evictSeq q (leaveStep q s)) := by
  simp [evict, hmode, hst, hw, evictWhenFree, hin]
/-- The device with `q` named a victim of the answer that its cove waits for. -/
def victimNamed (q : Nat) (s : Dev) : Dev := { s with kv := { s.kv with victims := s.kv.victims.filter (· != q) ++ [q] } }
theorem evict_names (hmode : tst s Reg.KVF_CTRL 0 = true) (hst : sqState s q = 4) (hw : waitsHost s (sqCove s q) = true) :
    evict q s = seqResult 0 (victimNamed q s) := by
  simp [evict, hmode, hst, hw, victimNamed]
theorem evict_idle_effect (hmode : tst s Reg.KVF_CTRL 0 = true) (hst : sqState s q = 2) (hw : waitsHost s (sqCove s q) = false) (hin : inStep s q = false)
    (hq : q < 1024) : sqState (evict q s) q = 3 ∧ sqLen (evict q s) q = 0 ∧ rf (evict q s) Reg.SEQ_CMD_RESULT 0 3 = 0 := by
  obtain ⟨n, d, hd⟩ := evictSeq_evicted q (leaveStep q s)
  obtain ⟨hstate, hlen⟩ := evicted_effect n d hq
  rw [evict_idle hmode hst hw hin, hd, sqState_seqResult, sqLen_seqResult]
  exact ⟨hstate, hlen, rf_seqResult _ (by decide)⟩
theorem evict_names_effect (hmode : tst s Reg.KVF_CTRL 0 = true) (hst : sqState s q = 4) (hw : waitsHost s (sqCove s q) = true) :
    rf (evict q s) Reg.SEQ_CMD_RESULT 0 3 = 0 ∧ q ∈ (evict q s).kv.victims ∧ SameRegs [Reg.SEQ_CMD_RESULT] s (evict q s) := by
  rw [evict_names hmode hst hw]
  exact ⟨rf_seqResult _ (by decide), List.mem_append_right _ (List.mem_singleton_self q),
    (sameRegs_of_regs _ rfl).trans (sameRegs_wf Reg.SEQ_CMD_RESULT 0 3 0 (victimNamed q s))⟩

end Evict

/-! ## The host's answer to exhaustion (R183) -/

/-- The record of the wait of cove `c` is gone. -/
def waitForgotten (c : Nat) (s : Dev) : Dev := { s with kv := { s.kv with exhAt := mset (fun _ => none) s.kv.exhAt c none } }
theorem waitsHost_congr {a b : Dev} (h : b.kv.exhAt = a.kv.exhAt) : waitsHost b = waitsHost a := by
  unfold waitsHost
  rw [h]
theorem waitsHost_waitForgotten (c : Nat) (s : Dev) (x : Nat) : waitsHost (waitForgotten c s) x = (waitsHost s x && x != c) := by
  by_cases h : x = c
  · subst h
    simp [waitsHost, waitForgotten]
  · simp [waitsHost, waitForgotten, mget_mset_other _ _ _ h, h]
/-- No exhaustion of the cove is left to report when its shortfall is over. -/
theorem setShort_zero (c : Nat) (s : Dev) : ∃ m named n, setShort c 0 s =
    wrN Reg.KVF_EXH_INFO n (setB Reg.KVF_STATUS 2 named { s with kv := { s.kv with short := m } }) := by
  unfold setShort
  simp only [bne_self_eq_false, Bool.and_false]
  exact ⟨_, _, _, rfl⟩
theorem setShort_zero_effect (c : Nat) (s : Dev) : tst (setShort c 0 s) Reg.KVF_STATUS 3 = tst s Reg.KVF_STATUS 3 ∧ (setShort c 0 s).kv.exhAt = s.kv.exhAt ∧
    SameMem s (setShort c 0 s) ∧ (setShort c 0 s).time = s.time := by
  obtain ⟨m, named, n, h⟩ := setShort_zero c s
  rw [h]
  refine ⟨?_, rfl, ⟨rfl, rfl, rfl, rfl⟩, rfl⟩
  rw [tst_of_same (sameRegs_wrN Reg.KVF_EXH_INFO n _) (by decide), tst_setB_bit _ 2 3 _ _ (by decide) (by decide)]
  rfl
theorem endHostWait_eq (c : Nat) (s : Dev) : endHostWait c s =
    setShort c 0 (setB Reg.KVF_STATUS 3 ((List.range 8).any (waitsHost (waitForgotten c s))) (waitForgotten c s)) := rfl
theorem endHostWait_effect (c : Nat) (s : Dev) : (∀ x, waitsHost (endHostWait c s) x = (waitsHost s x && x != c)) ∧
    tst (endHostWait c s) Reg.KVF_STATUS 3 = (List.range 8).any (waitsHost (endHostWait c s)) ∧ SameMem s (endHostWait c s) ∧
    (endHostWait c s).time = s.time := by
  obtain ⟨hbit, hexh, hmem, htime⟩ := setShort_zero_effect c
    (setB Reg.KVF_STATUS 3 ((List.range 8).any (waitsHost (waitForgotten c s))) (waitForgotten c s))
  rw [← endHostWait_eq] at hbit hexh hmem htime
  have hwaits : waitsHost (endHostWait c s) = waitsHost (waitForgotten c s) := waitsHost_congr hexh
  refine ⟨fun x => by rw [hwaits, waitsHost_waitForgotten], ?_, SameMem.trans ⟨rfl, rfl, rfl, rfl⟩ hmem, htime⟩
  rw [hbit, tst_setB_same _ 3 _ _ (by decide), hwaits]

/-- The wait of a cove ends, and its waiting sequences are what they were before it. -/
def hostAnswered (c : Nat) (s : Dev) : Dev := forS (hostWaiting s c) (fun q s => sqPutState q (sqX s q).was s) (endHostWait c s)
theorem hostWaiting_lt {s : Dev} {c q : Nat} (h : q ∈ hostWaiting s c) : q < 1024 := List.mem_range.mp (List.mem_filter.mp h).1
theorem regsOnly_hostAnswered (c : Nat) (s : Dev) : RegsOnly (endHostWait c s) (hostAnswered c s) :=
  forS_rel RegsOnly RegsOnly.refl (fun _ _ _ => RegsOnly.trans) _ _ (fun _ _ _ => regsOnly_sqPutState ..) _
theorem hostAnswered_effect (c : Nat) (s : Dev) : (∀ x, waitsHost (hostAnswered c s) x = (waitsHost s x && x != c)) ∧
    tst (hostAnswered c s) Reg.KVF_STATUS 3 = (List.range 8).any (waitsHost (hostAnswered c s)) ∧ SameMem s (hostAnswered c s) := by
  obtain ⟨hwaits, hbit, hmem, -⟩ := endHostWait_effect c s
  have honly := regsOnly_hostAnswered c s
  have hsame : waitsHost (hostAnswered c s) = waitsHost (endHostWait c s) := waitsHost_congr (congrArg Kv.exhAt honly.kv)
  have hregs : KeepsRegs (Reg.KVF_CTRL ≤ ·) (endHostWait c s) (hostAnswered c s) :=
    keepsRegs_forS _ _ (fun q hq d => (sameRegs_sqPutState q _ d).keeps (by
      have hlow := seqTable_low (j := 0) (hostWaiting_lt hq) (by decide)
      simp only [stateRegs, List.mem_cons, List.not_mem_nil, or_false, forall_eq_or_imp, forall_eq]
      exact ⟨Nat.not_le.mpr hlow, by decide⟩)) _
  exact ⟨fun x => by rw [hsame, hwaits], by rw [hregs.tst (x := Reg.KVF_STATUS) (by decide), hbit, hsame], hmem.trans honly.sameMem⟩
theorem forS_nil {α : Type} (f : α → Dev → Dev) (s : Dev) : forS [] f s = s := rfl
theorem forS_cons {α : Type} (x : α) (l : List α) (f : α → Dev → Dev) (s : Dev) : forS (x :: l) f s = forS l f (f x s) := rfl
/-- The waits of several coves end. -/
theorem hostsAnswered_effect (cs : List Nat) (s : Dev) : (∀ x, waitsHost (forS cs hostAnswered s) x = (waitsHost s x && !cs.contains x)) ∧
    (cs ≠ [] → tst (forS cs hostAnswered s) Reg.KVF_STATUS 3 = (List.range 8).any (waitsHost (forS cs hostAnswered s))) ∧
    SameMem s (forS cs hostAnswered s) := by
  induction cs generalizing s with
  | nil => exact ⟨fun x => by simp [forS], fun h => absurd rfl h, SameMem.refl s⟩
  | cons c cs ih =>
    obtain ⟨hwaits, hbit, hmem⟩ := hostAnswered_effect c s
    obtain ⟨iwaits, ibit, imem⟩ := ih (hostAnswered c s)
    rw [forS_cons]
    refine ⟨fun x => ?_, fun _ => ?_, hmem.trans imem⟩
    · rw [iwaits, hwaits, List.contains_cons, Bool.not_or, Bool.and_assoc]
      rfl
    · cases cs with
      | nil =>
        rw [forS_nil]
        exact hbit
      | cons c' cs => exact ibit (List.cons_ne_nil c' cs)

/-- The coves that wait for the host. -/
def waiters (s : Dev) : List Nat := (List.range 8).filter (waitsHost s)
theorem waiters_ne_nil {s : Dev} {c : Nat} (hc : c < 8) (h : waitsHost s c = true) : waiters s ≠ [] :=
  List.ne_nil_of_mem (List.mem_filter.mpr ⟨List.mem_range.mpr hc, h⟩)
theorem exhDone_answers {s : Dev} (hmode : tst s Reg.KVF_CTRL 0 = true) (hw : waiters s ≠ []) (hv : s.kv.victims = []) :
    exhDone s = seqResult 0 (forS (waiters s) hostAnswered { s with kv := { s.kv with victims := [] } }) := by
  have hmany : ((List.range 8).filter (waitsHost s)).isEmpty = false := by simpa [waiters] using hw
  have hanswer : (fun c s => forS (hostWaiting s c) (fun q s => sqPutState q (sqX s q).was s) (endHostWait c s)) = hostAnswered := rfl
  simp only [exhDone, hmode, hmany, hv, hanswer, List.filter_nil, forS_nil, Bool.not_true, Bool.false_and, Bool.false_eq_true, if_false, waiters]
theorem exhDone_idle {s : Dev} (hmode : tst s Reg.KVF_CTRL 0 = true) (hw : (List.range 8).any (waitsHost s) = false) : exhDone s = seqResult 1 s := by
  have hnone : (List.range 8).filter (waitsHost s) = [] := by
    rw [List.filter_eq_nil_iff]
    exact List.any_eq_false.mp hw
  simp only [exhDone, hmode, hnone, List.isEmpty_nil, Bool.not_true, Bool.false_and, Bool.false_eq_true, if_false, if_true]
theorem exhDone_effect {s : Dev} {c : Nat} (hmode : tst s Reg.KVF_CTRL 0 = true) (hc : c < 8) (hw : waitsHost s c = true) (hv : s.kv.victims = []) :
    rf (exhDone s) Reg.SEQ_CMD_RESULT 0 3 = 0 ∧ (List.range 8).any (waitsHost (exhDone s)) = false ∧ tst (exhDone s) Reg.KVF_STATUS 3 = false ∧
      SameMem s (exhDone s) := by
  have hmany := waiters_ne_nil hc hw
  rw [exhDone_answers hmode hmany hv]
  obtain ⟨hwaits, hbit, hmem⟩ := hostsAnswered_effect (waiters s) { s with kv := { s.kv with victims := [] } }
  generalize forS (waiters s) hostAnswered { s with kv := { s.kv with victims := [] } } = d at hwaits hbit hmem ⊢
  obtain ⟨hresult, hregs, hkv, hsame⟩ := seqResult_only d (show 0 < 8 by decide)
  have hover : (List.range 8).any (waitsHost d) = false := by
    rw [List.any_eq_false]
    intro x hx
    have hlisted : waitsHost s x = true → x ∈ waiters s := fun h => List.mem_filter.mpr ⟨hx, h⟩
    rw [hwaits, Bool.and_eq_true, not_and]
    intro h
    simpa using hlisted h
  refine ⟨hresult, ?_, ?_, SameMem.trans ⟨rfl, rfl, rfl, rfl⟩ (hmem.trans hsame)⟩
  · rw [waitsHost_congr (congrArg Kv.exhAt hkv), hover]
  · rw [tst_of_same hregs (by decide), hbit hmany, hover]

/-! ## KVF_HOST_TIMEOUT (R32, R183) -/

/-- A waiting sequence is refused with a busy record and freed. -/
def hostRefused (c q : Nat) (s : Dev) : Dev := s |> busyRec c (rf s (Reg.SEQ_TABLE q 2) 16 16) 4 0 |> dropPages q |> freeSeq q
theorem PageWork.time {q : Nat} {a b : Dev} (h : PageWork q a b) : b.time = a.time := by
  obtain ⟨⟨_, _, _, _, _, _, rfl⟩, -⟩ := h
  rfl
theorem time_hostRefused (c q : Nat) (s : Dev) : (hostRefused c q s).time = s.time := by
  have hbusy : (busyRec c (rf s (Reg.SEQ_TABLE q 2) 16 16) 4 0 s).time = s.time := (sameRest_emitRec _ s).time
  exact ((pageWork_dropPages q _).time).trans hbusy
theorem kvfHostTimeout_expires {s : Dev} {c t : Nat} (h : mget (fun _ => none) s.kv.exhAt c = some t) : ∃ d, kvfHostTimeout c s =
    raiseFor 0x0503 c 0 c (hostGone 5 (endHostWait c d)) ∧ d.time = (waitUntil (t + rf s Reg.KVF_HOST_LIM 0 16 * 1000000) s).time := by
  simp only [kvfHostTimeout, h]
  exact ⟨_, rfl, forS_inv (fun d => d.time = (waitUntil (t + rf s Reg.KVF_HOST_LIM 0 16 * 1000000) s).time) _ _
    (fun q _ d hd => (time_hostRefused c q d).trans hd) _ rfl⟩
theorem kvfHostTimeout_effect {s : Dev} {c t : Nat} (h : mget (fun _ => none) s.kv.exhAt c = some t)
    (ht : t + rf s Reg.KVF_HOST_LIM 0 16 * 1000000 < 2 ^ 64) : waitsHost (kvfHostTimeout c s) c = false ∧ tst (kvfHostTimeout c s) Reg.KVF_EVENT 3 = true ∧
      t + rf s Reg.KVF_HOST_LIM 0 16 * 1000000 ≤ now (kvfHostTimeout c s) := by
  obtain ⟨d, hd, htime⟩ := kvfHostTimeout_expires h
  obtain ⟨hwaits, -, -, hended⟩ := endHostWait_effect c d
  have hraise := sameRest_raiseFor 0x0503 c 0 c (hostGone 5 (endHostWait c d))
  rw [hd]
  refine ⟨?_, tst_raiseFor (code := 0x0503) 0 c _ rfl (by decide), ?_⟩
  · rw [waitsHost_congr (congrArg Kv.exhAt hraise.kv)]
    exact (hwaits c).trans (by simp)
  · rw [now, hraise.time]
    exact (le_waitUntil s ht).trans (congrArg Time.ns (hended.trans htime)).ge

/-- Settles O34: each command by the branch it takes, its result written last. -/
theorem sequenceCommandsReportTheirResult : Obligations.SequenceCommandsReportTheirResult := by
  unfold Obligations.SequenceCommandsReportTheirResult
  intro s q hawake
  have hshare (src : Fin 1024) (hq : inStep s.dev q = false) (hsrc : inStep s.dev src = false) (hq0 : sqState s.dev q ≠ 0) (hsrc0 : sqState s.dev src ≠ 0)
      (hne : q ≠ src) : canShare s.dev q src = true := (canShare_iff s.dev q src).mpr ⟨hq, hsrc, hq0, hsrc0, fun h => hne (Fin.ext h)⟩
  refine ⟨fun src hq hsrc hq0 hsrc0 hne hlen hgeo hsat => ?_, fun src hq hsrc hq0 hsrc0 hne hlen => ?_, fun src hq hsrc hq0 hsrc0 hne hlen hgeo => ?_,
    fun src hbad => ?_, fun h0 h5 hin => ?_, fun h0 h5 hin => ?_, fun h => ?_, fun hmode hw => ?_, fun hmode hst hw hin => ?_, fun hmode hst hw => ?_,
    fun c hmode hc hw hv => ?_, fun hmode hw => ?_, fun c t hexh ht => ?_⟩
  · obtain ⟨d, hd⟩ := sharePrefix_shares (hshare src hq hsrc hq0 hsrc0 hne) hlen hgeo hsat
    refine Does.of_onDev hawake rfl ?_
    rw [hd]
    exact ⟨sqLen_shared q d (Nat.mod_lt _ (by decide)), rf_shareResult _ (by decide)⟩
  · refine Does.of_onDev hawake rfl ?_
    rw [sharePrefix_tooLong (hshare src hq hsrc hq0 hsrc0 hne) hlen]
    exact shareResult_only _ (by decide)
  · refine Does.of_onDev hawake rfl ?_
    rw [sharePrefix_differs (hshare src hq hsrc hq0 hsrc0 hne) hlen hgeo]
    exact shareResult_only _ (by decide)
  · have hrefused : canShare s.dev q src = false := by
      rw [← Bool.not_eq_true, canShare_iff]
      rintro ⟨hq, hsrc, hq0, hsrc0, hne⟩
      rcases hbad with h | h | h | h | h
      · exact absurd (hq.symm.trans h) (by decide)
      · exact absurd (hsrc.symm.trans h) (by decide)
      · exact hq0 h
      · exact hsrc0 h
      · exact hne (congrArg Fin.val h)
    refine Does.of_onDev hawake rfl ?_
    rw [sharePrefix_refused hrefused]
    exact shareResult_only _ (by decide)
  · exact Does.of_onDev hawake rfl (cancel_outside h0 h5 hin)
  · exact Does.of_onDev hawake rfl (cancel_inside h0 h5 hin)
  · refine Does.of_onDev hawake rfl ?_
    rw [cancel_refused h]
    exact seqResult_only _ (by decide)
  · refine Does.of_onDev hawake rfl ?_
    rw [evict_refused hmode hw]
    exact seqResult_only _ (by decide)
  · exact Does.of_onDev hawake rfl (evict_idle_effect hmode hst hw hin q.isLt)
  · exact Does.of_onDev hawake rfl (evict_names_effect hmode hst hw)
  · exact Does.of_onDev hawake rfl (exhDone_effect hmode hc hw hv)
  · refine Does.of_onDev hawake rfl ?_
    rw [exhDone_idle hmode hw]
    exact seqResult_only _ (by decide)
  · exact Does.of_onDev hawake rfl (kvfHostTimeout_effect hexh ht)

end Sys2Proof.Machine
end

section
/-! SUPPORT. Turns of a core (R207 to R209): what a change of turns leaves of registers, memories, coves and the core's work, and what a command or task
boundary comes to. -/
set_option autoImplicit false
namespace Sys2Proof.Machine
open Sys2Proof

/-! ## What scheduling leaves of the coves -/

/-- Of a cove nothing but the figures of the tide may differ. -/
def SameCoves (a b : Dev) : Prop := ∀ c, ∃ x, coveOf b c = { coveOf a c with stat := x }

theorem SameCoves.of_coves {a b : Dev} (h : b.coves = a.coves) : SameCoves a b := fun c => ⟨(coveOf a c).stat, coveOf_congr h c⟩
theorem SameCoves.refl (a : Dev) : SameCoves a a := .of_coves rfl
theorem SameCoves.trans {a b c : Dev} (h : SameCoves a b) (k : SameCoves b c) : SameCoves a c := fun i => by
  obtain ⟨x, hx⟩ := h i
  obtain ⟨y, hy⟩ := k i
  exact ⟨y, by rw [hy, hx]⟩
theorem SameCoves.run {a b : Dev} (h : SameCoves a b) (c : Nat) : runOf b c = runOf a c := by
  obtain ⟨x, hx⟩ := h c
  rw [runOf, hx, runOf]
theorem SameCoves.elig {a b : Dev} (h : SameCoves a b) (c : Nat) : (coveOf b c).elig = (coveOf a c).elig := by
  obtain ⟨x, hx⟩ := h c
  rw [hx]
theorem SameCoves.logPos {a b : Dev} (h : SameCoves a b) (c : Nat) : (coveOf b c).logPos = (coveOf a c).logPos := by
  obtain ⟨x, hx⟩ := h c
  rw [hx]
theorem coveOf_modCove (c c' : Nat) (f : Cove → Cove) (s : Dev) : coveOf (modCove c f s) c' = if c' = c then f (coveOf s c) else coveOf s c' :=
  mget_mset ..
@[simp] theorem coreOf_modCove (c : Nat) (f : Cove → Cove) (s : Dev) (k : Nat) : coreOf (modCove c f s) k = coreOf s k := coreOf_congr rfl k
theorem rdN_modCove (c : Nat) (f : Cove → Cove) (s : Dev) (a : Nat) : rdN (modCove c f s) a = rdN s a := rdN_congr rfl a
theorem sameCoves_modStat (c : Nat) (f : TideStat → TideStat) (s : Dev) : SameCoves s (modStat c f s) := fun c' => by
  rw [modStat, coveOf_modCove]
  split
  · next h => exact ⟨_, by rw [h]⟩
  · exact ⟨_, rfl⟩

/-! ## A change of turns -/

/-- A register that no change of turns writes: none of SCH_CORE_STATE, SCH_COVE_DEBT and SCH_COVE_OVERRUN_CNT. -/
abbrev besideTurns (x : Nat) : Prop := (x < Reg.SCH_CORE_STATE 0 ∨ Reg.SCH_CORE_STATE 64 ≤ x) ∧ x % 64 ≠ 48 ∧ x % 64 ≠ 52
/-- What scheduling is read from stays: memories, coves but for the tide's figures, and registers that no change of turns writes. -/
structure SameSchedule (a b : Dev) : Prop where
  mem : SameMem a b
  coves : SameCoves a b
  regs : KeepsRegs besideTurns a b

theorem SameSchedule.refl (a : Dev) : SameSchedule a a := ⟨SameMem.refl a, SameCoves.refl a, KeepsRegs.refl _ a⟩
theorem SameSchedule.trans {a b c : Dev} (h : SameSchedule a b) (g : SameSchedule b c) : SameSchedule a c :=
  ⟨h.mem.trans g.mem, h.coves.trans g.coves, h.regs.trans g.regs⟩
theorem sameSchedule_wrN {a : Nat} (n : Nat) (s : Dev) (h : ¬besideTurns a) : SameSchedule s (wrN a n s) :=
  ⟨sameMem_wrN a n s, .of_coves rfl, keepsRegs_wrN n s h⟩

/-- `b` comes from `a` by a change of turns on core `k`: beside that, the core is at the same work. -/
structure Turned (k : Nat) (a b : Dev) : Prop extends SameSchedule a b where
  task : (coreOf b k).task = (coreOf a k).task
  susp : (coreOf b k).susp = (coreOf a k).susp
  saving : (coreOf b k).saving = (coreOf a k).saving

theorem Turned.trans {k : Nat} {a b c : Dev} (h : Turned k a b) (g : Turned k b c) : Turned k a c :=
  ⟨h.toSameSchedule.trans g.toSameSchedule, g.task.trans h.task, g.susp.trans h.susp, g.saving.trans h.saving⟩
theorem Turned.of_cores {k : Nat} {a b : Dev} (h : SameSchedule a b) (hcores : b.cores = a.cores) : Turned k a b :=
  have hcore := coreOf_congr hcores k
  ⟨h, congrArg Core.task hcore, congrArg Core.susp hcore, congrArg Core.saving hcore⟩
theorem Turned.refl (k : Nat) (a : Dev) : Turned k a a := .of_cores (SameSchedule.refl a) rfl
theorem turned_waitUntil (k t : Nat) (s : Dev) : Turned k s (waitUntil t s) :=
  .of_cores ⟨sameMem_waitUntil t s, .of_coves (waitUntil_coves t s), keepsRegs_of_regs _ (waitUntil_regs t s)⟩ (waitUntil_cores t s)
theorem turned_wrN (k : Nat) {a : Nat} (n : Nat) (s : Dev) (h : ¬besideTurns a) : Turned k s (wrN a n s) := .of_cores (sameSchedule_wrN n s h) rfl
theorem turned_modStat (k c : Nat) (f : TideStat → TideStat) (s : Dev) : Turned k s (modStat c f s) :=
  .of_cores ⟨sameMem_modCove .., sameCoves_modStat c f s, keepsRegs_of_regs _ rfl⟩ rfl
theorem turned_modCore {k : Nat} {f : Core → Core} {s : Dev} (htask : (f (coreOf s k)).task = (coreOf s k).task)
    (hsusp : (f (coreOf s k)).susp = (coreOf s k).susp) (hsaving : (f (coreOf s k)).saving = (coreOf s k).saving) : Turned k s (modCore k f s) :=
  ⟨⟨sameMem_modCore .., .of_coves (modCore_coves ..), keepsRegs_of_regs _ (modCore_regs ..)⟩, by rw [coreOf_modCore_same, htask],
    by rw [coreOf_modCore_same, hsusp], by rw [coreOf_modCore_same, hsaving]⟩

theorem coreState_turns {k : Nat} (hk : k < 64) : ¬besideTurns (Reg.SCH_CORE_STATE k) := by
  simp only [besideTurns, Reg.SCH_CORE_STATE]
  omega
theorem coveDebt_turns (c : Nat) : ¬besideTurns (Reg.SCH_COVE_DEBT c) := by
  simp only [besideTurns, Reg.SCH_COVE_DEBT]
  omega
theorem coveOverrun_turns (c : Nat) : ¬besideTurns (Reg.SCH_COVE_OVERRUN_CNT c) := by
  simp only [besideTurns, Reg.SCH_COVE_OVERRUN_CNT]
  omega

/-- The time since the end of a turn is charged as debt and counted (R207). -/
def lateCharged (k c end_ : Nat) (s : Dev) : Dev :=
  if now s - end_ = 0 then s
  else s |> setDebt k c (debtOf s k c + (now s - end_)) |> bump (Reg.SCH_COVE_OVERRUN_CNT c) 1 |> modStat c (fun x => { x with ovr := x.ovr + 1 })

section Turn
variable {k : Nat} (hk : k < 64)
include hk

theorem turned_showCore (s : Dev) : Turned k s (showCore k s) := turned_wrN k _ s (coreState_turns hk)
theorem turned_setDebt (c ns : Nat) (s : Dev) : Turned k s (setDebt k c ns s) :=
  (turned_modCore (s := s) (f := fun co => { co with debts := mset (fun _ => 0) co.debts c ns }) rfl rfl rfl).trans
    ((turned_wrN k _ _ (coveDebt_turns c)).trans (turned_showCore hk _))
theorem turned_beginTurn (c : Nat) (switch : Bool) (s : Dev) : Turned k s (beginTurn k c switch s) := by
  unfold beginTurn
  exact (turned_modCore rfl rfl rfl).trans (turned_setDebt hk c 0 _)
theorem turned_pickTurn (n : Nat) (cs : List Nat) (s : Dev) : Turned k s (pickTurn k n cs s).2 := by
  induction n generalizing cs s with
  | zero => exact Turned.refl k s
  | succ n ih =>
    cases cs with
    | nil => exact Turned.refl k s
    | cons c cs =>
      rw [pickTurn]
      split
      · exact Turned.refl k s
      · exact (turned_setDebt hk c _ s).trans (ih _ _)
theorem turned_passTurn (c : Nat) (switch : Bool) (s : Dev) : Turned k s (passTurn k c switch s) := by
  have hpick := turned_pickTurn hk 4096 ((turnOrder c).filter fun x => (serves s x || boundTo s k x) && inCove s x k && hasWork s k x) s
  unfold passTurn
  dsimp only
  split
  · exact hpick.trans ((turned_modCore rfl rfl rfl).trans (turned_showCore hk _))
  · exact hpick.trans (turned_beginTurn hk _ _ _)
theorem turned_claimTurn (s : Dev) : Turned k s (claimTurn k s) := by
  unfold claimTurn
  split
  · split
    · exact turned_beginTurn hk _ _ s
    · exact Turned.refl k s
  · exact Turned.refl k s
theorem turned_lateCharged (c end_ : Nat) (s : Dev) : Turned k s (lateCharged k c end_ s) := by
  unfold lateCharged
  split
  · exact Turned.refl k s
  · exact (turned_setDebt hk c _ s).trans ((turned_wrN k _ _ (coveOverrun_turns c)).trans (turned_modStat k c _ _))

end Turn

/-! ## Command and task boundaries -/

/-- A command of the task bound to core `k` is in progress. -/
def cmdRuns (s : Dev) (k : Nat) : Bool := (coreOf s k).task.any (·.cmdAt.isSome)
/-- The task bound to core `k` has completed its last command. -/
def taskRun (s : Dev) (k : Nat) : Bool := (coreOf s k).task.any (allRun s)
/-- A cove other than `c` has work on core `k` that it may do there. -/
def othersWait (s : Dev) (k c : Nat) : Bool :=
  (turnOrder c).any fun d => d != c && (serves s d || boundTo s k d) && inCove s d k && hasWork s k d
/-- The turn of cove `c` is over: another cove's work suspends the task of `bound`, else the turn passes on. -/
def turnOver (k c : Nat) (bound : Option Task) (s : Dev) : Dev := if bound.isSome && othersWait s k c then startSave k s else passTurn k c true s
/-- A boundary in the turn of cove `c`. -/
def boundaryIn (k c : Nat) (s : Dev) : Dev :=
  let end_ := (coreOf s k).turnEnd.getD (now s)
  if (coreOf s k).expired || decide (end_ ≤ now s) then turnOver k c (coreOf s k).task (lateCharged k c end_ s)
  else if (coreOf s k).task.isNone && !(hasWork s k c) then passTurn k c true s else showCore k s
/-- A command or a switch is in progress on core `k`. -/
def coreBusy (s : Dev) (k : Nat) : Bool := (coreOf s k).saving || (coreOf s k).restoring || cmdRuns s k

section Cases
variable {s : Dev} {k : Nat}

/-- What is told of the task is told of the one bound. Stated with a variable for what is told: the kernel would compute `allRun` otherwise. -/
theorem any_of_eq_some {o : Option Task} {t : Task} (h : o = some t) (g : Task → Bool) : o.any g = g t := by rw [h, Option.any_some]
theorem cmdRuns_of_task {t : Task} (h : (coreOf s k).task = some t) : cmdRuns s k = t.cmdAt.isSome := any_of_eq_some h _
theorem taskRun_of_task {t : Task} (h : (coreOf s k).task = some t) : taskRun s k = allRun s t := any_of_eq_some h (allRun s)
theorem cmdRuns_of_none (h : (coreOf s k).task = none) : cmdRuns s k = false := by rw [cmdRuns, h, Option.any_none]
theorem taskRun_of_none (h : (coreOf s k).task = none) : taskRun s k = false := by rw [taskRun, h, Option.any_none]

theorem turnBoundary_busy (hbusy : coreBusy s k = true) : turnBoundary k s = s := by
  cases htask : (coreOf s k).task with
  | none =>
    rw [coreBusy, cmdRuns_of_none htask] at hbusy
    simp only [turnBoundary, hbusy, htask, if_true]
  | some t =>
    rw [coreBusy, cmdRuns_of_task htask] at hbusy
    simp only [turnBoundary, hbusy, htask, if_true]
/-- Without a turn, a core that is shared or has suspended tasks looks for one when it is free (R207). -/
theorem turnBoundary_unturned (hbusy : coreBusy s k = false) (hturn : (coreOf s k).turn = none) : turnBoundary k s =
    if (shared s k || !(coreOf s k).susp.isEmpty) && (coreOf s k).task.isNone then passTurn k 7 false s else showCore k (claimTurn k s) := by
  cases htask : (coreOf s k).task with
  | none =>
    rw [coreBusy, cmdRuns_of_none htask] at hbusy
    simp only [turnBoundary, hbusy, hturn, htask, Bool.false_eq_true, if_false]
  | some t =>
    rw [coreBusy, cmdRuns_of_task htask] at hbusy
    simp only [turnBoundary, hbusy, hturn, htask, Bool.false_eq_true, if_false]
/-- After a task's last command the turn waits for TASK_END (R209). -/
theorem turnBoundary_run {c : Nat} (hbusy : coreBusy s k = false) (hturn : (coreOf s k).turn = some c) (hrun : taskRun s k = true) :
    turnBoundary k s = showCore k s := by
  cases htask : (coreOf s k).task with
  | none =>
    rw [taskRun_of_none htask] at hrun
    cases hrun
  | some t =>
    rw [coreBusy, cmdRuns_of_task htask] at hbusy
    rw [taskRun_of_task htask] at hrun
    simp only [turnBoundary, hbusy, hturn, hrun, htask, Bool.false_eq_true, if_false, if_true]
theorem turnBoundary_inTurn {c : Nat} (hbusy : coreBusy s k = false) (hturn : (coreOf s k).turn = some c) (hrun : taskRun s k = false) :
    turnBoundary k s = boundaryIn k c s := by
  cases htask : (coreOf s k).task with
  | none =>
    rw [coreBusy, cmdRuns_of_none htask] at hbusy
    simp only [turnBoundary, hbusy, hturn, htask, Bool.false_eq_true, if_false]
    simp only [boundaryIn, htask, turnOver, lateCharged, othersWait]
  | some t =>
    rw [coreBusy, cmdRuns_of_task htask] at hbusy
    rw [taskRun_of_task htask] at hrun
    simp only [turnBoundary, hbusy, hturn, hrun, htask, Bool.false_eq_true, if_false]
    simp only [boundaryIn, htask, turnOver, lateCharged, othersWait]

/-- A core of a cove's own without a turn, a task or a suspended one shows its state at most. -/
theorem turnBoundary_alone (hturn : (coreOf s k).turn = none) (htask : (coreOf s k).task = none) (hsusp : (coreOf s k).susp = [])
    (hown : shared s k = false) : turnBoundary k s = s ∨ turnBoundary k s = showCore k s := by
  have hclaim : claimTurn k s = s := by simp only [claimTurn, hturn, htask]
  cases hbusy : coreBusy s k with
  | true => exact .inl (turnBoundary_busy hbusy)
  | false =>
    refine .inr ?_
    rw [turnBoundary_unturned hbusy hturn, hown, hsusp, hclaim]
    rfl
end Cases

section Boundary
variable {k : Nat} (hk : k < 64)
include hk

/-- What a boundary comes to on a core that is at the work of `s`. -/
abbrev BoundaryEnds (k : Nat) (s d : Dev) : Prop := Turned k s d ∨ ∃ u, Turned k s u ∧ (coreOf s k).task.isSome = true ∧ d = startSave k u
theorem boundaryIn_cases (c : Nat) (s : Dev) : BoundaryEnds k s (boundaryIn k c s) := by
  have hlate := turned_lateCharged hk c ((coreOf s k).turnEnd.getD (now s)) s
  unfold boundaryIn turnOver
  dsimp only
  split
  · split
    · next hwait => exact .inr ⟨_, hlate, (Bool.and_eq_true_iff.mp hwait).1, rfl⟩
    · exact .inl (hlate.trans (turned_passTurn hk c true _))
  · split
    · exact .inl (turned_passTurn hk c true s)
    · exact .inl (turned_showCore hk s)
/-- At a boundary the core keeps its work, or the task bound to it is suspended. -/
theorem turnBoundary_cases (s : Dev) : BoundaryEnds k s (turnBoundary k s) := by
  cases hbusy : coreBusy s k with
  | true =>
    rw [turnBoundary_busy hbusy]
    exact .inl (Turned.refl k s)
  | false =>
    cases hturn : (coreOf s k).turn with
    | none =>
      rw [turnBoundary_unturned hbusy hturn]
      split
      · exact .inl (turned_passTurn hk 7 false s)
      · exact .inl ((turned_claimTurn hk s).trans (turned_showCore hk _))
    | some c =>
      cases hrun : taskRun s k with
      | true =>
        rw [turnBoundary_run hbusy hturn hrun]
        exact .inl (turned_showCore hk s)
      | false =>
        rw [turnBoundary_inTurn hbusy hturn hrun]
        exact boundaryIn_cases hk c s
/-- A core without a task suspends none. -/
theorem turned_turnBoundary {s : Dev} (h : (coreOf s k).task = none) : Turned k s (turnBoundary k s) := by
  refine (turnBoundary_cases hk s).resolve_right fun hsave => ?_
  obtain ⟨u, -, hsome, -⟩ := hsave
  rw [h] at hsome
  cases hsome
end Boundary

/-! ## A task is suspended (R209) -/

/-- The task as it is suspended: with the shape registers of its core. -/
def suspendedTask (k : Nat) (t : Task) (s : Dev) : Task := { t with shapes := (List.range 16).map fun i => rdN s (Reg.LPD_SHAPE k i) }
/-- The core of task `t` while the task is being saved. -/
def savingCore (k : Nat) (t : Task) (s : Dev) (c : Core) : Core :=
  { c with task := none, susp := c.susp ++ [(suspendedTask k t s, c.cx)], cx := {}, saving := true, swAt := now s }
/-- The registers and the cove of a task show that it is being saved. -/
def saveShown (k : Nat) (t : Task) (s : Dev) : Dev :=
  s |> arrIdle k |> showTiles k |> showSlots k |> bump (Reg.SCH_COVE_SWITCH_CNT t.cove) 1
    |> modStat t.cove (fun x => { x with switches := x.switches + 1 }) |> showCore k
theorem startSave_eq {s : Dev} {k : Nat} {t : Task} (h : (coreOf s k).task = some t) :
    startSave k s = saveShown k t (modCore k (savingCore k t s) s) := by
  simp only [startSave, h]
  rfl
theorem saveShown_frame (k : Nat) (t : Task) (s : Dev) :
    (saveShown k t s).cores = s.cores ∧ SameMem s (saveShown k t s) ∧ SameCoves s (saveShown k t s) := by
  generalize hu : (s |> arrIdle k |> showTiles k |> showSlots k |> bump (Reg.SCH_COVE_SWITCH_CNT t.cove) 1) = u
  have hrest : RegsOnly s u := by
    rw [← hu]
    exact ((((regsOnly_wrN ..).trans (regsOnly_wrN ..)).trans (regsOnly_wrN ..)).trans (regsOnly_wrN ..)).trans (regsOnly_wrN ..)
  have hshown : saveShown k t s = showCore k (modStat t.cove (fun x => { x with switches := x.switches + 1 }) u) := by
    rw [← hu]
    rfl
  have hcoves := sameCoves_modStat t.cove (fun x => { x with switches := x.switches + 1 }) u
  rw [hshown]
  obtain ⟨r, rfl⟩ := hrest
  exact ⟨rfl, ⟨rfl, rfl, rfl, rfl⟩, ((SameCoves.of_coves rfl).trans hcoves).trans (.of_coves rfl)⟩
theorem startSave_effect {s : Dev} {k : Nat} {t : Task} (h : (coreOf s k).task = some t) :
    coreOf (startSave k s) k = savingCore k t s (coreOf s k) ∧ SameMem s (startSave k s) ∧ SameCoves s (startSave k s) := by
  obtain ⟨hcores, hmem, hcoves⟩ := saveShown_frame k t (modCore k (savingCore k t s) s)
  rw [startSave_eq h]
  exact ⟨by rw [coreOf_congr hcores, coreOf_modCore_same], (sameMem_modCore ..).trans hmem, (SameCoves.of_coves (modCore_coves ..)).trans hcoves⟩

/-- Whatever a boundary comes to, memories stay, and of the coves all but the tide's figures. -/
theorem turnBoundary_frame {k : Nat} (hk : k < 64) (s : Dev) : SameMem s (turnBoundary k s) ∧ SameCoves s (turnBoundary k s) := by
  rcases turnBoundary_cases hk s with h | ⟨u, hu, hsome, h⟩
  · exact ⟨h.mem, h.coves⟩
  · obtain ⟨t, ht⟩ := Option.isSome_iff_exists.mp hsome
    obtain ⟨-, hmem, hcoves⟩ := startSave_effect (hu.task.trans ht)
    rw [h]
    exact ⟨hu.mem.trans hmem, hu.coves.trans hcoves⟩

end Sys2Proof.Machine
end

section
/-! SUPPORT. What placement is read from (R189, R190, R197, R200, R207): packages, coves and core sets, which a change of turns leaves alone. -/
set_option autoImplicit false
namespace Sys2Proof.Machine
open Sys2Proof

/-! ## Packages (R192) -/

section Package
variable {c : Nat} {a b : Dev} (h : SamePackage c a b)
include h

theorem SamePackage.stageAt (i : Nat) : stageAt b c i = stageAt a c i := by rw [Machine.stageAt, Machine.stageAt, h.wp, h.field]
theorem SamePackage.cmdCount (i : Nat) : cmdCount b c i = cmdCount a c i := by rw [Machine.cmdCount, Machine.cmdCount, h.stageAt, h.mem.rdLE]
theorem SamePackage.cmdAt (i : Nat) : cmdAt b c i = cmdAt a c i := by simp only [Machine.cmdAt, h.wp, h.field, h.mem.rdLE]
theorem SamePackage.pkgEng (i : Nat) : pkgEng b c i = pkgEng a c i := by simp only [Machine.pkgEng, h.wp, h.field, h.mem.rdLE]
theorem SamePackage.gridOf (i n : Nat) : gridOf b c i n = gridOf a c i n := by simp only [Machine.gridOf, h.stageAt, h.mem.rdLE]
theorem SamePackage.stageAxis (i : Nat) : stageAxis b c i = stageAxis a c i := by rw [Machine.stageAxis, Machine.stageAxis, h.stageAt, h.mem.rdLE]
theorem SamePackage.allPlain (k i : Nat) : allPlain b k c i = allPlain a k c i := by
  simp only [Machine.allPlain, h.cmdCount, h.stageAt, h.cmdAt, h.pkgEng, h.wp, h.field, h.mem.rdLE, h.mem.winAt]
theorem SamePackage.cmdIndex {t : Task} (ht : t.cove = c) : cmdIndex b t = cmdIndex a t := by
  rw [Machine.cmdIndex, Machine.cmdIndex, ht, h.stageAt, h.mem.rdLE]

end Package

/-! ## Coves and their cores (R189, R190) -/

/-- The registers of a cove but its last four lie beside the turns. -/
theorem coveReg_besideTurns {c : Nat} (hc : c < 8) : besideTurns (Reg.SCH_COVE_STATE c) ∧ besideTurns (Reg.SCH_COVE_CORES_LO c) ∧
    besideTurns (Reg.SCH_COVE_CORES_HI c) ∧ besideTurns (Reg.SCH_COVE_WP_LO c) ∧ besideTurns (Reg.SCH_COVE_WP_LO c + 4) := by
  simp only [besideTurns, Reg.SCH_COVE_STATE, Reg.SCH_COVE_CORES_LO, Reg.SCH_COVE_CORES_HI, Reg.SCH_COVE_WP_LO, Reg.SCH_CORE_STATE]
  omega
theorem coreReg_besideTurns (k : Nat) : besideTurns (Reg.ARR_STATUS k) ∧ besideTurns (Reg.WIN_STATUS k) := by
  simp only [besideTurns, Reg.ARR_STATUS, Reg.WIN_STATUS, Reg.SCH_CORE_STATE, coreBase, dieHalf]
  omega

section Schedule
variable {a b : Dev} (h : SameSchedule a b)
include h

theorem SameSchedule.coreFailed (k : Nat) : coreFailed b k = coreFailed a k := h.regs.tst (coreReg_besideTurns k).1 10
theorem SameSchedule.weReady (k : Nat) : weReady b k = weReady a k := by
  have htst := h.regs.tst (coreReg_besideTurns k).2
  rw [Machine.weReady, Machine.weReady, htst, htst]

section Cove
variable {c : Nat} (hc : c < 8)
include hc

theorem SameSchedule.serves : serves b c = serves a c := by
  obtain ⟨hstate, -⟩ := coveReg_besideTurns hc
  rw [Machine.serves, Machine.serves, coveState, coveState, h.regs.rf hstate]
theorem SameSchedule.inCove (k : Nat) : inCove b c k = inCove a c k := by
  obtain ⟨-, hlo, hhi, -⟩ := coveReg_besideTurns hc
  rw [Machine.inCove, Machine.inCove, h.regs.tst hlo, h.regs.tst hhi]
theorem SameSchedule.coresOf : coresOf b c = coresOf a c := by
  rw [Machine.coresOf, Machine.coresOf, funext (h.inCove hc)]
theorem SameSchedule.package : SamePackage c a b := by
  obtain ⟨-, -, -, hlo, hhi⟩ := coveReg_besideTurns hc
  exact ⟨h.mem, by rw [wpOf, wpOf, baseAddr, baseAddr, h.regs.rd64 hlo hhi]⟩
theorem SameSchedule.eligible (i : Nat) : eligible b c (stageKind b c i) = eligible a c (stageKind a c i) := by
  rw [Machine.eligible, Machine.eligible, h.coves.elig, (h.package hc).stageKind, funext h.coreFailed]
theorem SameSchedule.nElig (i : Nat) : nElig b c i = nElig a c i := by
  rw [Machine.nElig, Machine.nElig, h.coves.elig, (h.package hc).stageKind]
theorem SameSchedule.stageTasks (i : Nat) : stageTasks b c i = stageTasks a c i := by
  rw [Machine.stageTasks, Machine.stageTasks, h.nElig hc, (h.package hc).gridOf]
theorem SameSchedule.engineLets (k i : Nat) : engineLets b k c i = engineLets a k c i := by
  rw [Machine.engineLets, Machine.engineLets, (h.package hc).stageKind, h.weReady, (h.package hc).allPlain]
theorem SameSchedule.couldPlace (k : Nat) : couldPlace b k c = couldPlace a k c := by
  simp only [Machine.couldPlace, h.serves hc, h.coves.run, h.stageTasks hc, h.eligible hc, h.engineLets hc]

end Cove

theorem SameSchedule.shared (k : Nat) : shared b k = shared a k := by
  have hsharers : sharers b k = sharers a k := List.filter_congr fun c hc => by
    rw [h.serves (List.mem_range.mp hc), h.inCove (List.mem_range.mp hc)]
  rw [Machine.shared, Machine.shared, hsharers]
/-- Whether a core is free is read beside the schedule from the core itself and from its domain. -/
theorem SameSchedule.coreFree {c : Nat} (hc : c < 8) (hcores : b.cores = a.cores) {k : Nat} (hdom : domRuns b k = domRuns a k) (i : Nat) :
    coreFree b c i k = coreFree a c i k := by
  simp only [Machine.coreFree, boundTo, coreOf_congr hcores, hdom, h.shared, h.engineLets hc]

end Schedule

end Sys2Proof.Machine
end

section
/-! SUPPORT. The start of a job and the placement of its tasks (R197, R199, R200). -/
set_option autoImplicit false
namespace Sys2Proof.Machine
open Sys2Proof

theorem runOf_modCove_same (c : Nat) (f : Cove → Cove) (s : Dev) : runOf (modCove c f s) c = (f (coveOf s c)).run := by
  rw [runOf, coveOf_modCove_same]

/-! ## JOB_START (R199) -/

/-- The job as it starts: under its number, with a fresh shape vector. -/
def startedRun (c : Nat) (j : Job) (s : Dev) : Run :=
  { job := j, num := rdN s (Reg.SCH_COVE_JOB c), shapes := if isSeqCove s c then [0, j.slots, j.rows] else [j.slots] }
/-- The first queued job is in progress, at its first stage. -/
def jobStarted (c : Nat) (j : Job) (js : List Job) (s : Dev) : Dev :=
  s |> modCove c (fun v => { v with queue := js, run := some (startedRun c j s) }) |> wf (Reg.SCH_COVE_STATE c) 10 6 0
    |> setB (Reg.SCH_COVE_STATE c) 16 true
theorem jobStart_starts {s : Dev} {c : Nat} {j : Job} {js : List Job} (hqueue : (coveOf s c).queue = j :: js)
    (hstate : coveState s c = 2 ∨ coveState s c = 3 ∧ isSeqCove s c = true) (hrun : runOf s c = none) (hcopies : j.copies = []) :
    jobStart c s = jobStarted c j js s := by
  have hopen : (coveState s c == 2 || (coveState s c == 3 && isSeqCove s c)) = true := by simpa using hstate
  have hfree : (coveOf s c).run.isSome = false := Option.isSome_eq_false_iff.mpr (Option.isNone_iff_eq_none.mpr hrun)
  simp only [jobStart, hqueue, hopen, hfree, hcopies, List.isEmpty_nil, Bool.not_true, Bool.or_false, Bool.false_eq_true, if_false]
  rfl
theorem jobStarted_effect (c : Nat) (j : Job) (js : List Job) (s : Dev) :
    (coveOf (jobStarted c j js s) c).queue = js ∧ runOf (jobStarted c j js s) c = some (startedRun c j s) ∧
      rf (jobStarted c j js s) (Reg.SCH_COVE_STATE c) 10 6 = 0 ∧ tst (jobStarted c j js s) (Reg.SCH_COVE_STATE c) 16 = true ∧
      SameRegs [Reg.SCH_COVE_STATE c] s (jobStarted c j js s) ∧ SameMem s (jobStarted c j js s) := by
  have hshown (d : Dev) : SameRest d (setB (Reg.SCH_COVE_STATE c) 16 true (wf (Reg.SCH_COVE_STATE c) 10 6 0 d)) :=
    (sameRest_wf ..).trans (sameRest_setB ..)
  have hcove : coveOf (jobStarted c j js s) c = { coveOf s c with queue := js, run := some (startedRun c j s) } :=
    (coveOf_congr (hshown _).coves c).trans (coveOf_modCove_same ..)
  refine ⟨congrArg Cove.queue hcove, congrArg Cove.run hcove, ?_, tst_setB_same _ _ _ _ (by decide),
    ((sameRegs_of_regs _ rfl).trans (sameRegs_wf _ 10 6 0 _)).trans (sameRegs_setB _ 16 true _), (sameMem_modCove ..).trans (hshown _).sameMem⟩
  rw [jobStarted, rf_setB_disj _ _ _ _ _ _ (by decide) (by decide), rf_wf_same _ _ _ _ _ (by decide), Nat.zero_mod]

/-! ## A task's record in its core's registers (R142, R144, R197) -/

theorem rdN_forS_wrN_other {r : Nat → Nat} (f : Nat → Nat) (n : Nat) {x : Nat} (s : Dev) (hx : ∀ i < n, x ≠ r i) :
    rdN (forS (List.range n) (fun i => wrN (r i) (f i)) s) x = rdN s x :=
  forS_inv (fun d => rdN d x = rdN s x) _ _ (fun i hi d hd => (rdN_wrN_other _ d (hx i (List.mem_range.mp hi))).trans hd) s rfl
/-- A row of registers written one after another holds what was written. -/
theorem rdN_forS_wrN {r : Nat → Nat} (hr : ∀ i j, r i = r j → i = j) (f : Nat → Nat) {n j : Nat} (s : Dev) (hj : j < n) :
    rdN (forS (List.range n) (fun i => wrN (r i) (f i)) s) (r j) = f j % 2 ^ 32 := by
  induction n with
  | zero => cases hj
  | succ n ih =>
    have hlast : forS (List.range (n + 1)) (fun i => wrN (r i) (f i)) s = wrN (r n) (f n) (forS (List.range n) (fun i => wrN (r i) (f i)) s) := by
      rw [forS, forS, List.range_succ, List.foldl_append]
      rfl
    rw [hlast, rdN_wrN]
    split
    · next h => rw [hr j n h]
    · next h => exact ih (by have : j ≠ n := fun hjn => h (congrArg r hjn); omega)

section Record
variable (k : Nat) (t : Task) (s : Dev)

theorem regsOnly_loadRecord : RegsOnly s (loadRecord k t s) :=
  (regsOnly_wrN ..).trans (forS_rel RegsOnly RegsOnly.refl (fun _ _ _ => RegsOnly.trans) _ _ (fun _ _ _ => regsOnly_wrN ..) _)
theorem rdN_loadRecord_grid : rdN (loadRecord k t s) (Reg.LPD_GRID k) = t.grid % 2 ^ 32 := by
  rw [loadRecord, rdN_forS_wrN_other _ _ _ fun i _ => by simp only [Reg.LPD_GRID, Reg.LPD_SHAPE]; omega]
  exact rdN_wrN_same ..
theorem rdN_loadRecord_shape {i : Nat} (hi : i < 16) : rdN (loadRecord k t s) (Reg.LPD_SHAPE k i) = t.shapes.getD i 0 % 2 ^ 32 :=
  rdN_forS_wrN (fun i j h => by simp only [Reg.LPD_SHAPE] at h; omega) _ _ hi

end Record

/-- SCH_CORE_STATE lies apart from the registers of a task's record. -/
theorem record_ne_coreState (k : Nat) : Reg.LPD_GRID k ≠ Reg.SCH_CORE_STATE k ∧ ∀ i, Reg.LPD_SHAPE k i ≠ Reg.SCH_CORE_STATE k := by
  have hbase : Reg.SCH_CORE_STATE k < coreBase 0x100000 0x8000 k := by
    have hk := Nat.div_add_mod k 32
    simp only [Reg.SCH_CORE_STATE, coreBase, dieHalf]
    omega
  exact ⟨by simp only [Reg.LPD_GRID]; omega, fun i => by simp only [Reg.LPD_SHAPE]; omega⟩

/-! ## TASK_PLACE (R200) -/

/-- The free cores of a cove that have no turn have looked for one. -/
def turnsLooked (c : Nat) (s : Dev) : Dev := forS ((coresOf s c).filter fun k => (coreOf s k).turn.isNone && (coreOf s k).task.isNone) turnBoundary s
/-- The next task of a job's stage: its place in the grid, and its slot range. -/
def nextTask (c : Nat) (r : Run) (s : Dev) : Task :=
  let g := gridOf s c r.stage (nElig s c r.stage)
  let i0 := r.next / g.2.1
  let i1 := r.next % g.2.1
  let rng := slotRange (stageAxis s c r.stage) r.job.slots g.1 g.2.1 i0 i1
  { cove := c, job := r.num, stage := r.stage, idx := r.next, grid := g.1 + g.2.1 * 2 ^ 7 + i0 * 2 ^ 14 + i1 * 2 ^ 20,
    shapes := (List.range 16).map fun i => r.shapes.getD i 0, slot0 := rng.1, slots := rng.2 }
/-- That task is bound to core `k`. -/
def taskPlaced (c k : Nat) (r : Run) (s : Dev) : Dev :=
  s |> modCore k (fun co => { co with task := some (nextTask c r s) }) |> loadRecord k (nextTask c r s) |> showCore k
    |> modCove c (fun v => { v with run := some { r with next := r.next + 1 } })

section Place
variable {s d : Dev} {c : Nat} {r : Run} (hlook : turnsLooked c s = d) (hrun : runOf d c = some r)
include hlook hrun

theorem taskPlace_waits (hnone : (eligible d c (stageKind d c r.stage)).find? (coreFree d c r.stage) = none) : taskPlace c s = d := by
  unfold turnsLooked at hlook
  simp only [taskPlace, hlook, hrun, hnone, ite_self]
theorem taskPlace_places {k : Nat} (hdone : r.done = false) (hserves : serves d c = true) (hnext : r.next < stageTasks d c r.stage)
    (hcore : (eligible d c (stageKind d c r.stage)).find? (coreFree d c r.stage) = some k) : taskPlace c s = taskPlaced c k r d := by
  unfold turnsLooked at hlook
  have hleft : (r.done || !(serves d c) || decide (stageTasks d c r.stage ≤ r.next)) = false := by simpa [hdone, hserves] using hnext
  simp only [taskPlace, hlook, hrun, hleft, hcore, Bool.false_eq_true, if_false]
  rfl
end Place

/-- Where no core of the cove is shared or has a suspended task, looking for turns shows the cores' states at most. -/
theorem turnsLooked_alone {s : Dev} {c : Nat} (h : ∀ k ∈ coresOf s c, shared s k = false ∧ (coreOf s k).susp = []) :
    SameSchedule s (turnsLooked c s) ∧ (turnsLooked c s).cores = s.cores ∧ KeepsRegs (Reg.SCH_CORE_STATE 64 ≤ ·) s (turnsLooked c s) := by
  refine forS_inv (fun d => SameSchedule s d ∧ d.cores = s.cores ∧ KeepsRegs (Reg.SCH_CORE_STATE 64 ≤ ·) s d) _ _ (fun k hk d hd => ?_) s
    ⟨SameSchedule.refl s, rfl, KeepsRegs.refl _ s⟩
  obtain ⟨hsched, hcores, hregs⟩ := hd
  obtain ⟨hmem, hfree⟩ := List.mem_filter.mp hk
  obtain ⟨hown, hsusp⟩ := h k hmem
  have hlt : k < 64 := List.mem_range.mp (List.mem_filter.mp hmem).1
  have hcore := coreOf_congr hcores k
  simp only [Bool.and_eq_true, Option.isNone_iff_eq_none, ← hcore] at hfree
  rw [← hcore] at hsusp
  rw [← hsched.shared] at hown
  rcases turnBoundary_alone hfree.1 hfree.2 hsusp hown with hstays | hshows
  · rw [hstays]
    exact ⟨hsched, hcores, hregs⟩
  · have hstate : ¬Reg.SCH_CORE_STATE 64 ≤ Reg.SCH_CORE_STATE k := by simp only [Reg.SCH_CORE_STATE]; omega
    rw [hshows]
    exact ⟨hsched.trans (sameSchedule_wrN _ d (coreState_turns hlt)), hcores, hregs.trans (keepsRegs_wrN _ d hstate)⟩

theorem domRuns_congr {a b : Dev} (h : KeepsRegs (Reg.SCH_CORE_STATE 64 ≤ ·) a b) (k : Nat) : domRuns b k = domRuns a k := by
  rw [domRuns, domRuns, h.rf (by simp only [Reg.SCH_CORE_STATE, Reg.PWR_DOM_STATE]; omega)]

/-- A place in the grid names its row. -/
theorem gridPlace_row {g0 g1 i : Nat} (h0 : g0 ≤ 64) (h1 : g1 ≤ 64) (h : i < g0 * g1) :
    bits ((g0 + g1 * 2 ^ 7 + i / g1 * 2 ^ 14 + i % g1 * 2 ^ 20) % 2 ^ 32) 14 6 = i / g1 := by
  have hpos : 0 < g1 := Nat.pos_of_ne_zero fun h0 => by simp [h0] at h
  have hrow : i / g1 < g0 := Nat.div_lt_of_lt_mul (by rwa [Nat.mul_comm])
  have hcol : i % g1 < g1 := Nat.mod_lt _ hpos
  generalize i / g1 = i0 at *
  generalize i % g1 = i1 at *
  unfold bits
  omega
/-- The sides of a stage's grid (R194). -/
theorem gridOf_le (s : Dev) (c i n : Nat) : (gridOf s c i n).1 ≤ 64 ∧ (gridOf s c i n).2.1 ≤ 64 :=
  ⟨Nat.succ_le_of_lt (bits_lt _ 0 6), Nat.succ_le_of_lt (bits_lt _ 6 6)⟩
theorem nextTask_row {s : Dev} {c : Nat} {r : Run} (hnext : r.next < stageTasks s c r.stage) :
    bits ((nextTask c r s).grid % 2 ^ 32) 14 6 = r.next / (gridOf s c r.stage (nElig s c r.stage)).2.1 := by
  obtain ⟨h0, h1⟩ := gridOf_le s c r.stage (nElig s c r.stage)
  exact gridPlace_row h0 h1 hnext
theorem nextTask_shape (s : Dev) (c : Nat) (r : Run) : (nextTask c r s).shapes.getD 0 0 = r.shapes.getD 0 0 := rfl

theorem taskPlaced_effect {c k : Nat} {r : Run} {s : Dev} (hnext : r.next < stageTasks s c r.stage) :
    (coreOf (taskPlaced c k r s) k).task = some (nextTask c r s) ∧ runOf (taskPlaced c k r s) c = some { r with next := r.next + 1 } ∧
      bits (rdN (taskPlaced c k r s) (Reg.LPD_GRID k)) 14 6 = r.next / (gridOf s c r.stage (nElig s c r.stage)).2.1 ∧
      rdN (taskPlaced c k r s) (Reg.LPD_SHAPE k 0) = r.shapes.getD 0 0 % 2 ^ 32 ∧ SameMem s (taskPlaced c k r s) := by
  generalize hbound : modCore k (fun co => { co with task := some (nextTask c r s) }) s = u
  have hshown : RegsOnly u (showCore k (loadRecord k (nextTask c r s) u)) := (regsOnly_loadRecord ..).trans (regsOnly_wrN ..)
  have hplaced : taskPlaced c k r s = modCove c (fun v => { v with run := some { r with next := r.next + 1 } }) (showCore k (loadRecord k (nextTask c r s) u)) := by
    rw [← hbound]
    rfl
  have hmem : SameMem s u := by
    rw [← hbound]
    exact sameMem_modCore ..
  have htask : (coreOf u k).task = some (nextTask c r s) := by rw [← hbound, coreOf_modCore_same]
  have hregs (x : Nat) : rdN (taskPlaced c k r s) x = rdN (showCore k (loadRecord k (nextTask c r s) u)) x := by
    rw [hplaced]
    exact rdN_modCove ..
  obtain ⟨hgrid, hshape⟩ := record_ne_coreState k
  refine ⟨?_, ?_, ?_, ?_, ?_⟩
  · rw [hplaced, coreOf_modCove, hshown.sameRest.coreOf, htask]
  · rw [hplaced, runOf_modCove_same]
  · rw [hregs, showCore, rdN_wrN_other _ _ hgrid, rdN_loadRecord_grid]
    exact nextTask_row hnext
  · rw [hregs, showCore, rdN_wrN_other _ _ (hshape 0), rdN_loadRecord_shape k _ u (by decide), nextTask_shape]
  · rw [hplaced]
    exact (hmem.trans hshown.sameMem).trans (sameMem_modCove ..)

section Alone
variable {s : Dev} {c : Nat} {r : Run} (hc : c < 8) (hrun : runOf s c = some r)
  (halone : ∀ k ∈ coresOf s c, shared s k = false ∧ (coreOf s k).susp = [])
include hc hrun halone

/-- On cores of a cove's own, looking for turns does not change which core is the first free one. -/
theorem firstFree_turnsLooked : SameSchedule s (turnsLooked c s) ∧ runOf (turnsLooked c s) c = some r ∧
    (eligible (turnsLooked c s) c (stageKind (turnsLooked c s) c r.stage)).find? (coreFree (turnsLooked c s) c r.stage) =
      (eligible s c (stageKind s c r.stage)).find? (coreFree s c r.stage) := by
  obtain ⟨hsched, hcores, hregs⟩ := turnsLooked_alone halone
  have hfree : coreFree (turnsLooked c s) c r.stage = coreFree s c r.stage :=
    funext fun k => hsched.coreFree hc hcores (domRuns_congr hregs k) r.stage
  exact ⟨hsched, (hsched.coves.run c).trans hrun, by rw [hsched.eligible hc, hfree]⟩
theorem taskPlace_none (hnone : (eligible s c (stageKind s c r.stage)).find? (coreFree s c r.stage) = none) :
    runOf (taskPlace c s) c = some r ∧ SameMem s (taskPlace c s) := by
  obtain ⟨hsched, hlooked, hfirst⟩ := firstFree_turnsLooked hc hrun halone
  rw [taskPlace_waits rfl hlooked (hfirst.trans hnone)]
  exact ⟨hlooked, hsched.mem⟩
theorem taskPlace_first {k : Nat} (hdone : r.done = false) (hserves : serves s c = true) (hnext : r.next < stageTasks s c r.stage)
    (hcore : (eligible s c (stageKind s c r.stage)).find? (coreFree s c r.stage) = some k) :
    (coreOf (taskPlace c s) k).task.map (fun t => (t.cove, t.job, t.stage, t.idx, t.pos)) = some (c, r.num, r.stage, r.next, 0) ∧
      runOf (taskPlace c s) c = some { r with next := r.next + 1 } ∧
      bits (rdN (taskPlace c s) (Reg.LPD_GRID k)) 14 6 = r.next / (gridOf s c r.stage (nElig s c r.stage)).2.1 ∧
      rdN (taskPlace c s) (Reg.LPD_SHAPE k 0) = r.shapes.getD 0 0 % 2 ^ 32 ∧ SameMem s (taskPlace c s) := by
  obtain ⟨hsched, hlooked, hfirst⟩ := firstFree_turnsLooked hc hrun halone
  rw [← hsched.stageTasks hc] at hnext
  obtain ⟨htask, hadvanced, hgrid, hshape, hmem⟩ := taskPlaced_effect (k := k) hnext
  rw [(hsched.package hc).gridOf, hsched.nElig hc] at hgrid
  rw [taskPlace_places rfl hlooked hdone ((hsched.serves hc).trans hserves) hnext (hfirst.trans hcore)]
  exact ⟨by rw [htask]; rfl, hadvanced, hgrid, hshape, hsched.mem.trans hmem⟩
end Alone

end Sys2Proof.Machine
end

section
/-! SUPPORT. The ends of tasks, stages and jobs (R197 to R201, R206), and O37. -/
set_option autoImplicit false
namespace Sys2Proof.Machine
open Sys2Proof

/-! ## The completion log (R198) -/

theorem runOf_modCove {c : Nat} {f : Cove → Cove} {s : Dev} (h : (f (coveOf s c)).run = (coveOf s c).run) (c' : Nat) :
    runOf (modCove c f s) c' = runOf s c' := by
  rw [runOf, coveOf_modCove]
  split
  · next hc => rw [h, hc, runOf]
  · rfl
/-- The four words of a command's log entry. -/
def logEntry (k : Nat) (t : Task) (cycles : Nat) (s : Dev) : List Byte :=
  leBytes 4 (k + cmdIndex s t % 2 ^ 16 * 2 ^ 6 + t.status % 8 * 2 ^ 22 + t.flags % 16 * 2 ^ 25) ++ leBytes 4 t.job ++
    leBytes 4 (t.idx % 2 ^ 16 + t.stage % 64 * 2 ^ 16) ++ leBytes 4 (min cycles 0xFFFFFFFF)
/-- The cove's place in its log has advanced, and the command's flags count (R75). -/
def logAdvanced (t : Task) (s : Dev) : Dev :=
  s |> modCove t.cove (fun v => { v with logPos := (v.logPos + 1) % 4096 })
    |> modStat t.cove (fun x => { x with sat := x.sat + b2n (bitOf t.flags 0), nonfin := x.nonfin + b2n (bitOf t.flags 1) })
theorem logCommand_eq (k : Nat) (t : Task) (cycles : Nat) (s : Dev) :
    logCommand k t cycles s = logAdvanced t (wrBytes .dram (logAddr s t.cove) (logEntry k t cycles s) s) := rfl
theorem runOf_logAdvanced (t : Task) (s : Dev) (c : Nat) : runOf (logAdvanced t s) c = runOf s c := by
  rw [logAdvanced, (sameCoves_modStat _ _ _).run, runOf_modCove rfl]
theorem regs_logAdvanced (t : Task) (s : Dev) : (logAdvanced t s).regs = s.regs := rfl
/-- A command's entry of the completion log changes the DRAM and the cove's place in its log. -/
theorem runOf_logCommand (k : Nat) (t : Task) (cycles : Nat) (s : Dev) (c : Nat) : runOf (logCommand k t cycles s) c = runOf s c := by
  rw [logCommand_eq, runOf_logAdvanced, runOf_congr (wrBytes_coves ..)]
theorem regs_logCommand (k : Nat) (t : Task) (cycles : Nat) (s : Dev) : (logCommand k t cycles s).regs = s.regs := by
  rw [logCommand_eq, regs_logAdvanced, wrBytes_regs]

/-! ## TASK_END (R200) -/

/-- The task that ends is counted for its cove: its last log entry, its slow-down, what a contained one loses. -/
def taskCounted (k : Nat) (t : Task) (s : Dev) : Dev :=
  s |> whenS (t.contained && t.cmdAt.isSome) (logCommand k t ((t.c1 - t.cmdC) / 1000)) |> modWe k We.rest
    |> whenS (!t.contained) (measure k t) |> modStat t.cove (fun x => { x with tasks := x.tasks + 1 })
    |> whenS t.contained (bump (Reg.SCH_COVE_CONTAIN_CNT t.cove) 1)
    |> whenS (t.contained && isSeqCove s t.cove) (loseEntries t.cove t.slot0 t.slots k)
/-- The job in progress with a task ended. -/
def withEnded (t : Task) (shapes : List Nat) (r : Run) : Run :=
  { r with ended := r.ended ++ [⟨t.idx, t.contained, shapes⟩], bad := if t.contained then r.bad ++ [(t.slot0, t.slots)] else r.bad }
/-- The core holds no task and no tiles. -/
def coreCleared (k : Nat) (s : Dev) : Dev := s |> freeTiles k (fun _ => true) |> modCore k (fun co => { co with task := none })
/-- The core is free, and its turn may pass on. -/
def coreFreed (k : Nat) (s : Dev) : Dev := s |> coreCleared k |> showCore k |> turnBoundary k
/-- The shape registers of a core. -/
def shapesOf (k : Nat) (s : Dev) : List Nat := (List.range 16).map fun i => rdN s (Reg.LPD_SHAPE k i)
theorem taskEnd_ends {s : Dev} {k : Nat} {t : Task} (htask : (coreOf s k).task = some t)
    (hends : (t.contained || (t.cmdAt.isNone && allRun s t)) = true) :
    taskEnd k s = coreFreed k (modCove t.cove (fun v => { v with run := v.run.map (withEnded t (shapesOf k s)) }) (taskCounted k t s)) := by
  simp only [taskEnd, htask, hends, Bool.not_true, Bool.false_eq_true, if_false]
  rfl

theorem runOf_whenS {b : Bool} {f : Dev → Dev} (h : ∀ s c, runOf (f s) c = runOf s c) (s : Dev) (c : Nat) : runOf (whenS b f s) c = runOf s c :=
  whenS_rel (fun x y => runOf y c = runOf x c) (fun _ => rfl) b f s (h s c)
/-- Counting a task does not change the job in progress. -/
theorem runOf_taskCounted (k : Nat) (t : Task) (s : Dev) (c : Nat) : runOf (taskCounted k t s) c = runOf s c := by
  have hlose := runOf_whenS (b := t.contained && isSeqCove s t.cove) (f := loseEntries t.cove t.slot0 t.slots k) fun _ c => runOf_congr rfl c
  have hbump := runOf_whenS (b := t.contained) (f := bump (Reg.SCH_COVE_CONTAIN_CNT t.cove) 1) fun d c => runOf_congr (bump_coves _ 1 d) c
  have hstat (f : TideStat → TideStat) (d : Dev) : runOf (modStat t.cove f d) c = runOf d c := (sameCoves_modStat t.cove f d).run c
  have hmeasure := runOf_whenS (b := !t.contained) (f := measure k t) fun d c => (sameCoves_modStat t.cove _ d).run c
  have hrest (d : Dev) : runOf (modWe k We.rest d) c = runOf d c := runOf_congr (modCore_coves ..) c
  have hlog := runOf_whenS (b := t.contained && t.cmdAt.isSome) (f := logCommand k t ((t.c1 - t.cmdC) / 1000)) (runOf_logCommand k t _)
  rw [taskCounted, hlose, hbump, hstat, hmeasure, hrest, hlog]
/-- A task that ended its commands leaves the memories alone. -/
theorem sameMem_taskCounted {k : Nat} {t : Task} (s : Dev) (h : t.contained = false) : SameMem s (taskCounted k t s) := by
  simp only [taskCounted, h, Bool.false_and, Bool.not_false, whenS, Bool.false_eq_true, if_false, if_true]
  exact ((sameMem_modCore ..).trans (sameMem_modCove ..)).trans (sameMem_modCove ..)
theorem regs_loseEntries (c lo n k : Nat) (s : Dev) : (loseEntries c lo n k s).regs = s.regs := rfl
/-- A contained task counts (R206). -/
theorem rdN_taskCounted {k : Nat} {t : Task} (s : Dev) (h : t.contained = true) :
    rdN (taskCounted k t s) (Reg.SCH_COVE_CONTAIN_CNT t.cove) = (rdN s (Reg.SCH_COVE_CONTAIN_CNT t.cove) + 1) % 2 ^ 32 := by
  have hlog (b : Bool) : rdN (whenS b (logCommand k t ((t.c1 - t.cmdC) / 1000)) s) (Reg.SCH_COVE_CONTAIN_CNT t.cove) = rdN s (Reg.SCH_COVE_CONTAIN_CNT t.cove) :=
    whenS_rel (fun x y => rdN y _ = rdN x _) (fun _ => rfl) b _ s (rdN_congr (regs_logCommand k t _ s) _)
  have hlose (b : Bool) (d : Dev) : rdN (whenS b (loseEntries t.cove t.slot0 t.slots k) d) (Reg.SCH_COVE_CONTAIN_CNT t.cove) = rdN d (Reg.SCH_COVE_CONTAIN_CNT t.cove) :=
    whenS_rel (fun x y => rdN y _ = rdN x _) (fun _ => rfl) b _ d (rdN_congr (regs_loseEntries ..) _)
  rw [taskCounted, hlose, h, whenS, if_pos rfl, rdN_bump_same, modStat, rdN_modCove, Bool.not_true, whenS, if_neg (by decide), modWe, rdN_modCore, hlog]

theorem coreCleared_effect (k : Nat) (s : Dev) : (coreOf (coreCleared k s) k).task = none ∧ SameMem s (coreCleared k s) ∧
    (coreCleared k s).coves = s.coves ∧ KeepsRegs (· ≠ Reg.ARR_ACC_USE k) s (coreCleared k s) := by
  rw [coreCleared, coreOf_modCore_same, modCore_coves, freeTiles, showTiles, wrN_coves, modCore_coves]
  exact ⟨rfl, ((sameMem_modCore ..).trans (sameMem_wrN ..)).trans (sameMem_modCore ..), rfl,
    ((keepsRegs_of_regs _ (modCore_regs ..)).trans (keepsRegs_wrN _ _ fun h => h rfl)).trans (keepsRegs_of_regs _ (modCore_regs ..))⟩
/-- The core is free, and of registers only ARR_ACC_USE and those of the turns have changed. -/
theorem coreFreed_effect {k : Nat} (hk : k < 64) (s : Dev) :
    (coreOf (coreFreed k s) k).task = none ∧ SameMem s (coreFreed k s) ∧ SameCoves s (coreFreed k s) ∧
      KeepsRegs (fun x => besideTurns x ∧ x ≠ Reg.ARR_ACC_USE k) s (coreFreed k s) := by
  obtain ⟨hnone, hmem, hcoves, hregs⟩ := coreCleared_effect k s
  have hshow := turned_showCore hk (coreCleared k s)
  have hturned : Turned k (coreCleared k s) (coreFreed k s) := hshow.trans (turned_turnBoundary hk (hshow.task.trans hnone))
  exact ⟨hturned.task.trans hnone, hmem.trans hturned.mem, (SameCoves.of_coves hcoves).trans hturned.coves,
    (hregs.mono fun _ h => h.2).trans (hturned.regs.mono fun _ h => h.1)⟩

section TaskEnd
variable {s : Dev} {k : Nat} {t : Task} {r : Run} (hk : k < 64) (htask : (coreOf s k).task = some t) (hrun : runOf s t.cove = some r)
  (hends : (t.contained || (t.cmdAt.isNone && allRun s t)) = true)
include hk htask hrun hends

theorem taskEnd_freed : (coreOf (taskEnd k s) k).task = none ∧ runOf (taskEnd k s) t.cove = some (withEnded t (shapesOf k s) r) := by
  obtain ⟨hnone, -, hcoves, -⟩ := coreFreed_effect hk (modCove t.cove (fun v => { v with run := v.run.map (withEnded t (shapesOf k s)) }) (taskCounted k t s))
  have hcounted : (coveOf (taskCounted k t s) t.cove).run = some r := (runOf_taskCounted k t s t.cove).trans hrun
  rw [taskEnd_ends htask hends]
  refine ⟨hnone, ?_⟩
  rw [hcoves.run, runOf_modCove_same, hcounted]
  rfl
omit hrun in
theorem sameMem_taskEnd (h : t.contained = false) : SameMem s (taskEnd k s) := by
  obtain ⟨-, hmem, -, -⟩ := coreFreed_effect hk (modCove t.cove (fun v => { v with run := v.run.map (withEnded t (shapesOf k s)) }) (taskCounted k t s))
  rw [taskEnd_ends htask hends]
  exact ((sameMem_taskCounted s h).trans (sameMem_modCove ..)).trans hmem
omit hrun in
theorem rdN_taskEnd (hc : t.cove < 8) (h : t.contained = true) :
    rdN (taskEnd k s) (Reg.SCH_COVE_CONTAIN_CNT t.cove) = (rdN s (Reg.SCH_COVE_CONTAIN_CNT t.cove) + 1) % 2 ^ 32 := by
  obtain ⟨-, -, -, hregs⟩ := coreFreed_effect hk (modCove t.cove (fun v => { v with run := v.run.map (withEnded t (shapesOf k s)) }) (taskCounted k t s))
  have hbeside : besideTurns (Reg.SCH_COVE_CONTAIN_CNT t.cove) ∧ Reg.SCH_COVE_CONTAIN_CNT t.cove ≠ Reg.ARR_ACC_USE k := by
    simp only [besideTurns, Reg.SCH_COVE_CONTAIN_CNT, Reg.SCH_CORE_STATE, Reg.ARR_ACC_USE, coreBase]
    omega
  rw [taskEnd_ends htask hends, hregs _ hbeside, rdN_modCove, rdN_taskCounted s h]
end TaskEnd

/-! ## STAGE_END (R197) -/

/-- The job after a stage: its exports have joined the shape vector. -/
def stageEnded (exp : Nat) (r : Run) : Run := { r with shapes := exportShapes r exp, ended := [], next := 0 }

section StageEnd
variable {s : Dev} {c : Nat} {r : Run} (hrun : runOf s c = some r) (hdone : r.done = false) (hall : r.ended.length = stageTasks s c r.stage)
include hrun hdone hall

theorem stageEnd_next (hmore : r.stage + 1 < nStages s c) : stageEnd c s = wf (Reg.SCH_COVE_STATE c) 10 6 (r.stage + 1)
    (modCove c (fun v => { v with run := some { stageEnded (stageExport s c r.stage) r with stage := r.stage + 1 } }) s) := by
  have hends : (r.done || r.ended.length != stageTasks s c r.stage) = false := by simp [hdone, hall]
  simp only [stageEnd, hrun, hends, Bool.false_eq_true, if_false, if_neg (Nat.not_le.mpr hmore)]
  rfl
theorem stageEnd_last (hlast : nStages s c ≤ r.stage + 1) :
    stageEnd c s = modCove c (fun v => { v with run := some { stageEnded (stageExport s c r.stage) r with done := true } }) s := by
  have hends : (r.done || r.ended.length != stageTasks s c r.stage) = false := by simp [hdone, hall]
  simp only [stageEnd, hrun, hends, Bool.false_eq_true, if_false, if_pos hlast]
  rfl
end StageEnd

/-! ## What a vision job hands over (R201, R297) -/

/-- `b` comes from `a` by the results of a job leaving: the coves stay, and every register below the track engines' that is not of the output side. -/
structure ResultsLeft (a b : Dev) : Prop where
  coves : b.coves = a.coves
  regs : KeepsRegs (fun x => besideOutput x ∧ x < Reg.TRK_CTRL 0) a b

theorem ResultsLeft.refl (a : Dev) : ResultsLeft a a := ⟨rfl, KeepsRegs.refl _ a⟩
theorem ResultsLeft.trans {a b c : Dev} (h : ResultsLeft a b) (g : ResultsLeft b c) : ResultsLeft a c := ⟨g.coves.trans h.coves, h.regs.trans g.regs⟩
theorem Emitted.resultsLeft {a b : Dev} (h : Emitted a b) : ResultsLeft a b := ⟨h.rest.coves, h.regs.mono fun _ hx => hx.1⟩
theorem resultsLeft_forS {α : Type} (l : List α) (f : α → Dev → Dev) (h : ∀ x d, ResultsLeft d (f x d)) (s : Dev) : ResultsLeft s (forS l f s) :=
  forS_rel ResultsLeft ResultsLeft.refl (fun _ _ _ => ResultsLeft.trans) l f (fun x _ d => h x d) s

theorem resultsLeft_gap1 (stream : Nat) (why : GapReason) (cove cls capture : Nat) (untr : Bool) (s : Dev) :
    ResultsLeft s (gap1 stream why cove cls capture untr s) := ((emitted_mdo _ s).trans (emitted_emitRec _ _)).resultsLeft
theorem resultsLeft_slotRecs (r : Run) (x : Slot) (s : Dev) : ResultsLeft s (slotRecs r x s) := by
  unfold slotRecs
  refine ((resultsLeft_forS _ _ (fun i d => ?_) s).trans (resultsLeft_forS _ _ (fun b d => ?_) _)).trans (resultsLeft_forS _ _ (fun b d => ?_) _)
  · exact (emitted_emitRec _ d).resultsLeft
  · exact (emitted_emitRec _ d).resultsLeft
  · exact (emitted_emitRec _ d).resultsLeft
theorem resultsLeft_wrN {a : Nat} (n : Nat) (s : Dev) (h : Reg.TRK_CTRL 0 ≤ a) : ResultsLeft s (wrN a n s) :=
  ⟨rfl, keepsRegs_wrN n s fun ha => Nat.not_lt.mpr h ha.2⟩
theorem resultsLeft_modTrk (d : Nat) (f : Trk → Trk) (s : Dev) : ResultsLeft s (modTrk d f s) := ⟨rfl, keepsRegs_of_regs _ rfl⟩
theorem frameDets_counts (d : Nat) (zs : List Det) (s : Dev) : ∃ n, (frameDets d zs s).2 = wrN (Reg.TRK_DET_DROP_CNT d) n s := ⟨_, rfl⟩
theorem resultsLeft_frameToTrk (r : Run) (xs : List Slot) (id : FrameId) (s : Dev) : ResultsLeft s (frameToTrk r xs id s) := by
  unfold frameToTrk
  dsimp only
  split
  · exact ResultsLeft.refl s
  · refine ResultsLeft.trans ?_ (resultsLeft_modTrk _ _ _)
    obtain ⟨n, hcounts⟩ := frameDets_counts (stDie s id.stream) ((xs.filter fun x => x.stream == id.stream && x.cap == id.cap && inRanges r.covers x.i).flatMap
      fun x => (r.emits.filter fun e => e.kind == 1 && e.slot == x.i).map fun e => detOf e.body x (r.job.widths.getD x.cls 0) id) s
    rw [hcounts]
    exact resultsLeft_wrN _ s (by simp only [Reg.TRK_DET_DROP_CNT, Reg.TRK_CTRL, dieBase]; omega)
theorem resultsLeft_emitJob (c : Nat) (r : Run) (s : Dev) : ResultsLeft s (emitJob c r s) := by
  unfold emitJob
  exact ((resultsLeft_forS _ _ (fun _ d => resultsLeft_gap1 _ _ _ _ _ _ d) s).trans (resultsLeft_forS _ _ (resultsLeft_slotRecs r) _)).trans
    (resultsLeft_forS _ _ (resultsLeft_frameToTrk r _) _)

/-! ## JOB_END (R199) -/

/-- The started step of cove `c` is marked done. -/
def stepsDone (c : Nat) (l : List Step) : List Step := modIf l (fun x => x.cove == c && x.started) fun x => { x with done := true }
/-- The results of a job that is done leave, or its step is marked done. -/
def jobHanded (c : Nat) (r : Run) (s : Dev) : Dev :=
  if isSeqCove s c then { s with kv := { s.kv with steps := stepsDone c s.kv.steps } } else emitJob c r s
/-- The job has left, and its number advances. -/
def jobLeft (c : Nat) (s : Dev) : Dev :=
  s |> modCove c (fun v => { v with run := none }) |> bump (Reg.SCH_COVE_JOB c) 1 |> setB (Reg.SCH_COVE_STATE c) 16 false
/-- A cove that was stopping has stopped (R191). -/
def coveStopped (c : Nat) (s : Dev) : Dev := if coveState s c = 3 then setCoveState c 4 s else s
theorem jobEnd_ends {s : Dev} {c : Nat} {r : Run} (hrun : runOf s c = some r) (hdone : r.done = true) :
    jobEnd c s = coveStopped c (jobLeft c (jobHanded c r s)) := by
  simp only [jobEnd, hrun, hdone, Bool.not_true, Bool.false_eq_true, if_false]
  rfl

theorem stepsDone_done {c : Nat} {l : List Step} {x : Step} (hx : x ∈ stepsDone c l) (hc : x.cove = c) (hstarted : x.started = true) : x.done = true := by
  obtain ⟨y, -, hy⟩ := List.mem_map.mp hx
  split at hy
  · rw [← hy]
  · next h =>
    rw [hy] at h
    exact absurd (by simp [hc, hstarted]) h
theorem resultsLeft_jobHanded (c : Nat) (r : Run) (s : Dev) : ResultsLeft s (jobHanded c r s) := by
  unfold jobHanded
  split
  · exact ⟨rfl, keepsRegs_of_regs _ rfl⟩
  · exact resultsLeft_emitJob c r s

theorem jobLeft_effect (c : Nat) (s : Dev) : runOf (jobLeft c s) c = none ∧
    rdN (jobLeft c s) (Reg.SCH_COVE_JOB c) = (rdN s (Reg.SCH_COVE_JOB c) + 1) % 2 ^ 32 ∧ tst (jobLeft c s) (Reg.SCH_COVE_STATE c) 16 = false ∧
      coveState (jobLeft c s) c = coveState s c ∧ rdN (jobLeft c s) Reg.PWR_STATUS = rdN s Reg.PWR_STATUS := by
  have hjob : Reg.SCH_COVE_JOB c ≠ Reg.SCH_COVE_STATE c := by simp only [Reg.SCH_COVE_JOB, Reg.SCH_COVE_STATE]; omega
  have hstate : Reg.SCH_COVE_STATE c ≠ Reg.SCH_COVE_JOB c := hjob.symm
  have hpwr : Reg.PWR_STATUS ≠ Reg.SCH_COVE_STATE c ∧ Reg.PWR_STATUS ≠ Reg.SCH_COVE_JOB c := by
    simp only [Reg.PWR_STATUS, Reg.SCH_COVE_STATE, Reg.SCH_COVE_JOB]
    omega
  have hcoves : (jobLeft c s).coves = (modCove c (fun v => { v with run := none }) s).coves := ((sameRest_bump ..).trans (sameRest_setB ..)).coves
  refine ⟨?_, ?_, tst_setB_same _ _ _ _ (by decide), ?_, ?_⟩
  · rw [runOf_congr hcoves, runOf_modCove_same]
  · rw [jobLeft, rdN_setB_other _ _ _ hjob, rdN_bump_same, rdN_modCove]
  · rw [coveState, jobLeft, rf_setB_disj _ _ _ _ _ _ (by decide) (by decide), rf, rdN_bump_other _ _ hstate, rdN_modCove, coveState, rf]
  · rw [jobLeft, rdN_setB_other _ _ _ hpwr.1, rdN_bump_other _ _ hpwr.2, rdN_modCove]

/-- Stopping changes nothing but the cove's state. -/
theorem coveStopped_effect {c : Nat} (hc : c < 8) (s : Dev) : (coveStopped c s).coves = s.coves ∧ (coveStopped c s).kv = s.kv ∧
    SameRegs [Reg.SCH_COVE_STATE c, Reg.SCH_STATUS] s (coveStopped c s) ∧
      tst (coveStopped c s) (Reg.SCH_COVE_STATE c) 16 = tst s (Reg.SCH_COVE_STATE c) 16 ∧
      coveState (coveStopped c s) c = if coveState s c = 3 then 4 else coveState s c := by
  unfold coveStopped
  split
  · next h =>
    have hother : Reg.SCH_COVE_STATE c ≠ Reg.SCH_STATUS := by simp only [Reg.SCH_COVE_STATE, Reg.SCH_STATUS]; omega
    have hrest := sameRest_setCoveState c 4 s
    refine ⟨hrest.coves, hrest.kv, ?_, ?_, coveState_setCoveState c s (by decide)⟩
    · exact (((sameRegs_wf _ 0 3 4 s).mono (by simp)).trans ((sameRegs_setB Reg.SCH_STATUS _ _ _).mono (by simp))).trans
        ((sameRegs_setB Reg.SCH_STATUS _ _ _).mono (by simp))
    · rw [setCoveState, tst_setB_other _ _ _ _ hother, tst_setB_other _ _ _ _ hother, tst_wf_disj _ _ _ _ _ _ (by decide) (by decide)]
  · exact ⟨rfl, rfl, SameRegs.refl _ s, rfl, rfl⟩

theorem jobEnd_effect {s : Dev} {c : Nat} {r : Run} (hc : c < 8) (hrun : runOf s c = some r) (hdone : r.done = true) :
    runOf (jobEnd c s) c = none ∧ rdN (jobEnd c s) (Reg.SCH_COVE_JOB c) = (rdN s (Reg.SCH_COVE_JOB c) + 1) % 2 ^ 32 ∧
      tst (jobEnd c s) (Reg.SCH_COVE_STATE c) 16 = false ∧ coveState (jobEnd c s) c = (if coveState s c = 3 then 4 else coveState s c) ∧
      (isSeqCove s c = true → ∀ x ∈ (jobEnd c s).kv.steps, x.cove = c → x.started = true → x.done = true) ∧ ebbState (jobEnd c s) = ebbState s := by
  have hhanded := resultsLeft_jobHanded c r s
  obtain ⟨hgone, hnum, hidle, hstate, hpwr⟩ := jobLeft_effect c (jobHanded c r s)
  obtain ⟨hcoves, hkv, hregs, hbit, hstopped⟩ := coveStopped_effect hc (jobLeft c (jobHanded c r s))
  have hkept : ∀ x ∈ [Reg.SCH_COVE_JOB c, Reg.SCH_COVE_STATE c, Reg.PWR_STATUS], besideOutput x ∧ x < Reg.TRK_CTRL 0 := by
    simp only [List.mem_cons, List.not_mem_nil, or_false, forall_eq_or_imp, forall_eq, besideOutput, Reg.SCH_COVE_JOB, Reg.SCH_COVE_STATE, Reg.PWR_STATUS,
      Reg.MDO_CTRL, Reg.ING_PORT_TX_CNT, Reg.TRK_CTRL, dieBase]
    omega
  have hsame : coveState (jobHanded c r s) c = coveState s c := hhanded.regs.rf (hkept _ (by simp)) 0 3
  have hother : Reg.SCH_COVE_JOB c ∉ [Reg.SCH_COVE_STATE c, Reg.SCH_STATUS] ∧ Reg.PWR_STATUS ∉ [Reg.SCH_COVE_STATE c, Reg.SCH_STATUS] := by
    simp only [List.mem_cons, List.not_mem_nil, or_false, Reg.SCH_COVE_JOB, Reg.SCH_COVE_STATE, Reg.SCH_STATUS, Reg.PWR_STATUS]
    omega
  rw [jobEnd_ends hrun hdone]
  refine ⟨(runOf_congr hcoves c).trans hgone, ?_, hbit.trans hidle, ?_, fun hseq x hx => stepsDone_done (l := s.kv.steps) ?_, ebbState_congr ?_⟩
  · rw [hregs _ hother.1, hnum, hhanded.regs _ (hkept _ (by simp))]
  · rw [hstopped, hstate, hsame]
  · rw [hkv] at hx
    have hmarked : (jobLeft c (jobHanded c r s)).kv.steps = stepsDone c s.kv.steps := by
      rw [jobHanded, if_pos hseq]
      rfl
    rwa [hmarked] at hx
  · rw [hregs _ hother.2, hpwr, hhanded.regs _ (hkept _ (by simp))]

/-- Settles O37: each command by what lets it act; what a task's end or a job's results change beside it is told by frames. -/
theorem jobsRunStageByStage : Obligations.JobsRunStageByStage := by
  unfold Obligations.JobsRunStageByStage
  intro s c r hawake
  refine ⟨fun j js hqueue hstate hrun hcopies => ?_, fun k hrun hdone hserves hnext halone hcore => ?_, fun hrun halone hnone => ?_,
    fun k t htask _ hcontained hcmd hall hrun => ?_, fun k t htask hcove hcontained hrun _ => ?_, fun hrun hdone hall hmore => ?_,
    fun hrun hdone hall hlast => ?_, fun hebb hrun hdone => ?_⟩
  · refine Does.of_onDev (f := jobStart c) hawake rfl ?_
    rw [jobStart_starts hqueue hstate hrun hcopies]
    exact jobStarted_effect ..
  · exact Does.of_onDev (f := taskPlace c) hawake rfl (taskPlace_first c.isLt hrun halone hdone hserves hnext hcore)
  · exact Does.of_onDev (f := taskPlace c) hawake rfl (taskPlace_none c.isLt hrun halone hnone)
  · have hends : (t.contained || (t.cmdAt.isNone && allRun s.dev t)) = true := by
      rw [allRun, hcmd, decide_eq_true hall]
      simp
    obtain ⟨hnone, hended⟩ := taskEnd_freed k.isLt htask hrun hends
    refine Does.of_onDev (f := taskEnd k) hawake rfl ⟨hnone, ?_, sameMem_taskEnd k.isLt htask hends hcontained⟩
    rw [hended]
    simp [withEnded, hcontained]
  · have hends : (t.contained || (t.cmdAt.isNone && allRun s.dev t)) = true := by rw [hcontained, Bool.true_or]
    obtain ⟨hnone, hended⟩ := taskEnd_freed k.isLt htask hrun hends
    refine Does.of_onDev (f := taskEnd k) hawake rfl ⟨hnone, ?_, rdN_taskEnd k.isLt htask hends hcove hcontained⟩
    rw [hended]
    simp [withEnded, hcontained]
  · refine Does.of_onDev (f := stageEnd c) hawake rfl ?_
    rw [stageEnd_next hrun hdone hall hmore]
    refine ⟨?_, rf_wf_same _ _ _ _ _ (by decide), (sameMem_modCove ..).trans (sameMem_wf ..)⟩
    rw [runOf_congr (wf_coves ..), runOf_modCove_same]
    rfl
  · refine Does.of_onDev (f := stageEnd c) hawake rfl ?_
    rw [stageEnd_last hrun hdone hall hlast]
    refine ⟨?_, rfl, sameMem_modCove ..⟩
    rw [runOf_modCove_same]
    rfl
  · obtain ⟨hgone, hnum, hidle, hstate, hsteps, hsame⟩ := jobEnd_effect c.isLt hrun hdone
    refine Does.of_onDev (f := fun d => ebbGoOn (jobEnd c d)) hawake rfl ?_
    rw [ebbGoOn_idle (hsame.trans_ne hebb)]
    exact ⟨hgone, hnum, hidle, hstate, hsteps⟩

end Sys2Proof.Machine
end

section
/-! SUPPORT. Turns that end, saves and restores (R207 to R209), and O39. -/
set_option autoImplicit false
namespace Sys2Proof.Machine
open Sys2Proof

/-! ## Bytes written in a row -/

theorem length_rdBytes (sp : Space) (s : Dev) (a n : Nat) : (rdBytes sp s a n).length = n := by
  induction n generalizing a with
  | zero => rfl
  | succ n ih => rw [rdBytes, List.length_cons, ih]
theorem rdBytes_of_mrd {sp : Space} {s d : Dev} {a n : Nat} (h : ∀ x, a ≤ x → x < a + n → mrd sp d x = mrd sp s x) :
    rdBytes sp d a n = rdBytes sp s a n := by
  induction n generalizing a with
  | zero => rfl
  | succ n ih => rw [rdBytes, rdBytes, h a (Nat.le_refl a) (by omega), ih fun x hlo hhi => h x (by omega) (by omega)]
theorem wrBytes_append (sp : Space) (xs ys : List Byte) (a : Nat) (s : Dev) :
    wrBytes sp a (xs ++ ys) s = wrBytes sp (a + xs.length) ys (wrBytes sp a xs s) := by
  induction xs generalizing a s with
  | nil => rfl
  | cons x xs ih =>
    rw [List.cons_append, wrBytes, ih, wrBytes, List.length_cons, Nat.add_assoc, Nat.add_comm 1]
/-- Of bytes written in a row the first ones read back, whether or not the rest have room. -/
theorem rdBytes_wrBytes_prefix (sp : Space) (xs ys : List Byte) {a : Nat} (s : Dev) (h : a + xs.length ≤ sp.bytes) :
    rdBytes sp (wrBytes sp a (xs ++ ys) s) a xs.length = xs := by
  rw [wrBytes_append, rdBytes_of_mrd fun x _ hx => mrd_wrBytes_other sp ys _ (.inl hx), rdBytes_wrBytes sp xs a s h]

/-! ## SLICE_EXPIRY (R207) -/

/-- The moment a turn's length has elapsed. -/
def turnElapsed (k e : Nat) (s : Dev) : Dev := s |> waitUntil e |> modCore k (fun co => { co with expired := true })

section Expiry
variable {s : Dev} {k e : Nat}

theorem sliceExpiry_none (h : (coreOf s k).turnEnd = none) : sliceExpiry k s = s := by simp only [sliceExpiry, h]
theorem sliceExpiry_some (h : (coreOf s k).turnEnd = some e) : sliceExpiry k s = turnBoundary k (turnElapsed k e s) := by
  simp only [sliceExpiry, h, turnElapsed]
theorem turned_turnElapsed (k e : Nat) (s : Dev) : Turned k s (turnElapsed k e s) := (turned_waitUntil k e s).trans (turned_modCore rfl rfl rfl)
theorem coreOf_turnElapsed (k e : Nat) (s : Dev) : coreOf (turnElapsed k e s) k = { coreOf s k with expired := true } := by
  rw [turnElapsed, coreOf_modCore_same, coreOf_congr (waitUntil_cores ..)]
theorem allRun_turnElapsed (k e : Nat) (s : Dev) (t : Task) : allRun (turnElapsed k e s) t = allRun s t := by
  have hpkg : SamePackage t.cove s (turnElapsed k e s) := .of_regs (turned_turnElapsed k e s).mem
    ((sameRegs_waitUntil [] e s).trans (sameRegs_modCore [] k _ _)) List.not_mem_nil List.not_mem_nil
  rw [allRun, allRun, hpkg.cmdCount]
theorem coreBusy_turnElapsed (k e : Nat) (s : Dev) : coreBusy (turnElapsed k e s) k = coreBusy s k := by
  rw [coreBusy, coreBusy, cmdRuns, cmdRuns, coreOf_turnElapsed]

/-- A cove whose turn comes round after `c`. -/
theorem mem_turnOrder {c x : Nat} (hc : c < 8) (hx : x < 8) : x ∈ turnOrder c :=
  List.mem_map.mpr ⟨(x + 7 - c) % 8, List.mem_range.mpr (by omega), by omega⟩
theorem othersWait_of_couldPlace {c x : Nat} (hc : c < 8) (hx : x < 8) (hne : x ≠ c) (hin : inCove s x k = true) (hplace : couldPlace s k x = true) :
    othersWait s k c = true := by
  have hserves : serves s x = true := (Bool.and_eq_true_iff.mp hplace).1
  exact List.any_eq_true.mpr ⟨x, mem_turnOrder hc hx, by simp [hne, hserves, hin, hasWork, hplace]⟩

section Over
variable {t : Task} (hend : (coreOf s k).turnEnd = some e) (htask : (coreOf s k).task = some t)
include hend htask

/-- A command in progress goes on; the turn ends at its boundary. -/
theorem sliceExpiry_running (he : e < 2 ^ 64) (hcmd : t.cmdAt.isSome = true) :
    (coreOf (sliceExpiry k s) k).expired = true ∧ (coreOf (sliceExpiry k s) k).task = some t ∧ e ≤ now (sliceExpiry k s) ∧ SameMem s (sliceExpiry k s) := by
  have hbusy : coreBusy (turnElapsed k e s) k = true := by
    rw [coreBusy_turnElapsed, coreBusy, cmdRuns_of_task htask, hcmd, Bool.or_true]
  rw [sliceExpiry_some hend, turnBoundary_busy hbusy, coreOf_turnElapsed]
  exact ⟨rfl, htask, le_waitUntil s he, (turned_turnElapsed k e s).mem⟩
/-- At a boundary the task makes room for another cove's work. -/
theorem sliceExpiry_suspends (hk : k < 64) {c x : Nat} (hcmd : t.cmdAt = none) (hleft : allRun s t = false) (hsaving : (coreOf s k).saving = false)
    (hrestoring : (coreOf s k).restoring = false) (hturn : (coreOf s k).turn = some c) (hc : c < 8) (hx : x < 8) (hne : x ≠ c)
    (hin : inCove s x k = true) (hplace : couldPlace s k x = true) :
    (coreOf (sliceExpiry k s) k).saving = true ∧ (coreOf (sliceExpiry k s) k).task = none ∧
      (coreOf (sliceExpiry k s) k).susp.length = (coreOf s k).susp.length + 1 ∧ SameMem s (sliceExpiry k s) := by
  have hcore := coreOf_turnElapsed k e s
  have htask' : (coreOf (turnElapsed k e s) k).task = some t := by rw [hcore, htask]
  have hbusy : coreBusy (turnElapsed k e s) k = false := by
    rw [coreBusy_turnElapsed, coreBusy, cmdRuns_of_task htask, hsaving, hrestoring, hcmd]
    rfl
  have hrun : taskRun (turnElapsed k e s) k = false := by rw [taskRun_of_task htask', allRun_turnElapsed, hleft]
  have hlate := (turned_turnElapsed k e s).trans (turned_lateCharged hk c ((coreOf (turnElapsed k e s) k).turnEnd.getD (now (turnElapsed k e s))) _)
  have hwait := othersWait_of_couldPlace hc hx hne ((hlate.inCove hx k).trans hin) ((hlate.couldPlace hx k).trans hplace)
  obtain ⟨hsaved, hmem, -⟩ := startSave_effect (hlate.task.trans htask)
  have hexpired : (coreOf (turnElapsed k e s) k).expired = true := by rw [hcore]
  rw [sliceExpiry_some hend, turnBoundary_inTurn hbusy (by rw [hcore, hturn]) hrun, boundaryIn, hexpired, Bool.true_or, if_pos rfl, turnOver, htask',
    hwait, Option.isSome_some, Bool.true_and, if_pos rfl, hsaved]
  refine ⟨rfl, rfl, ?_, hlate.mem.trans hmem⟩
  rw [savingCore, List.length_append, hlate.susp]
  rfl
end Over
end Expiry

/-! ## SWITCH_SAVE_DONE (R209) -/

theorem saveSlot_congr {a b : Dev} (h : b.regs = a.regs) (c k : Nat) : saveSlot b c k = saveSlot a c k := by
  have hrf (x lo len : Nat) : rf b x lo len = rf a x lo len := by rw [rf, rdN_congr h, rf]
  simp only [saveSlot, hrf]
/-- The save is over, `ns` after its start, and the next cove has the turn. -/
def saveEnded (k : Nat) (t : Task) (debt ns : Nat) (s : Dev) : Dev :=
  s |> setDebt k t.cove debt |> modStat t.cove (fun y => { y with swNs := y.swNs + ns }) |> modCore k (fun co => { co with saving := false })
    |> passTurn k t.cove true

section Save
variable {s : Dev} {k : Nat} {t : Task} {x : Ctx}

theorem switchSaveDone_saves (hsaving : (coreOf s k).saving = true) (hlast : (coreOf s k).susp.getLast? = some (t, x)) :
    switchSaveDone k s = saveEnded k t (debtOf s k t.cove + moveNs s (liveBytes k t x)) (moveNs s (liveBytes k t x))
      (writeSave k t x (waitUntil ((coreOf s k).swAt + moveNs s (liveBytes k t x)) s)) := by
  simp only [switchSaveDone, hsaving, hlast, Bool.not_true, Bool.false_eq_true, if_false]
  rfl
theorem saveEnded_effect (hk : k < 64) (t : Task) (debt ns : Nat) (s : Dev) :
    (coreOf (saveEnded k t debt ns s) k).saving = false ∧ SameMem s (saveEnded k t debt ns s) := by
  generalize hu : modStat t.cove (fun y => { y with swNs := y.swNs + ns }) (setDebt k t.cove debt s) = u
  have hcharged : SameMem s u := by
    rw [← hu]
    exact ((turned_setDebt hk t.cove debt s).trans (turned_modStat k t.cove _ _)).mem
  have hpassed := turned_passTurn hk t.cove true (modCore k (fun co => { co with saving := false }) u)
  have hended : saveEnded k t debt ns s = passTurn k t.cove true (modCore k (fun co => { co with saving := false }) u) := by rw [saveEnded, hu]
  rw [hended]
  exact ⟨by rw [hpassed.saving, coreOf_modCore_same], (hcharged.trans (sameMem_modCore ..)).trans hpassed.mem⟩
/-- The scratch bytes come first in the save slot. -/
theorem rdBytes_writeSave (x : Ctx) (h : saveSlot s t.cove k + t.live * 4096 ≤ dramBytes) :
    rdBytes .dram (writeSave k t x s) (saveSlot s t.cove k) (t.live * 4096) = rdBytes (.scr k) s 0 (t.live * 4096) := by
  have hread := rdBytes_wrBytes_prefix .dram (rdBytes (.scr k) s 0 (t.live * 4096))
    ((liveTiles x).flatMap (fun p => tileBytes k p.2) ++ (liveRows x).flatMap (fun r => lineRowBytes x.we.a r.2)) s (a := saveSlot s t.cove k)
    (by rwa [length_rdBytes])
  rwa [length_rdBytes, ← List.append_assoc] at hread
theorem switchSaveDone_effect (hk : k < 64) (hsaving : (coreOf s k).saving = true) (hlast : (coreOf s k).susp.getLast? = some (t, x))
    (hroom : saveSlot s t.cove k + t.live * 4096 ≤ dramBytes) :
    (coreOf (switchSaveDone k s) k).saving = false ∧
      rdBytes .dram (switchSaveDone k s) (saveSlot s t.cove k) (t.live * 4096) = rdBytes (.scr k) s 0 (t.live * 4096) := by
  rw [switchSaveDone_saves hsaving hlast]
  generalize (coreOf s k).swAt + moveNs s (liveBytes k t x) = end_
  have hslot := saveSlot_congr (waitUntil_regs end_ s) t.cove k
  obtain ⟨hdone, hmem⟩ := saveEnded_effect hk t (debtOf s k t.cove + moveNs s (liveBytes k t x)) (moveNs s (liveBytes k t x)) (writeSave k t x (waitUntil end_ s))
  have hread := rdBytes_writeSave (s := waitUntil end_ s) (k := k) (t := t) x (by rwa [hslot])
  rw [hslot] at hread
  exact ⟨hdone, by rw [hmem.rdBytes, hread, (sameMem_waitUntil end_ s).rdBytes]⟩
end Save

/-! ## SWITCH_RESTORE_DONE (R209) -/

/-- The core of a resumed task. -/
def resumedCore (k : Nat) (t : Task) (x : Ctx) (s : Dev) (co : Core) : Core :=
  { co with restoring := false, task := some t, cx := ctxBack k t x s, susp := co.susp.filter fun y => y.1.cove != t.cove }
/-- Tiles, slots and core state are shown. -/
def contextShown (k : Nat) (s : Dev) : Dev := s |> showTiles k |> showSlots k |> showCore k
/-- The scratch bytes of a task in its save slot. -/
def savedBytes (k : Nat) (t : Task) (s : Dev) : List Byte := rdBytes .dram s (saveSlot s t.cove k) (t.live * 4096)
/-- The task of core `k` resumes `ns` after the restore began. -/
def taskResumed (k ns : Nat) (t : Task) (x : Ctx) (s : Dev) : Dev :=
  let u := waitUntil ((coreOf s k).swAt + ns) s
  wrBytes (.scr k) 0 (savedBytes k t u) u |> loadRecord k t |> modStat t.cove (fun y => { y with swNs := y.swNs + ns })
    |> modCore k (resumedCore k t x s) |> contextShown k

theorem regsOnly_contextShown (k : Nat) (s : Dev) : RegsOnly s (contextShown k s) := ((regsOnly_wrN ..).trans (regsOnly_wrN ..)).trans (regsOnly_wrN ..)
theorem rdN_contextShown_grid (k : Nat) (s : Dev) : rdN (contextShown k s) (Reg.LPD_GRID k) = rdN s (Reg.LPD_GRID k) := by
  have htiles : Reg.LPD_GRID k ≠ Reg.ARR_ACC_USE k := by simp only [Reg.LPD_GRID, Reg.ARR_ACC_USE, coreBase, dieHalf]; omega
  have hslots : Reg.LPD_GRID k ≠ Reg.WIN_STATUS k := by simp only [Reg.LPD_GRID, Reg.WIN_STATUS, coreBase, dieHalf]; omega
  rw [contextShown, showCore, rdN_wrN_other _ _ (record_ne_coreState k).1, showSlots, wf, rdN_wrN_other _ _ hslots, showTiles, rdN_wrN_other _ _ htiles]

section Restore
variable {s : Dev} {k : Nat} (hrestoring : (coreOf s k).restoring = true)
include hrestoring

theorem switchRestoreDone_resumes {t : Task} {x : Ctx} (hfind : (coreOf s k).susp.find? (fun y => some y.1.cove == (coreOf s k).turn) = some (t, x))
    (hstaged : t.staged = []) : ∃ ns, switchRestoreDone k s = taskResumed k ns t x s := by
  refine ⟨400 + moveNs s (liveBytes k t x) + ceilDiv (weightBytes t x * 10) 1024, ?_⟩
  simp only [switchRestoreDone, hrestoring, hfind, hstaged, Bool.not_true, Bool.false_eq_true, if_false]
  rfl
theorem switchRestoreDone_empty (hsusp : (coreOf s k).susp = []) :
    switchRestoreDone k s = showCore k (modCore k (fun co => { co with restoring := false }) (waitUntil ((coreOf s k).swAt + 400) s)) := by
  simp only [switchRestoreDone, hrestoring, hsusp, List.find?_nil, Bool.not_true, Bool.false_eq_true, if_false]
theorem switchRestoreDone_empty_effect (hsusp : (coreOf s k).susp = []) : (coreOf (switchRestoreDone k s) k).restoring = false ∧
    (coreOf (switchRestoreDone k s) k).task = (coreOf s k).task ∧ SameMem s (switchRestoreDone k s) := by
  rw [switchRestoreDone_empty hrestoring hsusp, showCore, (regsOnly_wrN ..).sameRest.coreOf, coreOf_modCore_same, coreOf_congr (waitUntil_cores ..)]
  exact ⟨rfl, rfl, ((sameMem_waitUntil ..).trans (sameMem_modCore ..)).trans (sameMem_wrN ..)⟩
end Restore

theorem taskResumed_effect {s : Dev} (k ns : Nat) {t : Task} (x : Ctx) (hlive : t.live ≤ 768) :
    (coreOf (taskResumed k ns t x s) k).restoring = false ∧ (coreOf (taskResumed k ns t x s) k).task = some t ∧
      rdN (taskResumed k ns t x s) (Reg.LPD_GRID k) = t.grid % 2 ^ 32 ∧
      rdBytes (.scr k) (taskResumed k ns t x s) 0 (t.live * 4096) = savedBytes k t s := by
  generalize hu : waitUntil ((coreOf s k).swAt + ns) s = u
  have hsaved : savedBytes k t u = savedBytes k t s := by
    rw [← hu, savedBytes, (sameMem_waitUntil ..).rdBytes, saveSlot_congr (waitUntil_regs ..), savedBytes]
  generalize hv : wrBytes (.scr k) 0 (savedBytes k t s) u = v
  generalize hw : modCore k (resumedCore k t x s) (modStat t.cove (fun y => { y with swNs := y.swNs + ns }) (loadRecord k t v)) = w
  have hresumed : taskResumed k ns t x s = contextShown k w := by rw [taskResumed, hu, hsaved, hv, hw]
  have hcore : coreOf w k = resumedCore k t x s (coreOf (modStat t.cove (fun y => { y with swNs := y.swNs + ns }) (loadRecord k t v)) k) := by
    rw [← hw, coreOf_modCore_same]
  have hmem : SameMem v w := by
    rw [← hw]
    exact ((regsOnly_loadRecord k t v).sameMem.trans (sameMem_modCove ..)).trans (sameMem_modCore ..)
  have hread : rdBytes (.scr k) v 0 (t.live * 4096) = savedBytes k t s := by
    have hback := rdBytes_wrBytes (.scr k) (savedBytes k t s) 0 u (by rw [savedBytes, length_rdBytes, Space.bytes, scrBytes]; omega)
    rwa [savedBytes, length_rdBytes, ← savedBytes, hv] at hback
  have hshown := regsOnly_contextShown k w
  rw [hresumed, hshown.sameRest.coreOf, hcore, rdN_contextShown_grid, (hmem.trans hshown.sameMem).rdBytes, hread]
  exact ⟨rfl, rfl, by rw [← hw, rdN_modCore, modStat, rdN_modCove, rdN_loadRecord_grid], rfl⟩

/-- Settles O39, from what a boundary comes to (`turnBoundary_busy`, `turnBoundary_inTurn`) and what reads back of a save slot. -/
theorem sharedCoresTakeTurns : Obligations.SharedCoresTakeTurns := by
  unfold Obligations.SharedCoresTakeTurns
  intro s k t hawake
  refine ⟨?_, ?_, ?_, ?_, ?_, ?_⟩
  · intro e hend he htask hcmd
    exact Does.of_onDev (f := sliceExpiry k) hawake rfl (sliceExpiry_running hend htask he hcmd)
  · intro e c x hend htask hcmd hleft hsaving hrestoring hturn hc hx hne hin hplace
    exact Does.of_onDev (f := sliceExpiry k) hawake rfl
      (sliceExpiry_suspends hend htask k.isLt hcmd hleft hsaving hrestoring hturn hc hx hne hin hplace)
  · intro hend
    exact Does.of_onDev (f := sliceExpiry k) hawake rfl (sliceExpiry_none hend)
  · intro x hsaving hlast hroom
    exact Does.of_onDev (f := switchSaveDone k) hawake rfl (switchSaveDone_effect k.isLt hsaving hlast hroom)
  · intro x hrestoring hfind hstaged hlive
    obtain ⟨ns, hresumes⟩ := switchRestoreDone_resumes hrestoring hfind hstaged
    refine Does.of_onDev (f := switchRestoreDone k) hawake rfl ?_
    rw [hresumes]
    exact taskResumed_effect k.val ns x hlive
  · intro hrestoring hsusp
    exact Does.of_onDev (f := switchRestoreDone k) hawake rfl (switchRestoreDone_empty_effect hrestoring hsusp)

end Sys2Proof.Machine
end

section
/-! SUPPORT. COPY and EMIT (R195, R201, R203). -/
set_option autoImplicit false
namespace Sys2Proof.Machine
open Sys2Proof

/-! ## What is read from and written to the same memories -/

theorem SameMem.mwr {a b : Dev} (h : SameMem a b) (sp : Space) (x : Nat) (v : Byte) : SameMem (mwr sp x v a) (mwr sp x v b) := by
  obtain ⟨hdram, hcm, hscr, hflash⟩ := h
  cases sp <;> (unfold Machine.mwr; dsimp only; split)
  · exact ⟨by rw [hdram], hcm, hscr, hflash⟩
  · exact ⟨hdram, hcm, hscr, hflash⟩
  · exact ⟨hdram, by rw [hcm], hscr, hflash⟩
  · exact ⟨hdram, hcm, hscr, hflash⟩
  · exact ⟨hdram, hcm, by rw [hscr], hflash⟩
  · exact ⟨hdram, hcm, hscr, hflash⟩
theorem SameMem.wrBytes {a b : Dev} (h : SameMem a b) (sp : Space) (x : Nat) (l : List Byte) : SameMem (wrBytes sp x l a) (wrBytes sp x l b) := by
  induction l generalizing a b x with
  | nil => exact h
  | cons v l ih => exact ih (h.mwr sp x v) (x + 1)
theorem SameMem.copyBytes {a b : Dev} (h : SameMem a b) (k src dst n : Nat) : SameMem (copyBytes k src dst n a) (copyBytes k src dst n b) := by
  rw [Machine.copyBytes, Machine.copyBytes, h.rdBytes]
  exact h.wrBytes ..
theorem SameMem.entriesFrom {a b : Dev} (h : SameMem a b) (sp : Space) (kind n x : Nat) : entriesFrom sp b kind n x = entriesFrom sp a kind n x := by
  have hbytes (x : Nat) : entryBytes sp b kind x = entryBytes sp a kind x := by simp only [entryBytes, h.rdLE]
  induction n generalizing x with
  | zero => rfl
  | succ n ih => rw [Machine.entriesFrom, Machine.entriesFrom, hbytes, h.rdBytes, ih]

section Reach
variable {a b : Dev} (hregs : b.regs = a.regs) (k w n : Nat)
include hregs

theorem burstReach_congr : burstReach b = burstReach a := by
  have htst : tst b = tst a := funext fun x => by
    unfold tst
    rw [rdN_congr hregs]
  have hrf : rf b = rf a := funext fun x => by
    unfold rf
    rw [rdN_congr hregs]
  funext src x
  unfold burstReach regionMap domRuns chUp crossesDown
  rw [htst, hrf]
theorem wordReach_congr : wordReach k w n b = wordReach k w n a := by
  rw [wordReach, wordReach, spaceReach, spaceReach, dramReach, dramReach, burstReach_congr hregs]
theorem wordRead_congr (hmem : SameMem a b) (hdmc : b.dmc = a.dmc) : wordRead k w n b = wordRead k w n a := by
  have hbad : burstBad b = burstBad a := funext fun x => by simp only [burstBad, hdmc, hmem.rdBytes]
  rw [wordRead, wordRead, spaceRead, spaceRead, dramRead, dramRead]
  unfold burstRead
  rw [burstReach_congr hregs, hbad]
end Reach

theorem wordReach_startCmd (k w n : Nat) (s : Dev) : wordReach k w n (startCmd k s) = wordReach k w n s := wordReach_congr (modCore_regs ..) k w n
theorem wordRead_startCmd (k w n : Nat) (s : Dev) : wordRead k w n (startCmd k s) = wordRead k w n s :=
  wordRead_congr (modCore_regs ..) k w n (sameMem_startCmd k s) (modCore_dmc ..)
/-- An access that is answered lets the command proceed. -/
theorem ifReach_none {k : Nat} {x : Dev → Option NoReach} {f : Dev → Dev} {s : Dev} (h : x s = none) : ifReach k x f s = f s := by
  simp only [ifReach, h]

/-! ## The task of a core, changed -/

theorem task_modTask (k : Nat) (f : Task → Task) (s : Dev) : (coreOf (modTask k f s) k).task = (coreOf s k).task.map f := by
  rw [modTask, coreOf_modCore_same]
theorem sameMem_modTask (k : Nat) (f : Task → Task) (s : Dev) : SameMem s (modTask k f s) := sameMem_modCore ..
theorem sameMem_finishCmd (k status : Nat) (s : Dev) : SameMem s (finishCmd k status s) := sameMem_modCore ..
/-- A command's work ends with its status where the task is not contained. -/
theorem task_finishCmd {k : Nat} {s : Dev} {t : Task} (status : Nat) (htask : (coreOf s k).task = some t) (h : t.contained = false) :
    (coreOf (finishCmd k status s) k).task.map (fun x => (x.ran, x.status)) = some (true, status) := by
  simp [finishCmd, task_modTask, htask, h]
/-- A command that starts leaves its task uncontained. -/
theorem task_startCmd {k : Nat} {s : Dev} {t : Task} (htask : (coreOf s k).task = some t) (h : t.contained = false) :
    ∃ x, (coreOf (startCmd k s) k).task = some x ∧ x.contained = false := by
  rw [startCmd, task_modTask, htask]
  exact ⟨_, rfl, h⟩

/-! ## What a COPY or an EMIT leaves -/

/-- The task's staged ranges after a COPY: those that it wrote are no longer intact, and with STAGE its destination joins them. -/
def restaged (c : Cmd) (t : Task) : Task :=
  let d := (addrWord c.dst).2
  let inScr := (addrWord c.dst).1 == 2
  { t with staged := t.staged.filter (fun g => !inScr || decide (g.dst + g.bytes ≤ d) || decide (d + c.arg ≤ g.dst)) ++
      (if c.stage && inScr then [⟨d, c.arg, c.src⟩] else []) }
/-- The entries of the result buffer that a command names. -/
abbrev resultsOf (k kind : Nat) (c : Cmd) (s : Dev) : List (List Byte) :=
  entriesFrom (spaceAt k (addrWord c.src).1) s kind (rdLE (spaceAt k (addrWord c.src).1) s (addrWord c.src).2 2) ((addrWord c.src).2 + 32)
/-- The tokens that the entries of a result buffer tell. -/
abbrev tokensOf (es : List (List Byte)) : List (Nat × Bool × Nat) := es.map fun b => (leNat (b.take 2) % 1024, bitOf (leNat (b.take 2)) 10, leNat (b.drop 4))
theorem handResults_text (t : Task) (es : List (List Byte)) (s : Dev) :
    (handResults 5 t es s).kv.steps = modIf s.kv.steps (fun x => x.cove == t.cove && x.started) (fun x => { x with toks := x.toks ++ tokensOf es }) ∧
      (handResults 5 t es s).cores = s.cores ∧ SameMem s (handResults 5 t es s) := ⟨rfl, rfl, rfl, rfl, rfl, rfl⟩

section Commands
variable {s : Dev} {k : Nat} {t : Task} {c : Cmd} (hat : AtCommand s k t c)
include hat

/-! ## COPY (R195) -/

theorem copyCmd_moves (htype : c.type = 3) (hread : wordRead k c.src c.arg s = none) (hreach : wordReach k c.dst c.arg s = none) :
    copyCmd k s = finishCmd k 0 (modTask k (restaged c) (copyBytes k c.src c.dst c.arg (startCmd k s))) := by
  rw [copyCmd, runCmd_runs _ hat (by rw [htype]; rfl), ifReach_none ((wordRead_startCmd ..).trans hread), ifReach_none ((wordReach_startCmd ..).trans hreach)]
  rfl
theorem copyCmd_effect (htype : c.type = 3) (hread : wordRead k c.src c.arg s = none) (hreach : wordReach k c.dst c.arg s = none) :
    SameMem (copyBytes k c.src c.dst c.arg s) (copyCmd k s) ∧ (coreOf (copyCmd k s) k).task.map (fun x => (x.ran, x.status)) = some (true, 0) := by
  rw [copyCmd_moves hat htype hread hreach]
  obtain ⟨htask, -, -, -, -, hcont, -⟩ := hat
  obtain ⟨x, hx, hxcont⟩ := task_startCmd htask hcont
  have hcopied : (coreOf (copyBytes k c.src c.dst c.arg (startCmd k s)) k).task = some x := by rw [copyBytes, coreOf_congr (wrBytes_cores ..), hx]
  refine ⟨(((sameMem_startCmd k s).copyBytes ..).trans (sameMem_modTask ..)).trans (sameMem_finishCmd ..), task_finishCmd (t := restaged c x) 0 ?_ hxcont⟩
  rw [task_modTask, hcopied, Option.map_some]

/-! ## EMIT (R195, R201, R203) -/

/-- The command is done; what it hands over is handed over besides. -/
theorem emitDone_effect : (coreOf (finishCmd k 0 (startCmd k s)) k).task.map (fun x => (x.ran, x.status)) = some (true, 0) ∧
    SameMem s (finishCmd k 0 (startCmd k s)) := by
  obtain ⟨htask, -, -, -, -, hcont, -⟩ := hat
  obtain ⟨x, hx, hxcont⟩ := task_startCmd htask hcont
  exact ⟨task_finishCmd 0 hx hxcont, (sameMem_startCmd k s).trans (sameMem_finishCmd ..)⟩

section Emit
variable {kind : Nat} (htype : c.type = 4) (hkind : c.arg % 16 = kind) (hhead : wordRead k c.src 32 s = none)
  (hall : wordRead k c.src (32 + sumN ((resultsOf k kind c s).map (·.length))) s = none)
include htype hkind hhead hall

theorem emitCmd_hands : emitCmd k kind s = handResults kind t (resultsOf k kind c s) (finishCmd k 0 (startCmd k s)) := by
  have hmem := sameMem_startCmd k s
  rw [emitCmd, runCmd_runs _ hat (by simp [htype, hkind]), ifReach_none ((wordRead_startCmd ..).trans hhead)]
  dsimp only
  rw [hmem.rdLE, hmem.entriesFrom, ifReach_none ((wordRead_startCmd ..).trans hall)]
/-- Detections, counts, masks and events go to the job in progress. -/
theorem emitCmd_job {r : Run} (hne : kind ≠ 5) (hrun : runOf s t.cove = some r) :
    (runOf (emitCmd k kind s) t.cove).map (·.emits) = some (r.emits ++ (resultsOf k kind c s).map fun b => ⟨kind, entrySlot kind b, b⟩) ∧
      (coreOf (emitCmd k kind s) k).task.map (fun x => (x.ran, x.status)) = some (true, 0) ∧ SameMem s (emitCmd k kind s) := by
  obtain ⟨hdone, hmem⟩ := emitDone_effect hat
  have hkept : (coveOf (finishCmd k 0 (startCmd k s)) t.cove).run = some r := by
    rw [finishCmd, startCmd, modTask, modTask, coveOf_congr ((modCore_coves ..).trans (modCore_coves ..)), ← runOf, hrun]
  rw [emitCmd_hands hat htype hkind hhead hall, handResults, if_neg hne]
  refine ⟨?_, by rw [coreOf_modCove, hdone], hmem.trans (sameMem_modCove ..)⟩
  rw [runOf_modCove_same, hkept]
  rfl
end Emit

/-- Tokens go to the step of the task's cove. -/
theorem emitCmd_step {x : Step} (htype : c.type = 4) (hkind : c.arg % 16 = 5) (hhead : wordRead k c.src 32 s = none)
    (hall : wordRead k c.src (32 + sumN ((resultsOf k 5 c s).map (·.length))) s = none) (hsteps : s.kv.steps = [x]) (hcove : x.cove = t.cove)
    (hstarted : x.started = true) :
    (emitCmd k 5 s).kv.steps.map (·.toks) = [x.toks ++ tokensOf (resultsOf k 5 c s)] ∧
      (coreOf (emitCmd k 5 s) k).task.map (fun x => (x.ran, x.status)) = some (true, 0) ∧ SameMem s (emitCmd k 5 s) := by
  obtain ⟨hdone, hmem⟩ := emitDone_effect hat
  obtain ⟨htold, hcores, hleft⟩ := handResults_text t (resultsOf k 5 c s) (finishCmd k 0 (startCmd k s))
  have hkept : (finishCmd k 0 (startCmd k s)).kv.steps = [x] := by rw [finishCmd, startCmd, modTask, modTask, modCore_kv, modCore_kv, hsteps]
  rw [emitCmd_hands hat htype hkind hhead hall, coreOf_congr hcores, htold, hkept]
  exact ⟨by simp [modIf, hcove, hstarted], hdone, hmem.trans hleft⟩
end Commands

end Sys2Proof.Machine
end

section
/-! SUPPORT. Completion and the time limit of a command (R198, R202), and O38. -/
set_option autoImplicit false
namespace Sys2Proof.Machine
open Sys2Proof

/-! ## COMMAND_COMPLETE (R198) -/

/-- A command of core `k`'s task has ended: its log entry is written, and the task stands at the next record. -/
def commandEnded (k : Nat) (t : Task) (cycles : Nat) (s : Dev) : Dev :=
  s |> logCommand k t cycles |> setB (Reg.WIN_STATUS k) 2 false |> setB (Reg.LPD_STATUS k) 0 false |> modWe k We.rest
    |> modTask k (fun x => { x with pos := x.pos + 1, ran := x.contained, cmdAt := none, live := (cmdAt s t.cove (cmdIndex s t)).live, t1 := now s,
                                    c1 := aclkMilli s })

theorem commandComplete_ends {s u : Dev} {k : Nat} {y t : Task} (cycles : Nat) (hy : (coreOf s k).task = some y)
    (hends : (y.ran && y.cmdAt.isSome && !y.contained) = true) (hu : u = withNest k (fun cove g => drainTiles k cove g) s)
    (ht : (coreOf u k).task = some t) (hleft : (!t.ran || t.cmdAt.isNone) = false) :
    commandComplete k cycles s = turnBoundary k (commandEnded k t cycles u) := by
  simp only [commandComplete, hy, hends, if_true, ← hu, ht, hleft, Bool.false_eq_true, if_false]
  rfl

theorem cores_logAdvanced (t : Task) (s : Dev) : (logAdvanced t s).cores = s.cores := rfl
theorem sameMem_logAdvanced (t : Task) (s : Dev) : SameMem s (logAdvanced t s) := (sameMem_modCove ..).trans (sameMem_modCove ..)
/-- The first word of a log entry names core, record, status and flags. -/
theorem rdLE_logCommand {s : Dev} {k : Nat} (hk : k < 64) (t : Task) (cycles : Nat) (hroom : logAddr s t.cove + 16 ≤ dramBytes) :
    rdLE .dram (logCommand k t cycles s) (logAddr s t.cove) 4 =
      k + cmdIndex s t % 2 ^ 16 * 2 ^ 6 + t.status % 8 * 2 ^ 22 + t.flags % 16 * 2 ^ 25 := by
  generalize hw : k + cmdIndex s t % 2 ^ 16 * 2 ^ 6 + t.status % 8 * 2 ^ 22 + t.flags % 16 * 2 ^ 25 = w
  have hword : w < 256 ^ 4 := by
    rw [← hw]
    omega
  have hread := rdBytes_wrBytes_prefix .dram (leBytes 4 w)
    (leBytes 4 t.job ++ (leBytes 4 (t.idx % 2 ^ 16 + t.stage % 64 * 2 ^ 16) ++ leBytes 4 (min cycles 0xFFFFFFFF))) s (a := logAddr s t.cove)
    (by rw [length_leBytes, Space.bytes]; omega)
  rw [length_leBytes, ← List.append_assoc, ← List.append_assoc] at hread
  rw [logCommand_eq, (sameMem_logAdvanced ..).rdLE, logEntry, hw, rdLE, hread, leNat_leBytes, Nat.mod_eq_of_lt hword]
theorem logPos_logCommand (k : Nat) (t : Task) (cycles : Nat) (s : Dev) :
    (coveOf (logCommand k t cycles s) t.cove).logPos = ((coveOf s t.cove).logPos + 1) % 4096 := by
  rw [logCommand_eq, logAdvanced, (sameCoves_modStat _ _ _).logPos, coveOf_modCove_same, coveOf_congr (wrBytes_coves ..)]
theorem cores_logCommand (k : Nat) (t : Task) (cycles : Nat) (s : Dev) : (logCommand k t cycles s).cores = s.cores := by
  rw [logCommand_eq, cores_logAdvanced, wrBytes_cores]

theorem commandEnded_effect {s : Dev} {k : Nat} {t : Task} (cycles : Nat) (ht : (coreOf s k).task = some t) :
    (coreOf (commandEnded k t cycles s) k).task.map (·.pos) = some (t.pos + 1) ∧ SameMem (logCommand k t cycles s) (commandEnded k t cycles s) ∧
      (commandEnded k t cycles s).coves = (logCommand k t cycles s).coves := by
  generalize hu : setB (Reg.LPD_STATUS k) 0 false (setB (Reg.WIN_STATUS k) 2 false (logCommand k t cycles s)) = u
  have hrest : SameRest (logCommand k t cycles s) u := by
    rw [← hu]
    exact (sameRest_setB ..).trans (sameRest_setB ..)
  have hkept : (coreOf (modWe k We.rest u) k).task = some t := by
    rw [modWe, coreOf_modCore_same, hrest.coreOf, coreOf_congr (cores_logCommand ..), ht]
  rw [commandEnded, hu]
  refine ⟨by rw [task_modTask, hkept]; rfl, (hrest.sameMem.trans (sameMem_modCore ..)).trans (sameMem_modTask ..), ?_⟩
  rw [modTask, modCore_coves, modWe, modCore_coves, hrest.coves]
/-- At a boundary the task stays where it is, on the core or suspended. -/
theorem pos_turnBoundary {s : Dev} {k n : Nat} (hk : k < 64) (h : (coreOf s k).task.map (·.pos) = some n) :
    (coreOf (turnBoundary k s) k).task.map (·.pos) = some n ∨ ∃ x ∈ (coreOf (turnBoundary k s) k).susp, x.1.pos = n := by
  obtain ⟨t, ht, hpos⟩ := Option.map_eq_some_iff.mp h
  rcases turnBoundary_cases hk s with hturned | ⟨u, hu, -, hsaves⟩
  · exact .inl (by rw [hturned.task, h])
  · obtain ⟨hcore, -⟩ := startSave_effect (hu.task.trans ht)
    rw [hsaves, hcore]
    exact .inr ⟨(suspendedTask k t u, (coreOf u k).cx), List.mem_append_right _ (List.mem_singleton_self _), hpos⟩

theorem commandComplete_effect {s u : Dev} {k : Nat} {y t : Task} (hk : k < 64) (cycles : Nat) (hy : (coreOf s k).task = some y)
    (hends : (y.ran && y.cmdAt.isSome && !y.contained) = true) (hu : u = withNest k (fun cove g => drainTiles k cove g) s)
    (ht : (coreOf u k).task = some t) (hleft : (!t.ran || t.cmdAt.isNone) = false) (hroom : logAddr u t.cove + 16 ≤ dramBytes) :
    ((coreOf (commandComplete k cycles s) k).task.map (·.pos) = some (t.pos + 1) ∨
        ∃ x ∈ (coreOf (commandComplete k cycles s) k).susp, x.1.pos = t.pos + 1) ∧
      rdLE .dram (commandComplete k cycles s) (logAddr u t.cove) 4 =
        k + cmdIndex u t % 2 ^ 16 * 2 ^ 6 + t.status % 8 * 2 ^ 22 + t.flags % 16 * 2 ^ 25 ∧
      (coveOf (commandComplete k cycles s) t.cove).logPos = ((coveOf u t.cove).logPos + 1) % 4096 := by
  obtain ⟨hpos, hmem, hcoves⟩ := commandEnded_effect cycles ht
  obtain ⟨hmem', hcoves'⟩ := turnBoundary_frame hk (commandEnded k t cycles u)
  rw [commandComplete_ends cycles hy hends hu ht hleft]
  exact ⟨pos_turnBoundary hk hpos, by rw [(hmem.trans hmem').rdLE, rdLE_logCommand hk t cycles hroom],
    by rw [hcoves'.logPos, coveOf_congr hcoves, logPos_logCommand]⟩

/-! ## SCH_CMD_TIMEOUT (R202) -/

/-- A fault of the scheduler is described and raised. -/
def schFaultShown (code cove info : Nat) (s : Dev) : Dev := raiseFor code cove info cove (wrN Reg.SCH_FAULT_INFO info s)
theorem schFaultShown_effect {code cove : Nat} (info : Nat) (s : Dev) (hcode : eventReg code cove = some Reg.SCH_EVENT) (hbit : code % 256 < 32) :
    tst (schFaultShown code cove info s) Reg.SCH_EVENT (code % 256) = true ∧ rdN (schFaultShown code cove info s) Reg.SCH_FAULT_INFO = info % 2 ^ 32 := by
  have hraise : SameRegs [Reg.SCH_EVENT] (wrN Reg.SCH_FAULT_INFO info s) (schFaultShown code cove info s) := sameRegs_raiseFor info cove _ hcode
  exact ⟨tst_raiseFor info cove _ hcode hbit, by rw [hraise _ (by decide), rdN_wrN_same]⟩
theorem sameRest_schFaultShown (code cove info : Nat) (s : Dev) : SameRest s (schFaultShown code cove info s) := (sameRest_wrN ..).trans (sameRest_raiseFor ..)
theorem sch_notMem_idleRegs (k : Nat) : Reg.SCH_EVENT ∉ idleRegs k ∧ Reg.SCH_FAULT_INFO ∉ idleRegs k := by
  simp only [idleRegs, List.mem_cons, List.not_mem_nil, or_false, Reg.SCH_EVENT, Reg.SCH_FAULT_INFO, Reg.LPD_STATUS, Reg.WIN_STATUS, Reg.ARR_ACC_USE,
    Reg.ARR_STATUS, coreBase, dieHalf]
  omega
theorem containCore_time (k : Nat) (s : Dev) : (containCore k s).time = s.time := by
  rw [containCore_eq, (sameRest_idleShown ..).time, modCore_time]

section Timeout
variable {s : Dev} {k : Nat}

theorem schCmdTimeout_idle (h : (coreOf s k).task.bind (·.cmdAt) = none) : schCmdTimeout k s = s := by
  cases htask : (coreOf s k).task with
  | none => simp only [schCmdTimeout, htask]
  | some t =>
    rw [htask, Option.bind_some] at h
    simp only [schCmdTimeout, htask, h]
theorem schCmdTimeout_ends {t : Task} {a : Nat} (htask : (coreOf s k).task = some t) (hcmd : t.cmdAt = some a) (hcont : t.contained = false) :
    schCmdTimeout k s = containCore k (schFaultShown 0x0703 t.cove (schInfo t.cove k t.stage (cmdIndex s t))
      (waitUntil (a + rf s Reg.SCH_CMD_LIM 0 10 * 1000000) s)) := by
  simp only [schCmdTimeout, htask, hcmd, hcont, Bool.false_eq_true, if_false, schFaultShown]
theorem schCmdTimeout_effect {t : Task} {a : Nat} (htask : (coreOf s k).task = some t) (hcmd : t.cmdAt = some a) (hcont : t.contained = false)
    (hlim : a + rf s Reg.SCH_CMD_LIM 0 10 * 1000000 < 2 ^ 64) :
    tst (schCmdTimeout k s) Reg.SCH_EVENT 3 = true ∧
      rdN (schCmdTimeout k s) Reg.SCH_FAULT_INFO = schInfo t.cove k t.stage (cmdIndex s t) % 2 ^ 32 ∧
      a + rf s Reg.SCH_CMD_LIM 0 10 * 1000000 ≤ now (schCmdTimeout k s) ∧ Contained k s (schCmdTimeout k s) := by
  rw [schCmdTimeout_ends htask hcmd hcont]
  generalize a + rf s Reg.SCH_CMD_LIM 0 10 * 1000000 = end_ at *
  generalize schInfo t.cove k t.stage (cmdIndex s t) = info
  obtain ⟨hevent, hinfo⟩ := schFaultShown_effect (code := 0x0703) (cove := t.cove) info (waitUntil end_ s) rfl (by decide)
  have hrest := sameRest_schFaultShown 0x0703 t.cove info (waitUntil end_ s)
  have hdrop := sameRegs_containCore k (schFaultShown 0x0703 t.cove info (waitUntil end_ s))
  obtain ⟨hkeeps, hkeepsInfo⟩ := sch_notMem_idleRegs k
  obtain ⟨hmem, hended⟩ := containCore_contained (s := schFaultShown 0x0703 t.cove info (waitUntil end_ s)) (k := k)
    (by rw [hrest.coreOf, coreOf_congr (waitUntil_cores ..), htask]; rfl)
  refine ⟨(tst_of_same hdrop hkeeps _).trans hevent, (hdrop _ hkeepsInfo).trans hinfo, ?_, ((sameMem_waitUntil ..).trans hrest.sameMem).trans hmem, hended⟩
  rw [now, containCore_time, hrest.time]
  exact le_waitUntil s hlim
end Timeout

/-- Settles O38, from one lemma for each row: `copyCmd_effect`, `emitCmd_job`, `emitCmd_step`, `commandComplete_effect`, `schCmdTimeout_effect`. -/
theorem copiesEmissionsAndCompletions : Obligations.CopiesEmissionsAndCompletions := by
  unfold Obligations.CopiesEmissionsAndCompletions
  intro s k t c hawake
  refine ⟨?_, ?_, ?_, ?_, ?_, ?_, ?_, ?_, ?_⟩
  · intro hat htype hread hreach
    exact Does.of_onDev (f := copyCmd k) hawake rfl (copyCmd_effect hat htype hread hreach)
  · intro r hat htype hkind hrun hhead hall
    exact Does.of_onDev (f := emitCmd k 1) hawake rfl (emitCmd_job hat htype hkind hhead hall (by decide) hrun)
  · intro r hat htype hkind hrun hhead hall
    exact Does.of_onDev (f := emitCmd k 2) hawake rfl (emitCmd_job hat htype hkind hhead hall (by decide) hrun)
  · intro r hat htype hkind hrun hhead hall
    exact Does.of_onDev (f := emitCmd k 3) hawake rfl (emitCmd_job hat htype hkind hhead hall (by decide) hrun)
  · intro r hat htype hkind hrun hhead hall
    exact Does.of_onDev (f := emitCmd k 4) hawake rfl (emitCmd_job hat htype hkind hhead hall (by decide) hrun)
  · intro x hat htype hkind hsteps hcove hstarted hhead hall
    exact Does.of_onDev (f := emitCmd k 5) hawake rfl (emitCmd_step hat htype hkind hhead hall hsteps hcove hstarted)
  · intro cycles y u hy hyran hycmd hycont hu ht htran htcmd hroom
    have hends : (y.ran && y.cmdAt.isSome && !y.contained) = true := by simp [hyran, hycmd, hycont]
    have hleft : (!t.ran || t.cmdAt.isNone) = false := by simpa [htran, ← Option.not_isSome] using htcmd
    exact Does.of_onDev (f := commandComplete k cycles) hawake rfl (commandComplete_effect k.isLt cycles hy hends hu ht hleft hroom)
  · intro a htask hcmd hcont hlim
    exact Does.of_onDev (f := schCmdTimeout k) hawake rfl (schCmdTimeout_effect htask hcmd hcont hlim)
  · intro hidle
    exact Does.of_onDev (f := schCmdTimeout k) hawake rfl (schCmdTimeout_idle hidle)

end Sys2Proof.Machine
end

section
/-! SUPPORT. Actions of Table 15-5 issued alone (R365, R366): what a refusal and the beginning of an action leave. -/
set_option autoImplicit false
namespace Sys2Proof.Machine
open Sys2Proof

/-! ## How an action is counted (R365) -/

/-- An action that had no effect beside the counters: it is counted, and counted as refused. -/
abbrev Refused (s d : Dev) : Prop :=
  rdN d Reg.ERR_ACT_CNT = (rdN s Reg.ERR_ACT_CNT + 1) % 2 ^ 32 ∧ rdN d Reg.ERR_ACT_REFUSED_CNT = (rdN s Reg.ERR_ACT_REFUSED_CNT + 1) % 2 ^ 32 ∧
    SameRegs [Reg.ERR_ACT_CNT, Reg.ERR_ACT_REFUSED_CNT] s d ∧ SameRest s d
theorem countAct_refused {n : Nat} (s : Dev) (h : n = 2 ∨ n = 3) : Refused s (countAct (n, s)) := by
  have hcount : countAct (n, s) = bump Reg.ERR_ACT_REFUSED_CNT 1 (bump Reg.ERR_ACT_CNT 1 s) := by rcases h with rfl | rfl <;> rfl
  rw [hcount]
  refine ⟨?_, ?_, ((sameRegs_bump _ 1 s).append (sameRegs_bump _ 1 _)).mono (List.Perm.swap _ _ []).subset,
    (sameRest_bump _ 1 s).trans (sameRest_bump _ 1 _)⟩
  · rw [rdN_bump_other _ _ (by decide), rdN_bump_same]
  · rw [rdN_bump_same, rdN_bump_other _ _ (by decide)]
/-- An action that answers refused or busy, and the device as it was. -/
theorem Does.of_refused {c : Instr} {f : Dev → Acted} {s : State} {n : Nat} (hawake : Awake s) (hc : exec c s = rowAct f s) (hn : n = 2 ∨ n = 3)
    (hf : f s.dev = (n, s.dev)) : Does c s (Refused s.dev) :=
  Does.of_onDev (f := fun d => countAct (f d)) hawake hc (by rw [hf]; exact countAct_refused s.dev hn)
/-- An action that ends at once. -/
theorem Does.of_done {c : Instr} {f : Dev → Acted} {s : State} {u : Dev} {P : Dev → Prop} (hawake : Awake s) (hc : exec c s = rowAct f s)
    (hf : f s.dev = (1, u)) (hp : P (bump Reg.ERR_ACT_CNT 1 u)) : Does c s P :=
  Does.of_onDev (f := fun d => countAct (f d)) hawake hc (by rw [hf]; exact hp)

/-- The device when an action that no log entry asked for is in progress, and counted. -/
def actBegun (action unit : Nat) (s : Dev) : Dev := bump Reg.ERR_ACT_CNT 1 { s with err := { s.err with acts := s.err.acts ++ [⟨64, action, unit⟩] } }
/-- An action that goes on. -/
theorem Does.of_begun {c : Instr} {f : Dev → Acted} {s : State} {action unit : Nat} {u : Dev} {P : Dev → Prop} (hawake : Awake s)
    (hc : exec c s = rowAct f s) (hf : f s.dev = later 64 action unit u) (hp : P (actBegun action unit u)) : Does c s P :=
  Does.of_onDev (f := fun d => countAct (f d)) hawake hc (by rw [hf]; exact hp)
theorem acting_actBegun (action unit : Nat) (s : Dev) : acting (actBegun action unit s) action unit = true := by
  simp [acting, actBegun]
theorem sameMem_actBegun (action unit : Nat) (s : Dev) : SameMem s (actBegun action unit s) := ⟨rfl, rfl, rfl, rfl⟩
theorem actBegun_held (action unit : Nat) (s : Dev) : (actBegun action unit s).held = s.held := bump_held ..
theorem actBegun_dmc (action unit : Nat) (s : Dev) : (actBegun action unit s).dmc = s.dmc := bump_dmc ..
theorem sameRegs_actBegun (action unit : Nat) (s : Dev) : SameRegs [Reg.ERR_ACT_CNT] s (actBegun action unit s) :=
  sameRegs_bump Reg.ERR_ACT_CNT 1 { s with err := _ }
/-- A beginning counts from what the unit's recovery left of the counter. -/
theorem rdN_actBegun_count {action unit : Nat} {a b : Dev} (h : rdN b Reg.ERR_ACT_CNT = rdN a Reg.ERR_ACT_CNT) :
    rdN (actBegun action unit b) Reg.ERR_ACT_CNT = (rdN a Reg.ERR_ACT_CNT + 1) % 2 ^ 32 := by
  rw [← h]
  exact rdN_bump_same Reg.ERR_ACT_CNT 1 { b with err := _ }

/-! ## Cores and window engines (R107, R127, R129) -/

section Core
variable {s : Dev} {k : Nat} (hk : k < 64)
include hk

theorem actWeReset_begins (hcore : isSCore k = false) (hruns : domRuns s k = true) (hact : acting s 1 k = false) (hheld : tst s (Reg.WIN_STATUS k) 0 = false) :
    actWeReset k 64 s = later 64 1 k (winHoldReset k s) := by
  simp [actWeReset, Nat.not_le.mpr hk, hcore, hruns, hact, hheld]
theorem actWeReset_refused (h : isSCore k = true ∨ domRuns s k = false ∨ acting s 1 k = true ∨ tst s (Reg.WIN_STATUS k) 0 = true) :
    ∃ n, (n = 2 ∨ n = 3) ∧ actWeReset k 64 s = (n, s) := by
  unfold actWeReset
  split
  · exact ⟨2, .inl rfl, rfl⟩
  · next hfit =>
    rw [if_pos (by simp_all)]
    exact ⟨3, .inr rfl, rfl⟩
theorem actBist_begins (hfree : coreInRunning s k = false) (htest : selfTest s k = false) :
    actBist k 64 s = later 64 2 k (winBistStart k (arrBistStart k s)) := by
  simp [actBist, Nat.not_le.mpr hk, hfree, htest]
theorem actBist_refused (h : coreInRunning s k = true ∨ selfTest s k = true) : ∃ n, (n = 2 ∨ n = 3) ∧ actBist k 64 s = (n, s) := by
  unfold actBist
  split
  · exact ⟨2, .inl rfl, rfl⟩
  · next hfit =>
    rw [if_pos (by simp_all)]
    exact ⟨3, .inr rfl, rfl⟩

end Core

theorem sameMem_winHoldReset (k : Nat) (s : Dev) : SameMem s (winHoldReset k s) := by
  unfold winHoldReset
  split
  · exact SameMem.refl s
  · exact (sameMem_setB _ 0 true s).trans (sameMem_modCore k _ _)
theorem winBistStart_frame (k : Nat) (s : Dev) : SameRegs [Reg.WIN_BIST_STATUS k] s (winBistStart k s) ∧ SameMem s (winBistStart k s) := by
  unfold winBistStart
  split
  · exact ⟨SameRegs.refl _ s, SameMem.refl s⟩
  · split
    · exact ⟨sameRegs_setB _ _ _ s, sameMem_setB _ _ _ s⟩
    · exact ⟨(sameRegs_setB _ _ _ s).trans (sameRegs_setB _ _ _ _), (sameMem_setB _ _ _ s).trans (sameMem_setB _ _ _ _)⟩
/-- The self-tests of a core that no cove uses run. -/
theorem bists_effect {s : Dev} {k : Nat} (h : coreInRunning s k = false) :
    selfTest (winBistStart k (arrBistStart k s)) k = true ∧
      SameRegs [Reg.WIN_BIST_STATUS k, Reg.ARR_BIST_STATUS k] s (winBistStart k (arrBistStart k s)) ∧ SameMem s (winBistStart k (arrBistStart k s)) := by
  obtain ⟨hwin, hmem⟩ := winBistStart_frame k (arrBistStart k s)
  have hne : Reg.ARR_BIST_STATUS k ≠ Reg.WIN_BIST_STATUS k := by simp only [Reg.ARR_BIST_STATUS, Reg.WIN_BIST_STATUS, coreBase]; omega
  have harr : tst (arrBistStart k s) (Reg.ARR_BIST_STATUS k) 0 = true := by
    rw [arrBistStart_free h]
    exact tst_setB_same _ 0 true _ (by decide)
  have hregs : SameRegs [Reg.ARR_BIST_STATUS k] s (arrBistStart k s) := by
    rw [arrBistStart_free h]
    exact (sameRegs_setB _ _ _ s).trans (sameRegs_setB _ _ _ _)
  have hsame : SameMem s (arrBistStart k s) := by
    rw [arrBistStart_free h]
    exact (sameMem_setB _ _ _ s).trans (sameMem_setB _ _ _ _)
  refine ⟨?_, hregs.append hwin, hsame.trans hmem⟩
  unfold selfTest
  rw [tst_of_same hwin (by simpa using hne), harr, Bool.true_or]

/-! ## Coves (R191, R366) -/

theorem actRestart_begins {s : Dev} {c : Nat} (hc : c < 8) (hact : acting s 3 c = false)
    (hst : coveState s c = 2 ∨ coveState s c = 4 ∨ coveState s c = 5 ∨ coveState s c = 6) :
    actRestart c 64 s = later 64 3 c { s with held := s.held ++ [.cove c (if coveState s c = 2 then 3 else 4)] } := by
  unfold actRestart
  rw [if_neg (Nat.not_le.mpr hc), hact]
  rcases hst with h | h | h | h <;> rw [h] <;> rfl
theorem actRestart_refused {s : Dev} {c : Nat} (hc : c < 8) (h : acting s 3 c = true ∨ coveState s c = 0 ∨ coveState s c = 1 ∨ coveState s c = 3) :
    ∃ n, (n = 2 ∨ n = 3) ∧ actRestart c 64 s = (n, s) := by
  unfold actRestart
  rw [if_neg (Nat.not_le.mpr hc)]
  split
  · exact ⟨3, .inr rfl, rfl⟩
  · next hidle =>
    rcases h.resolve_left hidle with h | h | h <;> rw [h] <;> exact ⟨2, .inl rfl, rfl⟩

/-! ## Moves (R223) -/

theorem bitOf_seven {arg : Nat} (h : arg < 256) : bitOf arg 7 = decide (128 ≤ arg) := by
  rw [bitOf, beq_eq_decide, decide_eq_decide]
  omega
theorem actMove_one {s u : Dev} {e arg x : Nat} {remote : Bool} (he : e < 16) (harg : arg = 128 + x) (hx : x < 32)
    (hmove : moveTo e x (moveTarget s e remote) s = (0, u)) : actMove e arg remote s = (1, if remote then notEquivalent u else u) := by
  have hbit : bitOf arg 7 = true := by rw [bitOf_seven (by omega)]; simp; omega
  have hctx : arg % 32 = x := by omega
  simp only [actMove, Nat.not_le.mpr he, hbit, hctx, moveAll, hmove, if_true, if_false]
theorem actMove_none {s : Dev} {e arg : Nat} (remote : Bool) (harg : arg < 128) (h : (List.range 32).any (fun x => ctxValid s (e * 32 + x)) = false) :
    actMove e arg remote s = (2, s) := by
  have hbit : bitOf arg 7 = false := by rw [bitOf_seven (by omega)]; simp; omega
  have hnone : (List.range 32).filter (fun x => ctxValid s (e * 32 + x)) = [] := by
    rw [List.filter_eq_nil_iff]
    exact List.any_eq_false.mp h
  simp [actMove, hbit, hnone, moveAll]

end Sys2Proof.Machine
end

section
/-! SUPPORT. Retraining of a channel or a port (R335, R345): what catching up a channel leaves of the registers of other blocks. -/
set_option autoImplicit false
namespace Sys2Proof.Machine
open Sys2Proof

/-! ## A channel that is brought to the moment (R326, R333) -/

/-- The registers below those of the track engines, memory controllers and routers. -/
abbrev belowTracks (x : Nat) : Prop := x < Reg.TRK_CTRL 0

theorem chStatus_above (k : Nat) : ¬belowTracks (chStatus k) := by
  simp only [belowTracks, chStatus, Reg.DMC_CH_STATUS, Reg.TRK_CTRL, dieBase]
  omega
theorem keepsRegs_noteLock (k b n : Nat) (s : Dev) : KeepsRegs belowTracks s (noteLock k b n s) := by
  unfold noteLock
  dsimp only
  generalize (if n < 0xFFFF then n else 0xFFFF) = m
  split
  · exact keepsRegs_wrN _ s (by simp only [belowTracks, Reg.ARB_LOCK_MAX, Reg.TRK_CTRL, dieBase]; omega)
  · exact KeepsRegs.refl _ s
theorem keepsRegs_unlock (k b n c : Nat) (s : Dev) : KeepsRegs belowTracks s (unlock k b n c s) := by
  unfold unlock
  split
  · split
    · exact KeepsRegs.trans (keepsRegs_of_regs _ rfl) (keepsRegs_noteLock k b _ _)
    · exact KeepsRegs.refl _ s
  · exact KeepsRegs.refl _ s
theorem keepsRegs_wrBurst (p : Nat → Prop) (a en : Nat) (data : List Byte) (s : Dev) : KeepsRegs p s (wrBurst a en data s) := by
  refine keepsRegs_forS _ _ (fun x _ d => ?_) s
  split
  · exact keepsRegs_of_regs p (mwr_regs ..)
  · exact KeepsRegs.refl p d
theorem keepsRegs_answer (p : Nat → Prop) (r : DReq) (ok : Bool) (data : List Byte) (s : Dev) : KeepsRegs p s (answer r ok data s) := by
  unfold answer
  split
  · exact KeepsRegs.refl p s
  · exact keepsRegs_of_regs p (send_regs ..)
theorem keepsRegs_finalCmd (k : Nat) (m : DCmd) (s : Dev) : KeepsRegs belowTracks s (finalCmd k m s) := by
  unfold finalCmd
  refine KeepsRegs.trans (b := wf (chStatus k) 3 3 0 s) (keepsRegs_wrN _ s (chStatus_above k)) ?_
  dsimp only
  split
  · exact KeepsRegs.refl _ _
  · split
    · exact keepsRegs_of_regs _ rfl
    · split
      · exact keepsRegs_of_regs _ rfl
      · exact (keepsRegs_wrBurst _ _ _ _ _).trans ((keepsRegs_answer _ _ _ _ _).trans (keepsRegs_unlock k _ _ _ _))
theorem keepsRegs_finalAll (k c : Nat) (s : Dev) : KeepsRegs belowTracks s (finalAll k c s) := by
  unfold finalAll
  dsimp only
  split
  · exact KeepsRegs.refl _ s
  · exact KeepsRegs.trans (keepsRegs_of_regs _ rfl) (keepsRegs_forS _ _ (fun m _ d => keepsRegs_finalCmd k m d) _)
theorem keepsRegs_chanCycle (k : Nat) (s : Dev) : KeepsRegs belowTracks s (chanCycle k s) := by
  have hcount : ¬belowTracks (Reg.DMC_REPLAY_CMD_CNT (k / 32)) := by
    simp only [belowTracks, Reg.DMC_REPLAY_CMD_CNT, Reg.TRK_CTRL, dieBase]
    omega
  have hissue (c : DChan) (n : Nat) (d : Dev) : KeepsRegs belowTracks d (bump (Reg.DMC_REPLAY_CMD_CNT (k / 32)) n (putDchan k c d)) :=
    KeepsRegs.trans (keepsRegs_of_regs _ rfl) (keepsRegs_wrN _ _ hcount)
  have hend (d : Dev) : KeepsRegs belowTracks d (endReplay k d) := KeepsRegs.trans (keepsRegs_wrN _ d (chStatus_above k)) (keepsRegs_of_regs _ rfl)
  unfold chanCycle
  refine (keepsRegs_finalAll k (dchan s k).cyc s).trans ?_
  dsimp only
  split
  · split
    · exact (hissue _ _ _).trans (hend _)
    · exact hissue _ _ _
  · exact keepsRegs_of_regs _ rfl
theorem keepsRegs_runChan (k lim : Nat) (stop : Dev → Bool) (n : Nat) (s : Dev) : KeepsRegs belowTracks s (runChan k lim stop n s) := by
  induction n generalizing s with
  | zero => exact KeepsRegs.refl _ s
  | succ n ih =>
    unfold runChan
    dsimp only
    split
    · exact KeepsRegs.refl _ s
    · split
      · exact keepsRegs_of_regs _ rfl
      · exact (keepsRegs_chanCycle k s).trans (ih _)
theorem keepsRegs_catchUp (k : Nat) (s : Dev) : KeepsRegs belowTracks s (catchUp k s) := keepsRegs_runChan k _ _ _ s
theorem waitCycle_regs (c : Nat) (s : Dev) : (waitCycle c s).regs = s.regs := by
  unfold waitCycle
  dsimp only
  split <;> rfl
theorem keepsRegs_quiesce (k : Nat) (s : Dev) : KeepsRegs belowTracks s (quiesce k s) :=
  (keepsRegs_catchUp k s).trans ((keepsRegs_runChan k _ _ _ _).trans ((keepsRegs_of_regs _ (waitCycle_regs _ _)).trans (keepsRegs_of_regs _ rfl)))

/-! ## DMC_RETRAIN and DLINK_RETRAIN -/

theorem retrainCmd_accepts {s : Dev} {d : Nat} (ch : Nat) (hidle : training s d = none) (hready : tst s (Reg.DMC_STATUS d) 1 = false) :
    ∃ u, retrainCmd d ch s = (true, u) ∧ training u d = some ch ∧ KeepsRegs belowTracks s u := by
  simp only [retrainCmd, hidle, hready, Option.isSome_none, Bool.or_self, Bool.false_eq_true, if_false]
  refine ⟨_, rfl, ?_, ?_⟩
  · simp only [training, setB_dmc]
    exact mget_mset_same (fun _ => none) _ d (some ch)
  · refine (keepsRegs_catchUp (32 * d + ch) s).trans
      (KeepsRegs.trans ?_ (KeepsRegs.trans (keepsRegs_of_regs _ rfl) (keepsRegs_wrN _ _ (chStatus_above _))))
    split
    · exact keepsRegs_quiesce _ _
    · exact KeepsRegs.refl _ _
theorem actRetrain_begins {s : Dev} {d ch : Nat} (hd : d < 2) (hch : ch < 32) (hidle : training s d = none) (hready : tst s (Reg.DMC_STATUS d) 1 = false) :
    ∃ u, actRetrain (32 * d + ch) 64 s = later 64 12 (32 * d + ch) u ∧ training u d = some ch ∧ KeepsRegs belowTracks s u := by
  obtain ⟨u, hu, htrain, hregs⟩ := retrainCmd_accepts ch hidle hready
  refine ⟨u, ?_, htrain, hregs⟩
  unfold actRetrain
  rw [if_neg (by omega), show (32 * d + ch) / 32 = d by omega, show (32 * d + ch) % 32 = ch by omega, hu]
  rfl
theorem actRetrain_busy {s : Dev} {d ch : Nat} (hd : d < 2) (hch : ch < 32) (h : (training s d).isSome = true ∨ tst s (Reg.DMC_STATUS d) 1 = true) :
    actRetrain (32 * d + ch) 64 s = (3, s) := by
  have hbusy : ((training s d).isSome || tst s (Reg.DMC_STATUS d) 1) = true := by simpa using h
  unfold actRetrain
  rw [if_neg (by omega), show (32 * d + ch) / 32 = d by omega]
  simp [retrainCmd, hbusy]
theorem actDlink_begins {s : Dev} {d p : Nat} (hd : d < 2) (hp : p < 32) (hidle : portTraining s d = none) :
    actDlink (32 * d + p) 64 s = later 64 13 (32 * d + p) (setB (Reg.ARB_STATUS d) 1 true (putPortTraining d (some p) s)) := by
  unfold actDlink
  rw [if_neg (by omega), show (32 * d + p) / 32 = d by omega, show (32 * d + p) % 32 = p by omega]
  simp [retrainPortCmd, hidle]
theorem actDlink_busy {s : Dev} {d p : Nat} (hd : d < 2) (hp : p < 32) (h : (portTraining s d).isSome = true) : actDlink (32 * d + p) 64 s = (3, s) := by
  unfold actDlink
  rw [if_neg (by omega), show (32 * d + p) / 32 = d by omega]
  simp [retrainPortCmd, h]

end Sys2Proof.Machine
end

section
/-! SUPPORT. Actions whose writes are held or touch the time unit (R13, R47, R371), SELECT_HW_MODE and DEVICE_RESET (R373), and O53. -/
set_option autoImplicit false
namespace Sys2Proof.Machine
open Sys2Proof

/-! ## GUARANTEE falls (R371) -/

theorem notEquivalent_effect (s : Dev) : tst (notEquivalent s) Reg.ERR_STATUS 1 = false ∧
    SameRegs [Reg.ERR_EVENT, Reg.ERR_FAULT_INFO, Reg.ERR_STATUS] s (notEquivalent s) ∧ SameMem s (notEquivalent s) := by
  unfold notEquivalent
  split
  · have hraise : SameRegs [Reg.ERR_EVENT, Reg.ERR_FAULT_INFO] (setB Reg.ERR_STATUS 1 false s) (errRaise 5 0 (setB Reg.ERR_STATUS 1 false s)) :=
      (sameRegs_wrN Reg.ERR_FAULT_INFO _ _).append (sameRegs_raiseFor _ 0xFFFF _ rfl)
    refine ⟨?_, (sameRegs_setB Reg.ERR_STATUS 1 false s).append hraise,
      ((sameRest_setB _ 1 false s).trans ((sameRest_wrN ..).trans (sameRest_raise ..))).sameMem⟩
    rw [tst_of_same hraise (by decide)]
    exact tst_setB_same _ 1 false s (by decide)
  · next hclear => exact ⟨by simpa using hclear, SameRegs.refl _ s, SameMem.refl s⟩

/-! ## TIDE_SOURCE before the first mark (R47) -/

/-- The registers of the time unit that a change of source can touch beside TIDE_CTRL. -/
def sourceRegs : List Nat := [Reg.TIDE_STATUS, Reg.TIDE_POWER_OFS, Reg.TIDE_CODEC_OFS]
theorem tideSource_putMasked (w : Nat) (s : Dev) : tideSource (putMasked Reg.TIDE_CTRL 3 w s) = w % 4 := by
  have hlow (n : Nat) : n &&& 3 = n % 4 := Nat.and_two_pow_sub_one_eq_mod n 2
  simp only [tideSource, rf, bits, putMasked, rdN_wrN_same, hlow]
  omega
theorem sourceChanged_frame (old : Nat) (s : Dev) : SameRegs sourceRegs s (sourceChanged old s) ∧ SameMem s (sourceChanged old s) := by
  have hstatus : [Reg.TIDE_STATUS] ⊆ sourceRegs := by simp [sourceRegs]
  have hstate (v : Nat) (d : Dev) : SameRegs sourceRegs d (setSyncState v d) := (sameRegs_setSyncState v d).mono hstatus
  unfold sourceChanged
  split
  · exact ⟨SameRegs.refl _ s, SameMem.refl s⟩
  · split
    · exact ⟨SameRegs.trans (sameRegs_of_regs _ rfl) (hstate 3 _), ⟨rfl, rfl, rfl, rfl⟩⟩
    · exact ⟨SameRegs.trans (sameRegs_of_regs _ rfl) (SameRegs.trans ((sameRegs_setB _ 4 false _).mono hstatus) (hstate 2 _)), ⟨rfl, rfl, rfl, rfl⟩⟩
/-- One offset, no more than half a tide (R53). -/
def clampOffset (a : Nat) (s : Dev) : Dev := if halfTideUs s < rf s a 0 17 then cfgClamp (wrN a (halfTideUs s) s) else s
theorem clampOffsets_eq (s : Dev) : clampOffsets s = clampOffset Reg.TIDE_CODEC_OFS (clampOffset Reg.TIDE_POWER_OFS s) := rfl
theorem clampOffset_frame {a : Nat} (s : Dev) (ha : a ∈ sourceRegs) : SameRegs sourceRegs s (clampOffset a s) ∧ SameMem s (clampOffset a s) := by
  unfold clampOffset
  split
  · exact ⟨((sameRegs_wrN a _ s).mono (List.cons_subset.mpr ⟨ha, List.nil_subset _⟩)).trans
      ((sameRegs_raise_tide 0 0 _ rfl).mono (by simp [sourceRegs])), (sameMem_wrN ..).trans (sameRest_raise ..).sameMem⟩
  · exact ⟨SameRegs.refl _ s, SameMem.refl s⟩
theorem hold_source_unmarked {s : Dev} (w : Nat) (h : s.tide.marked = false) :
    hold Reg.TIDE_CTRL 3 w s = clampOffsets (sourceChanged (tideSource s) (putMasked Reg.TIDE_CTRL 3 w s)) := by
  have htide : isTide Reg.TIDE_CTRL = true := rfl
  simp only [hold, htide, h, Bool.not_false, Bool.and_self, if_true]
  rfl
theorem hold_source_effect {s : Dev} (w : Nat) (h : s.tide.marked = false) : tideSource (hold Reg.TIDE_CTRL 3 w s) = w % 4 ∧
    SameRegs (Reg.TIDE_CTRL :: sourceRegs) s (hold Reg.TIDE_CTRL 3 w s) ∧ SameMem s (hold Reg.TIDE_CTRL 3 w s) := by
  rw [hold_source_unmarked w h, clampOffsets_eq]
  obtain ⟨hsource, hsmem⟩ := sourceChanged_frame (tideSource s) (putMasked Reg.TIDE_CTRL 3 w s)
  obtain ⟨hpower, hpmem⟩ := clampOffset_frame (a := Reg.TIDE_POWER_OFS)
    (sourceChanged (tideSource s) (putMasked Reg.TIDE_CTRL 3 w s)) (by simp [sourceRegs])
  obtain ⟨hcodec, hcmem⟩ := clampOffset_frame (a := Reg.TIDE_CODEC_OFS)
    (clampOffset Reg.TIDE_POWER_OFS (sourceChanged (tideSource s) (putMasked Reg.TIDE_CTRL 3 w s))) (by simp [sourceRegs])
  have hafter := hsource.trans (hpower.trans hcodec)
  refine ⟨?_, ?_, (sameMem_wrN ..).trans (hsmem.trans (hpmem.trans hcmem))⟩
  · exact (rf_of_same hafter (by decide) 0 2).trans (tideSource_putMasked w s)
  · exact ((sameRegs_wrN Reg.TIDE_CTRL _ s).mono (by simp)).trans (hafter.mono (List.subset_cons_self _ _))
/-- After the first mark the write waits for the next one. -/
theorem hold_source_marked {s : Dev} (w : Nat) (h : s.tide.marked = true) :
    hold Reg.TIDE_CTRL 3 w s = { s with held := s.held.filterMap (replaceHeld Reg.TIDE_CTRL 3) ++ [.reg Reg.TIDE_CTRL 3 (w &&& 3)] } := by
  simp only [hold, h, Bool.not_true, Bool.and_false, Bool.false_eq_true, if_false]
  rfl

/-! ## SELECT_HW_MODE (R13) -/

/-- A step in which only waiting writes are added: registers, memories and the host's memory are as they were. -/
abbrev HeldOnly (s d : Dev) : Prop := d.regs = s.regs ∧ SameMem s d
theorem HeldOnly.trans {a b c : Dev} (h : HeldOnly a b) (k : HeldOnly b c) : HeldOnly a c := ⟨k.1.trans h.1, h.2.trans k.2⟩
theorem heldOnly_hold {a : Nat} (mask v : Nat) (s : Dev) (h : isTide a = false) : HeldOnly s (hold a mask v s) := by
  obtain ⟨hregs, hmem, -⟩ := hold_outside_tide (v := v) (s := s) (mask := mask) h
  exact ⟨hregs, hmem⟩
/-- A waiting write stays when another register is written, and when the same write is made again. -/
theorem mem_held_hold {a b mask m v w : Nat} {s : Dev} (ht : isTide a = false) (h : .reg b m w ∈ s.held)
    (hsame : a = b → mask = m ∧ v &&& mask = w) : .reg b m w ∈ (hold a mask v s).held := by
  by_cases hab : a = b
  · obtain ⟨rfl, rfl⟩ := hsame hab
    subst hab
    exact (hold_outside_tide ht).2.2
  · have hkept : .reg b m w ∈ s.held.filterMap (replaceHeld a mask) :=
      List.mem_filterMap.mpr ⟨_, h, by simp [replaceHeld, Ne.symm hab]⟩
    unfold hold
    rw [ht]
    exact List.mem_append_left _ hkept
section Writes
variable {α : Type} (l : List α) (reg : α → Nat) (mask v : Nat) (s : Dev) (ht : ∀ x ∈ l, isTide (reg x) = false)
include ht

theorem heldOnly_forS_hold : HeldOnly s (forS l (fun x => hold (reg x) mask v) s) :=
  forS_rel HeldOnly (fun a => ⟨rfl, SameMem.refl a⟩) (fun _ _ _ => HeldOnly.trans) l _ (fun x hx d => heldOnly_hold mask v d (ht x hx)) s
theorem mem_held_forS_hold {x : α} (hx : x ∈ l) : .reg (reg x) mask (v &&& mask) ∈ (forS l (fun x => hold (reg x) mask v) s).held := by
  induction l generalizing s with
  | nil => cases hx
  | cons y l ih =>
    rw [forS_cons]
    have hl : ∀ z ∈ l, isTide (reg z) = false := fun z hz => ht z (List.mem_cons_of_mem y hz)
    rcases List.mem_cons.mp hx with rfl | hin
    · exact forS_inv (fun d => .reg (reg x) mask (v &&& mask) ∈ d.held) l _ (fun z hz d hd => mem_held_hold (hl z hz) hd fun _ => ⟨rfl, rfl⟩) _
        (hold_outside_tide (ht x hx)).2.2
    · exact ih _ hl hin

end Writes

theorem isTide_above {a : Nat} (h : 0x11000 ≤ a) : isTide a = false := by
  rw [isTide, decide_eq_false (Nat.not_lt.mpr h), Bool.and_false]
theorem ingTable_outside_tide (st j : Nat) : isTide (Reg.ING_TABLE st j) = false := isTide_above (by simp only [Reg.ING_TABLE]; omega)
theorem ctxCfg_outside_tide (g i : Nat) : isTide (Reg.CDC_CTX_CFG g i) = false := isTide_above (by simp only [Reg.CDC_CTX_CFG, engBase]; omega)
/-- The streams that row 0 selects. -/
def hostStreams (s : Dev) : List Nat := (List.range 512).filter fun st => stValid s st && stHost s st
/-- The contexts of a direction that rows 1 and 2 select. -/
def hostContexts (s : Dev) (enc : Bool) : List Nat := (List.range 512).filter fun k => ctxValid s k && ctxEncodes s k == enc && ctxHost s k
theorem hwMode_streams (s : Dev) : hwMode 0 s = forS (hostStreams s) (fun st => hold (Reg.ING_TABLE st 0) 2 0) s := rfl
theorem hwMode_contexts (s : Dev) (enc : Bool) :
    hwMode (if enc then 2 else 1) s = forS (hostContexts s enc) (fun k => hold (Reg.CDC_CTX_CFG (k / 32) (k % 32)) (2 ^ 13) 0) s := by
  cases enc <;> rfl
theorem heldOnly_hwMode {row : Nat} (s : Dev) (h : row < 8) : HeldOnly s (hwMode row s) := by
  have hctx (enc : Bool) : HeldOnly s (hwMode (if enc then 2 else 1) s) := by
    rw [hwMode_contexts]
    exact heldOnly_forS_hold _ _ _ _ _ fun k _ => ctxCfg_outside_tide _ _
  match row, h with
  | 0, _ => exact heldOnly_forS_hold (hostStreams s) (fun st => Reg.ING_TABLE st 0) 2 0 s (fun st _ => ingTable_outside_tide st 0)
  | 1, _ => exact hctx false
  | 2, _ => exact hctx true
  | 3, _ => exact heldOnly_hold 1 0 s rfl
  | 4, _ => exact (heldOnly_hold (a := Reg.TRK_CTRL 0) 2 0 s rfl).trans (heldOnly_hold (a := Reg.TRK_CTRL 1) 2 0 _ rfl)
  | 5, _ => exact heldOnly_hold 1 0 s rfl
  | 6, _ => exact heldOnly_hold 1 0 s rfl
  | 7, _ => exact heldOnly_hold 3 1 s rfl
theorem mem_held_hwMode_stream {s : Dev} {st : Nat} (hvalid : stValid s st = true) (hhost : stHost s st = true) (hst : st < 512) :
    .reg (Reg.ING_TABLE st 0) 2 0 ∈ (hwMode 0 s).held := by
  have hin : st ∈ hostStreams s := List.mem_filter.mpr ⟨List.mem_range.mpr hst, by simp [hvalid, hhost]⟩
  rw [hwMode_streams]
  exact mem_held_forS_hold (hostStreams s) (fun st => Reg.ING_TABLE st 0) 2 0 s (fun st _ => ingTable_outside_tide st 0) hin
theorem mem_held_hwMode_context {s : Dev} {x : Nat} {enc : Bool} (hx : x < 512) (hvalid : ctxValid s x = true) (hhost : ctxHost s x = true)
    (henc : ctxEncodes s x = enc) : .reg (Reg.CDC_CTX_CFG (x / 32) (x % 32)) (2 ^ 13) 0 ∈ (hwMode (if enc then 2 else 1) s).held := by
  have hin : x ∈ hostContexts s enc := List.mem_filter.mpr ⟨List.mem_range.mpr hx, by simp [hvalid, hhost, henc]⟩
  rw [hwMode_contexts]
  exact mem_held_forS_hold (hostContexts s enc) (fun k => Reg.CDC_CTX_CFG (k / 32) (k % 32)) (2 ^ 13) 0 s (fun k _ => ctxCfg_outside_tide _ _) hin
theorem actHwMode_begins {row : Nat} (s : Dev) (h : row < 8) : actHwMode row 64 s = later 64 17 row (hwMode row s) := if_neg (Nat.not_le.mpr h)
theorem actBegun_regs {action unit : Nat} {a b : Dev} (h : b.regs = a.regs) : (actBegun action unit b).regs = (bump Reg.ERR_ACT_CNT 1 a).regs := by
  simp [actBegun, bump, wrN, rdN, h]

/-! ## DEVICE_RESET (R373) -/

theorem deviceReset_flash {s : Dev} (h : s.bt.ops = []) : (deviceReset s).flash = s.flash := by
  have hcut : cutFlash s = s := by simp only [cutFlash, h]
  have hsync (v : Bool) (d : Dev) : (driveSync v d).flash = d.flash := by unfold driveSync; split <;> simp
  have hpps (v : Bool) (d : Dev) : (drivePps v d).flash = d.flash := by unfold drivePps; split <;> simp
  have hxspi (v : Bool) (d : Dev) : (driveXspi v d).flash = d.flash := by unfold driveXspi; split <;> simp
  have htrip (c : Bool) (m : OutMsg) (d : Dev) : (whenS c (send m) d).flash = d.flash := by cases c <;> simp [whenS]
  simp only [deviceReset, hcut, htrip, hxspi, hpps, hsync]
theorem trainBegin_frame (s : Dev) : RegsOnly s (trainBegin s) ∧ KeepsRegs belowTracks s (trainBegin s) := by
  have hstatus (d : Nat) : ¬belowTracks (Reg.DMC_STATUS d) := by
    simp only [belowTracks, Reg.DMC_STATUS, Reg.TRK_CTRL, dieBase]
    omega
  have hregs {α : Type} (l : List α) (f : α → Dev → Dev) (h : ∀ x d, RegsOnly d (f x d)) (d : Dev) : RegsOnly d (forS l f d) :=
    forS_rel RegsOnly RegsOnly.refl (fun _ _ _ => RegsOnly.trans) l f (fun x _ d => h x d) d
  exact ⟨(hregs _ _ (fun d t => regsOnly_wrN _ _ t) s).trans (hregs _ _ (fun k t => regsOnly_wrN _ _ t) _),
    (keepsRegs_forS _ _ (fun d _ t => keepsRegs_wrN _ t (hstatus d)) s).trans (keepsRegs_forS _ _ (fun k _ t => keepsRegs_wrN _ t (chStatus_above k)) _)⟩
/-- Boot begins: the count and the strap value are shown, the stage is ROM, and beside registers only the boot controller's own state differs. -/
theorem bootStart_effect (count : Nat) {mode : Nat} (s : Dev) (hmode : mode < 4) :
    rdN (bootStart count mode s) Reg.BOOT_COUNT = count % 2 ^ 32 ∧ stage (bootStart count mode s) = 1 ∧ bootMode (bootStart count mode s) = mode ∧
      ∃ r b, bootStart count mode s = { s with regs := r, bt := b } := by
  have hboot : bootStart count mode s = trainBegin (setStage 1 (wf Reg.BOOT_STATUS 14 2 mode (wrN Reg.BOOT_COUNT count
    { s with bt := { s.bt with rel := now s } }))) := rfl
  generalize ht : wf Reg.BOOT_STATUS 14 2 mode (wrN Reg.BOOT_COUNT count { s with bt := { s.bt with rel := now s } }) = t at hboot
  obtain ⟨⟨r, hr⟩, hkeeps⟩ := trainBegin_frame (setStage 1 t)
  rw [← hboot] at hr hkeeps
  refine ⟨?_, ?_, ?_, ?_⟩
  · rw [hkeeps _ (by decide), setStage, rdN_wf_other _ _ _ _ (by decide)]
    change rdN t Reg.BOOT_COUNT = _
    rw [← ht, rdN_wf_other _ _ _ _ (by decide), rdN_wrN_same]
  · exact (hkeeps.rf (by decide) 0 4).trans (rf_wf_same Reg.BOOT_STATUS 0 4 1 _ (by decide))
  · refine (hkeeps.rf (by decide) 14 2).trans ((rf_wf_disj Reg.BOOT_STATUS 0 4 1 14 2 _ (by decide) (by decide)).trans ?_)
    have hshown : rf t Reg.BOOT_STATUS 14 2 = mode % 2 ^ 2 := by
      rw [← ht]
      exact rf_wf_same Reg.BOOT_STATUS 14 2 mode _ (by decide)
    exact hshown.trans (Nat.mod_eq_of_lt hmode)
  · rw [hr, ← ht]
    exact ⟨_, _, rfl⟩
theorem warmReset_effect (s : Dev) : rdN (warmReset s) Reg.BOOT_COUNT = (rdN s Reg.BOOT_COUNT + 1) % 2 ^ 32 ∧ stage (warmReset s) = 1 ∧
    bootMode (warmReset s) = bootMode s ∧ (warmReset s).dram = [] ∧ (warmReset s).held = [] ∧ (warmReset s).cores = [] ∧ (warmReset s).kv = {} ∧
    (s.bt.ops = [] → (warmReset s).flash = s.flash) := by
  obtain ⟨hcount, hstage, hmode, r, b, hrest⟩ := bootStart_effect (rdN s Reg.BOOT_COUNT + 1) (mode := bootMode s) (deviceReset s) (bits_lt _ _ _)
  have hwarm : warmReset s = { deviceReset s with regs := r, bt := b } := hrest
  refine ⟨hcount, hstage, hmode, ?_, ?_, ?_, ?_, fun hops => ?_⟩
  · rw [hwarm]; rfl
  · rw [hwarm]; rfl
  · rw [hwarm]; rfl
  · rw [hwarm]; rfl
  · rw [hwarm]
    exact deviceReset_flash hops

end Sys2Proof.Machine
end

section
/-! SUPPORT. The other rows of Table 15-5 (R203, R206, R266, R270), and O53. -/
set_option autoImplicit false
namespace Sys2Proof.Machine
open Sys2Proof

/-! ## What the accepted actions leave -/

/-- A reopened stream is OPENING; no counter of actions is its state register. -/
theorem reopen_effect {st : Nat} (s : Dev) (hst : st < 512) :
    sState (reopen st s) st = 1 ∧ SameRegs [Reg.ING_S_STATE st] s (reopen st s) ∧ SameMem s (reopen st s) ∧ Reg.ERR_ACT_CNT ≠ Reg.ING_S_STATE st :=
  ⟨rf_wf_same _ 0 3 1 s (by decide), sameRegs_wf _ 0 3 1 s, sameMem_wf _ 0 3 1 s, by simp only [Reg.ERR_ACT_CNT, Reg.ING_S_STATE]; omega⟩
theorem actReclaim_returns {s : Dev} {f : Nat} (hpool : f < kvPool s) (hstate : frState s f = 3) (hfree : holdersOf s f = []) :
    actReclaim f 64 s = (1, returnFrame f s) := by
  simp [actReclaim, Nat.not_le.mpr hpool, hstate, hfree, forS_nil]
theorem actReclaim_refused {s : Dev} {f : Nat} (h : kvPool s ≤ f ∨ frState s f ≠ 3) : actReclaim f 64 s = (2, s) :=
  if_pos (by simpa using h)
theorem leftWaiting_nonempty {qs : List Nat} (h : qs ≠ []) : ¬qs.isEmpty = true := by simpa using h
theorem actSource_begins {s : Dev} {w : Nat} (hw : w < 3) (hmarked : s.tide.marked = true) :
    actSource w 64 s = later 64 10 0 { s with held := s.held.filterMap (replaceHeld Reg.TIDE_CTRL 3) ++ [.reg Reg.TIDE_CTRL 3 w] } := by
  have hkeep : w &&& 3 = w := (Nat.and_two_pow_sub_one_eq_mod w 2).trans (Nat.mod_eq_of_lt (by omega))
  rw [actSource, if_neg (by omega), if_pos hmarked, Nat.mod_eq_of_lt (by omega), hold_source_marked w hmarked, hkeep]
theorem actSource_changes {s : Dev} {w : Nat} (hw : w < 3) (hmarked : s.tide.marked = false) :
    actSource w 64 s = (1, notEquivalent (hold Reg.TIDE_CTRL 3 w s)) := by
  rw [actSource, if_neg (by omega), hmarked, Nat.mod_eq_of_lt (by omega)]
  rfl
/-- A change of source before the first mark: it shows at once, GUARANTEE falls, and it is counted. -/
theorem sourceAction_effect {s : Dev} {w : Nat} (hw : w < 3) (hmarked : s.tide.marked = false) {d : Dev}
    (hd : d = bump Reg.ERR_ACT_CNT 1 (notEquivalent (hold Reg.TIDE_CTRL 3 w s))) :
    rdN d Reg.ERR_ACT_CNT = (rdN s Reg.ERR_ACT_CNT + 1) % 2 ^ 32 ∧ tideSource d = w ∧ tst d Reg.ERR_STATUS 1 = false ∧ SameMem s d := by
  obtain ⟨hsource, hregs, hmem⟩ := hold_source_effect w hmarked
  obtain ⟨hfallen, hafter, hmem'⟩ := notEquivalent_effect (hold Reg.TIDE_CTRL 3 w s)
  have hcount : SameRegs [Reg.ERR_ACT_CNT] (notEquivalent (hold Reg.TIDE_CTRL 3 w s)) d := hd ▸ sameRegs_bump _ 1 _
  refine ⟨?_, ?_, ?_, ?_⟩
  · rw [hd, rdN_bump_same, (hregs.append hafter) _ (by decide)]
  · exact (rf_of_same (hafter.append hcount) (by decide) 0 2).trans (hsource.trans (Nat.mod_eq_of_lt (by omega)))
  · rw [tst_of_same hcount (by decide), hfallen]
  · exact hmem.trans (hmem'.trans (hd ▸ sameMem_wrN ..))
theorem actStep_begins {s : Dev} (hsel : s.ptp.sel.isSome = true) (hoff : s.ptp.lastOff.isSome = true) :
    actStep 64 s = later 64 11 0 { s with tide := { s.tide with timeReq := some .master } } :=
  if_neg (by simpa using ⟨Option.isSome_iff_ne_none.mp hsel, Option.isSome_iff_ne_none.mp hoff⟩)
theorem actStep_refused {s : Dev} (h : s.ptp.sel = none ∨ s.ptp.lastOff = none) : actStep 64 s = (2, s) := if_pos (by simpa using h)
theorem portRetrain_effect (d p : Nat) (s : Dev) : portTraining (setB (Reg.ARB_STATUS d) 1 true (putPortTraining d (some p) s)) d = some p ∧
    SameRegs [Reg.ARB_STATUS d] s (setB (Reg.ARB_STATUS d) 1 true (putPortTraining d (some p) s)) ∧
    SameMem s (setB (Reg.ARB_STATUS d) 1 true (putPortTraining d (some p) s)) := by
  refine ⟨?_, SameRegs.trans (sameRegs_of_regs _ rfl) (sameRegs_setB _ 1 true _), (SameMem.refl s).trans (sameMem_setB ..)⟩
  simp only [portTraining, setB_dmc]
  exact mget_mset_same (fun _ => none) _ d (some p)

/-- Settles O53: every row of Table 15-5 answers refused or busy with the device as it was (`Does.of_refused`), ends at once (`Does.of_done`), or
begins its unit's recovery (`Does.of_begun`). -/
theorem actionsRunOrAreRefused : Obligations.ActionsRunOrAreRefused := by
  intro s k c e arg st dd ch f row hawake
  refine ⟨?_, ?_, ?_, ?_, ?_, ?_, ?_, ?_, ?_, ?_, ?_, ?_, ?_, ?_, ?_, ?_, ?_, ?_, ?_, ?_, ?_, ?_, ?_, ?_, ?_, ?_, ?_, ?_, ?_, ?_, ?_, ?_, ?_, ?_, ?_⟩
  · intro hcore hruns hact hheld
    obtain ⟨hreset, -, -, hregs⟩ := winHoldReset_effect (s := s.dev) hcore
    have hne : Reg.ERR_ACT_CNT ≠ Reg.WIN_CTRL k := by simp only [Reg.ERR_ACT_CNT, Reg.WIN_CTRL, coreBase]; omega
    refine Does.of_begun hawake rfl (actWeReset_begins k.isLt hcore hruns hact hheld) ⟨rdN_actBegun_count (hregs _ (by simpa using hne)),
      acting_actBegun .., ?_, (sameMem_winHoldReset ..).trans (sameMem_actBegun ..)⟩
    rw [tst_of_same (sameRegs_actBegun _ _ _) (by simpa using hne.symm), hreset]
  · intro h
    obtain ⟨n, hn, hf⟩ := actWeReset_refused k.isLt h
    exact Does.of_refused hawake rfl hn hf
  · intro hfree htest
    obtain ⟨hruns, hregs, hmem⟩ := bists_effect hfree
    have hne (a : Nat) (h : a = Reg.WIN_BIST_STATUS k ∨ a = Reg.ARR_BIST_STATUS k) : a ≠ Reg.ERR_ACT_CNT := by
      rcases h with rfl | rfl <;> simp only [Reg.ERR_ACT_CNT, Reg.WIN_BIST_STATUS, Reg.ARR_BIST_STATUS, coreBase] <;> omega
    refine Does.of_begun hawake rfl (actBist_begins k.isLt hfree htest) ⟨rdN_actBegun_count (hregs _ ?_), acting_actBegun .., ?_,
      hmem.trans (sameMem_actBegun ..)⟩
    · simpa using ⟨(hne _ (.inl rfl)).symm, (hne _ (.inr rfl)).symm⟩
    · rw [← hruns]
      unfold selfTest
      rw [tst_of_same (sameRegs_actBegun _ _ _) (by simpa using hne _ (.inr rfl)), tst_of_same (sameRegs_actBegun _ _ _) (by simpa using hne _ (.inl rfl))]
  · intro h
    obtain ⟨n, hn, hf⟩ := actBist_refused k.isLt h
    exact Does.of_refused hawake rfl hn hf
  · intro hact hst
    exact Does.of_begun hawake rfl (actRestart_begins c.isLt hact hst) ⟨rdN_actBegun_count rfl, acting_actBegun .., rfl, rfl, rfl, rfl, rfl⟩
  · intro h
    obtain ⟨n, hn, hf⟩ := actRestart_refused c.isLt h
    exact Does.of_refused hawake rfl hn hf
  · intro x u harg hx hmove
    exact Does.of_done hawake rfl (actMove_one e.isLt harg hx hmove) rfl
  · intro harg hnone
    exact Does.of_refused hawake rfl (.inl rfl) (actMove_none false harg hnone)
  · intro x u harg hx hmove
    exact Does.of_done hawake rfl (actMove_one e.isLt harg hx hmove) rfl
  · intro harg hnone
    exact Does.of_refused hawake rfl (.inl rfl) (actMove_none true harg hnone)
  · intro hmay
    obtain ⟨hopen, hregs, hmem, hne⟩ := reopen_effect s.dev st.isLt
    refine Does.of_done hawake rfl (if_pos hmay) ⟨?_, ?_, hmem.trans (sameMem_wrN ..)⟩
    · rw [rdN_bump_same, hregs _ (by simpa using hne)]
    · exact (rf_of_same (sameRegs_bump _ _ _) (by simpa using hne.symm) 0 3).trans hopen
  · intro hmay
    exact Does.of_refused hawake rfl (.inl rfl) (if_neg (by simp [hmay]))
  · intro hvalid
    exact Does.of_done hawake rfl (if_pos hvalid) rfl
  · intro hvalid
    exact Does.of_refused hawake rfl (.inl rfl) (if_neg (by simp [hvalid]))
  · intro hsource
    exact Does.of_done hawake rfl (if_neg hsource) rfl
  · intro hsource
    exact Does.of_refused hawake rfl (.inl rfl) (if_pos hsource)
  · intro w hw hmarked
    exact Does.of_begun hawake rfl (actSource_begins (by omega) hmarked) ⟨rdN_actBegun_count rfl, acting_actBegun .., List.mem_append_right _ (by simp),
      rfl, rfl, rfl, rfl⟩
  · intro w hw hmarked
    exact Does.of_done hawake rfl (actSource_changes (by omega) hmarked) (sourceAction_effect (by omega) hmarked rfl)
  · exact Does.of_refused hawake rfl (.inl rfl) rfl
  · intro hsel hoff
    exact Does.of_begun hawake rfl (actStep_begins hsel hoff) ⟨rdN_actBegun_count rfl, acting_actBegun .., rfl, rfl, rfl, rfl, rfl, rfl⟩
  · intro h
    exact Does.of_refused hawake rfl (.inl rfl) (actStep_refused h)
  · intro hidle hready
    obtain ⟨u, hu, htrain, hregs⟩ := actRetrain_begins dd.isLt ch.isLt hidle hready
    exact Does.of_begun hawake rfl hu ⟨rdN_actBegun_count (hregs _ (by decide)), htrain, acting_actBegun ..⟩
  · intro h
    exact Does.of_refused hawake rfl (.inr rfl) (actRetrain_busy dd.isLt ch.isLt h)
  · intro hidle
    obtain ⟨htrain, hregs, hmem⟩ := portRetrain_effect dd ch s.dev
    have hne : Reg.ERR_ACT_CNT ≠ Reg.ARB_STATUS dd := by simp only [Reg.ERR_ACT_CNT, Reg.ARB_STATUS, dieBase]; omega
    refine Does.of_begun hawake rfl (actDlink_begins dd.isLt ch.isLt hidle) ⟨rdN_actBegun_count (hregs _ (by simpa using hne)), ?_,
      acting_actBegun .., hmem.trans (sameMem_actBegun ..)⟩
    rw [portTraining, actBegun_dmc]
    exact htrain
  · intro h
    exact Does.of_refused hawake rfl (.inr rfl) (actDlink_busy dd.isLt ch.isLt h)
  · intro hpool hf hstate hfree
    refine Does.of_done hawake rfl (u := returnFrame f s.dev) ?_ rfl
    rw [Nat.mod_eq_of_lt hf, actReclaim_returns hpool hstate hfree]
  · intro hf h
    refine Does.of_refused hawake rfl (.inl rfl) ?_
    rw [Nat.mod_eq_of_lt hf, actReclaim_refused h]
  · rintro qs rfl hne
    exact Does.of_done hawake rfl (if_neg (leftWaiting_nonempty hne)) rfl
  · intro hnone
    exact Does.of_refused hawake rfl (.inl rfl) (if_pos (by rw [hnone]; rfl))
  · rintro qs rfl hne
    exact Does.of_done hawake rfl (if_neg (leftWaiting_nonempty hne)) rfl
  · intro hnone
    exact Does.of_refused hawake rfl (.inl rfl) (if_pos (by rw [hnone]; rfl))
  · intro hrow
    obtain ⟨hregs, hmem⟩ := heldOnly_hwMode s.dev hrow
    refine Does.of_begun hawake rfl (actHwMode_begins s.dev hrow) ⟨rdN_actBegun_count (rdN_congr hregs _), acting_actBegun .., ?_, ?_, ?_, ?_, ?_,
      actBegun_regs hregs, hmem.trans (sameMem_actBegun ..)⟩
    · rintro rfl
      exact (hold_outside_tide (a := Reg.PIX_CTRL) rfl).2.2
    · rintro rfl
      exact ⟨mem_held_hold (a := Reg.TRK_CTRL 1) rfl (hold_outside_tide (a := Reg.TRK_CTRL 0) rfl).2.2 (by decide),
        (hold_outside_tide (a := Reg.TRK_CTRL 1) rfl).2.2⟩
    · rintro rfl
      exact (hold_outside_tide (a := Reg.KVF_CTRL) rfl).2.2
    · rintro rfl
      exact (hold_outside_tide (a := Reg.ERR_CTRL) rfl).2.2
    · rintro rfl
      exact (hold_outside_tide (a := Reg.MDO_CTRL) rfl).2.2
  · intro hrow
    obtain ⟨hregs, -⟩ := heldOnly_hwMode s.dev (show row.val < 8 by omega)
    refine Does.of_begun hawake rfl (actHwMode_begins s.dev (by omega)) ⟨rdN_actBegun_count (rdN_congr hregs _), ?_, ?_⟩
    · rintro rfl hvalid hhost
      rw [actBegun_held]
      exact mem_held_hwMode_stream hvalid hhost st.isLt
    · rintro x hx hvalid hhost (⟨rfl, henc⟩ | ⟨rfl, henc⟩)
      · rw [actBegun_held]
        exact mem_held_hwMode_context (enc := false) hx hvalid hhost henc
      · rw [actBegun_held]
        exact mem_held_hwMode_context (enc := true) hx hvalid hhost henc
  · intro hrow
    exact Does.of_refused hawake rfl (.inl rfl) (if_pos hrow)
  · exact Does.of_onDev hawake rfl (warmReset_effect s.dev)

end Sys2Proof.Machine
end

section
/-! SUPPORT. What follows every command leaves the codec's registers alone; a heartbeat missed while the last served context is no context of the
engine (R245), which refutes O18. -/
set_option autoImplicit false
namespace Sys2Proof.Machine
open Sys2Proof

theorem emitted_flushPosts (l : List Post) (s : Dev) : Emitted s (flushPosts l s) := by
  induction l generalizing s with
  | nil => exact Emitted.refl s
  | cons p l ih =>
    unfold flushPosts
    split
    · next hroom =>
      have hring : p.ring < 12 := by
        simp only [ringCanTake, Bool.and_eq_true, decide_eq_true_eq] at hroom
        exact hroom.1.1.1
      exact (emitted_pci _ s).trans ((emitted_ringPut _ _ _ _ _ hring).trans (ih _))
    · exact ih s
theorem emitted_settle (s : Dev) : Emitted s (settle s) :=
  (emitted_releaseRecs _ _ s).trans ((emitted_flushPosts _ _).trans
    (forS_rel Emitted Emitted.refl (fun _ _ _ => Emitted.trans) _ _ (fun _ hch d => emitted_pump (List.mem_range.mp hch) d) _))
/-- Devices that settle alike agree in every register outside the output side. -/
theorem tst_of_settle_eq {a b : Dev} (h : settle a = settle b) {x : Nat} (hx : besideOutput x) (i : Nat) : tst a x i = tst b x i := by
  rw [← (emitted_settle a).regs.tst hx, ← (emitted_settle b).regs.tst hx, h]

/-- Engine 0 idle, with a last served context outside its 32. -/
def strayServed : State := ws [] fun d => { d with cdc := [(0, { served := 32 })] }
/-- The missed heartbeat reports at engine 1. -/
theorem strayServed_heartbeat : inReset strayServed.dev = false ∧ tst (ccpHeartbeatMiss 0 strayServed.dev) (Reg.CDC_EVENT 0) 5 = false := by
  decide +kernel

/-- Refutes O18: the statement bounds neither the context in progress nor the last served one, and CDC_CCP_FAULT is raised at the engine of that
context's key: with 32 served last at engine 0, at engine 1. -/
theorem not_codecFramesEndAndEnginesReset : ¬Obligations.CodecFramesEndAndEnginesReset := by
  unfold Obligations.CodecFramesEndAndEnginesReset
  intro h
  obtain ⟨hawake, hclear⟩ := strayServed_heartbeat
  obtain ⟨-, -, -, -, -, hmiss, -⟩ := h strayServed 0 hawake
  obtain ⟨d, hd, -, -, hevent, -⟩ := hmiss.onDev_inv hawake rfl
  have hsame : tst d (Reg.CDC_EVENT 0) 5 = tst (ccpHeartbeatMiss 0 strayServed.dev) (Reg.CDC_EVENT 0) 5 := tst_of_settle_eq hd (by decide) 5
  exact absurd (hevent.symm.trans (hsame.trans hclear)) (by decide)

end Sys2Proof.Machine
end

section
/-! SUPPORT. The head unit of a decode context (R217, R218, R224): a unit that is lost, a header that is kept, an entry of the host's ring, and O17. -/
set_option autoImplicit false
namespace Sys2Proof.Machine
open Sys2Proof

/-! ## The codec beside the output side -/

theorem besideOutput_engine {a : Nat} (g : Nat) (h : engBase g ≤ a) : besideOutput a := by
  simp only [engBase] at h
  simp only [besideOutput, Reg.ING_PORT_TX_CNT]
  omega
theorem SameRest.cctx {a b : Dev} (h : SameRest a b) : b.cctx = a.cctx := by
  unfold SameRest at h
  rw [h]
theorem ctxOf_single {s : Dev} {key : Nat} {v : CdcCtx} (h : s.cctx = [(key, v)]) : ctxOf s key = v := by simp [ctxOf, mget, h]
section
variable {a b : Dev} (h : Emitted a b)
include h

theorem Emitted.ctxOf (key : Nat) : ctxOf b key = ctxOf a key := ctxOf_congr h.rest.cctx key
theorem Emitted.ctxCfg (key lo len : Nat) : ctxCfg b key lo len = ctxCfg a key lo len :=
  h.regs.rf (besideOutput_engine (key / 32) (by simp only [Reg.CDC_CTX_CFG]; omega)) lo len
theorem Emitted.poolCfg (key lo len : Nat) :
    rf b (Reg.CDC_CTX_POOL_CFG (key / 32) (key % 32)) lo len = rf a (Reg.CDC_CTX_POOL_CFG (key / 32) (key % 32)) lo len :=
  h.regs.rf (besideOutput_engine (key / 32) (by simp only [Reg.CDC_CTX_POOL_CFG]; omega)) lo len
theorem Emitted.ctxCodec (key : Nat) : ctxCodec b key = ctxCodec a key := h.ctxCfg key 11 2
theorem Emitted.bufBytes (key : Nat) : bufBytes b key = bufBytes a key := congrArg (· * 4096) (h.poolCfg key 6 14)

end

/-! ## A unit that is not decoded (R217) -/

theorem emitted_gap1 (stream : Nat) (why : GapReason) (cove cls capture : Nat) (untr : Bool) (s : Dev) :
    Emitted s (gap1 stream why cove cls capture untr s) := (emitted_mdo _ s).trans (emitted_emitRec _ _)
/-- A lost unit is counted, and has no other effect than output. -/
theorem loseUnit_counts (key : Nat) (why : GapReason) (a : Au) (s : Dev) :
    ∃ b, Emitted s b ∧ loseUnit key why a s = bump (Reg.CDC_CTX_LOST_CNT (key / 32) (key % 32)) 1 b := by
  cases h : a.post with
  | none => exact ⟨gap1 (ctxStream s key) why 0xFF 0xFF a.cap a.untr s, emitted_gap1 .., by simp only [loseUnit, ctxCount, h, id_eq]⟩
  | some p =>
    exact ⟨gap1 (ctxStream s key) why 0xFF 0xFF a.cap a.untr (dropPost 5 p.1 s), (emitted_pci _ s).trans (emitted_gap1 ..),
      by simp only [loseUnit, ctxCount, h]⟩
theorem headNow_empty {s : Dev} {key : Nat} (h : (ctxOf s key).queue = []) : headNow key s = s := by
  simp only [headNow, headStart, h]
/-- The only unit of a queue is lost. -/
theorem refuseHead_single {s : Dev} {key : Nat} {a : Au} (why : GapReason) (h : (ctxOf s key).queue = [a]) :
    (ctxOf (refuseHead key why s) key).queue = [] ∧ (refuseHead key why s).time = s.time ∧
      rdN (refuseHead key why s) (Reg.CDC_CTX_LOST_CNT (key / 32) (key % 32)) = (rdN s (Reg.CDC_CTX_LOST_CNT (key / 32) (key % 32)) + 1) % 2 ^ 32 := by
  obtain ⟨b, hb, hlost⟩ := loseUnit_counts key why a (popUnit key s)
  have hempty : (ctxOf (loseUnit key why a (popUnit key s)) key).queue = [] := by
    rw [hlost, ctxOf_congr (bump_cctx ..), hb.ctxOf, popUnit, ctxOf_modCtx, if_pos rfl, h]
    rfl
  have hrefuse : refuseHead key why s = loseUnit key why a (popUnit key s) := by
    simp only [refuseHead, h]
    exact headNow_empty hempty
  rw [hrefuse]
  refine ⟨hempty, ?_, ?_⟩
  · rw [hlost, bump_time, hb.rest.time]
    rfl
  · rw [hlost, rdN_bump_same, hb.regs _ (besideOutput_engine (key / 32) (by simp only [Reg.CDC_CTX_LOST_CNT]; omega))]
    rfl
/-- What a contained event of an engine shows. -/
theorem cdcFault_effect {bit : Nat} (ev key num : Nat) (s : Dev) (h : bit < 32) : tst (cdcFault bit ev key num s) (Reg.CDC_EVENT (key / 32)) bit = true ∧
    SameRegs [Reg.CDC_FAULT_INFO (key / 32), Reg.CDC_EVENT (key / 32)] s (cdcFault bit ev key num s) ∧ SameRest s (cdcFault bit ev key num s) := by
  have hreg : eventReg (0x0800 + bit) (key / 32) = some (Reg.CDC_EVENT (key / 32)) := by
    rw [eventReg, show (0x0800 + bit) / 256 = 8 by omega]
    rfl
  have hbit : (0x0800 + bit) % 256 = bit := by omega
  refine ⟨?_, ((sameRegs_wrN _ _ s).append (sameRegs_raiseFor _ _ _ hreg)).mono (List.Perm.swap _ _ []).subset,
    (sameRest_wrN ..).trans (sameRest_raiseFor ..)⟩
  have hset := tst_raiseFor (code := 0x0800 + bit) (ev + key % 32 * 2 ^ 3 + num % 2 ^ 24 * 2 ^ 8) (ctxStream s key)
    (wrN (Reg.CDC_FAULT_INFO (key / 32)) (ev + key % 32 * 2 ^ 3 + num % 2 ^ 24 * 2 ^ 8) s) hreg (by omega)
  rwa [hbit] at hset
theorem cdcFault_queue {bit : Nat} (ev key num k : Nat) (s : Dev) (h : bit < 32) : (ctxOf (cdcFault bit ev key num s) k).queue = (ctxOf s k).queue :=
  congrArg CdcCtx.queue (ctxOf_congr (cdcFault_effect ev key num s h).2.2.cctx k)

/-! ## A header that is kept (R218, R230) -/

/-- The header of a random access point that fits, with no move waiting. -/
theorem acceptPic_kept {s : Dev} {key : Nat} {a : Au} {h : PicHdr} (buf : Option Nat) (slices : List SliceRec) (hqueue : (ctxOf s key).queue = [a])
    (hmove : (ctxOf s key).move = none) (hrap : h.rap = true) (hlarge : tooLarge (ctxCodec s key) h.w h.h h.p10 = false)
    (hfit : picBytes h.w h.h h.p10 ≤ bufBytes s key) :
    acceptPic key h buf slices s = modHead key (fun a => { a with hdr := some h, buf, slices }) s := by
  have htrue : isRap s key h.rap = true := by rw [isRap, hrap, Bool.true_or]
  have hkept : { h with rap := true } = h := by rw [← hrap]
  have hpool : poolFor s key true = key := by simp only [poolFor, hmove]
  simp only [acceptPic, hqueue, htrue, hkept, hpool, hlarge, hmove, Nat.not_lt.mpr hfit, Bool.false_eq_true, Bool.not_true, Bool.false_and, if_false]
theorem modHead_single {s : Dev} {key : Nat} {a : Au} (f : Au → Au) (h : (ctxOf s key).queue = [a]) : (ctxOf (modHead key f s) key).queue = [f a] := by
  rw [modHead, ctxOf_modCtx, if_pos rfl, h]
theorem rdN_modHead (key : Nat) (f : Au → Au) (s : Dev) (x : Nat) : rdN (modHead key f s) x = rdN s x := rfl
/-- The unit whose headers the firmware parses. -/
theorem ccpParseDone_found {s : Dev} {e x : Nat} {a : Au} (f : Finding) (hqueue : (ctxOf s (e * 32 + x)).queue = [a]) (hhost : a.host = some false)
    (hhdr : a.hdr = none) (hvalid : ctxValid s (e * 32 + x) = true) (hdec : ctxEncodes s (e * 32 + x) = false)
    (hrun : tst s (Reg.CDC_STATUS e) 8 = false) (hready : tst s (Reg.CDC_STATUS e) 9 = false) : ccpParseDone e x f s = found (e * 32 + x) f s := by
  simp [ccpParseDone, hqueue, hhost, hhdr, hvalid, hdec, hrun, hready]

/-! ## An entry of an H2D ring (R385, R389) -/

theorem sameRegs_ringShadow (l : List Nat) (r i : Nat) (s : Dev) : SameRegs l s (ringShadow r i s) := by
  unfold ringShadow
  split
  · exact SameRegs.refl l s
  · exact sameRegs_send l _ s
theorem sameRegs_ringSignal (r : Nat) (s : Dev) : SameRegs [Reg.PCI_STATUS] s (ringSignal r s) := by
  unfold ringSignal
  dsimp only
  split
  · exact SameRegs.refl _ s
  · split
    · exact sameRegs_of_regs _ rfl
    · exact SameRegs.trans (sameRegs_of_regs _ rfl) (sameRegs_msixSend _ _)
/-- An entry is read: CI advances, and beside output only the ring's own state differs. -/
theorem ringTake_effect {r : Nat} (s : Dev) (hr : r < 12) : rdN (ringTake r s) (Reg.PCI_RING_CI r) = (rdN s (Reg.PCI_RING_CI r) + 1) % 2 ^ 32 ∧
    ringSlot (ringTake r s) r = ringSlot s r ∧ Emitted s (ringTake r s) := by
  let i := (rdN s (Reg.PCI_RING_CI r) + 1) % 2 ^ 32
  let t := wrN (Reg.PCI_RING_CI r) i (leaveL1 s)
  have hci : ¬besideOutput (Reg.PCI_RING_CI r) := by simp only [besideOutput, Reg.PCI_RING_CI, Reg.MDO_CTRL, Reg.ING_PORT_TX_CNT]; omega
  have hstate : ¬besideOutput (Reg.PCI_RING_STATE r) := by simp only [besideOutput, Reg.PCI_RING_STATE, Reg.MDO_CTRL, Reg.ING_PORT_TX_CNT]; omega
  have hlater : SameRegs [Reg.PCI_STATUS, Reg.PCI_RING_STATE r] t (ringTake r s) :=
    ((sameRegs_setB (Reg.PCI_RING_STATE r) 2 (ringFull t r) t).append ((sameRegs_ringShadow _ r i _).trans (sameRegs_ringSignal r _)))
  have htaken : SameRegs [Reg.PCI_RING_CI r, Reg.PCI_STATUS] s t := (sameRegs_leaveL1 s).append (sameRegs_wrN _ _ _)
  refine ⟨?_, ?_, (emitted_leaveL1 s).trans ((emitted_wrN i _ hci).trans ((emitted_wrN _ _ hstate).trans
    ((emitted_ringShadow r i _).trans (emitted_ringSignal r _))))⟩
  · rw [hlater _ (by simp [Reg.PCI_RING_CI, Reg.PCI_RING_STATE, Reg.PCI_STATUS]; omega), rdN_wrN_same]
    exact Nat.mod_eq_of_lt (Nat.mod_lt _ (by decide))
  · exact congrArg (2 ^ ·) (rf_of_same (htaken.append hlater) (by simp [Reg.PCI_RING_CFG, Reg.PCI_RING_CI, Reg.PCI_RING_STATE, Reg.PCI_STATUS]; omega) 5 4)
theorem h2dOk_ringTake {r : Nat} (kind : Nat) (h : H2D) (s : Dev) (hr : r < 12) : h2dOk (ringTake r s) r kind h = h2dOk s r kind h := by
  simp only [h2dOk, (ringTake_effect s hr).2.1]

/-! ## PICTURE_COMMAND (R224) -/

theorem unitByTag_single {s : Dev} {key tag : Nat} {v : CdcCtx} {a : Au} {p : Nat × Nat} (hctx : s.cctx = [(key, v)]) (hqueue : v.queue = [a])
    (hhdr : a.hdr = none) (hpost : a.post = some p) (htag : p.1 = tag) : unitByTag s tag = some (key, a) := by
  simp [unitByTag, hctx, ctxOf_single hctx, hqueue, hhdr, hpost, htag]
theorem cmdOk_emitted {s d : Dev} (h : Emitted s d) (key : Nat) (a : Au) (c : PicCmd) (hmove : (ctxOf s key).move = none) :
    cmdOk d key a c = cmdOk s key a c := by
  have hpool (rap : Bool) : poolFor d key rap = key ∧ poolFor s key rap = key := by
    simp only [poolFor, h.ctxOf, hmove, and_self]
  have hfree : freeBufs d key = freeBufs s key := by simp only [freeBufs, poolN, bufOf, h.poolCfg, h.ctxOf]
  simp only [cmdOk, hpool, hfree, h.ctxCodec]
/-- A command that passes the checks of R224 names a supported picture. -/
theorem cmdOk_supported {s : Dev} {key : Nat} {a : Au} {c : PicCmd} (h : cmdOk s key a c = true) :
    tooLarge (ctxCodec s key) c.w c.h (c.depth == 10) = false := by
  simpa using (Bool.and_eq_true_iff.mp h).2
theorem pictureCommand_kept {s : Dev} {key : Nat} {h : H2D} {c : PicCmd} {v : CdcCtx} {a : Au} {p : Nat × Nat} (hentry : ringHasEntry s 6 = true)
    (hok : h2dOk s 6 1 h = true) (hctx : s.cctx = [(key, v)]) (hqueue : v.queue = [a]) (hmove : v.move = none) (hhdr : a.hdr = none)
    (hpost : a.post = some p) (htag : p.1 = h.tag) (hcmd : cmdOk s key a c = true) (hrap : c.rap = true)
    (hfit : picBytes c.w c.h (c.depth == 10) ≤ bufBytes s key) : pictureCommand h c s =
      modHead key (fun a => { a with hdr := some (cmdHdr c), buf := some c.outBuf, slices := c.slices.take c.nslice }) (ringTake 6 s) := by
  obtain ⟨-, -, hemitted⟩ := ringTake_effect (r := 6) s (by decide)
  have hctx' : (ringTake 6 s).cctx = [(key, v)] := hemitted.rest.cctx.trans hctx
  have hmove' : (ctxOf s key).move = none := by rw [ctxOf_single hctx, hmove]
  have hunit : unitByTag (ringTake 6 s) h.tag = some (key, a) := unitByTag_single hctx' hqueue hhdr hpost htag
  simp only [pictureCommand, hentry, h2dOk_ringTake 1 h s (show 6 < 12 by decide), hok, hunit, cmdOk_emitted hemitted key a c hmove', hcmd, Bool.not_true,
    Bool.false_eq_true, if_false, if_true]
  refine acceptPic_kept _ _ (by rw [ctxOf_single hctx', hqueue]) (by rw [ctxOf_single hctx', hmove]) hrap ?_ ?_
  · rw [hemitted.ctxCodec]
    exact cmdOk_supported hcmd
  · rwa [hemitted.bufBytes]

/-! ## The statement -/

/-- The unit whose answer does not come is lost at the limit. -/
theorem codecHostTimeout_loses {s : Dev} {e x : Nat} {a : Au} {p : Nat × Nat} (sk : CodedPic) (hdec : ctxEncodes s (e * 32 + x) = false)
    (hqueue : (ctxOf s (e * 32 + x)).queue = [a]) (hhdr : a.hdr = none) (hpost : a.post = some p) :
    codecHostTimeout e x sk s = hostGone 1 (cdcFault 6 6 (e * 32 + x) a.num (refuseHead (e * 32 + x) .host
      (waitUntil (p.2 + rf s (Reg.CDC_HOST_LIM e) 0 16 * 1000000) s))) := by
  unfold codecHostTimeout
  generalize rf s (Reg.CDC_HOST_LIM e) 0 16 * 1000000 = lim
  simp only [hdec, hqueue, hpost, hhdr, Option.isSome_none, Bool.false_eq_true, if_false]
theorem hostGone_regs (f : Nat) (s : Dev) : (hostGone f s).regs = s.regs := rfl
theorem hostGone_cctx (f : Nat) (s : Dev) : (hostGone f s).cctx = s.cctx := rfl
theorem hostGone_time (f : Nat) (s : Dev) : (hostGone f s).time = s.time := rfl
/-- The loss of a head unit for want of an answer. -/
theorem hostLoss_effect {s : Dev} {e x num : Nat} {a : Au} (hx : x < 32) (hqueue : (ctxOf s (e * 32 + x)).queue = [a]) {d : Dev}
    (hd : d = hostGone 1 (cdcFault 6 6 (e * 32 + x) num (refuseHead (e * 32 + x) .host s))) :
    (ctxOf d (e * 32 + x)).queue = [] ∧ tst d (Reg.CDC_EVENT e) 6 = true ∧ d.time = s.time ∧
      rdN d (Reg.CDC_CTX_LOST_CNT e x) = (rdN s (Reg.CDC_CTX_LOST_CNT e x) + 1) % 2 ^ 32 := by
  have hengine : (e * 32 + x) / 32 = e := by omega
  have hplace : (e * 32 + x) % 32 = x := by omega
  have hne : Reg.CDC_CTX_LOST_CNT e x ∉ [Reg.CDC_FAULT_INFO e, Reg.CDC_EVENT e] := by
    simp only [Reg.CDC_CTX_LOST_CNT, Reg.CDC_FAULT_INFO, Reg.CDC_EVENT, List.mem_cons, List.not_mem_nil, or_false, not_or]
    omega
  obtain ⟨hempty, htime, hcount⟩ := refuseHead_single .host hqueue
  obtain ⟨hevent, hregs, hrest⟩ := cdcFault_effect (bit := 6) 6 (e * 32 + x) num (refuseHead (e * 32 + x) .host s) (by decide)
  rw [hengine, hplace] at hcount
  rw [hengine] at hevent hregs
  have hkept := sameRegs_of_regs [] (hostGone_regs 1 (cdcFault 6 6 (e * 32 + x) num (refuseHead (e * 32 + x) .host s)))
  rw [hd, tst_of_same hkept List.not_mem_nil, hkept _ List.not_mem_nil, ctxOf_congr ((hostGone_cctx ..).trans hrest.cctx), hostGone_time]
  exact ⟨hempty, hevent, hrest.time.trans htime, (hregs _ hne).trans hcount⟩
/-- What the time limit of the host's answer leaves of the head unit. -/
theorem hostLoss_waited {s d : Dev} {e x t num : Nat} {a : Au} (hx : x < 32) (hqueue : (ctxOf s (e * 32 + x)).queue = [a]) (ht : t < 2 ^ 64)
    (hd : d = hostGone 1 (cdcFault 6 6 (e * 32 + x) num (refuseHead (e * 32 + x) .host (waitUntil t s)))) :
    (ctxOf d (e * 32 + x)).queue = [] ∧ tst d (Reg.CDC_EVENT e) 6 = true ∧ t ≤ d.time.ns ∧
      rdN d (Reg.CDC_CTX_LOST_CNT e x) = (rdN s (Reg.CDC_CTX_LOST_CNT e x) + 1) % 2 ^ 32 := by
  have hwaited : (ctxOf (waitUntil t s) (e * 32 + x)).queue = [a] := (congrArg CdcCtx.queue (ctxOf_congr (waitUntil_cctx ..) _)).trans hqueue
  obtain ⟨hempty, hevent, htime, hcount⟩ := hostLoss_effect hx hwaited hd
  rw [rdN_congr (waitUntil_regs t s)] at hcount
  refine ⟨hempty, hevent, ?_, hcount⟩
  rw [htime]
  exact le_waitUntil s ht

/-- Settles O17: an admitted header of a random access point is put into the head unit (`acceptPic_kept`), and a refused head unit, the only one of its
queue, is lost (`refuseHead_single`) with its event (`cdcFault_effect`). -/
theorem codecHeadersAreAcceptedOrLost : Obligations.CodecHeadersAreAcceptedOrLost := by
  unfold Obligations.CodecHeadersAreAcceptedOrLost
  intro s e x hawake
  refine ⟨?_, ?_, ?_, ?_⟩
  · intro a h hqueue hmove hhost hhdr hvalid hdec hrun hready hrap hlarge hfit
    have hkept : ccpParseDone e x (.picture h) s.dev = modHead (e * 32 + x) (fun a => { a with hdr := some h, buf := none, slices := [] }) s.dev := by
      rw [ccpParseDone_found _ hqueue hhost hhdr hvalid hdec hrun hready]
      simp only [found, hqueue]
      exact acceptPic_kept none [] hqueue hmove hrap hlarge hfit
    refine Does.of_onDev (f := ccpParseDone e x (.picture h)) hawake rfl ?_
    rw [hkept]
    exact ⟨modHead_single _ hqueue, rfl, rfl, rfl, rfl, rfl⟩
  · intro a hqueue hhost hhdr hvalid hdec hrun hready
    have hlost : ccpParseDone e x .unsupported s.dev = cdcFault 4 4 (e * 32 + x) a.num (refuseHead (e * 32 + x) .lost s.dev) := by
      rw [ccpParseDone_found _ hqueue hhost hhdr hvalid hdec hrun hready]
      simp only [found, hqueue]
    obtain ⟨hevent, -, -⟩ := cdcFault_effect (bit := 4) 4 (e * 32 + x) a.num (refuseHead (e * 32 + x) .lost s.dev) (by decide)
    rw [show ((e : Nat) * 32 + x) / 32 = e by omega] at hevent
    refine Does.of_onDev (f := ccpParseDone e x .unsupported) hawake rfl ?_
    rw [hlost]
    exact ⟨(cdcFault_queue (bit := 4) 4 _ _ _ _ (by decide)).trans (refuseHead_single .lost hqueue).1, hevent⟩
  · intro h c v a p hentry hok hctx hqueue hmove hhdr hpost htag hcmd hrap hfit
    refine Does.of_onDev (f := pictureCommand h c) hawake rfl ?_
    rw [pictureCommand_kept hentry hok hctx hqueue hmove hhdr hpost htag hcmd hrap hfit]
    obtain ⟨hci, -, hemitted⟩ := ringTake_effect (r := 6) s.dev (by decide)
    exact ⟨modHead_single _ (by rw [hemitted.ctxOf, ctxOf_single hctx, hqueue]), (rdN_modHead ..).trans hci⟩
  · intro sk a p hdec hqueue hhdr hpost htime
    exact Does.of_onDev (f := codecHostTimeout e x sk) hawake rfl (hostLoss_waited x.isLt hqueue htime (codecHostTimeout_loses sk hdec hqueue hhdr hpost))

end Sys2Proof.Machine
end

section
/-! SUPPORT. Open clips (R237, R240, R242, R243): what closing leaves, what posting for QP keeps, and O19. -/
set_option autoImplicit false
namespace Sys2Proof.Machine
open Sys2Proof

/-! ## A clip closes (R237, R315) -/

theorem sameRest_eccUncorr (k a : Nat) (s : Dev) : SameRest s (eccUncorr k a s) := by
  unfold eccUncorr dmcEcc bump16 dmcFault dmcAddr dmcRaise
  exact (sameRest_wf ..).trans ((sameRest_wf ..).trans ((sameRest_wrN ..).trans ((sameRest_wr64 ..).trans (sameRest_raise ..))))
theorem sameRest_reportReach (x : NoReach) (s : Dev) : SameRest s (reportReach x s) := by
  unfold reportReach
  dsimp only
  split
  · exact (sameRest_wrN ..).trans ((sameRest_wr64 ..).trans (sameRest_raise ..))
  · exact sameRest_eccUncorr ..
  · exact SameRest.refl s
theorem sameRest_sendClip (c : Clip) (s : Dev) : SameRest s (sendClip c s) := by
  have hparts (l : List LmpRec) : SameRest s (forS l (fun r => chanEnter r c.deliver) s) :=
    forS_rel SameRest SameRest.refl (fun _ _ _ => SameRest.trans) l _ (fun r _ d => sameRest_chanEnter r _ d) s
  unfold sendClip
  dsimp only
  split
  · exact (hparts _).trans ((sameRest_reportReach ..).trans (sameRest_chanEnter ..))
  · exact hparts _
theorem clip_none_mapped (g : Clip → Clip) (m : SMap CdcCtx) (key : Nat) (h : (mget (fun _ => ({} : CdcCtx)) m key).clip = none) :
    (mget (fun _ => ({} : CdcCtx)) (m.map fun x : Nat × CdcCtx => (x.1, { x.2 with clip := x.2.clip.map g })) key).clip = none := by
  induction m with
  | nil => rfl
  | cons p m ih =>
    simp only [mget, List.map_cons] at h ⊢
    by_cases hkey : p.1 = key
    · rw [if_pos hkey] at h ⊢
      rw [h]
      rfl
    · rw [if_neg hkey] at h ⊢
      exact ih h
/-- A context without an open clip leaves none behind when it moves. -/
theorem moveCtx_clip {s : Dev} {key : Nat} (new_ : Nat) (h : (ctxOf s key).clip = none) : (ctxOf (moveCtx key new_ s) key).clip = none := by
  have hreports (d : Dev) : (ctxOf (cdcReport 11 (new_ / 32) (cdcReport 11 (key / 32) d)) key).clip = (ctxOf d key).clip :=
    congrArg CdcCtx.clip (ctxOf_congr ((sameRest_raise ..).trans (sameRest_raise ..)).cctx key)
  have hplaced (d : Dev) : (ctxOf (modCtx new_ (fun _ => ctxOf s key) (modCtx key (fun _ => {}) d)) key).clip = none := by
    rw [ctxOf_modCtx]
    split
    · exact h
    · rw [ctxOf_modCtx, if_pos rfl]
  unfold moveCtx
  exact (hreports _).trans (clip_none_mapped _ _ key (hplaced _))
/-- Of the moves of the closed clip's engine, only its own waits. -/
theorem moveClosed_clip {s : Dev} {key : Nat} (hclip : (ctxOf s key).clip = none) (hmoves : (cdcOf s (key / 32)).moves = []) :
    (ctxOf (moveClosed key s) key).clip = none := by
  unfold moveClosed
  dsimp only
  split
  · exact hclip
  · next m _ =>
    generalize hu : modCdc (key / 32) (fun c => { c with moves := c.moves ++ [(key, m.1 * 32 + m.2)] }) (modCtx key (fun v => { v with move := none }) s) = u
    have hkept : (ctxOf u key).clip = none := by
      rw [← hu, ctxOf_modCdc, ctxOf_modCtx, if_pos rfl]
      exact hclip
    have hone : (cdcOf u (key / 32)).moves = [(key, m.1 * 32 + m.2)] := by
      rw [← hu, cdcOf_modCdc_same]
      exact congrArg (· ++ [(key, m.1 * 32 + m.2)]) hmoves
    unfold whenS
    split
    · unfold boundaryMoves
      rw [hone, ctxOf_modCdc]
      exact moveCtx_clip _ hkept
    · exact hkept
theorem moves_encodeGone (key : Nat) (s : Dev) : (cdcOf (encodeGone key s) (key / 32)).moves = (cdcOf s (key / 32)).moves := by
  rw [encodeGone, cdcOf_modCdc_same]
theorem closeClip_clip {s : Dev} {key : Nat} {c : Clip} (hclip : (ctxOf s key).clip = some c) (hmoves : (cdcOf s (key / 32)).moves = []) :
    (ctxOf (closeClip key s) key).clip = none := by
  simp only [closeClip, hclip]
  generalize hu : forS c.taken _ (encodeGone key s) = u
  have hkept : (cdcOf u (key / 32)).moves = [] := by
    rw [← hu]
    refine forS_inv (fun d => (cdcOf d (key / 32)).moves = []) _ _ (fun t _ d hd => ?_) _ ((moves_encodeGone key s).trans hmoves)
    cases t.post <;> exact hd
  have hout (b : Bool) (r : LmpRec) (d : Dev) : SameRest d (whenS b (sendClip c) (emitRec r d)) :=
    (sameRest_emitRec r d).trans (whenS_rel SameRest SameRest.refl _ _ _ (sameRest_sendClip c _))
  refine moveClosed_clip ?_ ?_
  · rw [ctxOf_congr (hout ..).cctx, ctxOf_modCtx, if_pos rfl]
  · rw [cdcOf_congr (hout ..).cdc]
    exact hkept

/-! ## What is posted for QP (R242) -/

theorem clip_modClip {s : Dev} {key : Nat} {c : Clip} (f : Clip → Clip) (h : (ctxOf s key).clip = some c) :
    (ctxOf (modClip key f s) key).clip = some (f c) := by
  rw [modClip, ctxOf_modCtx, if_pos rfl]
  simp only [h, Option.map_some]
/-- Change of the taken pictures of one interval. -/
def retake (n : Nat) (f : Taken → Taken) (t : Taken) : Taken := if t.n = n then f t else t
theorem clip_modTaken {s : Dev} {key n : Nat} {c : Clip} (f : Taken → Taken) (h : (ctxOf s key).clip = some c) :
    (ctxOf (modTaken key n f s) key).clip = some { c with taken := c.taken.map (retake n f) } := clip_modClip _ h
theorem clip_hostPost (r kind key : Nat) (body : List Byte) (s : Dev) : (ctxOf (hostPost r kind body s) key).clip = (ctxOf s key).clip := rfl
/-- A change of taken pictures that keeps their intervals and whether they are settled for being late. -/
abbrev KeepsStale (f : Taken → Taken) : Prop := ∀ t, (f t).n = t.n ∧ (f t).stale = t.stale
theorem keepsStale_retake {f : Taken → Taken} (n : Nat) (h : KeepsStale f) : KeepsStale (retake n f) := by
  intro t
  unfold retake
  split
  · exact h t
  · exact ⟨rfl, rfl⟩
/-- Posting changes an open clip only in what its taken pictures were posted with. -/
theorem clip_postQp {s : Dev} {key : Nat} {c : Clip} (h : (ctxOf s key).clip = some c) :
    ∃ f, KeepsStale f ∧ (ctxOf (postQp key s) key).clip = some { c with taken := c.taken.map f } := by
  have hsame : ∃ f, KeepsStale f ∧ (ctxOf s key).clip = some { c with taken := c.taken.map f } := ⟨id, fun t => ⟨rfl, rfl⟩, by rw [h, List.map_id]⟩
  simp only [postQp, h]
  split
  · exact hsame
  · next t _ =>
    split
    · exact hsame
    · split
      · refine ⟨_, ?_, clip_modTaken _ h⟩
        exact keepsStale_retake t.n fun _ => ⟨rfl, rfl⟩
      · refine ⟨_, ?_, (clip_hostPost ..).trans (clip_modTaken _ h)⟩
        exact keepsStale_retake t.n fun _ => ⟨rfl, rfl⟩
theorem sameMem_postQp (key : Nat) (s : Dev) : SameMem s (postQp key s) := by
  unfold postQp
  split
  · exact SameMem.refl s
  · split
    · exact SameMem.refl s
    · split
      · exact SameMem.refl s
      · split <;> exact ⟨rfl, rfl, rfl, rfl⟩
theorem time_postQp (key : Nat) (s : Dev) : (postQp key s).time = s.time := (clipsOnly_postQp key s).2.2.1

/-! ## An interval without a picture (R240) -/

/-- The next interval of a clip whose interval ends without a picture taken. -/
def nextInterval (c : Clip) : Clip := { c with n := c.n + 1, replaced := c.replaced + 1, taken := c.taken.filter fun t => t.n != c.n }
theorem clipIntervalEnd_over {s : Dev} {e x t : Nat} {c : Clip} (sk : CodedPic) (hclip : (ctxOf s (e * 32 + x)).clip = some c) (hhead : c.head = none)
    (hopen : c.n < c.count) (hidr : c.idr = false) (ht : c.start + (c.n + 1) * 100000000000 / c.fps = t) :
    clipIntervalEnd e x sk s = postQp (e * 32 + x) (modClip (e * 32 + x) nextInterval (waitUntil t s)) := by
  have hwaited : (ctxOf (waitUntil t s) (e * 32 + x)).clip = some c := (congrArg CdcCtx.clip (ctxOf_congr (waitUntil_cctx ..) _)).trans hclip
  have hskip : skipPicture (e * 32 + x) sk (waitUntil t s) = postQp (e * 32 + x) (modClip (e * 32 + x) nextInterval (waitUntil t s)) := by
    simp only [skipPicture, hwaited, hidr, hhead, Bool.not_false, if_true]
    rfl
  simp only [clipIntervalEnd, hclip, hhead, ht, Option.isSome_none, decide_eq_false (Nat.not_le.mpr hopen), Bool.or_self, Bool.false_eq_true, if_false]
  exact hskip
theorem interval_effect {s d : Dev} {key t : Nat} {c : Clip} (hclip : (ctxOf s key).clip = some c) (ht : t < 2 ^ 64)
    (hd : d = postQp key (modClip key nextInterval (waitUntil t s))) :
    ((ctxOf d key).clip.map fun v => (v.n, v.replaced, v.pictures)) = some (c.n + 1, c.replaced + 1, c.pictures) ∧ t ≤ d.time.ns ∧ SameMem s d := by
  have hwaited : (ctxOf (waitUntil t s) key).clip = some c := (congrArg CdcCtx.clip (ctxOf_congr (waitUntil_cctx ..) _)).trans hclip
  obtain ⟨f, -, hpost⟩ := clip_postQp (clip_modClip nextInterval hwaited)
  have hmod : SameMem (waitUntil t s) (modClip key nextInterval (waitUntil t s)) := ⟨rfl, rfl, rfl, rfl⟩
  have htime : (modClip key nextInterval (waitUntil t s)).time = (waitUntil t s).time := rfl
  rw [hd]
  refine ⟨?_, ?_, (sameMem_waitUntil t s).trans (hmod.trans (sameMem_postQp ..))⟩
  · rw [hpost]
    rfl
  · rw [time_postQp, htime]
    exact le_waitUntil s ht

/-! ## A picture whose commit is late (R243) -/

theorem maskStaleExpiry_late {s : Dev} {e x : Nat} {c : Clip} {t : Taken} (hclip : (ctxOf s (e * 32 + x)).clip = some c) (hhead : c.head = some t)
    (hwaits : settled s c t = false) : maskStaleExpiry e x s =
      postQp (e * 32 + x) (modTaken (e * 32 + x) t.n (fun t => { t with stale := true }) (waitUntil (t.cap + c.staleNs) s)) := by
  simp only [maskStaleExpiry, hclip, hhead, hwaits, Bool.false_eq_true, if_false]
/-- Every taken picture of the interval is settled, whatever is posted then. -/
theorem stale_retaken {f : Taken → Taken} (n : Nat) (l : List Taken) (h : KeepsStale f) :
    (((l.map (retake n fun t => { t with stale := true })).map f).filter fun y => y.n == n).all (·.stale) = true := by
  rw [List.all_eq_true]
  intro y hy
  obtain ⟨hin, hn⟩ := List.mem_filter.mp hy
  rw [List.map_map, List.mem_map] at hin
  obtain ⟨t, -, rfl⟩ := hin
  obtain ⟨hkept, hstale⟩ := h (retake n (fun t => { t with stale := true }) t)
  have hn' : (retake n (fun t => { t with stale := true }) t).n = n := hkept.symm.trans (by simpa using hn)
  rw [Function.comp_apply, hstale]
  unfold retake at hn' ⊢
  split
  · rfl
  · next hother =>
    rw [if_neg hother] at hn'
    exact absurd hn' hother
theorem staleExpiry_effect {s d : Dev} {key w n : Nat} {c : Clip} (hclip : (ctxOf s key).clip = some c) (hw : w < 2 ^ 64)
    (hd : d = postQp key (modTaken key n (fun t => { t with stale := true }) (waitUntil w s))) :
    ((ctxOf d key).clip.map fun v => (v.taken.filter fun y => y.n == n).all (·.stale)) = some true ∧ w ≤ d.time.ns := by
  have hwaited : (ctxOf (waitUntil w s) key).clip = some c := (congrArg CdcCtx.clip (ctxOf_congr (waitUntil_cctx ..) _)).trans hclip
  obtain ⟨f, hf, hpost⟩ := clip_postQp (clip_modTaken (n := n) (fun t => { t with stale := true }) hwaited)
  have htime : (modTaken key n (fun t => { t with stale := true }) (waitUntil w s)).time = (waitUntil w s).time := rfl
  rw [hd]
  refine ⟨?_, ?_⟩
  · rw [hpost, Option.map_some, stale_retaken n c.taken hf]
  · rw [time_postQp, htime]
    exact le_waitUntil s hw

/-! ## The host's QP (R242) -/

theorem qpAnswer_kept {s : Dev} {key qp : Nat} {h : H2D} {v : CdcCtx} {c : Clip} {t : Taken} {p : Nat × Nat} (hentry : ringHasEntry s 6 = true)
    (hok : h2dOk s 6 2 h = true) (hqp : qp ≤ 51) (hctx : s.cctx = [(key, v)]) (hclip : v.clip = some c) (htaken : c.taken = [t]) (hnone : t.qp = none)
    (hpost : t.post = some p) (htag : p.1 = h.tag) : qpAnswer h qp s = modTaken key t.n (fun t => { t with qp := some qp }) (ringTake 6 s) := by
  have hctx' : (ringTake 6 s).cctx = [(key, v)] := (ringTake_effect (r := 6) s (by decide)).2.2.rest.cctx.trans hctx
  simp [qpAnswer, hentry, h2dOk_ringTake 2 h s (show 6 < 12 by decide), hok, Nat.not_lt.mpr hqp, hctx', ctxOf_single hctx', hclip, htaken, hnone, hpost,
    htag]
theorem rdN_modTaken (key n : Nat) (f : Taken → Taken) (s : Dev) (x : Nat) : rdN (modTaken key n f s) x = rdN s x := rfl

/-- Settles O19: a closed clip is gone, moved or not (`closeClip_clip`), and posting for QP touches neither the interval of a clip nor what settles its
pictures (`clip_postQp`). -/
theorem clipsAdvanceAndClose : Obligations.ClipsAdvanceAndClose := by
  unfold Obligations.ClipsAdvanceAndClose
  intro s e x hawake
  refine ⟨?_, ?_, ?_, ?_, ?_⟩
  · intro c hclip hdone hmoves
    have hclose : clipClose e x s.dev = closeClip (e * 32 + x) s.dev := by
      simp only [clipClose, hclip, hdone, if_true]
    refine Does.of_onDev (f := clipClose e x) hawake rfl ?_
    rw [hclose]
    exact closeClip_clip hclip (by rwa [show ((e : Nat) * 32 + x) / 32 = e by omega])
  · intro c hclip hopen
    refine Does.of_onDev (f := clipClose e x) hawake rfl ?_
    simp only [clipClose, hclip, Nat.not_le.mpr hopen, if_false]
  · intro sk c hclip hhead hopen hidr ht
    refine Does.of_onDev (f := clipIntervalEnd e x sk) hawake rfl ?_
    generalize htime : c.start + (c.n + 1) * 100000000000 / c.fps = t at ht ⊢
    exact interval_effect hclip ht (clipIntervalEnd_over sk hclip hhead hopen hidr htime)
  · intro c t hclip hhead hwaits ht
    exact Does.of_onDev (f := maskStaleExpiry e x) hawake rfl (staleExpiry_effect hclip ht (maskStaleExpiry_late hclip hhead hwaits))
  · intro h qp v c t p hentry hok hqp hctx hclip htaken hnone hpost htag
    obtain ⟨hci, -, hemitted⟩ := ringTake_effect (r := 6) s.dev (by decide)
    have hkept : (ctxOf (ringTake 6 s.dev) (e * 32 + x)).clip = some c := by rw [hemitted.ctxOf, ctxOf_single hctx, hclip]
    refine Does.of_onDev (f := qpAnswer h qp) hawake rfl ?_
    rw [qpAnswer_kept hentry hok hqp hctx hclip htaken hnone hpost htag, clip_modTaken _ hkept, rdN_modTaken]
    refine ⟨?_, hci⟩
    simp only [Option.map_some, htaken, List.map_cons, List.map_nil, retake, if_true]

end Sys2Proof.Machine
end

section
/-! SUPPORT. Streams (R265 to R268): the receiver of a stream, its entry, its state, its events, and what its messages leave. -/
set_option autoImplicit false
namespace Sys2Proof.Machine
open Sys2Proof

/-! ## The receiver and the entry -/

@[simp] theorem strm_setStrm (st : Nat) (q : Strm) (s : Dev) : strm (setStrm st q s) st = q := mget_mset_same _ _ _ _
@[simp] theorem strm_modStrm (st : Nat) (f : Strm → Strm) (s : Dev) : strm (modStrm st f s) st = f (strm s st) := strm_setStrm ..
theorem strm_congr {a b : Dev} (h : b.ing = a.ing) (st : Nat) : strm b st = strm a st := by
  unfold strm
  rw [h]
theorem strm_putSState (st v : Nat) (s : Dev) (x : Nat) : strm (putSState st v s) x = strm s x := rfl
theorem SameRest.ing {a b : Dev} (h : SameRest a b) : b.ing = a.ing := by
  unfold SameRest at h
  rw [h]
theorem SameRest.strm {a b : Dev} (h : SameRest a b) (st : Nat) : strm b st = strm a st := strm_congr h.ing st
theorem sameMem_setStrm (st : Nat) (q : Strm) (s : Dev) : SameMem s (setStrm st q s) := ⟨rfl, rfl, rfl, rfl⟩
theorem sameMem_modStrm (st : Nat) (f : Strm → Strm) (s : Dev) : SameMem s (modStrm st f s) := ⟨rfl, rfl, rfl, rfl⟩
theorem sameRegs_modStrm (l : List Nat) (st : Nat) (f : Strm → Strm) (s : Dev) : SameRegs l s (modStrm st f s) := sameRegs_of_regs l rfl

theorem keepsRegs_setStrm (p : Nat → Prop) (st : Nat) (q : Strm) (s : Dev) : KeepsRegs p s (setStrm st q s) := keepsRegs_of_regs p rfl
theorem rf_modStrm (st : Nat) (f : Strm → Strm) (s : Dev) (a lo len : Nat) : rf (modStrm st f s) a lo len = rf s a lo len := rfl

/-- The entry of stream `st` reads the same. -/
def SameEntry (st : Nat) (a b : Dev) : Prop := ∀ w, rdN b (Reg.ING_TABLE st w) = rdN a (Reg.ING_TABLE st w)

section Entry
variable {st : Nat} {a b : Dev} (h : SameEntry st a b)
include h

theorem SameEntry.stF (w lo len : Nat) : stF b st w lo len = stF a st w lo len := by
  unfold Machine.stF Machine.rf
  rw [h w]
theorem SameEntry.stValid : stValid b st = stValid a st := by simp only [Machine.stValid, h.stF]
theorem SameEntry.stPort : stPort b st = stPort a st := h.stF 0 2 2
theorem SameEntry.stAddr (w : Nat) : stAddr b st w = stAddr a st w := by simp only [Machine.stAddr, h.stF]
theorem SameEntry.mayReopen : mayReopen b st = mayReopen a st := by simp only [Machine.mayReopen, stHost, h.stValid, h.stF]
theorem SameEntry.flowState (hstrm : strm b st = strm a st) : flowState b st = flowState a st := by simp only [Machine.flowState, hstrm, h.stF]

end Entry

theorem SameEntry.refl (st : Nat) (a : Dev) : SameEntry st a a := fun _ => rfl
theorem SameEntry.trans {st : Nat} {a b c : Dev} (h : SameEntry st a b) (k : SameEntry st b c) : SameEntry st a c := fun w => (k w).trans (h w)
theorem SameRegs.entry {l : List Nat} {a b : Dev} (h : SameRegs l a b) (hl : ∀ x ∈ l, x < Reg.ING_TABLE 0 0) (st : Nat) : SameEntry st a b := fun w =>
  h _ fun hx => absurd (hl _ hx) (by simp only [Reg.ING_TABLE]; omega)
theorem stPort_lt (s : Dev) (st : Nat) : stPort s st < 4 := Nat.mod_lt _ (by decide)

/-! ## States -/

theorem flowState_lt (s : Dev) (st : Nat) : flowState s st < 8 := by
  unfold flowState
  split
  · decide
  · split <;> decide
theorem sState_putSState (st : Nat) {v : Nat} (s : Dev) (h : v < 8) : sState (putSState st v s) st = v :=
  (rf_wf_same _ 0 3 v s (by decide)).trans (Nat.mod_eq_of_lt h)
theorem sameRegs_putSState (st v : Nat) (s : Dev) : SameRegs [Reg.ING_S_STATE st] s (putSState st v s) := sameRegs_wf _ 0 3 v s
theorem sState_of_same {l : List Nat} {a b : Dev} {st : Nat} (h : SameRegs l a b) (hx : Reg.ING_S_STATE st ∉ l) : sState b st = sState a st :=
  rf_of_same h hx 0 3
theorem streamState_lt_table {st : Nat} (hst : st < 512) : Reg.ING_S_STATE st < Reg.ING_TABLE 0 0 := by
  simp only [Reg.ING_S_STATE, Reg.ING_TABLE]
  omega
/-- A stream whose media may flow shows the state that its receiver and its entry give. -/
theorem sState_flows {st : Nat} (s : Dev) (hst : st < 512) :
    sState (putSState st (flowState s st) s) st = flowState (putSState st (flowState s st) s) st := by
  have hentry : SameEntry st s (putSState st (flowState s st) s) :=
    (sameRegs_putSState st (flowState s st) s).entry (by simpa using streamState_lt_table hst) st
  rw [sState_putSState st s (flowState_lt s st), hentry.flowState rfl]

/-! ## Events -/

/-- What an event of ingest shows, and what it leaves. -/
theorem ingFault_effect {bit : Nat} (ev st : Nat) (s : Dev) (h : bit < 32) : tst (ingFault bit ev st s) Reg.ING_EVENT bit = true ∧
    SameRegs [Reg.ING_FAULT_INFO, Reg.ING_EVENT] s (ingFault bit ev st s) ∧ SameRest s (ingFault bit ev st s) := by
  have hreg : eventReg (0x0900 + bit) st = some Reg.ING_EVENT := by
    rw [eventReg, show (0x0900 + bit) / 256 = 9 by omega]
    rfl
  have hbit : (0x0900 + bit) % 256 = bit := by omega
  have hinfo (c : Bool) (n : Nat) : SameRegs [Reg.ING_FAULT_INFO] s (whenS c (wrN Reg.ING_FAULT_INFO n) s) :=
    whenS_rel _ (SameRegs.refl _) c _ s (sameRegs_wrN _ n s)
  have hrest (c : Bool) (n : Nat) : SameRest s (whenS c (wrN Reg.ING_FAULT_INFO n) s) := whenS_rel _ SameRest.refl c _ s (sameRest_wrN ..)
  refine ⟨?_, ((hinfo _ _).append (sameRegs_raiseFor _ _ _ hreg)).mono (List.Perm.swap _ _ []).subset, (hrest _ _).trans (sameRest_raiseFor ..)⟩
  have hset := tst_raiseFor (st + ev * 2 ^ 9) st (whenS (decide (ev ≠ 0)) (wrN Reg.ING_FAULT_INFO (st + ev * 2 ^ 9)) s) hreg (by omega)
  rwa [hbit] at hset
theorem ingFault_out (bit ev st : Nat) (s : Dev) : (ingFault bit ev st s).out = s.out := by
  rw [ingFault, raiseFor_out]
  unfold whenS
  split <;> rfl
/-- The registers of streams and of the stream table lie above those of events, and the ports. -/
theorem sameRegs_ingFault_above {bit : Nat} (ev st : Nat) (s : Dev) (h : bit < 32) {x : Nat} (hx : Reg.ING_PORT_CFG 0 ≤ x) :
    rdN (ingFault bit ev st s) x = rdN s x := by
  refine (ingFault_effect ev st s h).2.1 x ?_
  simp only [Reg.ING_PORT_CFG, Reg.ING_FAULT_INFO, Reg.ING_EVENT, List.mem_cons, List.not_mem_nil, or_false] at hx ⊢
  omega

/-! ## Messages of a stream (R254, R266) -/

/-- What has left the device stays noted. -/
def OutGrows (a b : Dev) : Prop := a.out <+: b.out

theorem OutGrows.refl (a : Dev) : OutGrows a a := List.prefix_refl _
theorem OutGrows.trans {a b c : Dev} (h : OutGrows a b) (k : OutGrows b c) : OutGrows a c := List.IsPrefix.trans h k
theorem outGrows_of_out {a b : Dev} (h : b.out = a.out) : OutGrows a b := by
  unfold OutGrows
  rw [h]
theorem outGrows_send (m : OutMsg) (s : Dev) : OutGrows s (send m s) := by
  unfold send
  split
  · exact OutGrows.refl s
  · exact List.prefix_append ..

theorem emitted_portSend (m : OutMsg) {p : Nat} (s : Dev) (hp : p < 4) : Emitted s (bump (Reg.ING_PORT_TX_CNT p) 1 (send m s)) :=
  (emitted_send m s).trans (emitted_wrN _ _ (by simp only [besideOutput, Reg.ING_PORT_TX_CNT, Reg.MDO_CTRL]; omega))
theorem groupMsg_silent {st : Nat} {s : Dev} (join : Bool) (h : stF s st 0 5 1 ≠ 1) : groupMsg join st s = s := if_neg h
theorem groupMsg_rel {R : Dev → Dev → Prop} (hrefl : ∀ a, R a a) {st : Nat} {s : Dev} (join : Bool)
    (h : ∀ m, R s (bump (Reg.ING_PORT_TX_CNT (stPort s st)) 1 (send m s))) : R s (groupMsg join st s) := by
  by_cases hmulti : stF s st 0 5 1 = 1
  · rw [groupMsg, if_pos hmulti]
    exact h _
  · rw [groupMsg_silent join hmulti]
    exact hrefl s
theorem emitted_groupMsg (join : Bool) (st : Nat) (s : Dev) : Emitted s (groupMsg join st s) :=
  groupMsg_rel Emitted.refl join fun m => emitted_portSend m s (stPort_lt s st)
theorem outGrows_groupMsg (join : Bool) (st : Nat) (s : Dev) : OutGrows s (groupMsg join st s) :=
  groupMsg_rel OutGrows.refl join fun m => outGrows_send m s
theorem emitted_rtspSend (st : Nat) (m : String) (s : Dev) : Emitted s (rtspSend st m s) :=
  emitted_portSend _ s (stPort_lt s st)
theorem rtspSend_out (st : Nat) (m : String) (s : Dev) : (rtspSend st m s).out = s.out ++ [.rtsp st m] := send_out _ s rfl
theorem rdN_rtspSend_count (st : Nat) (m : String) (s : Dev) :
    rdN (rtspSend st m s) (Reg.ING_PORT_TX_CNT (stPort s st)) = (rdN s (Reg.ING_PORT_TX_CNT (stPort s st)) + 1) % 2 ^ 32 := rdN_bump_same ..
theorem besideOutput_above {x : Nat} (h : Reg.ING_PORT_TX_CNT 4 ≤ x) : besideOutput x := .inr (.inr h)
theorem Emitted.entry {a b : Dev} (h : Emitted a b) (st : Nat) : SameEntry st a b := fun w =>
  h.regs _ (besideOutput_above (by simp only [Reg.ING_TABLE, Reg.ING_PORT_TX_CNT]; omega))

end Sys2Proof.Machine
end

section
/-! SUPPORT. The stream table's commands and sessions (R266 to R270), and O42. -/
set_option autoImplicit false
namespace Sys2Proof.Machine
open Sys2Proof

/-! ## ING_ENTRY_RESULT -/

theorem rdN_entryResult {code st : Nat} (s : Dev) (hc : code < 8) (hst : st < 512) : rdN (entryResult code st s) Reg.ING_ENTRY_RESULT = code + st * 8 :=
  (rdN_wrN_same ..).trans (Nat.mod_eq_of_lt (by omega))
theorem sameRegs_entryResult (code st : Nat) (s : Dev) : SameRegs [Reg.ING_ENTRY_RESULT] s (entryResult code st s) := sameRegs_wrN _ _ s
theorem sameMem_entryResult (code st : Nat) (s : Dev) : SameMem s (entryResult code st s) := sameMem_wrN ..
theorem sameEntry_entryResult (code : Nat) (s : Dev) (st : Nat) : SameEntry st s (entryResult code st s) :=
  (sameRegs_entryResult code st s).entry (by decide) st

/-! ## RESYNC (R270) -/

/-- The receiver starts again, a learned SSRC is forgotten, and the report is made. -/
def resyncReported (st : Nat) (s : Dev) : Dev :=
  s |> modStrm st (fun q => { q with started := false, hold := false })
    |> whenS (decide (stF s st 2 0 32 = 0)) (fun s => s |> setB (Reg.ING_S_STATE st) 4 false |> wrN (Reg.ING_S_SSRC st) 0) |> ingFault 7 0 st
theorem resync_eq (st : Nat) (s : Dev) : resync st s =
    if sState (resyncReported st s) st = 5 then putSState st (flowState (resyncReported st s) st) (resyncReported st s) else resyncReported st s := rfl
theorem sameRest_ssrcForgotten (c : Bool) (st : Nat) (s : Dev) :
    SameRest s (whenS c (fun s => s |> setB (Reg.ING_S_STATE st) 4 false |> wrN (Reg.ING_S_SSRC st) 0) s) :=
  whenS_rel SameRest SameRest.refl c _ s rfl
/-- SSRC_KNOWN is bit 4 of the register whose bits 2 to 0 are the state. -/
theorem sState_ssrcForgotten (c : Bool) (st : Nat) (s : Dev) :
    sState (whenS c (fun s => s |> setB (Reg.ING_S_STATE st) 4 false |> wrN (Reg.ING_S_SSRC st) 0) s) st = sState s st := by
  refine whenS_rel (fun a b => sState b st = sState a st) (fun _ => rfl) c _ s ?_
  rw [sState, rf_wrN_other _ _ _ _ (by simp only [Reg.ING_S_STATE, Reg.ING_S_SSRC]; omega), rf_setB_disj _ _ _ _ _ _ (by decide) (by decide)]
  rfl
theorem sState_ingFault {bit : Nat} (ev st : Nat) (s : Dev) (h : bit < 32) (x : Nat) : sState (ingFault bit ev st s) x = sState s x :=
  sState_of_same (ingFault_effect ev st s h).2.1 (by simp only [Reg.ING_S_STATE, Reg.ING_FAULT_INFO, Reg.ING_EVENT, List.mem_cons, List.not_mem_nil, or_false]; omega)
theorem resyncReported_effect (st : Nat) (s : Dev) :
    strm (resyncReported st s) st = { strm s st with started := false, hold := false } ∧ tst (resyncReported st s) Reg.ING_EVENT 7 = true ∧
      sState (resyncReported st s) st = sState s st := by
  obtain ⟨hevent, -, hrest⟩ := ingFault_effect 0 st (whenS (decide (stF s st 2 0 32 = 0))
    (fun s => s |> setB (Reg.ING_S_STATE st) 4 false |> wrN (Reg.ING_S_SSRC st) 0) (modStrm st (fun q => { q with started := false, hold := false }) s))
    (show 7 < 32 by decide)
  refine ⟨?_, hevent, ?_⟩
  · rw [resyncReported, hrest.strm, (sameRest_ssrcForgotten ..).strm, strm_modStrm]
  · rw [resyncReported, sState_ingFault _ _ _ (by decide), sState_ssrcForgotten]
    rfl
theorem resync_effect {st : Nat} (s : Dev) (hst : st < 512) :
    strm (resync st s) st = { strm s st with started := false, hold := false } ∧ tst (resync st s) Reg.ING_EVENT 7 = true ∧
      (sState s st = 5 → sState (resync st s) st = flowState (resync st s) st) := by
  obtain ⟨hstrm, hevent, hstate⟩ := resyncReported_effect st s
  have hne : Reg.ING_EVENT ∉ [Reg.ING_S_STATE st] := by simp only [Reg.ING_S_STATE, Reg.ING_EVENT, List.mem_singleton]; omega
  rw [resync_eq, hstate]
  split
  · exact ⟨(strm_putSState ..).trans hstrm, (tst_of_same (sameRegs_putSState st _ _) hne 7).trans hevent, fun _ => sState_flows _ hst⟩
  · next hheld => exact ⟨hstrm, hevent, fun h => absurd h hheld⟩
/-- The result leaves the stream as it was. -/
theorem entryResult_stream (code : Nat) (s : Dev) (st : Nat) :
    strm (entryResult code st s) st = strm s st ∧ sState (entryResult code st s) st = sState s st ∧ flowState (entryResult code st s) st = flowState s st :=
  ⟨rfl, sState_of_same (sameRegs_entryResult code st s) (by simp only [Reg.ING_S_STATE, Reg.ING_ENTRY_RESULT, List.mem_singleton]; omega),
    (sameEntry_entryResult code s st).flowState rfl⟩

/-! ## Sessions (R266) -/

theorem sessionLost_effect (st : Nat) (s : Dev) : sState (sessionLost st s) st = 6 ∧ tst (sessionLost st s) Reg.ING_EVENT 3 = true ∧
    strm (sessionLost st s) st = { strm s st with tcp := none } ∧ SameMem s (sessionLost st s) ∧ (sessionLost st s).out = s.out := by
  obtain ⟨hevent, -, hrest⟩ := ingFault_effect 4 st (putSState st 6 (modStrm st (fun q => { q with tcp := none }) s)) (show 3 < 32 by decide)
  refine ⟨?_, hevent, ?_, ((sameMem_modStrm ..).trans (sameMem_wf ..)).trans hrest.sameMem, ingFault_out ..⟩
  · exact (sState_ingFault 4 st _ (by decide) st).trans (sState_putSState st _ (by decide))
  · exact (hrest.strm st).trans (strm_modStrm st (fun q => { q with tcp := none }) s)

/-- The four requests of a session that is opened. -/
def sessionAsked (st : Nat) (s : Dev) : Dev := s |> rtspSend st "OPTIONS" |> rtspSend st "DESCRIBE" |> rtspSend st "SETUP" |> rtspSend st "PLAY"
/-- The entry as the session's answers fill it. -/
def sessionFilled (st ssrc pt : Nat) (dst : List Word) (s : Dev) : Dev :=
  s |> wrN (Reg.ING_TABLE st 2) ssrc |> wf (Reg.ING_TABLE st 0) 16 7 pt |> setupGroup st dst
/-- The media of the session may flow. -/
def sessionFlows (st ssrc : Nat) (peer : TcpEnd) (s : Dev) : Dev :=
  s |> wrN (Reg.ING_S_SSRC st) ssrc |> setB (Reg.ING_S_STATE st) 4 false |> modStrm st (fun q => { q with hold := false, tcp := some peer })
    |> (fun s => putSState st (flowState s st) s)
section Open
variable {st : Nat} {s : Dev} (hmay : mayReopen s st = true) (hopening : sState s st = 1) (hrun : ebbState s = 0)
include hmay hopening hrun

theorem rtspOpen_accepted (ssrc pt : Nat) (dst : List Word) (peer : TcpEnd) :
    rtspOpen st true ssrc pt dst peer s = sessionFlows st ssrc peer (sessionFilled st ssrc pt dst (sessionAsked st s)) := by
  simp only [rtspOpen, hmay, hopening, hrun]
  rfl
theorem rtspOpen_refused (ssrc pt : Nat) (dst : List Word) (peer : TcpEnd) :
    rtspOpen st false ssrc pt dst peer s = sessionLost st (rtspSend st "DESCRIBE" (rtspSend st "OPTIONS" s)) := by
  simp only [rtspOpen, hmay, hopening, hrun]
  rfl

end Open

theorem sessionAsked_effect (st : Nat) (s : Dev) : Emitted s (sessionAsked st s) ∧
    (sessionAsked st s).out = s.out ++ [.rtsp st "OPTIONS", .rtsp st "DESCRIBE", .rtsp st "SETUP", .rtsp st "PLAY"] := by
  refine ⟨(emitted_rtspSend ..).trans ((emitted_rtspSend ..).trans ((emitted_rtspSend ..).trans (emitted_rtspSend ..))), ?_⟩
  simp only [sessionAsked, rtspSend_out, List.append_assoc, List.cons_append, List.nil_append]

/-- A register of the stream table outside the group's address of stream `st`. -/
def outsideGroup (st x : Nat) : Prop := Reg.ING_TABLE 0 0 ≤ x ∧ ∀ i < 4, x ≠ Reg.ING_TABLE st (8 + i)
/-- The group's address as SETUP names it. -/
def groupNamed (st : Nat) (dst : List Word) (s : Dev) : Dev := forS (List.range 4) (fun i => wrN (Reg.ING_TABLE st (8 + i)) (dst.getD i 0).toNat) s
theorem keepsRegs_groupNamed (st : Nat) (dst : List Word) (s : Dev) : KeepsRegs (outsideGroup st) s (groupNamed st dst s) := fun _ hx =>
  rdN_forS_wrN_other (fun i => (dst.getD i 0).toNat) 4 s hx.2
theorem sameRest_groupNamed (st : Nat) (dst : List Word) (s : Dev) : SameRest s (groupNamed st dst s) := sameRest_forS _ _ (fun _ _ => sameRest_wrN _ _ _) s
theorem groupNamed_out (st : Nat) (dst : List Word) (s : Dev) : (groupNamed st dst s).out = s.out := by
  unfold groupNamed
  exact forS_inv (fun d => d.out = s.out) _ _ (fun _ _ d h => (wrN_out _ _ d).trans h) s rfl
theorem Emitted.keepsTable {a b : Dev} (h : Emitted a b) (st : Nat) : KeepsRegs (outsideGroup st) a b :=
  h.regs.mono fun _ hx => besideOutput_above (le_trans (by decide) hx.1)
theorem setupGroup_unicast {st : Nat} {s : Dev} (dst : List Word) (h : stF s st 0 5 1 ≠ 1) : setupGroup st dst s = s := if_pos h
/-- Nothing happens to a unicast stream; else the address is filled in, and another group than before is joined in place of the old one. -/
theorem setupGroup_cases (st : Nat) (dst : List Word) (s : Dev) : setupGroup st dst s = s ∨ setupGroup st dst s = groupNamed st dst s ∨
    setupGroup st dst s = groupMsg true st (groupNamed st dst (whenS (!(groupKept s st)) (groupMsg false st) s)) := by
  by_cases hmulti : stF s st 0 5 1 = 1
  · by_cases hsame : stAddr (groupNamed st dst s) st 8 = stAddr s st 8
    · exact .inr (.inl ((if_neg (not_not_intro hmulti)).trans (if_pos hsame)))
    · exact .inr (.inr ((if_neg (not_not_intro hmulti)).trans (if_neg hsame)))
  · exact .inl (setupGroup_unicast dst hmulti)
theorem setupGroup_effect (st : Nat) (dst : List Word) (s : Dev) :
    KeepsRegs (outsideGroup st) s (setupGroup st dst s) ∧ SameRest s (setupGroup st dst s) ∧ OutGrows s (setupGroup st dst s) := by
  rcases setupGroup_cases st dst s with h | h | h
  · rw [h]
    exact ⟨KeepsRegs.refl _ s, SameRest.refl s, OutGrows.refl s⟩
  · rw [h]
    exact ⟨keepsRegs_groupNamed st dst s, sameRest_groupNamed .., outGrows_of_out (groupNamed_out ..)⟩
  · have hleft : Emitted s (whenS (!(groupKept s st)) (groupMsg false st) s) := whenS_rel _ Emitted.refl _ _ s (emitted_groupMsg ..)
    have hgrow : OutGrows s (whenS (!(groupKept s st)) (groupMsg false st) s) := whenS_rel _ OutGrows.refl _ _ s (outGrows_groupMsg ..)
    have hjoin (d : Dev) : Emitted d (groupMsg true st d) := emitted_groupMsg ..
    rw [h]
    exact ⟨((hleft.keepsTable st).trans (keepsRegs_groupNamed st dst _)).trans ((hjoin _).keepsTable st),
      hleft.rest.trans ((sameRest_groupNamed ..).trans (hjoin _).rest),
      hgrow.trans ((outGrows_of_out (groupNamed_out ..)).trans (outGrows_groupMsg ..))⟩

theorem sessionFilled_effect (st ssrc pt : Nat) (dst : List Word) (s : Dev) :
    stF (sessionFilled st ssrc pt dst s) st 2 0 32 = ssrc % 2 ^ 32 ∧ stF (sessionFilled st ssrc pt dst s) st 0 16 7 = pt % 2 ^ 7 ∧
      SameMem s (sessionFilled st ssrc pt dst s) ∧ OutGrows s (sessionFilled st ssrc pt dst s) ∧
      (stF s st 0 5 1 ≠ 1 → (sessionFilled st ssrc pt dst s).out = s.out) := by
  have hne : Reg.ING_TABLE st 2 ≠ Reg.ING_TABLE st 0 := by simp only [Reg.ING_TABLE]; omega
  have hout (w : Nat) (h : w < 8) : outsideGroup st (Reg.ING_TABLE st w) :=
    ⟨by simp only [Reg.ING_TABLE]; omega, fun i _ => by simp only [Reg.ING_TABLE]; omega⟩
  obtain ⟨hkeep, hrest, hgrow⟩ := setupGroup_effect st dst (wf (Reg.ING_TABLE st 0) 16 7 pt (wrN (Reg.ING_TABLE st 2) ssrc s))
  refine ⟨?_, ?_, ((sameMem_wrN ..).trans (sameMem_wf ..)).trans hrest.sameMem, ((outGrows_of_out (wrN_out ..)).trans (outGrows_of_out (wf_out ..))).trans hgrow,
    fun h => ?_⟩
  · rw [stF, sessionFilled, hkeep.rf (hout 2 (by decide)), rf_wf_other _ _ _ _ _ _ hne, rf, rdN_wrN_same, bits_mod32 _ _ _ (by decide), bits, Nat.pow_zero,
      Nat.div_one]
  · rw [stF, sessionFilled, hkeep.rf (hout 0 (by decide)), rf_wf_same _ _ _ _ _ (by decide)]
  · rw [sessionFilled, setupGroup_unicast, wf_out, wrN_out]
    rwa [stF, rf_wf_disj _ _ _ _ _ _ _ (by decide) (by decide), rf_wrN_other _ _ _ _ hne.symm]
theorem sessionFlows_effect {st : Nat} (ssrc : Nat) (peer : TcpEnd) (s : Dev) (hst : st < 512) :
    (strm (sessionFlows st ssrc peer s) st).tcp = some peer ∧ SameEntry st s (sessionFlows st ssrc peer s) ∧
      sState (sessionFlows st ssrc peer s) st = flowState (sessionFlows st ssrc peer s) st ∧ SameMem s (sessionFlows st ssrc peer s) ∧
      (sessionFlows st ssrc peer s).out = s.out := by
  have hregs : SameRegs [Reg.ING_S_STATE st, Reg.ING_S_SSRC st] s (sessionFlows st ssrc peer s) :=
    (sameRegs_wrN (Reg.ING_S_SSRC st) ssrc s).append
      (((sameRegs_setB (Reg.ING_S_STATE st) 4 false _).trans (sameRegs_modStrm _ _ _ _)).trans (sameRegs_putSState st _ _))
  refine ⟨congrArg Strm.tcp (strm_modStrm st (fun q => { q with hold := false, tcp := some peer })
    (setB (Reg.ING_S_STATE st) 4 false (wrN (Reg.ING_S_SSRC st) ssrc s))), hregs.entry ?_ st, sState_flows _ hst,
    (sameMem_wrN ..).trans ((sameMem_setB ..).trans ((sameMem_modStrm ..).trans (sameMem_wf ..))), wf_out ..⟩
  simp only [List.mem_cons, List.not_mem_nil, or_false, Reg.ING_S_STATE, Reg.ING_S_SSRC, Reg.ING_TABLE]
  omega
/-- A session that opens sends its four requests, fills the entry, and lets media flow. -/
theorem sessionOpened_effect {st : Nat} (ssrc pt : Nat) (dst : List Word) (peer : TcpEnd) (s : Dev) (hst : st < 512) {d : Dev}
    (hd : d = sessionFlows st ssrc peer (sessionFilled st ssrc pt dst (sessionAsked st s))) :
    (∃ l, d.out = s.out ++ [.rtsp st "OPTIONS", .rtsp st "DESCRIBE", .rtsp st "SETUP", .rtsp st "PLAY"] ++ l ∧ (stF s st 0 5 1 ≠ 1 → l = [])) ∧
      (strm d st).tcp = some peer ∧ stF d st 2 0 32 = ssrc % 2 ^ 32 ∧ stF d st 0 16 7 = pt % 2 ^ 7 ∧ sState d st = flowState d st ∧ SameMem s d := by
  obtain ⟨hasked, hsent⟩ := sessionAsked_effect st s
  obtain ⟨hssrc, hpt, hmem, ⟨l, hl⟩, hsilent⟩ := sessionFilled_effect st ssrc pt dst (sessionAsked st s)
  obtain ⟨htcp, hentry, hstate, hmem', hout⟩ := sessionFlows_effect ssrc peer (sessionFilled st ssrc pt dst (sessionAsked st s)) hst
  subst hd
  refine ⟨⟨l, ?_, fun h => ?_⟩, htcp, (hentry.stF 2 0 32).trans hssrc, (hentry.stF 0 16 7).trans hpt, hstate, hasked.rest.sameMem.trans (hmem.trans hmem')⟩
  · rw [hout, ← hl, hsent]
  · have hnone := hsilent (by rwa [(hasked.entry st).stF])
    simpa [← hl] using hnone

theorem rtspKeepalive_sends {st : Nat} {s : Dev} (hmay : mayReopen s st = true) (hrun : ebbState s = 0) (hstate : sState s st ∈ [2, 3, 4, 5]) :
    rtspKeepalive st s = rtspSend st "GET_PARAMETER" s := by
  rw [rtspKeepalive, hmay, hrun, List.contains_iff_mem.mpr hstate]
  rfl

/-! ## COMMIT at the mark (R269) -/

theorem commitCheck_lt (s : Dev) (st : Nat) (l : List Word) : commitCheck s st l < 8 := by
  unfold commitCheck
  dsimp only
  split_ifs <;> decide
theorem applyCommit_refused {s : Dev} {st : Nat} {l : List Word} (h : commitCheck s st l ≠ 0) :
    applyCommit st l s = ingFault 0 1 st (entryResult (commitCheck s st l) st s) := if_pos h
/-- An entry that was not valid and is now is opened, and its group joined. -/
theorem applyCommit_taken {s : Dev} {st : Nat} {l : List Word} (h : commitCheck s st l = 0) :
    ∃ c, applyCommit st l s = whenS c (fun s => groupMsg true st (openStream st s)) (putEntry st l (entryResult 0 st s)) := by
  refine ⟨!(stValid (entryResult 0 st s) st) && stValid (putEntry st l (entryResult 0 st s)) st, ?_⟩
  unfold applyCommit
  rw [h]
  rfl

theorem word_eq_ofNat_rdN (s : Dev) (a : Nat) : mget regReset s.regs a = BitVec.ofNat 32 (rdN s a) := by
  rw [rdN, BitVec.ofNat_toNat, BitVec.setWidth_eq]
theorem SameEntry.entryWords {st : Nat} {a b : Dev} (h : SameEntry st a b) : entryWords b st = entryWords a st :=
  List.map_congr_left fun w _ => by rw [word_eq_ofNat_rdN, h w, ← word_eq_ofNat_rdN]
theorem entryWords_putEntry (st : Nat) {l : List Word} (s : Dev) (h : l.length = 32) : entryWords (putEntry st l s) st = l := by
  have hword (i : Nat) (hi : i < 32) : mget regReset (putEntry st l s).regs (Reg.ING_TABLE st i) = l.getD i 0 := by
    rw [word_eq_ofNat_rdN, putEntry, rdN_forS_wrN (by simp only [Reg.ING_TABLE]; omega) (fun i => (l.getD i 0).toNat) s hi,
      Nat.mod_eq_of_lt (BitVec.isLt _), BitVec.ofNat_toNat, BitVec.setWidth_eq]
  refine List.ext_getElem (by simp [entryWords, h]) fun i hi hi' => ?_
  simp only [entryWords, List.getElem_map, List.getElem_range]
  rw [hword i (by omega), List.getD_eq_getElem _ _ hi']

/-- The command's result and the registers of the stream table. -/
def resultOrTable (x : Nat) : Prop := x = Reg.ING_ENTRY_RESULT ∨ Reg.ING_TABLE 0 0 ≤ x
theorem keepsRegs_openStream {st : Nat} (s : Dev) (hst : st < 512) : KeepsRegs resultOrTable s (openStream st s) := by
  have hwrite (a n : Nat) (d : Dev) (ha : a ∈ [Reg.ING_S_STATE st, Reg.ING_S_SSRC st, Reg.ING_S_OFS_LO st, Reg.ING_S_OFS_LO st + 4]) :
      KeepsRegs resultOrTable d (wrN a n d) := by
    refine keepsRegs_wrN n d ?_
    simp only [List.mem_cons, List.not_mem_nil, or_false, Reg.ING_S_STATE, Reg.ING_S_SSRC, Reg.ING_S_OFS_LO] at ha
    simp only [resultOrTable, Reg.ING_ENTRY_RESULT, Reg.ING_TABLE]
    omega
  exact (keepsRegs_setStrm _ st _ s).trans <| (hwrite (Reg.ING_S_STATE st) 0 _ (by simp)).trans ((hwrite (Reg.ING_S_SSRC st) _ _ (by simp)).trans
    ((hwrite (Reg.ING_S_OFS_LO st) _ _ (by simp)).trans ((hwrite (Reg.ING_S_OFS_LO st + 4) _ _ (by simp)).trans (hwrite (Reg.ING_S_STATE st) _ _ (by simp)))))
theorem sameMem_openStream (st : Nat) (s : Dev) : SameMem s (openStream st s) :=
  (sameMem_setStrm ..).trans ((sameMem_wrN ..).trans ((sameMem_wrN ..).trans ((sameMem_wr64 ..).trans (sameMem_wf ..))))
theorem streamOpened_effect {st : Nat} (c : Bool) (s : Dev) (hst : st < 512) {d : Dev}
    (hd : d = whenS c (fun s => groupMsg true st (openStream st s)) s) : KeepsRegs resultOrTable s d ∧ SameMem s d := by
  have hjoin := emitted_groupMsg true st (openStream st s)
  have hkeep : KeepsRegs resultOrTable (openStream st s) (groupMsg true st (openStream st s)) :=
    hjoin.regs.mono fun x hx => hx.elim (fun h => h ▸ by decide) fun h => besideOutput_above (le_trans (by decide) h)
  subst hd
  exact ⟨whenS_rel _ (KeepsRegs.refl _) c _ s ((keepsRegs_openStream s hst).trans hkeep),
    whenS_rel SameMem SameMem.refl c _ s ((sameMem_openStream st s).trans hjoin.rest.sameMem)⟩
theorem commitRefused_effect {s : Dev} {st : Nat} {l : List Word} (h : commitCheck s st l ≠ 0) (hst : st < 512) {d : Dev} (hd : d = applyCommit st l s) :
    rdN d Reg.ING_ENTRY_RESULT = commitCheck s st l + st * 8 ∧ tst d Reg.ING_EVENT 0 = true ∧ entryWords d st = entryWords s st ∧ SameMem s d := by
  obtain ⟨hevent, hregs, hrest⟩ := ingFault_effect 1 st (entryResult (commitCheck s st l) st s) (show 0 < 32 by decide)
  rw [applyCommit_refused h] at hd
  subst hd
  refine ⟨?_, hevent, ?_, (sameMem_entryResult ..).trans hrest.sameMem⟩
  · rw [hregs _ (by decide), rdN_entryResult s (commitCheck_lt ..) hst]
  · exact ((sameEntry_entryResult _ s st).trans (hregs.entry (by decide) st)).entryWords
theorem commitTaken_effect {s : Dev} {st : Nat} {l : List Word} (h : commitCheck s st l = 0) (hl : l.length = 32) (hst : st < 512) {d : Dev}
    (hd : d = applyCommit st l s) : entryWords d st = l ∧ rdN d Reg.ING_ENTRY_RESULT = st * 8 ∧ SameMem s d := by
  obtain ⟨c, hc⟩ := applyCommit_taken h
  obtain ⟨hregs, hmem⟩ := streamOpened_effect c (putEntry st l (entryResult 0 st s)) hst (hd.trans hc)
  have hput : SameRest (entryResult 0 st s) (putEntry st l (entryResult 0 st s)) := sameRest_forS _ _ (fun _ _ => sameRest_wrN _ _ _) _
  have hentry : SameEntry st (putEntry st l (entryResult 0 st s)) d := fun w => hregs _ (.inr (by simp only [Reg.ING_TABLE]; omega))
  refine ⟨?_, ?_, (sameMem_entryResult ..).trans (hput.sameMem.trans hmem)⟩
  · rw [hentry.entryWords, entryWords_putEntry _ _ hl]
  · rw [hregs _ (.inl rfl), putEntry, rdN_forS_wrN_other (fun i => (l.getD i 0).toNat) _ _ (by simp only [Reg.ING_TABLE, Reg.ING_ENTRY_RESULT]; omega),
      rdN_entryResult s (by decide) hst, Nat.zero_add]

/-! ## DISABLE at the mark (R269) -/

/-- The last of a DISABLE: the entry is not valid, the receiver is as after reset but for its epoch, and the state is OFF. -/
theorem applyDisable_ends {s : Dev} {st : Nat} (h : stValid s st = true) : ∃ d, applyDisable st s =
    wrN (Reg.ING_S_STATE st) 0 (modStrm st (fun q => { epoch := q.epoch + q.cycles + 65536 }) (wf (Reg.ING_TABLE st 0) 0 1 0 d)) :=
  ⟨_, if_neg (by rw [(sameEntry_entryResult 0 s st).stValid, h]; decide)⟩
theorem applyDisable_effect {s : Dev} {st : Nat} (h : stValid s st = true) (hst : st < 512) : stValid (applyDisable st s) st = false ∧
    sState (applyDisable st s) st = 0 ∧ (strm (applyDisable st s) st).units = [] ∧ (strm (applyDisable st s) st).pkts = [] := by
  obtain ⟨d, hd⟩ := applyDisable_ends h
  have hstrm : strm (applyDisable st s) st = { epoch := (strm d st).epoch + (strm d st).cycles + 65536 } := by
    rw [hd, strm_congr (wrN_ing ..), strm_modStrm, strm_congr (wf_ing ..)]
  have hclear : stF (applyDisable st s) st 0 0 1 = 0 := by
    rw [hd, stF, rf_wrN_other _ _ _ _ (by simp only [Reg.ING_S_STATE, Reg.ING_TABLE]; omega), rf_modStrm]
    exact rf_wf_same (Reg.ING_TABLE st 0) 0 1 0 d (by decide)
  refine ⟨?_, ?_, congrArg Strm.units hstrm, congrArg Strm.pkts hstrm⟩
  · rw [stValid, hclear]
    exact Bool.and_false _
  · rw [hd, sState, rf, rdN_wrN_same]
    rfl

/-! ## The statement -/

/-- Settles O42: a command by the branch it takes, its result written last; a session by what its requests and answers leave (`sessionOpened_effect`,
`sessionLost_effect`); a COMMIT and a DISABLE at the mark by what comes last in them (`streamOpened_effect`, `applyDisable_ends`). -/
theorem streamEntriesOpenAndClose : Obligations.StreamEntriesOpenAndClose := by
  unfold Obligations.StreamEntriesOpenAndClose
  refine ⟨fun s st hawake => ?_, fun s st l hst => ?_⟩
  · refine ⟨?_, ?_, fun hvalid => ?_, fun hinvalid => ?_, fun hmay => ?_, fun hnot => ?_, fun ssrc pt dst peer hmay hopening hrun => ?_,
      fun ssrc pt dst peer hmay hopening hrun => ?_, fun hmay hrun hstate => ?_, fun hmay hopen hrun => ?_⟩
    · exact Does.of_onDev (f := commitCmd st) hawake rfl ⟨rdN_entryResult _ (by decide) st.isLt, List.mem_append_right _ (List.mem_singleton.mpr rfl),
        sameRegs_entryResult 1 st _, sameMem_entryResult ..⟩
    · exact Does.of_onDev (f := disableCmd st) hawake rfl ⟨rdN_entryResult _ (by decide) st.isLt, rfl, sameRegs_entryResult 1 st _, sameMem_entryResult ..⟩
    · obtain ⟨hstrm, hevent, hflow⟩ := resync_effect s.dev st.isLt
      obtain ⟨hstrm', hstate, hflow'⟩ := entryResult_stream 0 (resync st s.dev) st
      refine Does.of_onDev (f := resyncCmd st) hawake rfl ?_
      rw [resyncCmd, if_pos hvalid]
      refine ⟨rdN_entryResult _ (by decide) st.isLt, ?_, ?_, ?_, ?_, fun h => ?_⟩
      · rw [hstrm', hstrm]
      · rw [hstrm', hstrm]
      · rw [hstrm', hstrm]
      · rw [tst_of_same (sameRegs_entryResult 0 st _) (by decide), hevent]
      · rw [hstate, hflow', hflow h]
    · refine Does.of_onDev (f := resyncCmd st) hawake rfl ?_
      rw [resyncCmd, if_neg (by rw [hinvalid]; decide)]
      exact ⟨rdN_entryResult _ (by decide) st.isLt, sameRegs_entryResult 7 st _, rfl⟩
    · obtain ⟨hstate, hregs, -⟩ := reopen_effect s.dev st.isLt
      refine Does.of_onDev (f := reopenCmd st) hawake rfl ?_
      rw [reopenCmd, if_pos hmay]
      exact ⟨rdN_entryResult _ (by decide) st.isLt, (entryResult_stream ..).2.1.trans hstate, hregs.append (sameRegs_entryResult 0 st _)⟩
    · refine Does.of_onDev (f := reopenCmd st) hawake rfl ?_
      rw [reopenCmd, if_neg (by rw [hnot]; decide)]
      exact ⟨rdN_entryResult _ (by decide) st.isLt, sameRegs_entryResult 7 st _⟩
    · exact Does.of_onDev (f := rtspOpen st true ssrc pt dst peer) hawake rfl
        (sessionOpened_effect ssrc pt dst peer s.dev st.isLt (rtspOpen_accepted hmay hopening hrun ssrc pt dst peer))
    · obtain ⟨hstate, hevent, -, -, hout⟩ := sessionLost_effect st (rtspSend st "DESCRIBE" (rtspSend st "OPTIONS" s.dev))
      refine Does.of_onDev (f := rtspOpen st false ssrc pt dst peer) hawake rfl ?_
      rw [rtspOpen_refused hmay hopening hrun]
      refine ⟨?_, hstate, hevent⟩
      rw [hout, rtspSend_out, rtspSend_out, List.append_assoc]
      rfl
    · refine Does.of_onDev (f := rtspKeepalive st) hawake rfl ?_
      rw [rtspKeepalive_sends hmay hrun hstate]
      exact ⟨rtspSend_out .., rdN_rtspSend_count .., (emitted_rtspSend ..).rest.ing⟩
    · obtain ⟨hstate, hevent, hstrm, hmem, -⟩ := sessionLost_effect st s.dev
      refine Does.of_onDev hawake rfl ?_
      dsimp only
      rw [if_pos (by simp [hmay, hopen, hrun])]
      exact ⟨hstate, hevent, hstrm, hmem⟩
  · exact ⟨fun h => commitRefused_effect h hst rfl, fun h hl => commitTaken_effect h hl hst rfl, fun h => applyDisable_effect h hst⟩

end Sys2Proof.Machine
end

section
/-! SUPPORT. What ingest hands on (R220, R309, R314): the output side, the codec's queues and the closing of queries leave ingest, device time and what
has left the device. -/
set_option autoImplicit false
namespace Sys2Proof.Machine
open Sys2Proof

/-! ## The output side -/

theorem outGrows_pci (q : Pci) (s : Dev) : OutGrows s { s with pci := q } := outGrows_of_out rfl
theorem outGrows_mdo (q : Mdo) (s : Dev) : OutGrows s { s with mdo := q } := outGrows_of_out rfl
theorem outGrows_leaveL1 (s : Dev) : OutGrows s (leaveL1 s) := outGrows_of_out (setB_out ..)
theorem outGrows_msixSend (v : Nat) (s : Dev) : OutGrows s (msixSend v s) := by
  unfold msixSend
  split
  · exact OutGrows.refl s
  · split
    · exact outGrows_pci _ s
    · exact (outGrows_leaveL1 s).trans (outGrows_send _ _)
theorem outGrows_ringSignal (r : Nat) (s : Dev) : OutGrows s (ringSignal r s) := by
  unfold ringSignal
  dsimp only
  split
  · exact OutGrows.refl s
  · split
    · exact outGrows_pci _ s
    · exact (outGrows_pci _ s).trans (outGrows_msixSend _ _)
theorem outGrows_ringShadow (r i : Nat) (s : Dev) : OutGrows s (ringShadow r i s) := by
  unfold ringShadow
  split
  · exact OutGrows.refl s
  · exact outGrows_send _ s
theorem outGrows_ringPut (r kind tag w : Nat) (body : List Byte) (s : Dev) : OutGrows s (ringPut r kind tag w body s) :=
  (outGrows_leaveL1 s).trans ((outGrows_send _ _).trans ((outGrows_of_out (wrN_out ..)).trans ((outGrows_ringShadow _ _ _).trans
    ((outGrows_of_out (setB_out ..)).trans (outGrows_ringSignal _ _)))))
theorem chanStatus_out (ch : Nat) (s : Dev) : (chanStatus ch s).out = s.out := (setB_out ..).trans (setB_out ..)
theorem chanPush_out (ch : Nat) (r : LmpRec) (s : Dev) : (chanPush ch r s).out = s.out := by rw [chanPush, chanStatus_out, wr64_out, setChan_out]
theorem outGrows_sendDatagram (ch : Nat) (s : Dev) : OutGrows s (sendDatagram ch s) := by
  unfold sendDatagram
  dsimp only
  split
  · exact OutGrows.refl s
  · exact (outGrows_send _ s).trans (outGrows_of_out (by rw [chanStatus_out, setChan_out, bump_out, bump_out]))
theorem outGrows_closeDatagrams (ch : Nat) (all : Bool) (n : Nat) (s : Dev) : OutGrows s (closeDatagrams ch all n s) := by
  induction n generalizing s with
  | zero => exact OutGrows.refl s
  | succ n ih =>
    unfold closeDatagrams
    dsimp only
    split
    · exact OutGrows.refl s
    · split
      · exact OutGrows.refl s
      · exact (outGrows_sendDatagram ch s).trans (ih _)
theorem outGrows_drainRing (ch n : Nat) (s : Dev) : OutGrows s (drainRing ch n s) := by
  induction n generalizing s with
  | zero => exact OutGrows.refl s
  | succ n ih =>
    unfold drainRing
    split
    · exact OutGrows.refl s
    · split
      · exact (outGrows_ringPut _ _ _ _ _ s).trans ((outGrows_of_out (by rw [chanStatus_out, setChan_out, bump_out])).trans (ih _))
      · exact OutGrows.refl s
theorem outGrows_pump (ch : Nat) (s : Dev) : OutGrows s (pump ch s) := by
  unfold pump
  split
  · exact outGrows_closeDatagrams ch _ _ s
  · exact outGrows_drainRing ch _ s
theorem endLostRun_out (ch : Nat) (s : Dev) : (endLostRun ch s).out = s.out := by
  unfold endLostRun
  split
  · rfl
  · split
    · rw [chanPush_out, setChan_out]
    · rfl
theorem chanLose_out (ch : Nat) (s : Dev) : (chanLose ch s).out = s.out := by
  unfold chanLose
  dsimp only
  split
  · rw [raise_out, chanStatus_out, setChan_out, bump_out]
  · rw [setChan_out, bump_out]
theorem outGrows_chanEnter (r : LmpRec) (ch : Nat) (s : Dev) : OutGrows s (chanEnter r ch s) := by
  unfold chanEnter
  dsimp only
  split
  · exact (outGrows_of_out (by rw [chanPush_out, endLostRun_out])).trans (outGrows_pump _ _)
  · exact outGrows_of_out (by rw [chanLose_out, endLostRun_out])
theorem outGrows_enterChans (r : LmpRec) (s : Dev) : OutGrows s (enterChans r s) := by
  refine forS_rel OutGrows OutGrows.refl (fun _ _ _ => OutGrows.trans) _ _ (fun ch _ d => ?_) s
  split
  · exact outGrows_chanEnter r ch d
  · exact OutGrows.refl d
theorem outGrows_releaseRecs (l : List LmpRec) (shut : List Nat) (s : Dev) : OutGrows s (releaseRecs l shut s) := by
  induction l generalizing shut s with
  | nil => exact OutGrows.refl s
  | cons r l ih =>
    unfold releaseRecs
    split
    · exact ih _ s
    · exact (outGrows_mdo _ s).trans ((outGrows_enterChans _ _).trans (ih _ _))
theorem outGrows_emitRec (r : LmpRec) (s : Dev) : OutGrows s (emitRec r s) := by
  unfold emitRec
  split
  · exact (outGrows_mdo _ s).trans (outGrows_releaseRecs _ _ _)
  · exact outGrows_enterChans r s

/-! ## Handing on -/

/-- A register of the ingest block outside the ports, or of the ports below their transmit counters. -/
def ingestRegs (x : Nat) : Prop := (Reg.ING_CTRL ≤ x ∧ x < Reg.ING_PORT_TX_CNT 0) ∨ (Reg.ING_PORT_TX_CNT 4 ≤ x ∧ x < Reg.SEQ_CTRL)
/-- `b` comes from `a` by work beside ingest: its receivers, its registers and device time have not changed, and what had left the device is noted. -/
structure HandedOn (a b : Dev) : Prop where
  ing : b.ing = a.ing
  time : b.time = a.time
  regs : KeepsRegs ingestRegs a b
  out : OutGrows a b

theorem HandedOn.refl (a : Dev) : HandedOn a a := ⟨rfl, rfl, KeepsRegs.refl _ a, OutGrows.refl a⟩
theorem HandedOn.trans {a b c : Dev} (h : HandedOn a b) (k : HandedOn b c) : HandedOn a c :=
  ⟨k.ing.trans h.ing, k.time.trans h.time, h.regs.trans k.regs, h.out.trans k.out⟩
theorem HandedOn.strm {a b : Dev} (h : HandedOn a b) (st : Nat) : strm b st = strm a st := strm_congr h.ing st
theorem besideOutput_of_ingestRegs {x : Nat} (h : ingestRegs x) : besideOutput x := by
  simp only [ingestRegs, Reg.ING_CTRL, Reg.ING_PORT_TX_CNT] at h
  simp only [besideOutput, Reg.ING_PORT_TX_CNT]
  omega
theorem Emitted.handedOn {a b : Dev} (h : Emitted a b) (hout : OutGrows a b) : HandedOn a b :=
  ⟨h.rest.ing, h.rest.time, h.regs.mono fun _ => besideOutput_of_ingestRegs, hout⟩
theorem handedOn_wrN {a : Nat} (n : Nat) (s : Dev) (h : Reg.SEQ_CTRL ≤ a) : HandedOn s (wrN a n s) := by
  refine ⟨wrN_ing .., wrN_time .., keepsRegs_wrN n s ?_, outGrows_of_out (wrN_out ..)⟩
  simp only [ingestRegs, Reg.SEQ_CTRL, Reg.ING_PORT_TX_CNT] at h ⊢
  omega
theorem handedOn_mdo (q : Mdo) (s : Dev) : HandedOn s { s with mdo := q } := (emitted_mdo q s).handedOn (outGrows_mdo q s)
theorem handedOn_emitRec (r : LmpRec) (s : Dev) : HandedOn s (emitRec r s) := (emitted_emitRec r s).handedOn (outGrows_emitRec r s)
theorem handedOn_gap (st : Nat) (why : GapReason) (cove cls frames first last : Nat) (untr : Bool) (s : Dev) :
    HandedOn s (gap st why cove cls frames first last untr s) := (handedOn_mdo _ s).trans (handedOn_emitRec _ _)
theorem handedOn_gap1 (st : Nat) (why : GapReason) (cove cls capture : Nat) (untr : Bool) (s : Dev) : HandedOn s (gap1 st why cove cls capture untr s) :=
  handedOn_gap ..

/-! ## The codec's queues (R220) -/

theorem handedOn_modCtx (key : Nat) (f : CdcCtx → CdcCtx) (s : Dev) : HandedOn s (modCtx key f s) :=
  ⟨rfl, rfl, keepsRegs_of_regs _ rfl, outGrows_of_out rfl⟩
theorem handedOn_pci (q : Pci) (s : Dev) : HandedOn s { s with pci := q } := ⟨rfl, rfl, keepsRegs_of_regs _ rfl, outGrows_of_out rfl⟩
theorem handedOn_loseUnit (key : Nat) (why : GapReason) (a : Au) (s : Dev) : HandedOn s (loseUnit key why a s) := by
  have hcount (d : Dev) : HandedOn d (ctxCount Reg.CDC_CTX_LOST_CNT key 1 d) :=
    handedOn_wrN _ d (by simp only [Reg.SEQ_CTRL, Reg.CDC_CTX_LOST_CNT, engBase]; omega)
  cases h : a.post with
  | none =>
    simp only [loseUnit, h, id_eq]
    exact (handedOn_gap1 ..).trans (hcount _)
  | some p =>
    simp only [loseUnit, h]
    exact (handedOn_pci _ s).trans ((handedOn_gap1 ..).trans (hcount _))
theorem handedOn_headStart (key n : Nat) (s : Dev) : HandedOn s (headStart key n s) := by
  induction n generalizing s with
  | zero => exact HandedOn.refl s
  | succ n ih =>
    unfold headStart
    dsimp only
    split
    · exact HandedOn.refl s
    · split
      · exact (handedOn_modCtx ..).trans ((handedOn_loseUnit ..).trans (ih _))
      · split
        · exact HandedOn.refl s
        · split
          · exact (handedOn_modCtx ..).trans ((handedOn_modCtx ..).trans (handedOn_pci _ _))
          · exact (handedOn_modCtx ..).trans (handedOn_modCtx ..)
theorem handedOn_cdcReport (bit e : Nat) (s : Dev) (h : bit < 32) : HandedOn s (cdcReport bit e s) := by
  have hreg : eventReg (0x0800 + bit) e = some (Reg.CDC_EVENT e) := by
    rw [eventReg, show (0x0800 + bit) / 256 = 8 by omega]
    rfl
  refine ⟨raise_ing .., raise_time .., (sameRegs_raiseFor 0 0xFFFF s hreg).keeps ?_, outGrows_of_out (raise_out ..)⟩
  simp only [List.mem_singleton, forall_eq, ingestRegs, Reg.CDC_EVENT, engBase, Reg.SEQ_CTRL, Reg.ING_PORT_TX_CNT]
  omega
/-- A full queue loses its oldest unit (R220). -/
def queueRoom (key : Nat) (s : Dev) : Dev :=
  if 8 ≤ (ctxOf s key).queue.length then match (ctxOf s key).queue with
    | old :: _ => s |> popUnit key |> loseUnit key .dropped old |> cdcReport 9 (key / 32)
    | [] => s
  else s
theorem handedOn_queueRoom (key : Nat) (s : Dev) : HandedOn s (queueRoom key s) := by
  unfold queueRoom
  split
  · split
    · exact (handedOn_modCtx ..).trans ((handedOn_loseUnit ..).trans (handedOn_cdcReport 9 _ _ (by decide)))
    · exact HandedOn.refl s
  · exact HandedOn.refl s
/-- A unit is dropped with a gap record, or joins its queue. -/
theorem enqueueUnit_cases (st : Nat) (a : Au) (s : Dev) : enqueueUnit st a s = gap1 st .dropped 0xFF 0xFF a.cap a.untr s ∨
    ∃ key, enqueueUnit st a s = headNow key (modCtx key (fun c => { c with queue := c.queue ++ [a] }) (queueRoom key s)) := by
  unfold enqueueUnit
  dsimp only
  split
  · exact .inl rfl
  · exact .inr ⟨_, rfl⟩
theorem handedOn_enqueueUnit (st : Nat) (a : Au) (s : Dev) : HandedOn s (enqueueUnit st a s) := by
  rcases enqueueUnit_cases st a s with h | ⟨key, h⟩
  · rw [h]
    exact handedOn_gap1 ..
  · rw [h]
    exact (handedOn_queueRoom key s).trans ((handedOn_modCtx ..).trans (handedOn_headStart ..))

/-! ## Queries (R314) -/

theorem handedOn_kv (k : Kv) (s : Dev) : HandedOn s { s with kv := k } := ⟨rfl, rfl, keepsRegs_of_regs _ rfl, outGrows_of_out rfl⟩
theorem PageWork.handedOn {q : Nat} {a b : Dev} (h : PageWork q a b) : HandedOn a b := by
  obtain ⟨⟨r, m, q0, q1, h0, h1, hb⟩, hregs⟩ := h
  refine ⟨by rw [hb], by rw [hb], hregs.mono fun x hx => ?_, outGrows_of_out (by rw [hb])⟩
  simp only [ingestRegs, Reg.ING_PORT_TX_CNT, Reg.SEQ_CTRL] at hx
  simp only [besidePages, belowCounts, Reg.KVF_FREE0_CNT, Reg.SEQ_TABLE]
  omega
theorem handedOn_sqPutState (q st : Nat) (s : Dev) : HandedOn s (sqPutState q st s) :=
  (handedOn_wrN _ s (by simp only [Reg.SEQ_CTRL, Reg.SEQ_TABLE]; omega)).trans (handedOn_wrN _ _ (by decide))
theorem handedOn_leaveStep (q : Nat) (s : Dev) : HandedOn s (leaveStep q s) :=
  (handedOn_kv _ s).trans (forS_rel HandedOn HandedOn.refl (fun _ _ _ => HandedOn.trans) _ _ (fun p _ d => (pageWork_decref q p.new_ d).handedOn) _)
theorem handedOn_closeText (q : Nat) (s : Dev) : HandedOn s (closeText q s) := by
  unfold closeText textRec
  exact handedOn_emitRec _ s
theorem handedOn_freeSeq (q : Nat) (s : Dev) : HandedOn s (freeSeq q s) :=
  (freeSeq_eq q s) ▸ (handedOn_kv _ s).trans (handedOn_sqPutState ..)
theorem handedOn_endSeq (q : Nat) (s : Dev) : HandedOn s (endSeq q s) := by
  unfold endSeq
  split
  · exact (handedOn_kv _ s).trans ((handedOn_leaveStep ..).trans ((pageWork_dropPages q _).handedOn.trans (handedOn_sqPutState ..)))
  · exact (handedOn_leaveStep ..).trans ((pageWork_dropPages q _).handedOn.trans ((handedOn_closeText ..).trans (handedOn_freeSeq ..)))
theorem handedOn_closeQueries (st : Nat) (s : Dev) : HandedOn s (closeQueries st s) :=
  forS_rel HandedOn HandedOn.refl (fun _ _ _ => HandedOn.trans) _ _ (fun q _ d => handedOn_endSeq q d) s

end Sys2Proof.Machine
end

section
/-! SUPPORT. The jitter buffer (R257, R262, R263): what leaves it, and what moving its packets keeps. -/
set_option autoImplicit false
namespace Sys2Proof.Machine
open Sys2Proof

/-! ## Packets that are moved -/

/-- `b` comes from `a` by work on the memory of stream `st`'s jitter buffer and beside ingest: of the receiver only the places of its packets have changed. -/
structure Relaid (st : Nat) (a b : Dev) : Prop where
  time : b.time = a.time
  regs : KeepsRegs ingestRegs a b
  out : OutGrows a b
  strm : ∃ ps w, strm b st = { strm a st with pkts := ps, wpos := w } ∧ ps.map (·.ts) = (strm a st).pkts.map (·.ts)

theorem Relaid.trans {st : Nat} {a b c : Dev} (h : Relaid st a b) (k : Relaid st b c) : Relaid st a c := by
  obtain ⟨htime, hregs, hout, ps, w, hstrm, hts⟩ := h
  obtain ⟨ktime, kregs, kout, ps', w', kstrm, kts⟩ := k
  refine ⟨ktime.trans htime, hregs.trans kregs, hout.trans kout, ps', w', by rw [kstrm, hstrm], kts.trans ?_⟩
  rw [hstrm]
  exact hts
theorem HandedOn.relaid {a b : Dev} (h : HandedOn a b) (st : Nat) : Relaid st a b :=
  ⟨h.time, h.regs, h.out, (Machine.strm a st).pkts, (Machine.strm a st).wpos, h.strm st, rfl⟩
theorem handedOn_wrBytes (a : Nat) (l : List Byte) (s : Dev) : HandedOn s (wrBytes .dram a l s) := by
  obtain ⟨m, hm⟩ := wrBytes_dram_only a l s
  rw [hm]
  exact ⟨rfl, rfl, keepsRegs_of_regs _ rfl, outGrows_of_out rfl⟩
/-- One packet moves to the end of those moved before it. -/
def moveDown (st : Nat) (s : Dev) (x : List JPkt × Nat × Dev) (p : JPkt) : List JPkt × Nat × Dev :=
  (x.1 ++ [{ p with addr := x.2.1 }], x.2.1 + p.len, wrBytes .dram (jbBase s st + x.2.1) (pktBytes s st p) x.2.2)
theorem compact_eq (st : Nat) (s : Dev) : compact st s = setStrm st
    { strm s st with pkts := ((strm s st).pkts.foldl (moveDown st s) ([], 0, s)).1, wpos := ((strm s st).pkts.foldl (moveDown st s) ([], 0, s)).2.1 }
    ((strm s st).pkts.foldl (moveDown st s) ([], 0, s)).2.2 := rfl
theorem foldl_moveDown (st : Nat) (s : Dev) (ps : List JPkt) (x : List JPkt × Nat × Dev) :
    (ps.foldl (moveDown st s) x).1.map (·.ts) = x.1.map (·.ts) ++ ps.map (·.ts) ∧ HandedOn x.2.2 (ps.foldl (moveDown st s) x).2.2 := by
  induction ps generalizing x with
  | nil => exact ⟨(List.append_nil _).symm, HandedOn.refl _⟩
  | cons p ps ih =>
    obtain ⟨hts, hmoved⟩ := ih (moveDown st s x p)
    refine ⟨?_, (handedOn_wrBytes ..).trans hmoved⟩
    rw [List.foldl_cons, hts]
    simp only [moveDown, List.map_append, List.map_cons, List.map_nil, List.append_assoc, List.cons_append, List.nil_append]
theorem relaid_compact (st : Nat) (s : Dev) : Relaid st s (compact st s) := by
  obtain ⟨hts, hmoved⟩ := foldl_moveDown st s (strm s st).pkts ([], 0, s)
  rw [compact_eq]
  exact ⟨hmoved.time, hmoved.regs.trans (keepsRegs_setStrm _ st _ _), hmoved.out.trans (outGrows_of_out rfl), _, _, strm_setStrm .., hts⟩
theorem relaid_layUnit (st : Nat) (l : List Byte) (s : Dev) : Relaid st s (layUnit st l s).2 := by
  have hwrite (a : Nat) (d : Dev) : Relaid st d (wrBytes .dram a l d) := (handedOn_wrBytes a l d).relaid st
  unfold layUnit
  dsimp only
  split
  · exact hwrite _ s
  · split
    · exact (relaid_compact st s).trans (hwrite _ _)
    · exact relaid_compact st s
theorem relaid_placePkt (st len : Nat) (s : Dev) : Relaid st s (placePkt st len s).2 := by
  unfold placePkt
  dsimp only
  split
  · exact (HandedOn.refl s).relaid st
  · exact relaid_compact st s

/-! ## The head leaves (R257, R262) -/

theorem sameRegs_showQueued (st : Nat) (s : Dev) : SameRegs [Reg.ING_S_STATE st] s (showQueued st s) := sameRegs_wf _ 10 16 _ s
theorem strm_showQueued (st : Nat) (s : Dev) (x : Nat) : strm (showQueued st s) x = strm s x := rfl
theorem strm_sCount (f : Nat → Nat) (st n : Nat) (s : Dev) (x : Nat) : strm (sCount f st n s) x = strm s x := rfl
/-- The receiver once unit `u` with the packets `ps` has left it at `t`. -/
def unitTaken (q : Strm) (u : JUnit) (ps : List JPkt) (t : Nat) : Strm :=
  { q with pkts := q.pkts.filter fun x => x.ts != u.ts, units := q.units.filter fun x => x.ts != u.ts, lastSeq := ps.getLast?.map (·.seq),
           endSeq := (unitEnd q ps).1, lastTs := u.ts, lastCap := some (asTime u.cap), lastRel := t, phs := [], quiet := none }
theorem takeHead_unit (st : Nat) (u : JUnit) (ps : List JPkt) (s : Dev) : (takeHead st (.unit u ps) s).2 = showQueued st
    (sCount Reg.ING_S_AU_CNT st (b2n (unitWhole (strm s st) ps)) (sCount Reg.ING_S_LOST_CNT st (missingOf (strm s st) ps)
      (setStrm st (unitTaken (strm s st) u ps (now s)) s))) := rfl
/-- The receiver once a placeholder has left it at `t`. -/
def placeholderTaken (q : Strm) (ts : Int) (cap t : Nat) : Strm := { q with phs := q.phs ++ [ts], lastCap := some cap, lastRel := t }
theorem takeHead_placeholder (st : Nat) (ts : Int) (u : JUnit) (s : Dev) : (takeHead st (.ph ts u) s).2 =
    sCount Reg.ING_S_PH_CNT st 1 (setStrm st (placeholderTaken (strm s st) ts (asTime (ticksNs ts + u.o + stCtOfs s st)) (now s)) s) := rfl
/-- What left goes to the codec at once, or once its bytes are laid in the region (R256). -/
theorem releaseJ_cases (st : Nat) (h : JHead) (s : Dev) : (∃ a, releaseJ st h s = enqueueUnit st a (takeHead st h s).2) ∨
    ∃ a l, releaseJ st h s = enqueueUnit st a (layUnit st l (takeHead st h s).2).2 :=
  (ite_eq_or_eq _ _ _).imp (fun h => ⟨_, h⟩) (fun h => ⟨_, _, h⟩)
theorem relaid_releaseJ (st : Nat) (h : JHead) (s : Dev) : Relaid st (takeHead st h s).2 (releaseJ st h s) := by
  rcases releaseJ_cases st h s with ⟨a, ha⟩ | ⟨a, l, ha⟩
  · rw [ha]
    exact (handedOn_enqueueUnit ..).relaid st
  · rw [ha]
    exact (relaid_layUnit ..).trans ((handedOn_enqueueUnit ..).relaid st)
theorem releaseJ_placeholder (st : Nat) (ts : Int) (u : JUnit) (s : Dev) :
    releaseJ st (.ph ts u) s = enqueueUnit st (takeHead st (.ph ts u) s).1 (takeHead st (.ph ts u) s).2 := rfl
theorem ingestRegs_stream {a : Nat} (h : Reg.ING_S_STATE 0 ≤ a) (h' : a < Reg.ING_TABLE 0 0) : ingestRegs a := by
  simp only [Reg.ING_S_STATE, Reg.ING_TABLE] at h h'
  simp only [ingestRegs, Reg.ING_PORT_TX_CNT, Reg.SEQ_CTRL]
  omega
theorem releaseJ_unit_effect {st : Nat} (u : JUnit) (ps : List JPkt) (s : Dev) (hst : st < 512) {d : Dev} (hd : d = releaseJ st (.unit u ps) s) :
    d.time = s.time ∧ (strm d st).lastTs = u.ts ∧ (∀ x ∈ (strm d st).pkts, x.ts ≠ u.ts) ∧
      rdN d (Reg.ING_S_AU_CNT st) = (rdN s (Reg.ING_S_AU_CNT st) + b2n (unitWhole (strm s st) ps)) % 2 ^ 32 := by
  have hne : Reg.ING_S_AU_CNT st ∉ [Reg.ING_S_STATE st] := by simp only [Reg.ING_S_AU_CNT, Reg.ING_S_STATE, List.mem_singleton]; omega
  have hlost : Reg.ING_S_AU_CNT st ≠ Reg.ING_S_LOST_CNT st := by simp only [Reg.ING_S_AU_CNT, Reg.ING_S_LOST_CNT]; omega
  obtain ⟨htime, hregs, -, ps', w, hstrm, hts⟩ := relaid_releaseJ st (.unit u ps) s
  have htaken : strm (takeHead st (.unit u ps) s).2 st = unitTaken (strm s st) u ps (now s) := by
    rw [takeHead_unit, strm_showQueued, strm_sCount, strm_sCount, strm_setStrm]
  rw [htaken] at hstrm hts
  subst hd
  refine ⟨htime, congrArg Strm.lastTs hstrm, fun x hx => ?_, ?_⟩
  · have hmem : x.ts ∈ (unitTaken (strm s st) u ps (now s)).pkts.map (·.ts) := by
      rw [← hts]
      exact List.mem_map_of_mem (by rwa [hstrm] at hx)
    obtain ⟨y, hy, hyx⟩ := List.mem_map.mp hmem
    have hother := (List.mem_filter.mp hy).2
    rw [← hyx]
    simpa using hother
  · rw [hregs _ (ingestRegs_stream (by simp only [Reg.ING_S_STATE, Reg.ING_S_AU_CNT]; omega) (by simp only [Reg.ING_TABLE, Reg.ING_S_AU_CNT]; omega)),
      takeHead_unit, sameRegs_showQueued _ _ _ hne, sCount, rdN_bump_same, sCount, rdN_bump_other _ _ hlost]
    rfl
theorem releaseJ_placeholder_effect {st : Nat} (ts : Int) (u : JUnit) (s : Dev) (hst : st < 512) {d : Dev} (hd : d = releaseJ st (.ph ts u) s) :
    d.time = s.time ∧ rdN d (Reg.ING_S_PH_CNT st) = (rdN s (Reg.ING_S_PH_CNT st) + 1) % 2 ^ 32 ∧ (strm d st).pkts = (strm s st).pkts := by
  have hon := handedOn_enqueueUnit st (takeHead st (.ph ts u) s).1 (takeHead st (.ph ts u) s).2
  rw [releaseJ_placeholder] at hd
  subst hd
  refine ⟨hon.time, ?_, ?_⟩
  · rw [hon.regs _ (ingestRegs_stream (by simp only [Reg.ING_S_STATE, Reg.ING_S_PH_CNT]; omega) (by simp only [Reg.ING_TABLE, Reg.ING_S_PH_CNT]; omega)),
      takeHead_placeholder, sCount, rdN_bump_same]
    rfl
  · rw [hon.strm, takeHead_placeholder, strm_sCount, strm_setStrm]
    rfl
theorem jbRelease_some {st : Nat} {s : Dev} {h : JHead} (hhead : jHead s st = some h) :
    jbRelease st s = releaseJ st h (waitUntil (releaseTime s st h) s) := by
  simp only [jbRelease, hhead]
theorem jbRelease_none {st : Nat} {s : Dev} (hhead : jHead s st = none) : jbRelease st s = s := by
  simp only [jbRelease, hhead]

end Sys2Proof.Machine
end

section
/-! SUPPORT. Media packets (R253, R255, R263, R265): what a packet's reception shows and leaves, and the first packet of a receiver. -/
set_option autoImplicit false
namespace Sys2Proof.Machine
open Sys2Proof

/-! ## The registers of the streams -/

/-- The registers of the streams lie between the ports and the stream table. -/
def streamRegs (x : Nat) : Prop := Reg.ING_S_STATE 0 ≤ x ∧ x < Reg.ING_TABLE 0 0

theorem SameRegs.streamEntry {l : List Nat} {a b : Dev} (h : SameRegs l a b) (hl : ∀ x ∈ l, streamRegs x) (st : Nat) : SameEntry st a b :=
  h.entry (fun x hx => (hl x hx).2) st
/-- What a requester reaches does not depend on the streams' registers. -/
theorem SameRegs.dramReach {l : List Nat} {a b : Dev} (h : SameRegs l a b) (hl : ∀ x ∈ l, streamRegs x) (src x n : Nat) :
    dramReach b src x n = dramReach a src x n := by
  have hkeep (y : Nat) (hy : ¬streamRegs y) : y ∉ l := fun hm => hy (hl y hm)
  have hrf (y : Nat) (hy : ¬streamRegs y) (lo len : Nat) : rf b y lo len = rf a y lo len := rf_of_same h (hkeep y hy) lo len
  have htst (y : Nat) (hy : ¬streamRegs y) (i : Nat) : tst b y i = tst a y i := tst_of_same h (hkeep y hy) i
  have hregion (d y : Nat) : regionMap b d y = regionMap a d y := by
    have hbase (r : Nat) (hr : r < 16) : ¬streamRegs (Reg.DMC_RGN_BASE d r) := by
      simp only [streamRegs, Reg.ING_S_STATE, Reg.ING_TABLE, Reg.DMC_RGN_BASE, dieBase, dieHalf]
      omega
    have hcfg (r : Nat) (hr : r < 16) : ¬streamRegs (Reg.DMC_RGN_CFG d r) := by
      simp only [streamRegs, Reg.ING_S_STATE, Reg.ING_TABLE, Reg.DMC_RGN_CFG, dieBase, dieHalf]
      omega
    unfold regionMap
    rw [List.find?_congr (l := List.range 16) fun r hr => by
      rw [htst _ (hcfg r (List.mem_range.mp hr)), hrf _ (hbase r (List.mem_range.mp hr)), hrf _ (hcfg r (List.mem_range.mp hr))]]
    refine Option.map_congr fun r hr => hrf _ (hcfg r (List.mem_range.mp (List.mem_of_find?_eq_some hr))) 14 2
  have hburst (y : Nat) : burstReach b src y = burstReach a src y := by
    have hup (k : Nat) : chUp b k = chUp a k := htst _ (by
      simp only [streamRegs, chStatus, Reg.ING_S_STATE, Reg.ING_TABLE, Reg.DMC_CH_STATUS, dieBase, dieHalf]
      omega) 0
    have hlink (d : Nat) (i : Nat) : tst b (Reg.ARB_DLINK_DOWN d) i = tst a (Reg.ARB_DLINK_DOWN d) i := htst _ (by
      simp only [streamRegs, Reg.ING_S_STATE, Reg.ING_TABLE, Reg.ARB_DLINK_DOWN, dieBase, dieHalf]
      omega) i
    have hctrl (d : Nat) : tst b (Reg.DMC_CTRL d) 0 = tst a (Reg.DMC_CTRL d) 0 := htst _ (by
      simp only [streamRegs, Reg.ING_S_STATE, Reg.ING_TABLE, Reg.DMC_CTRL, dieBase, dieHalf]
      omega) 0
    have hdom (d : Nat) (hd : d < 2) : domRuns b (97 + d) = domRuns a (97 + d) := by
      rw [domRuns, domRuns, hrf _ (by simp only [streamRegs, Reg.ING_S_STATE, Reg.ING_TABLE, Reg.PWR_DOM_STATE]; omega)]
    unfold burstReach crossesDown
    simp only [hup, hlink, hctrl, hregion, hdom _ (Nat.mod_lt _ (by decide))]
  rw [Machine.dramReach, Machine.dramReach, funext hburst]

/-! ## A packet ends a silence (R265) -/

theorem heard_effect {st : Nat} (s : Dev) : SameRegs [Reg.ING_S_STATE st] s (heard st s) ∧ SameMem s (heard st s) ∧ (heard st s).out = s.out ∧
    strm (heard st s) st = { strm s st with lastPkt := now s, silent := false } ∧
    tst (heard st s) (Reg.ING_S_STATE st) 4 = tst s (Reg.ING_S_STATE st) 4 := by
  unfold heard
  dsimp only
  split
  · exact ⟨sameRegs_putSState st _ _, (sameMem_setStrm ..).trans (sameMem_wf ..), wf_out .., strm_setStrm .., tst_wf_disj _ 0 3 _ 4 _ (by decide) (by decide)⟩
  · exact ⟨sameRegs_of_regs _ rfl, sameMem_setStrm .., rfl, strm_setStrm .., rfl⟩

theorem heard_entry {st : Nat} (s : Dev) (hst : st < 512) : SameEntry st s (heard st s) :=
  (heard_effect s).1.entry (by simpa using streamState_lt_table hst) st
theorem ssrcOf_heard {st : Nat} (s : Dev) (hst : st < 512) : ssrcOf (heard st s) st = ssrcOf s st := by
  obtain ⟨hregs, -, -, -, hknown⟩ := heard_effect (st := st) s
  have hne : Reg.ING_S_SSRC st ∉ [Reg.ING_S_STATE st] := by simp only [Reg.ING_S_SSRC, Reg.ING_S_STATE, List.mem_singleton]; omega
  simp only [ssrcOf, (heard_entry s hst).stF, hknown, hregs _ hne]

/-! ## What becomes of a packet (R253, R255) -/

section Media
variable {st : Nat} {p : RtpPkt} {s : Dev} (hst : st < 512) (hport : portRuns s (stPort s st) = true) (hvalid : stValid s st = true)
  (hmatch : ingMatches s = true)
include hport

theorem rtpMediaPacket_unmatched (h : stValid s st = false ∨ ingMatches s = false) :
    rtpMediaPacket st p s = bump (Reg.ING_PORT_NOMATCH_CNT (stPort s st)) 1 s := by
  rcases h with h | h <;> simp only [rtpMediaPacket, hport, h, Bool.not_true, Bool.not_false, Bool.or_true, Bool.true_or, Bool.false_eq_true, if_false, if_true]

include hst hvalid hmatch

theorem rtpMediaPacket_foreign (h : p.ver ≠ 2 ∨ p.pt ≠ stF s st 0 16 7) : rtpMediaPacket st p s = sCount Reg.ING_S_DROP_CNT st 1 (heard st s) := by
  rw [← (heard_entry s hst).stF] at h
  simp only [rtpMediaPacket, hport, hvalid, hmatch, Bool.not_true, Bool.or_false, Bool.false_eq_true, if_false, if_pos h]

variable (hver : p.ver = 2) (hpt : p.pt = stF s st 0 16 7)
include hver hpt

/-- The stream waits for its RESYNC: another source than the learned one sends (R255). -/
def conflictHeld (st : Nat) (s : Dev) : Dev := s |> modStrm st (fun q => { q with hold := true }) |> putSState st 5 |> ingFault 2 3 st
theorem rtpMediaPacket_conflict {x : Nat} (hssrc : ssrcOf s st = some x) (hne : x ≠ p.ssrc % 2 ^ 32) : rtpMediaPacket st p s =
    if stF s st 2 0 32 ≠ 0 ∨ (strm s st).hold = true then sCount Reg.ING_S_DROP_CNT st 1 (heard st s)
    else conflictHeld st (sCount Reg.ING_S_DROP_CNT st 1 (heard st s)) := by
  obtain ⟨-, -, -, hstrm, -⟩ := heard_effect (st := st) s
  have hentry : SameEntry st s (sCount Reg.ING_S_DROP_CNT st 1 (heard st s)) := (heard_entry s hst).trans
    ((sameRegs_bump _ 1 _).entry (by simp only [Reg.ING_S_DROP_CNT, Reg.ING_TABLE, List.mem_singleton, forall_eq]; omega) st)
  have hhold : (strm (sCount Reg.ING_S_DROP_CNT st 1 (heard st s)) st).hold = (strm s st).hold := by rw [strm_sCount, hstrm]
  have hfits : ¬(p.ver ≠ 2 ∨ p.pt ≠ stF (heard st s) st 0 16 7) := by
    rw [(heard_entry s hst).stF]
    exact not_or.mpr ⟨not_not_intro hver, not_not_intro hpt⟩
  simp only [rtpMediaPacket, hport, hvalid, hmatch, ssrcOf_heard s hst, hssrc, hentry.stF, hhold, conflictHeld, Bool.not_true, Bool.or_false,
    Bool.false_eq_true, if_false, if_neg hfits, if_neg hne]
theorem rtpMediaPacket_own (hssrc : ssrcOf s st = some (p.ssrc % 2 ^ 32)) :
    rtpMediaPacket st p s = acceptRtp st p (wrN (Reg.ING_S_SSRC st) (p.ssrc % 2 ^ 32) (heard st s)) := by
  have hfits : ¬(p.ver ≠ 2 ∨ p.pt ≠ stF (heard st s) st 0 16 7) := by
    rw [(heard_entry s hst).stF]
    exact not_or.mpr ⟨not_not_intro hver, not_not_intro hpt⟩
  simp only [rtpMediaPacket, hport, hvalid, hmatch, ssrcOf_heard s hst, hssrc, Bool.not_true, Bool.or_false,
    Bool.false_eq_true, if_false, if_neg hfits, if_true]

end Media

/-- A packet that is counted as dropped leaves the receiver's packets and the memories. -/
theorem dropped_effect {st : Nat} (s : Dev) : rdN (sCount Reg.ING_S_DROP_CNT st 1 (heard st s)) (Reg.ING_S_DROP_CNT st) = (rdN s (Reg.ING_S_DROP_CNT st) + 1) % 2 ^ 32 ∧
    (strm (sCount Reg.ING_S_DROP_CNT st 1 (heard st s)) st).pkts = (strm s st).pkts ∧ SameMem s (sCount Reg.ING_S_DROP_CNT st 1 (heard st s)) := by
  obtain ⟨hregs, hmem, -, hstrm, -⟩ := heard_effect (st := st) s
  have hne : Reg.ING_S_DROP_CNT st ∉ [Reg.ING_S_STATE st] := by simp only [Reg.ING_S_DROP_CNT, Reg.ING_S_STATE, List.mem_singleton]; omega
  exact ⟨by rw [sCount, rdN_bump_same, hregs _ hne], by rw [strm_sCount, hstrm], hmem.trans (sameMem_wrN ..)⟩
theorem conflictHeld_effect {st : Nat} (s : Dev) : sState (conflictHeld st s) st = 5 ∧ tst (conflictHeld st s) Reg.ING_EVENT 2 = true ∧
    rdN (conflictHeld st s) (Reg.ING_S_DROP_CNT st) = rdN s (Reg.ING_S_DROP_CNT st) ∧ (strm (conflictHeld st s) st).pkts = (strm s st).pkts ∧
    SameMem s (conflictHeld st s) := by
  have hne : Reg.ING_S_DROP_CNT st ∉ [Reg.ING_S_STATE st] := by simp only [Reg.ING_S_DROP_CNT, Reg.ING_S_STATE, List.mem_singleton]; omega
  obtain ⟨hevent, -, hrest⟩ := ingFault_effect 3 st (putSState st 5 (modStrm st (fun q => { q with hold := true }) s)) (show 2 < 32 by decide)
  refine ⟨?_, hevent, ?_, ?_, ((sameMem_modStrm ..).trans (sameMem_wf ..)).trans hrest.sameMem⟩
  · rw [conflictHeld, sState_ingFault _ _ _ (by decide), sState_putSState _ _ (by decide)]
  · rw [conflictHeld, sameRegs_ingFault_above _ _ _ (by decide) (by simp only [Reg.ING_PORT_CFG, Reg.ING_S_DROP_CNT]; omega), sameRegs_putSState _ _ _ _ hne]
    rfl
  · rw [conflictHeld, hrest.strm, strm_putSState, strm_modStrm]

/-! ## A receiver's first packet (R255, R257, R263) -/

/-- A receiver that holds nothing, has released nothing and has no offset. -/
structure EmptyReceiver (q : Strm) : Prop where
  pkts : q.pkts = []
  units : q.units = []
  lastSeq : q.lastSeq = none
  discard : q.discard = []
  o : q.o = none

theorem clearOf_nil {size len a : Nat} : clearOf size len a [] = decide (a + len ≤ size) := Bool.and_true _
/-- A hole holds what it is for. -/
theorem holeFor_fits {size len w a : Nat} {l : List (Nat × Nat)} (h : holeFor size len w l = some a) : a + len ≤ size := by
  have hclear := List.find?_some h
  rw [clearOf, Bool.and_eq_true] at hclear
  exact of_decide_eq_true hclear.1
theorem holeFor_empty {size len : Nat} (w : Nat) (h : len ≤ size) : (holeFor size len w []).isSome = true := by
  rw [holeFor, List.find?_isSome]
  exact ⟨0, by simp, by rw [clearOf_nil, Nat.zero_add]; exact decide_eq_true h⟩
/-- Where nothing is stored a packet no longer than the region has a place, without anything moved. -/
theorem placePkt_empty {st len : Nat} {s : Dev} (hpkts : (strm s st).pkts = []) (h : len ≤ jbBytes s st) :
    ∃ a, placePkt st len s = (a, s) ∧ a + len ≤ jbBytes s st := by
  have hplaces : pktPlaces (strm s st) = [] := by rw [pktPlaces, hpkts, List.map_nil]
  obtain ⟨b, hb⟩ := Option.isSome_iff_exists.mp (holeFor_empty (strm s st).wpos h)
  unfold placePkt
  dsimp only
  rw [hplaces, List.nil_append, hb]
  cases hhole : holeFor (jbBytes s st) len (strm s st).wpos (unitPlaces s st) with
  | none => exact ⟨b, rfl, holeFor_fits hb⟩
  | some a => exact ⟨a, rfl, holeFor_fits hhole⟩
theorem makeRoom_empty {st len : Nat} {s : Dev} (n : Nat) (hpkts : (strm s st).pkts = []) (h : len ≤ jbBytes s st) : makeRoom st len n s = s := by
  have hfits : sumN ((strm s st).pkts.map (·.len)) + len ≤ jbBytes s st := by
    rw [hpkts, List.map_nil, show sumN [] = 0 from rfl, Nat.zero_add]
    exact h
  cases n with
  | zero => rfl
  | succ n => rw [makeRoom, if_pos hfits]
/-- A packet entered, its bytes written; `tsMax` is the largest timestamp since. -/
def pktEntered (st : Nat) (k : JPkt) (tsMax : Option Int) (l : List Byte) (s : Dev) : Dev :=
  let q := strm s st
  s |> setStrm st { q with pkts := insertBy (fun a b => decide (a.seq < b.seq)) k q.pkts, wpos := k.addr + k.len, tsMax }
    |> wrBytes .dram (jbBase s st + k.addr) l |> sCount Reg.ING_S_RX_CNT st 1

section First
variable {st seq : Nat} {ts : Int} {p : RtpPkt} {oc : Bool × Bool} {s : Dev} (hempty : EmptyReceiver (strm s st))
include hempty

/-- The first unit takes its offset from the report or the packet's arrival: there is none to step from (R259). -/
theorem nextOffset_empty : (nextOffset s st ts).2 = false := by rw [nextOffset, hempty.o]
theorem beginUnit_empty : SameRegs [Reg.ING_S_STATE st, Reg.ING_S_OFS_LO st + 4, Reg.ING_S_OFS_LO st] s (beginUnit st ts s) ∧
    SameMem s (beginUnit st ts s) ∧ (strm (beginUnit st ts s) st).pkts = [] ∧ (strm (beginUnit st ts s) st).units.length = 1 := by
  unfold beginUnit
  dsimp only
  rw [nextOffset_empty hempty, Bool.false_and, whenS, if_neg Bool.false_ne_true, strm_showQueued, strm_congr (wr64_ing ..), strm_setStrm]
  have hoffset (q : Strm) (n : Nat) : SameRegs [Reg.ING_S_OFS_LO st + 4, Reg.ING_S_OFS_LO st] s (wr64 (Reg.ING_S_OFS_LO st) n (setStrm st q s)) :=
    SameRegs.trans (sameRegs_of_regs _ rfl) (sameRegs_wr64 _ n _)
  exact ⟨SameRegs.append (hoffset _ _) (sameRegs_showQueued st _), ((sameMem_setStrm ..).trans (sameMem_wr64 ..)).trans (sameMem_wf ..), hempty.pkts,
    by rw [hempty.units]; rfl⟩

theorem storePkt_empty (hmode : stF s st 0 14 1 = 0) (hlen : p.payload.length ≤ jbBytes s st)
    (hreach : dramReach s (stPort s st / 2) (jbBase s st) (jbBytes s st) = none) (hbegun : SameEntry st s (beginUnit st ts s)) :
    ∃ k m, storePkt st seq ts p oc s = pktEntered st k m p.payload (beginUnit st ts s) ∧ k.len = p.payload.length ∧ k.addr + k.len ≤ jbBytes s st := by
  have hlate : isLate (strm s st) seq ts = false := by rw [isLate, hempty.lastSeq]
  have hbytes : jbBytes (beginUnit st ts s) st = jbBytes s st := congrArg (· * 4096) (hbegun.stF 6 0 20)
  obtain ⟨a, hplace, hfits⟩ := placePkt_empty (beginUnit_empty (ts := ts) hempty).2.2.1 (hlen.trans_eq hbytes.symm)
  have hstored : ∃ m, storePkt st seq ts p oc s =
      pktEntered st { seq, ts, marker := p.marker, opens := oc.1, closes := oc.2, addr := a, len := p.payload.length } m p.payload (beginUnit st ts s) := by
    simp only [storePkt, hlate, hempty.pkts, hempty.units, hempty.discard, hmode, makeRoom_empty _ hempty.pkts hlen, hreach, hplace, List.any_nil,
      List.contains_nil, Nat.not_lt.mpr hlen, Option.isSome_none, Bool.false_eq_true, if_false, Nat.zero_ne_one, false_and]
    exact ⟨_, rfl⟩
  obtain ⟨m, hm⟩ := hstored
  exact ⟨_, m, hm, rfl, hfits.trans_eq hbytes⟩

end First

theorem pktEntered_effect {st : Nat} {s : Dev} (k : JPkt) (m : Option Int) {l : List Byte} (hl : k.len = l.length)
    (hspace : jbBase s st + k.addr + l.length ≤ dramBytes) :
    rdBytes .dram (pktEntered st k m l s) (jbBase s st + k.addr) k.len = l ∧
      (strm (pktEntered st k m l s) st).pkts = insertBy (fun a b => decide (a.seq < b.seq)) k (strm s st).pkts ∧
      (strm (pktEntered st k m l s) st).units = (strm s st).units ∧
      rdN (pktEntered st k m l s) (Reg.ING_S_RX_CNT st) = (rdN s (Reg.ING_S_RX_CNT st) + 1) % 2 ^ 32 := by
  refine ⟨?_, ?_, ?_, ?_⟩
  · rw [pktEntered, hl, sCount, bump, (sameMem_wrN ..).rdBytes, rdBytes_wrBytes _ _ _ _ hspace]
  · rw [pktEntered, strm_sCount, strm_congr (wrBytes_ing ..), strm_setStrm]
  · rw [pktEntered, strm_sCount, strm_congr (wrBytes_ing ..), strm_setStrm]
  · rw [pktEntered, sCount, rdN_bump_same, rdN_congr (wrBytes_regs ..)]
    rfl
theorem jitterStep_effect (st : Nat) (ts : Int) (s : Dev) : SameRegs [Reg.ING_S_JITTER st] s (jitterStep st ts s) ∧
    ∃ t j, strm (jitterStep st ts s) st = { strm s st with transit := t, jitter := j } :=
  ⟨SameRegs.trans (sameRegs_of_regs _ rfl) (sameRegs_wrN _ _ _), _, _, strm_setStrm ..⟩
/-- The receiver as its source's first packet starts it (R255). -/
def rxStarted (st : Nat) (p : RtpPkt) (s : Dev) : Dev := setStrm st { seqStart (strm s st) (p.seq % 65536) with src := p.src } s
theorem EmptyReceiver.rxStarted {st : Nat} (p : RtpPkt) {s : Dev} (h : EmptyReceiver (strm s st)) : EmptyReceiver (strm (rxStarted st p s) st) := by
  rw [Machine.rxStarted, strm_setStrm]
  exact ⟨h.pkts, h.units, h.lastSeq, h.discard, h.o⟩
theorem EmptyReceiver.jitterStep {st : Nat} (ts : Int) {s : Dev} (h : EmptyReceiver (strm s st)) : EmptyReceiver (strm (jitterStep st ts s) st) := by
  obtain ⟨-, t, j, hstrm⟩ := jitterStep_effect st ts s
  rw [hstrm]
  exact ⟨h.pkts, h.units, h.lastSeq, h.discard, h.o⟩

section FirstPacket
variable {st : Nat} {p : RtpPkt} {oc : Bool × Bool} {s : Dev} (hst : st < 512) (hstart : (strm s st).started = false)
  (hclass : classify (stF s st 0 8 2) p = some oc)
include hst hstart hclass

theorem acceptRtp_unstarted : ∃ n ts, acceptRtp st p s = storePkt st n ts p oc (jitterStep st ts (rxStarted st p s)) := by
  have hstep : seqStep (strm s st) (p.seq % 65536) =
      { q := seqStart (strm s st) (p.seq % 65536), seq := some ((seqStart (strm s st) (p.seq % 65536)).epoch + p.seq % 65536) } := by
    simp only [seqStep, hstart, Bool.not_false, if_true]
  have hentry (ts : Int) : SameEntry st (rxStarted st p s) (jitterStep st ts (rxStarted st p s)) :=
    (jitterStep_effect ..).1.entry (by simp only [Reg.ING_S_JITTER, Reg.ING_TABLE, List.mem_singleton, forall_eq]; omega) st
  have hcodec (ts : Int) : classify (stF (jitterStep st ts (rxStarted st p s)) st 0 8 2) p = some oc := by rwa [(hentry ts).stF]
  refine ⟨(seqStart (strm s st) (p.seq % 65536)).epoch + p.seq % 65536, extendTs (strm (rxStarted st p s) st) p.ts, ?_⟩
  unfold rxStarted at hcodec ⊢
  simp only [acceptRtp, hstep, hcodec, Bool.false_eq_true, if_false]
variable (hempty : EmptyReceiver (strm s st)) (hmode : stF s st 0 14 1 = 0) (hlen : p.payload.length ≤ jbBytes s st) (hspace : jbBase s st + jbBytes s st ≤ dramBytes)
  (hreach : dramReach s (stPort s st / 2) (jbBase s st) (jbBytes s st) = none)
include hempty hmode hlen hspace hreach

/-- The receiver's first packet is numbered, timed and stored. -/
theorem acceptRtp_first : ∃ k, (strm (acceptRtp st p s) st).pkts = [k] ∧
      k.len = p.payload.length ∧ k.addr + k.len ≤ jbBytes s st ∧ rdBytes .dram (acceptRtp st p s) (jbBase s st + k.addr) k.len = p.payload ∧
      (strm (acceptRtp st p s) st).units.length = 1 ∧ rdN (acceptRtp st p s) (Reg.ING_S_RX_CNT st) = (rdN s (Reg.ING_S_RX_CNT st) + 1) % 2 ^ 32 := by
  obtain ⟨n, ts, haccept⟩ := acceptRtp_unstarted (p := p) hst hstart hclass
  have hjitter : SameRegs [Reg.ING_S_JITTER st] s (jitterStep st ts (rxStarted st p s)) := (jitterStep_effect st ts (rxStarted st p s)).1
  have hfilled : EmptyReceiver (strm (jitterStep st ts (rxStarted st p s)) st) := (hempty.rxStarted p).jitterStep ts
  have hjs : ∀ x ∈ [Reg.ING_S_JITTER st], streamRegs x := by
    simp only [Reg.ING_S_JITTER, streamRegs, Reg.ING_S_STATE, Reg.ING_TABLE, List.mem_singleton, forall_eq]
    omega
  rw [haccept]
  generalize jitterStep st ts (rxStarted st p s) = t at hjitter hfilled
  have hentry : SameEntry st s t := hjitter.streamEntry hjs st
  obtain ⟨hregs, hmem, hpkts, hunits⟩ := beginUnit_empty (ts := ts) hfilled
  have hbegun : SameEntry st t (beginUnit st ts t) := hregs.streamEntry (by
    simp only [Reg.ING_S_OFS_LO, streamRegs, Reg.ING_S_STATE, Reg.ING_TABLE, List.mem_cons, List.not_mem_nil, or_false, forall_eq_or_imp, forall_eq]
    omega) st
  have hbase : jbBase t st = jbBase s st := congrArg (· * 256) (hentry.stF 7 0 32)
  have hbytes : jbBytes t st = jbBytes s st := congrArg (· * 4096) (hentry.stF 6 0 20)
  have hbase' : jbBase (beginUnit st ts t) st = jbBase s st := (congrArg (· * 256) (hbegun.stF 7 0 32)).trans hbase
  have hcount : rdN (beginUnit st ts t) (Reg.ING_S_RX_CNT st) = rdN s (Reg.ING_S_RX_CNT st) := by
    rw [hregs _ (by simp only [Reg.ING_S_OFS_LO, Reg.ING_S_STATE, Reg.ING_S_RX_CNT, List.mem_cons, List.not_mem_nil, or_false]; omega),
      hjitter _ (by simp only [Reg.ING_S_JITTER, Reg.ING_S_RX_CNT, List.mem_singleton]; omega)]
  obtain ⟨k, m, hstore, hk, hfits⟩ := storePkt_empty (seq := n) (ts := ts) (p := p) (oc := oc) hfilled (by rwa [hentry.stF]) (hlen.trans_eq hbytes.symm)
    (by rwa [hentry.stPort, hbase, hbytes, hjitter.dramReach hjs]) hbegun
  rw [hbytes] at hfits
  obtain ⟨hread, hps, hus, hrx⟩ := pktEntered_effect (st := st) (s := beginUnit st ts t) k m hk (by rw [hbase', ← hk]; omega)
  rw [hbase'] at hread
  rw [hstore]
  exact ⟨k, by rw [hps, hpkts]; rfl, hk, hfits, hread, by rw [hus, hunits], by rw [hrx, hcount]⟩

end FirstPacket

end Sys2Proof.Machine
end

section
/-! SUPPORT. Silence and RTCP (R258, R261, R265), and O41. -/
set_option autoImplicit false
namespace Sys2Proof.Machine
open Sys2Proof

/-! ## A moment is waited for -/

theorem strm_waitUntil (t : Nat) (s : Dev) (st : Nat) : strm (waitUntil t s) st = strm s st := strm_congr (waitUntil_ing t s) st
theorem sameEntry_waitUntil (t : Nat) (s : Dev) (st : Nat) : SameEntry st s (waitUntil t s) := fun _ => rdN_congr (waitUntil_regs t s) _
theorem rf_waitUntil (t : Nat) (s : Dev) (x lo len : Nat) : rf (waitUntil t s) x lo len = rf s x lo len := rf_of_same (sameRegs_waitUntil [] t s) List.not_mem_nil lo len
theorem tst_waitUntil (t : Nat) (s : Dev) (x i : Nat) : tst (waitUntil t s) x i = tst s x i := tst_of_same (sameRegs_waitUntil [] t s) List.not_mem_nil i
theorem rtcpHears_waitUntil (t : Nat) (s : Dev) (st : Nat) : rtcpHears (waitUntil t s) st = rtcpHears s st := by
  simp only [rtcpHears, portRuns, ingMatches, ebbState, (sameEntry_waitUntil t s st).stPort, (sameEntry_waitUntil t s st).stValid, rf_waitUntil, tst_waitUntil]

/-! ## Silence (R265) -/

theorem goSilent_effect {st : Nat} (s : Dev) (hst : st < 512) : (strm (goSilent st s) st).silent = true ∧ sState (goSilent st s) st = 4 ∧
    tst (goSilent st s) Reg.ING_EVENT 4 = true ∧ (goSilent st s).time = s.time := by
  unfold goSilent
  dsimp only
  generalize hq : setStrm st _ s = a
  have hon (frames first last : Nat) (untr : Bool) : HandedOn (ingFault 4 5 st (putSState st 4 a))
      (closeQueries st (gap st .lost 0xFF 0xFF frames first last untr (ingFault 4 5 st (putSState st 4 a)))) :=
    (handedOn_gap ..).trans (handedOn_closeQueries ..)
  obtain ⟨hevent, -, hrest⟩ := ingFault_effect 5 st (putSState st 4 a) (show 4 < 32 by decide)
  have hstate : ingestRegs (Reg.ING_S_STATE st) :=
    ingestRegs_stream (by simp only [Reg.ING_S_STATE]; omega) (streamState_lt_table hst)
  refine ⟨?_, ?_, ?_, (hon ..).time.trans ?_⟩
  · rw [(hon ..).strm, hrest.strm, strm_putSState, ← hq, strm_setStrm]
  · rw [sState, (hon ..).regs.rf hstate]
    exact (sState_ingFault 5 st _ (by decide) st).trans (sState_putSState st a (by decide))
  · rw [tst, (hon ..).regs _ (.inl ⟨by decide, by decide⟩)]
    exact hevent
  · rw [hrest.time, ← hq]
    exact wf_time ..
theorem streamSilent_idle {st : Nat} {s : Dev} (h : stValid s st = false ∨ (strm s st).silent = true ∨ ebbState s ≠ 0) : streamSilent st s = s := by
  rw [streamSilent, if_pos]
  rcases h with h | h | h <;> simp [h]
/-- When a stream is silent if no media packet comes. -/
def silentDue (st : Nat) (s : Dev) : Nat := (strm s st).lastPkt + rf s Reg.ING_SILENT_LIM 0 16 * 1000000
theorem streamSilent_due {st : Nat} {s : Dev} (hvalid : stValid s st = true) (hheard : (strm s st).silent = false) (hrun : ebbState s = 0) :
    streamSilent st s = goSilent st (waitUntil (silentDue st s) s) := by
  simp only [streamSilent, silentDue, hvalid, hheard, hrun, Bool.not_true, Bool.or_false, bne_self_eq_false, Bool.false_eq_true, if_false]

/-! ## Reports (R258, R261) -/

theorem portRuns_of_rtcpHears {st : Nat} {s : Dev} (h : rtcpHears s st = true) : portRuns s (stPort s st) = true := by
  rw [rtcpHears, Bool.and_eq_true, Bool.and_eq_true] at h
  exact h.1.1
/-- The receiver with the offset of a sender report, shown. -/
def srTaken (st sec frac rtp : Nat) (s : Dev) : Dev :=
  s |> modStrm st (fun q => { q with sr := some (srOffset s st sec frac (extendTs (strm s st) rtp)), srTs := some (extendTs (strm s st) rtp), jump := false,
                                     lsr := some (sec % 65536 * 65536 + frac / 65536 % 65536, now s) })
    |> setB (Reg.ING_S_STATE st) 3 true

section Report
variable {st : Nat} {s : Dev} (hhears : rtcpHears s st = true)

theorem srTaken_effect (sec frac rtp : Nat) :
    (strm (srTaken st sec frac rtp s) st).sr = some (srOffset s st sec frac (extendTs (strm s st) rtp)) ∧
      tst (srTaken st sec frac rtp s) (Reg.ING_S_STATE st) 3 = true ∧ sState (srTaken st sec frac rtp s) st = sState s st ∧
      SameRegs [Reg.ING_S_STATE st] s (srTaken st sec frac rtp s) ∧ SameMem s (srTaken st sec frac rtp s) :=
  ⟨by rw [srTaken, strm_congr (setB_ing ..), strm_modStrm], tst_setB_same _ _ _ _ (by decide), rf_setB_disj _ 3 0 3 _ _ (by decide) (by decide),
    SameRegs.trans (sameRegs_of_regs _ rfl) (sameRegs_setB _ _ _ _), (sameMem_modStrm ..).trans (sameMem_setB ..)⟩
include hhears

theorem senderReport_taken {ssrc : Nat} (sec frac rtp : Nat) (h : ssrcOf s st = some ssrc) : senderReport st ssrc sec frac rtp s =
    if sState s st = 2 then putSState st 3 (srTaken st sec frac rtp s) else srTaken st sec frac rtp s := by
  rw [← (srTaken_effect (st := st) (s := s) sec frac rtp).2.2.1]
  simp only [senderReport, portRuns_of_rtcpHears hhears, hhears, h, Bool.not_true, Bool.false_eq_true, if_false, ne_eq, not_true_eq_false]
  rfl
theorem senderReport_foreign {ssrc : Nat} (sec frac rtp : Nat) (h : ssrcOf s st ≠ some ssrc) : senderReport st ssrc sec frac rtp s = s := by
  simp only [senderReport, portRuns_of_rtcpHears hhears, hhears, Bool.not_true, Bool.false_eq_true, if_false, if_pos h]
theorem senderReport_effect {ssrc : Nat} (sec frac rtp : Nat) (h : ssrcOf s st = some ssrc) {d : Dev} (hd : d = senderReport st ssrc sec frac rtp s) :
    (strm d st).sr = some (srOffset s st sec frac (extendTs (strm s st) rtp)) ∧ tst d (Reg.ING_S_STATE st) 3 = true ∧
      sState d st = (if sState s st = 2 then 3 else sState s st) ∧ SameRegs [Reg.ING_S_STATE st] s d ∧ SameMem s d := by
  obtain ⟨hsr, hshown, hstate, hregs, hmem⟩ := srTaken_effect (st := st) (s := s) sec frac rtp
  rw [senderReport_taken hhears sec frac rtp h] at hd
  subst hd
  split
  · exact ⟨(congrArg Strm.sr (strm_putSState ..)).trans hsr, (tst_wf_disj _ 0 3 3 3 _ (by decide) (by decide)).trans hshown, sState_putSState st _ (by decide),
      hregs.trans (sameRegs_putSState st 3 _), hmem.trans (sameMem_wf ..)⟩
  · exact ⟨hsr, hshown, hstate, hregs, hmem⟩
theorem rtcpBye_heard : rtcpBye st s = sessionLost st s := by
  simp only [rtcpBye, portRuns_of_rtcpHears hhears, hhears, Bool.not_true, Bool.false_eq_true, if_false]

end Report

/-- When the next receiver report is due. -/
def rrDue (st : Nat) (s : Dev) : Nat := (strm s st).rrAt + rf s Reg.ING_CTRL 8 8 * 1000000000
theorem receiverReport_idle {st : Nat} {s : Dev}
    (h : rf s Reg.ING_CTRL 8 8 = 0 ∨ rtcpHears s st = false ∨ (strm s st).started = false ∨ (strm s st).probation ≠ 0) : receiverReport st s = s := by
  unfold receiverReport
  dsimp only
  rw [rf_waitUntil, rtcpHears_waitUntil, if_pos]
  simpa using h
theorem receiverReport_due {st : Nat} {s : Dev} (hrate : rf s Reg.ING_CTRL 8 8 ≠ 0) (hhears : rtcpHears s st = true) (hstart : (strm s st).started = true)
    (hprobation : (strm s st).probation = 0) : ∃ q l, receiverReport st s = bump (Reg.ING_PORT_TX_CNT (stPort s st)) 1
      (send (.rtcp st (stPort s st) (strm s st).src (stF s st 1 (if stF s st 0 6 1 = 1 then 0 else 16) 16) l) (setStrm st q (waitUntil (rrDue st s) s))) ∧
      l.length = 7 ∧ l.getD 3 0 = ((strm s st).cycles + (strm s st).maxSeq) % 2 ^ 32 := by
  have hentry := sameEntry_waitUntil (rrDue st s) s st
  rw [rrDue] at hentry
  unfold receiverReport
  dsimp only
  rw [rf_waitUntil, rtcpHears_waitUntil, if_neg (by simp [hrate, hhears, hstart, hprobation]), hentry.stPort, hentry.stF, hentry.stF]
  exact ⟨_, _, rfl, rfl, rfl⟩

/-! ## The obligation -/

theorem rtpMediaPacket_unmatched_effect {st : Nat} (p : RtpPkt) {s : Dev} (hport : portRuns s (stPort s st) = true)
    (h : stValid s st = false ∨ ingMatches s = false) {d : Dev} (hd : d = rtpMediaPacket st p s) :
    rdN d (Reg.ING_PORT_NOMATCH_CNT (stPort s st)) = (rdN s (Reg.ING_PORT_NOMATCH_CNT (stPort s st)) + 1) % 2 ^ 32 ∧
      SameRegs [Reg.ING_PORT_NOMATCH_CNT (stPort s st)] s d ∧ d.ing = s.ing ∧ SameMem s d := by
  rw [rtpMediaPacket_unmatched hport h] at hd
  subst hd
  exact ⟨rdN_bump_same .., sameRegs_bump _ _ _, bump_ing .., sameMem_wrN ..⟩
theorem rtpMediaPacket_conflict_effect {st x : Nat} {p : RtpPkt} {s : Dev} (hst : st < 512) (hport : portRuns s (stPort s st) = true)
    (hvalid : stValid s st = true) (hmatch : ingMatches s = true) (hver : p.ver = 2) (hpt : p.pt = stF s st 0 16 7) (hssrc : ssrcOf s st = some x)
    (hne : x ≠ p.ssrc % 2 ^ 32) {d : Dev} (hd : d = rtpMediaPacket st p s) :
    rdN d (Reg.ING_S_DROP_CNT st) = (rdN s (Reg.ING_S_DROP_CNT st) + 1) % 2 ^ 32 ∧
      (stF s st 2 0 32 = 0 → (strm s st).hold = false → sState d st = 5 ∧ tst d Reg.ING_EVENT 2 = true) ∧ (strm d st).pkts = (strm s st).pkts ∧
      SameMem s d := by
  obtain ⟨hcount, hpkts, hmem⟩ := dropped_effect (st := st) s
  rw [rtpMediaPacket_conflict hst hport hvalid hmatch hver hpt hssrc hne] at hd
  subst hd
  split
  · next h => exact ⟨hcount, fun hlearned hhold => by simp [hlearned, hhold] at h, hpkts, hmem⟩
  · obtain ⟨hstate, hevent, hcount', hpkts', hmem'⟩ := conflictHeld_effect (st := st) (sCount Reg.ING_S_DROP_CNT st 1 (heard st s))
    exact ⟨hcount'.trans hcount, fun _ _ => ⟨hstate, hevent⟩, hpkts'.trans hpkts, hmem.trans hmem'⟩
theorem rtpMediaPacket_first_effect {st : Nat} {p : RtpPkt} {oc : Bool × Bool} {s : Dev} (hst : st < 512) (hport : portRuns s (stPort s st) = true)
    (hvalid : stValid s st = true) (hmatch : ingMatches s = true) (hver : p.ver = 2) (hpt : p.pt = stF s st 0 16 7)
    (hssrc : ssrcOf s st = some (p.ssrc % 2 ^ 32)) (hnew : strm s st = {}) (hclass : classify (stF s st 0 8 2) p = some oc) (hmode : stF s st 0 14 1 = 0)
    (hlen : p.payload.length ≤ jbBytes s st) (hspace : jbBase s st + jbBytes s st ≤ dramBytes)
    (hreach : dramReach s (stPort s st / 2) (jbBase s st) (jbBytes s st) = none) {d : Dev} (hd : d = rtpMediaPacket st p s) :
    ∃ k, (strm d st).pkts = [k] ∧ k.len = p.payload.length ∧ k.addr + k.len ≤ jbBytes s st ∧
      rdBytes .dram d (jbBase s st + k.addr) k.len = p.payload ∧ (strm d st).units.length = 1 ∧
      rdN d (Reg.ING_S_RX_CNT st) = (rdN s (Reg.ING_S_RX_CNT st) + 1) % 2 ^ 32 := by
  obtain ⟨hheard, -, -, hstrm, -⟩ := heard_effect (st := st) s
  have hregs : SameRegs [Reg.ING_S_SSRC st, Reg.ING_S_STATE st] s (wrN (Reg.ING_S_SSRC st) (p.ssrc % 2 ^ 32) (heard st s)) :=
    hheard.append (sameRegs_wrN (Reg.ING_S_SSRC st) _ _)
  have hstreams : ∀ x ∈ [Reg.ING_S_SSRC st, Reg.ING_S_STATE st], streamRegs x := by
    simp only [Reg.ING_S_SSRC, streamRegs, Reg.ING_S_STATE, Reg.ING_TABLE, List.mem_cons, List.not_mem_nil, or_false, forall_eq_or_imp, forall_eq]
    omega
  have hentry := hregs.streamEntry hstreams st
  have hbase : jbBase (wrN (Reg.ING_S_SSRC st) (p.ssrc % 2 ^ 32) (heard st s)) st = jbBase s st := congrArg (· * 256) (hentry.stF 7 0 32)
  have hbytes : jbBytes (wrN (Reg.ING_S_SSRC st) (p.ssrc % 2 ^ 32) (heard st s)) st = jbBytes s st := congrArg (· * 4096) (hentry.stF 6 0 20)
  have hq : strm (wrN (Reg.ING_S_SSRC st) (p.ssrc % 2 ^ 32) (heard st s)) st = { ({} : Strm) with lastPkt := now s } := by
    rw [strm_congr (wrN_ing ..), hstrm, hnew]
  have hcount : rdN (wrN (Reg.ING_S_SSRC st) (p.ssrc % 2 ^ 32) (heard st s)) (Reg.ING_S_RX_CNT st) = rdN s (Reg.ING_S_RX_CNT st) :=
    hregs _ (by simp only [Reg.ING_S_SSRC, Reg.ING_S_STATE, Reg.ING_S_RX_CNT, List.mem_cons, List.not_mem_nil, or_false]; omega)
  have hfirst := acceptRtp_first (p := p) (oc := oc) (s := wrN (Reg.ING_S_SSRC st) (p.ssrc % 2 ^ 32) (heard st s)) hst (by rw [hq])
    (by rwa [hentry.stF]) (by rw [hq]; exact ⟨rfl, rfl, rfl, rfl, rfl⟩) (by rwa [hentry.stF]) (by rwa [hbytes]) (by rwa [hbase, hbytes])
    (by rwa [hentry.stPort, hbase, hbytes, hregs.dramReach hstreams])
  rw [rtpMediaPacket_own hst hport hvalid hmatch hver hpt hssrc] at hd
  rwa [← hd, hbase, hbytes, hcount] at hfirst
theorem jbRelease_unit_effect {st : Nat} {u : JUnit} {ps : List JPkt} {s : Dev} (hst : st < 512) (hhead : jHead s st = some (.unit u ps))
    (hdue : releaseTime s st (.unit u ps) < 2 ^ 64) {d : Dev} (hd : d = jbRelease st s) :
    releaseTime s st (.unit u ps) ≤ now d ∧ (strm d st).lastTs = u.ts ∧ (∀ x ∈ (strm d st).pkts, x.ts ≠ u.ts) ∧
      rdN d (Reg.ING_S_AU_CNT st) = (rdN s (Reg.ING_S_AU_CNT st) + b2n (unitWhole (strm s st) ps)) % 2 ^ 32 := by
  rw [jbRelease_some hhead] at hd
  obtain ⟨htime, hts, hpkts, hcount⟩ := releaseJ_unit_effect u ps _ hst hd
  rw [rdN_congr (waitUntil_regs ..), strm_waitUntil] at hcount
  exact ⟨(le_waitUntil s hdue).trans_eq (congrArg Time.ns htime).symm, hts, hpkts, hcount⟩
theorem jbRelease_placeholder_effect {st : Nat} {u : JUnit} {ts : Int} {s : Dev} (hst : st < 512) (hhead : jHead s st = some (.ph ts u))
    (hdue : releaseTime s st (.ph ts u) < 2 ^ 64) {d : Dev} (hd : d = jbRelease st s) :
    releaseTime s st (.ph ts u) ≤ now d ∧ rdN d (Reg.ING_S_PH_CNT st) = (rdN s (Reg.ING_S_PH_CNT st) + 1) % 2 ^ 32 ∧ (strm d st).pkts = (strm s st).pkts := by
  rw [jbRelease_some hhead] at hd
  obtain ⟨htime, hcount, hpkts⟩ := releaseJ_placeholder_effect ts u _ hst hd
  rw [rdN_congr (waitUntil_regs ..)] at hcount
  rw [strm_waitUntil] at hpkts
  exact ⟨(le_waitUntil s hdue).trans_eq (congrArg Time.ns htime).symm, hcount, hpkts⟩
theorem streamSilent_effect {st : Nat} {s : Dev} (hst : st < 512) (hvalid : stValid s st = true) (hheard : (strm s st).silent = false)
    (hrun : ebbState s = 0) (hdue : silentDue st s < 2 ^ 64) {d : Dev} (hd : d = streamSilent st s) :
    (strm d st).silent = true ∧ sState d st = 4 ∧ tst d Reg.ING_EVENT 4 = true ∧ silentDue st s ≤ now d := by
  rw [streamSilent_due hvalid hheard hrun] at hd
  obtain ⟨hsilent, hstate, hevent, htime⟩ := goSilent_effect (st := st) (waitUntil (silentDue st s) s) hst
  rw [← hd] at hsilent hstate hevent htime
  exact ⟨hsilent, hstate, hevent, (le_waitUntil s hdue).trans_eq (congrArg Time.ns htime).symm⟩
/-- A message that leaves a port at `t`, the receiver changed. -/
theorem portReply_effect (t : Nat) (q : Strm) (p : Nat) (m : OutMsg) (st : Nat) (s : Dev) (hm : isPin m = false) :
    (bump (Reg.ING_PORT_TX_CNT p) 1 (send m (setStrm st q (waitUntil t s)))).out = s.out ++ [m] ∧
      (bump (Reg.ING_PORT_TX_CNT p) 1 (send m (setStrm st q (waitUntil t s)))).time = (waitUntil t s).time ∧
      rdN (bump (Reg.ING_PORT_TX_CNT p) 1 (send m (setStrm st q (waitUntil t s)))) (Reg.ING_PORT_TX_CNT p) = (rdN s (Reg.ING_PORT_TX_CNT p) + 1) % 2 ^ 32 ∧
      SameMem s (bump (Reg.ING_PORT_TX_CNT p) 1 (send m (setStrm st q (waitUntil t s)))) := by
  have hset : (setStrm st q (waitUntil t s)).regs = s.regs := waitUntil_regs t s
  refine ⟨?_, ?_, ?_, ((sameMem_waitUntil ..).trans (sameMem_setStrm ..)).trans ((sameRest_send ..).sameMem.trans (sameMem_wrN ..))⟩
  · rw [bump_out, send_out _ _ hm]
    exact congrArg (· ++ _) (waitUntil_out t s)
  · rw [bump_time, send_time]
    rfl
  · rw [rdN_bump_same, rdN_congr (send_regs ..), rdN_congr hset]
theorem receiverReport_effect {st : Nat} {s : Dev} (hrate : rf s Reg.ING_CTRL 8 8 ≠ 0) (hdue : rrDue st s < 2 ^ 64) (hhears : rtcpHears s st = true) (hstart : (strm s st).started = true)
    (hprobation : (strm s st).probation = 0) {d : Dev} (hd : d = receiverReport st s) :
    (∃ l, d.out = s.out ++ [.rtcp st (stPort s st) (strm s st).src (stF s st 1 (if stF s st 0 6 1 = 1 then 0 else 16) 16) l] ∧ l.length = 7 ∧
      l.getD 3 0 = ((strm s st).cycles + (strm s st).maxSeq) % 2 ^ 32) ∧ rrDue st s ≤ now d ∧
      rdN d (Reg.ING_PORT_TX_CNT (stPort s st)) = (rdN s (Reg.ING_PORT_TX_CNT (stPort s st)) + 1) % 2 ^ 32 ∧ SameMem s d := by
  obtain ⟨q, l, heq, hlen, hseq⟩ := receiverReport_due hrate hhears hstart hprobation
  obtain ⟨hout, htime, hcount, hmem⟩ := portReply_effect (rrDue st s) q (stPort s st) (.rtcp st (stPort s st) (strm s st).src
    (stF s st 1 (if stF s st 0 6 1 = 1 then 0 else 16) 16) l) st s rfl
  rw [← heq, ← hd] at hout htime hcount hmem
  exact ⟨⟨l, hout, hlen, hseq⟩, (le_waitUntil s hdue).trans_eq (congrArg Time.ns htime).symm, hcount, hmem⟩

/-- Settles O41: each packet, report, silence and release by its own rule above; what waits for a moment comes at it or after. -/
theorem mediaAndReportsSteerTheReceiver : Obligations.MediaAndReportsSteerTheReceiver := by
  unfold Obligations.MediaAndReportsSteerTheReceiver
  intro s st p hawake
  have hst : st.val < 512 := st.isLt
  refine ⟨fun hport h => ?_, fun hport hvalid hmatch h => ?_, fun x hport hvalid hmatch hver hpt hssrc hne => ?_,
    fun oc hport hvalid hmatch hver hpt hssrc hnew hclass hmode hlen hspace hreach => ?_, fun u ps hhead hdue => ?_, fun u ts hhead hdue => ?_, fun hhead => ?_,
    fun hvalid hheard hrun hdue => ?_, fun h => ?_, fun ssrc sec frac rtp hhears h => ?_, fun ssrc sec frac rtp hhears h => ?_, fun hhears => ?_,
    fun hrate hdue hhears hstart hprobation => ?_, fun h => ?_⟩
  · exact Does.of_onDev (f := rtpMediaPacket st p) hawake rfl (rtpMediaPacket_unmatched_effect p hport h rfl)
  · refine Does.of_onDev (f := rtpMediaPacket st p) hawake rfl ?_
    rw [rtpMediaPacket_foreign hst hport hvalid hmatch h]
    exact dropped_effect s.dev
  · exact Does.of_onDev (f := rtpMediaPacket st p) hawake rfl (rtpMediaPacket_conflict_effect hst hport hvalid hmatch hver hpt hssrc hne rfl)
  · exact Does.of_onDev (f := rtpMediaPacket st p) hawake rfl
      (rtpMediaPacket_first_effect hst hport hvalid hmatch hver hpt hssrc hnew hclass hmode hlen hspace hreach rfl)
  · exact Does.of_onDev (f := jbRelease st) hawake rfl (jbRelease_unit_effect hst hhead hdue rfl)
  · exact Does.of_onDev (f := jbRelease st) hawake rfl (jbRelease_placeholder_effect hst hhead hdue rfl)
  · exact Does.of_onDev (f := jbRelease st) hawake rfl (jbRelease_none hhead)
  · exact Does.of_onDev (f := streamSilent st) hawake rfl (streamSilent_effect hst hvalid hheard hrun hdue rfl)
  · exact Does.of_onDev (f := streamSilent st) hawake rfl (streamSilent_idle h)
  · exact Does.of_onDev (f := senderReport st ssrc sec frac rtp) hawake rfl (senderReport_effect hhears sec frac rtp h rfl)
  · exact Does.of_onDev (f := senderReport st ssrc sec frac rtp) hawake rfl (senderReport_foreign hhears sec frac rtp h)
  · refine Does.of_onDev (f := rtcpBye st) hawake rfl ?_
    obtain ⟨hstate, hevent, hstrm, hmem, -⟩ := sessionLost_effect st s.dev
    rw [rtcpBye_heard hhears]
    exact ⟨hstate, hevent, hstrm, hmem⟩
  · exact Does.of_onDev (f := receiverReport st) hawake rfl (receiverReport_effect hrate hdue hhears hstart hprobation rfl)
  · exact Does.of_onDev (f := receiverReport st) hawake rfl (receiverReport_idle h)

end Sys2Proof.Machine
end

section
/-! SUPPORT. What has left the device stays noted while a media packet is taken (R253, R255), however it ends. -/
set_option autoImplicit false
namespace Sys2Proof.Machine
open Sys2Proof

/-- Either branch, and the branch that changes nothing. -/
theorem OutGrows.ite {c : Prop} [Decidable c] {s a b : Dev} (ha : OutGrows s a) (hb : OutGrows s b) : OutGrows s (if c then a else b) := by
  split
  · exact ha
  · exact hb
theorem outGrows_ingFault (bit ev st : Nat) (s : Dev) : OutGrows s (ingFault bit ev st s) := outGrows_of_out (ingFault_out ..)
theorem outGrows_sCount (f : Nat → Nat) (st n : Nat) (s : Dev) : OutGrows s (sCount f st n s) := outGrows_of_out (bump_out ..)
theorem outGrows_setStrm (st : Nat) (q : Strm) (s : Dev) : OutGrows s (setStrm st q s) := outGrows_of_out rfl
theorem outGrows_putSState (st v : Nat) (s : Dev) : OutGrows s (putSState st v s) := outGrows_of_out (wf_out ..)
theorem outGrows_showQueued (st : Nat) (s : Dev) : OutGrows s (showQueued st s) := outGrows_of_out (wf_out ..)
theorem outGrows_heard (st : Nat) (s : Dev) : OutGrows s (heard st s) := outGrows_of_out (heard_effect s).2.2.1
theorem outGrows_conflictHeld (st : Nat) (s : Dev) : OutGrows s (conflictHeld st s) :=
  (outGrows_setStrm ..).trans ((outGrows_putSState ..).trans (outGrows_ingFault ..))
theorem outGrows_dropProbation (st n : Nat) (s : Dev) : OutGrows s (dropProbation st n s) := (outGrows_setStrm ..).trans (outGrows_sCount ..)
theorem outGrows_jitterStep (st : Nat) (ts : Int) (s : Dev) : OutGrows s (jitterStep st ts s) :=
  (outGrows_setStrm ..).trans (outGrows_of_out (wrN_out ..))
theorem eccUncorr_out (k a : Nat) (s : Dev) : (eccUncorr k a s).out = s.out := by
  rw [eccUncorr, dmcRaise, raise_out, dmcAddr, wr64_out, dmcFault, wrN_out, dmcEcc, bump16, bump16, wf_out, wf_out]
theorem outGrows_reportReach (x : NoReach) (s : Dev) : OutGrows s (reportReach x s) := by
  unfold reportReach
  dsimp only
  split
  · rw [dmcRaise]
    exact outGrows_of_out ((raise_out ..).trans ((wr64_out ..).trans (wrN_out ..)))
  · exact outGrows_of_out (eccUncorr_out ..)
  · exact OutGrows.refl s
theorem outGrows_takeHead (st : Nat) (h : JHead) (s : Dev) : OutGrows s (takeHead st h s).2 := by
  cases h with
  | ph ts u =>
    rw [takeHead_placeholder]
    exact (outGrows_setStrm ..).trans (outGrows_sCount ..)
  | unit u ps =>
    rw [takeHead_unit]
    exact (outGrows_setStrm ..).trans ((outGrows_sCount ..).trans ((outGrows_sCount ..).trans (outGrows_showQueued ..)))
theorem outGrows_releaseJ (st : Nat) (h : JHead) (s : Dev) : OutGrows s (releaseJ st h s) := (outGrows_takeHead ..).trans (relaid_releaseJ ..).out
theorem outGrows_makeRoom (st len n : Nat) (s : Dev) : OutGrows s (makeRoom st len n s) := by
  induction n generalizing s with
  | zero => exact OutGrows.refl s
  | succ n ih =>
    unfold makeRoom
    split
    · exact OutGrows.refl s
    · split
      · exact OutGrows.refl s
      · exact (outGrows_sCount ..).trans ((outGrows_releaseJ ..).trans (ih _))
theorem outGrows_beginUnit (st : Nat) (ts : Int) (s : Dev) : OutGrows s (beginUnit st ts s) := by
  unfold beginUnit
  dsimp only
  exact (outGrows_setStrm ..).trans ((outGrows_of_out (wr64_out ..)).trans
    ((outGrows_showQueued ..).trans (whenS_rel _ OutGrows.refl _ _ _ (outGrows_ingFault ..))))
theorem outGrows_wrBytes (a : Nat) (l : List Byte) (s : Dev) : OutGrows s (wrBytes .dram a l s) := (handedOn_wrBytes a l s).out
theorem outGrows_storePkt (st seq : Nat) (ts : Int) (p : RtpPkt) (oc : Bool × Bool) (s : Dev) : OutGrows s (storePkt st seq ts p oc s) := by
  have hroom : OutGrows s (makeRoom st p.payload.length 65536 s) := outGrows_makeRoom ..
  have hlost (x : Option NoReach) (d : Dev) : OutGrows d ((x.map (reportReach · d)).getD d) := by
    cases x with
    | none => exact OutGrows.refl d
    | some x => exact outGrows_reportReach x d
  have hplaced (d : Dev) : OutGrows d (placePkt st p.payload.length d).2 := (relaid_placePkt ..).out
  unfold storePkt
  exact .ite (outGrows_sCount ..) (.ite (outGrows_sCount ..) (.ite (outGrows_sCount ..) (.ite (OutGrows.refl s) (.ite
    ((outGrows_setStrm ..).trans (handedOn_gap1 ..).out)
    (hroom.trans (.ite (hlost ..) (.ite (outGrows_sCount ..)
      (.trans (.ite (OutGrows.refl _) (outGrows_beginUnit ..))
        ((hplaced _).trans ((outGrows_setStrm ..).trans ((outGrows_wrBytes ..).trans (outGrows_sCount ..))))))))))))
/-- The receiver once the packet's number has been judged (R255), with what a failed probation and a new base leave. -/
def sequenced (st : Nat) (p : RtpPkt) (s : Dev) : Dev :=
  let r := seqStep (strm s st) (p.seq % 65536)
  let d := setStrm st { r.q with src := p.src } s
  let d := if r.again then dropProbation st (strm s st).epoch d else d
  if r.rebased then ingFault 7 0 st d else d
theorem outGrows_sequenced (st : Nat) (p : RtpPkt) (s : Dev) : OutGrows s (sequenced st p s) := by
  have hdrop (q : Strm) (old : Nat) : OutGrows s (dropProbation st old (setStrm st q s)) := (outGrows_setStrm ..).trans (outGrows_dropProbation ..)
  exact .trans (.ite (hdrop ..) (outGrows_setStrm ..)) (.ite (outGrows_ingFault ..) (OutGrows.refl _))
theorem outGrows_acceptRtp (st : Nat) (p : RtpPkt) (s : Dev) : OutGrows s (acceptRtp st p s) := by
  unfold acceptRtp
  dsimp only
  refine (outGrows_sequenced st p s).trans ?_
  split
  · exact outGrows_sCount ..
  · split
    · exact (outGrows_jitterStep ..).trans ((outGrows_sCount ..).trans (outGrows_ingFault ..))
    · exact (outGrows_jitterStep ..).trans (outGrows_storePkt ..)
theorem outGrows_rtpMediaPacket (st : Nat) (p : RtpPkt) (s : Dev) : OutGrows s (rtpMediaPacket st p s) := by
  have hlearn (d : Dev) : OutGrows d (wrN (Reg.ING_S_SSRC st) p.ssrc (setB (Reg.ING_S_STATE st) 4 true d)) :=
    outGrows_of_out ((wrN_out ..).trans (setB_out ..))
  have hown (x : Nat) (d : Dev) : OutGrows d (wrN (Reg.ING_S_SSRC st) x d) := outGrows_of_out (wrN_out ..)
  unfold rtpMediaPacket
  refine .ite (OutGrows.refl s) (.ite (outGrows_of_out (bump_out ..)) ((outGrows_heard st s).trans (.ite (outGrows_sCount ..) ?_)))
  cases ssrcOf (heard st s) st with
  | none => exact (hlearn _).trans (outGrows_acceptRtp ..)
  | some x =>
    exact .ite (c := x = p.ssrc % 2 ^ 32) ((hown x _).trans (outGrows_acceptRtp ..))
      ((outGrows_sCount Reg.ING_S_DROP_CNT st 1 _).trans (.ite (OutGrows.refl _) (outGrows_conflictHeld ..)))

end Sys2Proof.Machine
end

section
/-! SUPPORT. Ethernet ports (R248 to R253): what a counted frame leaves, where it goes, and O40. -/
set_option autoImplicit false
namespace Sys2Proof.Machine
open Sys2Proof

/-! ## A received frame is counted -/

/-- The device once a frame on port `p` has been counted as received. -/
def rxCounted (p : Nat) (s : Dev) : Dev := bump (Reg.ING_PORT_RX_CNT p) 1 s

section Counted
variable (p : Nat) (s : Dev)

theorem sameRegs_rxCounted : SameRegs [Reg.ING_PORT_RX_CNT p] s (rxCounted p s) := sameRegs_bump _ 1 s
theorem rdN_rxCounted {x : Nat} (h : x ≠ Reg.ING_PORT_RX_CNT p) : rdN (rxCounted p s) x = rdN s x := rdN_bump_other 1 s h
theorem rf_rxCounted {x : Nat} (h : x ≠ Reg.ING_PORT_RX_CNT p) (lo len : Nat) : rf (rxCounted p s) x lo len = rf s x lo len := rf_wrN_other _ _ _ _ h
theorem tst_rxCounted {x : Nat} (h : x ≠ Reg.ING_PORT_RX_CNT p) (i : Nat) : tst (rxCounted p s) x i = tst s x i := tst_wrN_other _ _ _ h
theorem strm_rxCounted (st : Nat) : strm (rxCounted p s) st = strm s st := strm_congr (bump_ing ..) st

theorem sState_rxCounted (st : Nat) : sState (rxCounted p s) st = sState s st :=
  rf_rxCounted p s (by simp only [Reg.ING_S_STATE, Reg.ING_PORT_RX_CNT]; omega) 0 3
theorem portMac_rxCounted : portMac (rxCounted p s) p = portMac s p := by
  rw [portMac, portMac, rdN_rxCounted p s (by simp only [Reg.ING_PORT_MAC_LO, Reg.ING_PORT_RX_CNT]; omega),
    rf_rxCounted p s (by simp only [Reg.ING_PORT_MAC_HI, Reg.ING_PORT_RX_CNT]; omega)]
theorem portIp6_rxCounted : portIp6 (rxCounted p s) p = portIp6 s p := by
  unfold portIp6
  refine List.foldl_ext _ _ _ fun a i hi => ?_
  rw [rdN_rxCounted p s (by have := List.mem_range.mp hi; simp only [Reg.ING_PORT_IPV6, Reg.ING_PORT_RX_CNT]; omega)]
theorem portIp4_rxCounted : rdN (rxCounted p s) (Reg.ING_PORT_IPV4 p) = rdN s (Reg.ING_PORT_IPV4 p) :=
  rdN_rxCounted p s (by simp only [Reg.ING_PORT_IPV4, Reg.ING_PORT_RX_CNT]; omega)
theorem portLinkLocal_rxCounted : portLinkLocal (rxCounted p s) p = portLinkLocal s p := by rw [portLinkLocal, portLinkLocal, portMac_rxCounted]

variable {p} (hp : p < 4)
include hp

theorem sameEntry_rxCounted (st : Nat) : SameEntry st s (rxCounted p s) :=
  (sameRegs_rxCounted p s).entry (by simp only [Reg.ING_PORT_RX_CNT, Reg.ING_TABLE, List.mem_singleton, forall_eq]; omega) st
theorem ingMatches_rxCounted : ingMatches (rxCounted p s) = ingMatches s := by
  rw [ingMatches, ingMatches, ebbState, ebbState, tst_rxCounted p s (by simp only [Reg.ING_CTRL, Reg.ING_PORT_RX_CNT]; omega),
    rf_rxCounted p s (by simp only [Reg.PWR_STATUS, Reg.ING_PORT_RX_CNT]; omega)]
theorem macOk_rxCounted (mac : Nat) : macOk (rxCounted p s) p mac = macOk s p mac := by
  simp only [macOk, ownGroups, portMac_rxCounted, portIp6_rxCounted, (sameEntry_rxCounted s hp _).stF, (sameEntry_rxCounted s hp _).stValid,
    (sameEntry_rxCounted s hp _).stPort, (sameEntry_rxCounted s hp _).stAddr]
/-- Table 10-2 reads nothing that the count changes. -/
theorem acceptFrame_rxCounted (l : List Byte) : acceptFrame (rxCounted p s) p l = acceptFrame s p l := by
  have hvlan : rf (rxCounted p s) (Reg.ING_PORT_CFG p) 16 12 = rf s (Reg.ING_PORT_CFG p) 16 12 :=
    rf_rxCounted p s (by simp only [Reg.ING_PORT_CFG, Reg.ING_PORT_RX_CNT]; omega) 16 12
  rw [acceptFrame, acceptFrame, macOk_rxCounted s hp, hvlan]
theorem forZiltur_rxCounted (a : Accepted) : forZiltur (rxCounted p s) p a = forZiltur s p a := by
  cases a with
  | ptp l => rfl
  | arp l => rfl
  | ip v6 proto src dst l =>
    simp only [forZiltur, sessionTcp, portIp6_rxCounted, portLinkLocal_rxCounted, portIp4_rxCounted, strm_rxCounted, sState_rxCounted,
      (sameEntry_rxCounted s hp _).mayReopen, (sameEntry_rxCounted s hp _).stPort]
/-- Nor does Table 10-3. -/
theorem destOf_rxCounted (a : Accepted) : destOf (rxCounted p s) p a = destOf s p a := by
  have hlmp : rf (rxCounted p s) Reg.MDO_LMP_PORT 0 16 = rf s Reg.MDO_LMP_PORT 0 16 :=
    rf_rxCounted p s (by simp only [Reg.MDO_LMP_PORT, Reg.ING_PORT_RX_CNT]; omega) 0 16
  simp only [destOf, streamMatch, forZiltur_rxCounted s hp, hlmp, ingMatches_rxCounted s hp, (sameEntry_rxCounted s hp _).stF,
    (sameEntry_rxCounted s hp _).stValid, (sameEntry_rxCounted s hp _).stPort, (sameEntry_rxCounted s hp _).stAddr]

end Counted

/-! ## A frame is taken or dropped (R251) -/

/-- The counter of a row of Table 10-2. -/
def dropCount (p : Nat) : DropAt → Nat
  | .nomatch => Reg.ING_PORT_NOMATCH_CNT p
  | .l3 => Reg.ING_PORT_L3_DROP_CNT p
  | .csum => Reg.ING_PORT_CSUM_CNT p

section Frame
variable {p : Nat} {b : List Byte} {s : Dev} (hruns : portRuns s p = true)

theorem ethFrameRx_idle (ok : Bool) (h : portRuns s p = false) : ethFrameRx p b ok s = s := by
  simp only [ethFrameRx, h, Bool.not_false, if_true]
include hruns

theorem ethFrameRx_damaged {ok : Bool} (h : ok = false ∨ b.length < 64 ∨ 9022 < b.length) : ethFrameRx p b ok s = bump (Reg.ING_PORT_FCS_CNT p) 1 s := by
  have hbad : (!ok || decide (b.length < 64) || decide (9022 < b.length)) = true := by simpa [or_assoc] using h
  simp only [ethFrameRx, hruns, Bool.not_true, Bool.false_eq_true, if_false, if_pos hbad]

variable (hp : p < 4) (hmin : 64 ≤ b.length) (hmax : b.length ≤ 9022)
include hp hmin hmax

theorem ethFrameRx_dropped {r : DropAt} (h : acceptFrame s p (b.take (b.length - 4)) = .inr r) :
    ethFrameRx p b true s = bump (dropCount p r) 1 (rxCounted p s) := by
  have hdrop : acceptFrame (bump (Reg.ING_PORT_RX_CNT p) 1 s) p (b.take (b.length - 4)) = .inr r := (acceptFrame_rxCounted s hp _).trans h
  cases r <;> simp only [ethFrameRx, hruns, Nat.not_lt.mpr hmin, Nat.not_lt.mpr hmax, hdrop, dropCount, rxCounted, decide_false, Bool.or_false, Bool.not_true,
    Bool.false_eq_true, if_false]
theorem ethFrameRx_taken {a : Accepted} (h : acceptFrame s p (b.take (b.length - 4)) = .inl a) : ethFrameRx p b true s = deliver p a (rxCounted p s) := by
  have htake : acceptFrame (bump (Reg.ING_PORT_RX_CNT p) 1 s) p (b.take (b.length - 4)) = .inl a := (acceptFrame_rxCounted s hp _).trans h
  simp only [ethFrameRx, hruns, Nat.not_lt.mpr hmin, Nat.not_lt.mpr hmax, htake, rxCounted, decide_false, Bool.or_false, Bool.not_true, Bool.false_eq_true,
    if_false]

end Frame

theorem dropped_counts (p : Nat) (r : DropAt) (s : Dev) :
    rdN (bump (dropCount p r) 1 (rxCounted p s)) (Reg.ING_PORT_RX_CNT p) = (rdN s (Reg.ING_PORT_RX_CNT p) + 1) % 2 ^ 32 ∧
      rdN (bump (dropCount p r) 1 (rxCounted p s)) (dropCount p r) = (rdN s (dropCount p r) + 1) % 2 ^ 32 ∧
      SameRegs [Reg.ING_PORT_RX_CNT p, dropCount p r] s (bump (dropCount p r) 1 (rxCounted p s)) ∧
      (bump (dropCount p r) 1 (rxCounted p s)).ing = s.ing := by
  have hne : dropCount p r ≠ Reg.ING_PORT_RX_CNT p := by
    cases r <;> simp only [dropCount, Reg.ING_PORT_NOMATCH_CNT, Reg.ING_PORT_L3_DROP_CNT, Reg.ING_PORT_CSUM_CNT, Reg.ING_PORT_RX_CNT] <;> omega
  refine ⟨?_, ?_, ((sameRegs_rxCounted p s).append (sameRegs_bump (dropCount p r) 1 _)).mono (List.Perm.swap _ _ []).subset, (bump_ing ..).trans (bump_ing ..)⟩
  · rw [rdN_bump_other _ _ hne.symm, rxCounted, rdN_bump_same]
  · rw [rdN_bump_same, rdN_rxCounted p s hne]

/-! ## Ziltur takes a packet (R252) -/

/-- The packet counts in its second and is handed to the control processor. -/
def zilturTook (p : Nat) (s : Dev) : Dev :=
  let c := mget (fun _ => (0, 0)) s.ing.ctl p
  send (.rx p .ziltur) { s with ing := { s.ing with ctl := mset (fun _ => (0, 0)) s.ing.ctl p (now s / 1000000000, (if c.1 = now s / 1000000000 then c.2 else 0) + 1) } }
/-- What a step in a control packet's answer keeps. -/
def Answered (a b : Dev) : Prop := OutGrows a b ∧ SameMem a b
theorem Answered.refl (a : Dev) : Answered a a := ⟨OutGrows.refl a, SameMem.refl a⟩
theorem Answered.trans {a b c : Dev} (h : Answered a b) (k : Answered b c) : Answered a c := ⟨h.1.trans k.1, h.2.trans k.2⟩
theorem answered_groupMsg (join : Bool) (st : Nat) (s : Dev) : Answered s (groupMsg join st s) :=
  ⟨outGrows_groupMsg .., (emitted_groupMsg ..).rest.sameMem⟩
theorem answered_groupMsgs (l : List Nat) (s : Dev) : Answered s (forS l (groupMsg true) s) :=
  forS_rel _ Answered.refl (fun _ _ _ => Answered.trans) l _ (fun st _ d => answered_groupMsg true st d) s
theorem toZiltur_answered {p : Nat} (a : Accepted) {s : Dev} (h : (mget (fun _ => (0, 0)) s.ing.ctl p).2 < 10000) :
    Answered (zilturTook p s) (toZiltur p a s) := by
  have hroom : ¬10000 ≤ (if (mget (fun _ => (0, 0)) s.ing.ctl p).1 = now s / 1000000000 then (mget (fun _ => (0, 0)) s.ing.ctl p).2 else 0) := by
    split <;> omega
  have hreply (k : Nat) (d : Dev) : Answered d (bump (Reg.ING_PORT_TX_CNT p) 1 (send (.reply p k) d)) :=
    ⟨outGrows_send .., (sameRest_send ..).sameMem.trans (sameMem_wrN ..)⟩
  unfold toZiltur
  dsimp only
  rw [if_neg hroom]
  split
  · split
    · exact answered_groupMsgs ..
    · exact hreply ..
  · exact Answered.refl _
theorem zilturTook_effect (p : Nat) (s : Dev) : OutMsg.rx p .ziltur ∈ (zilturTook p s).out ∧ SameMem s (zilturTook p s) := by
  refine ⟨?_, SameMem.trans ⟨rfl, rfl, rfl, rfl⟩ (sameRest_send ..).sameMem⟩
  rw [zilturTook, send_out _ _ rfl]
  exact List.mem_append_right _ (List.mem_singleton_self _)

section Deliver
variable {p : Nat} {a : Accepted} {s : Dev}

theorem deliver_unmatched (h : destOf s p a = none) : deliver p a s = bump (dropCount p .nomatch) 1 s := by
  simp only [deliver, h, dropCount]
theorem deliver_ziltur (h : destOf s p a = some .ziltur) : deliver p a s = toZiltur p a s := by
  simp only [deliver, h]
theorem deliver_media {st : Nat} (h : destOf s p a = some (.media st)) :
    deliver p a s = rtpMediaPacket st (readRtp (srcAddr a) (udpBody a)) (send (.rx p (.media st)) s) := by
  simp only [deliver, h]

end Deliver

/-! ## Links (R250) -/

theorem portLinkDown_effect {p : Nat} {s : Dev} (h : tst s (Reg.ING_PORT_STATUS p) 0 = true) {d : Dev} (hd : d = portLinkDown p s) :
    rf d (Reg.ING_PORT_STATUS p) 0 2 = 0 ∧ tst d Reg.ING_EVENT 5 = true ∧ d.ing = s.ing ∧ SameMem s d := by
  have hinfo : Reg.ING_PORT_STATUS p ≠ Reg.ING_FAULT_INFO := by simp only [Reg.ING_PORT_STATUS, Reg.ING_FAULT_INFO]; omega
  have hevent : Reg.ING_PORT_STATUS p ∉ [Reg.ING_EVENT] := by simp only [Reg.ING_PORT_STATUS, Reg.ING_EVENT, List.mem_singleton]; omega
  have hdown : portLinkDown p s = raise 0x0905 p (6 * 2 ^ 9) (wrN Reg.ING_FAULT_INFO (6 * 2 ^ 9) (wf (Reg.ING_PORT_STATUS p) 0 2 0 s)) := by
    rw [portLinkDown, h, Bool.not_true, if_neg Bool.false_ne_true]
  rw [hdown] at hd
  subst hd
  refine ⟨?_, tst_raiseFor (code := 0x0905) _ _ _ rfl (by decide), ?_, ((sameMem_wf ..).trans (sameMem_wrN ..)).trans (sameRest_raise ..).sameMem⟩
  · rw [raise, rf_of_same (sameRegs_raiseFor _ _ _ rfl) hevent, rf_wrN_other _ _ _ _ hinfo, rf_wf_same _ _ _ _ _ (by decide), Nat.zero_mod]
  · rw [raise_ing, wrN_ing, wf_ing]
/-- A port without link in a device outside ebb shows its mode and FEC, and its groups are joined. -/
theorem ethLinkUp_trains {p : Nat} {s : Dev} (hon : tst s (Reg.ING_PORT_CFG p) 0 = true) (hdom : domRuns s (92 + p) = true) (hebb : ebbState s ≠ 2) :
    ethLinkUp p s = forS ((List.range 512).filter fun st => stValid s st && stPort s st == p) (groupMsg true)
      (wrN (Reg.ING_PORT_STATUS p) (1 + 2 * b2n (decide (rf s (Reg.ING_PORT_CFG p) 1 2 < 2) && rf s (Reg.ING_PORT_CFG p) 3 2 != 0) +
        4 * rf s (Reg.ING_PORT_CFG p) 1 2) s) := by
  have hno : (ebbState s == 2) = false := beq_false_of_ne hebb
  simp only [ethLinkUp, hon, hdom, hno, whenS, Bool.not_true, Bool.not_false, Bool.false_and, Bool.or_false, Bool.false_eq_true, if_false, if_true]
theorem groupMsgs_effect {p : Nat} {l : List Nat} (s : Dev) (hp : p < 4) (hl : ∀ st ∈ l, stPort s st = p) :
    SameRegs [Reg.ING_PORT_TX_CNT p] s (forS l (groupMsg true) s) := by
  refine forS_inv (fun d => SameRegs [Reg.ING_PORT_TX_CNT p] s d) l _ (fun st hst d hd => ?_) s (SameRegs.refl _ s)
  have hentry : SameEntry st s d := hd.entry (by simp only [Reg.ING_PORT_TX_CNT, Reg.ING_TABLE, List.mem_singleton, forall_eq]; omega) st
  have hport : stPort d st = p := hentry.stPort.trans (hl st hst)
  refine groupMsg_rel (R := fun a b => SameRegs [Reg.ING_PORT_TX_CNT p] s a → SameRegs [Reg.ING_PORT_TX_CNT p] s b) (fun _ h => h) true (fun m h => ?_) hd
  rw [hport]
  exact h.trans ((sameRegs_send _ m d).trans (sameRegs_bump _ 1 _))
theorem ethLinkUp_effect {p : Nat} {s : Dev} (hp : p < 4) (hon : tst s (Reg.ING_PORT_CFG p) 0 = true) (hdom : domRuns s (92 + p) = true)
    (hebb : ebbState s ≠ 2) {d : Dev} (hd : d = ethLinkUp p s) :
    rdN d (Reg.ING_PORT_STATUS p) = 1 + 2 * b2n (decide (rf s (Reg.ING_PORT_CFG p) 1 2 < 2) && rf s (Reg.ING_PORT_CFG p) 3 2 != 0) +
      4 * rf s (Reg.ING_PORT_CFG p) 1 2 ∧ SameRegs [Reg.ING_PORT_STATUS p, Reg.ING_PORT_TX_CNT p] s d ∧ SameMem s d := by
  have hmode : rf s (Reg.ING_PORT_CFG p) 1 2 < 4 := Nat.mod_lt _ (by decide)
  have hfec (c : Bool) : b2n c ≤ 1 := by cases c <;> decide
  rw [ethLinkUp_trains hon hdom hebb] at hd
  generalize hn : 1 + 2 * b2n (decide (rf s (Reg.ING_PORT_CFG p) 1 2 < 2) && rf s (Reg.ING_PORT_CFG p) 3 2 != 0) + 4 * rf s (Reg.ING_PORT_CFG p) 1 2 = n at hd ⊢
  have hlt : n < 2 ^ 32 := by
    have := hfec (decide (rf s (Reg.ING_PORT_CFG p) 1 2 < 2) && rf s (Reg.ING_PORT_CFG p) 3 2 != 0)
    omega
  have hstatus : SameRegs [Reg.ING_PORT_STATUS p] s (wrN (Reg.ING_PORT_STATUS p) n s) := sameRegs_wrN _ n s
  have hentry (st : Nat) : SameEntry st s (wrN (Reg.ING_PORT_STATUS p) n s) :=
    hstatus.entry (by simp only [Reg.ING_PORT_STATUS, Reg.ING_TABLE, List.mem_singleton, forall_eq]; omega) st
  have hjoin := groupMsgs_effect (p := p) (l := (List.range 512).filter fun st => stValid s st && stPort s st == p)
    (wrN (Reg.ING_PORT_STATUS p) n s) hp fun st hst => by
      rw [(hentry st).stPort]
      exact beq_iff_eq.mp (Bool.and_eq_true_iff.mp (List.mem_filter.mp hst).2).2
  have hne : Reg.ING_PORT_STATUS p ∉ [Reg.ING_PORT_TX_CNT p] := by simp only [Reg.ING_PORT_STATUS, Reg.ING_PORT_TX_CNT, List.mem_singleton]; omega
  rw [hd]
  refine ⟨?_, (hstatus.append hjoin).mono (List.Perm.swap _ _ []).subset, (sameMem_wrN ..).trans (answered_groupMsgs ..).2⟩
  rw [hjoin _ hne, rdN_wrN_same, Nat.mod_eq_of_lt hlt]

/-! ## The obligation -/

/-- Settles O40: a frame ends at the first row of Table 10-2 that fails it, or goes where Table 10-3 sends it; links by their own rules. -/
theorem portsReceiveFramesAndTrain : Obligations.PortsReceiveFramesAndTrain := by
  unfold Obligations.PortsReceiveFramesAndTrain
  intro s p b ok hawake
  have hp : p.val < 4 := p.isLt
  refine ⟨fun hruns h => ?_, fun hidle => ?_, fun hruns hmin hmax h => ?_, fun hruns hmin hmax h => ?_, fun hruns hmin hmax h => ?_,
    fun a hruns hmin hmax h hdest hroom => ?_, fun a st hruns hmin hmax h hdest => ?_, fun hup => ?_, fun hon hdom hebb => ?_⟩
  · refine Does.of_onDev (f := ethFrameRx p b ok) hawake rfl ?_
    rw [ethFrameRx_damaged hruns h]
    exact ⟨rdN_bump_same .., sameRegs_bump _ 1 _, bump_ing .., bump_out ..⟩
  · exact Does.of_onDev (f := ethFrameRx p b ok) hawake rfl (ethFrameRx_idle ok hidle)
  · refine Does.of_onDev (f := ethFrameRx p b true) hawake rfl ?_
    rw [ethFrameRx_dropped hruns hp hmin hmax h]
    exact dropped_counts p .l3 s.dev
  · refine Does.of_onDev (f := ethFrameRx p b true) hawake rfl ?_
    rw [ethFrameRx_dropped hruns hp hmin hmax h]
    exact dropped_counts p .csum s.dev
  · refine Does.of_onDev (f := ethFrameRx p b true) hawake rfl ?_
    have hdropped : ethFrameRx p b true s.dev = bump (dropCount p .nomatch) 1 (rxCounted p s.dev) := by
      rcases h with h | ⟨a, h, hdest⟩
      · exact ethFrameRx_dropped hruns hp hmin hmax h
      · rw [ethFrameRx_taken hruns hp hmin hmax h, deliver_unmatched ((destOf_rxCounted s.dev hp a).trans hdest)]
    rw [hdropped]
    exact (dropped_counts p .nomatch s.dev).2
  · refine Does.of_onDev (f := ethFrameRx p b true) hawake rfl ?_
    rw [ethFrameRx_taken hruns hp hmin hmax h, deliver_ziltur ((destOf_rxCounted s.dev hp a).trans hdest)]
    obtain ⟨hout, hmem⟩ := zilturTook_effect p (rxCounted p s.dev)
    obtain ⟨hgrow, hmem'⟩ := toZiltur_answered (p := p) a (s := rxCounted p s.dev) hroom
    exact ⟨hgrow.subset hout, ((sameMem_wrN ..).trans hmem).trans hmem'⟩
  · refine Does.of_onDev (f := ethFrameRx p b true) hawake rfl ?_
    rw [ethFrameRx_taken hruns hp hmin hmax h, deliver_media ((destOf_rxCounted s.dev hp a).trans hdest)]
    refine (outGrows_rtpMediaPacket ..).subset ?_
    rw [send_out _ _ rfl]
    exact List.mem_append_right _ (List.mem_singleton_self _)
  · exact Does.of_onDev (f := ethLinkDown p) hawake rfl (portLinkDown_effect hup rfl)
  · exact Does.of_onDev (f := ethLinkUp p) hawake rfl (ethLinkUp_effect hp hon hdom hebb rfl)

end Sys2Proof.Machine
end
